-- ==== Sys2Proof/Word.lean ====
section
/-!
DEFINITION. Bytes and 32-bit words, the two widths the part's registers and buffers use (R4, R43).
-/
namespace Sys2Proof

/-- One byte of a buffer, of device memory, of the flash or of the logbook. -/
abbrev Byte := BitVec 8

/-- One register of BAR0: 32 bits (R4). -/
abbrev Word := BitVec 32

end Sys2Proof
end

