-- ==== Sys2Proof/Syntax.lean ====
section
/-!
DEFINITION. The commands of the block: one constructor for each row of spec/opcode_table.json, with the operands the
environment supplies (data read from host memory, blocks that arrive on links, readings, the index of what the row names).
-/
namespace Sys2Proof

/-- The two rope ports (chapter 13). -/
inductive Port where
  | up | dn
  deriving DecidableEq, Repr

/-- The two compute dies (Table 0-1). -/
inductive Die where
  | west | east
  deriving DecidableEq, Repr

/-- The layer fetcher of a plane on a die: each die has its own (R182). -/
structure Fetcher where
  die : Die
  plane : Nat
  deriving DecidableEq, Repr

/-- A target row of a die; where a port takes that line as it is made, `got` says, section by section, how many hogels the port
found before it underran (R171). -/
structure DieRow where
  die : Die
  got : List Nat
  deriving DecidableEq, Repr

/-- A soft error met by one read: symbol `pos` (0 to 35) of the codeword of sector `sector` is changed by `flip` (R328). -/
structure Upset where
  sector : Nat
  pos : Nat
  flip : Byte
  deriving DecidableEq, Repr

/-- A logbook group that a read finds with an error (R446): a single-bit error, or one of two bits. -/
structure LogErr where
  group : Nat
  double : Bool
  deriving DecidableEq, Repr

/-- How far a command that writes the flash gets, counted from where it stands (log entries 1801, 1802): to its end; to the sector of
a FLASH_WRITE or the copy of a SETTINGS_WRITE that reads back wrong; or to a point at which other commands come in between. After
`cut k`, a FLASH_WRITE has verified k sectors and works on the next; a SETTINGS_WRITE works on its first copy (0), stands between
the copies (1) or works on the second (2). -/
inductive StoreRun where
  | whole
  | bad (k : Nat)
  | cut (k : Nat)
  deriving DecidableEq, Repr

/-- What a LOG_WRITE meets: the groups it finds with errors, and where it stands when other commands come in between: after k groups,
in the next one. -/
structure LogRun where
  errs : List LogErr
  cut : Option Nat
  deriving DecidableEq, Repr

/-- What a cold boot meets (Table 19-1). -/
structure BootIn where
  /-- Every rail reaches regulation (R398). -/
  rails : Bool
  /-- Bit s: stack s fails its three training attempts; whether the logbook die responds (R456). -/
  hbmFail : Nat
  logbook : Bool
  /-- HEAD_N is asserted (R353). -/
  headN : Bool
  /-- Capacity of the flash in MiB; whether SFDP declares the modes 8-8-8 and 1-4-4, none where it is absent or inconsistent (R429,
  R430). -/
  capMiB : Nat
  sfdp : Option (Bool × Bool)
  /-- SIGNATURE of image A and of image B verifies (R434). -/
  sigA : Bool
  sigB : Bool
  /-- Logbook groups that the reads of SVN_MIN and the recall find with errors (R436, R445). -/
  errs : List LogErr
  /-- The first reading of each sensor (R411), and whether TREF_IN is valid (R361). -/
  sensors : List (Option Int)
  tref : Bool
  /-- The boot calibration: REF_V in range, the PREF and ADC results, the latency (R424). -/
  refOk : Bool
  pref : List Word
  adc : List Word
  lat : Nat
  /-- Time from the origin to READY in units of 10 us. -/
  readyT : Nat
  deriving DecidableEq, Repr

/-- One command. -/
inductive Instr where
  -- Host attachment and registers
  /-- A BAR0 write of `val` to `off` that has no row of its own (R6). -/
  | registerWrite (off : Nat) (val : Word)
  /-- A BAR0 access that is not a naturally aligned 32-bit one: `size` bytes at `off` (R4). -/
  | bar0UnsupportedAccess (off size : Nat) (write : Bool)
  /-- The link trains: CXL or PCIe, at `width` lanes and `gts` GT/s (R38). -/
  | linkUp (cxl : Bool) (width gts : Nat)
  /-- The CXL RAS Capability logs an error (R384). -/
  | hifCxlRas
  /-- PCIe hot reset, or the link goes down (R462). -/
  | hotReset
  /-- A host CXL.mem read of `lines` 64-byte lines from `addr`, meeting the given soft errors (R42). -/
  | cxlMemRead (addr lines : Nat) (upsets : List Upset)
  /-- A host CXL.mem write of whole 64-byte lines (R41). -/
  | cxlMemWrite (addr : Nat) (data : List Byte)
  /-- The driver sets FEATURES_OK (R62). -/
  | featuresOk
  /-- The driver writes ENABLE 1, with FEATURES_OK set in the same write or not; `pi` and `ci` are what ring 0's doorbell
  line holds when the device reads it (R69, R57). -/
  | enable (features : Bool) (pi ci : Nat)
  /-- HIF_CTRL.RESET is written 1 (R68). -/
  | functionReset
  /-- PCIe Function Level Reset (R68). -/
  | functionLevelReset
  /-- The function reset completes (R68). -/
  | functionResetDone
  /-- HIF_ABORT is written with GO (R67). -/
  | hifAbort (ring : Nat) (all : Bool)
  /-- The fresh read of a target ring's PI returns (R64); `pi` and `ci` are what its doorbell line holds. -/
  | abortPoint (ring pi ci : Nat)
  /-- A host store invalidates a ring's doorbell line (R57). -/
  | doorbellSnoop (ring : Nat)
  /-- The device re-reads a doorbell line and finds `pi` and `ci` (R57). -/
  | doorbellReread (ring pi ci : Nat)
  /-- HIF_DB_SQ(n) is written (R58). -/
  | hifDbSq (ring : Nat) (val : Word)
  /-- HIF_DB_CQ(n) is written (R58). -/
  | hifDbCq (ring : Nat) (val : Word)
  /-- The device reads the next descriptor of a ring; `bytes` are the 64 bytes read (R47). -/
  | descriptorFetch (ring : Nat) (bytes : List Byte)
  /-- The oldest descriptor of a ring passes its retire point (R48). -/
  | descriptorRetire (ring : Nat)
  /-- The ring's next completion record is written (R49). -/
  | completionWrite (ring : Nat)
  /-- COAL_US have passed since the oldest unsignalled completion (R59). -/
  | coalesceTimerExpiry (ring : Nat)
  -- Descriptors: each runs the next descriptor of `ring`
  /-- CREATE_RING; `pi` and `ci` are what the new ring's doorbell line holds (R57). -/
  | createRing (ring pi ci : Nat)
  | deleteRing (ring : Nat)
  | queueAbort (ring : Nat)
  | setPowerS0 (ring : Nat)
  | setPowerS1 (ring : Nat)
  | setPowerS2 (ring : Nat)
  | nop (ring : Nat)
  | evtRing (ring : Nat)
  | streamPush (ring : Nat) (data : List Byte)
  | streamReset (ring : Nat)
  | streamResetTakesEffect
  | loopPlay (ring : Nat)
  | present (ring : Nat)
  | shadowWrite (ring : Nat)
  | commit (ring : Nat)
  | commitArrive
  | bltRun (ring : Nat)
  | mbox (ring : Nat) (req : List Byte)
  | send (ring : Nat) (req : List Byte)
  | recv (ring : Nat) (req : List Byte)
  /-- LOG_READ; `errs` are the groups it finds with errors (R446). -/
  | logRead (ring : Nat) (errs : List LogErr)
  | logWrite (ring : Nat) (data : List Byte) (run : LogRun)
  | flashRead (ring : Nat)
  /-- FLASH_WRITE (R432). -/
  | flashWrite (ring : Nat) (data : List Byte) (run : StoreRun)
  /-- SETTINGS_WRITE (R442). -/
  | settingsWrite (ring : Nat) (data : List Byte) (run : StoreRun)
  /-- ENC_OPEN; `param` is the parameter block when it lies in host memory (R286). -/
  | encOpen (ring : Nat) (param : List Byte)
  /-- ENC_PUT; `table` is SRC_TABLE when it lies in host memory (Table 10-3). -/
  | encPut (ring : Nat) (table : List Byte)
  | encKey (ring : Nat)
  | encClose (ring : Nat)
  /-- ENC_KEY_REQ is written (R301). -/
  | encKeyReq (val : Word)
  /-- The next access unit of the session on `ring` starts (R291). -/
  | encAuStart (ring : Nat)
  /-- The next picture is coded (R291); `tex` and `dep` are the rows of source buffers in host memory, a byte that reads as
  poison being none (R289). -/
  | encPictureStart (tex dep : List (Option Byte))
  /-- Every parcel of the access unit on `ring` is written (R307). -/
  | encAuDone (ring : Nat)
  | seqParcel
  | gridParcel
  | auParcel
  | viewpicParcel
  | sliceParcel
  | depthParcel
  | padParcel
  | endParcel
  | extensionParcel
  | invalidTypeParcel
  | crcFailedParcel
  | sliceDispatch
  | sliceResume
  /-- The n-th lane has written its superblock row (R112). -/
  | sbrowFinal (n : Nat)
  /-- The n-th lane, or the parser where no lane is named, exhausts its budget (R119). -/
  | decWatchdog (lane : Option Nat)
  /-- The n-th concealed row that waits copies its source row (R127). -/
  | concealCopy (n : Nat)
  | lateWindowClose
  | decCntClear
  | lineStart
  | frameStart
  | dcbWindowEnd
  | guardPoint
  | decisionPoint
  | eAppFall
  /-- A die loads its next anchor row (R147). -/
  | swathRowLoad (die : Die)
  /-- A die synthesises its next target row (R145). -/
  | synthRow (row : DieRow)
  | hostMaxUsExpiry
  | synCntClear
  /-- A die's fetcher of a plane reads one source line (R182, R183). -/
  | planeFetch (fetcher : Fetcher) (j : Nat)
  | cmpCntClear
  /-- CMP_RETIRE_CFG is written with EN 1 (R206). -/
  | retireEnable (log2 : Nat)
  | scnCntClear
  | statusBlock (lane : Nat) (blk : List Byte)
  | statusTimeout (port : Nat)
  | trainReq (lane : Nat) (blk : List Byte)
  | pnlTrainFail (port : Nat)
  | trainRetry (port : Nat)
  | pnlRetrain (val : Word)
  | prefLimit (n : Nat)
  | crkMeasure (ohms : Nat)
  | pmbGo (val : Word)
  | pnlPmbDone (ack : Bool) (data : Word)
  | pnlCntClear
  | rxBlock (n : Nat) (syms : List Nat)
  | acquireDone (n : Nat)
  | adaptFreeze (n : Nat)
  | frozenResume (n : Nat)
  | rxElectricalIdle (n : Nat)
  | rxIdleEnd (n : Nat)
  | prbsGen (n : Nat) (on : Bool)
  | prbsChk (n : Nat) (on : Bool)
  | adaptHold (n : Nat) (on : Bool)
  | eyeMeasure (readings : List (Nat × Nat × Nat))
  | lnkTxFault (n : Nat)
  | lnkCntClear
  | encCntClear
  | bltListStart
  /-- The blitter of a die starts its next command (R317). -/
  | bltCommandStart (die : Die)
  /-- The blitter of a die finishes its command (R312). -/
  | bltCommandDone (die : Die)
  | bltCntClear
  /-- MEM_AFFINE is written (R325). -/
  | memAffine (val : Word)
  /-- The pair being re-initialised ends (R325). -/
  | pairReinitDone
  /-- The background clear has written every block (R326). -/
  | backgroundClearDone
  /-- The scrub reads the next sector, meeting the given soft errors (R333). -/
  | patrolScrubRead (upsets : List Upset)
  /-- A 1 ms boundary of the time unit (R338). -/
  | memBwInterval
  /-- MEM_CTRL.CNT_CLEAR is written 1 (R6). -/
  | memCntClear
  | pitchLockTimeout (p : Port)
  | pitchTrainTimeout (p : Port)
  | pitchRetry (p : Port)
  | pitchReq (p : Port) (lane : Nat) (msg : List Byte)
  | pitchAck (p : Port) (lane : Nat) (msg : List Byte)
  | hello (p : Port) (msg : List Byte)
  | helloSend (p : Port)
  | pitchAlignLoss (p : Port)
  | belay (p : Port) (msg : List Byte)
  | belaySend (p : Port) (mail : Bool)
  | enum (msg : List Byte)
  | enumDone (msg : List Byte)
  | presentMessage (p : Port) (msg : List Byte)
  | alarm (p : Port) (msg : List Byte)
  | mail (p : Port) (msg : List Byte)
  | mailAck (p : Port) (msg : List Byte)
  | mailAckTimeout (tag : Nat)
  | hopForward (p : Port) (mail : Bool) (lead : Nat)
  | leaveMessage (p : Port)
  | leave
  | leaveHoldDown
  | join
  | retrainUp
  | retrainDn
  | swGo (val : Word)
  | headWaitExpiry
  | ropeNoHead
  | ropeCntClear
  /-- TREF_IN has stayed in range for 10 ms (R361). -/
  | trefValid
  /-- TREF_IN has no edge for 1 us, or has left the range (R361). -/
  | trefLost
  /-- A rising edge of PPS_IN (R364). -/
  | ppsEdge
  /-- 1.5 s without a PPS edge (R364). -/
  | timPpsLost
  /-- TIM_OFFSET_HI is written (R362). -/
  | timOffsetHi (val : Word)
  /-- TIM_RATE is written (R362). -/
  | timRate (val : Word)
  /-- TIM_DC_INC_HI is written (R366). -/
  | timDcIncHi (val : Word)
  /-- TIM_DC_ADJ is written (R367). -/
  | timDcAdj (val : Word)
  /-- TIM_PPS_SEC_HI is written (R364). -/
  | timPpsSecHi (val : Word)
  /-- TIM_CTRL is written with SNAP (R6, Table 14-4). -/
  | snap
  /-- The 1 us comparison of RT with the display clock (R367). -/
  | steerCompare
  /-- The TSYNC interval expires (R369); `lead` quarter nanoseconds pass until the first bit leaves the ball. -/
  | tsyncSend (lead : Nat)
  /-- A TSYNC arrives, `back` quarter nanoseconds ago at the ball, on the given lane of the UP pitch (R371). -/
  | tsync (lane : Nat) (msg : List Byte) (back : Nat)
  /-- 64 consecutive TSYNC within 2 ns have been counted (R372). -/
  | timLock
  /-- 16 consecutive TSYNC above 20 ns have been counted (R372). -/
  | timUnlock
  /-- 1 ms without a usable TSYNC (R372). -/
  | tsyncTimeout
  /-- The 1 ms TDREQ interval expires (R369); `lead` as for TSYNC. -/
  | tdreqSend (lead : Nat)
  /-- A TDREQ arrives on the DN pitch; the answer leaves `turn` quarter nanoseconds after its arrival (R369). -/
  | tdreq (lane : Nat) (msg : List Byte) (turn : Nat)
  /-- A TDRESP arrives on the UP pitch, `back` quarter nanoseconds ago at the ball (R370). -/
  | tdresp (lane : Nat) (msg : List Byte) (back : Nat)
  /-- ARM is written in TIM_TEVn_CTRL with the given MODE and POL (R377). -/
  | arm (n : Nat) (val : Word)
  /-- DISARM is written in TIM_TEVn_CTRL (R379). -/
  | disarm (n : Nat) (val : Word)
  /-- The display clock matches the next edge of TEVn (R376). -/
  | tevEdge (n : Nat)
  /-- WIDTH has passed since the edge of TEVn (R379). -/
  | tevPulseEnd (n : Nat)
  /-- TIM_TSQ_INFO is written with POP (R382). -/
  | pop
  /-- EVT_ENABLEg is written (R386). -/
  | evtEnable (g : Nat) (val : Word)
  /-- EVT_TEST is written with GO (R390). -/
  | evtTest (src : Nat)
  /-- The coalescing timer of a source expires (R387). -/
  | eventCoalesceExpiry (src : Nat)
  | uvloRise (b : BootIn)
  | nvsRecallDone (errs : List LogErr)
  | pfailWarn
  | pfailNLow
  | pfailClear
  | uvloFall
  | overvoltage
  | overvoltageRecovery (b : BootIn)
  /-- The input is outside 36 to 75 V; `high` when above (R397). -/
  | pwrInputRange (high : Bool)
  | pwrRailFault
  | railFaultTimeout
  | railRetry (b : BootIn)
  | pmcsrD3hot
  | pmcsrD0
  | perstNAssert
  | perstNDeassert (b : BootIn)
  /-- WAKE_N has been low for 1 ms; `fresh` when the assertion began after sensor 32 read below 85 C (R422). -/
  | wakeN (fresh : Bool) (b : BootIn)
  | holdRefresh
  | pwrCntClear
  /-- Every sensor is read (R410): the ADC value of each of the 48 in 1/16 C, or none where it returns no reading;
  the input voltage and power are measured at the same 1 ms, in 10 mV and 10 mW (R397). -/
  | sensorRead (readings : List (Option Int)) (vin pin : Nat)
  /-- 1 s of good readings of sensor n (R411). -/
  | sensorReadmit (n : Nat)
  | thmSuspect
  /-- 10,000 consecutive close readings of sensor n (R415). -/
  | thmSuspectClear (n : Nat)
  /-- The comparator of a die fires: 0 west, 1 east, 2 hub (R419). -/
  | hardwareTrip (die : Nat)
  /-- Sensor 32 is read in thermal shutdown, in 1/16 C (R422). -/
  | shutdownPoll (reading : Int)
  | thmCntClear
  | calTempCheck
  | calRun
  | calRunStart
  /-- A run ends: whether REF_V was in range, the measured PREF and ADC words and the latency in ps (R424). -/
  | calRunDone (refOk : Bool) (pref adc : List Word) (lat : Nat)
  | calMoveHoldoff
  | stage
  | calCntClear
  | svnCommit
  | s0SecondsUpdate
  | nvsCntClear
  | mgmtWatchdog
  | glbFwNotice
  /-- A host write of one 32-bit word of the MSI-X table in BAR2 (R388, R469). -/
  | msixTableWrite (off : Nat) (val : Word)
  /-- A BAR0 read of a `_LO` register (R459). -/
  | loRegisterRead (off : Nat)
  | powerTransitionDone
  | mgmtRestartDone
  | electricalIdleDwellEnd (n : Nat)
  | fstrobePulseEnd
  deriving DecidableEq, Repr

end Sys2Proof
end

