-- ==== Sys2Proof/Machine/Bits.lean ====
section
/-!
DEFINITION. Bit fields, byte order, sign extension and serial-number arithmetic: the plain helpers every block shares.
-/
namespace Sys2Proof.Machine

/-- The `len` bits of `w` from bit `lo` up. -/
def bits (w lo len : Nat) : Nat := w / 2 ^ lo % 2 ^ len

/-- `w` with the `len` bits from bit `lo` up replaced by the low bits of `v`. -/
def setBits (w lo len v : Nat) : Nat :=
  w - bits w lo len * 2 ^ lo + v % 2 ^ len * 2 ^ lo

/-- Bit `i` of `w`. -/
def bitAt (w i : Nat) : Bool := w / 2 ^ i % 2 == 1

/-- The number 1 or 0 a flag bit stores. -/
def b2n (b : Bool) : Nat := if b then 1 else 0

/-- Byte `i` of a buffer; a byte past its end reads 0. -/
def byteAt (l : List Byte) (i : Nat) : Nat := (l.getD i 0).toNat

/-- The little-endian number in the `n` bytes of a buffer from byte `i` (R4: every field is little-endian). -/
def leAt (l : List Byte) (i : Nat) : Nat → Nat
  | 0 => 0
  | n + 1 => byteAt l i + 256 * leAt l (i + 1) n

/-- The `n` little-endian bytes of `v`. -/
def leBytes (v : Nat) : Nat → List Byte
  | 0 => []
  | n + 1 => BitVec.ofNat 8 v :: leBytes (v / 256) n

/-- The signed value of the low `n` bits of `v`. -/
def sext (n v : Nat) : Int :=
  let u := v % 2 ^ n
  if 2 * u < 2 ^ n then (u : Int) else (u : Int) - (2 ^ n : Nat)

/-- The `n`-bit two's-complement pattern of `z`. -/
def twos (n : Nat) (z : Int) : Nat := (z % ((2 ^ n : Nat) : Int)).toNat

/-- `z` held between `lo` and `hi`. -/
def clampI (lo hi z : Int) : Int := if z < lo then lo else if hi < z then hi else z

/-- `z` held between 0 and `hi`, as a natural number. -/
def clampN (hi : Nat) (z : Int) : Nat := (clampI 0 hi z).toNat

/-- `z` saturated to a signed `n`-bit value. -/
def satS (n : Nat) (z : Int) : Int := clampI (-((2 ^ (n - 1) : Nat) : Int)) (((2 ^ (n - 1) : Nat) : Int) - 1) z

/-- The sum of a counter and `n`, saturating at `2 ^ w - 1`. -/
def satAdd (w a n : Nat) : Nat := min (a + n) (2 ^ w - 1)

/-- `a / b` rounded up. -/
def ceilDiv (a b : Nat) : Nat := (a + b - 1) / b

/-- The serial distance of `b` from `a` for `n`-bit counts (R36); half the range apart it is negative, `-2 ^ (n-1)`. -/
def serialDelta (n b a : Nat) : Int := sext n ((b + 2 ^ n - a % 2 ^ n) % 2 ^ n)

/-- The serial distance with R37's reading: values half the range apart are the same. -/
def serialDist (n b a : Nat) : Int :=
  let d := serialDelta n b a
  if d = -((2 ^ (n - 1) : Nat) : Int) then 0 else d

/-- `b` is later than `a` (R36, R37). -/
def serialLater (n b a : Nat) : Bool := decide (0 < serialDist n b a)

/-- The median of three numbers. -/
def med3 (a b c : Int) : Int := max (min a b) (min (max a b) c)

/-- The position of the highest set bit plus one: 0 for 0 (structural on `fuel`). -/
def bitLen (fuel v : Nat) : Nat :=
  match fuel with
  | 0 => 0
  | k + 1 => if v = 0 then 0 else 1 + bitLen k (v / 2)

/-- Bitwise exclusive or of bytes. -/
def xorB (a b : Byte) : Byte := a ^^^ b

/-- The numbers `a, a+1, …, a+n-1`. -/
def upFrom (a n : Nat) : List Nat := (List.range n).map (a + ·)

/-- Replace entry `i` of a list, when there is one. -/
def listSet {α : Type} (l : List α) (i : Nat) (x : α) : List α := l.set i x

/-- Apply `f` to entry `i` of a list, when there is one. -/
def listMod {α : Type} (l : List α) (i : Nat) (f : α → α) : List α := l.modify i f

/-- `n` entries, the given ones first and `d` for the rest. -/
def padTo {α : Type} (n : Nat) (d : α) (l : List α) : List α := l.take n ++ List.replicate (n - l.length) d

end Sys2Proof.Machine
end

