-- ==== Sys2Proof/Machine/Synth.lean ====
section
/-!
DEFINITION. The ray arithmetic of chapter 5 on plain values: disparities, the splat, the back-fetch, weighting, hole fill, and
which views throttling decimates.
-/
namespace Sys2Proof.Machine

/-- A 10-bit colour. -/
structure Rgb where
  r : Nat
  g : Nat
  b : Nat
  deriving DecidableEq, Repr

/-- A disparity: finite in 1/16 hogel per view step, or infinity (R12, R13). -/
inductive Disp where
  | inf
  | fin (d : Int)
  deriving DecidableEq, Repr

/-- A cell of the swath store (R21, R147, R148). -/
inductive Cell where
  /-- No sample there (R18). -/
  | absent
  /-- Its load returned poison (R148). -/
  | poisoned
  | sample (d : Disp) (c : Rgb)
  deriving DecidableEq, Repr

/-- A layer-0 entry of the ray FIFO (R163 to R165). -/
inductive Entry where
  | culled
  | ray (c : Rgb)
  deriving DecidableEq, Repr

/-- One hogel row of the swath store: the row's hogel index and, for each anchor in use, the cells of the die's window. -/
structure SwathRow where
  r : Int
  cells : List (List Cell)
  deriving DecidableEq, Repr

/-- Rounding of 1/32 hogel (R151). -/
def rnd32 (o : Int) : Int := (o + 16) / 32

/-- INF ranks below every finite disparity (R151). -/
def Disp.lt : Disp → Disp → Bool
  | .inf, .inf => false
  | .inf, .fin _ => true
  | .fin _, .inf => false
  | .fin a, .fin b => decide (a < b)

/-- The greater of two disparities. -/
def Disp.max (a b : Disp) : Disp := if a.lt b then b else a
/-- The smaller of two disparities. -/
def Disp.min (a b : Disp) : Disp := if b.lt a then b else a

/-- The displacement of R152 and R156 along one axis for a step of `n` views: 2·d·n, and 0 for INF. -/
def Disp.shift (d : Disp) (n : Int) : Int :=
  match d with
  | .inf => 0
  | .fin d => rnd32 (2 * d * n)

/-- What a die synthesises a row with: its columns, the disparity bounds, and the settings of R155, R157, R161. -/
structure RowCfg where
  c0 : Int
  cols : Nat
  dh : Int
  dv : Int
  tol : Int
  crackFill : Bool
  holeReach : Nat
  bg : Rgb

/-- One view anchor of a view: its grid position, its index in the swath store and its weight (R149, R150). -/
structure ViewAnchor where
  ix : Nat
  ua : Int
  va : Int
  weight : Nat
  deriving DecidableEq, Repr

/-- The cell of an anchor at a hogel position, absent outside the window (R18, R21). -/
def swathCell (cfg : RowCfg) (rows : List SwathRow) (ix : Nat) (x y : Int) : Cell :=
  match rows.find? fun w => w.r == y with
  | none => .absent
  | some w => if x < cfg.c0 - cfg.dh then .absent else (w.cells.getD ix []).getD (x - (cfg.c0 - cfg.dh)).toNat .absent

/-- Within the disparity bounds (R153, R156). -/
def inBounds (cfg : RowCfg) (dx dy : Int) : Bool := decide (dx.natAbs ≤ cfg.dh.natAbs) && decide (dy.natAbs ≤ cfg.dv.natAbs)

/-- The window's rows and columns as offsets. -/
def windowRows (cfg : RowCfg) (y : Int) : List Int := (List.range (2 * cfg.dv.toNat + 1)).map fun (i : Nat) => y - cfg.dv + i
def windowCols (cfg : RowCfg) : List Int := (List.range (cfg.cols + 2 * cfg.dh.toNat)).map fun (i : Nat) => cfg.c0 - cfg.dh + i

/-- What a cell of the window does in the splat of a row (R152, R153). -/
inductive Splat where
  /-- It contributes its disparity to column `x` of the row. -/
  | lands (x : Int) (d : Disp)
  /-- Its offsets lie beyond the bounds: counted in SYN_DISP_CLIP. `at_` is the column of the row it would land on, if any. -/
  | clipped (at_ : Option Int)
  deriving DecidableEq, Repr

/-- One cell at (px, py) with disparity d in the splat of row `y` of view (u, v) (R152, R153): the bounds come first, so a cell of
the window whose offsets lie beyond them counts wherever it would land (log entry 511). -/
def splatCell (cfg : RowCfg) (u v y : Int) (a : ViewAnchor) (px py : Int) (d : Disp) : Option Splat :=
  let dx := d.shift (u - a.ua)
  let dy := d.shift (v - a.va)
  let here := decide (py + dy = y) && decide (cfg.c0 ≤ px + dx) && decide (px + dx < cfg.c0 + cfg.cols)
  if !inBounds cfg dx dy then some (.clipped (if here then some (px + dx) else none))
  else if here then some (.lands (px + dx) d)
  else none

/-- What the cells of one anchor do on row `y` of view (u, v). -/
def splatOne (cfg : RowCfg) (rows : List SwathRow) (u v y : Int) (a : ViewAnchor) : List Splat :=
  (windowRows cfg y).flatMap fun py => (windowCols cfg).filterMap fun px =>
    match swathCell cfg rows a.ix px py with
    | .sample d _ => splatCell cfg u v y a px py d
    | _ => none

/-- What every view anchor's cells do on row `y` of view (u, v). -/
def splatAll (cfg : RowCfg) (rows : List SwathRow) (u v y : Int) (as : List ViewAnchor) : List Splat :=
  as.flatMap fun a => splatOne cfg rows u v y a

/-- The column of the row that a splat would reach. -/
def Splat.col : Splat → Option Int
  | .lands x _ => some x
  | .clipped x => x

/-- The splat value at a column: the greatest disparity that lands there (R154). -/
def splatAt (cs : List Splat) (x : Int) : Option Disp :=
  cs.foldl (fun z c => match c with
    | .lands x' d => if x' = x then (match z with | none => some d | some w => some (w.max d)) else z
    | .clipped _ => z) none

/-- A splat that counts in SYN_DISP_CLIP. -/
def Splat.isClip : Splat → Bool
  | .lands _ _ => false
  | .clipped _ => true

/-- Crack fill (R155): an empty hogel between two splat values takes the smaller; the die's end columns never fill. -/
def crackFilled (zs : List (Option Disp)) : List (Option Disp) :=
  (List.range zs.length).map fun i =>
    match zs.getD i none with
    | some z => some z
    | none =>
      if i = 0 ∨ i + 1 = zs.length then none
      else match zs.getD (i - 1) none, zs.getD (i + 1) none with
        | some a, some b => some (a.min b)
        | _, _ => none

/-- Visibility of a fetched disparity against the splat value (R157). -/
def visible (tol : Int) (z d : Disp) : Bool :=
  match z, d with
  | .inf, .inf => true
  | .fin a, .fin b => decide (((b - a).natAbs : Int) ≤ tol)
  | _, _ => false

/-- What one back-fetch yields (R156, R158). -/
inductive Fetched where
  /-- Beyond the disparity bounds: counted in SYN_DISP_CLIP. -/
  | clipped
  | nothing
  | poison
  | got (d : Disp) (c : Rgb)
  deriving DecidableEq, Repr

/-- The back-fetch of a ray from one view anchor (R156). -/
def backFetch (cfg : RowCfg) (rows : List SwathRow) (u v x y : Int) (z : Disp) (a : ViewAnchor) : Fetched :=
  let dx := z.shift (a.ua - u)
  let dy := z.shift (a.va - v)
  if !inBounds cfg dx dy then .clipped
  else match swathCell cfg rows a.ix (x + dx) (y + dy) with
    | .absent => .nothing
    | .poisoned => .poison
    | .sample d c => .got d c

/-- A synthesised ray's outcome (R158 to R160). -/
inductive RayRes where
  | culled
  | hole
  | poisoned
  | synth (z : Disp) (c : Rgb)
  deriving DecidableEq, Repr

/-- One weighted component (R159). -/
def blend (s : List (Nat × Nat)) : Nat :=
  let wt := (s.map Prod.fst).sum
  ((s.map fun p => p.1 * p.2).sum + wt / 2) / wt

/-- The colour of a ray from the visible cells of its view anchors (R159): an anchor exactly at the view alone, else the
weighted mean; none visible is a hole. -/
def rayColour (cfg : RowCfg) (u v : Int) (z : Disp) (fs : List (ViewAnchor × Fetched)) : RayRes :=
  let vis := fs.filterMap fun f => match f.2 with
    | .got d c => if visible cfg.tol z d then some (f.1, c) else none
    | _ => none
  if fs.any fun f => f.2 == .poison then .poisoned
  else match vis.find? fun f => f.1.ua == u && f.1.va == v with
    | some f => .synth z f.2
    | none =>
      if vis.isEmpty then .hole
      else .synth z ⟨blend (vis.map fun f => (f.1.weight, f.2.r)), blend (vis.map fun f => (f.1.weight, f.2.g)),
        blend (vis.map fun f => (f.1.weight, f.2.b))⟩

/-- The nearest synthesised ray among the results listed nearest first (R161). -/
def nearest : List RayRes → Option (Disp × Rgb)
  | [] => none
  | .synth z c :: _ => some (z, c)
  | _ :: l => nearest l

/-- The colour a hole takes from its row (R161). -/
def holeColour (cfg : RowCfg) (res : List RayRes) (i : Nat) : Rgb :=
  match nearest ((res.take i).reverse.take cfg.holeReach), nearest ((res.drop (i + 1)).take cfg.holeReach) with
  | some l, some r => if r.1.lt l.1 then r.2 else l.2
  | some l, none => l.2
  | none, some r => r.2
  | none, none => cfg.bg

/-- One view's row: the FIFO entries (culling applied), the full-colour rays, and the counts of clipped occurrences, holes
and poisoned rays. -/
structure ViewRow where
  entries : List Entry
  clips : Nat
  holes : Nat
  poisons : Nat
  deriving DecidableEq, Repr

/-- Synthesise row `y` of view (u, v) (R152 to R163); `culledAt` are the spans the occlusion mask hides. -/
def synthView (cfg : RowCfg) (rows : List SwathRow) (u v y : Int) (as : List ViewAnchor) (culledAt : Nat → Bool) : ViewRow :=
  let cs := if (List.range cfg.cols).all culledAt then [] else (splatAll cfg rows u v y as).filter fun c =>
    match c.col with | some x => !culledAt (x - cfg.c0).toNat | none => true
  let raw := (List.range cfg.cols).map fun (i : Nat) => if culledAt i then none else splatAt cs (cfg.c0 + i)
  let zs := if cfg.crackFill then crackFilled raw else raw
  let fetched := (List.range cfg.cols).map fun (i : Nat) =>
    match culledAt i, zs.getD i none with
    | false, some z => as.map fun a => (a, backFetch cfg rows u v (cfg.c0 + i) y z a)
    | _, _ => []
  let res := (List.range cfg.cols).map fun (i : Nat) =>
    if culledAt i then RayRes.culled
    else match zs.getD i none with
      | none => .hole
      | some z => rayColour cfg u v z (fetched.getD i [])
  { entries := (List.range cfg.cols).map fun (i : Nat) =>
      match res.getD i .hole with
      | .culled => .culled
      | .poisoned => .ray cfg.bg
      | .hole => .ray (holeColour cfg res i)
      | .synth _ c => .ray c
    clips := (cs.filter Splat.isClip).length + (fetched.map fun f => (f.filter fun x => x.2 == .clipped).length).sum
    holes := (res.filter fun r => r == .hole).length
    poisons := (res.filter fun r => r == .poisoned).length }

/-- dist2 of R149. -/
def dist2 (u v ua va : Int) : Nat := ((u - ua) * (u - ua) + (v - va) * (v - va)).toNat

/-- Insert by a key, after the entries that are not larger: a stable ascending order. -/
def insertBy {α : Type} (key : α → Nat) (x : α) : List α → List α
  | [] => [x]
  | y :: l => if key x < key y then x :: y :: l else y :: insertBy key x l

/-- Stable ascending sort by a key. -/
def sortBy {α : Type} (key : α → Nat) (l : List α) : List α := l.foldl (fun acc x => insertBy key x acc) []

/-- The view anchors of (u, v) (R149) with their weights (R150), from the grid positions of the anchors in use. -/
def viewAnchors (fetchN : Nat) (grid : List (Nat × Nat)) (u v : Int) : List ViewAnchor :=
  (sortBy (fun (p : Nat × Nat × Nat) => dist2 u v p.2.1 p.2.2) (grid.zipIdx.map fun (p : (Nat × Nat) × Nat) => (p.2, p.1.1, p.1.2))).take fetchN
    |>.map fun p => ⟨p.1, p.2.1, p.2.2, max 1 (4096 / (1 + dist2 u v p.2.1 p.2.2))⟩

/-- K of R172. -/
def decimK (e : Nat) : Nat := if e = 0 then 1 else if e ≤ 6 then 2 else if e ≤ 9 then 4 else if e = 10 then 8 else 16

/-- N_d of R172. -/
def decimN (e uv : Nat) : Nat :=
  if e = 0 then 0 else min uv (ceilDiv (uv * (8 * e) * decimK e) (100 * (decimK e - 1)))

/-- All views ranked for decimation: farthest from the centre first, ties by view index (R173). The list holds view indices. -/
def decimRank (gu gv : Nat) : List Nat :=
  let far := fun (i : Nat) =>
    let a : Int := 2 * ((i % gu : Nat) : Int) - gu + 1
    let b : Int := 2 * ((i / gu : Nat) : Int) - gv + 1
    (a * a + b * b).toNat
  sortBy (fun i => 100000 - far i) (List.range (gu * gv))

end Sys2Proof.Machine
end

