-- ==== Sys2Proof/Machine/Compose.lean ====
section
/-!
DEFINITION. The composition arithmetic of chapter 6 and the packing of chapter 8 on plain values: pixel formats, scaling,
placement, blending, dithering, signatures and ray packing.
-/
namespace Sys2Proof.Machine

/-- A plane pixel: 10-bit colour, 8-bit alpha, and whether a byte of it was poison. -/
structure Pix where
  c : Rgb
  a : Nat
  poison : Bool
  deriving DecidableEq, Repr

/-- The settings of one plane (R183). -/
structure Plane where
  num : Nat
  enable : Bool
  format : Nat
  forceOpaque : Bool
  cull : Bool
  wait : Bool
  addr : Nat
  stride : Nat
  sw : Nat
  sh : Nat
  dw : Nat
  dh : Nat
  px : Int
  py : Int
  pd : Int
  readyAddr : Nat
  readyVal : Nat
  deriving DecidableEq, Repr

/-- Bytes a pixel takes (Table 6-1). -/
def bpp (format : Nat) : Nat := [2, 3, 4, 4].getD format 4

/-- Widening by bit replication (R185). -/
def widen5 (c : Nat) : Nat := c * 32 ||| c
def widen6 (c : Nat) : Nat := c * 16 ||| c / 4
def widen8 (c : Nat) : Nat := c * 4 ||| c / 64

/-- A pixel word of a format, widened (R184, R185). -/
def pixelOf (format : Nat) (forceOpaque : Bool) (w : Nat) (poison : Bool) : Pix :=
  let op := fun a => if forceOpaque then 255 else a
  match format with
  | 0 => ⟨⟨widen5 (bits w 11 5), widen6 (bits w 5 6), widen5 (bits w 0 5)⟩, 255, poison⟩
  | 1 => ⟨⟨widen8 (bits w 16 8), widen8 (bits w 8 8), widen8 (bits w 0 8)⟩, 255, poison⟩
  | 2 => ⟨⟨widen8 (bits w 16 8), widen8 (bits w 8 8), widen8 (bits w 0 8)⟩, op (bits w 24 8), poison⟩
  | _ => ⟨⟨bits w 20 10, bits w 10 10, bits w 0 10⟩, op (85 * bits w 30 2), poison⟩

/-- A plane whose pixels all have alpha 255 by its settings (R186). -/
def Plane.opaque (p : Plane) : Bool := p.format == 0 || p.format == 1 || p.forceOpaque

/-- One scaling stage of one axis (R187): the source samples a destination sample reads with their weights, the rounding term
and the divisor. -/
def scaleTaps (S D i : Nat) : List (Nat × Nat) × Nat × Nat :=
  if S = D then ([(i, 1)], 0, 1)
  else if S < D then
    let p := clampN (64 * (S - 1)) (((2 * i + 1) * S * 32 / D : Nat) - 32)
    let j := p / 64
    let f := p % 64
    (if f = 0 then [(j, 64)] else [(j, 64 - f), (j + 1, f)], 32, 64)
  else
    ((upFrom (i * S / D) (S / D + 2)).filterMap fun j =>
      if j * D < (i + 1) * S then
        some (j, min ((j + 1) * D) ((i + 1) * S) - max (j * D) (i * S))
      else none, S / 2, S)

/-- The value of a stage from its taps. -/
def tapValue (t : List (Nat × Nat) × Nat × Nat) (a : Nat → Nat) : Nat :=
  ((t.1.map fun p => p.2 * a p.1).sum + t.2.1) / t.2.2

/-- Destination pixel (i, j) of a plane from its source pixels, vertical axis first (R187); a poisoned source pixel makes it
the background colour with alpha 255 (R188). -/
def scalePixel (src : Nat → Nat → Pix) (sw sh dw dh i j : Nat) (bg : Rgb) : Pix :=
  let tv := scaleTaps sh dh j
  let th := scaleTaps sw dw i
  if th.1.any fun x => tv.1.any fun y => (src x.1 y.1).poison then ⟨bg, 255, true⟩
  else
    let ch := fun (f : Pix → Nat) => tapValue th fun x => tapValue tv fun y => f (src x y)
    ⟨⟨ch (fun p => p.c.r), ch (fun p => p.c.g), ch (fun p => p.c.b)⟩, ch Pix.a, false⟩

/-- The shift of a plane in a view along one axis of `n` views (R189). -/
def planeShift (pd : Int) (i n : Nat) : Int := rnd32 (pd * (2 * (i : Int) - n + 1))

/-- The destination pixel of a plane that lies at hogel (x, y) of view (u, v), if it covers it (R189). -/
def Plane.at (p : Plane) (gu gv x y u v : Nat) : Option (Nat × Nat) :=
  let i := (x : Int) - (p.px + planeShift p.pd u gu)
  let j := (y : Int) - (p.py + planeShift p.pd v gv)
  if 0 ≤ i ∧ i < p.dw ∧ 0 ≤ j ∧ j < p.dh then some (i.toNat, j.toNat) else none

/-- Whether hogel (x, y) of view (u, v) lies in a culling plane's span (R191). -/
def culledBy (ps : List Plane) (gu gv x y u v : Nat) : Bool :=
  ps.any fun p => p.enable && p.opaque && p.cull && (p.at gu gv x y u v).isSome

/-- One blend (R190). -/
def blendOver (a cp cb : Nat) : Nat := (a * cp + (255 - a) * cb + 127) / 255

/-- Compose one pixel over a colour. -/
def overPix (p : Pix) (b : Rgb) : Rgb := ⟨blendOver p.a p.c.r b.r, blendOver p.a p.c.g b.g, blendOver p.a p.c.b b.b⟩

/-- Compose a ray from layer 0 and the covering pixels of the enabled planes in ascending order, each with its plane's opacity
(R190): what lies below the highest opaque one takes no part. -/
def composeRay (base : Rgb) (cover : List (Bool × Pix)) : Rgb :=
  cover.foldl (fun b p => if p.1 then p.2.c else overPix p.2 b) base

/-- The dither matrix (R210). -/
def ditherM (j i : Nat) : Nat :=
  ([[0, 8, 2, 10], [12, 4, 14, 6], [3, 11, 1, 9], [15, 7, 13, 5]].getD (j % 4) []).getD (i % 4) 0

/-- A component reduced to P bits by the mode 0 rule (R210, R214). -/
def reduceRound (P c : Nat) : Nat := if P = 10 then c else min (2 ^ P - 1) ((c + 2 ^ (10 - P - 1)) / 2 ^ (10 - P))

/-- A component dithered to P bits (R210); mode 3 is treated as 1. -/
def ditherC (mode P k x y u v c : Nat) : Nat :=
  if P = 10 then c
  else if mode = 0 then reduceRound P c
  else
    let s := 10 - P
    let i := if mode = 2 then x + u + k else x + u
    let j := if mode = 2 then y + v + k / 4 else y + v
    min (2 ^ P - 1) ((c + ditherM j i * 2 ^ s / 16) / 2 ^ s)

/-- A ray dithered. -/
def ditherRay (mode P k x y u v : Nat) (c : Rgb) : Rgb :=
  ⟨ditherC mode P k x y u v c.r, ditherC mode P k x y u v c.g, ditherC mode P k x y u v c.b⟩

/-- A colour substituted at the ports (R214). -/
def reduceRay (P : Nat) (c : Rgb) : Rgb := ⟨reduceRound P c.r, reduceRound P c.g, reduceRound P c.b⟩

/-- One bit of the reflected CRC-32 (R223). -/
def crcBit (crc : Nat) : Nat := if crc % 2 = 1 then (crc / 2) ^^^ 0xEDB88320 else crc / 2

/-- One byte fed to the CRC-32. -/
def crcByte (crc b : Nat) : Nat :=
  crcBit (crcBit (crcBit (crcBit (crcBit (crcBit (crcBit (crcBit (crc ^^^ b))))))))

/-- The CRC register after a list of bytes; the CRC-32 of R223 starts it at 0xFFFFFFFF and inverts it at the end. -/
def crcFeed (crc : Nat) (bs : List Nat) : Nat := bs.foldl crcByte crc

/-- The CRC-32 of a byte string (R223). -/
def crc32 (bs : List Nat) : Nat := crcFeed 0xFFFFFFFF bs ^^^ 0xFFFFFFFF

/-- One ray fed to a signature: its 32-bit word, least significant byte first (R223). -/
def crcRay (crc : Nat) (c : Rgb) : Nat :=
  let w := c.r * 2 ^ 20 + c.g * 2 ^ 10 + c.b
  crcFeed crc [w % 256, w / 256 % 256, w / 65536 % 256, w / 16777216 % 256]

/-- The top `n` bits first: a number as bits, most significant first. -/
def msbBits (n v : Nat) : List Bool := (List.range n).map fun i => bitAt v (n - 1 - i)

/-- A number from bits, most significant first. -/
def fromMsb (l : List Bool) : Nat := l.foldl (fun acc b => 2 * acc + b2n b) 0

/-- The payload words of a hogel line: its rays' bits without gaps, cut into 64-bit words (R237). -/
def packWords (P : Nat) (rays : List Rgb) : List Nat :=
  let bs := rays.flatMap fun c => msbBits P c.r ++ msbBits P c.g ++ msbBits P c.b
  (List.range (bs.length / 64)).map fun j => fromMsb ((bs.drop (64 * j)).take 64)

/-- The payload words of one lane: word j travels on lane j mod 6 (R237). -/
def laneWords (ws : List Nat) (lane : Nat) : List Nat :=
  (ws.zipIdx.filter fun p => p.2 % 6 == lane).map Prod.fst

end Sys2Proof.Machine
end

