-- ==== Sys2Proof/Machine/Gf.lean ====
section
/-!
DEFINITION. The field GF(2^8) with x^8 + x^4 + x^3 + x^2 + 1 and α = 0x02 (R327), and the RS(36,32) symbol guard built on it.
-/
namespace Sys2Proof.Machine

/-- Multiplication by x in the field. -/
def gfDouble (a : Nat) : Nat := if a < 128 then 2 * a else (2 * a) ^^^ 0x11D

/-- Multiplication, one bit of `b` at a time. -/
def gfMulBits : Nat → Nat → Nat → Nat
  | 0, _, _ => 0
  | n + 1, a, b => (if b % 2 = 1 then a else 0) ^^^ gfMulBits n (gfDouble a) (b / 2)

/-- The product of two field elements. -/
def gfMul (a b : Nat) : Nat := gfMulBits 8 a b

/-- α to a power. -/
def gfExp : Nat → Nat
  | 0 => 1
  | n + 1 => gfDouble (gfExp n)

/-- Evaluate at `x` the polynomial whose coefficients are listed highest first. -/
def gfEval (x : Nat) (cs : List Nat) : Nat := cs.foldl (fun acc c => gfMul acc x ^^^ c) 0

/-- One step of the division by g(x) = x^4 + 0F x^3 + 36 x^2 + 78 x + 40: the remainder, highest coefficient first. -/
def guardShift (r : Nat × Nat × Nat × Nat) (m : Nat) : Nat × Nat × Nat × Nat :=
  let fb := r.1 ^^^ m
  (r.2.1 ^^^ gfMul fb 0x0F, r.2.2.1 ^^^ gfMul fb 0x36, r.2.2.2 ^^^ gfMul fb 0x78, gfMul fb 0x40)

/-- The check bytes C0 to C3 of the 32 bytes of a sector, lowest address first (R327). -/
def guardCheck (data : List Nat) : List Nat :=
  let r := data.foldl guardShift (0, 0, 0, 0)
  [r.1, r.2.1, r.2.2.1, r.2.2.2]

/-- The syndrome of a codeword's 36 symbols: its values at α^0 to α^3. -/
def guardSyndrome (cw : List Nat) : List Nat := (List.range 4).map fun j => gfEval (gfExp j) cw

/-- The syndrome of the poison mark: every check byte inverted (R330). -/
def poisonSyndrome : List Nat := guardSyndrome (List.replicate 32 0 ++ [0xFF, 0xFF, 0xFF, 0xFF])

/-- What a read finds (R328). -/
inductive SectorClass where
  | good
  | poisoned
  /-- One wrong symbol, at `pos` of the 36, off by `err`. -/
  | correctable (pos err : Nat)
  | uncorrectable
  deriving DecidableEq, Repr

/-- Whether a syndrome is that of error `e` in symbol `i`, the coefficient of x^(35-i). -/
def isSingle (syn : List Nat) (e i : Nat) : Bool :=
  syn == (List.range 4).map fun j => gfMul e (gfExp (j * (35 - i)))

/-- Classify a codeword in the order of R328. -/
def guardClassify (cw : List Nat) : SectorClass :=
  let syn := guardSyndrome cw
  if syn = [0, 0, 0, 0] then .good
  else if syn = poisonSyndrome then .poisoned
  else match (List.range 36).find? fun i => isSingle syn (syn.headD 0) i with
    | some i => .correctable i (syn.headD 0)
    | none => .uncorrectable

end Sys2Proof.Machine
end

