-- ==== Sys2Proof/Config.lean ====
section
/-!
DEFINITION. Values the specification leaves open, as constants without a body: nothing in Lean can evaluate them.
-/
namespace Sys2Proof.Config

/-- A byte the specification calls undefined (R325: CXL.mem reads of a changing pair); drawn from a counter. -/
opaque freeByte : Nat → Byte

/-- A bit the specification leaves open; drawn from a counter. -/
opaque freeBit : Nat → Bool

/-- A number the specification leaves open; drawn from a counter. -/
opaque freeNat : Nat → Nat

/-- The gains of the servo's proportional-integral loop for a bandwidth code and an interval in µs, in units of 2^-32 of a ns and of
2^-40 of a rate per ps of error: the spec gives the loop's damping, peaking and bandwidth (R372), not its gains. -/
opaque servoKp : Nat → Nat → Int
opaque servoKi : Nat → Nat → Int

/-- The fixed delay of a lane from block input to the balls, in ps, at full or at quarter rate (R276): the spec reports only the
receive delay. -/
opaque txDelay : Nat → Bool → Nat

/-- What a read-only register shows for operands at which its rule gives no value (a division by 0): by register offset and
operand. -/
opaque openValue : Nat → Nat → Nat

/-- Where the HDM Decoder Capability lies among the component registers (Table 2-2), as an offset of BAR0. -/
opaque hdmCap : Nat

/-- What a CXL component or device register keeps of a written value, and what it reads as: CXL 2.0 defines these registers (Table
2-2); by offset, stored word and written value. -/
opaque cxlStore : Nat → Word → Word → Word
opaque cxlShow : Nat → Word → Word

end Sys2Proof.Config
end

