-- ==== Sys2Proof/Machine/BltTypes.lean ====
section
/-!
DEFINITION. State of the blitters (chapter 11) that is not a register.
-/
namespace Sys2Proof.Machine

/-- A command list of a BLT_RUN (R310). -/
structure BltList where
  ring : Nat
  idx : Nat
  addr : Nat
  count : Nat
  /-- Commands finished. -/
  fin : Nat
  /-- The command in progress: its 64 bytes. -/
  cmd : Option (List Byte)
  /-- The next command has been found to wait under R317. -/
  waiting : Bool
  /-- The list has read poison (R321). -/
  poison : Bool
  deriving DecidableEq, Repr

/-- The two blitters and the lists that wait for one (R311). -/
structure BltSt where
  queue : List BltList
  west : Option BltList
  east : Option BltList
  deriving DecidableEq, Repr

def BltSt.reset : BltSt := { queue := [], west := none, east := none }

end Sys2Proof.Machine
end

