-- ==== Sys2Proof/Machine/Codec.lean ====
section
/-!
DEFINITION. The Sprinis slice syntax and the reconstruction arithmetic of chapter 3 on plain values: the bit reader, coding
units, intra and inter prediction, the inverse transform, and the parcel CRC.
-/
namespace Sys2Proof.Machine

/-- One step of CRC-16, most significant bit first (R74). -/
def crc16Bit (crc : Nat) : Nat := if 32768 ≤ crc then (2 * crc % 65536) ^^^ 0x1021 else 2 * crc

/-- One byte fed to the CRC-16. -/
def crc16Byte (crc b : Nat) : Nat :=
  crc16Bit (crc16Bit (crc16Bit (crc16Bit (crc16Bit (crc16Bit (crc16Bit (crc16Bit (crc ^^^ (b * 256)))))))))

/-- The CRC-16 of a parcel's covered bytes (R74). -/
def crc16 (bs : List Byte) : Nat := bs.foldl (fun c b => crc16Byte c b.toNat) 0xFFFF

/-- A byte string as bits, most significant bit of each byte first (R71). -/
def streamBits (bs : List Byte) : List Bool := bs.flatMap fun b => msbBits 8 b.toNat

/-- A reader of syntax elements: nothing when it reads past the end or meets an invalid code (R95). -/
abbrev Rd (α : Type) := List Bool → Option (α × List Bool)

/-- u(n) (Table 3-1). -/
def rdU : Nat → Rd Nat
  | 0, bs => some (0, bs)
  | _ + 1, [] => none
  | n + 1, b :: bs =>
    match rdU n bs with
    | none => none
    | some (v, rest) => some (b2n b * 2 ^ n + v, rest)

/-- The leading zeros of a ue(v) code, at most 31, and the bits after its first 1 (R72). -/
def rdZeros : Nat → Rd Nat
  | _, [] => none
  | _, true :: bs => some (0, bs)
  | 0, false :: _ => none
  | n + 1, false :: bs =>
    match rdZeros n bs with
    | none => none
    | some (z, rest) => some (z + 1, rest)

/-- ue(v) (Table 3-1, R72). -/
def rdUe (bs : List Bool) : Option (Nat × List Bool) := do
  let (lz, bs) ← rdZeros 31 bs
  let (info, bs) ← rdU lz bs
  pure (2 ^ lz - 1 + info, bs)

/-- The signed value of an exp-Golomb index (Table 3-1). -/
def seVal (k : Nat) : Int := if k % 2 = 1 then ((k + 1) / 2 : Nat) else -((k / 2 : Nat) : Int)

/-- se(v) (Table 3-1). -/
def rdSe (bs : List Bool) : Option (Int × List Bool) := do
  let (k, bs) ← rdUe bs
  pure (seVal k, bs)

/-- How a coding unit is predicted (Table 3-11). -/
inductive CuKind where
  | skip | inter | intra
  deriving DecidableEq, Repr

/-- cu_kind (Table 3-11). -/
def rdKind : Rd CuKind
  | true :: bs => some (.skip, bs)
  | false :: true :: bs => some (.inter, bs)
  | false :: false :: bs => some (.intra, bs)
  | _ => none

/-- intra_mode (Table 3-11). -/
def rdMode (bs : List Bool) : Option (Nat × List Bool) := do
  let (a, bs) ← rdU 2 bs
  if a = 0 then pure (0, bs)
  else
    let (b, bs) ← rdU 1 bs
    let v := 2 * a + b
    if v ≤ 4 then pure (v - 1, bs)
    else
      let (c, bs) ← rdU 1 bs
      pure (2 * v + c - 6, bs)

/-- A reconstructed unit as its neighbours see it: its place and its vector (R97, R101). -/
structure Unit8 where
  x0 : Nat
  y0 : Nat
  n : Nat
  inter : Bool
  ref : Nat
  mx : Int
  my : Int
  deriving DecidableEq, Repr

/-- A transform block with coded coefficients: its component, its place in the unit, and its levels in raster order. -/
structure TBlock where
  comp : Nat
  bx : Nat
  by_ : Nat
  levels : List Int
  deriving DecidableEq, Repr

/-- One coding unit as parsed: its prediction, the transform size, its coded blocks and sb_qp_delta. -/
structure Cu where
  u : Unit8
  kind : CuKind
  mode : Nat
  nt : Nat
  blocks : List TBlock
  qpDelta : Int
  deriving DecidableEq, Repr

/-- The next position of the zig-zag scan (R104): column j and row k, on a block of size n. -/
def zigzag (n : Nat) : List (Nat × Nat) :=
  (List.range (2 * n - 1)).flatMap fun d =>
    let js := (List.range (d + 1)).filter fun j => decide (j < n) && decide (d - j < n)
    ((if d % 2 = 1 then js.reverse else js).map fun j => (j, d - j))

/-- The (run, level) pairs of a residual block (R94): the position reached and the pairs. -/
def rdPairs (nt2 : Nat) : Nat → Nat → List Bool → Option (List (Nat × Int) × List Bool)
  | 0, _, bs => some ([], bs)
  | k + 1, next, bs => do
    let (run, bs) ← rdUe bs
    let (lev, bs) ← rdUe bs
    let (sign, bs) ← rdU 1 bs
    let pos := next + run
    if pos < nt2 ∧ lev ≤ 65534 then
      let (rest, bs) ← rdPairs nt2 k (pos + 1) bs
      pure ((pos, if sign = 1 then -((lev : Int) + 1) else (lev : Int) + 1) :: rest, bs)
    else none

/-- residual_block (R94): the levels in raster order. -/
def rdResidual (nt : Nat) (bs : List Bool) : Option (List Int × List Bool) := do
  let (nz, bs) ← rdUe bs
  if nz < nt * nt then
    let (ps, bs) ← rdPairs (nt * nt) (nz + 1) 0 bs
    let at_ := (zigzag nt).zipIdx.map fun p => (p.1, match ps.find? fun q => q.1 == p.2 with | some q => q.2 | none => 0)
    pure ((List.range (nt * nt)).map fun i =>
      (match at_.find? fun q => q.1 == (i % nt, i / nt) with | some q => q.2 | none => 0), bs)
  else none

/-- What a slice's parse depends on: the picture's extents and lists (R88, R90, R94). -/
structure SliceCtx where
  cw : Nat
  ch : Nat
  /-- 3 for texture, 1 for depth. -/
  nc : Nat
  sbQp : Bool
  nTref : Nat
  nRef : Nat
  deriving DecidableEq, Repr

/-- The transform blocks of a unit (R94): every (component, row, column) place in order. -/
def blockPlaces (nc n nt : Nat) : List (Nat × Nat × Nat) :=
  (List.range nc).flatMap fun c => (List.range (n / nt)).flatMap fun j => (List.range (n / nt)).map fun i => (c, i * nt, j * nt)

/-- Read the cbf flags and residual blocks at the listed places. -/
def rdBlocks (nt : Nat) : List (Nat × Nat × Nat) → List Bool → Option (List TBlock × List Bool)
  | [], bs => some ([], bs)
  | p :: ps, bs => do
    let (cbf, bs) ← rdU 1 bs
    if cbf = 1 then
      let (lv, bs) ← rdResidual nt bs
      let (rest, bs) ← rdBlocks nt ps bs
      pure (⟨p.1, p.2.1, p.2.2, lv⟩ :: rest, bs)
    else rdBlocks nt ps bs

/-- The unit that covers a position, among those already decoded (R96, R97). -/
def unitAt (us : List Unit8) (x y : Int) : Option Unit8 :=
  us.find? fun u => decide ((u.x0 : Int) ≤ x) && decide (x < u.x0 + u.n) && decide ((u.y0 : Int) ≤ y) && decide (y < u.y0 + u.n)

/-- The vector predictor of R101 from neighbours A, B and C. -/
def vecPred (us : List Unit8) (x0 y0 n r : Nat) : Int × Int :=
  let v := fun (o : Option Unit8) => match o with
    | some u => if u.inter ∧ u.ref = r then (u.mx, u.my) else (0, 0)
    | none => (0, 0)
  let a := v (unitAt us ((x0 : Int) - 1) y0)
  let b := v (unitAt us x0 ((y0 : Int) - 1))
  let c := v (match unitAt us (x0 + n) ((y0 : Int) - 1) with
    | some u => some u
    | none => unitAt us ((x0 : Int) - 1) ((y0 : Int) - 1))
  (med3 a.1 b.1 c.1, med3 a.2 b.2 c.2)

/-- A vector component or scalar is in the range of R102. -/
def vecOk (z : Int) : Bool := decide (-8192 ≤ z) && decide (z ≤ 8191)

/-- The prediction fields of a coding unit (R94, R101): its neighbour record and intra mode. -/
def rdPred (cx : SliceCtx) (us : List Unit8) (x0 y0 n : Nat) (k : CuKind) (bs : List Bool) :
    Option ((Unit8 × Nat) × List Bool) :=
  match k with
  | .skip =>
    let p := vecPred us x0 y0 n 0
    some ((⟨x0, y0, n, true, 0, p.1, p.2⟩, 0), bs)
  | .intra => do
    let (m, bs) ← rdMode bs
    pure ((⟨x0, y0, n, false, 0, 0, 0⟩, m), bs)
  | .inter => do
    let (r, bs) ← if 1 < cx.nRef then rdUe bs else some (0, bs)
    if r < cx.nRef then
      let (dx, bs) ← rdSe bs
      let (dy, bs) ← if r < cx.nTref then rdSe bs else some (0, bs)
      let p := vecPred us x0 y0 n r
      let mx := p.1 + dx
      let my := if r < cx.nTref then p.2 + dy else 0
      if vecOk mx && vecOk my then pure ((⟨x0, y0, n, true, r, mx, my⟩, 0), bs) else none
    else none

/-- coding_unit (R94). -/
def rdCu (cx : SliceCtx) (us : List Unit8) (x0 y0 n : Nat) (qpDelta : Int) (bs : List Bool) : Option (Cu × List Bool) := do
  let (k, bs) ← if 0 < cx.nRef then rdKind bs else some (.intra, bs)
  let ((u, m), bs) ← rdPred cx us x0 y0 n k bs
  if k = .skip then pure (⟨u, k, m, 8, [], qpDelta⟩, bs)
  else
    let (ts, bs) ← rdU 1 bs
    let nt := if ts = 1 then 4 else 8
    let (blocks, bs) ← rdBlocks nt (blockPlaces cx.nc n nt) bs
    pure (⟨u, k, m, nt, blocks, qpDelta⟩, bs)

/-- The parse of a superblock row so far: units newest first, and the bits left, or the point of damage. -/
structure RowParse where
  cus : List Cu
  rest : Option (List Bool)
  deriving DecidableEq, Repr

/-- One coding unit appended to a parse; `above` are the units of the slice's row above. -/
def stepCu (cx : SliceCtx) (above : List Unit8) (x0 y0 n : Nat) (qpDelta : Int) (p : RowParse) : RowParse :=
  match p.rest with
  | none => p
  | some bs =>
    match rdCu cx (p.cus.map Cu.u ++ above) x0 y0 n qpDelta bs with
    | none => { p with rest := none }
    | some (cu, bs) => ⟨cu :: p.cus, some bs⟩

/-- split_flag, read or inferred (R94). -/
def rdSplit (cx : SliceCtx) (x0 y0 n : Nat) (p : RowParse) : Bool × RowParse :=
  match p.rest with
  | none => (false, p)
  | some bs =>
    if 8 < n ∧ x0 + n ≤ cx.cw ∧ y0 + n ≤ cx.ch then
      match rdU 1 bs with
      | none => (false, { p with rest := none })
      | some (b, bs) => (b == 1, { p with rest := some bs })
    else (decide (8 < n), p)

/-- coding_quadtree (R94), with `fuel` levels below. -/
def rdTree (cx : SliceCtx) (above : List Unit8) (qpDelta : Int) : Nat → Nat → Nat → Nat → RowParse → RowParse
  | 0, _, _, _, p => p
  | k + 1, x0, y0, n, p =>
    if cx.cw ≤ x0 ∨ cx.ch ≤ y0 then p
    else
      let (split, p) := rdSplit cx x0 y0 n p
      if split then
        let h := n / 2
        rdTree cx above qpDelta k (x0 + h) (y0 + h) h
          (rdTree cx above qpDelta k x0 (y0 + h) h
            (rdTree cx above qpDelta k (x0 + h) y0 h (rdTree cx above qpDelta k x0 y0 h p)))
      else stepCu cx above x0 y0 n qpDelta p

/-- sb_qp_delta (R94). -/
def rdQpDelta (cx : SliceCtx) (p : RowParse) : Int × RowParse :=
  match p.rest with
  | none => (0, p)
  | some bs =>
    if !cx.sbQp then (0, p)
    else match rdSe bs with
      | none => (0, { p with rest := none })
      | some (d, bs) => if -63 ≤ d ∧ d ≤ 63 then (d, { p with rest := some bs }) else (0, { p with rest := none })

/-- The superblocks of row `sby` (R94). -/
def rdRow (cx : SliceCtx) (above : List Unit8) (sby : Nat) (bs : List Bool) : RowParse :=
  (List.range (ceilDiv cx.cw 32)).foldl (fun p sbx =>
    let (d, p) := rdQpDelta cx p
    rdTree cx above d 3 (32 * sbx) (32 * sby) 32 p) ⟨[], some bs⟩

/-- The end of the slice data: a stop bit of 1, then zero bits to the end of the payload's last byte, at `pos` bits in (R94,
R95). -/
def sliceEndOk (pos : Nat) (rest : List Bool) : Bool :=
  match rest with
  | true :: zs => zs.all (fun b => !b) && decide (zs.length = (8 - (pos + 1) % 8) % 8)
  | _ => false

/-! Intra prediction (R98 to R100). -/

/-- Fill unavailable samples from the nearest preceding available one in the order of R98; the first available value leads. -/
def fillFrom (last : Nat) : List (Option Nat) → List Nat
  | [] => []
  | some v :: l => v :: fillFrom v l
  | none :: l => last :: fillFrom last l

/-- The 4N + 1 neighbour samples in the scan order of R98, replaced where unavailable. -/
def neighbours (B : Nat) (l : List (Option Nat)) : List Nat :=
  fillFrom ((l.findSome? id).getD (2 ^ (B - 1))) l

/-- The samples around a unit in the scan order of R98: left upward, corner, top. -/
def neighbourSamples (at_ : Int → Int → Option Nat) (x0 y0 n : Nat) : List (Option Nat) :=
  ((List.range (2 * n)).map fun i => at_ ((x0 : Int) - 1) ((y0 : Int) + (2 * n - 1 - i : Nat))) ++
    [at_ ((x0 : Int) - 1) ((y0 : Int) - 1)] ++ ((List.range (2 * n)).map Int.ofNat).map fun i => at_ ((x0 : Int) + i) ((y0 : Int) - 1)

/-- top[i] and left[i] for i from -1 (R98). -/
def topOf (n : Nat) (a : List Nat) (i : Int) : Int := (a.getD (2 * (n : Int) + 1 + i).toNat 0 : Nat)
def leftOf (n : Nat) (a : List Nat) (i : Int) : Int := (a.getD (2 * (n : Int) - 1 - i).toNat 0 : Nat)

/-- The angle of a directional mode, and whether it is vertical (Table 3-12). -/
def modeAngle (m : Nat) : Bool × Int :=
  match m with
  | 2 => (true, 0) | 3 => (false, 0) | 4 => (true, 16) | 5 => (true, -16) | 6 => (false, 16) | 7 => (false, -16)
  | 8 => (true, 32) | _ => (true, -32)

/-- A directional sample in vertical orientation (R100): `main` is the array along the unit's prediction edge. -/
def dirSample (main side : Int → Int) (A x y : Int) : Int :=
  let ref := fun (i : Int) => if -1 ≤ i then main i else side ((-i - 1) * 32 / A.natAbs - 1)
  let pos := (y + 1) * A
  let idx := x + pos / 32
  let frac := pos % 32
  if frac = 0 then (32 * ref idx + 16) / 32 else ((32 - frac) * ref idx + frac * ref (idx + 1) + 16) / 32

/-- log2 of a unit or block size. -/
def lg2 (n : Nat) : Nat := if n = 4 then 2 else if n = 8 then 3 else if n = 16 then 4 else 5

/-- An intra-predicted sample (R99, R100). -/
def intraSample (n m : Nat) (a : List Nat) (x y : Nat) : Int :=
  match m with
  | 0 => (((((List.range n).map Int.ofNat).map fun i => topOf n a i + leftOf n a i).sum) + n) / (2 ^ (lg2 n + 1) : Nat)
  | 1 => (((n : Int) - 1 - x) * leftOf n a y + ((x : Int) + 1) * topOf n a n + ((n : Int) - 1 - y) * topOf n a x +
      ((y : Int) + 1) * leftOf n a n + n) / (2 ^ (lg2 n + 1) : Nat)
  | _ =>
    if (modeAngle m).1 then dirSample (topOf n a) (leftOf n a) (modeAngle m).2 x y
    else dirSample (leftOf n a) (topOf n a) (modeAngle m).2 y x

/-! Inter prediction (R103). -/

/-- Table 3-13. -/
def tapsOf (f : Nat) : List Int :=
  match f with
  | 0 => [0, 64, 0, 0] | 1 => [-4, 54, 16, -2] | 2 => [-4, 36, 36, -4] | _ => [-2, 16, 54, -4]

/-- Four taps applied to the samples at i - 1 to i + 2. -/
def tap4 (f : Nat) (at_ : Int → Int) (i : Int) : Int :=
  match tapsOf f with
  | [a, b, c, d] => a * at_ (i - 1) + b * at_ i + c * at_ (i + 1) + d * at_ (i + 2)
  | _ => 0

/-- The interpolated sample at quarter-sample position (X, Y) (R103); `at_` reads an integer position, already clamped. -/
def interSample (B : Nat) (at_ : Int → Int → Int) (X Y : Int) : Nat :=
  let xi := X / 4
  let yi := Y / 4
  let fx := (X % 4).toNat
  let fy := (Y % 4).toNat
  let v :=
    if fx = 0 ∧ fy = 0 then at_ xi yi
    else if fy = 0 then (tap4 fx (fun x => at_ x yi) xi + 32) / 64
    else if fx = 0 then (tap4 fy (fun y => at_ xi y) yi + 32) / 64
    else (tap4 fy (fun y => tap4 fx (fun x => at_ x y) xi) yi + 2048) / 4096
  clampN (2 ^ B - 1) v

/-- The integer positions the filter reads along one axis for samples p0 to p0 + n - 1 with vector m, before clamping. -/
def tapRange (p0 n : Nat) (m : Int) : Int × Int :=
  let lo := (4 * (p0 : Int) + m) / 4
  let hi := lo + n - 1
  if m % 4 = 0 then (lo, hi) else (lo - 1, hi + 2)

/-- The sign of an integer. -/
def sgn (z : Int) : Int := if z < 0 then -1 else if 0 < z then 1 else 0

/-! Residual (R104 to R108). -/

/-- Table 3-14. -/
def qs (q : Nat) : Nat := [32, 36, 40, 45, 51, 57].getD (q % 6) 32

/-- Dequantisation (R106). -/
def dequant (q : Nat) (c : Int) : Int :=
  clampI (-(2 ^ 23)) (2 ^ 23 - 1) (sgn c * (((c.natAbs * qs q * 2 ^ (q / 6) + 16) / 32 : Nat) : Int))

/-- T4 and T8 (R107), by frequency. -/
def t4 : List (List Int) := [[32, 32, 32, 32], [42, 17, -17, -42], [32, -32, -32, 32], [17, -42, 42, -17]]
def t8 : List (List Int) :=
  [[32, 32, 32, 32, 32, 32, 32, 32], [44, 38, 25, 9, -9, -25, -38, -44], [42, 17, -17, -42, -42, -17, 17, 42],
   [38, -9, -44, -25, 25, 44, 9, -38], [32, -32, -32, 32, 32, -32, -32, 32], [25, -44, 9, 38, -38, -9, 44, -25],
   [17, -42, 42, -17, -17, 42, -42, 17], [9, -25, 38, -44, 44, -38, 25, -9]]

/-- An entry of the transform matrix of size n. -/
def tAt (n k i : Nat) : Int := ((if n = 4 then t4 else t8).getD k []).getD i 0

/-- The inverse transform of a block in raster order (R107). -/
def inverse (n : Nat) (d : List Int) : List Int :=
  let y := (List.range (n * n)).map fun p =>
    clampI (-(2 ^ 23)) (2 ^ 23 - 1) ((((List.range n).map fun k => tAt n k (p / n) * d.getD (n * k + p % n) 0).sum + 64) / 128)
  (List.range (n * n)).map fun p =>
    (((List.range n).map fun k => y.getD (n * (p / n) + k) 0 * tAt n k (p % n)).sum + 2 ^ (2 + lg2 n)) / (2 ^ (3 + lg2 n) : Nat)

/-- The residual of a coded block (R106, R107). -/
def residualOf (nt q : Nat) (levels : List Int) : List Int := inverse nt (levels.map (dequant q))

/-- Reconstruction of one component of a unit (R108): prediction plus the residuals of its coded blocks, clipped. -/
def reconComp (B n nt : Nat) (pred : Nat → Nat → Int) (blocks : List (Nat × Nat × List Int)) : List Nat :=
  (List.range (n * n)).map fun p =>
    let x := p % n
    let y := p / n
    let r := match blocks.find? fun b => b.1 == x / nt * nt && b.2.1 == y / nt * nt with
      | some b => b.2.2.getD (nt * (y % nt) + x % nt) 0
      | none => 0
    clampN (2 ^ B - 1) (pred x y + r)

/-- The QP of a component (R105). -/
def qpOf (base sliceDelta sbDelta off : Int) : Nat := clampN 63 (base + sliceDelta + sbDelta + off)

end Sys2Proof.Machine
end

