-- ==== Sys2Proof/Machine/MemTypes.lean ====
section
/-!
DEFINITION. State of device memory and its controller (chapter 12) that is not a register.
-/
namespace Sys2Proof.Machine

/-- Traffic classes in the order of MEM_ERR_INFO.CLASS and MEM_BW (Table 5-3). -/
inductive MemClass where
  | scan | dec | host | enc | blt | scrub
  deriving DecidableEq, Repr

/-- The engines that reach memory through windows (R336), in the order of the rights bits' readers. -/
inductive Engine where
  | dec | syn | cmp | enc | blt | mgmt
  deriving DecidableEq, Repr

/-- One byte an engine reads: its value, and whether its sector is poisoned (R332). -/
structure MByte where
  val : Byte
  poison : Bool
  deriving DecidableEq, Repr

/-- Device memory. -/
structure MemSt where
  /-- Data bytes by device address, sparse, 0 where unlisted (R326). -/
  data : List (Nat × Byte)
  /-- Check bytes by 4 * sector + i for C_i, sparse, 0 where unlisted (R327: a zero sector's check bytes are 0). -/
  check : List (Nat × Byte)
  /-- Pair modes, bit j for pair j (R324); a pair being re-initialised counts with its new mode (R325). -/
  affine : Nat
  /-- Pairs still to be re-initialised, ascending (R325). -/
  reinit : List Nat
  /-- The background clear of R326 is running. -/
  clearing : Bool
  /-- Bytes each class moved in the current millisecond (R338). -/
  traffic : List Nat
  /-- Engines whose MEM_WINDOW has been raised, each with the raw time of the last one (R337). -/
  winSeen : List (Engine × Nat)
  deriving DecidableEq, Repr

/-- Memory in which nothing is listed: every sector reads 0 (R326). -/
def MemSt.reset : MemSt :=
  { data := [], check := [], affine := 0, reinit := [], clearing := false,
    traffic := [0, 0, 0, 0, 0, 0], winSeen := [] }

end Sys2Proof.Machine
end

