-- ==== Sys2Proof/Machine/DecTypes.lean ====
section
/-!
DEFINITION. State of the decode engine (chapter 4) that is not a register: the stream parser, the picture slots with their row
states, the slices in the engine, the archive and the settings in force.
-/
namespace Sys2Proof.Machine

/-- A superblock row of one plane of a picture at one version (R124, R134). -/
structure RowRef where
  uid : Nat
  depth : Bool
  row : Nat
  ver : Nat
  deriving DecidableEq, Repr

/-- Table 4-2. -/
inductive RowKind where
  | empty | pending | final | concealed
  deriving DecidableEq, Repr

/-- One superblock row of one plane. -/
structure SbRow where
  kind : RowKind
  /-- The samples are in memory (R121). -/
  ready : Bool
  /-- How often a repair has rebuilt the row (R134). -/
  ver : Nat
  /-- The read set (R124). -/
  reads : List RowRef
  /-- The accepted slice that made the row FINAL (R135). -/
  slice : Nat
  /-- The concealment source (R127): none for flat values. -/
  src : Option Nat
  /-- The descriptor feed whose slice the row was lost from, for its POISON flag (R129). -/
  feed : Option Nat
  deriving DecidableEq, Repr

/-- A list entry of R90. -/
inductive RefEntry where
  /-- A held picture, by admission. -/
  | pic (uid : Nat)
  /-- An inter-view reference whose VIEWPIC has not come (R91). -/
  | awaited
  /-- The flat picture of R128. -/
  | flat
  deriving DecidableEq, Repr

/-- One reference: its picture, and the signs of its grid offset for an inter-view reference (R102). -/
structure PicRef where
  entry : RefEntry
  /-- Anchor index it names. -/
  anchor : Nat
  temporal : Bool
  du : Int
  dv : Int
  deriving DecidableEq, Repr

/-- A late window (R132). -/
inductive LateWin where
  | unopened
  /-- Frame starts still to come. -/
  | opened (left : Nat)
  | closed
  deriving DecidableEq, Repr

/-- A VIEWPIC's parameters (Table 3-9) with the extents of R88. -/
structure ViewPic where
  scale : Nat
  gl : Nat
  gr : Nat
  gt : Nat
  gb : Nat
  qpTex : Nat
  qpDepth : Nat
  qpOffR : Int
  qpOffB : Int
  sbQp : Bool
  nTref : Nat
  sw : Nat
  sh : Nat
  deriving DecidableEq, Repr

/-- A picture in a slot. -/
structure Pic where
  /-- Admission number (R484). -/
  uid : Nat
  anchor : Nat
  au : Nat
  /-- Stream position of its AU parcel (R111), and the number of key units and resets before it (R133). -/
  auRank : Nat
  epoch : Nat
  /-- Slot k of its anchor, and the slot's address (R113). -/
  slot : Nat
  addr : Nat
  vp : ViewPic
  refs : List PicRef
  tex : List SbRow
  dep : List SbRow
  /-- The event of R125 has occurred for it. -/
  passed : Bool
  win : LateWin
  /-- An unpublished repair version (R136). -/
  repair : Bool
  /-- A replaced version (R137), and whether a frame in scan still uses it. -/
  stale : Bool
  stalePin : Bool
  deriving DecidableEq, Repr

/-- What a suspended slice waits on (R91, R123). -/
inductive WaitOn where
  | row (uid : Nat) (depth : Bool) (row : Nat)
  | entry (i : Nat)
  deriving DecidableEq, Repr

/-- A decoded superblock row whose samples a lane has still to write (R112). -/
structure RowOut where
  /-- Samples of each component, in raster order over the row. -/
  comps : List (List Nat)
  reads : List RowRef
  /-- Where the next row starts, in bits, and the units of this one. -/
  pos : Nat
  units : List Unit8
  deriving DecidableEq, Repr

/-- Where a slice stands. -/
inductive JobSt where
  | queued
  | waiting (on : List WaitOn)
  | lane (out : RowOut)
  deriving DecidableEq, Repr

/-- A slice in the engine (R110 to R112), or a repair's decode of an archived slice (R135). -/
structure Job where
  /-- Stream position of the slice: its identity. -/
  sid : Nat
  /-- The feed that carried it; none for repair decodes. -/
  feed : Option Nat
  uid : Nat
  depth : Bool
  data : List Byte
  first : Nat
  num : Nat
  qpDelta : Int
  /-- The rows to decode; the others are only parsed. -/
  only : List Nat
  rank : Nat
  /-- A late slice or a repair decode. -/
  repair : Bool
  /-- Current row, its first bit, the units above and, when this job made them, the samples above. -/
  row : Nat
  pos : Nat
  units : List Unit8
  above : Option (List (List Nat))
  st : JobSt
  deriving DecidableEq, Repr

/-- A STREAM descriptor in the parser's sequence (R485). -/
structure Feed where
  fid : Nat
  ring : Nat
  idx : Nat
  /-- STREAM_RESET waits in the sequence as a marker. -/
  isReset : Bool
  /-- LOOP_PLAY: address, and REPEAT. -/
  isLoop : Bool
  repeat_ : Nat
  /-- The device address of the buffer, when it is in device memory. -/
  dev : Option Nat
  len : Nat
  /-- The bytes of a host buffer. -/
  bytes : List Byte
  pos : Nat
  played : Nat
  consumed : Nat
  damaged : Bool
  unsupported : Bool
  poison : Bool
  parsed : Bool
  deriving DecidableEq, Repr

/-- A GRID (Table 3-7). -/
structure Grid where
  u : Nat
  v : Nat
  pos : List (Nat × Nat)
  deriving DecidableEq, Repr

/-- A SEQ in force: DOFF and MAX_TREF. -/
structure SeqPar where
  doff : Nat
  maxTref : Nat
  deriving DecidableEq, Repr

/-- Where the parser stands in the order of R78. -/
inductive ParseMode where
  /-- The next parcel must be a SEQ (R81). -/
  | needSeq
  /-- An accepted SEQ waits for its GRID, an accepted pair for its key unit. -/
  | afterSeq
  | afterGrid
  /-- In an access unit. -/
  | inAu
  /-- After a damaged AU parcel (R80). -/
  | auBad
  /-- After STREAM_RESET took effect. -/
  | afterReset
  /-- A stretch of R82 (consumed) or R83 (damaged), up to the next SEQ. -/
  | stretch (damaged : Bool)
  deriving DecidableEq, Repr

/-- The access unit last accepted. -/
structure CurAu where
  id : Nat
  seq : Nat
  rank : Nat
  key : Bool
  /-- VIEWPICs may still come: R125's event has not occurred. -/
  live : Bool
  /-- Anchors with an accepted VIEWPIC and their pictures; anchors under R115. -/
  done : List Nat
  short : List Nat
  deriving DecidableEq, Repr

/-- An accepted access unit: AU_ID, admission position, and the GRID and DOFF it was coded under. -/
structure AuRec where
  id : Nat
  seq : Nat
  grid : List (Nat × Nat)
  doff : Nat
  /-- SYN_ANCHOR_EXCESS has been raised for it (R19). -/
  excess : Bool
  deriving DecidableEq, Repr

/-- A slice in the archive (R139): the feed that carried it, its offset in bytes ever written, and its length. -/
structure ArchEntry where
  sid : Nat
  feed : Option Nat
  off : Nat
  len : Nat
  deriving DecidableEq, Repr

/-- The settings in force (R143). -/
structure DecCfg where
  poolBase : Nat
  stride : Nat
  slots : Nat
  anchors : Nat
  archBase : Nat
  archMiB : Nat
  perSb : Nat
  base : Nat
  deriving DecidableEq, Repr

/-- The open repair set (R134 to R137): its rows, and whether all were ready at the last guard point. -/
structure RepairSet where
  rows : List (Nat × Bool × Nat)
  armed : Bool
  deriving DecidableEq, Repr

/-- The decode engine. -/
structure DecSt where
  cfg : DecCfg
  feeds : List Feed
  /-- Stream position: parcels taken, and feeds opened. -/
  rank : Nat
  mode : ParseMode
  seq : Option SeqPar
  gridNew : Option Grid
  grid : Option Grid
  /-- A GRID has been accepted since the last accepted SEQ, and a key unit must come first (R81). -/
  gridOk : Bool
  needKey : Bool
  cur : Option CurAu
  aus : List AuRec
  /-- Admissions so far, and key units and resets so far. -/
  adm : Nat
  epoch : Nat
  /-- Temporal buffers: for each anchor, admissions, newest first (R89). -/
  temporal : List (List Nat)
  pics : List Pic
  /-- The pictures of an old pool layout, for frames latched before it was left (R143). -/
  oldPics : Option (List Pic)
  jobs : List Job
  archTotal : Nat
  arch : List ArchEntry
  repair : Option RepairSet
  /-- The engine concealed or substituted since the last STREAM completion was written (R142). -/
  concealed : Bool
  deriving DecidableEq, Repr

/-- The settings at reset (R143's register reset values). -/
def DecCfg.reset : DecCfg :=
  { poolBase := 0, stride := 0x3C2A, slots := 10, anchors := 36, archBase := 0, archMiB := 256, perSb := 0x2000, base := 0x1000 }

def DecSt.reset : DecSt :=
  { cfg := DecCfg.reset, feeds := [], rank := 0, mode := .needSeq, seq := none, gridNew := none, grid := none, gridOk := false,
    needKey := true, cur := none, aus := [], adm := 0, epoch := 0, temporal := List.replicate 36 [], pics := [],
    oldPics := none, jobs := [], archTotal := 0, arch := [], repair := none, concealed := false }

end Sys2Proof.Machine
end

