-- ==== Sys2Proof/Machine/EncTypes.lean ====
section
/-!
DEFINITION. State of the cine-loop capture encoder (chapter 10) that is not a register: sessions, their parameters, the access
unit in coding and the reference pictures of the work area.
-/
namespace Sys2Proof.Machine

/-- One anchor of a parameter block (Table 10-2): its position, scale, guard bands, and its stored extent (R88). -/
structure EncAnchor where
  u : Nat
  v : Nat
  scale : Nat
  gl : Nat
  gr : Nat
  gt : Nat
  gb : Nat
  sw : Nat
  sh : Nat
  deriving DecidableEq, Repr

/-- A session's parameter block (Table 10-2). -/
structure EncPar where
  loopBase : Nat
  loopSize : Nat
  workBase : Nat
  workSize : Nat
  cols : Nat
  rows : Nat
  doff : Nat
  gu : Nat
  gv : Nat
  numTref : Nat
  vrefMax : Nat
  sliceRows : Nat
  qpInit : Nat
  qpMin : Nat
  qpMax : Nat
  dqp : Int
  offR : Int
  offB : Int
  keyOff : Int
  texFmt : Nat
  depFmt : Nat
  budget : Nat
  keyInterval : Nat
  auBase : Nat
  anchors : List EncAnchor
  deriving DecidableEq, Repr

/-- The final vector of one 8 x 8 block: the reference's anchor and TREF_DELTA (0 for an inter-view reference), and the vector
or scalar (R296). -/
structure EncVec where
  anchor : Nat
  delta : Nat
  mx : Int
  my : Int
  deriving DecidableEq, Repr

/-- A reconstructed picture of the stored extent: texture words and depth codes in raster order, and the vectors of its 8 x 8
blocks in raster order over the coded extent, none where intra. -/
structure EncPic where
  tex : Array Nat
  dep : Array Nat
  vecs : Array (Option EncVec)
  deriving DecidableEq, Repr

/-- An ENC_PUT that waits or codes (Table 10-3). -/
structure EncPut where
  idx : Nat
  /-- SRC_TABLE as read: TEX, DEPTH, TEX_STRIDE and DEPTH_STRIDE of each anchor. -/
  src : List (Nat × Nat × Nat × Nat)
  result : Nat
  budget : Nat
  gmv : Option (Int × Int)
  gsc : Option Int
  key : Bool
  /-- An ENC_KEY stands before it (R301). -/
  keyReq : Bool
  deriving DecidableEq, Repr

/-- The access unit in coding. -/
structure EncAu where
  put : EncPut
  auId : Nat
  /-- Write offset of its AU parcel, B_AU, and the causes of KEY_CAUSE (Table 10-6). -/
  start : Nat
  budget : Nat
  cause : Nat
  historyFree : Bool
  qpTex : Nat
  qpDepth : Nat
  numTref : Nat
  /-- Pictures coded so far, in anchor order, and the slot of the work area they go to. -/
  pics : Nat
  slot : Nat
  tail : Nat
  overshoot : Bool
  poison : Bool
  deriving DecidableEq, Repr

/-- An open session (R281). -/
structure EncSess where
  num : Nat
  ring : Nat
  par : EncPar
  wptr : Nat
  /-- Texture QP of the next access unit (R307). -/
  q : Nat
  /-- Access units started in all, and since the last key unit started (the key unit included). -/
  started : Nat
  sinceKey : Nat
  /-- The previous ENC_PUT ended after its AU parcel was written (R300). -/
  failed : Bool
  /-- An ENC_KEY waits for the next ENC_PUT; a request of ENC_KEY_REQ is pending. -/
  keyNext : Bool
  keyReg : Bool
  /-- R306 has applied. -/
  full : Bool
  puts : List EncPut
  cur : Option EncAu
  /-- The work area's slots of the earlier access units since the last key unit, newest first. -/
  refs : List Nat
  deriving DecidableEq, Repr

/-- The encoder: open sessions, the session last served (R291), and the cores in use with the session each serves, oldest first. -/
structure EncSt where
  sess : List EncSess
  last : Nat
  cores : List (Nat × Nat)
  deriving DecidableEq, Repr

def EncSt.reset : EncSt := { sess := [], last := 15, cores := [] }

end Sys2Proof.Machine
end

