-- ==== Sys2Proof/Machine/Dbg.lean ====
section
/-!
DEFINITION. The debug test access port (R481). No row of the command table drives its pins, so that outside a test set-up
DBG_TRST_N stays low by its pull-down and the port stays in Test-Logic-Reset.
-/
namespace Sys2Proof.Machine

/-- The controller states of IEEE 1149.1 (PRESUMED: the spec names the standard; log entry 2101). -/
inductive TapState where
  | testLogicReset | runTestIdle
  | selectDr | captureDr | shiftDr | exit1Dr | pauseDr | exit2Dr | updateDr
  | selectIr | captureIr | shiftIr | exit1Ir | pauseIr | exit2Ir | updateIr
  deriving DecidableEq, Repr

/-- The controller's next state at a rising edge of DBG_TCK, by DBG_TMS (PRESUMED: IEEE 1149.1). -/
def TapState.next (t : TapState) (tms : Bool) : TapState :=
  match t with
  | .testLogicReset => if tms then .testLogicReset else .runTestIdle
  | .runTestIdle => if tms then .selectDr else .runTestIdle
  | .selectDr => if tms then .selectIr else .captureDr
  | .captureDr => if tms then .exit1Dr else .shiftDr
  | .shiftDr => if tms then .exit1Dr else .shiftDr
  | .exit1Dr => if tms then .updateDr else .pauseDr
  | .pauseDr => if tms then .exit2Dr else .pauseDr
  | .exit2Dr => if tms then .updateDr else .shiftDr
  | .updateDr => if tms then .selectDr else .runTestIdle
  | .selectIr => if tms then .testLogicReset else .captureIr
  | .captureIr => if tms then .exit1Ir else .shiftIr
  | .shiftIr => if tms then .exit1Ir else .shiftIr
  | .exit1Ir => if tms then .updateIr else .pauseIr
  | .pauseIr => if tms then .exit2Ir else .pauseIr
  | .exit2Ir => if tms then .updateIr else .shiftIr
  | .updateIr => if tms then .selectDr else .runTestIdle

/-- The test access port: whether DBG_TRST_N is low, and the controller's state. -/
structure Tap where
  trstLow : Bool
  st : TapState
  deriving DecidableEq, Repr

/-- DBG_TRST_N low by its pull-down (Table 21-6), the port in Test-Logic-Reset (R481). -/
def Tap.reset : Tap := { trstLow := true, st := .testLogicReset }

/-- DBG_TRST_N takes a level: low holds the port in Test-Logic-Reset (R481). -/
def Tap.trst (t : Tap) (low : Bool) : Tap := { trstLow := low, st := if low then .testLogicReset else t.st }

/-- A rising edge of DBG_TCK. -/
def Tap.clock (t : Tap) (tms : Bool) : Tap := { t with st := if t.trstLow then .testLogicReset else t.st.next tms }

/-- The pins that the boundary-scan register covers: those of Table 21-6 but VFLASH, REF_V, TREF_IN, CRK_OUT and CRK_IN, and neither
a reference output nor a lane ball (R481); the cells' order is left open. -/
def boundaryPins : List String :=
  ["HEAD_N", "WAKE_N", "PERST_N", "PFAIL_N", "ALERT_N", "THERM_N", "TEV0", "TEV1", "TEV2", "TEV3", "TEV4", "TEV5", "TEV6", "TEV7",
    "FSTROBE", "PPS_IN", "SF_CLK", "SF_CS_N", "SF_DQ0", "SF_DQ1", "SF_DQ2", "SF_DQ3", "SF_DQ4", "SF_DQ5", "SF_DQ6", "SF_DQ7", "SF_DQS",
    "SF_RST_N"] ++
  ["PMB_SCL", "PMB_SDA", "DBG_TCK", "DBG_TMS", "DBG_TDI", "DBG_TDO", "DBG_TRST_N", "DBG_TXD", "DBG_RXD"]

end Sys2Proof.Machine
end

