-- ==== Sys2Proof/Machine/HostTypes.lean ====
section
/-!
DEFINITION. State of the host interface (chapter 2) and of the event unit (chapter 15) that is not a register: rings,
descriptors, completion records, the MSI-X table, coalescing timers and the event ring.
-/
namespace Sys2Proof.Machine

/-- Where a fetched descriptor stands (R48). -/
inductive DescPhase where
  /-- Fetched, not started. -/
  | waiting
  /-- Started; it counts for the one-at-a-time rule of its ring. -/
  | running
  /-- Handed to its engine (a present in the latch logic, a pending commit): the next descriptor may start. -/
  | parked
  /-- Its outcome is known. -/
  | done
  deriving DecidableEq, Repr

/-- An enabled occurrence whose delivery waits for a record: its source, and SCN_FRAME and rope time at the occurrence (R393,
Table 15-7). -/
structure HeldEvt where
  src : Nat
  frame : Nat
  rt : Nat
  deriving DecidableEq, Repr

/-- A descriptor the device has fetched and not retired (R47, R48). -/
structure Desc where
  /-- Ring index, a free-running count. -/
  idx : Nat
  /-- The 64 bytes read (R47: read once). -/
  bytes : List Byte
  phase : DescPhase
  /-- Outcome, when done: STATUS, CFLAGS bits 7:1 and INFO of Table 2-6. -/
  status : Nat
  cflags : Nat
  info : Nat
  /-- Events that report this outcome and are delivered after its record (R393). -/
  evs : List HeldEvt
  deriving DecidableEq, Repr

/-- A retired descriptor whose completion record is not yet written (R49). -/
structure CplRec where
  op : Nat
  tag : Nat
  status : Nat
  cflags : Nat
  info : Nat
  sqHead : Nat
  event : Bool
  evs : List HeldEvt
  deriving DecidableEq, Repr

/-- One ring (R44, R45). -/
structure Ring where
  num : Nat
  cls : Nat
  log2 : Nat
  vector : Nat
  coalUs : Nat
  coalCount : Nat
  sqBase : Nat
  cqBase : Nat
  /-- Doorbell line address; 0 uses the MMIO doorbell (R58). -/
  dbLine : Nat
  /-- The device holds the line in the Shared state (R57); a snoop invalidates it. -/
  lineShared : Bool
  /-- The line has still to be read since the ring was made or the device returned to S0 (R57, R60). -/
  stale : Bool
  /-- Last accepted PI, consumer index, fetch index, completion index and CQ_CI (R46, R49). -/
  pi : Nat
  ci : Nat
  fetch : Nat
  cqPi : Nat
  cqCi : Nat
  /-- Fault state (R51). -/
  fault : Bool
  /-- Descriptors below this index are aborted as they are fetched (R64). -/
  abortTo : Nat
  descs : List Desc
  recs : List CplRec
  /-- EVENT completions not yet signalled, and whether the coalescing timer runs (R59). -/
  unsig : Nat
  timer : Bool
  deriving DecidableEq, Repr

/-- An abort that has not reached its abort point on every target (R64 to R67). -/
structure AbortOp where
  /-- The ring of QUEUE_ABORT, DELETE_RING or HIF_ABORT. -/
  ring : Nat
  /-- Targets still to be sampled. -/
  targets : List Nat
  /-- The ADMIN descriptor to complete (QUEUE_ABORT, DELETE_RING), or none for HIF_ABORT. -/
  admin : Option Nat
  /-- DELETE_RING removes its ring at the end (R49). -/
  delete : Bool
  count : Nat
  deriving DecidableEq, Repr

/-- HDM decoder 0 (R40): the host range it claims, the interleave ways (2^ways) and granularity (2^(8 + gran) bytes) the host
programmed, and whether they are in force. -/
structure HdmDecoder where
  base : Nat
  size : Nat
  ways : Nat
  gran : Nat
  committed : Bool
  deriving DecidableEq, Repr

/-- A decoder that claims nothing (PRESUMED: CXL 2.0). -/
def HdmDecoder.reset : HdmDecoder := ⟨0, 0, 0, 0, false⟩

/-- The host interface. -/
structure HifSt where
  linkUp : Bool
  /-- Link width and rate (GT/s) as trained (R38). -/
  width : Nat
  rate : Nat
  rings : List Ring
  aborts : List AbortOp
  /-- Features in force as a bit set (R62, R63); meaningful while RUNNING. -/
  feats : Nat
  /-- MSI-X table by 32-bit word index (R469), sparse; unlisted words read as `msixReset`. -/
  msix : List (Nat × Word)
  /-- Pending vectors, ascending (R388). -/
  msixPend : List Nat
  /-- `_HI` values captured by reading `_LO`, one a block: (block, offset of `_HI`, value) (R459). -/
  hiCap : List (Nat × Nat × Word)
  /-- The management core restarts: ADMIN and MGMT rings are not served (R463). -/
  mgmtDown : Bool
  /-- HDM decoder 0 (R40). -/
  hdm : HdmDecoder
  /-- The words of the other CXL component and device registers (Table 2-2) by offset, sparse, 0 where nothing was written. -/
  cxl : List (Nat × Word)
  /-- The debug test access port (R481). -/
  tap : Tap
  deriving DecidableEq, Repr

/-- The host interface with no link and no rings. -/
def HifSt.reset : HifSt :=
  { linkUp := false, width := 0, rate := 0, rings := [], aborts := [], feats := 0,
    msix := [], msixPend := [], hiCap := [], mgmtDown := false, hdm := HdmDecoder.reset, cxl := [], tap := Tap.reset }

/-- What an unlisted word of the MSI-X table reads as: every vector masked, the rest 0 (PRESUMED: PCIe). -/
def msixReset (i : Nat) : Word := if i % 4 = 3 then 1 else 0

/-- The coalescing timer and the held occurrences of one source (R387, R396). -/
structure EvtSrc where
  src : Nat
  running : Bool
  count : Nat
  frame : Nat
  rt : Nat
  deriving DecidableEq, Repr

/-- The event unit. -/
structure EvtSt where
  srcs : List EvtSrc
  ringBase : Nat
  ringVec : Nat
  /-- Records were lost since the last record written (R392). -/
  lost : Bool
  /-- Within a decision point, the occurrences whose deliveries wait for the records of step 5, in order (R393). -/
  wait : Option (List HeldEvt)
  deriving DecidableEq, Repr

/-- No timer runs and no ring is active (R464, R395). -/
def EvtSt.reset : EvtSt := { srcs := [], ringBase := 0, ringVec := 0, lost := false, wait := none }

end Sys2Proof.Machine
end

