-- ==== Sys2Proof/Machine/LnkTypes.lean ====
section
/-!
DEFINITION. State of the serial lanes (chapter 9) and of the rope (chapter 13) that is not a register.
-/
namespace Sys2Proof.Machine

/-- What a transmit lane sends (R260, R261, R267 to R272, R278). -/
structure TxLane where
  /-- Raw time at which the stream began, and the symbols sent since then. -/
  since : Nat
  count : Nat
  /-- The last 58 scrambled bits (R269), the newest in bit 0. -/
  hist : Nat
  /-- Payload bytes of the codeword in progress, as sent (R270). -/
  cw : List Nat
  /-- The precoder's last symbol, precoding in force, and a change that waits for the next codeword (R261). -/
  lastP : Nat
  pre : Bool
  preNext : Option Bool
  /-- The last 31 bits of the PRBS31 generator (R278). -/
  prbs : Nat
  /-- Symbols sent, newest first. -/
  sent : List Nat
  deriving DecidableEq, Repr

/-- A transmitter that has sent nothing. The scrambler starts in any state (R269), and the generator in any but zero: 0 and all ones
are DESIGN CHOICES (log entry 916). -/
def TxLane.reset : TxLane :=
  { since := 0, count := 0, hist := 0, cw := [], lastP := 0, pre := false, preNext := none, prbs := 2 ^ 31 - 1, sent := [] }

/-- One serial lane. A lane with one direction leaves the other's fields unused (Table 9-1). -/
structure Lane where
  /-- What the transmitter sends. -/
  tx : TxLane
  /-- The transmitter sends electrical idle; the receiver detects it. -/
  txIdle : Bool
  rxIdle : Bool
  /-- Received symbol levels not yet framed, and the bit of the first one at which the next block begins (R273). -/
  carry : List Nat
  off : Nat
  /-- Precoder memory of the receiver, precoding in force there, and a change that waits for the next codeword (R261). -/
  lastP : Nat
  rxPre : Bool
  rxPreNext : Option Bool
  /-- Consecutive valid headers in HUNT; validity of the last 64 headers, newest first (R273). -/
  run : Nat
  win : List Bool
  /-- Slots since the candidate check slot, confirmations, and check slots missed in a row (Table 9-7). -/
  slot : Nat
  conf : Nat
  miss : Nat
  /-- Blocks of the codeword in reception: whether the header fits the slot, and header with payload (R270). -/
  cw : List (Bool × Nat × List Byte)
  /-- The last 58 received scrambled bits (R269), the newest in bit 0. -/
  hist : Nat
  /-- No block lock since electrical idle or a rate change (Table 9-4). -/
  fresh : Bool
  /-- Counts of Table 9-4. -/
  blocks : Nat
  idleRun : Nat
  traffic : Nat
  /-- The last eye height was below EYE_MIN (R279). -/
  eyeLow : Bool
  /-- PRBS checker: the last 31 bits, and how many have matched or been loaded since its start (R278). -/
  prbs : Nat
  prbsRun : Nat
  /-- Data blocks still due of the hop message in reception, whether one was errored, and whether data without a header
  is arriving (R340). -/
  msgLeft : Nat
  msgBad : Bool
  orphan : Bool
  /-- LNK_Ln_LAT was taken since block lock was gained (R276). -/
  latSet : Bool
  /-- Last SEQ processed for the lane's transmitter (R243). -/
  lastSeq : Option Nat
  /-- Saved coefficient words of LNK_Ln_FIR at full and at quarter rate (R242, R263). -/
  saved : Option Nat
  savedQ : Option Nat
  deriving DecidableEq, Repr

/-- A lane in electrical idle with no history. -/
def Lane.reset : Lane :=
  { tx := TxLane.reset, txIdle := true, rxIdle := true, carry := [], off := 0, lastP := 0, rxPre := false, rxPreNext := none,
    run := 0, win := [], slot := 0, conf := 0, miss := 0, cw := [], hist := 0, fresh := true, blocks := 0, idleRun := 0,
    traffic := 0, eyeLow := false, prbs := 0, prbsRun := 0, msgLeft := 0, msgBad := false, orphan := false, latSet := false,
    lastSeq := none, saved := none, savedQ := none }

/-- A hop message that waits to start on a port: its class, header and data as bytes, 8 a block, its transmit timestamp's
kind, KEY and identifier when it carries TS (R381), and the port whose receive buffer it still holds. -/
structure HopMsg where
  mail : Bool
  bytes : List Byte
  ts : Option (Nat × Nat × Nat)
  src : Option Port
  deriving DecidableEq, Repr

/-- One pitch beyond the state in ROPE_UP_STATE or ROPE_DN_STATE (R343). -/
structure Pitch where
  /-- DOWN after a failure, until its retry delay has passed (Table 13-3). -/
  failed : Bool
  /-- The lanes are held in electrical idle before a retrain at the other rate (R348). -/
  dwell : Bool
  /-- Retraining at the other rate after a LOW_POWER change, messages held (R348). -/
  retrain : Bool
  /-- For each lane: lane done sent and received (Table 13-3). -/
  sentDone : List Bool
  gotDone : List Bool
  reqSeq : Nat
  /-- The versions this tile offers in the training that began last (R345). -/
  versions : Nat
  /-- From the partner's HELLO (Table 13-4). -/
  peerLow : Bool
  peerCtrl : Nat
  peerMail : Nat
  /-- BELAY counts: control then mail (R350). -/
  sent : List Nat
  freed : List Nat
  recv : List Nat
  peerFreed : List Nat
  /-- FREED has changed since the last BELAY of the class. -/
  belayDue : List Bool
  /-- Hop messages waiting to start, oldest first. -/
  txq : List HopMsg
  deriving DecidableEq, Repr

def Pitch.reset : Pitch :=
  { failed := false, dwell := false, retrain := false, sentDone := [false, false], gotDone := [false, false], reqSeq := 0, versions := 3,
    peerLow := false, peerCtrl := 0, peerMail := 0, sent := [0, 0], freed := [0, 0], recv := [0, 0], peerFreed := [0, 0],
    belayDue := [false, false], txq := [] }

/-- A SEND that waits for its MAIL_ACK (R358). -/
structure SendWait where
  ring : Nat
  idx : Nat
  tag : Nat
  dst : Nat
  resp : Nat
  /-- The request was read as poison (Table 2-6). -/
  poison : Bool
  deriving DecidableEq, Repr

/-- A queued rope mail (R358). -/
structure Mail where
  src : Nat
  bytes : List Byte
  deriving DecidableEq, Repr

/-- The rope. -/
structure RopeSt where
  up : Pitch
  dn : Pitch
  /-- The rope ports have been released from DOWN by boot, JOIN or a rejoin (R353). -/
  released : Bool
  /-- HEAD_WAIT_MS has passed since the release (R353). -/
  headWaited : Bool
  /-- An ENUM has been received since the UP pitch entered UP (R355). -/
  enumSeen : Bool
  /-- Both ports are held DOWN after a LEAVE (R359). -/
  heldDown : Bool
  mails : List Mail
  send : List SendWait
  mailTag : Nat
  /-- Raw time of the last ROPE_MSG_DROP (R340). -/
  dropAt : Option Nat
  deriving DecidableEq, Repr

def RopeSt.reset : RopeSt :=
  { up := Pitch.reset, dn := Pitch.reset, released := false, headWaited := false, enumSeen := false, heldDown := false,
    mails := [], send := [], mailTag := 0, dropAt := none }

end Sys2Proof.Machine
end

