-- ==== Sys2Proof/Machine/NvsTypes.lean ====
section
/-!
DEFINITION. State of the serial flash and of the logbook (chapter 18) that is not a register.
-/
namespace Sys2Proof.Machine

/-- An error-log record that waits for the recall to find the newest slot (R445, R450). -/
structure LogWait where
  src : Nat
  rt : Nat
  frame : Nat
  deriving DecidableEq, Repr

/-- A LOG_WRITE, FLASH_WRITE or SETTINGS_WRITE in progress: its descriptor, the next byte's offset with the bytes still to be written
(of a SETTINGS_WRITE the whole record), whether it is a SETTINGS_WRITE, how many bytes or copies are finished, whether a group, sector or copy is in the middle of
its writing, POISON of its record, and the events that come with the record. -/
structure StoreOp where
  /-- Ring of its descriptor. -/
  ring : Nat
  /-- Index of its descriptor on that ring. -/
  idx : Nat
  /-- Offset of the next byte to be written in its store. -/
  off : Nat
  /-- Bytes still to be written, of a SETTINGS_WRITE the whole record (R433). -/
  rest : List Byte
  /-- It is a SETTINGS_WRITE, which writes two copies (R433). -/
  settings : Bool
  /-- Bytes finished, of a SETTINGS_WRITE copies finished. -/
  fin : Nat
  /-- A group, sector or copy is in the middle of its writing (R433, R447). -/
  busy : Bool
  /-- CFLAGS of its record, POISON for bytes that read as poison (R332). -/
  flags : Nat
  /-- Events that come with its record (R393). -/
  evs : List Nat
  deriving DecidableEq, Repr

/-- The two stores. -/
structure NvsSt where
  /-- Flash bytes by offset, sparse; an erased byte reads 0xFF. -/
  flash : List (Nat × Byte)
  /-- Logbook bytes by offset, sparse, 0 where unlisted. -/
  log : List (Nat × Byte)
  /-- Uncorrectable logbook groups, by group number (R446). -/
  badGroups : List Nat
  /-- Next SEQ of the error log and of the cairn records (R449, R450). -/
  errSeq : Nat
  cairnSeq : Nat
  /-- Raw times of the error-log records of the last second, newest first (R450: at most 10 a second). -/
  logTimes : List Nat
  /-- Records that wait for the recall. -/
  logQ : List LogWait
  /-- Capacity of the flash in MiB (R429). -/
  capMiB : Nat
  /-- Nanoseconds in S0 not yet in the lifetime counter (Table 18-7). -/
  s0Ns : Nat
  /-- The logbook write and the flash operation in progress (R433, R447, R448). -/
  logOp : Option StoreOp
  flashOp : Option StoreOp
  deriving DecidableEq, Repr

/-- Empty stores; the contents a module is shipped with are a DESIGN CHOICE (erased flash, zero logbook, record
numbers from 1). -/
def NvsSt.reset : NvsSt :=
  { flash := [], log := [], badGroups := [], errSeq := 1, cairnSeq := 1, logTimes := [], logQ := [], capMiB := 0,
    s0Ns := 0, logOp := none, flashOp := none }

end Sys2Proof.Machine
end

