-- ==== Sys2Proof/Machine/PipeTypes.lean ====
section
/-!
DEFINITION. State of synthesis, composition, scan-out and the panel block (chapters 5 to 8) that is not a register.
-/
namespace Sys2Proof.Machine

/-- One hogel line of a port's FIFO section: its row and its entries, hogel by hogel, views in index order (R165, R237), and
whether all of them are there: the port may reach the end of what the section holds before the row is finished (R171). -/
structure HogelLine where
  y : Nat
  entries : List Entry
  whole : Bool
  deriving DecidableEq, Repr

/-- One die's synthesis. -/
structure SynDie where
  /-- Rows in the swath store, oldest first, and the next hogel row to load (R146). -/
  rows : List SwathRow
  nextRow : Int
  /-- Next target row (R145). -/
  y : Nat
  /-- One FIFO section for each port the die uses, lines in row order (R165). -/
  fifo : List (List HogelLine)
  /-- For each section, the next row its port takes (R171: entries of rows already passed are discarded). -/
  drained : List Nat
  /-- Priority level 0 to 3 (R167). -/
  level : Nat
  deriving DecidableEq, Repr

/-- Synthesis of the current frame. -/
structure SynSt where
  west : SynDie
  east : SynDie
  /-- A frame is in synthesis: its number and the access unit it uses (R144). -/
  frame : Option Nat
  au : Option Nat
  /-- Hogel rows H of that frame. -/
  height : Nat
  /-- Views replayed in this frame, and views written to the hold store in it (R173 to R175). -/
  replay : List Nat
  keep : List Nat
  /-- Decimated views whose rays are stored, and the decimated views in force (R174). -/
  stored : List Nat
  decim : List Nat
  /-- The next frame synthesises every view (R175). -/
  full : Bool
  /-- Fall count of R172. -/
  fall : Nat
  /-- The fall of e_app has been made for the decision point to come (E_APP_FALL, R172). -/
  fallen : Bool
  /-- Holes of the frame in synthesis, and of the last frame completed (Table 5-9). -/
  holes : Nat
  holesDone : Nat
  /-- Superblock rows replaced in this frame: anchor, depth plane, row (R130). -/
  unready : List (Nat × Bool × Nat)
  /-- Once-per-frame events raised in this frame. -/
  seen : List Nat
  deriving DecidableEq, Repr

def SynDie.reset : SynDie := { rows := [], nextRow := 0, y := 0, fifo := [], drained := [], level := 0 }

def SynSt.reset : SynSt :=
  { west := SynDie.reset, east := SynDie.reset, frame := none, au := none, height := 0, replay := [], keep := [], stored := [],
    decim := [], full := true, fall := 0, fallen := false, holes := 0, holesDone := 0, unready := [], seen := [] }

/-- A commit whose snapshot passed its checks (R197, R199). -/
structure Commit where
  ring : Nat
  idx : Nat
  /-- The SH registers at the snapshot, sparse against the reset values. -/
  snap : List (Nat × Word)
  /-- Its target frame has started: a frame has started since its arrival (R220, R221). -/
  late : Bool
  /-- It arrived between a guard point and its decision point. -/
  afterGuard : Bool
  bound : Bool
  deriving DecidableEq, Repr

/-- The waiting state of a plane (R204): its register words by offset. -/
structure PlaneWait where
  plane : Nat
  words : List (Nat × Word)
  deriving DecidableEq, Repr

/-- Cyclic-check settings that wait for a plane's new state (R230). -/
structure ChkWait where
  rect : Nat
  plane : Nat
  words : List (Nat × Word)
  deriving DecidableEq, Repr

/-- A source line in the line buffer of one die's fetcher (R182, R183, R194). -/
structure PlaneLine where
  die : Die
  plane : Nat
  j : Nat
  bytes : List MByte
  deriving DecidableEq, Repr

/-- The compositor. -/
structure CmpSt where
  /-- A validated commit that has not yet arrived (R220). -/
  transit : Option Commit
  /-- Pending commits: at most one bound and one unbound (R199, R200). -/
  pend : List Commit
  waits : List PlaneWait
  chkWaits : List ChkWait
  /-- Retire ring: write index, and the base and size taken when EN rose (R206). -/
  retIdx : Nat
  retBase : Nat
  retLog2 : Nat
  lines : List PlaneLine
  /-- Destination rows formed in this frame: die, plane and row (R188: each pixel counts once). -/
  formed : List (Die × Nat × Nat)
  seen : List Nat
  deriving DecidableEq, Repr

def CmpSt.reset : CmpSt :=
  { transit := none, pend := [], waits := [], chkWaits := [], retIdx := 0, retBase := 0, retLog2 := 6, lines := [], formed := [], seen := [] }

/-- A present in the latch logic (R31, R222). -/
structure Pres where
  /-- T in ns of the display clock. -/
  t : Nat
  au : Nat
  /-- Its descriptor (ring, index), if it came from a ring. -/
  desc : Option (Nat × Nat)
  /-- t_k of the last frame whose guard point had passed when it entered (R34, R217). -/
  missT : Option Int
  /-- It entered after the guard point of the decision point to come (R222). -/
  afterGuard : Bool
  deriving DecidableEq, Repr

/-- Scan-out. -/
structure ScnSt where
  /-- The timing generator has a first frame (R213). -/
  started : Bool
  /-- Frame whose latch line comes next, or whose start comes next once decided; 64 bits (R27). -/
  next : Nat
  /-- The guard point of that latch line has passed; its decision point has passed. -/
  guarded : Bool
  decided : Bool
  /-- Frame in scan. -/
  cur : Option Nat
  /-- Current line, and whether a frame start has made line 0 due (R211). -/
  line : Nat
  lineZero : Bool
  /-- Between a retiming decision point and its first frame: that frame's number (R216). -/
  gap : Option Nat
  presents : List Pres
  /-- The present shown or selected last (R31, R32). -/
  shown : Option Pres
  /-- Access unit of the frame in scan, and of the frame decided. -/
  auScan : Option Nat
  auNext : Option Nat
  /-- t_k of the last frame whose guard point has passed. -/
  missT : Option Int
  /-- Running CRC of the freeze rectangle and of the 8 cyclic rectangles over the frame in scan (R223). -/
  crcs : List Nat
  /-- The frame in scan, and the frame decided, are blanked (R224, R253). -/
  blankScan : Bool
  blankNext : Bool
  /-- The frame in scan is evaluated (R224). -/
  evaluated : Bool
  /-- Freeze detector: no first frame recorded, reference signature and unit, internal frozen flag (R226, R227). -/
  frzFirst : Bool
  refSig : Nat
  refAu : Option Nat
  frozen : Bool
  /-- Views replayed in the frame in scan (R228). -/
  replayScan : List Nat
  deriving DecidableEq, Repr

def ScnSt.reset : ScnSt :=
  { started := false, next := 0, guarded := false, decided := false, cur := none, line := 0, lineZero := false, gap := none,
    presents := [], shown := none, auScan := none, auNext := none, missT := none, crcs := List.replicate 9 0xFFFFFFFF,
    blankScan := false, blankNext := false, evaluated := false, frzFirst := true, refSig := 0, refAu := none,
    frozen := false, replayScan := [] }

/-- A training request that waits for the next blanking line (R243). -/
structure TrainWait where
  port : Nat
  lane : Nat
  seq : Nat
  code : Nat
  deriving DecidableEq, Repr

/-- One panel port beyond its state in PNL_PORT_STATE (R240). -/
structure PnlPort where
  /-- STATUS has reported READY with all lanes locked: ACTIVE at the next line start. -/
  ready : Bool
  /-- DOWN after a training failure, until the retry (R240). -/
  failed : Bool
  /-- LOCK bits of the last STATUS (Table 15-3). -/
  lock : Nat
  deriving DecidableEq, Repr

/-- Blink settings taken at a frame start (R254, R255). -/
structure BlinkRect where
  lit : Bool
  x : Nat
  y : Nat
  w : Nat
  h : Nat
  c : Rgb
  deriving DecidableEq, Repr

/-- What the LINE blocks of the frame in scan say of it, blanking included (Table 8-2). -/
structure ScanCfg where
  uv : Nat
  emissive : Bool
  inv : Nat
  depth : Nat
  /-- The polarity while INV_MODE is 0 on an LC panel, which no rule gives: a free bit of the frame. -/
  pol0 : Bool
  deriving DecidableEq, Repr

/-- The panel block. -/
structure PnlSt where
  cfg : ScanCfg
  ports : List PnlPort
  /-- Training requests of ACTIVE ports, applied at the next blanking line (R243). -/
  trainQ : List TrainWait
  /-- φ, and whether a first frame has been sent since power-up (R244). -/
  phi : Nat
  trained : Bool
  /-- DC-balance sums of the 64 regions; frames so far in the window, none before it starts (R247). -/
  dcbC : List Int
  dcbS : List Int
  dcbWin : Option Nat
  blink : List BlinkRect
  /-- Codes applied to the reference DACs, and whether the outputs are driven (R249, R250). -/
  pref : List Nat
  prefOn : Bool
  /-- The voltages the reference outputs stand at, in units of 1/16,384 mV (R249). -/
  prefV : List Nat
  /-- The last crevasse reading was above OPEN (R251, R252). -/
  crkOpen : Bool
  /-- Once-per-frame events raised in this frame. -/
  seen : List Nat
  deriving DecidableEq, Repr

def PnlPort.reset : PnlPort := { ready := false, failed := false, lock := 0 }

def PnlSt.reset : PnlSt :=
  { cfg := { uv := 144, emissive := false, inv := 0, depth := 2, pol0 := false }
    ports := List.replicate 16 PnlPort.reset, trainQ := [], phi := 0, trained := false, dcbC := List.replicate 64 0,
    dcbS := List.replicate 64 0, dcbWin := none, blink := [], pref := List.replicate 18 0, prefOn := false,
    prefV := List.replicate 18 0, crkOpen := false, seen := [] }

end Sys2Proof.Machine
end

