-- ==== Sys2Proof/Machine/PwrTypes.lean ====
section
/-!
DEFINITION. State of the power stage and the power ladder (chapter 16) that is not a register.
-/
namespace Sys2Proof.Machine

/-- Where the module stands: off, in a state of Table 16-3, or in thermal shutdown (R403). -/
inductive PwrState where
  /-- Every rail is off. -/
  | off
  | s0 | s1 | s2 | s3 | s4
  /-- Thermal shutdown (R422). -/
  | thermal
  deriving DecidableEq, Repr

/-- A transition of Table 16-4 in progress (PWR_STATUS.BUSY). -/
structure PwrTrans where
  target : PwrState
  /-- Index of the SET_POWER descriptor that drives it, if one does. -/
  admin : Option Nat
  deriving DecidableEq, Repr

/-- The power stage. -/
structure PwrSt where
  st : PwrState
  trans : Option PwrTrans
  /-- S2 was entered from S1, or by a shed from S1 (Table 16-4). -/
  s2FromS1 : Bool
  /-- State held when the warning began (R402). -/
  warnFrom : PwrState
  /-- The module's own input warning is in force; another device's PFAIL_N warning is in force (R400). -/
  ownWarn : Bool
  pinWarn : Bool
  /-- Capture frame of an S1 entry in progress: none before its guard point has passed (R405). -/
  capturing : Bool
  captureFrame : Option Nat
  /-- Failed rail sequences in a row (R398). -/
  railFails : Nat
  /-- A rail is out of regulation in operation (R398). -/
  railBad : Bool
  /-- The overvoltage shutdown is in force (R399). -/
  overVolt : Bool
  /-- Level of PERST_N: true while asserted. -/
  perst : Bool
  /-- PMCSR PowerState is D3hot. -/
  d3hot : Bool
  /-- Hold refreshes started since entry to S1, and the next line of the one that runs (R407). -/
  holds : Nat
  holdLine : Option Nat
  deriving DecidableEq, Repr

/-- Unpowered. -/
def PwrSt.reset : PwrSt :=
  { st := .off, trans := none, s2FromS1 := false, warnFrom := .s0, ownWarn := false, pinWarn := false,
    capturing := false, captureFrame := none, railFails := 0, railBad := false, overVolt := false,
    perst := true, d3hot := false, holds := 0, holdLine := none }

end Sys2Proof.Machine
end

