-- ==== Sys2Proof/Machine/Cells.lean ====
section
/-!
DEFINITION. Sparse stores: a list of (key, value) pairs with strictly rising keys and no entry equal to what an unlisted key
reads as. Registers, device memory, check bytes, flash and logbook are held in this one canonical form.
-/
namespace Sys2Proof.Machine

variable {α : Type} [DecidableEq α]

/-- The value at key `k`; an unlisted key reads as `dflt k`. -/
def cellGet (dflt : Nat → α) : List (Nat × α) → Nat → α
  | [], k => dflt k
  | (j, v) :: l, k => if j = k then v else cellGet dflt l k

/-- Put `v` before the entries of `l` at key `k`, unless it is what the key reads as unlisted. -/
def cellCons (dflt : Nat → α) (k : Nat) (v : α) (l : List (Nat × α)) : List (Nat × α) :=
  if v = dflt k then l else (k, v) :: l

/-- The entries of `l` but those at key `k`. -/
def cellDrop (l : List (Nat × α)) (k : Nat) : List (Nat × α) := l.filter fun c => c.1 != k

/-- Write `v` at key `k`, keeping the canonical form. -/
def cellSet (dflt : Nat → α) : List (Nat × α) → Nat → α → List (Nat × α)
  | [], k, v => cellCons dflt k v []
  | (j, w) :: l, k, v =>
    if j = k then cellCons dflt k v (cellDrop l k)
    else if k < j then cellCons dflt k v ((j, w) :: cellDrop l k)
    else (j, w) :: cellSet dflt l k v

/-- The entries that `vs` at keys `a`, `a + 1`, … need. -/
def cellsNew (dflt : Nat → α) (a : Nat) : List α → List (Nat × α)
  | [] => []
  | v :: vs => cellCons dflt a v (cellsNew dflt (a + 1) vs)

/-- Write values at keys `a`, `a + 1`, …, keeping the canonical form. -/
def cellPut (dflt : Nat → α) (l : List (Nat × α)) (a : Nat) (vs : List α) : List (Nat × α) :=
  (l.takeWhile fun c => decide (c.1 < a)) ++ cellsNew dflt a vs ++ l.dropWhile fun c => decide (c.1 < a + vs.length)

/-- The values at `n` keys from `a`, of entries whose keys are at least `a`. -/
def cellRun (dflt : Nat → α) : Nat → Nat → List (Nat × α) → List α
  | 0, _, _ => []
  | n + 1, a, [] => dflt a :: cellRun dflt n (a + 1) []
  | n + 1, a, (j, v) :: l =>
    if j = a then v :: cellRun dflt n (a + 1) l else dflt a :: cellRun dflt n (a + 1) ((j, v) :: l)

/-- The values at `n` keys from `a`. -/
def cellRead (dflt : Nat → α) (l : List (Nat × α)) (a n : Nat) : List α :=
  cellRun dflt n a (l.dropWhile fun c => decide (c.1 < a))

/-- Drop every entry whose key lies from `lo` to `hi - 1`. -/
def cellClear (l : List (Nat × α)) (lo hi : Nat) : List (Nat × α) :=
  l.filter fun c => !(decide (lo ≤ c.1) && decide (c.1 < hi))

/-- The canonical store that reads as the entries of `l` do, the first entry of a key counting. -/
def cellsOf (dflt : Nat → α) (l : List (Nat × α)) : List (Nat × α) := l.foldr (fun c m => cellSet dflt m c.1 c.2) []

/-- Every key of `l` is larger than `b` and the keys rise. -/
def cellsRise (b : Nat) : List (Nat × α) → Bool
  | [] => true
  | (j, _) :: l => decide (b ≤ j) && cellsRise (j + 1) l

/-- The canonical form: rising keys, and no entry that an unlisted key would read the same. -/
def cellsWf (dflt : Nat → α) (l : List (Nat × α)) : Bool :=
  cellsRise 0 l && l.all fun c => decide (c.2 ≠ dflt c.1)

end Sys2Proof.Machine
end

