-- ==== Sys2Proof/Machine/Regs.lean ====
section
/-!
DEFINITION. The register index of BAR0 (Tables 20-2 to 20-19): every register with its offset, array shape, reset value and
fields with their access types (Table 0-5), and one name for every field.
-/
namespace Sys2Proof.Machine

/-- The access types of Table 0-5 (R6). -/
inductive Acc where
  | ro | rw | wo | w1c | w1s | rwl | sh
  deriving DecidableEq, Repr

/-- One field of one register: its BAR0 offset, its lowest bit and its width. -/
structure Fld where
  off : Nat
  lo : Nat
  len : Nat
  deriving DecidableEq, Repr

/-- One row of the register index: `count` registers from `base`, `stride` bytes apart, the reset value (R468) and the
fields as (lowest bit, width, access type). -/
structure RegDesc where
  name : String
  base : Nat
  count : Nat
  stride : Nat
  reset : Nat
  fields : List (Nat × Nat × Acc)
  deriving DecidableEq, Repr


/-- Registers of block GLB (Table 20-1). -/
def regsGLB : List RegDesc :=
  [⟨"GLB_ID", 0x0, 1, 0, 0x9601f3c, [(0, 16, .ro), (16, 16, .ro)]⟩,
   ⟨"GLB_REV", 0x4, 1, 0, 0x0, [(0, 8, .ro)]⟩,
   ⟨"GLB_FW_VERSION", 0x8, 1, 0, 0x0, [(0, 32, .ro)]⟩,
   ⟨"GLB_RESET_CAUSE", 0x10, 1, 0, 0x1, [(0, 1, .w1c), (1, 1, .w1c), (2, 1, .w1c), (3, 1, .w1c), (4, 1, .w1c), (5, 1, .w1c), (6, 1, .w1c)]⟩,
   ⟨"GLB_BOOT_STATUS", 0x14, 1, 0, 0x0, [(0, 16, .ro), (16, 4, .ro), (20, 4, .ro)]⟩]

/-- Registers of block HIF (Table 20-1). -/
def regsHIF : List RegDesc :=
  [⟨"HIF_CTRL", 0x10000, 1, 0, 0x0, [(0, 1, .rw), (1, 1, .rw), (31, 1, .wo)]⟩,
   ⟨"HIF_STATUS", 0x10004, 1, 0, 0x0, [(0, 1, .ro), (1, 1, .ro), (2, 1, .ro), (3, 1, .ro), (4, 4, .ro), (8, 3, .ro), (16, 8, .ro)]⟩,
   ⟨"HIF_FEAT_OFFER", 0x10010, 4, 4, 0x0, [(0, 32, .ro)]⟩,
   ⟨"HIF_FEAT_ACCEPT", 0x10020, 4, 4, 0x0, [(0, 32, .rwl)]⟩,
   ⟨"HIF_RING_BASE_LO", 0x10030, 1, 0, 0x0, [(12, 20, .rw)]⟩,
   ⟨"HIF_RING_BASE_HI", 0x10034, 1, 0, 0x0, [(0, 32, .rw)]⟩,
   ⟨"HIF_CQ_BASE_LO", 0x10038, 1, 0, 0x0, [(12, 20, .rw)]⟩,
   ⟨"HIF_CQ_BASE_HI", 0x1003c, 1, 0, 0x0, [(0, 32, .rw)]⟩,
   ⟨"HIF_DB_LINE_LO", 0x10040, 1, 0, 0x0, [(6, 26, .rw)]⟩,
   ⟨"HIF_DB_LINE_HI", 0x10044, 1, 0, 0x0, [(0, 32, .rw)]⟩,
   ⟨"HIF_RING_CFG", 0x10048, 1, 0, 0x6, [(0, 5, .rw), (8, 6, .rw)]⟩,
   ⟨"HIF_ABORT", 0x10050, 1, 0, 0x0, [(0, 6, .rw), (8, 1, .rw), (31, 1, .wo)]⟩] ++
  [⟨"HIF_ABORT_STATUS", 0x10054, 1, 0, 0x0, [(0, 1, .ro), (1, 1, .w1c), (8, 24, .ro)]⟩,
   ⟨"HIF_DB_SQ", 0x11000, 64, 8, 0x0, [(0, 32, .rw)]⟩,
   ⟨"HIF_DB_CQ", 0x11004, 64, 8, 0x0, [(0, 32, .rw)]⟩]

/-- Registers of block EVT (Table 20-1). -/
def regsEVT : List RegDesc :=
  [⟨"EVT_STATUS", 0x20000, 16, 4, 0x0, [(0, 32, .w1c)]⟩,
   ⟨"EVT_ENABLE", 0x20040, 16, 4, 0x0, [(0, 32, .rw)]⟩,
   ⟨"EVT_SUMMARY", 0x20080, 1, 0, 0x0, [(0, 16, .ro), (16, 16, .ro)]⟩,
   ⟨"EVT_TEST", 0x20088, 1, 0, 0x0, [(0, 9, .rw), (31, 1, .wo)]⟩,
   ⟨"EVT_RING_STATUS", 0x20090, 1, 0, 0x0, [(0, 1, .ro), (1, 1, .w1c), (8, 5, .ro)]⟩,
   ⟨"EVT_RING_CI", 0x20094, 1, 0, 0x0, [(0, 32, .rw)]⟩,
   ⟨"EVT_RING_PI", 0x20098, 1, 0, 0x0, [(0, 32, .ro)]⟩,
   ⟨"EVT_CNT_LOST", 0x2009c, 1, 0, 0x0, [(0, 32, .ro)]⟩,
   ⟨"EVT_ROUTE", 0x21000, 512, 4, 0x0, [(0, 6, .rw), (6, 1, .rw), (7, 1, .rw), (8, 16, .rw)]⟩]

/-- Registers of block PWR (Table 20-1). -/
def regsPWR : List RegDesc :=
  [⟨"PWR_CTRL", 0x30000, 1, 0, 0x3, [(0, 1, .rw), (1, 1, .rw), (31, 1, .wo)]⟩,
   ⟨"PWR_STATUS", 0x30004, 1, 0, 0x20, [(0, 3, .ro), (3, 1, .ro), (4, 1, .ro), (5, 1, .ro), (6, 1, .ro), (8, 2, .ro)]⟩,
   ⟨"PWR_VIN", 0x30008, 1, 0, 0x0, [(0, 16, .ro), (16, 16, .ro)]⟩,
   ⟨"PWR_CNT", 0x30010, 2, 4, 0x0, [(0, 32, .ro)]⟩]

/-- Registers of block THM (Table 20-1). -/
def regsTHM : List RegDesc :=
  [⟨"THM_CTRL", 0x40000, 1, 0, 0x73695f, [(0, 8, .rw), (8, 8, .rw), (16, 8, .ro), (31, 1, .wo)]⟩,
   ⟨"THM_STATUS", 0x40004, 1, 0, 0x0, [(0, 16, .ro), (16, 5, .ro), (21, 1, .ro), (22, 1, .ro), (24, 6, .ro)]⟩,
   ⟨"THM_SUSPECT_LO", 0x40008, 1, 0, 0x0, [(0, 32, .ro)]⟩,
   ⟨"THM_SUSPECT_HI", 0x4000c, 1, 0, 0x0, [(0, 16, .ro)]⟩,
   ⟨"THM_FAIL_LO", 0x40010, 1, 0, 0x0, [(0, 32, .ro)]⟩,
   ⟨"THM_FAIL_HI", 0x40014, 1, 0, 0x0, [(0, 16, .ro)]⟩,
   ⟨"THM_GROUP", 0x40018, 2, 4, 0x0, [(0, 16, .ro), (16, 16, .ro)]⟩,
   ⟨"THM_CNT", 0x40020, 3, 4, 0x0, [(0, 32, .ro)]⟩,
   ⟨"THM_SENS", 0x40100, 48, 4, 0x0, [(0, 16, .ro), (16, 16, .ro)]⟩]

/-- Registers of block CAL (Table 20-1). -/
def regsCAL : List RegDesc :=
  [⟨"CAL_CTRL", 0x50000, 1, 0, 0x1, [(0, 1, .rw), (1, 1, .wo), (2, 1, .wo), (31, 1, .wo)]⟩,
   ⟨"CAL_STATUS", 0x50004, 1, 0, 0x30, [(0, 1, .ro), (1, 1, .ro), (2, 1, .ro), (3, 1, .w1c), (4, 2, .ro), (6, 2, .ro), (8, 1, .ro)]⟩,
   ⟨"CAL_TDELTA", 0x50008, 1, 0, 0x4, [(0, 8, .rw)]⟩,
   ⟨"CAL_TBASE", 0x5000c, 2, 4, 0x0, [(0, 16, .ro), (16, 16, .ro)]⟩,
   ⟨"CAL_CNT_RUNS", 0x50020, 1, 0, 0x0, [(0, 32, .ro)]⟩,
   ⟨"CAL_CNT_FAIL", 0x50024, 1, 0, 0x0, [(0, 32, .ro)]⟩,
   ⟨"CAL_STG_PREF", 0x50100, 18, 4, 0x8000, [(0, 16, .rw), (16, 16, .rw)]⟩,
   ⟨"CAL_STG_ADC", 0x50148, 3, 4, 0x8000, [(0, 16, .rw), (16, 16, .rw)]⟩,
   ⟨"CAL_STG_LAT", 0x50154, 1, 0, 0x1388, [(0, 16, .rw)]⟩,
   ⟨"CAL_ACT_PREF", 0x50200, 18, 4, 0x8000, [(0, 16, .ro), (16, 16, .ro)]⟩,
   ⟨"CAL_ACT_ADC", 0x50248, 3, 4, 0x8000, [(0, 16, .ro), (16, 16, .ro)]⟩,
   ⟨"CAL_ACT_LAT", 0x50254, 1, 0, 0x1388, [(0, 16, .ro)]⟩]

/-- Registers of block NVS (Table 20-1). -/
def regsNVS : List RegDesc :=
  [⟨"NVS_CTRL", 0x60000, 1, 0, 0x0, [(0, 1, .wo), (31, 1, .wo)]⟩,
   ⟨"NVS_STATUS", 0x60004, 1, 0, 0x101, [(0, 1, .ro), (1, 1, .ro), (2, 1, .ro), (3, 2, .ro), (5, 1, .ro), (6, 1, .ro), (7, 2, .ro), (9, 1, .ro), (10, 1, .ro), (11, 1, .ro), (12, 1, .ro)]⟩,
   ⟨"NVS_SET_GEN", 0x60008, 1, 0, 0x0, [(0, 32, .ro)]⟩,
   ⟨"NVS_SVN_RUN", 0x6000c, 1, 0, 0x0, [(0, 32, .ro)]⟩,
   ⟨"NVS_SVN_MIN", 0x60010, 1, 0, 0x0, [(0, 32, .ro)]⟩,
   ⟨"NVS_FLASH_SIZE", 0x60014, 1, 0, 0x0, [(0, 16, .ro)]⟩,
   ⟨"NVS_CNT", 0x60020, 4, 4, 0x0, [(0, 32, .ro)]⟩]

/-- Registers of block TIM (Table 20-1). -/
def regsTIM : List RegDesc :=
  [⟨"TIM_CTRL", 0x70000, 1, 0, 0x33, [(0, 2, .rw), (2, 2, .rw), (4, 1, .rw), (5, 1, .rw), (31, 1, .wo)]⟩,
   ⟨"TIM_STATUS", 0x70004, 1, 0, 0x0, [(0, 1, .ro), (1, 1, .ro), (2, 2, .ro), (4, 1, .ro), (5, 1, .ro), (6, 1, .ro), (7, 1, .ro), (8, 1, .ro)]⟩,
   ⟨"TIM_OFFSET_LO", 0x70008, 1, 0, 0x0, [(0, 32, .rw)]⟩,
   ⟨"TIM_OFFSET_HI", 0x7000c, 1, 0, 0x0, [(0, 32, .rw)]⟩,
   ⟨"TIM_RATE", 0x70010, 1, 0, 0x0, [(0, 32, .rw)]⟩,
   ⟨"TIM_STEER", 0x70014, 1, 0, 0xc35003e8, [(0, 16, .rw), (16, 16, .rw)]⟩,
   ⟨"TIM_DC_INC_LO", 0x70018, 1, 0, 0x0, [(0, 32, .rw)]⟩,
   ⟨"TIM_DC_INC_HI", 0x7001c, 1, 0, 0x1, [(0, 32, .rw)]⟩,
   ⟨"TIM_DC_ADJ", 0x70020, 1, 0, 0x0, [(0, 32, .wo)]⟩,
   ⟨"TIM_DC_ERR", 0x70024, 1, 0, 0x0, [(0, 32, .ro)]⟩,
   ⟨"TIM_LAT_PS", 0x70028, 1, 0, 0x1388, [(0, 16, .ro)]⟩,
   ⟨"TIM_SNAP_RAW_LO", 0x70030, 1, 0, 0x0, [(0, 32, .ro)]⟩] ++
  [⟨"TIM_SNAP_RAW_HI", 0x70034, 1, 0, 0x0, [(0, 32, .ro)]⟩,
   ⟨"TIM_SNAP_RT_LO", 0x70038, 1, 0, 0x0, [(0, 32, .ro)]⟩,
   ⟨"TIM_SNAP_RT_HI", 0x7003c, 1, 0, 0x0, [(0, 32, .ro)]⟩,
   ⟨"TIM_SNAP_DC_NS", 0x70040, 1, 0, 0x0, [(0, 30, .ro)]⟩,
   ⟨"TIM_SNAP_DC_SEC_LO", 0x70044, 1, 0, 0x0, [(0, 32, .ro)]⟩,
   ⟨"TIM_SNAP_DC_SEC_HI", 0x70048, 1, 0, 0x0, [(0, 16, .ro)]⟩,
   ⟨"TIM_PPS_SEC_LO", 0x70050, 1, 0, 0x0, [(0, 32, .rw)]⟩,
   ⟨"TIM_PPS_SEC_HI", 0x70054, 1, 0, 0x0, [(0, 16, .rw)]⟩,
   ⟨"TIM_PPS_CAP_LO", 0x70058, 1, 0, 0x0, [(0, 32, .ro)]⟩,
   ⟨"TIM_PPS_CAP_HI", 0x7005c, 1, 0, 0x0, [(0, 32, .ro)]⟩,
   ⟨"TIM_SERVO_CFG", 0x70060, 1, 0, 0x4001, [(0, 2, .rw), (8, 8, .rw)]⟩,
   ⟨"TIM_SERVO_ERR", 0x70064, 1, 0, 0x0, [(0, 32, .ro)]⟩] ++
  [⟨"TIM_PITCH_DELAY", 0x70068, 1, 0, 0x0, [(0, 32, .ro)]⟩,
   ⟨"TIM_PITCH_ASYM", 0x7006c, 1, 0, 0x0, [(0, 16, .rw)]⟩,
   ⟨"TIM_FSTROBE", 0x70070, 1, 0, 0x3e80003, [(0, 1, .rw), (1, 1, .rw), (16, 16, .rw)]⟩,
   ⟨"TIM_TS_SEL", 0x70080, 1, 0, 0x0, [(0, 1, .rw), (1, 1, .rw), (2, 1, .rw)]⟩,
   ⟨"TIM_TSQ_INFO", 0x70084, 1, 0, 0x0, [(0, 12, .ro), (12, 1, .ro), (13, 2, .ro), (15, 2, .ro), (17, 5, .ro), (22, 1, .ro), (23, 1, .w1c), (31, 1, .wo)]⟩,
   ⟨"TIM_TSQ_TIME_LO", 0x70088, 1, 0, 0x0, [(0, 32, .ro)]⟩,
   ⟨"TIM_TSQ_TIME_HI", 0x7008c, 1, 0, 0x0, [(0, 32, .ro)]⟩,
   ⟨"TIM_TSQ_KEY", 0x70090, 1, 0, 0x0, [(0, 16, .ro)]⟩,
   ⟨"TIM_TEV_CTRL", 0x70100, 8, 32, 0x4, [(0, 2, .rw), (2, 1, .rw), (4, 1, .w1s), (5, 1, .wo)]⟩,
   ⟨"TIM_TEV_START_NS", 0x70104, 8, 32, 0x0, [(0, 30, .rw), (30, 2, .rw)]⟩,
   ⟨"TIM_TEV_START_SEC_LO", 0x70108, 8, 32, 0x0, [(0, 32, .rw)]⟩,
   ⟨"TIM_TEV_START_SEC_HI", 0x7010c, 8, 32, 0x0, [(0, 16, .rw)]⟩] ++
  [⟨"TIM_TEV_PERIOD", 0x70110, 8, 32, 0x0, [(0, 30, .rw), (30, 2, .rw)]⟩,
   ⟨"TIM_TEV_WIDTH", 0x70114, 8, 32, 0x3e8, [(0, 16, .rw)]⟩,
   ⟨"TIM_TEV_COUNT", 0x70118, 8, 32, 0x0, [(0, 32, .rw)]⟩,
   ⟨"TIM_TEV_STATUS", 0x7011c, 8, 32, 0x0, [(0, 1, .ro), (1, 1, .w1c), (2, 1, .w1c), (3, 1, .w1c), (4, 1, .w1c)]⟩]

/-- Registers of block ROPE (Table 20-1). -/
def regsROPE : List RegDesc :=
  [⟨"ROPE_CTRL", 0x80000, 1, 0, 0x0, [(0, 1, .wo), (1, 1, .wo), (2, 1, .wo), (3, 1, .wo), (31, 1, .wo)]⟩,
   ⟨"ROPE_CFG", 0x80004, 1, 0, 0x326403, [(0, 2, .rw), (8, 8, .rw), (16, 8, .rw)]⟩,
   ⟨"ROPE_STATUS", 0x80008, 1, 0, 0x0, [(0, 8, .ro), (8, 8, .ro), (16, 1, .ro), (17, 1, .ro), (18, 1, .ro), (19, 1, .ro), (20, 1, .ro), (21, 1, .ro)]⟩,
   ⟨"ROPE_UP_STATE", 0x80010, 1, 0, 0x0, [(0, 3, .ro), (4, 2, .ro), (6, 2, .ro), (8, 1, .ro), (9, 1, .ro), (16, 8, .ro)]⟩,
   ⟨"ROPE_DN_STATE", 0x80014, 1, 0, 0x0, [(0, 3, .ro), (4, 2, .ro), (6, 2, .ro), (8, 1, .ro), (9, 1, .ro), (16, 8, .ro)]⟩,
   ⟨"ROPE_ALARM_CFG", 0x80020, 1, 0, 0x800f, [(0, 6, .rw), (8, 8, .rw), (31, 1, .wo)]⟩,
   ⟨"ROPE_ALARM_LAST", 0x80024, 1, 0, 0x0, [(0, 8, .ro), (8, 8, .ro), (16, 1, .w1c), (17, 1, .w1c)]⟩,
   ⟨"ROPE_CNT", 0x80040, 4, 4, 0x0, [(0, 32, .ro)]⟩]

/-- Registers of block MEM (Table 20-1). -/
def regsMEM : List RegDesc :=
  [⟨"MEM_CTRL", 0x90000, 1, 0, 0x1, [(0, 1, .rw), (31, 1, .wo)]⟩,
   ⟨"MEM_STATUS", 0x90004, 1, 0, 0x0, [(0, 1, .ro), (1, 1, .ro)]⟩,
   ⟨"MEM_AFFINE", 0x90008, 1, 0, 0x0, [(0, 29, .rw)]⟩,
   ⟨"MEM_SCRUB_CFG", 0x90010, 1, 0, 0x18, [(0, 8, .rw)]⟩,
   ⟨"MEM_SCRUB_POS", 0x90014, 1, 0, 0x0, [(0, 31, .ro)]⟩,
   ⟨"MEM_ERR_ADDR_LO", 0x90020, 1, 0, 0x0, [(5, 27, .ro)]⟩,
   ⟨"MEM_ERR_ADDR_HI", 0x90024, 1, 0, 0x0, [(0, 4, .ro)]⟩,
   ⟨"MEM_ERR_INFO", 0x90028, 1, 0, 0x0, [(0, 1, .w1c), (1, 1, .w1c), (2, 2, .ro), (4, 4, .ro)]⟩,
   ⟨"MEM_CORR_THRESH", 0x9002c, 1, 0, 0x400, [(0, 16, .rw)]⟩,
   ⟨"MEM_BW", 0x90030, 3, 4, 0x0, [(0, 16, .ro), (16, 16, .ro)]⟩,
   ⟨"MEM_CNT", 0x90040, 5, 4, 0x0, [(0, 32, .ro)]⟩,
   ⟨"MEM_WIN_BASE", 0x90100, 16, 16, 0x0, [(0, 24, .rw)]⟩] ++
  [⟨"MEM_WIN_LIMIT", 0x90104, 16, 16, 0x0, [(0, 24, .rw)]⟩,
   ⟨"MEM_WIN_RIGHTS", 0x90108, 16, 16, 0x0, [(0, 1, .rw), (1, 1, .rw), (2, 1, .rw), (3, 1, .rw), (4, 1, .rw), (5, 1, .rw), (6, 1, .rw), (7, 1, .rw), (8, 1, .rw), (9, 1, .rw)]⟩]

/-- Registers of block DEC (Table 20-1). -/
def regsDEC : List RegDesc :=
  [⟨"DEC_CTRL", 0xa0000, 1, 0, 0x2, [(0, 3, .rw), (8, 1, .wo)]⟩,
   ⟨"DEC_STATUS", 0xa0004, 1, 0, 0x2, [(0, 1, .ro), (1, 1, .ro), (2, 1, .ro), (8, 8, .ro), (16, 2, .ro)]⟩,
   ⟨"DEC_POOL_BASE_LO", 0xa0008, 1, 0, 0x0, [(12, 20, .rw)]⟩,
   ⟨"DEC_POOL_BASE_HI", 0xa000c, 1, 0, 0x0, [(0, 4, .rw)]⟩,
   ⟨"DEC_SLOT_CFG", 0xa0010, 1, 0, 0x240a3c2a, [(0, 14, .rw), (16, 5, .rw), (24, 6, .rw)]⟩,
   ⟨"DEC_POOL_NEED", 0xa0014, 1, 0, 0x549b10, [(0, 32, .ro)]⟩,
   ⟨"DEC_ARCH_BASE_LO", 0xa0018, 1, 0, 0x0, [(12, 20, .rw)]⟩,
   ⟨"DEC_ARCH_BASE_HI", 0xa001c, 1, 0, 0x0, [(0, 4, .rw)]⟩,
   ⟨"DEC_ARCH_SIZE", 0xa0020, 1, 0, 0x100, [(0, 13, .rw)]⟩,
   ⟨"DEC_BUDGET", 0xa0024, 1, 0, 0x10002000, [(0, 16, .rw), (16, 16, .rw)]⟩,
   ⟨"DEC_CNT", 0xa0040, 9, 4, 0x0, [(0, 32, .ro)]⟩]

/-- Registers of block SYN (Table 20-1). -/
def regsSYN : List RegDesc :=
  [⟨"SYN_GEOM", 0xb0000, 1, 0, 0x8701000, [(0, 13, .sh), (16, 12, .sh)]⟩,
   ⟨"SYN_VIEWGRID", 0xb0004, 1, 0, 0x240c0c, [(0, 8, .sh), (8, 5, .sh), (16, 6, .sh)]⟩,
   ⟨"SYN_DISP_BOUND", 0xb0008, 1, 0, 0x300060, [(0, 8, .sh), (16, 8, .sh)]⟩,
   ⟨"SYN_SWATH_NEED", 0xb0010, 1, 0, 0x2ffd000, [(0, 32, .ro)]⟩,
   ⟨"SYN_SWATH_CAP", 0xb0014, 1, 0, 0x3000000, [(0, 32, .ro)]⟩,
   ⟨"SYN_CTRL", 0xb0020, 1, 0, 0x14004, [(0, 3, .sh), (8, 8, .sh), (16, 1, .sh), (31, 1, .wo)]⟩,
   ⟨"SYN_VIS_TOL", 0xb0024, 1, 0, 0x10, [(0, 16, .sh)]⟩,
   ⟨"SYN_WM", 0xb0028, 1, 0, 0x203060a, [(0, 8, .sh), (8, 8, .sh), (16, 8, .sh), (24, 4, .sh)]⟩,
   ⟨"SYN_PRIO", 0xb002c, 1, 0, 0x200, [(0, 2, .rw), (8, 4, .rw)]⟩,
   ⟨"SYN_THROTTLE", 0xb0030, 1, 0, 0x1000000, [(0, 5, .rw), (8, 5, .ro), (16, 5, .ro), (24, 5, .ro)]⟩,
   ⟨"SYN_STATUS", 0xb0034, 1, 0, 0x100000, [(0, 8, .ro), (8, 2, .ro), (16, 8, .ro), (24, 8, .ro)]⟩,
   ⟨"SYN_CNT", 0xb0040, 9, 4, 0x0, [(0, 32, .ro)]⟩] ++
  [⟨"SYN_DECIM_MAP", 0xb0080, 5, 4, 0x0, [(0, 32, .ro)]⟩]

/-- Registers of block CMP (Table 20-1). -/
def regsCMP : List RegDesc :=
  [⟨"CMP_CTRL", 0xc0000, 1, 0, 0x19, [(0, 3, .sh), (3, 1, .sh), (4, 2, .sh), (31, 1, .wo)]⟩,
   ⟨"CMP_STATUS", 0xc0004, 1, 0, 0x0, [(0, 1, .ro), (1, 1, .ro), (2, 1, .w1c), (8, 8, .ro)]⟩,
   ⟨"CMP_REJECT", 0xc0008, 1, 0, 0x0, [(0, 16, .ro), (16, 3, .ro)]⟩,
   ⟨"CMP_RETIRE_BASE_LO", 0xc0010, 1, 0, 0x0, [(12, 20, .rw)]⟩,
   ⟨"CMP_RETIRE_BASE_HI", 0xc0014, 1, 0, 0x0, [(0, 32, .rw)]⟩,
   ⟨"CMP_RETIRE_CFG", 0xc0018, 1, 0, 0x60, [(0, 1, .rw), (4, 4, .rw)]⟩,
   ⟨"CMP_RETIRE_CI", 0xc001c, 1, 0, 0x0, [(0, 32, .rw)]⟩,
   ⟨"CMP_CNT", 0xc0020, 3, 4, 0x0, [(0, 32, .ro)]⟩,
   ⟨"CMP_L_CTRL", 0xc0140, 7, 64, 0x24, [(0, 1, .sh), (1, 3, .sh), (4, 1, .sh), (5, 1, .sh), (6, 1, .sh)]⟩,
   ⟨"CMP_L_ADDR_LO", 0xc0144, 7, 64, 0x0, [(6, 26, .sh)]⟩,
   ⟨"CMP_L_ADDR_HI", 0xc0148, 7, 64, 0x0, [(0, 4, .sh)]⟩,
   ⟨"CMP_L_STRIDE", 0xc014c, 7, 64, 0x0, [(0, 18, .sh)]⟩] ++
  [⟨"CMP_L_SRC_SIZE", 0xc0150, 7, 64, 0x0, [(0, 14, .sh), (16, 14, .sh)]⟩,
   ⟨"CMP_L_DST_SIZE", 0xc0154, 7, 64, 0x0, [(0, 14, .sh), (16, 14, .sh)]⟩,
   ⟨"CMP_L_POS", 0xc0158, 7, 64, 0x0, [(0, 14, .sh), (16, 14, .sh)]⟩,
   ⟨"CMP_L_DISP", 0xc015c, 7, 64, 0x0, [(0, 13, .sh)]⟩,
   ⟨"CMP_L_READY_LO", 0xc0160, 7, 64, 0x0, [(2, 30, .sh)]⟩,
   ⟨"CMP_L_READY_HI", 0xc0164, 7, 64, 0x0, [(0, 4, .sh)]⟩,
   ⟨"CMP_L_READY_VAL", 0xc0168, 7, 64, 0x0, [(0, 32, .sh)]⟩,
   ⟨"CMP_L_FETCH_NEED", 0xc016c, 7, 64, 0x0, [(0, 32, .ro)]⟩]

/-- Registers of block SCN (Table 20-1). -/
def regsSCN : List RegDesc :=
  [⟨"SCN_CTRL", 0xd0000, 1, 0, 0x0, [(0, 1, .sh), (31, 1, .wo)]⟩,
   ⟨"SCN_STATUS", 0xd0004, 1, 0, 0x1000, [(0, 12, .ro), (12, 1, .ro), (13, 1, .ro), (14, 1, .ro)]⟩,
   ⟨"SCN_FRAME", 0xd0008, 1, 0, 0x0, [(0, 32, .ro)]⟩,
   ⟨"SCN_EPOCH_NS", 0xd0010, 1, 0, 0x0, [(0, 30, .sh)]⟩,
   ⟨"SCN_EPOCH_SEC_LO", 0xd0014, 1, 0, 0x0, [(0, 32, .sh)]⟩,
   ⟨"SCN_EPOCH_SEC_HI", 0xd0018, 1, 0, 0x0, [(0, 16, .sh)]⟩,
   ⟨"SCN_PERIOD_NUM", 0xd0020, 1, 0, 0x3b9aca00, [(0, 32, .sh)]⟩,
   ⟨"SCN_PERIOD_DEN", 0xd0024, 1, 0, 0x78, [(0, 16, .sh)]⟩,
   ⟨"SCN_VBLANK", 0xd0028, 1, 0, 0x64, [(0, 10, .sh)]⟩,
   ⟨"SCN_BG_COLOR", 0xd002c, 1, 0, 0x0, [(20, 10, .sh), (10, 10, .sh), (0, 10, .sh)]⟩,
   ⟨"SCN_LINES", 0xd0030, 1, 0, 0x8d408d4, [(0, 12, .ro), (16, 12, .ro)]⟩,
   ⟨"SCN_LINE_PS", 0xd0034, 1, 0, 0x384393, [(0, 32, .ro)]⟩] ++
  [⟨"SCN_LATCH_LINE", 0xd0040, 1, 0, 0x870, [(0, 12, .ro)]⟩,
   ⟨"SCN_LATCH_FRAME", 0xd0044, 1, 0, 0x0, [(0, 32, .ro)]⟩,
   ⟨"SCN_LAST_COMMIT", 0xd0048, 1, 0, 0x0, [(0, 12, .ro), (12, 1, .ro), (31, 1, .ro)]⟩,
   ⟨"SCN_CNT", 0xd0050, 4, 4, 0x0, [(0, 32, .ro)]⟩,
   ⟨"SCN_FRZ_CTRL", 0xd0080, 1, 0, 0x8000000, [(0, 1, .sh), (1, 1, .sh), (8, 8, .sh), (16, 5, .sh), (24, 8, .sh)]⟩,
   ⟨"SCN_FRZ_ORIGIN", 0xd0084, 1, 0, 0x0, [(0, 13, .sh), (16, 12, .sh)]⟩,
   ⟨"SCN_FRZ_SIZE", 0xd0088, 1, 0, 0x0, [(0, 13, .sh), (16, 12, .sh)]⟩,
   ⟨"SCN_FRZ_SIG", 0xd008c, 1, 0, 0x0, [(0, 32, .ro)]⟩,
   ⟨"SCN_FRZ_STATUS", 0xd0090, 1, 0, 0x0, [(0, 1, .w1c), (8, 8, .ro)]⟩,
   ⟨"SCN_CHK_MODE", 0xd00c0, 1, 0, 0x0, [(0, 8, .sh), (8, 1, .sh)]⟩,
   ⟨"SCN_CHK_STATUS", 0xd00c4, 1, 0, 0x0, [(0, 8, .w1c), (8, 1, .ro)]⟩,
   ⟨"SCN_CHK_VIEW", 0xd0100, 8, 32, 0x0, [(0, 8, .sh), (8, 5, .sh), (16, 3, .sh)]⟩] ++
  [⟨"SCN_CHK_ORIGIN", 0xd0104, 8, 32, 0x0, [(0, 13, .sh), (16, 12, .sh)]⟩,
   ⟨"SCN_CHK_SIZE", 0xd0108, 8, 32, 0x0, [(0, 13, .sh), (16, 12, .sh)]⟩,
   ⟨"SCN_CHK_EXPECT", 0xd010c, 8, 32, 0x0, [(0, 32, .sh)]⟩,
   ⟨"SCN_CHK_LAST", 0xd0110, 8, 32, 0x0, [(0, 32, .ro)]⟩]

/-- Registers of block PNL (Table 20-1). -/
def regsPNL : List RegDesc :=
  [⟨"PNL_CFG", 0xe0000, 1, 0, 0x20, [(0, 1, .sh), (1, 2, .sh), (4, 2, .sh), (31, 1, .wo)]⟩,
   ⟨"PNL_STATUS", 0xe0004, 1, 0, 0x0, [(0, 16, .ro), (16, 4, .ro), (20, 1, .ro)]⟩,
   ⟨"PNL_TRAIN_CFG", 0xe0008, 1, 0, 0x32, [(0, 8, .rw)]⟩,
   ⟨"PNL_RETRAIN", 0xe000c, 1, 0, 0x0, [(0, 16, .w1s)]⟩,
   ⟨"PNL_PORT_STATE", 0xe0010, 1, 0, 0x0, [(0, 32, .ro)]⟩,
   ⟨"PNL_CNT", 0xe0020, 4, 4, 0x0, [(0, 32, .ro)]⟩,
   ⟨"PNL_PREF", 0xe0040, 18, 4, 0x0, [(0, 14, .sh)]⟩,
   ⟨"PNL_DCB_CFG", 0xe0090, 1, 0, 0x103c00, [(0, 1, .sh), (8, 8, .sh), (16, 16, .sh)]⟩,
   ⟨"PNL_DCB_STATUS", 0xe0094, 1, 0, 0x0, [(0, 1, .w1c), (1, 1, .w1c), (2, 6, .ro)]⟩,
   ⟨"PNL_CRK_CFG", 0xe00c0, 1, 0, 0xa00, [(0, 1, .rw), (8, 8, .rw)]⟩,
   ⟨"PNL_CRK_THRESH", 0xe00c4, 1, 0, 0x7d000c8, [(0, 16, .rw), (16, 16, .rw)]⟩,
   ⟨"PNL_CRK_STATUS", 0xe00c8, 1, 0, 0x0, [(0, 16, .ro), (16, 1, .w1c), (17, 1, .w1c), (18, 1, .ro)]⟩] ++
  [⟨"PNL_BLINK_CTRL", 0xe0100, 1, 0, 0x0, [(0, 4, .rw), (4, 1, .rw)]⟩,
   ⟨"PNL_BLINK_TIME", 0xe0104, 1, 0, 0x1f401f4, [(0, 16, .rw), (16, 16, .rw)]⟩,
   ⟨"PNL_BLINK_ORIGIN", 0xe0110, 4, 16, 0x0, [(0, 13, .rw), (16, 12, .rw)]⟩,
   ⟨"PNL_BLINK_SIZE", 0xe0114, 4, 16, 0x0, [(0, 13, .rw), (16, 12, .rw)]⟩,
   ⟨"PNL_BLINK_COLOR", 0xe0118, 4, 16, 0x3fffffff, [(20, 10, .rw), (10, 10, .rw), (0, 10, .rw)]⟩,
   ⟨"PNL_PMB_XFER", 0xe0180, 1, 0, 0x0, [(0, 7, .rw), (7, 1, .rw), (8, 2, .rw), (10, 1, .rw), (28, 1, .ro), (29, 1, .w1c), (30, 1, .ro), (31, 1, .wo)]⟩,
   ⟨"PNL_PMB_DATA", 0xe0184, 1, 0, 0x0, [(0, 32, .rw)]⟩]

/-- Registers of block LNK (Table 20-1). -/
def regsLNK : List RegDesc :=
  [⟨"LNK_CTRL", 0xf0000, 1, 0, 0x0, [(31, 1, .wo)]⟩,
   ⟨"LNK_EYE_CFG", 0xf0004, 1, 0, 0x1e, [(0, 10, .rw)]⟩,
   ⟨"LNK_EVT_LANES", 0xf0010, 4, 4, 0x0, [(0, 32, .w1c)]⟩,
   ⟨"LNK_L_CTRL", 0xf1000, 104, 64, 0x0, [(0, 1, .rw), (1, 1, .rw), (2, 1, .rw)]⟩,
   ⟨"LNK_L_STATUS", 0xf1004, 104, 64, 0x40, [(0, 2, .ro), (2, 2, .ro), (4, 1, .ro), (5, 1, .ro), (6, 1, .ro), (7, 1, .ro)]⟩,
   ⟨"LNK_L_FIR", 0xf1008, 104, 64, 0x4000, [(0, 8, .ro), (8, 8, .ro), (16, 8, .ro)]⟩,
   ⟨"LNK_L_RXEQ", 0xf100c, 104, 64, 0x0, [(0, 4, .ro), (8, 8, .ro), (16, 8, .ro), (24, 8, .ro)]⟩,
   ⟨"LNK_L_EYE", 0xf1010, 104, 64, 0x0, [(0, 10, .ro), (16, 7, .ro)]⟩,
   ⟨"LNK_L_LAT", 0xf1014, 104, 64, 0x0, [(0, 20, .ro)]⟩,
   ⟨"LNK_L_CW_CORR", 0xf1020, 104, 64, 0x0, [(0, 32, .ro)]⟩,
   ⟨"LNK_L_SYM_CORR", 0xf1024, 104, 64, 0x0, [(0, 32, .ro)]⟩,
   ⟨"LNK_L_CW_UNCORR", 0xf1028, 104, 64, 0x0, [(0, 32, .ro)]⟩] ++
  [⟨"LNK_L_HDR_BAD", 0xf102c, 104, 64, 0x0, [(0, 32, .ro)]⟩,
   ⟨"LNK_L_LOCK_LOSS", 0xf1030, 104, 64, 0x0, [(0, 32, .ro)]⟩,
   ⟨"LNK_L_PRBS_ERR", 0xf1034, 104, 64, 0x0, [(0, 32, .ro)]⟩]

/-- Registers of block ENC (Table 20-1). -/
def regsENC : List RegDesc :=
  [⟨"ENC_CTRL", 0x100000, 1, 0, 0x0, [(31, 1, .wo)]⟩,
   ⟨"ENC_STATUS", 0x100004, 1, 0, 0x0, [(0, 16, .ro), (16, 4, .ro)]⟩,
   ⟨"ENC_KEY_REQ", 0x100008, 1, 0, 0x0, [(0, 16, .w1s)]⟩,
   ⟨"ENC_CNT", 0x100040, 4, 4, 0x0, [(0, 32, .ro)]⟩,
   ⟨"ENC_S_WPTR", 0x100100, 16, 16, 0x0, [(0, 32, .ro)]⟩,
   ⟨"ENC_S_INFO", 0x100104, 16, 16, 0x0, [(0, 6, .ro), (8, 6, .ro), (16, 16, .ro)]⟩]

/-- Registers of block BLT (Table 20-1). -/
def regsBLT : List RegDesc :=
  [⟨"BLT_CTRL", 0x110000, 1, 0, 0x0, [(31, 1, .wo)]⟩,
   ⟨"BLT_GAP", 0x110004, 1, 0, 0x0, [(0, 16, .rw)]⟩,
   ⟨"BLT_STATUS", 0x110008, 1, 0, 0x0, [(0, 1, .ro), (1, 1, .ro), (2, 1, .ro), (3, 1, .ro)]⟩,
   ⟨"BLT_CNT", 0x110040, 3, 4, 0x0, [(0, 32, .ro)]⟩]


/-- The registers of the 64 KiB block number `b` (Table 20-1). -/
def regBlock (b : Nat) : List RegDesc :=
  match b with
  | 0 => regsGLB
  | 1 => regsHIF
  | 2 => regsEVT
  | 3 => regsPWR
  | 4 => regsTHM
  | 5 => regsCAL
  | 6 => regsNVS
  | 7 => regsTIM
  | 8 => regsROPE
  | 9 => regsMEM
  | 10 => regsDEC
  | 11 => regsSYN
  | 12 => regsCMP
  | 13 => regsSCN
  | 14 => regsPNL
  | 15 => regsLNK
  | 16 => regsENC
  | 17 => regsBLT
  | _ => []


/-- Whether `off` names a register of the row `d`. -/
def RegDesc.has (d : RegDesc) (off : Nat) : Bool :=
  decide (d.base ≤ off) &&
    (if d.count = 1 then decide (off = d.base)
     else decide ((off - d.base) % d.stride = 0) && decide ((off - d.base) / d.stride < d.count))

/-- The row of the register index that names offset `off` (R466). -/
def regFind (off : Nat) : Option RegDesc := (regBlock (off / 0x10000)).find? fun d => d.has off

/-- The route registers that reset with ALERT set: HIF_INTERNAL, THM_CRITICAL, PWR_PFAIL_WARN and NVS_CAIRN_FOUND (R468). -/
def alertAtReset : List Nat := [1, 417, 448, 460]

/-- The value a cold boot leaves in the register at `off` (R468). Panel lanes 96 to 99 only receive, so their FIR reads 0. -/
def resetWord (off : Nat) : Word :=
  if off / 0x1000 = 0x21 && alertAtReset.contains ((off - 0x21000) / 4) && off % 4 = 0 then 0x80
  else if off = 0xF2808 || off = 0xF2848 || off = 0xF2888 || off = 0xF28C8 then 0
  else match regFind off with
    | some d => BitVec.ofNat 32 d.reset
    | none => 0

/-- The registers that have SH fields (R54), with the fields. -/
def shFields (off : Nat) : List (Nat × Nat) :=
  match regFind off with
  | some d => d.fields.filterMap fun f => if f.2.2 = .sh then some (f.1, f.2.1) else none
  | none => []


namespace F

/-- GLB_ID.VENDOR (R467) -/
def GLB_ID_VENDOR : Fld := ⟨0x0, 0, 16⟩
/-- GLB_ID.DEVICE (R467) -/
def GLB_ID_DEVICE : Fld := ⟨0x0, 16, 16⟩
/-- GLB_REV.STEP (R468) -/
def GLB_REV_STEP : Fld := ⟨0x4, 0, 8⟩
/-- GLB_FW_VERSION.VERSION (R468) -/
def GLB_FW_VERSION_VERSION : Fld := ⟨0x8, 0, 32⟩
/-- GLB_RESET_CAUSE.POWER_UP (R462) -/
def GLB_RESET_CAUSE_POWER_UP : Fld := ⟨0x10, 0, 1⟩
/-- GLB_RESET_CAUSE.PERST (R462) -/
def GLB_RESET_CAUSE_PERST : Fld := ⟨0x10, 1, 1⟩
/-- GLB_RESET_CAUSE.THERM_EXIT (R462) -/
def GLB_RESET_CAUSE_THERM_EXIT : Fld := ⟨0x10, 2, 1⟩
/-- GLB_RESET_CAUSE.RAIL_RETRY (R462) -/
def GLB_RESET_CAUSE_RAIL_RETRY : Fld := ⟨0x10, 3, 1⟩
/-- GLB_RESET_CAUSE.HOT_RESET (R462) -/
def GLB_RESET_CAUSE_HOT_RESET : Fld := ⟨0x10, 4, 1⟩
/-- GLB_RESET_CAUSE.FLR (R462) -/
def GLB_RESET_CAUSE_FLR : Fld := ⟨0x10, 5, 1⟩
/-- GLB_RESET_CAUSE.MGMT_RESTART (R462) -/
def GLB_RESET_CAUSE_MGMT_RESTART : Fld := ⟨0x10, 6, 1⟩
/-- GLB_BOOT_STATUS.READY_T (R456) -/
def GLB_BOOT_STATUS_READY_T : Fld := ⟨0x14, 0, 16⟩
/-- GLB_BOOT_STATUS.FAIL_STEP (R456) -/
def GLB_BOOT_STATUS_FAIL_STEP : Fld := ⟨0x14, 16, 4⟩
/-- GLB_BOOT_STATUS.STACK_FAIL (R456) -/
def GLB_BOOT_STATUS_STACK_FAIL : Fld := ⟨0x14, 20, 4⟩
/-- HIF_CTRL.ENABLE (R69) -/
def HIF_CTRL_ENABLE : Fld := ⟨0x10000, 0, 1⟩
/-- HIF_CTRL.FEATURES_OK (R69) -/
def HIF_CTRL_FEATURES_OK : Fld := ⟨0x10000, 1, 1⟩
/-- HIF_CTRL.RESET (R69) -/
def HIF_CTRL_RESET : Fld := ⟨0x10000, 31, 1⟩
/-- HIF_STATUS.READY (R62) -/
def HIF_STATUS_READY : Fld := ⟨0x10004, 0, 1⟩
/-- HIF_STATUS.RUNNING (R62) -/
def HIF_STATUS_RUNNING : Fld := ⟨0x10004, 1, 1⟩
/-- HIF_STATUS.CXL_MODE (R62) -/
def HIF_STATUS_CXL_MODE : Fld := ⟨0x10004, 2, 1⟩
/-- HIF_STATUS.RESET_BUSY (R62) -/
def HIF_STATUS_RESET_BUSY : Fld := ⟨0x10004, 3, 1⟩
/-- HIF_STATUS.RING_VER (R62) -/
def HIF_STATUS_RING_VER : Fld := ⟨0x10004, 4, 4⟩
/-- HIF_STATUS.RING0_ERR (R62) -/
def HIF_STATUS_RING0_ERR : Fld := ⟨0x10004, 8, 3⟩
/-- HIF_STATUS.REJECT_REASON (R62) -/
def HIF_STATUS_REJECT_REASON : Fld := ⟨0x10004, 16, 8⟩
/-- HIF_FEAT_OFFER.OFFER (R61) -/
def HIF_FEAT_OFFER_OFFER (n : Nat) : Fld := ⟨0x10010 + 0x4 * n, 0, 32⟩
/-- HIF_FEAT_ACCEPT.ACCEPT (R62) -/
def HIF_FEAT_ACCEPT_ACCEPT (n : Nat) : Fld := ⟨0x10020 + 0x4 * n, 0, 32⟩
/-- HIF_RING_BASE_LO.ADDR_LO (R69) -/
def HIF_RING_BASE_LO_ADDR_LO : Fld := ⟨0x10030, 12, 20⟩
/-- HIF_RING_BASE_HI.ADDR_HI (R69) -/
def HIF_RING_BASE_HI_ADDR_HI : Fld := ⟨0x10034, 0, 32⟩
/-- HIF_CQ_BASE_LO.ADDR_LO (R69) -/
def HIF_CQ_BASE_LO_ADDR_LO : Fld := ⟨0x10038, 12, 20⟩
/-- HIF_CQ_BASE_HI.ADDR_HI (R69) -/
def HIF_CQ_BASE_HI_ADDR_HI : Fld := ⟨0x1003c, 0, 32⟩
/-- HIF_DB_LINE_LO.ADDR_LO (R58) -/
def HIF_DB_LINE_LO_ADDR_LO : Fld := ⟨0x10040, 6, 26⟩
/-- HIF_DB_LINE_HI.ADDR_HI (R58) -/
def HIF_DB_LINE_HI_ADDR_HI : Fld := ⟨0x10044, 0, 32⟩
/-- HIF_RING_CFG.LOG2_SIZE (R69) -/
def HIF_RING_CFG_LOG2_SIZE : Fld := ⟨0x10048, 0, 5⟩
/-- HIF_RING_CFG.VECTOR (R69) -/
def HIF_RING_CFG_VECTOR : Fld := ⟨0x10048, 8, 6⟩
/-- HIF_ABORT.RING_ID (R67) -/
def HIF_ABORT_RING_ID : Fld := ⟨0x10050, 0, 6⟩
/-- HIF_ABORT.ALL (R67) -/
def HIF_ABORT_ALL : Fld := ⟨0x10050, 8, 1⟩
/-- HIF_ABORT.GO (R67) -/
def HIF_ABORT_GO : Fld := ⟨0x10050, 31, 1⟩
/-- HIF_ABORT_STATUS.BUSY (R67) -/
def HIF_ABORT_STATUS_BUSY : Fld := ⟨0x10054, 0, 1⟩
/-- HIF_ABORT_STATUS.DONE (R67) -/
def HIF_ABORT_STATUS_DONE : Fld := ⟨0x10054, 1, 1⟩
/-- HIF_ABORT_STATUS.COUNT (R67) -/
def HIF_ABORT_STATUS_COUNT : Fld := ⟨0x10054, 8, 24⟩
/-- HIF_DB_SQ.INDEX (R58) -/
def HIF_DB_SQ_INDEX (n : Nat) : Fld := ⟨0x11000 + 0x8 * n, 0, 32⟩
/-- HIF_DB_CQ.INDEX (R58) -/
def HIF_DB_CQ_INDEX (n : Nat) : Fld := ⟨0x11004 + 0x8 * n, 0, 32⟩
/-- EVT_STATUS.STATUS (R385) -/
def EVT_STATUS_STATUS (n : Nat) : Fld := ⟨0x20000 + 0x4 * n, 0, 32⟩
/-- EVT_ENABLE.ENABLE (R386) -/
def EVT_ENABLE_ENABLE (n : Nat) : Fld := ⟨0x20040 + 0x4 * n, 0, 32⟩
/-- EVT_SUMMARY.ENABLED (R467) -/
def EVT_SUMMARY_ENABLED : Fld := ⟨0x20080, 0, 16⟩
/-- EVT_SUMMARY.ANY (R467) -/
def EVT_SUMMARY_ANY : Fld := ⟨0x20080, 16, 16⟩
/-- EVT_TEST.SOURCE (R390) -/
def EVT_TEST_SOURCE : Fld := ⟨0x20088, 0, 9⟩
/-- EVT_TEST.GO (R390) -/
def EVT_TEST_GO : Fld := ⟨0x20088, 31, 1⟩
/-- EVT_RING_STATUS.ACTIVE (R391) -/
def EVT_RING_STATUS_ACTIVE : Fld := ⟨0x20090, 0, 1⟩
/-- EVT_RING_STATUS.OVF (R391) -/
def EVT_RING_STATUS_OVF : Fld := ⟨0x20090, 1, 1⟩
/-- EVT_RING_STATUS.LOG2_SIZE (R391) -/
def EVT_RING_STATUS_LOG2_SIZE : Fld := ⟨0x20090, 8, 5⟩
/-- EVT_RING_CI.INDEX (R391) -/
def EVT_RING_CI_INDEX : Fld := ⟨0x20094, 0, 32⟩
/-- EVT_RING_PI.INDEX (R391) -/
def EVT_RING_PI_INDEX : Fld := ⟨0x20098, 0, 32⟩
/-- EVT_CNT_LOST.COUNT (R392) -/
def EVT_CNT_LOST_COUNT : Fld := ⟨0x2009c, 0, 32⟩
/-- EVT_ROUTE.VECTOR (R388) -/
def EVT_ROUTE_VECTOR (n : Nat) : Fld := ⟨0x21000 + 0x4 * n, 0, 6⟩
/-- EVT_ROUTE.RING (R388) -/
def EVT_ROUTE_RING (n : Nat) : Fld := ⟨0x21000 + 0x4 * n, 6, 1⟩
/-- EVT_ROUTE.ALERT (R388) -/
def EVT_ROUTE_ALERT (n : Nat) : Fld := ⟨0x21000 + 0x4 * n, 7, 1⟩
/-- EVT_ROUTE.COAL_US (R388) -/
def EVT_ROUTE_COAL_US (n : Nat) : Fld := ⟨0x21000 + 0x4 * n, 8, 16⟩
/-- PWR_CTRL.AUTO_RESUME (R402) -/
def PWR_CTRL_AUTO_RESUME : Fld := ⟨0x30000, 0, 1⟩
/-- PWR_CTRL.PFAIL_IN_EN (R402) -/
def PWR_CTRL_PFAIL_IN_EN : Fld := ⟨0x30000, 1, 1⟩
/-- PWR_CTRL.CNT_CLEAR (R402) -/
def PWR_CTRL_CNT_CLEAR : Fld := ⟨0x30000, 31, 1⟩
/-- PWR_STATUS.STATE (R403) -/
def PWR_STATUS_STATE : Fld := ⟨0x30004, 0, 3⟩
/-- PWR_STATUS.BUSY (R403) -/
def PWR_STATUS_BUSY : Fld := ⟨0x30004, 3, 1⟩
/-- PWR_STATUS.SHED (R403) -/
def PWR_STATUS_SHED : Fld := ⟨0x30004, 4, 1⟩
/-- PWR_STATUS.PFAIL_PIN (R403) -/
def PWR_STATUS_PFAIL_PIN : Fld := ⟨0x30004, 5, 1⟩
/-- PWR_STATUS.HOLD_VALID (R403) -/
def PWR_STATUS_HOLD_VALID : Fld := ⟨0x30004, 6, 1⟩
/-- PWR_STATUS.SHED_CAUSE (R403) -/
def PWR_STATUS_SHED_CAUSE : Fld := ⟨0x30004, 8, 2⟩
/-- PWR_VIN.VIN (R397) -/
def PWR_VIN_VIN : Fld := ⟨0x30008, 0, 16⟩
/-- PWR_VIN.PIN (R397) -/
def PWR_VIN_PIN : Fld := ⟨0x30008, 16, 16⟩
/-- PWR_CNT.COUNT (R402) -/
def PWR_CNT_COUNT (n : Nat) : Fld := ⟨0x30010 + 0x4 * n, 0, 32⟩
/-- THM_CTRL.THR (R417) -/
def THM_CTRL_THR : Fld := ⟨0x40000, 0, 8⟩
/-- THM_CTRL.CRIT (R417) -/
def THM_CTRL_CRIT : Fld := ⟨0x40000, 8, 8⟩
/-- THM_CTRL.SHUT (R417) -/
def THM_CTRL_SHUT : Fld := ⟨0x40000, 16, 8⟩
/-- THM_CTRL.CNT_CLEAR (R417) -/
def THM_CTRL_CNT_CLEAR : Fld := ⟨0x40000, 31, 1⟩
/-- THM_STATUS.TJ (R416) -/
def THM_STATUS_TJ : Fld := ⟨0x40004, 0, 16⟩
/-- THM_STATUS.E (R416) -/
def THM_STATUS_E : Fld := ⟨0x40004, 16, 5⟩
/-- THM_STATUS.CRITICAL (R416) -/
def THM_STATUS_CRITICAL : Fld := ⟨0x40004, 21, 1⟩
/-- THM_STATUS.XCHK_LIMIT (R416) -/
def THM_STATUS_XCHK_LIMIT : Fld := ⟨0x40004, 22, 1⟩
/-- THM_STATUS.HOT (R416) -/
def THM_STATUS_HOT : Fld := ⟨0x40004, 24, 6⟩
/-- THM_SUSPECT_LO.SENS (R412) -/
def THM_SUSPECT_LO_SENS : Fld := ⟨0x40008, 0, 32⟩
/-- THM_SUSPECT_HI.SENS (R412) -/
def THM_SUSPECT_HI_SENS : Fld := ⟨0x4000c, 0, 16⟩
/-- THM_FAIL_LO.SENS (R411) -/
def THM_FAIL_LO_SENS : Fld := ⟨0x40010, 0, 32⟩
/-- THM_FAIL_HI.SENS (R411) -/
def THM_FAIL_HI_SENS : Fld := ⟨0x40014, 0, 16⟩
/-- THM_GROUP.W_H (R423) -/
def THM_GROUP_W_H (n : Nat) : Fld := ⟨0x40018 + 0x4 * n, 0, 16⟩
/-- THM_GROUP.E_M (R423) -/
def THM_GROUP_E_M (n : Nat) : Fld := ⟨0x40018 + 0x4 * n, 16, 16⟩
/-- THM_CNT.COUNT (R418) -/
def THM_CNT_COUNT (n : Nat) : Fld := ⟨0x40020 + 0x4 * n, 0, 32⟩
/-- THM_SENS.FILT (R410) -/
def THM_SENS_FILT (n : Nat) : Fld := ⟨0x40100 + 0x4 * n, 0, 16⟩
/-- THM_SENS.RAW (R410) -/
def THM_SENS_RAW (n : Nat) : Fld := ⟨0x40100 + 0x4 * n, 16, 16⟩
/-- CAL_CTRL.AUTO (R423) -/
def CAL_CTRL_AUTO : Fld := ⟨0x50000, 0, 1⟩
/-- CAL_CTRL.RUN (R423) -/
def CAL_CTRL_RUN : Fld := ⟨0x50000, 1, 1⟩
/-- CAL_CTRL.STAGE (R423) -/
def CAL_CTRL_STAGE : Fld := ⟨0x50000, 2, 1⟩
/-- CAL_CTRL.CNT_CLEAR (R423) -/
def CAL_CTRL_CNT_CLEAR : Fld := ⟨0x50000, 31, 1⟩
/-- CAL_STATUS.BUSY (R424) -/
def CAL_STATUS_BUSY : Fld := ⟨0x50004, 0, 1⟩
/-- CAL_STATUS.APPLY_PENDING (R424) -/
def CAL_STATUS_APPLY_PENDING : Fld := ⟨0x50004, 1, 1⟩
/-- CAL_STATUS.LAT_STALE (R424) -/
def CAL_STATUS_LAT_STALE : Fld := ⟨0x50004, 2, 1⟩
/-- CAL_STATUS.WR_IGNORED (R424) -/
def CAL_STATUS_WR_IGNORED : Fld := ⟨0x50004, 3, 1⟩
/-- CAL_STATUS.SOURCE (R424) -/
def CAL_STATUS_SOURCE : Fld := ⟨0x50004, 4, 2⟩
/-- CAL_STATUS.LAST (R424) -/
def CAL_STATUS_LAST : Fld := ⟨0x50004, 6, 2⟩
/-- CAL_STATUS.REQ_HELD (R424) -/
def CAL_STATUS_REQ_HELD : Fld := ⟨0x50004, 8, 1⟩
/-- CAL_TDELTA.TDELTA (R423) -/
def CAL_TDELTA_TDELTA : Fld := ⟨0x50008, 0, 8⟩
/-- CAL_TBASE.W_H (R423) -/
def CAL_TBASE_W_H (n : Nat) : Fld := ⟨0x5000c + 0x4 * n, 0, 16⟩
/-- CAL_TBASE.E_M (R423) -/
def CAL_TBASE_E_M (n : Nat) : Fld := ⟨0x5000c + 0x4 * n, 16, 16⟩
/-- CAL_CNT_RUNS.COUNT (R423) -/
def CAL_CNT_RUNS_COUNT : Fld := ⟨0x50020, 0, 32⟩
/-- CAL_CNT_FAIL.COUNT (R424) -/
def CAL_CNT_FAIL_COUNT : Fld := ⟨0x50024, 0, 32⟩
/-- CAL_STG_PREF.GAIN (R427) -/
def CAL_STG_PREF_GAIN (n : Nat) : Fld := ⟨0x50100 + 0x4 * n, 0, 16⟩
/-- CAL_STG_PREF.OFFSET (R427) -/
def CAL_STG_PREF_OFFSET (n : Nat) : Fld := ⟨0x50100 + 0x4 * n, 16, 16⟩
/-- CAL_STG_ADC.GAIN (R427) -/
def CAL_STG_ADC_GAIN (n : Nat) : Fld := ⟨0x50148 + 0x4 * n, 0, 16⟩
/-- CAL_STG_ADC.OFFSET (R427) -/
def CAL_STG_ADC_OFFSET (n : Nat) : Fld := ⟨0x50148 + 0x4 * n, 16, 16⟩
/-- CAL_STG_LAT.LAT_PS (R427) -/
def CAL_STG_LAT_LAT_PS : Fld := ⟨0x50154, 0, 16⟩
/-- CAL_ACT_PREF.GAIN (R425) -/
def CAL_ACT_PREF_GAIN (n : Nat) : Fld := ⟨0x50200 + 0x4 * n, 0, 16⟩
/-- CAL_ACT_PREF.OFFSET (R425) -/
def CAL_ACT_PREF_OFFSET (n : Nat) : Fld := ⟨0x50200 + 0x4 * n, 16, 16⟩
/-- CAL_ACT_ADC.GAIN (R425) -/
def CAL_ACT_ADC_GAIN (n : Nat) : Fld := ⟨0x50248 + 0x4 * n, 0, 16⟩
/-- CAL_ACT_ADC.OFFSET (R425) -/
def CAL_ACT_ADC_OFFSET (n : Nat) : Fld := ⟨0x50248 + 0x4 * n, 16, 16⟩
/-- CAL_ACT_LAT.LAT_PS (R425) -/
def CAL_ACT_LAT_LAT_PS : Fld := ⟨0x50254, 0, 16⟩
/-- NVS_CTRL.SVN_COMMIT (R436) -/
def NVS_CTRL_SVN_COMMIT : Fld := ⟨0x60000, 0, 1⟩
/-- NVS_CTRL.CNT_CLEAR (R436) -/
def NVS_CTRL_CNT_CLEAR : Fld := ⟨0x60000, 31, 1⟩
/-- NVS_STATUS.RECALL_BUSY (R445) -/
def NVS_STATUS_RECALL_BUSY : Fld := ⟨0x60004, 0, 1⟩
/-- NVS_STATUS.FLASH_BUSY (R445) -/
def NVS_STATUS_FLASH_BUSY : Fld := ⟨0x60004, 1, 1⟩
/-- NVS_STATUS.SFDP_OK (R445) -/
def NVS_STATUS_SFDP_OK : Fld := ⟨0x60004, 2, 1⟩
/-- NVS_STATUS.MODE (R445) -/
def NVS_STATUS_MODE : Fld := ⟨0x60004, 3, 2⟩
/-- NVS_STATUS.BOOT_IMAGE (R445) -/
def NVS_STATUS_BOOT_IMAGE : Fld := ⟨0x60004, 5, 1⟩
/-- NVS_STATUS.RECOVERY (R445) -/
def NVS_STATUS_RECOVERY : Fld := ⟨0x60004, 6, 1⟩
/-- NVS_STATUS.SET_SOURCE (R445) -/
def NVS_STATUS_SET_SOURCE : Fld := ⟨0x60004, 7, 2⟩
/-- NVS_STATUS.PROFILE_VALID (R445) -/
def NVS_STATUS_PROFILE_VALID : Fld := ⟨0x60004, 9, 1⟩
/-- NVS_STATUS.SNAP_VALID (R445) -/
def NVS_STATUS_SNAP_VALID : Fld := ⟨0x60004, 10, 1⟩
/-- NVS_STATUS.SET_REJECT (R445) -/
def NVS_STATUS_SET_REJECT : Fld := ⟨0x60004, 11, 1⟩
/-- NVS_STATUS.SET_CONFLICT (R445) -/
def NVS_STATUS_SET_CONFLICT : Fld := ⟨0x60004, 12, 1⟩
/-- NVS_SET_GEN.GEN (R441) -/
def NVS_SET_GEN_GEN : Fld := ⟨0x60008, 0, 32⟩
/-- NVS_SVN_RUN.SVN (R436) -/
def NVS_SVN_RUN_SVN : Fld := ⟨0x6000c, 0, 32⟩
/-- NVS_SVN_MIN.SVN (R436) -/
def NVS_SVN_MIN_SVN : Fld := ⟨0x60010, 0, 32⟩
/-- NVS_FLASH_SIZE.MIB (R430) -/
def NVS_FLASH_SIZE_MIB : Fld := ⟨0x60014, 0, 16⟩
/-- NVS_CNT.COUNT (R446) -/
def NVS_CNT_COUNT (n : Nat) : Fld := ⟨0x60020 + 0x4 * n, 0, 32⟩
/-- TIM_CTRL.MODE (R363) -/
def TIM_CTRL_MODE : Fld := ⟨0x70000, 0, 2⟩
/-- TIM_CTRL.REF (R363) -/
def TIM_CTRL_REF : Fld := ⟨0x70000, 2, 2⟩
/-- TIM_CTRL.STEER (R363) -/
def TIM_CTRL_STEER : Fld := ⟨0x70000, 4, 1⟩
/-- TIM_CTRL.COMP (R363) -/
def TIM_CTRL_COMP : Fld := ⟨0x70000, 5, 1⟩
/-- TIM_CTRL.SNAP (R363) -/
def TIM_CTRL_SNAP : Fld := ⟨0x70000, 31, 1⟩
/-- TIM_STATUS.VALID (R365) -/
def TIM_STATUS_VALID : Fld := ⟨0x70004, 0, 1⟩
/-- TIM_STATUS.LOCKED (R365) -/
def TIM_STATUS_LOCKED : Fld := ⟨0x70004, 1, 1⟩
/-- TIM_STATUS.ROLE (R365) -/
def TIM_STATUS_ROLE : Fld := ⟨0x70004, 2, 2⟩
/-- TIM_STATUS.TREF_USED (R365) -/
def TIM_STATUS_TREF_USED : Fld := ⟨0x70004, 4, 1⟩
/-- TIM_STATUS.TREF_OK (R365) -/
def TIM_STATUS_TREF_OK : Fld := ⟨0x70004, 5, 1⟩
/-- TIM_STATUS.PPS_OK (R365) -/
def TIM_STATUS_PPS_OK : Fld := ⟨0x70004, 6, 1⟩
/-- TIM_STATUS.HOLDOVER (R365) -/
def TIM_STATUS_HOLDOVER : Fld := ⟨0x70004, 7, 1⟩
/-- TIM_STATUS.SLEWING (R365) -/
def TIM_STATUS_SLEWING : Fld := ⟨0x70004, 8, 1⟩
/-- TIM_OFFSET_LO.OFF_LO (R362) -/
def TIM_OFFSET_LO_OFF_LO : Fld := ⟨0x70008, 0, 32⟩
/-- TIM_OFFSET_HI.OFF_HI (R362) -/
def TIM_OFFSET_HI_OFF_HI : Fld := ⟨0x7000c, 0, 32⟩
/-- TIM_RATE.RATE (R362) -/
def TIM_RATE_RATE : Fld := ⟨0x70010, 0, 32⟩
/-- TIM_STEER.STEP_NS (R367) -/
def TIM_STEER_STEP_NS : Fld := ⟨0x70014, 0, 16⟩
/-- TIM_STEER.SLEW_PPB (R367) -/
def TIM_STEER_SLEW_PPB : Fld := ⟨0x70014, 16, 16⟩
/-- TIM_DC_INC_LO.FRAC (R366) -/
def TIM_DC_INC_LO_FRAC : Fld := ⟨0x70018, 0, 32⟩
/-- TIM_DC_INC_HI.NS (R366) -/
def TIM_DC_INC_HI_NS : Fld := ⟨0x7001c, 0, 32⟩
/-- TIM_DC_ADJ.ADJ (R367) -/
def TIM_DC_ADJ_ADJ : Fld := ⟨0x70020, 0, 32⟩
/-- TIM_DC_ERR.E (R367) -/
def TIM_DC_ERR_E : Fld := ⟨0x70024, 0, 32⟩
/-- TIM_LAT_PS.LAT (R375) -/
def TIM_LAT_PS_LAT : Fld := ⟨0x70028, 0, 16⟩
/-- TIM_SNAP_RAW_LO.VALUE (R362) -/
def TIM_SNAP_RAW_LO_VALUE : Fld := ⟨0x70030, 0, 32⟩
/-- TIM_SNAP_RAW_HI.VALUE (R362) -/
def TIM_SNAP_RAW_HI_VALUE : Fld := ⟨0x70034, 0, 32⟩
/-- TIM_SNAP_RT_LO.VALUE (R362) -/
def TIM_SNAP_RT_LO_VALUE : Fld := ⟨0x70038, 0, 32⟩
/-- TIM_SNAP_RT_HI.VALUE (R362) -/
def TIM_SNAP_RT_HI_VALUE : Fld := ⟨0x7003c, 0, 32⟩
/-- TIM_SNAP_DC_NS.VALUE (R366) -/
def TIM_SNAP_DC_NS_VALUE : Fld := ⟨0x70040, 0, 30⟩
/-- TIM_SNAP_DC_SEC_LO.VALUE (R366) -/
def TIM_SNAP_DC_SEC_LO_VALUE : Fld := ⟨0x70044, 0, 32⟩
/-- TIM_SNAP_DC_SEC_HI.VALUE (R366) -/
def TIM_SNAP_DC_SEC_HI_VALUE : Fld := ⟨0x70048, 0, 16⟩
/-- TIM_PPS_SEC_LO.VALUE (R364) -/
def TIM_PPS_SEC_LO_VALUE : Fld := ⟨0x70050, 0, 32⟩
/-- TIM_PPS_SEC_HI.VALUE (R364) -/
def TIM_PPS_SEC_HI_VALUE : Fld := ⟨0x70054, 0, 16⟩
/-- TIM_PPS_CAP_LO.VALUE (R364) -/
def TIM_PPS_CAP_LO_VALUE : Fld := ⟨0x70058, 0, 32⟩
/-- TIM_PPS_CAP_HI.VALUE (R364) -/
def TIM_PPS_CAP_HI_VALUE : Fld := ⟨0x7005c, 0, 32⟩
/-- TIM_SERVO_CFG.BW (R372) -/
def TIM_SERVO_CFG_BW : Fld := ⟨0x70060, 0, 2⟩
/-- TIM_SERVO_CFG.SYNC_US (R372) -/
def TIM_SERVO_CFG_SYNC_US : Fld := ⟨0x70060, 8, 8⟩
/-- TIM_SERVO_ERR.E (R372) -/
def TIM_SERVO_ERR_E : Fld := ⟨0x70064, 0, 32⟩
/-- TIM_PITCH_DELAY.DELAY (R370) -/
def TIM_PITCH_DELAY_DELAY : Fld := ⟨0x70068, 0, 32⟩
/-- TIM_PITCH_ASYM.A (R370) -/
def TIM_PITCH_ASYM_A : Fld := ⟨0x7006c, 0, 16⟩
/-- TIM_FSTROBE.EN (R380) -/
def TIM_FSTROBE_EN : Fld := ⟨0x70070, 0, 1⟩
/-- TIM_FSTROBE.POL (R380) -/
def TIM_FSTROBE_POL : Fld := ⟨0x70070, 1, 1⟩
/-- TIM_FSTROBE.WIDTH (R380) -/
def TIM_FSTROBE_WIDTH : Fld := ⟨0x70070, 16, 16⟩
/-- TIM_TS_SEL.PRESENT (R381) -/
def TIM_TS_SEL_PRESENT : Fld := ⟨0x70080, 0, 1⟩
/-- TIM_TS_SEL.ALARM (R381) -/
def TIM_TS_SEL_ALARM : Fld := ⟨0x70080, 1, 1⟩
/-- TIM_TS_SEL.MAIL (R381) -/
def TIM_TS_SEL_MAIL : Fld := ⟨0x70080, 2, 1⟩
/-- TIM_TSQ_INFO.ID (R382) -/
def TIM_TSQ_INFO_ID : Fld := ⟨0x70084, 0, 12⟩
/-- TIM_TSQ_INFO.PORT (R382) -/
def TIM_TSQ_INFO_PORT : Fld := ⟨0x70084, 12, 1⟩
/-- TIM_TSQ_INFO.TYPE (R382) -/
def TIM_TSQ_INFO_TYPE : Fld := ⟨0x70084, 13, 2⟩
/-- TIM_TSQ_INFO.QTR (R382) -/
def TIM_TSQ_INFO_QTR : Fld := ⟨0x70084, 15, 2⟩
/-- TIM_TSQ_INFO.LEVEL (R382) -/
def TIM_TSQ_INFO_LEVEL : Fld := ⟨0x70084, 17, 5⟩
/-- TIM_TSQ_INFO.VALID (R382) -/
def TIM_TSQ_INFO_VALID : Fld := ⟨0x70084, 22, 1⟩
/-- TIM_TSQ_INFO.OVF (R382) -/
def TIM_TSQ_INFO_OVF : Fld := ⟨0x70084, 23, 1⟩
/-- TIM_TSQ_INFO.POP (R382) -/
def TIM_TSQ_INFO_POP : Fld := ⟨0x70084, 31, 1⟩
/-- TIM_TSQ_TIME_LO.RT (R381) -/
def TIM_TSQ_TIME_LO_RT : Fld := ⟨0x70088, 0, 32⟩
/-- TIM_TSQ_TIME_HI.RT (R381) -/
def TIM_TSQ_TIME_HI_RT : Fld := ⟨0x7008c, 0, 32⟩
/-- TIM_TSQ_KEY.KEY (R381) -/
def TIM_TSQ_KEY_KEY : Fld := ⟨0x70090, 0, 16⟩
/-- TIM_TEV_CTRL.MODE (R377) -/
def TIM_TEV_CTRL_MODE (n : Nat) : Fld := ⟨0x70100 + 0x20 * n, 0, 2⟩
/-- TIM_TEV_CTRL.POL (R377) -/
def TIM_TEV_CTRL_POL (n : Nat) : Fld := ⟨0x70100 + 0x20 * n, 2, 1⟩
/-- TIM_TEV_CTRL.ARM (R377) -/
def TIM_TEV_CTRL_ARM (n : Nat) : Fld := ⟨0x70100 + 0x20 * n, 4, 1⟩
/-- TIM_TEV_CTRL.DISARM (R377) -/
def TIM_TEV_CTRL_DISARM (n : Nat) : Fld := ⟨0x70100 + 0x20 * n, 5, 1⟩
/-- TIM_TEV_START_NS.NS (R376) -/
def TIM_TEV_START_NS_NS (n : Nat) : Fld := ⟨0x70104 + 0x20 * n, 0, 30⟩
/-- TIM_TEV_START_NS.QTR (R376) -/
def TIM_TEV_START_NS_QTR (n : Nat) : Fld := ⟨0x70104 + 0x20 * n, 30, 2⟩
/-- TIM_TEV_START_SEC_LO.SEC (R376) -/
def TIM_TEV_START_SEC_LO_SEC (n : Nat) : Fld := ⟨0x70108 + 0x20 * n, 0, 32⟩
/-- TIM_TEV_START_SEC_HI.SEC (R376) -/
def TIM_TEV_START_SEC_HI_SEC (n : Nat) : Fld := ⟨0x7010c + 0x20 * n, 0, 16⟩
/-- TIM_TEV_PERIOD.NS (R376) -/
def TIM_TEV_PERIOD_NS (n : Nat) : Fld := ⟨0x70110 + 0x20 * n, 0, 30⟩
/-- TIM_TEV_PERIOD.QTR (R376) -/
def TIM_TEV_PERIOD_QTR (n : Nat) : Fld := ⟨0x70110 + 0x20 * n, 30, 2⟩
/-- TIM_TEV_WIDTH.NS (R376) -/
def TIM_TEV_WIDTH_NS (n : Nat) : Fld := ⟨0x70114 + 0x20 * n, 0, 16⟩
/-- TIM_TEV_COUNT.COUNT (R376) -/
def TIM_TEV_COUNT_COUNT (n : Nat) : Fld := ⟨0x70118 + 0x20 * n, 0, 32⟩
/-- TIM_TEV_STATUS.ARMED (R377) -/
def TIM_TEV_STATUS_ARMED (n : Nat) : Fld := ⟨0x7011c + 0x20 * n, 0, 1⟩
/-- TIM_TEV_STATUS.DONE (R377) -/
def TIM_TEV_STATUS_DONE (n : Nat) : Fld := ⟨0x7011c + 0x20 * n, 1, 1⟩
/-- TIM_TEV_STATUS.MISSED (R377) -/
def TIM_TEV_STATUS_MISSED (n : Nat) : Fld := ⟨0x7011c + 0x20 * n, 2, 1⟩
/-- TIM_TEV_STATUS.LATE (R377) -/
def TIM_TEV_STATUS_LATE (n : Nat) : Fld := ⟨0x7011c + 0x20 * n, 3, 1⟩
/-- TIM_TEV_STATUS.ERR (R377) -/
def TIM_TEV_STATUS_ERR (n : Nat) : Fld := ⟨0x7011c + 0x20 * n, 4, 1⟩
/-- ROPE_CTRL.LEAVE (R359) -/
def ROPE_CTRL_LEAVE : Fld := ⟨0x80000, 0, 1⟩
/-- ROPE_CTRL.JOIN (R359) -/
def ROPE_CTRL_JOIN : Fld := ⟨0x80000, 1, 1⟩
/-- ROPE_CTRL.RETRAIN_UP (R359) -/
def ROPE_CTRL_RETRAIN_UP : Fld := ⟨0x80000, 2, 1⟩
/-- ROPE_CTRL.RETRAIN_DN (R359) -/
def ROPE_CTRL_RETRAIN_DN : Fld := ⟨0x80000, 3, 1⟩
/-- ROPE_CTRL.CNT_CLEAR (R359) -/
def ROPE_CTRL_CNT_CLEAR : Fld := ⟨0x80000, 31, 1⟩
/-- ROPE_CFG.VERSIONS (R345) -/
def ROPE_CFG_VERSIONS : Fld := ⟨0x80004, 0, 2⟩
/-- ROPE_CFG.HEAD_WAIT_MS (R345) -/
def ROPE_CFG_HEAD_WAIT_MS : Fld := ⟨0x80004, 8, 8⟩
/-- ROPE_CFG.ENUM_WAIT_MS (R345) -/
def ROPE_CFG_ENUM_WAIT_MS : Fld := ⟨0x80004, 16, 8⟩
/-- ROPE_STATUS.ADDRESS (R354) -/
def ROPE_STATUS_ADDRESS : Fld := ⟨0x80008, 0, 8⟩
/-- ROPE_STATUS.TOTAL (R354) -/
def ROPE_STATUS_TOTAL : Fld := ⟨0x80008, 8, 8⟩
/-- ROPE_STATUS.HEAD (R354) -/
def ROPE_STATUS_HEAD : Fld := ⟨0x80008, 16, 1⟩
/-- ROPE_STATUS.STRAPPED (R354) -/
def ROPE_STATUS_STRAPPED : Fld := ⟨0x80008, 17, 1⟩
/-- ROPE_STATUS.ENUM_BUSY (R354) -/
def ROPE_STATUS_ENUM_BUSY : Fld := ⟨0x80008, 18, 1⟩
/-- ROPE_STATUS.LEFT (R354) -/
def ROPE_STATUS_LEFT : Fld := ⟨0x80008, 19, 1⟩
/-- ROPE_STATUS.OVERLENGTH (R354) -/
def ROPE_STATUS_OVERLENGTH : Fld := ⟨0x80008, 20, 1⟩
/-- ROPE_STATUS.NO_HEAD (R354) -/
def ROPE_STATUS_NO_HEAD : Fld := ⟨0x80008, 21, 1⟩
/-- ROPE_UP_STATE.STATE (R343) -/
def ROPE_UP_STATE_STATE : Fld := ⟨0x80010, 0, 3⟩
/-- ROPE_UP_STATE.VERSION (R343) -/
def ROPE_UP_STATE_VERSION : Fld := ⟨0x80010, 4, 2⟩
/-- ROPE_UP_STATE.LANES (R343) -/
def ROPE_UP_STATE_LANES : Fld := ⟨0x80010, 6, 2⟩
/-- ROPE_UP_STATE.QUARTER (R343) -/
def ROPE_UP_STATE_QUARTER : Fld := ⟨0x80010, 8, 1⟩
/-- ROPE_UP_STATE.PEER_STRAPPED (R343) -/
def ROPE_UP_STATE_PEER_STRAPPED : Fld := ⟨0x80010, 9, 1⟩
/-- ROPE_UP_STATE.PEER_ADDR (R343) -/
def ROPE_UP_STATE_PEER_ADDR : Fld := ⟨0x80010, 16, 8⟩
/-- ROPE_DN_STATE.STATE (R343) -/
def ROPE_DN_STATE_STATE : Fld := ⟨0x80014, 0, 3⟩
/-- ROPE_DN_STATE.VERSION (R343) -/
def ROPE_DN_STATE_VERSION : Fld := ⟨0x80014, 4, 2⟩
/-- ROPE_DN_STATE.LANES (R343) -/
def ROPE_DN_STATE_LANES : Fld := ⟨0x80014, 6, 2⟩
/-- ROPE_DN_STATE.QUARTER (R343) -/
def ROPE_DN_STATE_QUARTER : Fld := ⟨0x80014, 8, 1⟩
/-- ROPE_DN_STATE.PEER_STRAPPED (R343) -/
def ROPE_DN_STATE_PEER_STRAPPED : Fld := ⟨0x80014, 9, 1⟩
/-- ROPE_DN_STATE.PEER_ADDR (R343) -/
def ROPE_DN_STATE_PEER_ADDR : Fld := ⟨0x80014, 16, 8⟩
/-- ROPE_ALARM_CFG.SEND (R357) -/
def ROPE_ALARM_CFG_SEND : Fld := ⟨0x80020, 0, 6⟩
/-- ROPE_ALARM_CFG.SW_CODE (R357) -/
def ROPE_ALARM_CFG_SW_CODE : Fld := ⟨0x80020, 8, 8⟩
/-- ROPE_ALARM_CFG.SW_GO (R357) -/
def ROPE_ALARM_CFG_SW_GO : Fld := ⟨0x80020, 31, 1⟩
/-- ROPE_ALARM_LAST.SRC (R357) -/
def ROPE_ALARM_LAST_SRC : Fld := ⟨0x80024, 0, 8⟩
/-- ROPE_ALARM_LAST.CODE (R357) -/
def ROPE_ALARM_LAST_CODE : Fld := ⟨0x80024, 8, 8⟩
/-- ROPE_ALARM_LAST.VALID (R357) -/
def ROPE_ALARM_LAST_VALID : Fld := ⟨0x80024, 16, 1⟩
/-- ROPE_ALARM_LAST.OVF (R357) -/
def ROPE_ALARM_LAST_OVF : Fld := ⟨0x80024, 17, 1⟩
/-- ROPE_CNT.COUNT (R340) -/
def ROPE_CNT_COUNT (n : Nat) : Fld := ⟨0x80040 + 0x4 * n, 0, 32⟩
/-- MEM_CTRL.SCRUB_EN (R333) -/
def MEM_CTRL_SCRUB_EN : Fld := ⟨0x90000, 0, 1⟩
/-- MEM_CTRL.CNT_CLEAR (R333) -/
def MEM_CTRL_CNT_CLEAR : Fld := ⟨0x90000, 31, 1⟩
/-- MEM_STATUS.INIT_BUSY (R325) -/
def MEM_STATUS_INIT_BUSY : Fld := ⟨0x90004, 0, 1⟩
/-- MEM_STATUS.SCRUB_PAUSED (R325) -/
def MEM_STATUS_SCRUB_PAUSED : Fld := ⟨0x90004, 1, 1⟩
/-- MEM_AFFINE.PAIR (R324) -/
def MEM_AFFINE_PAIR : Fld := ⟨0x90008, 0, 29⟩
/-- MEM_SCRUB_CFG.HOURS (R333) -/
def MEM_SCRUB_CFG_HOURS : Fld := ⟨0x90010, 0, 8⟩
/-- MEM_SCRUB_POS.SECTOR (R333) -/
def MEM_SCRUB_POS_SECTOR : Fld := ⟨0x90014, 0, 31⟩
/-- MEM_ERR_ADDR_LO.ADDR_LO (R330) -/
def MEM_ERR_ADDR_LO_ADDR_LO : Fld := ⟨0x90020, 5, 27⟩
/-- MEM_ERR_ADDR_HI.ADDR_HI (R330) -/
def MEM_ERR_ADDR_HI_ADDR_HI : Fld := ⟨0x90024, 0, 4⟩
/-- MEM_ERR_INFO.VALID (R330) -/
def MEM_ERR_INFO_VALID : Fld := ⟨0x90028, 0, 1⟩
/-- MEM_ERR_INFO.OVF (R330) -/
def MEM_ERR_INFO_OVF : Fld := ⟨0x90028, 1, 1⟩
/-- MEM_ERR_INFO.STACK (R330) -/
def MEM_ERR_INFO_STACK : Fld := ⟨0x90028, 2, 2⟩
/-- MEM_ERR_INFO.CLASS (R330) -/
def MEM_ERR_INFO_CLASS : Fld := ⟨0x90028, 4, 4⟩
/-- MEM_CORR_THRESH.STEP (R329) -/
def MEM_CORR_THRESH_STEP : Fld := ⟨0x9002c, 0, 16⟩
/-- MEM_BW.LOW (R338) -/
def MEM_BW_LOW (n : Nat) : Fld := ⟨0x90030 + 0x4 * n, 0, 16⟩
/-- MEM_BW.HIGH (R338) -/
def MEM_BW_HIGH (n : Nat) : Fld := ⟨0x90030 + 0x4 * n, 16, 16⟩
/-- MEM_CNT.COUNT (R329) -/
def MEM_CNT_COUNT (n : Nat) : Fld := ⟨0x90040 + 0x4 * n, 0, 32⟩
/-- MEM_WIN_BASE.PAGE (R335) -/
def MEM_WIN_BASE_PAGE (n : Nat) : Fld := ⟨0x90100 + 0x10 * n, 0, 24⟩
/-- MEM_WIN_LIMIT.PAGE (R335) -/
def MEM_WIN_LIMIT_PAGE (n : Nat) : Fld := ⟨0x90104 + 0x10 * n, 0, 24⟩
/-- MEM_WIN_RIGHTS.DEC_R (R335) -/
def MEM_WIN_RIGHTS_DEC_R (n : Nat) : Fld := ⟨0x90108 + 0x10 * n, 0, 1⟩
/-- MEM_WIN_RIGHTS.DEC_W (R335) -/
def MEM_WIN_RIGHTS_DEC_W (n : Nat) : Fld := ⟨0x90108 + 0x10 * n, 1, 1⟩
/-- MEM_WIN_RIGHTS.SYN_R (R335) -/
def MEM_WIN_RIGHTS_SYN_R (n : Nat) : Fld := ⟨0x90108 + 0x10 * n, 2, 1⟩
/-- MEM_WIN_RIGHTS.CMP_R (R335) -/
def MEM_WIN_RIGHTS_CMP_R (n : Nat) : Fld := ⟨0x90108 + 0x10 * n, 3, 1⟩
/-- MEM_WIN_RIGHTS.ENC_R (R335) -/
def MEM_WIN_RIGHTS_ENC_R (n : Nat) : Fld := ⟨0x90108 + 0x10 * n, 4, 1⟩
/-- MEM_WIN_RIGHTS.ENC_W (R335) -/
def MEM_WIN_RIGHTS_ENC_W (n : Nat) : Fld := ⟨0x90108 + 0x10 * n, 5, 1⟩
/-- MEM_WIN_RIGHTS.BLT_R (R335) -/
def MEM_WIN_RIGHTS_BLT_R (n : Nat) : Fld := ⟨0x90108 + 0x10 * n, 6, 1⟩
/-- MEM_WIN_RIGHTS.BLT_W (R335) -/
def MEM_WIN_RIGHTS_BLT_W (n : Nat) : Fld := ⟨0x90108 + 0x10 * n, 7, 1⟩
/-- MEM_WIN_RIGHTS.MGMT_R (R335) -/
def MEM_WIN_RIGHTS_MGMT_R (n : Nat) : Fld := ⟨0x90108 + 0x10 * n, 8, 1⟩
/-- MEM_WIN_RIGHTS.MGMT_W (R335) -/
def MEM_WIN_RIGHTS_MGMT_W (n : Nat) : Fld := ⟨0x90108 + 0x10 * n, 9, 1⟩
/-- DEC_CTRL.LATE_WIN (R132) -/
def DEC_CTRL_LATE_WIN : Fld := ⟨0xa0000, 0, 3⟩
/-- DEC_CTRL.CNT_CLEAR (R132) -/
def DEC_CTRL_CNT_CLEAR : Fld := ⟨0xa0000, 8, 1⟩
/-- DEC_STATUS.CFG_OK (R114) -/
def DEC_STATUS_CFG_OK : Fld := ⟨0xa0004, 0, 1⟩
/-- DEC_STATUS.IDLE (R114) -/
def DEC_STATUS_IDLE : Fld := ⟨0xa0004, 1, 1⟩
/-- DEC_STATUS.REPAIR_OPEN (R114) -/
def DEC_STATUS_REPAIR_OPEN : Fld := ⟨0xa0004, 2, 1⟩
/-- DEC_STATUS.SUSPENDED (R114) -/
def DEC_STATUS_SUSPENDED : Fld := ⟨0xa0004, 8, 8⟩
/-- DEC_STATUS.LAST_IGNORE (R114) -/
def DEC_STATUS_LAST_IGNORE : Fld := ⟨0xa0004, 16, 2⟩
/-- DEC_POOL_BASE_LO.ADDR_LO (R113) -/
def DEC_POOL_BASE_LO_ADDR_LO : Fld := ⟨0xa0008, 12, 20⟩
/-- DEC_POOL_BASE_HI.ADDR_HI (R113) -/
def DEC_POOL_BASE_HI_ADDR_HI : Fld := ⟨0xa000c, 0, 4⟩
/-- DEC_SLOT_CFG.STRIDE (R113) -/
def DEC_SLOT_CFG_STRIDE : Fld := ⟨0xa0010, 0, 14⟩
/-- DEC_SLOT_CFG.SLOTS (R113) -/
def DEC_SLOT_CFG_SLOTS : Fld := ⟨0xa0010, 16, 5⟩
/-- DEC_SLOT_CFG.ANCHORS (R113) -/
def DEC_SLOT_CFG_ANCHORS : Fld := ⟨0xa0010, 24, 6⟩
/-- DEC_POOL_NEED.NEED (R113) -/
def DEC_POOL_NEED_NEED : Fld := ⟨0xa0014, 0, 32⟩
/-- DEC_ARCH_BASE_LO.ADDR_LO (R139) -/
def DEC_ARCH_BASE_LO_ADDR_LO : Fld := ⟨0xa0018, 12, 20⟩
/-- DEC_ARCH_BASE_HI.ADDR_HI (R139) -/
def DEC_ARCH_BASE_HI_ADDR_HI : Fld := ⟨0xa001c, 0, 4⟩
/-- DEC_ARCH_SIZE.SIZE (R139) -/
def DEC_ARCH_SIZE_SIZE : Fld := ⟨0xa0020, 0, 13⟩
/-- DEC_BUDGET.PER_SB (R119) -/
def DEC_BUDGET_PER_SB : Fld := ⟨0xa0024, 0, 16⟩
/-- DEC_BUDGET.BASE (R119) -/
def DEC_BUDGET_BASE : Fld := ⟨0xa0024, 16, 16⟩
/-- DEC_CNT.COUNT (R141) -/
def DEC_CNT_COUNT (n : Nat) : Fld := ⟨0xa0040 + 0x4 * n, 0, 32⟩
/-- SYN_GEOM.HOGEL_COLS (R26) -/
def SYN_GEOM_HOGEL_COLS : Fld := ⟨0xb0000, 0, 13⟩
/-- SYN_GEOM.HOGEL_ROWS (R26) -/
def SYN_GEOM_HOGEL_ROWS : Fld := ⟨0xb0000, 16, 12⟩
/-- SYN_VIEWGRID.GRID_U (R26) -/
def SYN_VIEWGRID_GRID_U : Fld := ⟨0xb0004, 0, 8⟩
/-- SYN_VIEWGRID.GRID_V (R26) -/
def SYN_VIEWGRID_GRID_V : Fld := ⟨0xb0004, 8, 5⟩
/-- SYN_VIEWGRID.ANCHORS (R26) -/
def SYN_VIEWGRID_ANCHORS : Fld := ⟨0xb0004, 16, 6⟩
/-- SYN_DISP_BOUND.DH (R22) -/
def SYN_DISP_BOUND_DH : Fld := ⟨0xb0008, 0, 8⟩
/-- SYN_DISP_BOUND.DV (R22) -/
def SYN_DISP_BOUND_DV : Fld := ⟨0xb0008, 16, 8⟩
/-- SYN_SWATH_NEED.NEED (R22) -/
def SYN_SWATH_NEED_NEED : Fld := ⟨0xb0010, 0, 32⟩
/-- SYN_SWATH_CAP.CAP (R22) -/
def SYN_SWATH_CAP_CAP : Fld := ⟨0xb0014, 0, 32⟩
/-- SYN_CTRL.FETCH_N (R149) -/
def SYN_CTRL_FETCH_N : Fld := ⟨0xb0020, 0, 3⟩
/-- SYN_CTRL.HOLE_REACH (R149) -/
def SYN_CTRL_HOLE_REACH : Fld := ⟨0xb0020, 8, 8⟩
/-- SYN_CTRL.CRACK_FILL (R149) -/
def SYN_CTRL_CRACK_FILL : Fld := ⟨0xb0020, 16, 1⟩
/-- SYN_CTRL.CNT_CLEAR (R149) -/
def SYN_CTRL_CNT_CLEAR : Fld := ⟨0xb0020, 31, 1⟩
/-- SYN_VIS_TOL.TOL (R157) -/
def SYN_VIS_TOL_TOL : Fld := ⟨0xb0024, 0, 16⟩
/-- SYN_WM.WM1 (R167) -/
def SYN_WM_WM1 : Fld := ⟨0xb0028, 0, 8⟩
/-- SYN_WM.WM2 (R167) -/
def SYN_WM_WM2 : Fld := ⟨0xb0028, 8, 8⟩
/-- SYN_WM.WM3 (R167) -/
def SYN_WM_WM3 : Fld := ⟨0xb0028, 16, 8⟩
/-- SYN_WM.HYST (R167) -/
def SYN_WM_HYST : Fld := ⟨0xb0028, 24, 4⟩
/-- SYN_PRIO.MIN_LEVEL (R170) -/
def SYN_PRIO_MIN_LEVEL : Fld := ⟨0xb002c, 0, 2⟩
/-- SYN_PRIO.HOST_MAX_US (R170) -/
def SYN_PRIO_HOST_MAX_US : Fld := ⟨0xb002c, 8, 4⟩
/-- SYN_THROTTLE.E_FORCE (R172) -/
def SYN_THROTTLE_E_FORCE : Fld := ⟨0xb0030, 0, 5⟩
/-- SYN_THROTTLE.E_THERMAL (R172) -/
def SYN_THROTTLE_E_THERMAL : Fld := ⟨0xb0030, 8, 5⟩
/-- SYN_THROTTLE.E_APP (R172) -/
def SYN_THROTTLE_E_APP : Fld := ⟨0xb0030, 16, 5⟩
/-- SYN_THROTTLE.K (R172) -/
def SYN_THROTTLE_K : Fld := ⟨0xb0030, 24, 5⟩
/-- SYN_STATUS.FIFO_ROWS (R166) -/
def SYN_STATUS_FIFO_ROWS : Fld := ⟨0xb0034, 0, 8⟩
/-- SYN_STATUS.LEVEL (R166) -/
def SYN_STATUS_LEVEL : Fld := ⟨0xb0034, 8, 2⟩
/-- SYN_STATUS.CAP_ROWS (R166) -/
def SYN_STATUS_CAP_ROWS : Fld := ⟨0xb0034, 16, 8⟩
/-- SYN_STATUS.N_D (R166) -/
def SYN_STATUS_N_D : Fld := ⟨0xb0034, 24, 8⟩
/-- SYN_CNT.COUNT (R171) -/
def SYN_CNT_COUNT (n : Nat) : Fld := ⟨0xb0040 + 0x4 * n, 0, 32⟩
/-- SYN_DECIM_MAP.MAP (R176) -/
def SYN_DECIM_MAP_MAP (n : Nat) : Fld := ⟨0xb0080 + 0x4 * n, 0, 32⟩
/-- CMP_CTRL.PLANES (R181) -/
def CMP_CTRL_PLANES : Fld := ⟨0xc0000, 0, 3⟩
/-- CMP_CTRL.CULL_EN (R181) -/
def CMP_CTRL_CULL_EN : Fld := ⟨0xc0000, 3, 1⟩
/-- CMP_CTRL.DITHER (R181) -/
def CMP_CTRL_DITHER : Fld := ⟨0xc0000, 4, 2⟩
/-- CMP_CTRL.CNT_CLEAR (R181) -/
def CMP_CTRL_CNT_CLEAR : Fld := ⟨0xc0000, 31, 1⟩
/-- CMP_STATUS.PENDING (R203) -/
def CMP_STATUS_PENDING : Fld := ⟨0xc0004, 0, 1⟩
/-- CMP_STATUS.BOUND (R203) -/
def CMP_STATUS_BOUND : Fld := ⟨0xc0004, 1, 1⟩
/-- CMP_STATUS.RETIRE_OVF (R203) -/
def CMP_STATUS_RETIRE_OVF : Fld := ⟨0xc0004, 2, 1⟩
/-- CMP_STATUS.NOT_READY (R203) -/
def CMP_STATUS_NOT_READY : Fld := ⟨0xc0004, 8, 8⟩
/-- CMP_REJECT.FAILED (R198) -/
def CMP_REJECT_FAILED : Fld := ⟨0xc0008, 0, 16⟩
/-- CMP_REJECT.PLANE (R198) -/
def CMP_REJECT_PLANE : Fld := ⟨0xc0008, 16, 3⟩
/-- CMP_RETIRE_BASE_LO.ADDR_LO (R206) -/
def CMP_RETIRE_BASE_LO_ADDR_LO : Fld := ⟨0xc0010, 12, 20⟩
/-- CMP_RETIRE_BASE_HI.ADDR_HI (R206) -/
def CMP_RETIRE_BASE_HI_ADDR_HI : Fld := ⟨0xc0014, 0, 32⟩
/-- CMP_RETIRE_CFG.EN (R206) -/
def CMP_RETIRE_CFG_EN : Fld := ⟨0xc0018, 0, 1⟩
/-- CMP_RETIRE_CFG.LOG2_SIZE (R206) -/
def CMP_RETIRE_CFG_LOG2_SIZE : Fld := ⟨0xc0018, 4, 4⟩
/-- CMP_RETIRE_CI.INDEX (R206) -/
def CMP_RETIRE_CI_INDEX : Fld := ⟨0xc001c, 0, 32⟩
/-- CMP_CNT.COUNT (R203) -/
def CMP_CNT_COUNT (n : Nat) : Fld := ⟨0xc0020 + 0x4 * n, 0, 32⟩
/-- CMP_L_CTRL.ENABLE (R183) -/
def CMP_L_CTRL_ENABLE (n : Nat) : Fld := ⟨0xc0140 + 0x40 * n, 0, 1⟩
/-- CMP_L_CTRL.FORMAT (R183) -/
def CMP_L_CTRL_FORMAT (n : Nat) : Fld := ⟨0xc0140 + 0x40 * n, 1, 3⟩
/-- CMP_L_CTRL.FORCE_OPAQUE (R183) -/
def CMP_L_CTRL_FORCE_OPAQUE (n : Nat) : Fld := ⟨0xc0140 + 0x40 * n, 4, 1⟩
/-- CMP_L_CTRL.CULL (R183) -/
def CMP_L_CTRL_CULL (n : Nat) : Fld := ⟨0xc0140 + 0x40 * n, 5, 1⟩
/-- CMP_L_CTRL.WAIT (R183) -/
def CMP_L_CTRL_WAIT (n : Nat) : Fld := ⟨0xc0140 + 0x40 * n, 6, 1⟩
/-- CMP_L_ADDR_LO.ADDR_LO (R183) -/
def CMP_L_ADDR_LO_ADDR_LO (n : Nat) : Fld := ⟨0xc0144 + 0x40 * n, 6, 26⟩
/-- CMP_L_ADDR_HI.ADDR_HI (R183) -/
def CMP_L_ADDR_HI_ADDR_HI (n : Nat) : Fld := ⟨0xc0148 + 0x40 * n, 0, 4⟩
/-- CMP_L_STRIDE.STRIDE (R183) -/
def CMP_L_STRIDE_STRIDE (n : Nat) : Fld := ⟨0xc014c + 0x40 * n, 0, 18⟩
/-- CMP_L_SRC_SIZE.WIDTH (R183) -/
def CMP_L_SRC_SIZE_WIDTH (n : Nat) : Fld := ⟨0xc0150 + 0x40 * n, 0, 14⟩
/-- CMP_L_SRC_SIZE.HEIGHT (R183) -/
def CMP_L_SRC_SIZE_HEIGHT (n : Nat) : Fld := ⟨0xc0150 + 0x40 * n, 16, 14⟩
/-- CMP_L_DST_SIZE.WIDTH (R183) -/
def CMP_L_DST_SIZE_WIDTH (n : Nat) : Fld := ⟨0xc0154 + 0x40 * n, 0, 14⟩
/-- CMP_L_DST_SIZE.HEIGHT (R183) -/
def CMP_L_DST_SIZE_HEIGHT (n : Nat) : Fld := ⟨0xc0154 + 0x40 * n, 16, 14⟩
/-- CMP_L_POS.PX (R183) -/
def CMP_L_POS_PX (n : Nat) : Fld := ⟨0xc0158 + 0x40 * n, 0, 14⟩
/-- CMP_L_POS.PY (R183) -/
def CMP_L_POS_PY (n : Nat) : Fld := ⟨0xc0158 + 0x40 * n, 16, 14⟩
/-- CMP_L_DISP.PD (R189) -/
def CMP_L_DISP_PD (n : Nat) : Fld := ⟨0xc015c + 0x40 * n, 0, 13⟩
/-- CMP_L_READY_LO.ADDR_LO (R202) -/
def CMP_L_READY_LO_ADDR_LO (n : Nat) : Fld := ⟨0xc0160 + 0x40 * n, 2, 30⟩
/-- CMP_L_READY_HI.ADDR_HI (R202) -/
def CMP_L_READY_HI_ADDR_HI (n : Nat) : Fld := ⟨0xc0164 + 0x40 * n, 0, 4⟩
/-- CMP_L_READY_VAL.VALUE (R202) -/
def CMP_L_READY_VAL_VALUE (n : Nat) : Fld := ⟨0xc0168 + 0x40 * n, 0, 32⟩
/-- CMP_L_FETCH_NEED.BYTES (R196) -/
def CMP_L_FETCH_NEED_BYTES (n : Nat) : Fld := ⟨0xc016c + 0x40 * n, 0, 32⟩
/-- SCN_CTRL.RUN (R213) -/
def SCN_CTRL_RUN : Fld := ⟨0xd0000, 0, 1⟩
/-- SCN_CTRL.CNT_CLEAR (R213) -/
def SCN_CTRL_CNT_CLEAR : Fld := ⟨0xd0000, 31, 1⟩
/-- SCN_STATUS.LINE (R216) -/
def SCN_STATUS_LINE : Fld := ⟨0xd0004, 0, 12⟩
/-- SCN_STATUS.BLANK (R216) -/
def SCN_STATUS_BLANK : Fld := ⟨0xd0004, 12, 1⟩
/-- SCN_STATUS.TIME_OK (R216) -/
def SCN_STATUS_TIME_OK : Fld := ⟨0xd0004, 13, 1⟩
/-- SCN_STATUS.RETIMING (R216) -/
def SCN_STATUS_RETIMING : Fld := ⟨0xd0004, 14, 1⟩
/-- SCN_FRAME.FRAME (R28) -/
def SCN_FRAME_FRAME : Fld := ⟨0xd0008, 0, 32⟩
/-- SCN_EPOCH_NS.EPOCH_NS (R27) -/
def SCN_EPOCH_NS_EPOCH_NS : Fld := ⟨0xd0010, 0, 30⟩
/-- SCN_EPOCH_SEC_LO.SEC_LO (R27) -/
def SCN_EPOCH_SEC_LO_SEC_LO : Fld := ⟨0xd0014, 0, 32⟩
/-- SCN_EPOCH_SEC_HI.SEC_HI (R27) -/
def SCN_EPOCH_SEC_HI_SEC_HI : Fld := ⟨0xd0018, 0, 16⟩
/-- SCN_PERIOD_NUM.PN (R27) -/
def SCN_PERIOD_NUM_PN : Fld := ⟨0xd0020, 0, 32⟩
/-- SCN_PERIOD_DEN.PD (R27) -/
def SCN_PERIOD_DEN_PD : Fld := ⟨0xd0024, 0, 16⟩
/-- SCN_VBLANK.VB (R211) -/
def SCN_VBLANK_VB : Fld := ⟨0xd0028, 0, 10⟩
/-- SCN_BG_COLOR.R (R214) -/
def SCN_BG_COLOR_R : Fld := ⟨0xd002c, 20, 10⟩
/-- SCN_BG_COLOR.G (R214) -/
def SCN_BG_COLOR_G : Fld := ⟨0xd002c, 10, 10⟩
/-- SCN_BG_COLOR.B (R214) -/
def SCN_BG_COLOR_B : Fld := ⟨0xd002c, 0, 10⟩
/-- SCN_LINES.LT_SHADOW (R211) -/
def SCN_LINES_LT_SHADOW : Fld := ⟨0xd0030, 0, 12⟩
/-- SCN_LINES.LT_FORCE (R211) -/
def SCN_LINES_LT_FORCE : Fld := ⟨0xd0030, 16, 12⟩
/-- SCN_LINE_PS.PS (R212) -/
def SCN_LINE_PS_PS : Fld := ⟨0xd0034, 0, 32⟩
/-- SCN_LATCH_LINE.LINE (R218) -/
def SCN_LATCH_LINE_LINE : Fld := ⟨0xd0040, 0, 12⟩
/-- SCN_LATCH_FRAME.FRAME (R218) -/
def SCN_LATCH_FRAME_FRAME : Fld := ⟨0xd0044, 0, 32⟩
/-- SCN_LAST_COMMIT.LINE (R220) -/
def SCN_LAST_COMMIT_LINE : Fld := ⟨0xd0048, 0, 12⟩
/-- SCN_LAST_COMMIT.AFTER_GUARD (R220) -/
def SCN_LAST_COMMIT_AFTER_GUARD : Fld := ⟨0xd0048, 12, 1⟩
/-- SCN_LAST_COMMIT.LATE (R220) -/
def SCN_LAST_COMMIT_LATE : Fld := ⟨0xd0048, 31, 1⟩
/-- SCN_CNT.COUNT (R221) -/
def SCN_CNT_COUNT (n : Nat) : Fld := ⟨0xd0050 + 0x4 * n, 0, 32⟩
/-- SCN_FRZ_CTRL.EN (R225) -/
def SCN_FRZ_CTRL_EN : Fld := ⟨0xd0080, 0, 1⟩
/-- SCN_FRZ_CTRL.WHOLE (R225) -/
def SCN_FRZ_CTRL_WHOLE : Fld := ⟨0xd0080, 1, 1⟩
/-- SCN_FRZ_CTRL.U_SEL (R225) -/
def SCN_FRZ_CTRL_U_SEL : Fld := ⟨0xd0080, 8, 8⟩
/-- SCN_FRZ_CTRL.V_SEL (R225) -/
def SCN_FRZ_CTRL_V_SEL : Fld := ⟨0xd0080, 16, 5⟩
/-- SCN_FRZ_CTRL.N (R225) -/
def SCN_FRZ_CTRL_N : Fld := ⟨0xd0080, 24, 8⟩
/-- SCN_FRZ_ORIGIN.X (R225) -/
def SCN_FRZ_ORIGIN_X : Fld := ⟨0xd0084, 0, 13⟩
/-- SCN_FRZ_ORIGIN.Y (R225) -/
def SCN_FRZ_ORIGIN_Y : Fld := ⟨0xd0084, 16, 12⟩
/-- SCN_FRZ_SIZE.X (R225) -/
def SCN_FRZ_SIZE_X : Fld := ⟨0xd0088, 0, 13⟩
/-- SCN_FRZ_SIZE.Y (R225) -/
def SCN_FRZ_SIZE_Y : Fld := ⟨0xd0088, 16, 12⟩
/-- SCN_FRZ_SIG.SIG (R226) -/
def SCN_FRZ_SIG_SIG : Fld := ⟨0xd008c, 0, 32⟩
/-- SCN_FRZ_STATUS.FROZEN (R226) -/
def SCN_FRZ_STATUS_FROZEN : Fld := ⟨0xd0090, 0, 1⟩
/-- SCN_FRZ_STATUS.COUNT (R226) -/
def SCN_FRZ_STATUS_COUNT : Fld := ⟨0xd0090, 8, 8⟩
/-- SCN_CHK_MODE.EN (R229) -/
def SCN_CHK_MODE_EN : Fld := ⟨0xd00c0, 0, 8⟩
/-- SCN_CHK_MODE.ACTION (R229) -/
def SCN_CHK_MODE_ACTION : Fld := ⟨0xd00c0, 8, 1⟩
/-- SCN_CHK_STATUS.FAIL (R231) -/
def SCN_CHK_STATUS_FAIL : Fld := ⟨0xd00c4, 0, 8⟩
/-- SCN_CHK_STATUS.BLANKED (R231) -/
def SCN_CHK_STATUS_BLANKED : Fld := ⟨0xd00c4, 8, 1⟩
/-- SCN_CHK_VIEW.U_SEL (R230) -/
def SCN_CHK_VIEW_U_SEL (n : Nat) : Fld := ⟨0xd0100 + 0x20 * n, 0, 8⟩
/-- SCN_CHK_VIEW.V_SEL (R230) -/
def SCN_CHK_VIEW_V_SEL (n : Nat) : Fld := ⟨0xd0100 + 0x20 * n, 8, 5⟩
/-- SCN_CHK_VIEW.EXP_PLANE (R230) -/
def SCN_CHK_VIEW_EXP_PLANE (n : Nat) : Fld := ⟨0xd0100 + 0x20 * n, 16, 3⟩
/-- SCN_CHK_ORIGIN.X (R229) -/
def SCN_CHK_ORIGIN_X (n : Nat) : Fld := ⟨0xd0104 + 0x20 * n, 0, 13⟩
/-- SCN_CHK_ORIGIN.Y (R229) -/
def SCN_CHK_ORIGIN_Y (n : Nat) : Fld := ⟨0xd0104 + 0x20 * n, 16, 12⟩
/-- SCN_CHK_SIZE.X (R229) -/
def SCN_CHK_SIZE_X (n : Nat) : Fld := ⟨0xd0108 + 0x20 * n, 0, 13⟩
/-- SCN_CHK_SIZE.Y (R229) -/
def SCN_CHK_SIZE_Y (n : Nat) : Fld := ⟨0xd0108 + 0x20 * n, 16, 12⟩
/-- SCN_CHK_EXPECT.EXPECT (R229) -/
def SCN_CHK_EXPECT_EXPECT (n : Nat) : Fld := ⟨0xd010c + 0x20 * n, 0, 32⟩
/-- SCN_CHK_LAST.SIG (R229) -/
def SCN_CHK_LAST_SIG (n : Nat) : Fld := ⟨0xd0110 + 0x20 * n, 0, 32⟩
/-- PNL_CFG.TYPE (R257) -/
def PNL_CFG_TYPE : Fld := ⟨0xe0000, 0, 1⟩
/-- PNL_CFG.INV_MODE (R257) -/
def PNL_CFG_INV_MODE : Fld := ⟨0xe0000, 1, 2⟩
/-- PNL_CFG.DEPTH (R257) -/
def PNL_CFG_DEPTH : Fld := ⟨0xe0000, 4, 2⟩
/-- PNL_CFG.CNT_CLEAR (R257) -/
def PNL_CFG_CNT_CLEAR : Fld := ⟨0xe0000, 31, 1⟩
/-- PNL_STATUS.PORT_UP (R244) -/
def PNL_STATUS_PORT_UP : Fld := ⟨0xe0004, 0, 16⟩
/-- PNL_STATUS.RET_LOCK (R244) -/
def PNL_STATUS_RET_LOCK : Fld := ⟨0xe0004, 16, 4⟩
/-- PNL_STATUS.PHI (R244) -/
def PNL_STATUS_PHI : Fld := ⟨0xe0004, 20, 1⟩
/-- PNL_TRAIN_CFG.TRAIN_MS (R240) -/
def PNL_TRAIN_CFG_TRAIN_MS : Fld := ⟨0xe0008, 0, 8⟩
/-- PNL_RETRAIN.PORT (R240) -/
def PNL_RETRAIN_PORT : Fld := ⟨0xe000c, 0, 16⟩
/-- PNL_PORT_STATE.STATE (R240) -/
def PNL_PORT_STATE_STATE : Fld := ⟨0xe0010, 0, 32⟩
/-- PNL_CNT.COUNT (R243) -/
def PNL_CNT_COUNT (n : Nat) : Fld := ⟨0xe0020 + 0x4 * n, 0, 32⟩
/-- PNL_PREF.CODE (R249) -/
def PNL_PREF_CODE (n : Nat) : Fld := ⟨0xe0040 + 0x4 * n, 0, 14⟩
/-- PNL_DCB_CFG.EN (R247) -/
def PNL_DCB_CFG_EN : Fld := ⟨0xe0090, 0, 1⟩
/-- PNL_DCB_CFG.WIN (R247) -/
def PNL_DCB_CFG_WIN : Fld := ⟨0xe0090, 8, 8⟩
/-- PNL_DCB_CFG.LIMIT (R247) -/
def PNL_DCB_CFG_LIMIT : Fld := ⟨0xe0090, 16, 16⟩
/-- PNL_DCB_STATUS.PATTERN (R247) -/
def PNL_DCB_STATUS_PATTERN : Fld := ⟨0xe0094, 0, 1⟩
/-- PNL_DCB_STATUS.DRIFT (R247) -/
def PNL_DCB_STATUS_DRIFT : Fld := ⟨0xe0094, 1, 1⟩
/-- PNL_DCB_STATUS.REGION (R247) -/
def PNL_DCB_STATUS_REGION : Fld := ⟨0xe0094, 2, 6⟩
/-- PNL_CRK_CFG.ACTION (R251) -/
def PNL_CRK_CFG_ACTION : Fld := ⟨0xe00c0, 0, 1⟩
/-- PNL_CRK_CFG.PERIOD_MS (R251) -/
def PNL_CRK_CFG_PERIOD_MS : Fld := ⟨0xe00c0, 8, 8⟩
/-- PNL_CRK_THRESH.WARN (R251) -/
def PNL_CRK_THRESH_WARN : Fld := ⟨0xe00c4, 0, 16⟩
/-- PNL_CRK_THRESH.OPEN (R251) -/
def PNL_CRK_THRESH_OPEN : Fld := ⟨0xe00c4, 16, 16⟩
/-- PNL_CRK_STATUS.OHMS (R251) -/
def PNL_CRK_STATUS_OHMS : Fld := ⟨0xe00c8, 0, 16⟩
/-- PNL_CRK_STATUS.WARN (R251) -/
def PNL_CRK_STATUS_WARN : Fld := ⟨0xe00c8, 16, 1⟩
/-- PNL_CRK_STATUS.CRACK (R251) -/
def PNL_CRK_STATUS_CRACK : Fld := ⟨0xe00c8, 17, 1⟩
/-- PNL_CRK_STATUS.BLANKING (R251) -/
def PNL_CRK_STATUS_BLANKING : Fld := ⟨0xe00c8, 18, 1⟩
/-- PNL_BLINK_CTRL.EN (R254) -/
def PNL_BLINK_CTRL_EN : Fld := ⟨0xe0100, 0, 4⟩
/-- PNL_BLINK_CTRL.S0 (R254) -/
def PNL_BLINK_CTRL_S0 : Fld := ⟨0xe0100, 4, 1⟩
/-- PNL_BLINK_TIME.ON_MS (R254) -/
def PNL_BLINK_TIME_ON_MS : Fld := ⟨0xe0104, 0, 16⟩
/-- PNL_BLINK_TIME.OFF_MS (R254) -/
def PNL_BLINK_TIME_OFF_MS : Fld := ⟨0xe0104, 16, 16⟩
/-- PNL_BLINK_ORIGIN.X (R255) -/
def PNL_BLINK_ORIGIN_X (n : Nat) : Fld := ⟨0xe0110 + 0x10 * n, 0, 13⟩
/-- PNL_BLINK_ORIGIN.Y (R255) -/
def PNL_BLINK_ORIGIN_Y (n : Nat) : Fld := ⟨0xe0110 + 0x10 * n, 16, 12⟩
/-- PNL_BLINK_SIZE.X (R255) -/
def PNL_BLINK_SIZE_X (n : Nat) : Fld := ⟨0xe0114 + 0x10 * n, 0, 13⟩
/-- PNL_BLINK_SIZE.Y (R255) -/
def PNL_BLINK_SIZE_Y (n : Nat) : Fld := ⟨0xe0114 + 0x10 * n, 16, 12⟩
/-- PNL_BLINK_COLOR.R (R255) -/
def PNL_BLINK_COLOR_R (n : Nat) : Fld := ⟨0xe0118 + 0x10 * n, 20, 10⟩
/-- PNL_BLINK_COLOR.G (R255) -/
def PNL_BLINK_COLOR_G (n : Nat) : Fld := ⟨0xe0118 + 0x10 * n, 10, 10⟩
/-- PNL_BLINK_COLOR.B (R255) -/
def PNL_BLINK_COLOR_B (n : Nat) : Fld := ⟨0xe0118 + 0x10 * n, 0, 10⟩
/-- PNL_PMB_XFER.ADDR (R256) -/
def PNL_PMB_XFER_ADDR : Fld := ⟨0xe0180, 0, 7⟩
/-- PNL_PMB_XFER.RD (R256) -/
def PNL_PMB_XFER_RD : Fld := ⟨0xe0180, 7, 1⟩
/-- PNL_PMB_XFER.LEN (R256) -/
def PNL_PMB_XFER_LEN : Fld := ⟨0xe0180, 8, 2⟩
/-- PNL_PMB_XFER.FAST (R256) -/
def PNL_PMB_XFER_FAST : Fld := ⟨0xe0180, 10, 1⟩
/-- PNL_PMB_XFER.NACK (R256) -/
def PNL_PMB_XFER_NACK : Fld := ⟨0xe0180, 28, 1⟩
/-- PNL_PMB_XFER.DONE (R256) -/
def PNL_PMB_XFER_DONE : Fld := ⟨0xe0180, 29, 1⟩
/-- PNL_PMB_XFER.BUSY (R256) -/
def PNL_PMB_XFER_BUSY : Fld := ⟨0xe0180, 30, 1⟩
/-- PNL_PMB_XFER.GO (R256) -/
def PNL_PMB_XFER_GO : Fld := ⟨0xe0180, 31, 1⟩
/-- PNL_PMB_DATA.DATA (R256) -/
def PNL_PMB_DATA_DATA : Fld := ⟨0xe0184, 0, 32⟩
/-- LNK_CTRL.CNT_CLEAR (R280) -/
def LNK_CTRL_CNT_CLEAR : Fld := ⟨0xf0000, 31, 1⟩
/-- LNK_EYE_CFG.EYE_MIN (R279) -/
def LNK_EYE_CFG_EYE_MIN : Fld := ⟨0xf0004, 0, 10⟩
/-- LNK_EVT_LANES.LANES (R280) -/
def LNK_EVT_LANES_LANES (n : Nat) : Fld := ⟨0xf0010 + 0x4 * n, 0, 32⟩
/-- LNK_L_CTRL.PRBS_GEN (R266) -/
def LNK_L_CTRL_PRBS_GEN (n : Nat) : Fld := ⟨0xf1000 + 0x40 * n, 0, 1⟩
/-- LNK_L_CTRL.PRBS_CHK (R266) -/
def LNK_L_CTRL_PRBS_CHK (n : Nat) : Fld := ⟨0xf1000 + 0x40 * n, 1, 1⟩
/-- LNK_L_CTRL.ADAPT_HOLD (R266) -/
def LNK_L_CTRL_ADAPT_HOLD (n : Nat) : Fld := ⟨0xf1000 + 0x40 * n, 2, 1⟩
/-- LNK_L_STATUS.LOCK (R273) -/
def LNK_L_STATUS_LOCK (n : Nat) : Fld := ⟨0xf1004 + 0x40 * n, 0, 2⟩
/-- LNK_L_STATUS.ADAPT (R273) -/
def LNK_L_STATUS_ADAPT (n : Nat) : Fld := ⟨0xf1004 + 0x40 * n, 2, 2⟩
/-- LNK_L_STATUS.QUARTER (R273) -/
def LNK_L_STATUS_QUARTER (n : Nat) : Fld := ⟨0xf1004 + 0x40 * n, 4, 1⟩
/-- LNK_L_STATUS.PRECODE (R273) -/
def LNK_L_STATUS_PRECODE (n : Nat) : Fld := ⟨0xf1004 + 0x40 * n, 5, 1⟩
/-- LNK_L_STATUS.IDLE (R273) -/
def LNK_L_STATUS_IDLE (n : Nat) : Fld := ⟨0xf1004 + 0x40 * n, 6, 1⟩
/-- LNK_L_STATUS.PRBS_SYNC (R273) -/
def LNK_L_STATUS_PRBS_SYNC (n : Nat) : Fld := ⟨0xf1004 + 0x40 * n, 7, 1⟩
/-- LNK_L_FIR.PRE (R262) -/
def LNK_L_FIR_PRE (n : Nat) : Fld := ⟨0xf1008 + 0x40 * n, 0, 8⟩
/-- LNK_L_FIR.MAIN (R262) -/
def LNK_L_FIR_MAIN (n : Nat) : Fld := ⟨0xf1008 + 0x40 * n, 8, 8⟩
/-- LNK_L_FIR.POST (R262) -/
def LNK_L_FIR_POST (n : Nat) : Fld := ⟨0xf1008 + 0x40 * n, 16, 8⟩
/-- LNK_L_RXEQ.CTLE (R264) -/
def LNK_L_RXEQ_CTLE (n : Nat) : Fld := ⟨0xf100c + 0x40 * n, 0, 4⟩
/-- LNK_L_RXEQ.DFE1 (R264) -/
def LNK_L_RXEQ_DFE1 (n : Nat) : Fld := ⟨0xf100c + 0x40 * n, 8, 8⟩
/-- LNK_L_RXEQ.DFE2 (R264) -/
def LNK_L_RXEQ_DFE2 (n : Nat) : Fld := ⟨0xf100c + 0x40 * n, 16, 8⟩
/-- LNK_L_RXEQ.DFE3 (R264) -/
def LNK_L_RXEQ_DFE3 (n : Nat) : Fld := ⟨0xf100c + 0x40 * n, 24, 8⟩
/-- LNK_L_EYE.HEIGHT (R279) -/
def LNK_L_EYE_HEIGHT (n : Nat) : Fld := ⟨0xf1010 + 0x40 * n, 0, 10⟩
/-- LNK_L_EYE.WIDTH (R279) -/
def LNK_L_EYE_WIDTH (n : Nat) : Fld := ⟨0xf1010 + 0x40 * n, 16, 7⟩
/-- LNK_L_LAT.PS (R276) -/
def LNK_L_LAT_PS (n : Nat) : Fld := ⟨0xf1014 + 0x40 * n, 0, 20⟩
/-- LNK_L_CW_CORR.COUNT (R271) -/
def LNK_L_CW_CORR_COUNT (n : Nat) : Fld := ⟨0xf1020 + 0x40 * n, 0, 32⟩
/-- LNK_L_SYM_CORR.COUNT (R271) -/
def LNK_L_SYM_CORR_COUNT (n : Nat) : Fld := ⟨0xf1024 + 0x40 * n, 0, 32⟩
/-- LNK_L_CW_UNCORR.COUNT (R271) -/
def LNK_L_CW_UNCORR_COUNT (n : Nat) : Fld := ⟨0xf1028 + 0x40 * n, 0, 32⟩
/-- LNK_L_HDR_BAD.COUNT (R273) -/
def LNK_L_HDR_BAD_COUNT (n : Nat) : Fld := ⟨0xf102c + 0x40 * n, 0, 32⟩
/-- LNK_L_LOCK_LOSS.COUNT (R273) -/
def LNK_L_LOCK_LOSS_COUNT (n : Nat) : Fld := ⟨0xf1030 + 0x40 * n, 0, 32⟩
/-- LNK_L_PRBS_ERR.COUNT (R278) -/
def LNK_L_PRBS_ERR_COUNT (n : Nat) : Fld := ⟨0xf1034 + 0x40 * n, 0, 32⟩
/-- ENC_CTRL.CNT_CLEAR (R6) -/
def ENC_CTRL_CNT_CLEAR : Fld := ⟨0x100000, 31, 1⟩
/-- ENC_STATUS.OPEN (R281) -/
def ENC_STATUS_OPEN : Fld := ⟨0x100004, 0, 16⟩
/-- ENC_STATUS.CORE_BUSY (R281) -/
def ENC_STATUS_CORE_BUSY : Fld := ⟨0x100004, 16, 4⟩
/-- ENC_KEY_REQ.REQ (R301) -/
def ENC_KEY_REQ_REQ : Fld := ⟨0x100008, 0, 16⟩
/-- ENC_CNT.COUNT (R307) -/
def ENC_CNT_COUNT (n : Nat) : Fld := ⟨0x100040 + 0x4 * n, 0, 32⟩
/-- ENC_S_WPTR.OFFSET (R282) -/
def ENC_S_WPTR_OFFSET (n : Nat) : Fld := ⟨0x100100 + 0x10 * n, 0, 32⟩
/-- ENC_S_INFO.QP (R307) -/
def ENC_S_INFO_QP (n : Nat) : Fld := ⟨0x100104 + 0x10 * n, 0, 6⟩
/-- ENC_S_INFO.RING (R307) -/
def ENC_S_INFO_RING (n : Nat) : Fld := ⟨0x100104 + 0x10 * n, 8, 6⟩
/-- ENC_S_INFO.SINCE_KEY (R307) -/
def ENC_S_INFO_SINCE_KEY (n : Nat) : Fld := ⟨0x100104 + 0x10 * n, 16, 16⟩
/-- BLT_CTRL.CNT_CLEAR (R6) -/
def BLT_CTRL_CNT_CLEAR : Fld := ⟨0x110000, 31, 1⟩
/-- BLT_GAP.GAP (R319) -/
def BLT_GAP_GAP : Fld := ⟨0x110004, 0, 16⟩
/-- BLT_STATUS.WEST_BUSY (R311) -/
def BLT_STATUS_WEST_BUSY : Fld := ⟨0x110008, 0, 1⟩
/-- BLT_STATUS.EAST_BUSY (R311) -/
def BLT_STATUS_EAST_BUSY : Fld := ⟨0x110008, 1, 1⟩
/-- BLT_STATUS.WEST_WAIT (R311) -/
def BLT_STATUS_WEST_WAIT : Fld := ⟨0x110008, 2, 1⟩
/-- BLT_STATUS.EAST_WAIT (R311) -/
def BLT_STATUS_EAST_WAIT : Fld := ⟨0x110008, 3, 1⟩
/-- BLT_CNT.COUNT (R317) -/
def BLT_CNT_COUNT (n : Nat) : Fld := ⟨0x110040 + 0x4 * n, 0, 32⟩

end F

end Sys2Proof.Machine
end

