-- ==== Sys2Proof/Machine/ThmTypes.lean ====
section
/-!
DEFINITION. State of the thermal unit and of the calibration unit (chapter 17) that is not a register.
-/
namespace Sys2Proof.Machine

/-- One temperature sensor (R411 to R415). -/
structure Sensor where
  /-- Filtered value; none before the first reading. -/
  f : Option Int
  /-- Readings missed in a row, and good readings in a row while failed. -/
  missed : Nat
  good : Nat
  failed : Bool
  suspect : Bool
  /-- Consecutive deviating readings while in use, and consecutive close readings while suspect. -/
  dev : Nat
  near : Nat
  /-- Consecutive readings at or above SHUT (R419). -/
  hot : Nat
  /-- THM_SUSPECT has been raised for it under R414. -/
  told : Bool
  deriving DecidableEq, Repr

/-- The thermal unit. -/
structure ThmSt where
  sensors : List Sensor
  /-- A sensor has been marked suspect at the latest reading (R413: one at a time). -/
  marked : Bool
  /-- Sensor 32 has read below 85 C in thermal shutdown (R422). -/
  cool : Bool
  deriving DecidableEq, Repr

/-- The calibration unit. -/
structure CalSt where
  /-- SOURCE the staged set will have (R426). -/
  source : Nat
  /-- Group means at the start of the run in progress: W, E, H, M (R423). -/
  means : List Int
  /-- A failed run holds temperature moves back (R423). -/
  holdoff : Bool
  /-- The held request comes from CAL_RUN, which the holdoff does not keep back. -/
  byHost : Bool
  deriving DecidableEq, Repr

def Sensor.reset : Sensor :=
  { f := none, missed := 0, good := 0, failed := false, suspect := false, dev := 0, near := 0, hot := 0, told := false }

def ThmSt.reset : ThmSt := { sensors := List.replicate 48 Sensor.reset, marked := false, cool := false }

def CalSt.reset : CalSt := { source := 3, means := [0, 0, 0, 0], holdoff := false, byHost := false }

end Sys2Proof.Machine
end

