-- ==== Sys2Proof/Machine/TimTypes.lean ====
section
/-!
DEFINITION. State of the time unit (chapter 14) that is not a register: the raw counter, rope time's terms, the display clock,
the servo's history, the timed outputs and the transmit timestamp queue.
-/
namespace Sys2Proof.Machine

/-- The settings an armed timed output runs under (R376, R377: later writes of START, PERIOD, WIDTH and COUNT wait for the next
ARM; the mode is the register's). -/
structure TevArmed where
  /-- START as an instant (ONE_SHOT, PERIODIC) and as the signed offset OFF (FRAME), in quarter nanoseconds. -/
  start : Int
  frameOff : Int
  /-- PERIOD in quarter nanoseconds. -/
  period : Nat
  width : Nat
  /-- Pulses in all; 0 without end. -/
  count : Nat
  /-- Index m of the next edge that has not fired (R376, R378), or the next frame number in FRAME mode. -/
  next : Nat
  /-- Edges before this instant (quarter nanoseconds of the display clock) are passed over (R377). -/
  notBefore : Int
  /-- Edges fired or skipped so far (R378: every skipped edge counts). -/
  done : Nat
  deriving DecidableEq, Repr

/-- One timed output TEVn. -/
structure Tev where
  armed : Option TevArmed
  /-- End of the pulse in progress, in ps of the display clock (R379). -/
  pulse : Option Int
  /-- The pulse in progress is the output's last, so its end disarms and sets DONE (R379). -/
  last : Bool
  deriving DecidableEq, Repr

/-- One entry of the transmit timestamp queue (R381). -/
structure TsqEntry where
  ident : Nat
  /-- 0 UP, 1 DN. -/
  port : Nat
  /-- 0 PRESENT, 1 ALARM, 2 MAIL. -/
  kind : Nat
  /-- Departure time in quarter nanoseconds. -/
  qns : Int
  key : Nat
  deriving DecidableEq, Repr

/-- A TDREQ that waits for its TDRESP (R369, R370). -/
structure TdOut where
  seq : Nat
  /-- Departure from the ball in the follower's RT, in ps. -/
  t1 : Int
  /-- Lane 0 or 1 of the pitch it left on. -/
  lane : Nat
  deriving DecidableEq, Repr

/-- The time unit. -/
structure TimSt where
  /-- Raw counter: 64 bits, ns (R360). -/
  raw : Nat
  /-- OFFSET of R362, ns, signed 64 bits. -/
  offset : Int
  /-- BASE of R362: the raw value at the last change of RATE. -/
  base : Nat
  /-- Display clock (R366): 48-bit seconds, nanoseconds, 32-bit fraction. -/
  dcSec : Nat
  dcNs : Nat
  dcFrac : Nat
  /-- INC_NOM and INC, 32.32 ns (R366, R367). -/
  incNom : Nat
  inc : Nat
  /-- Consecutive TSYNC within 2 ns, and above 20 ns (R372). -/
  goodRun : Nat
  badRun : Nat
  /-- One-way delays of the last 16 exchanges, newest first, in ps (R370). -/
  delays : List Int
  /-- Next SEQ of a TDREQ, and the one outstanding (R369). -/
  tdSeq : Nat
  tdOut : Option TdOut
  /-- EPOCH_HI of the latest TDRESP and the raw value at its last change (R371). -/
  epochHi : Option (Nat × Nat)
  /-- PPS: raw value of the previous edge, whatever the role; the second of the previous edge taken in the PPS role; the pair of
  TIM_PPS_SEC as written since that edge (R364). -/
  ppsPrev : Option Nat
  ppsS : Option Int
  ppsSec : Option Int
  /-- TIM_OFFSET_LO as the host wrote it, until TIM_OFFSET_HI applies the pair (R362, R459). -/
  offLo : Option Nat
  /-- TIM_REF_LOST has been raised and TREF_IN is not valid again (R361). -/
  refLost : Bool
  /-- Timestamp queue, oldest first, and the identifier counter (R381, R382). -/
  tsq : List TsqEntry
  tsId : Nat
  /-- TEV0 to TEV7. -/
  tev : List Tev
  /-- End of the FSTROBE pulse in progress, in ps of the display clock (R380). -/
  fstrobe : Option Int
  /-- Levels of TEV0 to TEV7 and of FSTROBE (index 8) at their balls (R379). -/
  levels : List Bool
  deriving DecidableEq, Repr

/-- An output that was never armed. -/
def Tev.idle : Tev := { armed := none, pulse := none, last := false }

/-- The time unit as it powers up (R360, R464): raw counter 0, no history. The display clock's start value is a DESIGN CHOICE:
no rule gives one. -/
def TimSt.reset : TimSt :=
  { raw := 0, offset := 0, base := 0, dcSec := 0, dcNs := 0, dcFrac := 0, incNom := 2 ^ 32, inc := 2 ^ 32,
    goodRun := 0, badRun := 0, delays := [], tdSeq := 0, tdOut := none, epochHi := none,
    ppsPrev := none, ppsS := none, ppsSec := none, offLo := none, refLost := false, tsq := [], tsId := 0,
    tev := List.replicate 8 Tev.idle, fstrobe := none, levels := List.replicate 9 false }

end Sys2Proof.Machine
end

