-- ==== Sys2Proof/Machine/State.lean ====
section
/-!
DEFINITION. The state of the JK960 block, the ways a step can stop, and the state after reset.
-/
namespace Sys2Proof.Machine

/-- A machine stop. -/
inductive Fault where
  /-- A CXL.mem access outside the host range of HDM decoder 0, or beyond the 58 GiB it maps (R40): the access cannot reach device
  memory, so the spec gives it no effect. Raised by CXL_MEM_READ and CXL_MEM_WRITE; safe. -/
  | hdmUnmapped
  deriving DecidableEq, Repr

/-- No meaning for a command. -/
inductive Refusal where
  /-- The command has no meaning yet (Dispatch only); safe. -/
  | notModelled (mnemonic : String)
  deriving DecidableEq, Repr

/-- What leaves the device, in the order it leaves. -/
inductive Out where
  /-- Bytes written to host memory, with the poisoned indication of PCIe or without (R332). -/
  | hostWrite (addr : Nat) (bytes : List Byte) (poison : Bool)
  /-- An MSI-X message of a vector (R388). -/
  | msix (vec : Nat)
  /-- A CXL.mem read's answer, a byte and its poison mark each (R42). -/
  | cxlData (bytes : List MByte)
  /-- A CXL.mem write's completion (R42). -/
  | cxlDone
  /-- An access answered as an Unsupported Request (R4). -/
  | unsupported
  /-- A register read's answer. -/
  | regData (val : Word)
  /-- A doorbell line is read in the Shared state (R57). -/
  | lineRead (addr : Nat)
  /-- A descriptor is read: the address of its 64-byte slot (R46, R47). -/
  | descRead (addr : Nat)
  /-- A message leaves a rope port on one lane of the pitch (chapter 13). -/
  | rope (port : Port) (lane : Nat) (msg : List Byte)
  /-- A block leaves on a panel lane (0 to 95): its type byte first (Tables 8-2, 8-6). -/
  | panelBlock (lane : Nat) (bytes : List Byte)
  /-- The payload words of one panel lane for an active line (R237). -/
  | panelWords (lane : Nat) (words : List Nat)
  /-- A panel management bus transfer starts: address, read, data bytes written or to be read (R256). -/
  | pmbStart (addr : Nat) (read : Bool) (n : Nat) (data : Nat)
  /-- A pulse edge of TEVn (R376) or of FSTROBE (n = 8): the level, and its instant at the ball in ps of the display clock. -/
  | edge (n : Nat) (level : Bool) (ps : Int)
  /-- Reference output n moves to a voltage, in units of 1/16,384 mV (R249, R250). -/
  | pref (n : Nat) (level : Nat)
  deriving DecidableEq, Repr

/-- The block's state. -/
structure State where
  /-- Commands waiting, first in, first out. -/
  pending : List Instr
  /-- All that has left the device, newest first. -/
  out : List Out
  /-- The model's own counter from which free values are drawn. -/
  freeCtr : Nat
  /-- JK960-AF, rather than JK960-LQ (R2). -/
  airCooled : Bool
  /-- BAR0 registers by offset, sparse; an unlisted register holds its reset value (R468). -/
  regs : List (Nat × Word)
  /-- The settings in force of registers with SH fields, sparse, by offset (R6, R199). -/
  live : List (Nat × Word)
  tim : TimSt
  evt : EvtSt
  hif : HifSt
  mem : MemSt
  pwr : PwrSt
  nvs : NvsSt
  syn : SynSt
  cmp : CmpSt
  scn : ScnSt
  pnl : PnlSt
  dec : DecSt
  thm : ThmSt
  blt : BltSt
  enc : EncSt
  cal : CalSt
  /-- The 104 serial lanes by lane index (R259). -/
  lanes : List Lane
  rope : RopeSt
  deriving DecidableEq, Repr

/-- The machine before power is applied: every register at its reset value (R468), nothing listed in memory. -/
def State.reset : State :=
  { pending := [], out := [], freeCtr := 0, airCooled := false, regs := [], live := [],
    tim := TimSt.reset, evt := EvtSt.reset, hif := HifSt.reset, mem := MemSt.reset, pwr := PwrSt.reset, nvs := NvsSt.reset,
    syn := SynSt.reset, cmp := CmpSt.reset, scn := ScnSt.reset, pnl := PnlSt.reset, dec := DecSt.reset, thm := ThmSt.reset, blt := BltSt.reset, enc := EncSt.reset,
    cal := CalSt.reset,
    lanes := List.replicate 104 Lane.reset, rope := RopeSt.reset }

end Sys2Proof.Machine
end

