-- ==== Sys2Proof/Machine/Ops.lean ====
section
/-!
DEFINITION. The named operations every block shares: reading and writing register fields, counters, what leaves the device,
free values, rope time and the frame number.
-/
namespace Sys2Proof.Machine

/-- The stored word of the register at `off`. -/
def State.word (s : State) (off : Nat) : Word := cellGet resetWord s.regs off

/-- Store a whole word in the register at `off`. -/
def State.setWord (s : State) (off : Nat) (w : Word) : State :=
  { s with regs := cellSet resetWord s.regs off w }

/-- The value of a register field. -/
def State.rd (s : State) (f : Fld) : Nat := bits (s.word f.off).toNat f.lo f.len

/-- Set a register field. -/
def State.wr (s : State) (f : Fld) (v : Nat) : State :=
  s.setWord f.off (BitVec.ofNat 32 (setBits (s.word f.off).toNat f.lo f.len v))

/-- Whether a one-bit field is set. -/
def State.rdB (s : State) (f : Fld) : Bool := s.rd f == 1

/-- Set a one-bit field. -/
def State.wrB (s : State) (f : Fld) (b : Bool) : State := s.wr f (b2n b)

/-- Add `n` to a counter register, saturating at the field's largest value (every counter of the part saturates). -/
def State.bump (s : State) (f : Fld) (n : Nat := 1) : State := s.wr f (satAdd f.len (s.rd f) n)

/-- The word in force of a register with SH fields (R6). -/
def State.liveWord (s : State) (off : Nat) : Word := cellGet resetWord s.live off

/-- The value in force of an SH field. -/
def State.lv (s : State) (f : Fld) : Nat := bits (s.liveWord f.off).toNat f.lo f.len

/-- Put a whole word of SH fields in force. -/
def State.setLive (s : State) (off : Nat) (w : Word) : State :=
  { s with live := cellSet resetWord s.live off w }

/-- Send something out of the device. -/
def State.emit (s : State) (o : Out) : State := { s with out := o :: s.out }

/-- Draw a free value: the counter to apply an opaque constant to, and the state with the counter advanced. -/
def State.draw (s : State) : Nat × State := (s.freeCtr, { s with freeCtr := s.freeCtr + 1 })

/-- Advance the free counter by `n` draws. -/
def State.drawn (s : State) (n : Nat) : State := { s with freeCtr := s.freeCtr + n }

/-- The module is powered and its time unit runs: S0, S1 or S2 (R360, Table 16-3). -/
def State.awake (s : State) : Bool := s.pwr.st == .s0 || s.pwr.st == .s1 || s.pwr.st == .s2

/-- Boot has completed (R451). -/
def State.ready (s : State) : Bool := s.rdB F.HIF_STATUS_READY

/-- BAR0 accepts writes: awake, after READY (R455), and no function reset in progress (R68). -/
def State.bar0Open (s : State) : Bool := s.awake && s.ready && !s.rdB F.HIF_STATUS_RESET_BUSY

/-- RATE of R362, in units of 2^-40. -/
def State.rate (s : State) : Int := sext 32 (s.rd F.TIM_RATE_RATE)

/-- The accumulated rate term of RT at raw value `raw` (R362). -/
def State.rateTerm (s : State) (raw : Nat) : Int := ((raw : Int) - s.tim.base) * s.rate / (2 ^ 40 : Nat)

/-- RT at a raw value, in ns (R362). -/
def State.rtAt (s : State) (raw : Nat) : Int := (raw : Int) + s.tim.offset + s.rateTerm raw

/-- RT now, in ns. -/
def State.rtNs (s : State) : Int := s.rtAt s.tim.raw

/-- The display clock in ns, its fraction dropped (R366). DEDUCED: like the rope time it follows (R362) it is signed, its 48 bits
of seconds in two's complement, so that a negative rope time lies before t0 (R213; log entry 1420). -/
def State.dcNs (s : State) : Int := sext 48 s.tim.dcSec * 1000000000 + s.tim.dcNs

/-- The display clock in units of 2^-32 ns. -/
def State.dcFine (s : State) : Int := s.dcNs * 2 ^ 32 + s.tim.dcFrac

/-- Rope time as other chapters read it, from the display clock (R366), or 0 while rope time is not valid (Tables 15-7,
18-8); 64 bits. -/
def State.ropeStamp (s : State) : Nat := if s.rdB F.TIM_STATUS_VALID then twos 64 s.dcNs else 0

/-- SCN_FRAME now (R28). -/
def State.frameNo (s : State) : Nat := s.rd F.SCN_FRAME_FRAME

/-- A byte of the logbook. -/
def State.logByte (s : State) (a : Nat) : Byte := cellGet (fun _ => 0) s.nvs.log a

/-- `n` little-endian logbook bytes as a number. -/
def State.logNat (s : State) (a : Nat) : Nat → Nat
  | 0 => 0
  | n + 1 => (s.logByte a).toNat + 256 * s.logNat (a + 1) n

/-- Write whole logbook groups: the bytes go in and the groups they cover are sound (R446, R447). -/
def NvsSt.putLog (n : NvsSt) (a : Nat) (bs : List Byte) : NvsSt :=
  { n with
    log := cellPut (fun _ => 0) n.log a bs
    badGroups := n.badGroups.filter fun g => !(decide (a ≤ 8 * g) && decide (8 * g + 8 ≤ a + bs.length)) }

/-- The 64 bytes of an error-log record (R450). The source detail beyond the fields the rule names is left open; MEM_UNCORR
(source 321) carries MEM_ERR_ADDR, the others carry free bytes. -/
def errLogBytes (s : State) (seq src rt frame ctr : Nat) : List Byte :=
  leBytes seq 4 ++ leBytes src 2 ++ leBytes 0 2 ++ leBytes rt 8 ++ leBytes frame 4 ++
    (if src = 321 then
      leBytes (s.word 0x90020).toNat 4 ++ leBytes (s.word 0x90024).toNat 4 ++
        (List.range 36).map fun i => Config.freeByte (ctr + i)
     else (List.range 44).map fun i => Config.freeByte (ctr + i))

/-- Write one error-log record into slot SEQ mod 448 of 0x1000 (Table 18-6, R450). -/
def State.errLogWrite (s : State) (src rt frame : Nat) : State :=
  { s with
    nvs := { s.nvs.putLog (0x1000 + 64 * (s.nvs.errSeq % 448)) (errLogBytes s s.nvs.errSeq src rt frame s.freeCtr) with
             errSeq := (s.nvs.errSeq + 1) % 2 ^ 32 }
    freeCtr := s.freeCtr + 44 }

/-- An occurrence of a source with ALERT set: an error-log record, at most 10 in any second (R450), held while the recall
runs (R445). -/
def State.errLog (s : State) (src : Nat) : State :=
  let recent := s.nvs.logTimes.filter fun t => decide (s.tim.raw < t + 1000000000)
  if s.rd ⟨0x21000 + 4 * src, 7, 1⟩ = 0 ∨ 10 ≤ recent.length then s
  else
    let s := { s with nvs := { s.nvs with logTimes := s.tim.raw :: recent } }
    if s.rdB F.NVS_STATUS_RECALL_BUSY then
      { s with nvs := { s.nvs with logQ := s.nvs.logQ ++ [⟨src, s.ropeStamp, s.frameNo⟩] } }
    else s.errLogWrite src s.ropeStamp s.frameNo

end Sys2Proof.Machine
end

