-- ==== Sys2Proof/Machine/Flags.lean ====
section
/-!
DEFINITION. Event status bits, coalescing and delivery (chapter 15): the one way any block raises an event.
-/
namespace Sys2Proof.Machine

/-- How many sources each group of Table 15-1 has in use. -/
def evtGroupSize : List Nat := [6, 12, 8, 6, 6, 12, 7, 7, 7, 2, 6, 10, 13, 10, 13, 3]

/-- Whether a source number is assigned (R383). -/
def evtInUse (src : Nat) : Bool := decide (src % 32 < evtGroupSize.getD (src / 32) 0)

/-- The status bit of a source (R385). -/
def evtStatusFld (src : Nat) : Fld := ⟨0x20000 + 4 * (src / 32), src % 32, 1⟩

/-- The enable bit of a source (R386). -/
def evtEnableFld (src : Nat) : Fld := ⟨0x20040 + 4 * (src / 32), src % 32, 1⟩

/-! Source numbers by name (R384: Tables 15-1 to 15-6 and the event table of each chapter). The lane sources are those of
group 6; a lane of 48 or above adds 32. -/
namespace Ev

/-- Group 0, source 0. -/
def HIF_RING_FAULT : Nat := 0
/-- Group 0, source 1. -/
def HIF_INTERNAL : Nat := 1
/-- Group 0, source 2. -/
def HIF_ABORT_DONE : Nat := 2
/-- Group 0, source 3. -/
def HIF_FEATURES_REFUSED : Nat := 3
/-- Group 0, source 4. -/
def HIF_LINK_DEGRADED : Nat := 4
/-- Group 0, source 5. -/
def HIF_CXL_RAS : Nat := 5
/-- Group 1, source 0. -/
def DEC_DAMAGED : Nat := 32
/-- Group 1, source 1. -/
def DEC_SEQ_MISMATCH : Nat := 33
/-- Group 1, source 2. -/
def DEC_CONCEAL : Nat := 34
/-- Group 1, source 3. -/
def DEC_REF_SUBST : Nat := 35
/-- Group 1, source 4. -/
def DEC_ROWS_UNREADY : Nat := 36
/-- Group 1, source 5. -/
def DEC_LATE_REDO : Nat := 37
/-- Group 1, source 6. -/
def DEC_LATE_IGNORED : Nat := 38
/-- Group 1, source 7. -/
def DEC_SQUASH : Nat := 39
/-- Group 1, source 8. -/
def DEC_REPAIR_PUBLISHED : Nat := 40
/-- Group 1, source 9. -/
def DEC_WATCHDOG : Nat := 41
/-- Group 1, source 10. -/
def DEC_BOUNDS : Nat := 42
/-- Group 1, source 11. -/
def DEC_POOL_SHORT : Nat := 43
/-- Group 2, source 0. -/
def SYN_ANCHOR_EXCESS : Nat := 64
/-- Group 2, source 1. -/
def SYN_DISP_CLIPPED : Nat := 65
/-- Group 2, source 2. -/
def SYN_FIFO_LEVEL2 : Nat := 66
/-- Group 2, source 3. -/
def SYN_FIFO_LEVEL3 : Nat := 67
/-- Group 2, source 4. -/
def SYN_UNDERRUN : Nat := 68
/-- Group 2, source 5. -/
def SYN_FRAME_OVERRUN : Nat := 69
/-- Group 2, source 6. -/
def SYN_POISON : Nat := 70
/-- Group 2, source 7. -/
def SYN_THROTTLE : Nat := 71
/-- Group 3, source 0. -/
def CMP_COMMIT_REJECTED : Nat := 96
/-- Group 3, source 1. -/
def CMP_COMMIT_SUPERSEDED : Nat := 97
/-- Group 3, source 2. -/
def CMP_LAYER_NOT_READY : Nat := 98
/-- Group 3, source 3. -/
def CMP_RETIRE_LOST : Nat := 99
/-- Group 3, source 4. -/
def CMP_WINDOW : Nat := 100
/-- Group 3, source 5. -/
def CMP_POISON : Nat := 101
/-- Group 4, source 0. -/
def SCN_COMMIT_LATE : Nat := 128
/-- Group 4, source 1. -/
def SCN_PRESENT_LATE : Nat := 129
/-- Group 4, source 2. -/
def SCN_RETIMED : Nat := 130
/-- Group 4, source 3. -/
def SCN_FREEZE : Nat := 131
/-- Group 4, source 4. -/
def SCN_CHK_FAIL : Nat := 132
/-- Group 4, source 5. -/
def SCN_CHK_BLANK : Nat := 133
/-- Group 5, source 0. -/
def PNL_PORT_UP : Nat := 160
/-- Group 5, source 1. -/
def PNL_PORT_RETRAIN : Nat := 161
/-- Group 5, source 2. -/
def PNL_TRAIN_FAIL : Nat := 162
/-- Group 5, source 3. -/
def PNL_RET_LOST : Nat := 163
/-- Group 5, source 4. -/
def PNL_RX_UNCORR : Nat := 164
/-- Group 5, source 5. -/
def PNL_DCB_PATTERN : Nat := 165
/-- Group 5, source 6. -/
def PNL_DCB_DRIFT : Nat := 166
/-- Group 5, source 7. -/
def PNL_PREF_LIMIT : Nat := 167
/-- Group 5, source 8. -/
def PNL_CRK_WARN : Nat := 168
/-- Group 5, source 9. -/
def PNL_CRACK : Nat := 169
/-- Group 5, source 10. -/
def PNL_CRK_BLANK : Nat := 170
/-- Group 5, source 11. -/
def PNL_PMB_DONE : Nat := 171
/-- Group 6, source 0. -/
def LNK_LOCK_LOST : Nat := 192
/-- Group 6, source 1. -/
def LNK_ALIGN_LOST : Nat := 193
/-- Group 6, source 2. -/
def LNK_UNCORR : Nat := 194
/-- Group 6, source 3. -/
def LNK_PRBS_ERR : Nat := 195
/-- Group 6, source 4. -/
def LNK_EYE_LOW : Nat := 196
/-- Group 6, source 5. -/
def LNK_FAR_UNLOCK : Nat := 197
/-- Group 6, source 6. -/
def LNK_TX_FAULT : Nat := 198
/-- Group 8, source 0. -/
def ENC_TAIL : Nat := 256
/-- Group 8, source 1. -/
def ENC_OVERSHOOT : Nat := 257
/-- Group 8, source 2. -/
def ENC_KEY : Nat := 258
/-- Group 8, source 3. -/
def ENC_LOOP_FULL : Nat := 259
/-- Group 8, source 4. -/
def ENC_QP_LIMIT : Nat := 260
/-- Group 8, source 5. -/
def ENC_SRC_POISON : Nat := 261
/-- Group 8, source 6. -/
def ENC_FAILED : Nat := 262
/-- Group 9, source 0. -/
def BLT_FAILED : Nat := 288
/-- Group 9, source 1. -/
def BLT_POISON : Nat := 289
/-- Group 10, source 0. -/
def MEM_CORR_THRESH : Nat := 320
/-- Group 10, source 1. -/
def MEM_UNCORR : Nat := 321
/-- Group 10, source 2. -/
def MEM_PARTIAL_POISON : Nat := 322
/-- Group 10, source 3. -/
def MEM_SCRUB_PASS : Nat := 323
/-- Group 10, source 4. -/
def MEM_WINDOW : Nat := 324
/-- Group 10, source 5. -/
def MEM_INIT_DONE : Nat := 325
/-- Group 11, source 0. -/
def TIM_REF_LOST : Nat := 352
/-- Group 11, source 1. -/
def TIM_REF_RESTORED : Nat := 353
/-- Group 11, source 2. -/
def TIM_PPS_LOST : Nat := 354
/-- Group 11, source 3. -/
def TIM_LOCK : Nat := 355
/-- Group 11, source 4. -/
def TIM_UNLOCK : Nat := 356
/-- Group 11, source 5. -/
def TIM_STEP : Nat := 357
/-- Group 11, source 6. -/
def TIM_TEV_MISSED : Nat := 358
/-- Group 11, source 7. -/
def TIM_TEV_LATE : Nat := 359
/-- Group 11, source 8. -/
def TIM_TEV_DONE : Nat := 360
/-- Group 11, source 9. -/
def TIM_TSQ_OVF : Nat := 361
/-- Group 12, source 0. -/
def ROPE_PITCH_UP : Nat := 384
/-- Group 12, source 1. -/
def ROPE_PITCH_DOWN : Nat := 385
/-- Group 12, source 2. -/
def ROPE_LEFT : Nat := 386
/-- Group 12, source 3. -/
def ROPE_VERSION_FAIL : Nat := 387
/-- Group 12, source 4. -/
def ROPE_LANE_DEGRADED : Nat := 388
/-- Group 12, source 5. -/
def ROPE_ENUM_DONE : Nat := 389
/-- Group 12, source 6. -/
def ROPE_MEMBERSHIP : Nat := 390
/-- Group 12, source 7. -/
def ROPE_NO_HEAD : Nat := 391
/-- Group 12, source 8. -/
def ROPE_OVERLENGTH : Nat := 392
/-- Group 12, source 9. -/
def ROPE_ALARM_RX : Nat := 393
/-- Group 12, source 10. -/
def ROPE_MAIL_RX : Nat := 394
/-- Group 12, source 11. -/
def ROPE_MAIL_DROP : Nat := 395
/-- Group 12, source 12. -/
def ROPE_MSG_DROP : Nat := 396
/-- Group 13, source 0. -/
def THM_THROTTLE : Nat := 416
/-- Group 13, source 1. -/
def THM_CRITICAL : Nat := 417
/-- Group 13, source 2. -/
def THM_CRITICAL_CLEAR : Nat := 418
/-- Group 13, source 3. -/
def THM_SUSPECT : Nat := 419
/-- Group 13, source 4. -/
def THM_SUSPECT_CLEAR : Nat := 420
/-- Group 13, source 5. -/
def THM_SENSOR_FAIL : Nat := 421
/-- Group 13, source 6. -/
def CAL_DONE : Nat := 422
/-- Group 13, source 7. -/
def CAL_APPLIED : Nat := 423
/-- Group 13, source 8. -/
def CAL_FAIL : Nat := 424
/-- Group 13, source 9. -/
def CAL_REF_BAD : Nat := 425
/-- Group 14, source 0. -/
def PWR_PFAIL_WARN : Nat := 448
/-- Group 14, source 1. -/
def PWR_PFAIL_CLEAR : Nat := 449
/-- Group 14, source 2. -/
def PWR_STATE : Nat := 450
/-- Group 14, source 3. -/
def PWR_INPUT_RANGE : Nat := 451
/-- Group 14, source 4. -/
def PWR_RAIL_FAULT : Nat := 452
/-- Group 14, source 5. -/
def NVS_RECALL_DONE : Nat := 453
/-- Group 14, source 6. -/
def NVS_SETTINGS_CONFLICT : Nat := 454
/-- Group 14, source 7. -/
def NVS_SETTINGS_INVALID : Nat := 455
/-- Group 14, source 8. -/
def NVS_BOOT_FALLBACK : Nat := 456
/-- Group 14, source 9. -/
def NVS_LOG_CORR : Nat := 457
/-- Group 14, source 10. -/
def NVS_LOG_UNCORR : Nat := 458
/-- Group 14, source 11. -/
def NVS_FLASH_ERR : Nat := 459
/-- Group 14, source 12. -/
def NVS_CAIRN_FOUND : Nat := 460
/-- Group 15, source 0. -/
def GLB_MGMT_RESTART : Nat := 480
/-- Group 15, source 1. -/
def GLB_EVT_RING_OVF : Nat := 481
/-- Group 15, source 2. -/
def GLB_FW_NOTICE : Nat := 482

end Ev

/-- A word of the MSI-X table (R469). -/
def State.msixWord (s : State) (i : Nat) : Word := cellGet msixReset s.hif.msix i

/-- Insert a number into an ascending list without repeats. -/
def insertAsc (x : Nat) : List Nat → List Nat
  | [] => [x]
  | y :: l => if x = y then y :: l else if x < y then x :: y :: l else y :: insertAsc x l

/-- Signal an MSI-X vector: send its message, or set its pending bit while it is masked (R388). -/
def State.signal (s : State) (v : Nat) : State :=
  { s with
    out := if bitAt (s.msixWord (4 * v + 3)).toNat 0 then s.out else .msix v :: s.out
    hif := if bitAt (s.msixWord (4 * v + 3)).toNat 0 then { s.hif with msixPend := insertAsc v s.hif.msixPend } else s.hif }

/-- Events are delivered in S0 to S2 (R396). -/
def State.delivers (s : State) : Bool := s.awake

/-- Bytes of an event-ring record (Table 15-7). -/
def evtRecord (src phase : Nat) (lost : Bool) (count frame rt : Nat) : List Byte :=
  leBytes src 2 ++ leBytes (phase + 2 * b2n lost) 1 ++ leBytes (min count 255) 1 ++ leBytes frame 4 ++ leBytes rt 8

/-- Records the host has not consumed (R392). A CI ahead of PI counts as the unsigned distance, so the ring reads as full (log entry
222). -/
def State.evtUnconsumed (s : State) : Nat :=
  (s.rd F.EVT_RING_PI_INDEX + 2 ^ 32 - s.rd F.EVT_RING_CI_INDEX) % 2 ^ 32

/-- Write one event-ring record and signal the ring's vector after it (R388, R391, R394). -/
def State.evtWrite (s : State) (src count frame rt : Nat) : State :=
  let n := s.rd F.EVT_RING_STATUS_LOG2_SIZE
  let pi := s.rd F.EVT_RING_PI_INDEX
  let s := s.emit (.hostWrite (s.evt.ringBase + 16 * (pi % 2 ^ n))
    (evtRecord src (if pi / 2 ^ n % 2 = 0 then 1 else 0) s.evt.lost count frame rt) false)
  let s := s.wr F.EVT_RING_PI_INDEX (pi + 1)
  let s := { s with evt := { s.evt with lost := false } }
  s.signal s.evt.ringVec

/-- The timer entry of a source. -/
def State.evtSrc (s : State) (src : Nat) : Option EvtSrc := s.evt.srcs.find? fun e => e.src == src

/-- Replace the timer entry of a source. -/
def State.setEvtSrc (s : State) (e : EvtSrc) : State :=
  { s with evt := { s.evt with srcs := e :: s.evt.srcs.filter fun x => x.src != e.src } }

/-- Drop the timer entry of a source. -/
def State.dropEvtSrc (s : State) (src : Nat) : State :=
  { s with evt := { s.evt with srcs := s.evt.srcs.filter fun x => x.src != src } }

/-- Start the source's timer when its COAL_US is not 0 (R387). -/
def State.evtStart (s : State) (src : Nat) : State :=
  if s.rd (F.EVT_ROUTE_COAL_US src) = 0 then s else s.setEvtSrc ⟨src, true, 0, 0, 0⟩

/-- An occurrence now. -/
def State.evtNow (s : State) (src : Nat) : HeldEvt := ⟨src, s.frameNo, s.ropeStamp⟩

/-- Hold one more occurrence; the record will carry FRAME and RT of the first (Table 15-7). -/
def State.evtHold (s : State) (h : HeldEvt) (running : Bool) : State :=
  match s.evtSrc h.src with
  | some e =>
    if e.count = 0 then s.setEvtSrc { e with count := 1, frame := h.frame, rt := h.rt }
    else s.setEvtSrc { e with count := e.count + 1 }
  | none => s.setEvtSrc ⟨h.src, running, 1, h.frame, h.rt⟩

/-- Set the status bit of an occurrence (R385) and write its error-log record (R450). -/
def State.evtStatus (s : State) (src : Nat) : State := (s.wr (evtStatusFld src) 1).errLog src

/-- Whether an occurrence of a source is to be delivered: its enable is 1, and no function reset runs (R386, R395). -/
def State.evtLive (s : State) (src : Nat) : Bool := s.rdB (evtEnableFld src) && !s.rdB F.HIF_STATUS_RESET_BUSY

/-- What an enabled occurrence does under R387 and R396, given how one delivery is made. With COAL_US 0 it is delivered at once,
whatever timer an earlier setting left running. -/
def State.evtOccur (s : State) (h : HeldEvt) (deliver : State → State) : State :=
  if !s.evtLive h.src then s
  else if !s.delivers then s.evtHold h false
  else if (s.evtSrc h.src).any EvtSrc.running && s.rd (F.EVT_ROUTE_COAL_US h.src) != 0 then s.evtHold h true
  else (deliver s).evtStart h.src

/-- A delivery through the source's own vector (R388). -/
def State.deliverVector (s : State) (src : Nat) : State := s.signal (s.rd (F.EVT_ROUTE_VECTOR src))

/-- GLB_EVT_RING_OVF, source 481, which is never delivered through the ring (R392). -/
def State.raiseOvf (s : State) : State := (s.evtStatus 481).evtOccur (s.evtNow 481) fun s => s.deliverVector 481

/-- One delivery of a source (R388, R392). -/
def State.deliver (s : State) (src count frame rt : Nat) : State :=
  if s.rdB (F.EVT_ROUTE_RING src) && s.rdB F.EVT_RING_STATUS_ACTIVE && src != 481 then
    if s.evtUnconsumed < 2 ^ s.rd F.EVT_RING_STATUS_LOG2_SIZE then s.evtWrite src count frame rt
    else
      let s := (s.bump F.EVT_CNT_LOST_COUNT).wrB F.EVT_RING_STATUS_OVF true
      let s := { s with evt := { s.evt with lost := true } }
      s.raiseOvf
  else s.deliverVector src

/-- The delivery half of an occurrence, made now. -/
def State.occurNow (s : State) (h : HeldEvt) : State := s.evtOccur h fun s => s.deliver h.src 1 h.frame h.rt

/-- The delivery half of an occurrence whose status bit is already set and whose enable was 1; within a decision point it waits
(R393). -/
def State.occurHeld (s : State) (h : HeldEvt) : State :=
  match s.evt.wait with
  | some l => { s with evt := { s.evt with wait := some (l ++ [h]) } }
  | none => s.occurNow h

/-- The delivery half of an occurrence whose status bit is already set; with its enable at 0 it is never delivered (R386). -/
def State.occur (s : State) (src : Nat) : State := if s.evtLive src then s.occurHeld (s.evtNow src) else s

/-- A decision point begins: deliveries wait (R393). -/
def State.holdEvents (s : State) : State := { s with evt := { s.evt with wait := some [] } }

/-- The records of step 5 are written: the deliveries that waited are made, in order (R393). -/
def State.releaseEvents (s : State) : State :=
  ((s.evt.wait).getD []).foldl (fun s h => s.occurNow h) { s with evt := { s.evt with wait := none } }

/-- Raise a source once (R385 to R388). An unassigned number does nothing (R383); no event exists without power. -/
def State.raise (s : State) (src : Nat) : State :=
  if evtInUse src && (s.awake || s.pwr.st == .s3) then (s.evtStatus src).occur src else s

/-- Raise several sources in order. -/
def State.raiseAll (s : State) : List Nat → State
  | [] => s
  | e :: es => (s.raise e).raiseAll es

/-- ALERT_N is driven low while any source with ALERT set has its status bit set (R389), and after a boot that stopped (R456); it is
released where event state is lost (R396). -/
def State.alertLow (s : State) : Bool :=
  (s.awake || s.pwr.st == .s3) &&
    ((List.range 512).any (fun i => s.rdB (evtStatusFld i) && s.rdB (F.EVT_ROUTE_ALERT i)) || s.rd F.GLB_BOOT_STATUS_FAIL_STEP != 0)

end Sys2Proof.Machine
end

