-- ==== Sys2Proof/Machine/Ring.lean ====
section
/-!
DEFINITION. Rings, descriptors and completion records (chapter 2): the operations every opcode shares.
-/
namespace Sys2Proof.Machine

/-! Status codes of Table 2-9. -/
namespace Cpl
def SUCCESS : Nat := 0x0000
def ABORTED : Nat := 0x0001
def SKIPPED : Nat := 0x0002
def SUPERSEDED : Nat := 0x0003
def BAD_OPCODE : Nat := 0x0004
def BAD_FIELD : Nat := 0x0005
def BAD_ADDRESS : Nat := 0x0006
def BAD_RING : Nat := 0x0007
def NVS_BUSY : Nat := 0x0008
def WRONG_STATE : Nat := 0x0009
def STREAM_DAMAGED : Nat := 0x0010
def STREAM_UNSUPPORTED : Nat := 0x0011
def MEDIA_ERROR : Nat := 0x0020
def INTERNAL : Nat := 0x00FF
end Cpl

/-! CFLAGS bits of Table 2-6 other than PHASE. -/
namespace CFlag
def CONCEALED : Nat := 2
def COMMIT_LATE : Nat := 4
def POISON : Nat := 8
def LATE : Nat := 16
end CFlag

/-! Ring classes of Table 2-3. -/
namespace Cls
def ADMIN : Nat := 0
def STREAM : Nat := 1
def PRESENT : Nat := 2
def LAYER : Nat := 3
def ENC : Nat := 4
def BLT : Nat := 5
def MGMT : Nat := 6
end Cls

/-- How many rings a class may have (Table 2-3). -/
def classLimit (c : Nat) : Nat := [1, 1, 1, 1, 16, 32, 4].getD c 0

/-- The index width of the negotiated version (Table 2-4). -/
def State.idxW (s : State) : Nat := if s.rd F.HIF_STATUS_RING_VER = 3 then 32 else 16

/-- The largest LOG2_SIZE of a ring protocol version (Table 2-4). -/
def log2Max (ver : Nat) : Nat := if ver = 3 then 16 else if ver = 2 then 14 else 12

/-- Whether a feature is in force (R62, R63). -/
def State.feat (s : State) (f : Nat) : Bool := bitAt s.hif.feats f

/-- The ring with a number. -/
def State.ring? (s : State) (n : Nat) : Option Ring := s.hif.rings.find? fun r => r.num == n

/-- Replace a ring. -/
def State.setRing (s : State) (r : Ring) : State :=
  { s with hif := { s.hif with rings := s.hif.rings.map fun x => if x.num = r.num then r else x } }

/-- Opcode, FLAGS and TAG of a descriptor (Table 2-5). -/
def Desc.op (d : Desc) : Nat := byteAt d.bytes 0
def Desc.flags (d : Desc) : Nat := byteAt d.bytes 1
def Desc.tag (d : Desc) : Nat := leAt d.bytes 4 4
def Desc.event (d : Desc) : Bool := bitAt d.flags 0
def Desc.fence (d : Desc) : Bool := bitAt d.flags 1

/-- An address names host memory (R43: bit 63 is 0). -/
def isHost (a : Nat) : Bool := a < 2 ^ 63

/-- An address has the device form with its zero bits zero (R43). -/
def isDevice (a : Nat) : Bool := decide (2 ^ 63 ≤ a) && decide (a - 2 ^ 63 < 2 ^ 36)

/-- Either form of a data address is well formed (R43). -/
def addrForm (a : Nat) : Bool := isHost a || isDevice a

/-- Whether byte `i` of a descriptor is 0. -/
def Desc.zeroAt (d : Desc) (i : Nat) : Bool := byteAt d.bytes i == 0

/-- The reserved bytes from 8 to 63, all but those the (first, count) ranges in `used` cover, are 0 (R52). -/
def Desc.restZero (d : Desc) (used : List (Nat × Nat)) : Bool :=
  (upFrom 8 56).all fun i => used.any (fun u => decide (u.1 ≤ i) && decide (i < u.1 + u.2)) || d.zeroAt i

/-- The header's reserved fields are 0, and FENCE too in version 1 (Tables 2-4, 2-5). -/
def State.headerOk (s : State) (d : Desc) : Bool :=
  decide (d.flags < 4) && d.zeroAt 2 && d.zeroAt 3 && !(s.rd F.HIF_STATUS_RING_VER == 1 && d.fence)

/-- Which opcodes Table 2-7 names, with their class; `none` for NOP, which any class takes. -/
def opClass (op : Nat) : Option (Option Nat) :=
  if op = 0x05 then some none
  else if op = 0x01 ∨ op = 0x02 ∨ op = 0x03 ∨ op = 0x04 ∨ op = 0x06 then some (some Cls.ADMIN)
  else if op = 0x10 ∨ op = 0x11 ∨ op = 0x12 then some (some Cls.STREAM)
  else if op = 0x20 then some (some Cls.PRESENT)
  else if op = 0x30 ∨ op = 0x31 then some (some Cls.LAYER)
  else if op = 0x40 ∨ op = 0x41 ∨ op = 0x42 ∨ op = 0x43 then some (some Cls.ENC)
  else if op = 0x50 then some (some Cls.BLT)
  else if 0x60 ≤ op ∧ op ≤ 0x65 then some (some Cls.MGMT)
  else none

/-- The feature an opcode needs beyond its ring's class (Table 2-12). -/
def opFeature (op : Nat) : Option Nat :=
  if op = 0x06 then some 6
  else if op = 0x12 then some 12
  else if op = 0x61 ∨ op = 0x62 then some 10
  else if op = 0x63 ∨ op = 0x64 ∨ op = 0x65 then some 11
  else if 0x40 ≤ op ∧ op ≤ 0x4F then some 8
  else if op = 0x50 then some 9
  else none

/-- What recovery serves: the ADMIN ring, and FLASH_READ, FLASH_WRITE and LOG_READ (R435). -/
def State.servedInRecovery (s : State) (cls op : Nat) : Bool :=
  !s.rdB F.NVS_STATUS_RECOVERY || cls == Cls.ADMIN || (cls == Cls.MGMT && (op == 0x61 || op == 0x63 || op == 0x64))

/-- Whether a ring's class, the features and the boot allow an opcode (R52, R63, R435). -/
def State.opAllowed (s : State) (cls op : Nat) : Bool :=
  (match opClass op with
   | some none => true
   | some (some c) => c == cls
   | none => false) &&
  (match opFeature op with
   | some f => s.feat f
   | none => true) && s.servedInRecovery cls op

/-- The classes whose descriptors run one at a time (R48). -/
def oneAtATime (cls : Nat) : Bool := cls == Cls.ADMIN || cls == Cls.PRESENT || cls == Cls.LAYER

/-- The next descriptor of a ring to start, when R48's order, its FENCE flag and the one-at-a-time rule let it start. -/
def Ring.startable (r : Ring) : Option Desc :=
  match r.descs.find? fun d => d.phase == .waiting with
  | none => none
  | some d =>
    if oneAtATime r.cls && r.descs.any (fun x => x.phase == .running) then none
    else if d.fence && !(r.recs.isEmpty && (r.descs.head?.map Desc.idx) == some d.idx) then none
    else some d

/-- Change one descriptor of a ring. -/
def Ring.modDesc (r : Ring) (idx : Nat) (f : Desc → Desc) : Ring :=
  { r with descs := r.descs.map fun d => if d.idx = idx then f d else d }

/-- Change one descriptor of one ring. -/
def State.modDesc (s : State) (ring idx : Nat) (f : Desc → Desc) : State :=
  { s with hif := { s.hif with rings := s.hif.rings.map fun r => if r.num = ring then r.modDesc idx f else r } }

/-- The occurrences among `evs` that are to be delivered, as they happen now (R386). -/
def State.heldNow (s : State) (evs : List Nat) : List HeldEvt := (evs.filter fun e => s.evtLive e).map fun e => s.evtNow e

/-- Give a descriptor its outcome. Its events set their status bits now; they are delivered after the record (R393). -/
def State.complete (s : State) (ring idx status info : Nat) (cflags : Nat := 0) (evs : List Nat := []) : State :=
  evs.foldl (fun s e => s.evtStatus e)
    (s.modDesc ring idx fun d =>
      { d with phase := .done, status := status, info := info, cflags := cflags, evs := s.heldNow evs })

/-- The descriptor starts. -/
def State.run (s : State) (ring idx : Nat) : State := s.modDesc ring idx fun d => { d with phase := .running }

/-- The descriptor stays outstanding without holding back the next one. -/
def State.park (s : State) (ring idx : Nat) : State := s.modDesc ring idx fun d => { d with phase := .parked }

/-- The code of the first failing check, in the order of R55. -/
def firstBad : List (Bool × Nat) → Option Nat
  | [] => none
  | (ok, code) :: l => if ok then firstBad l else some code

/-- Some doorbell line has still to be read in S0, before engines accept work (R60). -/
def State.linesStale (s : State) : Bool := s.pwr.st == .s0 && s.hif.rings.any fun r => r.stale

/-- Rings of a class are served: the module is awake, no function reset is in progress, the management core runs where the class is
its own, and an engine's rings wait until every doorbell line is read (R60, R68, R463, Table 16-3). -/
def State.serves (s : State) (cls : Nat) : Bool :=
  s.awake && !s.rdB F.HIF_STATUS_RESET_BUSY &&
    (if cls = Cls.ADMIN ∨ cls = Cls.MGMT then !s.hif.mgmtDown else !s.linesStale)

/-- The descriptor that an opcode row runs: the next startable one of the ring, when it carries that opcode. -/
def State.nextOp (s : State) (ring op : Nat) : Option (Ring × Desc) :=
  match s.ring? ring with
  | none => none
  | some r =>
    match r.startable with
    | none => none
    | some d => if d.op = op ∧ s.serves r.cls = true then some (r, d) else none

/-- Run one opcode: BAD_OPCODE, then the header's reserved fields, then the opcode's own checks in the order of R55; a
descriptor that passes them all starts and `go` gives its effect. -/
def State.withOp (s : State) (ring op : Nat) (checks : Ring → Desc → List (Bool × Nat))
    (go : Ring → Desc → State → State) : State :=
  match s.nextOp ring op with
  | none => s
  | some (r, d) =>
    match firstBad ((s.opAllowed r.cls op, Cpl.BAD_OPCODE) :: (s.headerOk d, Cpl.BAD_FIELD) :: checks r d) with
    | some code => s.complete ring d.idx code 0
    | none => go r d (s.run ring d.idx)

/-- The distance rule of R51 for a new PI. -/
def piLegal (w size pi ci : Nat) : Bool :=
  let δ := serialDelta w pi ci
  decide (0 ≤ δ) && decide (δ ≤ (size : Int))

/-- Act on the PI and CQ_CI the device finds (R46, R51, R57): CQ_CI is taken, a legal PI is accepted, an illegal one puts the
ring in the fault state and raises HIF_RING_FAULT. -/
def State.acceptPi (s : State) (ring pi ci : Nat) : State :=
  match s.ring? ring with
  | none => s
  | some r =>
    let pi := pi % 2 ^ s.idxW
    let r := { r with cqCi := ci % 2 ^ s.idxW }
    if r.fault then s.setRing r
    else if piLegal s.idxW (2 ^ r.log2) pi r.ci then s.setRing { r with pi := pi }
    else (s.setRing { r with fault := true }).raise Ev.HIF_RING_FAULT

/-- The device's doorbell of a ring: the MMIO registers where the ring has no line (R58), else the given line contents. -/
def State.doorbell (s : State) (r : Ring) (pi ci : Nat) : Nat × Nat :=
  if r.dbLine = 0 then (s.rd (F.HIF_DB_SQ_INDEX r.num), s.rd (F.HIF_DB_CQ_INDEX r.num)) else (pi, ci)

/-- Whether doorbells of a class are acted on in the present power state (Table 2-11); `rec` includes merely recording PI. -/
def State.doorbellActs (s : State) (cls : Nat) (record : Bool) : Bool :=
  s.pwr.st == .s0 || (s.pwr.st == .s1 && (record || cls == Cls.ADMIN || cls == Cls.MGMT)) ||
    (s.pwr.st == .s2 && (cls == Cls.ADMIN || cls == Cls.MGMT))

/-- The host link carries traffic: it is up, the module is awake and no power-fail warning holds it in L1 (Table 16-2). -/
def State.hostLink (s : State) : Bool :=
  s.hif.linkUp && s.awake && !s.pwr.ownWarn && !s.pwr.pinWarn && !s.rdB F.HIF_STATUS_RESET_BUSY

/-- The slot's PHASE bit at a free-running index (R49). -/
def phaseBit (i size : Nat) : Nat := if i / size % 2 = 0 then 1 else 0

/-- The 16 bytes of a completion record (Table 2-6); versions 1 and 2 leave bytes 14 and 15 zero. -/
def cplBytes (r : Ring) (c : CplRec) (w : Nat) : List Byte :=
  leBytes c.tag 4 ++ leBytes c.status 2 ++ leBytes (phaseBit r.cqPi (2 ^ r.log2) + c.cflags) 1 ++ leBytes r.num 1 ++
    leBytes c.info 4 ++ leBytes (c.sqHead % 2 ^ w) 4

/-- The signal rule of R59 for one completion with EVENT set. -/
def State.cplSignal (s : State) (ring : Nat) : State :=
  match s.ring? ring with
  | none => s
  | some r =>
    if r.coalUs = 0 ∨ ring = 0 then s.signal r.vector
    else if max 1 r.coalCount ≤ r.unsig + 1 then (s.setRing { r with unsig := 0, timer := false }).signal r.vector
    else s.setRing { r with unsig := r.unsig + 1, timer := true }

/-- Remove a ring that DELETE_RING has emptied, with the encoder session it holds, and complete the descriptor (R49, R281).
Descriptors that the host makes visible behind the abort point are still fetched and run, and removal waits for their records too
(log entry 224). -/
def State.finishDeletes (s : State) : State :=
  (s.hif.aborts.filter fun a => a.delete && a.targets.isEmpty).foldl (fun s a =>
    match s.ring? a.ring with
    | none => s
    | some r =>
      if r.descs.isEmpty && r.recs.isEmpty && r.fetch == r.abortTo then
        let s : State := { s with
          hif := { s.hif with
            rings := s.hif.rings.filter fun x => x.num != a.ring
            aborts := s.hif.aborts.filter fun x => x != a }
          enc := { s.enc with sess := s.enc.sess.filter fun x => x.ring != a.ring } }
        match a.admin with
        | some idx => s.complete 0 idx Cpl.SUCCESS a.count
        | none => s
      else s) s

/-- CONCEALED of a record: a STREAM_PUSH or LOOP_PLAY completes with it when the decoder has concealed or substituted since the
last record of the STREAM ring (R142). -/
def State.cplConcealed (s : State) (r : Ring) (c : CplRec) : CplRec :=
  if s.dec.concealed && r.cls == Cls.STREAM && (c.op == 0x10 || c.op == 0x12) then { c with cflags := c.cflags ||| CFlag.CONCEALED }
  else c

/-- Writing a record of the STREAM ring starts the next interval of R142. -/
def State.cplInterval (s : State) (r : Ring) : State :=
  { s with dec := { s.dec with concealed := s.dec.concealed && r.cls != Cls.STREAM } }

/-- Write the next completion record of a ring while it has room (R49, R50): the record, then its vector (R59), then the
events that report its outcome (R393). A consumer index ahead of the device's own reads as a full ring (log entry 222). -/
def State.writeRecord (s : State) (ring : Nat) : State :=
  match s.ring? ring with
  | none => s
  | some r =>
    match r.recs with
    | [] => s
    | c :: cs =>
      if (r.cqPi + 2 ^ s.idxW - r.cqCi) % 2 ^ s.idxW < 2 ^ r.log2 ∧ s.hostLink = true then
        let w := s.idxW
        let s := s.emit (.hostWrite (r.cqBase + 16 * (r.cqPi % 2 ^ r.log2)) (cplBytes r (s.cplConcealed r c) w) false)
        let s := (s.cplInterval r).setRing { r with recs := cs, cqPi := (r.cqPi + 1) % 2 ^ w, ci := c.sqHead % 2 ^ w }
        let s := if c.event then s.cplSignal ring else s
        let s := c.evs.foldl (fun s h => s.occurHeld h) s
        s.finishDeletes
      else s

/-- A SET_POWER that entered S1 or S2 from S0 retires after the records of the descriptors it aborted (R406), and one to S0 once
engines accept work (Table 2-7, R60). -/
def State.retireHeld (s : State) (d : Desc) : Bool :=
  d.op == 0x04 && d.status == Cpl.SUCCESS &&
    (if byteAt d.bytes 8 = 0 then s.linesStale
     else s.hif.rings.any fun r =>
      (r.cls == Cls.STREAM || r.cls == Cls.ENC || r.cls == Cls.BLT) &&
        (r.recs.any (fun c => c.status == Cpl.ABORTED) || r.descs.any fun x => x.phase == .done && x.status == Cpl.ABORTED))

/-- Pass the oldest descriptor's retire point (R48): when its outcome is known it leaves the outstanding list and its record
waits to be written. -/
def State.retireHead (s : State) (ring : Nat) : State :=
  match s.ring? ring with
  | none => s
  | some r =>
    match r.descs with
    | [] => s
    | d :: ds =>
      if d.phase = .done ∧ s.retireHeld d = false then
        s.setRing { r with
          descs := ds
          recs := r.recs ++ [⟨d.op, d.tag, d.status, d.cflags, d.info, d.idx + 1, d.event, d.evs⟩] }
      else s

/-- Retire every descriptor of a ring that can retire and write every record that has room. -/
def State.pumpRing (s : State) (ring : Nat) : State :=
  match s.ring? ring with
  | none => s
  | some r =>
    let s := (List.range r.descs.length).foldl (fun s _ => s.retireHead ring) s
    (List.range (r.descs.length + r.recs.length)).foldl (fun s _ => s.writeRecord ring) s

/-- All descriptors of a ring that are outstanding with an opcode and a phase. -/
def State.descsOf (s : State) (ring : Nat) : List Desc :=
  match s.ring? ring with
  | none => []
  | some r => r.descs

/-- The ring of a class with one ring (STREAM, PRESENT, LAYER). -/
def State.classRing (s : State) (cls : Nat) : Option Nat :=
  (s.hif.rings.find? fun r => r.cls == cls).map Ring.num

end Sys2Proof.Machine
end

