-- ==== Sys2Proof/Machine/Evt.lean ====
section
/-!
DEFINITION. The event unit's commands (chapter 15): enables, test raises, coalescing expiry, the event ring and the MSI-X
table.
-/
namespace Sys2Proof.Machine

/-- One delivery made outside an occurrence, with its own count, which starts the source's timer (R386, R387). -/
def State.deliverNow (s : State) (src count frame rt : Nat) : State :=
  ((s.dropEvtSrc src).deliver src count frame rt).evtStart src

/-- A descriptor and a record without the occurrences of a source that wait for the record. -/
def Desc.dropEvt (d : Desc) (src : Nat) : Desc := { d with evs := d.evs.filter fun h => h.src != src }
def CplRec.dropEvt (c : CplRec) (src : Nat) : CplRec := { c with evs := c.evs.filter fun h => h.src != src }

/-- The occurrences of a source that wait for completion records are discarded (R387). -/
def State.dropHeldEvt (s : State) (src : Nat) : State :=
  { s with hif := { s.hif with rings := s.hif.rings.map fun r =>
      { r with descs := r.descs.map fun d => d.dropEvt src, recs := r.recs.map fun c => c.dropEvt src } } }

/-- One bit of an EVT_ENABLE write (R386, R387): a clear discards held occurrences and the timer; a set with the status bit at 1
makes one delivery with COUNT 0. -/
def State.evtEnableBit (s : State) (src : Nat) (old new : Bool) : State :=
  if old && !new then (s.dropEvtSrc src).dropHeldEvt src
  else if !old && new && s.rdB (evtStatusFld src) && evtInUse src && s.delivers then
    s.deliverNow src 0 s.frameNo s.ropeStamp
  else s

/-- EVT_ENABLEg takes a value (R386). -/
def State.writeEvtEnable (s : State) (g : Nat) (val : Word) : State :=
  let old := s.word (0x20040 + 4 * g)
  (List.range 32).foldl (fun s i => s.evtEnableBit (32 * g + i) (bitAt old.toNat i) (bitAt val.toNat i))
    (s.setWord (0x20040 + 4 * g) val)

/-- EVT_ENABLE: an enable going from 0 to 1 with its status set makes one delivery (R386). -/
def execEvtEnable (g : Nat) (val : Word) (s : State) : Host.Outcome State Fault Refusal :=
  .next (if s.bar0Open && decide (g < 16) then s.writeEvtEnable g val else s)

/-- EVT_TEST with GO raises source SOURCE once (R390). -/
def execEvtTest (src : Nat) (s : State) : Host.Outcome State Fault Refusal :=
  .next (if s.bar0Open then (s.wr F.EVT_TEST_SOURCE src).raise (src % 512) else s)

/-- A source's timer expires: held occurrences make one delivery and the timer starts again, or it stops (R387). Nothing is
delivered outside S0 to S2 (R396). -/
def State.coalesceExpire (s : State) (src : Nat) : State :=
  match s.evtSrc src with
  | none => s
  | some e =>
    if !e.running then s
    else if e.count = 0 then s.dropEvtSrc src
    else if s.delivers then s.deliverNow src e.count e.frame e.rt
    else s.setEvtSrc { e with running := false }

/-- EVENT_COALESCE_EXPIRY (R387). -/
def execEventCoalesceExpiry (src : Nat) (s : State) : Host.Outcome State Fault Refusal := .next (s.coalesceExpire src)

/-- On return to S0 each source with undelivered occurrences makes one delivery (R396). -/
def State.deliverHeld (s : State) : State :=
  (s.evt.srcs.filter fun e => decide (0 < e.count)).foldl
    (fun s e => s.deliverNow e.src e.count e.frame e.rt) s

/-- The event ring takes effect: counts restart at slot 0; BASE 0 deactivates (R391). -/
def State.setEvtRing (s : State) (base log2 vec : Nat) : State :=
  let s := { s with evt := { s.evt with ringBase := base, ringVec := vec } }
  let s := s.wrB F.EVT_RING_STATUS_ACTIVE (base != 0)
  let s := if base = 0 then s else s.wr F.EVT_RING_STATUS_LOG2_SIZE log2
  ((s.wr F.EVT_RING_PI_INDEX 0).wr F.EVT_RING_CI_INDEX 0).wr F.EVT_CNT_LOST_COUNT 0

/-- EVT_RING (R391, Table 2-8). -/
def State.opEvtRing (s : State) (ring : Nat) : State :=
  s.withOp ring 0x06
    (fun _ d => [(d.restZero [(8, 10)] && isHost (leAt d.bytes 8 8) && leAt d.bytes 8 8 % 4096 == 0 &&
      decide (6 ≤ byteAt d.bytes 16) && decide (byteAt d.bytes 16 ≤ 16) && decide (byteAt d.bytes 17 ≤ 63), Cpl.BAD_FIELD)])
    (fun r d s => (s.setEvtRing (leAt d.bytes 8 8) (byteAt d.bytes 16) (byteAt d.bytes 17)).complete r.num d.idx Cpl.SUCCESS 0)

def execEvtRing (ring : Nat) (s : State) : Host.Outcome State Fault Refusal := .next (s.opEvtRing ring)

/-- A word of the MSI-X table is written; unmasking a pending vector sends its message (R388, R469). Other offsets of BAR2
ignore writes. -/
def State.writeMsix (s : State) (off : Nat) (val : Word) : State :=
  if off < 0x400 ∧ off % 4 = 0 then
    let s := { s with hif := { s.hif with msix := cellSet msixReset s.hif.msix (off / 4) val } }
    let v := off / 16
    if off / 4 % 4 = 3 ∧ bitAt val.toNat 0 = false ∧ s.hif.msixPend.contains v then
      { s.emit (.msix v) with hif := { s.hif with msixPend := s.hif.msixPend.filter (· != v) } }
    else s
  else s

/-- MSIX_TABLE_WRITE (R388). -/
def execMsixTableWrite (off : Nat) (val : Word) (s : State) : Host.Outcome State Fault Refusal :=
  .next (if s.awake then s.writeMsix off val else s)

/-- Firmware posts a notice (Table 15-6). -/
def execGlbFwNotice (s : State) : Host.Outcome State Fault Refusal :=
  .next (if s.awake && s.ready then s.raise Ev.GLB_FW_NOTICE else s)

end Sys2Proof.Machine
end

