-- ==== Sys2Proof/Machine/Hif.lean ====
section
/-!
DEFINITION. Host attachment: link, feature negotiation, ring 0, doorbells, descriptor fetch and completion, ring creation, and
the shadow writes of the LAYER ring (chapter 2).
-/
namespace Sys2Proof.Machine

/-- An access that is not a naturally aligned 32-bit one: an Unsupported Request, no register changes (R4). An aligned 32-bit
access is no such event. -/
def execBar0UnsupportedAccess (off size : Nat) (_write : Bool) (s : State) : Host.Outcome State Fault Refusal :=
  .next (if size = 4 ∧ off % 4 = 0 then s else s.emit .unsupported)

/-- The link trains. Recovery and a stopped boot leave PCIe only (R435, R456); below x8 or 32 GT/s HIF_LINK_DEGRADED is
raised (Table 15-2). -/
def State.linkTrain (s : State) (cxl : Bool) (width gts : Nat) : State :=
  let mode := cxl && !s.rdB F.NVS_STATUS_RECOVERY && s.rd F.GLB_BOOT_STATUS_FAIL_STEP == 0
  let s := { s with hif := { s.hif with linkUp := true, width := width, rate := gts } }
  let s := s.wrB F.HIF_STATUS_CXL_MODE mode
  if width < 8 ∨ gts < 32 then s.raise Ev.HIF_LINK_DEGRADED else s

/-- LINK_UP (R38). -/
def execLinkUp (cxl : Bool) (width gts : Nat) (s : State) : Host.Outcome State Fault Refusal :=
  .next (if s.awake && !s.pwr.perst then s.linkTrain cxl width gts else s)

/-- HIF_CXL_RAS (Table 15-2): the RAS Capability logs an error. -/
def execHifCxlRas (s : State) : Host.Outcome State Fault Refusal :=
  .next (if s.awake && s.hif.linkUp && s.rdB F.HIF_STATUS_CXL_MODE then s.raise Ev.HIF_CXL_RAS else s)

/-- Configuration-space identity (Table 2-1): vendor, device, class code, the sizes of BAR0 and BAR2, and the MSI-X vectors. -/
structure Identity where
  vendor : Nat
  device : Nat
  classCode : Nat
  bar0 : Nat
  bar2 : Nat
  vectors : Nat
  deriving DecidableEq, Repr
def identity : Identity := ⟨0x1F3C, 0x0960, 0x048000, 16 * 2 ^ 20, 64 * 2 ^ 10, 64⟩

/-- The DVSEC identifiers of Table 2-2 and whether each is implemented: CXL Devices, Non-CXL Function Map, GPF, Flex Bus Port,
Register Locator, MLD (R39). -/
def dvsecs : List (Nat × Bool) := [(0, true), (2, false), (5, false), (7, true), (8, true), (9, false)]

/-- Range 1 of the DVSEC for CXL Devices: 58 GiB (Table 2-2). -/
def range1Size : Nat := 58 * 2 ^ 30

/-- HBM training has completed: Memory_Info_Valid and Memory_Active are set (Table 2-2, Table 19-1 step 6). -/
def State.memoryActive (s : State) : Bool := s.awake && s.rd F.GLB_BOOT_STATUS_FAIL_STEP == 0

/-- Device addresses behind HDM decoder 0 (R40): `hpa` lies in the committed range, and the bits that select one of the interleaved
devices are taken out (PRESUMED: CXL 2.0). -/
def HdmDecoder.toDpa (h : HdmDecoder) (hpa : Nat) : Option Nat :=
  if h.committed = true ∧ h.base ≤ hpa ∧ hpa < h.base + h.size then
    let o := hpa - h.base
    let g := 2 ^ (8 + h.gran)
    some (o / (g * 2 ^ h.ways) * g + o % g)
  else none

/-- The registers of HDM decoder 0 by their offset from its capability header (PRESUMED: CXL 2.0): base, size, control. A control
write with its commit bit puts a range in force when its ways are 1, 2, 4 or 8 and its granularity 256 B to 16 KiB (R40), and one
without it takes the range out of force; a committed range is not rewritten. -/
def HdmDecoder.write (h : HdmDecoder) (k v : Nat) : HdmDecoder :=
  if k = 0x20 then
    let ways := bits v 4 4
    let gran := bits v 0 4
    if bitAt v 9 = false then { h with committed := false, ways := ways, gran := gran }
    else if h.committed then h
    else { h with ways := ways, gran := gran, committed := decide (ways ≤ 3) && decide (gran ≤ 6) }
  else if h.committed then h
  else if k = 0x10 then { h with base := setBits h.base 28 4 (v / 2 ^ 28) }
  else if k = 0x14 then { h with base := setBits h.base 32 32 v }
  else if k = 0x18 then { h with size := setBits h.size 28 4 (v / 2 ^ 28) }
  else if k = 0x1C then { h with size := setBits h.size 32 32 v }
  else h

/-- What decoder 0's registers read as (PRESUMED: CXL 2.0). -/
def HdmDecoder.read (h : HdmDecoder) (k : Nat) : Nat :=
  if k = 0x10 then bits h.base 28 4 * 2 ^ 28
  else if k = 0x14 then bits h.base 32 32
  else if k = 0x18 then bits h.size 28 4 * 2 ^ 28
  else if k = 0x1C then bits h.size 32 32
  else h.gran + h.ways * 2 ^ 4 + b2n h.committed * 2 ^ 9 + b2n h.committed * 2 ^ 10

/-- Offsets of BAR0 that CXL 2.0 defines (Table 2-2). -/
def cxlOffset (off : Nat) : Bool := decide (0xF00000 ≤ off) && decide (off < 0xF20000)

/-- The decoder register that an offset of the component registers names, if it names one; where the capability lies is left to the
implementation (log entry 220). -/
def hdmReg (off : Nat) : Option Nat :=
  if [0x10, 0x14, 0x18, 0x1C, 0x20].contains (off - Config.hdmCap) ∧ Config.hdmCap ≤ off then some (off - Config.hdmCap) else none

/-- A write to the CXL component or device registers: decoder 0 acts on its own, and what another register keeps of the value is
CXL 2.0's to say (log entry 220). -/
def State.writeCxl (s : State) (off : Nat) (val : Word) : State :=
  match hdmReg off with
  | some k => { s with hif := { s.hif with hdm := s.hif.hdm.write k val.toNat } }
  | none => { s with hif := { s.hif with
      cxl := cellSet (fun _ => 0) s.hif.cxl off (Config.cxlStore off (cellGet (fun _ => 0) s.hif.cxl off) val) } }

/-- A read of the CXL component or device registers. -/
def State.readCxl (s : State) (off : Nat) : Word :=
  match hdmReg off with
  | some k => BitVec.ofNat 32 (s.hif.hdm.read k)
  | none => Config.cxlShow off (cellGet (fun _ => 0) s.hif.cxl off)

/-- HIF_FEAT_OFFER0 by link mode (R61). -/
def State.featOffer (s : State) : Nat := if s.rdB F.HIF_STATUS_CXL_MODE then 0x1FFF else 0x1FD7

/-- The accepted set as one number (R61). -/
def State.featAccept (s : State) : Nat :=
  s.rd (F.HIF_FEAT_ACCEPT_ACCEPT 0) + 2 ^ 32 * s.rd (F.HIF_FEAT_ACCEPT_ACCEPT 1) +
    2 ^ 64 * s.rd (F.HIF_FEAT_ACCEPT_ACCEPT 2) + 2 ^ 96 * s.rd (F.HIF_FEAT_ACCEPT_ACCEPT 3)

/-- The first condition of R62 that an accepted set breaks, 0 when it breaks none. -/
def rejectReason (offer acc : Nat) : Nat :=
  if (List.range 128).any fun i => bitAt acc i && !bitAt offer i then 1
  else if b2n (bitAt acc 0) + b2n (bitAt acc 1) + b2n (bitAt acc 2) ≠ 1 then 2
  else if !bitAt acc 3 && !bitAt acc 4 then 3
  else if bitAt acc 3 && !bitAt acc 1 && !bitAt acc 2 then 4
  else 0

/-- The feature check of R62: honour the set, or clear FEATURES_OK with the reason and raise HIF_FEATURES_REFUSED. -/
def State.checkFeatures (s : State) : State :=
  let r := rejectReason s.featOffer s.featAccept
  let s := (s.wrB F.HIF_CTRL_FEATURES_OK (r == 0)).wr F.HIF_STATUS_REJECT_REASON r
  if r = 0 then s else s.raise Ev.HIF_FEATURES_REFUSED

/-- The driver sets FEATURES_OK: ignored while RUNNING, and nothing new to check when it is already set (R62). -/
def State.setFeaturesOk (s : State) : State :=
  if s.rdB F.HIF_STATUS_RUNNING || s.rdB F.HIF_CTRL_FEATURES_OK then s else s.checkFeatures

/-- FEATURES_OK (R62). -/
def execFeaturesOk (s : State) : Host.Outcome State Fault Refusal :=
  .next (if s.bar0Open then s.setFeaturesOk else s)

/-- The version a feature set names (R62). -/
def verOf (feats : Nat) : Nat := if bitAt feats 2 then 3 else if bitAt feats 1 then 2 else 1

/-- Ring 0's addresses. -/
def State.ring0Base (s : State) : Nat :=
  s.rd F.HIF_RING_BASE_LO_ADDR_LO * 2 ^ 12 + s.rd F.HIF_RING_BASE_HI_ADDR_HI * 2 ^ 32
def State.ring0Cq (s : State) : Nat :=
  s.rd F.HIF_CQ_BASE_LO_ADDR_LO * 2 ^ 12 + s.rd F.HIF_CQ_BASE_HI_ADDR_HI * 2 ^ 32
def State.ring0Line (s : State) : Nat :=
  s.rd F.HIF_DB_LINE_LO_ADDR_LO * 2 ^ 6 + s.rd F.HIF_DB_LINE_HI_ADDR_HI * 2 ^ 32

/-- The first of R69's checks that ring 0's set-up fails, 0 when none. -/
def State.ring0Err (s : State) (feats : Nat) : Nat :=
  let l := s.rd F.HIF_RING_CFG_LOG2_SIZE
  if l < 6 ∨ log2Max (verOf feats) < l then 1
  else if s.ring0Base = 0 ∨ s.ring0Cq = 0 ∨ !isHost s.ring0Base ∨ !isHost s.ring0Cq ∨ !isHost s.ring0Line then 2
  else if s.ring0Line ≠ 0 ∧ bitAt feats 3 = false then 3
  else 0

/-- A ring with nothing in it. -/
def Ring.fresh (num cls log2 vector coalUs coalCount sqBase cqBase dbLine : Nat) : Ring :=
  { num := num, cls := cls, log2 := log2, vector := vector, coalUs := coalUs, coalCount := coalCount,
    sqBase := sqBase, cqBase := cqBase, dbLine := dbLine, lineShared := false, stale := false, pi := 0, ci := 0, fetch := 0, cqPi := 0,
    cqCi := 0, fault := false, abortTo := 0, descs := [], recs := [], unsig := 0, timer := false }

/-- Read a ring's doorbell line in the Shared state and act on what it holds (R57). -/
def State.readLine (s : State) (ring pi ci : Nat) : State :=
  match s.ring? ring with
  | none => s
  | some r =>
    if r.dbLine = 0 then s
    else ((s.emit (.lineRead r.dbLine)).setRing { r with lineShared := true, stale := false }).acceptPi ring pi ci

/-- Add a ring, with its MMIO doorbells at 0 (R58), and read its line if it has one that this power state lets the device hold
(R57, Table 2-11); S2 holds only ADMIN and MGMT lines, and the others are read on the return to S0 (log entry 223). -/
def State.addRing (s : State) (r : Ring) (pi ci : Nat) : State :=
  let s := { s with hif := { s.hif with rings := s.hif.rings ++ [r] } }
  let s := (s.wr (F.HIF_DB_SQ_INDEX r.num) 0).wr (F.HIF_DB_CQ_INDEX r.num) 0
  if s.doorbellActs r.cls true then s.readLine r.num pi ci else s

/-- Ring 0 starts with a feature set (R69). -/
def State.startRing0 (s : State) (feats pi ci : Nat) : State :=
  let s := { s with hif := { s.hif with feats := feats } }
  let s := ((s.wrB F.HIF_CTRL_ENABLE true).wr F.HIF_STATUS_RING0_ERR 0).wrB F.HIF_STATUS_RUNNING true
  let s := s.wr F.HIF_STATUS_RING_VER (verOf feats)
  s.addRing (Ring.fresh 0 Cls.ADMIN (s.rd F.HIF_RING_CFG_LOG2_SIZE) (s.rd F.HIF_RING_CFG_VECTOR) 0 0 s.ring0Base s.ring0Cq
    s.ring0Line) pi ci

/-- Apply R69's checks and start ring 0, or record the first failure and raise HIF_RING_FAULT. -/
def State.tryRing0 (s : State) (feats pi ci : Nat) : State :=
  if s.ring0Err feats = 0 then s.startRing0 feats pi ci
  else (((s.wrB F.HIF_CTRL_ENABLE false).wr F.HIF_STATUS_RING0_ERR (s.ring0Err feats))).raise Ev.HIF_RING_FAULT

/-- The set of R63: RING_V1 and DB_MMIO, plus HDM in CXL mode. -/
def State.defaultFeats (s : State) : Nat := if s.rdB F.HIF_STATUS_CXL_MODE then 0x31 else 0x11

/-- ENABLE is written 1 with the FEATURES_OK bit of the same write (R69, R63). -/
def State.enableRing0 (s : State) (features : Bool) (pi ci : Nat) : State :=
  if s.rdB F.HIF_STATUS_RUNNING then s
  else if features then
    let s := s.setFeaturesOk
    if s.rdB F.HIF_CTRL_FEATURES_OK then s.tryRing0 s.featAccept pi ci
    else (s.wr F.HIF_STATUS_RING0_ERR 4).raise Ev.HIF_RING_FAULT
  else (s.wrB F.HIF_CTRL_FEATURES_OK false).tryRing0 s.defaultFeats pi ci

/-- ENABLE (R69). -/
def execEnable (features : Bool) (pi ci : Nat) (s : State) : Host.Outcome State Fault Refusal :=
  .next (if s.bar0Open then s.enableRing0 features pi ci else s)

/-- A host store invalidates the device's copy of a doorbell line (R57). -/
def execDoorbellSnoop (ring : Nat) (s : State) : Host.Outcome State Fault Refusal :=
  .next (match s.ring? ring with
    | some r => if r.dbLine ≠ 0 ∧ r.lineShared = true then s.setRing { r with lineShared := false } else s
    | none => s)

/-- The device re-reads an invalid doorbell line it may hold in this power state (R57, Table 2-11). -/
def execDoorbellReread (ring pi ci : Nat) (s : State) : Host.Outcome State Fault Refusal :=
  .next (match s.ring? ring with
    | some r =>
      if r.dbLine ≠ 0 ∧ r.lineShared = false ∧ s.doorbellActs r.cls true = true ∧ s.hostLink = true then s.readLine ring pi ci
      else s
    | none => s)

/-- The value an MMIO doorbell stores: bits 31:16 are 0 in versions 1 and 2. -/
def State.dbValue (s : State) (val : Word) : Nat := val.toNat % 2 ^ s.idxW

/-- A write of HIF_DB_SQ(n): stored, and acted on when the ring uses its MMIO doorbell (R58). -/
def State.writeDbSq (s : State) (ring : Nat) (val : Word) : State :=
  let s := s.setWord (0x11000 + 8 * ring) val
  match s.ring? ring with
  | some r => if r.dbLine = 0 ∧ s.doorbellActs r.cls true = true then s.acceptPi ring (s.dbValue val) r.cqCi else s
  | none => s

/-- A write of HIF_DB_CQ(n). -/
def State.writeDbCq (s : State) (ring : Nat) (val : Word) : State :=
  let s := s.setWord (0x11004 + 8 * ring) val
  match s.ring? ring with
  | some r => if r.dbLine = 0 ∧ s.doorbellActs r.cls true = true then s.setRing { r with cqCi := s.dbValue val } else s
  | none => s

/-- HIF_DB_SQ (R58). -/
def execHifDbSq (ring : Nat) (val : Word) (s : State) : Host.Outcome State Fault Refusal :=
  .next (if s.bar0Open && decide (ring < 64) then s.writeDbSq ring val else s)

/-- HIF_DB_CQ (R58). -/
def execHifDbCq (ring : Nat) (val : Word) (s : State) : Host.Outcome State Fault Refusal :=
  .next (if s.bar0Open && decide (ring < 64) then s.writeDbCq ring val else s)

/-- On return to S0 every MMIO doorbell is read again, and every line has to be read again before engines accept work (R60). -/
def State.rereadDoorbells (s : State) : State :=
  (s.hif.rings).foldl (fun s r =>
    if r.dbLine = 0 then s.acceptPi r.num (s.rd (F.HIF_DB_SQ_INDEX r.num)) (s.rd (F.HIF_DB_CQ_INDEX r.num))
    else match s.ring? r.num with
      | some r => s.setRing { r with lineShared := false, stale := true }
      | none => s) s

/-- Lines that S2 does not hold are released (Table 2-11). -/
def State.releaseLines (s : State) (keep : Nat → Bool) : State :=
  { s with hif := { s.hif with rings := s.hif.rings.map fun r => if keep r.cls then r else { r with lineShared := false } } }

/-- The next descriptor of a ring is read once (R47), from the slot of its index (R46); one below the ring's abort point is aborted as it is read (R64). -/
def State.fetchDesc (s : State) (r : Ring) (bytes : List Byte) : State :=
  let w := s.idxW
  let aborted := serialLater w r.abortTo r.fetch
  let d : Desc := { idx := r.fetch, bytes := padTo 64 0 bytes, phase := if aborted then .done else .waiting,
                    status := if aborted then Cpl.ABORTED else 0, cflags := 0, info := 0, evs := [] }
  let next := (r.fetch + 1) % 2 ^ w
  (s.emit (.descRead (r.sqBase + 64 * (r.fetch % 2 ^ r.log2)))).setRing
    { r with fetch := next, abortTo := if aborted then r.abortTo else next, descs := r.descs ++ [d] }

/-- Whether a ring may fetch now: a later PI, no fault, its line read, and its doorbells are acted on (R47, R51, R60, Table 2-11). -/
def State.canFetch (s : State) (r : Ring) : Bool :=
  !r.fault && !r.stale && serialLater s.idxW r.pi r.fetch && s.hostLink && s.doorbellActs r.cls false && s.serves r.cls

/-- A ring that an abort has marked may fetch up to the abort point even in the fault state, to learn the TAGs it owes. -/
def State.canFetchAborted (s : State) (r : Ring) : Bool :=
  serialLater s.idxW r.abortTo r.fetch && s.hostLink

/-- DESCRIPTOR_FETCH (R47). -/
def execDescriptorFetch (ring : Nat) (bytes : List Byte) (s : State) : Host.Outcome State Fault Refusal :=
  .next (match s.ring? ring with
    | some r => if s.canFetch r || s.canFetchAborted r then s.fetchDesc r bytes else s
    | none => s)

/-- An opcode that Table 2-7 does not name completes with BAD_OPCODE when its turn comes (R52). -/
def State.refuseUnknown (s : State) (ring : Nat) : State :=
  match s.ring? ring with
  | none => s
  | some r =>
    match r.startable with
    | some d => if (opClass d.op).isNone && s.serves r.cls then s.complete ring d.idx Cpl.BAD_OPCODE 0 else s
    | none => s

/-- DESCRIPTOR_RETIRE (R48). -/
def execDescriptorRetire (ring : Nat) (s : State) : Host.Outcome State Fault Refusal :=
  .next ((s.refuseUnknown ring).retireHead ring)

/-- COMPLETION_WRITE (R49). -/
def execCompletionWrite (ring : Nat) (s : State) : Host.Outcome State Fault Refusal := .next (s.writeRecord ring)

/-- COALESCE_TIMER_EXPIRY: the oldest unsignalled completion has waited COAL_US (R59). -/
def execCoalesceTimerExpiry (ring : Nat) (s : State) : Host.Outcome State Fault Refusal :=
  .next (match s.ring? ring with
    | some r => if r.timer then (s.setRing { r with unsig := 0, timer := false }).signal r.vector else s
    | none => s)

/-- The feature a class needs (Table 2-3). -/
def State.classFeature (s : State) (c : Nat) : Bool := (c != Cls.ENC || s.feat 8) && (c != Cls.BLT || s.feat 9)

/-- CREATE_RING's checks (R44, R45, R52, R55, R58, R63). -/
def State.createChecks (s : State) (_r : Ring) (d : Desc) : List (Bool × Nat) :=
  let sq := leAt d.bytes 8 8
  let cq := leAt d.bytes 16 8
  let db := leAt d.bytes 24 8
  let id := byteAt d.bytes 32
  let c := byteAt d.bytes 33
  let l := byteAt d.bytes 34
  [(d.restZero [(8, 32)] && isHost sq && isHost cq && isHost db && sq % 4096 == 0 && cq % 4096 == 0 && db % 64 == 0 &&
      (db == 0 || s.feat 3) && decide (1 ≤ id) && decide (id ≤ 63) && decide (1 ≤ c) && decide (c ≤ 6) && s.classFeature c &&
      decide (6 ≤ l) && decide (l ≤ log2Max (s.rd F.HIF_STATUS_RING_VER)) && decide (byteAt d.bytes 35 ≤ 63), Cpl.BAD_FIELD),
   ((s.ring? id).isNone && decide ((s.hif.rings.filter fun x => x.cls == c).length < classLimit c), Cpl.BAD_RING)]

/-- CREATE_RING (R44, Table 2-8). -/
def State.opCreateRing (s : State) (ring pi ci : Nat) : State :=
  s.withOp ring 0x01 s.createChecks fun r d s =>
    let n := Ring.fresh (byteAt d.bytes 32) (byteAt d.bytes 33) (byteAt d.bytes 34) (byteAt d.bytes 35) (leAt d.bytes 36 2)
      (leAt d.bytes 38 2) (leAt d.bytes 8 8) (leAt d.bytes 16 8) (leAt d.bytes 24 8)
    (s.addRing n pi ci).complete r.num d.idx Cpl.SUCCESS 0

def execCreateRing (ring pi ci : Nat) (s : State) : Host.Outcome State Fault Refusal := .next (s.opCreateRing ring pi ci)

/-- NOP completes when it is reached (Table 2-7). -/
def execNop (ring : Nat) (s : State) : Host.Outcome State Fault Refusal :=
  .next (s.withOp ring 0x05 (fun _ d => [(d.restZero [], Cpl.BAD_FIELD)]) fun r d s => s.complete r.num d.idx Cpl.SUCCESS 0)

/-- The checks of DELETE_RING and QUEUE_ABORT: RING_ID 1 to 63 (Table 2-8) that names a ring (Table 2-9). -/
def State.ringIdChecks (s : State) (_r : Ring) (d : Desc) : List (Bool × Nat) :=
  [(d.restZero [(8, 1)] && decide (1 ≤ byteAt d.bytes 8) && decide (byteAt d.bytes 8 ≤ 63), Cpl.BAD_FIELD),
   ((s.ring? (byteAt d.bytes 8)).isSome, Cpl.BAD_RING)]

/-- An abort of one ring begins; its abort point follows (R64). -/
def State.beginAbort (s : State) (op : AbortOp) : State :=
  { s with hif := { s.hif with aborts := s.hif.aborts ++ [op] } }

/-- QUEUE_ABORT (R66). -/
def execQueueAbort (ring : Nat) (s : State) : Host.Outcome State Fault Refusal :=
  .next (s.withOp ring 0x03 s.ringIdChecks fun _ d s =>
    s.beginAbort ⟨byteAt d.bytes 8, [byteAt d.bytes 8], some d.idx, false, 0⟩)

/-- DELETE_RING (R49). -/
def execDeleteRing (ring : Nat) (s : State) : Host.Outcome State Fault Refusal :=
  .next (s.withOp ring 0x02 s.ringIdChecks fun _ d s =>
    s.beginAbort ⟨byteAt d.bytes 8, [byteAt d.bytes 8], some d.idx, true, 0⟩)

/-- The emergency abort ends: DONE, not BUSY, and the count (R67). -/
def State.hifAbortEnd (s : State) (count : Nat) : State :=
  (((s.wrB F.HIF_ABORT_STATUS_BUSY false).wrB F.HIF_ABORT_STATUS_DONE true).wr F.HIF_ABORT_STATUS_COUNT count).raise
    Ev.HIF_ABORT_DONE

/-- HIF_ABORT with GO: aborts one ring, or all; with no such ring it ends at once. Ignored while BUSY (R67). -/
def State.startHifAbort (s : State) (ring : Nat) (all : Bool) : State :=
  let s := (s.wr F.HIF_ABORT_RING_ID ring).wrB F.HIF_ABORT_ALL all
  if s.rdB F.HIF_ABORT_STATUS_BUSY then s
  else
    let ts := (s.hif.rings.map Ring.num).filter fun n => all || n == ring % 64
    if ts.isEmpty then s.hifAbortEnd 0
    else (s.wrB F.HIF_ABORT_STATUS_BUSY true).beginAbort ⟨ring % 64, ts, none, false, 0⟩

/-- HIF_ABORT (R67). -/
def execHifAbort (ring : Nat) (all : Bool) (s : State) : Host.Outcome State Fault Refusal :=
  .next (if s.bar0Open then s.startHifAbort ring all else s)

/-- The SH fields of a register take a value as shadow; its other fields keep theirs (R54). -/
def State.writeShadow (s : State) (off : Nat) (val : Word) : State :=
  s.setWord off (BitVec.ofNat 32
    ((shFields off).foldl (fun w f => setBits w f.1 f.2 (bits val.toNat f.1 f.2)) (s.word off).toNat))

/-- The pairs a SHADOW_WRITE uses (Table 2-8). -/
def Desc.pairs (d : Desc) : List (Nat × Nat) :=
  (List.range (min 6 (byteAt d.bytes 8))).map fun i => (leAt d.bytes (16 + 8 * i) 4, leAt d.bytes (20 + 8 * i) 4)

/-- SHADOW_WRITE (R54). Bytes of unused pairs are ignored. -/
def State.opShadowWrite (s : State) (ring : Nat) : State :=
  s.withOp ring 0x30
    (fun _ d => [(d.restZero [(8, 1), (16, 48)] && decide (1 ≤ byteAt d.bytes 8) && decide (byteAt d.bytes 8 ≤ 6) &&
      d.pairs.all fun p => !(shFields p.1).isEmpty, Cpl.BAD_FIELD)])
    fun r d s =>
      (d.pairs.foldl (fun s p => s.writeShadow p.1 (BitVec.ofNat 32 p.2)) s).complete r.num d.idx Cpl.SUCCESS 0

def execShadowWrite (ring : Nat) (s : State) : Host.Outcome State Fault Refusal := .next (s.opShadowWrite ring)

end Sys2Proof.Machine
end

