-- ==== Sys2Proof/Machine/Mem.lean ====
section
/-!
DEFINITION. Device memory (chapter 12): the guarded sectors, poison, protection windows, engine accesses, CXL.mem, scrub and
pair modes.
-/
namespace Sys2Proof.Machine

/-- The end of the visible region: 58 GiB (R323). -/
def visibleEnd : Nat := 58 * 2 ^ 30

/-- A data byte and a check byte as stored. -/
def MemSt.dataAt (m : MemSt) (a : Nat) : Byte := cellGet (fun _ => 0) m.data a
def MemSt.checkAt (m : MemSt) (sec i : Nat) : Byte := cellGet (fun _ => 0) m.check (4 * sec + i)

/-- The 36 symbols of a sector as stored, data first. -/
def MemSt.codeword (m : MemSt) (sec : Nat) : List Nat :=
  ((cellRead (fun _ => 0) m.data (32 * sec) 32) ++ cellRead (fun _ => 0) m.check (4 * sec) 4).map BitVec.toNat

/-- The class of a sector (R328). -/
def MemSt.classify (m : MemSt) (sec : Nat) : SectorClass := guardClassify (m.codeword sec)

/-- Store one symbol of a sector. -/
def MemSt.putSymbol (m : MemSt) (sec i : Nat) (b : Byte) : MemSt :=
  if i < 32 then { m with data := cellSet (fun _ => 0) m.data (32 * sec + i) b }
  else { m with check := cellSet (fun _ => 0) m.check (4 * sec + (i - 32)) b }

/-- Store 32 data bytes with the given check bytes. -/
def MemSt.putSector (m : MemSt) (sec : Nat) (data : List Byte) (check : List Nat) : MemSt :=
  { m with
    data := cellPut (fun _ => 0) m.data (32 * sec) (padTo 32 0 data)
    check := cellPut (fun _ => 0) m.check (4 * sec) (check.map fun c => BitVec.ofNat 8 c) }

/-- Store 32 data bytes with valid check bytes (R327). -/
def MemSt.storeSector (m : MemSt) (sec : Nat) (data : List Byte) : MemSt :=
  m.putSector sec data (guardCheck ((padTo 32 0 data).map BitVec.toNat))

/-- The data bytes of a sector as stored. -/
def MemSt.rawData (m : MemSt) (sec : Nat) : List Byte := cellRead (fun _ => 0) m.data (32 * sec) 32

/-- Rewrite a sector with its data as read and each check byte inverted: the poison mark (R330). -/
def MemSt.poisonSector (m : MemSt) (sec : Nat) : MemSt :=
  m.putSector sec (m.rawData sec) ((guardCheck ((m.rawData sec).map BitVec.toNat)).map fun c => c ^^^ 0xFF)

/-- Correct one symbol (R329). -/
def MemSt.correct (m : MemSt) (sec pos err : Nat) : MemSt :=
  let old := if pos < 32 then m.dataAt (32 * sec + pos) else m.checkAt sec (pos - 32)
  m.putSymbol sec pos (xorB old (BitVec.ofNat 8 err))

/-- The pair a device address lies in (R324). -/
def pairOf (a : Nat) : Nat := a / 2 ^ 31

/-- A soft error changes one symbol of a sector; one in a pair that is being re-initialised goes with the old contents (R325). -/
def MemSt.upset (m : MemSt) (u : Upset) : MemSt :=
  if u.pos < 36 ∧ m.reinit.contains (pairOf (32 * u.sector)) = false then
    let old := if u.pos < 32 then m.dataAt (32 * u.sector + u.pos) else m.checkAt u.sector (u.pos - 32)
    m.putSymbol u.sector u.pos (xorB old u.flip)
  else m

/-- The data of a sector as a reader receives it: corrected, or poisoned (R328 to R330). -/
def MemSt.readSector (m : MemSt) (sec : Nat) : List MByte :=
  match m.classify sec with
  | .good => (m.rawData sec).map fun b => ⟨b, false⟩
  | .correctable p e => ((m.correct sec p e).rawData sec).map fun b => ⟨b, false⟩
  | _ => (m.rawData sec).map fun b => ⟨b, true⟩

/-- One byte as a reader receives it. -/
def MemSt.peekByte (m : MemSt) (a : Nat) : MByte := (m.readSector (a / 32)).getD (a % 32) ⟨0, false⟩

/-- `n` bytes as a reader receives them, a sector at a time. -/
def MemSt.peek (m : MemSt) (a n : Nat) : List MByte :=
  let first := a / 32
  let secs := if n = 0 then 0 else (a + n - 1) / 32 - first + 1
  (((upFrom first secs).flatMap fun sec => m.readSector sec).drop (a % 32)).take n

/-- The stack a device address lies on (Table 12-1). -/
def MemSt.stackOf (m : MemSt) (a : Nat) : Nat :=
  let k := a / 2 ^ 30
  let o := a % 2 ^ 30
  if bitAt m.affine (k / 2) then 2 * (k % 2) + o / 2 ^ 12 % 2 else o / 2 ^ 12 % 4

/-- The offset within the stack (Table 12-1). -/
def MemSt.stackOffset (m : MemSt) (a : Nat) : Nat :=
  let k := a / 2 ^ 30
  let o := a % 2 ^ 30
  let j := k / 2
  if bitAt m.affine j then j * 2 ^ 29 + o / 2 ^ 13 * 2 ^ 12 + o % 2 ^ 12
  else j * 2 ^ 29 + k % 2 * 2 ^ 28 + o / 2 ^ 14 * 2 ^ 12 + o % 2 ^ 12

/-- Class numbers as MEM_ERR_INFO.CLASS gives them. -/
def MemClass.num : MemClass → Nat
  | .scan => 0 | .dec => 1 | .host => 2 | .enc => 3 | .blt => 4 | .scrub => 5

/-- Change the memory. -/
def State.modMem (s : State) (f : MemSt → MemSt) : State := { s with mem := f s.mem }

/-- Bytes a class moves in the current millisecond (R338). -/
def State.account (s : State) (c : MemClass) (n : Nat) : State :=
  s.modMem fun m => { m with traffic := m.traffic.modify c.num (· + n) }

/-- Count one correction; MEM_CORR_THRESH when the count crosses a multiple of STEP (R329). -/
def State.countCorr (s : State) : State :=
  let old := s.rd (F.MEM_CNT_COUNT 0)
  let s := s.bump (F.MEM_CNT_COUNT 0)
  let step := s.rd F.MEM_CORR_THRESH_STEP
  if step ≠ 0 ∧ s.rd (F.MEM_CNT_COUNT 0) ≠ old ∧ s.rd (F.MEM_CNT_COUNT 0) % step = 0 then s.raise Ev.MEM_CORR_THRESH else s

/-- Poison a sector found uncorrectable: rewrite, count, record and raise (R330). -/
def State.poison (s : State) (c : MemClass) (sec : Nat) : State :=
  let s := (s.modMem fun m => m.poisonSector sec).bump (F.MEM_CNT_COUNT 1)
  let s :=
    if s.rdB F.MEM_ERR_INFO_VALID then s.wrB F.MEM_ERR_INFO_OVF true
    else
      ((((s.wr F.MEM_ERR_ADDR_LO_ADDR_LO sec).wr F.MEM_ERR_ADDR_HI_ADDR_HI (sec / 2 ^ 27)).wrB F.MEM_ERR_INFO_VALID true).wr
        F.MEM_ERR_INFO_STACK (s.mem.stackOf (32 * sec))).wr F.MEM_ERR_INFO_CLASS c.num
  s.raise Ev.MEM_UNCORR

/-- What one read does to the sector it meets (R328 to R330). -/
def State.touchSector (s : State) (c : MemClass) (sec : Nat) : State :=
  match s.mem.classify sec with
  | .good => s
  | .poisoned => s.bump (F.MEM_CNT_COUNT 2)
  | .correctable p e => (s.modMem fun m => m.correct sec p e).countCorr
  | .uncorrectable => s.poison c sec

/-- The sectors that `n` bytes from `a` lie in. -/
def sectorsOf (a n : Nat) : List Nat := if n = 0 then [] else upFrom (a / 32) ((a + n - 1) / 32 - a / 32 + 1)

/-- The effects of reading `n` bytes from `a`. -/
def State.touch (s : State) (c : MemClass) (a n : Nat) : State :=
  (sectorsOf a n).foldl (fun s sec => s.touchSector c sec) (s.account c n)

/-- The rights bits that let an engine read, and the one that lets it write (R335: a write right grants the read right). -/
def Engine.readMask : Engine → Nat
  | .dec => 0x003 | .syn => 0x004 | .cmp => 0x008 | .enc => 0x030 | .blt => 0x0C0 | .mgmt => 0x300
def Engine.writeMask : Engine → Nat
  | .dec => 0x002 | .syn => 0 | .cmp => 0 | .enc => 0x020 | .blt => 0x080 | .mgmt => 0x200

/-- Whether some window grants the right over a 4 KiB page; none covers the reserved region (R323, R335). -/
def State.pageOk (s : State) (e : Engine) (write : Bool) (page : Nat) : Bool :=
  decide (page * 4096 < visibleEnd) && (List.range 16).any fun n =>
    decide (s.rd (F.MEM_WIN_BASE_PAGE n) ≤ page) && decide (page ≤ s.rd (F.MEM_WIN_LIMIT_PAGE n)) &&
      (s.word (0x90108 + 16 * n)).toNat &&& (if write then e.writeMask else e.readMask) != 0

/-- Whether window `n` grants the right. -/
def State.winGrants (s : State) (e : Engine) (write : Bool) (n : Nat) : Bool :=
  (s.word (0x90108 + 16 * n)).toNat &&& (if write then e.writeMask else e.readMask) != 0

/-- The first page from `p` on that no granting window which covers `p` covers. -/
def State.coverStep (s : State) (e : Engine) (write : Bool) (p : Nat) : Nat :=
  (List.range 16).foldl (fun q n =>
    if s.winGrants e write n && decide (s.rd (F.MEM_WIN_BASE_PAGE n) ≤ p) && decide (p ≤ s.rd (F.MEM_WIN_LIMIT_PAGE n)) then
      max q (s.rd (F.MEM_WIN_LIMIT_PAGE n) + 1)
    else q) p

/-- The first page from `p` on that the 16 windows together do not grant. -/
def State.coverFrom (s : State) (e : Engine) (write : Bool) (p : Nat) : Nat :=
  (List.range 16).foldl (fun q _ => s.coverStep e write q) p

/-- Whether every page of a range is granted (the checks made when a descriptor or commit is accepted, R337). -/
def State.rangeOk (s : State) (e : Engine) (write : Bool) (a n : Nat) : Bool :=
  decide (n = 0) || (decide (a + n ≤ visibleEnd) && decide ((a + n - 1) / 4096 < s.coverFrom e write (a / 4096)))

/-- One access outside its rights: counted, and MEM_WINDOW at most once in any millisecond per engine (R337). -/
def State.windowMiss (s : State) (e : Engine) : State :=
  let s := s.bump (F.MEM_CNT_COUNT 3)
  if s.mem.winSeen.any fun w => w.1 == e && decide (s.tim.raw < w.2 + 1000000) then s
  else (s.modMem fun m => { m with winSeen := (e, s.tim.raw) :: m.winSeen.filter fun w => w.1 != e }).raise Ev.MEM_WINDOW

/-- The bytes of an access that lie in the sectors an engine may reach: what is moved (R337, R338). -/
def State.granted (s : State) (e : Engine) (write : Bool) (a n : Nat) : Nat :=
  if s.rangeOk e write a n then n
  else (((sectorsOf a n).filter fun sec => s.pageOk e write (sec / 128)).map fun sec =>
    min (a + n) (32 * sec + 32) - max a (32 * sec)).sum

/-- What an engine receives from `n` bytes at `a`: zeros outside its rights (R337). -/
def State.peekFor (s : State) (e : Engine) (a n : Nat) : List MByte :=
  if s.rangeOk e false a n then s.mem.peek a n
  else (upFrom a n).map fun x => if s.pageOk e false (x / 4096) then s.mem.peekByte x else ⟨0, false⟩

/-- The effects of an engine's read of `n` bytes at `a` (R328 to R330, R337). -/
def State.readFor (s : State) (c : MemClass) (e : Engine) (a n : Nat) : State :=
  let s := ((sectorsOf a n).filter fun sec => s.pageOk e false (sec / 128)).foldl (fun s sec => s.touchSector c sec)
    (s.account c (s.granted e false a n))
  if (sectorsOf a n).all fun sec => s.pageOk e false (sec / 128) then s else s.windowMiss e

/-- Merge fewer than 32 bytes into a sector from offset `o` (R331). -/
def State.mergeSector (s : State) (c : MemClass) (sec o : Nat) (bs : List Byte) : State :=
  let put := fun (m : MemSt) => m.storeSector sec ((m.rawData sec).take o ++ bs ++ (m.rawData sec).drop (o + bs.length))
  match s.mem.classify sec with
  | .good => s.modMem put
  | .correctable p e => (s.modMem fun m => put (m.correct sec p e)).countCorr
  | .poisoned => s.raise Ev.MEM_PARTIAL_POISON
  | .uncorrectable => (s.poison c sec).raise Ev.MEM_PARTIAL_POISON

/-- The bytes of a write that fall into one sector: offset in the sector and the bytes. -/
def sectorPart (a : Nat) (bs : List Byte) (sec : Nat) : Nat × List Byte :=
  let lo := max a (32 * sec)
  let hi := min (a + bs.length) (32 * sec + 32)
  (lo - 32 * sec, (bs.drop (lo - a)).take (hi - lo))

/-- Write one sector's part: a whole sector without reading it, a part by merging (R331). -/
def State.writeSector (s : State) (c : MemClass) (sec : Nat) (p : Nat × List Byte) : State :=
  if p.2.length = 32 then s.modMem fun m => m.storeSector sec p.2 else s.mergeSector c sec p.1 p.2

/-- A write of bytes that no window governs (CXL.mem, hold store). -/
def State.store (s : State) (c : MemClass) (a : Nat) (bs : List Byte) : State :=
  (sectorsOf a bs.length).foldl (fun s sec => s.writeSector c sec (sectorPart a bs sec)) (s.account c bs.length)

/-- An engine's write: dropped outside its rights (R337). -/
def State.writeFor (s : State) (c : MemClass) (e : Engine) (a : Nat) (bs : List Byte) : State :=
  let ok := fun (sec : Nat) => s.pageOk e true (sec / 128)
  let s' := ((sectorsOf a bs.length).filter ok).foldl (fun s sec => s.writeSector c sec (sectorPart a bs sec))
    (s.account c (s.granted e true a bs.length))
  if (sectorsOf a bs.length).all ok then s' else s'.windowMiss e

/-- A pair is being re-initialised or waits for it (R325), or the background clear runs (R326): MEM_STATUS.INIT_BUSY. -/
def State.initBusy (s : State) : Bool := !s.mem.reinit.isEmpty || s.mem.clearing

/-- The level HBM traffic of the classes other than SCAN sees (R169). -/
def State.level (s : State) : Nat := max s.syn.west.level s.syn.east.level

/-- Levels 2 and 3 pause SCRUB, and ENC and BLT issue no new bursts (Table 5-4). -/
def State.yields (s : State) : Bool := decide (2 ≤ s.level)

/-- Scrub is paused (R334, Table 5-4): MEM_STATUS.SCRUB_PAUSED. -/
def State.scrubPaused (s : State) : Bool := s.initBusy || s.pwr.st == .s2 || s.yields

/-- HBM is trained and CXL.mem is in use (R38, Table 2-2). -/
def State.cxlMemUp (s : State) : Bool := s.memoryActive && s.hif.linkUp && s.rdB F.HIF_STATUS_CXL_MODE

/-- The device address of the 64-byte line at a host address: decoder 0 maps it, and it lies wholly below 58 GiB (R40). -/
def State.cxlLine (s : State) (hpa : Nat) : Option Nat :=
  (s.hif.hdm.toDpa hpa).filter fun a => decide (a + 64 ≤ visibleEnd)

/-- The device addresses of the lines of an access, when decoder 0 maps every one. -/
def State.cxlLines (s : State) (hpa lines : Nat) : Option (List Nat) :=
  (upFrom 0 lines).mapM fun i => s.cxlLine (hpa / 64 * 64 + 64 * i)

/-- One 64-byte line of a CXL.mem read: its answer and its effects. A line of a changing pair answers free bytes (R325). -/
def State.cxlReadLine (s : State) (a : Nat) : State :=
  if s.mem.reinit.contains (pairOf a) then
    (s.emit (.cxlData ((List.range 64).map fun i => ⟨Config.freeByte (s.freeCtr + i), false⟩))).drawn 64
  else (s.emit (.cxlData (s.mem.peek a 64))).touch .host a 64

/-- CXL_MEM_READ (R42) of host addresses: outside decoder 0's range the access cannot reach the device (R40). -/
def execCxlMemRead (addr lines : Nat) (upsets : List Upset) (s : State) : Host.Outcome State Fault Refusal :=
  match s.cxlLines addr lines with
  | none => .fault .hdmUnmapped
  | some as => .next (if s.cxlMemUp then
      as.foldl (fun s a => s.cxlReadLine a) (s.modMem fun m => upsets.foldl MemSt.upset m)
    else s)

/-- One line of a CXL.mem write: lost in a changing pair (R325). -/
def State.cxlWriteLine (s : State) (a : Nat) (bs : List Byte) : State :=
  if s.mem.reinit.contains (pairOf a) then s else s.store .host a (padTo 64 0 bs)

/-- CXL_MEM_WRITE (R41, R331) to host addresses: whole 64-byte lines. -/
def execCxlMemWrite (addr : Nat) (data : List Byte) (s : State) : Host.Outcome State Fault Refusal :=
  match s.cxlLines addr (ceilDiv data.length 64) with
  | none => .fault .hdmUnmapped
  | some as => .next (if s.cxlMemUp then
      (as.zipIdx.foldl (fun s x => s.cxlWriteLine x.1 ((data.drop (64 * x.2)).take 64)) s).emit .cxlDone
    else s)

/-- Every sector of a pair reads 0 (R325). -/
def MemSt.clearPair (m : MemSt) (j : Nat) : MemSt :=
  { m with
    data := cellClear m.data (j * 2 ^ 31) ((j + 1) * 2 ^ 31)
    check := cellClear m.check (j * 2 ^ 28) ((j + 1) * 2 ^ 28) }

/-- The pairs whose mode a MEM_AFFINE value changes, ascending (R325). -/
def affineChanges (old new : Nat) : List Nat := (List.range 29).filter fun j => bitAt old j != bitAt new j

/-- MEM_AFFINE takes a value: ignored while INIT_BUSY. Each changed pair is cleared and mapped by its new mode for every engine
access from here on, which is what an access that waits for the re-initialisation finds: none completes against the old contents or
the old mapping (R325; log entry 1202). -/
def State.writeAffine (s : State) (val : Word) : State :=
  if s.initBusy then s
  else
    let ch := affineChanges s.mem.affine val.toNat
    (s.wr F.MEM_AFFINE_PAIR val.toNat).modMem fun m =>
      { ch.foldl MemSt.clearPair m with reinit := ch, affine := bits val.toNat 0 29 }

/-- MEM_AFFINE (R325). -/
def execMemAffine (val : Word) (s : State) : Host.Outcome State Fault Refusal :=
  .next (if s.bar0Open then s.writeAffine val else s)

/-- PAIR_REINIT_DONE: the lowest waiting pair is done; after the last, MEM_INIT_DONE (R325). -/
def State.pairDone (s : State) : State :=
  match s.mem.reinit with
  | [] => s
  | _ :: js =>
    let s := s.modMem fun m => { m with reinit := js }
    if js.isEmpty then s.raise Ev.MEM_INIT_DONE else s

def execPairReinitDone (s : State) : Host.Outcome State Fault Refusal := .next s.pairDone

/-- BACKGROUND_CLEAR_DONE (R326). -/
def execBackgroundClearDone (s : State) : Host.Outcome State Fault Refusal :=
  .next (s.modMem fun m => { m with clearing := false })

/-- The scrub reads the sector at MEM_SCRUB_POS (R333); the last sector completes a pass. -/
def State.scrub (s : State) (upsets : List Upset) : State :=
  let pos := s.rd F.MEM_SCRUB_POS_SECTOR
  let s := (s.modMem fun m => (upsets.filter fun u => u.sector == pos).foldl MemSt.upset m).touch .scrub (32 * pos) 32
  let s := s.wr F.MEM_SCRUB_POS_SECTOR (pos + 1)
  if pos + 1 = 2 ^ 31 then (s.bump (F.MEM_CNT_COUNT 4)).raise Ev.MEM_SCRUB_PASS else s

/-- PATROL_SCRUB_READ (R333, R334). -/
def execPatrolScrubRead (upsets : List Upset) (s : State) : Host.Outcome State Fault Refusal :=
  .next (if s.awake && s.ready && s.rdB F.MEM_CTRL_SCRUB_EN && !s.scrubPaused then s.scrub upsets else s)

/-- One class's report in MB (10^6 bytes), saturating (R338). -/
def State.mbOf (s : State) (i : Nat) : Nat := min (s.mem.traffic.getD i 0 / 1000000) 65535

/-- MEM_BW_INTERVAL (R338). -/
def State.bwInterval (s : State) : State :=
  let w := fun (s : State) (k : Nat) =>
    (s.wr (F.MEM_BW_LOW k) (s.mbOf (2 * k))).wr (F.MEM_BW_HIGH k) (s.mbOf (2 * k + 1))
  (w (w (w s 0) 1) 2).modMem fun m => { m with traffic := [0, 0, 0, 0, 0, 0] }

def execMemBwInterval (s : State) : Host.Outcome State Fault Refusal := .next (if s.awake then s.bwInterval else s)

/-- Clear a block's counters: `n` registers of 32 bits from `base` (R6). -/
def State.clearCounters (s : State) (base n : Nat) : State :=
  (List.range n).foldl (fun s i => s.setWord (base + 4 * i) 0) s

/-- MEM_CNT_CLEAR (Table 12-4). -/
def execMemCntClear (s : State) : Host.Outcome State Fault Refusal :=
  .next (if s.bar0Open then s.clearCounters 0x90040 5 else s)

end Sys2Proof.Machine
end

