-- ==== Sys2Proof/Machine/Blt.lean ====
section
/-!
DEFINITION. The blitters (chapter 11): lists, commands, conversion and operations.
-/
namespace Sys2Proof.Machine

/-- Change the blitters. -/
def State.modBlt (s : State) (f : BltSt → BltSt) : State := { s with blt := f s.blt }

/-- The list a blitter runs. -/
def BltSt.on (b : BltSt) (d : Die) : Option BltList := match d with | .west => b.west | .east => b.east

/-- The other blitter. -/
def otherDie : Die → Die | .west => .east | .east => .west

/-- Give a blitter a list or none, and show BLT_STATUS. -/
def State.setBlt (s : State) (d : Die) (l : Option BltList) : State :=
  let i := match d with | .west => 0 | .east => 1
  let wait := match l with | some x => x.waiting | none => false
  ((s.modBlt fun b => match d with | .west => { b with west := l } | .east => { b with east := l }).wrB
    ⟨0x110008, i, 1⟩ l.isSome).wrB ⟨0x110008, 2 + i, 1⟩ wait

/-- BLT_RUN's checks (R310). -/
def State.bltChecks (s : State) (d : Desc) : List (Bool × Nat) :=
  let a := leAt d.bytes 8 8
  let n := leAt d.bytes 16 4
  [(d.restZero [(8, 8), (16, 4)] && isDevice a && a % 64 == 0 && decide (1 ≤ n) && decide (n ≤ 65536), Cpl.BAD_FIELD),
   (s.rangeOk .blt false (a - 2 ^ 63) (max 1 (64 * n)), Cpl.BAD_ADDRESS)]

/-- BLT_RUN: the list waits for a free blitter (R310, R311). -/
def State.opBltRun (s : State) (ring : Nat) : State :=
  s.withOp ring 0x50 (fun _ d => s.bltChecks d) fun r d s =>
    s.modBlt fun b => { b with
      queue := b.queue ++ [⟨r.num, d.idx, leAt d.bytes 8 8 - 2 ^ 63, leAt d.bytes 16 4, 0, none, false, false⟩] }

def execBltRun (ring : Nat) (s : State) : Host.Outcome State Fault Refusal := .next (s.opBltRun ring)

/-- BLT_LIST_START: the oldest waiting list goes to a free blitter, the west one if both are free (R311). -/
def State.bltListStart (s : State) : State :=
  match s.blt.queue with
  | [] => s
  | l :: ls =>
    if s.blt.west.isNone then (s.modBlt fun b => { b with queue := ls }).setBlt .west (some l)
    else if s.blt.east.isNone then (s.modBlt fun b => { b with queue := ls }).setBlt .east (some l)
    else s

def execBltListStart (s : State) : Host.Outcome State Fault Refusal :=
  .next (if s.pwr.st == .s0 then s.bltListStart else s)

/-! ## Commands -/

/-- A decoded command (Table 11-1). -/
structure BltCmd where
  op : Nat
  sfmt : Nat
  dfmt : Nat
  galpha : Nat
  raw : Bool
  sbase : Nat
  sstride : Nat
  dstride : Nat
  dbase : Nat
  sx : Nat
  sy : Nat
  dx : Nat
  dy : Nat
  w : Nat
  h : Nat
  color : Rgb
  colorA : Nat
  key : Nat
  mask : Nat
  deriving DecidableEq, Repr

/-- The fields of a command's 64 bytes. -/
def bltCmdOf (b : List Byte) : BltCmd :=
  let c := leAt b 44 4
  { op := byteAt b 0, sfmt := byteAt b 1, dfmt := byteAt b 2, galpha := byteAt b 3, raw := bitAt (byteAt b 4) 0
    sbase := leAt b 8 8, sstride := leAt b 16 4, dstride := leAt b 20 4, dbase := leAt b 24 8
    sx := leAt b 32 2, sy := leAt b 34 2, dx := leAt b 36 2, dy := leAt b 38 2, w := leAt b 40 2, h := leAt b 42 2
    color := ⟨bits c 20 10, bits c 10 10, bits c 0 10⟩, colorA := byteAt b 48, key := leAt b 52 4, mask := leAt b 56 4 }

/-- Bytes per pixel (Table 11-2). -/
def bltBpp (f : Nat) : Nat := [2, 3, 4, 4, 1].getD f 1

/-- The source is read by every operation but FILL (R315). -/
def BltCmd.usesSrc (c : BltCmd) : Bool := c.op != 2

/-- The destination is read by BLEND; CKEY's is checked for reading too (Table 11-3). -/
def BltCmd.readsDst (c : BltCmd) : Bool := c.op == 3 || c.op == 4

/-- BLT_BAD_CMD's check passes (Table 11-3); a used BASE has bits 63:36 zero. -/
def BltCmd.cmdOk (c : BltCmd) (b : List Byte) : Bool :=
  decide (1 ≤ c.op) && decide (c.op ≤ 4) && decide (c.sfmt ≤ 4) && decide (c.dfmt ≤ 4) && decide (byteAt b 4 < 2) &&
    decide (leAt b 5 3 = 0) && decide (leAt b 44 4 < 2 ^ 30) && decide (leAt b 49 3 = 0) && decide (leAt b 60 4 = 0) &&
    decide (c.dbase < 2 ^ 36) && (!c.usesSrc || decide (c.sbase < 2 ^ 36)) && (!c.raw || c.op == 2)

/-- A rectangle's base and stride suit its format (Table 11-3). -/
def rectSide (fmt base stride x w : Nat) : Bool :=
  decide ((x + w) * bltBpp fmt ≤ stride) &&
    (!(bltBpp fmt == 2 || bltBpp fmt == 4) || (base % bltBpp fmt == 0 && stride % bltBpp fmt == 0))

/-- BLT_BAD_RECT's check passes (Table 11-3). -/
def BltCmd.rectIsOk (c : BltCmd) : Bool :=
  decide (1 ≤ c.w) && decide (c.w ≤ 8192) && decide (1 ≤ c.h) && decide (c.h ≤ 8192) &&
    rectSide c.dfmt c.dbase c.dstride c.dx c.w && (!c.usesSrc || rectSide c.sfmt c.sbase c.sstride c.sx c.w)

/-- The extent of a rectangle: first byte and length. -/
def extentOf (fmt base stride x y w h : Nat) : Nat × Nat :=
  (base + y * stride + x * bltBpp fmt, (h - 1) * stride + w * bltBpp fmt)

/-- A command's extents. -/
def BltCmd.dstExtent (c : BltCmd) : Nat × Nat := extentOf c.dfmt c.dbase c.dstride c.dx c.dy c.w c.h
def BltCmd.srcExtent (c : BltCmd) : Nat × Nat :=
  if c.usesSrc then extentOf c.sfmt c.sbase c.sstride c.sx c.sy c.w c.h else (0, 0)

/-- Two extents share a byte. -/
def extentsMeet (a b : Nat × Nat) : Bool :=
  decide (a.1 < b.1 + b.2) && decide (b.1 < a.1 + a.2) && decide (0 < a.2) && decide (0 < b.2)

/-- Two commands conflict (R317). -/
def conflict (a b : BltCmd) : Bool :=
  extentsMeet a.dstExtent b.dstExtent || extentsMeet a.dstExtent b.srcExtent || extentsMeet b.dstExtent a.srcExtent

/-- BLT_WINDOW's check passes (Table 11-3). -/
def State.bltWindowOk (s : State) (c : BltCmd) : Bool :=
  (!c.usesSrc || s.rangeOk .blt false c.srcExtent.1 c.srcExtent.2) &&
    (!c.readsDst || s.rangeOk .blt false c.dstExtent.1 c.dstExtent.2) && s.rangeOk .blt true c.dstExtent.1 c.dstExtent.2

/-- End a list with a status (R312, R320, R321). -/
def State.endList (s : State) (d : Die) (l : BltList) (status : Nat) (evs : List Nat) : State :=
  (s.complete l.ring l.idx status l.fin (if l.poison then CFlag.POISON else 0) evs).setBlt d none

/-- BLT_COMMAND_START: the next command is read, fails where it reads as poison (Table 12-2), is checked, waits for a conflicting command of the other blitter, or starts
(R317, R320). -/
def State.bltStart (s : State) (d : Die) : State :=
  match s.blt.on d with
  | none => s
  | some l =>
    if l.cmd.isSome then s
    else
      let a := l.addr + 64 * l.fin
      let bs := s.peekFor .blt a 64
      let b := bs.map MByte.val
      let c := bltCmdOf b
      let s := s.readFor .blt .blt a 64
      let fail := fun (code : Nat) => s.endList d l code [Ev.BLT_FAILED]
      if bs.any MByte.poison then
        (if l.poison then s else s.raise Ev.BLT_POISON).endList d { l with poison := true } 0x60 [Ev.BLT_FAILED]
      else if !c.cmdOk b then fail 0x60
      else if !c.rectIsOk then fail 0x61
      else
        let held := match s.blt.on (otherDie d) with
          | some m => match m.cmd with | some x => conflict c (bltCmdOf x) | none => false
          | none => false
        if held then
          (if l.waiting then s else (s.bump (F.BLT_CNT_COUNT 1)).setBlt d (some { l with waiting := true }))
        else if !s.bltWindowOk c then fail 0x62
        else s.setBlt d (some { l with waiting := false, cmd := some b })

/-! ## Pixels -/

/-- A source pixel widened (R314). -/
def bltWiden (c : BltCmd) (fmt w : Nat) (poison : Bool) : Pix :=
  if fmt = 4 then ⟨c.color, w % 256, poison⟩ else pixelOf fmt false w poison

/-- An n-bit component narrowed (R314). -/
def narrowC (n c : Nat) : Nat := min (2 ^ n - 1) ((c + 2 ^ (9 - n)) / 2 ^ (10 - n))

/-- A pixel narrowed to a format's word (R314). -/
def bltNarrow (fmt : Nat) (p : Pix) : Nat :=
  match fmt with
  | 0 => narrowC 5 p.c.r * 2 ^ 11 + narrowC 6 p.c.g * 2 ^ 5 + narrowC 5 p.c.b
  | 1 => narrowC 8 p.c.r * 2 ^ 16 + narrowC 8 p.c.g * 2 ^ 8 + narrowC 8 p.c.b
  | 2 => p.a * 2 ^ 24 + narrowC 8 p.c.r * 2 ^ 16 + narrowC 8 p.c.g * 2 ^ 8 + narrowC 8 p.c.b
  | 3 => (p.a + 42) / 85 * 2 ^ 30 + p.c.r * 2 ^ 20 + p.c.g * 2 ^ 10 + p.c.b
  | _ => p.a

/-- BLEND of two widened pixels (R315). -/
def bltBlend (galpha : Nat) (src dst : Pix) : Pix :=
  let a := (src.a * galpha + 127) / 255
  ⟨⟨blendOver a src.c.r dst.c.r, blendOver a src.c.g dst.c.g, blendOver a src.c.b dst.c.b⟩, a + (dst.a * (255 - a) + 127) / 255,
    src.poison || dst.poison⟩

/-- What a command writes to a pixel, from its source word and its destination word (R315): none leaves the pixel. -/
def BltCmd.value (c : BltCmd) (src dst : Nat) : Option Nat :=
  let copy := if c.sfmt = c.dfmt then src else bltNarrow c.dfmt (bltWiden c c.sfmt src false)
  match c.op with
  | 1 => some copy
  | 2 => some (if c.raw then c.key % 2 ^ (8 * bltBpp c.dfmt) else bltNarrow c.dfmt ⟨c.color, c.colorA, false⟩)
  | 3 => some (bltNarrow c.dfmt (bltBlend c.galpha (bltWiden c c.sfmt src false) (bltWiden c c.dfmt dst false)))
  | _ => if src &&& c.mask = c.key &&& c.mask then none else some copy

/-- The pixels of a rectangle in the order of R316, as (column, row). -/
def BltCmd.order (c : BltCmd) : List (Nat × Nat) :=
  let rows := if c.sy < c.dy then (List.range c.h).reverse else List.range c.h
  let cols := if c.dy = c.sy ∧ c.sx < c.dx then (List.range c.w).reverse else List.range c.w
  rows.flatMap fun j => cols.map fun i => (i, j)

/-- Addresses of a pixel in the source and in the destination rectangle. -/
def BltCmd.srcAt (c : BltCmd) (i j : Nat) : Nat := c.sbase + (c.sy + j) * c.sstride + (c.sx + i) * bltBpp c.sfmt
def BltCmd.dstAt (c : BltCmd) (i j : Nat) : Nat := c.dbase + (c.dy + j) * c.dstride + (c.dx + i) * bltBpp c.dfmt

/-- A blitter in the midst of a command: the memory, the pixels written as 0 for poison, and the burst of written bytes not yet
issued (R319; log entry 1109). -/
structure BltRun where
  s : State
  zeroed : Nat
  at_ : Nat
  run : List Byte
  deriving DecidableEq, Repr

/-- The write burst goes out. -/
def BltRun.flush (r : BltRun) : BltRun :=
  if r.run.isEmpty then r else { r with s := r.s.writeFor .blt .blt r.at_ r.run, run := [] }

/-- A written byte joins the burst where it continues it within 256 aligned bytes, else it begins the next one (R319). -/
def BltRun.push (r : BltRun) (a : Nat) (b : Byte) : BltRun :=
  if r.run.isEmpty then { r with at_ := a, run := [b] }
  else if a = r.at_ + r.run.length ∧ a / 256 = r.at_ / 256 then { r with run := r.run ++ [b] }
  else if a + 1 = r.at_ ∧ a / 256 = r.at_ / 256 then { r with at_ := a, run := b :: r.run }
  else { r.flush with at_ := a, run := [b] }

/-- The bytes of a pixel join the burst, from the side on which it stands. -/
def BltRun.put (r : BltRun) (a : Nat) (bs : List Byte) : BltRun :=
  let l := bs.zipIdx.map fun b => (a + b.2, b.1)
  (if a + bs.length = r.at_ then l.reverse else l).foldl (fun r x => r.push x.1 x.2) r

/-- The read bursts a pixel needs that the pixel before it in its row did not: each is what its row has of 256 aligned bytes. -/
def BltRun.fetch (r : BltRun) (row len : Nat) (before : Option Nat) (a n : Nat) : BltRun :=
  let blocks := fun (x : Nat) => upFrom (x / 256) ((x + n - 1) / 256 - x / 256 + 1)
  let fresh := (blocks a).filter fun b => !(before.any fun x => (blocks x).contains b)
  { r with s := fresh.foldl (fun s b =>
      let lo := max row (256 * b)
      s.readFor .blt .blt lo (min (row + len) (256 * b + 256) - lo)) r.s }

/-- Read `n` bytes of a pixel, after every write that comes before it. -/
def BltRun.read (r : BltRun) (row len : Nat) (before : Option Nat) (a n : Nat) : BltRun × List MByte :=
  let r := if a < r.at_ + r.run.length ∧ r.at_ < a + n then r.flush else r
  (r.fetch row len before a n, r.s.peekFor .blt a n)

/-- Process one pixel (R315, R321), after the pixel of column `before` of its row. -/
def BltRun.pixel (r : BltRun) (c : BltCmd) (before : Option Nat) (i j : Nat) : BltRun :=
  let ns := bltBpp c.sfmt
  let nd := bltBpp c.dfmt
  let x := if c.usesSrc then r.read (c.srcAt 0 j) (c.w * ns) (before.map fun b => c.srcAt b j) (c.srcAt i j) ns else (r, [])
  let y := if c.op = 3 then x.1.read (c.dstAt 0 j) (c.w * nd) (before.map fun b => c.dstAt b j) (c.dstAt i j) nd else (x.1, [])
  if x.2.any MByte.poison || y.2.any MByte.poison then { y.1.put (c.dstAt i j) (leBytes 0 nd) with zeroed := r.zeroed + 1 }
  else
    match c.value (leAt (x.2.map MByte.val) 0 ns) (leAt (y.2.map MByte.val) 0 nd) with
    | some v => y.1.put (c.dstAt i j) (leBytes v nd)
    | none => y.1

/-- Process pixels in order, counting those written as 0 for poison. -/
def State.bltPixels (s : State) (c : BltCmd) (px : List (Nat × Nat)) : State × Nat :=
  let r := (px.zip (none :: px.map some)).foldl (fun (r : BltRun) p =>
    r.pixel c ((p.2.filter fun q => q.2 == p.1.2).map Prod.fst) p.1.1 p.1.2) ⟨s, 0, 0, []⟩
  (r.flush.s, r.zeroed)

/-- Carry out the given pixels of a list's command in progress, with the counts and events of R321. -/
def State.bltWork (s : State) (l : BltList) (n : Nat) : State × BltList :=
  match l.cmd with
  | none => (s, l)
  | some b =>
    let r := s.bltPixels (bltCmdOf b) ((bltCmdOf b).order.take n)
    if r.2 = 0 then (r.1, l)
    else
      let t := r.1.bump (F.BLT_CNT_COUNT 2) r.2
      (if l.poison then t else t.raise Ev.BLT_POISON, { l with poison := true })

/-- BLT_COMMAND_DONE: the command's writes are in memory (R312); after the last one the list ends. -/
def State.bltDone (s : State) (d : Die) : State :=
  match s.blt.on d with
  | none => s
  | some l =>
    match l.cmd with
    | none => s
    | some b =>
      let r := s.bltWork l ((bltCmdOf b).w * (bltCmdOf b).h)
      let m := { r.2 with fin := l.fin + 1, cmd := none }
      let s := r.1.bump (F.BLT_CNT_COUNT 0)
      if m.fin = l.count then s.endList d m Cpl.SUCCESS [] else s.setBlt d (some m)

/-- The blitters run, and their bursts are issued (Tables 5-4, 16-3). -/
def State.bltRuns (s : State) : Bool := s.pwr.st == .s0 && !s.yields

def execBltCommandStart (die : Die) (s : State) : Host.Outcome State Fault Refusal :=
  .next (if s.bltRuns then s.bltStart die else s)

def execBltCommandDone (die : Die) (s : State) : Host.Outcome State Fault Refusal :=
  .next (if s.bltRuns then s.bltDone die else s)

/-- A list belongs to a descriptor. -/
def BltList.of (l : BltList) (ring idx : Nat) : Bool := l.ring == ring && l.idx == idx

/-- At the abort point of a BLT_RUN its command in progress stops after some pixels, how many the rule leaves open (R322). -/
def State.bltHalt (s : State) (ring idx : Nat) : State :=
  [Die.west, Die.east].foldl (fun s d =>
    match s.blt.on d with
    | some l =>
      if l.of ring idx && l.cmd.isSome then
        let r := s.bltWork l (Config.freeNat s.freeCtr)
        (r.1.drawn 1).setBlt d (some { r.2 with cmd := none, waiting := false })
      else s
    | none => s) s

/-- The list of a BLT_RUN that has been given to a blitter. -/
def BltSt.listOf (b : BltSt) (ring idx : Nat) : Option BltList :=
  [b.west, b.east].findSome? fun l => l.filter fun x => x.of ring idx

/-- An aborted BLT_RUN leaves the blitters (R322). -/
def State.abortBlt (s : State) (ring idx : Nat) : State :=
  let s := (s.bltHalt ring idx).modBlt fun b => { b with queue := b.queue.filter fun l => !l.of ring idx }
  [Die.west, Die.east].foldl (fun s d => if (s.blt.on d).any fun l => l.of ring idx then s.setBlt d none else s) s

/-- BLT_CNT_CLEAR (Table 11-5). -/
def execBltCntClear (s : State) : Host.Outcome State Fault Refusal :=
  .next (if s.bar0Open then s.clearCounters 0x110040 3 else s)

end Sys2Proof.Machine
end

