-- ==== Sys2Proof/Machine/Cmp.lean ====
section
/-!
DEFINITION. The atomic commit and its checks, plane states, ready words and retire records (chapter 6, with the commit checks of
chapters 1, 5, 7 and 8).
-/
namespace Sys2Proof.Machine

/-- A field of a set of register words (a snapshot, the shadow or the state in force). -/
def fieldOf (w : Nat → Word) (f : Fld) : Nat := bits (w f.off).toNat f.lo f.len

/-- The geometry and timing a set of words gives. -/
structure Geo where
  cols : Nat
  rows : Nat
  gu : Nat
  gv : Nat
  anchors : Nat
  dh : Nat
  dv : Nat
  /-- t0 in ns, Pn, Pd, VB. -/
  t0 : Nat
  pn : Nat
  pd : Nat
  vb : Nat
  /-- Panel depth P; 0 for the reserved DEPTH 3. -/
  depth : Nat
  deriving DecidableEq, Repr

/-- The geometry of a set of words (R26, R27, R211, R239). -/
def geoOf (w : Nat → Word) : Geo :=
  { cols := fieldOf w F.SYN_GEOM_HOGEL_COLS, rows := fieldOf w F.SYN_GEOM_HOGEL_ROWS
    gu := fieldOf w F.SYN_VIEWGRID_GRID_U, gv := fieldOf w F.SYN_VIEWGRID_GRID_V
    anchors := fieldOf w F.SYN_VIEWGRID_ANCHORS
    dh := fieldOf w F.SYN_DISP_BOUND_DH, dv := fieldOf w F.SYN_DISP_BOUND_DV
    t0 := (fieldOf w F.SCN_EPOCH_SEC_LO_SEC_LO + 2 ^ 32 * fieldOf w F.SCN_EPOCH_SEC_HI_SEC_HI) * 1000000000 +
      fieldOf w F.SCN_EPOCH_NS_EPOCH_NS
    pn := fieldOf w F.SCN_PERIOD_NUM_PN, pd := fieldOf w F.SCN_PERIOD_DEN_PD
    vb := fieldOf w F.SCN_VBLANK_VB
    depth := [6, 8, 10, 0].getD (fieldOf w F.PNL_CFG_DEPTH) 0 }

/-- Lines per frame (R211). -/
def Geo.lt (g : Geo) : Nat := g.rows + g.vb
/-- Views. -/
def Geo.uv (g : Geo) : Nat := g.gu * g.gv
/-- t_k (R27). -/
def Geo.frameStart (g : Geo) (k : Nat) : Nat := g.t0 + k * g.pn / g.pd
/-- Start of line i of frame k (R211). -/
def Geo.lineStart (g : Geo) (k i : Nat) : Nat := g.t0 + (k * g.lt + i) * g.pn / (g.pd * g.lt)
/-- SYN_SWATH_NEED (R22). -/
def Geo.swathNeed (g : Geo) : Nat := g.anchors * (8 + 2 * g.dv) * (g.cols + 4 * g.dh) * 3
/-- Ports each die uses (R232). -/
def Geo.ports (g : Geo) : Nat := ceilDiv g.cols 512
/-- CAP_ROWS (R165). -/
def Geo.capRows (g : Geo) : Nat := min 255 (4718592 / (g.cols / 2 * g.uv))

/-- The settings of plane n in a set of words (R183, Table 6-6). -/
def planeOf (w : Nat → Word) (n : Nat) : Plane :=
  { num := n
    enable := fieldOf w (F.CMP_L_CTRL_ENABLE (n - 1)) == 1, format := fieldOf w (F.CMP_L_CTRL_FORMAT (n - 1))
    forceOpaque := fieldOf w (F.CMP_L_CTRL_FORCE_OPAQUE (n - 1)) == 1, cull := fieldOf w (F.CMP_L_CTRL_CULL (n - 1)) == 1
    wait := fieldOf w (F.CMP_L_CTRL_WAIT (n - 1)) == 1
    addr := fieldOf w (F.CMP_L_ADDR_LO_ADDR_LO (n - 1)) * 64 + fieldOf w (F.CMP_L_ADDR_HI_ADDR_HI (n - 1)) * 2 ^ 32
    stride := fieldOf w (F.CMP_L_STRIDE_STRIDE (n - 1))
    sw := fieldOf w (F.CMP_L_SRC_SIZE_WIDTH (n - 1)), sh := fieldOf w (F.CMP_L_SRC_SIZE_HEIGHT (n - 1))
    dw := fieldOf w (F.CMP_L_DST_SIZE_WIDTH (n - 1)), dh := fieldOf w (F.CMP_L_DST_SIZE_HEIGHT (n - 1))
    px := sext 14 (fieldOf w (F.CMP_L_POS_PX (n - 1))), py := sext 14 (fieldOf w (F.CMP_L_POS_PY (n - 1)))
    pd := sext 13 (fieldOf w (F.CMP_L_DISP_PD (n - 1)))
    readyAddr := fieldOf w (F.CMP_L_READY_LO_ADDR_LO (n - 1)) * 4 + fieldOf w (F.CMP_L_READY_HI_ADDR_HI (n - 1)) * 2 ^ 32
    readyVal := fieldOf w (F.CMP_L_READY_VAL_VALUE (n - 1)) }

/-- The enabled planes among overlay slots 1 to PLANES (R181). -/
def planesOf (w : Nat → Word) : List Plane :=
  ((upFrom 1 (fieldOf w F.CMP_CTRL_PLANES)).map (planeOf w)).filter Plane.enable

/-- Source lines a destination row needs (R194). -/
def Plane.lines (p : Plane) : Nat := if p.sh = p.dh then 1 else if p.sh < p.dh then 2 else ceilDiv p.sh p.dh + 1

/-- The fetch load F of a plane (R196). -/
def Plane.fetchLoad (p : Plane) (gv : Nat) : Nat :=
  min gv ((planeShift p.pd (gv - 1) gv - planeShift p.pd 0 gv).natAbs + 1) * p.lines * p.sw * bpp p.format

/-- The rectangle of a picture check and its view lie inside the frame (Table 7-1). -/
def rectOk (g : Geo) (u v x y w h : Nat) : Bool :=
  decide (u < g.gu) && decide (v < g.gv) && decide (0 < w) && decide (0 < h) && decide (x + w ≤ g.cols) && decide (y + h ≤ g.rows)

/-- The freeze detector's settings pass Table 7-1. -/
def freezeOk (w : Nat → Word) (g : Geo) : Bool :=
  fieldOf w F.SCN_FRZ_CTRL_EN == 0 ||
    (decide (2 ≤ fieldOf w F.SCN_FRZ_CTRL_N) &&
      (if fieldOf w F.SCN_FRZ_CTRL_WHOLE = 1 then
        decide (fieldOf w F.SCN_FRZ_CTRL_U_SEL < g.gu) && decide (fieldOf w F.SCN_FRZ_CTRL_V_SEL < g.gv)
      else rectOk g (fieldOf w F.SCN_FRZ_CTRL_U_SEL) (fieldOf w F.SCN_FRZ_CTRL_V_SEL) (fieldOf w F.SCN_FRZ_ORIGIN_X)
        (fieldOf w F.SCN_FRZ_ORIGIN_Y) (fieldOf w F.SCN_FRZ_SIZE_X) (fieldOf w F.SCN_FRZ_SIZE_Y)))

/-- Cyclic rectangle n passes Table 7-1, or is not enabled. -/
def chkRectOk (w : Nat → Word) (g : Geo) (n : Nat) : Bool :=
  !bitAt (fieldOf w F.SCN_CHK_MODE_EN) n ||
    rectOk g (fieldOf w (F.SCN_CHK_VIEW_U_SEL n)) (fieldOf w (F.SCN_CHK_VIEW_V_SEL n)) (fieldOf w (F.SCN_CHK_ORIGIN_X n))
      (fieldOf w (F.SCN_CHK_ORIGIN_Y n)) (fieldOf w (F.SCN_CHK_SIZE_X n)) (fieldOf w (F.SCN_CHK_SIZE_Y n))

/-- Table 7-1 (R215). -/
def scanOk (w : Nat → Word) (g : Geo) : Bool :=
  decide (8 ≤ g.vb) && decide (64000 * g.pd * g.lt ≤ g.vb * g.pn) && decide (g.cols / 2 * g.uv * g.pd * g.lt ≤ 80 * g.pn) &&
    decide (fieldOf w F.SCN_EPOCH_NS_EPOCH_NS ≤ 999999999) && freezeOk w g && (List.range 8).all (chkRectOk w g)

/-- Table 8-8 (R257). -/
def panelOk (w : Nat → Word) : Bool :=
  decide (fieldOf w F.PNL_CFG_DEPTH ≤ 2) && !(fieldOf w F.PNL_CFG_TYPE == 1 && fieldOf w F.PNL_CFG_INV_MODE != 0) &&
    (fieldOf w F.PNL_DCB_CFG_EN == 0 ||
      (decide (1 ≤ fieldOf w F.PNL_DCB_CFG_WIN) && decide (1 ≤ fieldOf w F.PNL_DCB_CFG_LIMIT)))

/-- The ray-rate limit in rays per second (R24). -/
def State.rayLimit (s : State) : Nat := if s.airCooled then 76441190400 else 152882380800

/-- R24 with R3: on a JK960-AF full geometry runs at 60 Hz at most. -/
def State.rayRateOk (s : State) (g : Geo) : Bool :=
  decide (g.cols * g.rows * g.uv * (g.pd * 1000000000) ≤ s.rayLimit * g.pn) &&
    !(s.airCooled && g.cols == 4096 && g.rows == 2160 && decide (60 * g.pn < g.pd * 1000000000))

/-- A plane's checks 0x0049 to 0x004D pass, in code order (Table 6-2). -/
def State.planeChecks (s : State) (g : Geo) (p : Plane) : List Bool :=
  [decide (p.format ≤ 3) && decide (0 < p.sw) && decide (0 < p.sh) && decide (0 < p.dw) && decide (0 < p.dh) &&
     p.stride % 64 == 0 && decide (p.sw * bpp p.format ≤ p.stride),
   decide (p.sw ≤ 8192) && decide (p.lines + 1 ≤ 6),
   decide (p.sw ≤ 8 * p.dw),
   decide (p.fetchLoad g.gv ≤ 64 * (5 * g.pn / (4 * (g.pd * g.lt)))),
   s.rangeOk .cmp false p.addr (p.stride * (p.sh - 1) + p.sw * bpp p.format) &&
     (!p.wait || s.rangeOk .cmp false p.readyAddr 4)]

/-- Every check of Table 6-2, in code order from 0x0040. -/
def State.commitChecks (s : State) (w : Nat → Word) : List Bool :=
  let g := geoOf w
  let ps := planesOf w
  let plane := fun (i : Nat) => ps.all fun p => (s.planeChecks g p).getD i true
  [decide (g.cols % 256 = 0) && decide (512 ≤ g.cols) && decide (g.cols ≤ 4096) && decide (g.rows % 8 = 0) &&
     decide (8 ≤ g.rows) && decide (g.rows ≤ 2160),
   decide (1 ≤ g.gu) && decide (g.gu ≤ 144) && decide (1 ≤ g.gv) && decide (g.gv ≤ 24) && decide (g.uv ≤ 144),
   decide (1 ≤ g.anchors) && decide (g.anchors ≤ 36),
   decide (g.swathNeed ≤ 50331648),
   s.rayRateOk g,
   decide (0 < g.pd) && decide (g.pn * 24 ≤ g.pd * 1000000000) && decide (g.pd * 1000000000 ≤ g.pn * 240),
   g.depth == 0 || decide ((2 * g.depth * g.uv + 3) * 1023 * g.pd * g.lt ≤ 840 * g.pn),
   decide (fieldOf w F.SYN_WM_WM2 < fieldOf w F.SYN_WM_WM1) && decide (fieldOf w F.SYN_WM_WM3 < fieldOf w F.SYN_WM_WM2) &&
     decide (1 ≤ fieldOf w F.SYN_WM_WM3) && decide (fieldOf w F.SYN_WM_WM1 + fieldOf w F.SYN_WM_HYST ≤ 255) &&
     decide (1 ≤ fieldOf w F.SYN_CTRL_FETCH_N) && decide (fieldOf w F.SYN_CTRL_FETCH_N ≤ 4),
   decide (1 ≤ fieldOf w F.CMP_CTRL_PLANES),
   plane 0, plane 1, plane 2, plane 3, plane 4,
   scanOk w g,
   panelOk w]

/-- CMP_REJECT.FAILED: bit n for each failing check 0x0040 + n (R198). -/
def failedMask (cs : List Bool) : Nat := (cs.zipIdx.map fun p => if p.1 then 0 else 2 ^ p.2).sum

/-- The lowest failing code (R198). -/
def firstFailed (cs : List Bool) : Option Nat := (cs.zipIdx.find? fun p => !p.1).map fun p => 0x40 + p.2

/-- The lowest-numbered plane that fails one of the codes 0x0049 to 0x004D, 0 if none. -/
def State.failedPlane (s : State) (w : Nat → Word) : Nat :=
  match (planesOf w).find? fun p => !(s.planeChecks (geoOf w) p).all id with
  | some p => p.num
  | none => 0

/-- The SH registers of a store, as a snapshot takes them (R197). -/
def shOnly (regs : List (Nat × Word)) : List (Nat × Word) := regs.filter fun c => !(shFields c.1).isEmpty

/-- The words of a snapshot. -/
def snapWord (snap : List (Nat × Word)) (off : Nat) : Word := cellGet resetWord snap off

/-- Record a rejection (R198). -/
def State.recordReject (s : State) (w : Nat → Word) : State :=
  (s.wr F.CMP_REJECT_FAILED (failedMask (s.commitChecks w))).wr F.CMP_REJECT_PLANE (s.failedPlane w)

/-- COMMIT: take the snapshot and validate it as a whole; a failing one completes with the lowest code (R197, R198). -/
def State.opCommit (s : State) (ring : Nat) : State :=
  s.withOp ring 0x31 (fun _ d => [(d.restZero [], Cpl.BAD_FIELD)]) fun r d s =>
    let snap := shOnly s.regs
    match firstFailed (s.commitChecks (snapWord snap)) with
    | some code => (s.recordReject (snapWord snap)).complete r.num d.idx code 0 0 [Ev.CMP_COMMIT_REJECTED]
    | none => { s with cmp := { s.cmp with transit := some ⟨r.num, d.idx, snap, false, false, false⟩ } }

def execCommit (ring : Nat) (s : State) : Host.Outcome State Fault Refusal := .next (s.opCommit ring)

/-- The pending commit's status bits (CMP_STATUS). -/
def State.commitBits (s : State) : State :=
  (s.wrB F.CMP_STATUS_PENDING (!s.cmp.pend.isEmpty)).wrB F.CMP_STATUS_BOUND (s.cmp.pend.any Commit.bound)

/-- The geometry in force. -/
def State.geo (s : State) : Geo := geoOf s.liveWord

/-- Drop unbound pending commits; each completes SUPERSEDED (R200). -/
def State.supersede (s : State) : State :=
  (s.cmp.pend.filter fun c => !c.bound).foldl
    (fun s c => s.complete c.ring c.idx Cpl.SUPERSEDED 0 0 [Ev.CMP_COMMIT_SUPERSEDED])
    { s with cmp := { s.cmp with pend := s.cmp.pend.filter Commit.bound } }

/-- COMMIT_ARRIVE: the validated commit enters the latch logic (R220). Its target is the first frame that starts after it. -/
def State.commitArrive (s : State) : State :=
  match s.cmp.transit with
  | none => s
  | some c =>
    let s := s.supersede
    let c := { c with late := false, afterGuard := s.scn.guarded && !s.scn.decided }
    let s := { s with cmp := { s.cmp with transit := none, pend := s.cmp.pend ++ [c] } }
    let s := ((s.wr F.SCN_LAST_COMMIT_LINE s.scn.line).wrB F.SCN_LAST_COMMIT_AFTER_GUARD c.afterGuard).wrB
      F.SCN_LAST_COMMIT_LATE false
    (s.park c.ring c.idx).commitBits

def execCommitArrive (s : State) : Host.Outcome State Fault Refusal := .next s.commitArrive

/-- The register offsets of plane n's settings (Table 6-6). -/
def planeOffs (n : Nat) : List Nat := (List.range 11).map fun i => 0xC0100 + 0x40 * n + 4 * i

/-- The register offsets of cyclic rectangle n's settings. -/
def chkOffs (n : Nat) : List Nat := (List.range 4).map fun i => 0xD0100 + 0x20 * n + 4 * i

/-- A plane's words in a set of words. -/
def wordsAt (w : Nat → Word) (offs : List Nat) : List (Nat × Word) := offs.map fun o => (o, w o)

/-- Put words in force. -/
def State.setLives (s : State) (ws : List (Nat × Word)) : State := ws.foldl (fun s c => s.setLive c.1 c.2) s

/-- Whether a plane state's buffer is ready (R202): always while WAIT is 0, else when its ready word is VAL or later; poison is
not. -/
def State.planeReady (s : State) (p : Plane) : Bool :=
  !p.wait ||
    (let bs := s.peekFor .cmp p.readyAddr 4
     !(bs.any MByte.poison) && decide (0 ≤ serialDist 32 (leAt (bs.map MByte.val) 0 4) p.readyVal))

/-- Once-per-frame composition events (Table 6-4): whether the event may still be raised in this frame, marking it. -/
def State.cmpOnce (s : State) (e : Nat) : State :=
  if s.cmp.seen.contains e then s else { s with cmp := { s.cmp with seen := e :: s.cmp.seen } }.raise e

/-- The effects of reading a plane's ready word (R202, R209). -/
def State.readReady (s : State) (p : Plane) : State :=
  if p.wait then
    let s' := s.readFor .scan .cmp p.readyAddr 4
    if s.rangeOk .cmp false p.readyAddr 4 then s' else s'.cmpOnce Ev.CMP_WINDOW
  else s

/-- The bytes of a retire record (Table 6-3). -/
def retireBytes (frame plane phase : Nat) (disabled never : Bool) (addr : Nat) : List Byte :=
  leBytes frame 4 ++ leBytes plane 1 ++ leBytes (phase + 2 * b2n disabled + 4 * b2n never) 1 ++ leBytes 0 2 ++ leBytes addr 8

/-- Write a retire record, or lose it when the ring is full; none while EN is 0 (R205 to R207). A consumer index ahead of the
device's own counts as the unsigned distance, so the ring reads as full (log entry 222). -/
def State.retire (s : State) (frame plane : Nat) (disabled never : Bool) (addr : Nat) : State :=
  if !s.rdB F.CMP_RETIRE_CFG_EN then s
  else
    let size := 2 ^ s.cmp.retLog2
    if (s.cmp.retIdx + 2 ^ 32 - s.rd F.CMP_RETIRE_CI_INDEX) % 2 ^ 32 < size then
      { s.emit (.hostWrite (s.cmp.retBase + 16 * (s.cmp.retIdx % size))
          (retireBytes frame plane (phaseBit s.cmp.retIdx size) disabled never addr) false) with
        cmp := { s.cmp with retIdx := (s.cmp.retIdx + 1) % 2 ^ 32 } }
    else ((s.wrB F.CMP_STATUS_RETIRE_OVF true).bump (F.CMP_CNT_COUNT 1)).raise Ev.CMP_RETIRE_LOST

/-- RETIRE_ENABLE: CMP_RETIRE_CFG takes a value; EN going from 0 to 1 takes the base and size and restarts the index (R206). A
size written while EN stays 1 waits for the next such rise (log entry 601). -/
def State.writeRetireCfg (s : State) (en : Bool) (log2 : Nat) : State :=
  let old := s.rdB F.CMP_RETIRE_CFG_EN
  let s := (s.wrB F.CMP_RETIRE_CFG_EN en).wr F.CMP_RETIRE_CFG_LOG2_SIZE log2
  if en && !old then
    { s with cmp := { s.cmp with
        retIdx := 0
        retBase := s.rd F.CMP_RETIRE_BASE_LO_ADDR_LO * 2 ^ 12 + s.rd F.CMP_RETIRE_BASE_HI_ADDR_HI * 2 ^ 32
        retLog2 := if 6 ≤ log2 % 16 ∧ log2 % 16 ≤ 12 then log2 % 16 else 6 } }
  else s

def execRetireEnable (log2 : Nat) (s : State) : Host.Outcome State Fault Refusal :=
  .next (if s.bar0Open then s.writeRetireCfg true log2 else s)

/-- CMP_CNT_CLEAR (Table 6-5). -/
def execCmpCntClear (s : State) : Host.Outcome State Fault Refusal :=
  .next (if s.bar0Open then s.clearCounters 0xC0020 3 else s)

/-- A source line of a plane in force, from the line buffer of the die's fetcher or, when it was not fetched ahead, from memory
(R182, R183). -/
def State.planeLine (s : State) (d : Die) (p : Plane) (j : Nat) : List MByte :=
  match s.cmp.lines.find? fun l => l.die == d && l.plane == p.num && l.j == j with
  | some l => l.bytes
  | none => s.peekFor .cmp (p.addr + j * p.stride) (p.sw * bpp p.format)

/-- The effects of a plane read (R209, R332): windows and poison. -/
def State.readPlane (s : State) (p : Plane) (j : Nat) : State :=
  let s' := s.readFor .scan .cmp (p.addr + j * p.stride) (p.sw * bpp p.format)
  if s.rangeOk .cmp false (p.addr + j * p.stride) (p.sw * bpp p.format) then s' else s'.cmpOnce Ev.CMP_WINDOW

/-- PLANE_FETCH: the fetcher of a die for plane n reads source line j into its line buffer of 6 lines (R182, R183, R194). -/
def State.fetchLine (s : State) (d : Die) (n j : Nat) : State :=
  let p := planeOf s.liveWord n
  if 1 ≤ n ∧ n ≤ s.lv F.CMP_CTRL_PLANES ∧ p.enable = true ∧ j < p.sh then
    let l : PlaneLine := ⟨d, n, j, s.peekFor .cmp (p.addr + j * p.stride) (p.sw * bpp p.format)⟩
    let own := fun (x : PlaneLine) => x.die == d && x.plane == n
    let old := s.cmp.lines.filter fun x => !(own x && x.j == j)
    let mine := (old.filter own).take 5
    let s := s.readPlane p j
    { s with cmp := { s.cmp with lines := l :: mine ++ old.filter fun x => !own x } }
  else s

def execPlaneFetch (fetcher : Fetcher) (j : Nat) (s : State) : Host.Outcome State Fault Refusal :=
  .next (if s.pwr.st == .s0 && s.syn.frame.isSome then s.fetchLine fetcher.die fetcher.plane j else s)

/-- A source pixel of a plane, from its line's bytes. -/
def pixelAt (p : Plane) (line : List MByte) (i : Nat) : Pix :=
  let bs := (line.drop (i * bpp p.format)).take (bpp p.format)
  pixelOf p.format p.forceOpaque (leAt (bs.map MByte.val) 0 (bpp p.format)) (bs.any MByte.poison)

end Sys2Proof.Machine
end

