-- ==== Sys2Proof/Machine/LinkCode.lean ====
section
/-!
DEFINITION. The coding of a serial lane on plain values (chapter 9): Gray mapping, precoding, the scrambler, the check block's
RS(248,240) code, PRBS31 and the transmit equaliser's permitted set.
-/
namespace Sys2Proof.Machine

/-- Symbol index of a bit pair (Table 9-2). -/
def grayIndex (a b : Bool) : Nat := if a then (if b then 2 else 3) else (if b then 1 else 0)

/-- The bit pair of a symbol index. -/
def grayBits (g : Nat) : List Bool :=
  if g % 4 = 0 then [false, false] else if g % 4 = 1 then [false, true] else if g % 4 = 2 then [true, true] else [true, false]

/-- The transmitter's precoder: p_n = (g_n - p_(n-1)) mod 4 (R261). -/
def precode (last : Nat) : List Nat → List Nat
  | [] => []
  | g :: gs => let p := (g + 4 - last % 4) % 4; p :: precode p gs

/-- The receiver's inverse: g_n = (p_n + p_(n-1)) mod 4 (R261); without precoding the index itself. -/
def unprecode (on : Bool) (last : Nat) : List Nat → List Nat
  | [] => []
  | p :: ps => (if on then (p + last) % 4 else p % 4) :: unprecode on p ps

/-- Received bits of a run of symbols. -/
def rxBits (pre : Bool) (last : Nat) (syms : List Nat) : List Bool := (unprecode pre last syms).flatMap grayBits

/-- The bits of bytes, most significant first (R267). -/
def byteBits (bs : List Byte) : List Bool := bs.flatMap fun b => msbBits 8 b.toNat

/-- Eight bytes from 64 bits, most significant first. -/
def bitsBytes (l : List Bool) : List Byte :=
  (List.range 8).map fun i => BitVec.ofNat 8 (fromMsb ((l.drop (8 * i)).take 8))

/-- One descrambled bit and the new history (R269). -/
def descrambleBit (hist : Nat) (b : Bool) : Bool × Nat :=
  (xor b (xor (bitAt hist 38) (bitAt hist 57)), (2 * hist + b2n b) % 2 ^ 58)

/-- Descramble a run of received bits. -/
def descramble : Nat → List Bool → List Bool × Nat
  | h, [] => ([], h)
  | h, b :: bs =>
    let d := descrambleBit h b
    let r := descramble d.2 bs
    (d.1 :: r.1, r.2)

/-- Scramble a run of bits: out_n = in_n + out_(n-39) + out_(n-58) (R269). -/
def scramble : Nat → List Bool → List Bool × Nat
  | h, [] => ([], h)
  | h, b :: bs =>
    let o := xor b (xor (bitAt h 38) (bitAt h 57))
    let r := scramble ((2 * h + b2n o) % 2 ^ 58) bs
    (o :: r.1, r.2)

/-- Product of two polynomials over the field, lowest coefficient first. -/
def gfPolyMul : List Nat → List Nat → List Nat
  | [], _ => []
  | a :: as, b =>
    let r := 0 :: gfPolyMul as b
    (List.range (max b.length r.length)).map fun i => gfMul a (b.getD i 0) ^^^ r.getD i 0

/-- g(x) of R270, lowest coefficient first. -/
def laneGen : List Nat := (List.range 8).foldl (fun g i => gfPolyMul g [gfExp i, 1]) [1]

/-- One step of the division by g(x): the 8 remainder bytes, highest coefficient first. -/
def laneShift (r : List Nat) (m : Nat) : List Nat :=
  let fb := r.headD 0 ^^^ m
  (List.range 8).map fun i => r.getD (i + 1) 0 ^^^ gfMul fb (laneGen.getD (7 - i) 0)

/-- Parity bytes P0 to P7 of a message (R270). -/
def laneParity (m : List Nat) : List Nat := m.foldl laneShift (List.replicate 8 0)

/-- The eight syndromes of a received word. -/
def laneSyndromes (w : List Nat) : List Nat := (List.range 8).map fun j => gfEval (gfExp j) w

/-- a^(2^k - 2) chains: the inverse is a^254. -/
def gfPow (a : Nat) : Nat → Nat
  | 0 => 1
  | n + 1 => gfMul a (gfPow a n)

/-- The inverse of a non-zero field element. -/
def gfInv (a : Nat) : Nat := gfPow a 254

/-- State of the search for the error locator: C, B, L, m, b. -/
structure Bm where
  c : List Nat
  b : List Nat
  len : Nat
  m : Nat
  disc : Nat

/-- Add x^m times k times B to C. -/
def bmAdd (c b : List Nat) (k m : Nat) : List Nat :=
  (List.range (max c.length (b.length + m))).map fun i =>
    c.getD i 0 ^^^ (if m ≤ i then gfMul k (b.getD (i - m) 0) else 0)

/-- One step of Berlekamp and Massey's search. -/
def bmStep (syn : List Nat) (s : Bm) (n : Nat) : Bm :=
  let d := (List.range (s.len + 1)).foldl (fun acc i => acc ^^^ gfMul (s.c.getD i 0) (syn.getD (n - i) 0)) 0
  if d = 0 then { s with m := s.m + 1 }
  else
    let c := bmAdd s.c s.b (gfMul d (gfInv s.disc)) s.m
    if 2 * s.len ≤ n then ⟨c, s.c, n + 1 - s.len, 1, d⟩ else { s with c := c, m := s.m + 1 }

/-- The error locator of a syndrome. -/
def laneLocator (syn : List Nat) : Bm := (List.range 8).foldl (bmStep syn) ⟨[1], [1], 0, 1, 1⟩

/-- Evaluate a polynomial listed lowest coefficient first. -/
def gfEvalLow (x : Nat) (cs : List Nat) : Nat := gfEval x cs.reverse

/-- The error at the symbol with weight X = α^p, by Forney's formula. -/
def laneErrorAt (syn loc : List Nat) (x : Nat) : Nat :=
  let xi := gfInv x
  let omega := (gfPolyMul syn loc).take 8
  let deriv := (List.range loc.length).map fun i => if i % 2 = 0 then loc.getD (i + 1) 0 else 0
  gfMul x (gfMul (gfEvalLow xi omega) (gfInv (gfEvalLow xi deriv)))

/-- Decode the 248 received bytes of a codeword: the corrected bytes and how many were wrong, or none when more than 4 are, or
the word is inconsistent (R271). -/
def laneDecode (w : List Nat) : Option (List Nat × Nat) :=
  let syn := laneSyndromes w
  if syn.all (· == 0) then some (w, 0)
  else
    let s := laneLocator syn
    let loc := s.c.take (s.len + 1)
    let ps := (List.range w.length).filter fun i => gfEvalLow (gfInv (gfExp (w.length - 1 - i))) loc == 0
    if 4 < s.len ∨ ps.length ≠ s.len then none
    else
      let fixed := ps.foldl (fun l i => l.modify i (· ^^^ laneErrorAt syn loc (gfExp (w.length - 1 - i)))) w
      if (laneSyndromes fixed).all (· == 0) then some (fixed, ps.length) else none

/-- The next bit of PRBS31 (R278) after a history whose bit 0 is the newest. -/
def prbsNext (h : Nat) : Bool := xor (bitAt h 30) (bitAt h 27)

/-! ## What a transmit lane sends -/

/-- Symbol indexes of a run of bits, two bits each (R260). -/
def grayIndexes : List Bool → List Nat
  | a :: b :: l => grayIndex a b :: grayIndexes l
  | _ => []

/-- Send bits: precoded while precoding is in force (R261). -/
def TxLane.put (t : TxLane) (bs : List Bool) : TxLane :=
  let g := grayIndexes bs
  let p := if t.pre then precode t.lastP g else g
  { t with lastP := p.getLast?.getD t.lastP, count := t.count + p.length, sent := p.reverse ++ t.sent }

/-- The check block of a full codeword; a change of precoding takes effect with the codeword after it (R261, R270). -/
def TxLane.check (t : TxLane) : TxLane :=
  let t := t.put (msbBits 2 0 ++ byteBits ((laneParity t.cw).map (BitVec.ofNat 8)))
  { t with cw := [], pre := t.preNext.getD t.pre, preNext := none }

/-- Send one 66-bit block: its sync header and its scrambled payload; after 30 of them the check block follows (R267, R269, R270). -/
def TxLane.block (t : TxLane) (header : Nat) (bytes : List Byte) : TxLane :=
  let r := scramble t.hist (byteBits bytes)
  let t := { t with hist := r.2, cw := t.cw ++ (bitsBytes r.1).map BitVec.toNat }.put (msbBits 2 header ++ r.1)
  if t.cw.length < 240 then t else t.check

/-- Sync headers (Table 9-5). -/
def headerData : Nat := 1
def headerControl : Nat := 2

/-- The IDLE block (Table 9-6). -/
def idleBlock : List Byte := leBytes 0x1E 1 ++ leBytes 0 7

/-- Symbols due at a raw time: 28 or 7 a nanosecond (R275). -/
def TxLane.due (t : TxLane) (raw : Nat) (quarter : Bool) : Nat := (raw - t.since) * (if quarter then 7 else 28)

/-- Idle blocks until the symbols due are sent: at most `fuel` of them. -/
def TxLane.idles (t : TxLane) (due : Nat) : Nat → TxLane
  | 0 => t
  | fuel + 1 => if t.count + 33 ≤ due then (t.block headerControl idleBlock).idles due fuel else t

/-- Symbols of the PRBS31 sequence, unframed and without precoding (R278). -/
def TxLane.prbsOut (t : TxLane) : Nat → TxLane
  | 0 => t
  | n + 1 =>
    let a := prbsNext t.prbs
    let h := (2 * t.prbs + b2n a) % 2 ^ 31
    let b := prbsNext h
    { t with prbs := (2 * h + b2n b) % 2 ^ 31, count := t.count + 1, sent := grayIndex a b :: t.sent }.prbsOut n

/-- The stream brought up to a raw time: idle blocks, or PRBS31, fill it (R235, R268, R278). -/
def TxLane.fill (t : TxLane) (raw : Nat) (quarter prbs : Bool) : TxLane :=
  let due := t.due raw quarter
  if prbs then t.prbsOut (due - t.count) else t.idles due ((due - t.count) / 33)

/-- A stream begins after electrical idle: with a codeword, the precoder at 0 and precoding off (R261, R272). -/
def TxLane.start (t : TxLane) (raw : Nat) : TxLane :=
  { t with since := raw, count := 0, cw := [], lastP := 0, pre := false, preNext := none }

/-- The blocks of a message: a control block, then data blocks of 8 bytes (R267, R340). -/
def msgBlocks (msg : List Byte) : List (Nat × List Byte) :=
  (headerControl, msg.take 8) :: (List.range (msg.length / 8 - 1)).map fun i => (headerData, (msg.drop (8 * i + 8)).take 8)

/-- The data block of a payload word: bit 63 goes first (R267). -/
def wordBlock (w : Nat) : Nat × List Byte := (headerData, (leBytes w 8).reverse)

/-- The permitted set of R262. -/
def firOk (pre main post : Int) : Bool :=
  decide (-16 ≤ pre) && decide (pre ≤ 0) && decide (24 ≤ main) && decide (main ≤ 64) && decide (-24 ≤ post) &&
    decide (post ≤ 0) && decide (main - pre - post ≤ 64) && decide (16 ≤ main + pre + post)

/-- The word of LNK_Ln_FIR. -/
def firWord (pre main post : Int) : Nat := twos 8 pre + 256 * twos 8 main + 65536 * twos 8 post

/-- The coefficients of a word of LNK_Ln_FIR. -/
def firOf (w : Nat) : Int × Int × Int := (sext 8 (bits w 0 8), sext 8 (bits w 8 8), sext 8 (bits w 16 8))

/-- The presets of Table 9-3. -/
def firPreset (n : Nat) : Nat :=
  match n with
  | 0 => firWord 0 64 0
  | 1 => firWord (-4) 52 (-8)
  | 2 => firWord (-6) 46 (-12)
  | _ => firWord 0 48 (-16)

/-- The coefficients a request asks for (Table 8-5), none for a code that asks no coefficients. -/
def firAsked (w code : Nat) : Option (Int × Int × Int) :=
  let (a, b, c) := firOf w
  match code with
  | 0x01 => some (a + 1, b, c)
  | 0x02 => some (a - 1, b, c)
  | 0x03 => some (a, b + 1, c)
  | 0x04 => some (a, b - 1, c)
  | 0x05 => some (a, b, c + 1)
  | 0x06 => some (a, b, c - 1)
  | 0x10 => some (firOf (firPreset 0))
  | 0x11 => some (firOf (firPreset 1))
  | 0x12 => some (firOf (firPreset 2))
  | 0x13 => some (firOf (firPreset 3))
  | _ => none

end Sys2Proof.Machine
end

