-- ==== Sys2Proof/Machine/Lnk.lean ====
section
/-!
DEFINITION. The serial lanes (chapter 9): framing, lock and alignment, codeword correction, adaptation, training requests and
the lane diagnostics.
-/
namespace Sys2Proof.Machine

/-- Lane n. -/
def State.lane (s : State) (n : Nat) : Lane := s.lanes.getD n Lane.reset

/-- Change lane n. -/
def State.modLane (s : State) (n : Nat) (f : Lane → Lane) : State := { s with lanes := s.lanes.modify n f }

/-- Which lanes have a transmitter and which a receiver (Table 9-1). -/
def laneTx (n : Nat) : Bool := decide (n < 96) || (decide (100 ≤ n) && decide (n < 104))
def laneRx (n : Nat) : Bool := decide (96 ≤ n) && decide (n < 104)

/-- LNK_Ln_STATUS.LOCK: 0 HUNT, 1 LOCKED, 2 CONFIRM, 3 ALIGNED. -/
def State.lockOf (s : State) (n : Nat) : Nat := s.rd (F.LNK_L_STATUS_LOCK n)

/-- The lane is block-locked, or aligned, with a signal. -/
def State.blockLocked (s : State) (n : Nat) : Bool := s.lockOf n != 0 && !(s.lane n).rxIdle
def State.aligned (s : State) (n : Nat) : Bool := s.lockOf n == 3 && !(s.lane n).rxIdle

/-- Report electrical idle, sent or detected (LNK_Ln_STATUS.IDLE). -/
def State.showIdle (s : State) (n : Nat) : State :=
  s.wrB (F.LNK_L_STATUS_IDLE n) ((laneTx n && (s.lane n).txIdle) || (laneRx n && (s.lane n).rxIdle))

/-- A lane event: it sets the lane's bit and is raised in the lane's group, unless the bit is already set (R280). -/
def State.laneEvent (s : State) (n k : Nat) : State :=
  let f : Fld := ⟨0xF0010 + 4 * (n / 32), n % 32, 1⟩
  if s.rdB f then s else (s.wrB f true).raise ((if n < 48 then 192 else 224) + k)

/-- Set the adaptation state unless ADAPT_HOLD forces HOLD (R266). -/
def State.setAdapt (s : State) (n st : Nat) : State :=
  s.wr (F.LNK_L_STATUS_ADAPT n) (if s.rdB (F.LNK_L_CTRL_ADAPT_HOLD n) then 3 else st)

/-! ## Transmission -/

/-- What a lane has sent by now: nothing more in electrical idle. -/
def State.txNow (s : State) (n : Nat) : TxLane :=
  if (s.lane n).txIdle then (s.lane n).tx
  else (s.lane n).tx.fill s.tim.raw (s.rdB (F.LNK_L_STATUS_QUARTER n)) (s.rdB (F.LNK_L_CTRL_PRBS_GEN n))

/-- Bring a lane's stream up to now. -/
def State.txFill (s : State) (n : Nat) : State := s.modLane n fun l => { l with tx := s.txNow n }

/-- The lane sends blocks: no electrical idle, and no PRBS31 in their place (R278). -/
def State.txLive (s : State) (n : Nat) : Bool := !(s.lane n).txIdle && !s.rdB (F.LNK_L_CTRL_PRBS_GEN n)

/-- Blocks follow on a lane, in consecutive payload slots (R235, R340). -/
def State.txBlocks (s : State) (n : Nat) (bs : List (Nat × List Byte)) : State :=
  (s.txFill n).modLane n fun l => { l with tx := bs.foldl (fun t b => t.block b.1 b.2) l.tx }

/-- A change of precoding takes effect with the codeword after the one that carries the next block (R261). -/
def State.askPre (s : State) (n : Nat) (on : Bool) : State :=
  (s.txFill n).modLane n fun l => { l with tx := { l.tx with preNext := some on } }

/-- Precoding as the training exchange has set it. -/
def State.preAsked (s : State) (n : Nat) : Bool := (s.lane n).tx.preNext.getD (s.lane n).tx.pre

/-! ## Lock -/

/-- A discarded hop message: counted, and ROPE_MSG_DROP at most once per 1 ms (R340). -/
def State.ropeDrop (s : State) : State :=
  let s := s.bump (F.ROPE_CNT_COUNT 0)
  if (s.rope.dropAt.map fun t => decide (s.tim.raw < t + 1000000)).getD false then s
  else ({ s with rope := { s.rope with dropAt := some s.tim.raw } }).raise Ev.ROPE_MSG_DROP

/-- Decoding stops on a lane: a hop message in reception there is discarded (R340). -/
def State.cutMsg (s : State) (n : Nat) : State :=
  let cut := decide (100 ≤ n) && decide (0 < (s.lane n).msgLeft)
  let s := s.modLane n fun l => { l with msgLeft := 0, msgBad := false, orphan := false }
  if cut then s.ropeDrop else s

/-- Enter HUNT; from a locked state this counts and raises LNK_LOCK_LOST, and adaptation freezes (R273, Table 9-4). -/
def State.toHunt (s : State) (n : Nat) : State :=
  let was := s.lockOf n != 0
  let s := ((s.cutMsg n).wr (F.LNK_L_STATUS_LOCK n) 0).modLane n fun l =>
    { l with run := 0, win := [], slot := 0, conf := 0, miss := 0, cw := [], latSet := false }
  if was then
    (((s.bump (F.LNK_L_LOCK_LOSS_COUNT n)).setAdapt n 2).modLane n fun l => { l with traffic := 0 }).laneEvent n 0
  else s

/-- Block lock is gained (Table 9-4). -/
def State.toLocked (s : State) (n : Nat) : State :=
  let fresh := (s.lane n).fresh
  let s := (s.wr (F.LNK_L_STATUS_LOCK n) 1).modLane n fun l => { l with win := [], fresh := false, run := 0, cw := [] }
  if fresh then (s.setAdapt n 0).modLane n fun l => { l with blocks := 0 } else s

/-- A lane's transmitter starts or stops electrical idle; a stream begins afresh after it (R261, R272). -/
def State.txIdle (s : State) (n : Nat) (idle : Bool) : State :=
  let was := (s.lane n).txIdle
  let s := s.txFill n
  (s.modLane n fun l => { l with txIdle := idle, tx := if was then l.tx.start s.tim.raw else l.tx }).showIdle n

/-- A rate takes effect (R275). -/
def State.setRate (s : State) (n : Nat) (quarter : Bool) : State := s.wrB (F.LNK_L_STATUS_QUARTER n) quarter

/-- The saved coefficients for the lane's rate, or preset 0 (R263). -/
def State.startFir (s : State) (n : Nat) : State :=
  let l := s.lane n
  s.setWord (0xF1008 + 0x40 * n)
    (BitVec.ofNat 32 ((if s.rdB (F.LNK_L_STATUS_QUARTER n) then l.savedQ else l.saved).getD (firPreset 0)))

/-- Save the coefficients in force (R242). -/
def State.saveFir (s : State) (n : Nat) : State :=
  let w := (s.word (0xF1008 + 0x40 * n)).toNat
  if s.rdB (F.LNK_L_STATUS_QUARTER n) then s.modLane n fun l => { l with savedQ := some w }
  else s.modLane n fun l => { l with saved := some w }

/-- Apply one training request to a transmit lane (R243, R262, Table 8-6): the result code and the state. -/
def State.applyTrain (s : State) (n seq code : Nat) (precodingAllowed : Bool) : Nat × State :=
  if (s.lane n).lastSeq = some seq then (3, s)
  else
    let s := s.modLane n fun l => { l with lastSeq := some seq }
    let fir := (s.word (0xF1008 + 0x40 * n)).toNat
    if code = 0x00 ∨ code = 0x30 then (0, s)
    else if code = 0x20 then (if precodingAllowed then (0, s.askPre n true) else (2, s))
    else if code = 0x21 then (0, s.askPre n false)
    else match firAsked fir code with
      | some (a, b, c) =>
        if firOk a b c then (0, s.setWord (0xF1008 + 0x40 * n) (BitVec.ofNat 32 (firWord a b c))) else (1, s)
      | none => (2, s)

/-- The acknowledgement block (Table 8-6, R344). -/
def State.ackBytes (s : State) (type portLane n seq result : Nat) : List Byte :=
  leBytes type 1 ++ leBytes portLane 1 ++ leBytes seq 1 ++ leBytes result 1 ++
    leBytes (s.word (0xF1008 + 0x40 * n)).toNat 3 ++ leBytes (b2n (s.preAsked n)) 1

/-- Append received symbols and take the next 66-bit block, when one is complete: its header and payload (R260, R267). -/
def Lane.takeBlock (l : Lane) : Option (Nat × List Byte × Lane) :=
  if l.carry.length < 33 + l.off then none
  else
    let bs := (rxBits l.rxPre l.lastP (l.carry.take (33 + l.off))).drop l.off
    some (fromMsb (bs.take 2), bitsBytes ((bs.drop 2).take 64),
      { l with carry := l.carry.drop 33, lastP := l.carry.getD 32 0 })

/-- Slip one bit (R273). -/
def Lane.slip (l : Lane) : Lane :=
  if l.off = 0 then { l with off := 1 }
  else { l with off := 0, lastP := l.carry.headD 0, carry := l.carry.drop 1 }

/-- Count one good block for the adaptation state `st`; a count that has reached its limit holds there and the count of the
state to come starts (Table 9-4). -/
def Lane.countBlock (l : Lane) (st : Nat) (idle : Bool) : Lane :=
  let asAdapt := fun (l : Lane) => if l.idleRun < 4096 then
      { l with idleRun := if idle then l.idleRun + 1 else 0, traffic := 0 }
    else if idle then l else { l with traffic := l.traffic + 1 }
  let asFrozen := fun (l : Lane) => if l.traffic < 256 then
      (if idle then l else { l with traffic := l.traffic + 1, idleRun := 0 })
    else { l with idleRun := if idle then min 4096 (l.idleRun + 1) else 0 }
  match st with
  | 0 => if l.blocks < 65536 then { l with blocks := l.blocks + 1, idleRun := 0 } else asAdapt l
  | 1 => asAdapt l
  | 2 => asFrozen l
  | _ => l

/-- A block as received: whether it is sound (R271), its header and its descrambled payload. -/
structure RxBlock where
  ok : Bool
  header : Nat
  bytes : List Byte
  deriving DecidableEq, Repr

/-- A hop message's type (Table 13-1). -/
def hopType (t : Nat) : Bool := decide (0x58 ≤ t) && decide (t ≤ 0x5D)

/-- A control type that a rope lane knows: idle, or a rope type that is not reserved (R268, R339). -/
def ropeKnows (t : Nat) : Bool := t == 0x1E || (decide (0x50 ≤ t) && decide (t ≤ 0x5D))

/-- A sound control block on a rope lane: a type it does not know is ignored; any other ends a message whose data is still due, which
is then discarded, and a hop header begins one (R339, R340). -/
def Lane.trackControl (l : Lane) (bytes : List Byte) : Lane × Bool :=
  let t := byteAt bytes 0
  if !ropeKnows t then (l, false)
  else ({ l with orphan := false, msgBad := false, msgLeft := if hopType t then leAt bytes 4 2 else 0 }, decide (0 < l.msgLeft))

/-- An errored block outside a message: one whose payload as received reads as a hop header is the header of a message, which is
discarded with its data (R340, log entry 917). -/
def Lane.trackErrored (l : Lane) (b : RxBlock) : Lane × Bool :=
  let n := leAt b.bytes 4 2
  if b.header == 1 || !hopType (byteAt b.bytes 0) || decide (512 < n) then (l, false)
  else ({ l with orphan := false, msgBad := true, msgLeft := n }, n == 0)

/-- Follow the hop messages of a rope lane through one block: the lane, and whether a message was discarded (R340). Data without a
header is one message. -/
def Lane.trackMsg (l : Lane) (b : RxBlock) : Lane × Bool :=
  if b.ok && b.header == 2 then l.trackControl b.bytes
  else if 0 < l.msgLeft then
    let bad := l.msgBad || !b.ok
    ({ l with msgLeft := l.msgLeft - 1, msgBad := bad && l.msgLeft != 1 }, bad && l.msgLeft == 1)
  else if b.ok then ({ l with orphan := true }, !l.orphan)
  else l.trackErrored b

/-- Blocks of a codeword as received, with the descrambler's new history. -/
def deliverBlocks : Nat → List (Bool × Nat × List Byte) → List RxBlock × Nat
  | h, [] => ([], h)
  | h, (ok, k, bytes) :: l =>
    let d := descramble h (byteBits bytes)
    let r := deliverBlocks d.2 l
    (⟨ok, k, bitsBytes d.1⟩ :: r.1, r.2)

/-- What one received block does to the lane's counts: an errored one counts for no adaptation state (R266). -/
def State.oneBlock (s : State) (n : Nat) (b : RxBlock) : State :=
  let st := s.rd (F.LNK_L_STATUS_ADAPT n)
  let s := if b.ok then s.modLane n fun l => l.countBlock st (b.header == 2 && byteAt b.bytes 0 == 0x1E) else s
  if 100 ≤ n then
    let r := (s.lane n).trackMsg b
    let s := s.modLane n fun _ => r.1
    if r.2 then s.ropeDrop else s
  else s

/-- A codeword ends with its check block: correct it and deliver its 30 blocks (R270, R271). -/
def State.endCodeword (s : State) (n : Nat) (check : List Byte) : State :=
  let l := s.lane n
  let w := ((l.cw.flatMap fun b => b.2.2) ++ check).map BitVec.toNat
  let r := laneDecode w
  let blocks := match r with
    | some (v, _) => l.cw.zipIdx.map fun b => (b.1.1, b.1.2.1, ((v.drop (8 * b.2)).take 8).map (BitVec.ofNat 8))
    | none => l.cw.map fun b => (false, b.2)
  let s := match r with
    | some (_, 0) => s
    | some (_, k) => (s.bump (F.LNK_L_CW_CORR_COUNT n)).bump (F.LNK_L_SYM_CORR_COUNT n) k
    | none => (s.bump (F.LNK_L_CW_UNCORR_COUNT n)).laneEvent n 2
  let d := deliverBlocks l.hist blocks
  let s := s.modLane n fun l =>
    { l with cw := [], hist := d.2, rxPre := l.rxPreNext.getD l.rxPre, rxPreNext := none }
  d.1.foldl (fun s b => s.oneBlock n b) s

/-- Slide the window by one header; 16 invalid among the last 64 lose lock (Table 9-7). -/
def State.slide (s : State) (n : Nat) (valid : Bool) : State :=
  let s := s.modLane n fun l => { l with win := (valid :: l.win).take 64 }
  let s := if valid then s else s.bump (F.LNK_L_HDR_BAD_COUNT n)
  if 16 ≤ ((s.lane n).win.filter fun v => !v).length then s.toHunt n else s

/-- A header in HUNT. -/
def State.huntHeader (s : State) (n h : Nat) : State :=
  if h = 3 then (s.bump (F.LNK_L_HDR_BAD_COUNT n)).modLane n fun l => { l.slip with run := 0 }
  else
    let s := s.modLane n fun l => { l with run := l.run + 1 }
    if 64 ≤ (s.lane n).run then s.toLocked n else s

/-- The descrambler follows an unaligned lane's blocks. -/
def State.follow (s : State) (n h : Nat) (bytes : List Byte) : State :=
  if h = 1 ∨ h = 2 then s.modLane n fun l => { l with hist := (descramble l.hist (byteBits bytes)).2 } else s

/-- A header in LOCKED: a 00 header makes a candidate check slot. -/
def State.lockedHeader (s : State) (n h : Nat) (bytes : List Byte) : State :=
  let s := s.follow n h bytes
  let s := if h = 0 then (s.wr (F.LNK_L_STATUS_LOCK n) 2).modLane n fun l => { l with slot := 0, conf := 0 } else s
  s.slide n (h != 3)

/-- The receive delay, which no rule gives, is fixed from the first alignment on while block lock lasts (R276). -/
def State.takeLat (s : State) (n : Nat) : State :=
  if (s.lane n).latSet then s
  else ((s.modLane n fun l => { l with latSet := true }).wr (F.LNK_L_LAT_PS n) (Config.freeNat s.freeCtr)).drawn 1

/-- A header in CONFIRM: two further candidate slots must hold 00. -/
def State.confirmHeader (s : State) (n h : Nat) (bytes : List Byte) : State :=
  let s := s.follow n h bytes
  let s := s.modLane n fun l => { l with slot := l.slot + 1 }
  let s :=
    if (s.lane n).slot < 31 then s
    else if h ≠ 0 then s.wr (F.LNK_L_STATUS_LOCK n) 1
    else
      let s := s.modLane n fun l => { l with slot := 0, conf := l.conf + 1 }
      if (s.lane n).conf < 2 then s
      else
        ((s.wr (F.LNK_L_STATUS_LOCK n) 3).modLane n fun l => { l with cw := [], miss := 0 }).takeLat n
  s.slide n (h != 3)

/-- A header in ALIGNED (Table 9-7); a check slot ends the codeword. -/
def State.alignedHeader (s : State) (n h : Nat) (bytes : List Byte) : State :=
  let l := s.lane n
  if l.slot = 30 then
    let s := (s.endCodeword n bytes).modLane n fun l => { l with slot := 0, miss := if h = 0 then 0 else l.miss + 1 }
    let s := if 4 ≤ (s.lane n).miss then ((s.cutMsg n).wr (F.LNK_L_STATUS_LOCK n) 1).laneEvent n 1 else s
    s.slide n (h == 0)
  else
    let ok := h == 1 || h == 2
    (s.modLane n fun l => { l with slot := l.slot + 1, cw := l.cw ++ [(ok, h, bytes)] }).slide n ok

/-- Adaptation moves the equaliser: its values are free (R264: no rule gives them). -/
def State.adaptStep (s : State) (n : Nat) : State :=
  if s.lockOf n ≠ 0 ∧ s.rd (F.LNK_L_STATUS_ADAPT n) < 2 then
    (s.setWord (0xF100C + 0x40 * n) (BitVec.ofNat 32 (setBits (Config.freeNat s.freeCtr % 2 ^ 32) 4 4 0))).drawn 1
  else s

/-- The PRBS checker takes one bit: it loads 31 bits, then needs 31 matches to synchronise, then counts mismatches. -/
def State.prbsBit (s : State) (n : Nat) (b : Bool) : State :=
  let l := s.lane n
  let ok := decide (l.prbsRun < 31) || prbsNext l.prbs == b
  let sync := s.rdB (F.LNK_L_STATUS_PRBS_SYNC n)
  let s := s.modLane n fun l =>
    { l with prbs := (2 * l.prbs + b2n (if sync then prbsNext l.prbs else b)) % 2 ^ 31
             prbsRun := if ok then min 62 (l.prbsRun + 1) else if sync then l.prbsRun else 0 }
  if sync then (if ok then s else (s.bump (F.LNK_L_PRBS_ERR_COUNT n)).laneEvent n 3)
  else s.wrB (F.LNK_L_STATUS_PRBS_SYNC n) (decide (62 ≤ (s.lane n).prbsRun))

/-- The received bits go to the PRBS checker while PRBS_CHK is set (R278). -/
def State.prbsCheck (s : State) (n : Nat) (syms : List Nat) : State :=
  if s.rdB (F.LNK_L_CTRL_PRBS_CHK n) then (rxBits false 0 syms).foldl (fun s b => s.prbsBit n b) s else s

/-- A lane takes in received symbols and frames the next block (R273). -/
def State.rxLane (s : State) (n : Nat) (syms : List Nat) : State :=
  let s := (s.prbsCheck n syms).modLane n fun l => { l with carry := l.carry ++ syms }
  match (s.lane n).takeBlock with
  | none => s
  | some (h, bytes, l) =>
    let s := s.modLane n fun _ => l
    (match s.lockOf n with
      | 0 => s.huntHeader n h
      | 1 => s.lockedHeader n h bytes
      | 2 => s.confirmHeader n h bytes
      | _ => s.alignedHeader n h bytes).adaptStep n

/-- The receivers that run: the return lanes in S0 and S1, the rope lanes while awake. -/
def State.rxOn (s : State) (n : Nat) : Bool :=
  laneRx n && s.awake && (decide (100 ≤ n) || s.pwr.st != .s2)

/-- ACQUIRE_DONE (Table 9-4). -/
def execAcquireDone (n : Nat) (s : State) : Host.Outcome State Fault Refusal :=
  .next (if laneRx n && s.rd (F.LNK_L_STATUS_ADAPT n) == 0 && decide (65536 ≤ (s.lane n).blocks) then s.setAdapt n 1 else s)

/-- ADAPT_FREEZE (Table 9-4). -/
def execAdaptFreeze (n : Nat) (s : State) : Host.Outcome State Fault Refusal :=
  .next (if laneRx n && s.rd (F.LNK_L_STATUS_ADAPT n) == 1 && decide (4096 ≤ (s.lane n).idleRun) then s.setAdapt n 2 else s)

/-- FROZEN_RESUME (Table 9-4). -/
def execFrozenResume (n : Nat) (s : State) : Host.Outcome State Fault Refusal :=
  .next (if laneRx n && s.rd (F.LNK_L_STATUS_ADAPT n) == 2 && decide (256 ≤ (s.lane n).traffic) then s.setAdapt n 1 else s)

/-- ADAPT_HOLD is written on a lane: HOLD while set, FROZEN once cleared (R266). -/
def State.writeAdaptHold (s : State) (n : Nat) (on : Bool) : State :=
  let was := s.rdB (F.LNK_L_CTRL_ADAPT_HOLD n)
  let s := s.wrB (F.LNK_L_CTRL_ADAPT_HOLD n) on
  if !laneRx n then s
  else if on then s.wr (F.LNK_L_STATUS_ADAPT n) 3
  else if was then (s.wr (F.LNK_L_STATUS_ADAPT n) 2).modLane n fun l => { l with traffic := 0 }
  else s

def execAdaptHold (n : Nat) (on : Bool) (s : State) : Host.Outcome State Fault Refusal :=
  .next (if s.bar0Open && decide (n < 104) then s.writeAdaptHold n on else s)

/-- PRBS_CHK is written on a lane: the checker starts afresh when it is set (R278). -/
def State.writePrbsChk (s : State) (n : Nat) (on : Bool) : State :=
  let was := s.rdB (F.LNK_L_CTRL_PRBS_CHK n)
  let s := s.wrB (F.LNK_L_CTRL_PRBS_CHK n) on
  if laneRx n && on && was then s
  else (s.wrB (F.LNK_L_STATUS_PRBS_SYNC n) false).modLane n fun l => { l with prbs := 0, prbsRun := 0 }

/-- PRBS_GEN is written on a lane: while it is 1 the lane sends PRBS31 in place of its blocks (R278). -/
def State.writePrbsGen (s : State) (n : Nat) (on : Bool) : State := (s.txFill n).wrB (F.LNK_L_CTRL_PRBS_GEN n) on

/-- One eye measurement: LNK_EYE_LOW once per crossing (R279). -/
def State.measureEye (s : State) (n height width : Nat) : State :=
  if s.rxOn n && s.blockLocked n then
    let low := decide (height % 2 ^ 10 < s.rd F.LNK_EYE_CFG_EYE_MIN)
    let was := (s.lane n).eyeLow
    let s := ((s.wr (F.LNK_L_EYE_HEIGHT n) height).wr (F.LNK_L_EYE_WIDTH n) width).modLane n fun l => { l with eyeLow := low }
    if low && !was then s.laneEvent n 4 else s
  else s

/-- EYE_MEASURE: the readings of the locked receive lanes (R279). -/
def execEyeMeasure (readings : List (Nat × Nat × Nat)) (s : State) : Host.Outcome State Fault Refusal :=
  .next (readings.foldl (fun s r => s.measureEye r.1 r.2.1 r.2.2) s)

/-- LNK_TX_FAULT: a transmit lane detects an open or shorted termination (Table 15-3). -/
def execLnkTxFault (n : Nat) (s : State) : Host.Outcome State Fault Refusal :=
  .next (if s.awake && laneTx n then s.laneEvent n 6 else s)

/-- LNK_CNT_CLEAR clears every counter of every lane. -/
def execLnkCntClear (s : State) : Host.Outcome State Fault Refusal :=
  .next (if s.bar0Open then (List.range 104).foldl (fun s n => s.clearCounters (0xF1020 + 0x40 * n) 6) s else s)

end Sys2Proof.Machine
end

