-- ==== Sys2Proof/Machine/Rope.lean ====
section
/-!
DEFINITION. The rope (chapter 13): pitches, training, HELLO, belay credit, hop messages, enumeration, alarms and mail; and the
role of the time unit, which follows the head (R363).
-/
namespace Sys2Proof

/-- The other port. -/
def Port.other : Port → Port
  | .up => .dn
  | .dn => .up

/-- The first lane index of a port (Table 9-1). -/
def Port.lane0 : Port → Nat
  | .up => 100
  | .dn => 102

/-- Lanes of a port. -/
def Port.lanes (p : Port) : List Nat := [p.lane0, p.lane0 + 1]

end Sys2Proof

namespace Sys2Proof.Machine

/-- The role of the tile (R363): 0 FREE, 1 PPS, 2 ROPE. -/
def State.role (s : State) : Nat :=
  match s.rd F.TIM_CTRL_MODE with
  | 0 => 0
  | 1 => 1
  | 2 => 2
  | _ => if !s.rdB F.ROPE_STATUS_HEAD then 2 else if s.rdB F.TIM_STATUS_PPS_OK then 1 else 0

/-- Report the role after a change; leaving the ROPE role enters holdover (R363), and after leaving the PPS role the next edge taken
is a first one (R364). -/
def State.settleRole (s : State) : State :=
  let old := s.rd F.TIM_STATUS_ROLE
  let s := s.wr F.TIM_STATUS_ROLE s.role
  let s : State := if s.role = 1 then s else { s with tim := { s.tim with ppsS := none } }
  if old = 2 ∧ s.role ≠ 2 then s.wrB F.TIM_STATUS_HOLDOVER true else s

/-- A pitch's part of a register field named for the UP pitch. -/
def pf (p : Port) (f : Fld) : Fld :=
  match p with
  | .up => f
  | .dn => { f with off := f.off + 4 }

/-- The pitch of a port. -/
def State.pitch (s : State) (p : Port) : Pitch :=
  match p with
  | .up => s.rope.up
  | .dn => s.rope.dn

/-- Change the pitch of a port. -/
def State.modPitch (s : State) (p : Port) (f : Pitch → Pitch) : State :=
  match p with
  | .up => { s with rope := { s.rope with up := f s.rope.up } }
  | .dn => { s with rope := { s.rope with dn := f s.rope.dn } }

/-- The state of a pitch (Table 13-3): 0 DOWN, 1 LOCK, 2 TRAIN, 3 HELLO, 4 UP. -/
def State.pitchState (s : State) (p : Port) : Nat := s.rd (pf p F.ROPE_UP_STATE_STATE)
def State.setPitchState (s : State) (p : Port) (v : Nat) : State := s.wr (pf p F.ROPE_UP_STATE_STATE) v
def State.pitchUp (s : State) (p : Port) : Bool := s.pitchState p == 4

/-- The version in force on a pitch. -/
def State.pitchVer (s : State) (p : Port) : Nat := s.rd (pf p F.ROPE_UP_STATE_VERSION)

/-- The versions this tile offers: VERSIONS 0 is treated as 3. -/
def State.ownVersions (s : State) : Nat := if s.rd F.ROPE_CFG_VERSIONS = 0 then 3 else s.rd F.ROPE_CFG_VERSIONS

/-- A lane counts as aligned for its pitch: ALIGNED and not running PRBS (R347). -/
def State.laneUsable (s : State) (n : Nat) : Bool :=
  s.aligned n && !s.rdB (F.LNK_L_CTRL_PRBS_GEN n) && !s.rdB (F.LNK_L_CTRL_PRBS_CHK n)

/-- The pitch runs or is to run at quarter rate: either tile is in S2 (R348). -/
def State.wantQuarter (s : State) (p : Port) : Bool := s.pwr.st == .s2 || (s.pitch p).peerLow

/-- The address of this tile. -/
def State.ropeAddr (s : State) : Nat := s.rd F.ROPE_STATUS_ADDRESS

/-- Lane `i` of the pitch has aligned and both sides have sent lane done on it. -/
def State.laneDone (s : State) (p : Port) (i : Nat) : Bool :=
  s.laneUsable (p.lane0 + i) && (s.pitch p).sentDone.getD i false && (s.pitch p).gotDone.getD i false

/-- The lanes that carry messages in UP as LANES bits (R347): lane 0 alone on a version 1 or quarter-rate pitch. -/
def State.carryMask (s : State) (p : Port) : Nat :=
  if !s.pitchUp p then 0
  else
    let m := b2n (s.laneDone p 0) + 2 * b2n (s.laneDone p 1)
    if s.pitchVer p < 2 ∨ s.wantQuarter p = true then m % 2 else m

/-- Report the carrying lanes. A lane that begins to carry saves its coefficients (R242, R263); a version 2 pitch at full rate that
comes to carry on one lane alone raises ROPE_LANE_DEGRADED (R347). -/
def State.settleLanes (s : State) (p : Port) : State :=
  let old := s.rd (pf p F.ROPE_UP_STATE_LANES)
  let m := s.carryMask p
  let s := s.wr (pf p F.ROPE_UP_STATE_LANES) m
  let s := [0, 1].foldl (fun s i => if bitAt m i && !bitAt old i then s.saveFir (p.lane0 + i) else s) s
  if (old = 0 ∨ old = 3) ∧ (m = 1 ∨ m = 2) ∧ s.pitchVer p = 2 ∧ s.wantQuarter p = false then s.raise Ev.ROPE_LANE_DEGRADED else s

/-- The lane that carries a class: mail goes on lane 1 where both lanes carry (R347). -/
def State.carryLane (s : State) (p : Port) (mail : Bool) : Option Nat :=
  let m := s.rd (pf p F.ROPE_UP_STATE_LANES)
  if m = 0 then none else if m = 3 then some (if mail then 1 else 0) else if m = 1 then some 0 else some 1

/-- Send a block or message on one lane of a port; none leaves a lane in electrical idle or under PRBS (R278). -/
def State.ropeOut (s : State) (p : Port) (lane : Nat) (msg : List Byte) : State :=
  if s.txLive (p.lane0 + lane) then (s.txBlocks (p.lane0 + lane) (msgBlocks msg)).emit (.rope p lane msg) else s

/-- A pitch-local message on the lane that carries them (R347); nothing while no lane does. -/
def State.sendLocal (s : State) (p : Port) (msg : List Byte) : State :=
  match s.carryLane p false with
  | some l => s.ropeOut p l msg
  | none => s

/-- The fixed delays of a lane of a pitch between blocks and balls, in ps (R276). -/
def State.txDelay (s : State) (p : Port) (lane : Nat) : Nat :=
  Config.txDelay (p.lane0 + lane) (s.rdB (F.LNK_L_STATUS_QUARTER (p.lane0 + lane)))
def State.rxDelay (s : State) (p : Port) (lane : Nat) : Nat := s.rd (F.LNK_L_LAT_PS (p.lane0 + lane))

/-- RT at the ball, in ps: of a block that reaches its transmit lane `lead` quarter nanoseconds from now, and of one that left its
receive lane `back` quarter nanoseconds ago (R276, R369). -/
def State.departPs (s : State) (p : Port) (lane lead : Nat) : Int := 1000 * s.rtNs + (250 * lead + s.txDelay p lane : Nat)
def State.arrivePs (s : State) (p : Port) (lane back : Nat) : Int := 1000 * s.rtNs - (250 * back + s.rxDelay p lane : Nat)

/-- An instant in ps to the nearest quarter nanosecond. -/
def quarters (ps : Int) : Int := (ps + 125) / 250

/-- The VERSIONS field of HELLO on a pitch: in UP as ROPE_CFG has it, before as the training took it (R345, Table 13-4). -/
def State.helloVersions (s : State) (p : Port) : Nat := if s.pitchUp p then s.ownVersions else (s.pitch p).versions

/-- The HELLO block (Table 13-4). -/
def State.helloBytes (s : State) (p : Port) : List Byte :=
  leBytes 0x52 1 ++ leBytes (s.helloVersions p) 1 ++
    leBytes (s.rd F.ROPE_STATUS_STRAPPED + 2 * b2n (s.pwr.st == .s2)) 1 ++ leBytes 32 1 ++ leBytes 2048 2 ++
    leBytes s.ropeAddr 1 ++ leBytes 0 1

/-- A HELLO field has changed: it is sent on each pitch in UP (R345). -/
def State.helloChanged (s : State) : State :=
  [Port.up, Port.dn].foldl (fun s p => if s.pitchUp p then s.sendLocal p (s.helloBytes p) else s) s

/-- Take an address; ROPE_MEMBERSHIP when it changes (R355), and HELLO carries it. -/
def State.setAddress (s : State) (a : Nat) : State :=
  if s.ropeAddr = a then s
  else ((s.wr F.ROPE_STATUS_ADDRESS a).helloChanged).raise Ev.ROPE_MEMBERSHIP

/-- Record TOTAL (R354, R355). -/
def State.setTotal (s : State) (t : Nat) : State :=
  if s.rd F.ROPE_STATUS_TOTAL = t then s else (s.wr F.ROPE_STATUS_TOTAL t).raise Ev.ROPE_MEMBERSHIP

/-- A hop message header (Table 13-2). -/
def hopHeader (type src dst flags len arg : Nat) : List Byte :=
  leBytes type 1 ++ leBytes src 1 ++ leBytes dst 1 ++ leBytes flags 1 ++ leBytes len 2 ++ leBytes arg 2

/-- Blocks of a message: the header and its data blocks. -/
def HopMsg.blocks (m : HopMsg) : Nat := ceilDiv m.bytes.length 8

/-- Credit for a message of b blocks: the partner's FREED plus its BUF minus SENT is at least b (R350). -/
def Pitch.credit (q : Pitch) (mail : Bool) (b : Nat) : Bool :=
  let c := b2n mail
  let buf := if mail then q.peerMail else 16 * q.peerCtrl
  decide (serialDist 24 (q.sent.getD c 0) (q.peerFreed.getD c 0) + (b : Int) ≤ (buf : Int))

/-- Blocks of a class freed from a port's receive buffer (R350). -/
def State.freeBlocks (s : State) (p : Port) (mail : Bool) (b : Nat) : State :=
  s.modPitch p fun q =>
    { q with freed := q.freed.modify (b2n mail) fun n => (n + b) % 2 ^ 24, belayDue := q.belayDue.set (b2n mail) true }

/-- Blocks of a class received on a port (R350). -/
def State.countRecv (s : State) (p : Port) (mail : Bool) (b : Nat) : State :=
  s.modPitch p fun q => { q with recv := q.recv.modify (b2n mail) fun n => (n + b) % 2 ^ 24 }

/-- Add an entry to the transmit timestamp queue, or drop it when 16 are held (R381, R382). -/
def State.tsqPush (s : State) (e : TsqEntry) : State :=
  if s.tim.tsq.length < 16 then { s with tim := { s.tim with tsq := s.tim.tsq ++ [e] } }
  else (s.wrB F.TIM_TSQ_INFO_OVF true).raise Ev.TIM_TSQ_OVF

/-- A message starts on a lane: its blocks are counted, its buffer is freed and its timestamp taken: its header reaches the lane
`lead` quarter nanoseconds from now (R341, R350, R381). -/
def State.startHop (s : State) (p : Port) (lane : Nat) (m : HopMsg) (lead : Nat) : State :=
  let s := (s.ropeOut p lane m.bytes).modPitch p fun q =>
    { q with sent := q.sent.modify (b2n m.mail) fun n => (n + m.blocks) % 2 ^ 24 }
  let s := match m.src with
    | some o => s.freeBlocks o m.mail m.blocks
    | none => s
  match m.ts with
  | some (kind, key, ident) => s.tsqPush ⟨ident, if p = .up then 0 else 1, kind, quarters (s.departPs p lane lead), key⟩
  | none => s

/-- Whether a queued message of a class may start now: UP, a lane that carries the class, credit, and on a shared lane no
control message waiting that could go first (R342, R350). -/
def State.hopCanStart (s : State) (p : Port) (m : HopMsg) : Bool :=
  let q := s.pitch p
  s.pitchUp p && !q.retrain && (s.carryLane p m.mail).isSome && q.credit m.mail m.blocks &&
    !(m.mail && s.carryLane p true == s.carryLane p false &&
      q.txq.any fun x => !x.mail && q.credit false x.blocks)

/-- Start the oldest waiting message of a class on a port, if it may (R342). -/
def State.tryHop (s : State) (p : Port) (mail : Bool) (lead : Nat) : State :=
  match (s.pitch p).txq.find? fun m => m.mail == mail with
  | none => s
  | some m =>
    match s.carryLane p mail with
    | some l =>
      if s.hopCanStart p m then
        (s.modPitch p fun q => { q with txq := q.txq.erase m }).startHop p l m lead
      else s
    | none => s

/-- A mail is refused or dropped at this tile (R346, R358). -/
def State.mailDrop (s : State) : State := (s.bump (F.ROPE_CNT_COUNT 2)).raise Ev.ROPE_MAIL_DROP

/-- A hop message that can no longer leave is dropped: its buffer is freed, and a mail counts (R350, R358). -/
def State.dropHop (s : State) (m : HopMsg) : State :=
  let s := match m.src with
    | some o => s.freeBlocks o m.mail m.blocks
    | none => s
  if m.mail then s.mailDrop else s

/-- Queue a message on a port in UP; a message for a pitch that is not UP goes nowhere. -/
def State.queueHop (s : State) (p : Port) (m : HopMsg) : State :=
  if s.pitchUp p then s.modPitch p fun q => { q with txq := q.txq ++ [m] } else s.dropHop m

/-- A message this tile originates: it is queued and leaves at once when it may; the quarter-nanosecond part of its departure
is free. -/
def State.originate (s : State) (p : Port) (m : HopMsg) : State :=
  ((s.queueHop p m).tryHop p m.mail (Config.freeNat s.freeCtr % 4)).drawn 1

/-- The timestamp of a message of a kind (0 PRESENT, 1 ALARM, 2 MAIL): the identifier advances by one for a message that
carries TS (R381). -/
def State.takeTs (s : State) (kind key : Nat) : Option (Nat × Nat × Nat) × State :=
  if bitAt (s.word 0x70080).toNat kind then
    (some (kind, key, s.tim.tsId), { s with tim := { s.tim with tsId := (s.tim.tsId + 1) % 4096 } })
  else (none, s)

/-- Broadcast a message on both ports (R341). -/
def State.broadcast (s : State) (type len arg kind key : Nat) (data : List Byte) : State :=
  if s.pitchUp .up || s.pitchUp .dn then
    let (ts, s) := s.takeTs kind key
    let m : HopMsg := ⟨false, hopHeader type s.ropeAddr 0 (b2n ts.isSome) len arg ++ data, ts, none⟩
    (s.originate .up m).originate .dn m
  else s

/-- An alarm for an enabled local cause (R357, Table 13-8). -/
def State.alarm (s : State) (code bit : Nat) : State :=
  if bitAt (s.rd F.ROPE_ALARM_CFG_SEND) bit then s.broadcast 0x5B 0 code 1 code [] else s

/-- SW_GO broadcasts a software alarm; codes below 0x80 are treated as 0x80 (R357). -/
def State.swAlarm (s : State) : State :=
  let c := max 0x80 (s.rd F.ROPE_ALARM_CFG_SW_CODE)
  s.broadcast 0x5B 0 c 1 c []

/-- ROPE_ALARM_CFG is written with SW_GO: SEND and SW_CODE take their bits, then the alarm goes out. -/
def execSwGo (val : Word) (s : State) : Host.Outcome State Fault Refusal :=
  .next (if s.bar0Open then
      ((s.wr F.ROPE_ALARM_CFG_SEND val.toNat).wr F.ROPE_ALARM_CFG_SW_CODE (val.toNat / 256)).swAlarm
    else s)

/-- ENUM downstream with COUNT = this tile's address (R354). -/
def State.sendEnum (s : State) : State :=
  s.originate .dn ⟨false, hopHeader 0x58 s.ropeAddr 0 0 0 s.ropeAddr, none, none⟩

/-- ENUM_DONE upstream. -/
def State.sendEnumDone (s : State) (total : Nat) (long : Bool) : State :=
  s.originate .up ⟨false, hopHeader 0x59 s.ropeAddr 0 (2 * b2n long) 0 total, none, none⟩

/-- Act as the tail (R354). -/
def State.actTail (s : State) : State :=
  let long := s.rdB F.ROPE_STATUS_OVERLENGTH
  let total := if long then 255 else s.ropeAddr
  (s.wrB F.ROPE_STATUS_ENUM_BUSY false).setTotal total |>.sendEnumDone total long

/-- Become head: address 1, and enumerate downward (R353); a head that has address 1 keeps it, and one that gave it up in a LEAVE
(R359) takes it again. -/
def State.becomeHead (s : State) : State :=
  if s.rdB F.ROPE_STATUS_HEAD && s.ropeAddr == 1 then s
  else
    let s := (((s.wrB F.ROPE_STATUS_HEAD true).wrB F.ROPE_STATUS_NO_HEAD false).wrB F.ROPE_STATUS_OVERLENGTH false).wrB
      F.ROPE_STATUS_ENUM_BUSY false
    let changed := s.ropeAddr != 1
    let s := (s.setAddress 1).settleRole
    if changed && s.pitchUp .dn then s.sendEnum else s

/-- A pitch that was UP leaves it (R353, R354); none of it after this tile's own LEAVE. -/
def State.afterUp (s : State) (p : Port) : State :=
  if s.rdB F.ROPE_STATUS_LEFT then s
  else match p with
    | .up => s.becomeHead
    | .dn => s.actTail

/-- Why a pitch goes DOWN. -/
inductive DownWhy where
  | break
  | left
  | quiet
  deriving DecidableEq, Repr

/-- Take a pitch to DOWN: its lanes go to electrical idle, and its counts and what was queued on it are dropped. -/
def State.dropPitch (s : State) (p : Port) (failed : Bool) : State :=
  let queued := (s.pitch p).txq
  let s := s.modPitch p fun q =>
    { Pitch.reset with failed := failed, reqSeq := q.reqSeq, peerLow := q.peerLow }
  let s := s.setWord (match p with | .up => 0x80010 | .dn => 0x80014) 0
  let s := p.lanes.foldl (fun s n => s.txIdle n true) s
  queued.foldl (fun s m => s.dropHop m) s

/-- A pitch goes DOWN (Table 13-3), with what follows when it was UP. -/
def State.pitchDown (s : State) (p : Port) (failed : Bool) (why : DownWhy) : State :=
  let was := s.pitchUp p
  let s := s.dropPitch p failed
  if !was then s
  else
    let s := match why with
      | .break => (s.bump (F.ROPE_CNT_COUNT 1)).raise Ev.ROPE_PITCH_DOWN
      | .left => s.raise Ev.ROPE_LEFT
      | .quiet => s
    s.afterUp p

/-- A PITCH_REQ for the partner's transmitter (Table 8-5, R344), sent on the lane of the same number. -/
def State.sendPitchReq (s : State) (p : Port) (i code : Nat) : State :=
  let q := s.pitch p
  let s := s.ropeOut p i (leBytes 0x50 1 ++ leBytes (16 * i) 1 ++ leBytes q.reqSeq 1 ++ leBytes code 1 ++
    leBytes q.versions 1 ++ leBytes 0 3)
  s.modPitch p fun q => { q with reqSeq := (q.reqSeq + 1) % 256 }

/-- Whether a lane of the pitch takes part: lane 1 stays idle at quarter rate (R348). -/
def State.laneInUse (s : State) (p : Port) (i : Nat) : Bool := i == 0 || !s.wantQuarter p

/-- Lanes that have aligned send lane done (0x30): which changes the receiver asks for first is left open, and it asks for none
(DESIGN CHOICE). -/
def State.sendDones (s : State) (p : Port) : State :=
  [0, 1].foldl (fun s i =>
    if s.laneUsable (p.lane0 + i) && s.laneInUse p i && !(s.pitch p).sentDone.getD i false then
      (s.sendPitchReq p i 0x30).modPitch p fun q => { q with sentDone := q.sentDone.set i true }
    else s) s

/-- A lane that is no longer ALIGNED, or runs PRBS, trains anew (R347). -/
def State.clearDones (s : State) (p : Port) : State :=
  [0, 1].foldl (fun s i =>
    if s.laneUsable (p.lane0 + i) then s
    else s.modPitch p fun q => { q with sentDone := q.sentDone.set i false, gotDone := q.gotDone.set i false }) s

/-- Some lane that takes part in the pitch is aligned (R347, R348). -/
def State.anyAligned (s : State) (p : Port) : Bool := [0, 1].any fun i => s.laneUsable (p.lane0 + i) && s.laneInUse p i

/-- Both sides have sent lane done on every aligned lane. -/
def State.trained (s : State) (p : Port) : Bool :=
  s.anyAligned p && [0, 1].all fun i => !(s.laneUsable (p.lane0 + i) && s.laneInUse p i) || s.laneDone p i

/-- Move a pitch along LOCK, TRAIN and HELLO, and a retraining pitch back to its messages (Table 13-3, R348). -/
def State.advancePitch (s : State) (p : Port) : State :=
  let s := s.clearDones p
  let s := if s.pitchState p = 1 ∧ s.anyAligned p = true then s.setPitchState p 2 else s
  let s := if 2 ≤ s.pitchState p then s.sendDones p else s
  let s := if s.pitchState p = 2 ∧ s.trained p = true then s.setPitchState p 3 else s
  let s := if s.pitchUp p && (s.pitch p).retrain && !(s.pitch p).dwell && s.trained p then
      s.modPitch p fun q => { q with retrain := false }
    else s
  s.settleLanes p

/-- The lanes of a pitch that take part run at the rate it is to run at. -/
def State.rateReady (s : State) (p : Port) : Bool :=
  [0, 1].all fun i => !s.laneInUse p i || s.rdB (F.LNK_L_STATUS_QUARTER (p.lane0 + i)) == s.wantQuarter p

/-- A port's lanes start sending; lanes of another rate first wait in electrical idle (R275). -/
def State.startLanes (s : State) (p : Port) : State :=
  if s.rateReady p then
    [0, 1].foldl (fun s i => if s.laneInUse p i then (s.startFir (p.lane0 + i)).txIdle (p.lane0 + i) false else s)
      (s.wrB (pf p F.ROPE_UP_STATE_QUARTER) (s.wantQuarter p))
  else s.modPitch p fun q => { q with dwell := true }

/-- A port may leave DOWN: released, in S0 to S2, not held down, not waiting for a retry, and not the UP port of a strapped
tile (R343, R353). -/
def State.mayLock (s : State) (p : Port) : Bool :=
  s.awake && s.rope.released && !s.rope.heldDown && !(s.pitch p).failed && !(p == .up && s.rdB F.ROPE_STATUS_STRAPPED)

/-- DOWN to LOCK where Table 13-3 lets it; a training takes the versions offered (R345). -/
def State.lockPitch (s : State) (p : Port) : State :=
  if s.pitchState p = 0 ∧ s.mayLock p = true then
    (((s.setPitchState p 1).modPitch p fun q => { q with versions := s.ownVersions }).startLanes p).advancePitch p
  else s

/-- Both ports move on as far as they can. -/
def State.settleRope (s : State) : State := ((s.lockPitch .up).lockPitch .dn)

/-- The rope ports are released from DOWN by boot, JOIN or a rejoin (R353): the tile is head only when strapped. -/
def State.releaseRope (s : State) : State :=
  let s := { s with rope := { s.rope with released := true, headWaited := false, heldDown := false } }
  if s.rdB F.ROPE_STATUS_STRAPPED then s.becomeHead.settleRope
  else ((s.wrB F.ROPE_STATUS_HEAD false).setAddress 0).settleRole.settleRope

/-- PITCH_LOCK_TIMEOUT: 50 ms in LOCK (Table 13-3). -/
def execPitchLockTimeout (p : Port) (s : State) : Host.Outcome State Fault Refusal :=
  .next (if s.pitchState p = 1 then s.pitchDown p true .quiet else s)

/-- PITCH_TRAIN_TIMEOUT: 50 ms in TRAIN (Table 13-3). -/
def execPitchTrainTimeout (p : Port) (s : State) : Host.Outcome State Fault Refusal :=
  .next (if s.pitchState p = 2 then s.pitchDown p true .quiet else s)

/-- PITCH_RETRY: the delay after a failure has passed (Table 13-3). -/
def execPitchRetry (p : Port) (s : State) : Host.Outcome State Fault Refusal :=
  .next (if (s.pitch p).failed then (s.modPitch p fun q => { q with failed := false }).settleRope else s)

/-- PITCH_REQ on a lane: apply it to this tile's transmitter and acknowledge it (R344). -/
def State.onPitchReq (s : State) (p : Port) (i : Nat) (msg : List Byte) : State :=
  let code := byteAt msg 3
  let seq := byteAt msg 2
  let n := p.lane0 + i
  let allowed := bitAt (s.pitch p).versions 1 && bitAt (byteAt msg 4) 1
  let r := s.applyTrain n seq code allowed
  let s := r.2.ropeOut p i (r.2.ackBytes 0x51 (16 * i) n seq r.1)
  let s := if code = 0x30 then s.modPitch p fun q => { q with gotDone := q.gotDone.set i true } else s
  s.advancePitch p

def execPitchReq (p : Port) (lane : Nat) (msg : List Byte) (s : State) : Host.Outcome State Fault Refusal :=
  .next (if s.awake && decide (2 ≤ s.pitchState p) && decide (lane < 2) && s.aligned (p.lane0 + lane) then
      s.onPitchReq p lane msg else s)

/-- PITCH_ACK: the partner's precoding is in force from the next codeword on (R261, R344). -/
def execPitchAck (p : Port) (lane : Nat) (msg : List Byte) (s : State) : Host.Outcome State Fault Refusal :=
  .next (if s.awake && decide (2 ≤ s.pitchState p) && decide (lane < 2) && s.aligned (p.lane0 + lane) then
      s.modLane (p.lane0 + lane) fun l => { l with rxPreNext := some (bitAt (byteAt msg 7) 0) }
    else s)

/-- The highest common version of two VERSIONS fields, 0 when none (R345). -/
def commonVer (a b : Nat) : Nat := if bitAt a 1 && bitAt b 1 then 2 else if bitAt a 0 && bitAt b 0 then 1 else 0

/-- What a HELLO tells about the partner (Table 13-4). -/
def State.peerFields (s : State) (p : Port) (msg : List Byte) : State :=
  let s := s.modPitch p fun q =>
    { q with peerLow := bitAt (byteAt msg 2) 1, peerCtrl := byteAt msg 3, peerMail := leAt msg 4 2 }
  (s.wrB (pf p F.ROPE_UP_STATE_PEER_STRAPPED) (bitAt (byteAt msg 2) 0)).wr (pf p F.ROPE_UP_STATE_PEER_ADDR) (byteAt msg 6)

/-- Hold the lanes in electrical idle and retrain at the other rate (R348). -/
def State.retrainPitch (s : State) (p : Port) : State :=
  let s := s.modPitch p fun q =>
    { q with retrain := true, dwell := true, sentDone := [false, false], gotDone := [false, false] }
  (p.lanes.foldl (fun s n => s.txIdle n true) s).settleLanes p

/-- The ALARM of a load shed waits on a port: until it has left, the port keeps running as it is (R357, Table 16-2). -/
def State.alarmWaits (s : State) (p : Port) : Bool :=
  s.pwr.st == .s2 && (s.pitch p).txq.any fun m => byteAt m.bytes 0 == 0x5B && byteAt m.bytes 6 == 0x03 && m.src.isNone

/-- A pitch in UP whose rate no longer fits the power states of its tiles retrains (R348). -/
def State.checkRate (s : State) (p : Port) : State :=
  if s.pitchUp p && s.wantQuarter p != s.rdB (pf p F.ROPE_UP_STATE_QUARTER) && !(s.pitch p).dwell && !s.alarmWaits p then
    s.retrainPitch p
  else s

/-- A port follows a change of this tile's LOW_POWER: HELLO says so, and the pitch retrains (R345, R348). -/
def State.powerPitch (s : State) (p : Port) : State :=
  if s.alarmWaits p then s
  else (if s.pitchUp p then s.sendLocal p (s.helloBytes p) else s).checkRate p

/-- HOP_FORWARD (R342): the oldest waiting message of a class starts; once the ALARM of a shed has left, its port retrains. -/
def State.hopForward (s : State) (p : Port) (mail : Bool) (lead : Nat) : State :=
  let held := s.alarmWaits p
  let s := s.tryHop p mail lead
  if held && !s.alarmWaits p then s.powerPitch p else s

def execHopForward (p : Port) (mail : Bool) (lead : Nat) (s : State) : Host.Outcome State Fault Refusal :=
  .next (if s.awake then s.hopForward p mail lead else s)

/-- A pitch enters UP (R343, R350): counts start at 0; the UP port makes the tile stop being head (R353); the DN port enumerates
(R354). -/
def State.enterUp (s : State) (p : Port) (ver : Nat) : State :=
  let s := (s.setPitchState p 4).wr (pf p F.ROPE_UP_STATE_VERSION) ver
  let s := s.modPitch p fun q =>
    { q with sent := [0, 0], freed := [0, 0], recv := [0, 0], peerFreed := [0, 0], belayDue := [false, false], txq := [] }
  let s := p.lanes.foldl (fun s n => if s.aligned n then s.saveFir n else s) s
  let s := (s.settleLanes p).raise Ev.ROPE_PITCH_UP
  match p with
  | .up =>
    let s := { s with rope := { s.rope with enumSeen := false } }
    if s.rdB F.ROPE_STATUS_STRAPPED then s else ((s.wrB F.ROPE_STATUS_HEAD false).setAddress 0).settleRole
  | .dn => if s.ropeAddr = 0 then s else s.sendEnum

/-- HELLO (R343, R345, R348). -/
def State.onHello (s : State) (p : Port) (msg : List Byte) : State :=
  if s.pitchState p = 3 then
    let v := commonVer (s.pitch p).versions (byteAt msg 1)
    if v = 0 then (s.pitchDown p true .quiet).raise Ev.ROPE_VERSION_FAIL
    else ((s.peerFields p msg).enterUp p v).checkRate p
  else if s.pitchUp p then (s.peerFields p msg).checkRate p
  else s

def execHello (p : Port) (msg : List Byte) (s : State) : Host.Outcome State Fault Refusal :=
  .next (if s.awake then s.onHello p msg else s)

/-- HELLO_SEND: in HELLO on each aligned lane, in UP on the lane of pitch-local messages (Table 13-3, R345). -/
def execHelloSend (p : Port) (s : State) : Host.Outcome State Fault Refusal :=
  .next (if s.pitchState p = 3 then
      [0, 1].foldl (fun s i => if s.laneUsable (p.lane0 + i) then s.ropeOut p i (s.helloBytes p) else s) s
    else if s.pitchUp p then s.sendLocal p (s.helloBytes p) else s)

/-- PITCH_ALIGN_LOSS: no lane ALIGNED for 1 ms (Table 13-3). -/
def execPitchAlignLoss (p : Port) (s : State) : Host.Outcome State Fault Refusal :=
  .next (if s.pitchUp p && !s.anyAligned p then (s.pitchDown p false .break).settleRope else s)

/-- BELAY: credit returns, and blocks that SENT counts and that never arrived are lost and freed (R350, R351). -/
def State.onBelay (s : State) (p : Port) (msg : List Byte) : State :=
  let c := byteAt msg 1
  if 2 ≤ c then s
  else
    let sent := leAt msg 2 3
    let s := s.modPitch p fun q => { q with peerFreed := q.peerFreed.set c (leAt msg 5 3) }
    let lost := serialDist 24 sent ((s.pitch p).recv.getD c 0)
    if 0 < lost then (s.modPitch p fun q => { q with recv := q.recv.set c sent }).freeBlocks p (c == 1) lost.toNat else s

def execBelay (p : Port) (msg : List Byte) (s : State) : Host.Outcome State Fault Refusal :=
  .next (if s.pitchUp p then s.onBelay p msg else s)

/-- BELAY_SEND for a class on the lane that carries it (R350, Table 13-6). -/
def State.sendBelay (s : State) (p : Port) (mail : Bool) : State :=
  let q := s.pitch p
  let c := b2n mail
  match s.carryLane p mail with
  | some l =>
    (s.ropeOut p l (leBytes 0x53 1 ++ leBytes c 1 ++ leBytes (q.sent.getD c 0) 3 ++ leBytes (q.freed.getD c 0) 3)).modPitch p
      fun q => { q with belayDue := q.belayDue.set c false }
  | none => s

def execBelaySend (p : Port) (mail : Bool) (s : State) : Host.Outcome State Fault Refusal :=
  .next (if s.pitchUp p then s.sendBelay p mail else s)

/-- Take in a hop message of b blocks on a port in UP: its blocks are received. -/
def State.recvHop (s : State) (p : Port) (msg : List Byte) : State :=
  s.countRecv p (byteAt msg 0 == 0x5C) (ceilDiv msg.length 8)

/-- A hop message consumed here frees its blocks at once. -/
def State.consumeHop (s : State) (p : Port) (msg : List Byte) : State :=
  (s.recvHop p msg).freeBlocks p (byteAt msg 0 == 0x5C) (ceilDiv msg.length 8)

/-- Forward a hop message to the other port (R341); it holds its receive buffer until it starts. -/
def State.forwardHop (s : State) (p : Port) (msg : List Byte) : State :=
  (s.recvHop p msg).queueHop p.other ⟨byteAt msg 0 == 0x5C, msg, none, some p⟩

/-- ENUM from upstream (R354). -/
def State.onEnum (s : State) (msg : List Byte) : State :=
  let c := leAt msg 6 2
  let s := s.consumeHop .up msg
  let s := ({ s with rope := { s.rope with enumSeen := true } }).wrB F.ROPE_STATUS_NO_HEAD false
  if c < 255 then
    let s := ((s.wrB F.ROPE_STATUS_OVERLENGTH false).wrB F.ROPE_STATUS_ENUM_BUSY true).setAddress (c + 1)
    if s.pitchUp .dn then s.sendEnum else s.actTail
  else (((s.setAddress 0).wrB F.ROPE_STATUS_OVERLENGTH true).raise Ev.ROPE_OVERLENGTH).actTail

def execEnum (msg : List Byte) (s : State) : Host.Outcome State Fault Refusal :=
  .next (if s.pitchUp .up then s.onEnum msg else s)

/-- ENUM_DONE from downstream (R354). -/
def State.onEnumDone (s : State) (msg : List Byte) : State :=
  let t := leAt msg 6 2
  let s := ((s.consumeHop .dn msg).wrB F.ROPE_STATUS_ENUM_BUSY false).setTotal (t % 256)
  if s.rdB F.ROPE_STATUS_HEAD then s.raise Ev.ROPE_ENUM_DONE else s.sendEnumDone t (bitAt (byteAt msg 3) 1)

def execEnumDone (msg : List Byte) (s : State) : Host.Outcome State Fault Refusal :=
  .next (if s.pitchUp .dn then s.onEnumDone msg else s)

/-- ALARM: recorded, announced and forwarded (R341, R357). -/
def State.onAlarm (s : State) (p : Port) (msg : List Byte) : State :=
  let s := s.forwardHop p msg
  let s := if s.rdB F.ROPE_ALARM_LAST_VALID then s.wrB F.ROPE_ALARM_LAST_OVF true else s
  (((s.wrB F.ROPE_ALARM_LAST_VALID true).wr F.ROPE_ALARM_LAST_SRC (byteAt msg 1)).wr F.ROPE_ALARM_LAST_CODE
    (byteAt msg 6)).raise Ev.ROPE_ALARM_RX

def execAlarm (p : Port) (msg : List Byte) (s : State) : Host.Outcome State Fault Refusal :=
  .next (if s.pitchUp p then s.onAlarm p msg else s)

/-- A MAIL_ACK to a tile, sent on a port. -/
def State.sendMailAck (s : State) (p : Port) (dst tag result : Nat) : State :=
  s.originate p ⟨false, hopHeader 0x5D s.ropeAddr dst 0 0 (tag + 256 * result), none, none⟩

/-- Queue a received mail, up to 16 (R358): the RESULT. -/
def State.queueMail (s : State) (src : Nat) (payload : List Byte) : Nat × State :=
  if s.rope.mails.length < 16 then
    (0, ({ s with rope := { s.rope with mails := s.rope.mails ++ [Mail.mk src payload] } }).raise Ev.ROPE_MAIL_RX)
  else (1, s.mailDrop)

/-- Whether a mail is too long for the pitch it leaves on (R346). -/
def State.mailTooLong (s : State) (p : Port) (len : Nat) : Bool := s.pitchUp p && s.pitchVer p == 1 && decide (32 < len)

/-- A mail for this tile is queued and answered on the port it came in on (R358). -/
def State.takeMail (s : State) (p : Port) (msg : List Byte) : State :=
  let r := s.queueMail (byteAt msg 1) ((msg.drop 8).take (8 * leAt msg 4 2 - byteAt msg 7))
  r.2.sendMailAck p (byteAt msg 1) (byteAt msg 6) r.1

/-- A mail passes on to the other port, unless it is too long for the pitch there (R341, R346). -/
def State.passMail (s : State) (p : Port) (msg : List Byte) : State :=
  if s.mailTooLong p.other (leAt msg 4 2) then
    ((s.consumeHop p msg).mailDrop).sendMailAck p (byteAt msg 1) (byteAt msg 6) 2
  else s.forwardHop p msg

/-- MAIL (R341, R346, R358): a broadcast is taken and passed on. -/
def State.onMail (s : State) (p : Port) (msg : List Byte) : State :=
  if byteAt msg 2 = 0 then (s.passMail p msg).takeMail p msg
  else if byteAt msg 2 = s.ropeAddr then (s.consumeHop p msg).takeMail p msg
  else s.passMail p msg

def execMail (p : Port) (msg : List Byte) (s : State) : Host.Outcome State Fault Refusal :=
  .next (if s.pitchUp p then s.onMail p msg else s)

/-- LEAVE from the partner (R359). -/
def execLeaveMessage (p : Port) (s : State) : Host.Outcome State Fault Refusal :=
  .next (if s.pitchUp p && s.pitchVer p == 2 then (s.pitchDown p false .left).settleRope else s)

/-- Send LEAVE four times on a version 2 pitch in UP (R359, Table 13-5). -/
def State.sendLeave (s : State) (p : Port) : State :=
  if s.pitchUp p && s.pitchVer p == 2 then
    (List.range 4).foldl (fun s _ => s.sendLocal p (leBytes 0x54 1 ++ leBytes 0 7)) s
  else s

/-- An orderly leave starts (R359). -/
def State.startLeave (s : State) : State :=
  (((s.sendLeave .up).sendLeave .dn).setAddress 0).wrB F.ROPE_STATUS_LEFT true

def execLeave (s : State) : Host.Outcome State Fault Refusal := .next (if s.bar0Open then s.startLeave else s)

/-- Both ports are held DOWN (R359). -/
def State.holdDown (s : State) : State :=
  let s := { s with rope := { s.rope with heldDown := true } }
  (s.pitchDown .up false .quiet).pitchDown .dn false .quiet

/-- LEAVE_HOLD_DOWN: 100 us after the LEAVE (R359). -/
def execLeaveHoldDown (s : State) : Host.Outcome State Fault Refusal :=
  .next (if s.rdB F.ROPE_STATUS_LEFT then s.holdDown else s)

/-- JOIN clears LEFT and releases ports that are not released; HEAD_WAIT_MS counts afresh (R353, R359). -/
def State.join (s : State) : State :=
  if s.rdB F.ROPE_STATUS_LEFT || !s.rope.released then (s.wrB F.ROPE_STATUS_LEFT false).releaseRope
  else { s with rope := { s.rope with headWaited := false } }

def execJoin (s : State) : Host.Outcome State Fault Refusal := .next (if s.bar0Open then s.join else s)

/-- RETRAIN takes a pitch in UP to DOWN, from where it trains again (Table 13-3). -/
def State.retrainPort (s : State) (p : Port) : State :=
  if s.pitchUp p then (s.pitchDown p false .break).settleRope else s

def execRetrainUp (s : State) : Host.Outcome State Fault Refusal := .next (if s.bar0Open then s.retrainPort .up else s)
def execRetrainDn (s : State) : Host.Outcome State Fault Refusal := .next (if s.bar0Open then s.retrainPort .dn else s)

/-- HEAD_WAIT_EXPIRY (R353). -/
def execHeadWaitExpiry (s : State) : Host.Outcome State Fault Refusal :=
  .next (if s.rope.released && !s.rope.headWaited then
      let s := { s with rope := { s.rope with headWaited := true } }
      if s.pitchUp .up || s.rdB F.ROPE_STATUS_LEFT then s else s.becomeHead
    else s)

/-- ROPE_NO_HEAD (R355). -/
def execRopeNoHead (s : State) : Host.Outcome State Fault Refusal :=
  .next (if s.pitchUp .up && !s.rope.enumSeen && !s.rdB F.ROPE_STATUS_NO_HEAD then
      (s.wrB F.ROPE_STATUS_NO_HEAD true).raise Ev.ROPE_NO_HEAD else s)

/-- ROPE_CNT_CLEAR. -/
def execRopeCntClear (s : State) : Host.Outcome State Fault Refusal :=
  .next (if s.bar0Open then s.clearCounters 0x80040 4 else s)

/-- A message ready to send waits for credit (R352). -/
def State.belayStalled (s : State) : Bool :=
  [Port.up, Port.dn].any fun p =>
    s.pitchUp p && !(s.pitch p).retrain && (s.pitch p).txq.any fun m =>
      (s.carryLane p m.mail).isSome && !(s.pitch p).credit m.mail m.blocks

end Sys2Proof.Machine
end

