-- ==== Sys2Proof/Machine/Mbox.lean ====
section
/-!
DEFINITION. Data buffers of descriptors (R43), and the mailbox requests of the MGMT ring: requests to firmware and rope mail
(Table 2-7, R358).
-/
namespace Sys2Proof.Machine

/-- A buffer's device addresses lie inside the engine's rights (R43). -/
def State.bufOk (s : State) (e : Engine) (write : Bool) (a n : Nat) : Bool := isHost a || s.rangeOk e write (a - 2 ^ 63) (max 1 n)

/-- The `n` bytes of a buffer: `data` where it lies in host memory, else as the engine reads device memory. -/
def State.bufBytes (s : State) (e : Engine) (a n : Nat) (data : List Byte) : List MByte :=
  if isHost a then (padTo n 0 data).map fun b => ⟨b, false⟩ else s.peekFor e (a - 2 ^ 63) n

/-- The effects of reading a buffer. -/
def State.bufRead (s : State) (c : MemClass) (e : Engine) (a n : Nat) : State :=
  if isHost a then s.account .host n else s.readFor c e (a - 2 ^ 63) n

/-- Write a buffer; host memory takes poison with the indication of PCIe (Table 12-2). -/
def State.bufWrite (s : State) (c : MemClass) (e : Engine) (a : Nat) (bs : List Byte) (poison : Bool := false) : State :=
  if isHost a then (s.account .host bs.length).emit (.hostWrite a bs poison) else s.writeFor c e (a - 2 ^ 63) bs

/-- Fields of an MBOX descriptor (Table 2-8). -/
def Desc.mboxReq (d : Desc) : Nat := leAt d.bytes 8 8
def Desc.mboxLen (d : Desc) : Nat := leAt d.bytes 16 4
def Desc.mboxRsp (d : Desc) : Nat := leAt d.bytes 24 8
def Desc.mboxMax (d : Desc) : Nat := leAt d.bytes 32 4

/-- MBOX's checks. -/
def State.mboxChecks (s : State) (_r : Ring) (d : Desc) : List (Bool × Nat) :=
  [(d.restZero [(8, 12), (24, 12)] && addrForm d.mboxReq && addrForm d.mboxRsp && decide (8 ≤ d.mboxLen) &&
      decide (d.mboxLen ≤ 4096), Cpl.BAD_FIELD),
   (s.bufOk .mgmt false d.mboxReq d.mboxLen && s.bufOk .mgmt true d.mboxRsp d.mboxMax, Cpl.BAD_ADDRESS)]

/-- The request bytes. -/
def State.reqBytes (s : State) (d : Desc) (req : List Byte) : List Byte :=
  (s.bufBytes .mgmt d.mboxReq d.mboxLen req).map MByte.val

/-- Which request it is: 0x10 SEND and 0x11 RECV in the form of Table 13-9, 0 for every other request, which firmware
answers. -/
def mboxKind (q : List Byte) : Nat :=
  if byteAt q 0 = 0x10 ∧ 1 ≤ byteAt q 1 ∧ 1 ≤ leAt q 2 2 ∧ leAt q 2 2 ≤ 4096 ∧ leAt q 4 4 = 0 then 0x10
  else if byteAt q 0 = 0x11 ∧ leAt q 1 7 = 0 then 0x11
  else 0

/-- POISON of a request read from device memory (Tables 2-6, 12-2). -/
def State.reqPoison (s : State) (d : Desc) (req : List Byte) : Bool := (s.bufBytes .mgmt d.mboxReq d.mboxLen req).any MByte.poison

/-- POISON of a completion. -/
def flagPoison (b : Bool) : Nat := if b then CFlag.POISON else 0

/-- Run an MBOX descriptor whose request is of one kind; a descriptor that fails its checks counts as kind 0. -/
def State.opMbox (s : State) (ring kind : Nat) (req : List Byte) (go : Ring → Desc → List Byte → Bool → State → State) : State :=
  match s.nextOp ring 0x60 with
  | none => s
  | some (r, d) =>
    let bad := firstBad ((s.opAllowed r.cls 0x60, 0) :: (s.headerOk d, 0) :: s.mboxChecks r d)
    let k := if bad.isSome then 0 else mboxKind (s.reqBytes d req)
    if k = kind then
      s.withOp ring 0x60 s.mboxChecks fun r d s =>
        go r d (s.reqBytes d req) (s.reqPoison d req) (s.bufRead .host .mgmt d.mboxReq d.mboxLen)
    else s

/-- Write a response, cut to RSP_MAX, and complete with its length (Table 2-7). -/
def State.respond (s : State) (ring idx a most : Nat) (bs : List Byte) (flags : Nat) : State :=
  (s.bufWrite .host .mgmt a (bs.take most)).complete ring idx Cpl.SUCCESS (min most bs.length) flags

/-- MBOX: firmware's answer is left open, in bytes and in length up to RSP_MAX. -/
def State.mboxOther (s : State) (r : Ring) (d : Desc) (bad : Bool) : State :=
  let n := Config.freeNat s.freeCtr % (d.mboxMax + 1)
  let bs := (List.range n).map fun i => Config.freeByte (s.freeCtr + 1 + i)
  (s.drawn (n + 1)).respond r.num d.idx d.mboxRsp d.mboxMax bs (flagPoison bad)

def execMbox (ring : Nat) (req : List Byte) (s : State) : Host.Outcome State Fault Refusal :=
  .next (s.opMbox ring 0 req fun r d _ bad s => s.mboxOther r d bad)

/-- The response to a SEND (Table 13-9). -/
def sendResponse (result addr : Nat) : List Byte := leBytes result 1 ++ leBytes addr 1 ++ leBytes 0 6

/-- A SEND ends with a result. -/
def State.endSend (s : State) (w : SendWait) (result addr : Nat) : State :=
  match (s.descsOf w.ring).find? fun d => d.idx == w.idx && d.phase == .running with
  | some d => s.respond w.ring w.idx w.resp d.mboxMax (sendResponse result addr) (flagPoison w.poison)
  | none => s

/-- The port a mail leaves on: addresses rise downward (R354). -/
def State.mailPort (s : State) (dst : Nat) : Port := if dst < s.ropeAddr then .up else .dn

/-- The payload of a SEND: bytes that LENGTH counts beyond the request, which REQ_LEN bounds, are free (log entry 1313). -/
def State.mailPayload (s : State) (q : List Byte) : List Byte :=
  let len := leAt q 2 2
  (q.drop 8).take len ++ (List.range (len + 8 - q.length)).map fun i => Config.freeByte (s.freeCtr + i)

/-- SEND (R346, R358). -/
def State.doSend (s : State) (r : Ring) (d : Desc) (q : List Byte) (bad : Bool) : State :=
  let dst := byteAt q 1
  let len := leAt q 2 2
  let n := ceilDiv len 8
  let payload := s.mailPayload q
  let s := s.drawn (len + 8 - q.length)
  let w : SendWait := ⟨r.num, d.idx, s.rope.mailTag, dst, d.mboxRsp, bad⟩
  let p := s.mailPort dst
  if s.ropeAddr = 0 ∨ (s.pitchUp .up || s.pitchUp .dn) = false then s.endSend w 4 0
  else if dst = s.ropeAddr then
    let x := s.queueMail dst payload
    x.2.endSend w x.1 dst
  else if s.mailTooLong p n then s.mailDrop.endSend w 2 s.ropeAddr
  else
    let (ts, s) := s.takeTs 2 w.tag
    let m : HopMsg := ⟨true, hopHeader 0x5C s.ropeAddr dst (b2n ts.isSome) n (w.tag + 256 * (8 * n - len)) ++ padTo (8 * n) 0 payload,
      ts, none⟩
    ({ s with rope := { s.rope with mailTag := (s.rope.mailTag + 1) % 256, send := s.rope.send ++ [w] } }).originate p m

def execSend (ring : Nat) (req : List Byte) (s : State) : Host.Outcome State Fault Refusal :=
  .next (s.opMbox ring 0x10 req fun r d q bad s => s.doSend r d q bad)

/-- RECV (R358): the oldest queued mail, or an empty queue. -/
def State.doRecv (s : State) (r : Ring) (d : Desc) (bad : Bool) : State :=
  match s.rope.mails with
  | [] => s.respond r.num d.idx d.mboxRsp d.mboxMax (leBytes 1 1 ++ leBytes 0 7) (flagPoison bad)
  | m :: ms =>
    ({ s with rope := { s.rope with mails := ms } }).respond r.num d.idx d.mboxRsp d.mboxMax
      (leBytes 0 1 ++ leBytes m.src 1 ++ leBytes m.bytes.length 2 ++ leBytes 0 4 ++ m.bytes) (flagPoison bad)

def execRecv (ring : Nat) (req : List Byte) (s : State) : Host.Outcome State Fault Refusal :=
  .next (s.opMbox ring 0x11 req fun r d _ bad s => s.doRecv r d bad)

/-- A SEND with a tag ends. -/
def State.endTag (s : State) (tag result addr : Nat) : State :=
  match s.rope.send.find? fun w => w.tag == tag with
  | some w => ({ s with rope := { s.rope with send := s.rope.send.erase w } }).endSend w result addr
  | none => s

/-- MAIL_ACK: for this tile it ends the SEND, else it is forwarded; a broadcast does both (R341, R358). -/
def State.onMailAck (s : State) (p : Port) (msg : List Byte) : State :=
  let s := if byteAt msg 2 ≠ 0 ∧ byteAt msg 2 = s.ropeAddr then s.consumeHop p msg else s.forwardHop p msg
  if byteAt msg 2 = 0 ∨ byteAt msg 2 = s.ropeAddr then s.endTag (byteAt msg 6) (byteAt msg 7) (byteAt msg 1) else s

def execMailAck (p : Port) (msg : List Byte) (s : State) : Host.Outcome State Fault Refusal :=
  .next (if s.pitchUp p then s.onMailAck p msg else s)

/-- MAIL_ACK_TIMEOUT: 10 ms without a MAIL_ACK (R358). -/
def execMailAckTimeout (tag : Nat) (s : State) : Host.Outcome State Fault Refusal := .next (s.endTag tag 3 0)

end Sys2Proof.Machine
end

