-- ==== Sys2Proof/Machine/DecPics.lean ====
section
/-!
DEFINITION. The decode engine's pictures (chapter 4): slots and pins, row states, concealment, references, and the completion of
STREAM descriptors.
-/
namespace Sys2Proof.Machine

/-- The coded extent of R88. -/
def ViewPic.cw (v : ViewPic) : Nat := 8 * ceilDiv v.sw 8
def ViewPic.ch (v : ViewPic) : Nat := 8 * ceilDiv v.sh 8
/-- Superblock columns and rows (R88). -/
def ViewPic.sbc (v : ViewPic) : Nat := ceilDiv v.cw 32
def ViewPic.sbr (v : ViewPic) : Nat := ceilDiv v.ch 32

/-- The rows of a plane. -/
def Pic.rows (p : Pic) (depth : Bool) : List SbRow := if depth then p.dep else p.tex

/-- A row nothing has covered. -/
def SbRow.fresh : SbRow := { kind := .empty, ready := false, ver := 0, reads := [], slice := 0, src := none, feed := none }

/-- One row of a plane. -/
def Pic.row (p : Pic) (depth : Bool) (r : Nat) : SbRow := (p.rows depth).getD r SbRow.fresh

/-- Change one row of a plane. -/
def Pic.modRow (p : Pic) (depth : Bool) (r : Nat) (f : SbRow → SbRow) : Pic :=
  if depth then { p with dep := p.dep.modify r f } else { p with tex := p.tex.modify r f }

/-- Every row is ready (R116). -/
def Pic.allReady (p : Pic) : Bool := p.tex.all SbRow.ready && p.dep.all SbRow.ready

/-- Lines of superblock row r. -/
def Pic.lines (p : Pic) (r : Nat) : Nat := min 32 (p.vp.ch - 32 * r)

/-- Bytes a sample takes in a plane (Table 4-1). -/
def sampleLen (depth : Bool) : Nat := if depth then 2 else 4

/-- Address of sample (x, y) of a plane (Table 4-1). -/
def Pic.sampleAddr (p : Pic) (depth : Bool) (x y : Nat) : Nat :=
  p.addr + (if depth then 4 * p.vp.cw * p.vp.ch else 0) + sampleLen depth * (y * p.vp.cw + x)

/-- Address and length of superblock row r of a plane. -/
def Pic.rowSpan (p : Pic) (depth : Bool) (r : Nat) : Nat × Nat :=
  (p.sampleAddr depth 0 (32 * r), sampleLen depth * p.vp.cw * p.lines r)

/-- The flat values of R127 and R128 as a sample's bytes. -/
def flatBytes (depth : Bool) : List Byte := if depth then leBytes 0 2 else leBytes 0x20080200 4

/-- Change the decode engine. -/
def State.modDec (s : State) (f : DecSt → DecSt) : State := { s with dec := f s.dec }

/-- The version of a picture that decoding uses (R136). -/
def DecSt.decPic (d : DecSt) (uid : Nat) : Option Pic :=
  match d.pics.find? fun p => p.uid == uid && p.repair with
  | some p => some p
  | none => d.pics.find? fun p => p.uid == uid && !p.stale

/-- A row of a picture, as the squash set names it. -/
abbrev RowId := Nat × Bool × Nat

/-- The version number of a row as decoding uses it. -/
def DecSt.verOf (d : DecSt) (r : RowId) : Nat :=
  match d.decPic r.1 with
  | none => 0
  | some p => (p.row r.2.1 r.2.2).ver

/-- The versions decoding uses. -/
def DecSt.decPics (d : DecSt) : List Pic :=
  d.pics.filter fun p => !p.stale && (p.repair || !d.pics.any fun q => q.uid == p.uid && q.repair)

/-- The published versions (R137, R138). -/
def DecSt.shownPics (d : DecSt) : List Pic := d.pics.filter fun p => !p.stale && !p.repair

/-- Replace the picture at an address. -/
def DecSt.setPic (d : DecSt) (p : Pic) : DecSt := { d with pics := d.pics.map fun q => if q.addr = p.addr then p else q }

/-- Change the version of a picture that decoding uses. -/
def DecSt.modPic (d : DecSt) (uid : Nat) (f : Pic → Pic) : DecSt :=
  match d.decPic uid with
  | none => d
  | some p => d.setPic (f p)

/-- The newest of a list of pictures, by admission (R484). -/
def newestPic : List Pic → Option Pic
  | [] => none
  | p :: ps =>
    match newestPic ps with
    | none => some p
    | some q => some (if q.uid < p.uid then p else q)

/-- The held picture of an anchor that an AU_ID names: the one admitted last (R484). -/
def DecSt.namedPic (d : DecSt) (anchor au : Nat) : Option Pic :=
  newestPic (d.shownPics.filter fun p => p.anchor == anchor && p.au == au)

/-- Admissions in the temporal buffer of an anchor (R89). -/
def DecSt.tempOf (d : DecSt) (anchor : Nat) : List Nat := d.temporal.getD anchor []

/-- The pictures of a temporal buffer, newest first, as decoding uses them. -/
def DecSt.tempPics (d : DecSt) (anchor : Nat) : List Pic := (d.tempOf anchor).filterMap d.decPic

/-- A picture some unfinished picture reads (R116). -/
def DecSt.needed (d : DecSt) (uid : Nat) : Bool :=
  d.decPics.any fun q => !q.allReady &&
    (q.refs.any (fun r => r.entry == .pic uid) ||
      (q.tex ++ q.dep).any fun r => r.kind == .concealed && r.src == some uid)

/-- A slot is pinned (R116). -/
def State.pinned (s : State) (p : Pic) : Bool :=
  let d := s.dec
  if p.stale then p.stalePin
  else
    (d.tempOf p.anchor).contains p.uid ||
      ([s.scn.auScan, s.scn.auNext].any fun a => match a with
        | some id => p.au == id && (d.namedPic p.anchor id).map Pic.uid == some p.uid
        | none => false) ||
      d.pics.any (fun q => q.uid == p.uid && q.repair) || d.needed p.uid

/-- An empty slot of an anchor, if there is one: R117 and R135 do not say which, so of several it is a free one (log entry 403). -/
def State.emptySlot (s : State) (anchor : Nat) : Option Nat :=
  match (List.range s.dec.cfg.slots).filter fun k => !s.dec.pics.any fun p => p.anchor == anchor && p.slot == k with
  | [] => none
  | [k] => some k
  | k :: ks => some ((k :: ks).getD (Config.freeNat s.freeCtr % (ks.length + 1)) k)

/-- The unpinned slot of an anchor with the earliest admitted picture, of the pictures `may` allows (R117, R135). -/
def State.reuseSlot (s : State) (anchor : Nat) (may : Pic → Bool) : Option Nat :=
  ((sortBy Pic.uid (s.dec.pics.filter fun p => p.anchor == anchor && !s.pinned p && may p)).head?).map Pic.slot

/-- The slot a new picture of an anchor takes (R117): an empty one, else the unpinned slot with the earliest admitted picture. -/
def State.chooseSlot (s : State) (anchor : Nat) : Option Nat := (s.emptySlot anchor).or (s.reuseSlot anchor fun _ => true)

/-- The address of slot k of an anchor (R113). -/
def DecCfg.slotAddr (c : DecCfg) (anchor k : Nat) : Nat := c.poolBase + (anchor * c.slots + k) * c.stride * 4096

/-- Empty a slot. -/
def DecSt.freeSlot (d : DecSt) (anchor k : Nat) : DecSt :=
  { d with pics := d.pics.filter fun p => !(p.anchor == anchor && p.slot == k) }

/-- Open a picture's late window at its first concealed row (R132). -/
def State.openWindow (s : State) (p : Pic) : Pic :=
  match p.win with
  | .unopened => { p with win := if s.rd F.DEC_CTRL_LATE_WIN = 0 then .closed else .opened (s.rd F.DEC_CTRL_LATE_WIN) }
  | _ => p

/-- The source picture of R127. -/
def DecSt.sourceOf (d : DecSt) (p : Pic) : Option Nat :=
  ((d.tempPics p.anchor).find? fun q => decide (q.uid < p.uid) && q.vp.scale == p.vp.scale && q.vp.gl == p.vp.gl &&
    q.vp.gt == p.vp.gt && q.vp.cw == p.vp.cw && q.vp.ch == p.vp.ch).map Pic.uid

/-- Conceal one row of the version decoding uses (R127, R132): it waits for its copy. A row concealed again keeps its source, and
the reference rows read for it before it was concealed stay in its read set (R124). -/
def State.concealRow (s : State) (uid : Nat) (depth : Bool) (r : Nat) (feed : Option Nat) : State :=
  match s.dec.decPic uid with
  | none => s
  | some p =>
    let src := match (p.row depth r).src with
      | some u => some u
      | none => s.dec.sourceOf p
    let p := (s.openWindow p).modRow depth r fun w => { w with kind := .concealed, ready := false, src := src, feed := feed }
    (s.modDec fun d => { d.setPic p with concealed := true }).bump (F.DEC_CNT_COUNT 1)

/-- Conceal rows of a picture and report it (DEC_CONCEAL, Table 4-4). -/
def State.concealRows (s : State) (uid : Nat) (feed : Option Nat) (rows : List (Bool × Nat)) : State :=
  if rows.isEmpty then s
  else (rows.foldl (fun s r => s.concealRow uid r.1 r.2 feed) s).raise Ev.DEC_CONCEAL

/-- The rows of a picture in a given state. -/
def Pic.rowsIn (p : Pic) (k : RowKind) : List (Bool × Nat) :=
  (((List.range p.tex.length).filter fun r => (p.row false r).kind == k).map fun r => (false, r)) ++
    ((List.range p.dep.length).filter fun r => (p.row true r).kind == k).map fun r => (true, r)

/-- The concealed rows that wait for their samples, in a fixed order (R127). -/
def DecSt.copiesDue (d : DecSt) : List (Pic × Bool × Nat) :=
  d.decPics.flatMap fun p => ((p.rowsIn .concealed).filter fun r => !(p.row r.1 r.2).ready).map fun r => (p, r.1, r.2)

/-- Mark POISON for a feed's completion (R129). -/
def DecSt.markPoison (d : DecSt) (feed : Option Nat) : DecSt :=
  { d with feeds := d.feeds.map fun f => if some f.fid = feed then { f with poison := true } else f }

/-- Source samples with each poisoned one made flat (R129). -/
def unpoison (depth : Bool) (bs : List MByte) : List Byte :=
  (List.range (bs.length / sampleLen depth)).flatMap fun i =>
    let b := (bs.drop (sampleLen depth * i)).take (sampleLen depth)
    if b.any MByte.poison then flatBytes depth else b.map MByte.val

/-- An engine write inside a bounds window (R118): outside the protection windows it is suppressed and DEC_BOUNDS raised. -/
def State.decWrite (s : State) (a : Nat) (bs : List Byte) : State :=
  let s' := s.writeFor .dec .dec a bs
  if s.rangeOk .dec true a bs.length then s' else s'.raise Ev.DEC_BOUNDS

/-- The samples of a concealed row are written (R127, R129): from the ready source row `src`, or flat. -/
def State.writeConceal (s : State) (p : Pic) (depth : Bool) (r : Nat) (src : Option Pic) : State :=
  let span := p.rowSpan depth r
  match src with
  | none =>
    (s.decWrite span.1 ((List.range (p.vp.cw * p.lines r)).flatMap fun _ => flatBytes depth)).modDec fun d =>
      d.modPic p.uid fun p => p.modRow depth r fun w => { w with ready := true }
  | some q =>
    let from_ := (q.rowSpan depth r).1
    let bs := s.peekFor .dec from_ span.2
    let s := s.readFor .dec .dec from_ span.2
    let s := if s.rangeOk .dec false from_ span.2 then s else s.raise Ev.DEC_BOUNDS
    let s := if bs.any MByte.poison then s.modDec fun d => d.markPoison (p.row depth r).feed else s
    (s.decWrite span.1 (unpoison depth bs)).modDec fun d =>
      d.modPic p.uid fun p => p.modRow depth r fun w =>
        { w with ready := true, reads := ⟨q.uid, depth, r, (q.row depth r).ver⟩ :: w.reads }

/-- CONCEAL_COPY: the n-th waiting row copies its source row once that is ready (R127). -/
def State.concealCopy (s : State) (n : Nat) : State :=
  match s.dec.copiesDue[n]? with
  | none => s
  | some (p, depth, r) =>
    match (p.row depth r).src.bind s.dec.decPic with
    | none => s.writeConceal p depth r none
    | some q => if (q.row depth r).ready then s.writeConceal p depth r (some q) else s

/-- The decode engine runs: S0 (Table 16-3). -/
def State.decRuns (s : State) : Bool := s.pwr.st == .s0

def execConcealCopy (n : Nat) (s : State) : Host.Outcome State Fault Refusal :=
  .next (if s.decRuns then s.concealCopy n else s)

/-- Substitute a reference (R128): the newest earlier picture of the anchor with the same scale, else the flat picture. -/
def DecSt.substitute (d : DecSt) (anchor before scale : Nat) : RefEntry :=
  match (d.tempPics anchor).find? fun q => decide (q.uid < before) && q.vp.scale == scale with
  | some q => .pic q.uid
  | none => .flat

/-- Report substituted list entries (R128, R142). -/
def State.countSubst (s : State) : Nat → State
  | 0 => s
  | n + 1 => ((((s.modDec fun d => { d with concealed := true }).bump (F.DEC_CNT_COUNT 3)).raise Ev.DEC_REF_SUBST).countSubst n)

/-- Settle the awaited entries of one picture that name an anchor: by `e`, or by a substitute (R91, R128). -/
def State.settleAwaited (s : State) (uid anchor before : Nat) (e : Option (Nat × Nat)) : State :=
  match s.dec.decPic uid with
  | none => s
  | some p =>
    let hit := fun (r : PicRef) => r.entry == .awaited && r.anchor == anchor
    match e with
    | some (named, scale) =>
      if scale = p.vp.scale then
        s.modDec fun d => d.modPic uid fun p => { p with refs := p.refs.map fun r => if hit r then { r with entry := .pic named } else r }
      else
        (s.modDec fun d => d.modPic uid fun p =>
          { p with refs := p.refs.map fun r => if hit r then { r with entry := d.substitute anchor before p.vp.scale } else r }).countSubst
            (p.refs.filter hit).length
    | none =>
      (s.modDec fun d => d.modPic uid fun p =>
        { p with refs := p.refs.map fun r => if hit r then { r with entry := d.substitute anchor before p.vp.scale } else r }).countSubst
          (p.refs.filter hit).length

/-- One picture passes the event of R125: its EMPTY rows become CONCEALED and its awaited entries are substituted. -/
def State.passPic (s : State) (before : Nat) (p : Pic) : State :=
  let s := p.refs.foldl (fun s r => if r.entry == .awaited then s.settleAwaited p.uid r.anchor before none else s) s
  let s := s.concealRows p.uid none (p.rowsIn .empty)
  s.modDec fun d => d.modPic p.uid fun p => { p with passed := true }

/-- Missing pictures of the access unit that ends (R125). -/
def DecSt.missing (d : DecSt) (c : CurAu) : Nat :=
  match d.grid with
  | none => 0
  | some g => ((List.range g.pos.length).filter fun a => !c.done.contains a).length

/-- Record missing pictures (R125). -/
def State.recordMissing (s : State) (n : Nat) : State :=
  if n = 0 then s
  else ((s.bump (F.DEC_CNT_COUNT 2) n).modDec fun d => { d with concealed := true }).raise Ev.DEC_CONCEAL

/-- Every picture that the event of R125 has not yet met passes it. -/
def State.passPics (s : State) (before : Nat) : State :=
  (s.dec.decPics.filter fun p => !p.passed).foldl (fun s p => s.passPic before p) s

/-- The event of R125 for the access unit in parse. -/
def State.endAu (s : State) : State :=
  match s.dec.cur with
  | none => s
  | some c =>
    if !c.live then s
    else
      let s := s.passPics c.seq
      let s := s.recordMissing (s.dec.missing c)
      s.modDec fun d => { d with cur := some { c with live := false } }

/-- A feed's completion status (R141). -/
def Feed.status (f : Feed) : Nat :=
  if f.unsupported then Cpl.STREAM_UNSUPPORTED else if f.damaged then Cpl.STREAM_DAMAGED else Cpl.SUCCESS

/-- A feed reaches its retire point (Table 2-7): a buffer when every slice of it has ended, a loop when its last repetition is
parsed or it is stopped. -/
def DecSt.feedDone (d : DecSt) (f : Feed) : Bool :=
  !f.isReset && f.parsed && (f.isLoop || !d.jobs.any fun j => j.feed == some f.fid)

/-- Complete every feed that has reached its retire point (R141). -/
def State.settleFeeds (s : State) : State :=
  (s.dec.feeds.filter s.dec.feedDone).foldl (fun s f =>
    (s.complete f.ring f.idx f.status (if f.isLoop then f.played else f.consumed) (if f.poison then CFlag.POISON else 0)).modDec
      fun d => { d with feeds := d.feeds.filter fun g => g.fid != f.fid }) s

/-- A parcel or slice is abandoned as damaged (R76). -/
def State.damagedFeed (s : State) (feed : Option Nat) : State :=
  (s.modDec fun d => { d with feeds := d.feeds.map fun f => if some f.fid = feed then { f with damaged := true } else f }).raise
    Ev.DEC_DAMAGED

/-- Drop a slice from the engine. -/
def DecSt.dropJob (d : DecSt) (j : Job) : DecSt :=
  { d with jobs := d.jobs.filter fun k => !(k.sid == j.sid && k.feed == j.feed && k.only == j.only && k.uid == j.uid) }

/-- Replace a slice. -/
def DecSt.setJob (d : DecSt) (j : Job) : DecSt :=
  { d with jobs := d.jobs.map fun k => if k.sid == j.sid && k.feed == j.feed && k.only == j.only && k.uid == j.uid then j else k }

/-- The rows a slice has still to make. -/
def Job.left (j : Job) : List Nat := j.only.filter fun r => decide (j.row ≤ r)

/-- The reference rows read for the row a slice is at (R124). -/
def State.noteReads (s : State) (j : Job) (reads : List RowRef) : State :=
  s.modDec fun d => d.modPic j.uid fun p => p.modRow j.depth j.row fun w => { w with reads := reads }

/-- A slice is abandoned after acceptance (R120): its finished rows stay, the rest are concealed at once. -/
def State.abandonJob (s : State) (j : Job) : State :=
  let s := (s.modDec fun d => d.dropJob j).concealRows j.uid j.feed (j.left.map fun r => (j.depth, r))
  (s.damagedFeed j.feed).settleFeeds

/-- An accepted slice is abandoned because an access was stopped (R118). -/
def State.boundsStop (s : State) (j : Job) : State := (s.raise Ev.DEC_BOUNDS).abandonJob j

/-- LATE_WINDOW_CLOSE: windows whose closing frame start has come are closed (R132). -/
def State.closeWindows (s : State) : State :=
  s.modDec fun d => { d with pics := d.pics.map fun p => if p.win == .opened 0 then { p with win := .closed } else p }

def execLateWindowClose (s : State) : Host.Outcome State Fault Refusal := .next s.closeWindows

/-- A frame start: one less to each open window (R132), and slots replaced by a publication are released (R137). -/
def State.decFrameStart (s : State) : State :=
  s.modDec fun d => { d with pics := d.pics.map fun p =>
    { p with
      stalePin := false
      win := match p.win with | .opened n => .opened (n - 1) | w => w } }

/-- DEC_CNT_CLEAR (Table 4-5). -/
def execDecCntClear (s : State) : Host.Outcome State Fault Refusal :=
  .next (if s.bar0Open then s.clearCounters 0xA0040 9 else s)

end Sys2Proof.Machine
end

