-- ==== Sys2Proof/Machine/DecLane.lean ====
section
/-!
DEFINITION. The decode lanes (chapter 4, R109 to R124): slices taken from the queue, superblock rows decoded, suspended, made final
or concealed.
-/
namespace Sys2Proof.Machine

/-- What the parse of a slice of a picture depends on. -/
def Pic.ctx (p : Pic) (depth : Bool) : SliceCtx :=
  { cw := p.vp.cw, ch := p.vp.ch, nc := if depth then 1 else 3, sbQp := p.vp.sbQp, nTref := p.vp.nTref, nRef := p.refs.length }

/-- Sample depth of a plane (R98). -/
def planeBits (depth : Bool) : Nat := if depth then 16 else 10

/-- A component of a sample word (Table 4-1). -/
def compOf (depth : Bool) (c w : Nat) : Nat := if depth then w else bits w (20 - 10 * c) 10

/-- A sample word from its components. -/
def sampleWord (depth : Bool) (cs : List Nat) : Nat :=
  if depth then cs.getD 0 0 else cs.getD 0 0 * 2 ^ 20 + cs.getD 1 0 * 2 ^ 10 + cs.getD 2 0

/-- The QP of component c (R105). -/
def Pic.qp (p : Pic) (depth : Bool) (c : Nat) (sliceDelta sbDelta : Int) : Nat :=
  if depth then qpOf p.vp.qpDepth sliceDelta sbDelta 0
  else qpOf p.vp.qpTex sliceDelta sbDelta (if c = 0 then p.vp.qpOffR else if c = 1 then 0 else p.vp.qpOffB)

/-- The vector of an inter or SKIP unit in quarter samples (R102). -/
def vecOf (r : PicRef) (u : Unit8) : Int × Int :=
  if r.temporal then (u.mx, u.my) else (u.mx * sgn r.du, u.mx * sgn r.dv)

/-- The reference a unit reads, as decoding uses it. -/
inductive RefPic where
  | awaited
  | flat
  /-- The picture's slot has been reused: the spec states no samples. -/
  | lost
  | held (q : Pic)
  deriving DecidableEq, Repr

/-- The reference of list entry i (R90, R128). -/
def State.refPic (s : State) (p : Pic) (i : Nat) : RefPic :=
  match p.refs[i]? with
  | none => .lost
  | some r =>
    match r.entry with
    | .awaited => .awaited
    | .flat => .flat
    | .pic uid =>
      match s.dec.decPic uid with
      | none => .lost
      | some q => .held q

/-- The rectangle of reference samples a unit reads, after clamping to the stored extent (R103). -/
def refRect (q : Pic) (u : Unit8) (v : Int × Int) : (Nat × Nat) × (Nat × Nat) :=
  let hold := fun (m : Nat) (z : Int) => clampN (m - 1) z
  let xs := tapRange u.x0 u.n v.1
  let ys := tapRange u.y0 u.n v.2
  ((hold q.vp.sw xs.1, hold q.vp.sw xs.2), (hold q.vp.sh ys.1, hold q.vp.sh ys.2))

/-- A reconstructed coding unit: its place and the samples of each component. -/
structure Rec where
  u : Unit8
  comps : List (List Nat)
  deriving DecidableEq, Repr

/-- Why a lane stops within a row. -/
inductive LaneStop where
  | blocked (on : List WaitOn)
  | bounds
  deriving DecidableEq, Repr

/-- A row in reconstruction: units newest first, reference rows read with their list entry, memory spans read, poison met, and the
stop. -/
structure RowRun where
  recs : List Rec
  reads : List (Nat × Nat × Nat)
  spans : List (Nat × Nat)
  poison : Bool
  stop : Option LaneStop
  deriving DecidableEq, Repr

/-- A reconstructed sample of the current row or of the line above it, when available (R96). -/
def sampleAt (recs : List Rec) (above : List (List Nat)) (top : Nat) (cw c : Nat) (x y : Int) : Option Nat :=
  if y + 1 = top then
    if 0 ≤ x ∧ x < cw then ((above.getD c [])[x.toNat]?) else none
  else
    match recs.find? fun r => decide ((r.u.x0 : Int) ≤ x) && decide (x < r.u.x0 + r.u.n) && decide ((r.u.y0 : Int) ≤ y) &&
        decide (y < r.u.y0 + r.u.n) with
    | none => none
    | some r => (r.comps.getD c [])[(r.u.n * (y - r.u.y0) + (x - r.u.x0)).toNat]?

/-- The coded blocks of one component with their residuals (R105 to R107). -/
def residuals (p : Pic) (depth : Bool) (sliceDelta : Int) (cu : Cu) (c : Nat) : List (Nat × Nat × List Int) :=
  (cu.blocks.filter fun b => b.comp == c).map fun b =>
    (b.bx, b.by_, residualOf cu.nt (p.qp depth c sliceDelta cu.qpDelta) b.levels)

/-- Reconstruct one unit from a predictor of each component (R108). -/
def reconCu (p : Pic) (depth : Bool) (sliceDelta : Int) (cu : Cu) (pred : Nat → Nat → Nat → Int) : Rec :=
  ⟨cu.u, (List.range (if depth then 1 else 3)).map fun c =>
    reconComp (planeBits depth) cu.u.n cu.nt (pred c) (residuals p depth sliceDelta cu c)⟩

/-- The memory spans of a rectangle, a line each. -/
def rectSpans (q : Pic) (depth : Bool) (r : (Nat × Nat) × (Nat × Nat)) : List (Nat × Nat) :=
  (upFrom r.2.1 (r.2.2 + 1 - r.2.1)).map fun y => (q.sampleAddr depth r.1.1 y, sampleLen depth * (r.1.2 + 1 - r.1.1))

/-- A sample of a reference rectangle whose lines have been read: free where poisoned (R129: the row is concealed). -/
def rectSample (depth : Bool) (lines : List (List MByte)) (r : (Nat × Nat) × (Nat × Nat)) (ctr c : Nat) (x y : Int) : Nat :=
  let cx := max r.1.1 (min r.1.2 x.toNat)
  let cy := max r.2.1 (min r.2.2 y.toNat)
  let bs := ((lines.getD (cy - r.2.1) []).drop (sampleLen depth * (cx - r.1.1))).take (sampleLen depth)
  if bs.any MByte.poison then Config.freeNat (ctr + 4 * (cy * 8192 + cx) + c) % 2 ^ planeBits depth
  else compOf depth c (leAt (bs.map MByte.val) 0 (sampleLen depth))

/-- The superblock rows of a rectangle (R122). -/
def rectRows (r : (Nat × Nat) × (Nat × Nat)) : List Nat := upFrom (r.2.1 / 32) (r.2.2 / 32 + 1 - r.2.1 / 32)

/-- Reconstruct an inter or SKIP unit (R103, R122). -/
def State.interCu (s : State) (p : Pic) (j : Job) (run : RowRun) (cu : Cu) : RowRun :=
  let B := planeBits j.depth
  let put := fun (run : RowRun) (at_ : Nat → Int → Int → Int) (v : Int × Int) =>
    { run with recs := reconCu p j.depth j.qpDelta cu (fun c x y =>
        (interSample B (at_ c) (4 * ((cu.u.x0 + x : Nat) : Int) + v.1) (4 * ((cu.u.y0 + y : Nat) : Int) + v.2) : Nat)) :: run.recs }
  match s.refPic p cu.u.ref with
  | .awaited => { run with stop := some (.blocked [.entry cu.u.ref]) }
  | .flat => put run (fun _ _ _ => if j.depth then 0 else 512) (0, 0)
  | .lost => put run (fun c x y =>
      (Config.freeNat (s.freeCtr + cu.u.ref * 2 ^ 27 + 4 * ((y * 8192 + x).toNat) + c) % 2 ^ B : Nat)) (0, 0)
  | .held q =>
    let v := vecOf (p.refs.getD cu.u.ref ⟨.flat, 0, true, 0, 0⟩) cu.u
    let rect := refRect q cu.u v
    let waits := (rectRows rect).filter fun r => !(q.row j.depth r).ready
    let spans := rectSpans q j.depth rect
    let lines := spans.map fun sp => s.mem.peek sp.1 sp.2
    if !waits.isEmpty then { run with stop := some (.blocked (waits.map fun r => .row q.uid j.depth r)) }
    else if !spans.all fun sp => s.rangeOk .dec false sp.1 sp.2 then { run with stop := some .bounds }
    else
      put { run with
        reads := ((rectRows rect).map fun r => (cu.u.ref, q.uid, r)) ++ run.reads
        spans := spans ++ run.spans
        poison := run.poison || lines.any fun l => l.any MByte.poison }
        (fun c x y => (rectSample j.depth lines rect (s.freeCtr + cu.u.ref * 2 ^ 27) c x y : Nat)) v

/-- Reconstruct one unit, unless the row has stopped. -/
def State.stepRecon (s : State) (p : Pic) (j : Job) (above : List (List Nat)) (run : RowRun) (cu : Cu) : RowRun :=
  match run.stop with
  | some _ => run
  | none =>
    if cu.kind = .intra then
      let a := (List.range (if j.depth then 1 else 3)).map fun c =>
        neighbours (planeBits j.depth)
          (neighbourSamples (sampleAt run.recs above (32 * j.row) p.vp.cw c) cu.u.x0 cu.u.y0 cu.u.n)
      { run with recs := reconCu p j.depth j.qpDelta cu (fun c x y => intraSample cu.u.n cu.mode (a.getD c []) x y) :: run.recs }
    else s.interCu p j run cu

/-- The samples of a whole row from its units. -/
def rowSamples (recs : List Rec) (top lines cw nc : Nat) : List (List Nat) :=
  (List.range nc).map fun c => (List.range (lines * cw)).map fun i =>
    (sampleAt recs [] 0 cw c ((i % cw : Nat) : Int) ((top + i / cw : Nat) : Int)).getD 0

/-- The read set of a row (R124): for each list entry the range of the reference rows read, with the versions decoding uses. -/
def DecSt.readSet (d : DecSt) (depth : Bool) (reads : List (Nat × Nat × Nat)) : List RowRef :=
  ((reads.map fun r => (r.1, r.2.1)).eraseDups.flatMap fun e =>
    let rows := (reads.filter fun r => (r.1, r.2.1) == e).map fun r => r.2.2
    let lo := rows.foldl min (rows.headD 0)
    (upFrom lo (rows.foldl max 0 + 1 - lo)).map fun r => ⟨e.2, depth, r, d.verOf (e.2, depth, r)⟩).eraseDups

/-- Where the line above the current row of a slice is read, when this job has not made it: a repair decode that only parsed the row
above (R135). -/
def Job.aboveSpan (j : Job) (p : Pic) : Option (Nat × Nat) :=
  if j.row = j.first ∨ j.above.isSome = true then none
  else some (p.sampleAddr j.depth 0 (32 * j.row - 1), sampleLen j.depth * p.vp.cw)

/-- The line above the current row within the slice: the job's own, or `bs` as the picture holds it. -/
def Job.lineAbove (j : Job) (p : Pic) (bs : List MByte) : List (List Nat) :=
  if j.row = j.first then []
  else match j.above with
    | some l => l
    | none =>
      let ws := (List.range p.vp.cw).map fun x =>
        leAt (((bs.drop (x * sampleLen j.depth)).take (sampleLen j.depth)).map MByte.val) 0 (sampleLen j.depth)
      (List.range (if j.depth then 1 else 3)).map fun c => ws.map (compOf j.depth c)

/-- What the decode of one row yields. -/
inductive RowRes where
  | damaged
  | stopped (why : LaneStop)
  | done (out : RowOut) (poison : Bool)
  deriving DecidableEq, Repr

/-- The parse of a job's current row. -/
def Job.parse (j : Job) (p : Pic) : RowParse := rdRow (p.ctx j.depth) j.units j.row ((streamBits j.data).drop j.pos)

/-- The bit at which the row after a parse starts. -/
def Job.after (j : Job) (rest : List Bool) : Nat := 8 * j.data.length - rest.length

/-- Decode the current row of a job: the spans of memory it read, its read set, and its result. The line above is read under the
decoder's rights and its poison counts as a reference read's (R118, R129). -/
def State.decodeRow (s : State) (p : Pic) (j : Job) : List (Nat × Nat) × List RowRef × RowRes :=
  let parse := j.parse p
  let sp := (j.aboveSpan p).toList
  let bs := sp.flatMap fun x => s.peekFor .dec x.1 x.2
  let start : RowRun := ⟨[], [], [], bs.any MByte.poison, if sp.all fun x => s.rangeOk .dec false x.1 x.2 then none else some .bounds⟩
  let run := parse.cus.reverse.foldl (s.stepRecon p j (j.lineAbove p bs)) start
  let reads := s.dec.readSet j.depth run.reads
  (if start.stop.isSome then [] else sp ++ run.spans, reads,
    match run.stop, parse.rest with
    | some why, _ => .stopped why
    | none, none => .damaged
    | none, some rest =>
      .done ⟨rowSamples run.recs (32 * j.row) (p.lines j.row) p.vp.cw (if j.depth then 1 else 3), reads, j.after rest,
        parse.cus.map Cu.u⟩ run.poison)

/-- The bottom line of a decoded row. -/
def bottomLine (comps : List (List Nat)) (cw : Nat) : List (List Nat) := comps.map fun l => l.drop (l.length - cw)

/-- A job moved on past a row. -/
def Job.next (j : Job) (pos : Nat) (units : List Unit8) (above : Option (List (List Nat))) : Job :=
  { j with row := j.row + 1, pos := pos, units := units, above := above }

/-- The last row of a slice is done: its end is checked (R94, R95, R120). -/
def State.finishSlice (s : State) (j : Job) : State :=
  let s := s.modDec fun d => d.dropJob j
  (if j.feed.isSome && !sliceEndOk j.pos ((streamBits j.data).drop j.pos) then s.damagedFeed j.feed else s).settleFeeds

/-- A lane works on a slice from its current row: up to a decoded row it has to write, a suspension, damage, or the slice's end
(R112, R118, R120, R123, R129). The row below a row concealed for poison takes the decoded samples as its line above, free where a
reference was poisoned (log entry 419). -/
def State.runLane : Nat → Job → State → State
  | 0, j, s => s.finishSlice j
  | k + 1, j, s =>
    match s.dec.decPic j.uid with
    | none => s.boundsStop j
    | some p =>
      if j.first + j.num ≤ j.row then s.finishSlice j
      else if !j.only.contains j.row then
        match (j.parse p).rest with
        | none => s.abandonJob j
        | some rest => s.runLane k (j.next (j.after rest) ((j.parse p).cus.map Cu.u) none)
      else
        let (spans, reads, res) := s.decodeRow p j
        let s := spans.foldl (fun s sp => s.readFor .dec .dec sp.1 sp.2) (s.drawn (p.refs.length * 2 ^ 27))
        match res with
        | .damaged => (s.noteReads j reads).abandonJob j
        | .stopped (.blocked on) => s.modDec fun d => d.setJob { j with st := .waiting on }
        | .stopped .bounds => ((s.noteReads j reads).windowMiss .dec).boundsStop j
        | .done out poison =>
          if poison then
            let s := ((s.noteReads j reads).modDec fun d => d.markPoison j.feed).concealRows j.uid j.feed [(j.depth, j.row)]
            s.runLane k (j.next out.pos out.units (some (bottomLine out.comps p.vp.cw)))
          else s.modDec fun d => d.setJob { j with st := .lane out }

/-- The slices in lanes, and those that wait for one. -/
def DecSt.inLanes (d : DecSt) : List (Job × RowOut) :=
  d.jobs.filterMap fun j => match j.st with | .lane out => some (j, out) | _ => none
def DecSt.queued (d : DecSt) : List Job := d.jobs.filter fun j => j.st == .queued

/-- SLICE_DISPATCH: a free one of the 32 lanes takes the lowest-ranked slice that does not wait (R109, R111). -/
def State.sliceDispatch (s : State) : State :=
  match (sortBy Job.rank s.dec.queued).head? with
  | none => s
  | some j => if s.dec.inLanes.length < 32 then s.runLane (j.num + 1) j else s

def execSliceDispatch (s : State) : Host.Outcome State Fault Refusal := .next (if s.decRuns then s.sliceDispatch else s)

/-- What a suspended slice waits on has come (R123). -/
def DecSt.waitOver (d : DecSt) (uid : Nat) : WaitOn → Bool
  | .row u depth r => match d.decPic u with | some q => (q.row depth r).ready | none => true
  | .entry i => match d.decPic uid with
    | some p => (match p.refs[i]? with | some r => r.entry != .awaited | none => true)
    | none => true

/-- SLICE_RESUME: suspended slices whose rows are all ready return to the queue at their rank (R123). -/
def State.sliceResume (s : State) : State :=
  s.modDec fun d => { d with jobs := d.jobs.map fun j =>
    match j.st with
    | .waiting on => if on.all (d.waitOver j.uid) then { j with st := .queued } else j
    | _ => j }

def execSliceResume (s : State) : Host.Outcome State Fault Refusal := .next (if s.decRuns then s.sliceResume else s)

/-- The bytes of a decoded row (Table 4-1). -/
def rowBytes (depth : Bool) (comps : List (List Nat)) : List Byte :=
  (List.range (comps.getD 0 []).length).flatMap fun i =>
    leBytes (sampleWord depth (comps.map fun l => l.getD i 0)) (sampleLen depth)

/-- SBROW_FINAL: the n-th lane writes its row, which becomes FINAL, and goes on with the next (R112, R124). -/
def State.sbrowFinal (s : State) (n : Nat) : State :=
  match s.dec.inLanes[n]? with
  | none => s
  | some (j, out) =>
    match s.dec.decPic j.uid with
    | none => s.boundsStop j
    | some p =>
      let span := p.rowSpan j.depth j.row
      if !s.rangeOk .dec true span.1 span.2 then ((s.noteReads j out.reads).windowMiss .dec).boundsStop j
      else
        let s := s.writeFor .dec .dec span.1 (rowBytes j.depth out.comps)
        let s := s.modDec fun d => d.modPic j.uid fun p => p.modRow j.depth j.row fun w =>
          { w with kind := .final, ready := true, reads := out.reads, slice := j.sid }
        s.runLane (j.num + 1) (j.next out.pos out.units (some (bottomLine out.comps p.vp.cw)))

def execSbrowFinal (n : Nat) (s : State) : Host.Outcome State Fault Refusal :=
  .next (if s.decRuns then s.sbrowFinal n else s)

end Sys2Proof.Machine
end

