-- ==== Sys2Proof/Machine/DecRepair.lean ====
section
/-!
DEFINITION. The slice archive, late slices, repair and squash, and publication (chapter 4, R132 to R140).
-/
namespace Sys2Proof.Machine

/-- Length of the archive in force (R139). -/
def DecCfg.archSize (c : DecCfg) : Nat := c.archMiB * 2 ^ 20

/-- A slice's copy has not been overwritten (R139). -/
def DecSt.archHeld (d : DecSt) (sid : Nat) : Bool :=
  d.arch.any fun e => e.sid == sid && decide (e.len ≤ d.cfg.archSize) && decide (d.archTotal ≤ e.off + d.cfg.archSize)

/-- The pieces of a ring span of `n` bytes at offset `off`: address and length each. -/
def archSpans (c : DecCfg) (off n : Nat) : List (Nat × Nat) :=
  let o := off % c.archSize
  if o + n ≤ c.archSize then [(c.archBase + o, n)]
  else [(c.archBase + o, c.archSize - o), (c.archBase, min (n - (c.archSize - o)) c.archSize)]

/-- Copy an accepted parcel into the archive (R139): header and payload, back to back, round the end of the ring (log entry 420). A
stopped access is reported to the caller. -/
def State.archiveCopy (s : State) (sid : Nat) (feed : Option Nat) (bs : List Byte) : State × Bool :=
  let spans := archSpans s.dec.cfg s.dec.archTotal bs.length
  if spans.all fun sp => s.rangeOk .dec true sp.1 sp.2 then
    let s' := (spans.foldl (fun (p : State × List Byte) sp => (p.1.writeFor .dec .dec sp.1 (p.2.take sp.2), p.2.drop sp.2)) (s, bs)).1
    (s'.modDec fun d => { d with
      arch := (⟨sid, feed, d.archTotal, bs.length⟩ :: d.arch).filter fun e =>
        decide (d.archTotal + bs.length ≤ e.off + d.cfg.archSize)
      archTotal := d.archTotal + bs.length }, true)
  else (s.windowMiss .dec, false)

/-- The archived parcel of a slice, as memory holds it, poisoned or not (log entry 421). -/
def State.archBytes (s : State) (sid : Nat) : List Byte :=
  match s.dec.arch.find? fun e => e.sid == sid with
  | none => []
  | some e => (archSpans s.dec.cfg e.off e.len).flatMap fun sp => (s.mem.peek sp.1 sp.2).map MByte.val

/-- Every row that can join a squash set, with its read set (R134): rows decoded or concealed, and rows in lanes. -/
def DecSt.readers (d : DecSt) : List (RowId × List RowRef) :=
  (d.decPics.flatMap fun p => (p.rowsIn .final ++ (p.rowsIn .concealed).filter fun r => (p.row r.1 r.2).ready).map fun r =>
    ((p.uid, r.1, r.2), (p.row r.1 r.2).reads)) ++
  d.inLanes.map fun j => ((j.1.uid, j.1.depth, j.1.row), j.2.reads)

/-- One round of R134: the rows that have read a row of the set, in the version decoding now uses. -/
def DecSt.squashStep (d : DecSt) (set : List RowId) : List RowId :=
  set ++ (d.readers.filter fun x => !set.contains x.1 &&
    x.2.any fun y => set.contains (y.uid, y.depth, y.row) && y.ver == d.verOf (y.uid, y.depth, y.row)).map Prod.fst

/-- The squash set of some rows (R134): rounds until no row joins. -/
def DecSt.squash (d : DecSt) (set : List RowId) : List RowId :=
  (List.range (d.readers.length + 1)).foldl (fun acc _ => d.squashStep acc) set

/-- A slot for a repair version (R135): as R117, never one of a picture of the set. -/
def State.repairSlot (s : State) (anchor : Nat) (keep : List Nat) : Option Nat :=
  (s.emptySlot anchor).or (s.reuseSlot anchor fun p => !keep.contains p.uid)

/-- Copy a ready row into the repair slot (R135 step 1); poisoned bytes copy as free values. -/
def State.copyRow (s : State) (p q : Pic) (depth : Bool) (r : Nat) : State :=
  let span := p.rowSpan depth r
  let bs := s.peekFor .dec span.1 span.2
  let s' := s.readFor .dec .dec span.1 span.2
  (s'.decWrite (q.rowSpan depth r).1
    (bs.zipIdx.map fun b => if b.1.poison then Config.freeByte (s.freeCtr + b.2) else b.1.val)).drawn span.2

/-- Open a repair version of a picture (R135 step 1), if it has none and a slot exists. -/
def State.openVersion (s : State) (keep : List Nat) (set : List RowId) (uid : Nat) : Option State :=
  match s.dec.decPic uid with
  | none => none
  | some p =>
    if p.repair then some s
    else
      match s.repairSlot p.anchor keep with
      | none => none
      | some k =>
        let q := { p with slot := k, addr := s.dec.cfg.slotAddr p.anchor k, repair := true }
        let s := s.modDec fun d => { d.freeSlot p.anchor k with pics := q :: (d.freeSlot p.anchor k).pics }
        let rows := (((List.range p.tex.length).map fun r => (false, r)) ++ (List.range p.dep.length).map fun r => (true, r)).filter
          fun r => (p.row r.1 r.2).ready && !set.contains (uid, r.1, r.2)
        some (rows.foldl (fun s r => s.copyRow p q r.1 r.2) (s.drawn 1))

/-- Open the versions of all the given pictures. -/
def State.openVersions (s : State) (keep : List Nat) (set : List RowId) : List Nat → Option State
  | [] => some s
  | u :: us =>
    match s.openVersion keep set u with
    | none => none
    | some s => s.openVersions keep set us

/-- One squashed row starts again (R135 steps 2 to 4, R136). A row in a lane resumes with the line above that its slice made, even
where the row above is squashed too (log entry 422). -/
def State.squashRow (s : State) (late : List RowId) (r : RowId) : State :=
  match s.dec.decPic r.1 with
  | none => s
  | some p =>
    let w := p.row r.2.1 r.2.2
    let set := fun (f : SbRow → SbRow) => s.modDec fun d => d.modPic r.1 fun p => p.modRow r.2.1 r.2.2 f
    if late.contains r then set fun w => { w with kind := .pending, ready := false, ver := w.ver + 1, reads := [] }
    else match w.kind with
      | .final => set fun w => { w with kind := .pending, ready := false, ver := w.ver + 1, reads := [] }
      | .concealed =>
        (set fun w => { w with ready := false, ver := w.ver + 1, reads := [] }).concealRow r.1 r.2.1 r.2.2 w.feed
      | _ =>
        (set fun w => { w with ver := w.ver + 1 }).modDec fun d => { d with jobs := d.jobs.map fun j =>
          match j.st with
          | .lane _ => if j.uid = r.1 ∧ j.depth = r.2.1 ∧ j.row = r.2.2 then { j with st := .queued } else j
          | _ => j }

/-- A slice as it enters the queue (R110), from the payload of its parcel (Table 3-10). -/
def sliceJob (sid : Nat) (feed : Option Nat) (uid : Nat) (depth : Bool) (payload : List Byte) (only : List Nat) (rank : Nat)
    (repair : Bool) : Job :=
  { sid := sid, feed := feed, uid := uid, depth := depth, data := payload.drop 12, first := leAt payload 4 2,
    num := leAt payload 6 2, qpDelta := sext 8 (byteAt payload 8), only := only, rank := rank, repair := repair,
    row := leAt payload 4 2, pos := 0, units := [], above := none, st := .queued }

/-- The decodes of archived slices that a repair needs (R135 step 3). -/
def State.redecodes (s : State) (set late : List RowId) : List Job :=
  let finals := set.filterMap fun r =>
    match s.dec.decPic r.1 with
    | some p => if (p.row r.2.1 r.2.2).kind == .final && !late.contains r then some ((p.row r.2.1 r.2.2).slice, r, p.auRank) else none
    | none => none
  ((finals.map Prod.fst).eraseDups).filterMap fun sid =>
    match finals.find? fun f => f.1 == sid with
    | none => none
    | some f => some (sliceJob sid none f.2.1.1 f.2.1.2.1 ((s.archBytes sid).drop 8)
        ((finals.filter fun g => g.1 == sid).map fun g => g.2.1.2.2) f.2.2 true)

/-- A late slice is ignored (R133, R135): cause as DEC_STATUS.LAST_IGNORE gives it. -/
def State.ignoreLate (s : State) (cause : Nat) : State :=
  ((s.bump (F.DEC_CNT_COUNT 5)).wr F.DEC_STATUS_LAST_IGNORE cause).raise Ev.DEC_LATE_IGNORED

/-- A late slice starts or joins a repair, or is ignored (R133 to R136). -/
def State.lateSlice (s : State) (p : Pic) (job : Job) (parcel : List Byte) : State :=
  let late := (upFrom job.first job.num).map fun r => (p.uid, job.depth, r)
  let set := s.dec.squash late
  let uids := (set.map Prod.fst).eraseDups
  let sids := set.filterMap fun r => match s.dec.decPic r.1 with
    | some q => if (q.row r.2.1 r.2.2).kind == .final then some (q.row r.2.1 r.2.2).slice else none
    | none => none
  let open_ := match p.win with | .opened _ => true | _ => false
  if p.epoch ≠ s.dec.epoch then s.ignoreLate 3
  else if !open_ then s.ignoreLate 0
  else if !sids.all s.dec.archHeld then s.ignoreLate 2
  else match s.openVersions uids set uids with
    | none => s.ignoreLate 1
    | some t =>
      let jobs := s.redecodes set late
      let t := set.foldl (fun t r => t.squashRow late r) t
      let (t, ok) := t.archiveCopy job.sid job.feed parcel
      let t := t.modDec fun d => { d with
        jobs := d.jobs ++ { job with rank := p.auRank, repair := true } :: jobs
        repair := some ⟨((d.repair.map RepairSet.rows).getD [] ++ set).eraseDups, false⟩ }
      let t := ((t.bump (F.DEC_CNT_COUNT 4)).bump (F.DEC_CNT_COUNT 6) (set.length - late.length)).raise Ev.DEC_LATE_REDO
      let t := if late.length < set.length then t.raise Ev.DEC_SQUASH else t
      if ok then t else t.boundsStop { job with rank := p.auRank, repair := true }

/-- Every row of the repair set is ready (R137). -/
def DecSt.repairReady (d : DecSt) : Bool :=
  match d.repair with
  | none => false
  | some r => r.rows.all fun x => match d.decPic x.1 with | some p => (p.row x.2.1 x.2.2).ready | none => true

/-- A guard point: a set whose last row has become ready will be published at its decision point (R137). -/
def State.decGuard (s : State) : State :=
  s.modDec fun d => { d with repair := d.repair.map fun r => { r with armed := d.repairReady } }

/-- A decision point publishes the set armed at its guard point (R137): the repair versions are shown from here on; a replaced
slot stays pinned while a frame that uses it is in scan. -/
def State.decPublish (s : State) : State :=
  match s.dec.repair with
  | none => s
  | some r =>
    if r.armed && s.dec.repairReady then
      (s.modDec fun d => { d with
        repair := none
        pics := d.pics.map fun p =>
          if p.repair then { p with repair := false }
          else if d.pics.any fun q => q.uid == p.uid && q.repair then
            { p with stale := true, stalePin := s.scn.auScan == some p.au }
          else p }).raise Ev.DEC_REPAIR_PUBLISHED
    else s

/-- Cancel an unpublished repair set and release its slots (R126): repair decodes end. -/
def State.cancelRepair (s : State) : State :=
  match s.dec.repair with
  | none => s
  | some _ => s.modDec fun d => { d with
      repair := none
      pics := d.pics.filter fun p => !p.repair
      jobs := d.jobs.filter fun j => !j.repair }

/-- Rows that no slice in the engine will finish any more are concealed: what was finished only in a repair version that is gone. -/
def State.concealLost (s : State) : State :=
  s.dec.decPics.foldl (fun s p => s.concealRows p.uid none ((p.rowsIn .pending).filter fun r =>
    !s.dec.jobs.any fun j => j.uid == p.uid && j.depth == r.1 && j.left.contains r.2)) s

/-- An aborted STREAM_PUSH or LOOP_PLAY (R140): its unfinished rows, those under repair from its archived slices too, become EMPTY,
or are concealed at once where R125's event has occurred; the archive copies of those slices no longer serve. -/
def State.abortFeed (s : State) (ring idx : Nat) : State :=
  match s.dec.feeds.find? fun f => f.ring == ring && f.idx == idx with
  | none => s
  | some f =>
    let own := fun (j : Job) => j.feed == some f.fid || (j.feed.isNone && s.dec.arch.any fun e => e.sid == j.sid && e.feed == some f.fid)
    let mine := s.dec.jobs.filter own
    let s := s.modDec fun d => { d with
      feeds := d.feeds.filter fun g => g.fid != f.fid
      jobs := d.jobs.filter fun j => !own j
      arch := d.arch.filter fun e => !mine.any fun j => j.sid == e.sid }
    mine.foldl (fun s j =>
      let s := s.modDec fun d => d.modPic j.uid fun p =>
        j.left.foldl (fun p r => p.modRow j.depth r fun w => { w with kind := .empty, ready := false, reads := [] }) p
      match s.dec.decPic j.uid with
      | some p => if p.passed then s.concealRows j.uid none (j.left.map fun r => (j.depth, r)) else s
      | none => s) s

end Sys2Proof.Machine
end

