-- ==== Sys2Proof/Machine/EncCode.lean ====
section
/-!
DEFINITION. The choices of the cine-loop encoder (chapter 10, R292 to R299, R304) on plain values: writing the slice syntax, the
forward transform, unit decisions, motion search and coarse tail.
-/
namespace Sys2Proof.Machine

/-! Writing syntax elements (Tables 3-1, 3-11, R94). -/

/-- ue(v). -/
def wrUe (v : Nat) : List Bool :=
  let k := bitLen 40 (v + 1)
  List.replicate (k - 1) false ++ msbBits k (v + 1)

/-- The exp-Golomb index of a signed value, and se(v). -/
def seIdx (z : Int) : Nat := if 0 < z then 2 * z.natAbs - 1 else 2 * z.natAbs
def wrSe (z : Int) : List Bool := wrUe (seIdx z)

/-- cu_kind. -/
def wrKind : CuKind → List Bool
  | .skip => [true] | .inter => [false, true] | .intra => [false, false]

/-- intra_mode. -/
def wrMode (m : Nat) : List Bool :=
  if m = 0 then [false, false] else if m ≤ 3 then msbBits 3 (m + 1) else msbBits 4 (m + 6)

/-- The (position, level) pairs of a block in scan order. -/
def levelPairs (nt : Nat) (levels : List Int) : List (Nat × Int) :=
  ((zigzag nt).zipIdx.map fun p => (p.2, levels.getD (nt * p.1.2 + p.1.1) 0)).filter fun p => p.2 != 0

/-- The run, level and sign of each pair; `next` is the first position not yet passed. -/
def wrPairs (next : Nat) : List (Nat × Int) → List Bool
  | [] => []
  | (pos, lev) :: l => wrUe (pos - next) ++ wrUe (lev.natAbs - 1) ++ [decide (lev < 0)] ++ wrPairs (pos + 1) l

/-- residual_block. -/
def wrResidual (nt : Nat) (levels : List Int) : List Bool :=
  let ps := levelPairs nt levels
  wrUe (ps.length - 1) ++ wrPairs 0 ps

/-- cbf and residual_block at each place of a unit. -/
def wrBlocks (nt : Nat) (blocks : List TBlock) (places : List (Nat × Nat × Nat)) : List Bool :=
  places.flatMap fun p =>
    match blocks.find? fun b => b.comp == p.1 && b.bx == p.2.1 && b.by_ == p.2.2 with
    | some b => true :: wrResidual nt b.levels
    | none => [false]

/-- coding_unit, given the predictor of R101. -/
def wrCu (cx : SliceCtx) (cu : Cu) (pred : Int × Int) : List Bool :=
  let kind := if 0 < cx.nRef then wrKind cu.kind else []
  let body := [cu.nt == 4] ++ wrBlocks cu.nt cu.blocks (blockPlaces cx.nc cu.u.n cu.nt)
  match cu.kind with
  | .skip => kind
  | .intra => kind ++ wrMode cu.mode ++ body
  | .inter =>
    kind ++ (if 1 < cx.nRef then wrUe cu.u.ref else []) ++ wrSe (cu.u.mx - pred.1) ++
      (if cu.u.ref < cx.nTref then wrSe (cu.u.my - pred.2) else []) ++ body

/-- Whole bytes from bits, most significant first. -/
def bitBytes : Nat → List Bool → List Byte
  | 0, _ => []
  | k + 1, bs =>
    if bs.isEmpty then []
    else BitVec.ofNat 8 ((padTo 8 false (bs.take 8)).foldl (fun a b => 2 * a + b2n b) 0) :: bitBytes k (bs.drop 8)

/-- The bytes of a slice's data: its bits, the stop bit and zeros to the byte's end. -/
def sliceBytes (bits : List Bool) : List Byte := bitBytes (bits.length / 8 + 1) (bits ++ [true])

/-- A whole parcel (Table 3-2): header with CRC, payload, padding of zeros (R73, R74). -/
def parcelOf (type view : Nat) (payload : List Byte) : List Byte :=
  let head := leBytes type 1 ++ leBytes view 1 ++ leBytes payload.length 4
  head ++ leBytes (crc16 (head ++ payload)) 2 ++ payload ++
    List.replicate (8 * ceilDiv payload.length 8 - payload.length) 0

/-! The forward transform and levels (R295). -/

/-- cos(m pi / 16) / 2 for m = 0 to 8, times 2 ^ 60, rounded. -/
def halfCos : List Int :=
  [576460752303423488, 565384220589370379, 532580290349191562, 479309598225361089, 407619307041649444, 320264434483868187,
   220601979315235930, 112461913796534443, 0]

/-- cos(m pi / 16) / 2 for any m, times 2 ^ 60. -/
def cosAt (m : Nat) : Int :=
  let m := m % 32
  if m ≤ 8 then halfCos.getD m 0 else if m ≤ 16 then -halfCos.getD (16 - m) 0
  else if m ≤ 24 then -halfCos.getD (m - 16) 0 else halfCos.getD (32 - m) 0

/-- sqrt(1/2) cos(m pi / 8), m odd, times 2 ^ 60. -/
def cosAt4 (m : Nat) : Int :=
  let m := m % 16
  if m = 1 ∨ m = 15 then 753182269664427492 else if m = 7 ∨ m = 9 then -753182269664427492
  else if m = 3 ∨ m = 13 then 311978311033955632 else -311978311033955632

/-- The orthonormal cosine transform of size 4 or 8, frequency k and sample i, times 2 ^ 60. -/
def dctAt (n k i : Nat) : Int :=
  if n = 8 then (if k = 0 then halfCos.getD 4 0 else cosAt ((2 * i + 1) * k))
  else if k = 0 then 2 ^ 59
  else if k = 2 then (if i = 0 ∨ i = 3 then 2 ^ 59 else -(2 ^ 59))
  else cosAt4 ((2 * i + 1) * k)

/-- The forward coefficients of a block in raster order, times 2 ^ 120. -/
def forward (n : Nat) (r : List Int) : List Int :=
  let rows := (List.range (n * n)).map fun p =>
    ((List.range n).map fun x => dctAt n (p % n) x * r.getD (n * (p / n) + x) 0).sum
  (List.range (n * n)).map fun p => ((List.range n).map fun y => dctAt n (p / n) y * rows.getD (n * y + p % n) 0).sum

/-- The level of a coefficient (R295): floor(|X| / step + 1/3) for intra and + 1/6 for inter units, with X times 2 ^ 120 and
step = QS / 32. A distance under 2 ^ -36 of a boundary counts as on it. -/
def levelOf (intra : Bool) (q : Nat) (x : Int) : Int :=
  let st := qs q * 2 ^ (q / 6)
  let l := (x.natAbs * 192 + (if intra then 2 else 1) * st * 2 ^ 120 + 2 ^ 84) / (6 * st * 2 ^ 120)
  sgn x * (min l 65535 : Nat)

/-! One plane of a picture in coding. -/

/-- A reference picture as the encoder reads it. -/
structure EncRef where
  temporal : Bool
  delta : Nat
  anchor : Nat
  du : Int
  dv : Int
  sw : Nat
  sh : Nat
  pic : EncPic
  deriving DecidableEq, Repr

/-- What the coding of one plane depends on. -/
structure EncPlane where
  depth : Bool
  cx : SliceCtx
  /-- QP of each component, and the plane's own QP. -/
  qps : List Nat
  q : Nat
  /-- Source words of the stored extent, by raster position; free words outside it. -/
  sw : Nat
  sh : Nat
  src : Array Nat
  free : Nat
  refs : List EncRef
  deriving DecidableEq, Repr

/-- A source component. Outside the stored extent the spec gives no source: a free value. -/
def EncPlane.srcAt (pl : EncPlane) (c x y : Nat) : Nat :=
  if x < pl.sw ∧ y < pl.sh then compOf pl.depth c (pl.src.getD (y * pl.sw + x) 0)
  else Config.freeNat (pl.free + 4 * (8192 * y + x) + c) % 2 ^ planeBits pl.depth

/-- A reference component, clamped to the stored extent (R103). -/
def EncRef.at_ (r : EncRef) (depth : Bool) (c : Nat) (x y : Int) : Int :=
  (compOf depth c ((if depth then r.pic.dep else r.pic.tex).getD (clampN (r.sh - 1) y * r.sw + clampN (r.sw - 1) x) 0) : Nat)

/-- The vector of a unit in quarter samples (R102). -/
def EncRef.vec (r : EncRef) (mx my : Int) : Int × Int := if r.temporal then (mx, my) else (mx * sgn r.du, mx * sgn r.dv)

/-- lambda_mode (R295) and lambda_mv (R299). -/
def lamMode (q : Nat) : Nat := max 1 (qs q * qs q * 4 ^ (q / 6) / 2 ^ 11)
def lamMv (q : Nat) : Nat := max 1 (qs q * 2 ^ (q / 6) / 64)

/-- The coded blocks of one component: where, and the levels when any is not 0. -/
def codeBlocks (intra : Bool) (c nt q n : Nat) (diff : Nat → Nat → Int) : List TBlock :=
  (blockPlaces 1 n nt).filterMap fun p =>
    let lv := (forward nt ((List.range (nt * nt)).map fun i => diff (p.2.1 + i % nt) (p.2.2 + i / nt))).map (levelOf intra q)
    if lv.all (· == 0) then none else some ⟨c, p.2.1, p.2.2, lv⟩

/-- A candidate coding of one unit: its syntax, its reconstruction, its bits and J. -/
structure EncCand where
  cu : Cu
  recon : Rec
  bits : List Bool
  cost : Nat
  deriving DecidableEq, Repr

/-- The predicted samples of a unit, by component, in raster order. -/
def EncPlane.predict (pl : EncPlane) (recs : List Rec) (u : Unit8) (kind : CuKind) (mode : Nat) : List (List Int) :=
  (List.range pl.cx.nc).map fun c =>
    match kind with
    | .intra =>
      let a := neighbours (planeBits pl.depth) (neighbourSamples (sampleAt recs [] 0 pl.cx.cw c) u.x0 u.y0 u.n)
      (List.range (u.n * u.n)).map fun i => intraSample u.n mode a (i % u.n) (i / u.n)
    | _ =>
      match pl.refs[u.ref]? with
      | none => []
      | some r =>
        let v := r.vec u.mx u.my
        (List.range (u.n * u.n)).map fun i =>
          (interSample (planeBits pl.depth) (r.at_ pl.depth c) (4 * ((u.x0 + i % u.n : Nat) : Int) + v.1)
            (4 * ((u.y0 + i / u.n : Nat) : Int) + v.2) : Nat)

/-- One unit with a given transform size; `resid` false leaves every cbf 0. -/
def EncPlane.cand (pl : EncPlane) (units : List Unit8) (u : Unit8) (kind : CuKind) (mode nt : Nat) (resid : Bool)
    (pred : List (List Int)) : EncCand :=
  let at_ := fun (c x y : Nat) => (pred.getD c []).getD (u.n * y + x) 0
  let blocks := if resid then (List.range pl.cx.nc).flatMap fun c =>
      codeBlocks (kind == .intra) c nt (pl.qps.getD c 0) u.n fun x y => (pl.srcAt c (u.x0 + x) (u.y0 + y) : Int) - at_ c x y
    else []
  let cu : Cu := ⟨u, kind, mode, nt, blocks, 0⟩
  let rec_ : Rec := ⟨u, (List.range pl.cx.nc).map fun c =>
    reconComp (planeBits pl.depth) u.n nt (at_ c)
      ((blocks.filter fun b => b.comp == c).map fun b => (b.bx, b.by_, residualOf nt (pl.qps.getD c 0) b.levels))⟩
  let sse := ((List.range pl.cx.nc).map fun c => ((List.range (u.n * u.n)).map fun i =>
    (((pl.srcAt c (u.x0 + i % u.n) (u.y0 + i / u.n) : Int) - ((rec_.comps.getD c []).getD i 0 : Nat)) ^ 2).toNat).sum).sum
  let bits := wrCu pl.cx cu (vecPred units u.x0 u.y0 u.n u.ref)
  ⟨cu, rec_, bits, sse + lamMode pl.q * bits.length⟩

/-- The candidate of the lowest J; a tie goes to the earlier one. -/
def bestCand (c : EncCand) (l : List EncCand) : EncCand := l.foldl (fun a b => if b.cost < a.cost then b else a) c

/-- One unit with tsize_flag chosen by J. -/
def EncPlane.unit (pl : EncPlane) (units : List Unit8) (recs : List Rec) (u : Unit8) (kind : CuKind) (mode : Nat) : EncCand :=
  let pred := pl.predict recs u kind mode
  bestCand (pl.cand units u kind mode 8 true pred) [pl.cand units u kind mode 4 true pred]

/-- SKIP (R101): reference 0, the predictor, no residual. -/
def EncPlane.skip (pl : EncPlane) (units : List Unit8) (recs : List Rec) (x0 y0 n : Nat) : EncCand :=
  let p := vecPred units x0 y0 n 0
  let u : Unit8 := ⟨x0, y0, n, true, 0, p.1, p.2⟩
  pl.cand units u .skip 0 8 false (pl.predict recs u .skip 0)

/-! Motion and disparity search (R296 to R299). -/

/-- The quotient rounded to the nearest integer, halves away from zero. -/
def roundDiv (a b : Int) : Int :=
  let s := sgn a * sgn b
  s * (((2 * a.natAbs + b.natAbs) / (2 * b.natAbs) : Nat) : Int)

/-- Ascending insertion. -/
def insertInt (z : Int) : List Int → List Int
  | [] => [z]
  | y :: l => if z ≤ y then z :: y :: l else y :: insertInt z l

/-- The median of some numbers; of an even count, which the spec does not settle, a free value between the two middle ones. -/
def medianOf (free : Nat) (l : List Int) : Int :=
  let l := l.foldr insertInt []
  let lo := l.getD ((l.length - 1) / 2) 0
  let hi := l.getD (l.length / 2) 0
  lo + ((Config.freeNat free % ((hi - lo).toNat + 1) : Nat) : Int)

/-- What the search of one picture depends on beside the plane. -/
structure EncSearch where
  historyFree : Bool
  gmv : Option (Int × Int)
  gsc : Option Int
  doff : Nat
  /-- The previous picture of the anchor, and the depth source. -/
  prev : Option EncPic
  dep : EncPlane
  deriving DecidableEq, Repr

/-- k of R296: |du|, or |dv| when du is 0. -/
def EncRef.k (r : EncRef) : Int := if r.du = 0 then r.dv.natAbs else r.du.natAbs

/-- The vectors of the previous picture that pass a test. -/
def EncSearch.past (se : EncSearch) (f : EncVec → Bool) : List EncVec :=
  match se.prev with
  | none => []
  | some p => (p.vecs.toList.filterMap id).filter f

/-- The global candidate (R297, R298). -/
def EncSearch.globalOf (se : EncSearch) (free : Nat) (r : EncRef) : Int × Int :=
  if r.temporal then
    match se.gmv with
    | some g => (g.1 * r.delta, g.2 * r.delta)
    | none =>
      let vs := if se.historyFree then [] else se.past fun v => v.delta == 1
      if vs.isEmpty then (0, 0) else (medianOf free (vs.map EncVec.mx), medianOf (free + 1) (vs.map EncVec.my))
  else
    match se.gsc with
    | some g => (g * r.k, 0)
    | none =>
      let vs := if se.historyFree then [] else se.past fun v => v.delta == 0 && v.anchor == r.anchor
      if vs.isEmpty then (0, 0) else (medianOf free (vs.map EncVec.mx), 0)

/-- The neighbours A, B and C of R97 that use reference i. -/
def neighbourVecs (units : List Unit8) (x0 y0 n i : Nat) : List (Int × Int) :=
  let c := match unitAt units (x0 + n) ((y0 : Int) - 1) with
    | some u => some u
    | none => unitAt units ((x0 : Int) - 1) ((y0 : Int) - 1)
  ([unitAt units ((x0 : Int) - 1) y0, unitAt units x0 ((y0 : Int) - 1), c].filterMap id).filterMap fun u =>
    if u.inter ∧ u.ref = i then some (u.mx, u.my) else none

/-- The co-located vector (R296). -/
def EncSearch.colocated (se : EncSearch) (cw x0 y0 : Nat) (r : EncRef) : List (Int × Int) :=
  match se.prev with
  | none => []
  | some p =>
    match (p.vecs.getD (y0 / 8 * (cw / 8) + x0 / 8) none) with
    | none => []
    | some v => if v.delta = 0 then [] else [(roundDiv (v.mx * r.delta) v.delta, roundDiv (v.my * r.delta) v.delta)]

/-- The depth-derived scalar (R296). -/
def EncSearch.disparity (se : EncSearch) (x0 y0 n : Nat) (r : EncRef) : Int :=
  let d := se.dep.srcAt 0 (x0 + n / 2) (y0 + n / 2)
  if d = 0 then 0 else roundDiv (((d : Int) - se.doff) * r.k) 4

/-- The candidate list, each vector once (R296, R298). -/
def EncSearch.cands (se : EncSearch) (units : List Unit8) (cw x0 y0 n i free : Nat) (r : EncRef) : List (Int × Int) :=
  let g := se.globalOf free r
  (if se.historyFree then [(0, 0), g]
   else neighbourVecs units x0 y0 n i ++ (if r.temporal then se.colocated cw x0 y0 r else [(se.disparity x0 y0 n r, 0)]) ++
     [(0, 0), g]).eraseDups

/-- SAD over the G samples of a unit at a vector (R299). -/
def EncPlane.sad (pl : EncPlane) (r : EncRef) (x0 y0 n : Nat) (v : Int × Int) : Nat :=
  let v := r.vec v.1 v.2
  ((List.range (n * n)).map fun i =>
    ((pl.srcAt 1 (x0 + i % n) (y0 + i / n) : Int) -
      (interSample 10 (r.at_ false 1) (4 * ((x0 + i % n : Nat) : Int) + v.1) (4 * ((y0 + i / n : Nat) : Int) + v.2) : Nat)).natAbs).sum

/-- J_mv (R299). -/
def EncPlane.jmv (pl : EncPlane) (r : EncRef) (pred : Int × Int) (x0 y0 n : Nat) (v : Int × Int) : Nat :=
  pl.sad r x0 y0 n v + lamMv pl.q *
    ((wrSe (v.1 - pred.1)).length + if r.temporal then (wrSe (v.2 - pred.2)).length else 0)

/-- The first vector in range of the lowest J_mv. -/
def EncPlane.bestVec (pl : EncPlane) (r : EncRef) (pred : Int × Int) (x0 y0 n : Nat) (vs : List (Int × Int)) : Int × Int :=
  (((vs.filter fun v => vecOk v.1 && vecOk v.2).map fun v => (v, pl.jmv r pred x0 y0 n v)).foldl
    (fun (a : Option ((Int × Int) × Nat)) b => match a with
      | none => some b
      | some a => if b.2 < a.2 then some b else some a) none).elim (0, 0) Prod.fst

/-- The positions of one stage: the centre, then the scan order with y and then x rising; one axis for an inter-view scalar. -/
def stagePoints (r : EncRef) (c : Int × Int) (reach unit : Nat) : List (Int × Int) :=
  let offs : List Int := ((List.range (2 * reach + 1)).map Int.ofNat).map fun i => (i - reach) * unit
  c :: (if r.temporal then offs.flatMap fun dy => offs.map fun dx => (c.1 + dx, c.2 + dy)
    else offs.map fun d => (c.1 + d, 0))

/-- The search for one reference (R299). -/
def EncPlane.search (pl : EncPlane) (se : EncSearch) (units : List Unit8) (x0 y0 n i : Nat) (r : EncRef) : Int × Int :=
  let pred := vecPred units x0 y0 n i
  let best := pl.bestVec r pred x0 y0 n
  let start := best ((se.cands units pl.cx.cw x0 y0 n i (pl.free + 2 ^ 29 + 2 * i) r).map fun v =>
    ((v.1 + 2) / 4 * 4, (v.2 + 2) / 4 * 4))
  best (stagePoints r (best (stagePoints r (best (stagePoints r start 8 4)) 1 2)) 1 1)

/-! Superblocks (R295, R304). -/

/-- A superblock in coding: the slice's units and reconstructions, newest first, its bits, the cost of its units, and its units. -/
structure EncRun where
  units : List Unit8
  recs : List Rec
  bits : List Bool
  cost : Nat
  leaves : List Cu
  deriving DecidableEq, Repr

/-- Put one unit into a superblock. -/
def EncRun.put (run : EncRun) (c : EncCand) : EncRun :=
  ⟨c.cu.u :: run.units, c.recon :: run.recs, run.bits ++ c.bits, run.cost + c.cost, c.cu :: run.leaves⟩

/-- The texture unit of the lowest J (R295): SKIP, then each reference, then the intra modes. -/
def EncPlane.choose (pl : EncPlane) (se : EncSearch) (run : EncRun) (x0 y0 n : Nat) : EncCand :=
  let inter := pl.refs.zipIdx.map fun p =>
    let v := pl.search se run.units x0 y0 n p.2 p.1
    pl.unit run.units run.recs ⟨x0, y0, n, true, p.2, v.1, v.2⟩ .inter 0
  let intra := (List.range 10).map fun m => pl.unit run.units run.recs ⟨x0, y0, n, false, 0, 0, 0⟩ .intra m
  match (if pl.cx.nRef = 0 then [] else [pl.skip run.units run.recs x0 y0 n]) ++ inter ++ intra with
  | c :: l => bestCand c l
  | [] => pl.skip run.units run.recs x0 y0 n

/-- The whole block lies in the coded extent. -/
def SliceCtx.inside (cx : SliceCtx) (x0 y0 n : Nat) : Bool := decide (x0 + n ≤ cx.cw) && decide (y0 + n ≤ cx.ch)

/-- The texture quadtree, bottom-up (R295). -/
def EncPlane.texTree (pl : EncPlane) (se : EncSearch) : Nat → Nat → Nat → Nat → EncRun → EncRun
  | 0, _, _, _, run => run
  | k + 1, x0, y0, n, run =>
    if pl.cx.cw ≤ x0 ∨ pl.cx.ch ≤ y0 then run
    else if n = 8 then run.put (pl.choose se run x0 y0 n)
    else
      let h := n / 2
      let flag := fun (b : Bool) => if pl.cx.inside x0 y0 n then { run with bits := run.bits ++ [b] } else run
      let split := pl.texTree se k (x0 + h) (y0 + h) h (pl.texTree se k x0 (y0 + h) h
        (pl.texTree se k (x0 + h) y0 h (pl.texTree se k x0 y0 h (flag true))))
      if !pl.cx.inside x0 y0 n then split
      else
        let whole := (flag false).put (pl.choose se run x0 y0 n)
        if split.cost < whole.cost then split else whole

/-- The depth quadtree, which follows the texture's units (R295). -/
def EncPlane.depTree (pl : EncPlane) (leaves : List Cu) : Nat → Nat → Nat → Nat → EncRun → EncRun
  | 0, _, _, _, run => run
  | k + 1, x0, y0, n, run =>
    if pl.cx.cw ≤ x0 ∨ pl.cx.ch ≤ y0 then run
    else
      let flag := fun (b : Bool) => if 8 < n ∧ pl.cx.inside x0 y0 n then { run with bits := run.bits ++ [b] } else run
      match leaves.find? fun c => c.u.x0 == x0 && c.u.y0 == y0 && c.u.n == n with
      | some c =>
        let run := flag false
        run.put (pl.unit run.units run.recs c.u (if c.kind = .intra then .intra else .inter) c.mode)
      | none =>
        let h := n / 2
        pl.depTree leaves k (x0 + h) (y0 + h) h (pl.depTree leaves k x0 (y0 + h) h
          (pl.depTree leaves k (x0 + h) y0 h (pl.depTree leaves k x0 y0 h (flag true))))

/-- Coarse tail (R304): the largest units without a split flag of 1, SKIP or DC intra with every cbf 0. -/
def EncPlane.tailTree (pl : EncPlane) : Nat → Nat → Nat → Nat → EncRun → EncRun
  | 0, _, _, _, run => run
  | k + 1, x0, y0, n, run =>
    if pl.cx.cw ≤ x0 ∨ pl.cx.ch ≤ y0 then run
    else if pl.cx.inside x0 y0 n then
      let run := if 8 < n then { run with bits := run.bits ++ [false] } else run
      run.put (if 0 < pl.cx.nRef then pl.skip run.units run.recs x0 y0 n
        else
          let u : Unit8 := ⟨x0, y0, n, false, 0, 0, 0⟩
          pl.cand run.units u .intra 0 8 false (pl.predict run.recs u .intra 0))
    else
      let h := n / 2
      pl.tailTree k (x0 + h) (y0 + h) h (pl.tailTree k x0 (y0 + h) h
        (pl.tailTree k (x0 + h) y0 h (pl.tailTree k x0 y0 h run)))

/-- The bits of a superblock coded in coarse tail. -/
def tailBits (cx : SliceCtx) : Nat → Nat → Nat → Nat → Nat
  | 0, _, _, _ => 0
  | k + 1, x0, y0, n =>
    if cx.cw ≤ x0 ∨ cx.ch ≤ y0 then 0
    else if cx.inside x0 y0 n then
      (if 8 < n then 1 else 0) + if 0 < cx.nRef then 1 else 3 + cx.nc * (n / 8) * (n / 8)
    else
      let h := n / 2
      tailBits cx k x0 y0 h + tailBits cx k (x0 + h) y0 h + tailBits cx k x0 (y0 + h) h + tailBits cx k (x0 + h) (y0 + h) h

/-- The bytes of a slice parcel whose data has so many bits. -/
def slicePadded (bits : Nat) : Nat := 8 + 8 * ceilDiv (12 + bits / 8 + 1) 8

/-- The rows of each slice: first row and count (R292). -/
def sliceRows (sbr per : Nat) : List (Nat × Nat) :=
  (List.range (ceilDiv sbr per)).map fun i => (i * per, min per (sbr - i * per))

/-- One plane wholly in coarse tail. -/
def tailPlane (cx : SliceCtx) (per : Nat) : Nat :=
  ((sliceRows (ceilDiv cx.ch 32) per).map fun r => slicePadded ((upFrom r.1 r.2).map fun y =>
    ((List.range (ceilDiv cx.cw 32)).map fun x => tailBits cx 3 (32 * x) (32 * y) 32).sum).sum).sum

/-- T_p (R305): both planes in coarse tail, the VIEWPIC, and 8 bytes. -/
def tailSize (cx : SliceCtx) (per : Nat) : Nat := tailPlane cx per + tailPlane { cx with nc := 1 } per + 32 + 8

/-! A whole picture. -/

/-- A plane's open slice. -/
structure EncSlice where
  isOpen : Bool
  units : List Unit8
  recs : List Rec
  data : List Bool
  deriving DecidableEq, Repr

def EncSlice.fresh : EncSlice := ⟨false, [], [], []⟩

/-- A picture in coding: parcels written, the open slices, and everything reconstructed. -/
structure EncWork where
  out : List Byte
  tex : EncSlice
  dep : EncSlice
  tail : Bool
  leaves : List (List Cu)
  texRecs : List Rec
  depRecs : List Rec
  deriving DecidableEq, Repr

/-- The slice of a plane. -/
def EncWork.slice (w : EncWork) (depth : Bool) : EncSlice := if depth then w.dep else w.tex
def EncWork.setSlice (w : EncWork) (depth : Bool) (sl : EncSlice) : EncWork :=
  if depth then { w with dep := sl } else { w with tex := sl }

/-- Spent bytes of an open slice, and of the picture (R304). -/
def EncSlice.spent (sl : EncSlice) : Nat := if sl.isOpen then 20 + ceilDiv sl.data.length 8 else 0
def EncWork.spent (w : EncWork) : Nat := w.out.length + w.tex.spent + w.dep.spent

/-- One superblock of one plane: coded normally as a trial while the budget allows, else in coarse tail (R304). -/
def EncWork.superblock (w : EncWork) (se : EncSearch) (pl : EncPlane) (budget sbx sby : Nat) : EncWork :=
  let w := w.setSlice pl.depth { w.slice pl.depth with isOpen := true }
  let sl := w.slice pl.depth
  let start : EncRun := ⟨sl.units, sl.recs, [], 0, []⟩
  let tailRun := pl.tailTree 3 (32 * sbx) (32 * sby) 32 start
  let (run, tail) :=
    if w.tail then (tailRun, true)
    else
      let trial := if pl.depth then pl.depTree (w.leaves.getD sbx []) 3 (32 * sbx) (32 * sby) 32 start
        else pl.texTree se 3 (32 * sbx) (32 * sby) 32 start
      if w.spent + ceilDiv trial.bits.length 8 ≤ budget then (trial, false) else (tailRun, true)
  let w := { w with tail := tail, leaves := if pl.depth then w.leaves else w.leaves ++ [run.leaves] }
  w.setSlice pl.depth ⟨true, run.units, run.recs, sl.data ++ run.bits⟩

/-- Close a plane's slice: its parcel (Table 3-10). -/
def EncWork.close (w : EncWork) (depth : Bool) (view auId first num : Nat) : EncWork :=
  let sl := w.slice depth
  let w := if depth then { w with depRecs := sl.recs ++ w.depRecs } else { w with texRecs := sl.recs ++ w.texRecs }
  let body := leBytes auId 4 ++ leBytes first 2 ++ leBytes num 2 ++ leBytes 0 4 ++ sliceBytes sl.data
  let w : EncWork := { w with out := w.out ++ parcelOf (if depth then 6 else 5) view body }
  w.setSlice depth EncSlice.fresh

/-- One superblock row of both planes; the slices close with the last row of a slice (R292). -/
def EncWork.row (w : EncWork) (se : EncSearch) (tex dep : EncPlane) (budget view auId : Nat) (sl : Nat × Nat) (y : Nat) :
    EncWork :=
  let sbs := List.range (ceilDiv tex.cx.cw 32)
  let w := sbs.foldl (fun w x => w.superblock se tex budget x y) { w with leaves := [] }
  let last := decide (y + 1 = sl.1 + sl.2)
  let w := if last then w.close false view auId sl.1 sl.2 else w
  let w := sbs.foldl (fun w x => w.superblock se dep budget x y) w
  if last then w.close true view auId sl.1 sl.2 else w

/-- The samples of a plane painted over the stored extent. -/
def paint (depth : Bool) (sw sh : Nat) (recs : List Rec) : Array Nat :=
  recs.foldl (fun a r => (List.range (r.u.n * r.u.n)).foldl (fun a i =>
    let x := r.u.x0 + i % r.u.n
    let y := r.u.y0 + i / r.u.n
    if x < sw ∧ y < sh then a.setIfInBounds (y * sw + x) (sampleWord depth (r.comps.map fun l => l.getD i 0)) else a) a)
    (List.replicate (sw * sh) 0).toArray

/-- The vector store (R296): the final vector of each 8 x 8 block. -/
def paintVecs (cx : SliceCtx) (refs : List EncRef) (recs : List Rec) : Array (Option EncVec) :=
  recs.foldl (fun a r => (List.range (r.u.n / 8 * (r.u.n / 8))).foldl (fun a i =>
    let k := r.u.n / 8
    let v := if r.u.inter then (refs[r.u.ref]?).map fun f => (⟨f.anchor, if f.temporal then f.delta else 0, r.u.mx, r.u.my⟩ : EncVec)
      else none
    a.setIfInBounds ((r.u.y0 / 8 + i / k) * (cx.cw / 8) + r.u.x0 / 8 + i % k) v) a)
    (List.replicate (cx.cw / 8 * (cx.ch / 8)) none).toArray

/-- A coded picture: its parcels after the VIEWPIC `head`, its reconstruction, and whether it entered coarse tail. -/
def encodePicture (se : EncSearch) (tex dep : EncPlane) (head : List Byte) (budget view auId per : Nat) :
    List Byte × EncPic × Bool :=
  let w := (sliceRows (ceilDiv tex.cx.ch 32) per).foldl (fun w sl =>
    (upFrom sl.1 sl.2).foldl (fun w y => w.row se tex dep budget view auId sl y) w)
    (⟨head, EncSlice.fresh, EncSlice.fresh, false, [], [], []⟩ : EncWork)
  (w.out, ⟨paint false tex.sw tex.sh w.texRecs, paint true dep.sw dep.sh w.depRecs, paintVecs tex.cx tex.refs w.texRecs⟩, w.tail)

end Sys2Proof.Machine
end

