-- ==== Sys2Proof/Machine/Enc.lean ====
section
/-!
DEFINITION. The cine-loop capture encoder (chapter 10): sessions, ENC descriptors, access units, rate control and results.
-/
namespace Sys2Proof.Machine

/-! Status codes of Table 10-5. -/
namespace ECpl
def ENC_PARAM : Nat := 0x0050
def ENC_NO_SESSION : Nat := 0x0051
def ENC_LOOP_FULL : Nat := 0x0052
def ENC_BUDGET_LOW : Nat := 0x0053
def ENC_WORK_SHORT : Nat := 0x0054
end ECpl

/-- Change the encoder. -/
def State.modEnc (s : State) (f : EncSt → EncSt) : State := { s with enc := f s.enc }

/-- The open session of a ring, and replacing one session. -/
def EncSt.ofRing (e : EncSt) (ring : Nat) : Option EncSess := e.sess.find? fun x => x.ring == ring
def EncSt.setSess (e : EncSt) (x : EncSess) : EncSt := { e with sess := e.sess.map fun y => if y.num = x.num then x else y }

/-- The compute dies' engines run in S0 (Table 16-3), and ENC issues its bursts (Table 5-4). -/
def State.encRuns (s : State) : Bool := s.pwr.st == .s0
def State.encMoves (s : State) : Bool := s.encRuns && !s.yields

/-- An ENC descriptor fails with a status of Table 10-5 (ENC_FAILED, Table 10-7). -/
def State.encFail (s : State) (ring idx code : Nat) : State := s.complete ring idx code 0 0 [Ev.ENC_FAILED]

/-! ENC_OPEN. -/

/-- Anchor a of a parameter block. -/
def encAnchorOf (b : List Byte) (cols rows a : Nat) : EncAnchor :=
  let at_ := fun i => byteAt b (64 + 8 * a + i)
  let sc := max 1 (at_ 2)
  ⟨at_ 0, at_ 1, at_ 2, at_ 3, at_ 4, at_ 5, at_ 6, cols / sc + at_ 3 + at_ 4, rows / sc + at_ 5 + at_ 6⟩

/-- The fields of a parameter block (Table 10-2). -/
def encParOf (b : List Byte) : EncPar :=
  let cols := leAt b 28 2
  let rows := leAt b 30 2
  { loopBase := leAt b 0 8, loopSize := leAt b 8 4, workBase := leAt b 16 8, workSize := leAt b 24 4, cols := cols, rows := rows,
    doff := leAt b 32 2, gu := byteAt b 34, gv := byteAt b 35, numTref := byteAt b 37, vrefMax := byteAt b 38,
    sliceRows := byteAt b 39, qpInit := byteAt b 40, qpMin := byteAt b 41, qpMax := byteAt b 42, dqp := sext 8 (byteAt b 43),
    offR := sext 8 (byteAt b 44), offB := sext 8 (byteAt b 45), keyOff := sext 8 (byteAt b 46), texFmt := bits (byteAt b 47) 0 2,
    depFmt := bits (byteAt b 47) 4 2, budget := leAt b 48 4, keyInterval := leAt b 52 4, auBase := leAt b 56 4,
    anchors := (List.range (min 36 (byteAt b 36))).map (encAnchorOf b cols rows) }

/-- Within n of zero. -/
def withinI (n : Nat) (z : Int) : Bool := decide (z.natAbs ≤ n)

/-- The two regions have the form of a device address and their alignment (R43, Table 10-2). -/
def EncPar.regionForm (p : EncPar) : Bool :=
  isDevice p.loopBase && isDevice p.workBase && decide (p.loopBase % 64 = 0) && decide (p.workBase % 4096 = 0)

/-- The bytes every field of a parameter block needs (R287). -/
def encParamOk (b : List Byte) (p : EncPar) : Bool :=
  let n := byteAt b 36
  p.regionForm && decide (p.loopSize % 8 = 0) && decide (4096 ≤ p.loopSize) && decide (p.loopSize ≤ 4294967288) &&
    decide (p.cols % 256 = 0) && decide (512 ≤ p.cols) && decide (p.cols ≤ 4096) && decide (p.rows % 8 = 0) &&
    decide (8 ≤ p.rows) && decide (p.rows ≤ 2160) && decide (1 ≤ p.doff) && decide (1 ≤ p.gu) && decide (p.gu ≤ 144) &&
    decide (1 ≤ p.gv) && decide (p.gv ≤ 24) && decide (p.gu * p.gv ≤ 144) && decide (1 ≤ n) && decide (n ≤ 36) &&
    decide (p.numTref ≤ 4) && decide (p.vrefMax ≤ 2) && decide (1 ≤ p.sliceRows) && decide (p.qpMin ≤ p.qpInit) &&
    decide (p.qpInit ≤ p.qpMax) && decide (p.qpMax ≤ 63) && withinI 63 p.dqp && withinI 12 p.offR && withinI 12 p.offB &&
    withinI 12 p.keyOff && decide (p.texFmt ≤ 1) && decide (p.depFmt ≤ 1) && decide (bits (byteAt b 47) 2 2 = 0) &&
    decide (bits (byteAt b 47) 6 2 = 0) && decide (leAt b 12 4 = 0) && decide (leAt b 60 4 = 0) &&
    (List.range n).all (fun a => decide (byteAt b (71 + 8 * a) = 0)) &&
    p.anchors.all (fun a => decide (a.u < p.gu) && decide (a.v < p.gv) && decide (1 ≤ a.scale) && decide (a.scale ≤ 2) &&
      decide (a.gl ≤ 128) && decide (a.gr ≤ 128) && decide (a.gt ≤ 128) && decide (a.gb ≤ 128)) &&
    decide ((p.anchors.map fun a => (a.u, a.v)).eraseDups.length = p.anchors.length)

/-- The coded extent (R88). -/
def EncAnchor.cw (a : EncAnchor) : Nat := 8 * ceilDiv a.sw 8
def EncAnchor.ch (a : EncAnchor) : Nat := 8 * ceilDiv a.sh 8

/-- The bytes of one picture in the work area: 4 and 2 for each coded texture and depth sample, and 8 for the vector of each 8 x 8
block (R285). -/
def EncAnchor.workSize (a : EncAnchor) : Nat := 6 * a.cw * a.ch + a.cw * a.ch / 8

/-- The least work area in bytes (R285). -/
def EncPar.workNeed (p : EncPar) : Nat := (p.anchors.map fun a => (p.numTref + 2) * a.workSize).sum

/-- Where slot `slot` of anchor `a` begins (log entry 1004). -/
def EncPar.workAt (p : EncPar) (a slot : Nat) : Nat :=
  p.workBase - 2 ^ 63 + ((p.anchors.take a).map fun x => (p.numTref + 2) * x.workSize).sum +
    slot * ((p.anchors[a]?).map EncAnchor.workSize).getD 0

/-- A vector as the work area stores it, and as it reads back. -/
def vecBytes : Option EncVec → List Byte
  | none => leBytes 0 8
  | some v => leBytes 1 1 ++ leBytes v.anchor 1 ++ leBytes v.delta 1 ++ leBytes 0 1 ++ leBytes (twos 16 v.mx) 2 ++ leBytes (twos 16 v.my) 2
def vecRead (b : List Byte) : Option EncVec :=
  if byteAt b 0 = 1 then some ⟨byteAt b 1, byteAt b 2, sext 16 (leAt b 4 2), sext 16 (leAt b 6 2)⟩ else none

/-- Store a reconstructed picture and its vectors in the work area (R285, R336). -/
def State.putPic (s : State) (k : EncAnchor) (at_ : Nat) (pic : EncPic) : State :=
  let s := (List.range k.sh).foldl (fun s y => s.writeFor .enc .enc (at_ + 4 * k.cw * y)
    ((List.range k.sw).flatMap fun x => leBytes (pic.tex.getD (y * k.sw + x) 0) 4)) s
  let s := (List.range k.sh).foldl (fun s y => s.writeFor .enc .enc (at_ + 4 * k.cw * k.ch + 2 * k.cw * y)
    ((List.range k.sw).flatMap fun x => leBytes (pic.dep.getD (y * k.sw + x) 0) 2)) s
  s.writeFor .enc .enc (at_ + 6 * k.cw * k.ch) (pic.vecs.toList.flatMap vecBytes)

/-- A picture as the encoder reads it back; poisoned bytes are used as they stand (log entry 1004). -/
def State.getPic (s : State) (k : EncAnchor) (at_ : Nat) : EncPic :=
  let row := fun (a n : Nat) => (s.peekFor .enc a (n * k.sw)).map MByte.val
  { tex := ((List.range k.sh).flatMap fun y =>
      let r := row (at_ + 4 * k.cw * y) 4
      (List.range k.sw).map fun x => leAt r (4 * x) 4 % 2 ^ 30).toArray
    dep := ((List.range k.sh).flatMap fun y =>
      let r := row (at_ + 4 * k.cw * k.ch + 2 * k.cw * y) 2
      (List.range k.sw).map fun x => leAt r (2 * x) 2).toArray
    vecs :=
      let r := (s.peekFor .enc (at_ + 6 * k.cw * k.ch) (k.cw * k.ch / 8)).map MByte.val
      ((List.range (k.cw * k.ch / 64)).map fun i => vecRead ((r.drop (8 * i)).take 8)).toArray }

/-- The effects of reading a picture back. -/
def State.readPic (s : State) (k : EncAnchor) (at_ : Nat) : State := s.readFor .enc .enc at_ k.workSize

/-- The loop region and the work area lie inside the windows they need (R283). -/
def State.encRegionsOk (s : State) (p : EncPar) : Bool :=
  s.rangeOk .enc true (p.loopBase - 2 ^ 63) p.loopSize && s.rangeOk .dec false (p.loopBase - 2 ^ 63) p.loopSize &&
    s.rangeOk .enc true (p.workBase - 2 ^ 63) (4096 * p.workSize)

/-- Where the parameter block lies. -/
def Desc.encBlock (d : Desc) : Nat := leAt d.bytes 8 8

/-- The parameter block as read: 64 bytes and 8 for each anchor. -/
def State.encBlockBytes (s : State) (d : Desc) (param : List Byte) : List Byte :=
  let head := (s.bufBytes .enc d.encBlock 64 param).map MByte.val
  (s.bufBytes .enc d.encBlock (64 + 8 * min 36 (byteAt head 36)) param).map MByte.val

/-- The checks of ENC_OPEN before it runs (R43, R55, R283). -/
def State.encOpenChecks (s : State) (param : List Byte) (_r : Ring) (d : Desc) : List (Bool × Nat) :=
  let b := s.encBlockBytes d param
  let p := encParOf b
  [(d.restZero [(8, 8)] && addrForm d.encBlock, Cpl.BAD_FIELD),
   (s.bufOk .enc false d.encBlock b.length && (!p.regionForm || s.encRegionsOk p), Cpl.BAD_ADDRESS)]

/-- The SEQ payload (Table 3-4, R287). -/
def EncPar.seqPayload (p : EncPar) : List Byte :=
  [1, 0] ++ leBytes (if p.numTref = 0 ∧ p.vrefMax = 0 then 2 else 1) 1 ++
    leBytes (if p.anchors.length ≤ 9 ∧ p.numTref ≤ 2 then 10 else if p.anchors.length ≤ 16 then 20 else 30) 1 ++
    leBytes p.cols 2 ++ leBytes p.rows 2 ++ leBytes p.doff 2 ++ leBytes p.numTref 1 ++ leBytes 0 5

/-- The GRID payload (Table 3-7). -/
def EncPar.gridPayload (p : EncPar) : List Byte :=
  leBytes p.gu 1 ++ leBytes p.gv 1 ++ leBytes p.anchors.length 1 ++ leBytes 0 1 ++
    p.anchors.flatMap fun a => leBytes a.u 1 ++ leBytes a.v 1

/-- Append bytes to the loop region of a session (R282). -/
def State.encAppend (s : State) (x : EncSess) (bs : List Byte) : State × EncSess :=
  (s.writeFor .enc .enc (x.par.loopBase - 2 ^ 63 + x.wptr) bs, { x with wptr := x.wptr + bs.length })

/-- A new session writes SEQ and GRID at offset 0 (R281). -/
def State.encOpen (s : State) (r : Ring) (d : Desc) (param : List Byte) : State :=
  let b := s.encBlockBytes d param
  let p := encParOf b
  let s := s.bufRead .enc .enc d.encBlock b.length
  if (s.enc.ofRing r.num).isSome then s.encFail r.num d.idx ECpl.ENC_NO_SESSION
  else if !encParamOk b p then s.encFail r.num d.idx ECpl.ENC_PARAM
  else if 4096 * p.workSize < p.workNeed then s.encFail r.num d.idx ECpl.ENC_WORK_SHORT
  else
    match (List.range 16).find? fun n => !s.enc.sess.any fun x => x.num == n with
    | none => s.encFail r.num d.idx ECpl.ENC_NO_SESSION
    | some n =>
      let x : EncSess := ⟨n, r.num, p, 0, p.qpInit, 0, 0, false, false, false, false, [], none, []⟩
      let (s, x) := s.encAppend x (parcelOf 1 0xFF p.seqPayload ++ parcelOf 2 0xFF p.gridPayload)
      (s.modEnc fun e => { e with sess := e.sess ++ [x] }).complete r.num d.idx Cpl.SUCCESS n

/-- ENC_OPEN; `param` are the bytes of the parameter block when it lies in host memory. -/
def execEncOpen (ring : Nat) (param : List Byte) (s : State) : Host.Outcome State Fault Refusal :=
  .next (if s.encMoves then s.withOp ring 0x40 (s.encOpenChecks param) (fun r d s => s.encOpen r d param) else s)

/-! ENC_PUT. -/

/-- An entry of SRC_TABLE (Table 10-3). -/
def srcEntry (b : List Byte) (a : Nat) : Nat × Nat × Nat × Nat :=
  (leAt b (32 * a) 8, leAt b (32 * a + 8) 8, leAt b (32 * a + 16) 4, leAt b (32 * a + 20) 4)

/-- SRC_TABLE as read. -/
def State.srcTable (s : State) (d : Desc) (n : Nat) (table : List Byte) : List Byte :=
  (s.bufBytes .enc (leAt d.bytes 8 8) (32 * n) table).map MByte.val

/-- Bytes of one row of a source plane, and its rows (R288, Table 10-4). -/
def texRowLen (fmt : Nat) (a : EncAnchor) : Nat := (if fmt = 0 then 4 else 3) * a.sw
def depRowLen (fmt : Nat) (a : EncAnchor) : Nat := 2 * (if fmt = 0 then a.sw else ceilDiv a.sw 2)
def depRows (fmt : Nat) (a : EncAnchor) : Nat := if fmt = 0 then a.sh else ceilDiv a.sh 2

/-- Every source buffer given by device address lies inside windows the encoder may read (R283). -/
def State.encSourcesOk (s : State) (p : EncPar) (b : List Byte) : Bool :=
  p.anchors.zipIdx.all fun x =>
    let e := srcEntry b x.2
    s.bufOk .enc false e.1 ((x.1.sh - 1) * e.2.2.1 + texRowLen p.texFmt x.1) &&
      s.bufOk .enc false e.2.1 ((depRows p.depFmt x.1 - 1) * e.2.2.2 + depRowLen p.depFmt x.1)

/-- The checks of ENC_PUT before it runs (R43, R52, R55, R283). Without a session the table's length is not known beyond its first
entry, which every session has. -/
def State.encPutChecks (s : State) (table : List Byte) (r : Ring) (d : Desc) : List (Bool × Nat) :=
  let res := leAt d.bytes 16 8
  let flat := d.restZero [(8, 27)] && addrForm (leAt d.bytes 8 8) && addrForm res && decide (byteAt d.bytes 34 < 8)
  match s.enc.ofRing r.num with
  | none => [(flat, Cpl.BAD_FIELD),
      (s.bufOk .enc false (leAt d.bytes 8 8) 32 && (decide (res = 0) || s.bufOk .enc true res 32), Cpl.BAD_ADDRESS)]
  | some x =>
    let n := x.par.anchors.length
    let b := s.srcTable d n table
    [(flat, Cpl.BAD_FIELD), (s.bufOk .enc false (leAt d.bytes 8 8) (32 * n), Cpl.BAD_ADDRESS),
     ((List.range n).all (fun a => addrForm (srcEntry b a).1 && addrForm (srcEntry b a).2.1 && decide (leAt b (32 * a + 24) 8 = 0)),
       Cpl.BAD_FIELD),
     (s.encSourcesOk x.par b && s.encRegionsOk x.par && (decide (res = 0) || s.bufOk .enc true res 32), Cpl.BAD_ADDRESS)]

/-- The ENC_PUT of a descriptor. -/
def encPutOf (d : Desc) (b : List Byte) (n : Nat) (keyReq : Bool) : EncPut :=
  let fl := byteAt d.bytes 34
  { idx := d.idx, src := (List.range n).map (srcEntry b), result := leAt d.bytes 16 8, budget := leAt d.bytes 24 4,
    gmv := if bitAt fl 1 then some (sext 16 (leAt d.bytes 28 2), sext 16 (leAt d.bytes 30 2)) else none,
    gsc := if bitAt fl 2 then some (sext 16 (leAt d.bytes 32 2)) else none, key := bitAt fl 0, keyReq := keyReq }

/-- An accepted ENC_PUT joins its session in ring order, with a request of an ENC_KEY before it (R291, R301). -/
def State.encPut (s : State) (r : Ring) (d : Desc) (table : List Byte) : State :=
  match s.enc.ofRing r.num with
  | none => s.encFail r.num d.idx ECpl.ENC_NO_SESSION
  | some x =>
    let n := x.par.anchors.length
    let p := encPutOf d (s.srcTable d n table) n x.keyNext
    (s.bufRead .enc .enc (leAt d.bytes 8 8) (32 * n)).modEnc fun e => e.setSess { x with puts := x.puts ++ [p], keyNext := false }

/-- ENC_PUT; `table` are the bytes of SRC_TABLE when it lies in host memory. -/
def execEncPut (ring : Nat) (table : List Byte) (s : State) : Host.Outcome State Fault Refusal :=
  .next (if s.encMoves then s.withOp ring 0x41 (s.encPutChecks table) (fun r d s => s.encPut r d table) else s)

/-! ENC_KEY and ENC_CLOSE. -/

/-- The fields of an opcode without fields (R286). -/
def encBare (_r : Ring) (d : Desc) : List (Bool × Nat) := [(d.restZero [], Cpl.BAD_FIELD)]

def execEncKey (ring : Nat) (s : State) : Host.Outcome State Fault Refusal :=
  .next (if s.encRuns then s.withOp ring 0x42 encBare (fun r d s =>
    match s.enc.ofRing r.num with
    | none => s.encFail r.num d.idx ECpl.ENC_NO_SESSION
    | some x => (s.modEnc fun e => e.setSess { x with keyNext := true }).complete r.num d.idx Cpl.SUCCESS 0) else s)

/-- ENC_CLOSE appends END after every earlier access unit and closes the session (R282). -/
def State.encClose (s : State) (r : Ring) (d : Desc) : State :=
  match s.enc.ofRing r.num with
  | none => s.encFail r.num d.idx ECpl.ENC_NO_SESSION
  | some x =>
    let (s, x) := s.encAppend x (parcelOf 8 0xFF [])
    (s.modEnc fun e => { e with sess := e.sess.filter fun y => y.num != x.num }).complete r.num d.idx Cpl.SUCCESS x.wptr

/-- A session with no access unit waiting or in coding, or none at all. -/
def EncSt.idleOn (e : EncSt) (ring : Nat) : Bool :=
  match e.ofRing ring with
  | none => true
  | some x => x.puts.isEmpty && x.cur.isNone

def execEncClose (ring : Nat) (s : State) : Host.Outcome State Fault Refusal :=
  .next (if s.encMoves && s.enc.idleOn ring then s.withOp ring 0x43 encBare (fun r d s => s.encClose r d) else s)

/-- ENC_KEY_REQ is written (R301); bits of closed sessions are ignored. -/
def State.encKeyReq (s : State) (val : Nat) : State :=
  s.modEnc fun e => { e with sess := e.sess.map fun x => { x with keyReg := x.keyReg || bitAt val x.num } }

def execEncKeyReq (val : Word) (s : State) : Host.Outcome State Fault Refusal :=
  .next (if s.bar0Open then s.encKeyReq val.toNat else s)

/-! Access units. -/

/-- B_AU and B_p (R303). -/
def EncPut.bau (p : EncPut) (par : EncPar) : Nat := if p.budget = 0 then par.budget else p.budget
def EncPar.area (p : EncPar) : Nat := (p.anchors.map fun a => a.sw * a.sh).sum
def EncPar.bp (p : EncPar) (bau : Nat) (a : EncAnchor) : Nat := bau * (a.sw * a.sh) / p.area

/-- The inter-view references of anchor a (R91, R293). -/
def EncPar.vrefs (p : EncPar) (a : Nat) : List Nat :=
  match p.anchors[a]? with
  | none => []
  | some x =>
    let ok := p.anchors.zipIdx.filter fun y =>
      let du := (y.1.u : Int) - x.u
      let dv := (y.1.v : Int) - x.v
      decide (y.2 < a) && y.1.scale == x.scale && (du == 0 || dv == 0 || du.natAbs == dv.natAbs)
    ((sortBy (fun y : EncAnchor × Nat => (((y.1.u : Int) - x.u) ^ 2 + ((y.1.v : Int) - x.v) ^ 2).toNat) ok).take p.vrefMax).map Prod.snd

/-- What the slices of anchor a depend on (R94). -/
def EncPar.ctx (p : EncPar) (x : EncAnchor) (a nTref : Nat) : SliceCtx :=
  { cw := x.cw, ch := x.ch, nc := 3, sbQp := false, nTref := nTref, nRef := nTref + (p.vrefs a).length }

/-- The causes of a key unit, as KEY_CAUSE gives them (R300, Table 10-6). -/
def EncSess.keyCause (x : EncSess) (p : EncPut) : Nat :=
  b2n (decide (x.started = 0)) + 2 * b2n p.key + 4 * b2n (p.keyReq || x.keyReg) +
    8 * b2n (decide (x.par.keyInterval ≠ 0) && decide (x.started ≠ 0) && decide (x.par.keyInterval ≤ x.sinceKey)) + 16 * b2n x.failed

/-- An ENC_PUT leaves the queue without starting: its ENC_KEY request passes to the next one (R301). -/
def EncSess.passKey (x : EncSess) (p : EncPut) : EncSess :=
  if !p.keyReq then x
  else match x.puts with
    | [] => { x with keyNext := true }
    | q :: l => { x with puts := { q with keyReq := true } :: l }

/-- ENC_AU_START: the session's next ENC_PUT is checked (R305, R306), then its access unit starts: key requests are consumed
(R300, R301) and the AU parcel is written (R292). -/
def State.encAuStart (s : State) (x : EncSess) (p : EncPut) (rest : List EncPut) : State :=
  let bau := p.bau x.par
  let cause := x.keyCause p
  let key := decide (cause ≠ 0)
  let nT := if key then 0 else min x.par.numTref x.refs.length
  let y := EncSess.passKey { x with puts := rest } p
  let low := x.par.anchors.zipIdx.any fun a =>
    decide (x.par.bp bau a.1 < 50 * tailSize (x.par.ctx a.1 a.2 nT) x.par.sliceRows)
  let need := 16 + (x.par.anchors.map fun a => 102 * x.par.bp bau a / 100).sum + 8
  if low && !x.full then (s.modEnc fun e => e.setSess y).encFail x.ring p.idx ECpl.ENC_BUDGET_LOW
  else if x.full || decide (x.par.loopSize < x.wptr + need) then
    let s := (s.modEnc fun e => e.setSess { y with full := true }).encFail x.ring p.idx ECpl.ENC_LOOP_FULL
    if x.full then s else s.raise Ev.ENC_LOOP_FULL
  else
    let auId := (x.par.auBase + x.started) % 2 ^ 32
    let qpTex := if key then clampN 63 (clampI x.par.qpMin x.par.qpMax (x.q + x.par.keyOff)) else x.q
    let au : EncAu :=
      { put := p, auId := auId, start := x.wptr, budget := bau, cause := cause,
        historyFree := key || decide (x.sinceKey = 1), qpTex := qpTex, qpDepth := clampN 63 (qpTex + x.par.dqp), numTref := nT,
        pics := 0, slot := x.started % (x.par.numTref + 2), tail := 0, overshoot := false, poison := false }
    let (s, z) := s.encAppend x (parcelOf 3 0xFF (leBytes auId 4 ++ leBytes (b2n key) 1 ++ leBytes 0 3))
    let z := { z with puts := rest, cur := some au, started := x.started + 1, failed := false, keyReg := false,
                      sinceKey := if key then 1 else x.sinceKey + 1, refs := if key then [] else x.refs }
    let s := s.modEnc fun e => e.setSess z
    if 1 < cause then s.raise Ev.ENC_KEY else s

def execEncAuStart (ring : Nat) (s : State) : Host.Outcome State Fault Refusal :=
  .next (if s.encMoves then
    match s.enc.ofRing ring with
    | none => s
    | some x =>
      match x.puts, x.cur with
      | p :: rest, none => s.encAuStart x p rest
      | _, _ => s
    else s)

/-! Pictures. -/

/-- The session that codes its next picture: round robin after the one last served (R291). -/
def EncSt.nextSess (e : EncSt) : Option (EncSess × EncAu) :=
  ((List.range 16).map fun i => (e.last + 1 + i) % 16).findSome? fun n =>
    match e.sess.find? fun x => x.num == n with
    | none => none
    | some x =>
      match x.cur with
      | none => none
      | some au => if au.pics < x.par.anchors.length then some (x, au) else none

/-- The rows of a source plane: from the operand where the buffer lies in host memory, with `none` for a byte that reads as
poison, else as the encoder reads device memory. -/
def State.srcRows (s : State) (addr stride rows len : Nat) (data : List (Option Byte)) : List (List MByte) :=
  (List.range rows).map fun r =>
    if isHost addr then (padTo len (some 0) ((data.drop (r * len)).take len)).map fun b => ⟨b.getD 0, b.isNone⟩
    else s.peekFor .enc (addr - 2 ^ 63 + r * stride) len

/-- The effects of reading the rows of a source plane. -/
def State.readRows (s : State) (addr stride rows len : Nat) : State :=
  (List.range rows).foldl (fun s r => s.bufRead .enc .enc (addr + r * stride) len) s

/-- A texture sample word, flat where any byte is poison (R288, R289). -/
def texWord (fmt : Nat) (bs : List MByte) : Nat :=
  if bs.any MByte.poison then 0x20080200
  else
    let v := bs.map MByte.val
    if fmt = 0 then leAt v 0 4 % 2 ^ 30
    else widen8 (byteAt v 0) * 2 ^ 20 + widen8 (byteAt v 1) * 2 ^ 10 + widen8 (byteAt v 2)

/-- A depth code, 0 where a byte is poison (R289). -/
def depWord (bs : List MByte) : Nat := if bs.any MByte.poison then 0 else leAt (bs.map MByte.val) 0 2

/-- The source words of the texture and of the depth plane over the stored extent. -/
def texSource (fmt : Nat) (a : EncAnchor) (rows : List (List MByte)) : Array Nat :=
  let n := if fmt = 0 then 4 else 3
  (rows.flatMap fun r => (List.range a.sw).map fun i => texWord fmt ((r.drop (n * i)).take n)).toArray
def depSource (fmt : Nat) (a : EncAnchor) (rows : List (List MByte)) : Array Nat :=
  ((List.range a.sh).flatMap fun j =>
    let r := rows.getD (if fmt = 0 then j else j / 2) []
    (List.range a.sw).map fun i => depWord ((r.drop (2 * (if fmt = 0 then i else i / 2))).take 2)).toArray

/-- The references of anchor a in the access unit, as the work area holds them (R90, R285, R293). -/
def State.encRefs (s : State) (x : EncSess) (au : EncAu) (a : Nat) (k : EncAnchor) : List EncRef :=
  (x.refs.take au.numTref).zipIdx.map (fun r => ⟨true, r.2 + 1, a, 0, 0, k.sw, k.sh, s.getPic k (x.par.workAt a r.1)⟩) ++
  (x.par.vrefs a).filterMap (fun b =>
    (x.par.anchors[b]?).map fun y =>
      ⟨false, 0, b, (y.u : Int) - k.u, (y.v : Int) - k.v, y.sw, y.sh, s.getPic y (x.par.workAt b au.slot)⟩)

/-- The effects of reading the references of anchor a, each once (log entry 1004). -/
def State.readRefs (s : State) (x : EncSess) (au : EncAu) (a : Nat) (k : EncAnchor) : State :=
  let s := (x.refs.take (max 1 au.numTref)).foldl (fun s r => s.readPic k (x.par.workAt a r)) s
  (x.par.vrefs a).foldl (fun s b => match x.par.anchors[b]? with
    | some y => s.readPic y (x.par.workAt b au.slot)
    | none => s) s

/-- The VIEWPIC parcel of anchor a (Table 3-9, R307). -/
def EncSess.viewpic (x : EncSess) (au : EncAu) (a : Nat) (k : EncAnchor) : List Byte :=
  let vs := x.par.vrefs a
  parcelOf 4 a (leBytes au.auId 4 ++ [k.scale, k.gl, k.gr, k.gt, k.gb, au.qpTex, au.qpDepth, twos 8 x.par.offR,
      twos 8 x.par.offB, 0, au.numTref, vs.length].flatMap (fun b => leBytes b 1) ++
    (List.range 4).flatMap (fun i => leBytes (if i < au.numTref then i + 1 else 0) 1) ++
    (List.range 2).flatMap (fun i => leBytes (vs.getD i 0) 1) ++ leBytes 0 2)

/-- The lowest free core; when all code, the one that began first has finished. -/
def EncSt.takeCore (e : EncSt) (sess : Nat) : EncSt :=
  let cs := if e.cores.length < 4 then e.cores else e.cores.drop 1
  match (List.range 4).find? fun c => !cs.any fun x => x.1 == c with
  | some c => { e with cores := cs ++ [(c, sess)] }
  | none => e

/-- ENC_PICTURE_START: the next picture of an access unit is coded and its parcels are written (R288 to R299, R304). -/
def State.encPicture (s : State) (x : EncSess) (au : EncAu) (k : EncAnchor) (tex dep : List (Option Byte)) : State :=
  let a := au.pics
  let p := x.par
  let e := au.put.src.getD a (0, 0, 0, 0)
  let tl := texRowLen p.texFmt k
  let dl := depRowLen p.depFmt k
  let dr := depRows p.depFmt k
  let trows := s.srcRows e.1 e.2.2.1 k.sh tl tex
  let drows := s.srcRows e.2.1 e.2.2.2 dr dl dep
  let bad := (trows ++ drows).any fun r => r.any MByte.poison
  let refs := s.encRefs x au a k
  let cx := p.ctx k a au.numTref
  let qps := [qpOf au.qpTex 0 0 p.offR, au.qpTex, qpOf au.qpTex 0 0 p.offB]
  let tp : EncPlane := ⟨false, cx, qps, au.qpTex, k.sw, k.sh, texSource p.texFmt k trows, s.freeCtr, refs⟩
  let dp : EncPlane := ⟨true, { cx with nc := 1 }, [au.qpDepth], au.qpDepth, k.sw, k.sh, depSource p.depFmt k drows,
    s.freeCtr + 2 ^ 28, refs⟩
  let se : EncSearch := ⟨au.historyFree, au.put.gmv, au.put.gsc, p.doff, (x.refs.head?).map fun r => s.getPic k (p.workAt a r), dp⟩
  let budget := p.bp au.budget k
  let (bytes, pic, tail) := encodePicture se tp dp (x.viewpic au a k) budget a au.auId p.sliceRows
  let much := decide (budget < bytes.length)
  let s := (((s.readRows e.1 e.2.2.1 k.sh tl).readRows e.2.1 e.2.2.2 dr dl).readRefs x au a k).drawn (2 ^ 30)
  let s := s.putPic k (p.workAt a au.slot) pic
  let (s, x) := s.encAppend x bytes
  let au := { au with pics := au.pics + 1, tail := au.tail + b2n tail * 2 ^ a, overshoot := au.overshoot || much,
                      poison := au.poison || bad }
  let s := s.modEnc fun e => { (e.setSess { x with cur := some au }).takeCore x.num with last := x.num }
  let s := if tail then (s.bump (F.ENC_CNT_COUNT 2)).raise Ev.ENC_TAIL else s
  let s := if much then (s.bump (F.ENC_CNT_COUNT 3)).raise Ev.ENC_OVERSHOOT else s
  if bad then s.raise Ev.ENC_SRC_POISON else s

/-- ENC_PICTURE_START; `tex` and `dep` are the source rows of buffers in host memory, row after row. -/
def execEncPictureStart (tex dep : List (Option Byte)) (s : State) : Host.Outcome State Fault Refusal :=
  .next (if s.encMoves then
    match s.enc.nextSess with
    | none => s
    | some (x, au) =>
      match x.par.anchors[au.pics]? with
      | none => s
      | some k => s.encPicture x au k tex dep
    else s)

/-- The result record (Table 10-6). -/
def EncAu.record (au : EncAu) (bytes : Nat) : List Byte :=
  leBytes au.auId 4 ++ leBytes au.start 4 ++ leBytes bytes 4 ++ leBytes au.budget 4 ++ leBytes au.tail 8 ++ leBytes au.qpTex 1 ++
    leBytes au.qpDepth 1 ++
    leBytes (b2n (decide (au.cause ≠ 0)) + 2 * b2n au.historyFree + 4 * b2n au.overshoot + 8 * b2n au.poison) 1 ++
    leBytes au.cause 1 ++ leBytes 0 4

/-- The next q (R307). -/
def nextQ (p : EncPar) (q bytes budget : Nat) (tail : Bool) : Nat :=
  let z : Int := if tail then q + 2 else if 95 * budget < 100 * bytes then q + 1 else if 100 * bytes < 75 * budget then (q : Int) - 1
    else q
  (clampI p.qpMin p.qpMax z).toNat

/-- ENC_AU_DONE: the result record is written, ENC_PUT completes, and q changes (R307, R309). -/
def State.encAuDone (s : State) (x : EncSess) (au : EncAu) : State :=
  let bytes := x.wptr - au.start
  let tail := decide (au.tail ≠ 0)
  let s := if au.put.result = 0 then s else s.bufWrite .enc .enc au.put.result (au.record bytes)
  let y := { x with cur := none, q := nextQ x.par x.q bytes au.budget tail,
                    refs := (au.slot :: x.refs).take (max 1 x.par.numTref) }
  let s := s.modEnc fun e => { (e.setSess y) with cores := e.cores.filter fun c => c.2 != x.num }
  let s := s.bump (F.ENC_CNT_COUNT 0)
  let s := if au.cause ≠ 0 then s.bump (F.ENC_CNT_COUNT 1) else s
  let s := s.complete x.ring au.put.idx Cpl.SUCCESS x.wptr (if au.poison then CFlag.POISON else 0)
  if tail && decide (x.q = x.par.qpMax) then s.raise Ev.ENC_QP_LIMIT else s

def execEncAuDone (ring : Nat) (s : State) : Host.Outcome State Fault Refusal :=
  .next (if s.encMoves then
    match s.enc.ofRing ring with
    | none => s
    | some x =>
      match x.cur with
      | none => s
      | some au => if au.pics = x.par.anchors.length then s.encAuDone x au else s
    else s)

/-- A waiting ENC_PUT goes; its ENC_KEY request passes to the next one (R301). -/
def State.dropPut (s : State) (x : EncSess) (idx : Nat) : State :=
  match x.puts.find? fun p => p.idx == idx with
  | none => s
  | some p =>
    let before := x.puts.takeWhile fun q => q.idx != idx
    let y := EncSess.passKey { x with puts := (x.puts.dropWhile fun q => q.idx != idx).drop 1 } p
    s.modEnc fun e => e.setSess { y with puts := before ++ y.puts }

/-- An ENC_PUT is aborted (R308): one that waits goes; one in coding gives its bytes back and makes the next unit a key unit. -/
def State.abortEnc (s : State) (ring idx : Nat) : State :=
  match s.enc.ofRing ring with
  | none => s
  | some x =>
    match x.cur with
    | some au =>
      if au.put.idx = idx then
        s.modEnc fun e => { (e.setSess { x with cur := none, wptr := au.start, failed := true }) with
          cores := e.cores.filter fun c => c.2 != x.num }
      else s.dropPut x idx
    | none => s.dropPut x idx

def execEncCntClear (s : State) : Host.Outcome State Fault Refusal :=
  .next (if s.bar0Open then s.clearCounters 0x100040 4 else s)

end Sys2Proof.Machine
end

