-- ==== Sys2Proof/Machine/Abort.lean ====
section
/-!
DEFINITION. Aborts (R64 to R67): what an aborted descriptor undoes in each engine, the abort point of QUEUE_ABORT, DELETE_RING
and HIF_ABORT, and the aborts that the power ladder makes (R401, R406).
-/
namespace Sys2Proof.Machine

/-- A present or a commit that has not been selected or latched leaves the latch logic (R65). -/
def State.dropLatch (s : State) (ring idx : Nat) : State :=
  let gone := fun (c : Commit) => c.ring == ring && c.idx == idx
  State.commitBits { s with
    scn := { s.scn with presents := s.scn.presents.filter fun p => p.desc != some (ring, idx) }
    cmp := { s.cmp with
      transit := s.cmp.transit.filter fun c => !gone c
      pend := s.cmp.pend.filter fun c => !gone c } }

/-- An aborted ADMIN descriptor: an abort it drives goes no further, and an entry to S1 that waits for its capture frame is given
up (R405). -/
def State.abortAdmin (s : State) (idx : Nat) : State :=
  let s := { s with hif := { s.hif with aborts := s.hif.aborts.filter fun a => a.admin != some idx } }
  if s.pwr.trans.any fun t => t.admin == some idx then
    State.wrB { s with pwr := { s.pwr with trans := none, capturing := false, captureFrame := none } } F.PWR_STATUS_BUSY false
  else s

/-- An aborted MGMT descriptor that waits for a MAIL_ACK no longer waits (R65). -/
def State.abortSend (s : State) (ring idx : Nat) : State :=
  { s with rope := { s.rope with send := s.rope.send.filter fun w => !(w.ring == ring && w.idx == idx) } }

/-- Whether a store operation is a descriptor's. -/
def StoreOp.isOf (o : StoreOp) (ring idx : Nat) : Bool := o.ring == ring && o.idx == idx

/-- An aborted MGMT descriptor writes no further group, sector or copy (R65); a group begun is complete (R447), a sector or copy begun
stays as it is (log entry 1801). -/
def State.abortStore (s : State) (ring idx : Nat) : State :=
  { s with nvs := { s.nvs with
    logOp := s.nvs.logOp.filter fun o => !o.isOf ring idx
    flashOp := s.nvs.flashOp.filter fun o => !o.isOf ring idx } }

/-- The store operation of a descriptor. -/
def State.storeOf (s : State) (ring idx : Nat) : Option StoreOp :=
  (s.nvs.logOp.toList ++ s.nvs.flashOp.toList).find? fun o => o.isOf ring idx

/-- Bytes that an aborted LOG_WRITE or FLASH_WRITE has written (Table 2-7). -/
def StoreOp.done (o : StoreOp) : Nat := if o.settings then 0 else o.fin

/-- What an aborted descriptor undoes in the engine of its class (R65, R140, R308, R322). -/
def State.abortEffect (s : State) (cls ring idx : Nat) : State :=
  if cls = Cls.ADMIN then s.abortAdmin idx
  else if cls = Cls.STREAM then s.abortFeed ring idx
  else if cls = Cls.ENC then s.abortEnc ring idx
  else if cls = Cls.BLT then s.abortBlt ring idx
  else if cls = Cls.MGMT then (s.abortSend ring idx).abortStore ring idx
  else s.dropLatch ring idx

/-- INFO and POISON of an aborted descriptor, which Tables 2-6 and 2-7 give for any status: parcels consumed or repetitions played
(R141), commands finished (R312), bytes written, descriptors aborted so far (R66), and whether it has read poison (R76, R289, R321). -/
def State.abortResult (s : State) (cls ring idx : Nat) : Nat × Nat :=
  if cls = Cls.ADMIN then (((s.hif.aborts.find? fun a => a.admin == some idx).map AbortOp.count).getD 0, 0)
  else if cls = Cls.STREAM then
    match s.dec.feeds.find? fun f => f.ring == ring && f.idx == idx with
    | some f => (if f.isLoop then f.played else f.consumed, flagPoison f.poison)
    | none => (0, 0)
  else if cls = Cls.ENC then
    (0, flagPoison (((s.enc.ofRing ring).bind EncSess.cur).any fun au => au.put.idx == idx && au.poison))
  else if cls = Cls.BLT then
    match s.blt.listOf ring idx with
    | some l => (l.fin, flagPoison l.poison)
    | none => (0, 0)
  else if cls = Cls.MGMT then
    match s.storeOf ring idx with
    | some o => (o.done, o.flags)
    | none => (0, flagPoison (s.rope.send.any fun w => w.ring == ring && w.idx == idx && w.poison))
  else (0, 0)

/-- One fetched descriptor completes with ABORTED (R64). -/
def State.abortDesc (s : State) (cls ring idx : Nat) : State :=
  let s := if cls = Cls.BLT then s.bltHalt ring idx else s
  let r := s.abortResult cls ring idx
  (s.abortEffect cls ring idx).complete ring idx Cpl.ABORTED r.1 r.2

/-- Abort the given fetched descriptors of a ring (R64). -/
def State.abortDescs (s : State) (cls ring : Nat) (ds : List Desc) : State := ds.foldl (fun s d => s.abortDesc cls ring d.idx) s

/-- The fetched descriptors of a ring that have not reached their retire point. -/
def Ring.live (r : Ring) : List Desc := r.descs.filter fun d => d.phase != .done

/-- Abort the descriptors of a ring from its consumer index up to the accepted PI: those fetched complete now, the others as they
are fetched. The count is of both. With `below`, a fetched descriptor at that PI or later, which a PI moved back leaves running
(R47), is unaffected (R64); without it every outstanding descriptor is aborted (DELETE_RING of Table 2-7, R401). -/
def State.abortRing (s : State) (ring : Nat) (below : Bool) : State × Nat :=
  match s.ring? ring with
  | none => (s, 0)
  | some r =>
    let w := s.idxW
    let from_ := if serialLater w r.abortTo r.fetch then r.abortTo else r.fetch
    let more := if serialLater w r.pi from_ then (r.pi + 2 ^ w - from_) % 2 ^ w else 0
    let s := if more = 0 then s else s.setRing { r with abortTo := r.pi }
    let ds := r.live.filter fun d => !below || serialLater w r.pi d.idx
    (s.abortDescs r.cls ring ds, ds.length + more)

/-- The fresh read of a ring's PI and what it does (R64): PI_s is then the ring's accepted PI. -/
def State.samplePi (s : State) (ring pi ci : Nat) : State :=
  match s.ring? ring with
  | none => s
  | some r =>
    let v := s.doorbell r pi ci
    (if r.dbLine = 0 then s else s.emit (.lineRead r.dbLine)).acceptPi ring v.1 v.2

/-- An abort with no target left ends: QUEUE_ABORT completes with its count (R66), HIF_ABORT shows DONE (R67), DELETE_RING waits
for the records of its ring (R49). -/
def State.endAbort (s : State) (a : AbortOp) : State :=
  if a.delete then s.finishDeletes
  else
    let s := { s with hif := { s.hif with aborts := s.hif.aborts.filter fun x => x != a } }
    match a.admin with
    | some idx => s.complete 0 idx Cpl.SUCCESS a.count
    | none => s.hifAbortEnd a.count

/-- The abort point of one target ring, for the abort that waits longest for it (R64, R66). -/
def State.abortPoint (s : State) (ring pi ci : Nat) : State :=
  match s.hif.aborts.find? fun a => a.targets.contains ring with
  | none => s
  | some a =>
    let p := (s.samplePi ring pi ci).abortRing ring !a.delete
    let b := { a with targets := a.targets.filter (· != ring), count := a.count + p.2 }
    let s := p.1
    let s := { s with hif := { s.hif with aborts := s.hif.aborts.map fun x => if x = a then b else x } }
    if b.targets.isEmpty then s.endAbort b else s

/-- ABORT_POINT (R64). -/
def execAbortPoint (ring pi ci : Nat) (s : State) : Host.Outcome State Fault Refusal :=
  .next (if s.awake && !s.rdB F.HIF_STATUS_RESET_BUSY then s.abortPoint ring pi ci else s)

/-- Abort every ring of the given classes up to its accepted PI (R401). -/
def State.abortClasses (s : State) (sel : Nat → Bool) : State :=
  (s.hif.rings.filter fun r => sel r.cls).foldl (fun s r => (s.abortRing r.num false).1) s

/-- Abort the fetched descriptors of every STREAM, ENC and BLT ring (R406). -/
def State.abortEngines (s : State) : State :=
  (s.hif.rings.filter fun r => r.cls == Cls.STREAM || r.cls == Cls.ENC || r.cls == Cls.BLT).foldl
    (fun s r => s.abortDescs r.cls r.num r.live) s

end Sys2Proof.Machine
end

