-- ==== Sys2Proof/Machine/DecParse.lean ====
section
/-!
DEFINITION. The stream parser (chapters 3 and 4): parcels in ring order, the rules that make one damaged, and what an accepted one
does.
-/
namespace Sys2Proof.Machine

/-- A parcel that passes its CRC and lies inside its buffer (R73, R74, R76). -/
structure Parcel where
  type : Nat
  view : Nat
  payload : List Byte
  deriving DecidableEq, Repr

/-- What the parser meets (Table 3-3, R75, R77). -/
inductive PKind where
  | seq | grid | au | viewpic | slice | depth | pad | end_ | ext | invalid | crc
  deriving DecidableEq, Repr

/-- The kind of a parcel type. -/
def kindOfType (t : Nat) : PKind :=
  match t with
  | 1 => .seq | 2 => .grid | 3 => .au | 4 => .viewpic | 5 => .slice | 6 => .depth | 7 => .pad | 8 => .end_
  | _ => if 0x80 ≤ t ∧ t ≤ 0xFE then .ext else .invalid

/-- Bytes a parcel of a payload length occupies (R73). -/
def parcelSize (len : Nat) : Nat := 8 + 8 * ceilDiv len 8

/-- The parcel at an offset of a buffer, when it lies inside, is of legal length and passes its CRC. -/
def parcelAt (bs : List Byte) (off : Nat) : Option Parcel :=
  let h := (bs.drop off).take 8
  let len := leAt h 2 4
  if h.length = 8 ∧ len ≤ 16777216 ∧ off + parcelSize len ≤ bs.length then
    let pl := (bs.drop (off + 8)).take len
    if crc16 (h.take 6 ++ pl) = leAt h 6 2 then some ⟨byteAt h 0, byteAt h 1, pl⟩ else none
  else none

/-- The bytes of the parcel at an offset: all of it where its LENGTH is legal and it lies inside the buffer, else its header. -/
def parcelSpan (bs : List Byte) (off : Nat) : Nat :=
  let h := (bs.drop off).take 8
  let len := leAt h 2 4
  if h.length = 8 ∧ len ≤ 16777216 ∧ off + parcelSize len ≤ bs.length then 8 + len else 8

/-- Where the parser resumes after a parcel that fails its CRC (R77). -/
def resumeAt (bs : List Byte) (off : Nat) : Nat :=
  let first := off + parcelSize (leAt ((bs.drop off).take 8) 2 4)
  if first < bs.length ∧ (parcelAt bs first).isSome = true then first
  else
    match ((List.range (bs.length / 8)).map fun i => off + 8 + 8 * i).find? fun o =>
        match parcelAt bs o with | some p => kindOfType p.type != .invalid | none => false with
    | some o => o
    | none => bs.length

/-- The bytes of a feed as the parser reads them now (R284). -/
def State.feedBytes (s : State) (f : Feed) : List MByte :=
  match f.dev with
  | some a => s.peekFor .dec a f.len
  | none => f.bytes.map fun b => ⟨b, false⟩

/-- Pool and archive in force pass the checks of DEC_STATUS.CFG_OK (R114). -/
def State.cfgOk (s : State) : Bool :=
  let c := s.dec.cfg
  let pool := c.anchors * c.slots * c.stride * 4096
  let both := fun a n => s.rangeOk .dec true a n && s.rangeOk .syn false a n
  decide (1 ≤ c.anchors) && decide (c.anchors ≤ 36) && decide (c.poolBase + pool ≤ 2 ^ 36) && both c.poolBase pool &&
    both c.archBase c.archSize

/-- The feed in parse: the first not wholly parsed, unless it is a STREAM_RESET that waits (R126, R485). -/
def DecSt.front (d : DecSt) : Option Feed :=
  match d.feeds.find? fun f => !f.parsed with
  | none => none
  | some f => if f.isReset || decide (f.len ≤ f.pos) then none else some f

/-- Change a feed. -/
def DecSt.modFeed (d : DecSt) (fid : Nat) (g : Feed → Feed) : DecSt :=
  { d with feeds := d.feeds.map fun f => if f.fid = fid then g f else f }

/-- A feed after its position moves; at its end a buffer is parsed, a loop plays again or is parsed (R141, R485). -/
def Feed.advance (f : Feed) (pos : Nat) : Feed :=
  if pos < f.len then { f with pos := pos }
  else if !f.isLoop then { f with pos := pos, parsed := true }
  else if f.repeat_ ≠ 0 ∧ f.repeat_ ≤ f.played + 1 then { f with pos := pos, played := f.played + 1, parsed := true }
  else { f with pos := 0, played := min (f.played + 1) (2 ^ 32 - 1) }

/-- A SEQ that is damaged or mismatched begins a stretch (R83). -/
def State.badSeq (s : State) (fid : Nat) : State :=
  (s.modDec fun d => { d with mode := .stretch true }).damagedFeed (some fid)

/-- A SEQ parcel (R82, R83). -/
def State.onSeq (s : State) (fid : Nat) (p : Parcel) : State :=
  let b := byteAt p.payload
  let g := s.geo
  if p.view ≠ 0xFF ∨ p.payload.length < 16 then s.badSeq fid
  else if b 0 ≠ 1 ∨ ¬(b 2 = 1 ∨ b 2 = 2) ∨ ¬(b 3 = 10 ∨ b 3 = 20 ∨ b 3 = 30) then
    s.modDec fun d => { d.modFeed fid (fun f => { f with unsupported := true }) with mode := .stretch false }
  else if leAt p.payload 4 2 ≠ g.cols ∨ leAt p.payload 6 2 ≠ g.rows then (s.badSeq fid).raise Ev.DEC_SEQ_MISMATCH
  else if leAt p.payload 8 2 = 0 ∨ 4 < b 10 then s.badSeq fid
  else s.modDec fun d => { d with
    mode := .afterSeq, seq := some ⟨leAt p.payload 8 2, b 10⟩, gridNew := none, gridOk := false, needKey := true }

/-- A GRID payload as positions, when Table 3-7 and R85 allow it. -/
def gridOf (pl : List Byte) : Option Grid :=
  let b := byteAt pl
  let pos := (List.range (b 2)).map fun a => (b (4 + 2 * a), b (5 + 2 * a))
  if 1 ≤ b 0 ∧ b 0 ≤ 144 ∧ 1 ≤ b 1 ∧ b 1 ≤ 24 ∧ 1 ≤ b 2 ∧ b 2 ≤ 36 ∧ b 0 * b 1 ≤ 144 ∧ pl.length = 4 + 2 * b 2 ∧
      (pos.all fun q => decide (q.1 < b 0) && decide (q.2 < b 1)) = true ∧ pos.eraseDups.length = pos.length then
    some ⟨b 0, b 1, pos⟩
  else none

/-- A GRID parcel: U and V of the GRID that follows a SEQ are compared whatever else is wrong with it (R83, R85). -/
def State.onGrid (s : State) (fid : Nat) (p : Parcel) : State :=
  if s.dec.mode ≠ .afterSeq then s.damagedFeed (some fid)
  else if 2 ≤ p.payload.length ∧ (byteAt p.payload 0 ≠ s.geo.gu ∨ byteAt p.payload 1 ≠ s.geo.gv) then
    (s.badSeq fid).raise Ev.DEC_SEQ_MISMATCH
  else match gridOf p.payload with
    | some g =>
      if p.view ≠ 0xFF then s.damagedFeed (some fid)
      else s.modDec fun d => { d with mode := .afterGrid, gridNew := some g, gridOk := true }
    | none => s.damagedFeed (some fid)

/-- An accepted AU parcel (R80, R81, R86): it ends the unit before (R125), then a key unit takes the GRID and empties the temporal
buffers (log entry 306 for this order). SYN_ANCHOR_EXCESS is judged here, or at the first row synthesised after ANCHORS has become
smaller (log entry 513). -/
def State.acceptAu (s : State) (id : Nat) (key : Bool) : State :=
  let s := s.endAu
  let s := if key then s.modDec fun d => { d with
      epoch := d.epoch + 1, temporal := List.replicate 36 [], needKey := false
      grid := match d.gridNew with | some g => some g | none => d.grid
      gridNew := none } else s
  let pos := (s.dec.grid.map Grid.pos).getD []
  let excess := decide (s.geo.anchors < pos.length)
  let s := s.modDec fun d => { d with
    mode := .inAu, adm := d.adm + 1
    cur := some ⟨id, d.adm + 1, d.rank, key, true, [], []⟩
    aus := ⟨id, d.adm + 1, pos, (d.seq.map SeqPar.doff).getD 1, excess⟩ :: d.aus.filter fun a => a.id != id }
  if excess then s.raise Ev.SYN_ANCHOR_EXCESS else s

/-- Whether an AU parcel's number follows the one before (R80). -/
def DecSt.auFollows (d : DecSt) (id : Nat) : Bool :=
  match d.cur with
  | none => false
  | some c => serialLater 32 id c.id

/-- An AU parcel (R80, R81). -/
def State.onAu (s : State) (fid : Nat) (p : Parcel) : State :=
  let id := leAt p.payload 0 4
  let key := bitAt (byteAt p.payload 4) 0
  if p.view ≠ 0xFF ∨ p.payload.length ≠ 8 ∨ s.dec.gridOk = false ∨ s.dec.mode = .afterSeq then s.damagedFeed (some fid)
  else if key = false ∧ (s.dec.needKey = true ∨ s.dec.auFollows id = false) then
    (s.modDec fun d => { d with mode := .auBad }).damagedFeed (some fid)
  else s.acceptAu id key

/-- The picture of an anchor accepted in the unit in parse. -/
def DecSt.curPic (d : DecSt) (c : CurAu) (anchor : Nat) : Option Pic :=
  if c.done.contains anchor then newestPic (d.decPics.filter fun p => p.anchor == anchor && decide (c.seq < p.uid)) else none

/-- The rules of R87 and R91 for a VIEWPIC payload of 24 bytes. -/
def DecSt.viewpicOk (d : DecSt) (c : CurAu) (g : Grid) (view : Nat) (b : Nat → Nat) (id maxTref : Nat) : Bool :=
  let nT := b 14
  let nV := b 15
  let deltas := (List.range nT).map fun i => b (16 + i)
  let at_ := fun a => g.pos.getD a (0, 0)
  id == c.id && decide (view < g.pos.length) && !c.done.contains view && (b 4 == 1 || b 4 == 2) &&
    ((upFrom 5 4).all fun i => decide (b i ≤ 128)) && decide (b 9 ≤ 63) && decide (b 10 ≤ 63) &&
    decide ((sext 8 (b 11)).natAbs ≤ 12) && decide ((sext 8 (b 12)).natAbs ≤ 12) &&
    decide (nT ≤ maxTref) && decide (nT ≤ 4) && !(c.key && nT != 0) && decide (nV ≤ 2) &&
    deltas.all (fun x => x != 0) && deltas.eraseDups.length == nT &&
    (List.range nV).all fun j =>
      let r := b (20 + j)
      let du := ((at_ r).1 : Int) - (at_ view).1
      let dv := ((at_ r).2 : Int) - (at_ view).2
      decide (r < view) && (du == 0 || dv == 0 || du.natAbs == dv.natAbs) &&
        (match d.curPic c r with | some q => q.vp.scale == b 4 | none => true)

/-- The picture parameters of a VIEWPIC under the geometry in force (R88). -/
def viewPicOf (g : Geo) (b : Nat → Nat) : ViewPic :=
  { scale := b 4, gl := b 5, gr := b 6, gt := b 7, gb := b 8, qpTex := b 9, qpDepth := b 10, qpOffR := sext 8 (b 11),
    qpOffB := sext 8 (b 12), sbQp := bitAt (b 13) 0, nTref := b 14, sw := g.cols / b 4 + b 5 + b 6,
    sh := g.rows / b 4 + b 7 + b 8 }

/-- The temporal entry for a delta (R90, R91): the named picture of the buffer, or its substitute. -/
def DecSt.tempEntry (d : DecSt) (c : CurAu) (view delta scale : Nat) : RefEntry × Bool :=
  match (d.tempPics view).find? fun q => q.au == (c.id + 2 ^ 32 - delta) % 2 ^ 32 with
  | some q => if q.vp.scale = scale then (.pic q.uid, false) else (d.substitute view c.seq scale, true)
  | none => (d.substitute view c.seq scale, true)

/-- The reference list of a VIEWPIC (R90, R91), and how many entries are substituted at once. -/
def DecSt.refList (d : DecSt) (c : CurAu) (g : Grid) (view : Nat) (b : Nat → Nat) : List PicRef × Nat :=
  let at_ := fun a => g.pos.getD a (0, 0)
  let ts := (List.range (b 14)).map fun i => d.tempEntry c view (b (16 + i)) (b 4)
  let vs := (List.range (b 15)).map fun j =>
    let r := b (20 + j)
    let e : RefEntry := match d.curPic c r with | some q => .pic q.uid | none => .awaited
    (⟨e, r, false, ((at_ r).1 : Int) - (at_ view).1, ((at_ r).2 : Int) - (at_ view).2⟩ : PicRef)
  (ts.map (fun t => ⟨t.1, view, true, 0, 0⟩) ++ vs, (ts.filter Prod.snd).length)

/-- A picture is admitted into slot k (R89, R117, R484), and entries that awaited it are settled (R91). -/
def State.admitPic (s : State) (c : CurAu) (g : Grid) (view k : Nat) (b : Nat → Nat) : State :=
  let d := s.dec
  let s := s.drawn 1
  let (refs, subst) := d.refList c g view b
  let vp := viewPicOf s.geo b
  let uid := d.adm + 1
  let rows := List.replicate vp.sbr SbRow.fresh
  let p : Pic := { uid := uid, anchor := view, au := c.id, auRank := c.rank, epoch := d.epoch, slot := k,
                   addr := d.cfg.slotAddr view k, vp := vp, refs := refs, tex := rows, dep := rows, passed := false,
                   win := .unopened, repair := false, stale := false, stalePin := false }
  let s := s.modDec fun d => { d.freeSlot view k with
    adm := uid
    pics := p :: (d.freeSlot view k).pics
    temporal := d.temporal.set view ((uid :: d.tempOf view).take 4)
    cur := some { c with done := view :: c.done, short := c.short.filter fun a => a != view } }
  ((s.dec.decPics.filter fun q => decide (c.seq < q.uid)).foldl (fun s q => s.settleAwaited q.uid view c.seq (some (uid, vp.scale))) s
    ).countSubst subst

/-- A VIEWPIC parcel (R87, R115, R117). -/
def State.onViewpic (s : State) (fid : Nat) (p : Parcel) : State :=
  match s.dec.mode, s.dec.cur, s.dec.grid, s.dec.seq with
  | .inAu, some c, some g, some q =>
    let b := byteAt p.payload
    let vp := viewPicOf s.geo b
    if p.payload.length = 24 ∧ s.dec.viewpicOk c g p.view b (leAt p.payload 0 4) q.maxTref = true then
      let fits := decide (p.view < s.dec.cfg.anchors) && decide (6 * vp.cw * vp.ch ≤ s.dec.cfg.stride * 4096)
      match (if fits then s.chooseSlot p.view else none) with
      | some k => s.admitPic c g p.view k b
      | none => (s.modDec fun d => { d with cur := some { c with short := p.view :: c.short } }).raise Ev.DEC_POOL_SHORT
    else s.damagedFeed (some fid)
  | _, _, _, _ => s.damagedFeed (some fid)

/-- What a SLICE or DEPTH parcel's AU_ID and VIEW name (R92, R115, R133). -/
inductive SliceTarget where
  | damaged
  | nothing
  | ignored
  | pic (p : Pic)
  deriving DecidableEq, Repr

/-- The picture a slice names. -/
def DecSt.sliceTarget (d : DecSt) (c : CurAu) (view id : Nat) : SliceTarget :=
  if id = c.id then
    match d.curPic c view with
    | some p => .pic p
    | none => if c.done.contains view then .ignored else if c.short.contains view then .nothing else .damaged
  else if serialLater 32 id c.id then .damaged
  else match (d.namedPic view id).bind fun p => d.decPic p.uid with
    | some p => .pic p
    | none => if serialLater 32 c.id id then .ignored else .damaged

/-- An accepted slice enters the queue (R110, R139). -/
def State.acceptSlice (s : State) (job : Job) (parcel : List Byte) : State :=
  let (s, ok) := s.archiveCopy job.sid job.feed parcel
  let s := s.modDec fun d =>
    { d.modPic job.uid (fun p => job.only.foldl (fun p r => p.modRow job.depth r fun w => { w with kind := .pending, ready := false }) p)
      with jobs := d.jobs ++ [job] }
  if ok then s else s.boundsStop job

/-- A SLICE or DEPTH parcel (R92, R110, R133). -/
def State.onSlice (s : State) (fid : Nat) (depth : Bool) (p : Parcel) (raw : List Byte) : State :=
  let pl := p.payload
  match s.dec.cur with
  | none => s.damagedFeed (some fid)
  | some c =>
    if ¬(s.dec.mode = .inAu ∨ s.dec.mode = .afterReset) ∨ pl.length < 12 ∨ 35 < p.view ∨ 63 < (sext 8 (byteAt pl 8)).natAbs then
      s.damagedFeed (some fid)
    else match s.dec.sliceTarget c p.view (leAt pl 0 4) with
      | .damaged => s.damagedFeed (some fid)
      | .nothing => s
      | .ignored => s.ignoreLate 0
      | .pic q =>
        let first := leAt pl 4 2
        let num := leAt pl 6 2
        let rows := upFrom first num
        let is := fun (k : RowKind) => rows.any fun r => (q.row depth r).kind == k
        if num = 0 ∨ q.vp.sbr < first + num ∨ is .pending = true ∨ is .final = true then s.damagedFeed (some fid)
        else
          let job := sliceJob s.dec.rank (some fid) q.uid depth pl rows s.dec.rank false
          if is .concealed then s.lateSlice q job raw else s.acceptSlice job raw

/-- An END parcel (R81, R125). -/
def State.onEnd (s : State) (fid : Nat) (p : Parcel) : State :=
  if p.view ≠ 0xFF ∨ p.payload.length ≠ 0 ∨ s.dec.mode = .afterSeq ∨ s.dec.mode = .afterGrid then s.damagedFeed (some fid)
  else s.endAu.modDec fun d => { d with mode := .needSeq }

/-- What an intact parcel does where the parser stands (R76, R81 to R83). -/
def State.onIntact (s : State) (fid : Nat) (k : PKind) (p : Parcel) (raw : List Byte) : State :=
  if k = .seq then s.onSeq fid p
  else if k = .ext then s
  else if k = .pad then (if p.view = 0xFF then s else s.damagedFeed (some fid))
  else match s.dec.mode with
    | .stretch dmg => if dmg then s.damagedFeed (some fid) else s
    | .needSeq => s.damagedFeed (some fid)
    | _ =>
      match k with
      | .grid => s.onGrid fid p
      | .au => s.onAu fid p
      | .viewpic => s.onViewpic fid p
      | .slice => s.onSlice fid false p raw
      | .depth => s.onSlice fid true p raw
      | .end_ => s.onEnd fid p
      | _ => s.damagedFeed (some fid)

/-- The next parcel in ring order: its feed, the buffer, and its kind. -/
def State.nextParcel (s : State) : Option (Feed × List MByte × PKind) :=
  match s.dec.front with
  | none => none
  | some f =>
    let bs := s.feedBytes f
    some (f, bs, match parcelAt (bs.map MByte.val) f.pos with | some p => kindOfType p.type | none => .crc)

/-- The parser takes the next parcel off its feed (R141): counted, and its bytes read. -/
def State.takeParcel (s : State) (f : Feed) (bs : List MByte) : State × Bool :=
  let vals := bs.map MByte.val
  let p := parcelAt vals f.pos
  let n := parcelSpan vals f.pos
  let next := match p with | some p => f.pos + parcelSize p.payload.length | none => resumeAt vals f.pos
  let poison := ((bs.drop f.pos).take n).any MByte.poison
  let s := match f.dev with | some a => s.readFor .dec .dec (a + f.pos) (min n (f.len - f.pos)) | none => s
  ((s.modDec fun d => { d.modFeed f.fid (fun f => { (f.advance next) with consumed := f.consumed + 1, poison := f.poison || poison })
      with rank := d.rank + 1 }).bump (F.DEC_CNT_COUNT 0), poison)

/-- The parser takes a parcel of the given kind (R76, R77, Table 12-2). -/
def State.parse (s : State) (want : PKind) : State :=
  match s.nextParcel with
  | none => s
  | some (f, bs, k) =>
    if k = want ∧ s.decRuns = true ∧ s.cfgOk = true then
      let (t, poison) := s.takeParcel f bs
      (match parcelAt (bs.map MByte.val) f.pos with
       | none => t.damagedFeed (some f.fid)
       | some p =>
         if poison then (if k = PKind.seq then t.badSeq f.fid else t.damagedFeed (some f.fid))
         else t.onIntact f.fid k p (((bs.drop f.pos).take (8 + p.payload.length)).map MByte.val)).settleFeeds
    else s

def execSeqParcel (s : State) : Host.Outcome State Fault Refusal := .next (s.parse .seq)
def execGridParcel (s : State) : Host.Outcome State Fault Refusal := .next (s.parse .grid)
def execAuParcel (s : State) : Host.Outcome State Fault Refusal := .next (s.parse .au)
def execViewpicParcel (s : State) : Host.Outcome State Fault Refusal := .next (s.parse .viewpic)
def execSliceParcel (s : State) : Host.Outcome State Fault Refusal := .next (s.parse .slice)
def execDepthParcel (s : State) : Host.Outcome State Fault Refusal := .next (s.parse .depth)
def execPadParcel (s : State) : Host.Outcome State Fault Refusal := .next (s.parse .pad)
def execEndParcel (s : State) : Host.Outcome State Fault Refusal := .next (s.parse .end_)
def execExtensionParcel (s : State) : Host.Outcome State Fault Refusal := .next (s.parse .ext)
def execInvalidTypeParcel (s : State) : Host.Outcome State Fault Refusal := .next (s.parse .invalid)
def execCrcFailedParcel (s : State) : Host.Outcome State Fault Refusal := .next (s.parse .crc)

/-- The watchdog abandons the parcel in parse, whatever its type (R119). -/
def State.watchParser (s : State) : State :=
  match s.nextParcel with
  | none => s
  | some (f, bs, k) =>
    if s.decRuns = false ∨ s.cfgOk = false then s
    else
      let t := ((s.takeParcel f bs).1.bump (F.DEC_CNT_COUNT 7)).raise Ev.DEC_WATCHDOG
      (if k = PKind.seq then t.badSeq f.fid else t.damagedFeed (some f.fid)).settleFeeds

/-- The watchdog abandons the slice in a lane and frees the lane (R119, R120). -/
def State.watchLane (s : State) (n : Nat) : State :=
  match s.dec.inLanes[n]? with
  | none => s
  | some (j, out) => (((s.noteReads j out.reads).bump (F.DEC_CNT_COUNT 7)).raise Ev.DEC_WATCHDOG).abandonJob j

def execDecWatchdog (lane : Option Nat) (s : State) : Host.Outcome State Fault Refusal :=
  .next (match lane with
    | none => s.watchParser
    | some n => if s.decRuns then s.watchLane n else s)

/-- A new feed at the end of the parser's sequence. -/
def State.addFeed (s : State) (f : Feed) : State :=
  (s.modDec fun d => { d with rank := d.rank + 1, feeds := d.feeds ++ [{ f with fid := d.rank + 1 }] })

/-- A feed with everything at its start. -/
def Feed.start (ring idx len : Nat) : Feed :=
  { fid := 0, ring := ring, idx := idx, isReset := false, isLoop := false, repeat_ := 0, dev := none, len := len, bytes := [],
    pos := 0, played := 0, consumed := 0, damaged := false, unsupported := false, poison := false, parsed := false }

/-- STREAM_PUSH (R43, R114, R141). -/
def State.opStreamPush (s : State) (ring : Nat) (data : List Byte) : State :=
  s.withOp ring 0x10 (fun _ d =>
      let src := leAt d.bytes 8 8
      let len := leAt d.bytes 16 4
      [(d.restZero [(8, 8), (16, 4)] && addrForm src && len % 8 == 0, Cpl.BAD_FIELD),
       (s.bufOk .dec false src len && s.cfgOk, Cpl.BAD_ADDRESS)])
    fun r d s =>
      let src := leAt d.bytes 8 8
      let len := leAt d.bytes 16 4
      (s.addFeed { Feed.start r.num d.idx len with
        dev := if isHost src then none else some (src - 2 ^ 63)
        bytes := if isHost src then padTo len 0 data else []
        parsed := len == 0 }).settleFeeds

def execStreamPush (ring : Nat) (data : List Byte) (s : State) : Host.Outcome State Fault Refusal := .next (s.opStreamPush ring data)

/-- LOOP_PLAY (R43, R485). -/
def State.opLoopPlay (s : State) (ring : Nat) : State :=
  s.withOp ring 0x12 (fun _ d =>
      let src := leAt d.bytes 8 8
      let len := leAt d.bytes 16 4
      [(d.restZero [(8, 8), (16, 4), (20, 4)] && isDevice src, Cpl.BAD_FIELD),
       (s.rangeOk .dec false (src - 2 ^ 63) (max 1 len) && s.cfgOk, Cpl.BAD_ADDRESS)])
    fun r d s =>
      let len := leAt d.bytes 16 4
      let rep := leAt d.bytes 20 4
      (s.addFeed { Feed.start r.num d.idx len with
        isLoop := true, repeat_ := rep, dev := some (leAt d.bytes 8 8 - 2 ^ 63)
        played := if len = 0 then rep else 0
        parsed := len == 0 && rep != 0 }).settleFeeds

def execLoopPlay (ring : Nat) (s : State) : Host.Outcome State Fault Refusal := .next (s.opLoopPlay ring)

/-- Every LOOP_PLAY still parsing stops at the end of the parcel in parse (R126); one that has started and has no parcel parsed yet
stops too (log entry 423). -/
def State.stopLoops (s : State) : State :=
  (s.modDec fun d => { d with feeds := d.feeds.map fun f => if f.isLoop then { f with parsed := true } else f }).settleFeeds

/-- STREAM_RESET starts (R126). -/
def State.opStreamReset (s : State) (ring : Nat) : State :=
  s.withOp ring 0x11 (fun _ d => [(d.restZero [], Cpl.BAD_FIELD)]) fun r d s =>
    s.stopLoops.addFeed { Feed.start r.num d.idx 0 with isReset := true }

def execStreamReset (ring : Nat) (s : State) : Host.Outcome State Fault Refusal := .next (s.opStreamReset ring)

/-- The settings the registers hold (R143, with the values they treat otherwise). -/
def State.decSettings (s : State) : DecCfg :=
  let slots := s.rd F.DEC_SLOT_CFG_SLOTS
  { poolBase := s.rd F.DEC_POOL_BASE_LO_ADDR_LO * 2 ^ 12 + s.rd F.DEC_POOL_BASE_HI_ADDR_HI * 2 ^ 32
    stride := s.rd F.DEC_SLOT_CFG_STRIDE
    slots := if 8 ≤ slots ∧ slots ≤ 16 then slots else 8
    anchors := s.rd F.DEC_SLOT_CFG_ANCHORS
    archBase := s.rd F.DEC_ARCH_BASE_LO_ADDR_LO * 2 ^ 12 + s.rd F.DEC_ARCH_BASE_HI_ADDR_HI * 2 ^ 32
    archMiB := min 4096 (max 16 (s.rd F.DEC_ARCH_SIZE_SIZE))
    perSb := max 1 (s.rd F.DEC_BUDGET_PER_SB)
    base := s.rd F.DEC_BUDGET_BASE }

/-- New settings take effect (R143): a new pool layout starts with every slot empty, a new archive starts empty. -/
def State.takeDecSettings (s : State) : State :=
  s.modDec fun d =>
    let c := s.decSettings
    let pool := decide (c.poolBase ≠ d.cfg.poolBase ∨ c.stride ≠ d.cfg.stride ∨ c.slots ≠ d.cfg.slots ∨ c.anchors ≠ d.cfg.anchors)
    let arch := decide (c.archBase ≠ d.cfg.archBase ∨ c.archMiB ≠ d.cfg.archMiB)
    { d with
      cfg := c
      oldPics := if pool then (match d.oldPics with | some l => some l | none => some d.shownPics) else d.oldPics
      pics := if pool then [] else d.pics
      arch := if arch then [] else d.arch
      archTotal := if arch then 0 else d.archTotal }

/-- What STREAM_RESET does to the engine when it takes effect (R126, R143, R81). -/
def State.decReset (s : State) : State :=
  let s := (s.cancelRepair.endAu.passPics ((s.dec.cur.map CurAu.seq).getD (s.dec.adm + 1))).concealLost
  let s := s.modDec fun d => { d with pics := d.pics.map fun p => { p with win := .closed } }
  (s.modDec fun d => { d with
    temporal := List.replicate 36 [], epoch := d.epoch + 1, needKey := true
    mode := if d.mode = .inAu then .afterReset else d.mode }).takeDecSettings

/-- STREAM_RESET_TAKES_EFFECT: after every earlier descriptor has retired (R126). -/
def State.streamResetEffect (s : State) : State :=
  match s.dec.feeds.find? fun f => !f.parsed with
  | none => s
  | some f =>
    if f.isReset = true ∧ (s.descsOf f.ring).head?.map Desc.idx = some f.idx ∧ s.decRuns = true then
      (s.decReset.modDec fun d => { d with feeds := d.feeds.filter fun g => g.fid != f.fid }).complete f.ring f.idx Cpl.SUCCESS 0
    else s

def execStreamResetTakesEffect (s : State) : Host.Outcome State Fault Refusal := .next s.streamResetEffect

/-- The engine after a function reset, and after a return from S3 (Table 2-13, R409): as after STREAM_RESET, with the SEQ and GRID
forgotten when `forget`, and every slot empty when `empty`. -/
def State.decRestart (s : State) (forget empty : Bool) : State :=
  let s := s.decReset
  s.modDec fun d => { d with
    feeds := [], jobs := []
    mode := if forget then .needSeq else d.mode
    seq := if forget then none else d.seq
    grid := if forget then none else d.grid
    gridNew := if forget then none else d.gridNew
    gridOk := d.gridOk && !forget
    pics := if empty then [] else d.pics
    oldPics := if empty then none else d.oldPics
    arch := if empty then [] else d.arch }

end Sys2Proof.Machine
end

