-- ==== Sys2Proof/Machine/Nvs.lean ====
section
/-!
DEFINITION. Persistent storage (chapter 18): the serial flash, its records, the logbook, its counters, cairn records and the
MGMT commands that reach both stores.
-/
namespace Sys2Proof.Machine

/-- Change the stores. -/
def State.modNvs (s : State) (f : NvsSt → NvsSt) : State := { s with nvs := f s.nvs }

/-! ## The logbook -/

/-- The groups of 8 bytes that a range touches, and those it covers only in part. -/
def logGroups (a n : Nat) : List Nat := if n = 0 then [] else upFrom (a / 8) ((a + n - 1) / 8 - a / 8 + 1)
def partGroups (a n : Nat) : List Nat := (logGroups a n).filter fun g => decide (8 * g < a) || decide (a + n < 8 * g + 8)

/-- A read finds a group with an error (R446): one bit is corrected, written back and counted; two bits make the group
uncorrectable. -/
def State.logError (s : State) (e : LogErr) : State :=
  if s.nvs.badGroups.contains e.group then s
  else if e.double then s.modNvs fun n => { n with badGroups := e.group :: n.badGroups }
  else (s.bump (F.NVS_CNT_COUNT 0)).raise Ev.NVS_LOG_CORR

/-- The errors that a read of some groups finds. -/
def State.logErrors (s : State) (errs : List LogErr) (groups : List Nat) : State :=
  (errs.filter fun e => groups.contains e.group).foldl (fun s e => s.logError e) s

/-- Bytes of the logbook as they read: 0 in an uncorrectable group (R446). -/
def State.logBytes (s : State) (a n : Nat) : List Byte :=
  (cellRead (fun _ => 0) s.nvs.log a n).zipIdx.map fun c => if s.nvs.badGroups.contains ((a + c.2) / 8) then 0 else c.1

/-- Uncorrectable groups met by a command are counted (R446). -/
def State.logUncorr (s : State) (groups : List Nat) : State :=
  let bad := groups.filter fun g => s.nvs.badGroups.contains g
  if bad.isEmpty then s else s.bump (F.NVS_CNT_COUNT 1) bad.length

/-- Write bytes to the logbook, group by group (R444): a group covered in part keeps its other bytes, or zeros where it was
uncorrectable (R446). -/
def State.logPut (s : State) (a : Nat) (bs : List Byte) : State :=
  let lo := a / 8 * 8
  let hi := ceilDiv (a + bs.length) 8 * 8
  if bs.isEmpty then s
  else s.modNvs fun n => n.putLog lo (s.logBytes lo (a - lo) ++ bs ++ s.logBytes (a + bs.length) (hi - (a + bs.length)))

/-- A 64-bit lifetime counter of Table 18-7. -/
def State.lifetime (s : State) (a : Nat) : Nat := leAt (s.logBytes a 8) 0 8
def State.setLifetime (s : State) (a v : Nat) : State := s.modNvs fun n => n.putLog a (leBytes v 8)
def State.bumpLifetime (s : State) (a : Nat) (k : Nat := 1) : State := s.setLifetime a (s.lifetime a + k)

/-- The number of a power state in a cairn record. -/
def PwrState.number : PwrState → Nat
  | .s0 => 0
  | .s1 => 1
  | .s2 => 2
  | .s3 => 3
  | _ => 4

/-- CFLAGS of a cairn record: a logbook group was in progress, and a flash erase or program (Table 18-8). -/
def NvsSt.cutFlags (n : NvsSt) : Nat := b2n (n.logOp.any StoreOp.busy) + 2 * b2n (n.flashOp.any StoreOp.busy)

/-- A cairn record (Table 18-8). VIN is the latest measurement. -/
def State.cairnBytes (s : State) (cause detail : Nat) : List Byte :=
  leBytes s.nvs.cairnSeq 4 ++ leBytes cause 1 ++ leBytes detail 1 ++ leBytes (s.rd F.THM_STATUS_TJ) 2 ++ leBytes s.ropeStamp 8 ++
    leBytes s.frameNo 4 ++ leBytes (s.rd F.PWR_VIN_VIN) 2 ++ leBytes s.pwr.st.number 1 ++ leBytes s.nvs.cutFlags 1 ++
    leBytes (s.lifetime 0x80) 4 ++ leBytes 0 4

/-- Append a cairn record in slot SEQ mod 512 (R449); a group in progress is complete before it (R448). -/
def State.cairn (s : State) (cause detail : Nat) : State :=
  s.modNvs fun n => { n.putLog (0x8000 + 32 * (n.cairnSeq % 512)) (s.cairnBytes cause detail) with
    cairnSeq := (n.cairnSeq + 1) % 2 ^ 32
    logOp := n.logOp.map fun o => { o with busy := false } }

/-- A MGMT descriptor's buffer, offset and length (Table 2-8). -/
def Desc.hostBuf (d : Desc) : Nat := leAt d.bytes 8 8
def Desc.storeOff (d : Desc) : Nat := leAt d.bytes 16 4
def Desc.storeLen (d : Desc) : Nat := leAt d.bytes 20 4

/-- LOG_READ (R443, R446). -/
def State.opLogRead (s : State) (ring : Nat) (errs : List LogErr) : State :=
  s.withOp ring 0x61
    (fun _ d => [(d.restZero [(8, 16)] && addrForm d.hostBuf && decide (d.storeOff + d.storeLen ≤ 0x40000), Cpl.BAD_FIELD),
      (s.bufOk .mgmt true d.hostBuf d.storeLen, Cpl.BAD_ADDRESS), (!s.rdB F.NVS_STATUS_RECALL_BUSY, Cpl.NVS_BUSY)])
    fun r d s =>
      let gs := logGroups d.storeOff d.storeLen
      let s := (s.logErrors errs gs).logUncorr gs
      let bad := gs.any fun g => s.nvs.badGroups.contains g
      (s.bufWrite .host .mgmt d.hostBuf (s.logBytes d.storeOff d.storeLen)).complete r.num d.idx
        (if bad then Cpl.MEDIA_ERROR else Cpl.SUCCESS) d.storeLen 0 (if bad then [Ev.NVS_LOG_UNCORR] else [])

def execLogRead (ring : Nat) (errs : List LogErr) (s : State) : Host.Outcome State Fault Refusal := .next (s.opLogRead ring errs)

/-- The data a MGMT command reads from its buffer. -/
def State.storeData (s : State) (a n : Nat) (data : List Byte) : List MByte := s.bufBytes .mgmt a n data

/-- POISON of a completion (Table 2-6). -/
def poisonFlag (bs : List MByte) : Nat := if bs.any MByte.poison then CFlag.POISON else 0

/-- The bytes of a LOG_WRITE at `off` that lie in its first `k` groups. -/
def groupBytes (off k : Nat) : Nat := (off / 8 + k) * 8 - off

/-- A LOG_WRITE goes on to its end, or until it has finished `k` groups and works on the next, which completes whatever comes between
(R447). -/
def State.logGo (s : State) (o : StoreOp) (cut : Option Nat) : State :=
  match cut.filter fun k => decide (groupBytes o.off k < o.rest.length) with
  | some k =>
    let n := min o.rest.length (groupBytes o.off (k + 1))
    (s.logPut o.off (o.rest.take n)).modNvs fun v => { v with
      logOp := some { o with off := o.off + n, rest := o.rest.drop n, fin := o.fin + n, busy := true } }
  | none =>
    ((s.logPut o.off o.rest).modNvs fun v => { v with logOp := none }).complete o.ring o.idx Cpl.SUCCESS (o.fin + o.rest.length) o.flags
      o.evs

/-- A LOG_WRITE starts (R443, R444). -/
def State.opLogWrite (s : State) (ring : Nat) (data : List Byte) (run : LogRun) : State :=
  s.withOp ring 0x62
    (fun _ d => [(d.restZero [(8, 16)] && addrForm d.hostBuf && decide (0xC000 ≤ d.storeOff) &&
        decide (d.storeOff + d.storeLen ≤ 0x40000), Cpl.BAD_FIELD),
      (s.bufOk .mgmt false d.hostBuf d.storeLen, Cpl.BAD_ADDRESS), (!s.rdB F.NVS_STATUS_RECALL_BUSY, Cpl.NVS_BUSY)])
    fun r d s =>
      let bs := s.storeData d.hostBuf d.storeLen data
      let part := partGroups d.storeOff d.storeLen
      let s := ((s.bufRead .host .mgmt d.hostBuf d.storeLen).logErrors run.errs part).logUncorr part
      let evs := if part.any fun g => s.nvs.badGroups.contains g then [Ev.NVS_LOG_UNCORR] else []
      s.logGo ⟨r.num, d.idx, d.storeOff, bs.map MByte.val, false, 0, false, poisonFlag bs, evs⟩ run.cut

/-- LOG_WRITE: the one in progress on its ring goes on; another waits for it (log entry 1801). -/
def execLogWrite (ring : Nat) (data : List Byte) (run : LogRun) (s : State) : Host.Outcome State Fault Refusal :=
  .next (match s.nvs.logOp with
    | some o => if o.ring = ring then s.logGo o run.cut else s
    | none => s.opLogWrite ring data run)

/-- The records that waited for the recall are written (R445, R450). -/
def State.flushLog (s : State) : State :=
  let ws := s.nvs.logQ
  ws.foldl (fun s w => s.errLogWrite w.src w.rt w.frame) (s.modNvs fun n => { n with logQ := [] })

/-- SEQ of the newest record in an area of `n` slots, 0 with none: a slot holds a record when its SEQ belongs there and follows that
of the slot before it (R449; log entry 1814). -/
def State.newestRecord (s : State) (base size n : Nat) : Nat :=
  let seqs := (List.range n).map fun i => leAt (s.logBytes (base + size * i) 4) 0 4
  let prev := seqs.getLast?.toList ++ seqs
  (((seqs.zip prev).zipIdx.filter fun c => c.1.1 % n == c.2 && c.1.1 == (c.1.2 + 1) % 2 ^ 32).map fun c => c.1.1).foldl
    (fun a b => if a = 0 ∨ serialLater 32 b a then b else a) 0

/-- The recall finds the newest error-log record and the newest cairn record (R445). -/
def State.findRecords (s : State) : State :=
  let e := s.newestRecord 0x1000 64 448
  let c := s.newestRecord 0x8000 32 512
  s.modNvs fun n => { n with errSeq := (e + 1) % 2 ^ 32, cairnSeq := (c + 1) % 2 ^ 32 }

/-- The recall ends: every group has been read (R445). -/
def State.recallEnd (s : State) (errs : List LogErr) : State :=
  ((((errs.foldl (fun s e => s.logError e) s).findRecords.wrB F.NVS_STATUS_RECALL_BUSY false)).flushLog).raise Ev.NVS_RECALL_DONE

/-- NVS_RECALL_DONE, after a return from S3 (a boot's recall ends within the boot). -/
def execNvsRecallDone (errs : List LogErr) (s : State) : Host.Outcome State Fault Refusal :=
  .next (if (s.awake || s.pwr.st == .s3) && s.rdB F.NVS_STATUS_RECALL_BUSY then s.recallEnd errs else s)

/-- SVN_COMMIT (R436). -/
def State.svnCommit (s : State) : State :=
  let v := s.rd F.NVS_SVN_RUN_SVN
  if s.rd F.NVS_SVN_MIN_SVN < v then ((s.setLifetime 0x40 v).setLifetime 0x48 v).wr F.NVS_SVN_MIN_SVN v else s

def execSvnCommit (s : State) : Host.Outcome State Fault Refusal := .next (if s.bar0Open then s.svnCommit else s)

/-- S0_SECONDS_UPDATE: the whole seconds in S0 since the last update (Table 18-7). -/
def execS0SecondsUpdate (s : State) : Host.Outcome State Fault Refusal :=
  .next (if s.awake then
      (s.bumpLifetime 0xA8 (s.nvs.s0Ns / 1000000000)).modNvs fun n => { n with s0Ns := n.s0Ns % 1000000000 }
    else s)

/-- NVS_CNT_CLEAR (Table 18-9). -/
def execNvsCntClear (s : State) : Host.Outcome State Fault Refusal :=
  .next (if s.bar0Open then s.clearCounters 0x60020 4 else s)

/-! ## The serial flash -/

/-- Flash bytes from an offset. -/
def State.flashBytes (s : State) (a n : Nat) : List Byte := cellRead (fun _ => 0xFF) s.nvs.flash a n

/-- Erase and program a range. -/
def State.flashPut (s : State) (a : Nat) (bs : List Byte) : State :=
  s.modNvs fun n => { n with flash := cellPut (fun _ => 0xFF) n.flash a bs }

/-- A range that reads back wrong holds bytes the rules leave open. -/
def State.flashSpoil (s : State) (a n : Nat) : State :=
  (s.flashPut a ((List.range n).map fun i => Config.freeByte (s.freeCtr + i))).drawn n

/-- No erase or program starts while a power-fail warning is in force (R433). -/
def State.flashWaits (s : State) : Bool := s.pwr.ownWarn || s.pwr.pinWarn

/-- FLASH_READ (R431). -/
def State.opFlashRead (s : State) (ring : Nat) : State :=
  s.withOp ring 0x63
    (fun _ d => [(d.restZero [(8, 16)] && addrForm d.hostBuf && decide (d.storeOff + d.storeLen ≤ s.nvs.capMiB * 1048576), Cpl.BAD_FIELD),
      (s.bufOk .mgmt true d.hostBuf d.storeLen, Cpl.BAD_ADDRESS)])
    fun r d s =>
      (s.bufWrite .host .mgmt d.hostBuf (s.flashBytes d.storeOff d.storeLen)).complete r.num d.idx Cpl.SUCCESS d.storeLen

/-- FLASH_READ waits for the flash operation in progress (R433). -/
def execFlashRead (ring : Nat) (s : State) : Host.Outcome State Fault Refusal :=
  .next (if s.nvs.flashOp.isSome then s else s.opFlashRead ring)

/-- A range lies wholly in writable regions (Table 18-1). -/
def flashWritable (cap a n : Nat) : Bool :=
  decide (a % 4096 = 0) && decide (n % 4096 = 0) && decide (a + n ≤ cap) && (decide (a + n ≤ 0x1000000) || decide (0x1020000 ≤ a))

/-- A flash operation is in progress from here on, or none is. -/
def State.setFlashOp (s : State) (o : Option StoreOp) : State := s.modNvs fun n => { n with flashOp := o }

/-- A FLASH_WRITE goes on (R432): it erases, programs and verifies sector by sector to its end, to a sector that reads back wrong, or
until it works on a sector, whose bytes are open meanwhile. -/
def State.flashGo (s : State) (o : StoreOp) (run : StoreRun) : State :=
  let put := fun (k : Nat) => s.flashPut o.off (o.rest.take (4096 * k))
  let all := ((s.flashPut o.off o.rest).setFlashOp none).complete o.ring o.idx Cpl.SUCCESS (o.fin + o.rest.length) o.flags
  match run with
  | .whole => all
  | .bad k =>
    if k < o.rest.length / 4096 then
      ((((put k).flashSpoil (o.off + 4096 * k) 4096).bump (F.NVS_CNT_COUNT 2)).setFlashOp none).complete o.ring o.idx Cpl.MEDIA_ERROR
        (o.fin + 4096 * k) o.flags [Ev.NVS_FLASH_ERR]
    else all
  | .cut k =>
    if k < o.rest.length / 4096 then
      ((put k).flashSpoil (o.off + 4096 * k) 4096).setFlashOp (some { o with
        off := o.off + 4096 * k, rest := o.rest.drop (4096 * k), fin := o.fin + 4096 * k, busy := true })
    else all

/-- A FLASH_WRITE starts (R430 to R432). -/
def State.opFlashWrite (s : State) (ring : Nat) (data : List Byte) (run : StoreRun) : State :=
  s.withOp ring 0x64
    (fun _ d => [(d.restZero [(8, 16)] && addrForm d.hostBuf && flashWritable (s.nvs.capMiB * 1048576) d.storeOff d.storeLen, Cpl.BAD_FIELD),
      (s.bufOk .mgmt false d.hostBuf d.storeLen, Cpl.BAD_ADDRESS)])
    fun r d s =>
      if !s.rdB F.NVS_STATUS_SFDP_OK then s.complete r.num d.idx Cpl.MEDIA_ERROR 0
      else
        let bs := s.storeData d.hostBuf d.storeLen data
        (s.bufRead .host .mgmt d.hostBuf d.storeLen).flashGo
          ⟨r.num, d.idx, d.storeOff, bs.map MByte.val, false, 0, false, poisonFlag bs, []⟩ run

/-- FLASH_WRITE. Flash operations from all rings run one at a time (R433): the one in progress goes on when a command of its kind comes
for its ring, none starts beside it, and none goes on during a power-fail warning. -/
def execFlashWrite (ring : Nat) (data : List Byte) (run : StoreRun) (s : State) : Host.Outcome State Fault Refusal :=
  .next (if s.flashWaits then s
    else match s.nvs.flashOp with
      | some o => if o.ring = ring ∧ o.settings = false then s.flashGo o run else s
      | none => s.opFlashWrite ring data run)

/-! ## Records -/

/-- The 24-byte header of a record and its body (Table 18-3). -/
def recordBytes (magic gen : Nat) (body : List Byte) : List Byte :=
  let head := leBytes magic 4 ++ leBytes 1 2 ++ leBytes 0 2 ++ leBytes body.length 4 ++ leBytes gen 4
  head ++ leBytes (crc32 ((head ++ body).map BitVec.toNat)) 4 ++ leBytes 0 4 ++ body

/-- The body of the record at a flash offset, when it is valid (R437). -/
def State.recordBody (s : State) (a magic : Nat) : Option (List Byte) :=
  let h := s.flashBytes a 24
  let n := leAt h 8 4
  let body := s.flashBytes (a + 24) (min n 65512)
  if leAt h 0 4 = magic ∧ leAt h 4 2 = 1 ∧ n % 8 = 0 ∧ n ≤ 65512 ∧
      crc32 ((h.take 16 ++ body).map BitVec.toNat) = leAt h 16 4 then some body else none

/-- GENERATION of the record at a flash offset. -/
def State.recordGen (s : State) (a : Nat) : Nat := leAt (s.flashBytes (a + 12) 4) 0 4

/-- Magic numbers of Table 18-3 and offsets of Table 18-1. -/
def magicSettings : Nat := 0x54534B4A
def magicProfile : Nat := 0x50504B4A
def magicSnap : Nat := 0x41434B4A
def settingsAt (copy : Nat) : Nat := 0x1000000 + 0x10000 * copy

/-- Write one settings copy: the sectors the record covers are erased and programmed (R442). -/
def State.putCopy (s : State) (copy : Nat) (rec_ : List Byte) : State :=
  s.flashPut (settingsAt copy) (padTo (ceilDiv rec_.length 4096 * 4096) 0xFF rec_)

/-- A settings copy that reads back wrong. -/
def State.spoilCopy (s : State) (copy : Nat) (rec_ : List Byte) : State :=
  s.flashSpoil (settingsAt copy) (ceilDiv rec_.length 4096 * 4096)

/-- The copy not in use, which is written first (R442). -/
def State.firstCopy (s : State) : Nat := if s.rd F.NVS_STATUS_SET_SOURCE = 1 then 0 else 1

/-- A settings copy in the middle of its writing: MAGIC is programmed last, so the copy reads as invalid (R442, Table 18-5); its other
bytes are open. -/
def State.openCopy (s : State) (copy : Nat) (rec_ : List Byte) : State :=
  (s.spoilCopy copy rec_).flashPut (settingsAt copy) (List.replicate 4 0xFF)

/-- A SETTINGS_WRITE fails its read-back, a flash operation that fails verification (R442, Table 15-5). -/
def State.settingsFail (s : State) (o : StoreOp) : State :=
  (s.setFlashOp none).complete o.ring o.idx Cpl.MEDIA_ERROR 0 o.flags [Ev.NVS_FLASH_ERR]

/-- A SETTINGS_WRITE goes on (R442): the copy not in use, then the copy in use, to the end, to a copy that fails its read-back, or until
it works on a copy or stands between the two. -/
def State.settingsGo (s : State) (o : StoreOp) (run : StoreRun) : State :=
  let c := s.firstCopy
  let g := leAt o.rest 12 4
  let one := if o.fin = 0 then s.putCopy c o.rest else s
  match run with
  | .whole =>
    ((((one.putCopy (1 - c) o.rest).setFlashOp none).wr F.NVS_SET_GEN_GEN g).wrB F.NVS_STATUS_SET_CONFLICT false).complete o.ring o.idx
      Cpl.SUCCESS g o.flags
  | .bad k =>
    if o.fin = 0 ∧ k = 0 then (s.spoilCopy c o.rest).settingsFail o else (one.spoilCopy (1 - c) o.rest).settingsFail o
  | .cut k =>
    if o.fin = 0 ∧ k = 0 then (s.openCopy c o.rest).setFlashOp (some { o with busy := true })
    else if k < 2 then one.setFlashOp (some { o with fin := 1, busy := o.fin == 1 && o.busy })
    else (one.openCopy (1 - c) o.rest).setFlashOp (some { o with fin := 1, busy := true })

/-- A SETTINGS_WRITE starts: its record has the next generation (R442). -/
def State.opSettingsWrite (s : State) (ring : Nat) (data : List Byte) (run : StoreRun) : State :=
  s.withOp ring 0x65
    (fun _ d =>
      let n := leAt d.bytes 16 4
      [(d.restZero [(8, 12)] && addrForm d.hostBuf && n % 8 == 0 && decide (n ≤ 65512), Cpl.BAD_FIELD),
        (s.bufOk .mgmt false d.hostBuf n, Cpl.BAD_ADDRESS)])
    fun r d s =>
      let n := leAt d.bytes 16 4
      if !s.rdB F.NVS_STATUS_SFDP_OK then s.complete r.num d.idx Cpl.MEDIA_ERROR 0
      else
        let bs := s.storeData d.hostBuf n data
        let rec_ := recordBytes magicSettings ((s.rd F.NVS_SET_GEN_GEN + 1) % 2 ^ 32) (bs.map MByte.val)
        (s.bufRead .host .mgmt d.hostBuf n).settingsGo ⟨r.num, d.idx, 0, rec_, true, 0, false, poisonFlag bs, []⟩ run

/-- SETTINGS_WRITE, as FLASH_WRITE one of the flash operations that run one at a time (R433). -/
def execSettingsWrite (ring : Nat) (data : List Byte) (run : StoreRun) (s : State) : Host.Outcome State Fault Refusal :=
  .next (if s.flashWaits then s
    else match s.nvs.flashOp with
      | some o => if o.ring = ring ∧ o.settings = true then s.settingsGo o run else s
      | none => s.opSettingsWrite ring data run)

end Sys2Proof.Machine
end

