-- ==== Sys2Proof/Machine/Pnl.lean ====
section
/-!
DEFINITION. The panel block (chapter 8): ports and training, STATUS and TRAIN_REQ, reference outputs, the crevasse loop, the
management bus, polarity, the DC-balance monitor and blink; and what a receive lane's state means to ports and pitches.
-/
namespace Sys2Proof.Machine

/-- A port is in use (R232). -/
def State.portInUse (s : State) (p : Nat) : Bool := decide (p < 16) && decide (p % 8 < s.geo.ports)

/-- A return lane is in use when any of its ports is (R233). -/
def State.retInUse (s : State) (n : Nat) : Bool := (List.range 4).any fun i => s.portInUse (4 * n + i)

/-- The field of a port in PNL_PORT_STATE. -/
def portFld (p : Nat) : Fld := ⟨0xE0010, 2 * p, 2⟩

/-- The state of a port: 0 DOWN, 1 TRAIN, 2 ACTIVE (Table 8-3). -/
def State.portState (s : State) (p : Nat) : Nat := s.rd (portFld p)
def State.portActive (s : State) (p : Nat) : Bool := s.portState p == 2

/-- What a port keeps beside its state. -/
def State.port (s : State) (p : Nat) : PnlPort := s.pnl.ports.getD p PnlPort.reset
def State.modPort (s : State) (p : Nat) (f : PnlPort → PnlPort) : State :=
  { s with pnl := { s.pnl with ports := s.pnl.ports.modify p f } }

/-- The lanes of a port (R233). -/
def portLanes (p : Nat) : List Nat := upFrom (6 * p) 6

/-- A return lane is locked for its ports: a lane that checks PRBS counts as out of lock (R278). -/
def State.retLocked (s : State) (n : Nat) : Bool := s.blockLocked (96 + n) && !s.rdB (F.LNK_L_CTRL_PRBS_CHK (96 + n))

/-- No lane of a port runs PRBS (R278). -/
def State.portClean (s : State) (p : Nat) : Bool := (portLanes p).all fun n => !s.rdB (F.LNK_L_CTRL_PRBS_GEN n)

/-- The panel runs: S0 or S1, and no shed in force (R240, Table 16-2). -/
def State.panelOn (s : State) : Bool := s.pwr.st == .s0 || s.pwr.st == .s1

/-- DC-balance sums restart, and the next window starts at the next frame with φ = 0 (R248). -/
def State.dcbRestart (s : State) : State :=
  { s with pnl := { s.pnl with dcbC := List.replicate 64 0, dcbS := List.replicate 64 0, dcbWin := none } }

/-- Put a port in a state; leaving ACTIVE restarts the DC-balance monitor (R248), and PNL_STATUS shows the ACTIVE ports. -/
def State.setPort (s : State) (p v : Nat) : State :=
  let was := s.portActive p
  let s := (s.wr (portFld p) v).wrB ⟨0xE0004, p, 1⟩ (v == 2)
  if was && v != 2 then s.dcbRestart else s

/-- The port's lanes start sending in TRAIN (Table 8-3). -/
def State.startPort (s : State) (p : Nat) : State :=
  let s := (portLanes p).foldl (fun s n => (s.setRate n (s.pwr.st == .s1)).startFir n |>.txIdle n false) s
  ((s.setPort p 1).modPort p fun q => { q with ready := false }).wrB ⟨0xE000C, p, 1⟩ false

/-- A port goes DOWN: its lanes fall to electrical idle. -/
def State.stopPort (s : State) (p : Nat) (failed : Bool) : State :=
  ((portLanes p).foldl (fun s n => s.txIdle n true) (s.setPort p 0)).modPort p fun _ => { PnlPort.reset with failed := failed }

/-- An ACTIVE port returns to TRAIN (R240). -/
def State.portRetrain (s : State) (p : Nat) : State :=
  (((portLanes p).foldl (fun s n => s.startFir n) ((s.setPort p 1).modPort p fun q => { q with ready := false })).bump
    (F.PNL_CNT_COUNT 2)).raise Ev.PNL_PORT_RETRAIN

/-- Move one port between DOWN and TRAIN as its use, the power state and its return lane say (Table 8-3). -/
def State.settlePort (s : State) (p : Nat) : State :=
  if !s.portInUse p || !s.panelOn || s.pwr.ownWarn || s.pwr.pinWarn then
    (if s.portState p = 0 then s else s.stopPort p false)
  else if s.portState p = 0 ∧ (s.port p).failed = false ∧ s.retLocked (p / 4) = true then s.startPort p
  else s

/-- Move every port. -/
def State.settlePorts (s : State) : State := (List.range 16).foldl (fun s p => s.settlePort p) s

/-- At a line start every port that has reported READY enters ACTIVE (R240). -/
def State.activatePorts (s : State) : State :=
  (List.range 16).foldl (fun s p =>
    if s.portState p = 1 ∧ (s.port p).ready = true ∧ s.portClean p = true then
      (((portLanes p).foldl (fun s n => s.saveFir n) (s.setPort p 2))).raise Ev.PNL_PORT_UP
    else s) s

/-- Whether an event of the panel may still be raised in this frame, marking it. -/
def State.pnlOnce (s : State) (e : Nat) : State :=
  if s.pnl.seen.contains e then s else { s with pnl := { s.pnl with seen := e :: s.pnl.seen } }.raise e

/-- The receiver of a return lane takes blocks: aligned (R274), in S0 or S1. -/
def State.retLive (s : State) (n : Nat) : Bool := decide (n < 4) && s.panelOn && s.aligned (96 + n) && s.retLocked n

/-- A STATUS block (Table 8-4, R240, R243). -/
def State.onStatus (s : State) (lane : Nat) (blk : List Byte) : State :=
  let p := byteAt blk 1 % 16
  let st := byteAt blk 2
  let lock := st % 64
  if byteAt blk 0 ≠ 0x48 ∨ p / 4 ≠ lane ∨ s.portInUse p = false then s
  else
    let old := (s.port p).lock
    let s := (s.bump (F.PNL_CNT_COUNT 0) (leAt blk 3 2)).bump (F.PNL_CNT_COUNT 1) (byteAt blk 5)
    let s := if byteAt blk 5 ≠ 0 then s.pnlOnce Ev.PNL_RX_UNCORR else s
    let s := s.modPort p fun q => { q with lock := lock }
    let s := if s.portState p = 0 then s
      else (List.range 6).foldl (fun s i => if bitAt old i && !bitAt lock i then s.laneEvent (6 * p + i) 5 else s) s
    let ok := decide (lock = 63) && bitAt st 6 && s.portClean p
    if s.portState p = 1 then s.modPort p fun q => { q with ready := ok }
    else if s.portState p = 2 ∧ ok = false then s.portRetrain p
    else s

def execStatusBlock (lane : Nat) (blk : List Byte) (s : State) : Host.Outcome State Fault Refusal :=
  .next (if s.retLive lane then s.onStatus lane blk else s)

/-- STATUS_TIMEOUT: no STATUS for an ACTIVE port for 1 ms (R240). -/
def execStatusTimeout (port : Nat) (s : State) : Host.Outcome State Fault Refusal :=
  .next (if decide (port < 16) && s.portActive port then s.portRetrain port else s)

/-- Send a control block on a panel lane; none leaves a lane in electrical idle or under PRBS (R278). -/
def State.panelOut (s : State) (n : Nat) (blk : List Byte) : State :=
  if s.txLive n then (s.txBlocks n [(headerControl, blk)]).emit (.panelBlock n blk) else s

/-- Apply one TRAIN_REQ and acknowledge it on its lane (R243, Table 8-6). -/
def State.answerTrain (s : State) (w : TrainWait) : State :=
  let n := 6 * w.port + w.lane
  let r := s.applyTrain n w.seq w.code true
  r.2.panelOut n (r.2.ackBytes 0x4A (w.port + 16 * w.lane) n w.seq r.1)

/-- TRAIN_REQ: applied at once in TRAIN, at the next blanking line in ACTIVE, ignored in DOWN (R243). -/
def State.onTrainReq (s : State) (ret : Nat) (blk : List Byte) : State :=
  let p := byteAt blk 1 % 16
  let w : TrainWait := ⟨p, byteAt blk 1 / 16 % 8, byteAt blk 2, byteAt blk 3⟩
  if byteAt blk 0 ≠ 0x49 ∨ p / 4 ≠ ret ∨ 6 ≤ w.lane then s
  else if s.portState p = 1 then s.answerTrain w
  else if s.portState p = 2 then { s with pnl := { s.pnl with trainQ := s.pnl.trainQ ++ [w] } }
  else s

def execTrainReq (lane : Nat) (blk : List Byte) (s : State) : Host.Outcome State Fault Refusal :=
  .next (if s.retLive lane then s.onTrainReq lane blk else s)

/-- At the start of a blanking line the requests of ACTIVE ports are applied (R243). -/
def State.drainTrain (s : State) : State :=
  s.pnl.trainQ.foldl (fun s w => if s.portActive w.port then s.answerTrain w else s)
    { s with pnl := { s.pnl with trainQ := [] } }

/-- PNL_TRAIN_FAIL: TRAIN_MS elapses in TRAIN (R240). -/
def execPnlTrainFail (port : Nat) (s : State) : Host.Outcome State Fault Refusal :=
  .next (if decide (port < 16) && s.portState port == 1 then (s.stopPort port true).raise Ev.PNL_TRAIN_FAIL else s)

/-- TRAIN_RETRY: 10 ms after the failure (R240). -/
def execTrainRetry (port : Nat) (s : State) : Host.Outcome State Fault Refusal :=
  .next (if (s.port port).failed then (s.modPort port fun q => { q with failed := false }).settlePorts else s)

/-- PNL_RETRAIN takes a value: an ACTIVE port goes to TRAIN, a port in TRAIN is there already, and a bit of a DOWN port reads 1
until the port trains (R240). -/
def State.writeRetrain (s : State) (val : Word) : State :=
  (List.range 16).foldl (fun s p =>
    if bitAt val.toNat p then
      (if s.portState p = 2 then s.portRetrain p else if s.portState p = 1 then s else s.wrB ⟨0xE000C, p, 1⟩ true)
    else s) s

def execPnlRetrain (val : Word) (s : State) : Host.Outcome State Fault Refusal :=
  .next (if s.bar0Open then s.writeRetrain val else s)

/-- PREF_LIMIT: a driven output is held at its current limit (R250). -/
def execPrefLimit (n : Nat) (s : State) : Host.Outcome State Fault Refusal :=
  .next (if s.pnl.prefOn && decide (n < 18) then s.raise Ev.PNL_PREF_LIMIT else s)

/-- One crevasse-loop reading (R251). -/
def State.onCrk (s : State) (ohms : Nat) : State :=
  let r := if 20000 < ohms then 0xFFFF else ohms
  let s := s.wr F.PNL_CRK_STATUS_OHMS r
  let isOpen := decide (s.rd F.PNL_CRK_THRESH_OPEN < r)
  let was := s.pnl.crkOpen
  let s := { s with pnl := { s.pnl with crkOpen := isOpen } }
  if isOpen then
    (if was && !s.rdB F.PNL_CRK_STATUS_CRACK then
      ((s.wrB F.PNL_CRK_STATUS_CRACK true).raise Ev.PNL_CRACK).alarm 0x04 3
    else s)
  else if s.rd F.PNL_CRK_THRESH_WARN < r then
    ((s.wrB F.PNL_CRK_STATUS_WARN true).bump (F.PNL_CNT_COUNT 3)).raise Ev.PNL_CRK_WARN
  else s

/-- CRK_MEASURE: in S0 and S1, while PERIOD_MS is not 0 (R251). -/
def execCrkMeasure (ohms : Nat) (s : State) : Host.Outcome State Fault Refusal :=
  .next (if s.panelOn && s.rd F.PNL_CRK_CFG_PERIOD_MS != 0 then s.onCrk ohms else s)

/-- A management-bus transfer starts with the settings in PNL_PMB_XFER and PNL_PMB_DATA (R256). -/
def State.startPmb (s : State) : State :=
  (s.wrB F.PNL_PMB_XFER_BUSY true).emit
    (.pmbStart (s.rd F.PNL_PMB_XFER_ADDR) (s.rdB F.PNL_PMB_XFER_RD) (s.rd F.PNL_PMB_XFER_LEN + 1) (s.rd F.PNL_PMB_DATA_DATA))

/-- PNL_PMB_XFER takes a value: RW fields, DONE cleared by 1, and GO unless BUSY (R256). -/
def State.writePmb (s : State) (val : Word) : State :=
  let v := val.toNat
  let s := (((s.wr F.PNL_PMB_XFER_ADDR v).wr F.PNL_PMB_XFER_RD (v / 2 ^ 7)).wr F.PNL_PMB_XFER_LEN (v / 2 ^ 8)).wr
    F.PNL_PMB_XFER_FAST (v / 2 ^ 10)
  let s := if bitAt v 29 then s.wrB F.PNL_PMB_XFER_DONE false else s
  if bitAt v 31 && !s.rdB F.PNL_PMB_XFER_BUSY then s.startPmb else s

def execPmbGo (val : Word) (s : State) : Host.Outcome State Fault Refusal :=
  .next (if s.bar0Open then s.writePmb (val ||| 0x80000000) else s)

/-- PNL_PMB_DONE: the transfer finishes, with the bytes a read returned (R256). -/
def State.endPmb (s : State) (ack : Bool) (data : Word) : State :=
  let n := s.rd F.PNL_PMB_XFER_LEN + 1
  let s := if ack && s.rdB F.PNL_PMB_XFER_RD then s.wr F.PNL_PMB_DATA_DATA (data.toNat % 2 ^ (8 * n)) else s
  (((s.wrB F.PNL_PMB_XFER_BUSY false).wrB F.PNL_PMB_XFER_DONE true).wrB F.PNL_PMB_XFER_NACK (!ack)).raise Ev.PNL_PMB_DONE

def execPnlPmbDone (ack : Bool) (data : Word) (s : State) : Host.Outcome State Fault Refusal :=
  .next (if s.rdB F.PNL_PMB_XFER_BUSY then s.endPmb ack data else s)

/-- PNL_CNT_CLEAR. -/
def execPnlCntClear (s : State) : Host.Outcome State Fault Refusal :=
  .next (if s.bar0Open then s.clearCounters 0xE0020 4 else s)

/-- What a return lane's block lock means (R240, Table 8-9): PNL_STATUS shows it, a lane in use that loses it raises
PNL_RET_LOST, and ports start training. -/
def State.afterRet (s : State) (n : Nat) (was : Bool) : State :=
  let now := s.retLocked n
  let s := s.wrB ⟨0xE0004, 16 + n, 1⟩ now
  let s := if was && !now && s.retInUse n then s.raise Ev.PNL_RET_LOST else s
  s.settlePorts

/-- What a rope lane's state means to its pitch. -/
def State.afterRopeLane (s : State) (n : Nat) : State := s.advancePitch (if n < 102 then .up else .dn)

/-- A receive lane counts as locked for its owner. -/
def State.ownLocked (s : State) (n : Nat) : Bool := s.retLocked (n - 96)

/-- A receive lane's state has changed. -/
def State.afterLane (s : State) (n : Nat) (was : Bool) : State :=
  if n < 100 then s.afterRet (n - 96) was else s.afterRopeLane n

/-- A lane's PRBS settings have changed: its owner sees a lane out of lock, and an ACTIVE port that has a generating lane retrains
(R240, R278, R347). -/
def State.afterPrbs (s : State) (n : Nat) (was : Bool) : State :=
  if 96 ≤ n then s.afterLane n was
  else if s.portActive (n / 6) && !s.portClean (n / 6) then s.portRetrain (n / 6)
  else s

/-- PRBS_CHK or PRBS_GEN is written on a lane. -/
def State.setPrbsChk (s : State) (n : Nat) (on : Bool) : State := (s.writePrbsChk n on).afterPrbs n (s.ownLocked n)
def State.setPrbsGen (s : State) (n : Nat) (on : Bool) : State := (s.writePrbsGen n on).afterPrbs n (s.ownLocked n)

def execPrbsChk (n : Nat) (on : Bool) (s : State) : Host.Outcome State Fault Refusal :=
  .next (if s.bar0Open && decide (n < 104) then s.setPrbsChk n on else s)

def execPrbsGen (n : Nat) (on : Bool) (s : State) : Host.Outcome State Fault Refusal :=
  .next (if s.bar0Open && decide (n < 104) then s.setPrbsGen n on else s)

/-- RX_BLOCK (R273): the lane takes in the symbols of one block. -/
def execRxBlock (n : Nat) (syms : List Nat) (s : State) : Host.Outcome State Fault Refusal :=
  .next (if s.rxOn n && !(s.lane n).rxIdle then (s.rxLane n syms).afterLane n (s.ownLocked n) else s)

/-- RX_ELECTRICAL_IDLE (R275). -/
def execRxElectricalIdle (n : Nat) (s : State) : Host.Outcome State Fault Refusal :=
  .next (if laneRx n && !(s.lane n).rxIdle then
      (((s.modLane n fun l => { l with rxIdle := true })).showIdle n).afterLane n (s.ownLocked n)
    else s)

/-- Electrical idle ends: the lane enters HUNT with its precoder at 0 and precoding off (R261, R273). -/
def State.idleEnd (s : State) (n : Nat) : State :=
  let s := (s.toHunt n).modLane n fun l =>
    { l with rxIdle := false, carry := [], off := 0, lastP := 0, rxPre := false, rxPreNext := none, fresh := true }
  (if n < 100 then s.setRate n true else s).showIdle n

/-- RX_IDLE_END (R273). -/
def execRxIdleEnd (n : Nat) (s : State) : Host.Outcome State Fault Refusal :=
  .next (if s.rxOn n && (s.lane n).rxIdle then (s.idleEnd n).afterLane n false else s)

/-- ELECTRICAL_IDLE_DWELL_END (R275, R348): a lane of a pitch that changes rate restarts at its new rate; lane 1 stays idle at
quarter rate. The lane's receiver enters HUNT. With the last lane the pitch is at that rate. -/
def State.dwellEnd (s : State) (n : Nat) : State :=
  let p : Port := if n < 102 then .up else .dn
  let i := n - p.lane0
  let s := s.setRate n (s.wantQuarter p)
  let s := if s.laneInUse p i then (s.startFir n).txIdle n false else s
  let s := (s.toHunt n).modLane n fun l => { l with fresh := true, rxPre := false, rxPreNext := none, lastP := 0 }
  let s := if p.lanes.all (fun m => !s.laneInUse p (m - p.lane0) || !(s.lane m).txIdle) then
      (s.modPitch p fun q => { q with dwell := false }).wrB (pf p F.ROPE_UP_STATE_QUARTER) (s.rdB (F.LNK_L_STATUS_QUARTER p.lane0))
    else s
  (s.advancePitch p).checkRate p

/-- ELECTRICAL_IDLE_DWELL_END on a panel lane: its port trains from the saved coefficients of the new rate (R407). -/
def State.panelDwellEnd (s : State) (n : Nat) : State :=
  if s.portState (n / 6) = 1 ∧ (s.lane n).txIdle = true then ((s.setRate n (s.pwr.st == .s1)).startFir n).txIdle n false
  else s.settlePort (n / 6)

/-- The panel lanes change rate (R275, R407, R409): every port out of DOWN returns to TRAIN, its lanes in electrical idle. -/
def State.ratePort (s : State) (p : Nat) : State :=
  if s.portState p = 0 then s
  else (portLanes p).foldl (fun s n => s.txIdle n true) ((s.setPort p 1).modPort p fun q => { q with ready := false })

def State.ratePorts (s : State) : State := (List.range 16).foldl (fun s p => s.ratePort p) s

def execElectricalIdleDwellEnd (n : Nat) (s : State) : Host.Outcome State Fault Refusal :=
  .next (if n < 96 then s.panelDwellEnd n
    else if 100 ≤ n ∧ n < 104 ∧ (s.pitch (if n < 102 then .up else .dn)).dwell = true ∧ (s.lane n).txIdle = true then s.dwellEnd n
    else s)

/-- A DAC code corrected by a PREF result word (R425). -/
def correctCode (act c : Nat) : Nat :=
  clampN 16383 (((c * bits act 0 16 + 16384) / 2 ^ 15 : Nat) + sext 16 (bits act 16 16))

/-- The voltage that a code gives on reference output n, in units of 1/16,384 mV: 2.000 V + 12.000 V·CODE/16,384 on PREF0 and
15.000 V·CODE/16,384 on the others (R249). -/
def prefLevel (n code : Nat) : Nat := if n = 0 then 2000 * 16384 + 12000 * code else 15000 * code

/-- A reference output moves to a voltage. -/
def State.setPref (s : State) (n v : Nat) : State :=
  if s.pnl.prefV.getD n 0 = v then s
  else ({ s with pnl := { s.pnl with prefV := s.pnl.prefV.set n v } } : State).emit (.pref n v)

/-- Every driven output stands at the voltage of its code in force (R249). -/
def State.drivePref (s : State) : State :=
  if s.pnl.prefOn then (List.range 18).foldl (fun s n => s.setPref n (prefLevel n (s.lv (F.PNL_PREF_CODE n)))) s else s

/-- The outputs ramp to 0 V: PREF1 to PREF17, then PREF0 (R250). -/
def State.dropPref (s : State) : State := (upFrom 1 17 ++ [0]).foldl (fun s n => s.setPref n 0) s

/-- The outputs are driven, or no longer (R250). -/
def State.prefPower (s : State) (on : Bool) : State :=
  let s : State := { s with pnl := { s.pnl with prefOn := on } }
  if on then s.drivePref else s.dropPref

/-- The codes in force are corrected and applied to the reference DACs (R249, R425). -/
def State.applyPref (s : State) : State :=
  State.drivePref { s with pnl := { s.pnl with
      pref := (List.range 18).map fun n => correctCode (s.word (0x50200 + 4 * n)).toNat (s.lv (F.PNL_PREF_CODE n)) } }

end Sys2Proof.Machine
end

