-- ==== Sys2Proof/Machine/Syn.lean ====
section
/-!
DEFINITION. Render-on-scan synthesis (chapter 5): swath loads, target rows into the ray FIFO, the priority ladder, and throttling
by view decimation.
-/
namespace Sys2Proof.Machine

/-- The synthesis state of a die. -/
def SynSt.die (y : SynSt) (d : Die) : SynDie := match d with | .west => y.west | .east => y.east

/-- Change the synthesis state. -/
def State.modSyn (s : State) (f : SynSt → SynSt) : State := { s with syn := f s.syn }

/-- Replace the synthesis state of a die. -/
def State.setDie (s : State) (d : Die) (x : SynDie) : State :=
  s.modSyn fun y => match d with | .west => { y with west := x } | .east => { y with east := x }

/-- The first column of a die (R20). -/
def Geo.dieCol (g : Geo) (d : Die) : Nat := match d with | .west => 0 | .east => g.cols / 2

/-- The background colour (R214). -/
def State.bg (s : State) : Rgb := ⟨s.lv F.SCN_BG_COLOR_R, s.lv F.SCN_BG_COLOR_G, s.lv F.SCN_BG_COLOR_B⟩

/-- What a die synthesises a row with. -/
def State.rowCfg (s : State) (d : Die) : RowCfg :=
  { c0 := s.geo.dieCol d, cols := s.geo.cols / 2, dh := s.geo.dh, dv := s.geo.dv
    tol := s.lv F.SYN_VIS_TOL_TOL, crackFill := s.lv F.SYN_CTRL_CRACK_FILL == 1, holeReach := s.lv F.SYN_CTRL_HOLE_REACH
    bg := s.bg }

/-! ## The priority ladder -/

/-- The smallest number of complete lines its sections hold (R166). -/
def SynDie.fill (x : SynDie) : Nat :=
  match x.fifo.map fun l => (l.filter HogelLine.whole).length with
  | [] => 0
  | n :: ns => ns.foldl min n

/-- The level of R167 after the fill has changed: up at once below a watermark, down one step at a watermark plus HYST, and
never below MIN_LEVEL. -/
def ladder (wm : Nat → Nat) (hyst floor level fill : Nat) : Nat :=
  let rise := if fill < wm 3 then 3 else if fill < wm 2 then 2 else if fill < wm 1 then 1 else 0
  max floor (if level < rise then rise else if 0 < level ∧ wm level + hyst ≤ fill then level - 1 else level)

/-- Whether a synthesis event may still be raised in this frame, marking it (Table 5-8). -/
def State.synOnce (s : State) (e : Nat) : State :=
  if s.syn.seen.contains e then s else (s.modSyn fun y => { y with seen := e :: y.seen }).raise e

/-- A die takes a level; rising to level 2 or 3 raises its event (R167, Table 5-8; a fall from 3 to 2 does not: log entry 506). -/
def State.setLevel (s : State) (d : Die) (n : Nat) : State :=
  let old := (s.syn.die d).level
  let s := s.setDie d { s.syn.die d with level := n }
  if old < n ∧ n = 2 then s.synOnce Ev.SYN_FIFO_LEVEL2
  else if old < n ∧ n = 3 then s.synOnce Ev.SYN_FIFO_LEVEL3
  else s

/-- The watermarks in force. -/
def State.watermark (s : State) (n : Nat) : Nat :=
  if n = 1 then s.lv F.SYN_WM_WM1 else if n = 2 then s.lv F.SYN_WM_WM2 else s.lv F.SYN_WM_WM3

/-- The level of a die follows its fill (R167). -/
def State.updateLevel (s : State) (d : Die) : State :=
  s.setLevel d (ladder s.watermark (s.lv F.SYN_WM_HYST) (s.rd F.SYN_PRIO_MIN_LEVEL) (s.syn.die d).level (s.syn.die d).fill)

/-- A new MIN_LEVEL takes effect at once (R167). -/
def State.applyFloor (s : State) (d : Die) : State := s.setLevel d (max (s.rd F.SYN_PRIO_MIN_LEVEL) (s.syn.die d).level)

/-! ## Throttling -/

/-- Show e_app and what follows from it (R172). -/
def State.showThrottle (s : State) (e : Nat) : State :=
  ((s.wr F.SYN_THROTTLE_E_APP e).wr F.SYN_THROTTLE_K (decimK e)).wr F.SYN_STATUS_N_D (decimN e s.geo.uv)

/-- Put e_app in force; SYN_THROTTLE when e_app, K or N_d changes (R172, Table 5-8). -/
def State.setApp (s : State) (e : Nat) : State :=
  let t := s.showThrottle e
  if t.rd F.SYN_THROTTLE_E_APP = s.rd F.SYN_THROTTLE_E_APP ∧ t.rd F.SYN_THROTTLE_K = s.rd F.SYN_THROTTLE_K ∧
      t.rd F.SYN_STATUS_N_D = s.rd F.SYN_STATUS_N_D then t
  else t.raise Ev.SYN_THROTTLE

/-- x of R172: the greater of the supplied excess and E_FORCE. -/
def State.excessWanted (s : State) : Nat := max (s.rd F.SYN_THROTTLE_E_THERMAL) (s.rd F.SYN_THROTTLE_E_FORCE)

/-- A decision point forms e_app (R172). -/
def State.throttle (s : State) : State :=
  let x := s.excessWanted
  let e := s.rd F.SYN_THROTTLE_E_APP
  if s.syn.fallen then (s.modSyn fun y => { y with fallen := false }).setApp (if e < x then x else e)
  else if e ≤ x then (s.modSyn fun y => { y with fall := 0 }).setApp x
  else if 63 ≤ s.syn.fall then (s.modSyn fun y => { y with fall := 0 }).setApp (e - 1)
  else (s.modSyn fun y => { y with fall := y.fall + 1 }).setApp e

/-- The excess e of R417, from T_j and THR. -/
def excessOf (tj thr : Int) : Nat := if tj ≤ 16 * thr then 0 else min 31 ((tj - 16 * thr + 15) / 16).toNat

/-- The thermal unit supplies e (R417). -/
def State.supplyExcess (s : State) : State :=
  let old := s.rd F.THM_STATUS_E
  let e := excessOf (sext 16 (s.rd F.THM_STATUS_TJ)) (s.rd F.THM_CTRL_THR)
  let s := (s.wr F.THM_STATUS_E e).wr F.SYN_THROTTLE_E_THERMAL e
  if (old == 0) != (e == 0) then s.raise Ev.THM_THROTTLE else s

/-- E_APP_FALL: at the decision point at which the count reaches 64, e_app falls by 1 (R172), judged on the excess of that
decision point. The DECISION_POINT command of that instant takes the fall as made; an x that has risen since to e_app or more is
taken all the same. -/
def State.appFall (s : State) : State :=
  let s := s.supplyExcess
  if s.syn.fall = 63 ∧ s.syn.fallen = false ∧ s.excessWanted < s.rd F.SYN_THROTTLE_E_APP then
    (s.modSyn fun y => { y with fall := 0, fallen := true }).setApp (s.rd F.SYN_THROTTLE_E_APP - 1)
  else s

def execEAppFall (s : State) : Host.Outcome State Fault Refusal :=
  .next (if s.pwr.st == .s0 && s.scn.started then s.appFall else s)

/-- HOST_MAX_US_EXPIRY: at level 3 the HOST request that has waited longest is served now (R170). Requests are whole commands
here, so serving it is the command of that request; nothing else changes. -/
def execHostMaxUsExpiry (s : State) : Host.Outcome State Fault Refusal := .next s

/-- The views decimated, replayed and refreshed in frame k (R173 to R175), and the bits of SYN_DECIM_MAP. -/
def State.chooseViews (s : State) (k : Nat) : State :=
  let g := s.geo
  let n := s.rd F.SYN_STATUS_N_D
  let kk := s.rd F.SYN_THROTTLE_K
  let set := (decimRank g.gu g.gv).take n
  let all := s.syn.full
  let replays := (set.zipIdx.filter fun p =>
    !all && s.syn.stored.contains p.1 && (k % 2 ^ 32 + p.2) % kk != 0).map Prod.fst
  s.modSyn fun y => { y with
    decim := set, replay := replays, keep := set.filter fun i => !replays.contains i
    stored := set, full := false }

/-- Start synthesis of frame k with an access unit (R144): the rays of the frame before are abandoned and the FIFO is emptied. -/
def State.synStart (s : State) (k : Nat) (au : Option Nat) : State :=
  let g := s.geo
  let abandoned := s.syn.frame.isSome && (decide (s.syn.west.y < s.syn.height) || decide (s.syn.east.y < s.syn.height))
  let s := if abandoned then s.raise Ev.SYN_FRAME_OVERRUN else s
  let fresh : Nat → SynDie := fun lvl =>
    { rows := [], nextRow := -(g.dv : Int), y := 0, fifo := List.replicate g.ports [], drained := List.replicate g.ports 0
      level := lvl }
  let s := (s.modSyn fun y => { y with
    frame := some k, au := au, height := g.rows, holes := 0, unready := [], seen := []
    west := fresh y.west.level, east := fresh y.east.level }).chooseViews k
  let s := s.bump (F.SYN_CNT_COUNT 8) s.syn.replay.length
  let f := s.rd F.SYN_PRIO_MIN_LEVEL
  (s.setLevel .west f).setLevel .east f

/-- Synthesis stops (entry to S1 or below). -/
def State.synStop (s : State) : State :=
  s.modSyn fun y => { y with frame := none, west := SynDie.reset, east := SynDie.reset, full := true }

/-- SYN_DECIM_MAP0 to 4 of a set of views (R176). -/
def State.showDecim (s : State) : State :=
  (List.range 5).foldl (fun s n =>
    s.wr (F.SYN_DECIM_MAP_MAP n) (((s.syn.decim.filter fun i => i / 32 == n).map fun i => 2 ^ (i % 32)).sum)) s

/-! ## Swath loads -/

/-- The pictures a frame in synthesis shows: those held when it was latched (R143), else those published (R137). -/
def State.shownPics (s : State) : List Pic :=
  match s.dec.oldPics with
  | some l => l
  | none => s.dec.shownPics

/-- The access unit in synthesis as the decoder accepted it. -/
def State.auRec (s : State) : Option AuRec := s.syn.au.bind fun id => s.dec.aus.find? fun a => a.id == id

/-- The grid positions of the anchors in use (R19): of the unit shown, else of the GRID in force. -/
def State.gridInUse (s : State) : List (Nat × Nat) :=
  (match s.auRec with
   | some a => a.grid
   | none => (s.dec.grid.map Grid.pos).getD []).take s.geo.anchors

/-- DOFF of the unit shown. -/
def State.doffInUse (s : State) : Int :=
  match s.auRec with
  | some a => a.doff
  | none => (s.dec.seq.map SeqPar.doff).getD 1

/-- The stored row of a picture that hogel row r maps to, when the stored extent reaches it (R15, R16, R147). -/
def Pic.storedRow (p : Pic) (r : Int) : Option Nat :=
  let j := r / (p.vp.scale : Int) + p.vp.gt
  if 0 ≤ j ∧ j < p.vp.sh then some j.toNat else none

/-- The stored column that hogel column x maps to. -/
def Pic.storedCol (p : Pic) (x : Int) : Option Nat :=
  let i := x / (p.vp.scale : Int) + p.vp.gl
  if 0 ≤ i ∧ i < p.vp.sw then some i.toNat else none

/-- Where one plane of one anchor row comes from (R130). -/
inductive RowSrc where
  /-- No sample (R18). -/
  | absent
  /-- The flat values of R128, within the extent of the picture, or within the core where there is none. -/
  | flat (p : Option Pic)
  /-- Stored row `j` of a picture. -/
  | stored (p : Pic) (j : Nat)
  deriving DecidableEq, Repr

/-- Whether the superblock row of a plane that holds stored row j is ready. -/
def Pic.rowReady (p : Pic) (depth : Bool) (j : Nat) : Bool := (p.row depth (j / 32)).ready

/-- The newest picture of a list earlier than an admission in which the row that hogel row r maps to is ready (R130). -/
def earlierRow (ps : List Pic) (before : Nat) (depth : Bool) (r : Int) : Option (Pic × Nat) :=
  (newestPic (ps.filter fun p => decide (p.uid < before) &&
    (match p.storedRow r with | some j => p.rowReady depth j | none => false))).bind fun p =>
      (p.storedRow r).map fun j => (p, j)

/-- One plane of hogel row r of an anchor (R130), and whether it was substituted, with the superblock row it stands for. -/
def State.rowSrc (s : State) (anchor : Nat) (depth : Bool) (r : Int) : RowSrc × Option Nat :=
  let ps := s.shownPics.filter fun p => p.anchor == anchor
  let before := match s.auRec with | some a => a.seq | none => s.dec.adm + 1
  let sub := fun (own : Option Pic) (sb : Nat) =>
    match earlierRow ps before depth r with
    | some (p, j) => (RowSrc.stored p j, some sb)
    | none => (.flat own, some sb)
  match newestPic (ps.filter fun p => some p.au == s.syn.au) with
  | some p =>
    match p.storedRow r with
    | none => (.absent, none)
    | some j => if p.rowReady depth j then (.stored p j, none) else sub (some p) (j / 32)
  | none => if 0 ≤ r ∧ r < s.geo.rows then sub none (r.toNat / 32) else
      match earlierRow ps before depth r with
      | some (p, j) => (.stored p j, some (j / 32))
      | none => (.absent, none)

/-- The span of stored columns a window needs: the first one, its address and how many bytes. -/
def Pic.colSpan (p : Pic) (depth : Bool) (j : Nat) (x0 x1 : Int) : Option (Nat × Nat × Nat) :=
  let lo := max 0 (x0 / (p.vp.scale : Int) + p.vp.gl)
  let hi := min ((p.vp.sw : Int) - 1) (x1 / (p.vp.scale : Int) + p.vp.gl)
  if hi < lo then none
  else some (lo.toNat, p.sampleAddr depth lo.toNat j, sampleLen depth * (hi - lo + 1).toNat)

/-- The samples of one plane over the window's columns: none where nothing is stored, poisoned bytes as poison (R148). -/
def State.planeSamples (s : State) (depth : Bool) (src : RowSrc) (x0 x1 : Int) : List (Option (Nat × Bool)) :=
  let xs : List Int := (List.range (x1 - x0 + 1).toNat).map fun (i : Nat) => x0 + i
  let flat := leAt (flatBytes depth) 0 (sampleLen depth)
  match src with
  | .absent => xs.map fun _ => none
  | .flat none => xs.map fun (x : Int) => if 0 ≤ x ∧ x < (s.geo.cols : Int) then some (flat, false) else none
  | .flat (some p) => xs.map fun x => (p.storedCol x).map fun _ => (flat, false)
  | .stored p j =>
    match p.colSpan depth j x0 x1 with
    | none => xs.map fun _ => none
    | some (lo, a, n) =>
      let bs := s.peekFor .syn a n
      let w := sampleLen depth
      xs.map fun x => (p.storedCol x).map fun c =>
        let b := (bs.drop (w * (c - lo))).take w
        (leAt (b.map MByte.val) 0 w, b.any MByte.poison)

/-- The effects of reading one plane of a row. -/
def State.readPlaneRow (s : State) (depth : Bool) (src : RowSrc) (x0 x1 : Int) : State :=
  match src with
  | .stored p j =>
    match p.colSpan depth j x0 x1 with
    | some (_, a, n) => s.readFor .scan .syn a n
    | none => s
  | _ => s

/-- The scale factor that turns a depth code into a disparity (R151). -/
def srcScale : RowSrc → Int
  | .stored p _ => p.vp.scale
  | .flat (some p) => p.vp.scale
  | _ => 1

/-- A cell from its two samples (R147, R148, R151). -/
def cellOf (doff scale : Int) (tex dep : Option (Nat × Bool)) : Cell :=
  match tex, dep with
  | some (c, pc), some (d, pd) =>
    if pc || pd then .poisoned
    else .sample (if d = 0 then .inf else .fin (scale * ((d : Int) - doff))) ⟨bits c 20 10, bits c 10 10, bits c 0 10⟩
  | _, _ => .absent

/-- Count a substituted superblock row once in a frame and report it (R130). -/
def State.countUnready (s : State) (anchor : Nat) (depth : Bool) (sb : Option Nat) : State :=
  match sb with
  | none => s
  | some b =>
    if s.syn.unready.contains (anchor, depth, b) then s
    else ((s.modSyn fun y => { y with unready := (anchor, depth, b) :: y.unready }).bump (F.DEC_CNT_COUNT 8)).synOnce
      Ev.DEC_ROWS_UNREADY

/-- The cells of one anchor's row r, with the state after the loads. -/
def State.loadAnchor (s : State) (anchor : Nat) (r x0 x1 : Int) : State × List Cell :=
  let t := s.rowSrc anchor false r
  let d := s.rowSrc anchor true r
  let cells := List.zipWith (cellOf s.doffInUse (srcScale d.1)) (s.planeSamples false t.1 x0 x1) (s.planeSamples true d.1 x0 x1)
  let s := (s.readPlaneRow false t.1 x0 x1).readPlaneRow true d.1 x0 x1
  ((s.countUnready anchor false t.2).countUnready anchor true d.2, cells)

/-- Load row r of every anchor in use (R147). -/
def State.loadAnchors (s : State) (r x0 x1 : Int) : Nat → State × List (List Cell)
  | 0 => (s, [])
  | n + 1 =>
    let p := s.loadAnchors r x0 x1 n
    let q := p.1.loadAnchor n r x0 x1
    (q.1, p.2 ++ [q.2])

/-- SWATH_ROW_LOAD: the die loads its next anchor row once its ring place is free (R146, R147). Rows from H + Dv on, which no target
row of the frame reads, are not loaded (log entry 512). -/
def State.swathLoad (s : State) (d : Die) : State :=
  let g := s.geo
  let x := s.syn.die d
  if s.syn.frame.isSome ∧ x.rows.length < 8 + 2 * g.dv ∧ x.nextRow < (g.rows : Int) + g.dv then
    let x0 : Int := (g.dieCol d : Int) - g.dh
    let x1 : Int := (g.dieCol d : Int) + (g.cols / 2 : Nat) - 1 + g.dh
    let p := s.loadAnchors x.nextRow x0 x1 (if s.syn.au.isSome then s.gridInUse.length else 0)
    p.1.setDie d { p.1.syn.die d with rows := x.rows ++ [⟨x.nextRow, p.2⟩], nextRow := x.nextRow + 1 }
  else s

/-- Synthesis runs: S0 (Table 16-3). -/
def execSwathRowLoad (die : Die) (s : State) : Host.Outcome State Fault Refusal :=
  .next (if s.pwr.st == .s0 then s.swathLoad die else s)

/-! ## Target rows -/

/-! ## The hold store

One section per view at the base of the reserved region (R323). The layout within a section is internal to the device: rays in row
order at 30 bits each, four rays to 15 bytes (log entry 505). Every row part of a die or port is a multiple of 128 rays (R9), so it
covers whole sectors. -/

/-- Bytes of a view's section (R323). -/
def holdSection (g : Geo) : Nat := ceilDiv (ceilDiv (g.cols * g.rows * 30) 8) 4096 * 4096

/-- Device address of the ray of a view at (x, y). -/
def holdAddr (g : Geo) (view y x : Nat) : Nat := visibleEnd + view * holdSection g + (y * g.cols + x) / 4 * 15

/-- Rays of 30 bits as bytes. -/
def packRays : List Nat → List Byte
  | [] => []
  | [a] => leBytes a 15
  | [a, b] => leBytes (a + b * 2 ^ 30) 15
  | [a, b, c] => leBytes (a + b * 2 ^ 30 + c * 2 ^ 60) 15
  | a :: b :: c :: d :: l => leBytes (a + b * 2 ^ 30 + c * 2 ^ 60 + d * 2 ^ 90) 15 ++ packRays l

/-- `n` groups of four rays from bytes: each ray's 30 bits, and whether a byte of them is poisoned. -/
def unpackRays : List MByte → Nat → List (Nat × Bool)
  | _, 0 => []
  | bs, n + 1 =>
    let q := bs.take 15
    let w := leAt (q.map MByte.val) 0 15
    ((List.range 4).map fun i =>
      (bits w (30 * i) 30, ((q.drop (30 * i / 8)).take ((30 * i + 37) / 8 - 30 * i / 8)).any MByte.poison)) ++
      unpackRays (bs.drop 15) n

/-- The rays of one view and row from column `x` on, as a reader receives them (R164): no window governs it (R336). -/
def State.holdRow (s : State) (view y x n : Nat) : List (Nat × Bool) :=
  unpackRays (s.mem.peek (holdAddr s.geo view y x) (n / 4 * 15)) (n / 4)

/-- The effects of that read (R328 to R330, Table 5-3). -/
def State.readHold (s : State) (view y x n : Nat) : State := s.touch .scan (holdAddr s.geo view y x) (n / 4 * 15)

/-- Write rays of one view and row into the hold store (R173, R405, Table 5-3). -/
def State.writeHold (s : State) (view y x : Nat) (ws : List Nat) : State :=
  s.store .scan (holdAddr s.geo view y x) (packRays ws)

/-- A colour as the 30 bits the hold store keeps. -/
def Rgb.word (c : Rgb) : Nat := c.r * 2 ^ 20 + c.g * 2 ^ 10 + c.b

/-- The colour of 30 bits. -/
def rgbOf (w : Nat) : Rgb := ⟨bits w 20 10, bits w 10 10, bits w 0 10⟩

/-- A replayed view's row (R164): poisoned rays take the background colour. -/
def State.replayRow (s : State) (d : Die) (view y : Nat) : ViewRow :=
  let cfg := s.rowCfg d
  let ws := s.holdRow view y (s.geo.dieCol d) cfg.cols
  { entries := ws.map fun w => .ray (if w.2 then cfg.bg else rgbOf w.1), clips := 0, holes := 0
    poisons := (ws.filter Prod.snd).length }

/-- Whether the compositor's culling planes hide column i of the die in a view and row (R191). -/
def State.culls (s : State) (d : Die) (view y i : Nat) : Bool :=
  s.lv F.CMP_CTRL_CULL_EN == 1 &&
    culledBy (planesOf s.liveWord) s.geo.gu s.geo.gv (s.geo.dieCol d + i) y (view % s.geo.gu) (view / s.geo.gu)

/-- A row of layer 0 before anything is presented: the background colour (R32, R214). -/
def bgRow (cfg : RowCfg) (culledAt : Nat → Bool) : ViewRow :=
  { entries := (List.range cfg.cols).map fun i => if culledAt i then .culled else .ray cfg.bg, clips := 0, holes := 0, poisons := 0 }

/-- A synthesised view's row, with culling or without (R145, R163, R173). -/
def State.synRow (s : State) (d : Die) (view y : Nat) (cull : Bool) : ViewRow :=
  let cfg := s.rowCfg d
  let at_ := fun i => cull && s.culls d view y i
  if s.syn.au.isNone then bgRow cfg at_
  else
    let u := view % s.geo.gu
    let v := view / s.geo.gu
    synthView cfg (s.syn.die d).rows u v y (viewAnchors (s.lv F.SYN_CTRL_FETCH_N) s.gridInUse u v) at_

/-- The word a synthesised entry leaves in the hold store. -/
def Entry.word : Entry → Nat
  | .ray c => c.word
  | .culled => 0

/-- What one row of one die made so far. -/
structure RowAcc where
  views : List (List Entry)
  clips : Nat
  holes : Nat
  poisons : Nat
  /-- Refreshed views with their rays. -/
  holds : List (Nat × List Nat)
  deriving DecidableEq, Repr

/-- Add one view to a row: replayed, refreshed into the hold store, or synthesised (R163, R164, R173). -/
def State.addView (s : State) (d : Die) (y : Nat) (acc : RowAcc) (view : Nat) : RowAcc :=
  let replay := s.syn.replay.contains view
  let keep := s.syn.keep.contains view
  let r := if replay then s.replayRow d view y else s.synRow d view y (!keep)
  let shown := if keep then r.entries.zipIdx.map fun e => if s.culls d view y e.2 then .culled else e.1 else r.entries
  { views := acc.views ++ [shown], clips := acc.clips + r.clips, holes := acc.holes + r.holes
    poisons := acc.poisons + r.poisons
    holds := if keep then acc.holds ++ [(view, r.entries.map Entry.word)] else acc.holds }

/-- The entries of one section, hogel by hogel, views in index order (R165, R237). -/
def lineEntries (views : List (List Entry)) (lo n : Nat) : List Entry :=
  (upFrom lo n).flatMap fun i => views.map fun v => v.getD i .culled

/-- Columns of section q of a die with `cols` columns (R232). -/
def sectionCols (cols q : Nat) : Nat := min 256 (cols - 256 * q)

/-- Hogels of section q that enter it while row y's line is still wanted: all of them, unless the port takes that line while the
row is being made and meets its end after `got` hogels (R171). -/
def SynDie.hogelsIn (x : SynDie) (cols : Nat) (got : List Nat) (q : Nat) : Nat :=
  if (x.fifo.getD q []).isEmpty ∧ x.y = x.drained.getD q 0 then min (got.getD q 256) (sectionCols cols q) else sectionCols cols q

/-- Put a row's lines into the sections; a line its port has already passed is discarded, and so is what comes after the port has
met the end of the line (R171). -/
def SynDie.push (x : SynDie) (cols : Nat) (got : List Nat) (views : List (List Entry)) : SynDie :=
  { x with fifo := x.fifo.zipIdx.map fun f =>
      let n := x.hogelsIn cols got f.2
      if x.y < x.drained.getD f.2 0 then f.1
      else f.1 ++ [⟨x.y, lineEntries views (256 * f.2) n, decide (n = sectionCols cols f.2)⟩] }

/-- The die may synthesise its next row: its anchor rows are loaded and every section has room (R146, R165). -/
def State.synReady (s : State) (d : Die) : Bool :=
  let x := s.syn.die d
  s.syn.frame.isSome && decide (x.y < s.geo.rows) && decide ((x.y : Int) + s.geo.dv < x.nextRow) &&
    x.fifo.all fun l => decide (l.length < s.geo.capRows)

/-- SYN_ANCHOR_EXCESS where the unit shown holds more anchors than ANCHORS in force (R19). -/
def State.excessCheck (s : State) : State :=
  match s.auRec with
  | none => s
  | some a =>
    if a.excess ∨ a.grid.length ≤ s.geo.anchors then s
    else (s.modDec fun d => { d with aus := d.aus.map fun b => if b.id = a.id then { b with excess := true } else b }).raise
      Ev.SYN_ANCHOR_EXCESS

/-- The frame is synthesised once both dies have made row H − 1 (Table 5-9). -/
def State.frameDone (s : State) : State :=
  if s.syn.west.y = s.geo.rows ∧ s.syn.east.y = s.geo.rows then
    (s.modSyn fun y => { y with holesDone := y.holes }).bump (F.SYN_CNT_COUNT 6)
  else s

/-- SYNTH_ROW (R145): the row of every view goes into the FIFO, replayed views from the hold store and refreshed views into it;
anchor row y − Dv is released (R146), and the counts and events of R153, R158 and R160 follow. -/
def State.synthDie (s : State) (d : Die) (got : List Nat) : State :=
  if !s.synReady d then s
  else
    let g := s.geo
    let x := s.syn.die d
    let acc := (List.range g.uv).foldl (s.addView d x.y) ⟨[], 0, 0, 0, []⟩
    let x1 := x.push (g.cols / 2) got acc.views
    let s := s.setDie d { x1 with y := x.y + 1, rows := x.rows.filter fun w => decide ((x.y : Int) - g.dv < w.r) }
    let s := s.syn.replay.foldl (fun s v => s.readHold v x.y (g.dieCol d) (g.cols / 2)) s
    let s := acc.holds.foldl (fun s h => s.writeHold h.1 x.y (g.dieCol d) h.2) s
    let s := s.modSyn fun y => { y with holes := y.holes + acc.holes }
    let s := if acc.holds.isEmpty then s else s.wrB F.PWR_STATUS_HOLD_VALID false
    let s := s.excessCheck
    let s := if acc.clips = 0 then s else (s.bump (F.SYN_CNT_COUNT 0) acc.clips).synOnce Ev.SYN_DISP_CLIPPED
    let s := if acc.poisons = 0 then s else (s.bump (F.SYN_CNT_COUNT 2) acc.poisons).synOnce Ev.SYN_POISON
    (s.frameDone).updateLevel d

def execSynthRow (row : DieRow) (s : State) : Host.Outcome State Fault Refusal :=
  .next (if s.pwr.st == .s0 then s.synthDie row.die row.got else s)

/-- SYN_CNT_CLEAR: every counter of Table 5-9 but SYN_HOLES_LAST. -/
def execSynCntClear (s : State) : Host.Outcome State Fault Refusal :=
  .next (if s.bar0Open then (s.clearCounters 0xB0040 7).setWord 0xB0060 0 else s)

end Sys2Proof.Machine
end

