-- ==== Sys2Proof/Machine/Scn.lean ====
section
/-!
DEFINITION. Scan-out (chapter 7, with presents of chapter 1): presents, guard and decision points, the latch, retiming, and the
picture checks.
-/
namespace Sys2Proof.Machine

/-- Change scan-out's state. -/
def State.modScn (s : State) (f : ScnSt → ScnSt) : State := { s with scn := f s.scn }

/-- The timing generator runs (R213). -/
def State.timed (s : State) : Bool := s.awake && s.scn.started && s.rdB F.TIM_STATUS_VALID

/-! ## Presents -/

/-- A present enters the latch logic (R31, R222). -/
def State.enterPresent (s : State) (t au : Nat) (desc : Option (Nat × Nat)) : State :=
  s.modScn fun c => { c with presents := c.presents ++ [⟨t, au, desc, c.missT, c.guarded && !c.decided⟩] }

/-- The 16 data bytes of a PRESENT message (R356): words most significant byte first. -/
def presentData (sec ns au : Nat) : List Byte :=
  (leBytes sec 6).reverse ++ leBytes 0 2 ++ (leBytes ns 4).reverse ++ (leBytes au 4).reverse

/-- The checks of PRESENT (Table 2-8); BCAST without its feature is outside the field's range. -/
def State.presentChecks (s : State) (d : Desc) : List (Bool × Nat) :=
  [(d.restZero [(8, 6), (16, 8), (24, 1)] && decide (leAt d.bytes 16 4 ≤ 999999999) && decide (byteAt d.bytes 24 < 2) &&
      (byteAt d.bytes 24 == 0 || s.feat 7), Cpl.BAD_FIELD)]

/-- PRESENT: the present enters the latch logic, and with BCAST is broadcast on the rope after it (R31, R356). -/
def State.opPresent (s : State) (ring : Nat) : State :=
  s.withOp ring 0x20 (fun _ d => s.presentChecks d) fun r d s =>
    let sec := leAt d.bytes 8 6
    let ns := leAt d.bytes 16 4
    let au := leAt d.bytes 20 4
    let s := (s.enterPresent (sec * 1000000000 + ns) au (some (r.num, d.idx))).park r.num d.idx
    if byteAt d.bytes 24 = 1 then s.broadcast 0x5A 2 0 0 (au % 65536) (presentData sec ns au) else s

def execPresent (ring : Nat) (s : State) : Host.Outcome State Fault Refusal := .next (s.opPresent ring)

/-- The number in `n` bytes, most significant first. -/
def beAt (l : List Byte) (i n : Nat) : Nat := leAt ((l.drop i).take n).reverse 0 n

/-- PRESENT_MESSAGE: the present of another tile enters on delivery, and the message is forwarded (R341, R356). -/
def State.onPresentMsg (s : State) (p : Port) (msg : List Byte) : State :=
  (s.forwardHop p msg).enterPresent (beAt msg 8 6 * 1000000000 + beAt msg 16 4 % 2 ^ 30) (beAt msg 20 4) none

def execPresentMessage (p : Port) (msg : List Byte) (s : State) : Host.Outcome State Fault Refusal :=
  .next (if s.pitchUp p then s.onPresentMsg p msg else s)

/-- The present R31 selects: the greatest T, and the later to enter on equal T. -/
def bestPresent (ps : List Pres) : Option Pres :=
  ps.foldl (fun b p => match b with
    | none => some p
    | some q => if q.t ≤ p.t then some p else b) none

/-- Complete the descriptor of a present, if it has one. -/
def State.endPresent (s : State) (p : Pres) (status frame flags : Nat) (evs : List Nat) : State :=
  match p.desc with
  | some (r, i) => s.complete r i status (frame % 2 ^ 32) flags evs
  | none => s.raiseAll evs

/-- The presents the decision point of a frame that starts at `tk` considers (R31, R222). -/
def State.duePresents (s : State) (tk : Int) : List Pres :=
  s.scn.presents.filter fun p => !p.afterGuard && decide ((p.t : Int) ≤ tk)

/-- The present shown stays the choice for a frame that starts at `tk`: it qualifies too, with a greater T (R31). -/
def State.keepsShown (s : State) (tk : Int) (d : Pres) : Bool :=
  s.scn.shown.any fun q => decide ((q.t : Int) ≤ tk) && decide (d.t < q.t)

/-- A present is selected for frame k: its unit is shown from then on (R31, R34). -/
def State.showPresent (s : State) (k : Nat) (d : Pres) : State :=
  let late := match d.missT with | some m => decide ((d.t : Int) ≤ m) | none => false
  let s := s.modScn fun c => { c with shown := some d }
  let s := if late then s.bump (F.SCN_CNT_COUNT 1) else s
  s.endPresent d Cpl.SUCCESS k (if late then CFlag.LATE else 0) (if late then [Ev.SCN_PRESENT_LATE] else [])

/-- Step 2 of Table 7-3 for frame `k` that starts at `tk` (R31 to R34). -/
def State.selectPresent (s : State) (k : Nat) (tk : Int) : State :=
  let due := s.duePresents tk
  match bestPresent due with
  | none => s
  | some d =>
    let keep := s.keepsShown tk d
    let s := (due.filter fun p => keep || p != d).foldl (fun s p => s.endPresent p Cpl.SKIPPED k 0 []) s
    let s := s.modScn fun c => { c with presents := c.presents.filter fun p => !due.contains p }
    if keep then s else s.showPresent k d

/-! ## Timing -/

/-- t_k as an integer (R27). -/
def Geo.startOf (g : Geo) (k : Int) : Int := (g.t0 : Int) + k * g.pn / g.pd

/-- The decision point of frame k: the start of line H of frame k − 1 (R218). -/
def Geo.decisionOf (g : Geo) (k : Int) : Int := (g.t0 : Int) + ((k - 1) * g.lt + g.rows) * g.pn / (g.pd * g.lt : Nat)

/-- The frames of new timing that may start after `d` (R216): the least j whose start lies VB' line periods after it. -/
def Geo.firstAfter (g : Geo) (d : Int) : Nat :=
  let x := d + (ceilDiv (g.vb * g.pn) (g.pd * g.lt) : Nat) - g.t0
  if x ≤ 0 then 0 else ceilDiv (x.toNat * g.pd) g.pn

/-- The first frame whose decision point lies ahead of the display clock (R213). -/
def Geo.firstLatch (g : Geo) (now : Int) : Nat :=
  let x := now - g.t0 + (ceilDiv (g.vb * g.pn) (g.pd * g.lt) : Nat)
  if x < 0 then 0
  else
    let k := x.toNat * g.pd / g.pn
    if now < g.decisionOf k then k else if now < g.decisionOf (k + 1) then k + 1 else k + 2

/-- The line the display clock lies in: the last one whose start, t0 + floor(n × Pn / (Pd·LT)), has come (R211). -/
def Geo.lineAt (g : Geo) (now : Int) : Nat := (((now - g.t0 + 1) * (g.pd * g.lt : Nat) - 1) / g.pn % g.lt).toNat

/-- FRAME outputs follow the numbering of the new timing: the next edge of a frame that had not started is frame j's (R376,
R378). -/
def State.renumber (s : State) (j : Nat) : State :=
  let old := s.scn.next
  let follow := fun (n : Nat) (a : TevArmed) =>
    if s.rd (F.TIM_TEV_CTRL_MODE n) = 3 ∧ old ≤ a.next then { a with next := j } else a
  let tev := s.tim.tev.zipIdx.map fun t => { t.1 with armed := t.1.armed.map (follow t.2) }
  { s with tim := { s.tim with tev := tev } }

/-- An S1 entry in progress captures frame `k`, or none chosen yet (R405). -/
def State.captureAs (s : State) (k : Option Nat) : State :=
  { s with pwr := { s.pwr with captureFrame := s.pwr.captureFrame.bind fun _ => k } }

/-- The line index starts over from the display clock (R211). -/
def State.resyncLine (s : State) : State :=
  (s.modScn fun c => { c with line := s.geo.lineAt s.dcNs, lineZero := false }).wr F.SCN_STATUS_LINE (s.geo.lineAt s.dcNs)

/-- What entered before a guard point to come is considered there, whatever guard point it missed (R217, R222). -/
def State.forgetGuard (s : State) : State :=
  { s.modScn fun c => { c with presents := c.presents.map fun p => { p with afterGuard := false } } with
    cmp := { s.cmp with pend := s.cmp.pend.map fun c => { c with afterGuard := false } } }

/-- Rope time becomes valid: the timing generator starts (R213). -/
def State.scnStart (s : State) : State :=
  let g := s.geo
  let s := ((s.renumber (g.firstLatch s.dcNs)).captureAs none).resyncLine
  (s.modScn fun c => { c with
    started := true, next := g.firstLatch s.dcNs, guarded := false, decided := false, cur := none, gap := none }).wrB
    F.SCN_STATUS_TIME_OK true

/-- Rope time becomes invalid: no line or frame starts until it is valid again. -/
def State.scnStop (s : State) : State :=
  ((s.modScn fun c => { c with started := false, guarded := false, decided := false, cur := none, gap := none }).wrB
    F.SCN_STATUS_TIME_OK false).wrB F.SCN_STATUS_RETIMING false

/-! ## The guard point -/

/-- GUARD_POINT: the pending commit binds (R221), the repair set of R137 is judged, and a waiting S1 entry takes its capture
frame (R405). -/
def State.guardPoint (s : State) : State :=
  let s := { s with cmp := { s.cmp with pend := match s.cmp.pend with
    | [] => []
    | c :: cs => { c with bound := true } :: cs } }
  let s := (s.modScn fun c => { c with guarded := true, missT := some (s.geo.startOf c.next) }).commitBits.decGuard
  if s.pwr.capturing && s.pwr.captureFrame.isNone then { s with pwr := { s.pwr with captureFrame := some s.scn.next } } else s

/-- A latch line is still to come for the next frame. -/
def State.latchDue (s : State) : Bool := s.timed && s.pwr.st == .s0 && !s.scn.decided && s.scn.gap.isNone

def execGuardPoint (s : State) : Host.Outcome State Fault Refusal :=
  .next (if s.latchDue && !s.scn.guarded then s.guardPoint else s)

/-! ## Picture checks -/

/-- The signature of one rectangle over the frame in scan: 0 the freeze detector's, n + 1 cyclic rectangle n (R223). -/
def State.sigOf (s : State) (i : Nat) : Nat := s.scn.crcs.getD i 0 ^^^ 0xFFFFFFFF

/-- The freeze detector's count. -/
def State.frzCount (s : State) : Nat := s.rd F.SCN_FRZ_STATUS_COUNT

/-- The freeze detector's procedure for the frame in scan (R226 to R228). -/
def State.freezeStep (s : State) : State :=
  let sig := s.sigOf 0
  let view := s.lv F.SCN_FRZ_CTRL_V_SEL * s.geo.gu + s.lv F.SCN_FRZ_CTRL_U_SEL
  let s := s.wr F.SCN_FRZ_SIG_SIG sig
  let note := fun (s : State) => s.modScn fun c => { c with refSig := sig, refAu := c.auScan }
  if s.scn.frzFirst then ((note s).modScn fun c => { c with frzFirst := false }).wr F.SCN_FRZ_STATUS_COUNT 0
  else if s.scn.replayScan.contains view then s
  else
    let other := s.scn.auScan.isNone || s.scn.refAu.isNone || s.scn.auScan != s.scn.refAu
    let s := if sig ≠ s.scn.refSig then (s.wr F.SCN_FRZ_STATUS_COUNT 0).modScn fun c => { c with frozen := false }
      else if other then s.bump F.SCN_FRZ_STATUS_COUNT else s
    let s := note s
    if s.lv F.SCN_FRZ_CTRL_N ≤ s.frzCount ∧ s.scn.frozen = false then
      ((((s.modScn fun c => { c with frozen := true }).wrB F.SCN_FRZ_STATUS_FROZEN true).bump (F.SCN_CNT_COUNT 2)).raise
        Ev.SCN_FREEZE).alarm 0x05 4
    else s

/-- The enabled cyclic rectangles that mismatch (R229). -/
def State.chkFails (s : State) : List Nat :=
  (List.range 8).filter fun n => bitAt (s.lv F.SCN_CHK_MODE_EN) n && s.sigOf (n + 1) != s.lv (F.SCN_CHK_EXPECT_EXPECT n)

/-- The cyclic check of the frame in scan (R229). -/
def State.cyclicStep (s : State) : State :=
  let bad := s.chkFails
  let s := (List.range 8).foldl (fun s n =>
    if bitAt (s.lv F.SCN_CHK_MODE_EN) n then s.wr (F.SCN_CHK_LAST_SIG n) (s.sigOf (n + 1)) else s) s
  if bad.isEmpty then s
  else (((s.wr F.SCN_CHK_STATUS_FAIL (s.rd F.SCN_CHK_STATUS_FAIL ||| (bad.map fun n => 2 ^ n).sum)).bump (F.SCN_CNT_COUNT 3)
    bad.length).raise Ev.SCN_CHK_FAIL).alarm 0x06 5

/-- Step 1 of Table 7-3 (R224). -/
def State.pictureChecks (s : State) : State :=
  if s.scn.cur.isSome && s.scn.evaluated then
    (if s.lv F.SCN_FRZ_CTRL_EN = 1 then s.freezeStep else s).cyclicStep
  else s

/-- Whether the next frame is blanked (R231, R252, R253), with the events at the start of blanking. -/
def State.decideBlank (s : State) : State :=
  let chk := s.lv F.SCN_CHK_MODE_ACTION == 1 && s.rd F.SCN_CHK_STATUS_FAIL != 0
  let crk := s.rdB F.PNL_CRK_CFG_ACTION && (s.rdB F.PNL_CRK_STATUS_CRACK || (s.rdB F.PNL_CRK_STATUS_BLANKING && s.pnl.crkOpen))
  let s1 := (s.wrB F.SCN_CHK_STATUS_BLANKED chk).wrB F.PNL_CRK_STATUS_BLANKING crk
  let s1 := if chk && !s.rdB F.SCN_CHK_STATUS_BLANKED then s1.raise Ev.SCN_CHK_BLANK else s1
  let s1 := if crk && !s.rdB F.PNL_CRK_STATUS_BLANKING then s1.raise Ev.PNL_CRK_BLANK else s1
  s1.modScn fun c => { c with blankNext := chk || crk }

/-! ## The latch -/

/-- A commit changes one of a set of register words. -/
def changes (old new : Nat → Word) (offs : List Nat) : Bool := offs.any fun o => old o != new o

/-- The registers whose change makes a commit a retiming commit: EPOCH, PERIOD and VB. -/
def timingOffs : List Nat := [0xD0010, 0xD0014, 0xD0018, 0xD0020, 0xD0024, 0xD0028]

/-- A retiming commit (R216). -/
def isRetiming (old new : Nat → Word) : Bool :=
  changes old new timingOffs || fieldOf old F.SYN_GEOM_HOGEL_ROWS != fieldOf new F.SYN_GEOM_HOGEL_ROWS

/-- The freeze detector starts over (R227). -/
def State.frzRestart (s : State) : State := s.modScn fun c => { c with frzFirst := true }

/-- Retime at instant `d`: no frame of the old timing starts until frame j of the timing in force, and the next guard point is that of
frame j + 1 (R216, R217, R368). -/
def State.retime (s : State) (d : Int) : State :=
  let j := s.geo.firstAfter d
  let s := (s.renumber j).forgetGuard
  (((s.modScn fun c => { c with gap := some j, next := j, decided := true, guarded := false }).wrB F.SCN_STATUS_RETIMING true).frzRestart.dcbRestart).raise
    Ev.SCN_RETIMED

/-- What a plane's latch leads to. -/
structure PlaneOut where
  /-- Words in force after it. -/
  words : List (Nat × Word)
  wait : Option PlaneWait
  /-- A waiting state was discarded: its ADDR. -/
  dropped : Option Nat
  /-- The plane was found not ready at this latch (R203). -/
  unready : Bool
  deriving DecidableEq, Repr

/-- A plane described by given words. -/
def planeIn (ws : List (Nat × Word)) (n : Nat) : Plane := planeOf (fun o => ((ws.find? fun c => c.1 == o).map Prod.snd).getD 0) n

/-- One plane at a decision point (R203, R204): `new` are the words a latching commit gives it. -/
def State.latchPlane (s : State) (n : Nat) (new : Option (List (Nat × Word))) : PlaneOut :=
  let old := wordsAt s.liveWord (planeOffs n)
  let wait := s.cmp.waits.find? fun w => w.plane == n
  let ok := fun (ws : List (Nat × Word)) => s.planeReady (planeIn ws n)
  let keep := match wait with | some w => new.isNone || new == some w.words | none => false
  if keep then
    match wait with
    | some w => if ok w.words then ⟨w.words, none, none, false⟩ else ⟨old, some w, none, new.isSome⟩
    | none => ⟨old, none, none, false⟩
  else
    let dropped := wait.map fun w => (planeIn w.words n).addr
    match new with
    | none => ⟨old, none, none, false⟩
    | some ws =>
      if ws = old then ⟨old, none, dropped, false⟩
      else if ok ws then ⟨ws, none, dropped, false⟩
      else ⟨old, some ⟨n, ws⟩, dropped, true⟩

/-- The ready word a decision point reads for a plane. -/
def State.touchReady (s : State) (n : Nat) (new : Option (List (Nat × Word))) : State :=
  let old := wordsAt s.liveWord (planeOffs n)
  let ws := match new, s.cmp.waits.find? fun w => w.plane == n with
    | some ws, _ => ws
    | none, some w => w.words
    | none, none => old
  if ws ≠ old then s.readReady (planeIn ws n) else s

/-- Whether a plane is shown. -/
def activePlane (w : Nat → Word) (n : Nat) : Bool := decide (n ≤ fieldOf w F.CMP_CTRL_PLANES) && (planeOf w n).enable

/-- The plane still reads the buffer at `a`, or waits to read it. -/
def State.stillReads (s : State) (n a : Nat) (is_ : Nat → Word) : Bool :=
  (activePlane is_ n && (planeOf is_ n).addr == a) ||
    s.cmp.waits.any fun w => w.plane == n && (planeIn w.words n).addr == a

/-- The retire records of one plane (R205): a discarded waiting state whose buffer the plane does not read (R208), and a buffer
no longer in force. -/
def State.retirePlane (s : State) (k n : Nat) (was is_ : Nat → Word) (dropped : Option Nat) : State :=
  let s := match dropped with
    | some a => if s.stillReads n a is_ then s else s.retire (k % 2 ^ 32) n false true a
    | none => s
  if activePlane was n ∧ activePlane is_ n = false then s.retire (k % 2 ^ 32) n true false (planeOf was n).addr
  else if activePlane was n ∧ (planeOf was n).addr ≠ (planeOf is_ n).addr then
    s.retire (k % 2 ^ 32) n false false (planeOf was n).addr
  else s

/-- What a latching commit puts in force beside planes: every shadowed word of the snapshot, with the plane words and the cyclic
rectangles that wait left as they were (R203, R230). -/
def State.latchWords (s : State) (snap : List (Nat × Word)) (outs : List (Nat × PlaneOut)) : State :=
  let old := s.liveWord
  let waiting := fun (p : Nat) => outs.any fun o => o.1 == p && o.2.wait.isSome
  let chks := (List.range 8).map fun n =>
    let p := fieldOf (snapWord snap) (F.SCN_CHK_VIEW_EXP_PLANE n)
    (n, p, decide (p ≠ 0) && waiting p && changes old (snapWord snap) (chkOffs n))
  let s := { s with live := cellsOf resetWord snap, cmp := { s.cmp with
    chkWaits := (chks.filter fun c => c.2.2).map fun c => ⟨c.1, c.2.1, wordsAt (snapWord snap) (chkOffs c.1)⟩ } }
  (chks.filter fun c => c.2.2).foldl (fun s c => s.setLives (wordsAt old (chkOffs c.1))) s

/-- Steps 3 and 4 of Table 7-3 on planes, with or without a latching commit: the words in force, the waiting states, the
NOT_READY bits and the cyclic settings that waited (R203, R204, R230). -/
def State.settlePlanes (s : State) (k : Nat) (snap : Option (List (Nat × Word))) : State :=
  let newOf := fun (n : Nat) => snap.map fun m => wordsAt (snapWord m) (planeOffs n)
  let outs : List (Nat × PlaneOut) := (upFrom 1 7).map fun n => (n, s.latchPlane n (newOf n))
  let was := s.liveWord
  let s := (upFrom 1 7).foldl (fun s n => s.touchReady n (newOf n)) s
  let s := match snap with | some m => s.latchWords m outs | none => s
  let s := outs.foldl (fun s o => s.setLives o.2.words) s
  let s := { s with cmp := { s.cmp with waits := outs.filterMap fun (o : Nat × PlaneOut) => o.2.wait } }
  let held := fun (c : ChkWait) => s.cmp.waits.any fun (w : PlaneWait) => w.plane == c.plane
  let shown := s.cmp.chkWaits.filter fun c => !held c
  let s := shown.foldl (fun (s : State) c => s.setLives c.words)
    { s with cmp := { s.cmp with chkWaits := s.cmp.chkWaits.filter held } }
  let s := s.wr F.CMP_STATUS_NOT_READY (s.cmp.waits.map fun w => 2 ^ w.plane).sum
  let s := outs.foldl (fun s o => if o.2.unready then (s.bump (F.CMP_CNT_COUNT 0)).raise Ev.CMP_LAYER_NOT_READY else s) s
  outs.foldl (fun s o => s.retirePlane k o.1 was s.liveWord o.2.dropped) s

/-- What follows from the words a latch changed: the detectors and the DC-balance monitor start over, every view is synthesised,
and ports follow the geometry (R175, R227, R240, R248). -/
def State.latchEffects (s : State) (was : Nat → Word) : State :=
  let now := s.liveWord
  let geom := changes was now [0xB0000, 0xB0004]
  let run := fieldOf was F.SCN_CTRL_RUN != fieldOf now F.SCN_CTRL_RUN
  let s := if geom then s.modSyn fun y => { y with full := true } else s
  let s := if geom || changes was now [0xD0080, 0xD0084, 0xD0088] || (run && fieldOf now F.SCN_CTRL_RUN == 1) then s.frzRestart else s
  let s := if geom || run || changes was now [0xE0000, 0xE0090] then s.dcbRestart else s
  if geom then s.settlePorts else s

/-- Latch a bound commit for frame k at instant `d` (R199, R216, R221). -/
def State.latchCommit (s : State) (k : Nat) (d : Int) (c : Commit) : State :=
  let was := s.liveWord
  let new := snapWord c.snap
  let re := isRetiming was new
  let s := { s with cmp := { s.cmp with pend := s.cmp.pend.drop 1 } }
  let first := if re then (geoOf new).firstAfter d else k
  let s := (s.settlePlanes first (some c.snap)).latchEffects was
  let s := if re then (s.retime d).captureAs (some first) else s
  let s := if c.late then
      (if s.cmp.pend.isEmpty then s.wrB F.SCN_LAST_COMMIT_LATE true else s).bump (F.SCN_CNT_COUNT 0)
    else s
  (s.complete c.ring c.idx Cpl.SUCCESS (first % 2 ^ 32) (if c.late then CFlag.COMMIT_LATE else 0)
    (if c.late then [Ev.SCN_COMMIT_LATE] else [])).commitBits

/-- Steps 3 and 4 of Table 7-3. -/
def State.latchStep (s : State) (k : Nat) (d : Int) : State :=
  match s.cmp.pend with
  | c :: _ => if c.bound then s.latchCommit k d c else s.settlePlanes k none
  | [] => s.settlePlanes k none

/-! ## What other units do at a decision point -/

/-- Staged calibration results take effect together (R426). -/
def State.applyCal (s : State) : State :=
  if !s.rdB F.CAL_STATUS_APPLY_PENDING then s
  else
    let s := (List.range 22).foldl (fun s i => s.setWord (0x50200 + 4 * i) (s.word (0x50100 + 4 * i))) s
    let s := (s.wr F.TIM_LAT_PS_LAT (s.rd F.CAL_ACT_LAT_LAT_PS)).wr F.CAL_STATUS_SOURCE s.cal.source
    ((s.wrB F.CAL_STATUS_APPLY_PENDING false).applyPref).raise Ev.CAL_APPLIED

/-- The frame of the next decision point is a capture frame of an S1 entry (R405). -/
def State.isCapture (s : State) (k : Nat) : Bool := s.pwr.captureFrame == some k

/-- Step 6 of Table 7-3: synthesis of frame k starts (R144, R172, R405). -/
def State.startSynthesis (s : State) : State :=
  let k := s.scn.next
  let s := s.supplyExcess.throttle
  let s := if s.isCapture k then s.modSyn fun y => { y with full := true } else s
  let au := s.scn.shown.map Pres.au
  (s.modScn fun c => { c with auNext := au }).synStart k au

/-- Write the completion records of the PRESENT and LAYER rings (step 5 of Table 7-3). -/
def State.pumpLatch (s : State) : State :=
  [Cls.PRESENT, Cls.LAYER].foldl (fun s c => match s.classRing c with | some r => s.pumpRing r | none => s) s

/-- Steps 2 to 6 of Table 7-3 for the next frame (R219); events wait for the records of step 5 (R393). -/
def State.latchLine (s : State) : State :=
  let k := s.scn.next
  let g := s.geo
  let s : State := { s with cmp := { s.cmp with lines := [], formed := [], seen := [] } }
  let s := (s.selectPresent k (g.startOf k)).latchStep k (g.decisionOf k)
  let s := (s.applyCal.applyPref).decPublish.modDec fun d => { d with oldPics := none }
  let s := s.decideBlank.pumpLatch.releaseEvents.startSynthesis
  (s.modScn fun c => { c with decided := true, guarded := false }).forgetGuard

/-- SCN_CNT_CLEAR (Table 7-7). -/
def execScnCntClear (s : State) : Host.Outcome State Fault Refusal :=
  .next (if s.bar0Open then s.clearCounters 0xD0050 4 else s)

end Sys2Proof.Machine
end

