-- ==== Sys2Proof/Machine/ScanLine.lean ====
section
/-!
DEFINITION. What the panel ports send: frame starts, lines, composition, packing, signatures and the DC-balance monitor
(chapters 6 to 8).
-/
namespace Sys2Proof.Machine

/-- The depth P in force. -/
def State.depthP (s : State) : Nat := s.geo.depth

/-- Change the panel block. -/
def State.modPnl (s : State) (f : PnlSt → PnlSt) : State := { s with pnl := f s.pnl }

/-! ## Frame start -/

/-- FSTART is sent: frames are sent and some port is ACTIVE (R213, R235). -/
def State.sendsFrame (s : State) : Bool := s.lv F.SCN_CTRL_RUN == 1 && (List.range 16).any s.portActive

/-- φ for a frame whose FSTART is sent: 0 for the first, then toggled (R244). -/
def State.togglePhi (s : State) : State :=
  let phi := if s.pnl.trained then 1 - s.pnl.phi else 0
  (s.modPnl fun p => { p with phi := phi, trained := true }).wr F.PNL_STATUS_PHI phi

/-- Whether blink rectangle n is lit `dt` ns after the epoch (R254). -/
def State.blinkLit (s : State) (dt : Nat) : Bool :=
  let on := max 1 (s.rd F.PNL_BLINK_TIME_ON_MS) * 1000000
  decide (dt % (on + max 1 (s.rd F.PNL_BLINK_TIME_OFF_MS) * 1000000) < on)

/-- The blink settings a frame takes (R254, R255); `apply` is whether blink applies in this state. -/
def State.takeBlink (s : State) (dt : Nat) (apply : Bool) : State :=
  s.modPnl fun p => { p with blink := (List.range 4).map fun n =>
    { lit := apply && bitAt (s.rd F.PNL_BLINK_CTRL_EN) n && s.blinkLit dt
      x := s.rd (F.PNL_BLINK_ORIGIN_X n), y := s.rd (F.PNL_BLINK_ORIGIN_Y n)
      w := s.rd (F.PNL_BLINK_SIZE_X n), h := s.rd (F.PNL_BLINK_SIZE_Y n)
      c := ⟨s.rd (F.PNL_BLINK_COLOR_R n), s.rd (F.PNL_BLINK_COLOR_G n), s.rd (F.PNL_BLINK_COLOR_B n)⟩ } }

/-- What the LINE blocks of a new frame carry (Table 8-2). -/
def State.takeScanCfg (s : State) : State :=
  let cfg : ScanCfg :=
    { uv := s.geo.uv, emissive := s.lv F.PNL_CFG_TYPE == 1, inv := s.lv F.PNL_CFG_INV_MODE, depth := s.lv F.PNL_CFG_DEPTH
      pol0 := Config.freeBit s.freeCtr }
  (s.modPnl fun p => { p with cfg := cfg }).drawn 1

/-- The DC-balance monitor is on (R246, R247). -/
def State.dcbOn (s : State) : Bool := s.lv F.PNL_DCB_CFG_EN == 1 && s.lv F.PNL_CFG_TYPE == 0

/-- Frames of a window (R247). -/
def State.dcbFrames (s : State) : Nat := 2 * s.lv F.PNL_DCB_CFG_WIN

/-- The pattern check (R247). -/
def State.dcbPattern (s : State) : State :=
  if s.pnl.dcbC.all fun c => c == 0 then s else (s.wrB F.PNL_DCB_STATUS_PATTERN true).raise Ev.PNL_DCB_PATTERN

/-- Hogel columns of a port (R232). -/
def State.portCols (s : State) (p : Nat) : Nat := sectionCols (s.geo.cols / 2) (p % 8)

/-- The first hogel column of a port (R232). -/
def State.portCol0 (s : State) (p : Nat) : Nat := (if p < 8 then 0 else s.geo.cols / 2) + 256 * (p % 8)

/-- Rays of a region per frame (R247). -/
def State.regionRays (s : State) (r : Nat) : Nat := s.portCols (r / 4) * s.geo.uv * (s.geo.rows / 4)

/-- The end of a window: the pattern and the drift of every region, then the sums restart (R247). -/
def State.dcbEnd (s : State) : State :=
  let f := s.dcbFrames
  let s := s.dcbPattern
  let bad := (List.range 64).filter fun r =>
    s.portActive (r / 4) && decide (s.lv F.PNL_DCB_CFG_LIMIT * s.regionRays r * f < 16 * (s.pnl.dcbS.getD r 0).natAbs)
  let s := bad.foldl (fun s r => ((s.wrB F.PNL_DCB_STATUS_DRIFT true).wr F.PNL_DCB_STATUS_REGION r).raise Ev.PNL_DCB_DRIFT) s
  s.dcbRestart

/-- DCB_WINDOW_END: after the last active line of a window's last frame (R247). -/
def execDcbWindowEnd (s : State) : Host.Outcome State Fault Refusal :=
  .next (if s.dcbOn && s.pnl.dcbWin == some s.dcbFrames then s.dcbEnd else s)

/-- The monitor at a frame start (R247, R248): a window starts, goes on with its pattern check, or has ended. -/
def State.dcbFrame (s : State) : State :=
  if !s.dcbOn then s
  else
    let s := if s.pnl.dcbWin = some s.dcbFrames then s.dcbEnd else s
    match s.pnl.dcbWin with
    | none => if s.pnl.phi = 0 then s.modPnl fun p => { p with dcbWin := some 1 } else s
    | some n => (if s.pnl.phi = 0 then s.dcbPattern else s).modPnl fun p => { p with dcbWin := some (n + 1) }

/-- To the nearest 250 ps (R375). -/
def near250 (ps : Int) : Int := (ps + 125) / 250 * 250

/-- An edge programmed for `ns` reaches its ball (R375), in ps. -/
def State.edgeAt (s : State) (ns : Int) : Int :=
  near250 (1000 * ns + if s.rdB F.TIM_CTRL_COMP then 0 else (s.rd F.TIM_LAT_PS_LAT : Int))

/-- Drive a timed output (TEVn, or FSTROBE as n = 8) to a level at an instant: an edge where the level changes (R376, R379). -/
def State.drive (s : State) (n : Nat) (level : Bool) (ps : Int) : State :=
  if s.tim.levels.getD n false = level then s
  else { s.emit (.edge n level ps) with tim := { s.tim with levels := s.tim.levels.set n level } }

/-- Now at a ball, in ps of the display clock: a level that follows a register write or a power-down changes then (log entry
1421). -/
def State.psNow (s : State) : Int := near250 (1000 * s.dcNs)

/-- FSTROBE sits at its idle level unless it pulses (R379, R380). -/
def State.idleFstrobe (s : State) : State :=
  if s.tim.fstrobe.isSome then s else s.drive 8 (!s.rdB F.TIM_FSTROBE_POL) s.psNow

/-- A pulse of FSTROBE starts at rope time `ns` (R380). -/
def State.fstrobe (s : State) (ns : Int) : State :=
  if s.rdB F.TIM_FSTROBE_EN then
    let at_ := s.edgeAt ns
    let s := s.drive 8 (s.rdB F.TIM_FSTROBE_POL) at_
    { s with tim := { s.tim with fstrobe := some (at_ + 1000 * (max 4 (s.rd F.TIM_FSTROBE_WIDTH) : Nat)) } }
  else s

/-- FSTROBE_PULSE_END (R380). -/
def execFstrobePulseEnd (s : State) : Host.Outcome State Fault Refusal :=
  .next (match s.tim.fstrobe with
    | some t => { s with tim := { s.tim with fstrobe := none } }.drive 8 (!s.rdB F.TIM_FSTROBE_POL) t
    | none => s)

/-- A frame starts: the counter takes its number (R27, R28), and a commit that arrived before it and has not latched is late
(R220, R221). -/
def State.countFrame (s : State) : State :=
  let s : State := { s with cmp := { s.cmp with pend := s.cmp.pend.map fun c => { c with late := true } } }
  ((s.wr F.SCN_FRAME_FRAME s.scn.next).wrB F.SCN_STATUS_RETIMING false).modScn fun c => { c with next := c.next + 1, guarded := false, decided := false, gap := none }

/-- The decided frame goes into scan (R27, R211, R224). -/
def State.startFrame (s : State) : State :=
  let k := s.scn.next
  let s := s.activatePorts.takeScanCfg.takeBlink (k * s.geo.pn / s.geo.pd) (s.rdB F.PNL_BLINK_CTRL_S0)
  let s := s.modScn fun c => { c with
    cur := some k, lineZero := true, auScan := c.auNext, blankScan := c.blankNext
    evaluated := s.lv F.SCN_CTRL_RUN == 1 && !c.blankNext
    crcs := List.replicate 9 0xFFFFFFFF, replayScan := s.syn.replay }
  let s := (s.modPnl fun p => { p with seen := [] }).showDecim.wr (F.SYN_CNT_COUNT 7) s.syn.holesDone
  let s := if s.sendsFrame then s.togglePhi.dcbFrame else s
  s.decFrameStart.countFrame

/-- A frame without a latch line starts in S0: nothing is in scan, its lines are blanking lines (R211, R408). -/
def State.blankFrame (s : State) : State :=
  ((s.modPnl fun p => { p with seen := [] }).decFrameStart.countFrame).modScn fun c => { c with cur := none, lineZero := true }

/-- FRAME_START of frame k (R27). A frame without a latch line is only counted (R408). -/
def State.frameStart (s : State) : State :=
  let t := s.geo.startOf s.scn.next
  if s.pwr.st = .s0 then (if s.scn.decided then s.startFrame else s.blankFrame).fstrobe t
  else s.decFrameStart.countFrame

def execFrameStart (s : State) : Host.Outcome State Fault Refusal := .next (if s.timed then s.frameStart else s)

/-! ## Composition -/

/-- A destination row of a plane as one die forms it (R182). -/
structure DestRow where
  die : Die
  plane : Nat
  j : Nat
  pix : List Pix
  deriving DecidableEq, Repr

/-- The source lines a destination row reads. -/
def Plane.taps (p : Plane) (j : Nat) : List Nat := (scaleTaps p.sh p.dh j).1.map Prod.fst

/-- Form destination row j of a plane (R187, R188). -/
def State.formRow (s : State) (d : Die) (p : Plane) (j : Nat) : DestRow :=
  let lines := (p.taps j).map fun y => (y, s.planeLine d p y)
  let src := fun (x y : Nat) => match lines.find? fun l => l.1 == y with
    | some l => pixelAt p l.2 x
    | none => ⟨⟨0, 0, 0⟩, 0, false⟩
  ⟨d, p.num, j, (List.range p.dw).map fun i => scalePixel src p.sw p.sh p.dw p.dh i j s.bg⟩

/-- The destination rows of a plane that row y of the frame needs over the views (R189). -/
def Plane.rowsAt (p : Plane) (gv y : Nat) : List Nat :=
  ((List.range gv).filterMap fun v =>
    let j := (y : Int) - (p.py + planeShift p.pd v gv)
    if 0 ≤ j ∧ j < p.dh then some j.toNat else none).eraseDups

/-- Some view shows the plane on a column of a die (R189). -/
def Plane.onDie (p : Plane) (g : Geo) (d : Die) : Bool :=
  (List.range g.gu).any fun u =>
    let x := p.px + planeShift p.pd u g.gu
    decide (x < (g.dieCol d + g.cols / 2 : Nat)) && decide ((g.dieCol d : Int) < x + p.dw)

/-- Every destination row that row y of the frame needs on each die: each has its own fetchers (R182). -/
def State.rowTable (s : State) (ps : List Plane) (y : Nat) : List DestRow :=
  [Die.west, Die.east].flatMap fun d => (ps.filter fun p => p.onDie s.geo d).flatMap fun p =>
    (p.rowsAt s.geo.gv y).map fun j => s.formRow d p j

/-- The effects of forming a row for the first time in a frame on a die: lines not fetched ahead are read now, and a poisoned pixel
counts once, whichever dies form it (R188, R209). -/
def State.formed (s : State) (p : Plane) (row : DestRow) : State :=
  if s.cmp.formed.contains (row.die, p.num, row.j) then s
  else
    let again := s.cmp.formed.any fun f => f.2 == (p.num, row.j)
    let s := (p.taps row.j).foldl (fun (s : State) y =>
      if s.cmp.lines.any fun l => l.die == row.die && l.plane == p.num && l.j == y then s else s.readPlane p y) s
    let s := { s with cmp := { s.cmp with formed := (row.die, p.num, row.j) :: s.cmp.formed } }
    let n := (row.pix.filter Pix.poison).length
    if n = 0 ∨ again then s else (s.bump (F.CMP_CNT_COUNT 2) n).cmpOnce Ev.CMP_POISON

/-- The composed colour of a ray before dithering (R190): `tbl` are the formed rows of its line. -/
def composeAt (g : Geo) (ps : List Plane) (tbl : List DestRow) (y x view : Nat) (e : Entry) : Rgb :=
  let cover := ps.filterMap fun p =>
    match p.at g.gu g.gv x y (view % g.gu) (view / g.gu) with
    | none => none
    | some (i, j) => (tbl.find? fun r => r.plane == p.num && r.j == j).map fun r => (p.opaque, r.pix.getD i ⟨⟨0, 0, 0⟩, 0, false⟩)
  composeRay (match e with | .ray c => c | .culled => ⟨0, 0, 0⟩) cover

/-! ## Lines -/

/-- The blink colour at a hogel (R255). -/
def blinkAt (bs : List BlinkRect) (x y : Nat) : Option Rgb :=
  (bs.find? fun b => b.lit && decide (b.x ≤ x) && decide (x < b.x + b.w) && decide (b.y ≤ y) && decide (y < b.y + b.h)).map
    BlinkRect.c

/-- The value a port sends for a ray, its substitutions applied (R210, R214, R255): none is a missing entry. -/
def State.sentRay (s : State) (y x view : Nat) (c : Option Rgb) : Rgb :=
  let P := s.depthP
  if s.scn.blankScan then reduceRay P s.bg
  else match blinkAt s.pnl.blink x y, c with
    | some b, _ => reduceRay P b
    | none, none => reduceRay P s.bg
    | none, some c =>
      ditherRay (s.lv F.CMP_CTRL_DITHER) P s.frameNo x y (view % s.geo.gu) (view / s.geo.gu) c

/-- The polarity of a ray: 1 positive, 0 negative (R244). -/
def polOf (cfg : ScanCfg) (phi x y : Nat) : Nat :=
  if cfg.emissive then 0
  else match cfg.inv with
    | 1 => phi
    | 2 => (y + phi) % 2
    | 3 => (x + y + phi) % 2
    | _ => b2n cfg.pol0

/-- The LINE block of a lane (Table 8-2). -/
def lineBlock (cfg : ScanCfg) (active fstart hold : Bool) (pol line port lane frame : Nat) : List Byte :=
  leBytes 0x4C 1 ++ leBytes (b2n active + 2 * b2n fstart + 4 * b2n hold + 8 * pol +
      16 * (if cfg.emissive then 0 else cfg.inv) + 64 * cfg.depth) 1 ++
    leBytes line 2 ++ leBytes (port + 16 * lane) 1 ++ leBytes frame 2 ++ leBytes (cfg.uv - 1) 1

/-- Payload words follow on a panel lane, each in one data block (R235). -/
def State.panelData (s : State) (n : Nat) (ws : List Nat) : State :=
  if s.txLive n then (s.txBlocks n (ws.map wordBlock)).emit (.panelWords n ws) else s

/-- Send a port's line: the LINE block of each lane, and its payload words on an active line (R235, R237). -/
def State.sendLine (s : State) (port : Nat) (active fstart hold : Bool) (line frame : Nat) (rays : List Rgb) : State :=
  let ws := if active then packWords s.depthP rays else []
  (List.range 6).foldl (fun s i =>
    let s := s.panelOut (6 * port + i)
      (lineBlock s.pnl.cfg active fstart hold (polOf s.pnl.cfg s.pnl.phi (s.portCol0 port) line) line port i frame)
    if active then s.panelData (6 * port + i) (laneWords ws i) else s) s

/-- One port's part of an active line. -/
structure PortLine where
  port : Nat
  /-- Composed colours before dithering, hogel by hogel, views in index order, as far as the FIFO held entries. -/
  composed : List Rgb
  /-- The values sent, in the same order. -/
  sent : List Rgb
  deriving DecidableEq, Repr

/-- The die and section of a port. -/
def portDie (p : Nat) : Die := if p < 8 then .west else .east

/-- The entries a port's section holds for a line. -/
def State.portEntries (s : State) (p y : Nat) : List Entry :=
  if s.syn.frame ≠ s.scn.cur then []
  else ((((s.syn.die (portDie p)).fifo.getD (p % 8) []).find? fun l => l.y == y).map HogelLine.entries).getD []

/-- The rays of a port on an active line: past the end of what its section holds, the background colour (R171). -/
def State.portLine (s : State) (ps : List Plane) (tbl : List DestRow) (y p : Nat) : PortLine :=
  let g := s.geo
  let x0 := s.portCol0 p
  let n := s.portCols p
  let mine := tbl.filter fun r => r.die == portDie p
  let composed := (s.portEntries p y).zipIdx.map fun e => composeAt g ps mine y (x0 + e.2 / g.uv) (e.2 % g.uv) e.1
  { port := p
    composed := composed
    sent :=
      if s.portActive p then
        (List.range (n * g.uv)).map fun i => s.sentRay y (x0 + i / g.uv) (i % g.uv) composed[i]?
      else List.replicate (n * g.uv) (reduceRay s.depthP s.bg) }

/-- The ray of a view at column x of a line. -/
def rayOf (s : State) (ls : List PortLine) (view x : Nat) : Rgb :=
  match (ls.find? fun l => decide (s.portCol0 l.port ≤ x) && decide (x < s.portCol0 l.port + s.portCols l.port)) with
  | some l => l.sent.getD ((x - s.portCol0 l.port) * s.geo.uv + view) ⟨0, 0, 0⟩
  | none => ⟨0, 0, 0⟩

/-- A rectangle of the picture checks: view, origin and size; none when it is not evaluated. -/
def State.checkRect (s : State) (i : Nat) : Option (Nat × Nat × Nat × Nat × Nat) :=
  let g := s.geo
  if i = 0 then
    if s.lv F.SCN_FRZ_CTRL_EN = 0 then none
    else
      let view := s.lv F.SCN_FRZ_CTRL_V_SEL * g.gu + s.lv F.SCN_FRZ_CTRL_U_SEL
      if s.lv F.SCN_FRZ_CTRL_WHOLE = 1 then some (view, 0, 0, g.cols, g.rows)
      else some (view, s.lv F.SCN_FRZ_ORIGIN_X, s.lv F.SCN_FRZ_ORIGIN_Y, s.lv F.SCN_FRZ_SIZE_X, s.lv F.SCN_FRZ_SIZE_Y)
  else if bitAt (s.lv F.SCN_CHK_MODE_EN) (i - 1) then
    some (s.lv (F.SCN_CHK_VIEW_V_SEL (i - 1)) * g.gu + s.lv (F.SCN_CHK_VIEW_U_SEL (i - 1)),
      s.lv (F.SCN_CHK_ORIGIN_X (i - 1)), s.lv (F.SCN_CHK_ORIGIN_Y (i - 1)), s.lv (F.SCN_CHK_SIZE_X (i - 1)),
      s.lv (F.SCN_CHK_SIZE_Y (i - 1)))
  else none

/-- One running signature after a line (R223). -/
def State.signRow (s : State) (ls : List PortLine) (y : Nat) (r : Option (Nat × Nat × Nat × Nat × Nat)) (crc : Nat) : Nat :=
  match r with
  | some (view, x0, y0, w, h) =>
    if y0 ≤ y ∧ y < y0 + h then (upFrom x0 w).foldl (fun acc x => crcRay acc (rayOf s ls view x)) crc else crc
  | none => crc

/-- The running signatures after a line (R223). -/
def State.signLine (s : State) (ls : List PortLine) (y : Nat) : State :=
  s.modScn fun c => { c with crcs := c.crcs.zipIdx.map fun p => s.signRow ls y (s.checkRect p.2) p.1 }

/-- The DC-balance sums after a line (R247). -/
def State.dcbLine (s : State) (ls : List PortLine) (y : Nat) : State :=
  if s.pnl.dcbWin.isNone || !s.dcbOn then s
  else
    let g := s.geo
    ls.foldl (fun s l =>
      if !s.portActive l.port then s
      else
        let r := 4 * l.port + 4 * y / g.rows
        let sg := fun (i : Nat) => if polOf s.pnl.cfg s.pnl.phi (s.portCol0 l.port + i / g.uv) y = 1 then (1 : Int) else -1
        let c := (l.sent.zipIdx.map fun e => sg e.2).sum
        let w := (l.sent.zipIdx.map fun e => sg e.2 * (((e.1.r + e.1.g + e.1.b) * 2 ^ (10 - s.depthP) : Nat) : Int)).sum
        s.modPnl fun p => { p with dcbC := p.dcbC.modify r (· + c), dcbS := p.dcbS.modify r (· + w) }) s

/-- The composed rays of the capture frame go into the hold store (R405), which holds no earlier capture from then on. -/
def State.captureLine (s : State) (l : PortLine) (y : Nat) : State :=
  let g := s.geo
  let n := s.portCols l.port
  (List.range g.uv).foldl (fun s v =>
    s.writeHold v y (s.portCol0 l.port) ((List.range n).map fun i => (l.composed.getD (i * g.uv + v) s.bg).word))
    (s.wrB F.PWR_STATUS_HOLD_VALID false)

/-- The frame in scan is the capture frame of an entry to S1 (R405). -/
def State.capturesNow (s : State) : Bool := s.pwr.captureFrame.isSome && s.pwr.captureFrame == s.scn.cur

/-- Take a line out of a die's sections: what is left lies after it, and later entries for it are discarded (R171, R241). -/
def SynDie.drain (x : SynDie) (y : Nat) : SynDie :=
  { x with fifo := x.fifo.map fun l => l.filter fun h => decide (y < h.y), drained := x.drained.map fun n => max n (y + 1) }

/-- Both dies' sections pass a line, and the levels follow (R166, R167). -/
def State.drainLine (s : State) (y : Nat) : State :=
  let s := if s.syn.frame = s.scn.cur then
      (s.setDie .west (s.syn.west.drain y)).setDie .east (s.syn.east.drain y) else s
  (s.updateLevel .west).updateLevel .east

/-- The ports in use (R232). -/
def State.portsUsed (s : State) : List Nat := (List.range 16).filter s.portInUse

/-- An active line of the frame in scan (R181 to R190, R210, R223, R235). -/
def State.activeLine (s : State) (y : Nat) : State :=
  let ps := planesOf s.liveWord
  let tbl := s.rowTable ps y
  let ls := s.portsUsed.map fun p => s.portLine ps tbl y p
  let s := tbl.foldl (fun s r => match ps.find? fun p => p.num == r.plane with | some p => s.formed p r | none => s) s
  let under := ls.filter fun l => decide (l.composed.length < s.portCols l.port * s.geo.uv) && s.portActive l.port
  let s := if under.isEmpty then s else (s.bump (F.SYN_CNT_COUNT 1) under.length).synOnce Ev.SYN_UNDERRUN
  let s := (s.signLine ls y).dcbLine ls y
  let s := if s.capturesNow then ls.foldl (fun s l => s.captureLine l y) s else s
  let s := ls.foldl (fun s l =>
    if s.portActive l.port then s.sendLine l.port true (decide (y = 0)) false y (s.frameNo % 65536) l.sent else s) s
  s.drainLine y

/-- A line of the capture frame that is sent as a blanking line: its rays are composed and stored all the same (R405, R213). -/
def State.captureRow (s : State) (y : Nat) : State :=
  let ps := planesOf s.liveWord
  let tbl := s.rowTable ps y
  let ls := s.portsUsed.map fun p => s.portLine ps tbl y p
  let s := tbl.foldl (fun s r => match ps.find? fun p => p.num == r.plane with | some p => s.formed p r | none => s) s
  ls.foldl (fun s l => s.captureLine l y) s

/-- A blanking line (R211, R213, R235): the requests of ACTIVE ports are applied in it (R243). -/
def State.blankLine (s : State) (line : Nat) : State :=
  (s.portsUsed.foldl (fun s p =>
    if s.portActive p then s.sendLine p false false false line (s.frameNo % 65536) [] else s) s).drainTrain

/-- The index of the line that starts (R211): line 0 after a frame start, and after the last line of a frame that does not start;
in a retiming gap, whose lines belong to no frame, the blanking indexes repeat (log entry 704). -/
def State.nextLine (s : State) : Nat :=
  if s.scn.lineZero then 0 else if s.scn.line + 1 < s.geo.lt then s.scn.line + 1 else if s.scn.gap.isSome then s.geo.rows else 0

/-- LINE_START (R211, R235, R240). -/
def State.lineStart (s : State) : State :=
  let i := s.nextLine
  let s := (s.modScn fun c => { c with line := i, lineZero := false }).activatePorts
  let inFrame := s.scn.cur.isSome && s.scn.gap.isNone && decide (i < s.geo.rows)
  let act := inFrame && s.lv F.SCN_CTRL_RUN == 1
  let s := (s.wr F.SCN_STATUS_LINE i).wrB F.SCN_STATUS_BLANK (!act)
  if act then s.activeLine i
  else if inFrame then
    let s := if s.capturesNow then s.captureRow i else s
    (s.blankLine i).drainLine i
  else s.blankLine i

end Sys2Proof.Machine
end

