-- ==== Sys2Proof/Machine/Tim.lean ====
section
/-!
DEFINITION. The time unit (chapter 14): references, rope time, the display clock and its steering, following on the rope, timed
outputs and transmit timestamps.
-/
namespace Sys2Proof.Machine

/-- Change the time unit. -/
def State.modTim (s : State) (f : TimSt → TimSt) : State := { s with tim := f s.tim }

/-- A quotient that the spec does not round: exact, or a free choice of the two integers around it. -/
def State.freeQuot (s : State) (num den : Int) : Int :=
  if num % den = 0 then num / den else num / den + (b2n (Config.freeBit s.freeCtr) : Nat)

/-! ## Reference (R361) -/

/-- The PLL uses TREF_IN when it is valid and not deselected. -/
def State.settleRef (s : State) : State :=
  s.wrB F.TIM_STATUS_TREF_USED (s.rdB F.TIM_STATUS_TREF_OK && s.rd F.TIM_CTRL_REF != 2)

/-- TREF_IN becomes valid. -/
def State.trefValid (s : State) : State :=
  let again := s.tim.refLost
  let s := ((s.wrB F.TIM_STATUS_TREF_OK true).settleRef).modTim fun t => { t with refLost := false }
  if again then s.raise Ev.TIM_REF_RESTORED else s

def execTrefValid (s : State) : Host.Outcome State Fault Refusal :=
  .next (if s.awake && !s.rdB F.TIM_STATUS_TREF_OK then s.trefValid else s)

/-- TREF_IN becomes invalid. -/
def State.trefLost (s : State) : State :=
  let used := s.rdB F.TIM_STATUS_TREF_USED
  let s := (s.wrB F.TIM_STATUS_TREF_OK false).settleRef
  if used then (s.modTim fun t => { t with refLost := true }).raise Ev.TIM_REF_LOST else s

def execTrefLost (s : State) : Host.Outcome State Fault Refusal :=
  .next (if s.awake && s.rdB F.TIM_STATUS_TREF_OK then s.trefLost else s)

/-! ## Rope time (R362 to R365) -/

/-- OFFSET takes a value, in the registers too (R362); a change ends holdover (R363). -/
def State.setOffset (s : State) (z : Int) : State :=
  let u := twos 64 z
  let same := decide (sext 64 u = s.tim.offset)
  let s := ((s.modTim fun t => { t with offset := sext 64 u }).wr F.TIM_OFFSET_LO_OFF_LO u).wr F.TIM_OFFSET_HI_OFF_HI (u / 2 ^ 32)
  if same then s else s.wrB F.TIM_STATUS_HOLDOVER false

/-- RATE takes a value: where it changes, the accumulated term is folded into OFFSET at the same tick and holdover ends (R362,
R363). -/
def State.setTimeRate (s : State) (r : Nat) : State :=
  if r % 2 ^ 32 = s.rd F.TIM_RATE_RATE then s
  else
    let s := s.setOffset (s.tim.offset + s.rateTerm s.tim.raw)
    ((s.modTim fun t => { t with base := t.raw }).wr F.TIM_RATE_RATE r).wrB F.TIM_STATUS_HOLDOVER false

/-- Rope time becomes valid (R365): the timing generator starts (R213). -/
def State.setValid (s : State) : State :=
  if s.rdB F.TIM_STATUS_VALID then s else (s.wrB F.TIM_STATUS_VALID true).scnStart

/-- The host's writes of OFFSET and RATE count outside the ROPE role (R362). -/
def State.hostTime (s : State) : Bool := s.bar0Open && s.role != 2

/-- TIM_OFFSET_LO is written: the half waits for the write of HI, whatever the device makes of OFFSET until then (R362, R459). -/
def State.writeOffsetLo (s : State) (val : Nat) : State :=
  (s.wr F.TIM_OFFSET_LO_OFF_LO val).modTim fun t => { t with offLo := some (val % 2 ^ 32) }

/-- TIM_OFFSET_HI is written: the pair takes effect (R362, R365). -/
def State.writeOffsetHi (s : State) (val : Nat) : State :=
  let lo := s.tim.offLo.getD (s.rd F.TIM_OFFSET_LO_OFF_LO)
  let s := (s.setOffset (sext 64 (lo + 2 ^ 32 * val))).modTim fun t => { t with offLo := none }
  if s.role = 0 then s.setValid else s

def execTimOffsetHi (val : Word) (s : State) : Host.Outcome State Fault Refusal :=
  .next (if s.hostTime then s.writeOffsetHi val.toNat else s)

def execTimRate (val : Word) (s : State) : Host.Outcome State Fault Refusal :=
  .next (if s.hostTime then s.setTimeRate val.toNat else s)

/-- TIM_CTRL is written: role, reference and steering follow (R361, R363, R367). -/
def State.writeTimCtrl (s : State) : State :=
  let s := s.settleRole.settleRef
  if s.rdB F.TIM_CTRL_STEER then s else s.modTim fun t => { t with inc := t.incNom }

/-- TIM_DC_INC_HI is written: the pair is INC_NOM (R366). -/
def State.writeIncHi (s : State) (val : Nat) : State :=
  let s := s.wr F.TIM_DC_INC_HI_NS val
  let s := s.modTim fun t => { t with incNom := s.rd F.TIM_DC_INC_LO_FRAC + 2 ^ 32 * val }
  if s.rdB F.TIM_CTRL_STEER then s else s.modTim fun t => { t with inc := t.incNom }

def execTimDcIncHi (val : Word) (s : State) : Host.Outcome State Fault Refusal :=
  .next (if s.bar0Open then s.writeIncHi val.toNat else s)

/-- TIM_PPS_SEC_HI is written: the pair is S of the next edge (R364), in two's complement like the rope time it sets (log entry
1420). -/
def State.writePpsSec (s : State) (val : Nat) : State :=
  (s.wr F.TIM_PPS_SEC_HI_VALUE val).modTim fun t =>
    { t with ppsSec := some (sext 48 (s.rd F.TIM_PPS_SEC_LO_VALUE + 2 ^ 32 * (val % 2 ^ 16))) }

def execTimPpsSecHi (val : Word) (s : State) : Host.Outcome State Fault Refusal :=
  .next (if s.bar0Open then s.writePpsSec val.toNat else s)

/-- SNAP captures raw, RT and the display clock at one tick (Table 14-4). -/
def State.snapTime (s : State) : State :=
  let rt := twos 64 s.rtNs
  ((((((s.wr F.TIM_SNAP_RAW_LO_VALUE s.tim.raw).wr F.TIM_SNAP_RAW_HI_VALUE (s.tim.raw / 2 ^ 32)).wr F.TIM_SNAP_RT_LO_VALUE rt).wr
    F.TIM_SNAP_RT_HI_VALUE (rt / 2 ^ 32)).wr F.TIM_SNAP_DC_NS_VALUE s.tim.dcNs).wr F.TIM_SNAP_DC_SEC_LO_VALUE s.tim.dcSec).wr
    F.TIM_SNAP_DC_SEC_HI_VALUE (s.tim.dcSec / 2 ^ 32)

def execSnap (s : State) : Host.Outcome State Fault Refusal := .next (if s.bar0Open then s.snapTime else s)

/-! ## Timed outputs (R375 to R379) -/

/-- Change one output. -/
def State.modTev (s : State) (n : Nat) (f : Tev → Tev) : State := s.modTim fun t => { t with tev := t.tev.modify n f }

/-- The armed settings of an output. -/
def State.tevArmed (s : State) (n : Nat) : Option TevArmed := (s.tim.tev[n]?).bind Tev.armed

/-- Whether the pulse in progress is the last. -/
def State.tevLast (s : State) (n : Nat) : Bool := match s.tim.tev[n]? with | some t => t.last | none => false

/-- Arm or disarm an output; the ARM and ARMED bits report it. -/
def State.setArmed (s : State) (n : Nat) (a : Option TevArmed) : State :=
  ((s.modTev n fun t => { t with armed := a, last := t.last && a.isNone }).wrB (F.TIM_TEV_CTRL_ARM n) a.isSome).wrB
    (F.TIM_TEV_STATUS_ARMED n) a.isSome

/-- The mode of an output (Table 14-2). -/
def State.tevMode (s : State) (n : Nat) : Nat := s.rd (F.TIM_TEV_CTRL_MODE n)

/-- An output that is not pulsing sits at its idle level (R379). -/
def State.idleTev (s : State) (n : Nat) : State :=
  if ((s.tim.tev[n]?).bind Tev.pulse).isSome then s else s.drive n (!s.rdB (F.TIM_TEV_CTRL_POL n)) s.psNow

/-- An instant of frame k plus an offset, in quarter nanoseconds. -/
def State.frameEdge (s : State) (k : Nat) (off : Int) : Int := 4 * s.geo.startOf k + off

/-- The edge of index m of an armed output in a mode, in quarter nanoseconds of the display clock (R376). -/
def State.edgeOf (s : State) (mode : Nat) (a : TevArmed) (m : Nat) : Int :=
  if mode = 3 then s.frameEdge m a.frameOff else if mode = 2 then a.start + (m * a.period : Nat) else a.start

/-- The first frame whose edge can still come: the frame in scan, or the one that starts next. -/
def State.firstFrame (s : State) : Nat :=
  let k := s.scn.next
  if 0 < k ∧ s.scn.gap.isNone ∧ s.scn.started = true ∧ s.frameNo = (k - 1) % 2 ^ 32 then k - 1 else k

/-- The first index from `m` on whose edge is not before `t`: structural on fuel, the FRAME period being bounded (R29). -/
def State.firstEdge (s : State) (a : TevArmed) (t : Int) (m : Nat) : Nat → Nat
  | 0 => m
  | k + 1 => if t ≤ s.edgeOf 3 a m then m else s.firstEdge a t (m + 1) k

/-- The index of the first edge at `t` or later (R377). -/
def State.edgeFrom (s : State) (mode : Nat) (a : TevArmed) (t : Int) : Nat :=
  if mode = 2 then (if t ≤ a.start then 0 else ceilDiv (t - a.start).toNat a.period)
  else if mode = 3 then
    let k0 := s.firstFrame
    let x := (t - a.frameOff) / 4 - s.geo.t0
    let est := if x ≤ 0 then 0 else x.toNat * s.geo.pd / s.geo.pn - 1
    s.firstEdge a t (max k0 est) 4
  else 0

/-- The display clock in quarter nanoseconds. -/
def State.dcQuarter (s : State) : Int := s.dcFine * 4 / 2 ^ 32

/-- The settings of output n as ARM takes them (R376, Table 14-5). -/
def State.tevSettings (s : State) (n : Nat) : TevArmed :=
  let ns := s.rd (F.TIM_TEV_START_NS_NS n)
  let q := s.rd (F.TIM_TEV_START_NS_QTR n)
  let sec := s.rd (F.TIM_TEV_START_SEC_LO_SEC n) + 2 ^ 32 * s.rd (F.TIM_TEV_START_SEC_HI_SEC n)
  { start := ((4 * (sec * 1000000000 + ns) + q : Nat) : Int), frameOff := 4 * sext 30 ns + (q : Nat)
    period := 4 * s.rd (F.TIM_TEV_PERIOD_NS n) + s.rd (F.TIM_TEV_PERIOD_QTR n), width := s.rd (F.TIM_TEV_WIDTH_NS n)
    count := s.rd (F.TIM_TEV_COUNT_COUNT n), next := 0, notBefore := s.dcQuarter + 800, done := 0 }

/-- The checks of R377. -/
def State.tevOk (s : State) (mode : Nat) (a : TevArmed) : Bool :=
  let g := s.geo
  decide (4 ≤ a.width) && (mode != 2 || decide (4 * (a.width + 4) ≤ a.period)) &&
    (mode != 3 || (decide (a.frameOff.natAbs * g.pd < 4 * g.pn) && decide ((a.width + 4) * g.pd ≤ g.pn)))

/-- MODE and POL of an output are written: the idle level follows POL (R379), and an armed output goes on with the edges of its new
mode that are still to come (R376). -/
def State.setTevCtrl (s : State) (n : Nat) (val : Nat) : State :=
  let old := s.tevMode n
  let s := ((s.wr (F.TIM_TEV_CTRL_MODE n) (bits val 0 2)).wr (F.TIM_TEV_CTRL_POL n) (bits val 2 1)).idleTev n
  if s.tevMode n = old then s
  else s.modTev n fun t => { t with armed := t.armed.map fun a =>
    { a with next := s.edgeFrom (s.tevMode n) a (max a.notBefore s.dcQuarter) } }

/-- ARM (R377). -/
def State.arm (s : State) (n : Nat) (val : Nat) : State :=
  let s := s.setTevCtrl n val
  let a := s.tevSettings n
  if !s.tevOk (s.tevMode n) a then (s.setArmed n none).wrB (F.TIM_TEV_STATUS_ERR n) true
  else if s.tevMode n = 1 ∧ a.start < a.notBefore then
    ((s.setArmed n none).wrB (F.TIM_TEV_STATUS_MISSED n) true).raise Ev.TIM_TEV_MISSED
  else s.setArmed n (some { a with next := s.edgeFrom (s.tevMode n) a a.notBefore })

def execArm (n : Nat) (val : Word) (s : State) : Host.Outcome State Fault Refusal :=
  .next (if s.bar0Open && decide (n < 8) then s.arm n val.toNat else s)

/-- DISARM ends scheduling; a pulse in progress completes its width (R379). -/
def State.disarm (s : State) (n : Nat) : State :=
  let last := s.tevLast n
  (s.setArmed n none).modTev n fun t => { t with last := last }

def execDisarm (n : Nat) (val : Word) (s : State) : Host.Outcome State Fault Refusal :=
  .next (if s.bar0Open && decide (n < 8) then
    (s.setTevCtrl n val.toNat).disarm n else s)

/-- An edge of a programmed instant (quarter nanoseconds) reaches its ball (R375), in ps. -/
def State.ballAt (s : State) (q : Int) : Int := near250 (250 * q + if s.rdB F.TIM_CTRL_COMP then 0 else (s.rd F.TIM_LAT_PS_LAT : Int))

/-- A pulse begins: `used` edges count, of which this is the first; `q` is its instant (R376, R378). -/
def State.fire (s : State) (n : Nat) (a : TevArmed) (used : Nat) (q : Int) : State :=
  let at_ := s.ballAt q
  let done := a.done + used
  let last := decide (s.tevMode n = 1) || (decide (a.count ≠ 0) && decide (a.count ≤ done))
  (s.drive n (s.rdB (F.TIM_TEV_CTRL_POL n)) at_).modTev n fun t =>
    { t with armed := some { a with next := a.next + used, done := done }, pulse := some (at_ + 1000 * (a.width : Nat)), last := last }

/-- TEV_EDGE: the display clock matches the next edge (R376). -/
def execTevEdge (n : Nat) (s : State) : Host.Outcome State Fault Refusal :=
  .next (match s.tevArmed n with
    | none => s
    | some a =>
      if !s.awake || s.tevMode n == 0 || s.tevLast n || (s.tevMode n == 3 && !s.timed) then s
      else s.fire n a 1 (s.edgeOf (s.tevMode n) a a.next))

/-- TEV_PULSE_END: the pulse ends; the last one disarms (R379). -/
def State.pulseEnd (s : State) (n : Nat) (t : Tev) (e : Int) : State :=
  let s := (s.drive n (!s.rdB (F.TIM_TEV_CTRL_POL n)) e).modTev n fun t => { t with pulse := none, last := false }
  if t.last then ((s.setArmed n none).wrB (F.TIM_TEV_STATUS_DONE n) true).raise Ev.TIM_TEV_DONE else s

def execTevPulseEnd (n : Nat) (s : State) : Host.Outcome State Fault Refusal :=
  .next (match s.tim.tev[n]? with
    | some t => (match t.pulse with | some e => s.pulseEnd n t e | none => s)
    | none => s)

/-! ## Steps of the display clock (R367, R368, R378) -/

/-- How many edges of an armed output a forward step to `t` skips: none of frames that have not started. -/
def State.skipped (s : State) (mode : Nat) (a : TevArmed) (t : Int) : Nat :=
  if mode = 1 then b2n (decide (a.start < t))
  else if mode = 2 then (s.edgeFrom 2 a t) - a.next
  else if mode = 3 then b2n (decide (a.next < s.scn.next) && decide (s.edgeOf 3 a a.next < t)) else 0

/-- What a forward step does to one output (R378): the first skipped edge fires at the step instant. -/
def State.stepTev (s : State) (t : Int) (n : Nat) : State :=
  match s.tevArmed n with
  | none => s
  | some a =>
    let k := s.skipped (s.tevMode n) a t
    if k = 0 ∨ s.tevLast n = true then s
    else ((s.fire n a k t).wrB (F.TIM_TEV_STATUS_LATE n) true).raise Ev.TIM_TEV_LATE

/-- FRAME outputs after a step: no frame's edge is repeated (R378). -/
def State.keepFired (s : State) (before : List Tev) : State :=
  s.modTim fun t => { t with tev := t.tev.zipIdx.map fun x =>
    { x.1 with armed := x.1.armed.map fun a =>
        match (before[x.2]?).bind Tev.armed with
        | some b => if s.tevMode x.2 = 3 then { a with next := max a.next b.next } else a
        | none => a } }

/-- The display clock steps to `z` ns and fraction `f`: TIM_STEP, late edges, and a retiming of scan-out with the settings
unchanged, whose frame shows the unit shown now, with the decoder settings in force, and has no latch line: an S1 entry passes it
over (R143, R217, R368, R378, R405). -/
def State.stepClock (s : State) (z : Int) (f : Nat) : State :=
  let was := s.dcNs
  let sec := (z / 1000000000 % (2 ^ 48 : Nat)).toNat
  let s := (s.modTim fun t => { t with dcSec := sec, dcNs := (z % 1000000000).toNat, dcFrac := f }).raise Ev.TIM_STEP
  let s := if was < s.dcNs then (List.range 8).foldl (fun s n => s.stepTev (4 * s.dcNs) n) s else s
  if !s.timed then s
  else
    let before := s.tim.tev
    let s := ((s.retime s.dcNs).captureAs none).keepFired before
    if s.pwr.st = .s0 then
      let au := s.scn.shown.map Pres.au
      ((s.modScn fun c => { c with auNext := au }).modDec fun d => { d with oldPics := none }).synStart s.scn.next au
    else s

/-- TIM_DC_ADJ is written: the clock steps by whole nanoseconds (R367). -/
def State.writeDcAdj (s : State) (val : Nat) : State :=
  if s.rdB F.TIM_CTRL_STEER ∨ sext 32 val = 0 then s else s.stepClock (s.dcNs + sext 32 val) s.tim.dcFrac

def execTimDcAdj (val : Word) (s : State) : Host.Outcome State Fault Refusal :=
  .next (if s.bar0Open then s.writeDcAdj val.toNat else s)

/-- STEP_NS and SLEW_PPB, 0 treated as 1 (TIM_STEER). -/
def State.stepNs (s : State) : Nat := max 1 (s.rd F.TIM_STEER_STEP_NS)
def State.slewPpb (s : State) : Nat := max 1 (s.rd F.TIM_STEER_SLEW_PPB)

/-- INC of R367 for error E, as an exact quotient over 2^40 x 10^9: INC_NOM (1 + r + c). -/
def State.incQuot (s : State) (e : Int) : Int × Int :=
  let c := sgn e * (min (s.slewPpb : Int) (e.natAbs * 1000000))
  ((s.tim.incNom : Int) * ((2 ^ 40 + s.rate) * 1000000000 + c * 2 ^ 40), 2 ^ 40 * 1000000000)

/-- STEER_COMPARE (R367). -/
def State.steerCompare (s : State) : State :=
  let e := s.rtNs - s.dcNs
  let s := s.wr F.TIM_DC_ERR_E (twos 32 (satS 32 e))
  if s.stepNs < e.natAbs then (s.wrB F.TIM_STATUS_SLEWING false).stepClock s.rtNs 0
  else
    let q := s.incQuot e
    ((s.modTim fun t => { t with inc := (s.freeQuot q.1 q.2).toNat }).drawn 1).wrB F.TIM_STATUS_SLEWING (decide (1 < e.natAbs))

def execSteerCompare (s : State) : Host.Outcome State Fault Refusal :=
  .next (if s.awake && s.rdB F.TIM_CTRL_STEER then s.steerCompare else s)

/-! ## The servo (R364, R370 to R372) -/

/-- The bandwidth code in force: 3 is treated as 1 (TIM_SERVO_CFG). -/
def State.servoBw (s : State) : Nat := if s.rd F.TIM_SERVO_CFG_BW = 3 then 1 else s.rd F.TIM_SERVO_CFG_BW

/-- The time between two errors of the servo, in µs: the TSYNC interval, or a second in the PPS role (R364, TIM_SERVO_CFG). -/
def State.servoUs (s : State) : Nat := if s.role = 1 then 1000000 else max 16 (s.rd F.TIM_SERVO_CFG_SYNC_US)

/-- The proportional-integral loop of R372: OFFSET takes the proportional correction of the error, RATE integrates it. The two
gains, in units of 2^-32 per ps, are what the bandwidth and the interval make them; a correction that is no whole number is rounded
either way. -/
def State.servoLoop (s : State) (ps : Int) : State :=
  let p := s.freeQuot (Config.servoKp s.servoBw s.servoUs * ps) (2 ^ 32 : Nat)
  let s := s.drawn 1
  let i := s.freeQuot (Config.servoKi s.servoBw s.servoUs * ps) (2 ^ 32 : Nat)
  let s := s.drawn 1
  let s := s.setTimeRate (twos 32 (satS 32 (s.rate + i)))
  s.setOffset (s.tim.offset + p)

/-- One error through the servo, in ps: a step of OFFSET when it exceeds STEP_NS, else the proportional-integral loop (R372). -/
def State.servo (s : State) (ps : Int) : State :=
  let s := s.wr F.TIM_SERVO_ERR_E (twos 32 (satS 32 ps))
  if 1000 * s.stepNs < ps.natAbs then (s.setOffset (s.tim.offset + s.freeQuot ps 1000)).drawn 1
  else s.servoLoop ps

/-- PPS_IN becomes invalid (R364): the next edge is a first one. -/
def State.ppsInvalid (s : State) : State :=
  let pps := decide (s.role = 1)
  let s := (((s.wrB F.TIM_STATUS_PPS_OK false).modTim fun t => { t with ppsPrev := none, ppsS := none }).raise
    Ev.TIM_PPS_LOST).settleRole
  if pps then s.wrB F.TIM_STATUS_HOLDOVER true else s

def execTimPpsLost (s : State) : Host.Outcome State Fault Refusal :=
  .next (if s.awake && s.rdB F.TIM_STATUS_PPS_OK then s.ppsInvalid else s)

/-- The second an edge of the PPS role starts (R364): the pair the host wrote since the previous edge, the second after the previous
one, or for the first edge the nearest second of RT. -/
def State.ppsSecond (s : State) : Int :=
  match s.tim.ppsSec, s.tim.ppsS with
  | some v, _ => v
  | none, some p => p + 1
  | none, none => (s.rtNs + 500000000) / 1000000000

/-- An edge in the PPS role: it is captured and corrects rope time (R364, R365). -/
def State.ppsTake (s : State) : State :=
  let sec := s.ppsSecond
  let s := s.modTim fun t => { t with ppsS := some sec, ppsSec := none }
  let s := (s.wr F.TIM_PPS_CAP_LO_VALUE s.tim.raw).wr F.TIM_PPS_CAP_HI_VALUE (s.tim.raw / 2 ^ 32)
  (s.servo (1000 * (sec * 1000000000 - s.rtNs))).setValid

/-- PPS_EDGE (R363 to R365): PPS_IN is valid while successive edges arrive 1 s ± 1 ms apart, whatever the role. -/
def State.ppsEdge (s : State) : State :=
  let gap := s.tim.ppsPrev.map fun p => s.tim.raw - p
  let good := match gap with | some g => decide (999000000 ≤ g) && decide (g ≤ 1001000000) | none => false
  let s := if !good && gap.isSome && s.rdB F.TIM_STATUS_PPS_OK then s.ppsInvalid else s
  let s := ((s.modTim fun t => { t with ppsPrev := some t.raw }).wrB F.TIM_STATUS_PPS_OK
    (good || (gap.isNone && s.rdB F.TIM_STATUS_PPS_OK))).settleRole
  if s.role = 1 then s.ppsTake else s

def execPpsEdge (s : State) : Host.Outcome State Fault Refusal := .next (if s.awake then s.ppsEdge else s)

/-- TSYNC_SEND (R369): the block reaches the lane `lead` quarter nanoseconds from now; its field is RT, in quarter nanoseconds, at
the instant its first bit leaves the ball. -/
def execTsyncSend (lead : Nat) (s : State) : Host.Outcome State Fault Refusal :=
  .next (match s.carryLane .dn false with
    | some l =>
      if s.awake && s.rdB F.TIM_STATUS_VALID && s.pitchUp .dn then
        s.sendLocal .dn (leBytes 0x55 1 ++ leBytes (twos 56 (quarters (s.departPs .dn l lead))) 7)
      else s
    | none => s)

/-- The value congruent to `field` modulo 2^56 nearest to `t`. -/
def nearestTo (field : Nat) (t : Int) : Int := t + sext 56 (twos 56 ((field : Int) - t))

/-- V in quarter nanoseconds (R371), when the TSYNC is usable: `ta` is RT at its arrival, in quarter nanoseconds. -/
def State.upstream (s : State) (field : Nat) (ta : Int) : Option Int :=
  if s.rdB F.TIM_STATUS_VALID then some (nearestTo field ta)
  else match s.tim.epochHi with
    | some (e, at_) => if s.tim.raw < at_ + 2000000 then none else some (sext 66 (field + 2 ^ 56 * e))
    | none => none

/-- A usable TSYNC of error `ps` (R372). -/
def State.followTsync (s : State) (ps : Int) : State :=
  (s.servo ps).modTim fun t =>
    { t with goodRun := if ps.natAbs ≤ 2000 then t.goodRun + 1 else 0, badRun := if 20000 < ps.natAbs then t.badRun + 1 else 0 }

/-- A message came on the lane that carries pitch-local messages (R347, R369). -/
def State.onLocalLane (s : State) (p : Port) (lane : Nat) : Bool := s.pitchUp p && s.carryLane p false == some lane

/-- TSYNC (R371, R372): it left the lane's receiver `back` quarter nanoseconds ago. Before the first exchange no delay is known. -/
def execTsync (lane : Nat) (msg : List Byte) (back : Nat) (s : State) : Host.Outcome State Fault Refusal :=
  .next (if s.role = 2 ∧ s.onLocalLane .up lane = true ∧ s.tim.delays ≠ [] then
    let ta := s.arrivePs .up lane back
    match s.upstream (leAt msg 1 7) (quarters ta) with
    | some v => s.followTsync (250 * v - ta + sext 32 (s.rd F.TIM_PITCH_DELAY_DELAY))
    | none => s
  else s)

/-- TIM_LOCK: LOCKED is set, and VALID in the ROPE role (R365, R372). -/
def execTimLock (s : State) : Host.Outcome State Fault Refusal :=
  .next (if s.awake ∧ s.rdB F.TIM_STATUS_LOCKED = false ∧ 64 ≤ s.tim.goodRun then
    let s := (s.wrB F.TIM_STATUS_LOCKED true).raise Ev.TIM_LOCK
    if s.role = 2 then s.setValid else s
  else s)

/-- LOCKED is cleared (R372). -/
def State.unlock (s : State) : State :=
  if s.rdB F.TIM_STATUS_LOCKED then
    ((s.wrB F.TIM_STATUS_LOCKED false).modTim fun t => { t with goodRun := 0 }).raise Ev.TIM_UNLOCK
  else s

def execTimUnlock (s : State) : Host.Outcome State Fault Refusal :=
  .next (if s.awake ∧ 16 ≤ s.tim.badRun then s.unlock else s)

/-- TSYNC_TIMEOUT: 1 ms without a usable TSYNC (R372). -/
def execTsyncTimeout (s : State) : Host.Outcome State Fault Refusal :=
  .next (if s.awake then
    let s := s.unlock.modTim fun t => { t with goodRun := 0, badRun := 0 }
    if s.role = 2 then s.wrB F.TIM_STATUS_HOLDOVER true else s
  else s)

/-- TDREQ_SEND (R369, R370). -/
def execTdreqSend (lead : Nat) (s : State) : Host.Outcome State Fault Refusal :=
  .next (match s.carryLane .up false with
    | some l =>
      if s.role = 2 ∧ s.pitchUp .up = true then
        let q := s.tim.tdSeq
        (s.ropeOut .up l (leBytes 0x56 1 ++ leBytes q 1 ++ leBytes 0 6)).modTim fun t =>
          { t with tdSeq := (q + 1) % 256, tdOut := some ⟨q, s.departPs .up l lead, l⟩ }
      else s
    | none => s)

/-- TDREQ: the answer reaches its lane `turn` quarter nanoseconds after the request left its receiver; TURN is the time from ball to
ball (R369, Table 14-1). -/
def execTdreq (lane : Nat) (msg : List Byte) (turn : Nat) (s : State) : Host.Outcome State Fault Refusal :=
  .next (match s.carryLane .dn false with
    | some l =>
      if s.pitchUp .dn && decide (lane < 2) then
        let t := quarters (250 * (turn : Int) + s.rxDelay .dn lane + s.txDelay .dn l)
        s.sendLocal .dn (leBytes 0x57 1 ++ leBytes (byteAt msg 1) 1 ++ leBytes (twos 64 s.rtNs / 2 ^ 54) 2 ++ leBytes t.toNat 4)
      else s
    | none => s)

/-- EPOCH_HI of a TDRESP, and when it last changed (R371). -/
def TimSt.takeEpoch (t : TimSt) (e : Nat) : TimSt :=
  { t with epochHi := match t.epochHi with
    | some (old, at_) => if old = e then some (old, at_) else some (e, t.raw)
    | none => some (e, t.raw) }

/-- One exchange (R370), t4 in ps; delays are kept as 2 delta, in ps. -/
def State.exchange (s : State) (o : TdOut) (t4 : Int) (turn : Nat) : State :=
  let d := t4 - o.t1 - 250 * (turn : Int) + sext 16 (s.rd F.TIM_PITCH_ASYM_A)
  let s := s.modTim fun t => { t with delays := (d :: t.delays).take 16, tdOut := none }
  (s.wr F.TIM_PITCH_DELAY_DELAY (twos 32 (s.freeQuot s.tim.delays.sum (2 * s.tim.delays.length : Nat)))).drawn 1

/-- TDRESP: it left the lane's receiver `back` quarter nanoseconds ago (R370, R371). -/
def execTdresp (lane : Nat) (msg : List Byte) (back : Nat) (s : State) : Host.Outcome State Fault Refusal :=
  .next (if s.role = 2 ∧ s.onLocalLane .up lane = true then
    let s := s.modTim fun t => t.takeEpoch (leAt msg 2 2 % 1024)
    match s.tim.tdOut with
    | some o => if o.seq = byteAt msg 1 ∧ o.lane = lane then s.exchange o (s.arrivePs .up lane back) (leAt msg 4 4) else s
    | none => s
  else s)

/-! ## Transmit timestamps (R382) -/

/-- POP removes the oldest entry. -/
def State.tsqPop (s : State) : State := s.modTim fun t => { t with tsq := t.tsq.drop 1 }

def execPop (s : State) : Host.Outcome State Fault Refusal := .next (if s.bar0Open then s.tsqPop else s)

end Sys2Proof.Machine
end

