-- ==== Sys2Proof/Machine/Pwr.lean ====
section
/-!
DEFINITION. The power stage and the power ladder (chapter 16), with the decision point, at which the module may enter S1.
-/
namespace Sys2Proof.Machine

/-- Change the power stage. -/
def State.modPwr (s : State) (f : PwrSt → PwrSt) : State := { s with pwr := f s.pwr }

/-- A transition starts or ends (PWR_STATUS.BUSY). -/
def State.setTrans (s : State) (t : Option PwrTrans) : State :=
  (s.modPwr fun p => { p with trans := t }).wrB F.PWR_STATUS_BUSY t.isSome

/-- Take a state of Table 16-3 that BAR0 shows. -/
def State.setPwr (s : State) (st : PwrState) : State := (s.modPwr fun p => { p with st := st }).wr F.PWR_STATUS_STATE st.number

/-- A power-fail warning is in force (R400). -/
def State.warned (s : State) : Bool := s.pwr.ownWarn || s.pwr.pinWarn

/-! ## Entering and leaving the states -/

/-- Leaving S0 (R406, R408): engine descriptors abort, synthesis stops, no frame is shown, and bound commits are bound afresh
later. -/
def State.leaveS0 (s : State) : State :=
  let s := s.abortEngines
  let s : State := (s.hif.rings.filter fun r => r.cls == Cls.STREAM || r.cls == Cls.ENC || r.cls == Cls.BLT).foldl (fun s r => s.pumpRing r.num) s
  let s := s.synStop
  let s : State := { s with cmp := { s.cmp with pend := s.cmp.pend.map fun (c : Commit) => { c with bound := false, afterGuard := false } } }
  let s := s.modScn fun c => { c with
    cur := none, decided := false, guarded := false, presents := c.presents.map fun (p : Pres) => { p with afterGuard := false } }
  (s.commitBits.wrB F.SCN_STATUS_BLANK true).modPwr fun p => { p with capturing := false, captureFrame := none }

/-- The rope follows a change of LOW_POWER (R348). -/
def State.ropePower (s : State) : State := (s.powerPitch .up).powerPitch .dn

/-- The SET_POWER that waits for its capture frame ends without entering S1. -/
def State.dropCapture (s : State) : State :=
  match s.pwr.trans with
  | some ⟨_, some idx⟩ => ((s.modPwr fun p => { p with capturing := false, captureFrame := none }).setTrans none).complete 0 idx Cpl.ABORTED 0
  | _ => s

/-- No hold refresh runs, and none has since entry (R407, R408). -/
def State.noHolds (s : State) : State := s.modPwr fun p => { p with holds := 0, holdLine := none }

/-- The module enters S1 after its capture frame (R405). Its event follows the record of the SET_POWER (R393). -/
def State.enterS1 (s : State) : State :=
  let admin := s.pwr.trans.bind PwrTrans.admin
  let s := (s.leaveS0.setPwr .s1).ratePorts
  let s := (s.noHolds.wrB F.PWR_STATUS_HOLD_VALID true).dcbRestart.setTrans none
  match admin with
  | some idx => s.complete 0 idx Cpl.SUCCESS 0 0 [Ev.PWR_STATE]
  | none => s.raise Ev.PWR_STATE

/-- The module returns from S2 to S1: hold refresh is scheduled with the hold store of its last entry (Table 16-4, R402). -/
def State.backToS1 (s : State) : State :=
  let s := ((s.setPwr .s1).noHolds.prefPower true).settlePorts.ropePower
  s.dcbRestart.wrB F.PWR_STATUS_SHED false

/-- The module enters S2 (Table 16-4): ports go DOWN, the reference outputs ramp to 0 V (R250), the rope runs at quarter rate, and
only ADMIN and MGMT lines stay held (Table 2-11). -/
def State.enterS2 (s : State) : State :=
  let from1 := s.pwr.st == .s1
  let s := if s.pwr.st = .s0 then s.leaveS0 else s
  let s := (s.setPwr .s2).noHolds.modPwr fun p => { p with s2FromS1 := from1 }
  let s := (s.settlePorts.prefPower false).ropePower
  (s.releaseLines fun c => c == Cls.ADMIN || c == Cls.MGMT).dcbRestart

/-- The module is back in S0 (R227, R409); a hold refresh in progress ends at once (R408). -/
def State.enterS0 (s : State) : State :=
  let was := s.pwr.st
  let s := ((s.setPwr .s0).noHolds.prefPower true).modSyn fun y => { y with full := true }
  let s := if was = .s1 then s.ratePorts else s.settlePorts.ropePower
  (s.resyncLine.frzRestart.dcbRestart.wrB F.PWR_STATUS_SHED false).rereadDoorbells

/-- HBM is cleared (R326): every sector reads 0 through the clear map, the hold store and the encoder's work areas with them,
and the background clear runs. Pair modes written before are in force. -/
def State.clearHbm (s : State) : State :=
  let s := s.modMem fun m => { m with
    data := [], check := [], affine := s.rd F.MEM_AFFINE_PAIR, reinit := [], clearing := true }
  let s := s.wrB F.PWR_STATUS_HOLD_VALID false
  s.wr F.MEM_SCRUB_POS_SECTOR 0

/-- Every timed output falls to its idle level, whatever pulse it was in (R379, R380). -/
def State.idleOutputs (s : State) : State :=
  let s : State := (List.range 8).foldl (fun s n => ((s.setArmed n none).modTev n fun _ => Tev.idle).idleTev n) s
  ({ s with tim := { s.tim with fstrobe := none } }).idleFstrobe

/-- Outputs without power, or whose POL has returned to 1, are low: an edge for each that was high. -/
def State.dropOutputs (s : State) : State := (List.range 9).foldl (fun s n => s.drive n false s.psNow) s

/-- The time unit is powered down (R360, R365): no rope time, so that staged calibration results
take effect at once (R426), no output armed, no timestamp queued. -/
def State.timeDown (s : State) : State :=
  let s := s.scnStop.applyCal.idleOutputs
  let s := s.modTim fun t => { TimSt.reset with offset := t.offset, incNom := t.incNom, inc := t.incNom, levels := t.levels }
  let s := ((s.wrB F.TIM_STATUS_VALID false).wrB F.TIM_STATUS_LOCKED false).wrB F.TIM_STATUS_SLEWING false
  ((s.wrB F.TIM_STATUS_TREF_OK false).wrB F.TIM_STATUS_PPS_OK false).settleRef.settleRole

/-- The module enters S3 (Table 16-3): LEAVE goes out (R349), the rope ports are DOWN, saved coefficients are lost (R242), every
line is released. A calibration run ends without a result, since runs take place only in S0 to S2 (R423; log entry 1716). -/
def State.enterS3 (s : State) : State :=
  let s : State := (s.startLeave.holdDown.timeDown).wrB F.CAL_STATUS_BUSY false
  let s : State := { s with lanes := s.lanes.map fun l => { l with saved := none, savedQ := none } }
  (s.releaseLines fun _ => false).modPwr fun p => { p with st := .s3 }

/-- The module returns from S3 (R409): HBM cleared, the decoder as after STREAM_RESET with every slot empty, the rope rejoined, held
events delivered (R396). -/
def State.leaveS3 (s : State) : State :=
  let s := (s.clearHbm.decRestart false true).enterS0
  ((s.wrB F.ROPE_STATUS_LEFT false).releaseRope).deliverHeld

/-- Every rail is off, or all but the always-on island: nothing is kept but flash and logbook (Tables 16-1, 16-3, 17-2), and the
timed outputs are at their idle level (R380); the reference outputs fall (R250). -/
def State.powerDown (s : State) (st : PwrState) : State :=
  let s := s.dropOutputs.dropPref
  { State.reset with
    pending := s.pending, out := s.out, freeCtr := s.freeCtr, airCooled := s.airCooled
    nvs := { NvsSt.reset with
      flash := s.nvs.flash, log := s.nvs.log, badGroups := s.nvs.badGroups, errSeq := s.nvs.errSeq, cairnSeq := s.nvs.cairnSeq
      capMiB := s.nvs.capMiB }
    pwr := { PwrSt.reset with st := st, perst := s.pwr.perst } }

/-! ## SET_POWER -/

/-- Table 16-4's transitions a SET_POWER may ask for (R404, R405). -/
def State.powerAllowed (s : State) (target : Nat) : Bool :=
  decide (s.pwr.st.number = target) ||
    (if target = 1 then s.rdB F.TIM_STATUS_VALID && (s.pwr.st == .s0 || (s.pwr.st == .s2 && s.pwr.s2FromS1)) else true)

/-- A SET_POWER that passes its checks. -/
def State.setPower (s : State) (ring idx target : Nat) : State :=
  if s.pwr.st.number = target then s.complete ring idx Cpl.SUCCESS 0
  else if target = 1 ∧ s.pwr.st = .s0 then
    (s.modPwr fun p => { p with capturing := true, captureFrame := none }).setTrans (some ⟨.s1, some idx⟩)
  else
    let s := if target = 0 then s.enterS0 else if target = 1 then s.backToS1 else s.enterS2
    s.complete ring idx Cpl.SUCCESS 0 0 [Ev.PWR_STATE]

/-- SET_POWER (R404 to R406): one whose STATE is no state fails whichever row runs it. While a transition or a warning is in force
it does not start. -/
def State.opSetPower (s : State) (ring target : Nat) : State :=
  match s.nextOp ring 0x04 with
  | none => s
  | some (_, d) =>
    if (byteAt d.bytes 8 = target ∨ 2 < byteAt d.bytes 8) ∧ s.pwr.trans.isNone = true ∧ s.warned = false then
      s.withOp ring 0x04
        (fun _ d => [(d.restZero [(8, 1)] && decide (byteAt d.bytes 8 ≤ 2), Cpl.BAD_FIELD),
          (s.powerAllowed (byteAt d.bytes 8), Cpl.WRONG_STATE)])
        fun r d s => s.setPower r.num d.idx (byteAt d.bytes 8)
    else s

def execSetPowerS0 (ring : Nat) (s : State) : Host.Outcome State Fault Refusal := .next (s.opSetPower ring 0)
def execSetPowerS1 (ring : Nat) (s : State) : Host.Outcome State Fault Refusal := .next (s.opSetPower ring 1)
def execSetPowerS2 (ring : Nat) (s : State) : Host.Outcome State Fault Refusal := .next (s.opSetPower ring 2)

/-! ## The decision point -/

/-- The decision point of the next frame (R219): after a capture frame only step 1 is carried out and the module enters S1
(R405). -/
def State.decisionPoint (s : State) : State :=
  let s := (if s.scn.guarded then s else s.guardPoint).holdEvents.pictureChecks
  match s.pwr.captureFrame with
  | none => s.latchLine
  | some k =>
    if s.scn.cur = some k ∧ s.scn.next ≠ k then s.enterS1.releaseEvents
    else (s.modPwr fun p => { p with captureFrame := some s.scn.next }).latchLine

/-- DECISION_POINT (Table 7-3). -/
def execDecisionPoint (s : State) : Host.Outcome State Fault Refusal := .next (if s.latchDue then s.decisionPoint else s)

/-! ## Hold refresh -/

/-- The index of the hold refresh that starts now, and its start (R407). -/
def State.holdIndex (s : State) : Option Nat :=
  let x := s.dcNs - s.geo.t0
  if x < 0 then none else some (ceilDiv (24 * (x.toNat + 1)) 1000000000 - 1)
def holdStart (j : Nat) : Nat := j * 1000000000 / 24

/-- The count of hold refreshes since entry that the running one carries, the first 0 (R407, Table 8-2). -/
def State.holdCount (s : State) : Nat := s.pwr.holds - 1

/-- A held ray as it is sent (R210, R255): k is the count of hold refreshes since entry. -/
def State.heldRay (s : State) (y x view : Nat) (c : Rgb) : Rgb :=
  match blinkAt s.pnl.blink x y with
  | some b => reduceRay s.depthP b
  | none => ditherRay (s.lv F.CMP_CTRL_DITHER) s.depthP s.holdCount x y (view % s.geo.gu) (view / s.geo.gu) c

/-- A port's part of a hold refresh line. -/
def State.heldLine (s : State) (y p : Nat) : PortLine :=
  let g := s.geo
  let x0 := s.portCol0 p
  let n := s.portCols p
  let rows := (List.range g.uv).map fun v => s.holdRow v y x0 n
  let rays := (List.range (n * g.uv)).map fun i =>
    let w := (rows.getD (i % g.uv) []).getD (i / g.uv) (0, false)
    if w.2 then s.bg else rgbOf w.1
  ⟨p, rays, rays.zipIdx.map fun c => s.heldRay y (x0 + c.2 / g.uv) (c.2 % g.uv) c.1⟩

/-- One active line of a hold refresh, as a blanking line while RUN is 0 (R213, R407). -/
def State.sendHeld (s : State) (y : Nat) : State :=
  let run := s.lv F.SCN_CTRL_RUN == 1
  let ls := (s.portsUsed.filter fun p => s.portActive p).map fun p => s.heldLine y p
  let s := ls.foldl (fun s l => (List.range s.geo.uv).foldl (fun s v => s.readHold v y (s.portCol0 l.port) (s.portCols l.port)) s) s
  let s := if run then s.dcbLine ls y else s
  ls.foldl (fun s l => s.sendLine l.port run (run && y == 0) true y (s.holdCount % 65536) l.sent) s

/-- A blanking line of S1: a LINE block with HOLD on every ACTIVE port, and the requests of ACTIVE ports (R243, R407). -/
def State.heldBlank (s : State) (line frame : Nat) : State :=
  ((s.portsUsed.filter fun p => s.portActive p).foldl (fun s p => s.sendLine p false false true line frame []) s).drainTrain

/-- The next line of the hold refresh that runs: H active lines and 100 blanking lines (R407). -/
def State.holdNext (s : State) (i : Nat) : State :=
  let h := s.geo.rows
  let s := s.modPwr fun p => { p with holdLine := if i + 1 < h + 100 then some (i + 1) else none }
  if i < h then s.sendHeld i else s.heldBlank i (s.holdCount % 65536)

/-- A hold refresh starts (R407): staged calibration results take effect (R426), blink is judged (R254), FSTROBE pulses (R380), and
line 0 goes out. -/
def State.holdRefresh (s : State) (j : Nat) : State :=
  let s := (s.applyCal.activatePorts.takeScanCfg.takeBlink (holdStart j) true).modPnl fun p => { p with seen := [] }
  let s := if s.sendsFrame then s.togglePhi.dcbFrame else s
  ((s.fstrobe (s.geo.t0 + (holdStart j : Nat))).modPwr fun p => { p with holds := p.holds + 1 }).holdNext 0

/-- A line start in S1: ports become ACTIVE (R240); the running refresh goes on, and before the first one the ports send blanking
lines with line index H (R407). -/
def State.holdLine (s : State) : State :=
  let s := s.activatePorts
  match s.pwr.holdLine with
  | some i => s.holdNext i
  | none => if s.pwr.holds = 0 then s.heldBlank s.geo.rows 0 else s.drainTrain

/-- LINE_START: in S1 the lines of the hold refresh take the place of the frame timing's. -/
def execLineStart (s : State) : Host.Outcome State Fault Refusal :=
  .next (if s.timed && s.pwr.st == .s0 then s.lineStart else if s.pwr.st == .s1 then s.holdLine else s)

/-- HOLD_REFRESH (R407): once ports are ACTIVE. -/
def execHoldRefresh (s : State) : Host.Outcome State Fault Refusal :=
  .next (if s.pwr.st == .s1 && s.rdB F.TIM_STATUS_VALID && (List.range 16).any (fun p => s.portActive p || (s.portState p == 1 && (s.port p).ready)) then
      match s.holdIndex with
      | some j => s.holdRefresh j
      | none => s
    else s)

/-! ## Warnings -/

/-- A transition back to S0 or S1 is in progress. -/
def State.returning (s : State) : Bool := s.pwr.trans.any fun t => t.target == .s0 || t.target == .s1

/-- The load shed (R400, R401): a SET_POWER in progress and every descriptor outside ADMIN and MGMT are aborted, the ALARM leaves,
the cairn record is written, and the module is on its way to S2, as is a module that was on its way back from there. -/
def State.shed (s : State) (cause : Nat) : State :=
  let s := (s.modPwr fun p => { p with warnFrom := p.st }).bump (F.PWR_CNT_COUNT 0)
  let s := ((s.wrB F.PWR_STATUS_SHED true).wr F.PWR_STATUS_SHED_CAUSE cause).raise Ev.PWR_PFAIL_WARN
  let s := (s.bumpLifetime 0x90).alarm 0x03 2
  let s := s.cairn 3 0
  if s.awake then
    let s := s.dropCapture.abortClasses fun c => c != Cls.ADMIN && c != Cls.MGMT
    if s.pwr.st = .s2 then (if s.returning then s.setTrans (some ⟨.s2, none⟩) else s) else s.enterS2.setTrans (some ⟨.s2, none⟩)
  else s

/-- A warning begins, on the own input or on the PFAIL_N ball; a second one changes nothing more. -/
def State.warn (s : State) (own : Bool) : State :=
  let first := !s.warned
  let s := (s.modPwr fun p => if own then { p with ownWarn := true } else { p with pinWarn := true }).wrB F.PWR_STATUS_PFAIL_PIN false
  if first then s.shed (if own then 1 else 2) else s

/-- The hub is powered: S0 to S3. -/
def State.powered (s : State) : Bool := s.awake || s.pwr.st == .s3

/-- PFAIL_WARN (R400). -/
def execPfailWarn (s : State) : Host.Outcome State Fault Refusal :=
  .next (if s.powered && !s.pwr.ownWarn then s.warn true else s)

/-- PFAIL_N_LOW (R400): a warning only while PFAIL_IN_EN is 1. -/
def execPfailNLow (s : State) : Host.Outcome State Fault Refusal :=
  .next (if !s.powered then s
    else if s.rdB F.PWR_CTRL_PFAIL_IN_EN then (if s.pwr.pinWarn then s else s.warn false)
    else s.wrB F.PWR_STATUS_PFAIL_PIN false)

/-- A SET_POWER to the state held at the warning would start and pass its checks now: from S2 only, and to S1 only on a valid rope
time (R402, R404, R405). -/
def State.resumes (s : State) : Bool :=
  s.rdB F.PWR_CTRL_AUTO_RESUME && s.pwr.st == .s2 && s.pwr.trans.isNone && s.powerAllowed s.pwr.warnFrom.number

/-- The warning ends (R402): an entry to S2 by its shed is complete, and an automatic return starts where AUTO_RESUME asks for it. -/
def State.warnEnd (s : State) : State :=
  let s := (s.modPwr fun p => { p with ownWarn := false, pinWarn := false }).raise Ev.PWR_PFAIL_CLEAR
  let s := if s.pwr.trans = some ⟨.s2, none⟩ then (s.setTrans none).raise Ev.PWR_STATE else s
  if s.pwr.warnFrom = .s0 ∨ s.pwr.warnFrom = .s1 then
    if s.resumes then s.setTrans (some ⟨s.pwr.warnFrom, none⟩) else s
  else s.wrB F.PWR_STATUS_SHED false

/-- PFAIL_CLEAR (R402): PFAIL_N is released. -/
def execPfailClear (s : State) : Host.Outcome State Fault Refusal :=
  .next (if !s.powered then s
    else
      let s := s.wrB F.PWR_STATUS_PFAIL_PIN true
      if s.warned then s.warnEnd else s)

/-- PWR_INPUT_RANGE (R397): below 36 V only without a warning in force. -/
def execPwrInputRange (high : Bool) (s : State) : Host.Outcome State Fault Refusal :=
  .next (if s.powered && (high || !s.warned) then s.raise Ev.PWR_INPUT_RANGE else s)

/-- A LEAVE is still to be sent on a port: its pitch is UP at version 2 and no lane carries messages (R348, R349). -/
def State.leaveDue (s : State) (p : Port) : Bool := s.pitchUp p && s.pitchVer p == 2 && (s.carryLane p false).isNone

/-! ## D3hot, and the transitions that no descriptor drives -/

/-- PMCSR is written D3hot (Table 16-4): S2 entry; LEAVE follows when the pitches have retrained (R348, R349). -/
def State.goD3 (s : State) : State :=
  let s := (s.dropCapture.modPwr fun p => { p with d3hot := true })
  let s := if s.pwr.st = .s2 then s else s.enterS2
  s.setTrans (some ⟨.s3, none⟩)

/-- The return from S3 to S0 starts, the logbook recall with it (R409, R445). -/
def State.startReturn (s : State) : State := (s.wrB F.NVS_STATUS_RECALL_BUSY true).setTrans (some ⟨PwrState.s0, none⟩)

/-- PMCSR PowerState is written. An entry to S3 or a return in progress ends first (log entry 1614). -/
def State.goPmcsr (s : State) (d3 : Bool) : State :=
  if !d3 then
    let s := s.modPwr fun p => { p with d3hot := false }
    if s.pwr.st = .s3 then s.startReturn else s
  else if s.pwr.st = .s3 then s.modPwr fun p => { p with d3hot := true }
  else s.goD3

def execPmcsrD3hot (s : State) : Host.Outcome State Fault Refusal :=
  .next (if s.powered && !s.pwr.d3hot then s.goPmcsr true else s)

def execPmcsrD0 (s : State) : Host.Outcome State Fault Refusal :=
  .next (if s.powered && s.pwr.d3hot then s.goPmcsr false else s)

/-- The entry to S3 ends: PMCSR may have been written D0 meanwhile. -/
def State.endS3 (s : State) : State :=
  let s := s.enterS3.raise Ev.PWR_STATE
  if s.pwr.d3hot then s else s.startReturn

/-- The return from S3 ends. With a warning in force the module sheds into S2 at once (R401), and D3hot written meanwhile takes it
back (log entry 1614). -/
def State.endReturn (s : State) : State :=
  let s := s.leaveS3.raise Ev.PWR_STATE
  let s := if s.warned then
      (((s.modPwr fun p => { p with warnFrom := .s0 }).wrB F.PWR_STATUS_SHED true).enterS2).setTrans (some ⟨.s2, none⟩)
    else s
  if s.pwr.d3hot then s.goD3 else s

/-- POWER_TRANSITION_DONE: a transition that no descriptor drives ends (Table 16-4). S3 waits until LEAVE can go out on every pitch
(R349). -/
def State.transEnd (s : State) (target : PwrState) : State :=
  let t := s.setTrans none
  match target with
  | .s0 => if s.pwr.st = .s3 then t.endReturn else t.enterS0.raise Ev.PWR_STATE
  | .s1 => t.backToS1.raise Ev.PWR_STATE
  | .s3 => if s.leaveDue .up || s.leaveDue .dn then s else t.endS3
  | _ => t.raise Ev.PWR_STATE

def execPowerTransitionDone (s : State) : Host.Outcome State Fault Refusal :=
  .next (match s.pwr.trans with
    | some ⟨target, none⟩ => s.transEnd target
    | _ => s)

/-! ## Rails and resets that drop power -/

/-- UVLO_FALL: every rail off (Table 16-1). -/
def execUvloFall (s : State) : Host.Outcome State Fault Refusal := .next (s.powerDown .off)

/-- OVERVOLTAGE (R399): the logbook rail lives long enough for a cairn record. Thermal shutdown stays in force, since only the routes
of R422 leave it (R403), but sensor 32 is not read without power. -/
def execOvervoltage (s : State) : Host.Outcome State Fault Refusal :=
  .next ((if s.pwr.st == .off then s
    else (s.cairn 4 0).powerDown (if s.pwr.st == .thermal then .thermal else .off)).modPwr fun p => { p with overVolt := true })

/-- PWR_RAIL_FAULT (R398). -/
def execPwrRailFault (s : State) : Host.Outcome State Fault Refusal :=
  .next (if s.powered then
      ((s.modPwr fun p => { p with railBad := true }).bump (F.PWR_CNT_COUNT 1)).raise Ev.PWR_RAIL_FAULT
    else s)

/-- RAIL_FAULT_TIMEOUT (R398): every rail off; the sequence is due again. -/
def execRailFaultTimeout (s : State) : Host.Outcome State Fault Refusal :=
  .next (if s.powered && s.pwr.railBad then (s.powerDown .off).modPwr fun p => { p with railBad := true } else s)

/-- PERST_N_ASSERT: LEAVE goes out (R349) and the module enters S4 from any state of the ladder (R403, R404). -/
def execPerstNAssert (s : State) : Host.Outcome State Fault Refusal :=
  .next (if s.powered then
      (((if s.awake then (s.sendLeave .up).sendLeave .dn else s).modPwr fun p => { p with perst := true }).powerDown .s4)
    else s.modPwr fun p => { p with perst := true })

/-- PWR_CNT_CLEAR (Table 16-6). -/
def execPwrCntClear (s : State) : Host.Outcome State Fault Refusal :=
  .next (if s.bar0Open then s.clearCounters 0x30010 2 else s)

end Sys2Proof.Machine
end

