-- ==== Sys2Proof/Machine/Thm.lean ====
section
/-!
DEFINITION. The thermal unit (chapter 17): readings and filters, the cross-check, junction temperature, the critical condition and
thermal shutdown.
-/
namespace Sys2Proof.Machine

/-- Change the thermal unit. -/
def State.modThm (s : State) (f : ThmSt → ThmSt) : State := { s with thm := f s.thm }

/-- Sensor n. -/
def State.sensor (s : State) (n : Nat) : Sensor := s.thm.sensors.getD n Sensor.reset
def State.modSensor (s : State) (n : Nat) (f : Sensor → Sensor) : State := s.modThm fun t => { t with sensors := t.sensors.modify n f }

/-- The group of a sensor: 0 W, 1 E, 2 H, 3 M; its first sensor and size (Table 17-1). -/
def sensorGroup (n : Nat) : Nat := if n < 16 then 0 else if n < 32 then 1 else if n < 44 then 2 else 3
def groupFirst (g : Nat) : Nat := [0, 16, 32, 44].getD g 44
def groupSize (g : Nat) : Nat := [16, 16, 12, 4].getD g 4
def groupSensors (g : Nat) : List Nat := upFrom (groupFirst g) (groupSize g)

/-- The designated neighbours of a sensor (Table 17-1): in the grid of its die, or the other stacks. -/
def sensorNeighbours (n : Nat) : List Nat :=
  let g := sensorGroup n
  let i := n - groupFirst g
  if g = 3 then (groupSensors 3).filter (· != n)
  else
    ((if 4 ≤ i then [n - 4] else []) ++ (if i % 4 ≠ 0 then [n - 1] else []) ++ (if i % 4 ≠ 3 then [n + 1] else []) ++
      (if i + 4 < groupSize g then [n + 4] else []))

/-- The die whose ADC reads a sensor: 0 west, 1 east, 2 hub; an HBM sensor is read through its stack's die (Table 0-1). -/
def sensorAdc (n : Nat) : Nat := if n < 16 then 0 else if n < 32 then 1 else if n < 44 then 2 else if n < 46 then 0 else 1

/-- A sensor is in use (R411): it has been read and is neither failed nor suspect. -/
def Sensor.inUse (x : Sensor) : Bool := x.f.isSome && !x.failed && !x.suspect
def Sensor.temp (x : Sensor) : Int := x.f.getD 0

/-- The ADC value corrected by the result in force (R425). -/
def State.correctAdc (s : State) (n : Nat) (a : Int) : Int :=
  (a * (s.rd (F.CAL_ACT_ADC_GAIN (sensorAdc n)) : Int) + 16384) / 32768 + sext 16 (s.rd (F.CAL_ACT_ADC_OFFSET (sensorAdc n)))

/-- The filter of R411. -/
def Sensor.take (x : Sensor) (r : Int) : Sensor :=
  { x with f := some (match x.f with | none => r | some f => f + (r - f) / 4) }

/-- One sensor takes a corrected reading, or misses one (R410, R411). -/
def Sensor.read (x : Sensor) (r : Option Int) : Sensor :=
  match r with
  | none =>
    if x.failed then { x with good := 0 }
    else if x.missed = 2 then { x with missed := 3, failed := true, good := 0, dev := 0, hot := 0, told := false }
    else { x with missed := x.missed + 1 }
  | some r =>
    if x.failed then (if x.good = 0 then { x with f := some r, good := 1 } else { x.take r with good := x.good + 1 })
    else { x.take r with missed := 0 }

/-- Show the exclusion bits of a sensor, its filter and its latest reading (THM_SUSPECT, THM_FAIL, THM_SENSn). -/
def State.showSensor (s : State) (n : Nat) : State :=
  let x := s.sensor n
  let at_ := fun (off : Nat) => (⟨off + 4 * (n / 32), n % 32, 1⟩ : Fld)
  ((s.wrB (at_ 0x40008) x.suspect).wrB (at_ 0x40010) x.failed).wr (F.THM_SENS_FILT n) (twos 16 x.temp)

/-- Sensor n is read. -/
def State.readSensor (s : State) (n : Nat) (a : Option Int) : State :=
  let r := a.map fun v => s.correctAdc n v
  let was := (s.sensor n).failed
  let s := (s.modSensor n fun x => x.read r).showSensor n
  let s := match r with
    | some v => s.wr (F.THM_SENS_RAW n) (twos 16 v)
    | none => s
  if !was && (s.sensor n).failed then s.raise Ev.THM_SENSOR_FAIL else s

/-! ## Cross-check (R412 to R415) -/

/-- Neighbours in use, and the sum of their f. -/
def State.nearby (s : State) (n : Nat) : Nat × Int :=
  let ns := (sensorNeighbours n).filter fun i => (s.sensor i).inUse
  (ns.length, (ns.map fun i => (s.sensor i).temp).sum)

/-- |n·f − Σ| of a sensor. -/
def State.offMean (s : State) (n : Nat) : Nat :=
  let p := s.nearby n
  ((p.1 : Int) * (s.sensor n).temp - p.2).natAbs

def State.deviates (s : State) (n : Nat) : Bool := decide (0 < (s.nearby n).1) && decide (128 * (s.nearby n).1 < s.offMean n)
def State.close (s : State) (n : Nat) : Bool := decide (0 < (s.nearby n).1) && decide (s.offMean n ≤ 64 * (s.nearby n).1)

/-- Marking a sensor would leave its group with fewer than half of its sensors in use (R414). -/
def State.groupTight (s : State) (n : Nat) : Bool :=
  let g := sensorGroup n
  decide (2 * (((groupSensors g).filter fun i => (s.sensor i).inUse).length - 1) < groupSize g)

/-- Count one reading's comparisons (R412, R415): a sensor in use without a neighbour in use is not compared and does not
deviate. -/
def State.crossCheck (s : State) : State :=
  let upd := fun (n : Nat) (x : Sensor) =>
    if x.inUse then
      (if s.deviates n then { x with dev := x.dev + 1 } else { x with dev := 0, told := false })
    else if x.suspect && !x.failed then { x with near := if s.close n then x.near + 1 else 0 }
    else x
  s.modThm fun t => { t with sensors := t.sensors.zipIdx.map fun p => upd p.2 p.1, marked := false }

/-- XCHK_LIMIT holds while a sensor kept in use by R414 deviates. -/
def State.settleLimit (s : State) : State :=
  s.wrB F.THM_STATUS_XCHK_LIMIT (s.thm.sensors.any fun x => x.told && x.inUse && decide (0 < x.dev))

/-- The sensors whose 1,000th deviating reading has come. -/
def State.suspects (s : State) : List Nat := (List.range 48).filter fun n => (s.sensor n).inUse && decide (1000 ≤ (s.sensor n).dev)

/-- The suspect to mark: the largest |n·f − Σ| / n, ties to the lower index (R413). -/
def State.worst (s : State) (ns : List Nat) : Option Nat :=
  ns.foldl (fun best n =>
    match best with
    | none => some n
    | some b => if s.offMean b * (s.nearby n).1 < s.offMean n * (s.nearby b).1 then some n else best) none

/-- A sensor is marked suspect (R412). -/
def State.mark (s : State) (n : Nat) : State :=
  let s := (s.modSensor n fun x => { x with suspect := true, dev := 0, near := 0, hot := 0, told := false }).modThm fun t => { t with marked := true }
  ((s.showSensor n).bump (F.THM_CNT_COUNT 1)).raise Ev.THM_SUSPECT

/-- A sensor that may not be marked is reported once (R414). -/
def State.tell (s : State) (n : Nat) : State :=
  if (s.sensor n).told then s
  else ((s.modSensor n fun x => { x with told := true }).wrB F.THM_STATUS_XCHK_LIMIT true).raise Ev.THM_SUSPECT

/-- The sensors of a group in use, and the sum of their f. -/
def State.groupSum (s : State) (g : Nat) : Nat × Int :=
  let xs := ((groupSensors g).map s.sensor).filter Sensor.inUse
  (xs.length, (xs.map Sensor.temp).sum)

/-- Show a group's mean (THM_GROUP); its rounding is open. -/
def State.showMean (s : State) (g : Nat) : State :=
  let p := s.groupSum g
  (s.wr ⟨0x40018 + 4 * (g / 2), 16 * (g % 2), 16⟩ (if p.1 = 0 then 0 else twos 16 (s.freeQuot p.2 p.1))).drawn 1

/-- Junction temperature, the group means and the highest T_j seen (R416, Table 18-7). -/
def State.settleTj (s : State) : State :=
  let ns := (List.range 48).filter fun n => (s.sensor n).inUse
  let hot := ns.foldl (fun b n => match b with
    | none => some n
    | some m => if (s.sensor m).temp < (s.sensor n).temp then some n else b) (none : Option Nat)
  let s := (List.range 4).foldl (fun s g => s.showMean g) s
  match hot with
  | none => s.wr F.THM_STATUS_TJ (16 * s.rd F.THM_CTRL_CRIT)
  | some n => (s.wr F.THM_STATUS_TJ (twos 16 (s.sensor n).temp)).wr F.THM_STATUS_HOT n

/-- T_j in 1/16 C. -/
def State.tj (s : State) : Int := sext 16 (s.rd F.THM_STATUS_TJ)

/-- The lifetime maximum of T_j (Table 18-7). -/
def State.maxTj (s : State) : State :=
  if sext 64 (s.lifetime 0xB0) < s.tj then s.setLifetime 0xB0 (twos 64 s.tj) else s

/-- The critical condition (R418). -/
def State.critical (s : State) : State :=
  let crit := (s.rd F.THM_CTRL_CRIT : Int)
  let on := s.rdB F.THM_STATUS_CRITICAL
  if !on && decide (16 * crit ≤ s.tj) then
    (((s.wrB F.THM_STATUS_CRITICAL true).bump (F.THM_CNT_COUNT 0)).raise Ev.THM_CRITICAL).alarm 0x01 0
  else if on && decide (s.tj < 16 * (crit - 5)) then (s.wrB F.THM_STATUS_CRITICAL false).raise Ev.THM_CRITICAL_CLEAR
  else s

/-- What follows a change of the sensors in use or of their values (R414, R416, R418). -/
def State.junction (s : State) : State := s.settleLimit.settleTj.maxTj.critical

/-! ## Shutdown (R419 to R422) -/

/-- From the trigger on, every port sends the background colour for every remaining ray (Table 17-2, R214): of the lines still due, as
many as start before the lanes are idle, a free number (log entry 1711). -/
def State.sendBlank (s : State) : State :=
  let due : Option (Nat × Bool) :=
    if s.pwr.st = .s1 then s.pwr.holdLine.map fun i => (i, true)
    else if s.pwr.st = .s0 ∧ s.scn.cur.isSome = true ∧ s.scn.gap.isNone = true then some (s.nextLine, false) else none
  match due with
  | none => s
  | some (i, hold) =>
    let n := Config.freeNat s.freeCtr % (s.geo.rows - i + 1)
    let ray := reduceRay s.depthP s.bg
    let frame := if hold then s.holdCount else s.frameNo
    let run := s.lv F.SCN_CTRL_RUN == 1
    (upFrom i n).foldl (fun s y => (s.portsUsed.filter fun p => s.portActive p).foldl (fun s p =>
      s.sendLine p run (run && y == 0) hold y (frame % 65536) (List.replicate (s.portCols p * s.geo.uv) ray)) s) (s.drawn 1)

/-- Thermal shutdown: the panel goes blank, the ALARM leaves, the cairn record is written and every rail goes off (Table 17-2); the
lifetime counter counts it. -/
def State.shutdown (s : State) (cause detail : Nat) : State :=
  let s := if s.awake then s.sendBlank.alarm 0x02 1 else s
  ((s.cairn cause detail).bumpLifetime 0x98).powerDown .thermal

/-- Count readings at or above SHUT, unfiltered, of the sensors in use; the first with two in a row triggers (R419). -/
def State.hotCount (s : State) (readings : List (Option Int)) : State × Option Nat :=
  let s := (List.range 48).foldl (fun s n =>
    match (readings.getD n none).map fun a => s.correctAdc n a with
    | some r => s.modSensor n fun x =>
      { x with hot := if x.inUse && decide (16 * (s.rd F.THM_CTRL_SHUT : Int) ≤ r) then x.hot + 1 else 0 }
    | none => s.modSensor n fun x => { x with hot := 0 }) s
  (s, (List.range 48).find? fun n => decide (2 ≤ (s.sensor n).hot))

/-- Every sensor is read (R410 to R418); the input is measured (R397); milliseconds of throttling are counted (R417). -/
def State.sensorRead (s : State) (readings : List (Option Int)) : State :=
  let s := (List.range 48).foldl (fun s n => s.readSensor n (readings.getD n none)) s
  let s := s.crossCheck.junction
  if s.rd F.THM_STATUS_E = 0 then s else s.bump (F.THM_CNT_COUNT 2)

def execSensorRead (readings : List (Option Int)) (vin pin : Nat) (s : State) : Host.Outcome State Fault Refusal :=
  .next (if s.awake then
      let s := ((s.wr F.PWR_VIN_VIN vin).wr F.PWR_VIN_PIN pin).sensorRead readings
      match s.hotCount readings with
      | (s, some n) => s.shutdown 1 n
      | (s, none) => s
    else s)

/-- SENSOR_READMIT: after 1,000 good readings, one a millisecond, a failed sensor is used again (R411). -/
def State.readmit (s : State) (n : Nat) : State :=
  if (s.sensor n).failed ∧ 1000 ≤ (s.sensor n).good then
    (s.modSensor n fun x => { x with failed := false, missed := 0, good := 0, dev := 0, near := 0 }).showSensor n |>.junction
  else s

def execSensorReadmit (n : Nat) (s : State) : Host.Outcome State Fault Refusal :=
  .next (if s.awake && decide (n < 48) then s.readmit n else s)

/-- THM_SUSPECT (R412 to R414): sensors that may not be marked are reported; of the others one is marked at a reading. -/
def State.suspectStep (s : State) : State :=
  let ns := s.suspects
  let s := ((ns.filter s.groupTight).foldl (fun s n => s.tell n) s)
  if s.thm.marked then s
  else match s.worst (ns.filter fun n => !s.groupTight n) with
    | some n => (s.mark n).junction
    | none => s

def execThmSuspect (s : State) : Host.Outcome State Fault Refusal := .next (if s.awake then s.suspectStep else s)

/-- THM_SUSPECT_CLEAR (R415). -/
def State.suspectClear (s : State) (n : Nat) : State :=
  if (s.sensor n).suspect ∧ (s.sensor n).failed = false ∧ 10000 ≤ (s.sensor n).near then
    (((s.modSensor n fun x => { x with suspect := false, dev := 0, near := 0 }).showSensor n).junction).raise Ev.THM_SUSPECT_CLEAR
  else s

def execThmSuspectClear (n : Nat) (s : State) : Host.Outcome State Fault Refusal :=
  .next (if s.awake && decide (n < 48) then s.suspectClear n else s)

/-- HARDWARE_TRIP (R419): in S0 to S3, whatever the sensors say. -/
def execHardwareTrip (die : Nat) (s : State) : Host.Outcome State Fault Refusal :=
  .next (if s.powered && decide (die < 3) then s.shutdown 2 die else s)

/-- THERM_N is driven low in thermal shutdown alone (R478). -/
def State.thermLow (s : State) : Bool := s.pwr.st == .thermal

/-- SHUTDOWN_POLL: sensor 32 below 85 C lets the next assertion of WAKE_N boot (R422). -/
def execShutdownPoll (reading : Int) (s : State) : Host.Outcome State Fault Refusal :=
  .next (if s.pwr.st == .thermal && !s.pwr.overVolt && decide (reading < 1360) then s.modThm fun t => { t with cool := true } else s)

/-- THM_CNT_CLEAR (Table 17-4). -/
def execThmCntClear (s : State) : Host.Outcome State Fault Refusal :=
  .next (if s.bar0Open then s.clearCounters 0x40020 3 else s)

end Sys2Proof.Machine
end

