-- ==== Sys2Proof/Machine/Cal.lean ====
section
/-!
DEFINITION. The calibration unit (chapter 17): runs, results, staging and application.
-/
namespace Sys2Proof.Machine

/-- Change the calibration unit. -/
def State.modCal (s : State) (f : CalSt → CalSt) : State := { s with cal := f s.cal }

/-- Limits of Table 17-3. -/
def gainOk (w : Nat) : Bool := decide (32112 ≤ bits w 0 16) && decide (bits w 0 16 ≤ 33424)
def prefOk (w : Nat) : Bool := gainOk w && decide ((sext 16 (bits w 16 16)).natAbs ≤ 64)
def adcOk (w : Nat) : Bool := gainOk w && decide ((sext 16 (bits w 16 16)).natAbs ≤ 160)
def latOk (w : Nat) : Bool := decide (4500 ≤ w) && decide (w ≤ 5500)

/-- The 22 words of a result set within the limits, in the order of Table 17-5. -/
def resultsOk (ws : List Word) : Bool :=
  decide (ws.length = 22) && ws.zipIdx.all fun c =>
    if c.2 < 18 then prefOk c.1.toNat else if c.2 < 21 then adcOk c.1.toNat else latOk c.1.toNat

/-- The staging registers. -/
def State.staged (s : State) : List Word := (List.range 22).map fun i => s.word (0x50100 + 4 * i)
def State.setStaged (s : State) (ws : List Word) : State :=
  ws.zipIdx.foldl (fun s c => s.setWord (0x50100 + 4 * c.2) c.1) s

/-- A staged set awaits its application (R426): at once while rope time is not valid. -/
def State.stageSet (s : State) (source : Nat) : State :=
  let s := (s.modCal fun c => { c with source := source }).wrB F.CAL_STATUS_APPLY_PENDING true
  if s.rdB F.SCN_STATUS_TIME_OK then s else s.applyCal

/-- A held request may start a run (R423). -/
def State.calFree (s : State) : Bool := !s.rdB F.CAL_STATUS_BUSY && !s.rdB F.CAL_STATUS_APPLY_PENDING

/-- A run starts: it records the group means (R423). -/
def State.calStart (s : State) : State :=
  let means := (List.range 4).map fun g => sext 16 (s.rd ⟨0x40018 + 4 * (g / 2), 16 * (g % 2), 16⟩)
  ((s.modCal fun c => { c with means := means, byHost := false }).wrB F.CAL_STATUS_BUSY true).wrB F.CAL_STATUS_REQ_HELD false |>.bump F.CAL_CNT_RUNS_COUNT

/-- A trigger of R423: a run starts, or the request is held. -/
def State.calRequest (s : State) (host : Bool) : State :=
  if s.calFree then s.calStart
  else (s.modCal fun c => { c with byHost := c.byHost || host }).wrB F.CAL_STATUS_REQ_HELD true

/-- A run ends without results (R424). -/
def State.calFail (s : State) : State :=
  (((s.wr F.CAL_STATUS_LAST 2).bump F.CAL_CNT_FAIL_COUNT).modCal fun c => { c with holdoff := true }).raise Ev.CAL_FAIL

/-- The baselines of the run just ended (R423). -/
def State.setBase (s : State) : State :=
  (List.range 4).foldl (fun s g => s.wr ⟨0x5000C + 4 * (g / 2), 16 * (g % 2), 16⟩ (twos 16 (s.cal.means.getD g 0))) s

/-- A run ends with its measurements (R424): `refOk` when REF_V was in range. Without TREF_IN the latency is not measured, whatever
REF_V is: LAT_STALE is set and the latency in force is staged. -/
def State.calEnd (s : State) (refOk : Bool) (pref adc : List Word) (lat : Nat) : State :=
  let s := s.wrB F.CAL_STATUS_BUSY false
  let tref := s.rdB F.TIM_STATUS_TREF_OK
  let latW : Word := if tref then BitVec.ofNat 32 lat else s.word 0x50254
  let ws := padTo 18 0 pref ++ padTo 3 0 adc ++ [latW]
  let s := s.wrB F.CAL_STATUS_LAT_STALE (!tref)
  let s := if refOk && tref then s else s.raise Ev.CAL_REF_BAD
  if refOk && resultsOk ws then
    let s := (s.setBase.setStaged ws).wr F.CAL_STATUS_LAST 1
    (s.raise Ev.CAL_DONE).stageSet 1
  else s.calFail

/-- CAL_TEMP_CHECK, every 100 ms (R423): a group's mean has moved from its baseline by more than CAL_TDELTA. -/
def State.tempMoved (s : State) : Bool :=
  (List.range 4).any fun g =>
    let p := s.groupSum g
    let base := sext 16 (s.rd ⟨0x5000C + 4 * (g / 2), 16 * (g % 2), 16⟩)
    decide (0 < p.1) && decide (16 * max 1 (s.rd F.CAL_TDELTA_TDELTA) * p.1 < (p.2 - p.1 * base).natAbs)

def execCalTempCheck (s : State) : Host.Outcome State Fault Refusal :=
  .next (if s.awake && s.rdB F.CAL_CTRL_AUTO && !s.cal.holdoff && s.tempMoved then s.calRequest false else s)

/-- CAL_RUN (R423). -/
def execCalRun (s : State) : Host.Outcome State Fault Refusal := .next (if s.bar0Open then s.calRequest true else s)

/-- CAL_RUN_START: a held request starts its run, a held temperature move not while a failed run holds moves back (R423). -/
def execCalRunStart (s : State) : Host.Outcome State Fault Refusal :=
  .next (if s.awake && s.rdB F.CAL_STATUS_REQ_HELD && s.calFree && (s.cal.byHost || !s.cal.holdoff) then s.calStart else s)

/-- CAL_RUN_DONE (R424). -/
def execCalRunDone (refOk : Bool) (pref adc : List Word) (lat : Nat) (s : State) : Host.Outcome State Fault Refusal :=
  .next (if s.awake && s.rdB F.CAL_STATUS_BUSY then s.calEnd refOk pref adc lat else s)

/-- CAL_MOVE_HOLDOFF (R423). -/
def execCalMoveHoldoff (s : State) : Host.Outcome State Fault Refusal :=
  .next (if s.powered then s.modCal fun c => { c with holdoff := false } else s)

/-- STAGE (R427). -/
def State.stage (s : State) : State :=
  if !s.rdB F.CAL_STATUS_BUSY && resultsOk s.staged then s.stageSet 2 else s.wrB F.CAL_STATUS_WR_IGNORED true

def execStage (s : State) : Host.Outcome State Fault Refusal := .next (if s.bar0Open then s.stage else s)

/-- CAL_CNT_CLEAR. -/
def execCalCntClear (s : State) : Host.Outcome State Fault Refusal :=
  .next (if s.bar0Open then s.clearCounters 0x50020 2 else s)

end Sys2Proof.Machine
end

