-- ==== Sys2Proof/Machine/Reset.lean ====
section
/-!
DEFINITION. The resets that leave power on (chapter 19, Tables 2-13 and 19-4): function reset, hot reset and the restart of the
management core.
-/
namespace Sys2Proof.Machine

/-- The descriptors that a ring still owes an outcome are dropped with what their engines hold of them (R65, Table 2-13). -/
def State.dropDescs (s : State) (r : Ring) : State :=
  if r.cls = Cls.STREAM then s else r.live.foldl (fun s d => s.abortEffect r.cls r.num d.idx) s

/-- What the descriptors of every ring hold in the engines goes (R68), and a running HIF_ABORT ends with the count it has (R67). -/
def State.dropRings (s : State) : State :=
  let count := ((s.hif.aborts.filter fun a => a.admin.isNone).map AbortOp.count).sum
  let s : State := s.hif.rings.foldl (fun s r => s.dropDescs r) s
  if s.rdB F.HIF_ABORT_STATUS_BUSY then
    ((s.wrB F.HIF_ABORT_STATUS_BUSY false).wrB F.HIF_ABORT_STATUS_DONE true).wr F.HIF_ABORT_STATUS_COUNT count
  else s

/-- All rings go, with aborts in progress and open encoder sessions, and no record is written for what was outstanding (R68). -/
def State.clearRings (s : State) : State :=
  { s with
    hif := { s.hif with rings := [], aborts := [], feats := 0 }
    enc := EncSt.reset
    rope := { s.rope with send := [], mails := [] }
    tim := { s.tim with tsq := [] } }

/-- The registers of a block range return to their reset values (R468). -/
def State.clearRegs (s : State) (lo hi : Nat) : State := { s with regs := cellClear s.regs lo hi }

/-- HIF registers that Table 2-13 clears: ring 0's set-up, the accepted features, the MMIO doorbells, and what shows a running
ring 0. -/
def State.clearHifRegs (s : State) : State :=
  let s := (s.wrB F.HIF_CTRL_ENABLE false).wrB F.HIF_CTRL_FEATURES_OK false
  let s := (s.wrB F.HIF_STATUS_RUNNING false).wr F.HIF_STATUS_RING_VER 0
  ((s.clearRegs 0x10020 0x10030).clearRegs 0x10030 0x1004C).clearRegs 0x11000 0x11200

/-- Event state (R395) and MSI-X state (Table 2-13). -/
def State.clearEvents (s : State) : State :=
  let s := ((s.clearRegs 0x20000 0x20080).clearRegs 0x21000 0x21800).wrB F.EVT_RING_STATUS_ACTIVE false
  let s := s.wr F.EVT_RING_CI_INDEX 0
  { s with
    evt := { s.evt with srcs := [], ringBase := 0, ringVec := 0 }
    hif := { s.hif with msix := [], msixPend := [] } }

/-- The display side: no present and no commit is pending, no access unit is shown (R32), the next frame is synthesised whole
(R175), the freeze detector starts afresh (R227), retire records stop (CMP_RETIRE_CFG). -/
def State.clearShow (s : State) : State :=
  let s : State := { s with
    scn := { s.scn with presents := [], shown := none, auScan := none, auNext := none, frzFirst := true }
    syn := { s.syn with full := true, au := none }
    cmp := { s.cmp with transit := none, pend := [] } }
  (s.commitBits).wrB F.CMP_RETIRE_CFG_EN false

/-- What a function reset clears (Table 2-13, R68): event state first, since occurrences during the reset set status bits only
(R395), which RESET_BUSY at 1 sees to. -/
def State.functionClear (s : State) : State :=
  (((s.wrB F.HIF_STATUS_RESET_BUSY true).clearEvents.dropRings.decRestart true true).clearRings.clearHifRegs).clearShow

/-- A function reset starts (R68); one in progress goes on. -/
def State.functionReset (s : State) : State :=
  if s.rdB F.HIF_STATUS_RESET_BUSY then s
  else s.functionClear.wrB F.GLB_RESET_CAUSE_FLR true

/-- FUNCTION_RESET: HIF_CTRL.RESET is written 1. -/
def execFunctionReset (s : State) : Host.Outcome State Fault Refusal := .next (if s.bar0Open then s.functionReset else s)

/-- FUNCTION_LEVEL_RESET (R68). -/
def execFunctionLevelReset (s : State) : Host.Outcome State Fault Refusal := .next (if s.powered then s.functionReset else s)

/-- FUNCTION_RESET_DONE (R68). -/
def execFunctionResetDone (s : State) : Host.Outcome State Fault Refusal :=
  .next (if s.powered then s.wrB F.HIF_STATUS_RESET_BUSY false else s)

/-- HOT_RESET: what a function reset clears, HDM decoder 0 and what the host wrote to CXL registers, and the link is down (Table
19-4). A function reset in progress ends in it. -/
def State.hotReset (s : State) : State :=
  let s := (s.functionClear.wrB F.HIF_STATUS_RESET_BUSY false).wrB F.GLB_RESET_CAUSE_HOT_RESET true
  { s with hif := { s.hif with linkUp := false, width := 0, rate := 0, hdm := HdmDecoder.reset, cxl := [] } }

def execHotReset (s : State) : Host.Outcome State Fault Refusal := .next (if s.powered then s.hotReset else s)

/-- The descriptors of a ring that a management restart ends with INTERNAL (R463), which raises HIF_INTERNAL
(Table 15-2). -/
def State.internalRing (s : State) (r : Ring) : State :=
  r.live.foldl (fun s d => (s.abortEffect r.cls r.num d.idx).complete r.num d.idx Cpl.INTERNAL 0 0 [Ev.HIF_INTERNAL]) s

/-- The management core restarts (R463): ADMIN and MGMT descriptors below their retire point end with INTERNAL, and those rings
wait until the core serves them again. -/
def State.mgmtRestart (s : State) : State :=
  let rs := s.hif.rings.filter fun r => r.cls == Cls.ADMIN || r.cls == Cls.MGMT
  let s : State := rs.foldl (fun s r => s.internalRing r) s
  (State.wrB { s with hif := { s.hif with mgmtDown := true } } F.GLB_RESET_CAUSE_MGMT_RESTART true).raise Ev.GLB_MGMT_RESTART

/-- MGMT_WATCHDOG (R463). -/
def execMgmtWatchdog (s : State) : Host.Outcome State Fault Refusal :=
  .next (if s.awake && s.ready then s.mgmtRestart else s)

/-- MGMT_RESTART_DONE (R463). -/
def execMgmtRestartDone (s : State) : Host.Outcome State Fault Refusal :=
  .next { s with hif := { s.hif with mgmtDown := false } }

end Sys2Proof.Machine
end

