-- ==== Sys2Proof/Machine/RegRead.lean ====
section
/-!
DEFINITION. BAR0 reads (R6, R455, R459): registers that show what a block holds, and the capture of `_HI` partners.
-/
namespace Sys2Proof.Machine

/-- EVT_SUMMARY: groups with a status bit and its enable at 1, and groups with a status bit at 1. -/
def State.evtSummary (s : State) : Nat :=
  let st := fun (g : Nat) => (s.word (0x20000 + 4 * g)).toNat
  let en := fun (g : Nat) => (s.word (0x20040 + 4 * g)).toNat
  ((List.range 16).map fun g => b2n (st g &&& en g != 0) * 2 ^ g + b2n (st g != 0) * 2 ^ (16 + g)).sum

/-- TIM_TSQ_INFO: the oldest entry, LEVEL, VALID and OVF (R382); with no entry its fields read as at reset. -/
def State.tsqInfo (s : State) : Nat :=
  let flags := s.tim.tsq.length * 2 ^ 17 + s.rd F.TIM_TSQ_INFO_OVF * 2 ^ 23
  match s.tim.tsq with
  | [] => flags
  | e :: _ => e.ident % 4096 + e.port % 2 * 2 ^ 12 + e.kind % 4 * 2 ^ 13 + (e.qns % 4).toNat * 2 ^ 15 + flags + 2 ^ 22

/-- The RT of the oldest timestamp, and its KEY. -/
def State.tsqTime (s : State) : Nat := match s.tim.tsq with
  | [] => 0
  | e :: _ => twos 64 (e.qns / 4)
def State.tsqKey (s : State) : Nat := match s.tim.tsq with
  | [] => 0
  | e :: _ => e.key % 2 ^ 16

/-- DEC_STATUS. -/
def State.decStatus (s : State) : Nat :=
  let waits := (s.dec.jobs.filter fun j => match j.st with
    | .waiting _ => true
    | _ => false).length
  b2n s.cfgOk + 2 * b2n s.dec.jobs.isEmpty + 4 * b2n s.dec.repair.isSome + min 255 waits * 2 ^ 8 +
    s.rd F.DEC_STATUS_LAST_IGNORE * 2 ^ 16

/-- DEC_POOL_NEED, from the values last written, SLOTS outside 8 to 16 counting as 8. -/
def State.poolNeed (s : State) : Nat :=
  let n := s.rd F.DEC_SLOT_CFG_SLOTS
  s.rd F.DEC_SLOT_CFG_ANCHORS * (if 8 ≤ n ∧ n ≤ 16 then n else 8) * s.rd F.DEC_SLOT_CFG_STRIDE

/-- The geometry of the shadow. -/
def State.geoShadow (s : State) : Geo := geoOf s.word

/-- SCN_LINE_PS (R212); with no line or no frame in the shadow no rule gives it. -/
def State.linePs (s : State) : Nat :=
  let g := s.geoShadow
  if g.pd * g.lt = 0 then Config.openValue 0xD0034 g.pn else g.pn * 1000 / (g.pd * g.lt)

/-- CMP_Ln_FETCH_NEED (R196); a reserved format or a destination without lines leaves it open. -/
def State.fetchNeed (s : State) (n : Nat) : Nat :=
  let p := planeOf s.word n
  if !p.enable then 0
  else if p.format ≤ 3 ∧ 0 < p.dh then p.fetchLoad s.geoShadow.gv
  else Config.openValue (0xC012C + 0x40 * n) p.sw

/-- ENC_STATUS: open sessions and busy cores. -/
def State.encStatus (s : State) : Nat :=
  ((List.range 16).map fun n => b2n (s.enc.sess.any fun x => x.num == n) * 2 ^ n).sum +
    ((List.range 4).map fun c => b2n (s.enc.cores.any fun x => x.1 == c) * 2 ^ (16 + c)).sum

/-- ENC_KEY_REQ. -/
def State.keyReqs (s : State) : Nat :=
  ((List.range 16).map fun n => b2n (s.enc.sess.any fun x => x.num == n && x.keyReg) * 2 ^ n).sum

/-- ENC_Sn_WPTR and ENC_Sn_INFO; a session that is not open shows 0. -/
def State.encPtr (s : State) (n : Nat) : Nat := match s.enc.sess.find? fun x => x.num == n with
  | some x => x.wptr
  | none => 0
def State.encInfo (s : State) (n : Nat) : Nat := match s.enc.sess.find? fun x => x.num == n with
  | some x => x.q % 64 + x.ring % 64 * 2 ^ 8 + min 0xFFFF (x.sinceKey - 1) * 2 ^ 16
  | none => 0

/-- Fields of a lane's control register that its direction does not have read 0 (Table 9-10). -/
def laneCtrlMask (n v : Nat) : Nat :=
  (if laneTx n then bits v 0 1 else 0) + (if laneRx n then bits v 1 2 * 2 else 0)

/-- LNK_Ln_STATUS: PRECODE as the transmitter has it by now (R261). -/
def State.laneStatus (s : State) (n : Nat) : Nat := setBits (s.word (0xF1004 + 0x40 * n)).toNat 5 1 (b2n (s.txNow n).pre)

/-- What the register at `off` holds: the stored word, or what its block shows. -/
def State.regNow (s : State) (off : Nat) : Nat :=
  if off = 0x10010 then s.featOffer
  else if off = 0x20080 then s.evtSummary
  else if off = 0x60004 then setBits (s.word off).toNat 1 1 (b2n s.nvs.flashOp.isSome)
  else if off = 0x70084 then s.tsqInfo
  else if off = 0x70088 then s.tsqTime
  else if off = 0x7008C then s.tsqTime / 2 ^ 32
  else if off = 0x70090 then s.tsqKey
  else if off = 0x90004 then b2n s.initBusy + 2 * b2n s.scrubPaused
  else if off = 0xA0004 then s.decStatus
  else if off = 0xA0014 then s.poolNeed
  else if off = 0xB0010 then s.geoShadow.swathNeed
  else if off = 0xB0034 then
    min s.syn.west.fill s.syn.east.fill % 2 ^ 8 + s.level % 4 * 2 ^ 8 + s.geo.capRows * 2 ^ 16 + s.rd F.SYN_STATUS_N_D * 2 ^ 24
  else if off = 0xD0030 then s.geoShadow.lt % 2 ^ 12 + s.geo.lt % 2 ^ 12 * 2 ^ 16
  else if off = 0xD0034 then s.linePs
  else if off = 0xD0040 then s.geo.rows
  else if off = 0xD0044 then if s.scn.decided then s.scn.next + 1 else s.scn.next
  else if off = 0x100004 then s.encStatus
  else if off = 0x100008 then s.keyReqs
  else if 0xC0140 ≤ off ∧ off < 0xC0300 ∧ off % 0x40 = 0x2C then s.fetchNeed ((off - 0xC0100) / 0x40)
  else if 0x100100 ≤ off ∧ off < 0x100200 ∧ off % 16 = 0 then s.encPtr ((off - 0x100100) / 16)
  else if 0x100100 ≤ off ∧ off < 0x100200 ∧ off % 16 = 4 then s.encInfo ((off - 0x100100) / 16)
  else if 0xF1000 ≤ off ∧ off < 0xF2A00 ∧ off % 0x40 = 0 then laneCtrlMask ((off - 0xF1000) / 0x40) (s.word off).toNat
  else if 0xF1000 ≤ off ∧ off < 0xF2A00 ∧ off % 0x40 = 4 then s.laneStatus ((off - 0xF1000) / 0x40)
  else (s.word off).toNat

/-- The registers that read their current values before READY (R455), and HIF_FEAT_OFFER0, whose reset value is the offer of
Table 2-12. -/
def readsEarly (off : Nat) : Bool := off == 0x10004 || off == 0x10 || off == 0x14 || off == 0x10010

/-- A BAR0 read (R6, R455, R466). -/
def State.readReg (s : State) (off : Nat) : Word :=
  if cxlOffset off then s.readCxl off
  else if s.ready || readsEarly off then BitVec.ofNat 32 (s.regNow off) else resetWord off

/-- The registers whose name ends in `_LO`; the partner follows at the next word (Tables 20-2 to 20-19). -/
def isLo (off : Nat) : Bool :=
  [0x10030, 0x10038, 0x10040, 0x40008, 0x40010, 0x70008, 0x70018, 0x70030, 0x70038, 0x70044, 0x70050, 0x70058, 0x70088, 0x90020,
    0xA0008, 0xA0018, 0xC0010, 0xD0014].contains off ||
    ((decide (0x70100 ≤ off) && decide (off < 0x70200)) && off % 32 == 8) ||
    ((decide (0xC0140 ≤ off) && decide (off < 0xC0300)) && (off % 64 == 4 || off % 64 == 0x20))

/-- A read with its capture (R459): a `_LO` register captures its partner; the next read of a captured `_HI` returns the captured
value. -/
def State.readCapture (s : State) (off : Nat) : State :=
  let b := off / 0x10000
  if isLo off then
    State.emit { s with hif := { s.hif with
      hiCap := (b, off + 4, s.readReg (off + 4)) :: s.hif.hiCap.filter fun c => c.1 != b } } (.regData (s.readReg off))
  else match s.hif.hiCap.find? fun c => c.1 == b && c.2.1 == off with
    | some c => State.emit { s with hif := { s.hif with hiCap := s.hif.hiCap.filter fun c => c.1 != b } } (.regData c.2.2)
    | none => s.emit (.regData (s.readReg off))

/-- LO_REGISTER_READ (R459): a register read. -/
def execLoRegisterRead (off : Nat) (s : State) : Host.Outcome State Fault Refusal :=
  .next (if s.awake && off % 4 == 0 && decide (off < 0x1000000) then s.readCapture off else s)

end Sys2Proof.Machine
end

