-- ==== Sys2Proof/Machine/RegWrite.lean ====
section
/-!
DEFINITION. BAR0 writes: the fields by their access types (Table 0-5), and what a write triggers. A register that has a row of its
own acts through the same operation as that row.
-/
namespace Sys2Proof.Machine

/-- One field of a register takes a write (Table 0-5): `w` is the word so far, `v` the written value. -/
def writeField (locked : Bool) (v w : Nat) (f : Nat × Nat × Acc) : Nat :=
  let old := bits w f.1 f.2.1
  let new := bits v f.1 f.2.1
  match f.2.2 with
  | .ro => w
  | .wo => w
  | .rw => setBits w f.1 f.2.1 new
  | .sh => setBits w f.1 f.2.1 new
  | .rwl => if locked then w else setBits w f.1 f.2.1 new
  | .w1c => setBits w f.1 f.2.1 (old - (old &&& new))
  | .w1s => setBits w f.1 f.2.1 (old ||| new)

/-- A register takes a write; an offset that no register has ignores it (R466). The accepted features are locked by FEATURES_OK and
while ring 0 runs (R62). -/
def State.storeFields (s : State) (off : Nat) (val : Word) : State :=
  match regFind off with
  | none => s
  | some d => s.setWord off (BitVec.ofNat 32
      (d.fields.foldl (writeField (s.rdB F.HIF_CTRL_FEATURES_OK || s.rdB F.HIF_STATUS_RUNNING) val.toNat) (s.word off).toNat))

/-- Do `f` when bit `i` of the written value is 1. -/
def State.onBit (s : State) (val : Word) (i : Nat) (f : State → State) : State := if bitAt val.toNat i then f s else s

/-- HIF_CTRL: RESET, else ENABLE with the FEATURES_OK bit of the same write, else FEATURES_OK (R62, R68, R69). A doorbell line of
ring 0 is left to be read by DOORBELL_REREAD. -/
def State.writeHifCtrl (s : State) (val : Word) : State :=
  if bitAt val.toNat 31 then s.functionReset
  else if bitAt val.toNat 0 then
    if s.rdB F.HIF_STATUS_RUNNING then s
    else (s.enableRing0 (bitAt val.toNat 1) 0 0).releaseLines fun c => c != Cls.ADMIN
  else if bitAt val.toNat 1 then s.setFeaturesOk
  else if s.rdB F.HIF_STATUS_RUNNING then s else s.wrB F.HIF_CTRL_FEATURES_OK false

def State.writeHif (s : State) (off : Nat) (val : Word) : State :=
  if off = 0x10000 then s.writeHifCtrl val
  else if 0x10030 ≤ off ∧ off ≤ 0x10048 ∧ s.rdB F.HIF_STATUS_RUNNING = true then s
  else if off = 0x10050 then
    if bitAt val.toNat 31 then s.startHifAbort (bits val.toNat 0 6) (bitAt val.toNat 8) else s.storeFields off val
  else if 0x11000 ≤ off ∧ off < 0x11200 then
    if off % 8 = 0 then s.writeDbSq ((off - 0x11000) / 8) val else s.writeDbCq ((off - 0x11000) / 8) val
  else s.storeFields off val

def State.writeEvt (s : State) (off : Nat) (val : Word) : State :=
  if 0x20040 ≤ off ∧ off < 0x20080 then s.writeEvtEnable ((off - 0x20040) / 4) val
  else if off = 0x20088 then (s.storeFields off val).onBit val 31 fun s => s.raise (bits val.toNat 0 9)
  else s.storeFields off val

/-- PWR_CTRL: setting PFAIL_IN_EN while another device holds PFAIL_N low begins a warning (R400). -/
def State.writePwr (s : State) (off : Nat) (val : Word) : State :=
  if off = 0x30000 then
    let s := (s.storeFields off val).onBit val 31 fun s => s.clearCounters 0x30010 2
    if s.rdB F.PWR_CTRL_PFAIL_IN_EN && !s.rdB F.PWR_STATUS_PFAIL_PIN && !s.warned then s.warn false else s
  else s.storeFields off val

/-- THM_CTRL: a write that breaks the order of the thresholds leaves both (chapter 17). -/
def State.writeThm (s : State) (off : Nat) (val : Word) : State :=
  if off = 0x40000 then
    let thr := bits val.toNat 0 8
    let crit := bits val.toNat 8 8
    let s := if 70 ≤ thr ∧ thr ≤ 104 ∧ thr < crit ∧ crit < s.rd F.THM_CTRL_SHUT then s.storeFields off val else s
    s.onBit val 31 fun s => s.clearCounters 0x40020 3
  else s.storeFields off val

/-- CAL: staging registers take writes only while nothing runs or waits (R427). -/
def State.writeCal (s : State) (off : Nat) (val : Word) : State :=
  if off = 0x50000 then
    (((s.storeFields off val).onBit val 1 (fun s => s.calRequest true)).onBit val 2 State.stage).onBit val 31 fun s => s.clearCounters 0x50020 2
  else if 0x50100 ≤ off ∧ off ≤ 0x50154 then
    if s.rdB F.CAL_STATUS_BUSY || s.rdB F.CAL_STATUS_APPLY_PENDING then s.wrB F.CAL_STATUS_WR_IGNORED true
    else s.storeFields off val
  else s.storeFields off val

def State.writeNvs (s : State) (off : Nat) (val : Word) : State :=
  if off = 0x60000 then (s.onBit val 0 State.svnCommit).onBit val 31 fun s => s.clearCounters 0x60020 4
  else s.storeFields off val

/-- A timed output's control register: DISARM, else ARM, else its settings (R377, R379). -/
def State.writeTev (s : State) (n : Nat) (val : Word) : State :=
  if bitAt val.toNat 5 then (s.setTevCtrl n val.toNat).disarm n
  else if bitAt val.toNat 4 then s.arm n val.toNat else s.setTevCtrl n val.toNat

def State.writeTim (s : State) (off : Nat) (val : Word) : State :=
  if off = 0x70000 then ((s.storeFields off val).writeTimCtrl).onBit val 31 State.snapTime
  else if off = 0x70008 ∨ off = 0x7000C ∨ off = 0x70010 then
    if s.role = 2 then s
    else if off = 0x7000C then s.writeOffsetHi val.toNat
    else if off = 0x70010 then s.setTimeRate val.toNat
    else s.writeOffsetLo val.toNat
  else if off = 0x70070 then (s.storeFields off val).idleFstrobe
  else if off = 0x7001C then s.writeIncHi val.toNat
  else if off = 0x70020 then s.writeDcAdj val.toNat
  else if off = 0x70054 then s.writePpsSec val.toNat
  else if off = 0x70084 then (s.storeFields off val).onBit val 31 State.tsqPop
  else if 0x70100 ≤ off ∧ off < 0x70200 ∧ off % 32 = 0 then s.writeTev ((off - 0x70100) / 32) val
  else s.storeFields off val

def State.writeRope (s : State) (off : Nat) (val : Word) : State :=
  if off = 0x80000 then
    ((((s.onBit val 0 State.startLeave).onBit val 1 State.join).onBit val 2 fun s => s.retrainPort .up).onBit val 3
      fun s => s.retrainPort .dn).onBit val 31 fun s => s.clearCounters 0x80040 4
  else if off = 0x80004 then
    let t := s.storeFields off val
    if t.ownVersions = s.ownVersions then t else t.helloChanged
  else if off = 0x80020 then (s.storeFields off val).onBit val 31 State.swAlarm
  else s.storeFields off val

def State.writeMem (s : State) (off : Nat) (val : Word) : State :=
  if off = 0x90000 then (s.storeFields off val).onBit val 31 fun s => s.clearCounters 0x90040 5
  else if off = 0x90008 then s.writeAffine val
  else s.storeFields off val

def State.writeDec (s : State) (off : Nat) (val : Word) : State :=
  if off = 0xA0000 then (s.storeFields off val).onBit val 8 fun s => s.clearCounters 0xA0040 9
  else s.storeFields off val

/-- SYN: a new MIN_LEVEL takes effect at once (R167). -/
def State.writeSyn (s : State) (off : Nat) (val : Word) : State :=
  if off = 0xB0020 then (s.storeFields off val).onBit val 31 fun s => (s.clearCounters 0xB0040 7).setWord 0xB0060 0
  else if off = 0xB002C then ((s.storeFields off val).applyFloor .west).applyFloor .east
  else s.storeFields off val

def State.writeCmp (s : State) (off : Nat) (val : Word) : State :=
  if off = 0xC0000 then (s.storeFields off val).onBit val 31 fun s => s.clearCounters 0xC0020 3
  else if off = 0xC0018 then s.writeRetireCfg (bitAt val.toNat 0) (bits val.toNat 4 4)
  else s.storeFields off val

def State.writeScn (s : State) (off : Nat) (val : Word) : State :=
  if off = 0xD0000 then (s.storeFields off val).onBit val 31 fun s => s.clearCounters 0xD0050 4
  else s.storeFields off val

def State.writePnl (s : State) (off : Nat) (val : Word) : State :=
  if off = 0xE0000 then (s.storeFields off val).onBit val 31 fun s => s.clearCounters 0xE0020 4
  else if off = 0xE000C then s.writeRetrain val
  else if off = 0xE0180 then s.writePmb val
  else s.storeFields off val

/-- LNK: a lane's controls act one by one. -/
def State.writeLnk (s : State) (off : Nat) (val : Word) : State :=
  if off = 0xF0000 then s.onBit val 31 fun s => (List.range 104).foldl (fun s n => s.clearCounters (0xF1020 + 0x40 * n) 6) s
  else if 0xF1000 ≤ off ∧ off < 0xF2A00 ∧ off % 0x40 = 0 then
    let n := (off - 0xF1000) / 0x40
    ((s.setPrbsGen n (bitAt val.toNat 0)).setPrbsChk n (bitAt val.toNat 1)).writeAdaptHold n (bitAt val.toNat 2)
  else s.storeFields off val

def State.writeEnc (s : State) (off : Nat) (val : Word) : State :=
  if off = 0x100000 then s.onBit val 31 fun s => s.clearCounters 0x100040 4
  else if off = 0x100008 then s.encKeyReq val.toNat
  else s.storeFields off val

def State.writeBlt (s : State) (off : Nat) (val : Word) : State :=
  if off = 0x110000 then s.onBit val 31 fun s => s.clearCounters 0x110040 3
  else s.storeFields off val

/-- One BAR0 write, by block (Table 20-1). -/
def State.writeReg (s : State) (off : Nat) (val : Word) : State :=
  match off / 0x10000 with
  | 1 => s.writeHif off val
  | 2 => s.writeEvt off val
  | 3 => s.writePwr off val
  | 4 => s.writeThm off val
  | 5 => s.writeCal off val
  | 6 => s.writeNvs off val
  | 7 => s.writeTim off val
  | 8 => s.writeRope off val
  | 9 => s.writeMem off val
  | 10 => s.writeDec off val
  | 11 => s.writeSyn off val
  | 12 => s.writeCmp off val
  | 13 => s.writeScn off val
  | 14 => s.writePnl off val
  | 15 => s.writeLnk off val
  | 16 => s.writeEnc off val
  | 17 => s.writeBlt off val
  | _ => s.storeFields off val

/-- REGISTER_WRITE (R6). -/
def execRegisterWrite (off : Nat) (val : Word) (s : State) : Host.Outcome State Fault Refusal :=
  .next (if !s.bar0Open || off % 4 != 0 then s else if cxlOffset off then s.writeCxl off val else s.writeReg off val)

end Sys2Proof.Machine
end

