-- ==== Sys2Proof/Machine/Boot.lean ====
section
/-!
DEFINITION. Cold boot (chapter 19, Table 19-1) with what it reads from flash and logbook (chapter 18), and the commands that
start one.
-/
namespace Sys2Proof.Machine

/-! ## Flash and logbook at boot -/

/-- The first mode of R430's list that SFDP declares, as NVS_STATUS.MODE shows it. -/
def flashMode (m : Bool × Bool) : Nat := if m.1 then 2 else if m.2 then 1 else 0

/-- What SFDP says of the flash (R430). -/
def State.bootFlash (s : State) (b : BootIn) : State :=
  let s := s.modNvs fun n => { n with capMiB := b.capMiB }
  match b.sfdp with
  | some m => ((s.wrB F.NVS_STATUS_SFDP_OK true).wr F.NVS_STATUS_MODE (flashMode m)).wr F.NVS_FLASH_SIZE_MIB b.capMiB
  | none => s

/-- SVN_MIN from its two groups: the greater of those that read correctly, none when both are uncorrectable (R436). -/
def State.svnMin (s : State) : Option Nat :=
  let v := fun (g : Nat) => if s.nvs.badGroups.contains g then none else some (s.lifetime (8 * g) % 2 ^ 32)
  match v 8, v 9 with
  | some a, some b => some (max a b)
  | some a, none => some a
  | none, some b => some b
  | none, none => none

/-- The image at a flash offset is accepted (R434); the answer to whether its SIGNATURE verifies is given. -/
def State.imageOk (s : State) (base min : Nat) (sig : Bool) : Bool :=
  let h := s.flashBytes base 16
  leAt h 0 4 == 0x57464B4A && decide (1 ≤ leAt h 12 4) && decide (leAt h 12 4 ≤ 8388480) && sig && decide (min ≤ leAt h 4 4)

/-- The image that boots: 0 A, 1 B, none in recovery (R435, R436). -/
def State.pickImage (s : State) (b : BootIn) : Option Nat :=
  match s.svnMin with
  | none => none
  | some m => if s.imageOk 0 m b.sigA then some 0 else if s.imageOk 0x800000 m b.sigB then some 1 else none

/-- NVS_SVN_MIN, and what the running image shows, or RECOVERY (R435). -/
def State.showImage (s : State) (img : Option Nat) : State :=
  let s := match s.svnMin with
    | some m => s.wr F.NVS_SVN_MIN_SVN m
    | none => s
  match img with
  | none => s.wrB F.NVS_STATUS_RECOVERY true
  | some k =>
    let h := s.flashBytes (0x800000 * k) 16
    ((s.wr F.NVS_STATUS_BOOT_IMAGE k).wr F.NVS_SVN_RUN_SVN (leAt h 4 4)).wr F.GLB_FW_VERSION_VERSION (leAt h 8 4)

/-- The calibration snapshot, when it is valid (R440). -/
def State.snapshot (s : State) : Option (List Word) :=
  match s.recordBody 0x1030000 magicSnap with
  | none => none
  | some body =>
    let ws : List Word := (List.range 22).map fun i => BitVec.ofNat 32 (leAt body (4 * i) 4)
    if body.length = 88 ∧ resultsOk ws = true then some ws else none

/-- The snapshot comes into force (R428). -/
def State.takeSnapshot (s : State) : State :=
  match s.snapshot with
  | none => s
  | some ws =>
    let s : State := ws.zipIdx.foldl (fun s c => s.setWord (0x50200 + 4 * c.2) c.1) s
    ((s.wr F.CAL_STATUS_SOURCE 0).wrB F.NVS_STATUS_SNAP_VALID true).wr F.TIM_LAT_PS_LAT (s.rd F.CAL_ACT_LAT_LAT_PS)

/-! ## Settings -/

/-- The fields of a register that an entry may set (R438). -/
def entryFields (off : Nat) : List (Nat × Nat × Acc) :=
  match regFind off with
  | some d => d.fields.filter fun f => f.2.2 == .rw || f.2.2 == .rwl || f.2.2 == .sh
  | none => []

/-- One entry of a record (R438): its fields as a BAR0 write sets them, SH fields in force as well. -/
def State.applyEntry (s : State) (pnlOnly : Bool) (off val : Nat) : State :=
  let fs := entryFields off
  if fs.isEmpty || (pnlOnly && off / 0x10000 != 0xE) then s.bump (F.NVS_CNT_COUNT 3)
  else
    let v := fs.foldl (fun w f => setBits w f.1 f.2.1 (bits val f.1 f.2.1)) 0
    let s := s.writeReg off (BitVec.ofNat 32 v)
    if (shFields off).isEmpty then s
    else s.setLive off (BitVec.ofNat 32
      ((shFields off).foldl (fun w f => setBits w f.1 f.2 (bits val f.1 f.2)) (s.liveWord off).toNat))

/-- The entries of a body in list order. -/
def State.applyBody (s : State) (pnlOnly : Bool) (body : List Byte) : State :=
  (List.range (body.length / 8)).foldl (fun s i => s.applyEntry pnlOnly (leAt body (8 * i) 4) (leAt body (8 * i + 4) 4)) s

/-- Table 18-4: the copy used, and whether both are valid with the same generation and different contents. -/
def State.pickCopy (s : State) : Option Nat × Bool :=
  match s.recordBody (settingsAt 0) magicSettings, s.recordBody (settingsAt 1) magicSettings with
  | none, none => (none, false)
  | some _, none => (some 0, false)
  | none, some _ => (some 1, false)
  | some a, some b =>
    let d := serialDist 32 (s.recordGen (settingsAt 1)) (s.recordGen (settingsAt 0))
    if 0 < d then (some 1, false) else (some 0, d == 0 && a != b)

/-- The profile's entries (R438). -/
def State.applyProfile (s : State) : State :=
  match s.recordBody 0x1020000 magicProfile with
  | none => s
  | some body => (s.wrB F.NVS_STATUS_PROFILE_VALID true).applyBody true body

/-- The settings copy in use, with its generation and events (R441). -/
def State.applySettings (s : State) : State :=
  match s.pickCopy with
  | (none, _) => s.raise Ev.NVS_SETTINGS_INVALID
  | (some c, clash) =>
    let s := (s.wr F.NVS_STATUS_SET_SOURCE c).wr F.NVS_SET_GEN_GEN (s.recordGen (settingsAt c))
    let s := if clash then (s.wrB F.NVS_STATUS_SET_CONFLICT true).raise Ev.NVS_SETTINGS_CONFLICT else s
    match s.recordBody (settingsAt c) magicSettings with
    | some body => s.applyBody false body
    | none => s

/-- Every SH field returns to its reset value (R439). -/
def State.resetShadow (s : State) : State :=
  let s : State := (shOnly s.regs).foldl (fun s c =>
    s.setWord c.1 (BitVec.ofNat 32
      ((shFields c.1).foldl (fun w f => setBits w f.1 f.2 (bits (resetWord c.1).toNat f.1 f.2)) c.2.toNat))) s
  { s with live := [] }

/-- The shadowed state is validated as a COMMIT is (R439). -/
def State.validateSettings (s : State) : State :=
  match firstFailed (s.commitChecks s.word) with
  | none => s
  | some _ => (s.recordReject s.word).resetShadow.wrB F.NVS_STATUS_SET_REJECT true

/-- The reference outputs are driven with the codes in force (Table 19-1, R250). -/
def State.drivesPref (s : State) : State := (s.modPnl fun p => { p with prefOn := true }).applyPref

/-- What the firmware does before READY (Table 19-1): settings, reference outputs, decoder settings, rope ports. -/
def State.firmware (s : State) : State :=
  let s := s.applyProfile.applySettings.validateSettings.takeDecSettings
  s.drivesPref.settlePorts.releaseRope

/-! ## The boot -/

/-- Step 3: the hub runs, the time unit from 0, every filter at its first reading (R360, R410, R411); a strapped tile is head from
the start (R353). -/
def State.hubStart (s : State) (cause : Fld) (b : BootIn) : State :=
  let s := ((s.powerDown .s0).setWord 0x10 0).wrB cause true
  let s := ((s.wrB F.ROPE_STATUS_STRAPPED b.headN).wrB F.TIM_STATUS_TREF_OK b.tref).settleRef
  let s := if b.headN then s.becomeHead else s.settleRole
  (s.sensorRead b.sensors).hotCount b.sensors |>.1

/-- The newest cairn record is later than LAST_SEEN (R449). -/
def State.cairnFound (s : State) : State :=
  let newest := (s.nvs.cairnSeq + 2 ^ 32 - 1) % 2 ^ 32
  if serialLater 32 newest (s.lifetime 0xA0 % 2 ^ 32) then (s.raise Ev.NVS_CAIRN_FOUND).setLifetime 0xA0 newest else s

/-- Step 5 ends; a power-up counts in the logbook (R445, Table 18-7). SVN_MIN's groups have been read before. -/
def State.bootRecall (s : State) (power : Bool) (b : BootIn) : State :=
  let s := (s.recallEnd (b.errs.filter fun e => e.group != 8 && e.group != 9)).cairnFound
  if power then s.bumpLifetime 0x80 else s

/-- The boot calibration (R423). -/
def State.bootCal (s : State) (b : BootIn) : State := s.calStart.calEnd b.refOk b.pref b.adc b.lat

/-- READY, and the fallback's event after it (R435, R451). -/
def State.bootReady (s : State) (img : Option Nat) (b : BootIn) : State :=
  let s := (s.wrB F.HIF_STATUS_READY true).wr F.GLB_BOOT_STATUS_READY_T b.readyT
  if img = some 1 then s.raise Ev.NVS_BOOT_FALLBACK else s

/-- A boot that stops (R456): READY stays 0. -/
def State.bootStop (s : State) (b : BootIn) : State :=
  (s.wr F.GLB_BOOT_STATUS_FAIL_STEP (if b.logbook then 6 else 5)).wr F.GLB_BOOT_STATUS_STACK_FAIL b.hbmFail

/-- Steps 4 to 9. -/
def State.bootSteps (s : State) (power : Bool) (b : BootIn) : State :=
  let s := (s.bootFlash b).logErrors b.errs [8, 9]
  let img := s.pickImage b
  let s := ((s.showImage img).takeSnapshot.clearHbm).bootRecall power b
  let s := if img = some 1 then s.bumpLifetime 0x88 else s
  let s := if img.isSome then s.firmware else s.drivesPref
  (s.bootCal b).bootReady img b

/-- A cold boot from one of its causes; rails that fail leave the module off (R398). -/
def State.boot (s : State) (cause : Fld) (power : Bool) (b : BootIn) : State :=
  if !b.rails then (s.powerDown .off).modPwr fun p => { p with railFails := s.pwr.railFails + 1 }
  else if !b.logbook || b.hbmFail % 16 != 0 then
    let s := (s.hubStart cause b).bootFlash b
    (if b.logbook then s.bootRecall power b else s).bootStop b
  else (s.hubStart cause b).bootSteps power b

/-- A boot from S4, a transition of Table 16-4: PWR_STATE follows READY (R404). -/
def State.bootS4 (s : State) (b : BootIn) : State :=
  let s := s.boot F.GLB_RESET_CAUSE_PERST false b
  if s.ready then s.raise Ev.PWR_STATE else s

/-- UVLO_RISE (R397): a module that was not left off by R398 or R399. -/
def execUvloRise (b : BootIn) (s : State) : Host.Outcome State Fault Refusal :=
  .next (if s.pwr.st == .off && s.pwr.railFails == 0 && !s.pwr.railBad && !s.pwr.overVolt then s.boot F.GLB_RESET_CAUSE_POWER_UP true b
    else s)

/-- OVERVOLTAGE_RECOVERY (R399): the rails restart under R398, not after three failed attempts, nor out of thermal shutdown
(R403). -/
def execOvervoltageRecovery (b : BootIn) (s : State) : Host.Outcome State Fault Refusal :=
  .next (if !s.pwr.overVolt then s
    else
      let s := s.modPwr fun p => { p with overVolt := false }
      if s.pwr.st == .off && decide (s.pwr.railFails < 3) then s.boot F.GLB_RESET_CAUSE_POWER_UP true b else s)

/-- RAIL_RETRY (R398): after a failed sequence, at most three in all, or after a rail fault in operation. -/
def execRailRetry (b : BootIn) (s : State) : Host.Outcome State Fault Refusal :=
  .next (if s.pwr.st == .off && !s.pwr.overVolt && ((decide (0 < s.pwr.railFails) && decide (s.pwr.railFails < 3)) || s.pwr.railBad) then
      s.boot F.GLB_RESET_CAUSE_RAIL_RETRY true b
    else s)

/-- PERST_N_DEASSERT: from S4 the module boots (R404). -/
def execPerstNDeassert (b : BootIn) (s : State) : Host.Outcome State Fault Refusal :=
  let t := s.modPwr fun p => { p with perst := false }
  .next (if s.pwr.st == .s4 then t.bootS4 b else t)

/-- WAKE_N: from S4, or from thermal shutdown once sensor 32 has cooled, while PERST_N is deasserted (R404, R422). -/
def execWakeN (fresh : Bool) (b : BootIn) (s : State) : Host.Outcome State Fault Refusal :=
  .next (if s.pwr.perst then s
    else if s.pwr.st == .s4 then s.bootS4 b
    else if s.pwr.st == .thermal && !s.pwr.overVolt && s.thm.cool && fresh then s.boot F.GLB_RESET_CAUSE_THERM_EXIT false b
    else s)

end Sys2Proof.Machine
end

