-- ==== Sys2Proof/Machine/Dispatch.lean ====
section
/-!
DEFINITION. One arm per command: what each command does to everything but the queue.
-/
namespace Sys2Proof.Machine

def exec (i : Instr) (s : State) : Host.Outcome State Fault Refusal :=
  match i with
  | .registerWrite off val => Sys2Proof.Machine.execRegisterWrite off val s
  | .bar0UnsupportedAccess off size write => Sys2Proof.Machine.execBar0UnsupportedAccess off size write s
  | .linkUp cxl width gts => Sys2Proof.Machine.execLinkUp cxl width gts s
  | .hifCxlRas => Sys2Proof.Machine.execHifCxlRas s
  | .hotReset => Sys2Proof.Machine.execHotReset s
  | .cxlMemRead addr lines upsets => Sys2Proof.Machine.execCxlMemRead addr lines upsets s
  | .cxlMemWrite addr data => Sys2Proof.Machine.execCxlMemWrite addr data s
  | .featuresOk => Sys2Proof.Machine.execFeaturesOk s
  | .enable features pi ci => Sys2Proof.Machine.execEnable features pi ci s
  | .functionReset => Sys2Proof.Machine.execFunctionReset s
  | .functionLevelReset => Sys2Proof.Machine.execFunctionLevelReset s
  | .functionResetDone => Sys2Proof.Machine.execFunctionResetDone s
  | .hifAbort ring all => Sys2Proof.Machine.execHifAbort ring all s
  | .abortPoint ring pi ci => Sys2Proof.Machine.execAbortPoint ring pi ci s
  | .doorbellSnoop ring => Sys2Proof.Machine.execDoorbellSnoop ring s
  | .doorbellReread ring pi ci => Sys2Proof.Machine.execDoorbellReread ring pi ci s
  | .hifDbSq ring val => Sys2Proof.Machine.execHifDbSq ring val s
  | .hifDbCq ring val => Sys2Proof.Machine.execHifDbCq ring val s
  | .descriptorFetch ring bytes => Sys2Proof.Machine.execDescriptorFetch ring bytes s
  | .descriptorRetire ring => Sys2Proof.Machine.execDescriptorRetire ring s
  | .completionWrite ring => Sys2Proof.Machine.execCompletionWrite ring s
  | .coalesceTimerExpiry ring => Sys2Proof.Machine.execCoalesceTimerExpiry ring s
  | .createRing ring pi ci => Sys2Proof.Machine.execCreateRing ring pi ci s
  | .deleteRing ring => Sys2Proof.Machine.execDeleteRing ring s
  | .queueAbort ring => Sys2Proof.Machine.execQueueAbort ring s
  | .setPowerS0 ring => Sys2Proof.Machine.execSetPowerS0 ring s
  | .setPowerS1 ring => Sys2Proof.Machine.execSetPowerS1 ring s
  | .setPowerS2 ring => Sys2Proof.Machine.execSetPowerS2 ring s
  | .nop ring => Sys2Proof.Machine.execNop ring s
  | .evtRing ring => Sys2Proof.Machine.execEvtRing ring s
  | .streamPush ring data => Sys2Proof.Machine.execStreamPush ring data s
  | .streamReset ring => Sys2Proof.Machine.execStreamReset ring s
  | .streamResetTakesEffect => Sys2Proof.Machine.execStreamResetTakesEffect s
  | .loopPlay ring => Sys2Proof.Machine.execLoopPlay ring s
  | .present ring => Sys2Proof.Machine.execPresent ring s
  | .shadowWrite ring => Sys2Proof.Machine.execShadowWrite ring s
  | .commit ring => Sys2Proof.Machine.execCommit ring s
  | .commitArrive => Sys2Proof.Machine.execCommitArrive s
  | .bltRun ring => Sys2Proof.Machine.execBltRun ring s
  | .mbox ring req => Sys2Proof.Machine.execMbox ring req s
  | .send ring req => Sys2Proof.Machine.execSend ring req s
  | .recv ring req => Sys2Proof.Machine.execRecv ring req s
  | .logRead ring errs => Sys2Proof.Machine.execLogRead ring errs s
  | .logWrite ring data run => Sys2Proof.Machine.execLogWrite ring data run s
  | .flashRead ring => Sys2Proof.Machine.execFlashRead ring s
  | .flashWrite ring data run => Sys2Proof.Machine.execFlashWrite ring data run s
  | .settingsWrite ring data run => Sys2Proof.Machine.execSettingsWrite ring data run s
  | .encOpen ring param => Sys2Proof.Machine.execEncOpen ring param s
  | .encPut ring table => Sys2Proof.Machine.execEncPut ring table s
  | .encKey ring => Sys2Proof.Machine.execEncKey ring s
  | .encClose ring => Sys2Proof.Machine.execEncClose ring s
  | .encKeyReq val => Sys2Proof.Machine.execEncKeyReq val s
  | .encAuStart ring => Sys2Proof.Machine.execEncAuStart ring s
  | .encPictureStart tex dep => Sys2Proof.Machine.execEncPictureStart tex dep s
  | .encAuDone ring => Sys2Proof.Machine.execEncAuDone ring s
  | .seqParcel => Sys2Proof.Machine.execSeqParcel s
  | .gridParcel => Sys2Proof.Machine.execGridParcel s
  | .auParcel => Sys2Proof.Machine.execAuParcel s
  | .viewpicParcel => Sys2Proof.Machine.execViewpicParcel s
  | .sliceParcel => Sys2Proof.Machine.execSliceParcel s
  | .depthParcel => Sys2Proof.Machine.execDepthParcel s
  | .padParcel => Sys2Proof.Machine.execPadParcel s
  | .endParcel => Sys2Proof.Machine.execEndParcel s
  | .extensionParcel => Sys2Proof.Machine.execExtensionParcel s
  | .invalidTypeParcel => Sys2Proof.Machine.execInvalidTypeParcel s
  | .crcFailedParcel => Sys2Proof.Machine.execCrcFailedParcel s
  | .sliceDispatch => Sys2Proof.Machine.execSliceDispatch s
  | .sliceResume => Sys2Proof.Machine.execSliceResume s
  | .sbrowFinal n => Sys2Proof.Machine.execSbrowFinal n s
  | .decWatchdog lane => Sys2Proof.Machine.execDecWatchdog lane s
  | .concealCopy n => Sys2Proof.Machine.execConcealCopy n s
  | .lateWindowClose => Sys2Proof.Machine.execLateWindowClose s
  | .decCntClear => Sys2Proof.Machine.execDecCntClear s
  | .lineStart => Sys2Proof.Machine.execLineStart s
  | .frameStart => Sys2Proof.Machine.execFrameStart s
  | .dcbWindowEnd => Sys2Proof.Machine.execDcbWindowEnd s
  | .guardPoint => Sys2Proof.Machine.execGuardPoint s
  | .decisionPoint => Sys2Proof.Machine.execDecisionPoint s
  | .eAppFall => Sys2Proof.Machine.execEAppFall s
  | .swathRowLoad die => Sys2Proof.Machine.execSwathRowLoad die s
  | .synthRow row => Sys2Proof.Machine.execSynthRow row s
  | .hostMaxUsExpiry => Sys2Proof.Machine.execHostMaxUsExpiry s
  | .synCntClear => Sys2Proof.Machine.execSynCntClear s
  | .planeFetch fetcher j => Sys2Proof.Machine.execPlaneFetch fetcher j s
  | .cmpCntClear => Sys2Proof.Machine.execCmpCntClear s
  | .retireEnable log2 => Sys2Proof.Machine.execRetireEnable log2 s
  | .scnCntClear => Sys2Proof.Machine.execScnCntClear s
  | .statusBlock lane blk => Sys2Proof.Machine.execStatusBlock lane blk s
  | .statusTimeout port => Sys2Proof.Machine.execStatusTimeout port s
  | .trainReq lane blk => Sys2Proof.Machine.execTrainReq lane blk s
  | .pnlTrainFail port => Sys2Proof.Machine.execPnlTrainFail port s
  | .trainRetry port => Sys2Proof.Machine.execTrainRetry port s
  | .pnlRetrain val => Sys2Proof.Machine.execPnlRetrain val s
  | .prefLimit n => Sys2Proof.Machine.execPrefLimit n s
  | .crkMeasure ohms => Sys2Proof.Machine.execCrkMeasure ohms s
  | .pmbGo val => Sys2Proof.Machine.execPmbGo val s
  | .pnlPmbDone ack data => Sys2Proof.Machine.execPnlPmbDone ack data s
  | .pnlCntClear => Sys2Proof.Machine.execPnlCntClear s
  | .rxBlock n syms => Sys2Proof.Machine.execRxBlock n syms s
  | .acquireDone n => Sys2Proof.Machine.execAcquireDone n s
  | .adaptFreeze n => Sys2Proof.Machine.execAdaptFreeze n s
  | .frozenResume n => Sys2Proof.Machine.execFrozenResume n s
  | .rxElectricalIdle n => Sys2Proof.Machine.execRxElectricalIdle n s
  | .rxIdleEnd n => Sys2Proof.Machine.execRxIdleEnd n s
  | .prbsGen n on => Sys2Proof.Machine.execPrbsGen n on s
  | .prbsChk n on => Sys2Proof.Machine.execPrbsChk n on s
  | .adaptHold n on => Sys2Proof.Machine.execAdaptHold n on s
  | .eyeMeasure readings => Sys2Proof.Machine.execEyeMeasure readings s
  | .lnkTxFault n => Sys2Proof.Machine.execLnkTxFault n s
  | .lnkCntClear => Sys2Proof.Machine.execLnkCntClear s
  | .encCntClear => Sys2Proof.Machine.execEncCntClear s
  | .bltListStart => Sys2Proof.Machine.execBltListStart s
  | .bltCommandStart die => Sys2Proof.Machine.execBltCommandStart die s
  | .bltCommandDone die => Sys2Proof.Machine.execBltCommandDone die s
  | .bltCntClear => Sys2Proof.Machine.execBltCntClear s
  | .memAffine val => Sys2Proof.Machine.execMemAffine val s
  | .pairReinitDone => Sys2Proof.Machine.execPairReinitDone s
  | .backgroundClearDone => Sys2Proof.Machine.execBackgroundClearDone s
  | .patrolScrubRead upsets => Sys2Proof.Machine.execPatrolScrubRead upsets s
  | .memBwInterval => Sys2Proof.Machine.execMemBwInterval s
  | .memCntClear => Sys2Proof.Machine.execMemCntClear s
  | .pitchLockTimeout p => Sys2Proof.Machine.execPitchLockTimeout p s
  | .pitchTrainTimeout p => Sys2Proof.Machine.execPitchTrainTimeout p s
  | .pitchRetry p => Sys2Proof.Machine.execPitchRetry p s
  | .pitchReq p lane msg => Sys2Proof.Machine.execPitchReq p lane msg s
  | .pitchAck p lane msg => Sys2Proof.Machine.execPitchAck p lane msg s
  | .hello p msg => Sys2Proof.Machine.execHello p msg s
  | .helloSend p => Sys2Proof.Machine.execHelloSend p s
  | .pitchAlignLoss p => Sys2Proof.Machine.execPitchAlignLoss p s
  | .belay p msg => Sys2Proof.Machine.execBelay p msg s
  | .belaySend p mail => Sys2Proof.Machine.execBelaySend p mail s
  | .enum msg => Sys2Proof.Machine.execEnum msg s
  | .enumDone msg => Sys2Proof.Machine.execEnumDone msg s
  | .presentMessage p msg => Sys2Proof.Machine.execPresentMessage p msg s
  | .alarm p msg => Sys2Proof.Machine.execAlarm p msg s
  | .mail p msg => Sys2Proof.Machine.execMail p msg s
  | .mailAck p msg => Sys2Proof.Machine.execMailAck p msg s
  | .mailAckTimeout tag => Sys2Proof.Machine.execMailAckTimeout tag s
  | .hopForward p mail lead => Sys2Proof.Machine.execHopForward p mail lead s
  | .leaveMessage p => Sys2Proof.Machine.execLeaveMessage p s
  | .leave => Sys2Proof.Machine.execLeave s
  | .leaveHoldDown => Sys2Proof.Machine.execLeaveHoldDown s
  | .join => Sys2Proof.Machine.execJoin s
  | .retrainUp => Sys2Proof.Machine.execRetrainUp s
  | .retrainDn => Sys2Proof.Machine.execRetrainDn s
  | .swGo val => Sys2Proof.Machine.execSwGo val s
  | .headWaitExpiry => Sys2Proof.Machine.execHeadWaitExpiry s
  | .ropeNoHead => Sys2Proof.Machine.execRopeNoHead s
  | .ropeCntClear => Sys2Proof.Machine.execRopeCntClear s
  | .trefValid => Sys2Proof.Machine.execTrefValid s
  | .trefLost => Sys2Proof.Machine.execTrefLost s
  | .ppsEdge => Sys2Proof.Machine.execPpsEdge s
  | .timPpsLost => Sys2Proof.Machine.execTimPpsLost s
  | .timOffsetHi val => Sys2Proof.Machine.execTimOffsetHi val s
  | .timRate val => Sys2Proof.Machine.execTimRate val s
  | .timDcIncHi val => Sys2Proof.Machine.execTimDcIncHi val s
  | .timDcAdj val => Sys2Proof.Machine.execTimDcAdj val s
  | .timPpsSecHi val => Sys2Proof.Machine.execTimPpsSecHi val s
  | .snap => Sys2Proof.Machine.execSnap s
  | .steerCompare => Sys2Proof.Machine.execSteerCompare s
  | .tsyncSend lead => Sys2Proof.Machine.execTsyncSend lead s
  | .tsync lane msg back => Sys2Proof.Machine.execTsync lane msg back s
  | .timLock => Sys2Proof.Machine.execTimLock s
  | .timUnlock => Sys2Proof.Machine.execTimUnlock s
  | .tsyncTimeout => Sys2Proof.Machine.execTsyncTimeout s
  | .tdreqSend lead => Sys2Proof.Machine.execTdreqSend lead s
  | .tdreq lane msg turn => Sys2Proof.Machine.execTdreq lane msg turn s
  | .tdresp lane msg back => Sys2Proof.Machine.execTdresp lane msg back s
  | .arm n val => Sys2Proof.Machine.execArm n val s
  | .disarm n val => Sys2Proof.Machine.execDisarm n val s
  | .tevEdge n => Sys2Proof.Machine.execTevEdge n s
  | .tevPulseEnd n => Sys2Proof.Machine.execTevPulseEnd n s
  | .pop => Sys2Proof.Machine.execPop s
  | .evtEnable g val => Sys2Proof.Machine.execEvtEnable g val s
  | .evtTest src => Sys2Proof.Machine.execEvtTest src s
  | .eventCoalesceExpiry src => Sys2Proof.Machine.execEventCoalesceExpiry src s
  | .uvloRise b => Sys2Proof.Machine.execUvloRise b s
  | .nvsRecallDone errs => Sys2Proof.Machine.execNvsRecallDone errs s
  | .pfailWarn => Sys2Proof.Machine.execPfailWarn s
  | .pfailNLow => Sys2Proof.Machine.execPfailNLow s
  | .pfailClear => Sys2Proof.Machine.execPfailClear s
  | .uvloFall => Sys2Proof.Machine.execUvloFall s
  | .overvoltage => Sys2Proof.Machine.execOvervoltage s
  | .overvoltageRecovery b => Sys2Proof.Machine.execOvervoltageRecovery b s
  | .pwrInputRange high => Sys2Proof.Machine.execPwrInputRange high s
  | .pwrRailFault => Sys2Proof.Machine.execPwrRailFault s
  | .railFaultTimeout => Sys2Proof.Machine.execRailFaultTimeout s
  | .railRetry b => Sys2Proof.Machine.execRailRetry b s
  | .pmcsrD3hot => Sys2Proof.Machine.execPmcsrD3hot s
  | .pmcsrD0 => Sys2Proof.Machine.execPmcsrD0 s
  | .perstNAssert => Sys2Proof.Machine.execPerstNAssert s
  | .perstNDeassert b => Sys2Proof.Machine.execPerstNDeassert b s
  | .wakeN fresh b => Sys2Proof.Machine.execWakeN fresh b s
  | .holdRefresh => Sys2Proof.Machine.execHoldRefresh s
  | .pwrCntClear => Sys2Proof.Machine.execPwrCntClear s
  | .sensorRead readings vin pin => Sys2Proof.Machine.execSensorRead readings vin pin s
  | .sensorReadmit n => Sys2Proof.Machine.execSensorReadmit n s
  | .thmSuspect => Sys2Proof.Machine.execThmSuspect s
  | .thmSuspectClear n => Sys2Proof.Machine.execThmSuspectClear n s
  | .hardwareTrip die => Sys2Proof.Machine.execHardwareTrip die s
  | .shutdownPoll reading => Sys2Proof.Machine.execShutdownPoll reading s
  | .thmCntClear => Sys2Proof.Machine.execThmCntClear s
  | .calTempCheck => Sys2Proof.Machine.execCalTempCheck s
  | .calRun => Sys2Proof.Machine.execCalRun s
  | .calRunStart => Sys2Proof.Machine.execCalRunStart s
  | .calRunDone refOk pref adc lat => Sys2Proof.Machine.execCalRunDone refOk pref adc lat s
  | .calMoveHoldoff => Sys2Proof.Machine.execCalMoveHoldoff s
  | .stage => Sys2Proof.Machine.execStage s
  | .calCntClear => Sys2Proof.Machine.execCalCntClear s
  | .svnCommit => Sys2Proof.Machine.execSvnCommit s
  | .s0SecondsUpdate => Sys2Proof.Machine.execS0SecondsUpdate s
  | .nvsCntClear => Sys2Proof.Machine.execNvsCntClear s
  | .mgmtWatchdog => Sys2Proof.Machine.execMgmtWatchdog s
  | .glbFwNotice => Sys2Proof.Machine.execGlbFwNotice s
  | .msixTableWrite off val => Sys2Proof.Machine.execMsixTableWrite off val s
  | .loRegisterRead off => Sys2Proof.Machine.execLoRegisterRead off s
  | .powerTransitionDone => Sys2Proof.Machine.execPowerTransitionDone s
  | .mgmtRestartDone => Sys2Proof.Machine.execMgmtRestartDone s
  | .electricalIdleDwellEnd n => Sys2Proof.Machine.execElectricalIdleDwellEnd n s
  | .fstrobePulseEnd => Sys2Proof.Machine.execFstrobePulseEnd s

end Sys2Proof.Machine
end

