-- ==== Sys2Proof/Machine/Tick.lean ====
section
/-!
DEFINITION. One tick of the raw counter: what happens with time alone.
-/
namespace Sys2Proof.Machine

/-- The display clock after one raw tick: INC is added and whole seconds carry (R366). -/
def TimSt.dcTick (t : TimSt) : TimSt :=
  let f := t.dcFrac + t.inc % 2 ^ 32
  let n := t.dcNs + t.inc / 2 ^ 32 + f / 2 ^ 32
  { t with
    raw := (t.raw + 1) % 2 ^ 64
    dcFrac := f % 2 ^ 32
    dcNs := n % 1000000000
    dcSec := (t.dcSec + n / 1000000000) % 2 ^ 48 }

/-- The nanoseconds in S0 that the lifetime counter will take (Table 18-7). -/
def NvsSt.s0Tick (n : NvsSt) (st : PwrState) : NvsSt := if st = .s0 then { n with s0Ns := n.s0Ns + 1 } else n

/-- What counts whole microseconds of the raw counter: the ladder level (Table 5-9) and waits for credit (Table 13-11). -/
def State.usTick (s : State) : State :=
  let s := if s.level = 0 then s else s.bump (F.SYN_CNT_COUNT (2 + s.level))
  if s.belayStalled then s.bump (F.ROPE_CNT_COUNT 3) else s

/-- One tick (R360, R366). -/
def tick (s : State) : State :=
  if s.awake then
    let s : State := { s with tim := s.tim.dcTick, nvs := s.nvs.s0Tick s.pwr.st }
    if s.tim.raw % 1000 = 0 then s.usTick else s
  else s

end Sys2Proof.Machine
end

