-- ==== Sys2Proof/WellFormed.lean ====
section
/-!
DEFINITION. Which commands are well formed: operands within the ranges the registers, links and buffers give them.
-/
namespace Sys2Proof

/-- A register offset of BAR0 that a 32-bit access can name (R4). -/
def offOk (off : Nat) : Bool := decide (off < 0x1000000) && off % 4 == 0

/-- A ring number (R44). -/
def ringOk (n : Nat) : Bool := decide (n < 64)

/-- A doorbell index (Table 2-4). -/
def idxOk (n : Nat) : Bool := decide (n < 2 ^ 32)

/-- A whole number of 64-byte lines (R41, R42). -/
def linesOk (addr n : Nat) : Bool := addr % 64 == 0 && decide (0 < n)

/-- A soft error names a sector of the 64 GiB and a symbol of its codeword (R328). -/
def upsetOk (u : Upset) : Bool := decide (u.sector < 2 ^ 31) && decide (u.pos < 36) && u.flip != 0

/-- A group of the logbook (R443). -/
def logErrOk (e : LogErr) : Bool := decide (e.group < 0x8000)

/-- A lane, a panel lane, a return lane, a panel port, an overlay plane, a timed output (R259, R233, R181, R376). -/
def laneOk (n : Nat) : Bool := decide (n < 104)
def panelLaneOk (n : Nat) : Bool := decide (n < 96)
def retLaneOk (n : Nat) : Bool := decide (n < 4)
def portOk (p : Nat) : Bool := decide (p < 16)
def planeOk (p : Nat) : Bool := decide (1 ≤ p) && decide (p ≤ 7)
def tevOk (n : Nat) : Bool := decide (n < 8)

/-- A message or block of whole 64-bit words (Tables 8-4, 13-5). -/
def wordsOk (bs : List Byte) : Bool := bs.length % 8 == 0 && decide (0 < bs.length)

/-- A lane of a pitch (R339). -/
def pitchLaneOk (n : Nat) : Bool := decide (n < 2)

/-- A power-on's inputs: 48 sensors, 18 and 3 calibration results, a capacity of R429. -/
def bootOk (b : BootIn) : Bool :=
  b.sensors.length == 48 && b.pref.length == 18 && b.adc.length == 3 && decide (32 ≤ b.capMiB) && decide (b.capMiB ≤ 4096) &&
    decide (b.hbmFail < 16) && decide (b.readyT < 2 ^ 16) && b.errs.all logErrOk

/-- The points of a SETTINGS_WRITE: two copies (R442). -/
def copyRunOk : StoreRun → Bool
  | .whole => true
  | .bad k => decide (k < 2)
  | .cut k => decide (k < 3)

/-- The symbols of one block: 33 levels of two bits (R260). -/
def symsOk (syms : List Nat) : Bool := syms.length == 33 && syms.all fun x => decide (x < 4)

/-- A command is well formed. A command without operands always is. -/
def Instr.wellFormed : Instr → Bool
  | .registerWrite off _ => offOk off
  | .bar0UnsupportedAccess off size _ => decide (off < 0x1000000) && !(size == 4 && off % 4 == 0)
  | .linkUp _ width gts => decide (1 ≤ width) && decide (width ≤ 8) && decide (gts ≤ 32)
  | .cxlMemRead addr lines upsets => linesOk addr lines && upsets.all upsetOk
  | .cxlMemWrite addr data => linesOk addr data.length && data.length % 64 == 0
  | .enable _ pi ci => idxOk pi && idxOk ci
  | .hifAbort ring _ => ringOk ring
  | .abortPoint ring pi ci => ringOk ring && idxOk pi && idxOk ci
  | .doorbellSnoop ring => ringOk ring
  | .doorbellReread ring pi ci => ringOk ring && idxOk pi && idxOk ci
  | .hifDbSq ring _ => ringOk ring
  | .hifDbCq ring _ => ringOk ring
  | .descriptorFetch ring bytes => ringOk ring && bytes.length == 64
  | .descriptorRetire ring => ringOk ring
  | .completionWrite ring => ringOk ring
  | .coalesceTimerExpiry ring => ringOk ring
  | .createRing ring pi ci => ringOk ring && idxOk pi && idxOk ci
  | .deleteRing ring => ringOk ring
  | .queueAbort ring => ringOk ring
  | .setPowerS0 ring => ringOk ring
  | .setPowerS1 ring => ringOk ring
  | .setPowerS2 ring => ringOk ring
  | .nop ring => ringOk ring
  | .evtRing ring => ringOk ring
  | .streamPush ring _ => ringOk ring
  | .streamReset ring => ringOk ring
  | .loopPlay ring => ringOk ring
  | .present ring => ringOk ring
  | .shadowWrite ring => ringOk ring
  | .commit ring => ringOk ring
  | .bltRun ring => ringOk ring
  | .mbox ring _ => ringOk ring
  | .send ring _ => ringOk ring
  | .recv ring _ => ringOk ring
  | .logRead ring errs => ringOk ring && errs.all logErrOk
  | .logWrite ring _ run => ringOk ring && run.errs.all logErrOk
  | .flashRead ring => ringOk ring
  | .flashWrite ring _ _ => ringOk ring
  | .settingsWrite ring _ run => ringOk ring && copyRunOk run
  | .encOpen ring _ => ringOk ring
  | .encPut ring _ => ringOk ring
  | .encKey ring => ringOk ring
  | .encClose ring => ringOk ring
  | .encAuStart ring => ringOk ring
  | .encAuDone ring => ringOk ring
  | .planeFetch fetcher _ => planeOk fetcher.plane
  | .synthRow row => decide (row.got.length ≤ 8) && row.got.all fun n => decide (n ≤ 256)
  | .retireEnable log2 => decide (log2 < 16)
  | .statusBlock lane blk => retLaneOk lane && blk.length == 8
  | .statusTimeout port => portOk port
  | .trainReq lane blk => retLaneOk lane && blk.length == 8
  | .pnlTrainFail port => portOk port
  | .trainRetry port => portOk port
  | .prefLimit n => decide (n < 18)
  | .rxBlock n syms => laneOk n && symsOk syms
  | .acquireDone n => laneOk n
  | .adaptFreeze n => laneOk n
  | .frozenResume n => laneOk n
  | .rxElectricalIdle n => laneOk n
  | .rxIdleEnd n => laneOk n
  | .prbsGen n _ => laneOk n
  | .prbsChk n _ => laneOk n
  | .adaptHold n _ => laneOk n
  | .eyeMeasure rs => rs.all fun r => laneOk r.1
  | .lnkTxFault n => laneOk n
  | .patrolScrubRead upsets => upsets.all upsetOk
  | .pitchReq _ lane msg => pitchLaneOk lane && wordsOk msg
  | .pitchAck _ lane msg => pitchLaneOk lane && wordsOk msg
  | .hello _ msg => wordsOk msg
  | .belay _ msg => wordsOk msg
  | .enum msg => wordsOk msg
  | .enumDone msg => wordsOk msg
  | .presentMessage _ msg => wordsOk msg
  | .alarm _ msg => wordsOk msg
  | .mail _ msg => wordsOk msg
  | .mailAck _ msg => wordsOk msg
  | .mailAckTimeout tag => decide (tag < 256)
  | .tsync lane msg _ => pitchLaneOk lane && wordsOk msg
  | .tdreq lane msg _ => pitchLaneOk lane && wordsOk msg
  | .tdresp lane msg _ => pitchLaneOk lane && wordsOk msg
  | .arm n _ => tevOk n
  | .disarm n _ => tevOk n
  | .tevEdge n => tevOk n
  | .tevPulseEnd n => tevOk n
  | .evtEnable g _ => decide (g < 16)
  | .evtTest src => decide (src < 512)
  | .eventCoalesceExpiry src => decide (src < 512)
  | .uvloRise b => bootOk b
  | .nvsRecallDone errs => errs.all logErrOk
  | .overvoltageRecovery b => bootOk b
  | .railRetry b => bootOk b
  | .perstNDeassert b => bootOk b
  | .wakeN _ b => bootOk b
  | .sensorRead readings vin pin => readings.length == 48 && decide (vin < 2 ^ 16) && decide (pin < 2 ^ 16)
  | .sensorReadmit n => decide (n < 48)
  | .thmSuspectClear n => decide (n < 48)
  | .hardwareTrip die => decide (die < 3)
  | .calRunDone _ pref adc _ => pref.length == 18 && adc.length == 3
  | .msixTableWrite off _ => decide (off < 0x10000) && off % 4 == 0
  | .loRegisterRead off => offOk off
  | .electricalIdleDwellEnd n => laneOk n
  | .hifCxlRas | .hotReset | .featuresOk | .functionReset | .functionLevelReset | .functionResetDone | .streamResetTakesEffect
    | .commitArrive | .encKeyReq _ | .encPictureStart _ _ | .seqParcel | .gridParcel | .auParcel | .viewpicParcel | .sliceParcel
    | .depthParcel | .padParcel | .endParcel | .extensionParcel | .invalidTypeParcel | .crcFailedParcel | .sliceDispatch |
    .sliceResume | .sbrowFinal _ | .decWatchdog _ | .concealCopy _ | .lateWindowClose | .decCntClear | .lineStart | .frameStart
    | .dcbWindowEnd | .guardPoint | .decisionPoint | .eAppFall | .swathRowLoad _ | .hostMaxUsExpiry | .synCntClear
    | .cmpCntClear | .scnCntClear | .pnlRetrain _ | .crkMeasure _ | .pmbGo _ | .pnlPmbDone _ _ | .pnlCntClear | .lnkCntClear |
    .encCntClear | .bltListStart | .bltCommandStart _ | .bltCommandDone _ | .bltCntClear | .memAffine _ | .pairReinitDone |
    .backgroundClearDone | .memBwInterval | .memCntClear | .pitchLockTimeout _ | .pitchTrainTimeout _ | .pitchRetry _ |
    .helloSend _ | .pitchAlignLoss _ | .belaySend _ _ | .hopForward _ _ _ | .leaveMessage _ | .leave | .leaveHoldDown | .join |
    .retrainUp | .retrainDn | .swGo _ | .headWaitExpiry | .ropeNoHead | .ropeCntClear | .trefValid | .trefLost | .ppsEdge |
    .timPpsLost | .timOffsetHi _ | .timRate _ | .timDcIncHi _ | .timDcAdj _ | .timPpsSecHi _ | .snap | .steerCompare |
    .tsyncSend _ | .timLock | .timUnlock | .tsyncTimeout | .tdreqSend _ | .pop | .pfailWarn | .pfailNLow | .pfailClear |
    .uvloFall | .overvoltage | .pwrInputRange _ | .pwrRailFault | .railFaultTimeout | .pmcsrD3hot | .pmcsrD0 | .perstNAssert |
    .holdRefresh | .pwrCntClear | .thmSuspect | .shutdownPoll _ | .thmCntClear | .calTempCheck | .calRun | .calRunStart |
    .calMoveHoldoff | .stage | .calCntClear | .svnCommit | .s0SecondsUpdate | .nvsCntClear | .mgmtWatchdog | .glbFwNotice |
    .powerTransitionDone | .mgmtRestartDone | .fstrobePulseEnd => true

end Sys2Proof
end

