-- ==== Sys2Proof/Safety.lean ====
section
/-!
DEFINITION. What counts as a good state and a good step, in the terms claims use: canonical stores, and steps that answer a next
state.
-/
namespace Sys2Proof.Machine

/-- Device memory and its check bytes are in canonical form (R326, R327: an unlisted byte reads 0). -/
def Memory.wf (m : MemSt) : Bool := cellsWf (fun _ => (0 : Byte)) m.data && cellsWf (fun _ => (0 : Byte)) m.check

/-- Flash and logbook are in canonical form: an erased flash byte reads 0xFF. -/
def Stores.wf (n : NvsSt) : Bool := cellsWf (fun _ => (0xFF : Byte)) n.flash && cellsWf (fun _ => (0 : Byte)) n.log

/-- The MSI-X table and the CXL registers are in canonical form. -/
def Tables.wf (h : HifSt) : Bool := cellsWf msixReset h.msix && cellsWf (fun _ => (0 : Word)) h.cxl

/-- Every sparse store of the state is in canonical form: registers, settings in force, MSI-X table and CXL registers, device memory,
flash and logbook. -/
def State.canonical (s : State) : Bool :=
  cellsWf resetWord s.regs && cellsWf resetWord s.live && Tables.wf s.hif && Memory.wf s.mem && Stores.wf s.nvs

/-- The lists of units have their lengths: 104 lanes (Table 9-1) and 16 panel ports (R232). -/
def State.shaped (s : State) : Bool := s.lanes.length == 104 && s.pnl.ports.length == 16

/-- The parts of the state other than the queue and the variant; the flash stands apart from the rest of persistent storage. -/
inductive Part where
  | out | free | regs | live | tim | evt | hif | mem | pwr | nvs | flash | syn | cmp | scn | pnl | dec | thm | blt | enc | cal | lanes | rope
  deriving DecidableEq, Repr

/-- A part has the same content in two states. -/
def Part.same (s t : State) : Part → Prop
  | .out => t.out = s.out
  | .free => t.freeCtr = s.freeCtr
  | .regs => t.regs = s.regs
  | .live => t.live = s.live
  | .tim => t.tim = s.tim
  | .evt => t.evt = s.evt
  | .hif => t.hif = s.hif
  | .mem => t.mem = s.mem
  | .pwr => t.pwr = s.pwr
  | .nvs => { t.nvs with flash := [] } = { s.nvs with flash := [] }
  | .flash => t.nvs.flash = s.nvs.flash
  | .syn => t.syn = s.syn
  | .cmp => t.cmp = s.cmp
  | .scn => t.scn = s.scn
  | .pnl => t.pnl = s.pnl
  | .dec => t.dec = s.dec
  | .thm => t.thm = s.thm
  | .blt => t.blt = s.blt
  | .enc => t.enc = s.enc
  | .cal => t.cal = s.cal
  | .lanes => t.lanes = s.lanes
  | .rope => t.rope = s.rope

/-- From `s` to `t` at most the parts in `may` change; the queue and the variant never do. -/
structure Frame (may : List Part) (s t : State) : Prop where
  pending : t.pending = s.pending
  airCooled : t.airCooled = s.airCooled
  same : ∀ p, p ∉ may → p.same s t

/-- The parts that raising an event may change (R385 to R394, R450). -/
def eventParts : List Part := [.out, .free, .regs, .evt, .hif, .nvs]

/-- The parts of the state that a command may change, beside the queue's front: no command reaches further. -/
def touches : Instr → List Part
  | .registerWrite _ _ =>
      eventParts ++ [.tim, .mem, .pwr, .syn, .cmp, .scn, .pnl, .dec, .blt, .enc, .cal, .lanes, .rope]
  | .bar0UnsupportedAccess _ _ _ =>
      [.out]
  | .linkUp _ _ _ | .hifCxlRas | .featuresOk | .enable _ _ _ | .hifAbort _ _ | .doorbellReread _ _ _ | .hifDbSq _ _
    | .createRing _ _ _ | .prefLimit _ | .pnlPmbDone _ _ | .lnkTxFault _ | .ropeNoHead | .evtEnable _ _ | .evtTest _
    | .eventCoalesceExpiry _ | .nvsRecallDone _ | .pwrInputRange _ | .glbFwNotice =>
      eventParts
  | .hotReset | .functionReset | .functionLevelReset =>
      eventParts ++ [.tim, .mem, .pwr, .syn, .cmp, .scn, .dec, .blt, .enc, .rope]
  | .cxlMemRead _ _ _ | .cxlMemWrite _ _ | .mbox _ _ | .logRead _ _ | .logWrite _ _ _ | .flashRead _
    | .pairReinitDone | .patrolScrubRead _ =>
      eventParts ++ [.mem]
  | .functionResetDone | .decCntClear | .synCntClear | .cmpCntClear | .scnCntClear | .pnlCntClear | .acquireDone _
    | .adaptFreeze _ | .frozenResume _ | .lnkCntClear | .encCntClear | .bltCntClear | .memCntClear | .ropeCntClear
    | .snap | .pwrCntClear | .thmCntClear | .calCntClear | .nvsCntClear =>
      [.regs]
  | .abortPoint _ _ _ | .mgmtWatchdog =>
      eventParts ++ [.mem, .pwr, .cmp, .scn, .dec, .blt, .enc, .rope]
  | .doorbellSnoop _ | .mgmtRestartDone =>
      [.hif]
  | .hifDbCq _ _ =>
      [.regs, .hif]
  | .descriptorFetch _ _ | .coalesceTimerExpiry _ | .msixTableWrite _ _ | .loRegisterRead _ =>
      [.out, .hif]
  | .descriptorRetire _ | .deleteRing _ | .queueAbort _ | .nop _ | .shadowWrite _ =>
      [.free, .regs, .hif, .nvs]
  | .completionWrite _ =>
      eventParts ++ [.dec, .enc]
  | .setPowerS0 _ | .setPowerS1 _ | .setPowerS2 _ | .pmcsrD3hot | .pmcsrD0 =>
      eventParts ++ [.mem, .pwr, .syn, .cmp, .scn, .pnl, .dec, .blt, .enc, .lanes, .rope]
  | .evtRing _ =>
      [.free, .regs, .evt, .hif, .nvs]
  | .streamPush _ _ | .streamReset _ | .loopPlay _ | .seqParcel | .gridParcel | .auParcel | .viewpicParcel
    | .sliceParcel | .depthParcel | .padParcel | .endParcel | .extensionParcel | .invalidTypeParcel
    | .crcFailedParcel | .sliceDispatch | .sbrowFinal _ | .decWatchdog _ | .concealCopy _ =>
      eventParts ++ [.mem, .dec]
  | .streamResetTakesEffect =>
      eventParts ++ [.dec]
  | .present _ =>
      eventParts ++ [.tim, .scn, .lanes, .rope]
  | .commit _ | .commitArrive =>
      [.free, .regs, .hif, .nvs, .cmp]
  | .bltRun _ =>
      [.free, .regs, .hif, .nvs, .blt]
  | .send _ _ =>
      eventParts ++ [.tim, .mem, .lanes, .rope]
  | .recv _ _ | .mailAck _ _ | .mailAckTimeout _ =>
      eventParts ++ [.mem, .rope]
  | .flashWrite _ _ _ | .settingsWrite _ _ _ =>
      eventParts ++ [.mem, .flash]
  | .encOpen _ _ | .encPut _ _ | .encClose _ | .encAuStart _ | .encPictureStart _ _ | .encAuDone _ =>
      eventParts ++ [.mem, .enc]
  | .encKey _ =>
      [.free, .regs, .hif, .nvs, .enc]
  | .encKeyReq _ =>
      [.enc]
  | .sliceResume | .lateWindowClose =>
      [.dec]
  | .lineStart =>
      eventParts ++ [.mem, .pwr, .syn, .cmp, .scn, .pnl, .lanes]
  | .frameStart =>
      eventParts ++ [.tim, .cmp, .scn, .pnl, .dec, .lanes]
  | .dcbWindowEnd | .statusBlock _ _ | .statusTimeout _ | .pnlRetrain _ =>
      eventParts ++ [.pnl]
  | .guardPoint =>
      [.regs, .pwr, .cmp, .scn, .dec]
  | .decisionPoint =>
      eventParts ++ [.live, .tim, .mem, .pwr, .syn, .cmp, .scn, .pnl, .dec, .blt, .enc, .lanes, .rope]
  | .eAppFall =>
      eventParts ++ [.syn]
  | .swathRowLoad _ =>
      eventParts ++ [.mem, .syn]
  | .synthRow _ =>
      eventParts ++ [.mem, .syn, .dec]
  | .hostMaxUsExpiry =>
      []
  | .planeFetch _ _ =>
      eventParts ++ [.mem, .cmp]
  | .retireEnable _ =>
      [.regs, .cmp]
  | .trainReq _ _ =>
      [.out, .regs, .pnl, .lanes]
  | .pnlTrainFail _ =>
      eventParts ++ [.pnl, .lanes]
  | .trainRetry _ =>
      [.regs, .pnl, .lanes]
  | .crkMeasure _ =>
      eventParts ++ [.tim, .pnl, .lanes, .rope]
  | .pmbGo _ =>
      [.out, .regs]
  | .rxBlock _ _ | .rxElectricalIdle _ | .rxIdleEnd _ | .prbsGen _ _ | .prbsChk _ _ | .electricalIdleDwellEnd _ =>
      eventParts ++ [.pnl, .lanes, .rope]
  | .adaptHold _ _ =>
      [.regs, .lanes]
  | .eyeMeasure _ | .leave =>
      eventParts ++ [.lanes]
  | .bltListStart =>
      [.regs, .blt]
  | .bltCommandStart _ | .bltCommandDone _ =>
      eventParts ++ [.mem, .blt]
  | .memAffine _ | .memBwInterval =>
      [.regs, .mem]
  | .backgroundClearDone =>
      [.mem]
  | .pitchLockTimeout _ | .pitchTrainTimeout _ | .hello _ _ | .pitchAlignLoss _ | .enum _ | .enumDone _ | .mail _ _
    | .hopForward _ _ _ | .leaveMessage _ | .leaveHoldDown | .join | .retrainUp | .retrainDn | .swGo _
    | .headWaitExpiry =>
      eventParts ++ [.tim, .lanes, .rope]
  | .pitchRetry _ | .pitchReq _ _ _ =>
      eventParts ++ [.lanes, .rope]
  | .pitchAck _ _ _ =>
      [.lanes]
  | .helloSend _ | .tsyncSend _ | .tdreq _ _ _ =>
      [.out, .lanes]
  | .belay _ _ =>
      [.rope]
  | .belaySend _ _ =>
      [.out, .lanes, .rope]
  | .presentMessage _ _ =>
      eventParts ++ [.scn, .rope]
  | .alarm _ _ =>
      eventParts ++ [.rope]
  | .trefValid | .trefLost | .timPpsLost | .timUnlock | .tsyncTimeout | .arm _ _ | .tevPulseEnd _ =>
      eventParts ++ [.tim]
  | .ppsEdge | .timLock =>
      eventParts ++ [.tim, .pwr, .scn]
  | .timOffsetHi _ =>
      [.regs, .tim, .pwr, .scn]
  | .timRate _ | .timDcIncHi _ | .timPpsSecHi _ =>
      [.regs, .tim]
  | .timDcAdj _ | .steerCompare =>
      eventParts ++ [.tim, .pwr, .syn, .cmp, .scn, .pnl, .dec]
  | .tsync _ _ _ | .tdresp _ _ _ =>
      [.free, .regs, .tim]
  | .tdreqSend _ =>
      [.out, .tim, .lanes]
  | .disarm _ _ =>
      [.out, .regs, .tim]
  | .tevEdge _ | .fstrobePulseEnd =>
      [.out, .tim]
  | .pop =>
      [.tim]
  | .uvloRise _ | .overvoltageRecovery _ | .railRetry _ | .perstNDeassert _ | .wakeN _ _ | .sensorRead _ _ _
    | .hardwareTrip _ =>
      eventParts ++ [.live, .tim, .mem, .pwr, .syn, .cmp, .scn, .pnl, .dec, .thm, .blt, .enc, .cal, .lanes, .rope]
  | .pfailWarn | .pfailNLow | .powerTransitionDone =>
      eventParts ++ [.tim, .mem, .pwr, .syn, .cmp, .scn, .pnl, .dec, .blt, .enc, .lanes, .rope]
  | .pfailClear | .pwrRailFault =>
      eventParts ++ [.pwr]
  | .uvloFall | .overvoltage | .railFaultTimeout | .perstNAssert =>
      [.out, .regs, .live, .tim, .evt, .hif, .mem, .pwr, .nvs, .syn, .cmp, .scn, .pnl, .dec, .thm, .blt, .enc, .cal, .lanes, .rope]
  | .holdRefresh =>
      eventParts ++ [.tim, .mem, .pwr, .pnl, .lanes]
  | .sensorReadmit _ | .thmSuspect | .thmSuspectClear _ =>
      eventParts ++ [.tim, .thm, .lanes, .rope]
  | .shutdownPoll _ =>
      [.thm]
  | .calTempCheck | .calRun | .calRunStart =>
      [.regs, .cal]
  | .calRunDone _ _ _ _ | .stage =>
      eventParts ++ [.pnl, .cal]
  | .calMoveHoldoff =>
      [.cal]
  | .svnCommit =>
      [.regs, .nvs]
  | .s0SecondsUpdate =>
      [.nvs]

/-- The registers that an event writes by itself: the status words, and the event ring's PI, overflow flag and lost count
(R385, R391, R392). -/
def evtReg (off : Nat) : Bool :=
  (decide (0x20000 ≤ off) && decide (off < 0x20040)) || off == 0x20090 || off == 0x20098 || off == 0x2009C

/-- What raising events may change: event registers and timers, pending MSI-X vectors, the error log, free draws, and what leaves the
device. Status bits stay set, and everything else is as before. -/
structure EventsOnly (s t : State) : Prop where
  words : ∀ off, evtReg off = false → t.word off = s.word off
  status : ∀ src, src < 512 → s.rd (evtStatusFld src) = 1 → t.rd (evtStatusFld src) = 1
  hif : t.hif = { s.hif with msixPend := t.hif.msixPend }
  nvs : t.nvs = { s.nvs with log := t.nvs.log, badGroups := t.nvs.badGroups, errSeq := t.nvs.errSeq,
                             logTimes := t.nvs.logTimes, logQ := t.nvs.logQ }
  sent : ∃ l, t.out = l ++ s.out
  rest : t = { s with out := t.out, freeCtr := t.freeCtr, regs := t.regs, evt := t.evt, hif := t.hif, nvs := t.nvs }

/-- The command completes at `s`, with a next state of which `Q` holds. -/
def Gives (c : Instr) (s : State) (Q : State → Prop) : Prop := ∃ t, exec c s = .next t ∧ Q t

/-- From `s` to `t` only registers change, and of those only the ones at the given offsets. -/
def RegsOnly (offs : List Nat) (s t : State) : Prop :=
  t = { s with regs := t.regs } ∧ ∀ o, o ∉ offs → t.word o = s.word o

/-- Of the registers, only the ones at the given offsets change, and those that events write. -/
def WordsKept (offs : List Nat) (s t : State) : Prop := ∀ o, o ∉ offs → evtReg o = false → t.word o = s.word o

/-- Event state exists: the module is awake or in S3 (R396). -/
def State.hasEvents (s : State) : Bool := s.awake || s.pwr.st == .s3

/-- The status bit of a source is set (R385). -/
def Raised (src : Nat) (t : State) : Prop := t.rd (evtStatusFld src) = 1

/-- Every byte of device memory outside `lo` to `hi - 1` reads as before. -/
def BytesKept (lo hi : Nat) (s t : State) : Prop := ∀ a, (a < lo ∨ hi ≤ a) → t.mem.peekByte a = s.mem.peekByte a

end Sys2Proof.Machine
end

