-- ==== Sys2Proof/Certificates/Slice0/Obligations.lean ====
section
/-!
DEFINITION. The statements for the provers: what the rules of the spec say the commands and the machine do.
-/
open Sys2Proof Sys2Proof.Machine

/-- A step takes the command at the front of the queue and runs it on the state with the rest of the queue. -/
def Obligations.StepRunsTheFrontCommand : Prop :=
  ∀ (c : Instr) (rest : List Instr) (s : State), step { s with pending := c :: rest } = exec c { s with pending := rest }

/-- With no command waiting, a step is one tick of the 1 ns raw counter (a DESIGN CHOICE of the model, log entry 3): the
display clock adds INC and carries (R366), and nothing happens where the time unit has no power (R360). -/
def Obligations.EmptyQueueTicks : Prop :=
  ∀ s : State, s.pending = [] →
    (s.awake = false → step s = .next s) ∧
    (s.awake = true → ∃ t, step s = .next t ∧ Frame [.regs, .tim, .nvs] s t ∧ t.nvs.flash = s.nvs.flash ∧
      t.tim.raw = (s.tim.raw + 1) % 2 ^ 64 ∧
      t.tim.dcFrac = (s.tim.dcFrac + s.tim.inc) % 2 ^ 32 ∧
      t.tim.dcNs = (s.tim.dcNs + (s.tim.dcFrac + s.tim.inc) / 2 ^ 32) % 1000000000 ∧
      t.tim.dcSec = (s.tim.dcSec + (s.tim.dcNs + (s.tim.dcFrac + s.tim.inc) / 2 ^ 32) / 1000000000) % 2 ^ 48)

/-- What the machine holds before power is applied: the Reset column of the register index (R468), empty stores and an empty
queue. That memory, flash and logbook list nothing is the model's choice (log entries 5 and 6). -/
def Obligations.ResetState : Prop :=
  State.reset.canonical = true ∧ State.reset.shaped = true ∧ State.reset.pending = [] ∧ State.reset.awake = false ∧
    (∀ off, State.reset.word off = resetWord off) ∧ (∀ off, State.reset.liveWord off = resetWord off) ∧
    (∀ a, State.reset.mem.dataAt a = 0) ∧ (∀ a, State.reset.mem.peekByte a = ⟨0, false⟩) ∧
    State.reset.word 0x0 = 0x09601F3C ∧ State.reset.word 0x10 = 1 ∧ State.reset.word 0x30000 = 3 ∧
    State.reset.word 0x40000 = 0x73695F ∧ State.reset.word 0x7001C = 1 ∧ State.reset.word 0x90000 = 1 ∧
    State.reset.word 0xA0010 = 0x240A3C2A ∧ State.reset.word 0xB0020 = 0x14004 ∧ State.reset.word 0xD0034 = 0x384393 ∧
    State.reset.word 0x21004 = 0x80 ∧ State.reset.mem.data = [] ∧ State.reset.mem.check = [] ∧ State.reset.nvs.flash = [] ∧
    State.reset.nvs.log = [] ∧ State.reset.hif.rings = [] ∧ State.reset.hif.msix = [] ∧ State.reset.hif.cxl = []

/-- The invariant of the sparse stores: strictly rising addresses and no entry that an unlisted address would read the same.
Every step keeps it, from every state that has it. -/
def Obligations.EveryStepKeepsStoresCanonical : Prop :=
  ∀ s t : State, s.canonical = true → step s = .next t → t.canonical = true

/-- The invariant of the unit lists, which statements about one lane or one port take as a premise. -/
def Obligations.EveryStepKeepsItsLanesAndPorts : Prop :=
  ∀ s t : State, s.shaped = true → step s = .next t → t.shaped = true

/-- Every command completes, and the frame of every command: outside the parts that the table touches names for it, nothing
of the state changes. -/
def Obligations.EveryCommandCompletesWithinItsFrame : Prop :=
  (∀ (c : Instr) (s : State),
      (∀ addr lines u, c = .cxlMemRead addr lines u → (s.cxlLines addr lines).isSome = true) →
      (∀ addr data, c = .cxlMemWrite addr data → (s.cxlLines addr ((data.length + 63) / 64)).isSome = true) →
      ∃ t, exec c s = .next t) ∧
    (∀ (c : Instr) (s t : State), exec c s = .next t → Frame (touches c) s t)

/-- Where the settings in force (the SH fields) can change at all. -/
def Obligations.SettingsInForceChangeOnlyWhereTheRulesSay : Prop :=
  ∀ (c : Instr) (s t : State), exec c s = .next t → t.live ≠ s.live →
    c = .decisionPoint ∨ c = .uvloFall ∨ c = .overvoltage ∨ c = .railFaultTimeout ∨ c = .perstNAssert ∨
    (∃ die, c = .hardwareTrip die) ∨ (∃ b, c = .uvloRise b) ∨ (∃ b, c = .overvoltageRecovery b) ∨ (∃ b, c = .railRetry b) ∨
    (∃ b, c = .perstNDeassert b) ∨ (∃ f b, c = .wakeN f b) ∨ (∃ r v p, c = .sensorRead r v p)

/-- The serial flash changes only through the two MGMT commands that write it. -/
def Obligations.OnlyFlashCommandsWriteTheFlash : Prop :=
  ∀ (s t : State), step s = .next t → t.nvs.flash ≠ s.nvs.flash →
    ∃ rest, (∃ ring data run, s.pending = .flashWrite ring data run :: rest) ∨
      ∃ ring data run, s.pending = .settingsWrite ring data run :: rest

/-- The offsets of `n` counter registers from `base`. -/
def counterRegs (base n : Nat) : List Nat := (List.range n).map fun i => base + 4 * i

/-- The counters that each clear command clears (R6, and the counter tables of chapters
4 to 18). -/
def clearedBy : List (Instr × List Nat) :=
  [(.pwrCntClear, counterRegs 0x30010 2), (.thmCntClear, counterRegs 0x40020 3), (.calCntClear, counterRegs 0x50020 2),
   (.nvsCntClear, counterRegs 0x60020 4), (.ropeCntClear, counterRegs 0x80040 4), (.memCntClear, counterRegs 0x90040 5),
   (.decCntClear, counterRegs 0xA0040 9), (.synCntClear, counterRegs 0xB0040 7 ++ [0xB0060]), (.cmpCntClear, counterRegs 0xC0020 3),
   (.scnCntClear, counterRegs 0xD0050 4), (.pnlCntClear, counterRegs 0xE0020 4), (.encCntClear, counterRegs 0x100040 4),
   (.bltCntClear, counterRegs 0x110040 3), (.lnkCntClear, (List.range 104).flatMap fun n => counterRegs (0xF1020 + 0x40 * n) 6)]

/-- Writing CNT_CLEAR of a block clears exactly that block's counters. -/
def Obligations.CounterClearsAreExact : Prop :=
  ∀ p ∈ clearedBy, ∀ s : State,
    (s.bar0Open = true → Gives p.1 s fun t => RegsOnly p.2 s t ∧ ∀ o ∈ p.2, t.word o = 0) ∧
    (s.bar0Open = false → exec p.1 s = .next s)

/-- `t` is `u` after source `src` was raised: its status bit is set, and beyond `u` only what events write has changed. -/
def After (src : Nat) (u t : State) : Prop := EventsOnly u t ∧ Raised src t

/-- The commands that are BAR0 writes. -/
def isBar0Write : Instr → Bool
  | .registerWrite _ _ | .featuresOk | .enable _ _ _ | .functionReset | .hifAbort _ _ | .hifDbSq _ _ | .hifDbCq _ _ | .encKeyReq _
  | .decCntClear | .synCntClear | .cmpCntClear | .retireEnable _ | .scnCntClear | .pnlRetrain _ | .pmbGo _ | .pnlCntClear
  | .prbsGen _ _ | .prbsChk _ _ | .adaptHold _ _ | .lnkCntClear | .encCntClear | .bltCntClear | .memAffine _ | .memCntClear
  | .leave | .join | .retrainUp | .retrainDn | .swGo _ | .ropeCntClear | .timOffsetHi _ | .timRate _ | .timDcIncHi _ | .timDcAdj _
  | .timPpsSecHi _ | .snap | .arm _ _ | .disarm _ _ | .pop | .evtEnable _ _ | .evtTest _ | .pwrCntClear | .thmCntClear | .calRun
  | .stage | .calCntClear | .svnCommit | .nvsCntClear => true
  | _ => false

/-- The registers whose write of any value has a row of its own. -/
def rowWrites : List (Nat × (Word → Instr)) :=
  [(0x7000C, .timOffsetHi), (0x70010, .timRate), (0x7001C, .timDcIncHi), (0x70020, .timDcAdj), (0x70054, .timPpsSecHi),
   (0x90008, .memAffine), (0xE000C, .pnlRetrain), (0x100008, .encKeyReq)] ++
    ((List.range 64).map fun n => (0x11000 + 8 * n, Instr.hifDbSq n)) ++ ((List.range 64).map fun n => (0x11004 + 8 * n, Instr.hifDbCq n)) ++
    (List.range 16).map fun g => (0x20040 + 4 * g, Instr.evtEnable g)

/-- BAR0 writes are ignored until READY (R455) and while RESET_BUSY is 1 (R68); without power there is no BAR0. A register is
written once, whichever row names the write. -/
def Obligations.Bar0WritesActOnceAndOnlyWhileOpen : Prop :=
  (∀ (c : Instr) (s : State), isBar0Write c = true → s.bar0Open = false → exec c s = .next s) ∧
    (∀ p ∈ rowWrites, ∀ (v : Word) (s : State), exec (.registerWrite p.1 v) s = exec (p.2 v) s) ∧
    (∀ s : State, exec (.registerWrite 0x10000 0x80000000) s = exec .functionReset s) ∧
    (∀ s : State, exec (.registerWrite 0x10000 2) s = exec .featuresOk s) ∧
    (∀ n < 16, ∀ s : State, exec (.registerWrite 0xC0018 (BitVec.ofNat 32 (1 + 16 * n))) s = exec (.retireEnable n) s)

/-- Offsets whose write only stores: HIF_FEAT_ACCEPT, EVT_STATUS, EVT_ROUTE, and CMP and SCN from their second register, but
CMP_RETIRE_CFG. -/
def plainOffset (off : Nat) : Bool :=
  (decide (0x10020 ≤ off) && decide (off < 0x10030)) || (decide (0x20000 ≤ off) && decide (off < 0x20040)) ||
    (decide (0x21000 ≤ off) && decide (off < 0x21800)) || (decide (0xC0004 ≤ off) && decide (off < 0xD0000) && off != 0xC0018) ||
    (decide (0xD0004 ≤ off) && decide (off < 0xE0000))

/-- What a write of `new` leaves in a field that holds `old` (Table 0-5). -/
def fieldAfter (locked : Bool) : Acc → Nat → Nat → Nat
  | .ro, old, _ | .wo, old, _ => old
  | .rw, _, new | .sh, _, new => new
  | .w1c, old, new => old - (old &&& new)
  | .w1s, old, new => old ||| new
  | .rwl, old, new => if locked then old else new

/-- The access types of Table 0-5 (R6), on the registers whose write has no effect but its own fields: feature accept, event
status and routes, the shadow registers of SYN, CMP and SCN. -/
def Obligations.PlainRegisterWritesFollowTheirAccessTypes : Prop :=
  ∀ (off : Nat) (val : Word) (s : State), s.bar0Open = true → off % 4 = 0 → plainOffset off = true →
    (∀ d, regFind off = some d → Gives (.registerWrite off val) s fun t => RegsOnly [off] s t ∧
      ∀ f ∈ d.fields, bits (t.word off).toNat f.1 f.2.1 =
        fieldAfter (s.rd F.HIF_CTRL_FEATURES_OK == 1 || s.rd F.HIF_STATUS_RUNNING == 1) f.2.2 (bits (s.word off).toNat f.1 f.2.1) (bits val.toNat f.1 f.2.1)) ∧
    (regFind off = none → exec (.registerWrite off val) s = .next s)

/-- Reading _LO captures its _HI partner (R459); every access that is not an aligned 32-bit one is answered as an Unsupported
Request (R4). -/
def Obligations.ReadsAndOtherAccesses : Prop :=
  (∀ (off size : Nat) (w : Bool) (s : State), ¬(size = 4 ∧ off % 4 = 0) →
      exec (.bar0UnsupportedAccess off size w) s = .next { s with out := .unsupported :: s.out }) ∧
    (∀ (off : Nat) (s : State), s.awake = true → off % 4 = 0 → off < 0x1000000 → isLo off = false →
      (∀ c ∈ s.hif.hiCap, ¬(c.1 = off / 0x10000 ∧ c.2.1 = off)) →
      exec (.loRegisterRead off) s = .next { s with out := .regData (s.readReg off) :: s.out }) ∧
    (∀ (off : Nat) (s : State), s.awake = true → off % 4 = 0 → isLo off = true →
      Gives (.loRegisterRead off) s fun t => t.out = .regData (s.readReg off) :: s.out ∧ t = { s with out := t.out, hif := t.hif } ∧
        t.hif = { s.hif with hiCap := t.hif.hiCap } ∧
        ∀ u : State, u.awake = true → u.hif.hiCap = t.hif.hiCap → isLo (off + 4) = false →
          off / 0x10000 = (off + 4) / 0x10000 →
          Gives (.loRegisterRead (off + 4)) u fun v => v.out = .regData (s.readReg (off + 4)) :: u.out)

/-- LINK_UP (R38, Table 15-2), HIF_CXL_RAS and GLB_FW_NOTICE (Tables 15-2, 15-6), and the end of a management restart (R463). -/
def Obligations.LinkAndFirmwareEvents : Prop :=
  (∀ (cxl : Bool) (width gts : Nat) (s : State), s.awake = true → s.pwr.perst = false →
      Gives (.linkUp cxl width gts) s fun t =>
        EventsOnly (({ s with hif := { s.hif with linkUp := true, width := width, rate := gts } } : State).wr F.HIF_STATUS_CXL_MODE
          (if cxl = true ∧ s.rd F.NVS_STATUS_RECOVERY = 0 ∧ s.rd F.GLB_BOOT_STATUS_FAIL_STEP = 0 then 1 else 0)) t ∧
        ((width < 8 ∨ gts < 32) → Raised Ev.HIF_LINK_DEGRADED t)) ∧
    (∀ s : State, s.awake = true → s.hif.linkUp = true → s.rd F.HIF_STATUS_CXL_MODE = 1 →
      Gives .hifCxlRas s (After Ev.HIF_CXL_RAS s)) ∧
    (∀ s : State, s.awake = true → s.ready = true → Gives .glbFwNotice s (After Ev.GLB_FW_NOTICE s)) ∧
    (∀ s : State, exec .mgmtRestartDone s = .next { s with hif := { s.hif with mgmtDown := false } })

/-- What a function reset and a hot reset at `s` leave cleared on the host's side (Table 2-13). What occurs during the reset sets its
status bit (R395). -/
def HostCleared (s t : State) : Prop :=
  t.hif.rings = [] ∧ t.hif.aborts = [] ∧ t.hif.msix = [] ∧ t.hif.msixPend = [] ∧ t.evt.srcs = [] ∧ t.evt.ringBase = 0 ∧
    t.rd F.HIF_CTRL_ENABLE = 0 ∧ t.rd F.HIF_CTRL_FEATURES_OK = 0 ∧ t.rd F.HIF_STATUS_RUNNING = 0 ∧
    (∀ o, ((0x10020 ≤ o ∧ o < 0x1004C) ∨ (0x11000 ≤ o ∧ o < 0x11200) ∨ (0x20040 ≤ o ∧ o < 0x20080) ∨
      (0x21000 ≤ o ∧ o < 0x21800)) → t.word o = resetWord o) ∧
    (s.hif.rings = [] → s.dec.pics = [] → s.dec.cur = none → ∀ o, 0x20000 ≤ o ∧ o < 0x20040 → t.word o = 0) ∧
    t.rd F.EVT_RING_STATUS_ACTIVE = 0 ∧ t.scn.presents = [] ∧ t.scn.shown = none ∧ t.cmp.transit = none ∧ t.cmp.pend = [] ∧
    t.syn.au = none ∧ t.syn.full = true ∧ t.rd F.CMP_RETIRE_CFG_EN = 0

/-- The resets that leave power on: what Table 2-13 clears on the host's side (R68), in a hot reset too (Table 19-4), and the
restart of the management core (R463). -/
def Obligations.ResetsClearTheHostSide : Prop :=
  (∀ s : State, s.bar0Open = true → Gives .functionReset s fun t => HostCleared s t ∧
      t.rd F.HIF_STATUS_RESET_BUSY = 1 ∧ t.rd F.GLB_RESET_CAUSE_FLR = 1) ∧
    (∀ s : State, s.powered = true → s.rd F.HIF_STATUS_RESET_BUSY = 0 → Gives .functionLevelReset s fun t => HostCleared s t ∧
      t.rd F.HIF_STATUS_RESET_BUSY = 1 ∧ t.rd F.GLB_RESET_CAUSE_FLR = 1) ∧
    (∀ s : State, s.powered = true → s.rd F.HIF_STATUS_RESET_BUSY = 1 → exec .functionLevelReset s = .next s) ∧
    (∀ s : State, s.powered = true → Gives .hotReset s fun t => HostCleared s t ∧ t.hif.linkUp = false ∧
      t.hif.hdm = HdmDecoder.reset ∧ t.hif.cxl = [] ∧ t.rd F.HIF_STATUS_RESET_BUSY = 0 ∧ t.rd F.GLB_RESET_CAUSE_HOT_RESET = 1) ∧
    (∀ s : State, s.powered = true → exec .functionResetDone s = .next (s.wr F.HIF_STATUS_RESET_BUSY 0)) ∧
    (∀ s : State, s.awake = true → s.ready = true → Gives .mgmtWatchdog s fun t => t.hif.mgmtDown = true ∧
      t.rd F.GLB_RESET_CAUSE_MGMT_RESTART = 1 ∧ Raised Ev.GLB_MGMT_RESTART t)

/-- Feature bit `i` is accepted. -/
def accepts (s : State) (i : Nat) : Bool := bitAt s.featAccept i

/-- R62: every accepted bit is offered. -/
def setOffered (s : State) : Prop := ∀ i < 128, accepts s i = true → bitAt s.featOffer i = true

/-- R62: exactly one ring version is accepted. -/
def setOneVersion (s : State) : Prop :=
  (accepts s 0 = true ∧ accepts s 1 = false ∧ accepts s 2 = false) ∨ (accepts s 0 = false ∧ accepts s 1 = true ∧ accepts s 2 = false) ∨
    (accepts s 0 = false ∧ accepts s 1 = false ∧ accepts s 2 = true)

/-- R62: DB_LINE or DB_MMIO is accepted. -/
def setDoorbell (s : State) : Prop := accepts s 3 = true ∨ accepts s 4 = true

/-- R62: DB_LINE only together with RING_V2 or RING_V3. -/
def setLineVersion (s : State) : Prop := accepts s 3 = true → accepts s 1 = true ∨ accepts s 2 = true

/-- The feature check of R62: the four conditions in their order, and what follows when they all hold or the first that
fails. -/
def Obligations.FeatureSetsAreHonouredOrRefused : Prop :=
  ∀ s : State, s.bar0Open = true → s.rd F.HIF_STATUS_RUNNING = 0 → s.rd F.HIF_CTRL_FEATURES_OK = 0 →
    (setOffered s ∧ setOneVersion s ∧ setDoorbell s ∧ setLineVersion s →
      exec .featuresOk s = .next ((s.wr F.HIF_CTRL_FEATURES_OK 1).wr F.HIF_STATUS_REJECT_REASON 0)) ∧
    ∀ r, ((r = 1 ∧ ¬setOffered s) ∨ (r = 2 ∧ setOffered s ∧ ¬setOneVersion s) ∨
        (r = 3 ∧ setOffered s ∧ setOneVersion s ∧ ¬setDoorbell s) ∨
        (r = 4 ∧ setOffered s ∧ setOneVersion s ∧ setDoorbell s ∧ ¬setLineVersion s)) →
      Gives .featuresOk s (After Ev.HIF_FEATURES_REFUSED ((s.wr F.HIF_CTRL_FEATURES_OK 0).wr F.HIF_STATUS_REJECT_REASON r))

/-- R69: LOG2_SIZE lies within the limits of a version (Table 2-4). -/
def ring0SizeOk (ver : Nat) (s : State) : Prop :=
  6 ≤ s.rd F.HIF_RING_CFG_LOG2_SIZE ∧ s.rd F.HIF_RING_CFG_LOG2_SIZE ≤ (if ver = 3 then 16 else if ver = 2 then 14 else 12)

/-- R69: the bases are not 0, and no address has bit 63 set. -/
def ring0BaseOk (s : State) : Prop :=
  s.ring0Base ≠ 0 ∧ s.ring0Cq ≠ 0 ∧ s.ring0Base < 2 ^ 63 ∧ s.ring0Cq < 2 ^ 63 ∧ s.ring0Line < 2 ^ 63

/-- Ring 0 has started, of a version and with a feature set, without a doorbell line: nothing in it, its doorbells 0, and beyond that
only FEATURES_OK and REJECT_REASON may differ. -/
def Ring0Started (s : State) (ver feats : Nat) (t : State) : Prop :=
  t.hif = { s.hif with feats := feats, rings := s.hif.rings ++
    [Ring.fresh 0 Cls.ADMIN (s.rd F.HIF_RING_CFG_LOG2_SIZE) (s.rd F.HIF_RING_CFG_VECTOR) 0 0 s.ring0Base s.ring0Cq 0] } ∧
  t.rd F.HIF_CTRL_ENABLE = 1 ∧ t.rd F.HIF_STATUS_RUNNING = 1 ∧ t.rd F.HIF_STATUS_RING_VER = ver ∧ t.rd F.HIF_STATUS_RING0_ERR = 0 ∧
  t.rd (F.HIF_DB_SQ_INDEX 0) = 0 ∧ t.rd (F.HIF_DB_CQ_INDEX 0) = 0 ∧ t = { s with regs := t.regs, hif := t.hif } ∧
  ∀ o, o ∉ [0x10000, 0x10004, 0x11000, 0x11004] → t.word o = s.word o

/-- What ENABLE does (R63, R69). -/
def Obligations.Ring0StartsOrSaysWhyNot : Prop :=
  (∀ (pi ci : Nat) (s : State), s.bar0Open = true → s.rd F.HIF_STATUS_RUNNING = 0 → s.ring? 0 = none →
    (ring0SizeOk 1 s → ring0BaseOk s → s.ring0Line = 0 → Gives (.enable false pi ci) s fun t =>
      Ring0Started s 1 (if s.rd F.HIF_STATUS_CXL_MODE = 1 then 0x31 else 0x11) t ∧ t.rd F.HIF_CTRL_FEATURES_OK = 0) ∧
    (∀ e, ((e = 1 ∧ ¬ring0SizeOk 1 s) ∨ (e = 2 ∧ ring0SizeOk 1 s ∧ ¬ring0BaseOk s) ∨
        (e = 3 ∧ ring0SizeOk 1 s ∧ ring0BaseOk s ∧ s.ring0Line ≠ 0)) →
      Gives (.enable false pi ci) s (After Ev.HIF_RING_FAULT
        (((s.wr F.HIF_CTRL_FEATURES_OK 0).wr F.HIF_CTRL_ENABLE 0).wr F.HIF_STATUS_RING0_ERR e))) ∧
    (∀ ver, s.rd F.HIF_CTRL_FEATURES_OK = 0 → setOffered s → setDoorbell s → setLineVersion s → setOneVersion s →
      1 ≤ ver → ver ≤ 3 → accepts s (ver - 1) = true → ring0SizeOk ver s → ring0BaseOk s → (s.ring0Line ≠ 0 → accepts s 3 = true) →
      Gives (.enable true pi ci) s fun t => t.rd F.HIF_CTRL_FEATURES_OK = 1 ∧ t.hif.feats = s.featAccept ∧
        t.rd F.HIF_STATUS_RUNNING = 1 ∧ t.rd F.HIF_CTRL_ENABLE = 1 ∧ t.rd F.HIF_STATUS_RING_VER = ver ∧ t.rd F.HIF_STATUS_RING0_ERR = 0 ∧
        (t.ring? 0).isSome = true ∧
        (s.ring0Line = 0 → Ring0Started s ver s.featAccept t) ∧
        (s.ring0Line ≠ 0 → pi ≤ 2 ^ s.rd F.HIF_RING_CFG_LOG2_SIZE → t.out = .lineRead s.ring0Line :: s.out ∧
          ∃ r, t.ring? 0 = some r ∧ r.lineShared = true ∧ r.pi = pi)) ∧
    (s.rd F.HIF_CTRL_FEATURES_OK = 0 → rejectReason s.featOffer s.featAccept ≠ 0 →
      Gives (.enable true pi ci) s fun t => t.rd F.HIF_STATUS_RING0_ERR = 4 ∧ t.rd F.HIF_STATUS_RUNNING = 0 ∧
        t.hif.rings = s.hif.rings ∧ Raised Ev.HIF_RING_FAULT t ∧ Raised Ev.HIF_FEATURES_REFUSED t)) ∧
    (∀ (f : Bool) (pi ci : Nat) (s : State), s.bar0Open = true → s.rd F.HIF_STATUS_RUNNING = 1 → exec (.enable f pi ci) s = .next s)

/-- MMIO doorbells (R58), doorbell lines (R57) and the fault state (R51). -/
def Obligations.DoorbellsAct : Prop :=
  (∀ (n : Nat) (val : Word) (s : State), s.bar0Open = true → n < 64 →
      (∀ r, s.ring? n = some r → r.dbLine ≠ 0 ∨ s.doorbellActs r.cls true = false) →
      exec (.hifDbSq n val) s = .next (s.setWord (0x11000 + 8 * n) val) ∧
      exec (.hifDbCq n val) s = .next (s.setWord (0x11004 + 8 * n) val)) ∧
    (∀ (n : Nat) (val : Word) (r : Ring) (s : State), s.bar0Open = true → n < 64 → s.ring? n = some r → r.dbLine = 0 →
      s.doorbellActs r.cls true = true → r.cqCi < 2 ^ s.idxW →
      let pi := val.toNat % 2 ^ s.idxW
      let dist := serialDelta s.idxW pi r.ci
      (r.fault = true → exec (.hifDbSq n val) s = .next ((s.setWord (0x11000 + 8 * n) val).setRing r)) ∧
      (r.fault = false → 0 ≤ dist ∧ dist ≤ 2 ^ r.log2 →
        exec (.hifDbSq n val) s = .next ((s.setWord (0x11000 + 8 * n) val).setRing { r with pi := pi })) ∧
      (r.fault = false → ¬(0 ≤ dist ∧ dist ≤ 2 ^ r.log2) →
        Gives (.hifDbSq n val) s (After Ev.HIF_RING_FAULT ((s.setWord (0x11000 + 8 * n) val).setRing { r with fault := true }))) ∧
      exec (.hifDbCq n val) s =
        .next ((s.setWord (0x11004 + 8 * n) val).setRing { r with cqCi := val.toNat % 2 ^ s.idxW })) ∧
    (∀ (n : Nat) (r : Ring) (s : State), s.ring? n = some r → r.dbLine ≠ 0 → r.lineShared = true →
      exec (.doorbellSnoop n) s = .next (s.setRing { r with lineShared := false })) ∧
    (∀ (n pi ci : Nat) (r : Ring) (s : State), s.ring? n = some r → r.dbLine ≠ 0 → r.lineShared = false →
      s.doorbellActs r.cls true = true → s.hostLink = true →
      let dist := serialDelta s.idxW (pi % 2 ^ s.idxW) r.ci
      let read := { r with lineShared := true, stale := false, cqCi := ci % 2 ^ s.idxW }
      let u := s.emit (.lineRead r.dbLine)
      (r.fault = true → exec (.doorbellReread n pi ci) s = .next (u.setRing read)) ∧
      (r.fault = false → 0 ≤ dist ∧ dist ≤ 2 ^ r.log2 →
        exec (.doorbellReread n pi ci) s = .next (u.setRing { read with pi := pi % 2 ^ s.idxW })) ∧
      (r.fault = false → ¬(0 ≤ dist ∧ dist ≤ 2 ^ r.log2) →
        Gives (.doorbellReread n pi ci) s (After Ev.HIF_RING_FAULT (u.setRing { read with fault := true }))))

/-- A descriptor's way through its ring (R47 to R50, R59); R64 for those that an abort has marked. -/
def Obligations.DescriptorsAreFetchedAndReported : Prop :=
  (∀ (n : Nat) (bytes : List Byte) (r : Ring) (s : State), s.ring? n = some r → s.hostLink = true → bytes.length = 64 →
      (r.fault = false ∧ r.stale = false ∧ serialLater s.idxW r.pi r.fetch = true ∧ s.doorbellActs r.cls false = true ∧
        s.serves r.cls = true) ∨ serialLater s.idxW r.abortTo r.fetch = true →
      exec (.descriptorFetch n bytes) s = .next ((s.emit (.descRead (r.sqBase + 64 * (r.fetch % 2 ^ r.log2)))).setRing
        (if serialLater s.idxW r.abortTo r.fetch then
        { r with fetch := (r.fetch + 1) % 2 ^ s.idxW, descs := r.descs ++ [⟨r.fetch, bytes, .done, Cpl.ABORTED, 0, 0, []⟩] }
      else { r with fetch := (r.fetch + 1) % 2 ^ s.idxW, abortTo := (r.fetch + 1) % 2 ^ s.idxW,
                    descs := r.descs ++ [⟨r.fetch, bytes, .waiting, 0, 0, 0, []⟩] }))) ∧
    (∀ (n : Nat) (r : Ring) (d : Desc) (ds : List Desc) (s : State), s.ring? n = some r → r.descs = d :: ds → d.phase = .done →
      s.retireHeld d = false → (∀ x, r.startable = some x → (opClass x.op).isSome = true) →
      exec (.descriptorRetire n) s = .next (s.setRing { r with descs := ds, recs := r.recs ++
        [⟨d.op, d.tag, d.status, d.cflags, d.info, d.idx + 1, d.event, d.evs⟩] })) ∧
    (∀ (n : Nat) (r : Ring) (d : Desc) (s : State), s.ring? n = some r → r.descs = [d] → d.phase = .waiting → d.fence = false →
      opClass d.op = none → s.serves r.cls = true →
      exec (.descriptorRetire n) s = .next (s.setRing { r with descs := [], recs := r.recs ++
        [⟨d.op, d.tag, Cpl.BAD_OPCODE, 0, 0, d.idx + 1, d.event, []⟩] })) ∧
    (∀ (n : Nat) (r : Ring) (c : CplRec) (cs : List CplRec) (s : State), s.ring? n = some r → r.recs = c :: cs →
      (r.cqPi + 2 ^ s.idxW - r.cqCi) % 2 ^ s.idxW < 2 ^ r.log2 → s.hostLink = true →
      Gives (.completionWrite n) s fun t =>
        let flags := c.cflags ||| (if s.dec.concealed = true ∧ r.cls = Cls.STREAM ∧ (c.op = 0x10 ∨ c.op = 0x12) then 2 else 0)
        let coalesces := c.event && r.coalUs != 0 && n != 0
        let full := decide (max 1 r.coalCount ≤ r.unsig + 1)
        (let record := Out.hostWrite (r.cqBase + 16 * (r.cqPi % 2 ^ r.log2))
          (leBytes c.tag 4 ++ leBytes c.status 2 ++ leBytes ((if r.cqPi / 2 ^ r.log2 % 2 = 0 then 1 else 0) + flags) 1 ++
            leBytes n 1 ++ leBytes c.info 4 ++ leBytes (c.sqHead % 2 ^ s.idxW) 4) false
        let masked := bitAt (s.msixWord (4 * r.vector + 3)).toNat 0
        let sent := if c.event && (!coalesces || full) && !masked then .msix r.vector :: record :: s.out else record :: s.out
        ∃ l, t.out = l ++ sent ∧ (c.evs = [] → l = [])) ∧
        (s.hif.aborts = [] → t.hif.rings = (s.setRing { r with
          recs := cs, cqPi := (r.cqPi + 1) % 2 ^ s.idxW, ci := c.sqHead % 2 ^ s.idxW
          unsig := if coalesces then (if full then 0 else r.unsig + 1) else r.unsig
          timer := if coalesces then !full else r.timer }).hif.rings)) ∧
    (∀ (n : Nat) (r : Ring) (s : State), s.ring? n = some r → r.timer = true →
      exec (.coalesceTimerExpiry n) s = .next ((s.setRing { r with unsig := 0, timer := false }).signal r.vector))

/-- The next descriptor of `ring` is `d`, carries opcode `op`, and passes every check (R52, R55). -/
def Passes (s : State) (ring op : Nat) (r : Ring) (d : Desc) (checks : List (Bool × Nat)) : Prop :=
  s.nextOp ring op = some (r, d) ∧ s.opAllowed r.cls op = true ∧ s.headerOk d = true ∧ ∀ p ∈ checks, p.1 = true

/-- A descriptor with its outcome. -/
def doneAs (status info : Nat) (d : Desc) : Desc :=
  { d with phase := .done, status := status, info := info, cflags := 0, evs := [] }

/-- The commands that run one descriptor and run in every state that serves their ring, with their opcodes (Table 2-7). -/
def opcodeRows : List ((Nat → Instr) × Nat) :=
  [(fun n => .createRing n 0 0, 0x01), (.deleteRing, 0x02), (.queueAbort, 0x03), (.nop, 0x05), (.evtRing, 0x06),
   (fun n => .streamPush n [], 0x10), (.streamReset, 0x11), (.loopPlay, 0x12), (.present, 0x20), (.shadowWrite, 0x30),
   (.commit, 0x31), (.bltRun, 0x50), (fun n => .logRead n [], 0x61), (fun n => .logWrite n [] ⟨[], none⟩, 0x62), (.flashRead, 0x63)]

/-- Ring creation and removal (R44, R49, R58), aborts (R66), NOP (Table 2-7), the event ring (R391), and what is refused
first (R52, R55). -/
def Obligations.RingManagement : Prop :=
  (∀ (ring : Nat) (r : Ring) (d : Desc) (s : State), Passes s ring 0x05 r d [(d.restZero [], Cpl.BAD_FIELD)] →
      exec (.nop ring) s = .next (s.modDesc ring d.idx (doneAs Cpl.SUCCESS 0))) ∧
    (∀ (ring pi ci : Nat) (r : Ring) (d : Desc) (s : State), Passes s ring 0x01 r d (s.createChecks r d) → leAt d.bytes 24 8 = 0 →
      let id := byteAt d.bytes 32
      let n := Ring.fresh id (byteAt d.bytes 33) (byteAt d.bytes 34) (byteAt d.bytes 35) (leAt d.bytes 36 2) (leAt d.bytes 38 2)
        (leAt d.bytes 8 8) (leAt d.bytes 16 8) 0
      exec (.createRing ring pi ci) s = .next ((((({ s with hif := { s.hif with rings := s.hif.rings ++ [n] } } : State).wr
        (F.HIF_DB_SQ_INDEX id) 0).wr (F.HIF_DB_CQ_INDEX id) 0)).modDesc ring d.idx (doneAs Cpl.SUCCESS 0))) ∧
    (∀ (ring pi ci : Nat) (r : Ring) (d : Desc) (s : State), Passes s ring 0x01 r d (s.createChecks r d) → leAt d.bytes 24 8 ≠ 0 →
      Gives (.createRing ring pi ci) s fun t => ∃ n, t.ring? (byteAt d.bytes 32) = some n ∧ n.cls = byteAt d.bytes 33 ∧
        n.log2 = byteAt d.bytes 34 ∧ n.sqBase = leAt d.bytes 8 8 ∧ n.cqBase = leAt d.bytes 16 8 ∧ n.dbLine = leAt d.bytes 24 8 ∧
        n.descs = [] ∧ n.recs = [] ∧ n.fetch = 0 ∧ n.ci = 0 ∧
        (s.doorbellActs n.cls true = true → n.lineShared = true ∧ (pi ≤ 2 ^ n.log2 → n.pi = pi ∧ t.out = .lineRead n.dbLine :: s.out)) ∧
        (s.doorbellActs n.cls true = false → n.lineShared = false ∧ n.pi = 0 ∧ t.out = s.out)) ∧
    (∀ (ring : Nat) (r : Ring) (d : Desc) (s : State), Passes s ring 0x03 r d (s.ringIdChecks r d) →
      exec (.queueAbort ring) s = .next ((s.run ring d.idx).beginAbort
        ⟨byteAt d.bytes 8, [byteAt d.bytes 8], some d.idx, false, 0⟩)) ∧
    (∀ (ring : Nat) (r : Ring) (d : Desc) (s : State), Passes s ring 0x02 r d (s.ringIdChecks r d) →
      exec (.deleteRing ring) s = .next ((s.run ring d.idx).beginAbort
        ⟨byteAt d.bytes 8, [byteAt d.bytes 8], some d.idx, true, 0⟩)) ∧
    (∀ (ring : Nat) (r : Ring) (d : Desc) (s : State), s.nextOp ring 0x06 = some (r, d) → s.opAllowed r.cls 0x06 = true →
      s.headerOk d = true → d.restZero [(8, 10)] = true → leAt d.bytes 8 8 < 2 ^ 63 → leAt d.bytes 8 8 % 4096 = 0 →
      6 ≤ byteAt d.bytes 16 → byteAt d.bytes 16 ≤ 16 → byteAt d.bytes 17 ≤ 63 →
      Gives (.evtRing ring) s fun t => t.evt = { s.evt with ringBase := leAt d.bytes 8 8, ringVec := byteAt d.bytes 17 } ∧
        t.rd F.EVT_RING_STATUS_ACTIVE = (if leAt d.bytes 8 8 = 0 then 0 else 1) ∧
        (leAt d.bytes 8 8 ≠ 0 → t.rd F.EVT_RING_STATUS_LOG2_SIZE = byteAt d.bytes 16) ∧ t.rd F.EVT_RING_PI_INDEX = 0 ∧
        t.rd F.EVT_RING_CI_INDEX = 0 ∧ t.rd F.EVT_CNT_LOST_COUNT = 0 ∧
        t.hif = (s.modDesc ring d.idx (doneAs Cpl.SUCCESS 0)).hif ∧
        ∀ o, o ∉ [0x20090, 0x20094, 0x20098, 0x2009C] → t.word o = s.word o) ∧
    (∀ p ∈ opcodeRows, ∀ (ring : Nat) (r : Ring) (d : Desc) (s : State), s.nextOp ring p.2 = some (r, d) →
      s.nvs.logOp = none → s.nvs.flashOp = none → s.opAllowed r.cls p.2 = false → exec (p.1 ring) s = .next (s.modDesc ring d.idx (doneAs Cpl.BAD_OPCODE 0)))

/-- The emergency abort (R67) and its abort point (R64). -/
def Obligations.EmergencyAborts : Prop :=
  (∀ (ring : Nat) (all : Bool) (s : State), s.bar0Open = true → s.rd F.HIF_ABORT_STATUS_BUSY = 0 → ring < 64 →
      ((s.hif.rings.map Ring.num).filter (fun n => all || n == ring) = [] →
        Gives (.hifAbort ring all) s fun t => t.rd F.HIF_ABORT_STATUS_DONE = 1 ∧
        t.rd F.HIF_ABORT_STATUS_BUSY = 0 ∧ t.rd F.HIF_ABORT_STATUS_COUNT = 0 ∧ t.rd F.HIF_ABORT_RING_ID = ring ∧
        Raised Ev.HIF_ABORT_DONE t ∧ t.hif.aborts = s.hif.aborts ∧ WordsKept [0x10050, 0x10054] s t) ∧
      ((s.hif.rings.map Ring.num).filter (fun n => all || n == ring) ≠ [] →
        Gives (.hifAbort ring all) s fun t => t.rd F.HIF_ABORT_STATUS_BUSY = 1 ∧
          t.hif = { s.hif with aborts := s.hif.aborts ++
            [⟨ring, (s.hif.rings.map Ring.num).filter (fun n => all || n == ring), none, false, 0⟩] } ∧
          t = { s with regs := t.regs, hif := t.hif } ∧ ∀ o, o ∉ [0x10050, 0x10054] → t.word o = s.word o)) ∧
    (∀ (n : Nat) (all : Bool) (s : State), s.bar0Open = true → s.rd F.HIF_ABORT_STATUS_BUSY = 1 →
      Gives (.hifAbort n all) s fun t => t.hif = s.hif ∧ ∀ o, o ≠ 0x10050 → t.word o = s.word o) ∧
    (∀ (n pi ci : Nat) (r : Ring) (a : AbortOp) (s : State), s.awake = true → s.rd F.HIF_STATUS_RESET_BUSY = 0 →
      s.ring? n = some r → s.hif.aborts = [a] → a.targets = [n] → a.delete = false →
      (if r.dbLine = 0 then s.rd (F.HIF_DB_SQ_INDEX n) else pi) = r.pi → r.pi < 2 ^ s.idxW → r.fault = false →
      serialLater s.idxW r.pi r.fetch = false → serialLater s.idxW r.abortTo r.fetch = false →
      piLegal s.idxW (2 ^ r.log2) r.pi r.ci = true →
      let count := a.count + (r.descs.filter fun d => d.phase != .done && serialLater s.idxW r.pi d.idx).length
      (a.admin = none → Gives (.abortPoint n pi ci) s fun t => t.rd F.HIF_ABORT_STATUS_DONE = 1 ∧ t.rd F.HIF_ABORT_STATUS_BUSY = 0 ∧
        t.rd F.HIF_ABORT_STATUS_COUNT = count % 2 ^ 24 ∧ Raised Ev.HIF_ABORT_DONE t ∧ t.hif.aborts = []) ∧
      (∀ idx, a.admin = some idx → Gives (.abortPoint n pi ci) s fun t => t.hif.aborts = [] ∧
        ∀ r₀ ∈ t.hif.rings, r₀.num = 0 → ∀ d ∈ r₀.descs, d.idx = idx →
          d.phase = .done ∧ d.status = Cpl.SUCCESS ∧ d.info = count))

/-- R390: a test raise is one occurrence of its source; a reserved number does nothing (the SOURCE field itself is stored). -/
def Obligations.TestRaisesOneOccurrence : Prop :=
  ∀ (src : Nat) (s : State), s.bar0Open = true → src < 512 →
    (evtInUse src = false → exec (.evtTest src) s = .next (s.wr F.EVT_TEST_SOURCE src)) ∧
    (evtInUse src = true → Gives (.evtTest src) s fun t => After src (s.wr F.EVT_TEST_SOURCE src) t ∧
      (s.evt.wait = none → s.rd (evtEnableFld src) = 0 → t.out = s.out) ∧
      (s.evt.wait = none → s.rd (evtEnableFld src) = 1 → s.evtSrc src = none → s.rd (F.EVT_ROUTE_RING src) = 0 →
        s.rd (F.EVT_ROUTE_COAL_US src) = 0 → bitAt (s.msixWord (4 * s.rd (F.EVT_ROUTE_VECTOR src) + 3)).toNat 0 = false →
        t.out = .msix (s.rd (F.EVT_ROUTE_VECTOR src)) :: s.out))

/-- R392: room in the event ring, and what a loss does. -/
def Obligations.FullEventRingLosesRecords : Prop :=
  ∀ (src : Nat) (s : State), s.bar0Open = true → src < 512 → evtInUse src = true → src ≠ 481 → s.evt.wait = none →
    s.rd (evtEnableFld src) = 1 → s.evtSrc src = none → s.rd (F.EVT_ROUTE_COAL_US src) = 0 → s.rd (F.EVT_ROUTE_RING src) = 1 →
    s.rd F.EVT_RING_STATUS_ACTIVE = 1 →
    let size := 2 ^ s.rd F.EVT_RING_STATUS_LOG2_SIZE
    let pi := s.rd F.EVT_RING_PI_INDEX
    let unconsumed := (pi + 2 ^ 32 - s.rd F.EVT_RING_CI_INDEX) % 2 ^ 32
    (unconsumed < size → bitAt (s.msixWord (4 * s.evt.ringVec + 3)).toNat 0 = false → Gives (.evtTest src) s fun t =>
      t.rd F.EVT_RING_PI_INDEX = (pi + 1) % 2 ^ 32 ∧ t.evt.lost = false ∧ t.rd F.EVT_CNT_LOST_COUNT = s.rd F.EVT_CNT_LOST_COUNT ∧
      t.out = .msix s.evt.ringVec :: .hostWrite (s.evt.ringBase + 16 * (pi % size))
        (leBytes src 2 ++ leBytes ((if pi / size % 2 = 0 then 1 else 0) + (if s.evt.lost then 2 else 0)) 1 ++ leBytes 1 1 ++
          leBytes s.frameNo 4 ++ leBytes s.ropeStamp 8) false :: s.out) ∧
    (size ≤ unconsumed → Gives (.evtTest src) s fun t =>
      t.rd F.EVT_RING_PI_INDEX = pi ∧ t.evt.lost = true ∧ t.rd F.EVT_RING_STATUS_OVF = 1 ∧
      t.rd F.EVT_CNT_LOST_COUNT = min (s.rd F.EVT_CNT_LOST_COUNT + 1) (2 ^ 32 - 1) ∧ Raised Ev.GLB_EVT_RING_OVF t ∧
      (s.rd (evtEnableFld 481) = 0 → t.out = s.out) ∧
      (s.rd (evtEnableFld 481) = 1 → s.evtSrc 481 = none → bitAt (s.msixWord (4 * s.rd (F.EVT_ROUTE_VECTOR 481) + 3)).toNat 0 = false →
        t.out = .msix (s.rd (F.EVT_ROUTE_VECTOR 481)) :: s.out))

/-- Event enables (R386), coalescing (R387) and masked vectors (R388). -/
def Obligations.EventsAreEnabledHeldAndSignalled : Prop :=
  (∀ (g : Nat) (val : Word) (s : State), s.bar0Open = true → g < 16 →
      Gives (.evtEnable g val) s fun t => t.word (0x20040 + 4 * g) = val ∧
        ((∀ r ∈ s.hif.rings, (∀ d ∈ r.descs, d.evs = []) ∧ ∀ c ∈ r.recs, c.evs = []) →
          EventsOnly (s.setWord (0x20040 + 4 * g) val) t) ∧
        (∀ i < 32, bitAt (s.word (0x20040 + 4 * g)).toNat i = true → bitAt val.toNat i = false → t.evtSrc (32 * g + i) = none ∧
          ∀ r ∈ t.hif.rings, (∀ d ∈ r.descs, ∀ h ∈ d.evs, h.src ≠ 32 * g + i) ∧ ∀ c ∈ r.recs, ∀ h ∈ c.evs, h.src ≠ 32 * g + i) ∧
        (val.toNat &&& (s.word (0x20040 + 4 * g)).toNat = val.toNat → t.out = s.out)) ∧
    (∀ (g i : Nat) (val : Word) (s : State), s.bar0Open = true → g < 16 → i < 32 → evtInUse (32 * g + i) = true →
      s.word (0x20040 + 4 * g) = 0 → val.toNat = 2 ^ i → s.rd (evtStatusFld (32 * g + i)) = 1 →
      s.rd (F.EVT_ROUTE_RING (32 * g + i)) = 0 →
      bitAt (s.msixWord (4 * s.rd (F.EVT_ROUTE_VECTOR (32 * g + i)) + 3)).toNat 0 = false →
      Gives (.evtEnable g val) s fun t => t.out = .msix (s.rd (F.EVT_ROUTE_VECTOR (32 * g + i))) :: s.out) ∧
    (∀ (src : Nat) (e : EvtSrc) (s : State), s.evtSrc src = some e → e.running = true →
      (e.count = 0 → exec (.eventCoalesceExpiry src) s =
        .next { s with evt := { s.evt with srcs := s.evt.srcs.filter fun x => x.src != src } }) ∧
      (0 < e.count → s.awake = true → Gives (.eventCoalesceExpiry src) s fun t => EventsOnly s t ∧
        t.evtSrc src = if s.rd (F.EVT_ROUTE_COAL_US src) = 0 then none else some ⟨src, true, 0, 0, 0⟩) ∧
      (0 < e.count → s.awake = false → exec (.eventCoalesceExpiry src) s = .next (s.setEvtSrc { e with running := false })) ∧
      (0 < e.count → s.awake = true → s.rd (F.EVT_ROUTE_RING src) = 0 →
        bitAt (s.msixWord (4 * s.rd (F.EVT_ROUTE_VECTOR src) + 3)).toNat 0 = false →
        Gives (.eventCoalesceExpiry src) s fun t => t.out = .msix (s.rd (F.EVT_ROUTE_VECTOR src)) :: s.out ∧ t.regs = s.regs)) ∧
    (∀ (off : Nat) (val : Word) (s : State), s.awake = true → off < 0x400 → off % 4 = 0 →
      Gives (.msixTableWrite off val) s fun t => t.msixWord (off / 4) = val ∧ (∀ i, i ≠ off / 4 → t.msixWord i = s.msixWord i) ∧
        t = { s with out := t.out, hif := t.hif } ∧
        if off % 16 = 12 ∧ bitAt val.toNat 0 = false ∧ off / 16 ∈ s.hif.msixPend then
          t.out = .msix (off / 16) :: s.out ∧ t.hif = { s.hif with msix := t.hif.msix, msixPend := s.hif.msixPend.filter (· != off / 16) }
        else t.out = s.out ∧ t.hif = { s.hif with msix := t.hif.msix })

/-- The symbol guard: RS(36,32) with the generator of R327 and the classes of R328. -/
def Obligations.SymbolGuardCorrectsOneSymbol : Prop :=
  ∀ data : List Nat, data.length = 32 → (∀ b ∈ data, b < 256) →
    guardClassify (data ++ guardCheck data) = .good ∧
    ∀ i e, i < 36 → 0 < e → e < 256 →
      guardClassify ((data ++ guardCheck data).modify i (· ^^^ e)) = .correctable i e

/-- Table 12-1: the interleaved and the affine placement of a pair (R324) lose no address and use none twice. -/
def Obligations.DeviceAddressesMapOneToOne : Prop :=
  ∀ (m : MemSt) (a b : Nat), a < 2 ^ 36 → b < 2 ^ 36 →
    m.stackOf a < 4 ∧ m.stackOffset a < 2 ^ 34 ∧ (m.stackOf a = m.stackOf b → m.stackOffset a = m.stackOffset b → a = b)

/-- Whole lines from device address `a` hold `data`, with valid check bytes; beyond the completion and memory nothing changed. -/
def LinesStored (a : Nat) (data : List Byte) (s t : State) : Prop :=
  t.out = .cxlDone :: s.out ∧ (∀ i, i < data.length → t.mem.dataAt (a + i) = data.getD i 0) ∧
    (∀ k, k < data.length / 32 → (t.mem.codeword (a / 32 + k)).drop 32 =
      (guardCheck ((t.mem.rawData (a / 32 + k)).map BitVec.toNat)).map (· % 256)) ∧
    BytesKept a (a + data.length) s t ∧ t = { s with out := t.out, mem := t.mem } ∧
    t.mem = { s.mem with data := t.mem.data, check := t.mem.check, traffic := t.mem.traffic }

/-- Host access to device memory (R40 to R42): what whole lines store (R331) and what a read answers. The fault is the
model's stop for an access that cannot reach the device; where decoder 0 maps, and what a changing pair answers, rest on log
entries 220 and 1202. Bytes are read back in canonical memories, which every step keeps. -/
def Obligations.HostLinesOfDeviceMemory : Prop :=
  (∀ (hpa : Nat) (s : State), s.hif.hdm.committed = false ∨ hpa < s.hif.hdm.base ∨ s.hif.hdm.base + s.hif.hdm.size ≤ hpa →
      s.cxlLine hpa = none) ∧
    (∀ (hpa : Nat) (s : State), s.hif.hdm.committed = true → s.hif.hdm.ways = 0 → s.hif.hdm.base ≤ hpa →
      hpa < s.hif.hdm.base + s.hif.hdm.size →
      s.cxlLine hpa = if hpa - s.hif.hdm.base + 64 ≤ 58 * 2 ^ 30 then some (hpa - s.hif.hdm.base) else none) ∧
    (∀ (hpa a : Nat) (s : State), s.cxlLine hpa = some a → a + 64 ≤ 58 * 2 ^ 30) ∧
    (∀ (addr a : Nat) (data : List Byte) (s : State), s.canonical = true → s.cxlMemUp = true → addr % 64 = 0 → s.cxlLine addr = some a →
      a % 64 = 0 → data.length = 64 → (a / 2 ^ 31) ∉ s.mem.reinit →
      Gives (.cxlMemWrite addr data) s (LinesStored a data s)) ∧
    (∀ (addr : Nat) (data : List Byte) (s : State), s.canonical = true → s.cxlMemUp = true → s.mem.reinit = [] → s.hif.hdm.committed = true →
      s.hif.hdm.ways = 0 → s.hif.hdm.base % 64 = 0 → addr % 64 = 0 → data.length % 64 = 0 → s.hif.hdm.base ≤ addr →
      addr + data.length ≤ s.hif.hdm.base + s.hif.hdm.size → addr - s.hif.hdm.base + data.length ≤ 58 * 2 ^ 30 →
      Gives (.cxlMemWrite addr data) s (LinesStored (addr - s.hif.hdm.base) data s)) ∧
    (∀ (addr a : Nat) (u : List Upset) (s : State), s.canonical = true → s.cxlMemUp = true → addr % 64 = 0 → s.cxlLine addr = some a →
      a % 64 = 0 →
      (a / 2 ^ 31) ∉ s.mem.reinit →
      let m := u.foldl MemSt.upset s.mem
      Gives (.cxlMemRead addr 1 u) s fun t => (∃ l, t.out = l ++ .cxlData (m.peek a 64) :: s.out) ∧ (m.peek a 64).length = 64 ∧
        ∀ i < 64, (m.peek a 64).getD i ⟨0, true⟩ = match m.classify ((a + i) / 32) with
          | .good => ⟨m.dataAt (a + i), false⟩
          | .correctable p e => ⟨(m.correct ((a + i) / 32) p e).dataAt (a + i), false⟩
          | .poisoned | .uncorrectable => ⟨m.dataAt (a + i), true⟩) ∧
    (∀ (addr lines : Nat) (as : List Nat) (s : State), s.cxlMemUp = true → s.mem.reinit = [] → s.cxlLines addr lines = some as →
      (∀ a ∈ as, a % 64 = 0 ∧ s.mem.classify (a / 32) = .good ∧ s.mem.classify (a / 32 + 1) = .good) →
      Gives (.cxlMemRead addr lines []) s fun t => t.out = (as.map fun a => Out.cxlData (s.mem.peek a 64)).reverse ++ s.out ∧
        t.mem.data = s.mem.data ∧ t.mem.check = s.mem.check ∧ t.regs = s.regs) ∧
    (∀ (addr a : Nat) (data : List Byte) (s : State), s.cxlMemUp = true → addr % 64 = 0 → s.cxlLine addr = some a →
      (a / 2 ^ 31) ∈ s.mem.reinit →
      (data.length = 64 → exec (.cxlMemWrite addr data) s = .next (s.emit .cxlDone)) ∧
      exec (.cxlMemRead addr 1 []) s =
        .next ((s.emit (.cxlData ((List.range 64).map fun i => ⟨Config.freeByte (s.freeCtr + i), false⟩))).drawn 64)) ∧
    (∀ (addr lines : Nat) (u : List Upset) (data : List Byte) (s : State),
      (s.cxlLines addr lines = none → exec (.cxlMemRead addr lines u) s = .fault .hdmUnmapped) ∧
      (s.cxlLines addr ((data.length + 63) / 64) = none → exec (.cxlMemWrite addr data) s = .fault .hdmUnmapped) ∧
      (s.cxlMemUp = false → (s.cxlLines addr lines).isSome = true → exec (.cxlMemRead addr lines u) s = .next s) ∧
      (s.cxlMemUp = false → (s.cxlLines addr ((data.length + 63) / 64)).isSome = true → exec (.cxlMemWrite addr data) s = .next s))

/-- Patrol scrub (R333) with the four classes of a sector read (R328 to R330), in canonical memories, which every step keeps. -/
def Obligations.ScrubClassifiesItsSector : Prop :=
  ∀ s : State, s.canonical = true → s.awake = true → s.ready = true → s.rd F.MEM_CTRL_SCRUB_EN = 1 → s.scrubPaused = false →
    let pos := s.rd F.MEM_SCRUB_POS_SECTOR
    Gives (.patrolScrubRead []) s fun t =>
      t.rd F.MEM_SCRUB_POS_SECTOR = (pos + 1) % 2 ^ 31 ∧
      (pos + 1 = 2 ^ 31 → t.rd (F.MEM_CNT_COUNT 4) = min (s.rd (F.MEM_CNT_COUNT 4) + 1) (2 ^ 32 - 1) ∧ Raised Ev.MEM_SCRUB_PASS t) ∧
      (s.mem.classify pos = .good → t.mem.data = s.mem.data ∧ t.mem.check = s.mem.check) ∧
      (∀ p e, s.mem.classify pos = .correctable p e →
        t.mem.data = (s.mem.correct pos p e).data ∧ t.mem.check = (s.mem.correct pos p e).check ∧
        t.rd (F.MEM_CNT_COUNT 0) = min (s.rd (F.MEM_CNT_COUNT 0) + 1) (2 ^ 32 - 1)) ∧
      (s.mem.classify pos = .poisoned → t.mem.data = s.mem.data ∧ t.mem.check = s.mem.check ∧
        t.rd (F.MEM_CNT_COUNT 2) = min (s.rd (F.MEM_CNT_COUNT 2) + 1) (2 ^ 32 - 1)) ∧
      (s.mem.classify pos = .uncorrectable → t.mem.rawData pos = s.mem.rawData pos ∧
        t.mem.check = (s.mem.poisonSector pos).check ∧
        t.rd (F.MEM_CNT_COUNT 1) = min (s.rd (F.MEM_CNT_COUNT 1) + 1) (2 ^ 32 - 1) ∧ Raised Ev.MEM_UNCORR t ∧
        (s.rd F.MEM_ERR_INFO_VALID = 0 → t.rd F.MEM_ERR_INFO_VALID = 1 ∧ t.rd F.MEM_ERR_ADDR_LO_ADDR_LO = pos % 2 ^ 27 ∧
          t.rd F.MEM_ERR_ADDR_HI_ADDR_HI = pos / 2 ^ 27 ∧ t.rd F.MEM_ERR_INFO_STACK = s.mem.stackOf (32 * pos) ∧
          t.rd F.MEM_ERR_INFO_CLASS = 5) ∧
        (s.rd F.MEM_ERR_INFO_VALID = 1 → t.rd F.MEM_ERR_INFO_OVF = 1 ∧
          t.rd F.MEM_ERR_ADDR_LO_ADDR_LO = s.rd F.MEM_ERR_ADDR_LO_ADDR_LO))

/-- Pair modes (R325), the clear map's background clear (R326) and MEM_BW (R338). -/
def Obligations.PairModesChangeByReinitialisation : Prop :=
  (∀ (val : Word) (s : State), s.bar0Open = true → s.initBusy = true → exec (.memAffine val) s = .next s) ∧
    (∀ (val : Word) (s : State), s.bar0Open = true → s.initBusy = false → Gives (.memAffine val) s fun t =>
      t.mem.affine = val.toNat % 2 ^ 29 ∧ t.rd F.MEM_AFFINE_PAIR = val.toNat % 2 ^ 29 ∧
      t.mem.reinit = (List.range 29).filter (fun j => bitAt s.mem.affine j != bitAt val.toNat j) ∧
      (∀ a, t.mem.dataAt a = if a / 2 ^ 31 ∈ t.mem.reinit then 0 else s.mem.dataAt a) ∧
      (∀ sec i, i < 4 → t.mem.checkAt sec i = if sec / 2 ^ 26 ∈ t.mem.reinit then 0 else s.mem.checkAt sec i) ∧
      t = { s with regs := t.regs, mem := t.mem } ∧ ∀ o, o ≠ 0x90008 → t.word o = s.word o) ∧
    (∀ (j : Nat) (js : List Nat) (s : State), s.mem.reinit = j :: js → s.awake = true →
      Gives .pairReinitDone s fun t => t.mem = { s.mem with reinit := js } ∧ (js = [] → Raised Ev.MEM_INIT_DONE t) ∧
        (js ≠ [] → t = { s with mem := t.mem })) ∧
    (∀ s : State, exec .backgroundClearDone s = .next { s with mem := { s.mem with clearing := false } }) ∧
    (∀ s : State, s.awake = true → Gives .memBwInterval s fun t =>
      (∀ k < 3, t.rd (F.MEM_BW_LOW k) = min (s.mem.traffic.getD (2 * k) 0 / 1000000) 65535 ∧
        t.rd (F.MEM_BW_HIGH k) = min (s.mem.traffic.getD (2 * k + 1) 0 / 1000000) 65535) ∧
      t.mem = { s.mem with traffic := [0, 0, 0, 0, 0, 0] } ∧ t = { s with regs := t.regs, mem := t.mem } ∧
      ∀ o, o ∉ [0x90030, 0x90034, 0x90038] → t.word o = s.word o)

/-- How STREAM descriptors reach the parser (R141, R485), and what STREAM_RESET does (R126, R81). -/
def Obligations.StreamDescriptorsFeedTheParser : Prop :=
  (∀ (ring : Nat) (data : List Byte) (r : Ring) (d : Desc) (s : State),
      let src := leAt d.bytes 8 8
      let len := leAt d.bytes 16 4
      Passes s ring 0x10 r d [(d.restZero [(8, 8), (16, 4)] && addrForm src && len % 8 == 0, Cpl.BAD_FIELD),
        (s.bufOk .dec false src len && s.cfgOk, Cpl.BAD_ADDRESS)] →
      0 < len → (∀ f ∈ s.dec.feeds, s.dec.feedDone f = false) →
      exec (.streamPush ring data) s = .next ({ s.run ring d.idx with dec := { s.dec with
        rank := s.dec.rank + 1
        feeds := s.dec.feeds ++ [{ Feed.start ring d.idx len with
          fid := s.dec.rank + 1
          dev := if src < 2 ^ 63 then none else some (src - 2 ^ 63)
          bytes := if src < 2 ^ 63 then padTo len 0 data else [] }] } })) ∧
    (∀ (ring : Nat) (r : Ring) (d : Desc) (s : State),
      let src := leAt d.bytes 8 8
      let len := leAt d.bytes 16 4
      Passes s ring 0x12 r d [(d.restZero [(8, 8), (16, 4), (20, 4)] && isDevice src, Cpl.BAD_FIELD),
        (s.rangeOk .dec false (src - 2 ^ 63) len && s.cfgOk, Cpl.BAD_ADDRESS)] →
      0 < len → (∀ f ∈ s.dec.feeds, s.dec.feedDone f = false) →
      exec (.loopPlay ring) s = .next ({ s.run ring d.idx with dec := { s.dec with
        rank := s.dec.rank + 1
        feeds := s.dec.feeds ++ [{ Feed.start ring d.idx len with
          fid := s.dec.rank + 1, isLoop := true, repeat_ := leAt d.bytes 20 4, dev := some (src - 2 ^ 63) }] } })) ∧
    (∀ (ring : Nat) (r : Ring) (d : Desc) (s : State), Passes s ring 0x11 r d [(d.restZero [], Cpl.BAD_FIELD)] →
      Gives (.streamReset ring) s fun t => t.dec.rank = s.dec.rank + 1 ∧
        t.dec.feeds.getLast? = some { Feed.start ring d.idx 0 with fid := s.dec.rank + 1, isReset := true } ∧
        ∀ f ∈ t.dec.feeds, f.isLoop = true → f.parsed = true) ∧
    (∀ (f : Feed) (s : State), (s.dec.feeds.find? fun f => !f.parsed) = some f → f.isReset = true → s.pwr.st = .s0 →
      (s.descsOf f.ring).head?.map Desc.idx = some f.idx →
      Gives .streamResetTakesEffect s fun t => t.dec.temporal = List.replicate 36 [] ∧ t.dec.needKey = true ∧ t.dec.mode ≠ .inAu ∧
        (∀ g ∈ t.dec.feeds, g.fid ≠ f.fid) ∧
        ∀ d ∈ t.descsOf f.ring, d.idx = f.idx → d.phase = .done ∧ d.status = Cpl.SUCCESS)

/-- The parser runs, and its next parcel is `p`, of kind `k`, intact and not poisoned, in the buffer `bs` of feed `f`. -/
def Takes (s : State) (f : Feed) (bs : List MByte) (k : PKind) (p : Parcel) : Prop :=
  s.nextParcel = some (f, bs, k) ∧ s.decRuns = true ∧ s.cfgOk = true ∧ parcelAt (bs.map MByte.val) f.pos = some p ∧
    (s.takeParcel f bs).2 = false

/-- The parser, parcel by parcel (chapter 3). -/
def Obligations.ParcelsAreParsed : Prop :=
  ∀ (f : Feed) (bs : List MByte) (p : Parcel) (s : State),
    let u := (s.takeParcel f bs).1
    let b := byteAt p.payload
    (Takes s f bs .seq p → p.view = 0xFF → 16 ≤ p.payload.length →
      (¬(b 0 = 1 ∧ (b 2 = 1 ∨ b 2 = 2) ∧ (b 3 = 10 ∨ b 3 = 20 ∨ b 3 = 30)) →
        Gives .seqParcel s fun t => t.dec.mode = .stretch false ∧ t.regs = u.regs) ∧
      (b 0 = 1 → (b 2 = 1 ∨ b 2 = 2) → (b 3 = 10 ∨ b 3 = 20 ∨ b 3 = 30) →
        (leAt p.payload 4 2 = u.geo.cols → leAt p.payload 6 2 = u.geo.rows → leAt p.payload 8 2 ≠ 0 → b 10 ≤ 4 →
          Gives .seqParcel s fun t => t.dec.mode = .afterSeq ∧
          t.dec.seq = some ⟨leAt p.payload 8 2, b 10⟩ ∧ t.dec.gridOk = false ∧ t.dec.needKey = true ∧ t.regs = u.regs) ∧
        (¬(leAt p.payload 4 2 = u.geo.cols ∧ leAt p.payload 6 2 = u.geo.rows) → Gives .seqParcel s fun t =>
          t.dec.mode = .stretch true ∧ Raised Ev.DEC_SEQ_MISMATCH t ∧ Raised Ev.DEC_DAMAGED t))) ∧
    (∀ g, Takes s f bs .grid p → u.dec.mode = .afterSeq → gridOf p.payload = some g → p.view = 0xFF → g.u = u.geo.gu →
      g.v = u.geo.gv → Gives .gridParcel s fun t => t.dec.mode = .afterGrid ∧ t.dec.gridNew = some g ∧ t.dec.gridOk = true) ∧
    (Takes s f bs .grid p → u.dec.mode = .afterSeq → 2 ≤ p.payload.length → b 0 ≠ u.geo.gu ∨ b 1 ≠ u.geo.gv →
      Gives .gridParcel s fun t => t.dec.mode = .stretch true ∧ Raised Ev.DEC_SEQ_MISMATCH t ∧ Raised Ev.DEC_DAMAGED t) ∧
    (Takes s f bs .au p → p.view = 0xFF → p.payload.length = 8 → u.dec.gridOk = true →
      (u.dec.mode = .afterGrid ∨ u.dec.mode = .inAu ∨ u.dec.mode = .auBad ∨ u.dec.mode = .afterReset) →
      (bitAt (b 4) 0 = true → Gives .auParcel s fun t => t.dec.mode = .inAu ∧ t.dec.needKey = false ∧
        t.dec.temporal = List.replicate 36 [] ∧
        ∃ c, t.dec.cur = some c ∧ c.id = leAt p.payload 0 4 ∧ c.key = true ∧ c.live = true ∧ c.done = []) ∧
      (bitAt (b 4) 0 = false → (u.dec.needKey = true ∨ u.dec.auFollows (leAt p.payload 0 4) = false) →
        Gives .auParcel s fun t => t.dec.mode = .auBad ∧ t.dec.cur = u.dec.cur ∧ Raised Ev.DEC_DAMAGED t)) ∧
    (∀ c g q, Takes s f bs .viewpic p → u.dec.mode = .inAu → u.dec.cur = some c → u.dec.grid = some g → u.dec.seq = some q →
      p.payload.length = 24 → u.dec.viewpicOk c g p.view b (leAt p.payload 0 4) q.maxTref = true → p.view < u.dec.cfg.anchors →
      6 * (viewPicOf u.geo b).cw * (viewPicOf u.geo b).ch ≤ u.dec.cfg.stride * 4096 →
      (∀ k, u.chooseSlot p.view = some k → Gives .viewpicParcel s fun t => t.dec.adm = u.dec.adm + 1 ∧
        t.dec.temporal = u.dec.temporal.set p.view (((u.dec.adm + 1) :: u.dec.tempOf p.view).take 4) ∧
        (∃ c', t.dec.cur = some c' ∧ c'.done = p.view :: c.done) ∧
        ((∀ q ∈ u.dec.pics, q.addr = u.dec.cfg.slotAddr p.view k → q.anchor = p.view ∧ q.slot = k) →
          ∃ q ∈ t.dec.pics, q.uid = u.dec.adm + 1 ∧ q.anchor = p.view ∧ q.au = c.id ∧ q.slot = k ∧
            q.addr = u.dec.cfg.slotAddr p.view k)) ∧
      (u.chooseSlot p.view = none → Gives .viewpicParcel s fun t => t.dec.adm = u.dec.adm ∧ Raised Ev.DEC_POOL_SHORT t)) ∧
    (∀ (depth : Bool) (c : CurAu) (q : Pic), Takes s f bs (if depth then .depth else .slice) p → u.dec.cur = some c →
      (u.dec.mode = .inAu ∨ u.dec.mode = .afterReset) → 12 ≤ p.payload.length → p.view ≤ 35 → (sext 8 (b 8)).natAbs ≤ 63 →
      u.dec.sliceTarget c p.view (leAt p.payload 0 4) = .pic q → 0 < leAt p.payload 6 2 →
      leAt p.payload 4 2 + leAt p.payload 6 2 ≤ q.vp.sbr →
      (∀ r ∈ upFrom (leAt p.payload 4 2) (leAt p.payload 6 2), (q.row depth r).kind = .empty) →
      (u.archiveCopy u.dec.rank (some f.fid) (((bs.drop f.pos).take (8 + p.payload.length)).map MByte.val)).2 = true →
      Gives (if depth then .depthParcel else .sliceParcel) s fun t => t.dec.jobs = u.dec.jobs ++
        [sliceJob u.dec.rank (some f.fid) q.uid depth p.payload (upFrom (leAt p.payload 4 2) (leAt p.payload 6 2)) u.dec.rank false]) ∧
    (Takes s f bs .pad p → p.view = 0xFF → exec .padParcel s = .next u.settleFeeds ∧
      u.rd (F.DEC_CNT_COUNT 0) = min (s.rd (F.DEC_CNT_COUNT 0) + 1) (2 ^ 32 - 1)) ∧
    (Takes s f bs .ext p → exec .extensionParcel s = .next u.settleFeeds) ∧
    (Takes s f bs .end_ p → p.view = 0xFF → p.payload = [] →
      (u.dec.mode = .inAu ∨ u.dec.mode = .auBad ∨ u.dec.mode = .afterReset) →
      Gives .endParcel s fun t => t.dec.mode = .needSeq ∧ ∀ c, t.dec.cur = some c → c.live = false) ∧
    (Takes s f bs .invalid p → u.dec.mode ≠ .stretch false → Gives .invalidTypeParcel s (Raised Ev.DEC_DAMAGED)) ∧
    (s.nextParcel = some (f, bs, .crc) → s.decRuns = true → s.cfgOk = true → parcelAt (bs.map MByte.val) f.pos = none →
      Gives .crcFailedParcel s fun t => Raised Ev.DEC_DAMAGED t ∧ t.dec.jobs = u.dec.jobs ∧ t.dec.mode = u.dec.mode)

/-- Decode lanes (R109 to R124), the watchdog (R119), concealment (R127) and late windows (R132). -/
def Obligations.SlicesAreDecodedRowByRow : Prop :=
  (∀ (j : Job) (p : Pic) (s : State), s.pwr.st = .s0 → (sortBy Job.rank s.dec.queued).head? = some j → s.dec.inLanes.length < 32 →
      s.dec.decPic j.uid = some p → j.row < j.first + j.num → j.only.contains j.row = true →
      (∀ out, (s.decodeRow p j).2.2 = .done out false →
        Gives .sliceDispatch s fun t => t.dec = s.dec.setJob { j with st := .lane out }) ∧
      (∀ on, (s.decodeRow p j).2.2 = .stopped (.blocked on) →
        Gives .sliceDispatch s fun t => t.dec = s.dec.setJob { j with st := .waiting on })) ∧
    (∀ s : State, s.pwr.st = .s0 → Gives .sliceResume s fun t => t = { s with dec := { s.dec with jobs := t.dec.jobs } } ∧
      t.dec.jobs.length = s.dec.jobs.length ∧ ∀ (i : Nat) (j : Job), s.dec.jobs[i]? = some j →
        (∀ on, j.st = .waiting on → (∀ w ∈ on, s.dec.waitOver j.uid w = true) → t.dec.jobs[i]? = some { j with st := .queued }) ∧
        ((∀ on, j.st = .waiting on → ∃ w ∈ on, s.dec.waitOver j.uid w = false) → t.dec.jobs[i]? = some j)) ∧
    (∀ (n : Nat) (j : Job) (out : RowOut) (p : Pic) (s : State), s.pwr.st = .s0 → s.dec.inLanes[n]? = some (j, out) →
      s.dec.decPic j.uid = some p → s.rangeOk .dec true (p.rowSpan j.depth j.row).1 (p.rowSpan j.depth j.row).2 = true →
      ∃ u : State, exec (.sbrowFinal n) s = .next (u.runLane (j.num + 1)
          (j.next out.pos out.units (some (bottomLine out.comps p.vp.cw)))) ∧
        u.mem = (s.writeFor .dec .dec (p.rowSpan j.depth j.row).1 (rowBytes j.depth out.comps)).mem ∧
        u.dec = s.dec.modPic j.uid fun p => p.modRow j.depth j.row fun w =>
          { w with kind := .final, ready := true, reads := out.reads, slice := j.sid }) ∧
    (∀ (n : Nat) (j : Job) (out : RowOut) (s : State), s.pwr.st = .s0 → s.dec.inLanes[n]? = some (j, out) →
      Gives (.decWatchdog (some n)) s fun t => Raised Ev.DEC_WATCHDOG t ∧ Raised Ev.DEC_DAMAGED t ∧ j ∉ t.dec.jobs ∧
        t.rd (F.DEC_CNT_COUNT 7) = min (s.rd (F.DEC_CNT_COUNT 7) + 1) (2 ^ 32 - 1)) ∧
    (∀ (f : Feed) (bs : List MByte) (k : PKind) (s : State), s.nextParcel = some (f, bs, k) → s.pwr.st = .s0 → s.cfgOk = true →
      Gives (.decWatchdog none) s fun t => Raised Ev.DEC_WATCHDOG t ∧ Raised Ev.DEC_DAMAGED t ∧ t.dec.jobs = s.dec.jobs ∧
        t.rd (F.DEC_CNT_COUNT 7) = min (s.rd (F.DEC_CNT_COUNT 7) + 1) (2 ^ 32 - 1)) ∧
    (∀ (n : Nat) (p : Pic) (depth : Bool) (r : Nat) (s : State), s.pwr.st = .s0 → s.dec.copiesDue[n]? = some (p, depth, r) →
      (∀ src, (p.row depth r).src = some src → ∀ q, s.dec.decPic src = some q → (q.row depth r).ready = true) →
      let span := p.rowSpan depth r
      Gives (.concealCopy n) s fun t => ∃ d : DecSt, d.pics = s.dec.pics ∧ d.jobs = s.dec.jobs ∧
        match (p.row depth r).src.bind s.dec.decPic with
        | none => t.dec = d.modPic p.uid (fun p => p.modRow depth r fun w => { w with ready := true }) ∧
          t.mem = (s.writeFor .dec .dec span.1 ((List.range (p.vp.cw * p.lines r)).flatMap fun _ => flatBytes depth)).mem
        | some q => t.dec = d.modPic p.uid (fun p => p.modRow depth r fun w =>
            { w with ready := true, reads := ⟨q.uid, depth, r, (q.row depth r).ver⟩ :: w.reads }) ∧
          (s.rangeOk .dec false (q.rowSpan depth r).1 span.2 = true →
            t.mem = (State.writeFor { s.readFor .dec .dec (q.rowSpan depth r).1 span.2 with dec := d } .dec .dec span.1
              (unpoison depth (s.peekFor .dec (q.rowSpan depth r).1 span.2))).mem)) ∧
    (∀ s : State, exec .lateWindowClose s = .next { s with dec := { s.dec with
      pics := s.dec.pics.map fun p => if p.win == .opened 0 then { p with win := .closed } else p } })

/-- The way of a commit (R54, R197 to R200, R220, R221), and the start of the retire ring (R206). -/
def Obligations.CommitsAreValidatedAndBound : Prop :=
  (∀ (ring : Nat) (r : Ring) (d : Desc) (s : State),
      Passes s ring 0x30 r d [(d.restZero [(8, 1), (16, 48)] && decide (1 ≤ byteAt d.bytes 8) && decide (byteAt d.bytes 8 ≤ 6) &&
        d.pairs.all fun p => !(shFields p.1).isEmpty, Cpl.BAD_FIELD)] →
      Gives (.shadowWrite ring) s fun t => t.hif = (s.modDesc ring d.idx (doneAs Cpl.SUCCESS 0)).hif ∧
        t = { s with regs := t.regs, hif := t.hif } ∧ (∀ o, o ∉ d.pairs.map Prod.fst → t.word o = s.word o) ∧
        ∀ p ∈ d.pairs, (∀ q ∈ d.pairs, q.1 = p.1 → q = p) → ∀ x, regFind p.1 = some x → ∀ f ∈ x.fields,
          bits (t.word p.1).toNat f.1 f.2.1 =
            if f.2.2 = .sh then bits p.2 f.1 f.2.1 else bits (s.word p.1).toNat f.1 f.2.1) ∧
    (∀ (ring : Nat) (r : Ring) (d : Desc) (s : State), Passes s ring 0x31 r d [(d.restZero [], Cpl.BAD_FIELD)] →
      let snap := shOnly s.regs
      let checks := s.commitChecks (snapWord snap)
      ((∀ ok ∈ checks, ok = true) → exec (.commit ring) s =
        .next ({ s.run ring d.idx with cmp := { s.cmp with transit := some ⟨ring, d.idx, snap, false, false, false⟩ } })) ∧
      (∀ n : Nat, checks[n]? = some false → (∀ m : Nat, m < n → checks[m]? = some true) →
        Gives (.commit ring) s fun t => Raised Ev.CMP_COMMIT_REJECTED t ∧ t.live = s.live ∧ t.cmp = s.cmp ∧
          t.hif = (s.modDesc ring d.idx fun d => { doneAs (0x40 + n) 0 d with evs := s.heldNow [Ev.CMP_COMMIT_REJECTED] }).hif ∧
          (∀ m : Nat, bitAt (t.rd F.CMP_REJECT_FAILED) m = true ↔ checks[m]? = some false) ∧
          t.rd F.CMP_REJECT_PLANE = s.failedPlane (snapWord snap) ∧ WordsKept [0xC0008] s t)) ∧
    (∀ (c : Commit) (s : State), s.cmp.transit = some c → Gives .commitArrive s fun t =>
        t.cmp = { s.cmp with
          transit := none
          pend := (s.cmp.pend.filter fun p => p.bound) ++
            [{ c with late := false, afterGuard := s.scn.guarded && !s.scn.decided }] } ∧
        t.rd F.SCN_LAST_COMMIT_LINE = s.scn.line % 2 ^ 12 ∧
        t.rd F.SCN_LAST_COMMIT_AFTER_GUARD = (if s.scn.guarded = true ∧ s.scn.decided = false then 1 else 0) ∧
        t.rd F.SCN_LAST_COMMIT_LATE = 0 ∧ t.rd F.CMP_STATUS_PENDING = 1 ∧ WordsKept [0xC0004, 0xD0048] s t ∧
        (∀ p ∈ s.cmp.pend, p.bound = false → Raised Ev.CMP_COMMIT_SUPERSEDED t ∧
          ∀ d ∈ t.descsOf p.ring, d.idx = p.idx → d.status = Cpl.SUPERSEDED)) ∧
    (∀ s : State, s.latchDue = true → s.scn.guarded = false → Gives .guardPoint s fun t =>
        t.scn = { s.scn with guarded := true, missT := some (s.geo.startOf s.scn.next) } ∧
        (∀ (c : Commit) (cs : List Commit), s.cmp.pend = c :: cs → t.cmp = { s.cmp with pend := { c with bound := true } :: cs } ∧
          t.rd F.CMP_STATUS_BOUND = 1) ∧
        (s.cmp.pend = [] → t.cmp = s.cmp ∧ t.rd F.CMP_STATUS_BOUND = 0) ∧ (∀ o, o ≠ 0xC0004 → t.word o = s.word o) ∧
        t.pwr = if s.pwr.capturing = true ∧ s.pwr.captureFrame = none then { s.pwr with captureFrame := some s.scn.next }
          else s.pwr) ∧
    (∀ (log2 : Nat) (s : State), s.bar0Open = true →
      Gives (.retireEnable log2) s fun t => t.rd F.CMP_RETIRE_CFG_EN = 1 ∧ t.rd F.CMP_RETIRE_CFG_LOG2_SIZE = log2 % 16 ∧
        RegsOnly [0xC0018] ({ s with cmp := t.cmp } : State) t ∧
        (s.rd F.CMP_RETIRE_CFG_EN = 1 → t.cmp = s.cmp) ∧
        (s.rd F.CMP_RETIRE_CFG_EN = 0 → 6 ≤ log2 → log2 ≤ 12 → t.cmp = { s.cmp with
          retIdx := 0
          retBase := s.rd F.CMP_RETIRE_BASE_LO_ADDR_LO * 2 ^ 12 + s.rd F.CMP_RETIRE_BASE_HI_ADDR_HI * 2 ^ 32
          retLog2 := log2 }))

/-- The decision point (Table 7-3): present selection (R31, R32), the latch (R199), and the start of synthesis (R144). -/
def Obligations.DecisionPointsLatch : Prop :=
  ∀ s : State, s.latchDue = true → s.scn.guarded = true → s.pwr.captureFrame = none →
    let due := s.scn.presents.filter fun p => !p.afterGuard && decide ((p.t : Int) ≤ s.geo.startOf s.scn.next)
    let best := match bestPresent due, s.scn.shown with
      | none, q => q
      | some d, none => some d
      | some d, some q => if (q.t : Int) ≤ s.geo.startOf s.scn.next ∧ d.t < q.t then some q else some d
    Gives .decisionPoint s fun t => t.scn.decided = true ∧ t.scn.guarded = false ∧ t.scn.shown = best ∧
      t.scn.presents = (s.scn.presents.filter fun p => !due.contains p).map (fun p => { p with afterGuard := false }) ∧
      t.syn.au = best.map Pres.au ∧ t.scn.auNext = best.map Pres.au ∧ t.syn.west.y = 0 ∧ t.syn.east.y = 0 ∧
      (∀ (c : Commit) (cs : List Commit), s.cmp.pend = c :: cs → c.bound = true → cellsWf resetWord c.snap = true →
        t.cmp.pend = cs.map (fun c => { c with afterGuard := false }) ∧
        ∀ o, (∀ n, 1 ≤ n → n ≤ 7 → o ∉ planeOffs n) → (∀ n < 8, o ∉ chkOffs n) → t.liveWord o = snapWord c.snap o) ∧
      (s.cmp.pend = [] → t.syn.frame = some s.scn.next ∧ t.scn.next = s.scn.next ∧
        (s.cmp.waits = [] → s.cmp.chkWaits = [] → ∀ o, t.liveWord o = s.liveWord o))

/-- Frame and line starts (R27, R211, R213), presents (R31), plane fetches (R183) and the DC-balance window (R247). -/
def Obligations.FramesAndLinesFollowTheTimer : Prop :=
  (∀ s : State, s.timed = true → s.pwr.st = .s0 → s.scn.decided = true → Gives .frameStart s fun t =>
      t.scn.cur = some s.scn.next ∧ t.scn.auScan = s.scn.auNext ∧ t.scn.blankScan = s.scn.blankNext ∧ t.scn.lineZero = true ∧
      t.scn.next = s.scn.next + 1 ∧ t.scn.guarded = false ∧ t.scn.decided = false ∧ t.scn.gap = none ∧
      t.rd F.SCN_FRAME_FRAME = s.scn.next % 2 ^ 32 ∧ t.rd F.SCN_STATUS_RETIMING = 0 ∧
      t.cmp.pend = s.cmp.pend.map fun c => { c with late := true }) ∧
    (∀ s : State, s.timed = true → s.pwr.st = .s0 → s.scn.decided = false → Gives .frameStart s fun t =>
      t.scn = { s.scn with cur := none, lineZero := true, next := s.scn.next + 1, guarded := false, decided := false, gap := none } ∧
      t.rd F.SCN_FRAME_FRAME = s.scn.next % 2 ^ 32 ∧ t.rd F.SCN_STATUS_RETIMING = 0) ∧
    (∀ s : State, s.timed = true → s.pwr.st ≠ .s0 → Gives .frameStart s fun t =>
      t.scn = { s.scn with next := s.scn.next + 1, guarded := false, decided := false, gap := none } ∧
      t.rd F.SCN_FRAME_FRAME = s.scn.next % 2 ^ 32 ∧ t.out = s.out) ∧
    (∀ s : State, s.timed = true → s.pwr.st = .s0 →
      let line := if s.scn.lineZero then 0 else if s.scn.line + 1 < s.geo.lt then s.scn.line + 1
        else if s.scn.gap.isSome then s.geo.rows else 0
      Gives .lineStart s fun t => t.scn = { s.scn with line := line, lineZero := false, crcs := t.scn.crcs } ∧
        t.rd F.SCN_STATUS_LINE = line % 2 ^ 12 ∧
        (t.rd F.SCN_STATUS_BLANK = 0 ↔
          s.scn.cur.isSome = true ∧ s.scn.gap = none ∧ line < s.geo.rows ∧ s.lv F.SCN_CTRL_RUN = 1)) ∧
    (∀ s : State, s.dcbOn = true → s.pnl.dcbWin = some (2 * s.lv F.PNL_DCB_CFG_WIN) → Gives .dcbWindowEnd s fun t =>
      t.pnl = { s.pnl with dcbC := List.replicate 64 0, dcbS := List.replicate 64 0, dcbWin := none } ∧
      ((∃ c ∈ s.pnl.dcbC, c ≠ 0) → s.awake = true → t.rd F.PNL_DCB_STATUS_PATTERN = 1 ∧ Raised Ev.PNL_DCB_PATTERN t) ∧
      ((∃ r < 64, s.portActive (r / 4) = true ∧
          s.lv F.PNL_DCB_CFG_LIMIT * s.regionRays r * (2 * s.lv F.PNL_DCB_CFG_WIN) < 16 * (s.pnl.dcbS.getD r 0).natAbs) →
        s.awake = true → t.rd F.PNL_DCB_STATUS_DRIFT = 1 ∧ Raised Ev.PNL_DCB_DRIFT t) ∧ WordsKept [0xE0094] s t) ∧
    (∀ (ring : Nat) (r : Ring) (d : Desc) (s : State), Passes s ring 0x20 r d (s.presentChecks d) → byteAt d.bytes 24 = 0 →
      exec (.present ring) s = .next (({ s with scn := { s.scn with presents := s.scn.presents ++
        [⟨leAt d.bytes 8 6 * 1000000000 + leAt d.bytes 16 4, leAt d.bytes 20 4, some (ring, d.idx), s.scn.missT,
          s.scn.guarded && !s.scn.decided⟩] } } : State).modDesc ring d.idx fun d => { d with phase := .parked })) ∧
    (∀ (die : Die) (n j : Nat) (s : State), s.pwr.st = .s0 → s.syn.frame.isSome = true → 1 ≤ n → n ≤ s.lv F.CMP_CTRL_PLANES →
      (planeOf s.liveWord n).enable = true → j < (planeOf s.liveWord n).sh →
      Gives (.planeFetch ⟨die, n⟩ j) s fun t => t.cmp = { s.cmp with lines := t.cmp.lines, seen := t.cmp.seen } ∧
        (let p := planeOf s.liveWord n
         t.planeLine die p j = s.peekFor .cmp (p.addr + j * p.stride) (p.sw * bpp p.format)) ∧
        (t.cmp.lines.filter fun l => l.die == die && l.plane == n).length ≤ 6 ∧
        (t.cmp.lines.filter fun l => !(l.die == die && l.plane == n)) = s.cmp.lines.filter fun l => !(l.die == die && l.plane == n))

/-- Synthesis row by row (R145 to R147, R165) and the fall of e_app (R172). Serving a HOST request at once (R170) is that
request's own command. -/
def Obligations.RowsAreLoadedAndSynthesised : Prop :=
  (∀ s : State, s.pwr.st = .s0 → s.scn.started = true → s.syn.fall = 63 → s.syn.fallen = false →
      max (excessOf (sext 16 (s.rd F.THM_STATUS_TJ)) (s.rd F.THM_CTRL_THR)) (s.rd F.SYN_THROTTLE_E_FORCE) <
          s.rd F.SYN_THROTTLE_E_APP → Gives .eAppFall s fun t =>
        t.rd F.SYN_THROTTLE_E_THERMAL = excessOf (sext 16 (s.rd F.THM_STATUS_TJ)) (s.rd F.THM_CTRL_THR) ∧
        t.syn = { s.syn with fall := 0, fallen := true } ∧ t.rd F.SYN_THROTTLE_E_APP = s.rd F.SYN_THROTTLE_E_APP - 1 ∧
        t.rd F.SYN_THROTTLE_K = decimK (s.rd F.SYN_THROTTLE_E_APP - 1) % 2 ^ 5 ∧
        t.rd F.SYN_STATUS_N_D = decimN (s.rd F.SYN_THROTTLE_E_APP - 1) s.geo.uv % 2 ^ 8 ∧
        t.rd F.SYN_THROTTLE_E_FORCE = s.rd F.SYN_THROTTLE_E_FORCE ∧ Raised Ev.SYN_THROTTLE t ∧ WordsKept [0x40004, 0xB0030, 0xB0034] s t) ∧
    (∀ (die other : Die) (s : State), die ≠ other → s.pwr.st = .s0 → s.syn.frame.isSome = true →
      (s.syn.die die).rows.length < 8 + 2 * s.geo.dv → (s.syn.die die).nextRow < (s.geo.rows : Int) + s.geo.dv →
      Gives (.swathRowLoad die) s fun t => t.syn.die other = s.syn.die other ∧ ∃ w : SwathRow,
        t.syn.die die = { s.syn.die die with
          rows := (s.syn.die die).rows ++ [w], nextRow := (s.syn.die die).nextRow + 1 } ∧
        w.r = (s.syn.die die).nextRow ∧ w.cells.length = if s.syn.au.isSome then s.gridInUse.length else 0) ∧
    (∀ (die other : Die) (got : List Nat) (s : State), die ≠ other → s.pwr.st = .s0 → s.synReady die = true →
      let x := s.syn.die die
      Gives (.synthRow ⟨die, got⟩) s fun t => t.syn.die other = s.syn.die other ∧ (t.syn.die die).y = x.y + 1 ∧
        (t.syn.die die).nextRow = x.nextRow ∧ (t.syn.die die).rows = x.rows.filter (fun w => decide ((x.y : Int) - s.geo.dv < w.r)) ∧
        (t.syn.die die).fifo.length = x.fifo.length ∧ ∀ (q : Nat) (ls : List HogelLine), x.fifo[q]? = some ls →
          (x.y < x.drained.getD q 0 → (t.syn.die die).fifo[q]? = some ls) ∧
          (x.drained.getD q 0 ≤ x.y → ∃ h : HogelLine, (t.syn.die die).fifo[q]? = some (ls ++ [h]) ∧ h.y = x.y ∧
            (let all := sectionCols (s.geo.cols / 2) q
             let n := if ls = [] ∧ x.y = x.drained.getD q 0 then min (got.getD q 256) all else all
             h.entries.length = n * s.geo.uv ∧ (h.whole = true ↔ n = all)) ∧
            (s.syn.au = none → s.syn.replay = [] → s.lv F.CMP_CTRL_CULL_EN = 0 → ∀ e ∈ h.entries, e = .ray s.bg))) ∧
    (∀ s : State, exec .hostMaxUsExpiry s = .next s)

/-- What training request `seq` with `code` does to transmit lane `n` (Tables 8-5, 8-6, R262): its result, the coefficients and the
precoding asked for; `pre` says whether precoding may be turned on. -/
def TrainAnswer (s t : State) (n seq code : Nat) (pre : Bool) (result : Nat) : Prop :=
  let fir := 0xF1008 + 0x40 * n
  let same := t.word fir = s.word fir ∧ t.preAsked n = s.preAsked n
  ((s.lane n).lastSeq = some seq → result = 3 ∧ same) ∧
    ((s.lane n).lastSeq ≠ some seq →
      (code = 0x00 ∨ code = 0x30 → result = 0 ∧ same) ∧
      (code = 0x20 → pre = true → result = 0 ∧ t.word fir = s.word fir ∧ t.preAsked n = true) ∧
      (code = 0x20 → pre = false → result = 2 ∧ same) ∧
      (code = 0x21 → result = 0 ∧ t.word fir = s.word fir ∧ t.preAsked n = false) ∧
      (∀ a b c, firAsked (s.word fir).toNat code = some (a, b, c) →
        (firOk a b c = true → result = 0 ∧ t.word fir = BitVec.ofNat 32 (firWord a b c)) ∧ (firOk a b c = false → result = 1 ∧ same)) ∧
      (code ∉ [0x00, 0x20, 0x21, 0x30] → firAsked (s.word fir).toNat code = none → result = 2 ∧ same))

/-- The acknowledgement of a training request, with the coefficients and the precoding asked for after it (Table 8-6). -/
def trainAck (t : State) (type portLane n seq result : Nat) : List Byte :=
  leBytes type 1 ++ leBytes portLane 1 ++ leBytes seq 1 ++ leBytes result 1 ++ leBytes (t.word (0xF1008 + 0x40 * n)).toNat 3 ++
    leBytes (b2n (t.preAsked n)) 1

/-- Panel ports (R240), training requests (R243) and what leaving ACTIVE does to the DC-balance monitor (R248). -/
def Obligations.PanelPortsTrainAndReport : Prop :=
  (∀ (lane : Nat) (blk : List Byte) (s : State), s.retLive lane = true → byteAt blk 0 = 0x48 →
      let p := byteAt blk 1 % 16
      let lock := byteAt blk 2 % 64
      let ok := decide (lock = 63) && bitAt (byteAt blk 2) 6 && s.portClean p
      p / 4 = lane → s.portInUse p = true → Gives (.statusBlock lane blk) s fun t =>
        t.rd (F.PNL_CNT_COUNT 0) = min (s.rd (F.PNL_CNT_COUNT 0) + leAt blk 3 2) (2 ^ 32 - 1) ∧
        t.rd (F.PNL_CNT_COUNT 1) = min (s.rd (F.PNL_CNT_COUNT 1) + byteAt blk 5) (2 ^ 32 - 1) ∧
        (byteAt blk 5 ≠ 0 → Ev.PNL_RX_UNCORR ∉ s.pnl.seen → Raised Ev.PNL_RX_UNCORR t) ∧
        (∀ i < 6, s.portState p ≠ 0 → bitAt (s.port p).lock i = true → bitAt lock i = false →
          t.rd ⟨0xF0010 + 4 * ((6 * p + i) / 32), (6 * p + i) % 32, 1⟩ = 1) ∧
        (s.portState p = 1 → t.portState p = 1 ∧
          t.pnl.ports = s.pnl.ports.modify p fun q => { q with lock := lock, ready := ok }) ∧
        (s.portState p = 2 → ok = true → t.portState p = 2 ∧ t.pnl.ports = s.pnl.ports.modify p fun q => { q with lock := lock }) ∧
        (s.portState p = 2 → ok = false → t.portState p = 1 ∧ Raised Ev.PNL_PORT_RETRAIN t ∧ t.pnl.dcbWin = none ∧
          t.rd (F.PNL_CNT_COUNT 2) = min (s.rd (F.PNL_CNT_COUNT 2) + 1) (2 ^ 32 - 1))) ∧
    (∀ (p : Nat) (s : State), p < 16 → s.awake = true → s.portState p = 2 → Gives (.statusTimeout p) s fun t =>
        t.portState p = 1 ∧ Raised Ev.PNL_PORT_RETRAIN t ∧ t.pnl.dcbWin = none ∧
        t.rd (F.PNL_CNT_COUNT 2) = min (s.rd (F.PNL_CNT_COUNT 2) + 1) (2 ^ 32 - 1)) ∧
    (∀ (lane : Nat) (blk : List Byte) (s : State), s.shaped = true → s.retLive lane = true → byteAt blk 0 = 0x49 →
      let p := byteAt blk 1 % 16
      let i := byteAt blk 1 / 16 % 8
      p / 4 = lane → i < 6 →
      (s.portState p = 1 → Gives (.trainReq lane blk) s fun t => ∃ result,
        TrainAnswer s t (6 * p + i) (byteAt blk 2) (byteAt blk 3) true result ∧
        t.out = if s.txLive (6 * p + i) = true then
          .panelBlock (6 * p + i) (trainAck t 0x4A (p + 16 * i) (6 * p + i) (byteAt blk 2) result) :: s.out else s.out) ∧
      (s.portState p = 2 → exec (.trainReq lane blk) s =
        .next { s with pnl := { s.pnl with trainQ := s.pnl.trainQ ++ [⟨p, i, byteAt blk 2, byteAt blk 3⟩] } })) ∧
    (∀ (p : Nat) (s : State), p < 16 → s.awake = true → s.shaped = true → s.portState p = 1 → Gives (.pnlTrainFail p) s fun t =>
        t.portState p = 0 ∧ t.pnl.ports = s.pnl.ports.modify p (fun _ => { PnlPort.reset with failed := true }) ∧
        Raised Ev.PNL_TRAIN_FAIL t ∧ ∀ n ∈ portLanes p, (t.lane n).txIdle = true ∧ t.rd (F.LNK_L_STATUS_IDLE n) = 1) ∧
    (∀ (p : Nat) (s : State), (s.port p).failed = true → s.portState p = 0 → s.portInUse p = true → s.panelOn = true →
      s.pwr.ownWarn = false → s.pwr.pinWarn = false → s.retLocked (p / 4) = true →
      Gives (.trainRetry p) s fun t => t.portState p = 1 ∧ (t.port p).failed = false) ∧
    (∀ (val : Word) (s : State), s.bar0Open = true → Gives (.pnlRetrain val) s fun t => ∀ p < 16,
        t.portState p = (if bitAt val.toNat p = true ∧ s.portState p = 2 then 1 else s.portState p) ∧
        (bitAt val.toNat p = true → s.portState p = 0 → t.rd ⟨0xE000C, p, 1⟩ = 1) ∧
        (bitAt val.toNat p = true → s.portState p = 2 → Raised Ev.PNL_PORT_RETRAIN t))

/-- Reference outputs (R250), crevasse loop (R251) and management bus (R256). -/
def Obligations.PanelAuxiliariesAct : Prop :=
  (∀ (n : Nat) (s : State), s.awake = true → s.pnl.prefOn = true → n < 18 → Gives (.prefLimit n) s (After Ev.PNL_PREF_LIMIT s)) ∧
    (∀ (ohms : Nat) (s : State), s.panelOn = true → s.rd F.PNL_CRK_CFG_PERIOD_MS ≠ 0 →
      let r := if 20000 < ohms then 0xFFFF else ohms
      let warn := s.rd F.PNL_CRK_THRESH_WARN
      let top := s.rd F.PNL_CRK_THRESH_OPEN
      Gives (.crkMeasure ohms) s fun t => t.rd F.PNL_CRK_STATUS_OHMS = r ∧ t.pnl = { s.pnl with crkOpen := decide (top < r) } ∧
        (r ≤ top → r ≤ warn → t = { s with regs := t.regs, pnl := t.pnl } ∧ ∀ o, o ≠ 0xE00C8 → t.word o = s.word o) ∧
        (r ≤ top → warn < r → t.rd F.PNL_CRK_STATUS_WARN = 1 ∧ Raised Ev.PNL_CRK_WARN t ∧
          t.rd (F.PNL_CNT_COUNT 3) = min (s.rd (F.PNL_CNT_COUNT 3) + 1) (2 ^ 32 - 1)) ∧
        (top < r → s.pnl.crkOpen = false → t.rd F.PNL_CRK_STATUS_CRACK = s.rd F.PNL_CRK_STATUS_CRACK) ∧
        (top < r → s.pnl.crkOpen = true → s.rd F.PNL_CRK_STATUS_CRACK = 0 →
          t.rd F.PNL_CRK_STATUS_CRACK = 1 ∧ Raised Ev.PNL_CRACK t)) ∧
    (∀ (val : Word) (s : State), s.bar0Open = true → Gives (.pmbGo val) s fun t =>
      t.rd F.PNL_PMB_XFER_BUSY = 1 ∧ t.rd F.PNL_PMB_XFER_ADDR = val.toNat % 2 ^ 7 ∧ t.rd F.PNL_PMB_XFER_LEN = val.toNat / 2 ^ 8 % 4 ∧
      t.rd F.PNL_PMB_XFER_DONE = (if bitAt val.toNat 29 then 0 else s.rd F.PNL_PMB_XFER_DONE) ∧
      (s.rd F.PNL_PMB_XFER_BUSY = 1 → t.out = s.out) ∧
      (s.rd F.PNL_PMB_XFER_BUSY = 0 → t.out = .pmbStart (val.toNat % 2 ^ 7) (bitAt val.toNat 7) (val.toNat / 2 ^ 8 % 4 + 1)
        (s.word 0xE0184).toNat :: s.out) ∧
      t = { s with out := t.out, regs := t.regs } ∧ ∀ o, o ≠ 0xE0180 → t.word o = s.word o) ∧
    (∀ (ack : Bool) (data : Word) (s : State), s.awake = true → s.rd F.PNL_PMB_XFER_BUSY = 1 → Gives (.pnlPmbDone ack data) s fun t =>
      t.rd F.PNL_PMB_XFER_BUSY = 0 ∧ t.rd F.PNL_PMB_XFER_DONE = 1 ∧ t.rd F.PNL_PMB_XFER_NACK = (if ack then 0 else 1) ∧
      (t.word 0xE0184).toNat = (if ack = true ∧ s.rd F.PNL_PMB_XFER_RD = 1 then
        data.toNat % 2 ^ (8 * (s.rd F.PNL_PMB_XFER_LEN + 1)) else (s.word 0xE0184).toNat) ∧
      Raised Ev.PNL_PMB_DONE t ∧ WordsKept [0xE0180, 0xE0184] s t)

/-- Block lock (R273), electrical idle and rate changes (R275), on the registers and the lanes. -/
def Obligations.LanesLockAndIdle : Prop :=
  (∀ (n : Nat) (syms : List Nat) (h : Nat) (bytes : List Byte) (l : Lane) (s : State), s.shaped = true → s.rxOn n = true →
      (s.lane n).rxIdle = false → s.rd (F.LNK_L_CTRL_PRBS_CHK n) = 0 → s.lockOf n = 0 →
      ({ s.lane n with carry := (s.lane n).carry ++ syms } : Lane).takeBlock = some (h, bytes, l) →
      Gives (.rxBlock n syms) s fun t =>
        (h = 3 → t.lockOf n = 0 ∧ (t.lane n).run = 0 ∧ (t.lane n).carry = l.slip.carry ∧ (t.lane n).off = l.slip.off ∧
          t.rd (F.LNK_L_HDR_BAD_COUNT n) = min (s.rd (F.LNK_L_HDR_BAD_COUNT n) + 1) (2 ^ 32 - 1)) ∧
        (h ≠ 3 → l.run < 63 → t.lockOf n = 0 ∧ (t.lane n).run = l.run + 1) ∧
        (h ≠ 3 → 63 ≤ l.run → t.lockOf n = 1 ∧ (t.lane n).run = 0)) ∧
    (∀ (n : Nat) (s : State), s.shaped = true → laneRx n = true → (s.lane n).rxIdle = false → Gives (.rxElectricalIdle n) s fun t =>
        (t.lane n).rxIdle = true ∧ t.rd (F.LNK_L_STATUS_IDLE n) = 1 ∧ t.lockOf n = s.lockOf n ∧
        (n < 100 → t.rd ⟨0xE0004, n - 80, 1⟩ = 0 ∧
          (s.awake = true → s.retInUse (n - 96) = true → s.lockOf n ≠ 0 → s.rd (F.LNK_L_CTRL_PRBS_CHK n) = 0 → Raised Ev.PNL_RET_LOST t))) ∧
    (∀ (n : Nat) (s : State), s.shaped = true → s.rxOn n = true → (s.lane n).rxIdle = true → Gives (.rxIdleEnd n) s fun t =>
        (t.lane n).rxIdle = false ∧ t.lockOf n = 0 ∧ (t.lane n).carry = [] ∧ (t.lane n).lastP = 0 ∧ (t.lane n).rxPre = false ∧
        (n < 100 → t.rd (F.LNK_L_STATUS_QUARTER n) = 1)) ∧
    (∀ (n : Nat) (s : State), s.shaped = true → n < 96 → s.portState (n / 6) = 1 → (s.lane n).txIdle = true →
        Gives (.electricalIdleDwellEnd n) s fun t => (t.lane n).txIdle = false ∧ t.rd (F.LNK_L_STATUS_IDLE n) = 0 ∧
          t.rd (F.LNK_L_STATUS_QUARTER n) = (if s.pwr.st = .s1 then 1 else 0) ∧
          (t.word (0xF1008 + 0x40 * n)).toNat =
            ((if s.pwr.st = .s1 then (s.lane n).savedQ else (s.lane n).saved).getD (firPreset 0)) % 2 ^ 32 ∧
          (∀ m, m ≠ n → t.lane m = s.lane m) ∧ t = { s with regs := t.regs, lanes := t.lanes })

/-- Adaptation (R264 to R266), PRBS (R278), eye measurement (R279) and lane events (R280). -/
def Obligations.LanesAdaptAndTest : Prop :=
  (∀ (n : Nat) (s : State), laneRx n = true →
      let next := fun (v : Nat) (c : Instr) => Gives c s fun t =>
        t.rd (F.LNK_L_STATUS_ADAPT n) = (if s.rd (F.LNK_L_CTRL_ADAPT_HOLD n) = 1 then 3 else v) ∧ RegsOnly [0xF1004 + 0x40 * n] s t ∧
          t.lockOf n = s.lockOf n
      (s.rd (F.LNK_L_STATUS_ADAPT n) = 0 → 65536 ≤ (s.lane n).blocks → next 1 (.acquireDone n)) ∧
      (s.rd (F.LNK_L_STATUS_ADAPT n) = 1 → 4096 ≤ (s.lane n).idleRun → next 2 (.adaptFreeze n)) ∧
      (s.rd (F.LNK_L_STATUS_ADAPT n) = 2 → 256 ≤ (s.lane n).traffic → next 1 (.frozenResume n))) ∧
    (∀ (n : Nat) (on : Bool) (s : State), s.bar0Open = true → n < 104 →
      let p : Port := if n < 102 then .up else .dn
      (Gives (.prbsGen n on) s fun t => t.rd (F.LNK_L_CTRL_PRBS_GEN n) = (if on then 1 else 0) ∧
        t.rd (F.LNK_L_CTRL_PRBS_CHK n) = s.rd (F.LNK_L_CTRL_PRBS_CHK n) ∧
        (n < 96 → s.portState (n / 6) ≠ 2 → RegsOnly [0xF1000 + 0x40 * n] ({ s with lanes := t.lanes } : State) t) ∧
        (n < 96 → s.portState (n / 6) = 2 → on = true → t.portState (n / 6) = 1 ∧ Raised Ev.PNL_PORT_RETRAIN t) ∧
        (100 ≤ n → on = true → bitAt (t.rd (pf p F.ROPE_UP_STATE_LANES)) (n - p.lane0) = false)) ∧
      (Gives (.prbsChk n on) s fun t => t.rd (F.LNK_L_CTRL_PRBS_CHK n) = (if on then 1 else 0) ∧
        t.rd (F.LNK_L_CTRL_PRBS_GEN n) = s.rd (F.LNK_L_CTRL_PRBS_GEN n) ∧
        (n < 96 → s.portState (n / 6) ≠ 2 →
          RegsOnly [0xF1000 + 0x40 * n, 0xF1004 + 0x40 * n] ({ s with lanes := t.lanes } : State) t) ∧
        (s.shaped = true → ¬(laneRx n = true ∧ on = true ∧ s.rd (F.LNK_L_CTRL_PRBS_CHK n) = 1) →
          t.rd (F.LNK_L_STATUS_PRBS_SYNC n) = 0 ∧ (t.lane n).prbs = 0 ∧ (t.lane n).prbsRun = 0) ∧
        (96 ≤ n → n < 100 → on = true → t.rd ⟨0xE0004, n - 80, 1⟩ = 0 ∧
          (s.blockLocked n = true → s.rd (F.LNK_L_CTRL_PRBS_CHK n) = 0 → s.retInUse (n - 96) = true → Raised Ev.PNL_RET_LOST t)) ∧
        (100 ≤ n → on = true → bitAt (t.rd (pf p F.ROPE_UP_STATE_LANES)) (n - p.lane0) = false)) ∧
      (Gives (.adaptHold n on) s fun t => t.rd (F.LNK_L_CTRL_ADAPT_HOLD n) = (if on then 1 else 0) ∧
        RegsOnly [0xF1000 + 0x40 * n, 0xF1004 + 0x40 * n] ({ s with lanes := t.lanes } : State) t ∧
        (laneRx n = true → on = true → t.rd (F.LNK_L_STATUS_ADAPT n) = 3 ∧ t.lanes = s.lanes) ∧
        (laneRx n = true → on = false → s.rd (F.LNK_L_CTRL_ADAPT_HOLD n) = 1 → t.rd (F.LNK_L_STATUS_ADAPT n) = 2 ∧
          t.lanes = s.lanes.modify n fun l => { l with traffic := 0 }) ∧
        (laneRx n = true → on = false → s.rd (F.LNK_L_CTRL_ADAPT_HOLD n) = 0 →
          t.rd (F.LNK_L_STATUS_ADAPT n) = s.rd (F.LNK_L_STATUS_ADAPT n)))) ∧
    (∀ (n height width : Nat) (s : State), s.rxOn n = true → s.blockLocked n = true → Gives (.eyeMeasure [(n, height, width)]) s fun t =>
      t.rd (F.LNK_L_EYE_HEIGHT n) = height % 2 ^ 10 ∧ t.rd (F.LNK_L_EYE_WIDTH n) = width % 2 ^ 7 ∧
      t.lanes = s.lanes.modify n (fun l => { l with eyeLow := decide (height % 2 ^ 10 < s.rd F.LNK_EYE_CFG_EYE_MIN) }) ∧
      (height % 2 ^ 10 < s.rd F.LNK_EYE_CFG_EYE_MIN → (s.lane n).eyeLow = false → s.rd ⟨0xF0010 + 4 * (n / 32), n % 32, 1⟩ = 0 →
        t.rd ⟨0xF0010 + 4 * (n / 32), n % 32, 1⟩ = 1 ∧ Raised (224 + 4) t) ∧
      (s.rd F.LNK_EYE_CFG_EYE_MIN ≤ height % 2 ^ 10 → t.out = s.out)) ∧
    (∀ (n : Nat) (s : State), s.awake = true → laneTx n = true →
      (s.rd ⟨0xF0010 + 4 * (n / 32), n % 32, 1⟩ = 0 → Gives (.lnkTxFault n) s
        (After ((if n < 48 then 192 else 224) + 6) (s.wr ⟨0xF0010 + 4 * (n / 32), n % 32, 1⟩ 1))) ∧
      (s.rd ⟨0xF0010 + 4 * (n / 32), n % 32, 1⟩ = 1 → exec (.lnkTxFault n) s = .next s))

/-- An ENC descriptor failed with a code of Table 10-5: no session has changed, and ENC_FAILED is raised. -/
def EncFails (s : State) (ring : Nat) (d : Desc) (code : Nat) (t : State) : Prop :=
  t.enc = s.enc ∧ Raised Ev.ENC_FAILED t ∧
    t.hif.rings = (s.modDesc ring d.idx fun d => { doneAs code 0 d with evs := s.heldNow [Ev.ENC_FAILED] }).hif.rings

/-- Sessions of the encoder (R281 to R287) and key requests (R301). -/
def Obligations.EncoderSessionsOpenAndClose : Prop :=
  (∀ (ring : Nat) (param : List Byte) (r : Ring) (d : Desc) (s : State), s.pwr.st = .s0 → s.yields = false →
      Passes s ring 0x40 r d (s.encOpenChecks param r d) →
      let b := s.encBlockBytes d param
      let p := encParOf b
      let head := parcelOf 1 0xFF p.seqPayload ++ parcelOf 2 0xFF p.gridPayload
      (∀ n < 16, s.enc.ofRing ring = none → encParamOk b p = true → p.workNeed ≤ 4096 * p.workSize →
        (∀ x ∈ s.enc.sess, x.num ≠ n) → (∀ m < n, ∃ x ∈ s.enc.sess, x.num = m) →
        Gives (.encOpen ring param) s fun t =>
          t.enc = { s.enc with sess := s.enc.sess ++
            [⟨n, ring, p, head.length, p.qpInit, 0, 0, false, false, false, false, [], none, []⟩] } ∧
          t.mem = (((s.run ring d.idx).bufRead .enc .enc d.encBlock b.length).writeFor .enc .enc (p.loopBase - 2 ^ 63) head).mem ∧
          t.hif.rings = (s.modDesc ring d.idx (doneAs Cpl.SUCCESS n)).hif.rings) ∧
      (∀ code, ((code = 0x51 ∧ (s.enc.ofRing ring).isSome = true) ∨
          (code = 0x50 ∧ s.enc.ofRing ring = none ∧ encParamOk b p = false) ∨
          (code = 0x54 ∧ s.enc.ofRing ring = none ∧ encParamOk b p = true ∧ 4096 * p.workSize < p.workNeed) ∨
          (code = 0x51 ∧ s.enc.ofRing ring = none ∧ encParamOk b p = true ∧ p.workNeed ≤ 4096 * p.workSize ∧
            ∀ n < 16, ∃ x ∈ s.enc.sess, x.num = n)) →
        Gives (.encOpen ring param) s (EncFails s ring d code))) ∧
    (∀ (ring : Nat) (table : List Byte) (r : Ring) (d : Desc) (s : State), s.pwr.st = .s0 → s.yields = false →
      Passes s ring 0x41 r d (s.encPutChecks table r d) →
      (∀ x, s.enc.ofRing ring = some x → Gives (.encPut ring table) s fun t =>
        (let n := x.par.anchors.length
         t.enc = s.enc.setSess { x with puts := x.puts ++ [encPutOf d (s.srcTable d n table) n x.keyNext], keyNext := false }) ∧
        t.hif.rings = (s.run ring d.idx).hif.rings) ∧
      (s.enc.ofRing ring = none → Gives (.encPut ring table) s (EncFails s ring d 0x51))) ∧
    (∀ (ring : Nat) (r : Ring) (d : Desc) (s : State), s.pwr.st = .s0 → Passes s ring 0x42 r d [(d.restZero [], Cpl.BAD_FIELD)] →
      (∀ x, s.enc.ofRing ring = some x → exec (.encKey ring) s =
        .next (({ s with enc := s.enc.setSess { x with keyNext := true } } : State).modDesc ring d.idx (doneAs Cpl.SUCCESS 0))) ∧
      (s.enc.ofRing ring = none → Gives (.encKey ring) s (EncFails s ring d 0x51))) ∧
    (∀ (ring : Nat) (r : Ring) (d : Desc) (s : State), s.pwr.st = .s0 → s.yields = false →
      Passes s ring 0x43 r d [(d.restZero [], Cpl.BAD_FIELD)] →
      (∀ x, s.enc.ofRing ring = some x → x.puts = [] → x.cur = none → Gives (.encClose ring) s fun t =>
        t.enc = { s.enc with sess := s.enc.sess.filter fun y => y.num != x.num } ∧
        t.mem = ((s.run ring d.idx).writeFor .enc .enc (x.par.loopBase - 2 ^ 63 + x.wptr) (parcelOf 8 0xFF [])).mem ∧
        t.hif.rings = (s.modDesc ring d.idx (doneAs Cpl.SUCCESS (x.wptr + 8))).hif.rings) ∧
      (s.enc.ofRing ring = none → Gives (.encClose ring) s (EncFails s ring d 0x51))) ∧
    (∀ (val : Word) (s : State), s.bar0Open = true → exec (.encKeyReq val) s = .next { s with enc := { s.enc with
      sess := s.enc.sess.map fun x => { x with keyReg := x.keyReg || bitAt val.toNat x.num } } }) ∧
    (∀ (ring : Nat) (bs : List Byte) (s : State), s.yields = true → exec (.encOpen ring bs) s = .next s ∧
      exec (.encPut ring bs) s = .next s ∧ exec (.encClose ring) s = .next s)

/-- Access units of the encoder (R291, R292, R300 to R309). -/
def Obligations.EncoderCodesAccessUnits : Prop :=
  (∀ (ring : Nat) (x : EncSess) (p : EncPut) (rest : List EncPut) (s : State), s.pwr.st = .s0 → s.yields = false → s.enc.ofRing ring = some x →
      x.puts = p :: rest → x.cur = none →
      let bau := if p.budget = 0 then x.par.budget else p.budget
      let cause := x.keyCause p
      let nT := if cause ≠ 0 then 0 else min x.par.numTref x.refs.length
      let need := 16 + (x.par.anchors.map fun a => 102 * (bau * (a.sw * a.sh) / x.par.area) / 100).sum + 8
      let room := ∀ a ∈ x.par.anchors.zipIdx,
        50 * tailSize (x.par.ctx a.1 a.2 nT) x.par.sliceRows ≤ bau * (a.1.sw * a.1.sh) / x.par.area
      (x.full = false → room → x.wptr + need ≤ x.par.loopSize → Gives (.encAuStart ring) s fun t =>
        (let au := leBytes ((x.par.auBase + x.started) % 2 ^ 32) 4 ++ leBytes (if cause ≠ 0 then 1 else 0) 1 ++ leBytes 0 3
         t.mem = (s.writeFor .enc .enc (x.par.loopBase - 2 ^ 63 + x.wptr) (parcelOf 3 0xFF au)).mem) ∧
        (∃ u : EncAu, u.put = p ∧ u.auId = (x.par.auBase + x.started) % 2 ^ 32 ∧ u.start = x.wptr ∧ u.budget = bau ∧ u.cause = cause ∧
          u.numTref = nT ∧ u.pics = 0 ∧ t.enc = s.enc.setSess { x with
            wptr := x.wptr + 16, puts := rest, cur := some u, started := x.started + 1, failed := false, keyReg := false
            sinceKey := if cause ≠ 0 then 1 else x.sinceKey + 1, refs := if cause ≠ 0 then [] else x.refs }) ∧
        (1 < cause → Raised Ev.ENC_KEY t)) ∧
      (x.full = true → Gives (.encAuStart ring) s fun t => (∀ y ∈ t.enc.sess, y.num = x.num → y.full = true ∧ y.cur = none) ∧
        Raised Ev.ENC_FAILED t ∧
        t.hif.rings = (s.modDesc x.ring p.idx fun d => { doneAs 0x52 0 d with evs := s.heldNow [Ev.ENC_FAILED] }).hif.rings) ∧
      (x.full = false → room → x.par.loopSize < x.wptr + need → Gives (.encAuStart ring) s fun t =>
        (∀ y ∈ t.enc.sess, y.num = x.num → y.full = true ∧ y.cur = none) ∧ Raised Ev.ENC_FAILED t ∧ Raised Ev.ENC_LOOP_FULL t ∧
        t.hif.rings = (s.modDesc x.ring p.idx fun d => { doneAs 0x52 0 d with evs := s.heldNow [Ev.ENC_FAILED] }).hif.rings) ∧
      (x.full = false → ¬room → Gives (.encAuStart ring) s fun t => (∀ y ∈ t.enc.sess, y.num = x.num → y.cur = none) ∧
        t.hif.rings = (s.modDesc x.ring p.idx fun d => { doneAs 0x53 0 d with evs := s.heldNow [Ev.ENC_FAILED] }).hif.rings)) ∧
    (∀ (tex dep : List (Option Byte)) (x : EncSess) (au : EncAu) (k : EncAnchor) (s : State), s.pwr.st = .s0 → s.yields = false →
      s.enc.nextSess = some (x, au) → x.par.anchors[au.pics]? = some k →
      Gives (.encPictureStart tex dep) s fun t => t.enc.last = x.num ∧ t.hif.rings = s.hif.rings ∧
        ∃ (n : Nat) (tail much bad : Bool),
          t.enc.sess = (s.enc.setSess { x with
            wptr := x.wptr + n
            cur := some { au with
              pics := au.pics + 1, tail := au.tail + (if tail then 2 ^ au.pics else 0)
              overshoot := au.overshoot || much, poison := au.poison || bad } }).sess ∧
          much = decide (au.budget * (k.sw * k.sh) / x.par.area < n) ∧
          t.rd (F.ENC_CNT_COUNT 2) = min (s.rd (F.ENC_CNT_COUNT 2) + if tail then 1 else 0) (2 ^ 32 - 1) ∧
          t.rd (F.ENC_CNT_COUNT 3) = min (s.rd (F.ENC_CNT_COUNT 3) + if much then 1 else 0) (2 ^ 32 - 1) ∧
          (tail = true → Raised Ev.ENC_TAIL t) ∧ (much = true → Raised Ev.ENC_OVERSHOOT t) ∧
          (bad = true → Raised Ev.ENC_SRC_POISON t)) ∧
    (∀ (ring : Nat) (x : EncSess) (au : EncAu) (s : State), s.pwr.st = .s0 → s.yields = false → s.enc.ofRing ring = some x → x.cur = some au →
      au.pics = x.par.anchors.length → Gives (.encAuDone ring) s fun t =>
        (let n := x.wptr - au.start
         let q : Int := if au.tail ≠ 0 then x.q + 2 else if 95 * au.budget < 100 * n then x.q + 1
           else if 100 * n < 75 * au.budget then (x.q : Int) - 1 else x.q
         t.enc.sess = (s.enc.setSess { x with
           cur := none, q := (clampI x.par.qpMin x.par.qpMax q).toNat
           refs := (au.slot :: x.refs).take (max 1 x.par.numTref) }).sess) ∧
        t.rd (F.ENC_CNT_COUNT 0) = min (s.rd (F.ENC_CNT_COUNT 0) + 1) (2 ^ 32 - 1) ∧
        t.rd (F.ENC_CNT_COUNT 1) = min (s.rd (F.ENC_CNT_COUNT 1) + if au.cause ≠ 0 then 1 else 0) (2 ^ 32 - 1) ∧
        t.hif.rings = (s.modDesc x.ring au.put.idx fun d =>
          { doneAs Cpl.SUCCESS x.wptr d with cflags := if au.poison then CFlag.POISON else 0 }).hif.rings ∧
        (au.put.result ≠ 0 → isHost au.put.result = true →
          .hostWrite au.put.result (au.record (x.wptr - au.start)) false ∈ t.out) ∧
        (au.tail ≠ 0 → x.q = x.par.qpMax → Raised Ev.ENC_QP_LIMIT t)) ∧
    (∀ (ring : Nat) (tex dep : List (Option Byte)) (s : State), s.yields = true → exec (.encAuStart ring) s = .next s ∧
      exec (.encPictureStart tex dep) s = .next s ∧ exec (.encAuDone ring) s = .next s)

/-- Blitter lists (R310 to R312), the checks of Table 11-3, conflicts (R317) and failures (R320). -/
def Obligations.BlittersRunTheirLists : Prop :=
  (∀ (ring : Nat) (r : Ring) (d : Desc) (s : State), Passes s ring 0x50 r d (s.bltChecks d) → exec (.bltRun ring) s =
      .next ({ s.run ring d.idx with blt := { s.blt with queue := s.blt.queue ++
        [⟨ring, d.idx, leAt d.bytes 8 8 - 2 ^ 63, leAt d.bytes 16 4, 0, none, false, false⟩] } })) ∧
    (∀ (l : BltList) (ls : List BltList) (s : State), s.pwr.st = .s0 → s.blt.queue = l :: ls →
      (s.blt.west = none → Gives .bltListStart s fun t => t.blt = { s.blt with queue := ls, west := some l } ∧
        t.rd ⟨0x110008, 0, 1⟩ = 1 ∧ RegsOnly [0x110008] ({ s with blt := t.blt } : State) t) ∧
      (s.blt.west.isSome = true → s.blt.east = none → Gives .bltListStart s fun t =>
        t.blt = { s.blt with queue := ls, east := some l } ∧ t.rd ⟨0x110008, 1, 1⟩ = 1 ∧
        RegsOnly [0x110008] ({ s with blt := t.blt } : State) t) ∧
      (s.blt.west.isSome = true → s.blt.east.isSome = true → exec .bltListStart s = .next s)) ∧
    (∀ (die : Die) (l : BltList) (s : State), s.pwr.st = .s0 → s.yields = false → s.blt.on die = some l → l.cmd = none →
      let read := s.peekFor .blt (l.addr + 64 * l.fin) 64
      let b := read.map MByte.val
      let c := bltCmdOf b
      let meets := ∃ m x, s.blt.on (otherDie die) = some m ∧ m.cmd = some x ∧ conflict c (bltCmdOf x) = true
      ((∃ v ∈ read, v.poison = true) → Gives (.bltCommandStart die) s fun t => t.blt.on die = none ∧ Raised Ev.BLT_FAILED t ∧
        (l.poison = false → Raised Ev.BLT_POISON t) ∧ t.hif.rings = (s.modDesc l.ring l.idx fun d =>
          { doneAs 0x60 l.fin d with cflags := CFlag.POISON, evs := s.heldNow [Ev.BLT_FAILED] }).hif.rings) ∧
      ((∀ v ∈ read, v.poison = false) →
      (∀ code, ((code = 0x60 ∧ c.cmdOk b = false) ∨ (code = 0x61 ∧ c.cmdOk b = true ∧ c.rectIsOk = false) ∨
          (code = 0x62 ∧ c.cmdOk b = true ∧ c.rectIsOk = true ∧ ¬meets ∧ s.bltWindowOk c = false)) →
        Gives (.bltCommandStart die) s fun t => t.blt.on die = none ∧ t.blt.on (otherDie die) = s.blt.on (otherDie die) ∧
          Raised Ev.BLT_FAILED t ∧ t.hif.rings = (s.modDesc l.ring l.idx fun d =>
            { doneAs code l.fin d with cflags := if l.poison then CFlag.POISON else 0, evs := s.heldNow [Ev.BLT_FAILED] }).hif.rings) ∧
      (c.cmdOk b = true → c.rectIsOk = true → meets → Gives (.bltCommandStart die) s fun t =>
        t.blt.on die = some { l with waiting := true } ∧ t.hif.rings = s.hif.rings ∧
        t.rd (F.BLT_CNT_COUNT 1) = min (s.rd (F.BLT_CNT_COUNT 1) + if l.waiting then 0 else 1) (2 ^ 32 - 1)) ∧
      (c.cmdOk b = true → c.rectIsOk = true → ¬meets → s.bltWindowOk c = true → Gives (.bltCommandStart die) s fun t =>
        t.blt.on die = some { l with waiting := false, cmd := some b } ∧ t.blt.on (otherDie die) = s.blt.on (otherDie die) ∧
        t.hif.rings = s.hif.rings))) ∧
    (∀ (die : Die) (l : BltList) (b : List Byte) (s : State), s.pwr.st = .s0 → s.yields = false → s.blt.on die = some l → l.cmd = some b →
      Gives (.bltCommandDone die) s fun t => t.mem = (s.bltPixels (bltCmdOf b) (bltCmdOf b).order).1.mem ∧
        t.rd (F.BLT_CNT_COUNT 0) = min (s.rd (F.BLT_CNT_COUNT 0) + 1) (2 ^ 32 - 1) ∧
        (let poison := l.poison || decide ((s.bltPixels (bltCmdOf b) (bltCmdOf b).order).2 ≠ 0)
         (l.fin + 1 ≠ l.count → t.blt.on die = some { l with fin := l.fin + 1, cmd := none, poison := poison } ∧
           t.hif.rings = s.hif.rings) ∧
         (l.fin + 1 = l.count → t.blt.on die = none ∧ t.hif.rings = (s.modDesc l.ring l.idx fun d =>
           { doneAs Cpl.SUCCESS l.count d with cflags := if poison then CFlag.POISON else 0 }).hif.rings))) ∧
    (∀ (die : Die) (s : State), s.yields = true → exec (.bltCommandStart die) s = .next s ∧ exec (.bltCommandDone die) s = .next s)

/-- The pitch of a port went to DOWN after a failure: counts and queue dropped, its register word 0, its lanes idle; it waits for its
retry (Table 13-3). -/
def PitchFailed (s : State) (p : Port) (t : State) : Prop :=
  t.pitchState p = 0 ∧ t.word (match p with | .up => 0x80010 | .dn => 0x80014) = 0 ∧
    (t.pitch p).failed = true ∧ (t.pitch p).txq = [] ∧
    ((s.pitch p).txq = [] →
      t.pitch p = { Pitch.reset with failed := true, reqSeq := (s.pitch p).reqSeq, peerLow := (s.pitch p).peerLow } ∧
      t.pitch p.other = s.pitch p.other) ∧ (s.shaped = true → ∀ n ∈ p.lanes, (t.lane n).txIdle = true)

/-- A pitch in DOWN may go to LOCK: awake, its ports released and not held down, and not the UP port of a strapped tile (R343,
R353). -/
def MayLock (s : State) (p : Port) : Bool :=
  s.awake && s.rope.released && !s.rope.heldDown && !(p == .up && s.rd F.ROPE_STATUS_STRAPPED == 1)

/-- A pitch in UP broke: it is counted and announced, and locks anew where it may (Table 13-3). -/
def PitchBroken (s : State) (p : Port) (t : State) : Prop :=
  t.rd (F.ROPE_CNT_COUNT 1) = min (s.rd (F.ROPE_CNT_COUNT 1) + 1) (2 ^ 32 - 1) ∧ Raised Ev.ROPE_PITCH_DOWN t ∧
    (t.pitch p).failed = false ∧
    t.pitchState p = if MayLock s p then (if s.anyAligned p then 2 else 1) else 0

/-- Pitches (Table 13-3, R343), training requests (R344) and HELLO (R345). -/
def Obligations.PitchesTrainAndFail : Prop :=
  (∀ (p : Port) (s : State),
      (s.pitchState p = 1 → Gives (.pitchLockTimeout p) s (PitchFailed s p)) ∧
      (s.pitchState p = 2 → Gives (.pitchTrainTimeout p) s (PitchFailed s p))) ∧
    (∀ (p : Port) (s : State), (s.pitch p).failed = true → Gives (.pitchRetry p) s fun t => (t.pitch p).failed = false ∧
        (s.pitchState p = 0 → (∀ n ∈ p.lanes, s.aligned n = false) → t.pitchState p = if MayLock s p then 1 else 0)) ∧
    (∀ (p : Port) (lane : Nat) (msg : List Byte) (s : State), s.awake = true → 2 ≤ s.pitchState p → lane < 2 →
      s.aligned (p.lane0 + lane) = true → lane < (s.pitch p).gotDone.length →
      (Gives (.pitchReq p lane msg) s fun t => ∃ result,
        TrainAnswer s t (p.lane0 + lane) (byteAt msg 2) (byteAt msg 3)
          (bitAt (s.pitch p).versions 1 && bitAt (byteAt msg 4) 1) result ∧
        (s.txLive (p.lane0 + lane) = true → .rope p lane (trainAck t 0x51 (16 * lane) (p.lane0 + lane) (byteAt msg 2) result) ∈ t.out) ∧
        (byteAt msg 3 = 0x30 → s.laneUsable (p.lane0 + lane) = true → (t.pitch p).gotDone.getD lane false = true)) ∧
      exec (.pitchAck p lane msg) s = .next { s with
        lanes := s.lanes.modify (p.lane0 + lane) fun l => { l with rxPreNext := some (bitAt (byteAt msg 7) 0) } }) ∧
    (∀ (p : Port) (msg : List Byte) (s : State), s.awake = true →
      let both := fun i => bitAt (s.pitch p).versions i && bitAt (byteAt msg 1) i
      (s.pitchState p = 3 → both 0 = false → both 1 = false → Gives (.hello p msg) s fun t =>
        PitchFailed s p t ∧ Raised Ev.ROPE_VERSION_FAIL t) ∧
      (s.pitchState p = 3 → both 0 = true ∨ both 1 = true → Gives (.hello p msg) s fun t =>
        t.pitchState p = 4 ∧ t.pitchVer p = (if both 1 then 2 else 1) ∧ Raised Ev.ROPE_PITCH_UP t ∧
        t.rd (pf p F.ROPE_UP_STATE_PEER_ADDR) = byteAt msg 6 ∧ (t.pitch p).peerCtrl = byteAt msg 3 ∧
        (t.pitch p).peerMail = leAt msg 4 2 ∧
        (p = .up → s.rd F.ROPE_STATUS_STRAPPED = 0 → t.rd F.ROPE_STATUS_HEAD = 0 ∧ t.ropeAddr = 0)) ∧
      (s.pitchState p = 4 → Gives (.hello p msg) s fun t => t.pitchState p = 4 ∧
        t.rd (pf p F.ROPE_UP_STATE_PEER_ADDR) = byteAt msg 6 ∧ (t.pitch p).peerCtrl = byteAt msg 3)) ∧
    (∀ (p : Port) (s : State),
      let hello := fun (versions : Nat) => leBytes 0x52 1 ++ leBytes versions 1 ++
        leBytes (s.rd F.ROPE_STATUS_STRAPPED + (if s.pwr.st = .s2 then 2 else 0)) 1 ++ leBytes 32 1 ++ leBytes 2048 2 ++
        leBytes s.ropeAddr 1 ++ leBytes 0 1
      (s.pitchState p = 3 → Gives (.helloSend p) s fun t => t = { s with out := t.out, lanes := t.lanes } ∧
        ∀ i < 2, s.laneUsable (p.lane0 + i) = true → s.txLive (p.lane0 + i) = true →
          .rope p i (hello (s.pitch p).versions) ∈ t.out) ∧
      (∀ l, s.pitchState p = 4 → s.carryLane p false = some l → Gives (.helloSend p) s fun t =>
        t = { s with out := t.out, lanes := t.lanes } ∧
        t.out = if s.txLive (p.lane0 + l) = true then .rope p l (hello s.ownVersions) :: s.out else s.out)) ∧
    (∀ (p : Port) (s : State), s.pitchState p = 4 →
      (s.awake = true → s.anyAligned p = false → Gives (.pitchAlignLoss p) s (PitchBroken s p)) ∧
      (s.bar0Open = true → Gives (match p with | .up => .retrainUp | .dn => .retrainDn) s (PitchBroken s p)))

/-- A hop message received on a port in UP was passed to the other port: it waits there and holds its receive buffer, or, where that
pitch is not UP, its buffer is free at once (R341, R350). -/
def Forwarded (s : State) (p : Port) (msg : List Byte) (t : State) : Prop :=
  let mail := byteAt msg 0 == 0x5C
  let c := if mail then 1 else 0
  let b := (msg.length + 7) / 8
  (s.pitchUp p.other = true →
    t.pitch p = { s.pitch p with recv := (s.pitch p).recv.modify c fun n => (n + b) % 2 ^ 24 } ∧
    t.pitch p.other = { s.pitch p.other with txq := (s.pitch p.other).txq ++ [⟨mail, msg, none, some p⟩] }) ∧
  (s.pitchUp p.other = false → t.pitch p.other = s.pitch p.other ∧ t.pitch p = { s.pitch p with
    recv := (s.pitch p).recv.modify c fun n => (n + b) % 2 ^ 24
    freed := (s.pitch p).freed.modify c fun n => (n + b) % 2 ^ 24, belayDue := (s.pitch p).belayDue.set c true })

/-- Hop messages (R341, R342), belay (R350, R351), PRESENT messages (R356) and alarms (R357). -/
def Obligations.HopMessagesFlow : Prop :=
  (∀ (p : Port) (msg : List Byte) (s : State), s.pitchUp p = true → byteAt msg 1 < 2 →
      let c := byteAt msg 1
      let sent := leAt msg 2 3
      let lost := serialDist 24 sent ((s.pitch p).recv.getD c 0)
      (lost ≤ 0 → exec (.belay p msg) s = .next (s.modPitch p fun q => { q with peerFreed := q.peerFreed.set c (leAt msg 5 3) })) ∧
      (0 < lost → exec (.belay p msg) s = .next (s.modPitch p fun q => { q with
        peerFreed := q.peerFreed.set c (leAt msg 5 3), recv := q.recv.set c sent
        freed := q.freed.modify c fun n => (n + lost.toNat) % 2 ^ 24, belayDue := q.belayDue.set c true }))) ∧
    (∀ (p : Port) (mail : Bool) (l : Nat) (s : State), s.pitchUp p = true → s.carryLane p mail = some l →
      let c := if mail then 1 else 0
      Gives (.belaySend p mail) s fun t => t = { s with out := t.out, lanes := t.lanes, rope := t.rope } ∧
        t.rope = (s.modPitch p fun q => { q with belayDue := q.belayDue.set c false }).rope ∧
        t.out = if s.txLive (p.lane0 + l) = true then .rope p l (leBytes 0x53 1 ++ leBytes c 1 ++
          leBytes ((s.pitch p).sent.getD c 0) 3 ++ leBytes ((s.pitch p).freed.getD c 0) 3) :: s.out else s.out) ∧
    (∀ (p : Port) (mail : Bool) (lead l : Nat) (m : HopMsg) (s : State), s.awake = true → s.alarmWaits p = false →
      (s.pitch p).txq.find? (fun m => m.mail == mail) = some m → s.carryLane p mail = some l → s.hopCanStart p m = true →
      Gives (.hopForward p mail lead) s fun t => (s.txLive (p.lane0 + l) = true → ∃ later, t.out = later ++ .rope p l m.bytes :: s.out) ∧
        t.rope = (match m.src with
          | some o => (s.modPitch p fun q => { q with
              txq := q.txq.erase m, sent := q.sent.modify (if mail then 1 else 0) fun n => (n + m.blocks) % 2 ^ 24 }).freeBlocks o mail m.blocks
          | none => s.modPitch p fun q => { q with
              txq := q.txq.erase m, sent := q.sent.modify (if mail then 1 else 0) fun n => (n + m.blocks) % 2 ^ 24 }).rope ∧
        (∀ kind key ident, m.ts = some (kind, key, ident) → s.tim.tsq.length < 16 → t.tim.tsq = s.tim.tsq ++
          [⟨ident, if p = .up then 0 else 1, kind, quarters (s.departPs p l lead), key⟩]) ∧ (m.ts = none → t.tim = s.tim)) ∧
    (∀ (p : Port) (msg : List Byte) (s : State), s.pitchUp p = true →
      (byteAt msg 0 = 0x5A → Gives (.presentMessage p msg) s fun t => Forwarded s p msg t ∧ t.scn = { s.scn with presents := s.scn.presents ++
          [⟨beAt msg 8 6 * 1000000000 + beAt msg 16 4 % 2 ^ 30, beAt msg 20 4, none, s.scn.missT,
            s.scn.guarded && !s.scn.decided⟩] } ∧ t.regs = s.regs) ∧
      (byteAt msg 0 = 0x5B → s.awake = true → Gives (.alarm p msg) s fun t => Forwarded s p msg t ∧ t.rd F.ROPE_ALARM_LAST_SRC = byteAt msg 1 ∧
        t.rd F.ROPE_ALARM_LAST_CODE = byteAt msg 6 ∧ t.rd F.ROPE_ALARM_LAST_VALID = 1 ∧
        t.rd F.ROPE_ALARM_LAST_OVF = (if s.rd F.ROPE_ALARM_LAST_VALID = 1 then 1 else s.rd F.ROPE_ALARM_LAST_OVF) ∧
        Raised Ev.ROPE_ALARM_RX t ∧ WordsKept [0x80024] s t)) ∧
    (∀ (val : Word) (s : State), s.bar0Open = true →
      (Gives (.swGo val) s fun t => t.rd F.ROPE_ALARM_CFG_SEND = val.toNat % 2 ^ 6 ∧
        t.rd F.ROPE_ALARM_CFG_SW_CODE = val.toNat / 2 ^ 8 % 2 ^ 8 ∧
        (s.pitchUp .up = false → s.pitchUp .dn = false → t.out = s.out ∧ RegsOnly [0x80020] s t)) ∧
      ∀ (p : Port) (l : Nat), s.pitchUp p = true → s.pitchUp p.other = false → s.rd F.TIM_TS_SEL_ALARM = 0 → (s.pitch p).txq = [] →
        (s.pitch p).retrain = false → s.carryLane p false = some l → (s.pitch p).credit false 1 = true →
        s.txLive (p.lane0 + l) = true →
        Gives (.swGo val) s fun t => t.out = .rope p l (leBytes 0x5B 1 ++ leBytes s.ropeAddr 1 ++ leBytes 0 4 ++
          leBytes (max 0x80 (val.toNat / 2 ^ 8 % 2 ^ 8)) 2) :: s.out)

/-- The head and addresses (R353 to R355), and the orderly leave (R359). -/
def Obligations.TilesEnumerateLeaveAndJoin : Prop :=
  (∀ (msg : List Byte) (s : State), s.pitchUp .up = true →
      let c := leAt msg 6 2
      (c < 255 → Gives (.enum msg) s fun t => t.ropeAddr = c + 1 ∧ t.rope.enumSeen = true ∧ t.rd F.ROPE_STATUS_NO_HEAD = 0 ∧
        t.rd F.ROPE_STATUS_OVERLENGTH = 0 ∧ (s.awake = true → s.ropeAddr ≠ c + 1 → Raised Ev.ROPE_MEMBERSHIP t) ∧
        (s.pitchUp .dn = true → t.rd F.ROPE_STATUS_ENUM_BUSY = 1) ∧
        (s.pitchUp .dn = false → t.rd F.ROPE_STATUS_ENUM_BUSY = 0 ∧ t.rd F.ROPE_STATUS_TOTAL = c + 1)) ∧
      (255 ≤ c → Gives (.enum msg) s fun t => t.ropeAddr = 0 ∧ t.rope.enumSeen = true ∧ t.rd F.ROPE_STATUS_OVERLENGTH = 1 ∧
        t.rd F.ROPE_STATUS_TOTAL = 255 ∧ (s.awake = true → Raised Ev.ROPE_OVERLENGTH t))) ∧
    (∀ (msg : List Byte) (s : State), s.pitchUp .dn = true → Gives (.enumDone msg) s fun t =>
        t.rd F.ROPE_STATUS_ENUM_BUSY = 0 ∧ t.rd F.ROPE_STATUS_TOTAL = leAt msg 6 2 % 256 ∧
        (s.awake = true → s.rd F.ROPE_STATUS_TOTAL ≠ leAt msg 6 2 % 256 → Raised Ev.ROPE_MEMBERSHIP t) ∧
        (s.awake = true → s.rd F.ROPE_STATUS_HEAD = 1 → Raised Ev.ROPE_ENUM_DONE t)) ∧
    (∀ (p : Port) (s : State), s.awake = true → s.pitchUp p = true → s.pitchVer p = 2 → Gives (.leaveMessage p) s fun t =>
        Raised Ev.ROPE_LEFT t ∧ t.rd (F.ROPE_CNT_COUNT 1) = s.rd (F.ROPE_CNT_COUNT 1) ∧
        t.pitchState p = if MayLock s p then (if s.anyAligned p then 2 else 1) else 0) ∧
    (∀ s : State, s.bar0Open = true → Gives .leave s fun t => t.rd F.ROPE_STATUS_LEFT = 1 ∧ t.ropeAddr = 0 ∧
        (s.ropeAddr ≠ 0 → Raised Ev.ROPE_MEMBERSHIP t) ∧
        ∀ p l, s.pitchUp p = true → s.pitchVer p = 2 → s.carryLane p false = some l → s.txLive (Port.lane0 p + l) = true →
          .rope p l (leBytes 0x54 1 ++ leBytes 0 7) ∈ t.out) ∧
    (∀ s : State, s.rd F.ROPE_STATUS_LEFT = 1 →
      (Gives .leaveHoldDown s fun t => t.rope.heldDown = true ∧ t.pitchState .up = 0 ∧ t.pitchState .dn = 0 ∧
        (s.shaped = true → ∀ p n, n ∈ Port.lanes p → (t.lane n).txIdle = true))) ∧
    (∀ s : State, s.bar0Open = true →
      (s.rd F.ROPE_STATUS_LEFT = 0 → s.rope.released = true →
        exec .join s = .next { s with rope := { s.rope with headWaited := false } }) ∧
      (s.rd F.ROPE_STATUS_LEFT = 1 ∨ s.rope.released = false → Gives .join s fun t => t.rd F.ROPE_STATUS_LEFT = 0 ∧ t.rope.released = true ∧ t.rope.heldDown = false ∧
        t.rope.headWaited = false ∧
        (s.rd F.ROPE_STATUS_STRAPPED = 0 → t.rd F.ROPE_STATUS_HEAD = 0 ∧ t.ropeAddr = 0) ∧
        (s.rd F.ROPE_STATUS_STRAPPED = 1 → t.rd F.ROPE_STATUS_HEAD = 1 ∧ t.ropeAddr = 1))) ∧
    (∀ s : State, s.rope.released = true → s.rope.headWaited = false → Gives .headWaitExpiry s fun t => t.rope.headWaited = true ∧
        (s.pitchUp .up = false → s.rd F.ROPE_STATUS_LEFT = 0 → t.rd F.ROPE_STATUS_HEAD = 1 ∧ t.ropeAddr = 1) ∧
        (s.pitchUp .up = true ∨ s.rd F.ROPE_STATUS_LEFT = 1 → t.regs = s.regs)) ∧
    (∀ s : State, s.awake = true → s.pitchUp .up = true → s.rope.enumSeen = false → s.rd F.ROPE_STATUS_NO_HEAD = 0 →
      Gives .ropeNoHead s (After Ev.ROPE_NO_HEAD (s.wr F.ROPE_STATUS_NO_HEAD 1)))

/-- A SEND was answered: its descriptor is done with the length of the response and the flags, and a response buffer in host memory holds RESULT
and the address (Table 13-9), cut to RSP_MAX. -/
def Answered (s : State) (ring idx rsp most flags result addr : Nat) (t : State) : Prop :=
  t.hif.rings = (s.modDesc ring idx fun d => { doneAs Cpl.SUCCESS (min most 8) d with cflags := flags }).hif.rings ∧
    (isHost rsp = true → .hostWrite rsp ((leBytes result 1 ++ leBytes addr 1 ++ leBytes 0 6).take most) false ∈ t.out)

/-- MBOX (Table 2-7) and rope mail (R346, R358). -/
def Obligations.MailTravels : Prop :=
  (∀ (ring : Nat) (req : List Byte) (r : Ring) (d : Desc) (s : State), Passes s ring 0x60 r d (s.mboxChecks r d) →
      let q := s.reqBytes d req
      let flag := if s.reqPoison d req = true then CFlag.POISON else 0
      let done := fun (n : Nat) (d : Desc) => { doneAs Cpl.SUCCESS n d with cflags := flag }
      (mboxKind q = 0 → Gives (.mbox ring req) s fun t => ∃ bs : List Byte, bs.length ≤ d.mboxMax ∧
        t.hif.rings = (s.modDesc ring d.idx (done bs.length)).hif.rings ∧
        (isHost d.mboxRsp = true → .hostWrite d.mboxRsp bs false ∈ t.out)) ∧
      (mboxKind q ≠ 0 → exec (.mbox ring req) s = .next s) ∧
      (mboxKind q = 0x10 → (s.descsOf ring).find? (fun x => x.idx == d.idx) = some d →
        let dst := byteAt q 1
        let near : Port := if dst < s.ropeAddr then .up else .dn
        (s.ropeAddr = 0 ∨ (s.pitchUp .up = false ∧ s.pitchUp .dn = false) →
          Gives (.send ring req) s fun t => Answered s ring d.idx d.mboxRsp d.mboxMax flag 4 0 t ∧ t.rope = s.rope) ∧
        (s.ropeAddr ≠ 0 → (s.pitchUp .up = true ∨ s.pitchUp .dn = true) → dst = s.ropeAddr → s.rope.mails.length < 16 →
          Gives (.send ring req) s fun t => Answered s ring d.idx d.mboxRsp d.mboxMax flag 0 dst t ∧
            Raised Ev.ROPE_MAIL_RX t ∧ ∃ more : List Byte, more.length = leAt q 2 2 + 8 - q.length ∧
              t.rope.mails = s.rope.mails ++ [⟨dst, (q.drop 8).take (leAt q 2 2) ++ more⟩]) ∧
        (s.ropeAddr ≠ 0 → (s.pitchUp .up = true ∨ s.pitchUp .dn = true) → dst = s.ropeAddr → 16 ≤ s.rope.mails.length →
          Gives (.send ring req) s fun t => Answered s ring d.idx d.mboxRsp d.mboxMax flag 1 dst t ∧ t.rope = s.rope ∧
            Raised Ev.ROPE_MAIL_DROP t ∧ t.rd (F.ROPE_CNT_COUNT 2) = min (s.rd (F.ROPE_CNT_COUNT 2) + 1) (2 ^ 32 - 1)) ∧
        (s.ropeAddr ≠ 0 → (s.pitchUp .up = true ∨ s.pitchUp .dn = true) → dst ≠ s.ropeAddr →
          s.mailTooLong near ((leAt q 2 2 + 7) / 8) = true → Gives (.send ring req) s fun t =>
            Answered s ring d.idx d.mboxRsp d.mboxMax flag 2 s.ropeAddr t ∧ t.rope = s.rope ∧ Raised Ev.ROPE_MAIL_DROP t) ∧
        (s.ropeAddr ≠ 0 → (s.pitchUp .up = true ∨ s.pitchUp .dn = true) → dst ≠ s.ropeAddr →
          s.mailTooLong near ((leAt q 2 2 + 7) / 8) = false → Gives (.send ring req) s fun t =>
            t.rope.send = s.rope.send ++ [⟨ring, d.idx, s.rope.mailTag, dst, d.mboxRsp, s.reqPoison d req⟩] ∧
            t.rope.mailTag = (s.rope.mailTag + 1) % 256 ∧ t.hif.rings = (s.run ring d.idx).hif.rings)) ∧
      (mboxKind q = 0x11 →
        (s.rope.mails = [] → Gives (.recv ring req) s fun t => t.rope = s.rope ∧
          t.hif.rings = (s.modDesc ring d.idx (done (min d.mboxMax 8))).hif.rings ∧
          (isHost d.mboxRsp = true → .hostWrite d.mboxRsp ((leBytes 1 1 ++ leBytes 0 7).take d.mboxMax) false ∈ t.out)) ∧
        (∀ m ms, s.rope.mails = m :: ms → Gives (.recv ring req) s fun t => t.rope = { s.rope with mails := ms } ∧
          t.hif.rings = (s.modDesc ring d.idx (done (min d.mboxMax (8 + m.bytes.length)))).hif.rings ∧
          (isHost d.mboxRsp = true → .hostWrite d.mboxRsp ((leBytes 0 1 ++ leBytes m.src 1 ++ leBytes m.bytes.length 2 ++
            leBytes 0 4 ++ m.bytes).take d.mboxMax) false ∈ t.out)))) ∧
    (∀ (p : Port) (msg : List Byte) (s : State), s.pitchUp p = true →
      (byteAt msg 2 = s.ropeAddr → s.ropeAddr ≠ 0 →
        (s.rope.mails.length < 16 → Gives (.mail p msg) s fun t => (s.awake = true → Raised Ev.ROPE_MAIL_RX t) ∧
          t.rope.mails = s.rope.mails ++ [⟨byteAt msg 1, (msg.drop 8).take (8 * leAt msg 4 2 - byteAt msg 7)⟩]) ∧
        (16 ≤ s.rope.mails.length → Gives (.mail p msg) s fun t => t.rope.mails = s.rope.mails ∧
          (s.awake = true → Raised Ev.ROPE_MAIL_DROP t) ∧
          t.rd (F.ROPE_CNT_COUNT 2) = min (s.rd (F.ROPE_CNT_COUNT 2) + 1) (2 ^ 32 - 1))) ∧
      (byteAt msg 0 = 0x5C → byteAt msg 2 ≠ s.ropeAddr → byteAt msg 2 ≠ 0 → s.mailTooLong p.other (leAt msg 4 2) = false →
        Gives (.mail p msg) s fun t => Forwarded s p msg t ∧ t.rope.mails = s.rope.mails ∧
          (s.pitchUp p.other = true → t.regs = s.regs) ∧
          (s.pitchUp p.other = false → (s.awake = true → Raised Ev.ROPE_MAIL_DROP t) ∧
            t.rd (F.ROPE_CNT_COUNT 2) = min (s.rd (F.ROPE_CNT_COUNT 2) + 1) (2 ^ 32 - 1))) ∧
      (byteAt msg 0 = 0x5D → byteAt msg 2 ≠ s.ropeAddr → byteAt msg 2 ≠ 0 → Gives (.mailAck p msg) s fun t => Forwarded s p msg t ∧
        t.rope.send = s.rope.send ∧ t.hif = s.hif)) ∧
    (∀ (w : SendWait) (d : Desc) (s : State), s.rope.send.find? (fun x => x.tag == w.tag) = some w →
      (s.descsOf w.ring).find? (fun x => x.idx == w.idx && x.phase == .running) = some d →
      (Gives (.mailAckTimeout w.tag) s fun t => t.rope.send = s.rope.send.erase w ∧ Answered s w.ring w.idx w.resp d.mboxMax (if w.poison then CFlag.POISON else 0) 3 0 t) ∧
      ∀ (p : Port) (msg : List Byte), s.pitchUp p = true → byteAt msg 2 = s.ropeAddr → s.ropeAddr ≠ 0 → byteAt msg 6 = w.tag →
        Gives (.mailAck p msg) s fun t => t.rope.send = s.rope.send.erase w ∧
          Answered s w.ring w.idx w.resp d.mboxMax (if w.poison then CFlag.POISON else 0) (byteAt msg 7) (byteAt msg 1) t)

/-- Rope time (R362), the host's writes (R362 to R366), the snapshot (Table 14-4) and POP (R382). -/
def Obligations.RopeTimeFollowsItsRule : Prop :=
  (∀ s : State, s.rtNs = s.tim.raw + s.tim.offset + ((s.tim.raw : Int) - s.tim.base) * sext 32 (s.rd F.TIM_RATE_RATE) / 2 ^ 40) ∧
    (∀ (val : Word) (s : State), s.bar0Open = true →
      (s.role = 2 → exec (.timRate val) s = .next s ∧ exec (.timOffsetHi val) s = .next s) ∧
      (s.role ≠ 2 → val.toNat = s.rd F.TIM_RATE_RATE → exec (.timRate val) s = .next s) ∧
      (s.role ≠ 2 → val.toNat ≠ s.rd F.TIM_RATE_RATE → Gives (.timRate val) s fun t => t.rate = sext 32 val.toNat ∧ t.tim.base = s.tim.raw ∧
        twos 64 t.rtNs = twos 64 s.rtNs ∧
        (-2 ^ 63 ≤ s.tim.offset + s.rateTerm s.tim.raw → s.tim.offset + s.rateTerm s.tim.raw < 2 ^ 63 → t.rtNs = s.rtNs) ∧
        t.tim = { s.tim with offset := t.tim.offset, base := s.tim.raw } ∧ t.rd F.TIM_STATUS_HOLDOVER = 0 ∧
        t.rd F.TIM_OFFSET_LO_OFF_LO + 2 ^ 32 * t.rd F.TIM_OFFSET_HI_OFF_HI = twos 64 t.tim.offset ∧
        t.rd F.TIM_STATUS_VALID = s.rd F.TIM_STATUS_VALID ∧
        RegsOnly [0x70004, 0x70008, 0x7000C, 0x70010] ({ s with tim := t.tim } : State) t) ∧
      (s.role ≠ 2 → Gives (.timOffsetHi val) s fun t =>
        t.tim.offset = sext 64 (s.tim.offLo.getD (s.rd F.TIM_OFFSET_LO_OFF_LO) + 2 ^ 32 * val.toNat) ∧ t.tim.offLo = none ∧
        t.rtNs = s.tim.raw + t.tim.offset + s.rateTerm s.tim.raw ∧
        t.rd F.TIM_OFFSET_LO_OFF_LO + 2 ^ 32 * t.rd F.TIM_OFFSET_HI_OFF_HI = twos 64 t.tim.offset ∧
        t.rd F.TIM_STATUS_HOLDOVER = (if t.tim.offset = s.tim.offset then s.rd F.TIM_STATUS_HOLDOVER else 0) ∧
        (s.role = 0 → t.rd F.TIM_STATUS_VALID = 1 ∧
          (s.rd F.TIM_STATUS_VALID = 0 → t.scn.started = true ∧ t.rd F.SCN_STATUS_TIME_OK = 1)) ∧
        (s.role = 1 ∨ s.rd F.TIM_STATUS_VALID = 1 → t.rd F.TIM_STATUS_VALID = s.rd F.TIM_STATUS_VALID ∧ t.scn = s.scn))) ∧
    (∀ (val : Word) (s : State), s.bar0Open = true →
      let nom := s.rd F.TIM_DC_INC_LO_FRAC + 2 ^ 32 * val.toNat
      (Gives (.timDcIncHi val) s fun t => t.rd F.TIM_DC_INC_HI_NS = val.toNat ∧
        t.tim = { s.tim with incNom := nom, inc := if s.rd F.TIM_CTRL_STEER = 1 then s.tim.inc else nom } ∧
        RegsOnly [0x7001C] ({ s with tim := t.tim } : State) t) ∧
      Gives (.timPpsSecHi val) s fun t => t.rd F.TIM_PPS_SEC_HI_VALUE = val.toNat % 2 ^ 16 ∧
        t.tim = { s.tim with ppsSec := some (sext 48 (s.rd F.TIM_PPS_SEC_LO_VALUE + 2 ^ 32 * (val.toNat % 2 ^ 16))) } ∧ RegsOnly [0x70054] ({ s with tim := t.tim } : State) t) ∧
    (∀ s : State, s.bar0Open = true →
      (Gives .snap s fun t =>
        t.rd F.TIM_SNAP_RAW_LO_VALUE = s.tim.raw % 2 ^ 32 ∧ t.rd F.TIM_SNAP_RAW_HI_VALUE = s.tim.raw / 2 ^ 32 % 2 ^ 32 ∧
        t.rd F.TIM_SNAP_RT_LO_VALUE = twos 64 s.rtNs % 2 ^ 32 ∧ t.rd F.TIM_SNAP_RT_HI_VALUE = twos 64 s.rtNs / 2 ^ 32 ∧
        t.rd F.TIM_SNAP_DC_NS_VALUE = s.tim.dcNs % 2 ^ 30 ∧ t.rd F.TIM_SNAP_DC_SEC_LO_VALUE = s.tim.dcSec % 2 ^ 32 ∧
        t.rd F.TIM_SNAP_DC_SEC_HI_VALUE = s.tim.dcSec / 2 ^ 32 % 2 ^ 16 ∧
        RegsOnly [0x70030, 0x70034, 0x70038, 0x7003C, 0x70040, 0x70044, 0x70048] s t) ∧
      exec .pop s = .next { s with tim := { s.tim with tsq := s.tim.tsq.drop 1 } })

/-- The proportional-integral loop took an error of `ps` (R372), `us` µs after the one before: rope time moves by the proportional part
and RATE by the integral part, each with its gain and to one of the two whole numbers around it (log entry 1402). -/
def LoopStep (s : State) (us : Nat) (ps : Int) (t : State) : Prop :=
  let bw := if s.rd F.TIM_SERVO_CFG_BW = 3 then 1 else s.rd F.TIM_SERVO_CFG_BW
  ∃ p i : Int, (2 ^ 32 * p - Config.servoKp bw us * ps).natAbs < 2 ^ 32 ∧ (2 ^ 32 * i - Config.servoKi bw us * ps).natAbs < 2 ^ 32 ∧
    t.rate = satS 32 (s.rate + i) ∧ twos 64 t.rtNs = twos 64 (s.rtNs + p)

/-- The display clock stepped to `z` ns and fraction `f`: TIM_STEP is raised, a running timing generator retimes with the frame settings
unchanged and shows the unit shown now, a forward step fires a skipped ONE_SHOT or PERIODIC edge at the step instant, and a backward
step starts no pulse (R216, R217, R368, R378). -/
def StepsTo (s : State) (z : Int) (f : Nat) (t : State) : Prop :=
  t.tim.dcSec = (z / 1000000000 % 2 ^ 48).toNat ∧ t.tim.dcNs = (z % 1000000000).toNat ∧ t.tim.dcFrac = f ∧ t.tim.raw = s.tim.raw ∧
    t.tim.offset = s.tim.offset ∧ Raised Ev.TIM_STEP t ∧ t.live = s.live ∧ t.tim.inc = s.tim.inc ∧
    (s.timed = false → t.scn = s.scn) ∧
    (s.timed = true → Raised Ev.SCN_RETIMED t ∧ t.rd F.SCN_STATUS_RETIMING = 1 ∧ t.scn.gap = some (s.geo.firstAfter t.dcNs) ∧
      t.scn.next = s.geo.firstAfter t.dcNs ∧ t.pwr.captureFrame = none ∧ (∀ p ∈ t.scn.presents, p.afterGuard = false) ∧
      (s.pwr.st = .s0 → t.syn.frame = some (s.geo.firstAfter t.dcNs) ∧ t.syn.au = s.scn.shown.map Pres.au ∧ t.dec.oldPics = none)) ∧
    (s.dcNs < t.dcNs → ∀ (n : Nat) (a : TevArmed) (v : Tev), n < 8 → s.tim.tev[n]? = some v → v.armed = some a → v.last = false →
      (s.rd (F.TIM_TEV_CTRL_MODE n) = 1 ∧ a.start < 4 * t.dcNs) ∨
        (s.rd (F.TIM_TEV_CTRL_MODE n) = 2 ∧ 0 < a.period ∧ a.start + (a.next * a.period : Nat) < 4 * t.dcNs) →
      (s.tim.levels.getD n false ≠ s.rdB (F.TIM_TEV_CTRL_POL n) →
        .edge n (s.rdB (F.TIM_TEV_CTRL_POL n)) (s.ballAt (4 * t.dcNs)) ∈ t.out) ∧ t.rd (F.TIM_TEV_STATUS_LATE n) = 1 ∧
        Raised Ev.TIM_TEV_LATE t) ∧
    (t.dcNs ≤ s.dcNs → t.tim.tev.map Tev.pulse = s.tim.tev.map Tev.pulse)

/-- The reference (R361), PPS (R364), steering (R367) and steps of the display clock (R368, R378). -/
def Obligations.ReferencesAndSteering : Prop :=
  (∀ s : State, s.awake = true → s.rd F.TIM_STATUS_TREF_OK = 0 → Gives .trefValid s fun t => t.rd F.TIM_STATUS_TREF_OK = 1 ∧
        t.rd F.TIM_STATUS_TREF_USED = (if s.rd F.TIM_CTRL_REF = 2 then 0 else 1) ∧ t.tim = { s.tim with refLost := false } ∧
        (s.tim.refLost = true → Raised Ev.TIM_REF_RESTORED t) ∧ WordsKept [0x70004] s t) ∧
    (∀ s : State, s.awake = true → s.rd F.TIM_STATUS_TREF_OK = 1 → Gives .trefLost s fun t => t.rd F.TIM_STATUS_TREF_OK = 0 ∧
        t.rd F.TIM_STATUS_TREF_USED = 0 ∧ t.tim.raw = s.tim.raw ∧
        (s.rd F.TIM_STATUS_TREF_USED = 1 → t.tim.refLost = true ∧ Raised Ev.TIM_REF_LOST t) ∧
        (s.rd F.TIM_STATUS_TREF_USED = 0 → t.tim = s.tim ∧ RegsOnly [0x70004] s t)) ∧
    (∀ s : State, s.awake = true → Gives .ppsEdge s fun t =>
      let inTime := ∃ r, s.tim.ppsPrev = some r ∧ r + 999000000 ≤ s.tim.raw ∧ s.tim.raw ≤ r + 1001000000
      let first := s.tim.ppsS = none ∨ (s.rd F.TIM_STATUS_PPS_OK = 1 ∧ s.tim.ppsPrev ≠ none ∧ ¬ inTime)
      t.tim.ppsPrev = some s.tim.raw ∧ t.rd F.TIM_STATUS_ROLE = t.role ∧
        (s.tim.ppsPrev ≠ none → (t.rd F.TIM_STATUS_PPS_OK = 1 ↔ inTime)) ∧
        (s.tim.ppsPrev = none → t.rd F.TIM_STATUS_PPS_OK = s.rd F.TIM_STATUS_PPS_OK) ∧
        (s.rd F.TIM_STATUS_PPS_OK = 1 → s.tim.ppsPrev ≠ none → ¬ inTime → Raised Ev.TIM_PPS_LOST t) ∧
        (t.role = 1 → ∃ sec : Int, let e := sec * 1000000000 - s.rtNs
          t.tim.ppsS = some sec ∧ t.tim.ppsSec = none ∧
          (∀ v, s.tim.ppsSec = some v → sec = v) ∧
          (∀ p, s.tim.ppsSec = none → ¬ first → s.tim.ppsS = some p → sec = p + 1) ∧
          (s.tim.ppsSec = none → first → sec = (s.rtNs + 500000000) / 1000000000) ∧ t.rd F.TIM_PPS_CAP_LO_VALUE = s.tim.raw % 2 ^ 32 ∧ t.rd F.TIM_PPS_CAP_HI_VALUE = s.tim.raw / 2 ^ 32 % 2 ^ 32 ∧
          t.rd F.TIM_SERVO_ERR_E = twos 32 (satS 32 (1000 * e)) ∧ t.rd F.TIM_STATUS_VALID = 1 ∧
          (max 1 (s.rd F.TIM_STEER_STEP_NS) < e.natAbs → t.tim.offset = sext 64 (twos 64 (s.tim.offset + e)) ∧
            t.rd F.TIM_RATE_RATE = s.rd F.TIM_RATE_RATE) ∧
          (e.natAbs ≤ max 1 (s.rd F.TIM_STEER_STEP_NS) → LoopStep s 1000000 (1000 * e) t)) ∧
        (t.role ≠ 1 → t.tim = { s.tim with ppsPrev := some s.tim.raw, ppsS := none } ∧ t.rd F.TIM_STATUS_VALID = s.rd F.TIM_STATUS_VALID ∧ t.scn = s.scn)) ∧
    (∀ s : State, s.awake = true → s.rd F.TIM_STATUS_PPS_OK = 1 → Gives .timPpsLost s fun t => t.rd F.TIM_STATUS_PPS_OK = 0 ∧
        t.tim = { s.tim with ppsPrev := none, ppsS := none } ∧ Raised Ev.TIM_PPS_LOST t ∧ (s.role = 1 → t.rd F.TIM_STATUS_HOLDOVER = 1) ∧
        WordsKept [0x70004] s t) ∧
    (∀ s : State, s.awake = true → s.rd F.TIM_CTRL_STEER = 1 →
      let e := s.rtNs - s.dcNs
      let c := sgn e * (min (max 1 (s.rd F.TIM_STEER_SLEW_PPB) : Nat) (e.natAbs * 1000000 : Nat) : Nat)
      let num := (s.tim.incNom : Int) * ((2 ^ 40 + s.rate) * 1000000000 + c * 2 ^ 40)
      let den : Int := 2 ^ 40 * 1000000000
      Gives .steerCompare s fun t => t.rd F.TIM_DC_ERR_E = twos 32 (satS 32 e) ∧
        (max 1 (s.rd F.TIM_STEER_STEP_NS) < e.natAbs → StepsTo s s.rtNs 0 t) ∧
        (e.natAbs ≤ max 1 (s.rd F.TIM_STEER_STEP_NS) → t.rd F.TIM_STATUS_SLEWING = (if 1 < e.natAbs then 1 else 0) ∧
          (t.tim.inc = (num / den).toNat ∨ (num % den ≠ 0 ∧ t.tim.inc = (num / den + 1).toNat)) ∧
          RegsOnly [0x70004, 0x70024] ({ s with freeCtr := t.freeCtr, tim := { s.tim with inc := t.tim.inc } } : State) t)) ∧
    (∀ (val : Word) (s : State), s.bar0Open = true →
      (s.rd F.TIM_CTRL_STEER = 1 ∨ val = 0 → exec (.timDcAdj val) s = .next s) ∧
      (s.rd F.TIM_CTRL_STEER = 0 → val ≠ 0 → Gives (.timDcAdj val) s (StepsTo s (s.dcNs + val.toInt) s.tim.dcFrac)))

/-- Time messages and the follower (R369 to R372). -/
def Obligations.TimeFlowsDownTheRope : Prop :=
  (∀ (lead l : Nat) (s : State), s.awake = true → s.rd F.TIM_STATUS_VALID = 1 → s.pitchUp .dn = true → s.carryLane .dn false = some l →
      let ps : Int := 1000 * s.rtNs + (250 * lead + Config.txDelay (102 + l) (s.rdB (F.LNK_L_STATUS_QUARTER (102 + l))) : Nat)
      Gives (.tsyncSend lead) s fun t => t = { s with out := t.out, lanes := t.lanes } ∧
        t.out = if s.txLive (102 + l) = true then .rope .dn l (leBytes 0x55 1 ++ leBytes (twos 56 ((ps + 125) / 250)) 7) :: s.out else s.out) ∧
    (∀ (lane turn l : Nat) (msg : List Byte) (s : State), s.pitchUp .dn = true → lane < 2 → s.carryLane .dn false = some l →
      let balls := 250 * turn + s.rd (F.LNK_L_LAT_PS (102 + lane)) + Config.txDelay (102 + l) (s.rdB (F.LNK_L_STATUS_QUARTER (102 + l)))
      Gives (.tdreq lane msg turn) s fun t => t = { s with out := t.out, lanes := t.lanes } ∧
        t.out = if s.txLive (102 + l) = true then .rope .dn l (leBytes 0x57 1 ++ leBytes (byteAt msg 1) 1 ++
          leBytes (twos 64 s.rtNs / 2 ^ 54) 2 ++ leBytes ((balls + 125) / 250) 4) :: s.out else s.out) ∧
    (∀ (lead l : Nat) (s : State), s.role = 2 → s.pitchUp .up = true → s.carryLane .up false = some l →
      let ps : Int := 1000 * s.rtNs + (250 * lead + Config.txDelay (100 + l) (s.rdB (F.LNK_L_STATUS_QUARTER (100 + l))) : Nat)
      Gives (.tdreqSend lead) s fun t => t = { s with out := t.out, lanes := t.lanes, tim := { s.tim with
          tdSeq := (s.tim.tdSeq + 1) % 256, tdOut := some ⟨s.tim.tdSeq, ps, l⟩ } } ∧
        t.out = if s.txLive (100 + l) = true then .rope .up l (leBytes 0x56 1 ++ leBytes s.tim.tdSeq 1 ++ leBytes 0 6) :: s.out else s.out) ∧
    (∀ (lane back : Nat) (msg : List Byte) (s : State), s.role = 2 → s.pitchUp .up = true → s.carryLane .up false = some lane →
      let epoch := leAt msg 2 2 % 1024
      let t4 : Int := 1000 * s.rtNs - (250 * back + s.rd (F.LNK_L_LAT_PS (100 + lane)) : Nat)
      Gives (.tdresp lane msg back) s fun t =>
        (∀ old at_, s.tim.epochHi = some (old, at_) → t.tim.epochHi = if old = epoch then some (old, at_) else some (epoch, s.tim.raw)) ∧
        (s.tim.epochHi = none → t.tim.epochHi = some (epoch, s.tim.raw)) ∧
        ((∀ o, s.tim.tdOut = some o → o.seq ≠ byteAt msg 1 ∨ o.lane ≠ lane) → t.regs = s.regs ∧ t.tim.delays = s.tim.delays) ∧
        (∀ o, s.tim.tdOut = some o → o.seq = byteAt msg 1 → o.lane = lane →
          t.tim.delays = ((t4 - o.t1 - 250 * (leAt msg 4 4 : Nat) + sext 16 (s.rd F.TIM_PITCH_ASYM_A)) ::
            s.tim.delays).take 16 ∧ t.tim.tdOut = none ∧
          (∃ q : Int, t.rd F.TIM_PITCH_DELAY_DELAY = twos 32 q ∧
            (2 * t.tim.delays.length * q - t.tim.delays.sum).natAbs < 2 * t.tim.delays.length) ∧
          ∀ o, o ≠ 0x70068 → t.word o = s.word o)) ∧
    (∀ (lane back : Nat) (msg : List Byte) (s : State), s.role = 2 → s.pitchUp .up = true → s.carryLane .up false = some lane →
      s.tim.delays ≠ [] →
      let ta : Int := 1000 * s.rtNs - (250 * back + s.rd (F.LNK_L_LAT_PS (100 + lane)) : Nat)
      let used := fun (v : Int) (t : State) =>
        let e := 250 * v - ta + sext 32 (s.rd F.TIM_PITCH_DELAY_DELAY)
        t.rd F.TIM_SERVO_ERR_E = twos 32 (satS 32 e) ∧
          t.tim.goodRun = (if e.natAbs ≤ 2000 then s.tim.goodRun + 1 else 0) ∧
          t.tim.badRun = (if 20000 < e.natAbs then s.tim.badRun + 1 else 0) ∧
          (1000 * max 1 (s.rd F.TIM_STEER_STEP_NS) < e.natAbs → t.rd F.TIM_RATE_RATE = s.rd F.TIM_RATE_RATE ∧
            ∃ q : Int, (1000 * q - e).natAbs < 1000 ∧ t.tim.offset = sext 64 (twos 64 (s.tim.offset + q))) ∧
          (e.natAbs ≤ 1000 * max 1 (s.rd F.TIM_STEER_STEP_NS) → LoopStep s (max 16 (s.rd F.TIM_SERVO_CFG_SYNC_US)) e t) ∧
          ∀ o, o ∉ [0x70004, 0x70008, 0x7000C, 0x70010, 0x70064] → t.word o = s.word o
      (s.rd F.TIM_STATUS_VALID = 1 → Gives (.tsync lane msg back) s fun t => ∃ v : Int,
        (v - (leAt msg 1 7 : Nat)) % 2 ^ 56 = 0 ∧ -2 ^ 55 ≤ v - (ta + 125) / 250 ∧ v - (ta + 125) / 250 < 2 ^ 55 ∧ used v t) ∧
      (s.rd F.TIM_STATUS_VALID = 0 → s.tim.epochHi = none → exec (.tsync lane msg back) s = .next s) ∧
      (s.rd F.TIM_STATUS_VALID = 0 → ∀ epoch at_, s.tim.epochHi = some (epoch, at_) →
        (s.tim.raw < at_ + 2000000 → exec (.tsync lane msg back) s = .next s) ∧
        (at_ + 2000000 ≤ s.tim.raw → Gives (.tsync lane msg back) s (used (sext 66 (leAt msg 1 7 + 2 ^ 56 * epoch)))))) ∧
    (∀ s : State, s.awake = true →
      (s.rd F.TIM_STATUS_LOCKED = 0 → 64 ≤ s.tim.goodRun → Gives .timLock s fun t => t.rd F.TIM_STATUS_LOCKED = 1 ∧
        Raised Ev.TIM_LOCK t ∧ (s.role = 2 → t.rd F.TIM_STATUS_VALID = 1)) ∧
      (s.rd F.TIM_STATUS_LOCKED = 1 → 16 ≤ s.tim.badRun → Gives .timUnlock s fun t => t.rd F.TIM_STATUS_LOCKED = 0 ∧
        Raised Ev.TIM_UNLOCK t ∧ t.tim.goodRun = 0 ∧ t.rd F.TIM_STATUS_VALID = s.rd F.TIM_STATUS_VALID) ∧
      Gives .tsyncTimeout s fun t => t.rd F.TIM_STATUS_LOCKED = 0 ∧ t.tim = { s.tim with goodRun := 0, badRun := 0 } ∧
        (s.rd F.TIM_STATUS_LOCKED = 1 → Raised Ev.TIM_UNLOCK t) ∧ (s.role = 2 → t.rd F.TIM_STATUS_HOLDOVER = 1) ∧
        WordsKept [0x70004] s t)

/-- The levels after POL of output n took bit 2 of `val`: an output that is not pulsing sits at the idle level (R379). -/
def idleLevels (s : State) (n : Nat) (val : Word) : List Bool :=
  if ((s.tim.tev[n]?).bind Tev.pulse).isSome then s.tim.levels else s.tim.levels.set n (decide (val.toNat / 4 % 2 ≠ 1))

/-- Timed outputs (R375 to R379) and the end of a FSTROBE pulse (R380). -/
def Obligations.TimedOutputsFollowTheirSettings : Prop :=
  (∀ (n : Nat) (val : Word) (s : State), s.bar0Open = true → n < 8 →
      let mode := val.toNat % 4
      let ns := s.rd (F.TIM_TEV_START_NS_NS n)
      let quarter := s.rd (F.TIM_TEV_START_NS_QTR n)
      let off : Int := 4 * sext 30 ns + quarter
      let start : Int := 4 * ((s.rd (F.TIM_TEV_START_SEC_LO_SEC n) + 2 ^ 32 * s.rd (F.TIM_TEV_START_SEC_HI_SEC n) : Nat) * 1000000000 + (ns : Int)) + quarter
      let period := 4 * s.rd (F.TIM_TEV_PERIOD_NS n) + s.rd (F.TIM_TEV_PERIOD_QTR n)
      let width := s.rd (F.TIM_TEV_WIDTH_NS n)
      let ahead : Int := s.dcFine * 4 / 2 ^ 32 + 800
      let ok := 4 ≤ width ∧ (mode = 2 → 4 * (width + 4) ≤ period) ∧
        (mode = 3 → off.natAbs * s.geo.pd < 4 * s.geo.pn ∧ (width + 4) * s.geo.pd ≤ s.geo.pn)
      let disarmed := fun t : State => t.rd (F.TIM_TEV_CTRL_ARM n) = 0 ∧ t.rd (F.TIM_TEV_STATUS_ARMED n) = 0 ∧
        t.tim = { s.tim with tev := s.tim.tev.modify n (fun v => { v with armed := none }), levels := t.tim.levels }
      Gives (.arm n val) s fun t => t.rd (F.TIM_TEV_CTRL_MODE n) = mode ∧ t.rd (F.TIM_TEV_CTRL_POL n) = val.toNat / 4 % 2 ∧
        WordsKept [0x70100 + 32 * n, 0x7011C + 32 * n] s t ∧ t.tim.levels = idleLevels s n val ∧
        (¬ ok → t.rd (F.TIM_TEV_STATUS_ERR n) = 1 ∧ disarmed t) ∧
        (ok → mode = 1 → start < ahead → t.rd (F.TIM_TEV_STATUS_MISSED n) = 1 ∧ Raised Ev.TIM_TEV_MISSED t ∧ disarmed t) ∧
        (ok → (mode = 1 → ahead ≤ start) → t.rd (F.TIM_TEV_CTRL_ARM n) = 1 ∧ t.rd (F.TIM_TEV_STATUS_ARMED n) = 1 ∧
          ∃ next, t.tim = { s.tim with levels := t.tim.levels, tev := s.tim.tev.modify n fun v => { v with
              armed := some ⟨start, off, period, width, s.rd (F.TIM_TEV_COUNT_COUNT n), next, ahead, 0⟩, last := false } } ∧
            (mode = 1 → next = 0) ∧
            (mode = 2 → ahead ≤ start + (next * period : Nat) ∧ (next ≠ 0 → start + ((next - 1) * period : Nat) < ahead)) ∧
            (mode = 3 → s.firstFrame ≤ next ∧ (0 < s.geo.pd → ahead ≤ 4 * s.geo.startOf next + off ∧
              (s.firstFrame < next → 4 * s.geo.startOf (next - 1 : Nat) + off < ahead))))) ∧
    (∀ (n : Nat) (val : Word) (s : State), s.bar0Open = true → n < 8 → Gives (.disarm n val) s fun t =>
      t.rd (F.TIM_TEV_CTRL_MODE n) = val.toNat % 4 ∧ t.rd (F.TIM_TEV_CTRL_POL n) = val.toNat / 4 % 2 ∧
        t.rd (F.TIM_TEV_CTRL_ARM n) = 0 ∧ t.rd (F.TIM_TEV_STATUS_ARMED n) = 0 ∧
        t.tim = { s.tim with tev := s.tim.tev.modify n (fun v => { v with armed := none }), levels := idleLevels s n val } ∧
        t.out = (if t.tim.levels = s.tim.levels then s.out
          else .edge n (decide (val.toNat / 4 % 2 ≠ 1)) (near250 (1000 * s.dcNs)) :: s.out) ∧
        RegsOnly [0x70100 + 32 * n, 0x7011C + 32 * n] ({ s with tim := t.tim, out := t.out } : State) t) ∧
    (∀ (n : Nat) (a : TevArmed) (v : Tev) (s : State), s.awake = true → s.tim.tev[n]? = some v → v.armed = some a →
      let mode := s.rd (F.TIM_TEV_CTRL_MODE n)
      mode ≠ 0 → v.last = false → (mode = 3 → s.timed = true) →
      let q : Int := if mode = 3 then 4 * ((s.geo.t0 : Int) + (a.next : Int) * s.geo.pn / s.geo.pd) + a.frameOff
        else if mode = 2 then a.start + (a.next * a.period : Nat) else a.start
      let ps : Int := (250 * q + (if s.rd F.TIM_CTRL_COMP = 1 then 0 else (s.rd F.TIM_LAT_PS_LAT : Int)) + 125) / 250 * 250
      let pol := decide (s.rd (F.TIM_TEV_CTRL_POL n) = 1)
      exec (.tevEdge n) s = .next { s with
        out := if s.tim.levels.getD n false = pol then s.out else .edge n pol ps :: s.out
        tim := { s.tim with levels := s.tim.levels.set n pol, tev := s.tim.tev.modify n fun _ =>
          { armed := some { a with next := a.next + 1, done := a.done + 1 }, pulse := some (ps + 1000 * (a.width : Int)),
            last := decide (mode = 1 ∨ (a.count ≠ 0 ∧ a.count ≤ a.done + 1)) } } }) ∧
    (∀ (n : Nat) (v : Tev) (e : Int) (s : State), s.tim.tev[n]? = some v → v.pulse = some e →
      let idle := decide (s.rd (F.TIM_TEV_CTRL_POL n) ≠ 1)
      (v.last = false → exec (.tevPulseEnd n) s = .next { s with
        out := if s.tim.levels.getD n false = idle then s.out else .edge n idle e :: s.out
        tim := { s.tim with levels := s.tim.levels.set n idle, tev := s.tim.tev.modify n fun v => { v with pulse := none, last := false } } }) ∧
      (v.last = true → s.awake = true → n < 8 → Gives (.tevPulseEnd n) s fun t => (∃ l, t.out = l ++ if s.tim.levels.getD n false = idle then s.out else .edge n idle e :: s.out) ∧
        t.rd (F.TIM_TEV_STATUS_DONE n) = 1 ∧ t.rd (F.TIM_TEV_CTRL_ARM n) = 0 ∧ t.rd (F.TIM_TEV_STATUS_ARMED n) = 0 ∧
        Raised Ev.TIM_TEV_DONE t ∧ t.tim = { s.tim with levels := s.tim.levels.set n idle, tev := s.tim.tev.modify n fun _ => ⟨none, none, false⟩ } ∧
        WordsKept [0x70100 + 32 * n, 0x7011C + 32 * n] s t)) ∧
    (∀ (e : Int) (s : State), s.tim.fstrobe = some e → let idle := decide (s.rd F.TIM_FSTROBE_POL ≠ 1)
      exec .fstrobePulseEnd s = .next { s with
        out := if s.tim.levels.getD 8 false = idle then s.out else .edge 8 idle e :: s.out
        tim := { s.tim with fstrobe := none, levels := s.tim.levels.set 8 idle } })

/-- The row that runs SET_POWER to a state. -/
def setPowerRow (target ring : Nat) : Instr :=
  match target with
  | 0 => .setPowerS0 ring
  | 1 => .setPowerS1 ring
  | _ => .setPowerS2 ring

/-- The descriptor of that index has its outcome. -/
def EndedAs (t : State) (ring idx status : Nat) : Prop :=
  ∀ r, t.ring? ring = some r → ∀ x ∈ r.descs, x.idx = idx → x.phase = .done ∧ x.status = status

/-- In S2 (Table 16-3): ports DOWN, reference outputs at 0 V, and only the lines of ADMIN and MGMT rings may be held. -/
def InS2 (t : State) : Prop :=
  t.pwr.st = .s2 ∧ t.rd F.PWR_STATUS_STATE = 2 ∧ (∀ p < 16, t.portState p = 0) ∧ t.pnl.prefOn = false ∧ (∀ n < 18, t.pnl.prefV.getD n 0 = 0) ∧
    ∀ r ∈ t.hif.rings, r.cls ≠ Cls.ADMIN → r.cls ≠ Cls.MGMT → r.lineShared = false

/-- Left S0 (R406, R408): synthesis has stopped, no frame is in scan, presents and commits wait, none bound. -/
def ShowsNothing (s t : State) : Prop :=
  t.syn.frame = none ∧ t.scn.cur = none ∧ t.scn.guarded = false ∧ t.scn.decided = false ∧ t.rd F.SCN_STATUS_BLANK = 1 ∧
    t.scn.presents = s.scn.presents.map (fun p => { p with afterGuard := false }) ∧
    t.cmp.pend = s.cmp.pend.map (fun c => { c with bound := false, afterGuard := false }) ∧ t.live = s.live

/-- The reference outputs stand at the voltages of their codes in force (R249, R250), in units of 1 mV / 16384. -/
def PrefDriven (t : State) : Prop :=
  t.pnl.prefOn = true ∧ (t.pnl.prefV.length = 18 → ∀ n < 18, t.pnl.prefV.getD n 0 =
    (if n = 0 then 2000 * 16384 + 12000 * t.lv (F.PNL_PREF_CODE n) else 15000 * t.lv (F.PNL_PREF_CODE n)))

/-- Back in S0 (R409): the next frame is synthesised with every view, the freeze detector starts afresh. -/
def BackInS0 (t : State) : Prop :=
  t.pwr.st = .s0 ∧ t.rd F.PWR_STATUS_STATE = 0 ∧ t.rd F.PWR_STATUS_SHED = 0 ∧ t.syn.full = true ∧ t.scn.frzFirst = true ∧
    t.pwr.holds = 0 ∧ t.pwr.holdLine = none ∧ PrefDriven t

/-- Back in S1 from S2 (Table 16-4, R402): hold refresh goes on with the hold store of the last entry. -/
def BackInS1 (s t : State) : Prop :=
  t.pwr.st = .s1 ∧ t.rd F.PWR_STATUS_STATE = 1 ∧ t.rd F.PWR_STATUS_SHED = 0 ∧ t.pwr.holds = 0 ∧ t.pwr.holdLine = none ∧ t.mem = s.mem ∧
    t.rd F.PWR_STATUS_HOLD_VALID = s.rd F.PWR_STATUS_HOLD_VALID ∧ PrefDriven t

/-- The transitions that SET_POWER makes (Table 16-4, R404 to R406, R409). -/
def Obligations.SetPowerFollowsTheLadder : Prop :=
  ∀ (ring target : Nat) (r : Ring) (d : Desc) (s : State), target ≤ 2 → Passes s ring 0x04 r d [(d.restZero [(8, 1)], Cpl.BAD_FIELD)] →
    byteAt d.bytes 8 = target → s.pwr.trans = none → s.pwr.ownWarn = false → s.pwr.pinWarn = false →
    let valid := s.rd F.TIM_STATUS_VALID = 1
    (s.pwr.st.number = target → exec (setPowerRow target ring) s = .next (s.modDesc ring d.idx (doneAs Cpl.SUCCESS 0))) ∧
    (target = 1 → s.pwr.st ≠ .s1 → ¬ valid ∨ (s.pwr.st = .s2 ∧ s.pwr.s2FromS1 = false) →
      exec (setPowerRow target ring) s = .next (s.modDesc ring d.idx (doneAs Cpl.WRONG_STATE 0))) ∧
    (target = 1 → s.pwr.st = .s0 → valid → Gives (setPowerRow target ring) s fun t =>
      t.pwr = { s.pwr with trans := some ⟨.s1, some d.idx⟩, capturing := true, captureFrame := none } ∧ t.rd F.PWR_STATUS_BUSY = 1 ∧
        t.hif = (s.run ring d.idx).hif ∧ RegsOnly [0x30004] ({ s with pwr := t.pwr, hif := t.hif } : State) t) ∧
    (target = 1 → s.pwr.st = .s2 → s.pwr.s2FromS1 = true → valid → Gives (setPowerRow target ring) s fun t =>
      BackInS1 s t ∧ EndedAs t ring d.idx Cpl.SUCCESS ∧ Raised Ev.PWR_STATE t) ∧
    (target = 2 → s.pwr.st ≠ .s2 → Gives (setPowerRow target ring) s fun t =>
      InS2 t ∧ (t.pwr.s2FromS1 = true ↔ s.pwr.st = .s1) ∧ EndedAs t ring d.idx Cpl.SUCCESS ∧ Raised Ev.PWR_STATE t ∧
        (s.pwr.st = .s0 → ShowsNothing s t) ∧ (s.pwr.st = .s1 → t.mem = s.mem)) ∧
    (target = 0 → s.pwr.st ≠ .s0 → Gives (setPowerRow target ring) s fun t =>
      BackInS0 t ∧ EndedAs t ring d.idx Cpl.SUCCESS ∧ Raised Ev.PWR_STATE t ∧ t.mem = s.mem ∧
        (s.pwr.st = .s1 → ∀ p < 16, t.portState p = if s.portState p = 0 then 0 else 1))

/-- D3hot and D0, the ends of transitions (Table 16-4, R349, R402, R409), and hold refreshes (R407). -/
def Obligations.TransitionsEndAndHoldsRefresh : Prop :=
  (∀ s : State, s.awake = true → s.pwr.d3hot = false → Gives .pmcsrD3hot s fun t => t.pwr.d3hot = true ∧ t.pwr.st = .s2 ∧
        t.pwr.trans = some ⟨.s3, none⟩ ∧ t.rd F.PWR_STATUS_BUSY = 1 ∧ (s.pwr.st ≠ .s2 → InS2 t) ∧ (s.pwr.st = .s0 → ShowsNothing s t)) ∧
    (∀ s : State, s.pwr.d3hot = true → s.pwr.st = .s3 → exec .pmcsrD0 s = .next
        (({ s with pwr := { s.pwr with d3hot := false, trans := some ⟨.s0, none⟩ } } : State).wr F.NVS_STATUS_RECALL_BUSY 1 |>.wr
          F.PWR_STATUS_BUSY 1)) ∧
    (∀ s : State, s.pwr.d3hot = true → s.awake = true → exec .pmcsrD0 s = .next { s with pwr := { s.pwr with d3hot := false } }) ∧
    (∀ s : State, s.pwr.d3hot = false → s.pwr.st = .s3 → exec .pmcsrD3hot s = .next { s with pwr := { s.pwr with d3hot := true } }) ∧
    (∀ s : State, s.pwr.trans = some ⟨.s3, none⟩ → (s.leaveDue .up = true ∨ s.leaveDue .dn = true) → exec .powerTransitionDone s = .next s) ∧
    (∀ s : State, s.pwr.trans = some ⟨.s3, none⟩ → s.leaveDue .up = false → s.leaveDue .dn = false →
      Gives .powerTransitionDone s fun t => t.pwr.st = .s3 ∧ t.pwr.trans = (if s.pwr.d3hot = true then none else some ⟨.s0, none⟩) ∧
        t.rd F.PWR_STATUS_BUSY = (if s.pwr.d3hot = true then 0 else 1) ∧ Raised Ev.PWR_STATE t ∧ t.rd F.TIM_STATUS_VALID = 0 ∧ t.rd F.TIM_STATUS_LOCKED = 0 ∧
        t.tim.raw = 0 ∧ t.tim.tsq = [] ∧ (∀ v ∈ t.tim.tev, v.armed = none ∧ v.pulse = none) ∧ t.scn.started = false ∧
        t.rd F.ROPE_STATUS_LEFT = 1 ∧ t.ropeAddr = 0 ∧ t.rope.heldDown = true ∧ t.pitchState .up = 0 ∧ t.pitchState .dn = 0 ∧
        (∀ l ∈ t.lanes, l.saved = none ∧ l.savedQ = none) ∧ (∀ r ∈ t.hif.rings, r.lineShared = false) ∧ t.live = s.live ∧
        ∀ p l, s.pitchUp p = true → s.pitchVer p = 2 → s.carryLane p false = some l → s.txLive (p.lane0 + l) = true →
          .rope p l (leBytes 0x54 1 ++ leBytes 0 7) ∈ t.out) ∧
    (∀ s : State, s.pwr.trans = some ⟨.s0, none⟩ →
      (s.pwr.st = .s3 → s.pwr.d3hot = false ∧ s.pwr.ownWarn = false ∧ s.pwr.pinWarn = false) → Gives .powerTransitionDone s fun t => BackInS0 t ∧ t.pwr.trans = none ∧
        t.rd F.PWR_STATUS_BUSY = 0 ∧ Raised Ev.PWR_STATE t ∧ t.live = s.live ∧
        (s.pwr.st ≠ .s3 → t.mem = s.mem) ∧
        (s.pwr.st = .s3 → (∀ a, t.mem.peekByte a = ⟨0, false⟩) ∧ t.mem.clearing = true ∧ t.rd F.PWR_STATUS_HOLD_VALID = 0 ∧
          t.dec.pics = [] ∧ t.rd F.ROPE_STATUS_LEFT = 0 ∧ t.rope.heldDown = false)) ∧
    (∀ s : State, s.pwr.trans = some ⟨.s1, none⟩ → Gives .powerTransitionDone s fun t => BackInS1 s t ∧ t.pwr.trans = none ∧
        t.rd F.PWR_STATUS_BUSY = 0 ∧ Raised Ev.PWR_STATE t ∧ t.mem = s.mem) ∧
    (∀ s : State, s.hasEvents = true → s.pwr.trans = some ⟨.s2, none⟩ → Gives .powerTransitionDone s
        (After Ev.PWR_STATE (({ s with pwr := { s.pwr with trans := none } } : State).wr F.PWR_STATUS_BUSY 0))) ∧
    (∀ (j : Nat) (s : State), s.pwr.st = .s1 → s.rd F.TIM_STATUS_VALID = 1 →
      (∃ p < 16, s.portState p = 2 ∨ (s.portState p = 1 ∧ (s.port p).ready = true)) →
      (s.geo.t0 + j * 1000000000 / 24 : Nat) ≤ s.dcNs → s.dcNs < (s.geo.t0 + (j + 1) * 1000000000 / 24 : Nat) →
      Gives .holdRefresh s fun t => t.pwr = { s.pwr with holds := s.pwr.holds + 1, holdLine := some 1 } ∧ t.live = s.live ∧
        (∀ p ∈ s.portsUsed, s.portState p = 2 → ∀ i < 6, s.txLive (6 * p + i) = true → ∃ fl f, fl % 8 / 4 = 1 ∧
          .panelBlock (6 * p + i) (leBytes 0x4C 1 ++ leBytes fl 1 ++ leBytes 0 2 ++ leBytes (p + 16 * i) 1 ++ f) ∈ t.out) ∧
        (s.rd F.TIM_FSTROBE_EN = 1 → s.rd F.TIM_CTRL_COMP = 1 → s.tim.levels.getD 8 false ≠ decide (s.rd F.TIM_FSTROBE_POL = 1) →
          .edge 8 (decide (s.rd F.TIM_FSTROBE_POL = 1)) (near250 (1000 * (s.geo.t0 + (j * 1000000000 / 24 : Nat)))) ∈ t.out)) ∧
    (∀ (i : Nat) (s : State), s.pwr.st = .s1 → s.pwr.holdLine = some i → Gives .lineStart s fun t =>
      t.pwr = { s.pwr with holdLine := if i + 1 < s.geo.rows + 100 then some (i + 1) else none } ∧ t.live = s.live ∧ t.scn = s.scn)

/-- A warning of that cause began: the load is shed (R400, R401, Table 16-2). -/
def Shed (s : State) (cause : Nat) (t : State) : Prop :=
  t.rd (F.PWR_CNT_COUNT 0) = min (s.rd (F.PWR_CNT_COUNT 0) + 1) (2 ^ 32 - 1) ∧ t.rd F.PWR_STATUS_SHED = 1 ∧
    t.rd F.PWR_STATUS_SHED_CAUSE = cause ∧ t.rd F.PWR_STATUS_PFAIL_PIN = 0 ∧ Raised Ev.PWR_PFAIL_WARN t ∧ t.pwr.warnFrom = s.pwr.st ∧
    t.nvs.cairnSeq = (s.nvs.cairnSeq + 1) % 2 ^ 32 ∧ t.live = s.live ∧
    (Stores.wf s.nvs = true → t.logByte (0x8000 + 32 * (s.nvs.cairnSeq % 512) + 4) = 3) ∧
    (s.pwr.st = .s3 → t.pwr.st = .s3) ∧
    (s.awake = true → InS2 t ∨ s.pwr.st = .s2) ∧ (s.awake = true → t.pwr.st = .s2) ∧
    (s.pwr.st = .s0 ∨ s.pwr.st = .s1 ∨ (s.pwr.st = .s2 ∧ (s.pwr.trans = some ⟨.s0, none⟩ ∨ s.pwr.trans = some ⟨.s1, none⟩)) → t.pwr.trans = some ⟨.s2, none⟩ ∧ t.rd F.PWR_STATUS_BUSY = 1) ∧
    (∀ target idx, s.awake = true → s.pwr.trans = some ⟨target, some idx⟩ → (∀ r ∈ s.hif.rings, r.num = 0 → r.cls = Cls.ADMIN) →
      EndedAs t 0 idx Cpl.ABORTED)

/-- The power-fail warning (R400 to R402), the input range (R397) and rail faults (R398). -/
def Obligations.WarningsShedLoadAndClear : Prop :=
  (∀ s : State, s.hasEvents = true → s.pwr.ownWarn = false → s.pwr.pinWarn = false →
      (Gives .pfailWarn s fun t => Shed s 1 t ∧ t.pwr.ownWarn = true) ∧
      (s.rd F.PWR_CTRL_PFAIL_IN_EN = 1 → Gives .pfailNLow s fun t => Shed s 2 t ∧ t.pwr.pinWarn = true)) ∧
    (∀ s : State, s.hasEvents = true →
      (s.pwr.ownWarn = false → s.pwr.pinWarn = true → exec .pfailWarn s =
        .next (({ s with pwr := { s.pwr with ownWarn := true } } : State).wr F.PWR_STATUS_PFAIL_PIN 0)) ∧
      (s.pwr.ownWarn = true → s.pwr.pinWarn = false → s.rd F.PWR_CTRL_PFAIL_IN_EN = 1 → exec .pfailNLow s =
        .next (({ s with pwr := { s.pwr with pinWarn := true } } : State).wr F.PWR_STATUS_PFAIL_PIN 0)) ∧
      (s.rd F.PWR_CTRL_PFAIL_IN_EN = 0 → exec .pfailNLow s = .next (s.wr F.PWR_STATUS_PFAIL_PIN 0)) ∧
      (s.pwr.ownWarn = false → s.pwr.pinWarn = false → exec .pfailClear s = .next (s.wr F.PWR_STATUS_PFAIL_PIN 1)) ∧
      ((s.pwr.ownWarn = true ∨ s.pwr.pinWarn = true) → Gives .pfailClear s fun t => Raised Ev.PWR_PFAIL_CLEAR t ∧
        t.pwr.ownWarn = false ∧ t.pwr.pinWarn = false ∧ t.pwr.st = s.pwr.st ∧ t.rd F.PWR_STATUS_PFAIL_PIN = 1 ∧
        WordsKept [0x30004] s t ∧
        (s.pwr.trans = some ⟨.s2, none⟩ → Raised Ev.PWR_STATE t) ∧
        (let left := if s.pwr.trans = some ⟨.s2, none⟩ then none else s.pwr.trans
         let may := s.pwr.st = .s2 ∧ left = none ∧ (s.pwr.warnFrom = .s1 → s.rd F.TIM_STATUS_VALID = 1 ∧ s.pwr.s2FromS1 = true)
         (s.pwr.warnFrom = .s0 ∨ s.pwr.warnFrom = .s1 → t.rd F.PWR_STATUS_SHED = s.rd F.PWR_STATUS_SHED ∧
           (s.rd F.PWR_CTRL_AUTO_RESUME = 1 → may → t.pwr.trans = some ⟨s.pwr.warnFrom, none⟩ ∧ t.rd F.PWR_STATUS_BUSY = 1) ∧
           (s.rd F.PWR_CTRL_AUTO_RESUME = 0 ∨ ¬ may → t.pwr.trans = left)) ∧
         (s.pwr.warnFrom ≠ .s0 → s.pwr.warnFrom ≠ .s1 → t.rd F.PWR_STATUS_SHED = 0 ∧ t.pwr.trans = left))) ∧
      (∀ high, high = true ∨ (s.pwr.ownWarn = false ∧ s.pwr.pinWarn = false) →
        Gives (.pwrInputRange high) s (After Ev.PWR_INPUT_RANGE s)) ∧
      Gives .pwrRailFault s (After Ev.PWR_RAIL_FAULT
        (({ s with pwr := { s.pwr with railBad := true } } : State).bump (F.PWR_CNT_COUNT 1))))

/-- Power is off but for what `st` keeps: every register and store is as at reset, but flash and logbook (Tables 16-1 and 16-3). What left
the device by then has left it. -/
def PoweredDown (st : PwrState) (s t : State) : Prop :=
  t.pwr.st = st ∧ t.pwr.perst = s.pwr.perst ∧ t.nvs.flash = s.nvs.flash ∧ t.nvs.log = s.nvs.log ∧ t.nvs.badGroups = s.nvs.badGroups ∧
    t.nvs.cairnSeq = s.nvs.cairnSeq ∧ (∃ l, t.out = l ++ s.out) ∧
    t = { State.reset with
      pending := s.pending, out := t.out, freeCtr := s.freeCtr, airCooled := s.airCooled, nvs := t.nvs, pwr := t.pwr }

/-- A boot from the cause of that bit of GLB_RESET_CAUSE (R398, R451, R456, R462). -/
def Booted (cause : Nat) (b : BootIn) (s t : State) : Prop :=
  t.pending = s.pending ∧ t.nvs.flash = s.nvs.flash ∧ (b.rails = false → t.pwr.st = .off ∧ t.pwr.railFails = s.pwr.railFails + 1 ∧ t.regs = []) ∧
    (b.rails = true → (t.word 0x10).toNat = 2 ^ cause ∧ t.pwr.st = .s0 ∧
      (t.rd F.HIF_STATUS_READY = 1 ↔ (b.logbook = true ∧ b.hbmFail % 16 = 0)) ∧
      (b.logbook = false ∨ b.hbmFail % 16 ≠ 0 → t.rd F.GLB_BOOT_STATUS_FAIL_STEP = (if b.logbook = true then 6 else 5) ∧
        t.rd F.GLB_BOOT_STATUS_STACK_FAIL = b.hbmFail % 16))

/-- A boot out of S4 (R404): PWR_STATE is raised once READY. -/
def LeftS4 (b : BootIn) (s t : State) : Prop :=
  Booted 1 b s t ∧ (b.rails = true → b.logbook = true → b.hbmFail % 16 = 0 → Raised Ev.PWR_STATE t)

/-- Losses of power (R398, R399, R404) and the causes of a boot (R451, R462). -/
def Obligations.PowerComesAndGoes : Prop :=
  (∀ s : State, Gives .uvloFall s (PoweredDown .off s)) ∧
    (∀ s : State, Gives .overvoltage s fun t => t.pwr.overVolt = true ∧
        t.pwr.st = (if s.pwr.st = .thermal then .thermal else .off) ∧
        (s.pwr.st ≠ .off → t.regs = [] ∧ t.thm.cool = false ∧ t.nvs.flash = s.nvs.flash ∧
          t.nvs.cairnSeq = (s.nvs.cairnSeq + 1) % 2 ^ 32 ∧
          (Stores.wf s.nvs = true → t.logByte (0x8000 + 32 * (s.nvs.cairnSeq % 512) + 4) = 4)) ∧
        (s.pwr.st = .off → t = { s with pwr := { s.pwr with overVolt := true } })) ∧
    (∀ s : State, s.hasEvents = true → s.pwr.railBad = true → Gives .railFaultTimeout s fun t => t.pwr.railBad = true ∧
        PoweredDown .off s { t with pwr := { t.pwr with railBad := false } }) ∧
    (∀ s : State, Gives .perstNAssert s fun t => t.pwr.perst = true ∧
        (s.hasEvents = true → PoweredDown .s4 { s with pwr := { s.pwr with perst := true } } t) ∧
        (s.hasEvents = false → t = { s with pwr := { s.pwr with perst := true } })) ∧
    (∀ (b : BootIn) (s : State),
      (s.pwr.st = .off → s.pwr.railFails = 0 → s.pwr.railBad = false → s.pwr.overVolt = false →
        Gives (.uvloRise b) s (Booted 0 b s)) ∧
      (s.pwr.st = .off → s.pwr.overVolt = true → s.pwr.railFails < 3 → Gives (.overvoltageRecovery b) s (Booted 0 b s)) ∧
      (s.pwr.st ≠ .off ∨ 3 ≤ s.pwr.railFails → s.pwr.overVolt = true →
        exec (.overvoltageRecovery b) s = .next { s with pwr := { s.pwr with overVolt := false } }) ∧
      (s.pwr.overVolt = false → exec (.overvoltageRecovery b) s = .next s) ∧
      (s.pwr.st = .off → s.pwr.overVolt = false → (0 < s.pwr.railFails ∧ s.pwr.railFails < 3) ∨ s.pwr.railBad = true →
        Gives (.railRetry b) s (Booted 3 b s)) ∧
      (s.pwr.st = .s4 → Gives (.perstNDeassert b) s (LeftS4 b s) ∧ (s.pwr.perst = false → ∀ f, Gives (.wakeN f b) s (LeftS4 b s))) ∧
      (s.pwr.st = .thermal → s.pwr.perst = false → s.pwr.overVolt = false → s.thm.cool = true → Gives (.wakeN true b) s (Booted 2 b s)) ∧
      (s.pwr.st ≠ .s4 → exec (.perstNDeassert b) s = .next { s with pwr := { s.pwr with perst := false } }) ∧
      (s.pwr.st ≠ .off → exec (.uvloRise b) s = .next s ∧ exec (.railRetry b) s = .next s) ∧
      (3 ≤ s.pwr.railFails → s.pwr.railBad = false → exec (.uvloRise b) s = .next s ∧ exec (.railRetry b) s = .next s) ∧
      (∀ f, s.pwr.perst = true ∨ (s.pwr.st ≠ .s4 ∧ s.pwr.st ≠ .thermal) → exec (.wakeN f b) s = .next s) ∧
      (∀ f, s.pwr.st = .thermal → f = false ∨ s.thm.cool = false ∨ s.pwr.overVolt = true → exec (.wakeN f b) s = .next s))

/-- T_j is the greatest filtered value of the sensors in use, the lowest of them in HOT on a tie, or CRIT with none; and the critical
condition stands at T_j with its limits (R416, R418). -/
def JunctionFollows (s t : State) : Prop :=
  let crit : Int := s.rd F.THM_CTRL_CRIT
  ((∀ n < 48, (t.sensor n).inUse = false) → t.rd F.THM_STATUS_TJ = 16 * s.rd F.THM_CTRL_CRIT) ∧
    ((∃ n < 48, (t.sensor n).inUse = true) → ∃ n < 48, (t.sensor n).inUse = true ∧ t.rd F.THM_STATUS_HOT = n ∧
      t.rd F.THM_STATUS_TJ = twos 16 ((t.sensor n).f.getD 0) ∧
      ∀ m < 48, (t.sensor m).inUse = true → (t.sensor m).f.getD 0 ≤ (t.sensor n).f.getD 0 ∧
        (m < n → (t.sensor m).f.getD 0 < (t.sensor n).f.getD 0)) ∧
    (s.rd F.THM_STATUS_CRITICAL = 0 → 16 * crit ≤ t.tj → t.rd F.THM_STATUS_CRITICAL = 1 ∧ Raised Ev.THM_CRITICAL t ∧
      t.rd (F.THM_CNT_COUNT 0) = min (s.rd (F.THM_CNT_COUNT 0) + 1) (2 ^ 32 - 1)) ∧
    (s.rd F.THM_STATUS_CRITICAL = 1 → t.tj < 16 * (crit - 5) → t.rd F.THM_STATUS_CRITICAL = 0 ∧ Raised Ev.THM_CRITICAL_CLEAR t) ∧
    ((s.rd F.THM_STATUS_CRITICAL = 0 ∧ t.tj < 16 * crit) ∨ (s.rd F.THM_STATUS_CRITICAL = 1 ∧ 16 * (crit - 5) ≤ t.tj) →
      t.rd F.THM_STATUS_CRITICAL = s.rd F.THM_STATUS_CRITICAL ∧ t.rd (F.THM_CNT_COUNT 0) = s.rd (F.THM_CNT_COUNT 0))

/-- The millisecond reading of the thermal unit (R410 to R412, R416 to R418, R425). -/
def Obligations.SensorsAreReadAndFiltered : Prop :=
  ∀ (readings : List (Option Int)) (vin pin : Nat) (s : State), s.awake = true →
    (∀ n < 48, ∀ a : Int, readings[n]? = some (some a) → s.correctAdc n a < 16 * (s.rd F.THM_CTRL_SHUT : Int)) →
    Gives (.sensorRead readings vin pin) s fun t =>
      t.rd F.PWR_VIN_VIN = vin % 2 ^ 16 ∧ t.rd F.PWR_VIN_PIN = pin % 2 ^ 16 ∧ t.pwr = s.pwr ∧ t.live = s.live ∧
      (∀ (n : Nat) (x : Sensor), n < 48 → s.thm.sensors[n]? = some x → ∃ y : Sensor, t.thm.sensors[n]? = some y ∧
        y.suspect = x.suspect ∧ t.rd (F.THM_SENS_FILT n) = twos 16 (y.f.getD 0) ∧
        (∀ a : Int, readings[n]? = some (some a) →
          let r := (a * (s.rd (F.CAL_ACT_ADC_GAIN (sensorAdc n)) : Int) + 16384) / 32768 + sext 16 (s.rd (F.CAL_ACT_ADC_OFFSET (sensorAdc n)))
          t.rd (F.THM_SENS_RAW n) = twos 16 r ∧ (x.failed = false → y.failed = false ∧ y.missed = 0 ∧
            y.f = some (match x.f with | none => r | some f => f + (r - f) / 4))) ∧
        (readings.getD n none = none → x.failed = false → y.f = x.f ∧ (y.failed = true ↔ x.missed = 2) ∧
          (x.missed = 2 → Raised Ev.THM_SENSOR_FAIL t) ∧ (x.missed ≠ 2 → y.missed = x.missed + 1)) ∧
        (y.inUse = true → y.dev = if 128 * (t.nearby n).1 < t.offMean n then x.dev + 1 else 0)) ∧
      JunctionFollows s t ∧
      t.rd (F.THM_CNT_COUNT 2) = (if s.rd F.THM_STATUS_E = 0 then s.rd (F.THM_CNT_COUNT 2)
        else min (s.rd (F.THM_CNT_COUNT 2) + 1) (2 ^ 32 - 1))

/-- The bits of THM_SUSPECT and THM_FAIL of a sensor. -/
def suspectBit (n : Nat) : Fld := ⟨0x40008 + 4 * (n / 32), n % 32, 1⟩
def failBit (n : Nat) : Fld := ⟨0x40010 + 4 * (n / 32), n % 32, 1⟩

/-- Thermal shutdown of that cause: rails off, flash kept, one cairn record more (R420, R421). -/
def ShutDown (s : State) (cause : Nat) (t : State) : Prop :=
  t.pwr.st = .thermal ∧ t.thermLow = true ∧ t.regs = [] ∧ t.live = [] ∧ t.mem = MemSt.reset ∧ t.hif = HifSt.reset ∧ t.nvs.flash = s.nvs.flash ∧
    t.thm.cool = false ∧ t.nvs.cairnSeq = (s.nvs.cairnSeq + 1) % 2 ^ 32 ∧
    (Stores.wf s.nvs = true → t.logByte (0x8000 + 32 * (s.nvs.cairnSeq % 512) + 4) = BitVec.ofNat 8 cause)

/-- Exclusion and readmission of sensors (R411 to R415) and thermal shutdown (R419 to R422). -/
def Obligations.SensorsAreExcludedAndShutDown : Prop :=
  (∀ s : State, s.awake = true →
      let due := fun m => m < 48 ∧ (s.sensor m).inUse = true ∧ 1000 ≤ (s.sensor m).dev
      let beats := fun n m => s.offMean m * (s.nearby n).1 < s.offMean n * (s.nearby m).1
      ((∀ m, ¬ due m) → exec .thmSuspect s = .next s) ∧
      (∀ n x, due n → s.thm.sensors[n]? = some x → s.thm.marked = false → s.groupTight n = false →
        (∀ m, due m → m ≠ n → s.groupTight m = false ∧ (beats n m ∨ (n < m ∧ ¬ beats m n))) → Gives .thmSuspect s fun t =>
          t.thm.sensors[n]? = some { x with suspect := true, dev := 0, near := 0, hot := 0, told := false } ∧ JunctionFollows s t ∧
          (∀ m, m ≠ n → t.thm.sensors[m]? = s.thm.sensors[m]?) ∧ t.rd (suspectBit n) = 1 ∧ Raised Ev.THM_SUSPECT t ∧
          t.rd (F.THM_CNT_COUNT 1) = min (s.rd (F.THM_CNT_COUNT 1) + 1) (2 ^ 32 - 1)) ∧
      (∀ n x, due n → (∀ m, due m → m = n) → s.thm.sensors[n]? = some x → s.groupTight n = true →
        (x.told = true → exec .thmSuspect s = .next s) ∧
        (x.told = false → Gives .thmSuspect s fun t => t.rd F.THM_STATUS_XCHK_LIMIT = 1 ∧ Raised Ev.THM_SUSPECT t ∧
          t.thm = { s.thm with sensors := s.thm.sensors.modify n fun x => { x with told := true } } ∧ WordsKept [0x40004] s t))) ∧
    (∀ (n : Nat) (x : Sensor) (s : State), s.awake = true → n < 48 → s.thm.sensors[n]? = some x →
      (x.failed = true → 1000 ≤ x.good → Gives (.sensorReadmit n) s fun t => t.rd (failBit n) = 0 ∧ JunctionFollows s t ∧ t.thm = { s.thm with
        sensors := s.thm.sensors.modify n fun x => { x with failed := false, missed := 0, good := 0, dev := 0, near := 0 } }) ∧
      (x.suspect = true → x.failed = false → 10000 ≤ x.near → Gives (.thmSuspectClear n) s fun t => t.rd (suspectBit n) = 0 ∧
        Raised Ev.THM_SUSPECT_CLEAR t ∧ JunctionFollows s t ∧ t.thm = { s.thm with
          sensors := s.thm.sensors.modify n fun x => { x with suspect := false, dev := 0, near := 0 } })) ∧
    (∀ (readings : List (Option Int)) (vin pin n : Nat) (x : Sensor) (a : Int) (s : State), s.awake = true → n < 48 →
      s.thm.sensors[n]? = some x → x.inUse = true → 1 ≤ x.hot → readings[n]? = some (some a) →
      16 * (s.rd F.THM_CTRL_SHUT : Int) ≤ s.correctAdc n a →
      Gives (.sensorRead readings vin pin) s fun t => ShutDown s 1 t ∧
        ((∀ m < n, (s.sensor m).hot = 0) → Stores.wf s.nvs = true →
          t.logByte (0x8000 + 32 * (s.nvs.cairnSeq % 512) + 5) = BitVec.ofNat 8 n)) ∧
    (∀ (die : Nat) (s : State), s.hasEvents = true → die < 3 → Gives (.hardwareTrip die) s fun t => ShutDown s 2 t ∧
      (Stores.wf s.nvs = true → t.logByte (0x8000 + 32 * (s.nvs.cairnSeq % 512) + 5) = BitVec.ofNat 8 die)) ∧
    (∀ (reading : Int) (s : State), s.pwr.st = .thermal → exec (.shutdownPoll reading) s =
      .next (if reading < 16 * 85 ∧ s.pwr.overVolt = false then { s with thm := { s.thm with cool := true } } else s))

/-- A calibration run started: it keeps the group means (R423). -/
def RunStarted (s t : State) : Prop :=
  t.rd F.CAL_STATUS_BUSY = 1 ∧ t.rd F.CAL_STATUS_REQ_HELD = 0 ∧
    t.rd F.CAL_CNT_RUNS_COUNT = min (s.rd F.CAL_CNT_RUNS_COUNT + 1) (2 ^ 32 - 1) ∧
    t.cal = { s.cal with
      byHost := false, means := (List.range 4).map fun g => sext 16 (s.rd ⟨0x40018 + 4 * (g / 2), 16 * (g % 2), 16⟩) } ∧
    RegsOnly [0x50004, 0x50020] ({ s with cal := t.cal } : State) t

/-- A trigger of a run: the run starts, or the request is held (R423). -/
def RunAsked (s : State) (host : Bool) (t : State) : Prop :=
  (s.rd F.CAL_STATUS_BUSY = 0 → s.rd F.CAL_STATUS_APPLY_PENDING = 0 → RunStarted s t) ∧
    (s.rd F.CAL_STATUS_BUSY = 1 ∨ s.rd F.CAL_STATUS_APPLY_PENDING = 1 →
      t = ({ s with cal := { s.cal with byHost := s.cal.byHost || host } } : State).wr F.CAL_STATUS_REQ_HELD 1)

/-- A set of 22 results within Table 17-3. -/
def WithinLimits (ws : List Word) : Prop :=
  ∀ i w, ws[i]? = some w →
    (i < 21 → 32112 ≤ w.toNat % 2 ^ 16 ∧ w.toNat % 2 ^ 16 ≤ 33424 ∧
      (sext 16 (w.toNat / 2 ^ 16)).natAbs ≤ if i < 18 then 64 else 160) ∧
    (i = 21 → 4500 ≤ w.toNat ∧ w.toNat ≤ 5500)

/-- A staged set waits for its application, or is in force at once while rope time is not valid: results, latency, source and
corrected reference codes (R425, R426). -/
def SetWaits (s : State) (source : Nat) (ws : List Word) (t : State) : Prop :=
  (s.rd F.SCN_STATUS_TIME_OK = 1 → t.rd F.CAL_STATUS_APPLY_PENDING = 1 ∧ t.cal.source = source ∧ t.pnl = s.pnl ∧
      t.rd F.TIM_LAT_PS_LAT = s.rd F.TIM_LAT_PS_LAT ∧ ∀ i < 22, t.word (0x50200 + 4 * i) = s.word (0x50200 + 4 * i)) ∧
    (s.rd F.SCN_STATUS_TIME_OK = 0 → t.rd F.CAL_STATUS_APPLY_PENDING = 0 ∧ t.rd F.CAL_STATUS_SOURCE = source ∧
      Raised Ev.CAL_APPLIED t ∧ (∀ i w, ws[i]? = some w → t.word (0x50200 + 4 * i) = w) ∧
      (∀ w, ws[21]? = some w → t.rd F.TIM_LAT_PS_LAT = w.toNat % 2 ^ 16) ∧
      ∀ n < 18, ∀ w, ws[n]? = some w → t.pnl.pref[n]? = some (clampN 16383
        (((s.lv (F.PNL_PREF_CODE n) * (w.toNat % 2 ^ 16) + 16384) / 2 ^ 15 : Nat) + sext 16 (w.toNat / 2 ^ 16))))

/-- Calibration (R423 to R427). -/
def Obligations.CalibrationRunsStageAndApply : Prop :=
  (∀ s : State, s.awake = true →
      let base := fun g : Nat => sext 16 (s.rd ⟨0x5000C + 4 * (g / 2), 16 * (g % 2), 16⟩)
      let moved := ∃ g < 4, 0 < (s.groupSum g).1 ∧
        16 * max 1 (s.rd F.CAL_TDELTA_TDELTA) * (s.groupSum g).1 < ((s.groupSum g).2 - (s.groupSum g).1 * base g).natAbs
      (s.rd F.CAL_CTRL_AUTO = 1 → s.cal.holdoff = false → moved → Gives .calTempCheck s (RunAsked s false)) ∧
      (s.rd F.CAL_CTRL_AUTO = 0 ∨ s.cal.holdoff = true ∨ ¬ moved → exec .calTempCheck s = .next s) ∧
      (s.bar0Open = true → Gives .calRun s (RunAsked s true)) ∧
      (s.rd F.CAL_STATUS_REQ_HELD = 1 → s.rd F.CAL_STATUS_BUSY = 0 → s.rd F.CAL_STATUS_APPLY_PENDING = 0 →
        (s.cal.byHost = true ∨ s.cal.holdoff = false → Gives .calRunStart s (RunStarted s)) ∧
        (s.cal.byHost = false → s.cal.holdoff = true → exec .calRunStart s = .next s)) ∧
      exec .calMoveHoldoff s = .next { s with cal := { s.cal with holdoff := false } }) ∧
    (∀ (refOk : Bool) (pref adc : List Word) (lat : Nat) (s : State), s.awake = true → s.rd F.CAL_STATUS_BUSY = 1 → pref.length = 18 →
      adc.length = 3 →
      let tref := s.rd F.TIM_STATUS_TREF_OK = 1
      let ws := pref ++ adc ++ [if tref then BitVec.ofNat 32 lat else s.word 0x50254]
      Gives (.calRunDone refOk pref adc lat) s fun t => t.rd F.CAL_STATUS_BUSY = 0 ∧
        (¬ (refOk = true ∧ tref) → Raised Ev.CAL_REF_BAD t) ∧
        (t.rd F.CAL_STATUS_LAT_STALE = if tref then 0 else 1) ∧
        (refOk = false ∨ ¬ WithinLimits ws → t.rd F.CAL_STATUS_LAST = 2 ∧ Raised Ev.CAL_FAIL t ∧ t.cal.holdoff = true ∧
          t.rd F.CAL_CNT_FAIL_COUNT = min (s.rd F.CAL_CNT_FAIL_COUNT + 1) (2 ^ 32 - 1) ∧ WordsKept [0x50004, 0x50024] s t) ∧
        (refOk = true → WithinLimits ws → t.rd F.CAL_STATUS_LAST = 1 ∧ Raised Ev.CAL_DONE t ∧ SetWaits s 1 ws t ∧
          (∀ i w, ws[i]? = some w → t.word (0x50100 + 4 * i) = w) ∧
          ∀ g < 4, t.rd ⟨0x5000C + 4 * (g / 2), 16 * (g % 2), 16⟩ = twos 16 (s.cal.means.getD g 0))) ∧
    (∀ s : State, s.bar0Open = true →
      let ws := (List.range 22).map fun i => s.word (0x50100 + 4 * i)
      (s.rd F.CAL_STATUS_BUSY = 0 → WithinLimits ws → Gives .stage s (SetWaits s 2 ws)) ∧
      (s.rd F.CAL_STATUS_BUSY = 1 ∨ ¬ WithinLimits ws → exec .stage s = .next (s.wr F.CAL_STATUS_WR_IGNORED 1)))

/-- The logbook (R436, R443 to R448, R450); where a LOG_WRITE stands when other commands come is an operand (log entry 1801). -/
def Obligations.LogbookIsReadAndWritten : Prop :=
  (∀ (ring : Nat) (errs : List LogErr) (r : Ring) (d : Desc) (s : State),
      let buf := leAt d.bytes 8 8
      let off := leAt d.bytes 16 4
      let len := leAt d.bytes 20 4
      Passes s ring 0x61 r d [(d.restZero [(8, 16)] && decide (buf < 2 ^ 63) && decide (off + len ≤ 0x40000), Cpl.BAD_FIELD)] →
      Stores.wf s.nvs = true →
      (s.rd F.NVS_STATUS_RECALL_BUSY = 1 → exec (.logRead ring errs) s = .next (s.modDesc ring d.idx (doneAs Cpl.NVS_BUSY 0))) ∧
      (s.rd F.NVS_STATUS_RECALL_BUSY = 0 → errs = [] → (∀ i < len, (off + i) / 8 ∉ s.nvs.badGroups) → Gives (.logRead ring errs) s fun t =>
        t.hif.rings = (s.modDesc ring d.idx (doneAs Cpl.SUCCESS len)).hif.rings ∧ t.nvs = s.nvs ∧
          ∃ bs : List Byte, t.out = .hostWrite buf bs false :: s.out ∧ bs.length = len ∧
            ∀ i < len, bs.getD i 0 = s.logByte (off + i)) ∧
      (s.rd F.NVS_STATUS_RECALL_BUSY = 0 → errs = [] → (∃ i < len, (off + i) / 8 ∈ s.nvs.badGroups) →
        s.rd (F.EVT_ROUTE_ALERT Ev.NVS_LOG_UNCORR) = 0 → Gives (.logRead ring errs) s fun t =>
          t.hif.rings = (s.modDesc ring d.idx fun d => { doneAs Cpl.MEDIA_ERROR len d with evs := s.heldNow [Ev.NVS_LOG_UNCORR] }).hif.rings ∧
          Raised Ev.NVS_LOG_UNCORR t ∧
          (s.rd (F.NVS_CNT_COUNT 1) < t.rd (F.NVS_CNT_COUNT 1) ∨ t.rd (F.NVS_CNT_COUNT 1) = 2 ^ 32 - 1) ∧
          ∃ bs : List Byte, .hostWrite buf bs false ∈ t.out ∧ bs.length = len ∧
            ∀ i < len, bs.getD i 0 = if (off + i) / 8 ∈ s.nvs.badGroups then 0 else s.logByte (off + i)) ∧
      (∀ g, s.rd F.NVS_STATUS_RECALL_BUSY = 0 → errs = [⟨g, false⟩] → (∃ i < len, (off + i) / 8 = g) → s.nvs.badGroups = [] →
        Gives (.logRead ring errs) s fun t => Raised Ev.NVS_LOG_CORR t ∧
          t.hif.rings = (s.modDesc ring d.idx (doneAs Cpl.SUCCESS len)).hif.rings ∧
          t.rd (F.NVS_CNT_COUNT 0) = min (s.rd (F.NVS_CNT_COUNT 0) + 1) (2 ^ 32 - 1))) ∧
    (∀ (ring : Nat) (data : List Byte) (r : Ring) (d : Desc) (s : State),
      let buf := leAt d.bytes 8 8
      let off := leAt d.bytes 16 4
      let len := leAt d.bytes 20 4
      let touched := fun g => off / 8 ≤ g ∧ 8 * g < off + len ∧ 0 < len
      Passes s ring 0x62 r d [(d.restZero [(8, 16)] && decide (buf < 2 ^ 63) && decide (0xC000 ≤ off) && decide (off + len ≤ 0x40000),
        Cpl.BAD_FIELD)] → Stores.wf s.nvs = true → data.length = len → s.rd (F.EVT_ROUTE_ALERT Ev.NVS_LOG_UNCORR) = 0 → s.nvs.logOp = none →
      (s.rd F.NVS_STATUS_RECALL_BUSY = 1 → exec (.logWrite ring data ⟨[], none⟩) s = .next (s.modDesc ring d.idx (doneAs Cpl.NVS_BUSY 0))) ∧
      (s.rd F.NVS_STATUS_RECALL_BUSY = 0 → Gives (.logWrite ring data ⟨[], none⟩) s fun t =>
        (∃ evs, t.hif.rings = (s.modDesc ring d.idx fun d => { doneAs Cpl.SUCCESS len d with evs := evs }).hif.rings ∧
          ((∃ g ∈ s.nvs.badGroups, touched g ∧ (8 * g < off ∨ off + len < 8 * g + 8)) → evs = s.heldNow [Ev.NVS_LOG_UNCORR]) ∧
          ((∀ g ∈ s.nvs.badGroups, ¬ (touched g ∧ (8 * g < off ∨ off + len < 8 * g + 8))) → evs = [])) ∧
          t.nvs = { s.nvs with log := t.nvs.log, badGroups := t.nvs.badGroups } ∧
          (∀ i < len, t.logByte (off + i) = data.getD i 0) ∧
          (∀ a, (a < off ∨ off + len ≤ a) → t.logByte a = if a / 8 ∈ s.nvs.badGroups ∧ touched (a / 8) then 0 else s.logByte a) ∧
          ∀ g, g ∈ t.nvs.badGroups ↔ g ∈ s.nvs.badGroups ∧ ¬ touched g) ∧
      (∀ k, s.rd F.NVS_STATUS_RECALL_BUSY = 0 → s.nvs.badGroups = [] → (off / 8 + k) * 8 - off < len →
        let m := min len ((off / 8 + k + 1) * 8 - off)
        Gives (.logWrite ring data ⟨[], some k⟩) s fun t => t.hif.rings = (s.run ring d.idx).hif.rings ∧
          t.nvs.logOp = some ⟨ring, d.idx, off + m, data.drop m, false, m, true, 0, []⟩ ∧
          (∀ i < m, t.logByte (off + i) = data.getD i 0) ∧ ∀ a, (a < off ∨ off + m ≤ a) → t.logByte a = s.logByte a)) ∧
    (∀ (ring : Nat) (data : List Byte) (errs : List LogErr) (cut : Option Nat) (o : StoreOp) (s : State), s.nvs.logOp = some o →
      (o.ring ≠ ring → exec (.logWrite ring data ⟨errs, cut⟩) s = .next s) ∧
      (o.ring = ring → cut = none → o.evs = [] → Stores.wf s.nvs = true → s.nvs.badGroups = [] →
        Gives (.logWrite ring data ⟨errs, cut⟩) s fun t => t.nvs.logOp = none ∧
          t.hif = (s.modDesc ring o.idx fun d => { doneAs Cpl.SUCCESS (o.fin + o.rest.length) d with cflags := o.flags }).hif ∧
          (∀ i < o.rest.length, t.logByte (o.off + i) = o.rest.getD i 0) ∧
          ∀ a, (a < o.off ∨ o.off + o.rest.length ≤ a) → t.logByte a = s.logByte a)) ∧
    (∀ s : State, s.powered = true → Gives .uvloFall s fun t => t.nvs.logOp = none ∧ t.nvs.flashOp = none ∧
      t.nvs.flash = s.nvs.flash ∧ ∀ a, t.logByte a = s.logByte a) ∧
    (∀ s : State, s.hasEvents = true → Stores.wf s.nvs = true → Gives (.hardwareTrip 0) s fun t =>
      t.nvs.logOp = none ∧ t.nvs.flashOp = none ∧ t.logByte (0x8000 + 32 * (s.nvs.cairnSeq % 512) + 23) =
        BitVec.ofNat 8 ((if s.nvs.logOp.any StoreOp.busy then 1 else 0) + if s.nvs.flashOp.any StoreOp.busy then 2 else 0)) ∧
    (∀ s : State, s.hasEvents = true → s.rd F.NVS_STATUS_RECALL_BUSY = 1 → Gives (.nvsRecallDone []) s fun t =>
        t.rd F.NVS_STATUS_RECALL_BUSY = 0 ∧ Raised Ev.NVS_RECALL_DONE t ∧ t.nvs.logQ = [] ∧ WordsKept [0x60004] s t ∧
        t.nvs.cairnSeq = (s.newestRecord 0x8000 32 512 + 1) % 2 ^ 32 ∧
        let seq := (s.newestRecord 0x1000 64 448 + 1) % 2 ^ 32
        ∀ w, s.nvs.logQ = [w] → s.rd (F.EVT_ROUTE_ALERT Ev.NVS_RECALL_DONE) = 0 → Stores.wf s.nvs = true →
          t.nvs.errSeq = (seq + 1) % 2 ^ 32 ∧
          ∀ i < 20, t.logByte (0x1000 + 64 * (seq % 448) + i) =
            (leBytes seq 4 ++ leBytes w.src 2 ++ leBytes 0 2 ++ leBytes w.rt 8 ++ leBytes w.frame 4).getD i 0) ∧
    (∀ s : State, s.bar0Open = true →
      (s.rd F.NVS_SVN_RUN_SVN ≤ s.rd F.NVS_SVN_MIN_SVN → exec .svnCommit s = .next s) ∧
      (s.rd F.NVS_SVN_MIN_SVN < s.rd F.NVS_SVN_RUN_SVN → Stores.wf s.nvs = true → Gives .svnCommit s fun t =>
        t.rd F.NVS_SVN_MIN_SVN = s.rd F.NVS_SVN_RUN_SVN ∧ t.lifetime 0x40 = s.rd F.NVS_SVN_RUN_SVN ∧
        t.lifetime 0x48 = s.rd F.NVS_SVN_RUN_SVN ∧ (∀ a, (a < 0x40 ∨ 0x50 ≤ a) → t.logByte a = s.logByte a) ∧
        RegsOnly [0x60010] ({ s with nvs := t.nvs } : State) t)) ∧
    (∀ s : State, s.awake = true → Stores.wf s.nvs = true → Gives .s0SecondsUpdate s fun t =>
        t.lifetime 0xA8 = (s.lifetime 0xA8 + s.nvs.s0Ns / 1000000000) % 2 ^ 64 ∧ t.nvs.s0Ns = s.nvs.s0Ns % 1000000000 ∧
        (∀ a, (a < 0xA8 ∨ 0xB0 ≤ a) → t.logByte a = s.logByte a) ∧ t = { s with nvs := t.nvs })

/-- A byte of the serial flash: 0xFF where it is erased. -/
def flashAt (s : State) (a : Nat) : Byte := cellGet (fun _ => 0xFF) s.nvs.flash a

/-- The serial flash (R430 to R433) and its settings records (R437, R442, Table 18-5); how far a command gets before other commands come
is an operand (log entry 1801). -/
def Obligations.FlashIsReadAndWritten : Prop :=
  (∀ (ring : Nat) (r : Ring) (d : Desc) (s : State),
      let buf := leAt d.bytes 8 8
      let off := leAt d.bytes 16 4
      let len := leAt d.bytes 20 4
      Passes s ring 0x63 r d [(d.restZero [(8, 16)] && decide (buf < 2 ^ 63) && decide (off + len ≤ s.nvs.capMiB * 2 ^ 20), Cpl.BAD_FIELD)] →
      Stores.wf s.nvs = true → s.nvs.flashOp = none → Gives (.flashRead ring) s fun t =>
        t.hif = (s.modDesc ring d.idx (doneAs Cpl.SUCCESS len)).hif ∧ t.nvs = s.nvs ∧ t.regs = s.regs ∧
          ∃ bs : List Byte, t.out = .hostWrite buf bs false :: s.out ∧ bs.length = len ∧
            ∀ i < len, bs.getD i 0 = flashAt s (off + i)) ∧
    (∀ (ring : Nat) (data : List Byte) (run : StoreRun) (s : State), s.pwr.ownWarn = true ∨ s.pwr.pinWarn = true →
      exec (.flashWrite ring data run) s = .next s ∧ exec (.settingsWrite ring data run) s = .next s) ∧
    (∀ (ring : Nat) (data : List Byte) (run : StoreRun) (o : StoreOp) (s : State), s.nvs.flashOp = some o →
      exec (.flashRead ring) s = .next s ∧
      (¬(o.ring = ring ∧ o.settings = false) → exec (.flashWrite ring data run) s = .next s) ∧
      (¬(o.ring = ring ∧ o.settings = true) → exec (.settingsWrite ring data run) s = .next s) ∧
      (o.ring = ring → o.settings = false → s.pwr.ownWarn = false → s.pwr.pinWarn = false → Stores.wf s.nvs = true →
        Gives (.flashWrite ring data .whole) s fun t => t.nvs = { s.nvs with flash := t.nvs.flash, flashOp := none } ∧
          t.hif = (s.modDesc ring o.idx fun d => { doneAs Cpl.SUCCESS (o.fin + o.rest.length) d with cflags := o.flags }).hif ∧
          (∀ i < o.rest.length, flashAt t (o.off + i) = o.rest.getD i 0) ∧
          ∀ a, (a < o.off ∨ o.off + o.rest.length ≤ a) → flashAt t a = flashAt s a)) ∧
    (∀ (ring : Nat) (data : List Byte) (run : StoreRun) (r : Ring) (d : Desc) (s : State),
      let buf := leAt d.bytes 8 8
      let off := leAt d.bytes 16 4
      let len := leAt d.bytes 20 4
      Passes s ring 0x64 r d [(d.restZero [(8, 16)] && decide (buf < 2 ^ 63) && decide (off % 4096 = 0) && decide (len % 4096 = 0) &&
        decide (off + len ≤ s.nvs.capMiB * 2 ^ 20) && (decide (off + len ≤ 0x1000000) || decide (0x1020000 ≤ off)), Cpl.BAD_FIELD)] →
      s.pwr.ownWarn = false → s.pwr.pinWarn = false → Stores.wf s.nvs = true → data.length = len → s.nvs.flashOp = none →
      (s.rd F.NVS_STATUS_SFDP_OK = 0 → exec (.flashWrite ring data run) s = .next (s.modDesc ring d.idx (doneAs Cpl.MEDIA_ERROR 0))) ∧
      (s.rd F.NVS_STATUS_SFDP_OK = 1 → (∀ k, run = .bad k ∨ run = .cut k → len / 4096 ≤ k) → Gives (.flashWrite ring data run) s fun t =>
        t.hif = (s.modDesc ring d.idx (doneAs Cpl.SUCCESS len)).hif ∧ t.nvs = { s.nvs with flash := t.nvs.flash } ∧ t.regs = s.regs ∧
          (∀ i < len, flashAt t (off + i) = data.getD i 0) ∧ ∀ a, (a < off ∨ off + len ≤ a) → flashAt t a = flashAt s a) ∧
      (∀ k, s.rd F.NVS_STATUS_SFDP_OK = 1 → run = .bad k → k < len / 4096 → Gives (.flashWrite ring data run) s fun t =>
        t.hif.rings = (s.modDesc ring d.idx fun d => { doneAs Cpl.MEDIA_ERROR (4096 * k) d with evs := s.heldNow [Ev.NVS_FLASH_ERR] }).hif.rings ∧
          Raised Ev.NVS_FLASH_ERR t ∧
          t.rd (F.NVS_CNT_COUNT 2) = min (s.rd (F.NVS_CNT_COUNT 2) + 1) (2 ^ 32 - 1) ∧
          (∀ i < 4096 * k, flashAt t (off + i) = data.getD i 0) ∧
          ∀ a, (a < off ∨ off + 4096 * (k + 1) ≤ a) → flashAt t a = flashAt s a) ∧
      (∀ k, s.rd F.NVS_STATUS_SFDP_OK = 1 → run = .cut k → k < len / 4096 → Gives (.flashWrite ring data run) s fun t =>
        t.hif = (s.run ring d.idx).hif ∧
          t.nvs.flashOp = some ⟨ring, d.idx, off + 4096 * k, data.drop (4096 * k), false, 4096 * k, true, 0, []⟩ ∧
          (∀ i < 4096 * k, flashAt t (off + i) = data.getD i 0) ∧
          ∀ a, (a < off ∨ off + 4096 * (k + 1) ≤ a) → flashAt t a = flashAt s a)) ∧
    (∀ (ring : Nat) (data : List Byte) (r : Ring) (d : Desc) (s : State),
      let buf := leAt d.bytes 8 8
      let len := leAt d.bytes 16 4
      Passes s ring 0x65 r d [(d.restZero [(8, 12)] && decide (buf < 2 ^ 63) && decide (len % 8 = 0) && decide (len ≤ 65512),
        Cpl.BAD_FIELD)] → s.pwr.ownWarn = false → s.pwr.pinWarn = false → Stores.wf s.nvs = true → data.length = len → s.nvs.flashOp = none →
      (s.rd F.NVS_STATUS_SFDP_OK = 0 → exec (.settingsWrite ring data .whole) s =
        .next (s.modDesc ring d.idx (doneAs Cpl.MEDIA_ERROR 0))) ∧
      (s.rd F.NVS_STATUS_SFDP_OK = 1 →
        let gen := (s.rd F.NVS_SET_GEN_GEN + 1) % 2 ^ 32
        Gives (.settingsWrite ring data .whole) s fun t =>
          t.hif = (s.modDesc ring d.idx (doneAs Cpl.SUCCESS gen)).hif ∧ t.rd F.NVS_SET_GEN_GEN = gen ∧
          t.rd F.NVS_STATUS_SET_CONFLICT = 0 ∧ t.nvs = { s.nvs with flash := t.nvs.flash } ∧
          (∀ c < 2, t.recordBody (settingsAt c) magicSettings = some data ∧ t.recordGen (settingsAt c) = gen) ∧
          (∀ a, (a < 0x1000000 ∨ 0x1020000 ≤ a) → flashAt t a = flashAt s a) ∧ ∀ o, o ≠ 0x60004 → o ≠ 0x60008 → t.word o = s.word o) ∧
      (∀ k < 2, s.rd F.NVS_STATUS_SFDP_OK = 1 →
        let c := if s.rd F.NVS_STATUS_SET_SOURCE = 1 then 0 else 1
        Gives (.settingsWrite ring data (.bad k)) s fun t =>
          t.hif.rings = (s.modDesc ring d.idx fun d => { doneAs Cpl.MEDIA_ERROR 0 d with evs := s.heldNow [Ev.NVS_FLASH_ERR] }).hif.rings ∧
          Raised Ev.NVS_FLASH_ERR t ∧ t.rd F.NVS_SET_GEN_GEN = s.rd F.NVS_SET_GEN_GEN ∧
          (k = 0 → ∀ a, settingsAt (1 - c) ≤ a → a < settingsAt (1 - c) + 0x10000 → flashAt t a = flashAt s a) ∧
          (k = 1 → t.recordBody (settingsAt c) magicSettings = some data) ∧
          ∀ a, (a < 0x1000000 ∨ 0x1020000 ≤ a) → flashAt t a = flashAt s a) ∧
      (∀ k < 3, s.rd F.NVS_STATUS_SFDP_OK = 1 →
        let c := if s.rd F.NVS_STATUS_SET_SOURCE = 1 then 0 else 1
        Gives (.settingsWrite ring data (.cut k)) s fun t => t.hif = (s.run ring d.idx).hif ∧ t.regs = s.regs ∧
          (∃ o, t.nvs.flashOp = some o ∧ o.ring = ring ∧ o.idx = d.idx ∧ o.settings = true ∧ o.busy = (k != 1) ∧
            o.fin = if k = 0 then 0 else 1) ∧
          t.recordBody (settingsAt c) magicSettings = (if k = 0 then none else some data) ∧
          (k < 2 → ∀ a, settingsAt (1 - c) ≤ a → a < settingsAt (1 - c) + 0x10000 → flashAt t a = flashAt s a) ∧
          (k = 2 → t.recordBody (settingsAt (1 - c)) magicSettings = none) ∧
          ∀ a, (a < 0x1000000 ∨ 0x1020000 ≤ a) → flashAt t a = flashAt s a))

/-- R36 and R37: the comparison of wrapping counts that the rings, the settings generations, the logbook and the rope use. -/
def Obligations.SerialNumbersCompareByDistance : Prop :=
  ∀ n a b : Nat, 0 < n → a < 2 ^ n → b < 2 ^ n →
    (serialDelta n b a - ((b : Int) - a)) % 2 ^ n = 0 ∧ -2 ^ (n - 1) ≤ serialDelta n b a ∧ serialDelta n b a ≤ 2 ^ (n - 1) - 1 ∧
      (serialLater n b a = true ↔ 0 < serialDelta n b a) ∧
      (serialDelta n b a = -2 ^ (n - 1) → serialDist n b a = 0) ∧
      (serialDelta n b a ≠ -2 ^ (n - 1) → serialDist n b a = serialDelta n b a) ∧
      (serialDist n b a < 0 ↔ serialDelta n b a < 0 ∧ serialDelta n b a ≠ -2 ^ (n - 1)) ∧
      (serialDelta n b a = 0 ↔ b = a)
end

