-- ==== Sys2Proof/Laws/Cells.lean ====
section
/-!
SUPPORT. Laws of sparse stores: what a read finds after a write, and that every operation keeps the canonical form.
-/
namespace Sys2Proof.Machine

variable {α : Type} [DecidableEq α] {d : Nat → α}

omit [DecidableEq α] in
/-- A smaller bound holds when a larger one does. -/
theorem cellsRise_mono {l : List (Nat × α)} {a b : Nat} (h : a ≤ b) (hl : cellsRise b l = true) : cellsRise a l = true := by
  cases l with
  | nil => rfl
  | cons c l =>
    simp only [cellsRise, Bool.and_eq_true, decide_eq_true_eq] at hl ⊢
    exact ⟨by omega, hl.2⟩

omit [DecidableEq α] in
/-- Rising keys, said of the list's keys. -/
theorem cellsRise_iff {l : List (Nat × α)} {b : Nat} :
    cellsRise b l = true ↔ (∀ c ∈ l, b ≤ c.1) ∧ l.Pairwise fun c e => c.1 < e.1 := by
  induction l generalizing b with
  | nil => simp [cellsRise]
  | cons c l ih =>
    simp only [cellsRise, Bool.and_eq_true, decide_eq_true_eq, ih, List.mem_cons, List.pairwise_cons]
    constructor
    · rintro ⟨h1, h2, h3⟩
      exact ⟨fun e he => he.elim (fun h => h ▸ h1) fun h => by have := h2 e h; omega, fun e he => h2 e he, h3⟩
    · rintro ⟨h1, h2, h3⟩
      exact ⟨h1 c (.inl rfl), fun e he => h2 e he, h3⟩

/-- The canonical form, said of the list's entries. -/
theorem cellsWf_iff {l : List (Nat × α)} :
    cellsWf d l = true ↔ (l.Pairwise fun c e => c.1 < e.1) ∧ ∀ c ∈ l, c.2 ≠ d c.1 := by
  simp [cellsWf, cellsRise_iff]

@[simp] theorem cellsWf_nil : cellsWf d [] = true := rfl

/-- Part of a canonical store is canonical. -/
theorem cellsWf_sublist {l k : List (Nat × α)} (h : k.Sublist l) (hl : cellsWf d l = true) : cellsWf d k = true := by
  rw [cellsWf_iff] at *
  exact ⟨hl.1.sublist h, fun c hc => hl.2 c (h.subset hc)⟩

/-- Dropping a range keeps the canonical form. -/
theorem cellClear_wf {l : List (Nat × α)} (lo hi : Nat) (h : cellsWf d l = true) : cellsWf d (cellClear l lo hi) = true :=
  cellsWf_sublist List.filter_sublist h

/-- An entry put before larger keys keeps the form. -/
theorem cellCons_wf {l : List (Nat × α)} {k : Nat} {v : α} (h : cellsWf d l = true) (hk : ∀ c ∈ l, k < c.1) :
    cellsWf d (cellCons d k v l) = true := by
  unfold cellCons
  split
  · exact h
  · rw [cellsWf_iff] at *
    refine ⟨List.pairwise_cons.2 ⟨fun c hc => hk c hc, h.1⟩, ?_⟩
    intro c hc
    rcases List.mem_cons.1 hc with rfl | hc
    · assumption
    · exact h.2 c hc

/-- The keys after a write are the old ones and the one written. -/
theorem cellSet_keys {l : List (Nat × α)} {k : Nat} {v : α} {c : Nat × α} (h : c ∈ cellSet d l k v) : c.1 = k ∨ c ∈ l := by
  induction l with
  | nil =>
    simp only [cellSet, cellCons] at h
    split at h <;> simp_all
  | cons e l ih =>
    simp only [cellSet, cellCons, cellDrop] at h
    split at h
    · split at h
      · exact .inr (List.mem_cons_of_mem _ (List.mem_of_mem_filter h))
      · rcases List.mem_cons.1 h with rfl | h
        · exact .inl rfl
        · exact .inr (List.mem_cons_of_mem _ (List.mem_of_mem_filter h))
    · split at h
      · split at h
        · rcases List.mem_cons.1 h with rfl | h
          · exact .inr (by simp)
          · exact .inr (List.mem_cons_of_mem _ (List.mem_of_mem_filter h))
        · rcases List.mem_cons.1 h with rfl | h
          · exact .inl rfl
          · rcases List.mem_cons.1 h with rfl | h
            · exact .inr (by simp)
            · exact .inr (List.mem_cons_of_mem _ (List.mem_of_mem_filter h))
      · rcases List.mem_cons.1 h with rfl | h
        · exact .inr (by simp)
        · exact (ih h).imp id (List.mem_cons_of_mem _)

/-- Writing one key keeps the canonical form. -/
theorem cellSet_wf {l : List (Nat × α)} (k : Nat) (v : α) (h : cellsWf d l = true) : cellsWf d (cellSet d l k v) = true := by
  induction l with
  | nil => exact cellCons_wf rfl (by simp)
  | cons e l ih =>
    obtain ⟨j, w⟩ := e
    have hl : cellsWf d l = true := cellsWf_sublist (List.sublist_cons_self ..) h
    have hd : cellsWf d (cellDrop l k) = true := cellsWf_sublist List.filter_sublist hl
    have hp := (cellsWf_iff.1 h).1
    rw [List.pairwise_cons] at hp
    have hw := (cellsWf_iff.1 h).2 (j, w) (by simp)
    simp only [cellSet]
    split
    · subst j
      exact cellCons_wf hd fun c hc => hp.1 c (List.mem_of_mem_filter hc)
    · split
      · refine cellCons_wf ?_ ?_
        · exact cellsWf_sublist (List.Sublist.cons_cons _ List.filter_sublist) h
        · intro c hc
          rcases List.mem_cons.1 hc with rfl | hc
          · assumption
          · have := hp.1 c (List.mem_of_mem_filter hc)
            simp only at this ⊢
            omega
      · have h' := ih hl
        rw [cellsWf_iff] at h' ⊢
        refine ⟨List.pairwise_cons.2 ⟨?_, h'.1⟩, ?_⟩
        · intro c hc
          rcases cellSet_keys hc with hk | hc
          · simp only [hk]
            omega
          · exact hp.1 c hc
        · intro c hc
          rcases List.mem_cons.1 hc with rfl | hc
          · exact hw
          · exact h'.2 c hc

/-- The entries a run of values needs lie at its keys. -/
theorem cellsNew_keys {a : Nat} {vs : List α} {c : Nat × α} (h : c ∈ cellsNew d a vs) : a ≤ c.1 ∧ c.1 < a + vs.length := by
  induction vs generalizing a with
  | nil => simp [cellsNew] at h
  | cons v vs ih =>
    simp only [cellsNew, cellCons] at h
    split at h
    · have := ih h
      simp only [List.length_cons]
      omega
    · rcases List.mem_cons.1 h with rfl | h
      · simp
      · have := ih h
        simp only [List.length_cons]
        omega

/-- The entries a run of values needs are canonical. -/
theorem cellsNew_wf (a : Nat) (vs : List α) : cellsWf d (cellsNew d a vs) = true := by
  induction vs generalizing a with
  | nil => rfl
  | cons v vs ih => exact cellCons_wf (ih _) fun c hc => by have := cellsNew_keys hc; omega

/-- Writing a run of values keeps the canonical form. -/
theorem cellPut_wf {l : List (Nat × α)} (a : Nat) (vs : List α) (h : cellsWf d l = true) : cellsWf d (cellPut d l a vs) = true := by
  have hrest : ∀ b, ∀ c ∈ l.dropWhile (fun c => decide (c.1 < b)), b ≤ c.1 := by
    intro b
    have hp := (cellsWf_iff.1 h).1
    clear h
    induction l with
    | nil => simp
    | cons e l ih =>
      rw [List.pairwise_cons] at hp
      intro c hc
      rw [List.dropWhile_cons] at hc
      split at hc
      · exact ih hp.2 c hc
      · rename_i hb
        simp only [decide_eq_true_eq, Nat.not_lt] at hb
        rcases List.mem_cons.1 hc with rfl | hc
        · exact hb
        · have := hp.1 c hc
          omega
  have htake : ∀ c ∈ l.takeWhile (fun c => decide (c.1 < a)), c.1 < a := by
    intro c hc
    simpa using List.mem_takeWhile_imp hc
  have h1 := cellsWf_iff.1 (cellsWf_sublist (List.takeWhile_sublist fun c : Nat × α => decide (c.1 < a)) h)
  have h2 := cellsWf_iff.1 (cellsNew_wf (d := d) a vs)
  have h3 := cellsWf_iff.1 (cellsWf_sublist (List.dropWhile_sublist fun c : Nat × α => decide (c.1 < a + vs.length)) h)
  unfold cellPut
  rw [cellsWf_iff]
  constructor
  · rw [List.pairwise_append, List.pairwise_append]
    refine ⟨⟨h1.1, h2.1, ?_⟩, h3.1, ?_⟩
    · intro c hc e he
      have := htake c hc
      have := cellsNew_keys he
      omega
    · intro c hc e he
      have := hrest _ e he
      rcases List.mem_append.1 hc with hc | hc
      · have := htake c hc
        omega
      · have := cellsNew_keys hc
        omega
  · intro c hc
    rcases List.mem_append.1 hc with hc | hc
    · rcases List.mem_append.1 hc with hc | hc
      · exact h1.2 c hc
      · exact h2.2 c hc
    · exact h3.2 c hc

omit [DecidableEq α] in
/-- Dropping the entries at one key leaves every other key's value. -/
theorem cellGet_drop_ne {l : List (Nat × α)} {k j : Nat} (h : j ≠ k) : cellGet d (cellDrop l k) j = cellGet d l j := by
  induction l with
  | nil => rfl
  | cons e l ih =>
    obtain ⟨i, w⟩ := e
    simp only [cellDrop, List.filter_cons]
    split
    · simp only [cellGet]
      split
      · rfl
      · exact ih
    · rename_i hi
      simp only [bne_iff_ne, ne_eq, not_not] at hi
      simp only [cellGet, hi, if_neg (Ne.symm h)]
      exact ih

omit [DecidableEq α] in
/-- After its entries are dropped, a key reads as unlisted. -/
theorem cellGet_drop_same {l : List (Nat × α)} {k : Nat} : cellGet d (cellDrop l k) k = d k := by
  induction l with
  | nil => rfl
  | cons e l ih =>
    obtain ⟨i, w⟩ := e
    simp only [cellDrop, List.filter_cons]
    split
    · rename_i hi
      simp only [bne_iff_ne, ne_eq] at hi
      simp only [cellGet, if_neg hi]
      exact ih
    · exact ih

/-- What a key reads as after an entry is put first. -/
theorem cellGet_cons {l : List (Nat × α)} {k j : Nat} {v : α} (h : cellGet d l k = d k) :
    cellGet d (cellCons d k v l) j = if j = k then v else cellGet d l j := by
  unfold cellCons
  split
  · split
    · subst j; simp_all
    · rfl
  · simp only [cellGet, eq_comm]

/-- What any key reads as after a write. -/
theorem cellGet_set (l : List (Nat × α)) (k j : Nat) (v : α) :
    cellGet d (cellSet d l k v) j = if j = k then v else cellGet d l j := by
  induction l with
  | nil => exact cellGet_cons rfl
  | cons e l ih =>
    obtain ⟨i, w⟩ := e
    simp only [cellSet]
    split
    · subst i
      rw [cellGet_cons cellGet_drop_same]
      split
      · rfl
      · rename_i hj
        simp only [cellGet, if_neg (Ne.symm hj)]
        exact cellGet_drop_ne hj
    · rename_i hik
      split
      · rw [cellGet_cons]
        · split
          · rfl
          · rename_i hj
            simp only [cellGet]
            split
            · rfl
            · exact cellGet_drop_ne hj
        · simp only [cellGet, if_neg hik]
          exact cellGet_drop_same
      · simp only [cellGet]
        split
        · subst i
          rw [if_neg hik]
        · exact ih

/-- A rebuilt store is canonical. -/
theorem cellsOf_wf (l : List (Nat × α)) : cellsWf d (cellsOf d l) = true := by
  induction l with
  | nil => rfl
  | cons c l ih => exact cellSet_wf _ _ ih

/-- A rebuilt store reads as the entries it was built from. -/
theorem cellGet_cellsOf (l : List (Nat × α)) (k : Nat) : cellGet d (cellsOf d l) k = cellGet d l k := by
  induction l with
  | nil => rfl
  | cons c l ih =>
    show cellGet d (cellSet d (cellsOf d l) c.1 c.2) k = _
    rw [cellGet_set, ih]
    obtain ⟨j, v⟩ := c
    simp only [cellGet, eq_comm]

/-- The key written reads the value written. -/
@[simp] theorem cellGet_set_same (l : List (Nat × α)) (k : Nat) (v : α) : cellGet d (cellSet d l k v) k = v := by
  simp [cellGet_set]

/-- Every other key reads as before. -/
theorem cellGet_set_ne (l : List (Nat × α)) {k j : Nat} (v : α) (h : j ≠ k) :
    cellGet d (cellSet d l k v) j = cellGet d l j := by
  simp [cellGet_set, h]

end Sys2Proof.Machine
end

