-- ==== Sys2Proof/Laws/Keeps.lean ====
section
/-!
SUPPORT. What an operation leaves alone, in a form that composes: `Keeps P r s` says that from `r` to `s` the queue, the variant and
every part outside the mask `P` are unchanged, and that canonical stores stay canonical. Each shared operation has one lemma
`<operation>_keeps` in the files of `Laws` named after its block: it carries `Keeps P r` from the operation's argument to its
result, for every mask `P` that includes the operation's own.
-/
namespace Sys2Proof.Machine

/-- The bit of a part in a mask. -/
def Part.idx : Part → Nat
  | .out => 0
  | .free => 1
  | .regs => 2
  | .live => 3
  | .tim => 4
  | .evt => 5
  | .hif => 6
  | .mem => 7
  | .pwr => 8
  | .nvs => 9
  | .flash => 10
  | .syn => 11
  | .cmp => 12
  | .scn => 13
  | .pnl => 14
  | .dec => 15
  | .thm => 16
  | .blt => 17
  | .enc => 18
  | .cal => 19
  | .lanes => 20
  | .rope => 21

/-- From `r` to `s` only parts in the mask change, and canonical stores stay canonical. -/
structure Keeps (P : Nat) (r s : State) : Prop where
  pending : s.pending = r.pending
  airCooled : s.airCooled = r.airCooled
  canonical : r.canonical = true → s.canonical = true
  shape : r.shaped = true → s.shaped = true
  same : ∀ p : Part, P.testBit p.idx = false → p.same r s

/-- A mask that includes a larger one includes a smaller one. -/
theorem mask_mono {a b P : Nat} (h : a ||| b = b) (hP : b ||| P = P) : a ||| P = P := by
  rw [← hP, ← Nat.or_assoc, h]

/-- A mask includes its own parts. -/
theorem mask_bit {a P i : Nat} (h : a ||| P = P) (ha : a.testBit i = true) : P.testBit i = true := by
  rw [← h, Nat.testBit_or, ha, Bool.true_or]

theorem Keeps.refl (P : Nat) (s : State) : Keeps P s s :=
  ⟨rfl, rfl, id, id, fun p _ => by cases p <;> rfl⟩

/-- What is kept gives a frame for any list of parts that names the mask's. -/
theorem Keeps.frame {P : Nat} {r s : State} (h : Keeps P r s) {may : List Part}
    (hm : ∀ p : Part, p ∉ may → P.testBit p.idx = false) : Frame may r s :=
  ⟨h.pending, h.airCooled, fun p hp => h.same p (hm p hp)⟩

/-- The mask of a list of parts. -/
def Part.mask : List Part → Nat
  | [] => 0
  | p :: l => 2 ^ p.idx ||| Part.mask l

/-- A part whose bit is not in a list's mask is not in the list. -/
theorem Part.mask_bit {p : Part} {l : List Part} (h : p ∈ l) : (Part.mask l).testBit p.idx = true := by
  induction l with
  | nil => cases h
  | cons q l ih =>
    rw [Part.mask, Nat.testBit_or, Bool.or_eq_true]
    rcases List.mem_cons.1 h with rfl | h
    · exact .inl (Nat.testBit_two_pow_self)
    · exact .inr (ih h)

/-- Different parts have different bits. -/
theorem Part.idx_inj {p q : Part} (h : p.idx = q.idx) : p = q := by
  cases p <;> cases q <;> first | rfl | cases h

/-- A bit of a list's mask is the bit of a part in the list. -/
theorem Part.mem_of_mask {p : Part} {l : List Part} (h : (Part.mask l).testBit p.idx = true) : p ∈ l := by
  induction l with
  | nil => simp [Part.mask] at h
  | cons q l ih =>
    rw [Part.mask, Nat.testBit_or, Bool.or_eq_true] at h
    rcases h with h | h
    · rw [Nat.testBit_two_pow] at h
      exact List.mem_cons.2 (.inl (Part.idx_inj (of_decide_eq_true h).symm))
    · exact List.mem_cons_of_mem _ (ih h)

/-- What is kept under the mask of a list is a frame for the list. -/
theorem Keeps.toFrame {may : List Part} {r s : State} (h : Keeps (Part.mask may) r s) : Frame may r s :=
  h.frame fun _ hp => Bool.eq_false_iff.2 fun hb => hp (Part.mem_of_mask hb)

/-- Either way of a choice keeps what both ways keep. -/
theorem keeps_ite {P : Nat} {r a b : State} {c : Prop} [Decidable c] (ha : Keeps P r a) (hb : Keeps P r b) :
    Keeps P r (if c then a else b) := by
  split <;> assumption

/-- A fold keeps what each of its steps keeps. -/
theorem keeps_foldl {P : Nat} {r s : State} {α : Type} {f : State → α → State} {l : List α} (h : Keeps P r s)
    (hf : ∀ s a, Keeps P r s → Keeps P r (f s a)) : Keeps P r (l.foldl f s) := by
  induction l generalizing s with
  | nil => exact h
  | cons a l ih => exact ih (hf s a h)

/-- A new `out`. -/
theorem Keeps.set_out {P : Nat} {r s : State} {x : List Out} (h : Keeps P r s) (hP : 1 ||| P = P) :
    Keeps P r { s with out := x } where
  pending := h.pending
  airCooled := h.airCooled
  canonical := h.canonical
  shape := h.shape
  same := fun p hp => by
    cases p
    case out => exact absurd (mask_bit hP (i := 0) rfl) (Bool.eq_false_iff.1 hp)
    all_goals exact h.same _ hp

/-- A new `freeCtr`. -/
theorem Keeps.set_freeCtr {P : Nat} {r s : State} {x : Nat} (h : Keeps P r s) (hP : 2 ||| P = P) :
    Keeps P r { s with freeCtr := x } where
  pending := h.pending
  airCooled := h.airCooled
  canonical := h.canonical
  shape := h.shape
  same := fun p hp => by
    cases p
    case free => exact absurd (mask_bit hP (i := 1) rfl) (Bool.eq_false_iff.1 hp)
    all_goals exact h.same _ hp

/-- A new `regs` whose store stays canonical. -/
theorem Keeps.set_regs {P : Nat} {r s : State} {x : List (Nat × Word)} (h : Keeps P r s) (hP : 4 ||| P = P)
    (hw : cellsWf resetWord s.regs = true → cellsWf resetWord x = true) : Keeps P r { s with regs := x } where
  pending := h.pending
  airCooled := h.airCooled
  canonical := fun hr => by
    have := h.canonical hr
    simp only [State.canonical, Bool.and_eq_true] at this ⊢
    simp only [this, hw, and_self]
  shape := h.shape
  same := fun p hp => by
    cases p
    case regs => exact absurd (mask_bit hP (i := 2) rfl) (Bool.eq_false_iff.1 hp)
    all_goals exact h.same _ hp

/-- A new `live` whose store stays canonical. -/
theorem Keeps.set_live {P : Nat} {r s : State} {x : List (Nat × Word)} (h : Keeps P r s) (hP : 8 ||| P = P)
    (hw : cellsWf resetWord s.live = true → cellsWf resetWord x = true) : Keeps P r { s with live := x } where
  pending := h.pending
  airCooled := h.airCooled
  canonical := fun hr => by
    have := h.canonical hr
    simp only [State.canonical, Bool.and_eq_true] at this ⊢
    simp only [this, hw, and_self]
  shape := h.shape
  same := fun p hp => by
    cases p
    case live => exact absurd (mask_bit hP (i := 3) rfl) (Bool.eq_false_iff.1 hp)
    all_goals exact h.same _ hp

/-- A new `tim`. -/
theorem Keeps.set_tim {P : Nat} {r s : State} {x : TimSt} (h : Keeps P r s) (hP : 16 ||| P = P) :
    Keeps P r { s with tim := x } where
  pending := h.pending
  airCooled := h.airCooled
  canonical := h.canonical
  shape := h.shape
  same := fun p hp => by
    cases p
    case tim => exact absurd (mask_bit hP (i := 4) rfl) (Bool.eq_false_iff.1 hp)
    all_goals exact h.same _ hp

/-- A new `evt`. -/
theorem Keeps.set_evt {P : Nat} {r s : State} {x : EvtSt} (h : Keeps P r s) (hP : 32 ||| P = P) :
    Keeps P r { s with evt := x } where
  pending := h.pending
  airCooled := h.airCooled
  canonical := h.canonical
  shape := h.shape
  same := fun p hp => by
    cases p
    case evt => exact absurd (mask_bit hP (i := 5) rfl) (Bool.eq_false_iff.1 hp)
    all_goals exact h.same _ hp

/-- No entry in the MSI-X table. -/
theorem Tables.wf_noMsix {x y : HifSt} (hx : y.msix = [] := by rfl) (hc : y.cxl = x.cxl := by rfl) (h : Tables.wf x = true) :
    Tables.wf y = true := by
  simp only [Tables.wf, Bool.and_eq_true, hx, hc] at h ⊢
  exact ⟨rfl, h.2⟩

/-- No CXL register differs from its reset value. -/
theorem Tables.wf_noCxl {x y : HifSt} (hx : y.msix = x.msix := by rfl) (hc : y.cxl = [] := by rfl) (h : Tables.wf x = true) :
    Tables.wf y = true := by
  simp only [Tables.wf, Bool.and_eq_true, hx, hc] at h ⊢
  exact ⟨h.1, rfl⟩

/-- A write to the MSI-X table keeps the tables canonical. -/
theorem Tables.wf_setMsix {x y : HifSt} (k : Nat) (v : Word) (hx : y.msix = cellSet msixReset x.msix k v := by rfl)
    (hc : y.cxl = x.cxl := by rfl) (h : Tables.wf x = true) : Tables.wf y = true := by
  simp only [Tables.wf, Bool.and_eq_true, hx, hc] at h ⊢
  exact ⟨cellSet_wf _ _ h.1, h.2⟩

/-- A write to the CXL registers keeps the tables canonical. -/
theorem Tables.wf_setCxl {x y : HifSt} (k : Nat) (v : Word) (hx : y.msix = x.msix := by rfl)
    (hc : y.cxl = cellSet (fun _ => 0) x.cxl k v := by rfl) (h : Tables.wf x = true) : Tables.wf y = true := by
  simp only [Tables.wf, Bool.and_eq_true, hx, hc] at h ⊢
  exact ⟨h.1, cellSet_wf _ _ h.2⟩

/-- A new `hif` whose store stays canonical. -/
theorem Keeps.set_hif {P : Nat} {r s : State} {x : HifSt} (h : Keeps P r s) (hP : 64 ||| P = P)
    (hw : Tables.wf s.hif = true → Tables.wf x = true) : Keeps P r { s with hif := x } where
  pending := h.pending
  airCooled := h.airCooled
  canonical := fun hr => by
    have := h.canonical hr
    simp only [State.canonical, Bool.and_eq_true] at this ⊢
    simp only [this, hw, and_self]
  shape := h.shape
  same := fun p hp => by
    cases p
    case hif => exact absurd (mask_bit hP (i := 6) rfl) (Bool.eq_false_iff.1 hp)
    all_goals exact h.same _ hp

/-- A new `mem` whose store stays canonical. -/
theorem Keeps.set_mem {P : Nat} {r s : State} {x : MemSt} (h : Keeps P r s) (hP : 128 ||| P = P)
    (hw : Memory.wf s.mem = true → Memory.wf x = true) : Keeps P r { s with mem := x } where
  pending := h.pending
  airCooled := h.airCooled
  canonical := fun hr => by
    have := h.canonical hr
    simp only [State.canonical, Bool.and_eq_true] at this ⊢
    simp only [this, hw, and_self]
  shape := h.shape
  same := fun p hp => by
    cases p
    case mem => exact absurd (mask_bit hP (i := 7) rfl) (Bool.eq_false_iff.1 hp)
    all_goals exact h.same _ hp

/-- A new `pwr`. -/
theorem Keeps.set_pwr {P : Nat} {r s : State} {x : PwrSt} (h : Keeps P r s) (hP : 256 ||| P = P) :
    Keeps P r { s with pwr := x } where
  pending := h.pending
  airCooled := h.airCooled
  canonical := h.canonical
  shape := h.shape
  same := fun p hp => by
    cases p
    case pwr => exact absurd (mask_bit hP (i := 8) rfl) (Bool.eq_false_iff.1 hp)
    all_goals exact h.same _ hp

/-- A new `syn`. -/
theorem Keeps.set_syn {P : Nat} {r s : State} {x : SynSt} (h : Keeps P r s) (hP : 2048 ||| P = P) :
    Keeps P r { s with syn := x } where
  pending := h.pending
  airCooled := h.airCooled
  canonical := h.canonical
  shape := h.shape
  same := fun p hp => by
    cases p
    case syn => exact absurd (mask_bit hP (i := 11) rfl) (Bool.eq_false_iff.1 hp)
    all_goals exact h.same _ hp

/-- A new `cmp`. -/
theorem Keeps.set_cmp {P : Nat} {r s : State} {x : CmpSt} (h : Keeps P r s) (hP : 4096 ||| P = P) :
    Keeps P r { s with cmp := x } where
  pending := h.pending
  airCooled := h.airCooled
  canonical := h.canonical
  shape := h.shape
  same := fun p hp => by
    cases p
    case cmp => exact absurd (mask_bit hP (i := 12) rfl) (Bool.eq_false_iff.1 hp)
    all_goals exact h.same _ hp

/-- A new `scn`. -/
theorem Keeps.set_scn {P : Nat} {r s : State} {x : ScnSt} (h : Keeps P r s) (hP : 8192 ||| P = P) :
    Keeps P r { s with scn := x } where
  pending := h.pending
  airCooled := h.airCooled
  canonical := h.canonical
  shape := h.shape
  same := fun p hp => by
    cases p
    case scn => exact absurd (mask_bit hP (i := 13) rfl) (Bool.eq_false_iff.1 hp)
    all_goals exact h.same _ hp

/-- A new `pnl` with as many ports. -/
theorem Keeps.set_pnl {P : Nat} {r s : State} {x : PnlSt} (h : Keeps P r s) (hP : 16384 ||| P = P)
    (hx : s.pnl.ports.length = 16 → x.ports.length = 16) : Keeps P r { s with pnl := x } where
  pending := h.pending
  airCooled := h.airCooled
  canonical := h.canonical
  shape := fun hr => by
    have := h.shape hr
    simp only [State.shaped, Bool.and_eq_true, beq_iff_eq] at this ⊢
    exact ⟨this.1, hx this.2⟩
  same := fun p hp => by
    cases p
    case pnl => exact absurd (mask_bit hP (i := 14) rfl) (Bool.eq_false_iff.1 hp)
    all_goals exact h.same _ hp

/-- A new `dec`. -/
theorem Keeps.set_dec {P : Nat} {r s : State} {x : DecSt} (h : Keeps P r s) (hP : 32768 ||| P = P) :
    Keeps P r { s with dec := x } where
  pending := h.pending
  airCooled := h.airCooled
  canonical := h.canonical
  shape := h.shape
  same := fun p hp => by
    cases p
    case dec => exact absurd (mask_bit hP (i := 15) rfl) (Bool.eq_false_iff.1 hp)
    all_goals exact h.same _ hp

/-- A new `thm`. -/
theorem Keeps.set_thm {P : Nat} {r s : State} {x : ThmSt} (h : Keeps P r s) (hP : 65536 ||| P = P) :
    Keeps P r { s with thm := x } where
  pending := h.pending
  airCooled := h.airCooled
  canonical := h.canonical
  shape := h.shape
  same := fun p hp => by
    cases p
    case thm => exact absurd (mask_bit hP (i := 16) rfl) (Bool.eq_false_iff.1 hp)
    all_goals exact h.same _ hp

/-- A new `blt`. -/
theorem Keeps.set_blt {P : Nat} {r s : State} {x : BltSt} (h : Keeps P r s) (hP : 131072 ||| P = P) :
    Keeps P r { s with blt := x } where
  pending := h.pending
  airCooled := h.airCooled
  canonical := h.canonical
  shape := h.shape
  same := fun p hp => by
    cases p
    case blt => exact absurd (mask_bit hP (i := 17) rfl) (Bool.eq_false_iff.1 hp)
    all_goals exact h.same _ hp

/-- A new `enc`. -/
theorem Keeps.set_enc {P : Nat} {r s : State} {x : EncSt} (h : Keeps P r s) (hP : 262144 ||| P = P) :
    Keeps P r { s with enc := x } where
  pending := h.pending
  airCooled := h.airCooled
  canonical := h.canonical
  shape := h.shape
  same := fun p hp => by
    cases p
    case enc => exact absurd (mask_bit hP (i := 18) rfl) (Bool.eq_false_iff.1 hp)
    all_goals exact h.same _ hp

/-- A new `cal`. -/
theorem Keeps.set_cal {P : Nat} {r s : State} {x : CalSt} (h : Keeps P r s) (hP : 524288 ||| P = P) :
    Keeps P r { s with cal := x } where
  pending := h.pending
  airCooled := h.airCooled
  canonical := h.canonical
  shape := h.shape
  same := fun p hp => by
    cases p
    case cal => exact absurd (mask_bit hP (i := 19) rfl) (Bool.eq_false_iff.1 hp)
    all_goals exact h.same _ hp

/-- As many new `lanes`. -/
theorem Keeps.set_lanes {P : Nat} {r s : State} {x : List Lane} (h : Keeps P r s) (hP : 1048576 ||| P = P)
    (hx : s.lanes.length = 104 → x.length = 104) : Keeps P r { s with lanes := x } where
  pending := h.pending
  airCooled := h.airCooled
  canonical := h.canonical
  shape := fun hr => by
    have := h.shape hr
    simp only [State.shaped, Bool.and_eq_true, beq_iff_eq] at this ⊢
    exact ⟨hx this.1, this.2⟩
  same := fun p hp => by
    cases p
    case lanes => exact absurd (mask_bit hP (i := 20) rfl) (Bool.eq_false_iff.1 hp)
    all_goals exact h.same _ hp

/-- A new `rope`. -/
theorem Keeps.set_rope {P : Nat} {r s : State} {x : RopeSt} (h : Keeps P r s) (hP : 2097152 ||| P = P) :
    Keeps P r { s with rope := x } where
  pending := h.pending
  airCooled := h.airCooled
  canonical := h.canonical
  shape := h.shape
  same := fun p hp => by
    cases p
    case rope => exact absurd (mask_bit hP (i := 21) rfl) (Bool.eq_false_iff.1 hp)
    all_goals exact h.same _ hp

/-- New persistent storage with the same flash, whose stores stay canonical. -/
theorem Keeps.set_nvs {P : Nat} {r s : State} {x : NvsSt} (h : Keeps P r s) (hP : 512 ||| P = P)
    (hw : Stores.wf s.nvs = true → Stores.wf x = true) (hf : x.flash = s.nvs.flash) : Keeps P r { s with nvs := x } where
  pending := h.pending
  airCooled := h.airCooled
  canonical := fun hr => by
    have := h.canonical hr
    simp only [State.canonical, Bool.and_eq_true] at this ⊢
    simp only [this, hw, and_self]
  shape := h.shape
  same := fun p hp => by
    cases p
    case nvs => exact absurd (mask_bit hP (i := 9) rfl) (Bool.eq_false_iff.1 hp)
    case flash => exact hf.trans (h.same .flash hp)
    all_goals exact h.same _ hp

/-- New persistent storage, its flash included, whose stores stay canonical. -/
theorem Keeps.set_stores {P : Nat} {r s : State} {x : NvsSt} (h : Keeps P r s) (hP : 1536 ||| P = P)
    (hw : Stores.wf s.nvs = true → Stores.wf x = true) : Keeps P r { s with nvs := x } where
  pending := h.pending
  airCooled := h.airCooled
  canonical := fun hr => by
    have := h.canonical hr
    simp only [State.canonical, Bool.and_eq_true] at this ⊢
    simp only [this, hw, and_self]
  shape := h.shape
  same := fun p hp => by
    cases p
    case nvs => exact absurd (mask_bit hP (i := 9) rfl) (Bool.eq_false_iff.1 hp)
    case flash => exact absurd (mask_bit hP (i := 10) rfl) (Bool.eq_false_iff.1 hp)
    all_goals exact h.same _ hp
/-- New `freeCtr`, `nvs` at once. -/
theorem Keeps.set_freeCtr_nvs {P : Nat} {r s : State} {x0 : Nat} {x1 : NvsSt} (h : Keeps P r s) (hP : 514 ||| P = P) (hw : Stores.wf s.nvs = true → Stores.wf x1 = true) (hf : x1.flash = s.nvs.flash) :
    Keeps P r { s with freeCtr := x0, nvs := x1 } :=
  (h.set_freeCtr (x := x0) (mask_mono rfl hP)).set_nvs (x := x1) (mask_mono rfl hP) hw hf

/-- New `out`, `hif` at once. -/
theorem Keeps.set_out_hif {P : Nat} {r s : State} {x0 : List Out} {x1 : HifSt} (h : Keeps P r s) (hP : 65 ||| P = P) (hm : Tables.wf s.hif = true → Tables.wf x1 = true) :
    Keeps P r { s with out := x0, hif := x1 } :=
  (h.set_out (x := x0) (mask_mono rfl hP)).set_hif (x := x1) (mask_mono rfl hP) hm

/-- New `hif`, `enc` at once. -/
theorem Keeps.set_hif_enc {P : Nat} {r s : State} {x0 : HifSt} {x1 : EncSt} (h : Keeps P r s) (hP : 262208 ||| P = P) (hm : Tables.wf s.hif = true → Tables.wf x0 = true) :
    Keeps P r { s with hif := x0, enc := x1 } :=
  (h.set_hif (x := x0) (mask_mono rfl hP) hm).set_enc (x := x1) (mask_mono rfl hP)

/-- New `cmp`, `scn` at once. -/
theorem Keeps.set_cmp_scn {P : Nat} {r s : State} {x0 : CmpSt} {x1 : ScnSt} (h : Keeps P r s) (hP : 12288 ||| P = P) :
    Keeps P r { s with cmp := x0, scn := x1 } :=
  (h.set_cmp (x := x0) (mask_mono rfl hP)).set_scn (x := x1) (mask_mono rfl hP)

/-- New `tim`, `pwr` at once. -/
theorem Keeps.set_tim_pwr {P : Nat} {r s : State} {x0 : TimSt} {x1 : PwrSt} (h : Keeps P r s) (hP : 272 ||| P = P) :
    Keeps P r { s with tim := x0, pwr := x1 } :=
  (h.set_tim (x := x0) (mask_mono rfl hP)).set_pwr (x := x1) (mask_mono rfl hP)

/-- New `live`, `cmp` at once. -/
theorem Keeps.set_live_cmp {P : Nat} {r s : State} {x0 : List (Nat × Word)} {x1 : CmpSt} (h : Keeps P r s) (hP : 4104 ||| P = P) (hl : cellsWf resetWord s.live = true → cellsWf resetWord x0 = true) :
    Keeps P r { s with live := x0, cmp := x1 } :=
  (h.set_live (x := x0) (mask_mono rfl hP) hl).set_cmp (x := x1) (mask_mono rfl hP)

/-- New `tim`, `hif`, `enc`, `rope` at once. -/
theorem Keeps.set_tim_hif_enc_rope {P : Nat} {r s : State} {x0 : TimSt} {x1 : HifSt} {x2 : EncSt} {x3 : RopeSt} (h : Keeps P r s) (hP : 2359376 ||| P = P) (hm : Tables.wf s.hif = true → Tables.wf x1 = true) :
    Keeps P r { s with tim := x0, hif := x1, enc := x2, rope := x3 } :=
  (((h.set_tim (x := x0) (mask_mono rfl hP)).set_hif (x := x1) (mask_mono rfl hP) hm).set_enc (x := x2) (mask_mono rfl hP)).set_rope (x := x3) (mask_mono rfl hP)

/-- New `evt`, `hif` at once. -/
theorem Keeps.set_evt_hif {P : Nat} {r s : State} {x0 : EvtSt} {x1 : HifSt} (h : Keeps P r s) (hP : 96 ||| P = P) (hm : Tables.wf s.hif = true → Tables.wf x1 = true) :
    Keeps P r { s with evt := x0, hif := x1 } :=
  (h.set_evt (x := x0) (mask_mono rfl hP)).set_hif (x := x1) (mask_mono rfl hP) hm

/-- New `syn`, `cmp`, `scn` at once. -/
theorem Keeps.set_syn_cmp_scn {P : Nat} {r s : State} {x0 : SynSt} {x1 : CmpSt} {x2 : ScnSt} (h : Keeps P r s) (hP : 14336 ||| P = P) :
    Keeps P r { s with syn := x0, cmp := x1, scn := x2 } :=
  ((h.set_syn (x := x0) (mask_mono rfl hP)).set_cmp (x := x1) (mask_mono rfl hP)).set_scn (x := x2) (mask_mono rfl hP)

/-- New `tim`, `nvs` at once. -/
theorem Keeps.set_tim_nvs {P : Nat} {r s : State} {x0 : TimSt} {x1 : NvsSt} (h : Keeps P r s) (hP : 528 ||| P = P) (hw : Stores.wf s.nvs = true → Stores.wf x1 = true) (hf : x1.flash = s.nvs.flash) :
    Keeps P r { s with tim := x0, nvs := x1 } :=
  (h.set_tim (x := x0) (mask_mono rfl hP)).set_nvs (x := x1) (mask_mono rfl hP) hw hf

/-- New `hif`, `pwr` at once. -/
theorem Keeps.set_hif_pwr {P : Nat} {r s : State} {x0 : HifSt} {x1 : PwrSt} (h : Keeps P r s) (hP : 320 ||| P = P) (hm : Tables.wf s.hif = true → Tables.wf x0 = true) :
    Keeps P r { s with hif := x0, pwr := x1 } :=
  (h.set_hif (x := x0) (mask_mono rfl hP) hm).set_pwr (x := x1) (mask_mono rfl hP)

end Sys2Proof.Machine
end

