-- ==== Sys2Proof/Laws/Ops.lean ====
section
/-!
SUPPORT. What each operation of Machine/Ops.lean leaves alone (see Laws/Keeps.lean).
-/
namespace Sys2Proof.Machine

/-- Writing logbook groups keeps the stores canonical. -/
theorem NvsSt.putLog_wf {n : NvsSt} {a : Nat} {bs : List Byte} (h : Stores.wf n = true) : Stores.wf (n.putLog a bs) = true := by
  simp only [Stores.wf, Bool.and_eq_true] at h ⊢
  exact ⟨h.1, cellPut_wf _ _ h.2⟩

/-- Only the flash and the logbook count for the canonical form. -/
theorem Stores.wf_of {n m : NvsSt} (hf : m.flash = n.flash) (hl : m.log = n.log) (h : Stores.wf n = true) : Stores.wf m = true := by
  simp only [Stores.wf, Bool.and_eq_true] at h ⊢
  rwa [hf, hl]

theorem State.setWord_keeps {P : Nat} {r₀ : State} {s : State} {off : Nat} {w : Word} (hP : 4 ||| P = P) (hs : Keeps P r₀ s) :
    Keeps P r₀ (State.setWord s off w) := by
  unfold State.setWord
  exact hs.set_regs hP (cellSet_wf _ _)

theorem State.wr_keeps {P : Nat} {r₀ : State} {s : State} {f : Fld} {v : Nat} (hP : 4 ||| P = P) (hs : Keeps P r₀ s) :
    Keeps P r₀ (State.wr s f v) := by
  unfold State.wr
  try dsimp only
  repeat' (first
    | with_reducible assumption
    | intro _
    | with_reducible apply State.setWord_keeps)

theorem State.wrB_keeps {P : Nat} {r₀ : State} {s : State} {f : Fld} {b : Bool} (hP : 4 ||| P = P) (hs : Keeps P r₀ s) :
    Keeps P r₀ (State.wrB s f b) := by
  unfold State.wrB
  try dsimp only
  repeat' (first
    | with_reducible assumption
    | intro _
    | with_reducible apply State.wr_keeps)

theorem State.bump_keeps {P : Nat} {r₀ : State} {s : State} {f : Fld} {n : Nat} (hP : 4 ||| P = P) (hs : Keeps P r₀ s) :
    Keeps P r₀ (State.bump s f n) := by
  unfold State.bump
  try dsimp only
  repeat' (first
    | with_reducible assumption
    | intro _
    | with_reducible apply State.wr_keeps)

theorem State.setLive_keeps {P : Nat} {r₀ : State} {s : State} {off : Nat} {w : Word} (hP : 8 ||| P = P) (hs : Keeps P r₀ s) :
    Keeps P r₀ (State.setLive s off w) := by
  unfold State.setLive
  exact hs.set_live hP (cellSet_wf _ _)

theorem State.emit_keeps {P : Nat} {r₀ : State} {s : State} {o : Out} (hP : 1 ||| P = P) (hs : Keeps P r₀ s) :
    Keeps P r₀ (State.emit s o) := by
  unfold State.emit
  try dsimp only
  repeat' (first
    | with_reducible assumption
    | intro _
    | with_reducible apply Keeps.set_out)

theorem State.drawn_keeps {P : Nat} {r₀ : State} {s : State} {n : Nat} (hP : 2 ||| P = P) (hs : Keeps P r₀ s) :
    Keeps P r₀ (State.drawn s n) := by
  unfold State.drawn
  try dsimp only
  repeat' (first
    | with_reducible assumption
    | intro _
    | with_reducible apply Keeps.set_freeCtr)

theorem State.errLogWrite_keeps {P : Nat} {r₀ : State} {s : State} {src : Nat} {rt : Nat} {frame : Nat} (hP : 514 ||| P = P) (hs : Keeps P r₀ s) :
    Keeps P r₀ (State.errLogWrite s src rt frame) := by
  unfold State.errLogWrite
  try dsimp only
  repeat' (first
    | with_reducible assumption
    | (intro (_ : State); try dsimp only)
    | (intro _ (_ : Keeps _ _ _); try dsimp only)
    | exact fun hw => Stores.wf_of rfl rfl (NvsSt.putLog_wf hw)
    | exact rfl
    | with_reducible apply Keeps.set_freeCtr_nvs)

theorem State.errLog_keeps {P : Nat} {r₀ : State} {s : State} {src : Nat} (hP : 514 ||| P = P) (hs : Keeps P r₀ s) :
    Keeps P r₀ (State.errLog s src) := by
  unfold State.errLog
  try dsimp only
  repeat' (first
    | with_reducible assumption
    | (refine mask_mono ?_ hP; rfl)
    | (intro (_ : State); try dsimp only)
    | (intro _ (_ : Keeps _ _ _); try dsimp only)
    | with_reducible apply State.errLogWrite_keeps
    | with_reducible apply keeps_ite
    | exact fun hw => Stores.wf_of rfl rfl hw
    | exact rfl
    | split
    | with_reducible apply Keeps.set_nvs)

end Sys2Proof.Machine
end

