-- ==== Sys2Proof/Laws/Flags.lean ====
section
/-!
SUPPORT. What each operation of Machine/Flags.lean leaves alone (see Laws/Keeps.lean).
-/
namespace Sys2Proof.Machine

theorem State.signal_keeps {P : Nat} {r₀ : State} {s : State} {v : Nat} (hP : 65 ||| P = P) (hs : Keeps P r₀ s) :
    Keeps P r₀ (State.signal s v) := by
  unfold State.signal
  try dsimp only
  repeat' (first
    | with_reducible assumption
    | (intro (_ : State); try dsimp only)
    | (intro _ (_ : Keeps _ _ _); try dsimp only)
    | with_reducible apply keeps_ite
    | exact fun hm => hm
    | split
    | with_reducible apply Keeps.set_out_hif)

theorem State.evtWrite_keeps {P : Nat} {r₀ : State} {s : State} {src : Nat} {count : Nat} {frame : Nat} {rt : Nat} (hP : 101 ||| P = P) (hs : Keeps P r₀ s) :
    Keeps P r₀ (State.evtWrite s src count frame rt) := by
  unfold State.evtWrite
  try dsimp only
  repeat' (first
    | with_reducible assumption
    | (refine mask_mono ?_ hP; rfl)
    | intro _
    | with_reducible apply State.emit_keeps
    | with_reducible apply State.wr_keeps
    | with_reducible apply State.signal_keeps
    | with_reducible apply keeps_ite
    | split
    | with_reducible apply Keeps.set_evt)

theorem State.setEvtSrc_keeps {P : Nat} {r₀ : State} {s : State} {e : EvtSrc} (hP : 32 ||| P = P) (hs : Keeps P r₀ s) :
    Keeps P r₀ (State.setEvtSrc s e) := by
  unfold State.setEvtSrc
  try dsimp only
  repeat' (first
    | with_reducible assumption
    | intro _
    | with_reducible apply Keeps.set_evt)

theorem State.dropEvtSrc_keeps {P : Nat} {r₀ : State} {s : State} {src : Nat} (hP : 32 ||| P = P) (hs : Keeps P r₀ s) :
    Keeps P r₀ (State.dropEvtSrc s src) := by
  unfold State.dropEvtSrc
  try dsimp only
  repeat' (first
    | with_reducible assumption
    | intro _
    | with_reducible apply Keeps.set_evt)

theorem State.evtStart_keeps {P : Nat} {r₀ : State} {s : State} {src : Nat} (hP : 32 ||| P = P) (hs : Keeps P r₀ s) :
    Keeps P r₀ (State.evtStart s src) := by
  unfold State.evtStart
  try dsimp only
  repeat' (first
    | with_reducible assumption
    | intro _
    | with_reducible apply State.setEvtSrc_keeps
    | with_reducible apply keeps_ite)

theorem State.evtHold_keeps {P : Nat} {r₀ : State} {s : State} {h : HeldEvt} {running : Bool} (hP : 32 ||| P = P) (hs : Keeps P r₀ s) :
    Keeps P r₀ (State.evtHold s h running) := by
  unfold State.evtHold
  try dsimp only
  repeat' (first
    | with_reducible assumption
    | intro _
    | with_reducible apply State.setEvtSrc_keeps
    | with_reducible apply keeps_ite
    | split)

theorem State.evtStatus_keeps {P : Nat} {r₀ : State} {s : State} {src : Nat} (hP : 518 ||| P = P) (hs : Keeps P r₀ s) :
    Keeps P r₀ (State.evtStatus s src) := by
  unfold State.evtStatus
  try dsimp only
  repeat' (first
    | with_reducible assumption
    | (refine mask_mono ?_ hP; rfl)
    | intro _
    | with_reducible apply State.wr_keeps
    | with_reducible apply State.errLog_keeps)

theorem State.evtOccur_keeps {P : Nat} {r₀ : State} {s : State} {h : HeldEvt} {deliver : State → State} (hP : 32 ||| P = P) (hs : Keeps P r₀ s) (hf : ∀ s, Keeps P r₀ s → Keeps P r₀ (deliver s)) :
    Keeps P r₀ (State.evtOccur s h deliver) := by
  unfold State.evtOccur
  try dsimp only
  repeat' (first
    | with_reducible assumption
    | intro _
    | with_reducible apply State.evtHold_keeps
    | with_reducible apply State.evtStart_keeps
    | with_reducible apply keeps_ite
    | split
    | with_reducible apply hf)

theorem State.deliverVector_keeps {P : Nat} {r₀ : State} {s : State} {src : Nat} (hP : 65 ||| P = P) (hs : Keeps P r₀ s) :
    Keeps P r₀ (State.deliverVector s src) := by
  unfold State.deliverVector
  try dsimp only
  repeat' (first
    | with_reducible assumption
    | intro _
    | with_reducible apply State.signal_keeps)

theorem State.raiseOvf_keeps {P : Nat} {r₀ : State} {s : State} (hP : 615 ||| P = P) (hs : Keeps P r₀ s) :
    Keeps P r₀ (State.raiseOvf s) := by
  unfold State.raiseOvf
  try dsimp only
  repeat' (first
    | with_reducible assumption
    | (refine mask_mono ?_ hP; rfl)
    | (intro _; try dsimp only)
    | with_reducible apply State.evtStatus_keeps
    | with_reducible apply State.evtOccur_keeps
    | with_reducible apply State.deliverVector_keeps)

theorem State.deliver_keeps {P : Nat} {r₀ : State} {s : State} {src : Nat} {count : Nat} {frame : Nat} {rt : Nat} (hP : 615 ||| P = P) (hs : Keeps P r₀ s) :
    Keeps P r₀ (State.deliver s src count frame rt) := by
  unfold State.deliver
  try dsimp only
  repeat' (first
    | with_reducible assumption
    | (refine mask_mono ?_ hP; rfl)
    | intro _
    | with_reducible apply State.evtWrite_keeps
    | with_reducible apply State.bump_keeps
    | with_reducible apply State.wrB_keeps
    | with_reducible apply State.raiseOvf_keeps
    | with_reducible apply State.deliverVector_keeps
    | with_reducible apply keeps_ite
    | split
    | with_reducible apply Keeps.set_evt)

theorem State.occurNow_keeps {P : Nat} {r₀ : State} {s : State} {h : HeldEvt} (hP : 615 ||| P = P) (hs : Keeps P r₀ s) :
    Keeps P r₀ (State.occurNow s h) := by
  unfold State.occurNow
  try dsimp only
  repeat' (first
    | with_reducible assumption
    | (refine mask_mono ?_ hP; rfl)
    | (intro _; try dsimp only)
    | with_reducible apply State.evtOccur_keeps
    | with_reducible apply State.deliver_keeps)

theorem State.occurHeld_keeps {P : Nat} {r₀ : State} {s : State} {h : HeldEvt} (hP : 615 ||| P = P) (hs : Keeps P r₀ s) :
    Keeps P r₀ (State.occurHeld s h) := by
  unfold State.occurHeld
  try dsimp only
  repeat' (first
    | with_reducible assumption
    | (refine mask_mono ?_ hP; rfl)
    | intro _
    | with_reducible apply State.occurNow_keeps
    | split
    | with_reducible apply Keeps.set_evt)

theorem State.occur_keeps {P : Nat} {r₀ : State} {s : State} {src : Nat} (hP : 615 ||| P = P) (hs : Keeps P r₀ s) :
    Keeps P r₀ (State.occur s src) := by
  unfold State.occur
  try dsimp only
  repeat' (first
    | with_reducible assumption
    | intro _
    | with_reducible apply State.occurHeld_keeps
    | with_reducible apply keeps_ite)

theorem State.holdEvents_keeps {P : Nat} {r₀ : State} {s : State} (hP : 32 ||| P = P) (hs : Keeps P r₀ s) :
    Keeps P r₀ (State.holdEvents s) := by
  unfold State.holdEvents
  try dsimp only
  repeat' (first
    | with_reducible assumption
    | intro _
    | with_reducible apply Keeps.set_evt)

theorem State.releaseEvents_keeps {P : Nat} {r₀ : State} {s : State} (hP : 615 ||| P = P) (hs : Keeps P r₀ s) :
    Keeps P r₀ (State.releaseEvents s) := by
  unfold State.releaseEvents
  try dsimp only
  repeat' (first
    | with_reducible assumption
    | (refine mask_mono ?_ hP; rfl)
    | (intro _; try dsimp only)
    | with_reducible apply State.occurNow_keeps
    | with_reducible apply keeps_foldl
    | with_reducible apply Keeps.set_evt)

theorem State.raise_keeps {P : Nat} {r₀ : State} {s : State} {src : Nat} (hP : 615 ||| P = P) (hs : Keeps P r₀ s) :
    Keeps P r₀ (State.raise s src) := by
  unfold State.raise
  try dsimp only
  repeat' (first
    | with_reducible assumption
    | (refine mask_mono ?_ hP; rfl)
    | intro _
    | with_reducible apply State.evtStatus_keeps
    | with_reducible apply State.occur_keeps
    | with_reducible apply keeps_ite)

theorem State.raiseAll_keeps {P : Nat} {r s : State} {l : List Nat} (hP : 615 ||| P = P) (h : Keeps P r s) :
    Keeps P r (s.raiseAll l) := by
  induction l generalizing s with
  | nil => exact h
  | cons e es ih => exact ih (State.raise_keeps hP h)

end Sys2Proof.Machine
end

