-- ==== Sys2Proof/Laws/Ring.lean ====
section
/-!
SUPPORT. What each operation of Machine/Ring.lean leaves alone (see Laws/Keeps.lean).
-/
namespace Sys2Proof.Machine

theorem State.setRing_keeps {P : Nat} {r₀ : State} {s : State} {r : Ring} (hP : 64 ||| P = P) (hs : Keeps P r₀ s) :
    Keeps P r₀ (State.setRing s r) := by
  unfold State.setRing
  try dsimp only
  repeat' (first
    | with_reducible assumption
    | (intro (_ : State); try dsimp only)
    | (intro _ (_ : Keeps _ _ _); try dsimp only)
    | with_reducible apply keeps_ite
    | exact fun hm => hm
    | split
    | with_reducible apply Keeps.set_hif)

theorem State.modDesc_keeps {P : Nat} {r₀ : State} {s : State} {ring : Nat} {idx : Nat} {f : Desc → Desc} (hP : 64 ||| P = P) (hs : Keeps P r₀ s) :
    Keeps P r₀ (State.modDesc s ring idx f) := by
  unfold State.modDesc
  try dsimp only
  repeat' (first
    | with_reducible assumption
    | (intro (_ : State); try dsimp only)
    | (intro _ (_ : Keeps _ _ _); try dsimp only)
    | with_reducible apply keeps_ite
    | exact fun hm => hm
    | split
    | with_reducible apply hf
    | with_reducible apply Keeps.set_hif)

theorem State.complete_keeps {P : Nat} {r₀ : State} {s : State} {ring : Nat} {idx : Nat} {status : Nat} {info : Nat} {cflags : Nat} {evs : List Nat} (hP : 582 ||| P = P) (hs : Keeps P r₀ s) :
    Keeps P r₀ (State.complete s ring idx status info cflags evs) := by
  unfold State.complete
  try dsimp only
  repeat' (first
    | with_reducible assumption
    | (refine mask_mono ?_ hP; rfl)
    | (intro _; try dsimp only)
    | with_reducible apply State.evtStatus_keeps
    | with_reducible apply State.modDesc_keeps
    | with_reducible apply keeps_foldl)

theorem State.run_keeps {P : Nat} {r₀ : State} {s : State} {ring : Nat} {idx : Nat} (hP : 64 ||| P = P) (hs : Keeps P r₀ s) :
    Keeps P r₀ (State.run s ring idx) := by
  unfold State.run
  try dsimp only
  repeat' (first
    | with_reducible assumption
    | intro _
    | with_reducible apply State.modDesc_keeps)

theorem State.park_keeps {P : Nat} {r₀ : State} {s : State} {ring : Nat} {idx : Nat} (hP : 64 ||| P = P) (hs : Keeps P r₀ s) :
    Keeps P r₀ (State.park s ring idx) := by
  unfold State.park
  try dsimp only
  repeat' (first
    | with_reducible assumption
    | intro _
    | with_reducible apply State.modDesc_keeps)

theorem State.withOp_keeps {P : Nat} {r₀ : State} {s : State} {ring : Nat} {op : Nat} {checks : Ring → Desc → List (Bool × Nat)} {go : Ring → Desc → State → State} (hP : 582 ||| P = P) (hs : Keeps P r₀ s) (hf : ∀ x0 x1 s, Keeps P r₀ s → Keeps P r₀ (go x0 x1 s)) :
    Keeps P r₀ (State.withOp s ring op checks go) := by
  unfold State.withOp
  try dsimp only
  repeat' (first
    | with_reducible assumption
    | (refine mask_mono ?_ hP; rfl)
    | intro _
    | with_reducible apply State.complete_keeps
    | with_reducible apply State.run_keeps
    | split
    | with_reducible apply hf)

theorem State.acceptPi_keeps {P : Nat} {r₀ : State} {s : State} {ring : Nat} {pi : Nat} {ci : Nat} (hP : 615 ||| P = P) (hs : Keeps P r₀ s) :
    Keeps P r₀ (State.acceptPi s ring pi ci) := by
  unfold State.acceptPi
  try dsimp only
  repeat' (first
    | with_reducible assumption
    | (refine mask_mono ?_ hP; rfl)
    | intro _
    | with_reducible apply State.setRing_keeps
    | with_reducible apply State.raise_keeps
    | with_reducible apply keeps_ite
    | split)

theorem State.cplSignal_keeps {P : Nat} {r₀ : State} {s : State} {ring : Nat} (hP : 65 ||| P = P) (hs : Keeps P r₀ s) :
    Keeps P r₀ (State.cplSignal s ring) := by
  unfold State.cplSignal
  try dsimp only
  repeat' (first
    | with_reducible assumption
    | (refine mask_mono ?_ hP; rfl)
    | intro _
    | with_reducible apply State.signal_keeps
    | with_reducible apply State.setRing_keeps
    | with_reducible apply keeps_ite
    | split)

theorem State.finishDeletes_keeps {P : Nat} {r₀ : State} {s : State} (hP : 262726 ||| P = P) (hs : Keeps P r₀ s) :
    Keeps P r₀ (State.finishDeletes s) := by
  unfold State.finishDeletes
  try dsimp only
  repeat' (first
    | with_reducible assumption
    | (refine mask_mono ?_ hP; rfl)
    | (intro (_ : State); try dsimp only)
    | (intro _ (_ : Keeps _ _ _); try dsimp only)
    | with_reducible apply State.complete_keeps
    | with_reducible apply keeps_foldl
    | with_reducible apply keeps_ite
    | exact fun hm => hm
    | split
    | with_reducible apply Keeps.set_hif_enc)

theorem State.cplInterval_keeps {P : Nat} {r₀ : State} {s : State} {r : Ring} (hP : 32768 ||| P = P) (hs : Keeps P r₀ s) :
    Keeps P r₀ (State.cplInterval s r) := by
  unfold State.cplInterval
  try dsimp only
  repeat' (first
    | with_reducible assumption
    | intro _
    | with_reducible apply Keeps.set_dec)

theorem State.writeRecord_keeps {P : Nat} {r₀ : State} {s : State} {ring : Nat} (hP : 295527 ||| P = P) (hs : Keeps P r₀ s) :
    Keeps P r₀ (State.writeRecord s ring) := by
  unfold State.writeRecord
  try dsimp only
  repeat' (first
    | with_reducible assumption
    | (refine mask_mono ?_ hP; rfl)
    | (intro _; try dsimp only)
    | with_reducible apply State.emit_keeps
    | with_reducible apply State.cplInterval_keeps
    | with_reducible apply State.setRing_keeps
    | with_reducible apply State.cplSignal_keeps
    | with_reducible apply State.occurHeld_keeps
    | with_reducible apply State.finishDeletes_keeps
    | with_reducible apply keeps_foldl
    | with_reducible apply keeps_ite
    | split)

theorem State.retireHead_keeps {P : Nat} {r₀ : State} {s : State} {ring : Nat} (hP : 64 ||| P = P) (hs : Keeps P r₀ s) :
    Keeps P r₀ (State.retireHead s ring) := by
  unfold State.retireHead
  try dsimp only
  repeat' (first
    | with_reducible assumption
    | intro _
    | with_reducible apply State.setRing_keeps
    | with_reducible apply keeps_ite
    | split)

theorem State.pumpRing_keeps {P : Nat} {r₀ : State} {s : State} {ring : Nat} (hP : 295527 ||| P = P) (hs : Keeps P r₀ s) :
    Keeps P r₀ (State.pumpRing s ring) := by
  unfold State.pumpRing
  try dsimp only
  repeat' (first
    | with_reducible assumption
    | (refine mask_mono ?_ hP; rfl)
    | (intro _; try dsimp only)
    | with_reducible apply State.retireHead_keeps
    | with_reducible apply State.writeRecord_keeps
    | with_reducible apply keeps_foldl
    | split)

end Sys2Proof.Machine
end

