-- ==== Sys2Proof/Laws/Evt.lean ====
section
/-!
SUPPORT. What each operation of Machine/Evt.lean leaves alone (see Laws/Keeps.lean).
-/
namespace Sys2Proof.Machine

theorem State.deliverNow_keeps {P : Nat} {r₀ : State} {s : State} {src : Nat} {count : Nat} {frame : Nat} {rt : Nat} (hP : 615 ||| P = P) (hs : Keeps P r₀ s) :
    Keeps P r₀ (State.deliverNow s src count frame rt) := by
  unfold State.deliverNow
  try dsimp only
  repeat' (first
    | with_reducible assumption
    | (refine mask_mono ?_ hP; rfl)
    | intro _
    | with_reducible apply State.dropEvtSrc_keeps
    | with_reducible apply State.deliver_keeps
    | with_reducible apply State.evtStart_keeps)

theorem State.dropHeldEvt_keeps {P : Nat} {r₀ : State} {s : State} {src : Nat} (hP : 64 ||| P = P) (hs : Keeps P r₀ s) :
    Keeps P r₀ (State.dropHeldEvt s src) := by
  unfold State.dropHeldEvt
  try dsimp only
  repeat' (first
    | with_reducible assumption
    | (intro (_ : State); try dsimp only)
    | (intro _ (_ : Keeps _ _ _); try dsimp only)
    | exact fun hm => hm
    | split
    | with_reducible apply Keeps.set_hif)

theorem State.evtEnableBit_keeps {P : Nat} {r₀ : State} {s : State} {src : Nat} {old : Bool} {new : Bool} (hP : 615 ||| P = P) (hs : Keeps P r₀ s) :
    Keeps P r₀ (State.evtEnableBit s src old new) := by
  unfold State.evtEnableBit
  try dsimp only
  repeat' (first
    | with_reducible assumption
    | (refine mask_mono ?_ hP; rfl)
    | intro _
    | with_reducible apply State.dropEvtSrc_keeps
    | with_reducible apply State.dropHeldEvt_keeps
    | with_reducible apply State.deliverNow_keeps
    | with_reducible apply keeps_ite)

theorem State.writeEvtEnable_keeps {P : Nat} {r₀ : State} {s : State} {g : Nat} {val : Word} (hP : 615 ||| P = P) (hs : Keeps P r₀ s) :
    Keeps P r₀ (State.writeEvtEnable s g val) := by
  unfold State.writeEvtEnable
  try dsimp only
  repeat' (first
    | with_reducible assumption
    | (refine mask_mono ?_ hP; rfl)
    | (intro _; try dsimp only)
    | with_reducible apply State.evtEnableBit_keeps
    | with_reducible apply State.setWord_keeps
    | with_reducible apply keeps_foldl)

theorem State.coalesceExpire_keeps {P : Nat} {r₀ : State} {s : State} {src : Nat} (hP : 615 ||| P = P) (hs : Keeps P r₀ s) :
    Keeps P r₀ (State.coalesceExpire s src) := by
  unfold State.coalesceExpire
  try dsimp only
  repeat' (first
    | with_reducible assumption
    | (refine mask_mono ?_ hP; rfl)
    | intro _
    | with_reducible apply State.dropEvtSrc_keeps
    | with_reducible apply State.deliverNow_keeps
    | with_reducible apply State.setEvtSrc_keeps
    | with_reducible apply keeps_ite
    | split)

theorem State.deliverHeld_keeps {P : Nat} {r₀ : State} {s : State} (hP : 615 ||| P = P) (hs : Keeps P r₀ s) :
    Keeps P r₀ (State.deliverHeld s) := by
  unfold State.deliverHeld
  try dsimp only
  repeat' (first
    | with_reducible assumption
    | (intro _; try dsimp only)
    | with_reducible apply State.deliverNow_keeps
    | with_reducible apply keeps_foldl)

theorem State.setEvtRing_keeps {P : Nat} {r₀ : State} {s : State} {base : Nat} {log2 : Nat} {vec : Nat} (hP : 36 ||| P = P) (hs : Keeps P r₀ s) :
    Keeps P r₀ (State.setEvtRing s base log2 vec) := by
  unfold State.setEvtRing
  try dsimp only
  repeat' (first
    | with_reducible assumption
    | (refine mask_mono ?_ hP; rfl)
    | intro _
    | with_reducible apply State.wrB_keeps
    | with_reducible apply State.wr_keeps
    | with_reducible apply keeps_ite
    | split
    | with_reducible apply Keeps.set_evt)

theorem State.opEvtRing_keeps {P : Nat} {r₀ : State} {s : State} {ring : Nat} (hP : 614 ||| P = P) (hs : Keeps P r₀ s) :
    Keeps P r₀ (State.opEvtRing s ring) := by
  unfold State.opEvtRing
  try dsimp only
  repeat' (first
    | with_reducible assumption
    | (refine mask_mono ?_ hP; rfl)
    | (intro _; try dsimp only)
    | with_reducible apply State.withOp_keeps
    | with_reducible apply State.setEvtRing_keeps
    | with_reducible apply State.complete_keeps)

theorem State.writeMsix_keeps {P : Nat} {r₀ : State} {s : State} {off : Nat} {val : Word} (hP : 65 ||| P = P) (hs : Keeps P r₀ s) :
    Keeps P r₀ (State.writeMsix s off val) := by
  unfold State.writeMsix
  try dsimp only
  repeat' (first
    | with_reducible assumption
    | (refine mask_mono ?_ hP; rfl)
    | (intro (_ : State); try dsimp only)
    | (intro _ (_ : Keeps _ _ _); try dsimp only)
    | with_reducible apply State.emit_keeps
    | with_reducible apply keeps_ite
    | exact Tables.wf_setMsix _ _
    | exact fun hm => hm
    | exact cellSet_wf _ _
    | split
    | with_reducible apply Keeps.set_hif)

end Sys2Proof.Machine
end

