-- ==== Sys2Proof/Laws/Hif.lean ====
section
/-!
SUPPORT. What each operation of Machine/Hif.lean leaves alone (see Laws/Keeps.lean).
-/
namespace Sys2Proof.Machine

theorem State.linkTrain_keeps {P : Nat} {r₀ : State} {s : State} {cxl : Bool} {width : Nat} {gts : Nat} (hP : 615 ||| P = P) (hs : Keeps P r₀ s) :
    Keeps P r₀ (State.linkTrain s cxl width gts) := by
  unfold State.linkTrain
  try dsimp only
  repeat' (first
    | with_reducible assumption
    | (refine mask_mono ?_ hP; rfl)
    | (intro (_ : State); try dsimp only)
    | (intro _ (_ : Keeps _ _ _); try dsimp only)
    | with_reducible apply State.wrB_keeps
    | with_reducible apply State.raise_keeps
    | with_reducible apply keeps_ite
    | exact fun hm => hm
    | split
    | with_reducible apply Keeps.set_hif)

theorem State.writeCxl_keeps {P : Nat} {r₀ : State} {s : State} {off : Nat} {val : Word} (hP : 64 ||| P = P) (hs : Keeps P r₀ s) :
    Keeps P r₀ (State.writeCxl s off val) := by
  unfold State.writeCxl
  try dsimp only
  repeat' (first
    | with_reducible assumption
    | (intro (_ : State); try dsimp only)
    | (intro _ (_ : Keeps _ _ _); try dsimp only)
    | exact Tables.wf_setCxl _ _
    | exact fun hm => hm
    | exact cellSet_wf _ _
    | split
    | with_reducible apply Keeps.set_hif)

theorem State.checkFeatures_keeps {P : Nat} {r₀ : State} {s : State} (hP : 615 ||| P = P) (hs : Keeps P r₀ s) :
    Keeps P r₀ (State.checkFeatures s) := by
  unfold State.checkFeatures
  try dsimp only
  repeat' (first
    | with_reducible assumption
    | (refine mask_mono ?_ hP; rfl)
    | intro _
    | with_reducible apply State.wrB_keeps
    | with_reducible apply State.wr_keeps
    | with_reducible apply State.raise_keeps
    | with_reducible apply keeps_ite)

theorem State.setFeaturesOk_keeps {P : Nat} {r₀ : State} {s : State} (hP : 615 ||| P = P) (hs : Keeps P r₀ s) :
    Keeps P r₀ (State.setFeaturesOk s) := by
  unfold State.setFeaturesOk
  try dsimp only
  repeat' (first
    | with_reducible assumption
    | intro _
    | with_reducible apply State.checkFeatures_keeps
    | with_reducible apply keeps_ite)

theorem State.readLine_keeps {P : Nat} {r₀ : State} {s : State} {ring : Nat} {pi : Nat} {ci : Nat} (hP : 615 ||| P = P) (hs : Keeps P r₀ s) :
    Keeps P r₀ (State.readLine s ring pi ci) := by
  unfold State.readLine
  try dsimp only
  repeat' (first
    | with_reducible assumption
    | (refine mask_mono ?_ hP; rfl)
    | intro _
    | with_reducible apply State.emit_keeps
    | with_reducible apply State.setRing_keeps
    | with_reducible apply State.acceptPi_keeps
    | with_reducible apply keeps_ite
    | split)

theorem State.addRing_keeps {P : Nat} {r₀ : State} {s : State} {r : Ring} {pi : Nat} {ci : Nat} (hP : 615 ||| P = P) (hs : Keeps P r₀ s) :
    Keeps P r₀ (State.addRing s r pi ci) := by
  unfold State.addRing
  try dsimp only
  repeat' (first
    | with_reducible assumption
    | (refine mask_mono ?_ hP; rfl)
    | (intro (_ : State); try dsimp only)
    | (intro _ (_ : Keeps _ _ _); try dsimp only)
    | with_reducible apply State.wr_keeps
    | with_reducible apply State.readLine_keeps
    | with_reducible apply keeps_ite
    | exact fun hm => hm
    | split
    | with_reducible apply Keeps.set_hif)

theorem State.startRing0_keeps {P : Nat} {r₀ : State} {s : State} {feats : Nat} {pi : Nat} {ci : Nat} (hP : 615 ||| P = P) (hs : Keeps P r₀ s) :
    Keeps P r₀ (State.startRing0 s feats pi ci) := by
  unfold State.startRing0
  try dsimp only
  repeat' (first
    | with_reducible assumption
    | (refine mask_mono ?_ hP; rfl)
    | (intro (_ : State); try dsimp only)
    | (intro _ (_ : Keeps _ _ _); try dsimp only)
    | with_reducible apply State.wrB_keeps
    | with_reducible apply State.wr_keeps
    | with_reducible apply State.addRing_keeps
    | exact fun hm => hm
    | split
    | with_reducible apply Keeps.set_hif)

theorem State.tryRing0_keeps {P : Nat} {r₀ : State} {s : State} {feats : Nat} {pi : Nat} {ci : Nat} (hP : 615 ||| P = P) (hs : Keeps P r₀ s) :
    Keeps P r₀ (State.tryRing0 s feats pi ci) := by
  unfold State.tryRing0
  try dsimp only
  repeat' (first
    | with_reducible assumption
    | (refine mask_mono ?_ hP; rfl)
    | intro _
    | with_reducible apply State.startRing0_keeps
    | with_reducible apply State.wrB_keeps
    | with_reducible apply State.wr_keeps
    | with_reducible apply State.raise_keeps
    | with_reducible apply keeps_ite)

theorem State.enableRing0_keeps {P : Nat} {r₀ : State} {s : State} {features : Bool} {pi : Nat} {ci : Nat} (hP : 615 ||| P = P) (hs : Keeps P r₀ s) :
    Keeps P r₀ (State.enableRing0 s features pi ci) := by
  unfold State.enableRing0
  try dsimp only
  repeat' (first
    | with_reducible assumption
    | (refine mask_mono ?_ hP; rfl)
    | intro _
    | with_reducible apply State.setFeaturesOk_keeps
    | with_reducible apply State.tryRing0_keeps
    | with_reducible apply State.wr_keeps
    | with_reducible apply State.raise_keeps
    | with_reducible apply State.wrB_keeps
    | with_reducible apply keeps_ite)

theorem State.writeDbSq_keeps {P : Nat} {r₀ : State} {s : State} {ring : Nat} {val : Word} (hP : 615 ||| P = P) (hs : Keeps P r₀ s) :
    Keeps P r₀ (State.writeDbSq s ring val) := by
  unfold State.writeDbSq
  try dsimp only
  repeat' (first
    | with_reducible assumption
    | (refine mask_mono ?_ hP; rfl)
    | intro _
    | with_reducible apply State.setWord_keeps
    | with_reducible apply State.acceptPi_keeps
    | with_reducible apply keeps_ite
    | split)

theorem State.writeDbCq_keeps {P : Nat} {r₀ : State} {s : State} {ring : Nat} {val : Word} (hP : 68 ||| P = P) (hs : Keeps P r₀ s) :
    Keeps P r₀ (State.writeDbCq s ring val) := by
  unfold State.writeDbCq
  try dsimp only
  repeat' (first
    | with_reducible assumption
    | (refine mask_mono ?_ hP; rfl)
    | intro _
    | with_reducible apply State.setWord_keeps
    | with_reducible apply State.setRing_keeps
    | with_reducible apply keeps_ite
    | split)

theorem State.rereadDoorbells_keeps {P : Nat} {r₀ : State} {s : State} (hP : 615 ||| P = P) (hs : Keeps P r₀ s) :
    Keeps P r₀ (State.rereadDoorbells s) := by
  unfold State.rereadDoorbells
  try dsimp only
  repeat' (first
    | with_reducible assumption
    | (refine mask_mono ?_ hP; rfl)
    | (intro _; try dsimp only)
    | with_reducible apply State.acceptPi_keeps
    | with_reducible apply State.setRing_keeps
    | with_reducible apply keeps_foldl
    | with_reducible apply keeps_ite
    | split)

theorem State.releaseLines_keeps {P : Nat} {r₀ : State} {s : State} {keep : Nat → Bool} (hP : 64 ||| P = P) (hs : Keeps P r₀ s) :
    Keeps P r₀ (State.releaseLines s keep) := by
  unfold State.releaseLines
  try dsimp only
  repeat' (first
    | with_reducible assumption
    | (intro (_ : State); try dsimp only)
    | (intro _ (_ : Keeps _ _ _); try dsimp only)
    | with_reducible apply keeps_ite
    | exact fun hm => hm
    | split
    | with_reducible apply hf
    | with_reducible apply Keeps.set_hif)

theorem State.fetchDesc_keeps {P : Nat} {r₀ : State} {s : State} {r : Ring} {bytes : List Byte} (hP : 65 ||| P = P) (hs : Keeps P r₀ s) :
    Keeps P r₀ (State.fetchDesc s r bytes) := by
  unfold State.fetchDesc
  try dsimp only
  repeat' (first
    | with_reducible assumption
    | (refine mask_mono ?_ hP; rfl)
    | intro _
    | with_reducible apply State.emit_keeps
    | with_reducible apply State.setRing_keeps)

theorem State.refuseUnknown_keeps {P : Nat} {r₀ : State} {s : State} {ring : Nat} (hP : 582 ||| P = P) (hs : Keeps P r₀ s) :
    Keeps P r₀ (State.refuseUnknown s ring) := by
  unfold State.refuseUnknown
  try dsimp only
  repeat' (first
    | with_reducible assumption
    | intro _
    | with_reducible apply State.complete_keeps
    | with_reducible apply keeps_ite
    | split)

theorem State.opCreateRing_keeps {P : Nat} {r₀ : State} {s : State} {ring : Nat} {pi : Nat} {ci : Nat} (hP : 615 ||| P = P) (hs : Keeps P r₀ s) :
    Keeps P r₀ (State.opCreateRing s ring pi ci) := by
  unfold State.opCreateRing
  try dsimp only
  repeat' (first
    | with_reducible assumption
    | (refine mask_mono ?_ hP; rfl)
    | (intro _; try dsimp only)
    | with_reducible apply State.withOp_keeps
    | with_reducible apply State.addRing_keeps
    | with_reducible apply State.complete_keeps)

theorem State.beginAbort_keeps {P : Nat} {r₀ : State} {s : State} {op : AbortOp} (hP : 64 ||| P = P) (hs : Keeps P r₀ s) :
    Keeps P r₀ (State.beginAbort s op) := by
  unfold State.beginAbort
  try dsimp only
  repeat' (first
    | with_reducible assumption
    | (intro (_ : State); try dsimp only)
    | (intro _ (_ : Keeps _ _ _); try dsimp only)
    | exact fun hm => hm
    | split
    | with_reducible apply Keeps.set_hif)

theorem State.hifAbortEnd_keeps {P : Nat} {r₀ : State} {s : State} {count : Nat} (hP : 615 ||| P = P) (hs : Keeps P r₀ s) :
    Keeps P r₀ (State.hifAbortEnd s count) := by
  unfold State.hifAbortEnd
  try dsimp only
  repeat' (first
    | with_reducible assumption
    | (refine mask_mono ?_ hP; rfl)
    | intro _
    | with_reducible apply State.wrB_keeps
    | with_reducible apply State.wr_keeps
    | with_reducible apply State.raise_keeps)

theorem State.startHifAbort_keeps {P : Nat} {r₀ : State} {s : State} {ring : Nat} {all : Bool} (hP : 615 ||| P = P) (hs : Keeps P r₀ s) :
    Keeps P r₀ (State.startHifAbort s ring all) := by
  unfold State.startHifAbort
  try dsimp only
  repeat' (first
    | with_reducible assumption
    | (refine mask_mono ?_ hP; rfl)
    | intro _
    | with_reducible apply State.wr_keeps
    | with_reducible apply State.wrB_keeps
    | with_reducible apply State.hifAbortEnd_keeps
    | with_reducible apply State.beginAbort_keeps
    | with_reducible apply keeps_ite)

theorem State.writeShadow_keeps {P : Nat} {r₀ : State} {s : State} {off : Nat} {val : Word} (hP : 4 ||| P = P) (hs : Keeps P r₀ s) :
    Keeps P r₀ (State.writeShadow s off val) := by
  unfold State.writeShadow
  try dsimp only
  repeat' (first
    | with_reducible assumption
    | intro _
    | with_reducible apply State.setWord_keeps)

theorem State.opShadowWrite_keeps {P : Nat} {r₀ : State} {s : State} {ring : Nat} (hP : 582 ||| P = P) (hs : Keeps P r₀ s) :
    Keeps P r₀ (State.opShadowWrite s ring) := by
  unfold State.opShadowWrite
  try dsimp only
  repeat' (first
    | with_reducible assumption
    | (refine mask_mono ?_ hP; rfl)
    | (intro _; try dsimp only)
    | with_reducible apply State.withOp_keeps
    | with_reducible apply State.writeShadow_keeps
    | with_reducible apply State.complete_keeps
    | with_reducible apply keeps_foldl)

end Sys2Proof.Machine
end

