-- ==== Sys2Proof/Laws/Mem.lean ====
section
/-!
SUPPORT. What each operation of Machine/Mem.lean leaves alone (see Laws/Keeps.lean).
-/
namespace Sys2Proof.Machine

/-- Only the stored bytes count for the canonical form of memory. -/
theorem Memory.wf_of {m n : MemSt} (hd : n.data = m.data) (hc : n.check = m.check) (h : Memory.wf m = true) : Memory.wf n = true := by
  simp only [Memory.wf, Bool.and_eq_true] at h ⊢
  rwa [hd, hc]

theorem MemSt.putSymbol_wf {m : MemSt} {sec i : Nat} {b : Byte} (h : Memory.wf m = true) : Memory.wf (m.putSymbol sec i b) = true := by
  simp only [Memory.wf, Bool.and_eq_true] at h
  unfold MemSt.putSymbol
  simp only [Memory.wf, Bool.and_eq_true]
  split
  · exact ⟨cellSet_wf _ _ h.1, h.2⟩
  · exact ⟨h.1, cellSet_wf _ _ h.2⟩

theorem MemSt.putSector_wf {m : MemSt} {sec : Nat} {data : List Byte} {check : List Nat} (h : Memory.wf m = true) :
    Memory.wf (m.putSector sec data check) = true := by
  simp only [Memory.wf, Bool.and_eq_true] at h
  simp only [Memory.wf, Bool.and_eq_true]
  exact ⟨cellPut_wf _ _ h.1, cellPut_wf _ _ h.2⟩

theorem MemSt.storeSector_wf {m : MemSt} {sec : Nat} {data : List Byte} (h : Memory.wf m = true) :
    Memory.wf (m.storeSector sec data) = true := MemSt.putSector_wf h

theorem MemSt.poisonSector_wf {m : MemSt} {sec : Nat} (h : Memory.wf m = true) : Memory.wf (m.poisonSector sec) = true :=
  MemSt.putSector_wf h

theorem MemSt.correct_wf {m : MemSt} {sec pos err : Nat} (h : Memory.wf m = true) : Memory.wf (m.correct sec pos err) = true :=
  MemSt.putSymbol_wf h

theorem MemSt.upset_wf {m : MemSt} {u : Upset} (h : Memory.wf m = true) : Memory.wf (m.upset u) = true := by
  unfold MemSt.upset
  split
  · exact MemSt.putSymbol_wf h
  · exact h

theorem MemSt.upsets_wf {m : MemSt} {us : List Upset} (h : Memory.wf m = true) : Memory.wf (us.foldl MemSt.upset m) = true := by
  induction us generalizing m with
  | nil => exact h
  | cons u us ih => exact ih (MemSt.upset_wf h)

theorem MemSt.clearPair_wf {m : MemSt} {j : Nat} (h : Memory.wf m = true) : Memory.wf (m.clearPair j) = true := by
  simp only [Memory.wf, Bool.and_eq_true] at h
  simp only [Memory.wf, Bool.and_eq_true]
  exact ⟨cellClear_wf _ _ h.1, cellClear_wf _ _ h.2⟩

theorem MemSt.clearPairs_wf {m : MemSt} {js : List Nat} (h : Memory.wf m = true) :
    Memory.wf (js.foldl MemSt.clearPair m) = true := by
  induction js generalizing m with
  | nil => exact h
  | cons j js ih => exact ih (MemSt.clearPair_wf h)

theorem State.modMem_keeps {P : Nat} {r₀ s : State} {f : MemSt → MemSt} (hP : 128 ||| P = P) (hs : Keeps P r₀ s)
    (hw : Memory.wf s.mem = true → Memory.wf (f s.mem) = true) : Keeps P r₀ (s.modMem f) :=
  hs.set_mem hP hw

theorem State.account_keeps {P : Nat} {r₀ : State} {s : State} {c : MemClass} {n : Nat} (hP : 128 ||| P = P) (hs : Keeps P r₀ s) :
    Keeps P r₀ (State.account s c n) := by
  unfold State.account
  try dsimp only
  repeat' (first
    | with_reducible assumption
    | (intro (_ : State); try dsimp only)
    | (intro _ (_ : Keeps _ _ _); try dsimp only)
    | with_reducible apply State.modMem_keeps
    | (intro (_ : Memory.wf _ = true); try dsimp only)
    | with_reducible apply MemSt.storeSector_wf
    | exact Memory.wf_of rfl rfl (by assumption))

theorem State.countCorr_keeps {P : Nat} {r₀ : State} {s : State} (hP : 615 ||| P = P) (hs : Keeps P r₀ s) :
    Keeps P r₀ (State.countCorr s) := by
  unfold State.countCorr
  try dsimp only
  repeat' (first
    | with_reducible assumption
    | (refine mask_mono ?_ hP; rfl)
    | intro _
    | with_reducible apply State.bump_keeps
    | with_reducible apply State.raise_keeps
    | with_reducible apply keeps_ite)

theorem State.poison_keeps {P : Nat} {r₀ : State} {s : State} {c : MemClass} {sec : Nat} (hP : 743 ||| P = P) (hs : Keeps P r₀ s) :
    Keeps P r₀ (State.poison s c sec) := by
  unfold State.poison
  try dsimp only
  repeat' (first
    | with_reducible assumption
    | (refine mask_mono ?_ hP; rfl)
    | (intro (_ : State); try dsimp only)
    | (intro _ (_ : Keeps _ _ _); try dsimp only)
    | with_reducible apply State.modMem_keeps
    | with_reducible apply State.bump_keeps
    | with_reducible apply State.wrB_keeps
    | with_reducible apply State.wr_keeps
    | with_reducible apply State.raise_keeps
    | with_reducible apply keeps_ite
    | (intro (_ : Memory.wf _ = true); try dsimp only)
    | with_reducible apply MemSt.storeSector_wf
    | with_reducible apply MemSt.poisonSector_wf)

theorem State.touchSector_keeps {P : Nat} {r₀ : State} {s : State} {c : MemClass} {sec : Nat} (hP : 743 ||| P = P) (hs : Keeps P r₀ s) :
    Keeps P r₀ (State.touchSector s c sec) := by
  unfold State.touchSector
  try dsimp only
  repeat' (first
    | with_reducible assumption
    | (refine mask_mono ?_ hP; rfl)
    | (intro (_ : State); try dsimp only)
    | (intro _ (_ : Keeps _ _ _); try dsimp only)
    | with_reducible apply State.bump_keeps
    | with_reducible apply State.modMem_keeps
    | with_reducible apply State.countCorr_keeps
    | with_reducible apply State.poison_keeps
    | (intro (_ : Memory.wf _ = true); try dsimp only)
    | with_reducible apply MemSt.storeSector_wf
    | with_reducible apply MemSt.correct_wf
    | exact Memory.wf_of rfl rfl (by assumption)
    | split)

theorem State.touch_keeps {P : Nat} {r₀ : State} {s : State} {c : MemClass} {a : Nat} {n : Nat} (hP : 743 ||| P = P) (hs : Keeps P r₀ s) :
    Keeps P r₀ (State.touch s c a n) := by
  unfold State.touch
  try dsimp only
  repeat' (first
    | with_reducible assumption
    | (refine mask_mono ?_ hP; rfl)
    | (intro _; try dsimp only)
    | with_reducible apply State.touchSector_keeps
    | with_reducible apply State.account_keeps
    | with_reducible apply keeps_foldl)

theorem State.windowMiss_keeps {P : Nat} {r₀ : State} {s : State} {e : Engine} (hP : 743 ||| P = P) (hs : Keeps P r₀ s) :
    Keeps P r₀ (State.windowMiss s e) := by
  unfold State.windowMiss
  try dsimp only
  repeat' (first
    | with_reducible assumption
    | (refine mask_mono ?_ hP; rfl)
    | (intro (_ : State); try dsimp only)
    | (intro _ (_ : Keeps _ _ _); try dsimp only)
    | with_reducible apply State.bump_keeps
    | with_reducible apply State.modMem_keeps
    | with_reducible apply State.raise_keeps
    | with_reducible apply keeps_ite
    | (intro (_ : Memory.wf _ = true); try dsimp only)
    | with_reducible apply MemSt.storeSector_wf
    | exact Memory.wf_of rfl rfl (by assumption))

theorem State.readFor_keeps {P : Nat} {r₀ : State} {s : State} {c : MemClass} {e : Engine} {a : Nat} {n : Nat} (hP : 743 ||| P = P) (hs : Keeps P r₀ s) :
    Keeps P r₀ (State.readFor s c e a n) := by
  unfold State.readFor
  try dsimp only
  repeat' (first
    | with_reducible assumption
    | (refine mask_mono ?_ hP; rfl)
    | (intro _; try dsimp only)
    | with_reducible apply State.touchSector_keeps
    | with_reducible apply State.account_keeps
    | with_reducible apply State.windowMiss_keeps
    | with_reducible apply keeps_foldl
    | with_reducible apply keeps_ite)

theorem State.mergeSector_keeps {P : Nat} {r₀ : State} {s : State} {c : MemClass} {sec : Nat} {o : Nat} {bs : List Byte} (hP : 743 ||| P = P) (hs : Keeps P r₀ s) :
    Keeps P r₀ (State.mergeSector s c sec o bs) := by
  unfold State.mergeSector
  try dsimp only
  repeat' (first
    | with_reducible assumption
    | (refine mask_mono ?_ hP; rfl)
    | (intro (_ : State); try dsimp only)
    | (intro _ (_ : Keeps _ _ _); try dsimp only)
    | with_reducible apply State.modMem_keeps
    | with_reducible apply State.countCorr_keeps
    | with_reducible apply State.raise_keeps
    | with_reducible apply State.poison_keeps
    | (intro (_ : Memory.wf _ = true); try dsimp only)
    | with_reducible apply MemSt.storeSector_wf
    | with_reducible apply MemSt.correct_wf
    | exact Memory.wf_of rfl rfl (by assumption)
    | split)

theorem State.writeSector_keeps {P : Nat} {r₀ : State} {s : State} {c : MemClass} {sec : Nat} {p : Nat × List Byte} (hP : 743 ||| P = P) (hs : Keeps P r₀ s) :
    Keeps P r₀ (State.writeSector s c sec p) := by
  unfold State.writeSector
  try dsimp only
  repeat' (first
    | with_reducible assumption
    | (refine mask_mono ?_ hP; rfl)
    | (intro (_ : State); try dsimp only)
    | (intro _ (_ : Keeps _ _ _); try dsimp only)
    | with_reducible apply State.modMem_keeps
    | with_reducible apply State.mergeSector_keeps
    | with_reducible apply keeps_ite
    | (intro (_ : Memory.wf _ = true); try dsimp only)
    | with_reducible apply MemSt.storeSector_wf)

theorem State.store_keeps {P : Nat} {r₀ : State} {s : State} {c : MemClass} {a : Nat} {bs : List Byte} (hP : 743 ||| P = P) (hs : Keeps P r₀ s) :
    Keeps P r₀ (State.store s c a bs) := by
  unfold State.store
  try dsimp only
  repeat' (first
    | with_reducible assumption
    | (refine mask_mono ?_ hP; rfl)
    | (intro _; try dsimp only)
    | with_reducible apply State.writeSector_keeps
    | with_reducible apply State.account_keeps
    | with_reducible apply keeps_foldl)

theorem State.writeFor_keeps {P : Nat} {r₀ : State} {s : State} {c : MemClass} {e : Engine} {a : Nat} {bs : List Byte} (hP : 743 ||| P = P) (hs : Keeps P r₀ s) :
    Keeps P r₀ (State.writeFor s c e a bs) := by
  unfold State.writeFor
  try dsimp only
  repeat' (first
    | with_reducible assumption
    | (refine mask_mono ?_ hP; rfl)
    | (intro _; try dsimp only)
    | with_reducible apply State.writeSector_keeps
    | with_reducible apply State.account_keeps
    | with_reducible apply State.windowMiss_keeps
    | with_reducible apply keeps_foldl
    | with_reducible apply keeps_ite)

theorem State.cxlReadLine_keeps {P : Nat} {r₀ : State} {s : State} {a : Nat} (hP : 743 ||| P = P) (hs : Keeps P r₀ s) :
    Keeps P r₀ (State.cxlReadLine s a) := by
  unfold State.cxlReadLine
  try dsimp only
  repeat' (first
    | with_reducible assumption
    | (refine mask_mono ?_ hP; rfl)
    | intro _
    | with_reducible apply State.emit_keeps
    | with_reducible apply State.drawn_keeps
    | with_reducible apply State.touch_keeps
    | with_reducible apply keeps_ite)

theorem State.cxlWriteLine_keeps {P : Nat} {r₀ : State} {s : State} {a : Nat} {bs : List Byte} (hP : 743 ||| P = P) (hs : Keeps P r₀ s) :
    Keeps P r₀ (State.cxlWriteLine s a bs) := by
  unfold State.cxlWriteLine
  try dsimp only
  repeat' (first
    | with_reducible assumption
    | intro _
    | with_reducible apply State.store_keeps
    | with_reducible apply keeps_ite)

theorem State.writeAffine_keeps {P : Nat} {r₀ : State} {s : State} {val : Word} (hP : 132 ||| P = P) (hs : Keeps P r₀ s) :
    Keeps P r₀ (State.writeAffine s val) := by
  unfold State.writeAffine
  try dsimp only
  repeat' (first
    | with_reducible assumption
    | (refine mask_mono ?_ hP; rfl)
    | (intro (_ : State); try dsimp only)
    | (intro _ (_ : Keeps _ _ _); try dsimp only)
    | with_reducible apply State.wr_keeps
    | with_reducible apply State.modMem_keeps
    | with_reducible apply keeps_foldl
    | with_reducible apply keeps_ite
    | (intro (_ : Memory.wf _ = true); try dsimp only)
    | with_reducible apply MemSt.storeSector_wf
    | with_reducible apply MemSt.clearPair_wf
    | with_reducible apply MemSt.clearPairs_wf
    | exact Memory.wf_of rfl rfl (by assumption)
    | exact Memory.wf_of rfl rfl (MemSt.clearPairs_wf (by assumption)))

theorem State.pairDone_keeps {P : Nat} {r₀ : State} {s : State} (hP : 743 ||| P = P) (hs : Keeps P r₀ s) :
    Keeps P r₀ (State.pairDone s) := by
  unfold State.pairDone
  try dsimp only
  repeat' (first
    | with_reducible assumption
    | (refine mask_mono ?_ hP; rfl)
    | (intro (_ : State); try dsimp only)
    | (intro _ (_ : Keeps _ _ _); try dsimp only)
    | with_reducible apply State.modMem_keeps
    | with_reducible apply State.raise_keeps
    | with_reducible apply keeps_ite
    | (intro (_ : Memory.wf _ = true); try dsimp only)
    | with_reducible apply MemSt.storeSector_wf
    | exact Memory.wf_of rfl rfl (by assumption)
    | split)

theorem State.scrub_keeps {P : Nat} {r₀ : State} {s : State} {upsets : List Upset} (hP : 743 ||| P = P) (hs : Keeps P r₀ s) :
    Keeps P r₀ (State.scrub s upsets) := by
  unfold State.scrub
  try dsimp only
  repeat' (first
    | with_reducible assumption
    | (refine mask_mono ?_ hP; rfl)
    | (intro (_ : State); try dsimp only)
    | (intro _ (_ : Keeps _ _ _); try dsimp only)
    | with_reducible apply State.modMem_keeps
    | with_reducible apply State.touch_keeps
    | with_reducible apply State.wr_keeps
    | with_reducible apply State.bump_keeps
    | with_reducible apply State.raise_keeps
    | with_reducible apply keeps_foldl
    | with_reducible apply keeps_ite
    | (intro (_ : Memory.wf _ = true); try dsimp only)
    | with_reducible apply MemSt.storeSector_wf
    | with_reducible apply MemSt.upset_wf
    | with_reducible apply MemSt.upsets_wf)

theorem State.bwInterval_keeps {P : Nat} {r₀ : State} {s : State} (hP : 132 ||| P = P) (hs : Keeps P r₀ s) :
    Keeps P r₀ (State.bwInterval s) := by
  unfold State.bwInterval
  try dsimp only
  repeat' (first
    | with_reducible assumption
    | (refine mask_mono ?_ hP; rfl)
    | (intro (_ : State); try dsimp only)
    | (intro _ (_ : Keeps _ _ _); try dsimp only)
    | with_reducible apply State.wr_keeps
    | with_reducible apply State.modMem_keeps
    | (intro (_ : Memory.wf _ = true); try dsimp only)
    | with_reducible apply MemSt.storeSector_wf
    | exact Memory.wf_of rfl rfl (by assumption))

theorem State.clearCounters_keeps {P : Nat} {r₀ : State} {s : State} {base : Nat} {n : Nat} (hP : 4 ||| P = P) (hs : Keeps P r₀ s) :
    Keeps P r₀ (State.clearCounters s base n) := by
  unfold State.clearCounters
  try dsimp only
  repeat' (first
    | with_reducible assumption
    | (intro _; try dsimp only)
    | with_reducible apply State.setWord_keeps
    | with_reducible apply keeps_foldl)

end Sys2Proof.Machine
end

