-- ==== Sys2Proof/Laws/Blt.lean ====
section
/-!
SUPPORT. What each operation of Machine/Blt.lean leaves alone (see Laws/Keeps.lean).
-/
namespace Sys2Proof.Machine

/-- Sending the burst keeps what a write keeps. -/
theorem BltRun.flush_keeps {P : Nat} {r₀ : State} {r : BltRun} (hP : 743 ||| P = P) (h : Keeps P r₀ r.s) : Keeps P r₀ r.flush.s := by
  unfold BltRun.flush
  split
  · exact h
  · exact State.writeFor_keeps (mask_mono rfl hP) h

theorem BltRun.push_keeps {P : Nat} {r₀ : State} {r : BltRun} {a : Nat} {b : Byte} (hP : 743 ||| P = P) (h : Keeps P r₀ r.s) :
    Keeps P r₀ (r.push a b).s := by
  unfold BltRun.push
  split
  · exact h
  split
  · exact h
  split
  · exact h
  · exact BltRun.flush_keeps hP h

theorem BltRun.put_keeps {P : Nat} {r₀ : State} {r : BltRun} {a : Nat} {bs : List Byte} (hP : 743 ||| P = P) (h : Keeps P r₀ r.s) :
    Keeps P r₀ (r.put a bs).s := by
  have : ∀ (l : List (Nat × Byte)) (r : BltRun), Keeps P r₀ r.s → Keeps P r₀ (l.foldl (fun r x => r.push x.1 x.2) r).s := by
    intro l
    induction l with
    | nil => exact fun _ h => h
    | cons x l ih => exact fun _ h => ih _ (BltRun.push_keeps hP h)
  exact this _ r h

theorem BltRun.fetch_keeps {P : Nat} {r₀ : State} {r : BltRun} {row len a n : Nat} {before : Option Nat} (hP : 743 ||| P = P)
    (h : Keeps P r₀ r.s) : Keeps P r₀ (r.fetch row len before a n).s :=
  keeps_foldl h fun _ _ h => State.readFor_keeps (mask_mono rfl hP) h

theorem BltRun.read_keeps {P : Nat} {r₀ : State} {r : BltRun} {row len a n : Nat} {before : Option Nat} (hP : 743 ||| P = P)
    (h : Keeps P r₀ r.s) : Keeps P r₀ (r.read row len before a n).1.s := by
  unfold BltRun.read
  dsimp only
  refine BltRun.fetch_keeps hP ?_
  split
  · exact BltRun.flush_keeps hP h
  · exact h

theorem BltRun.pixel_keeps {P : Nat} {r₀ : State} {r : BltRun} {c : BltCmd} {before : Option Nat} {i j : Nat} (hP : 743 ||| P = P)
    (h : Keeps P r₀ r.s) : Keeps P r₀ (r.pixel c before i j).s := by
  have hr : ∀ (q : Prop) [Decidable q] (t : BltRun) (row len : Nat) (b : Option Nat) (a n : Nat), Keeps P r₀ t.s →
      Keeps P r₀ (if q then t.read row len b a n else (t, [])).1.s := fun q _ t row len b a n h => by
    split
    · exact BltRun.read_keeps hP h
    · exact h
  unfold BltRun.pixel
  dsimp only
  have h2 := hr (c.op = 3) _ (c.dstAt 0 j) (c.w * bltBpp c.dfmt) (before.map fun b => c.dstAt b j) (c.dstAt i j) (bltBpp c.dfmt)
    (hr (c.usesSrc = true) r (c.srcAt 0 j) (c.w * bltBpp c.sfmt) (before.map fun b => c.srcAt b j) (c.srcAt i j) (bltBpp c.sfmt) h)
  have hi : ∀ (q : Prop) [Decidable q] {a b : BltRun}, Keeps P r₀ a.s → Keeps P r₀ b.s → Keeps P r₀ (if q then a else b).s :=
    fun q _ _ _ ha hb => by split <;> assumption
  refine hi _ (BltRun.put_keeps hP h2) ?_
  generalize c.value _ _ = v
  cases v with
  | none => exact h2
  | some v => exact BltRun.put_keeps hP h2

theorem State.modBlt_keeps {P : Nat} {r₀ : State} {s : State} {f : BltSt → BltSt} (hP : 131072 ||| P = P) (hs : Keeps P r₀ s) :
    Keeps P r₀ (State.modBlt s f) := by
  unfold State.modBlt
  try dsimp only
  repeat' (first
    | with_reducible assumption
    | intro _
    | with_reducible apply hf
    | with_reducible apply Keeps.set_blt)

theorem State.setBlt_keeps {P : Nat} {r₀ : State} {s : State} {d : Die} {l : Option BltList} (hP : 131076 ||| P = P) (hs : Keeps P r₀ s) :
    Keeps P r₀ (State.setBlt s d l) := by
  unfold State.setBlt
  try dsimp only
  repeat' (first
    | with_reducible assumption
    | (refine mask_mono ?_ hP; rfl)
    | intro _
    | with_reducible apply State.modBlt_keeps
    | with_reducible apply State.wrB_keeps)

theorem State.opBltRun_keeps {P : Nat} {r₀ : State} {s : State} {ring : Nat} (hP : 131654 ||| P = P) (hs : Keeps P r₀ s) :
    Keeps P r₀ (State.opBltRun s ring) := by
  unfold State.opBltRun
  try dsimp only
  repeat' (first
    | with_reducible assumption
    | (refine mask_mono ?_ hP; rfl)
    | (intro _; try dsimp only)
    | with_reducible apply State.withOp_keeps
    | with_reducible apply State.modBlt_keeps)

theorem State.bltListStart_keeps {P : Nat} {r₀ : State} {s : State} (hP : 131076 ||| P = P) (hs : Keeps P r₀ s) :
    Keeps P r₀ (State.bltListStart s) := by
  unfold State.bltListStart
  try dsimp only
  repeat' (first
    | with_reducible assumption
    | (refine mask_mono ?_ hP; rfl)
    | intro _
    | with_reducible apply State.modBlt_keeps
    | with_reducible apply State.setBlt_keeps
    | with_reducible apply keeps_ite
    | split)

theorem State.endList_keeps {P : Nat} {r₀ : State} {s : State} {d : Die} {l : BltList} {status : Nat} {evs : List Nat} (hP : 131815 ||| P = P) (hs : Keeps P r₀ s) :
    Keeps P r₀ (State.endList s d l status evs) := by
  unfold State.endList
  try dsimp only
  repeat' (first
    | with_reducible assumption
    | (refine mask_mono ?_ hP; rfl)
    | intro _
    | with_reducible apply State.complete_keeps
    | with_reducible apply State.poison_keeps
    | with_reducible apply State.setBlt_keeps)

theorem State.bltStart_keeps {P : Nat} {r₀ : State} {s : State} {d : Die} (hP : 131815 ||| P = P) (hs : Keeps P r₀ s) :
    Keeps P r₀ (State.bltStart s d) := by
  unfold State.bltStart
  try dsimp only
  repeat' (first
    | with_reducible assumption
    | (refine mask_mono ?_ hP; rfl)
    | intro _
    | with_reducible apply State.readFor_keeps
    | with_reducible apply State.endList_keeps
    | with_reducible apply State.poison_keeps
    | with_reducible apply State.raise_keeps
    | with_reducible apply State.bump_keeps
    | with_reducible apply State.setBlt_keeps
    | with_reducible apply keeps_ite
    | split)

theorem State.bltPixels_keeps {P : Nat} {r₀ : State} {s : State} {c : BltCmd} {px : List (Nat × Nat)} (hP : 743 ||| P = P) (hs : Keeps P r₀ s) :
    Keeps P r₀ (State.bltPixels s c px).1 := by
  unfold State.bltPixels
  dsimp only
  have : ∀ (l : List ((Nat × Nat) × Option (Nat × Nat))) (r : BltRun), Keeps P r₀ r.s →
      Keeps P r₀ (l.foldl (fun (r : BltRun) p =>
        r.pixel c ((p.2.filter fun q => q.2 == p.1.2).map Prod.fst) p.1.1 p.1.2) r).s := by
    intro l
    induction l with
    | nil => exact fun _ h => h
    | cons p l ih => exact fun _ h => ih _ (BltRun.pixel_keeps (mask_mono rfl hP) h)
  exact BltRun.flush_keeps hP (this _ ⟨s, 0, 0, []⟩ hs)

theorem State.bltPixels_of {P : Nat} {r₀ t : State} {b₀ : Nat} {s : State} {c : BltCmd} {px : List (Nat × Nat)} (he : State.bltPixels s c px = (t, b₀)) (hP : 743 ||| P = P)
    (hs : Keeps P r₀ s) : Keeps P r₀ t := by
  have := State.bltPixels_keeps (s := s) (c := c) (px := px) hP hs
  rwa [he] at this

theorem State.bltWork_keeps {P : Nat} {r₀ : State} {s : State} {l : BltList} {n : Nat} (hP : 743 ||| P = P) (hs : Keeps P r₀ s) :
    Keeps P r₀ (State.bltWork s l n).1 := by
  unfold State.bltWork
  dsimp only
  split
  · exact hs
  · split
    · exact State.bltPixels_keeps (mask_mono rfl hP) hs
    · refine keeps_ite ?_ (State.raise_keeps (mask_mono rfl hP) ?_)
      all_goals exact State.bump_keeps (mask_mono rfl hP) (State.bltPixels_keeps (mask_mono rfl hP) hs)

theorem State.bltWork_of {P : Nat} {r₀ t : State} {b₀ : BltList} {s : State} {l : BltList} {n : Nat} (he : State.bltWork s l n = (t, b₀)) (hP : 743 ||| P = P)
    (hs : Keeps P r₀ s) : Keeps P r₀ t := by
  have := State.bltWork_keeps (s := s) (l := l) (n := n) hP hs
  rwa [he] at this

theorem State.bltDone_keeps {P : Nat} {r₀ : State} {s : State} {d : Die} (hP : 131815 ||| P = P) (hs : Keeps P r₀ s) :
    Keeps P r₀ (State.bltDone s d) := by
  unfold State.bltDone
  try dsimp only
  repeat' (first
    | with_reducible assumption
    | (refine mask_mono ?_ hP; rfl)
    | intro _
    | with_reducible apply State.bltWork_keeps
    | with_reducible apply State.bump_keeps
    | with_reducible apply State.endList_keeps
    | with_reducible apply State.setBlt_keeps
    | with_reducible refine State.bltWork_of (by assumption) ?_ ?_
    | with_reducible apply keeps_ite
    | split)

theorem State.bltHalt_keeps {P : Nat} {r₀ : State} {s : State} {ring : Nat} {idx : Nat} (hP : 131815 ||| P = P) (hs : Keeps P r₀ s) :
    Keeps P r₀ (State.bltHalt s ring idx) := by
  unfold State.bltHalt
  try dsimp only
  repeat' (first
    | with_reducible assumption
    | (refine mask_mono ?_ hP; rfl)
    | (intro _; try dsimp only)
    | with_reducible apply State.bltWork_keeps
    | with_reducible apply State.drawn_keeps
    | with_reducible apply State.setBlt_keeps
    | with_reducible refine State.bltWork_of (by assumption) ?_ ?_
    | with_reducible apply keeps_foldl
    | with_reducible apply keeps_ite
    | split)

theorem State.abortBlt_keeps {P : Nat} {r₀ : State} {s : State} {ring : Nat} {idx : Nat} (hP : 131815 ||| P = P) (hs : Keeps P r₀ s) :
    Keeps P r₀ (State.abortBlt s ring idx) := by
  unfold State.abortBlt
  try dsimp only
  repeat' (first
    | with_reducible assumption
    | (refine mask_mono ?_ hP; rfl)
    | (intro _; try dsimp only)
    | with_reducible apply State.bltHalt_keeps
    | with_reducible apply State.modBlt_keeps
    | with_reducible apply State.setBlt_keeps
    | with_reducible apply keeps_foldl
    | with_reducible apply keeps_ite)

end Sys2Proof.Machine
end

