-- ==== Sys2Proof/Laws/Cmp.lean ====
section
/-!
SUPPORT. What each operation of Machine/Cmp.lean leaves alone (see Laws/Keeps.lean).
-/
namespace Sys2Proof.Machine

theorem State.recordReject_keeps {P : Nat} {r₀ : State} {s : State} {w : Nat → Word} (hP : 4 ||| P = P) (hs : Keeps P r₀ s) :
    Keeps P r₀ (State.recordReject s w) := by
  unfold State.recordReject
  try dsimp only
  repeat' (first
    | with_reducible assumption
    | intro _
    | with_reducible apply State.wr_keeps)

theorem State.opCommit_keeps {P : Nat} {r₀ : State} {s : State} {ring : Nat} (hP : 4678 ||| P = P) (hs : Keeps P r₀ s) :
    Keeps P r₀ (State.opCommit s ring) := by
  unfold State.opCommit
  try dsimp only
  repeat' (first
    | with_reducible assumption
    | (refine mask_mono ?_ hP; rfl)
    | (intro _; try dsimp only)
    | with_reducible apply State.withOp_keeps
    | with_reducible apply State.recordReject_keeps
    | with_reducible apply State.complete_keeps
    | split
    | with_reducible apply Keeps.set_cmp)

theorem State.commitBits_keeps {P : Nat} {r₀ : State} {s : State} (hP : 4 ||| P = P) (hs : Keeps P r₀ s) :
    Keeps P r₀ (State.commitBits s) := by
  unfold State.commitBits
  try dsimp only
  repeat' (first
    | with_reducible assumption
    | intro _
    | with_reducible apply State.wrB_keeps)

theorem State.supersede_keeps {P : Nat} {r₀ : State} {s : State} (hP : 4678 ||| P = P) (hs : Keeps P r₀ s) :
    Keeps P r₀ (State.supersede s) := by
  unfold State.supersede
  try dsimp only
  repeat' (first
    | with_reducible assumption
    | (refine mask_mono ?_ hP; rfl)
    | (intro _; try dsimp only)
    | with_reducible apply State.complete_keeps
    | with_reducible apply keeps_foldl
    | with_reducible apply Keeps.set_cmp)

theorem State.commitArrive_keeps {P : Nat} {r₀ : State} {s : State} (hP : 4678 ||| P = P) (hs : Keeps P r₀ s) :
    Keeps P r₀ (State.commitArrive s) := by
  unfold State.commitArrive
  try dsimp only
  repeat' (first
    | with_reducible assumption
    | (refine mask_mono ?_ hP; rfl)
    | intro _
    | with_reducible apply State.supersede_keeps
    | with_reducible apply State.wr_keeps
    | with_reducible apply State.wrB_keeps
    | with_reducible apply State.park_keeps
    | with_reducible apply State.commitBits_keeps
    | split
    | with_reducible apply Keeps.set_cmp)

theorem State.setLives_keeps {P : Nat} {r₀ : State} {s : State} {ws : List (Nat × Word)} (hP : 8 ||| P = P) (hs : Keeps P r₀ s) :
    Keeps P r₀ (State.setLives s ws) := by
  unfold State.setLives
  try dsimp only
  repeat' (first
    | with_reducible assumption
    | (intro _; try dsimp only)
    | with_reducible apply State.setLive_keeps
    | with_reducible apply keeps_foldl)

theorem State.cmpOnce_keeps {P : Nat} {r₀ : State} {s : State} {e : Nat} (hP : 4711 ||| P = P) (hs : Keeps P r₀ s) :
    Keeps P r₀ (State.cmpOnce s e) := by
  unfold State.cmpOnce
  try dsimp only
  repeat' (first
    | with_reducible assumption
    | (refine mask_mono ?_ hP; rfl)
    | intro _
    | with_reducible apply State.raise_keeps
    | with_reducible apply keeps_ite
    | split
    | with_reducible apply Keeps.set_cmp)

theorem State.readReady_keeps {P : Nat} {r₀ : State} {s : State} {p : Plane} (hP : 4839 ||| P = P) (hs : Keeps P r₀ s) :
    Keeps P r₀ (State.readReady s p) := by
  unfold State.readReady
  try dsimp only
  repeat' (first
    | with_reducible assumption
    | (refine mask_mono ?_ hP; rfl)
    | intro _
    | with_reducible apply State.readFor_keeps
    | with_reducible apply State.cmpOnce_keeps
    | with_reducible apply keeps_ite)

theorem State.retire_keeps {P : Nat} {r₀ : State} {s : State} {frame : Nat} {plane : Nat} {disabled : Bool} {never : Bool} {addr : Nat} (hP : 4711 ||| P = P) (hs : Keeps P r₀ s) :
    Keeps P r₀ (State.retire s frame plane disabled never addr) := by
  unfold State.retire
  try dsimp only
  repeat' (first
    | with_reducible assumption
    | (refine mask_mono ?_ hP; rfl)
    | intro _
    | with_reducible apply State.emit_keeps
    | with_reducible apply State.wrB_keeps
    | with_reducible apply State.bump_keeps
    | with_reducible apply State.raise_keeps
    | with_reducible apply keeps_ite
    | split
    | with_reducible apply Keeps.set_cmp)

theorem State.writeRetireCfg_keeps {P : Nat} {r₀ : State} {s : State} {en : Bool} {log2 : Nat} (hP : 4100 ||| P = P) (hs : Keeps P r₀ s) :
    Keeps P r₀ (State.writeRetireCfg s en log2) := by
  unfold State.writeRetireCfg
  try dsimp only
  repeat' (first
    | with_reducible assumption
    | (refine mask_mono ?_ hP; rfl)
    | intro _
    | with_reducible apply State.wrB_keeps
    | with_reducible apply State.wr_keeps
    | with_reducible apply keeps_ite
    | split
    | with_reducible apply Keeps.set_cmp)

theorem State.readPlane_keeps {P : Nat} {r₀ : State} {s : State} {p : Plane} {j : Nat} (hP : 4839 ||| P = P) (hs : Keeps P r₀ s) :
    Keeps P r₀ (State.readPlane s p j) := by
  unfold State.readPlane
  try dsimp only
  repeat' (first
    | with_reducible assumption
    | (refine mask_mono ?_ hP; rfl)
    | intro _
    | with_reducible apply State.readFor_keeps
    | with_reducible apply State.cmpOnce_keeps
    | with_reducible apply keeps_ite)

theorem State.fetchLine_keeps {P : Nat} {r₀ : State} {s : State} {d : Die} {n : Nat} {j : Nat} (hP : 4839 ||| P = P) (hs : Keeps P r₀ s) :
    Keeps P r₀ (State.fetchLine s d n j) := by
  unfold State.fetchLine
  try dsimp only
  repeat' (first
    | with_reducible assumption
    | (refine mask_mono ?_ hP; rfl)
    | intro _
    | with_reducible apply State.readPlane_keeps
    | with_reducible apply keeps_ite
    | split
    | with_reducible apply Keeps.set_cmp)

end Sys2Proof.Machine
end

