-- ==== Sys2Proof/Laws/Lnk.lean ====
section
/-!
SUPPORT. What each operation of Machine/Lnk.lean leaves alone (see Laws/Keeps.lean).
-/
namespace Sys2Proof.Machine

theorem State.modLane_keeps {P : Nat} {r₀ : State} {s : State} {n : Nat} {f : Lane → Lane} (hP : 1048576 ||| P = P) (hs : Keeps P r₀ s) :
    Keeps P r₀ (State.modLane s n f) := hs.set_lanes hP fun h => (List.length_modify ..).trans h

theorem State.showIdle_keeps {P : Nat} {r₀ : State} {s : State} {n : Nat} (hP : 1048580 ||| P = P) (hs : Keeps P r₀ s) :
    Keeps P r₀ (State.showIdle s n) := by
  unfold State.showIdle
  try dsimp only
  repeat' (first
    | with_reducible assumption
    | (refine mask_mono ?_ hP; rfl)
    | intro _
    | with_reducible apply State.wrB_keeps)

theorem State.laneEvent_keeps {P : Nat} {r₀ : State} {s : State} {n : Nat} {k : Nat} (hP : 615 ||| P = P) (hs : Keeps P r₀ s) :
    Keeps P r₀ (State.laneEvent s n k) := by
  unfold State.laneEvent
  try dsimp only
  repeat' (first
    | with_reducible assumption
    | (refine mask_mono ?_ hP; rfl)
    | intro _
    | with_reducible apply State.wrB_keeps
    | with_reducible apply State.raise_keeps
    | with_reducible apply keeps_ite)

theorem State.setAdapt_keeps {P : Nat} {r₀ : State} {s : State} {n : Nat} {st : Nat} (hP : 4 ||| P = P) (hs : Keeps P r₀ s) :
    Keeps P r₀ (State.setAdapt s n st) := by
  unfold State.setAdapt
  try dsimp only
  repeat' (first
    | with_reducible assumption
    | intro _
    | with_reducible apply State.wr_keeps)

theorem State.txFill_keeps {P : Nat} {r₀ : State} {s : State} {n : Nat} (hP : 1048576 ||| P = P) (hs : Keeps P r₀ s) :
    Keeps P r₀ (State.txFill s n) := by
  unfold State.txFill
  try dsimp only
  repeat' (first
    | with_reducible assumption
    | intro _
    | with_reducible apply State.modLane_keeps)

theorem State.txBlocks_keeps {P : Nat} {r₀ : State} {s : State} {n : Nat} {bs : List (Nat × List Byte)} (hP : 1048576 ||| P = P) (hs : Keeps P r₀ s) :
    Keeps P r₀ (State.txBlocks s n bs) := by
  unfold State.txBlocks
  try dsimp only
  repeat' (first
    | with_reducible assumption
    | intro _
    | with_reducible apply State.txFill_keeps
    | with_reducible apply State.modLane_keeps)

theorem State.askPre_keeps {P : Nat} {r₀ : State} {s : State} {n : Nat} {on : Bool} (hP : 1048576 ||| P = P) (hs : Keeps P r₀ s) :
    Keeps P r₀ (State.askPre s n on) := by
  unfold State.askPre
  try dsimp only
  repeat' (first
    | with_reducible assumption
    | intro _
    | with_reducible apply State.txFill_keeps
    | with_reducible apply State.modLane_keeps)

theorem State.ropeDrop_keeps {P : Nat} {r₀ : State} {s : State} (hP : 2097767 ||| P = P) (hs : Keeps P r₀ s) :
    Keeps P r₀ (State.ropeDrop s) := by
  unfold State.ropeDrop
  try dsimp only
  repeat' (first
    | with_reducible assumption
    | (refine mask_mono ?_ hP; rfl)
    | intro _
    | with_reducible apply State.bump_keeps
    | with_reducible apply State.raise_keeps
    | with_reducible apply keeps_ite
    | split
    | with_reducible apply Keeps.set_rope)

theorem State.cutMsg_keeps {P : Nat} {r₀ : State} {s : State} {n : Nat} (hP : 3146343 ||| P = P) (hs : Keeps P r₀ s) :
    Keeps P r₀ (State.cutMsg s n) := by
  unfold State.cutMsg
  try dsimp only
  repeat' (first
    | with_reducible assumption
    | (refine mask_mono ?_ hP; rfl)
    | intro _
    | with_reducible apply State.modLane_keeps
    | with_reducible apply State.ropeDrop_keeps
    | with_reducible apply keeps_ite)

theorem State.toHunt_keeps {P : Nat} {r₀ : State} {s : State} {n : Nat} (hP : 3146343 ||| P = P) (hs : Keeps P r₀ s) :
    Keeps P r₀ (State.toHunt s n) := by
  unfold State.toHunt
  try dsimp only
  repeat' (first
    | with_reducible assumption
    | (refine mask_mono ?_ hP; rfl)
    | intro _
    | with_reducible apply State.cutMsg_keeps
    | with_reducible apply State.wr_keeps
    | with_reducible apply State.modLane_keeps
    | with_reducible apply State.bump_keeps
    | with_reducible apply State.setAdapt_keeps
    | with_reducible apply State.laneEvent_keeps
    | with_reducible apply keeps_ite)

theorem State.toLocked_keeps {P : Nat} {r₀ : State} {s : State} {n : Nat} (hP : 1048580 ||| P = P) (hs : Keeps P r₀ s) :
    Keeps P r₀ (State.toLocked s n) := by
  unfold State.toLocked
  try dsimp only
  repeat' (first
    | with_reducible assumption
    | (refine mask_mono ?_ hP; rfl)
    | intro _
    | with_reducible apply State.wr_keeps
    | with_reducible apply State.modLane_keeps
    | with_reducible apply State.setAdapt_keeps
    | with_reducible apply keeps_ite)

theorem State.txIdle_keeps {P : Nat} {r₀ : State} {s : State} {n : Nat} {idle : Bool} (hP : 1048580 ||| P = P) (hs : Keeps P r₀ s) :
    Keeps P r₀ (State.txIdle s n idle) := by
  unfold State.txIdle
  try dsimp only
  repeat' (first
    | with_reducible assumption
    | (refine mask_mono ?_ hP; rfl)
    | intro _
    | with_reducible apply State.txFill_keeps
    | with_reducible apply State.modLane_keeps
    | with_reducible apply State.showIdle_keeps)

theorem State.setRate_keeps {P : Nat} {r₀ : State} {s : State} {n : Nat} {quarter : Bool} (hP : 4 ||| P = P) (hs : Keeps P r₀ s) :
    Keeps P r₀ (State.setRate s n quarter) := by
  unfold State.setRate
  try dsimp only
  repeat' (first
    | with_reducible assumption
    | intro _
    | with_reducible apply State.wrB_keeps)

theorem State.startFir_keeps {P : Nat} {r₀ : State} {s : State} {n : Nat} (hP : 4 ||| P = P) (hs : Keeps P r₀ s) :
    Keeps P r₀ (State.startFir s n) := by
  unfold State.startFir
  try dsimp only
  repeat' (first
    | with_reducible assumption
    | intro _
    | with_reducible apply State.setWord_keeps)

theorem State.saveFir_keeps {P : Nat} {r₀ : State} {s : State} {n : Nat} (hP : 1048576 ||| P = P) (hs : Keeps P r₀ s) :
    Keeps P r₀ (State.saveFir s n) := by
  unfold State.saveFir
  try dsimp only
  repeat' (first
    | with_reducible assumption
    | intro _
    | with_reducible apply State.modLane_keeps
    | with_reducible apply keeps_ite)

theorem State.applyTrain_keeps {P : Nat} {r s : State} {n seq code : Nat} {ok : Bool} (hP : 1048580 ||| P = P) (h : Keeps P r s) :
    Keeps P r (s.applyTrain n seq code ok).2 := by
  have hl : ∀ f, Keeps P r (s.modLane n f) := fun f => State.modLane_keeps (mask_mono rfl hP) h
  unfold State.applyTrain
  dsimp only
  split
  · exact h
  split
  · exact hl _
  split
  · split
    · exact State.askPre_keeps (mask_mono rfl hP) (hl _)
    · exact hl _
  split
  · exact State.askPre_keeps (mask_mono rfl hP) (hl _)
  split
  · split
    · exact State.setWord_keeps (mask_mono rfl hP) (hl _)
    · exact hl _
  · exact hl _

theorem State.applyTrain_of {P : Nat} {r s t : State} {n seq code a : Nat} {ok : Bool} (he : s.applyTrain n seq code ok = (a, t))
    (hP : 1048580 ||| P = P) (h : Keeps P r s) : Keeps P r t := by
  have := State.applyTrain_keeps (n := n) (seq := seq) (code := code) (ok := ok) hP h
  rwa [he] at this

theorem State.oneBlock_keeps {P : Nat} {r₀ : State} {s : State} {n : Nat} {b : RxBlock} (hP : 3146343 ||| P = P) (hs : Keeps P r₀ s) :
    Keeps P r₀ (State.oneBlock s n b) := by
  unfold State.oneBlock
  try dsimp only
  repeat' (first
    | with_reducible assumption
    | (refine mask_mono ?_ hP; rfl)
    | intro _
    | with_reducible apply State.modLane_keeps
    | with_reducible apply State.ropeDrop_keeps
    | with_reducible apply keeps_ite)

theorem State.endCodeword_keeps {P : Nat} {r₀ : State} {s : State} {n : Nat} {check : List Byte} (hP : 3146343 ||| P = P) (hs : Keeps P r₀ s) :
    Keeps P r₀ (State.endCodeword s n check) := by
  unfold State.endCodeword
  try dsimp only
  repeat' (first
    | with_reducible assumption
    | (refine mask_mono ?_ hP; rfl)
    | (intro _; try dsimp only)
    | with_reducible apply State.bump_keeps
    | with_reducible apply State.laneEvent_keeps
    | with_reducible apply State.modLane_keeps
    | with_reducible apply State.oneBlock_keeps
    | with_reducible apply keeps_foldl
    | split)

theorem State.slide_keeps {P : Nat} {r₀ : State} {s : State} {n : Nat} {valid : Bool} (hP : 3146343 ||| P = P) (hs : Keeps P r₀ s) :
    Keeps P r₀ (State.slide s n valid) := by
  unfold State.slide
  try dsimp only
  repeat' (first
    | with_reducible assumption
    | (refine mask_mono ?_ hP; rfl)
    | intro _
    | with_reducible apply State.modLane_keeps
    | with_reducible apply State.bump_keeps
    | with_reducible apply State.toHunt_keeps
    | with_reducible apply keeps_ite)

theorem State.huntHeader_keeps {P : Nat} {r₀ : State} {s : State} {n : Nat} {h : Nat} (hP : 1048644 ||| P = P) (hs : Keeps P r₀ s) :
    Keeps P r₀ (State.huntHeader s n h) := by
  unfold State.huntHeader
  try dsimp only
  repeat' (first
    | with_reducible assumption
    | (refine mask_mono ?_ hP; rfl)
    | intro _
    | with_reducible apply State.bump_keeps
    | with_reducible apply State.modLane_keeps
    | with_reducible apply State.run_keeps
    | with_reducible apply State.toLocked_keeps
    | with_reducible apply keeps_ite)

theorem State.follow_keeps {P : Nat} {r₀ : State} {s : State} {n : Nat} {h : Nat} {bytes : List Byte} (hP : 1048576 ||| P = P) (hs : Keeps P r₀ s) :
    Keeps P r₀ (State.follow s n h bytes) := by
  unfold State.follow
  try dsimp only
  repeat' (first
    | with_reducible assumption
    | intro _
    | with_reducible apply State.modLane_keeps
    | with_reducible apply keeps_ite)

theorem State.lockedHeader_keeps {P : Nat} {r₀ : State} {s : State} {n : Nat} {h : Nat} {bytes : List Byte} (hP : 3146343 ||| P = P) (hs : Keeps P r₀ s) :
    Keeps P r₀ (State.lockedHeader s n h bytes) := by
  unfold State.lockedHeader
  try dsimp only
  repeat' (first
    | with_reducible assumption
    | (refine mask_mono ?_ hP; rfl)
    | intro _
    | with_reducible apply State.follow_keeps
    | with_reducible apply State.wr_keeps
    | with_reducible apply State.modLane_keeps
    | with_reducible apply State.slide_keeps
    | with_reducible apply keeps_ite)

theorem State.takeLat_keeps {P : Nat} {r₀ : State} {s : State} {n : Nat} (hP : 1048582 ||| P = P) (hs : Keeps P r₀ s) :
    Keeps P r₀ (State.takeLat s n) := by
  unfold State.takeLat
  try dsimp only
  repeat' (first
    | with_reducible assumption
    | (refine mask_mono ?_ hP; rfl)
    | intro _
    | with_reducible apply State.modLane_keeps
    | with_reducible apply State.wr_keeps
    | with_reducible apply State.drawn_keeps
    | with_reducible apply keeps_ite)

theorem State.confirmHeader_keeps {P : Nat} {r₀ : State} {s : State} {n : Nat} {h : Nat} {bytes : List Byte} (hP : 3146343 ||| P = P) (hs : Keeps P r₀ s) :
    Keeps P r₀ (State.confirmHeader s n h bytes) := by
  unfold State.confirmHeader
  try dsimp only
  repeat' (first
    | with_reducible assumption
    | (refine mask_mono ?_ hP; rfl)
    | intro _
    | with_reducible apply State.follow_keeps
    | with_reducible apply State.modLane_keeps
    | with_reducible apply State.wr_keeps
    | with_reducible apply State.takeLat_keeps
    | with_reducible apply State.slide_keeps
    | with_reducible apply keeps_ite)

theorem State.alignedHeader_keeps {P : Nat} {r₀ : State} {s : State} {n : Nat} {h : Nat} {bytes : List Byte} (hP : 3146343 ||| P = P) (hs : Keeps P r₀ s) :
    Keeps P r₀ (State.alignedHeader s n h bytes) := by
  unfold State.alignedHeader
  try dsimp only
  repeat' (first
    | with_reducible assumption
    | (refine mask_mono ?_ hP; rfl)
    | intro _
    | with_reducible apply State.endCodeword_keeps
    | with_reducible apply State.modLane_keeps
    | with_reducible apply State.cutMsg_keeps
    | with_reducible apply State.wr_keeps
    | with_reducible apply State.laneEvent_keeps
    | with_reducible apply State.slide_keeps
    | with_reducible apply keeps_ite)

theorem State.adaptStep_keeps {P : Nat} {r₀ : State} {s : State} {n : Nat} (hP : 6 ||| P = P) (hs : Keeps P r₀ s) :
    Keeps P r₀ (State.adaptStep s n) := by
  unfold State.adaptStep
  try dsimp only
  repeat' (first
    | with_reducible assumption
    | (refine mask_mono ?_ hP; rfl)
    | intro _
    | with_reducible apply State.setWord_keeps
    | with_reducible apply State.drawn_keeps
    | with_reducible apply keeps_ite)

theorem State.prbsBit_keeps {P : Nat} {r₀ : State} {s : State} {n : Nat} {b : Bool} (hP : 1049191 ||| P = P) (hs : Keeps P r₀ s) :
    Keeps P r₀ (State.prbsBit s n b) := by
  unfold State.prbsBit
  try dsimp only
  repeat' (first
    | with_reducible assumption
    | (refine mask_mono ?_ hP; rfl)
    | intro _
    | with_reducible apply State.modLane_keeps
    | with_reducible apply State.bump_keeps
    | with_reducible apply State.laneEvent_keeps
    | with_reducible apply State.wrB_keeps
    | with_reducible apply keeps_ite)

theorem State.prbsCheck_keeps {P : Nat} {r₀ : State} {s : State} {n : Nat} {syms : List Nat} (hP : 1049191 ||| P = P) (hs : Keeps P r₀ s) :
    Keeps P r₀ (State.prbsCheck s n syms) := by
  unfold State.prbsCheck
  try dsimp only
  repeat' (first
    | with_reducible assumption
    | (intro _; try dsimp only)
    | with_reducible apply State.prbsBit_keeps
    | with_reducible apply keeps_foldl
    | with_reducible apply keeps_ite)

theorem State.rxLane_keeps {P : Nat} {r₀ : State} {s : State} {n : Nat} {syms : List Nat} (hP : 3146343 ||| P = P) (hs : Keeps P r₀ s) :
    Keeps P r₀ (State.rxLane s n syms) := by
  unfold State.rxLane
  try dsimp only
  repeat' (first
    | with_reducible assumption
    | (refine mask_mono ?_ hP; rfl)
    | intro _
    | with_reducible apply State.prbsCheck_keeps
    | with_reducible apply State.modLane_keeps
    | with_reducible apply State.huntHeader_keeps
    | with_reducible apply State.lockedHeader_keeps
    | with_reducible apply State.confirmHeader_keeps
    | with_reducible apply State.alignedHeader_keeps
    | with_reducible apply State.adaptStep_keeps
    | split)

theorem State.writeAdaptHold_keeps {P : Nat} {r₀ : State} {s : State} {n : Nat} {on : Bool} (hP : 1048580 ||| P = P) (hs : Keeps P r₀ s) :
    Keeps P r₀ (State.writeAdaptHold s n on) := by
  unfold State.writeAdaptHold
  try dsimp only
  repeat' (first
    | with_reducible assumption
    | (refine mask_mono ?_ hP; rfl)
    | intro _
    | with_reducible apply State.wrB_keeps
    | with_reducible apply State.wr_keeps
    | with_reducible apply State.modLane_keeps
    | with_reducible apply keeps_ite)

theorem State.writePrbsChk_keeps {P : Nat} {r₀ : State} {s : State} {n : Nat} {on : Bool} (hP : 1048580 ||| P = P) (hs : Keeps P r₀ s) :
    Keeps P r₀ (State.writePrbsChk s n on) := by
  unfold State.writePrbsChk
  try dsimp only
  repeat' (first
    | with_reducible assumption
    | (refine mask_mono ?_ hP; rfl)
    | intro _
    | with_reducible apply State.wrB_keeps
    | with_reducible apply State.modLane_keeps
    | with_reducible apply keeps_ite)

theorem State.writePrbsGen_keeps {P : Nat} {r₀ : State} {s : State} {n : Nat} {on : Bool} (hP : 1048580 ||| P = P) (hs : Keeps P r₀ s) :
    Keeps P r₀ (State.writePrbsGen s n on) := by
  unfold State.writePrbsGen
  try dsimp only
  repeat' (first
    | with_reducible assumption
    | (refine mask_mono ?_ hP; rfl)
    | intro _
    | with_reducible apply State.txFill_keeps
    | with_reducible apply State.wrB_keeps)

theorem State.measureEye_keeps {P : Nat} {r₀ : State} {s : State} {n : Nat} {height : Nat} {width : Nat} (hP : 1049191 ||| P = P) (hs : Keeps P r₀ s) :
    Keeps P r₀ (State.measureEye s n height width) := by
  unfold State.measureEye
  try dsimp only
  repeat' (first
    | with_reducible assumption
    | (refine mask_mono ?_ hP; rfl)
    | intro _
    | with_reducible apply State.wr_keeps
    | with_reducible apply State.modLane_keeps
    | with_reducible apply State.laneEvent_keeps
    | with_reducible apply keeps_ite)

end Sys2Proof.Machine
end

