-- ==== Sys2Proof/Laws/Rope.lean ====
section
/-!
SUPPORT. What each operation of Machine/Rope.lean leaves alone (see Laws/Keeps.lean).
-/
namespace Sys2Proof.Machine

theorem State.settleRole_keeps {P : Nat} {r₀ : State} {s : State} (hP : 20 ||| P = P) (hs : Keeps P r₀ s) :
    Keeps P r₀ (State.settleRole s) := by
  unfold State.settleRole
  try dsimp only
  repeat' (first
    | with_reducible assumption
    | (refine mask_mono ?_ hP; rfl)
    | intro _
    | with_reducible apply State.wr_keeps
    | with_reducible apply State.wrB_keeps
    | with_reducible apply keeps_ite
    | split
    | with_reducible apply Keeps.set_tim)

theorem State.modPitch_keeps {P : Nat} {r₀ : State} {s : State} {p : Port} {f : Pitch → Pitch} (hP : 2097152 ||| P = P) (hs : Keeps P r₀ s) :
    Keeps P r₀ (State.modPitch s p f) := by
  unfold State.modPitch
  try dsimp only
  repeat' (first
    | with_reducible assumption
    | intro _
    | split
    | with_reducible apply hf
    | with_reducible apply Keeps.set_rope)

theorem State.setPitchState_keeps {P : Nat} {r₀ : State} {s : State} {p : Port} {v : Nat} (hP : 4 ||| P = P) (hs : Keeps P r₀ s) :
    Keeps P r₀ (State.setPitchState s p v) := by
  unfold State.setPitchState
  try dsimp only
  repeat' (first
    | with_reducible assumption
    | intro _
    | with_reducible apply State.wr_keeps)

theorem State.settleLanes_keeps {P : Nat} {r₀ : State} {s : State} {p : Port} (hP : 1049191 ||| P = P) (hs : Keeps P r₀ s) :
    Keeps P r₀ (State.settleLanes s p) := by
  unfold State.settleLanes
  try dsimp only
  repeat' (first
    | with_reducible assumption
    | (refine mask_mono ?_ hP; rfl)
    | (intro _; try dsimp only)
    | with_reducible apply State.wr_keeps
    | with_reducible apply State.saveFir_keeps
    | with_reducible apply State.raise_keeps
    | with_reducible apply keeps_foldl
    | with_reducible apply keeps_ite)

theorem State.ropeOut_keeps {P : Nat} {r₀ : State} {s : State} {p : Port} {lane : Nat} {msg : List Byte} (hP : 1048577 ||| P = P) (hs : Keeps P r₀ s) :
    Keeps P r₀ (State.ropeOut s p lane msg) := by
  unfold State.ropeOut
  try dsimp only
  repeat' (first
    | with_reducible assumption
    | (refine mask_mono ?_ hP; rfl)
    | intro _
    | with_reducible apply State.txBlocks_keeps
    | with_reducible apply State.emit_keeps
    | with_reducible apply keeps_ite)

theorem State.sendLocal_keeps {P : Nat} {r₀ : State} {s : State} {p : Port} {msg : List Byte} (hP : 1048577 ||| P = P) (hs : Keeps P r₀ s) :
    Keeps P r₀ (State.sendLocal s p msg) := by
  unfold State.sendLocal
  try dsimp only
  repeat' (first
    | with_reducible assumption
    | intro _
    | with_reducible apply State.ropeOut_keeps
    | split)

theorem State.helloChanged_keeps {P : Nat} {r₀ : State} {s : State} (hP : 1048577 ||| P = P) (hs : Keeps P r₀ s) :
    Keeps P r₀ (State.helloChanged s) := by
  unfold State.helloChanged
  try dsimp only
  repeat' (first
    | with_reducible assumption
    | (intro _; try dsimp only)
    | with_reducible apply State.sendLocal_keeps
    | with_reducible apply keeps_foldl
    | with_reducible apply keeps_ite)

theorem State.setAddress_keeps {P : Nat} {r₀ : State} {s : State} {a : Nat} (hP : 1049191 ||| P = P) (hs : Keeps P r₀ s) :
    Keeps P r₀ (State.setAddress s a) := by
  unfold State.setAddress
  try dsimp only
  repeat' (first
    | with_reducible assumption
    | (refine mask_mono ?_ hP; rfl)
    | intro _
    | with_reducible apply State.wr_keeps
    | with_reducible apply State.helloChanged_keeps
    | with_reducible apply State.raise_keeps
    | with_reducible apply keeps_ite)

theorem State.setTotal_keeps {P : Nat} {r₀ : State} {s : State} {t : Nat} (hP : 615 ||| P = P) (hs : Keeps P r₀ s) :
    Keeps P r₀ (State.setTotal s t) := by
  unfold State.setTotal
  try dsimp only
  repeat' (first
    | with_reducible assumption
    | (refine mask_mono ?_ hP; rfl)
    | intro _
    | with_reducible apply State.wr_keeps
    | with_reducible apply State.raise_keeps
    | with_reducible apply keeps_ite)

theorem State.freeBlocks_keeps {P : Nat} {r₀ : State} {s : State} {p : Port} {mail : Bool} {b : Nat} (hP : 2097152 ||| P = P) (hs : Keeps P r₀ s) :
    Keeps P r₀ (State.freeBlocks s p mail b) := by
  unfold State.freeBlocks
  try dsimp only
  repeat' (first
    | with_reducible assumption
    | intro _
    | with_reducible apply State.modPitch_keeps)

theorem State.countRecv_keeps {P : Nat} {r₀ : State} {s : State} {p : Port} {mail : Bool} {b : Nat} (hP : 2097152 ||| P = P) (hs : Keeps P r₀ s) :
    Keeps P r₀ (State.countRecv s p mail b) := by
  unfold State.countRecv
  try dsimp only
  repeat' (first
    | with_reducible assumption
    | intro _
    | with_reducible apply State.modPitch_keeps)

theorem State.tsqPush_keeps {P : Nat} {r₀ : State} {s : State} {e : TsqEntry} (hP : 631 ||| P = P) (hs : Keeps P r₀ s) :
    Keeps P r₀ (State.tsqPush s e) := by
  unfold State.tsqPush
  try dsimp only
  repeat' (first
    | with_reducible assumption
    | (refine mask_mono ?_ hP; rfl)
    | intro _
    | with_reducible apply State.wrB_keeps
    | with_reducible apply State.raise_keeps
    | with_reducible apply keeps_ite
    | split
    | with_reducible apply Keeps.set_tim)

theorem State.startHop_keeps {P : Nat} {r₀ : State} {s : State} {p : Port} {lane : Nat} {m : HopMsg} {lead : Nat} (hP : 3146359 ||| P = P) (hs : Keeps P r₀ s) :
    Keeps P r₀ (State.startHop s p lane m lead) := by
  unfold State.startHop
  try dsimp only
  repeat' (first
    | with_reducible assumption
    | (refine mask_mono ?_ hP; rfl)
    | intro _
    | with_reducible apply State.ropeOut_keeps
    | with_reducible apply State.modPitch_keeps
    | with_reducible apply State.freeBlocks_keeps
    | with_reducible apply State.tsqPush_keeps
    | with_reducible apply keeps_ite
    | split)

theorem State.tryHop_keeps {P : Nat} {r₀ : State} {s : State} {p : Port} {mail : Bool} {lead : Nat} (hP : 3146359 ||| P = P) (hs : Keeps P r₀ s) :
    Keeps P r₀ (State.tryHop s p mail lead) := by
  unfold State.tryHop
  try dsimp only
  repeat' (first
    | with_reducible assumption
    | (refine mask_mono ?_ hP; rfl)
    | intro _
    | with_reducible apply State.modPitch_keeps
    | with_reducible apply State.startHop_keeps
    | with_reducible apply keeps_ite
    | split)

theorem State.mailDrop_keeps {P : Nat} {r₀ : State} {s : State} (hP : 615 ||| P = P) (hs : Keeps P r₀ s) :
    Keeps P r₀ (State.mailDrop s) := by
  unfold State.mailDrop
  try dsimp only
  repeat' (first
    | with_reducible assumption
    | (refine mask_mono ?_ hP; rfl)
    | intro _
    | with_reducible apply State.bump_keeps
    | with_reducible apply State.raise_keeps)

theorem State.dropHop_keeps {P : Nat} {r₀ : State} {s : State} {m : HopMsg} (hP : 2097767 ||| P = P) (hs : Keeps P r₀ s) :
    Keeps P r₀ (State.dropHop s m) := by
  unfold State.dropHop
  try dsimp only
  repeat' (first
    | with_reducible assumption
    | (refine mask_mono ?_ hP; rfl)
    | intro _
    | with_reducible apply State.freeBlocks_keeps
    | with_reducible apply State.mailDrop_keeps
    | with_reducible apply keeps_ite
    | split)

theorem State.queueHop_keeps {P : Nat} {r₀ : State} {s : State} {p : Port} {m : HopMsg} (hP : 2097767 ||| P = P) (hs : Keeps P r₀ s) :
    Keeps P r₀ (State.queueHop s p m) := by
  unfold State.queueHop
  try dsimp only
  repeat' (first
    | with_reducible assumption
    | (refine mask_mono ?_ hP; rfl)
    | intro _
    | with_reducible apply State.modPitch_keeps
    | with_reducible apply State.dropHop_keeps
    | with_reducible apply keeps_ite)

theorem State.originate_keeps {P : Nat} {r₀ : State} {s : State} {p : Port} {m : HopMsg} (hP : 3146359 ||| P = P) (hs : Keeps P r₀ s) :
    Keeps P r₀ (State.originate s p m) := by
  unfold State.originate
  try dsimp only
  repeat' (first
    | with_reducible assumption
    | (refine mask_mono ?_ hP; rfl)
    | intro _
    | with_reducible apply State.queueHop_keeps
    | with_reducible apply State.tryHop_keeps
    | with_reducible apply State.drawn_keeps)

theorem State.takeTs_keeps {P : Nat} {r s : State} {kind key : Nat} (hP : 16 ||| P = P) (h : Keeps P r s) :
    Keeps P r (s.takeTs kind key).2 := by
  unfold State.takeTs
  split
  · exact h.set_tim hP
  · exact h

theorem State.takeTs_of {P : Nat} {r s t : State} {kind key : Nat} {a : Option (Nat × Nat × Nat)}
    (he : s.takeTs kind key = (a, t)) (hP : 16 ||| P = P) (h : Keeps P r s) : Keeps P r t := by
  have := State.takeTs_keeps (kind := kind) (key := key) hP h
  rwa [he] at this

theorem State.broadcast_keeps {P : Nat} {r₀ : State} {s : State} {type : Nat} {len : Nat} {arg : Nat} {kind : Nat} {key : Nat} {data : List Byte} (hP : 3146359 ||| P = P) (hs : Keeps P r₀ s) :
    Keeps P r₀ (State.broadcast s type len arg kind key data) := by
  unfold State.broadcast
  try dsimp only
  repeat' (first
    | with_reducible assumption
    | (refine mask_mono ?_ hP; rfl)
    | intro _
    | with_reducible apply State.takeTs_keeps
    | with_reducible apply State.originate_keeps
    | with_reducible refine State.takeTs_of (by assumption) ?_ ?_
    | with_reducible apply keeps_ite)

theorem State.alarm_keeps {P : Nat} {r₀ : State} {s : State} {code : Nat} {bit : Nat} (hP : 3146359 ||| P = P) (hs : Keeps P r₀ s) :
    Keeps P r₀ (State.alarm s code bit) := by
  unfold State.alarm
  try dsimp only
  repeat' (first
    | with_reducible assumption
    | intro _
    | with_reducible apply State.broadcast_keeps
    | with_reducible apply keeps_ite)

theorem State.swAlarm_keeps {P : Nat} {r₀ : State} {s : State} (hP : 3146359 ||| P = P) (hs : Keeps P r₀ s) :
    Keeps P r₀ (State.swAlarm s) := by
  unfold State.swAlarm
  try dsimp only
  repeat' (first
    | with_reducible assumption
    | intro _
    | with_reducible apply State.broadcast_keeps)

theorem State.sendEnum_keeps {P : Nat} {r₀ : State} {s : State} (hP : 3146359 ||| P = P) (hs : Keeps P r₀ s) :
    Keeps P r₀ (State.sendEnum s) := by
  unfold State.sendEnum
  try dsimp only
  repeat' (first
    | with_reducible assumption
    | intro _
    | with_reducible apply State.originate_keeps)

theorem State.sendEnumDone_keeps {P : Nat} {r₀ : State} {s : State} {total : Nat} {long : Bool} (hP : 3146359 ||| P = P) (hs : Keeps P r₀ s) :
    Keeps P r₀ (State.sendEnumDone s total long) := by
  unfold State.sendEnumDone
  try dsimp only
  repeat' (first
    | with_reducible assumption
    | intro _
    | with_reducible apply State.originate_keeps)

theorem State.actTail_keeps {P : Nat} {r₀ : State} {s : State} (hP : 3146359 ||| P = P) (hs : Keeps P r₀ s) :
    Keeps P r₀ (State.actTail s) := by
  unfold State.actTail
  try dsimp only
  repeat' (first
    | with_reducible assumption
    | (refine mask_mono ?_ hP; rfl)
    | intro _
    | with_reducible apply State.wrB_keeps
    | with_reducible apply State.setTotal_keeps
    | with_reducible apply State.sendEnumDone_keeps)

theorem State.becomeHead_keeps {P : Nat} {r₀ : State} {s : State} (hP : 3146359 ||| P = P) (hs : Keeps P r₀ s) :
    Keeps P r₀ (State.becomeHead s) := by
  unfold State.becomeHead
  try dsimp only
  repeat' (first
    | with_reducible assumption
    | (refine mask_mono ?_ hP; rfl)
    | intro _
    | with_reducible apply State.wrB_keeps
    | with_reducible apply State.setAddress_keeps
    | with_reducible apply State.settleRole_keeps
    | with_reducible apply State.sendEnum_keeps
    | with_reducible apply keeps_ite)

theorem State.afterUp_keeps {P : Nat} {r₀ : State} {s : State} {p : Port} (hP : 3146359 ||| P = P) (hs : Keeps P r₀ s) :
    Keeps P r₀ (State.afterUp s p) := by
  unfold State.afterUp
  try dsimp only
  repeat' (first
    | with_reducible assumption
    | intro _
    | with_reducible apply State.becomeHead_keeps
    | with_reducible apply State.actTail_keeps
    | with_reducible apply keeps_ite
    | split)

theorem State.dropPitch_keeps {P : Nat} {r₀ : State} {s : State} {p : Port} {failed : Bool} (hP : 3146343 ||| P = P) (hs : Keeps P r₀ s) :
    Keeps P r₀ (State.dropPitch s p failed) := by
  unfold State.dropPitch
  try dsimp only
  repeat' (first
    | with_reducible assumption
    | (refine mask_mono ?_ hP; rfl)
    | (intro _; try dsimp only)
    | with_reducible apply State.modPitch_keeps
    | with_reducible apply State.setWord_keeps
    | with_reducible apply State.txIdle_keeps
    | with_reducible apply State.dropHop_keeps
    | with_reducible apply keeps_foldl)

theorem State.pitchDown_keeps {P : Nat} {r₀ : State} {s : State} {p : Port} {failed : Bool} {why : DownWhy} (hP : 3146359 ||| P = P) (hs : Keeps P r₀ s) :
    Keeps P r₀ (State.pitchDown s p failed why) := by
  unfold State.pitchDown
  try dsimp only
  repeat' (first
    | with_reducible assumption
    | (refine mask_mono ?_ hP; rfl)
    | intro _
    | with_reducible apply State.dropPitch_keeps
    | with_reducible apply State.bump_keeps
    | with_reducible apply State.raise_keeps
    | with_reducible apply State.afterUp_keeps
    | with_reducible apply keeps_ite
    | split)

theorem State.sendPitchReq_keeps {P : Nat} {r₀ : State} {s : State} {p : Port} {i : Nat} {code : Nat} (hP : 3145729 ||| P = P) (hs : Keeps P r₀ s) :
    Keeps P r₀ (State.sendPitchReq s p i code) := by
  unfold State.sendPitchReq
  try dsimp only
  repeat' (first
    | with_reducible assumption
    | (refine mask_mono ?_ hP; rfl)
    | intro _
    | with_reducible apply State.ropeOut_keeps
    | with_reducible apply State.modPitch_keeps)

theorem State.sendDones_keeps {P : Nat} {r₀ : State} {s : State} {p : Port} (hP : 3145729 ||| P = P) (hs : Keeps P r₀ s) :
    Keeps P r₀ (State.sendDones s p) := by
  unfold State.sendDones
  try dsimp only
  repeat' (first
    | with_reducible assumption
    | (refine mask_mono ?_ hP; rfl)
    | (intro _; try dsimp only)
    | with_reducible apply State.sendPitchReq_keeps
    | with_reducible apply State.modPitch_keeps
    | with_reducible apply keeps_foldl
    | with_reducible apply keeps_ite)

theorem State.clearDones_keeps {P : Nat} {r₀ : State} {s : State} {p : Port} (hP : 2097152 ||| P = P) (hs : Keeps P r₀ s) :
    Keeps P r₀ (State.clearDones s p) := by
  unfold State.clearDones
  try dsimp only
  repeat' (first
    | with_reducible assumption
    | (intro _; try dsimp only)
    | with_reducible apply State.modPitch_keeps
    | with_reducible apply keeps_foldl
    | with_reducible apply keeps_ite)

theorem State.advancePitch_keeps {P : Nat} {r₀ : State} {s : State} {p : Port} (hP : 3146343 ||| P = P) (hs : Keeps P r₀ s) :
    Keeps P r₀ (State.advancePitch s p) := by
  unfold State.advancePitch
  try dsimp only
  repeat' (first
    | with_reducible assumption
    | (refine mask_mono ?_ hP; rfl)
    | intro _
    | with_reducible apply State.clearDones_keeps
    | with_reducible apply State.setPitchState_keeps
    | with_reducible apply State.sendDones_keeps
    | with_reducible apply State.modPitch_keeps
    | with_reducible apply State.settleLanes_keeps
    | with_reducible apply keeps_ite)

theorem State.startLanes_keeps {P : Nat} {r₀ : State} {s : State} {p : Port} (hP : 3145732 ||| P = P) (hs : Keeps P r₀ s) :
    Keeps P r₀ (State.startLanes s p) := by
  unfold State.startLanes
  try dsimp only
  repeat' (first
    | with_reducible assumption
    | (refine mask_mono ?_ hP; rfl)
    | (intro _; try dsimp only)
    | with_reducible apply State.startFir_keeps
    | with_reducible apply State.txIdle_keeps
    | with_reducible apply State.wrB_keeps
    | with_reducible apply State.modPitch_keeps
    | with_reducible apply keeps_foldl
    | with_reducible apply keeps_ite)

theorem State.lockPitch_keeps {P : Nat} {r₀ : State} {s : State} {p : Port} (hP : 3146343 ||| P = P) (hs : Keeps P r₀ s) :
    Keeps P r₀ (State.lockPitch s p) := by
  unfold State.lockPitch
  try dsimp only
  repeat' (first
    | with_reducible assumption
    | (refine mask_mono ?_ hP; rfl)
    | intro _
    | with_reducible apply State.setPitchState_keeps
    | with_reducible apply State.modPitch_keeps
    | with_reducible apply State.startLanes_keeps
    | with_reducible apply State.advancePitch_keeps
    | with_reducible apply keeps_ite)

theorem State.settleRope_keeps {P : Nat} {r₀ : State} {s : State} (hP : 3146343 ||| P = P) (hs : Keeps P r₀ s) :
    Keeps P r₀ (State.settleRope s) := by
  unfold State.settleRope
  try dsimp only
  repeat' (first
    | with_reducible assumption
    | intro _
    | with_reducible apply State.lockPitch_keeps)

theorem State.releaseRope_keeps {P : Nat} {r₀ : State} {s : State} (hP : 3146359 ||| P = P) (hs : Keeps P r₀ s) :
    Keeps P r₀ (State.releaseRope s) := by
  unfold State.releaseRope
  try dsimp only
  repeat' (first
    | with_reducible assumption
    | (refine mask_mono ?_ hP; rfl)
    | intro _
    | with_reducible apply State.becomeHead_keeps
    | with_reducible apply State.settleRope_keeps
    | with_reducible apply State.wrB_keeps
    | with_reducible apply State.setAddress_keeps
    | with_reducible apply State.settleRole_keeps
    | with_reducible apply keeps_ite
    | split
    | with_reducible apply Keeps.set_rope)

theorem State.onPitchReq_keeps {P : Nat} {r₀ : State} {s : State} {p : Port} {i : Nat} {msg : List Byte} (hP : 3146343 ||| P = P) (hs : Keeps P r₀ s) :
    Keeps P r₀ (State.onPitchReq s p i msg) := by
  unfold State.onPitchReq
  try dsimp only
  repeat' (first
    | with_reducible assumption
    | (refine mask_mono ?_ hP; rfl)
    | intro _
    | with_reducible apply State.applyTrain_keeps
    | with_reducible apply State.ropeOut_keeps
    | with_reducible apply State.modPitch_keeps
    | with_reducible apply State.advancePitch_keeps
    | with_reducible refine State.applyTrain_of (by assumption) ?_ ?_
    | with_reducible apply keeps_ite)

theorem State.peerFields_keeps {P : Nat} {r₀ : State} {s : State} {p : Port} {msg : List Byte} (hP : 2097156 ||| P = P) (hs : Keeps P r₀ s) :
    Keeps P r₀ (State.peerFields s p msg) := by
  unfold State.peerFields
  try dsimp only
  repeat' (first
    | with_reducible assumption
    | (refine mask_mono ?_ hP; rfl)
    | intro _
    | with_reducible apply State.modPitch_keeps
    | with_reducible apply State.wrB_keeps
    | with_reducible apply State.wr_keeps)

theorem State.retrainPitch_keeps {P : Nat} {r₀ : State} {s : State} {p : Port} (hP : 3146343 ||| P = P) (hs : Keeps P r₀ s) :
    Keeps P r₀ (State.retrainPitch s p) := by
  unfold State.retrainPitch
  try dsimp only
  repeat' (first
    | with_reducible assumption
    | (refine mask_mono ?_ hP; rfl)
    | (intro _; try dsimp only)
    | with_reducible apply State.modPitch_keeps
    | with_reducible apply State.txIdle_keeps
    | with_reducible apply State.settleLanes_keeps
    | with_reducible apply keeps_foldl)

theorem State.checkRate_keeps {P : Nat} {r₀ : State} {s : State} {p : Port} (hP : 3146343 ||| P = P) (hs : Keeps P r₀ s) :
    Keeps P r₀ (State.checkRate s p) := by
  unfold State.checkRate
  try dsimp only
  repeat' (first
    | with_reducible assumption
    | intro _
    | with_reducible apply State.retrainPitch_keeps
    | with_reducible apply keeps_ite)

theorem State.powerPitch_keeps {P : Nat} {r₀ : State} {s : State} {p : Port} (hP : 3146343 ||| P = P) (hs : Keeps P r₀ s) :
    Keeps P r₀ (State.powerPitch s p) := by
  unfold State.powerPitch
  try dsimp only
  repeat' (first
    | with_reducible assumption
    | (refine mask_mono ?_ hP; rfl)
    | intro _
    | with_reducible apply State.sendLocal_keeps
    | with_reducible apply State.checkRate_keeps
    | with_reducible apply keeps_ite)

theorem State.hopForward_keeps {P : Nat} {r₀ : State} {s : State} {p : Port} {mail : Bool} {lead : Nat} (hP : 3146359 ||| P = P) (hs : Keeps P r₀ s) :
    Keeps P r₀ (State.hopForward s p mail lead) := by
  unfold State.hopForward
  try dsimp only
  repeat' (first
    | with_reducible assumption
    | (refine mask_mono ?_ hP; rfl)
    | intro _
    | with_reducible apply State.tryHop_keeps
    | with_reducible apply State.powerPitch_keeps
    | with_reducible apply keeps_ite)

theorem State.enterUp_keeps {P : Nat} {r₀ : State} {s : State} {p : Port} {ver : Nat} (hP : 3146359 ||| P = P) (hs : Keeps P r₀ s) :
    Keeps P r₀ (State.enterUp s p ver) := by
  unfold State.enterUp
  try dsimp only
  repeat' (first
    | with_reducible assumption
    | (refine mask_mono ?_ hP; rfl)
    | (intro _; try dsimp only)
    | with_reducible apply State.setPitchState_keeps
    | with_reducible apply State.wr_keeps
    | with_reducible apply State.modPitch_keeps
    | with_reducible apply State.saveFir_keeps
    | with_reducible apply State.settleLanes_keeps
    | with_reducible apply State.raise_keeps
    | with_reducible apply State.wrB_keeps
    | with_reducible apply State.setAddress_keeps
    | with_reducible apply State.settleRole_keeps
    | with_reducible apply State.sendEnum_keeps
    | with_reducible apply keeps_foldl
    | with_reducible apply keeps_ite
    | split
    | with_reducible apply Keeps.set_rope)

theorem State.onHello_keeps {P : Nat} {r₀ : State} {s : State} {p : Port} {msg : List Byte} (hP : 3146359 ||| P = P) (hs : Keeps P r₀ s) :
    Keeps P r₀ (State.onHello s p msg) := by
  unfold State.onHello
  try dsimp only
  repeat' (first
    | with_reducible assumption
    | (refine mask_mono ?_ hP; rfl)
    | intro _
    | with_reducible apply State.pitchDown_keeps
    | with_reducible apply State.raise_keeps
    | with_reducible apply State.peerFields_keeps
    | with_reducible apply State.enterUp_keeps
    | with_reducible apply State.checkRate_keeps
    | with_reducible apply keeps_ite)

theorem State.onBelay_keeps {P : Nat} {r₀ : State} {s : State} {p : Port} {msg : List Byte} (hP : 2097152 ||| P = P) (hs : Keeps P r₀ s) :
    Keeps P r₀ (State.onBelay s p msg) := by
  unfold State.onBelay
  try dsimp only
  repeat' (first
    | with_reducible assumption
    | intro _
    | with_reducible apply State.modPitch_keeps
    | with_reducible apply State.freeBlocks_keeps
    | with_reducible apply keeps_ite)

theorem State.sendBelay_keeps {P : Nat} {r₀ : State} {s : State} {p : Port} {mail : Bool} (hP : 3145729 ||| P = P) (hs : Keeps P r₀ s) :
    Keeps P r₀ (State.sendBelay s p mail) := by
  unfold State.sendBelay
  try dsimp only
  repeat' (first
    | with_reducible assumption
    | (refine mask_mono ?_ hP; rfl)
    | intro _
    | with_reducible apply State.ropeOut_keeps
    | with_reducible apply State.modPitch_keeps
    | split)

theorem State.recvHop_keeps {P : Nat} {r₀ : State} {s : State} {p : Port} {msg : List Byte} (hP : 2097152 ||| P = P) (hs : Keeps P r₀ s) :
    Keeps P r₀ (State.recvHop s p msg) := by
  unfold State.recvHop
  try dsimp only
  repeat' (first
    | with_reducible assumption
    | intro _
    | with_reducible apply State.countRecv_keeps)

theorem State.consumeHop_keeps {P : Nat} {r₀ : State} {s : State} {p : Port} {msg : List Byte} (hP : 2097152 ||| P = P) (hs : Keeps P r₀ s) :
    Keeps P r₀ (State.consumeHop s p msg) := by
  unfold State.consumeHop
  try dsimp only
  repeat' (first
    | with_reducible assumption
    | intro _
    | with_reducible apply State.recvHop_keeps
    | with_reducible apply State.freeBlocks_keeps)

theorem State.forwardHop_keeps {P : Nat} {r₀ : State} {s : State} {p : Port} {msg : List Byte} (hP : 2097767 ||| P = P) (hs : Keeps P r₀ s) :
    Keeps P r₀ (State.forwardHop s p msg) := by
  unfold State.forwardHop
  try dsimp only
  repeat' (first
    | with_reducible assumption
    | (refine mask_mono ?_ hP; rfl)
    | intro _
    | with_reducible apply State.recvHop_keeps
    | with_reducible apply State.queueHop_keeps)

theorem State.onEnum_keeps {P : Nat} {r₀ : State} {s : State} {msg : List Byte} (hP : 3146359 ||| P = P) (hs : Keeps P r₀ s) :
    Keeps P r₀ (State.onEnum s msg) := by
  unfold State.onEnum
  try dsimp only
  repeat' (first
    | with_reducible assumption
    | (refine mask_mono ?_ hP; rfl)
    | intro _
    | with_reducible apply State.consumeHop_keeps
    | with_reducible apply State.wrB_keeps
    | with_reducible apply State.setAddress_keeps
    | with_reducible apply State.sendEnum_keeps
    | with_reducible apply State.actTail_keeps
    | with_reducible apply State.raise_keeps
    | with_reducible apply keeps_ite
    | split
    | with_reducible apply Keeps.set_rope)

theorem State.onEnumDone_keeps {P : Nat} {r₀ : State} {s : State} {msg : List Byte} (hP : 3146359 ||| P = P) (hs : Keeps P r₀ s) :
    Keeps P r₀ (State.onEnumDone s msg) := by
  unfold State.onEnumDone
  try dsimp only
  repeat' (first
    | with_reducible assumption
    | (refine mask_mono ?_ hP; rfl)
    | intro _
    | with_reducible apply State.consumeHop_keeps
    | with_reducible apply State.wrB_keeps
    | with_reducible apply State.setTotal_keeps
    | with_reducible apply State.raise_keeps
    | with_reducible apply State.sendEnumDone_keeps
    | with_reducible apply keeps_ite)

theorem State.onAlarm_keeps {P : Nat} {r₀ : State} {s : State} {p : Port} {msg : List Byte} (hP : 2097767 ||| P = P) (hs : Keeps P r₀ s) :
    Keeps P r₀ (State.onAlarm s p msg) := by
  unfold State.onAlarm
  try dsimp only
  repeat' (first
    | with_reducible assumption
    | (refine mask_mono ?_ hP; rfl)
    | intro _
    | with_reducible apply State.forwardHop_keeps
    | with_reducible apply State.wrB_keeps
    | with_reducible apply State.wr_keeps
    | with_reducible apply State.raise_keeps
    | with_reducible apply keeps_ite)

theorem State.sendMailAck_keeps {P : Nat} {r₀ : State} {s : State} {p : Port} {dst : Nat} {tag : Nat} {result : Nat} (hP : 3146359 ||| P = P) (hs : Keeps P r₀ s) :
    Keeps P r₀ (State.sendMailAck s p dst tag result) := by
  unfold State.sendMailAck
  try dsimp only
  repeat' (first
    | with_reducible assumption
    | intro _
    | with_reducible apply State.originate_keeps)

theorem State.queueMail_keeps {P : Nat} {r s : State} {src : Nat} {payload : List Byte} (hP : 2097767 ||| P = P) (h : Keeps P r s) :
    Keeps P r (s.queueMail src payload).2 := by
  unfold State.queueMail
  split
  · exact State.raise_keeps (mask_mono rfl hP) (h.set_rope (mask_mono rfl hP))
  · exact State.mailDrop_keeps (mask_mono rfl hP) h

theorem State.queueMail_of {P : Nat} {r s t : State} {src a : Nat} {payload : List Byte} (he : s.queueMail src payload = (a, t))
    (hP : 2097767 ||| P = P) (h : Keeps P r s) : Keeps P r t := by
  have := State.queueMail_keeps (src := src) (payload := payload) hP h
  rwa [he] at this

theorem State.takeMail_keeps {P : Nat} {r₀ : State} {s : State} {p : Port} {msg : List Byte} (hP : 3146359 ||| P = P) (hs : Keeps P r₀ s) :
    Keeps P r₀ (State.takeMail s p msg) := by
  unfold State.takeMail
  try dsimp only
  repeat' (first
    | with_reducible assumption
    | (refine mask_mono ?_ hP; rfl)
    | intro _
    | with_reducible apply State.queueMail_keeps
    | with_reducible apply State.sendMailAck_keeps)

theorem State.passMail_keeps {P : Nat} {r₀ : State} {s : State} {p : Port} {msg : List Byte} (hP : 3146359 ||| P = P) (hs : Keeps P r₀ s) :
    Keeps P r₀ (State.passMail s p msg) := by
  unfold State.passMail
  try dsimp only
  repeat' (first
    | with_reducible assumption
    | (refine mask_mono ?_ hP; rfl)
    | intro _
    | with_reducible apply State.consumeHop_keeps
    | with_reducible apply State.mailDrop_keeps
    | with_reducible apply State.sendMailAck_keeps
    | with_reducible apply State.forwardHop_keeps
    | with_reducible apply keeps_ite)

theorem State.onMail_keeps {P : Nat} {r₀ : State} {s : State} {p : Port} {msg : List Byte} (hP : 3146359 ||| P = P) (hs : Keeps P r₀ s) :
    Keeps P r₀ (State.onMail s p msg) := by
  unfold State.onMail
  try dsimp only
  repeat' (first
    | with_reducible assumption
    | (refine mask_mono ?_ hP; rfl)
    | intro _
    | with_reducible apply State.passMail_keeps
    | with_reducible apply State.takeMail_keeps
    | with_reducible apply State.consumeHop_keeps
    | with_reducible apply keeps_ite)

theorem State.sendLeave_keeps {P : Nat} {r₀ : State} {s : State} {p : Port} (hP : 1048577 ||| P = P) (hs : Keeps P r₀ s) :
    Keeps P r₀ (State.sendLeave s p) := by
  unfold State.sendLeave
  try dsimp only
  repeat' (first
    | with_reducible assumption
    | (intro _; try dsimp only)
    | with_reducible apply State.sendLocal_keeps
    | with_reducible apply keeps_foldl
    | with_reducible apply keeps_ite)

theorem State.startLeave_keeps {P : Nat} {r₀ : State} {s : State} (hP : 1049191 ||| P = P) (hs : Keeps P r₀ s) :
    Keeps P r₀ (State.startLeave s) := by
  unfold State.startLeave
  try dsimp only
  repeat' (first
    | with_reducible assumption
    | (refine mask_mono ?_ hP; rfl)
    | intro _
    | with_reducible apply State.sendLeave_keeps
    | with_reducible apply State.setAddress_keeps
    | with_reducible apply State.wrB_keeps)

theorem State.holdDown_keeps {P : Nat} {r₀ : State} {s : State} (hP : 3146359 ||| P = P) (hs : Keeps P r₀ s) :
    Keeps P r₀ (State.holdDown s) := by
  unfold State.holdDown
  try dsimp only
  repeat' (first
    | with_reducible assumption
    | (refine mask_mono ?_ hP; rfl)
    | intro _
    | with_reducible apply State.pitchDown_keeps
    | with_reducible apply Keeps.set_rope)

theorem State.join_keeps {P : Nat} {r₀ : State} {s : State} (hP : 3146359 ||| P = P) (hs : Keeps P r₀ s) :
    Keeps P r₀ (State.join s) := by
  unfold State.join
  try dsimp only
  repeat' (first
    | with_reducible assumption
    | (refine mask_mono ?_ hP; rfl)
    | intro _
    | with_reducible apply State.wrB_keeps
    | with_reducible apply State.releaseRope_keeps
    | with_reducible apply keeps_ite
    | split
    | with_reducible apply Keeps.set_rope)

theorem State.retrainPort_keeps {P : Nat} {r₀ : State} {s : State} {p : Port} (hP : 3146359 ||| P = P) (hs : Keeps P r₀ s) :
    Keeps P r₀ (State.retrainPort s p) := by
  unfold State.retrainPort
  try dsimp only
  repeat' (first
    | with_reducible assumption
    | (refine mask_mono ?_ hP; rfl)
    | intro _
    | with_reducible apply State.pitchDown_keeps
    | with_reducible apply State.settleRope_keeps
    | with_reducible apply keeps_ite)

end Sys2Proof.Machine
end

