-- ==== Sys2Proof/Laws/Mbox.lean ====
section
/-!
SUPPORT. What each operation of Machine/Mbox.lean leaves alone (see Laws/Keeps.lean).
-/
namespace Sys2Proof.Machine

theorem State.bufRead_keeps {P : Nat} {r₀ : State} {s : State} {c : MemClass} {e : Engine} {a : Nat} {n : Nat} (hP : 743 ||| P = P) (hs : Keeps P r₀ s) :
    Keeps P r₀ (State.bufRead s c e a n) := by
  unfold State.bufRead
  try dsimp only
  repeat' (first
    | with_reducible assumption
    | (refine mask_mono ?_ hP; rfl)
    | intro _
    | with_reducible apply State.account_keeps
    | with_reducible apply State.readFor_keeps
    | with_reducible apply keeps_ite)

theorem State.bufWrite_keeps {P : Nat} {r₀ : State} {s : State} {c : MemClass} {e : Engine} {a : Nat} {bs : List Byte} {poison : Bool} (hP : 743 ||| P = P) (hs : Keeps P r₀ s) :
    Keeps P r₀ (State.bufWrite s c e a bs poison) := by
  unfold State.bufWrite
  try dsimp only
  repeat' (first
    | with_reducible assumption
    | (refine mask_mono ?_ hP; rfl)
    | intro _
    | with_reducible apply State.account_keeps
    | with_reducible apply State.emit_keeps
    | with_reducible apply State.writeFor_keeps
    | with_reducible apply keeps_ite)

theorem State.opMbox_keeps {P : Nat} {r₀ : State} {s : State} {ring : Nat} {kind : Nat} {req : List Byte} {go : Ring → Desc → List Byte → Bool → State → State} (hP : 743 ||| P = P) (hs : Keeps P r₀ s) (hf : ∀ x0 x1 x2 x3 s, Keeps P r₀ s → Keeps P r₀ (go x0 x1 x2 x3 s)) :
    Keeps P r₀ (State.opMbox s ring kind req go) := by
  unfold State.opMbox
  try dsimp only
  repeat' (first
    | with_reducible assumption
    | (refine mask_mono ?_ hP; rfl)
    | (intro _; try dsimp only)
    | with_reducible apply State.withOp_keeps
    | with_reducible apply State.bufRead_keeps
    | with_reducible apply keeps_ite
    | split
    | with_reducible apply hf)

theorem State.respond_keeps {P : Nat} {r₀ : State} {s : State} {ring : Nat} {idx : Nat} {a : Nat} {most : Nat} {bs : List Byte} {flags : Nat} (hP : 743 ||| P = P) (hs : Keeps P r₀ s) :
    Keeps P r₀ (State.respond s ring idx a most bs flags) := by
  unfold State.respond
  try dsimp only
  repeat' (first
    | with_reducible assumption
    | (refine mask_mono ?_ hP; rfl)
    | intro _
    | with_reducible apply State.bufWrite_keeps
    | with_reducible apply State.complete_keeps)

theorem State.mboxOther_keeps {P : Nat} {r₀ : State} {s : State} {r : Ring} {d : Desc} {bad : Bool} (hP : 743 ||| P = P) (hs : Keeps P r₀ s) :
    Keeps P r₀ (State.mboxOther s r d bad) := by
  unfold State.mboxOther
  try dsimp only
  repeat' (first
    | with_reducible assumption
    | (refine mask_mono ?_ hP; rfl)
    | intro _
    | with_reducible apply State.drawn_keeps
    | with_reducible apply State.respond_keeps)

theorem State.endSend_keeps {P : Nat} {r₀ : State} {s : State} {w : SendWait} {result : Nat} {addr : Nat} (hP : 743 ||| P = P) (hs : Keeps P r₀ s) :
    Keeps P r₀ (State.endSend s w result addr) := by
  unfold State.endSend
  try dsimp only
  repeat' (first
    | with_reducible assumption
    | intro _
    | with_reducible apply State.respond_keeps
    | with_reducible apply State.poison_keeps
    | split)

theorem State.doSend_keeps {P : Nat} {r₀ : State} {s : State} {r : Ring} {d : Desc} {q : List Byte} {bad : Bool} (hP : 3146487 ||| P = P) (hs : Keeps P r₀ s) :
    Keeps P r₀ (State.doSend s r d q bad) := by
  unfold State.doSend
  try dsimp only
  repeat' (first
    | with_reducible assumption
    | (refine mask_mono ?_ hP; rfl)
    | intro _
    | with_reducible apply State.drawn_keeps
    | with_reducible apply State.endSend_keeps
    | with_reducible apply State.queueMail_keeps
    | with_reducible apply State.mailDrop_keeps
    | with_reducible apply State.takeTs_keeps
    | with_reducible apply State.originate_keeps
    | with_reducible refine State.queueMail_of (by assumption) ?_ ?_
    | with_reducible refine State.takeTs_of (by assumption) ?_ ?_
    | with_reducible apply keeps_ite
    | split
    | with_reducible apply Keeps.set_rope)

theorem State.doRecv_keeps {P : Nat} {r₀ : State} {s : State} {r : Ring} {d : Desc} {bad : Bool} (hP : 2097895 ||| P = P) (hs : Keeps P r₀ s) :
    Keeps P r₀ (State.doRecv s r d bad) := by
  unfold State.doRecv
  try dsimp only
  repeat' (first
    | with_reducible assumption
    | (refine mask_mono ?_ hP; rfl)
    | intro _
    | with_reducible apply State.respond_keeps
    | split
    | with_reducible apply Keeps.set_rope)

theorem State.endTag_keeps {P : Nat} {r₀ : State} {s : State} {tag : Nat} {result : Nat} {addr : Nat} (hP : 2097895 ||| P = P) (hs : Keeps P r₀ s) :
    Keeps P r₀ (State.endTag s tag result addr) := by
  unfold State.endTag
  try dsimp only
  repeat' (first
    | with_reducible assumption
    | (refine mask_mono ?_ hP; rfl)
    | intro _
    | with_reducible apply State.endSend_keeps
    | split
    | with_reducible apply Keeps.set_rope)

theorem State.onMailAck_keeps {P : Nat} {r₀ : State} {s : State} {p : Port} {msg : List Byte} (hP : 2097895 ||| P = P) (hs : Keeps P r₀ s) :
    Keeps P r₀ (State.onMailAck s p msg) := by
  unfold State.onMailAck
  try dsimp only
  repeat' (first
    | with_reducible assumption
    | (refine mask_mono ?_ hP; rfl)
    | intro _
    | with_reducible apply State.consumeHop_keeps
    | with_reducible apply State.forwardHop_keeps
    | with_reducible apply State.endTag_keeps
    | with_reducible apply keeps_ite)

end Sys2Proof.Machine
end

