-- ==== Sys2Proof/Laws/DecPics.lean ====
section
/-!
SUPPORT. What each operation of Machine/DecPics.lean leaves alone (see Laws/Keeps.lean).
-/
namespace Sys2Proof.Machine

theorem State.modDec_keeps {P : Nat} {r₀ : State} {s : State} {f : DecSt → DecSt} (hP : 32768 ||| P = P) (hs : Keeps P r₀ s) :
    Keeps P r₀ (State.modDec s f) := by
  unfold State.modDec
  try dsimp only
  repeat' (first
    | with_reducible assumption
    | intro _
    | with_reducible apply hf
    | with_reducible apply Keeps.set_dec)

theorem State.concealRow_keeps {P : Nat} {r₀ : State} {s : State} {uid : Nat} {depth : Bool} {r : Nat} {feed : Option Nat} (hP : 32772 ||| P = P) (hs : Keeps P r₀ s) :
    Keeps P r₀ (State.concealRow s uid depth r feed) := by
  unfold State.concealRow
  try dsimp only
  repeat' (first
    | with_reducible assumption
    | (refine mask_mono ?_ hP; rfl)
    | intro _
    | with_reducible apply State.modDec_keeps
    | with_reducible apply State.bump_keeps
    | split)

theorem State.concealRows_keeps {P : Nat} {r₀ : State} {s : State} {uid : Nat} {feed : Option Nat} {rows : List (Bool × Nat)} (hP : 33383 ||| P = P) (hs : Keeps P r₀ s) :
    Keeps P r₀ (State.concealRows s uid feed rows) := by
  unfold State.concealRows
  try dsimp only
  repeat' (first
    | with_reducible assumption
    | (refine mask_mono ?_ hP; rfl)
    | (intro _; try dsimp only)
    | with_reducible apply State.concealRow_keeps
    | with_reducible apply State.raise_keeps
    | with_reducible apply keeps_foldl
    | with_reducible apply keeps_ite)

theorem State.decWrite_keeps {P : Nat} {r₀ : State} {s : State} {a : Nat} {bs : List Byte} (hP : 743 ||| P = P) (hs : Keeps P r₀ s) :
    Keeps P r₀ (State.decWrite s a bs) := by
  unfold State.decWrite
  try dsimp only
  repeat' (first
    | with_reducible assumption
    | (refine mask_mono ?_ hP; rfl)
    | intro _
    | with_reducible apply State.writeFor_keeps
    | with_reducible apply State.raise_keeps
    | with_reducible apply keeps_ite)

theorem State.writeConceal_keeps {P : Nat} {r₀ : State} {s : State} {p : Pic} {depth : Bool} {r : Nat} {src : Option Pic} (hP : 33511 ||| P = P) (hs : Keeps P r₀ s) :
    Keeps P r₀ (State.writeConceal s p depth r src) := by
  unfold State.writeConceal
  try dsimp only
  repeat' (first
    | with_reducible assumption
    | (refine mask_mono ?_ hP; rfl)
    | intro _
    | with_reducible apply State.decWrite_keeps
    | with_reducible apply State.modDec_keeps
    | with_reducible apply State.readFor_keeps
    | with_reducible apply State.raise_keeps
    | with_reducible apply State.poison_keeps
    | with_reducible apply keeps_ite
    | split)

theorem State.concealCopy_keeps {P : Nat} {r₀ : State} {s : State} {n : Nat} (hP : 33511 ||| P = P) (hs : Keeps P r₀ s) :
    Keeps P r₀ (State.concealCopy s n) := by
  unfold State.concealCopy
  try dsimp only
  repeat' (first
    | with_reducible assumption
    | intro _
    | with_reducible apply State.writeConceal_keeps
    | with_reducible apply keeps_ite
    | split)

theorem State.countSubst_keeps {P : Nat} {r s : State} {n : Nat} (hP : 33383 ||| P = P) (h : Keeps P r s) :
    Keeps P r (s.countSubst n) := by
  induction n generalizing s with
  | zero => exact h
  | succ n ih =>
    exact ih (State.raise_keeps (mask_mono rfl hP) (State.bump_keeps (mask_mono rfl hP) (State.modDec_keeps (mask_mono rfl hP) h)))

theorem State.settleAwaited_keeps {P : Nat} {r₀ : State} {s : State} {uid : Nat} {anchor : Nat} {before : Nat} {e : Option (Nat × Nat)} (hP : 33383 ||| P = P) (hs : Keeps P r₀ s) :
    Keeps P r₀ (State.settleAwaited s uid anchor before e) := by
  unfold State.settleAwaited
  try dsimp only
  repeat' (first
    | with_reducible assumption
    | (refine mask_mono ?_ hP; rfl)
    | intro _
    | with_reducible apply State.modDec_keeps
    | with_reducible apply State.countSubst_keeps
    | with_reducible refine State.countSubst_of (by assumption) ?_ ?_
    | with_reducible apply keeps_ite
    | split)

theorem State.passPic_keeps {P : Nat} {r₀ : State} {s : State} {before : Nat} {p : Pic} (hP : 33383 ||| P = P) (hs : Keeps P r₀ s) :
    Keeps P r₀ (State.passPic s before p) := by
  unfold State.passPic
  try dsimp only
  repeat' (first
    | with_reducible assumption
    | (refine mask_mono ?_ hP; rfl)
    | (intro _; try dsimp only)
    | with_reducible apply State.settleAwaited_keeps
    | with_reducible apply State.concealRows_keeps
    | with_reducible apply State.modDec_keeps
    | with_reducible apply keeps_foldl
    | with_reducible apply keeps_ite)

theorem State.recordMissing_keeps {P : Nat} {r₀ : State} {s : State} {n : Nat} (hP : 33383 ||| P = P) (hs : Keeps P r₀ s) :
    Keeps P r₀ (State.recordMissing s n) := by
  unfold State.recordMissing
  try dsimp only
  repeat' (first
    | with_reducible assumption
    | (refine mask_mono ?_ hP; rfl)
    | intro _
    | with_reducible apply State.bump_keeps
    | with_reducible apply State.modDec_keeps
    | with_reducible apply State.raise_keeps
    | with_reducible apply keeps_ite)

theorem State.passPics_keeps {P : Nat} {r₀ : State} {s : State} {before : Nat} (hP : 33383 ||| P = P) (hs : Keeps P r₀ s) :
    Keeps P r₀ (State.passPics s before) := by
  unfold State.passPics
  try dsimp only
  repeat' (first
    | with_reducible assumption
    | (intro _; try dsimp only)
    | with_reducible apply State.passPic_keeps
    | with_reducible apply keeps_foldl)

theorem State.endAu_keeps {P : Nat} {r₀ : State} {s : State} (hP : 33383 ||| P = P) (hs : Keeps P r₀ s) :
    Keeps P r₀ (State.endAu s) := by
  unfold State.endAu
  try dsimp only
  repeat' (first
    | with_reducible assumption
    | (refine mask_mono ?_ hP; rfl)
    | intro _
    | with_reducible apply State.passPics_keeps
    | with_reducible apply State.recordMissing_keeps
    | with_reducible apply State.modDec_keeps
    | with_reducible apply keeps_ite
    | split)

theorem State.settleFeeds_keeps {P : Nat} {r₀ : State} {s : State} (hP : 33511 ||| P = P) (hs : Keeps P r₀ s) :
    Keeps P r₀ (State.settleFeeds s) := by
  unfold State.settleFeeds
  try dsimp only
  repeat' (first
    | with_reducible assumption
    | (refine mask_mono ?_ hP; rfl)
    | (intro _; try dsimp only)
    | with_reducible apply State.complete_keeps
    | with_reducible apply State.poison_keeps
    | with_reducible apply State.modDec_keeps
    | with_reducible apply keeps_foldl)

theorem State.damagedFeed_keeps {P : Nat} {r₀ : State} {s : State} {feed : Option Nat} (hP : 33383 ||| P = P) (hs : Keeps P r₀ s) :
    Keeps P r₀ (State.damagedFeed s feed) := by
  unfold State.damagedFeed
  try dsimp only
  repeat' (first
    | with_reducible assumption
    | (refine mask_mono ?_ hP; rfl)
    | intro _
    | with_reducible apply State.modDec_keeps
    | with_reducible apply State.raise_keeps)

theorem State.noteReads_keeps {P : Nat} {r₀ : State} {s : State} {j : Job} {reads : List RowRef} (hP : 32768 ||| P = P) (hs : Keeps P r₀ s) :
    Keeps P r₀ (State.noteReads s j reads) := by
  unfold State.noteReads
  try dsimp only
  repeat' (first
    | with_reducible assumption
    | intro _
    | with_reducible apply State.modDec_keeps)

theorem State.abandonJob_keeps {P : Nat} {r₀ : State} {s : State} {j : Job} (hP : 33511 ||| P = P) (hs : Keeps P r₀ s) :
    Keeps P r₀ (State.abandonJob s j) := by
  unfold State.abandonJob
  try dsimp only
  repeat' (first
    | with_reducible assumption
    | (refine mask_mono ?_ hP; rfl)
    | intro _
    | with_reducible apply State.modDec_keeps
    | with_reducible apply State.concealRows_keeps
    | with_reducible apply State.damagedFeed_keeps
    | with_reducible apply State.settleFeeds_keeps)

theorem State.boundsStop_keeps {P : Nat} {r₀ : State} {s : State} {j : Job} (hP : 33511 ||| P = P) (hs : Keeps P r₀ s) :
    Keeps P r₀ (State.boundsStop s j) := by
  unfold State.boundsStop
  try dsimp only
  repeat' (first
    | with_reducible assumption
    | (refine mask_mono ?_ hP; rfl)
    | intro _
    | with_reducible apply State.raise_keeps
    | with_reducible apply State.abandonJob_keeps)

theorem State.closeWindows_keeps {P : Nat} {r₀ : State} {s : State} (hP : 32768 ||| P = P) (hs : Keeps P r₀ s) :
    Keeps P r₀ (State.closeWindows s) := by
  unfold State.closeWindows
  try dsimp only
  repeat' (first
    | with_reducible assumption
    | intro _
    | with_reducible apply State.modDec_keeps)

theorem State.decFrameStart_keeps {P : Nat} {r₀ : State} {s : State} (hP : 32768 ||| P = P) (hs : Keeps P r₀ s) :
    Keeps P r₀ (State.decFrameStart s) := by
  unfold State.decFrameStart
  try dsimp only
  repeat' (first
    | with_reducible assumption
    | intro _
    | with_reducible apply State.modDec_keeps)

end Sys2Proof.Machine
end

