-- ==== Sys2Proof/Laws/DecLane.lean ====
section
/-!
SUPPORT. What each operation of Machine/DecLane.lean leaves alone (see Laws/Keeps.lean).
-/
namespace Sys2Proof.Machine

theorem State.finishSlice_keeps {P : Nat} {r₀ : State} {s : State} {j : Job} (hP : 33511 ||| P = P) (hs : Keeps P r₀ s) :
    Keeps P r₀ (State.finishSlice s j) := by
  unfold State.finishSlice
  try dsimp only
  repeat' (first
    | with_reducible assumption
    | (refine mask_mono ?_ hP; rfl)
    | intro _
    | with_reducible apply State.modDec_keeps
    | with_reducible apply State.damagedFeed_keeps
    | with_reducible apply State.settleFeeds_keeps
    | with_reducible apply keeps_ite)

theorem State.runLane_keeps {P : Nat} {r₀ s : State} {k : Nat} {j : Job} (hP : 33511 ||| P = P) (hs : Keeps P r₀ s) :
    Keeps P r₀ (s.runLane k j) := by
  induction k generalizing j s with
  | zero => exact State.finishSlice_keeps (mask_mono rfl hP) hs
  | succ k ih =>
    unfold State.runLane
    dsimp only
    split
    · exact State.boundsStop_keeps (mask_mono rfl hP) hs
    refine keeps_ite (State.finishSlice_keeps (mask_mono rfl hP) hs) (keeps_ite ?_ ?_)
    · split
      · exact State.abandonJob_keeps (mask_mono rfl hP) hs
      · exact ih hs
    · rename_i p _
      have hr : Keeps P r₀ ((s.decodeRow p j).1.foldl (fun s sp => s.readFor .dec .dec sp.1 sp.2)
          (s.drawn (p.refs.length * 2 ^ 27))) :=
        keeps_foldl (State.drawn_keeps (mask_mono rfl hP) hs) fun _ _ h => State.readFor_keeps (mask_mono rfl hP) h
      have hn : ∀ l, Keeps P r₀ (State.noteReads _ j l) := fun _ => State.noteReads_keeps (mask_mono rfl hP) hr
      split
      · exact State.abandonJob_keeps (mask_mono rfl hP) (hn _)
      · exact State.modDec_keeps (mask_mono rfl hP) hr
      · exact State.boundsStop_keeps (mask_mono rfl hP) (State.windowMiss_keeps (mask_mono rfl hP) (hn _))
      · refine keeps_ite (ih ?_) (State.modDec_keeps (mask_mono rfl hP) hr)
        exact State.concealRows_keeps (mask_mono rfl hP) (State.modDec_keeps (mask_mono rfl hP) (hn _))

theorem State.sliceDispatch_keeps {P : Nat} {r₀ : State} {s : State} (hP : 33511 ||| P = P) (hs : Keeps P r₀ s) :
    Keeps P r₀ (State.sliceDispatch s) := by
  unfold State.sliceDispatch
  try dsimp only
  repeat' (first
    | with_reducible assumption
    | intro _
    | with_reducible apply State.runLane_keeps
    | with_reducible refine State.runLane_of (by assumption) ?_ ?_
    | with_reducible apply keeps_ite
    | split)

theorem State.sliceResume_keeps {P : Nat} {r₀ : State} {s : State} (hP : 32768 ||| P = P) (hs : Keeps P r₀ s) :
    Keeps P r₀ (State.sliceResume s) := by
  unfold State.sliceResume
  try dsimp only
  repeat' (first
    | with_reducible assumption
    | intro _
    | with_reducible apply State.modDec_keeps)

theorem State.sbrowFinal_keeps {P : Nat} {r₀ : State} {s : State} {n : Nat} (hP : 33511 ||| P = P) (hs : Keeps P r₀ s) :
    Keeps P r₀ (State.sbrowFinal s n) := by
  unfold State.sbrowFinal
  try dsimp only
  repeat' (first
    | with_reducible assumption
    | (refine mask_mono ?_ hP; rfl)
    | intro _
    | with_reducible apply State.boundsStop_keeps
    | with_reducible apply State.noteReads_keeps
    | with_reducible apply State.windowMiss_keeps
    | with_reducible apply State.writeFor_keeps
    | with_reducible apply State.modDec_keeps
    | with_reducible apply State.runLane_keeps
    | with_reducible refine State.runLane_of (by assumption) ?_ ?_
    | with_reducible apply keeps_ite
    | split)

end Sys2Proof.Machine
end

