-- ==== Sys2Proof/Laws/DecRepair.lean ====
section
/-!
SUPPORT. What each operation of Machine/DecRepair.lean leaves alone (see Laws/Keeps.lean).
-/
namespace Sys2Proof.Machine

theorem State.archiveCopy_keeps {P : Nat} {r₀ : State} {s : State} {sid : Nat} {feed : Option Nat} {bs : List Byte} (hP : 33511 ||| P = P) (hs : Keeps P r₀ s) :
    Keeps P r₀ (State.archiveCopy s sid feed bs).1 := by
  unfold State.archiveCopy
  dsimp only
  split
  · dsimp only
    refine State.modDec_keeps (mask_mono rfl hP) ?_
    have : ∀ (l : List (Nat × Nat)) (p : State × List Byte), Keeps P r₀ p.1 →
        Keeps P r₀ (l.foldl (fun (p : State × List Byte) sp =>
          (p.1.writeFor .dec .dec sp.1 (p.2.take sp.2), p.2.drop sp.2)) p).1 := by
      intro l
      induction l with
      | nil => exact fun _ h => h
      | cons a l ih => exact fun p h => ih _ (State.writeFor_keeps (mask_mono rfl hP) h)
    exact this _ (s, bs) hs
  · exact State.windowMiss_keeps (mask_mono rfl hP) hs

theorem State.archiveCopy_of {P : Nat} {r₀ t : State} {b₀ : Bool} {s : State} {sid : Nat} {feed : Option Nat} {bs : List Byte} (he : State.archiveCopy s sid feed bs = (t, b₀)) (hP : 33511 ||| P = P)
    (hs : Keeps P r₀ s) : Keeps P r₀ t := by
  have := State.archiveCopy_keeps (s := s) (sid := sid) (feed := feed) (bs := bs) hP hs
  rwa [he] at this

theorem State.copyRow_keeps {P : Nat} {r₀ : State} {s : State} {p : Pic} {q : Pic} {depth : Bool} {r : Nat} (hP : 743 ||| P = P) (hs : Keeps P r₀ s) :
    Keeps P r₀ (State.copyRow s p q depth r) := by
  unfold State.copyRow
  try dsimp only
  repeat' (first
    | with_reducible assumption
    | (refine mask_mono ?_ hP; rfl)
    | intro _
    | with_reducible apply State.readFor_keeps
    | with_reducible apply State.decWrite_keeps
    | with_reducible apply State.poison_keeps
    | with_reducible apply State.drawn_keeps)

theorem State.openVersion_keeps {P : Nat} {r₀ s t : State} {keep : List Nat} {set : List RowId} {uid : Nat}
    (he : s.openVersion keep set uid = some t) (hP : 33511 ||| P = P) (hs : Keeps P r₀ s) : Keeps P r₀ t := by
  unfold State.openVersion at he
  dsimp only at he
  split at he
  · cases he
  split at he
  · cases he
    exact hs
  split at he
  · cases he
  · cases he
    exact keeps_foldl (State.drawn_keeps (mask_mono rfl hP) (State.modDec_keeps (mask_mono rfl hP) hs))
      fun _ _ h => State.copyRow_keeps (mask_mono rfl hP) h

theorem State.openVersions_of {P : Nat} {r₀ s t : State} {keep : List Nat} {set : List RowId} {us : List Nat}
    (he : s.openVersions keep set us = some t) (hP : 33511 ||| P = P) (hs : Keeps P r₀ s) : Keeps P r₀ t := by
  induction us generalizing s with
  | nil =>
    cases he
    exact hs
  | cons u us ih =>
    unfold State.openVersions at he
    split at he
    · cases he
    · rename_i t' h'
      exact ih he (State.openVersion_keeps h' hP hs)

theorem State.squashRow_keeps {P : Nat} {r₀ : State} {s : State} {late : List RowId} {r : RowId} (hP : 32772 ||| P = P) (hs : Keeps P r₀ s) :
    Keeps P r₀ (State.squashRow s late r) := by
  unfold State.squashRow
  try dsimp only
  repeat' (first
    | with_reducible assumption
    | (refine mask_mono ?_ hP; rfl)
    | intro _
    | with_reducible apply State.modDec_keeps
    | with_reducible apply State.concealRow_keeps
    | with_reducible apply keeps_ite
    | split)

theorem State.ignoreLate_keeps {P : Nat} {r₀ : State} {s : State} {cause : Nat} (hP : 615 ||| P = P) (hs : Keeps P r₀ s) :
    Keeps P r₀ (State.ignoreLate s cause) := by
  unfold State.ignoreLate
  try dsimp only
  repeat' (first
    | with_reducible assumption
    | (refine mask_mono ?_ hP; rfl)
    | intro _
    | with_reducible apply State.bump_keeps
    | with_reducible apply State.wr_keeps
    | with_reducible apply State.raise_keeps)

theorem State.lateSlice_keeps {P : Nat} {r₀ : State} {s : State} {p : Pic} {job : Job} {parcel : List Byte} (hP : 33511 ||| P = P) (hs : Keeps P r₀ s) :
    Keeps P r₀ (State.lateSlice s p job parcel) := by
  unfold State.lateSlice
  try dsimp only
  repeat' (first
    | with_reducible assumption
    | (refine mask_mono ?_ hP; rfl)
    | (intro _; try dsimp only)
    | with_reducible apply State.ignoreLate_keeps
    | with_reducible apply State.openVersions_keeps
    | with_reducible apply State.squashRow_keeps
    | with_reducible apply State.archiveCopy_keeps
    | with_reducible apply State.modDec_keeps
    | with_reducible apply State.bump_keeps
    | with_reducible apply State.raise_keeps
    | with_reducible apply State.boundsStop_keeps
    | with_reducible refine State.openVersions_of (by assumption) ?_ ?_
    | with_reducible refine State.archiveCopy_of (by assumption) ?_ ?_
    | with_reducible apply keeps_foldl
    | with_reducible apply keeps_ite
    | split)

theorem State.decGuard_keeps {P : Nat} {r₀ : State} {s : State} (hP : 32768 ||| P = P) (hs : Keeps P r₀ s) :
    Keeps P r₀ (State.decGuard s) := by
  unfold State.decGuard
  try dsimp only
  repeat' (first
    | with_reducible assumption
    | intro _
    | with_reducible apply State.modDec_keeps)

theorem State.decPublish_keeps {P : Nat} {r₀ : State} {s : State} (hP : 33383 ||| P = P) (hs : Keeps P r₀ s) :
    Keeps P r₀ (State.decPublish s) := by
  unfold State.decPublish
  try dsimp only
  repeat' (first
    | with_reducible assumption
    | (refine mask_mono ?_ hP; rfl)
    | intro _
    | with_reducible apply State.modDec_keeps
    | with_reducible apply State.raise_keeps
    | with_reducible apply keeps_ite
    | split)

theorem State.cancelRepair_keeps {P : Nat} {r₀ : State} {s : State} (hP : 32768 ||| P = P) (hs : Keeps P r₀ s) :
    Keeps P r₀ (State.cancelRepair s) := by
  unfold State.cancelRepair
  try dsimp only
  repeat' (first
    | with_reducible assumption
    | intro _
    | with_reducible apply State.modDec_keeps
    | split)

theorem State.concealLost_keeps {P : Nat} {r₀ : State} {s : State} (hP : 33383 ||| P = P) (hs : Keeps P r₀ s) :
    Keeps P r₀ (State.concealLost s) := by
  unfold State.concealLost
  try dsimp only
  repeat' (first
    | with_reducible assumption
    | (intro _; try dsimp only)
    | with_reducible apply State.concealRows_keeps
    | with_reducible apply keeps_foldl)

theorem State.abortFeed_keeps {P : Nat} {r₀ : State} {s : State} {ring : Nat} {idx : Nat} (hP : 33383 ||| P = P) (hs : Keeps P r₀ s) :
    Keeps P r₀ (State.abortFeed s ring idx) := by
  unfold State.abortFeed
  try dsimp only
  repeat' (first
    | with_reducible assumption
    | (refine mask_mono ?_ hP; rfl)
    | (intro _; try dsimp only)
    | with_reducible apply State.modDec_keeps
    | with_reducible apply State.concealRows_keeps
    | with_reducible apply keeps_foldl
    | with_reducible apply keeps_ite
    | split)

end Sys2Proof.Machine
end

