-- ==== Sys2Proof/Laws/Enc.lean ====
section
/-!
SUPPORT. What each operation of Machine/Enc.lean leaves alone (see Laws/Keeps.lean).
-/
namespace Sys2Proof.Machine

theorem State.modEnc_keeps {P : Nat} {r₀ : State} {s : State} {f : EncSt → EncSt} (hP : 262144 ||| P = P) (hs : Keeps P r₀ s) :
    Keeps P r₀ (State.modEnc s f) := by
  unfold State.modEnc
  try dsimp only
  repeat' (first
    | with_reducible assumption
    | intro _
    | with_reducible apply hf
    | with_reducible apply Keeps.set_enc)

theorem State.encFail_keeps {P : Nat} {r₀ : State} {s : State} {ring : Nat} {idx : Nat} {code : Nat} (hP : 582 ||| P = P) (hs : Keeps P r₀ s) :
    Keeps P r₀ (State.encFail s ring idx code) := by
  unfold State.encFail
  try dsimp only
  repeat' (first
    | with_reducible assumption
    | intro _
    | with_reducible apply State.complete_keeps)

theorem State.putPic_keeps {P : Nat} {r₀ : State} {s : State} {k : EncAnchor} {at_ : Nat} {pic : EncPic} (hP : 743 ||| P = P) (hs : Keeps P r₀ s) :
    Keeps P r₀ (State.putPic s k at_ pic) := by
  unfold State.putPic
  try dsimp only
  repeat' (first
    | with_reducible assumption
    | (intro _; try dsimp only)
    | with_reducible apply State.writeFor_keeps
    | with_reducible apply keeps_foldl)

theorem State.readPic_keeps {P : Nat} {r₀ : State} {s : State} {k : EncAnchor} {at_ : Nat} (hP : 743 ||| P = P) (hs : Keeps P r₀ s) :
    Keeps P r₀ (State.readPic s k at_) := by
  unfold State.readPic
  try dsimp only
  repeat' (first
    | with_reducible assumption
    | intro _
    | with_reducible apply State.readFor_keeps)

theorem State.encAppend_keeps {P : Nat} {r₀ : State} {s : State} {x : EncSess} {bs : List Byte} (hP : 743 ||| P = P) (hs : Keeps P r₀ s) :
    Keeps P r₀ (State.encAppend s x bs).1 := by
  unfold State.encAppend
  try dsimp only
  repeat' (first
    | with_reducible assumption
    | intro _
    | with_reducible apply State.writeFor_keeps)

theorem State.encAppend_of {P : Nat} {r₀ t : State} {b₀ : EncSess} {s : State} {x : EncSess} {bs : List Byte} (he : State.encAppend s x bs = (t, b₀)) (hP : 743 ||| P = P)
    (hs : Keeps P r₀ s) : Keeps P r₀ t := by
  have := State.encAppend_keeps (s := s) (x := x) (bs := bs) hP hs
  rwa [he] at this

theorem State.encOpen_keeps {P : Nat} {r₀ : State} {s : State} {r : Ring} {d : Desc} {param : List Byte} (hP : 262887 ||| P = P) (hs : Keeps P r₀ s) :
    Keeps P r₀ (State.encOpen s r d param) := by
  unfold State.encOpen
  try dsimp only
  repeat' (first
    | with_reducible assumption
    | (refine mask_mono ?_ hP; rfl)
    | intro _
    | with_reducible apply State.bufRead_keeps
    | with_reducible apply State.encFail_keeps
    | with_reducible apply State.encAppend_keeps
    | with_reducible apply State.modEnc_keeps
    | with_reducible apply State.complete_keeps
    | with_reducible refine State.encAppend_of (by assumption) ?_ ?_
    | with_reducible apply keeps_ite
    | split)

theorem State.encPut_keeps {P : Nat} {r₀ : State} {s : State} {r : Ring} {d : Desc} {table : List Byte} (hP : 262887 ||| P = P) (hs : Keeps P r₀ s) :
    Keeps P r₀ (State.encPut s r d table) := by
  unfold State.encPut
  try dsimp only
  repeat' (first
    | with_reducible assumption
    | (refine mask_mono ?_ hP; rfl)
    | intro _
    | with_reducible apply State.encFail_keeps
    | with_reducible apply State.bufRead_keeps
    | with_reducible apply State.modEnc_keeps
    | split)

theorem State.encClose_keeps {P : Nat} {r₀ : State} {s : State} {r : Ring} {d : Desc} (hP : 262887 ||| P = P) (hs : Keeps P r₀ s) :
    Keeps P r₀ (State.encClose s r d) := by
  unfold State.encClose
  try dsimp only
  repeat' (first
    | with_reducible assumption
    | (refine mask_mono ?_ hP; rfl)
    | intro _
    | with_reducible apply State.encFail_keeps
    | with_reducible apply State.encAppend_keeps
    | with_reducible apply State.modEnc_keeps
    | with_reducible apply State.complete_keeps
    | with_reducible refine State.encAppend_of (by assumption) ?_ ?_
    | split)

theorem State.encKeyReq_keeps {P : Nat} {r₀ : State} {s : State} {val : Nat} (hP : 262144 ||| P = P) (hs : Keeps P r₀ s) :
    Keeps P r₀ (State.encKeyReq s val) := by
  unfold State.encKeyReq
  try dsimp only
  repeat' (first
    | with_reducible assumption
    | intro _
    | with_reducible apply State.modEnc_keeps)

theorem State.encAuStart_keeps {P : Nat} {r₀ : State} {s : State} {x : EncSess} {p : EncPut} {rest : List EncPut} (hP : 262887 ||| P = P) (hs : Keeps P r₀ s) :
    Keeps P r₀ (State.encAuStart s x p rest) := by
  unfold State.encAuStart
  try dsimp only
  repeat' (first
    | with_reducible assumption
    | (refine mask_mono ?_ hP; rfl)
    | intro _
    | with_reducible apply State.modEnc_keeps
    | with_reducible apply State.encFail_keeps
    | with_reducible apply State.raise_keeps
    | with_reducible apply State.encAppend_keeps
    | with_reducible refine State.encAppend_of (by assumption) ?_ ?_
    | with_reducible apply keeps_ite)

theorem State.readRows_keeps {P : Nat} {r₀ : State} {s : State} {addr : Nat} {stride : Nat} {rows : Nat} {len : Nat} (hP : 743 ||| P = P) (hs : Keeps P r₀ s) :
    Keeps P r₀ (State.readRows s addr stride rows len) := by
  unfold State.readRows
  try dsimp only
  repeat' (first
    | with_reducible assumption
    | (intro _; try dsimp only)
    | with_reducible apply State.bufRead_keeps
    | with_reducible apply keeps_foldl)

theorem State.readRefs_keeps {P : Nat} {r₀ : State} {s : State} {x : EncSess} {au : EncAu} {a : Nat} {k : EncAnchor} (hP : 743 ||| P = P) (hs : Keeps P r₀ s) :
    Keeps P r₀ (State.readRefs s x au a k) := by
  unfold State.readRefs
  try dsimp only
  repeat' (first
    | with_reducible assumption
    | (intro _; try dsimp only)
    | with_reducible apply State.readPic_keeps
    | with_reducible apply keeps_foldl
    | split)

theorem State.encPicture_keeps {P : Nat} {r₀ : State} {s : State} {x : EncSess} {au : EncAu} {k : EncAnchor} {tex : List (Option Byte)} {dep : List (Option Byte)} (hP : 262887 ||| P = P) (hs : Keeps P r₀ s) :
    Keeps P r₀ (State.encPicture s x au k tex dep) := by
  unfold State.encPicture
  try dsimp only
  repeat' (first
    | with_reducible assumption
    | (refine mask_mono ?_ hP; rfl)
    | intro _
    | with_reducible apply State.poison_keeps
    | with_reducible apply State.readRows_keeps
    | with_reducible apply State.readRefs_keeps
    | with_reducible apply State.drawn_keeps
    | with_reducible apply State.putPic_keeps
    | with_reducible apply State.encAppend_keeps
    | with_reducible apply State.modEnc_keeps
    | with_reducible apply State.bump_keeps
    | with_reducible apply State.raise_keeps
    | with_reducible refine State.encAppend_of (by assumption) ?_ ?_
    | with_reducible apply keeps_ite)

theorem State.encAuDone_keeps {P : Nat} {r₀ : State} {s : State} {x : EncSess} {au : EncAu} (hP : 262887 ||| P = P) (hs : Keeps P r₀ s) :
    Keeps P r₀ (State.encAuDone s x au) := by
  unfold State.encAuDone
  try dsimp only
  repeat' (first
    | with_reducible assumption
    | (refine mask_mono ?_ hP; rfl)
    | intro _
    | with_reducible apply State.bufWrite_keeps
    | with_reducible apply State.modEnc_keeps
    | with_reducible apply State.bump_keeps
    | with_reducible apply State.complete_keeps
    | with_reducible apply State.poison_keeps
    | with_reducible apply State.raise_keeps
    | with_reducible apply keeps_ite)

theorem State.dropPut_keeps {P : Nat} {r₀ : State} {s : State} {x : EncSess} {idx : Nat} (hP : 262144 ||| P = P) (hs : Keeps P r₀ s) :
    Keeps P r₀ (State.dropPut s x idx) := by
  unfold State.dropPut
  try dsimp only
  repeat' (first
    | with_reducible assumption
    | intro _
    | with_reducible apply State.modEnc_keeps
    | split)

theorem State.abortEnc_keeps {P : Nat} {r₀ : State} {s : State} {ring : Nat} {idx : Nat} (hP : 262144 ||| P = P) (hs : Keeps P r₀ s) :
    Keeps P r₀ (State.abortEnc s ring idx) := by
  unfold State.abortEnc
  try dsimp only
  repeat' (first
    | with_reducible assumption
    | intro _
    | with_reducible apply State.modEnc_keeps
    | with_reducible apply State.dropPut_keeps
    | with_reducible apply keeps_ite
    | split)

end Sys2Proof.Machine
end

