-- ==== Sys2Proof/Laws/Abort.lean ====
section
/-!
SUPPORT. What each operation of Machine/Abort.lean leaves alone (see Laws/Keeps.lean).
-/
namespace Sys2Proof.Machine

theorem State.dropLatch_keeps {P : Nat} {r₀ : State} {s : State} {ring : Nat} {idx : Nat} (hP : 12292 ||| P = P) (hs : Keeps P r₀ s) :
    Keeps P r₀ (State.dropLatch s ring idx) := by
  unfold State.dropLatch
  try dsimp only
  repeat' (first
    | with_reducible assumption
    | (refine mask_mono ?_ hP; rfl)
    | intro _
    | with_reducible apply State.commitBits_keeps
    | with_reducible apply Keeps.set_cmp_scn)

theorem State.abortAdmin_keeps {P : Nat} {r₀ : State} {s : State} {idx : Nat} (hP : 324 ||| P = P) (hs : Keeps P r₀ s) :
    Keeps P r₀ (State.abortAdmin s idx) := by
  unfold State.abortAdmin
  try dsimp only
  repeat' (first
    | with_reducible assumption
    | (refine mask_mono ?_ hP; rfl)
    | (intro (_ : State); try dsimp only)
    | (intro _ (_ : Keeps _ _ _); try dsimp only)
    | with_reducible apply State.wrB_keeps
    | with_reducible apply keeps_ite
    | exact fun hm => hm
    | split
    | with_reducible apply Keeps.set_hif
    | with_reducible apply Keeps.set_pwr
    | with_reducible apply Keeps.set_hif_pwr)

theorem State.abortSend_keeps {P : Nat} {r₀ : State} {s : State} {ring : Nat} {idx : Nat} (hP : 2097152 ||| P = P) (hs : Keeps P r₀ s) :
    Keeps P r₀ (State.abortSend s ring idx) := by
  unfold State.abortSend
  try dsimp only
  repeat' (first
    | with_reducible assumption
    | intro _
    | with_reducible apply Keeps.set_rope)

theorem State.abortStore_keeps {P : Nat} {r₀ : State} {s : State} {ring : Nat} {idx : Nat} (hP : 512 ||| P = P) (hs : Keeps P r₀ s) :
    Keeps P r₀ (State.abortStore s ring idx) := by
  unfold State.abortStore
  try dsimp only
  repeat' (first
    | with_reducible assumption
    | (intro (_ : State); try dsimp only)
    | (intro _ (_ : Keeps _ _ _); try dsimp only)
    | exact fun hw => Stores.wf_of rfl rfl hw
    | exact rfl
    | with_reducible apply Keeps.set_nvs)

theorem State.abortEffect_keeps {P : Nat} {r₀ : State} {s : State} {cls : Nat} {ring : Nat} {idx : Nat} (hP : 2536423 ||| P = P) (hs : Keeps P r₀ s) :
    Keeps P r₀ (State.abortEffect s cls ring idx) := by
  unfold State.abortEffect
  try dsimp only
  repeat' (first
    | with_reducible assumption
    | (refine mask_mono ?_ hP; rfl)
    | intro _
    | with_reducible apply State.abortAdmin_keeps
    | with_reducible apply State.abortFeed_keeps
    | with_reducible apply State.abortEnc_keeps
    | with_reducible apply State.abortBlt_keeps
    | with_reducible apply State.abortSend_keeps
    | with_reducible apply State.abortStore_keeps
    | with_reducible apply State.dropLatch_keeps
    | with_reducible apply keeps_ite)

theorem State.abortDesc_keeps {P : Nat} {r₀ : State} {s : State} {cls : Nat} {ring : Nat} {idx : Nat} (hP : 2536423 ||| P = P) (hs : Keeps P r₀ s) :
    Keeps P r₀ (State.abortDesc s cls ring idx) := by
  unfold State.abortDesc
  try dsimp only
  repeat' (first
    | with_reducible assumption
    | (refine mask_mono ?_ hP; rfl)
    | intro _
    | with_reducible apply State.bltHalt_keeps
    | with_reducible apply State.abortEffect_keeps
    | with_reducible apply State.complete_keeps
    | with_reducible apply keeps_ite)

theorem State.abortDescs_keeps {P : Nat} {r₀ : State} {s : State} {cls : Nat} {ring : Nat} {ds : List Desc} (hP : 2536423 ||| P = P) (hs : Keeps P r₀ s) :
    Keeps P r₀ (State.abortDescs s cls ring ds) := by
  unfold State.abortDescs
  try dsimp only
  repeat' (first
    | with_reducible assumption
    | (intro _; try dsimp only)
    | with_reducible apply State.abortDesc_keeps
    | with_reducible apply keeps_foldl)

theorem State.abortRing_keeps {P : Nat} {r₀ : State} {s : State} {ring : Nat} {below : Bool} (hP : 2536423 ||| P = P) (hs : Keeps P r₀ s) :
    Keeps P r₀ (State.abortRing s ring below).1 := by
  unfold State.abortRing
  try dsimp only
  repeat' (first
    | with_reducible assumption
    | (refine mask_mono ?_ hP; rfl)
    | intro _
    | with_reducible apply State.setRing_keeps
    | with_reducible apply State.abortDescs_keeps
    | with_reducible apply keeps_ite
    | split)

theorem State.abortRing_of {P : Nat} {r₀ t : State} {b₀ : Nat} {s : State} {ring : Nat} {below : Bool} (he : State.abortRing s ring below = (t, b₀)) (hP : 2536423 ||| P = P)
    (hs : Keeps P r₀ s) : Keeps P r₀ t := by
  have := State.abortRing_keeps (s := s) (ring := ring) (below := below) hP hs
  rwa [he] at this

theorem State.samplePi_keeps {P : Nat} {r₀ : State} {s : State} {ring : Nat} {pi : Nat} {ci : Nat} (hP : 615 ||| P = P) (hs : Keeps P r₀ s) :
    Keeps P r₀ (State.samplePi s ring pi ci) := by
  unfold State.samplePi
  try dsimp only
  repeat' (first
    | with_reducible assumption
    | (refine mask_mono ?_ hP; rfl)
    | intro _
    | with_reducible apply State.emit_keeps
    | with_reducible apply State.acceptPi_keeps
    | with_reducible apply keeps_ite
    | split)

theorem State.endAbort_keeps {P : Nat} {r₀ : State} {s : State} {a : AbortOp} (hP : 262759 ||| P = P) (hs : Keeps P r₀ s) :
    Keeps P r₀ (State.endAbort s a) := by
  unfold State.endAbort
  try dsimp only
  repeat' (first
    | with_reducible assumption
    | (refine mask_mono ?_ hP; rfl)
    | (intro (_ : State); try dsimp only)
    | (intro _ (_ : Keeps _ _ _); try dsimp only)
    | with_reducible apply State.finishDeletes_keeps
    | with_reducible apply State.complete_keeps
    | with_reducible apply State.hifAbortEnd_keeps
    | with_reducible apply keeps_ite
    | exact fun hm => hm
    | split
    | with_reducible apply Keeps.set_hif)

theorem State.abortPoint_keeps {P : Nat} {r₀ : State} {s : State} {ring : Nat} {pi : Nat} {ci : Nat} (hP : 2536423 ||| P = P) (hs : Keeps P r₀ s) :
    Keeps P r₀ (State.abortPoint s ring pi ci) := by
  unfold State.abortPoint
  try dsimp only
  repeat' (first
    | with_reducible assumption
    | (refine mask_mono ?_ hP; rfl)
    | (intro (_ : State); try dsimp only)
    | (intro _ (_ : Keeps _ _ _); try dsimp only)
    | with_reducible apply State.samplePi_keeps
    | with_reducible apply State.abortRing_keeps
    | with_reducible apply State.endAbort_keeps
    | with_reducible refine State.abortRing_of (by assumption) ?_ ?_
    | with_reducible apply keeps_ite
    | exact fun hm => hm
    | split
    | with_reducible apply Keeps.set_hif)

theorem State.abortClasses_keeps {P : Nat} {r₀ : State} {s : State} {sel : Nat → Bool} (hP : 2536423 ||| P = P) (hs : Keeps P r₀ s) :
    Keeps P r₀ (State.abortClasses s sel) := by
  unfold State.abortClasses
  try dsimp only
  repeat' (first
    | with_reducible assumption
    | (intro _; try dsimp only)
    | with_reducible apply State.abortRing_keeps
    | with_reducible refine State.abortRing_of (by assumption) ?_ ?_
    | with_reducible apply keeps_foldl)

theorem State.abortEngines_keeps {P : Nat} {r₀ : State} {s : State} (hP : 2536423 ||| P = P) (hs : Keeps P r₀ s) :
    Keeps P r₀ (State.abortEngines s) := by
  unfold State.abortEngines
  try dsimp only
  repeat' (first
    | with_reducible assumption
    | (intro _; try dsimp only)
    | with_reducible apply State.abortDescs_keeps
    | with_reducible apply keeps_foldl)

end Sys2Proof.Machine
end

