-- ==== Sys2Proof/Laws/DecParse.lean ====
section
/-!
SUPPORT. What each operation of Machine/DecParse.lean leaves alone (see Laws/Keeps.lean).
-/
namespace Sys2Proof.Machine

theorem State.badSeq_keeps {P : Nat} {r₀ : State} {s : State} {fid : Nat} (hP : 33383 ||| P = P) (hs : Keeps P r₀ s) :
    Keeps P r₀ (State.badSeq s fid) := by
  unfold State.badSeq
  try dsimp only
  repeat' (first
    | with_reducible assumption
    | (refine mask_mono ?_ hP; rfl)
    | intro _
    | with_reducible apply State.modDec_keeps
    | with_reducible apply State.damagedFeed_keeps)

theorem State.onSeq_keeps {P : Nat} {r₀ : State} {s : State} {fid : Nat} {p : Parcel} (hP : 33383 ||| P = P) (hs : Keeps P r₀ s) :
    Keeps P r₀ (State.onSeq s fid p) := by
  unfold State.onSeq
  try dsimp only
  repeat' (first
    | with_reducible assumption
    | (refine mask_mono ?_ hP; rfl)
    | intro _
    | with_reducible apply State.badSeq_keeps
    | with_reducible apply State.modDec_keeps
    | with_reducible apply State.raise_keeps
    | with_reducible apply keeps_ite)

theorem State.onGrid_keeps {P : Nat} {r₀ : State} {s : State} {fid : Nat} {p : Parcel} (hP : 33383 ||| P = P) (hs : Keeps P r₀ s) :
    Keeps P r₀ (State.onGrid s fid p) := by
  unfold State.onGrid
  try dsimp only
  repeat' (first
    | with_reducible assumption
    | (refine mask_mono ?_ hP; rfl)
    | intro _
    | with_reducible apply State.damagedFeed_keeps
    | with_reducible apply State.badSeq_keeps
    | with_reducible apply State.raise_keeps
    | with_reducible apply State.modDec_keeps
    | with_reducible apply keeps_ite
    | split)

theorem State.acceptAu_keeps {P : Nat} {r₀ : State} {s : State} {id : Nat} {key : Bool} (hP : 33383 ||| P = P) (hs : Keeps P r₀ s) :
    Keeps P r₀ (State.acceptAu s id key) := by
  unfold State.acceptAu
  try dsimp only
  repeat' (first
    | with_reducible assumption
    | (refine mask_mono ?_ hP; rfl)
    | intro _
    | with_reducible apply State.endAu_keeps
    | with_reducible apply State.modDec_keeps
    | with_reducible apply State.raise_keeps
    | with_reducible apply keeps_ite)

theorem State.onAu_keeps {P : Nat} {r₀ : State} {s : State} {fid : Nat} {p : Parcel} (hP : 33383 ||| P = P) (hs : Keeps P r₀ s) :
    Keeps P r₀ (State.onAu s fid p) := by
  unfold State.onAu
  try dsimp only
  repeat' (first
    | with_reducible assumption
    | (refine mask_mono ?_ hP; rfl)
    | intro _
    | with_reducible apply State.damagedFeed_keeps
    | with_reducible apply State.modDec_keeps
    | with_reducible apply State.acceptAu_keeps
    | with_reducible apply keeps_ite)

theorem State.admitPic_keeps {P : Nat} {r₀ : State} {s : State} {c : CurAu} {g : Grid} {view : Nat} {k : Nat} {b : Nat → Nat} (hP : 33383 ||| P = P) (hs : Keeps P r₀ s) :
    Keeps P r₀ (State.admitPic s c g view k b) := by
  unfold State.admitPic
  try dsimp only
  repeat' (first
    | with_reducible assumption
    | (refine mask_mono ?_ hP; rfl)
    | (intro _; try dsimp only)
    | with_reducible apply State.drawn_keeps
    | with_reducible apply State.modDec_keeps
    | with_reducible apply State.settleAwaited_keeps
    | with_reducible apply State.countSubst_keeps
    | with_reducible refine State.countSubst_of (by assumption) ?_ ?_
    | with_reducible apply keeps_foldl)

theorem State.onViewpic_keeps {P : Nat} {r₀ : State} {s : State} {fid : Nat} {p : Parcel} (hP : 33383 ||| P = P) (hs : Keeps P r₀ s) :
    Keeps P r₀ (State.onViewpic s fid p) := by
  unfold State.onViewpic
  try dsimp only
  repeat' (first
    | with_reducible assumption
    | (refine mask_mono ?_ hP; rfl)
    | intro _
    | with_reducible apply State.admitPic_keeps
    | with_reducible apply State.modDec_keeps
    | with_reducible apply State.raise_keeps
    | with_reducible apply State.damagedFeed_keeps
    | with_reducible apply keeps_ite
    | split)

theorem State.acceptSlice_keeps {P : Nat} {r₀ : State} {s : State} {job : Job} {parcel : List Byte} (hP : 33511 ||| P = P) (hs : Keeps P r₀ s) :
    Keeps P r₀ (State.acceptSlice s job parcel) := by
  unfold State.acceptSlice
  try dsimp only
  repeat' (first
    | with_reducible assumption
    | (refine mask_mono ?_ hP; rfl)
    | intro _
    | with_reducible apply State.archiveCopy_keeps
    | with_reducible apply State.modDec_keeps
    | with_reducible apply State.boundsStop_keeps
    | with_reducible refine State.archiveCopy_of (by assumption) ?_ ?_
    | with_reducible apply keeps_foldl
    | with_reducible apply keeps_ite)

theorem State.onSlice_keeps {P : Nat} {r₀ : State} {s : State} {fid : Nat} {depth : Bool} {p : Parcel} {raw : List Byte} (hP : 33511 ||| P = P) (hs : Keeps P r₀ s) :
    Keeps P r₀ (State.onSlice s fid depth p raw) := by
  unfold State.onSlice
  try dsimp only
  repeat' (first
    | with_reducible assumption
    | (refine mask_mono ?_ hP; rfl)
    | intro _
    | with_reducible apply State.damagedFeed_keeps
    | with_reducible apply State.ignoreLate_keeps
    | with_reducible apply State.lateSlice_keeps
    | with_reducible apply State.acceptSlice_keeps
    | with_reducible apply keeps_ite
    | split)

theorem State.onEnd_keeps {P : Nat} {r₀ : State} {s : State} {fid : Nat} {p : Parcel} (hP : 33383 ||| P = P) (hs : Keeps P r₀ s) :
    Keeps P r₀ (State.onEnd s fid p) := by
  unfold State.onEnd
  try dsimp only
  repeat' (first
    | with_reducible assumption
    | (refine mask_mono ?_ hP; rfl)
    | intro _
    | with_reducible apply State.damagedFeed_keeps
    | with_reducible apply State.endAu_keeps
    | with_reducible apply State.modDec_keeps
    | with_reducible apply keeps_ite)

theorem State.onIntact_keeps {P : Nat} {r₀ : State} {s : State} {fid : Nat} {k : PKind} {p : Parcel} {raw : List Byte} (hP : 33511 ||| P = P) (hs : Keeps P r₀ s) :
    Keeps P r₀ (State.onIntact s fid k p raw) := by
  unfold State.onIntact
  try dsimp only
  repeat' (first
    | with_reducible assumption
    | (refine mask_mono ?_ hP; rfl)
    | intro _
    | with_reducible apply State.onSeq_keeps
    | with_reducible apply State.damagedFeed_keeps
    | with_reducible apply State.onGrid_keeps
    | with_reducible apply State.onAu_keeps
    | with_reducible apply State.onViewpic_keeps
    | with_reducible apply State.onSlice_keeps
    | with_reducible apply State.onEnd_keeps
    | with_reducible apply keeps_ite
    | split)

theorem State.takeParcel_keeps {P : Nat} {r₀ : State} {s : State} {f : Feed} {bs : List MByte} (hP : 33511 ||| P = P) (hs : Keeps P r₀ s) :
    Keeps P r₀ (State.takeParcel s f bs).1 := by
  unfold State.takeParcel
  try dsimp only
  repeat' (first
    | with_reducible assumption
    | (refine mask_mono ?_ hP; rfl)
    | intro _
    | with_reducible apply State.poison_keeps
    | with_reducible apply State.readFor_keeps
    | with_reducible apply State.modDec_keeps
    | with_reducible apply State.bump_keeps
    | split)

theorem State.takeParcel_of {P : Nat} {r₀ t : State} {b₀ : Bool} {s : State} {f : Feed} {bs : List MByte} (he : State.takeParcel s f bs = (t, b₀)) (hP : 33511 ||| P = P)
    (hs : Keeps P r₀ s) : Keeps P r₀ t := by
  have := State.takeParcel_keeps (s := s) (f := f) (bs := bs) hP hs
  rwa [he] at this

theorem State.parse_keeps {P : Nat} {r₀ : State} {s : State} {want : PKind} (hP : 33511 ||| P = P) (hs : Keeps P r₀ s) :
    Keeps P r₀ (State.parse s want) := by
  unfold State.parse
  try dsimp only
  repeat' (first
    | with_reducible assumption
    | (refine mask_mono ?_ hP; rfl)
    | intro _
    | with_reducible apply State.takeParcel_keeps
    | with_reducible apply State.damagedFeed_keeps
    | with_reducible apply State.badSeq_keeps
    | with_reducible apply State.onIntact_keeps
    | with_reducible apply State.settleFeeds_keeps
    | with_reducible refine State.takeParcel_of (by assumption) ?_ ?_
    | with_reducible apply keeps_ite
    | split)

theorem State.watchParser_keeps {P : Nat} {r₀ : State} {s : State} (hP : 33511 ||| P = P) (hs : Keeps P r₀ s) :
    Keeps P r₀ (State.watchParser s) := by
  unfold State.watchParser
  try dsimp only
  repeat' (first
    | with_reducible assumption
    | (refine mask_mono ?_ hP; rfl)
    | intro _
    | with_reducible apply State.takeParcel_keeps
    | with_reducible apply State.bump_keeps
    | with_reducible apply State.raise_keeps
    | with_reducible apply State.badSeq_keeps
    | with_reducible apply State.damagedFeed_keeps
    | with_reducible apply State.settleFeeds_keeps
    | with_reducible refine State.takeParcel_of (by assumption) ?_ ?_
    | with_reducible apply keeps_ite
    | split)

theorem State.watchLane_keeps {P : Nat} {r₀ : State} {s : State} {n : Nat} (hP : 33511 ||| P = P) (hs : Keeps P r₀ s) :
    Keeps P r₀ (State.watchLane s n) := by
  unfold State.watchLane
  try dsimp only
  repeat' (first
    | with_reducible assumption
    | (refine mask_mono ?_ hP; rfl)
    | intro _
    | with_reducible apply State.noteReads_keeps
    | with_reducible apply State.bump_keeps
    | with_reducible apply State.raise_keeps
    | with_reducible apply State.abandonJob_keeps
    | split)

theorem State.addFeed_keeps {P : Nat} {r₀ : State} {s : State} {f : Feed} (hP : 32768 ||| P = P) (hs : Keeps P r₀ s) :
    Keeps P r₀ (State.addFeed s f) := by
  unfold State.addFeed
  try dsimp only
  repeat' (first
    | with_reducible assumption
    | intro _
    | with_reducible apply State.modDec_keeps)

theorem State.opStreamPush_keeps {P : Nat} {r₀ : State} {s : State} {ring : Nat} {data : List Byte} (hP : 33511 ||| P = P) (hs : Keeps P r₀ s) :
    Keeps P r₀ (State.opStreamPush s ring data) := by
  unfold State.opStreamPush
  try dsimp only
  repeat' (first
    | with_reducible assumption
    | (refine mask_mono ?_ hP; rfl)
    | (intro _; try dsimp only)
    | with_reducible apply State.withOp_keeps
    | with_reducible apply State.addFeed_keeps
    | with_reducible apply State.settleFeeds_keeps)

theorem State.opLoopPlay_keeps {P : Nat} {r₀ : State} {s : State} {ring : Nat} (hP : 33511 ||| P = P) (hs : Keeps P r₀ s) :
    Keeps P r₀ (State.opLoopPlay s ring) := by
  unfold State.opLoopPlay
  try dsimp only
  repeat' (first
    | with_reducible assumption
    | (refine mask_mono ?_ hP; rfl)
    | (intro _; try dsimp only)
    | with_reducible apply State.withOp_keeps
    | with_reducible apply State.addFeed_keeps
    | with_reducible apply State.settleFeeds_keeps)

theorem State.stopLoops_keeps {P : Nat} {r₀ : State} {s : State} (hP : 33511 ||| P = P) (hs : Keeps P r₀ s) :
    Keeps P r₀ (State.stopLoops s) := by
  unfold State.stopLoops
  try dsimp only
  repeat' (first
    | with_reducible assumption
    | (refine mask_mono ?_ hP; rfl)
    | intro _
    | with_reducible apply State.modDec_keeps
    | with_reducible apply State.settleFeeds_keeps)

theorem State.opStreamReset_keeps {P : Nat} {r₀ : State} {s : State} {ring : Nat} (hP : 33511 ||| P = P) (hs : Keeps P r₀ s) :
    Keeps P r₀ (State.opStreamReset s ring) := by
  unfold State.opStreamReset
  try dsimp only
  repeat' (first
    | with_reducible assumption
    | (refine mask_mono ?_ hP; rfl)
    | (intro _; try dsimp only)
    | with_reducible apply State.withOp_keeps
    | with_reducible apply State.stopLoops_keeps
    | with_reducible apply State.addFeed_keeps)

theorem State.takeDecSettings_keeps {P : Nat} {r₀ : State} {s : State} (hP : 32768 ||| P = P) (hs : Keeps P r₀ s) :
    Keeps P r₀ (State.takeDecSettings s) := by
  unfold State.takeDecSettings
  try dsimp only
  repeat' (first
    | with_reducible assumption
    | intro _
    | with_reducible apply State.modDec_keeps)

theorem State.decReset_keeps {P : Nat} {r₀ : State} {s : State} (hP : 33383 ||| P = P) (hs : Keeps P r₀ s) :
    Keeps P r₀ (State.decReset s) := by
  unfold State.decReset
  try dsimp only
  repeat' (first
    | with_reducible assumption
    | (refine mask_mono ?_ hP; rfl)
    | intro _
    | with_reducible apply State.cancelRepair_keeps
    | with_reducible apply State.endAu_keeps
    | with_reducible apply State.passPics_keeps
    | with_reducible apply State.concealLost_keeps
    | with_reducible apply State.modDec_keeps
    | with_reducible apply State.takeDecSettings_keeps)

theorem State.streamResetEffect_keeps {P : Nat} {r₀ : State} {s : State} (hP : 33383 ||| P = P) (hs : Keeps P r₀ s) :
    Keeps P r₀ (State.streamResetEffect s) := by
  unfold State.streamResetEffect
  try dsimp only
  repeat' (first
    | with_reducible assumption
    | (refine mask_mono ?_ hP; rfl)
    | intro _
    | with_reducible apply State.decReset_keeps
    | with_reducible apply State.modDec_keeps
    | with_reducible apply State.complete_keeps
    | with_reducible apply keeps_ite
    | split)

theorem State.decRestart_keeps {P : Nat} {r₀ : State} {s : State} {forget : Bool} {empty : Bool} (hP : 33383 ||| P = P) (hs : Keeps P r₀ s) :
    Keeps P r₀ (State.decRestart s forget empty) := by
  unfold State.decRestart
  try dsimp only
  repeat' (first
    | with_reducible assumption
    | (refine mask_mono ?_ hP; rfl)
    | intro _
    | with_reducible apply State.decReset_keeps
    | with_reducible apply State.modDec_keeps)

end Sys2Proof.Machine
end

