-- ==== Sys2Proof/Laws/Nvs.lean ====
section
/-!
SUPPORT. What each operation of Machine/Nvs.lean leaves alone (see Laws/Keeps.lean).
-/
namespace Sys2Proof.Machine

theorem State.modNvs_keeps {P : Nat} {r₀ s : State} {f : NvsSt → NvsSt} (hP : 512 ||| P = P) (hs : Keeps P r₀ s)
    (hw : Stores.wf s.nvs = true → Stores.wf (f s.nvs) = true) (hf : (f s.nvs).flash = s.nvs.flash) : Keeps P r₀ (s.modNvs f) :=
  hs.set_nvs hP hw hf

theorem State.logError_keeps {P : Nat} {r₀ : State} {s : State} {e : LogErr} (hP : 615 ||| P = P) (hs : Keeps P r₀ s) :
    Keeps P r₀ (State.logError s e) := by
  unfold State.logError
  try dsimp only
  repeat' (first
    | with_reducible assumption
    | (refine mask_mono ?_ hP; rfl)
    | (intro (_ : State); try dsimp only)
    | (intro _ (_ : Keeps _ _ _); try dsimp only)
    | with_reducible apply State.modNvs_keeps
    | with_reducible apply State.bump_keeps
    | with_reducible apply State.raise_keeps
    | with_reducible apply keeps_ite
    | exact fun hw => Stores.wf_of rfl rfl hw
    | exact rfl)

theorem State.logErrors_keeps {P : Nat} {r₀ : State} {s : State} {errs : List LogErr} {groups : List Nat} (hP : 615 ||| P = P) (hs : Keeps P r₀ s) :
    Keeps P r₀ (State.logErrors s errs groups) := by
  unfold State.logErrors
  try dsimp only
  repeat' (first
    | with_reducible assumption
    | (intro _; try dsimp only)
    | with_reducible apply State.logError_keeps
    | with_reducible apply keeps_foldl)

theorem State.logUncorr_keeps {P : Nat} {r₀ : State} {s : State} {groups : List Nat} (hP : 4 ||| P = P) (hs : Keeps P r₀ s) :
    Keeps P r₀ (State.logUncorr s groups) := by
  unfold State.logUncorr
  try dsimp only
  repeat' (first
    | with_reducible assumption
    | intro _
    | with_reducible apply State.bump_keeps
    | with_reducible apply keeps_ite)

theorem State.logPut_keeps {P : Nat} {r₀ : State} {s : State} {a : Nat} {bs : List Byte} (hP : 512 ||| P = P) (hs : Keeps P r₀ s) :
    Keeps P r₀ (State.logPut s a bs) := by
  unfold State.logPut
  try dsimp only
  repeat' (first
    | with_reducible assumption
    | (intro (_ : State); try dsimp only)
    | (intro _ (_ : Keeps _ _ _); try dsimp only)
    | with_reducible apply State.modNvs_keeps
    | with_reducible apply keeps_ite
    | exact fun hw => Stores.wf_of rfl rfl (NvsSt.putLog_wf hw)
    | exact rfl)

theorem State.setLifetime_keeps {P : Nat} {r₀ : State} {s : State} {a : Nat} {v : Nat} (hP : 512 ||| P = P) (hs : Keeps P r₀ s) :
    Keeps P r₀ (State.setLifetime s a v) := by
  unfold State.setLifetime
  try dsimp only
  repeat' (first
    | with_reducible assumption
    | (intro (_ : State); try dsimp only)
    | (intro _ (_ : Keeps _ _ _); try dsimp only)
    | with_reducible apply State.modNvs_keeps
    | exact fun hw => Stores.wf_of rfl rfl (NvsSt.putLog_wf hw)
    | exact rfl)

theorem State.bumpLifetime_keeps {P : Nat} {r₀ : State} {s : State} {a : Nat} {k : Nat} (hP : 512 ||| P = P) (hs : Keeps P r₀ s) :
    Keeps P r₀ (State.bumpLifetime s a k) := by
  unfold State.bumpLifetime
  try dsimp only
  repeat' (first
    | with_reducible assumption
    | intro _
    | with_reducible apply State.setLifetime_keeps)

theorem State.cairn_keeps {P : Nat} {r₀ : State} {s : State} {cause : Nat} {detail : Nat} (hP : 512 ||| P = P) (hs : Keeps P r₀ s) :
    Keeps P r₀ (State.cairn s cause detail) := by
  unfold State.cairn
  try dsimp only
  repeat' (first
    | with_reducible assumption
    | (intro (_ : State); try dsimp only)
    | (intro _ (_ : Keeps _ _ _); try dsimp only)
    | with_reducible apply State.modNvs_keeps
    | exact fun hw => Stores.wf_of rfl rfl (NvsSt.putLog_wf hw)
    | exact rfl)

theorem State.opLogRead_keeps {P : Nat} {r₀ : State} {s : State} {ring : Nat} {errs : List LogErr} (hP : 743 ||| P = P) (hs : Keeps P r₀ s) :
    Keeps P r₀ (State.opLogRead s ring errs) := by
  unfold State.opLogRead
  try dsimp only
  repeat' (first
    | with_reducible assumption
    | (refine mask_mono ?_ hP; rfl)
    | (intro _; try dsimp only)
    | with_reducible apply State.withOp_keeps
    | with_reducible apply State.logErrors_keeps
    | with_reducible apply State.logUncorr_keeps
    | with_reducible apply State.bufWrite_keeps
    | with_reducible apply State.complete_keeps)

theorem State.logGo_keeps {P : Nat} {r₀ : State} {s : State} {o : StoreOp} {cut : Option Nat} (hP : 582 ||| P = P) (hs : Keeps P r₀ s) :
    Keeps P r₀ (State.logGo s o cut) := by
  unfold State.logGo
  try dsimp only
  repeat' (first
    | with_reducible assumption
    | (refine mask_mono ?_ hP; rfl)
    | (intro (_ : State); try dsimp only)
    | (intro _ (_ : Keeps _ _ _); try dsimp only)
    | with_reducible apply State.logPut_keeps
    | with_reducible apply State.modNvs_keeps
    | with_reducible apply State.complete_keeps
    | exact fun hw => Stores.wf_of rfl rfl hw
    | exact rfl
    | split)

theorem State.opLogWrite_keeps {P : Nat} {r₀ : State} {s : State} {ring : Nat} {data : List Byte} {run : LogRun} (hP : 743 ||| P = P) (hs : Keeps P r₀ s) :
    Keeps P r₀ (State.opLogWrite s ring data run) := by
  unfold State.opLogWrite
  try dsimp only
  repeat' (first
    | with_reducible assumption
    | (refine mask_mono ?_ hP; rfl)
    | (intro _; try dsimp only)
    | with_reducible apply State.withOp_keeps
    | with_reducible apply State.bufRead_keeps
    | with_reducible apply State.logErrors_keeps
    | with_reducible apply State.logUncorr_keeps
    | with_reducible apply State.logGo_keeps)

theorem State.flushLog_keeps {P : Nat} {r₀ : State} {s : State} (hP : 514 ||| P = P) (hs : Keeps P r₀ s) :
    Keeps P r₀ (State.flushLog s) := by
  unfold State.flushLog
  try dsimp only
  repeat' (first
    | with_reducible assumption
    | (refine mask_mono ?_ hP; rfl)
    | (intro (_ : State); try dsimp only)
    | (intro _ (_ : Keeps _ _ _); try dsimp only)
    | with_reducible apply State.errLogWrite_keeps
    | with_reducible apply State.modNvs_keeps
    | with_reducible apply keeps_foldl
    | exact fun hw => Stores.wf_of rfl rfl hw
    | exact rfl)

theorem State.findRecords_keeps {P : Nat} {r₀ s : State} (hP : 512 ||| P = P) (hs : Keeps P r₀ s) :
    Keeps P r₀ s.findRecords := by
  unfold State.findRecords
  generalize s.newestRecord 0x1000 64 448 = e
  generalize s.newestRecord 0x8000 32 512 = c
  exact State.modNvs_keeps hP hs (fun hw => Stores.wf_of rfl rfl hw) rfl

theorem State.recallEnd_keeps {P : Nat} {r₀ : State} {s : State} {errs : List LogErr} (hP : 615 ||| P = P) (hs : Keeps P r₀ s) :
    Keeps P r₀ (State.recallEnd s errs) := by
  unfold State.recallEnd
  try dsimp only
  repeat' (first
    | with_reducible assumption
    | (refine mask_mono ?_ hP; rfl)
    | (intro _; try dsimp only)
    | with_reducible apply State.logError_keeps
    | with_reducible apply State.findRecords_keeps
    | with_reducible apply State.wrB_keeps
    | with_reducible apply State.flushLog_keeps
    | with_reducible apply State.raise_keeps
    | with_reducible apply keeps_foldl)

theorem State.svnCommit_keeps {P : Nat} {r₀ : State} {s : State} (hP : 516 ||| P = P) (hs : Keeps P r₀ s) :
    Keeps P r₀ (State.svnCommit s) := by
  unfold State.svnCommit
  try dsimp only
  repeat' (first
    | with_reducible assumption
    | (refine mask_mono ?_ hP; rfl)
    | intro _
    | with_reducible apply State.setLifetime_keeps
    | with_reducible apply State.wr_keeps
    | with_reducible apply keeps_ite)

theorem State.flashPut_keeps {P : Nat} {r₀ s : State} {a : Nat} {bs : List Byte} (hP : 1536 ||| P = P) (hs : Keeps P r₀ s) :
    Keeps P r₀ (s.flashPut a bs) :=
  hs.set_stores hP fun hw => by
    simp only [Stores.wf, Bool.and_eq_true] at hw ⊢
    exact ⟨cellPut_wf _ _ hw.1, hw.2⟩

theorem State.flashSpoil_keeps {P : Nat} {r₀ : State} {s : State} {a : Nat} {n : Nat} (hP : 1538 ||| P = P) (hs : Keeps P r₀ s) :
    Keeps P r₀ (State.flashSpoil s a n) := by
  unfold State.flashSpoil
  try dsimp only
  repeat' (first
    | with_reducible assumption
    | (refine mask_mono ?_ hP; rfl)
    | intro _
    | with_reducible apply State.flashPut_keeps
    | with_reducible apply State.drawn_keeps)

theorem State.opFlashRead_keeps {P : Nat} {r₀ : State} {s : State} {ring : Nat} (hP : 743 ||| P = P) (hs : Keeps P r₀ s) :
    Keeps P r₀ (State.opFlashRead s ring) := by
  unfold State.opFlashRead
  try dsimp only
  repeat' (first
    | with_reducible assumption
    | (refine mask_mono ?_ hP; rfl)
    | (intro _; try dsimp only)
    | with_reducible apply State.withOp_keeps
    | with_reducible apply State.bufWrite_keeps
    | with_reducible apply State.complete_keeps)

theorem State.setFlashOp_keeps {P : Nat} {r₀ : State} {s : State} {o : Option StoreOp} (hP : 512 ||| P = P) (hs : Keeps P r₀ s) :
    Keeps P r₀ (State.setFlashOp s o) := by
  unfold State.setFlashOp
  try dsimp only
  repeat' (first
    | with_reducible assumption
    | (intro (_ : State); try dsimp only)
    | (intro _ (_ : Keeps _ _ _); try dsimp only)
    | with_reducible apply State.modNvs_keeps
    | exact fun hw => Stores.wf_of rfl rfl hw
    | exact rfl)

theorem State.flashGo_keeps {P : Nat} {r₀ : State} {s : State} {o : StoreOp} {run : StoreRun} (hP : 1606 ||| P = P) (hs : Keeps P r₀ s) :
    Keeps P r₀ (State.flashGo s o run) := by
  unfold State.flashGo
  try dsimp only
  repeat' (first
    | with_reducible assumption
    | (refine mask_mono ?_ hP; rfl)
    | intro _
    | with_reducible apply State.flashPut_keeps
    | with_reducible apply State.setFlashOp_keeps
    | with_reducible apply State.complete_keeps
    | with_reducible apply State.flashSpoil_keeps
    | with_reducible apply State.bump_keeps
    | with_reducible apply keeps_ite
    | split)

theorem State.opFlashWrite_keeps {P : Nat} {r₀ : State} {s : State} {ring : Nat} {data : List Byte} {run : StoreRun} (hP : 1767 ||| P = P) (hs : Keeps P r₀ s) :
    Keeps P r₀ (State.opFlashWrite s ring data run) := by
  unfold State.opFlashWrite
  try dsimp only
  repeat' (first
    | with_reducible assumption
    | (refine mask_mono ?_ hP; rfl)
    | (intro _; try dsimp only)
    | with_reducible apply State.withOp_keeps
    | with_reducible apply State.complete_keeps
    | with_reducible apply State.bufRead_keeps
    | with_reducible apply State.flashGo_keeps
    | with_reducible apply keeps_ite)

theorem State.putCopy_keeps {P : Nat} {r₀ : State} {s : State} {copy : Nat} {rec_ : List Byte} (hP : 1536 ||| P = P) (hs : Keeps P r₀ s) :
    Keeps P r₀ (State.putCopy s copy rec_) := by
  unfold State.putCopy
  try dsimp only
  repeat' (first
    | with_reducible assumption
    | intro _
    | with_reducible apply State.flashPut_keeps)

theorem State.spoilCopy_keeps {P : Nat} {r₀ : State} {s : State} {copy : Nat} {rec_ : List Byte} (hP : 1538 ||| P = P) (hs : Keeps P r₀ s) :
    Keeps P r₀ (State.spoilCopy s copy rec_) := by
  unfold State.spoilCopy
  try dsimp only
  repeat' (first
    | with_reducible assumption
    | intro _
    | with_reducible apply State.flashSpoil_keeps)

theorem State.openCopy_keeps {P : Nat} {r₀ : State} {s : State} {copy : Nat} {rec_ : List Byte} (hP : 1538 ||| P = P) (hs : Keeps P r₀ s) :
    Keeps P r₀ (State.openCopy s copy rec_) := by
  unfold State.openCopy
  try dsimp only
  repeat' (first
    | with_reducible assumption
    | (refine mask_mono ?_ hP; rfl)
    | intro _
    | with_reducible apply State.spoilCopy_keeps
    | with_reducible apply State.flashPut_keeps)

theorem State.settingsFail_keeps {P : Nat} {r₀ : State} {s : State} {o : StoreOp} (hP : 582 ||| P = P) (hs : Keeps P r₀ s) :
    Keeps P r₀ (State.settingsFail s o) := by
  unfold State.settingsFail
  try dsimp only
  repeat' (first
    | with_reducible assumption
    | (refine mask_mono ?_ hP; rfl)
    | intro _
    | with_reducible apply State.setFlashOp_keeps
    | with_reducible apply State.complete_keeps)

theorem State.settingsGo_keeps {P : Nat} {r₀ : State} {s : State} {o : StoreOp} {run : StoreRun} (hP : 1606 ||| P = P) (hs : Keeps P r₀ s) :
    Keeps P r₀ (State.settingsGo s o run) := by
  unfold State.settingsGo
  try dsimp only
  repeat' (first
    | with_reducible assumption
    | (refine mask_mono ?_ hP; rfl)
    | intro _
    | with_reducible apply State.putCopy_keeps
    | with_reducible apply State.setFlashOp_keeps
    | with_reducible apply State.wr_keeps
    | with_reducible apply State.wrB_keeps
    | with_reducible apply State.complete_keeps
    | with_reducible apply State.spoilCopy_keeps
    | with_reducible apply State.settingsFail_keeps
    | with_reducible apply State.openCopy_keeps
    | with_reducible apply keeps_ite
    | split)

theorem State.opSettingsWrite_keeps {P : Nat} {r₀ : State} {s : State} {ring : Nat} {data : List Byte} {run : StoreRun} (hP : 1767 ||| P = P) (hs : Keeps P r₀ s) :
    Keeps P r₀ (State.opSettingsWrite s ring data run) := by
  unfold State.opSettingsWrite
  try dsimp only
  repeat' (first
    | with_reducible assumption
    | (refine mask_mono ?_ hP; rfl)
    | (intro _; try dsimp only)
    | with_reducible apply State.withOp_keeps
    | with_reducible apply State.complete_keeps
    | with_reducible apply State.bufRead_keeps
    | with_reducible apply State.settingsGo_keeps
    | with_reducible apply keeps_ite)

end Sys2Proof.Machine
end

