-- ==== Sys2Proof/Laws/Pnl.lean ====
section
/-!
SUPPORT. What each operation of Machine/Pnl.lean leaves alone (see Laws/Keeps.lean).
-/
namespace Sys2Proof.Machine

theorem State.modPort_keeps {P : Nat} {r₀ : State} {s : State} {p : Nat} {f : PnlPort → PnlPort} (hP : 16384 ||| P = P) (hs : Keeps P r₀ s) :
    Keeps P r₀ (State.modPort s p f) := hs.set_pnl hP fun h => (List.length_modify ..).trans h

theorem State.dcbRestart_keeps {P : Nat} {r₀ : State} {s : State} (hP : 16384 ||| P = P) (hs : Keeps P r₀ s) :
    Keeps P r₀ (State.dcbRestart s) := by
  unfold State.dcbRestart
  try dsimp only
  repeat' (first
    | with_reducible assumption
    | exact fun h => h
    | exact fun h => (List.length_map ..).trans h
    | exact fun _ h => h
    | exact fun _ h => (List.length_map ..).trans h
    | intro _
    | with_reducible apply Keeps.set_pnl)

theorem State.setPort_keeps {P : Nat} {r₀ : State} {s : State} {p : Nat} {v : Nat} (hP : 16388 ||| P = P) (hs : Keeps P r₀ s) :
    Keeps P r₀ (State.setPort s p v) := by
  unfold State.setPort
  try dsimp only
  repeat' (first
    | with_reducible assumption
    | (refine mask_mono ?_ hP; rfl)
    | intro _
    | with_reducible apply State.wr_keeps
    | with_reducible apply State.wrB_keeps
    | with_reducible apply State.dcbRestart_keeps
    | with_reducible apply keeps_ite)

theorem State.startPort_keeps {P : Nat} {r₀ : State} {s : State} {p : Nat} (hP : 1064964 ||| P = P) (hs : Keeps P r₀ s) :
    Keeps P r₀ (State.startPort s p) := by
  unfold State.startPort
  try dsimp only
  repeat' (first
    | with_reducible assumption
    | (refine mask_mono ?_ hP; rfl)
    | (intro _; try dsimp only)
    | with_reducible apply State.setRate_keeps
    | with_reducible apply State.startFir_keeps
    | with_reducible apply State.txIdle_keeps
    | with_reducible apply State.setPort_keeps
    | with_reducible apply State.modPort_keeps
    | with_reducible apply State.wrB_keeps
    | with_reducible apply keeps_foldl)

theorem State.stopPort_keeps {P : Nat} {r₀ : State} {s : State} {p : Nat} {failed : Bool} (hP : 1064964 ||| P = P) (hs : Keeps P r₀ s) :
    Keeps P r₀ (State.stopPort s p failed) := by
  unfold State.stopPort
  try dsimp only
  repeat' (first
    | with_reducible assumption
    | (refine mask_mono ?_ hP; rfl)
    | (intro _; try dsimp only)
    | with_reducible apply State.txIdle_keeps
    | with_reducible apply State.setPort_keeps
    | with_reducible apply State.modPort_keeps
    | with_reducible apply keeps_foldl)

theorem State.portRetrain_keeps {P : Nat} {r₀ : State} {s : State} {p : Nat} (hP : 16999 ||| P = P) (hs : Keeps P r₀ s) :
    Keeps P r₀ (State.portRetrain s p) := by
  unfold State.portRetrain
  try dsimp only
  repeat' (first
    | with_reducible assumption
    | (refine mask_mono ?_ hP; rfl)
    | (intro _; try dsimp only)
    | with_reducible apply State.startFir_keeps
    | with_reducible apply State.setPort_keeps
    | with_reducible apply State.modPort_keeps
    | with_reducible apply State.bump_keeps
    | with_reducible apply State.raise_keeps
    | with_reducible apply keeps_foldl)

theorem State.settlePort_keeps {P : Nat} {r₀ : State} {s : State} {p : Nat} (hP : 1064964 ||| P = P) (hs : Keeps P r₀ s) :
    Keeps P r₀ (State.settlePort s p) := by
  unfold State.settlePort
  try dsimp only
  repeat' (first
    | with_reducible assumption
    | intro _
    | with_reducible apply State.stopPort_keeps
    | with_reducible apply State.startPort_keeps
    | with_reducible apply keeps_ite)

theorem State.settlePorts_keeps {P : Nat} {r₀ : State} {s : State} (hP : 1064964 ||| P = P) (hs : Keeps P r₀ s) :
    Keeps P r₀ (State.settlePorts s) := by
  unfold State.settlePorts
  try dsimp only
  repeat' (first
    | with_reducible assumption
    | (intro _; try dsimp only)
    | with_reducible apply State.settlePort_keeps
    | with_reducible apply keeps_foldl)

theorem State.activatePorts_keeps {P : Nat} {r₀ : State} {s : State} (hP : 1065575 ||| P = P) (hs : Keeps P r₀ s) :
    Keeps P r₀ (State.activatePorts s) := by
  unfold State.activatePorts
  try dsimp only
  repeat' (first
    | with_reducible assumption
    | (refine mask_mono ?_ hP; rfl)
    | (intro _; try dsimp only)
    | with_reducible apply State.saveFir_keeps
    | with_reducible apply State.setPort_keeps
    | with_reducible apply State.raise_keeps
    | with_reducible apply keeps_foldl
    | with_reducible apply keeps_ite)

theorem State.pnlOnce_keeps {P : Nat} {r₀ : State} {s : State} {e : Nat} (hP : 16999 ||| P = P) (hs : Keeps P r₀ s) :
    Keeps P r₀ (State.pnlOnce s e) := by
  unfold State.pnlOnce
  try dsimp only
  repeat' (first
    | with_reducible assumption
    | (refine mask_mono ?_ hP; rfl)
    | exact fun h => h
    | exact fun h => (List.length_map ..).trans h
    | exact fun _ h => h
    | exact fun _ h => (List.length_map ..).trans h
    | intro _
    | with_reducible apply State.raise_keeps
    | with_reducible apply keeps_ite
    | split
    | with_reducible apply Keeps.set_pnl)

theorem State.onStatus_keeps {P : Nat} {r₀ : State} {s : State} {lane : Nat} {blk : List Byte} (hP : 16999 ||| P = P) (hs : Keeps P r₀ s) :
    Keeps P r₀ (State.onStatus s lane blk) := by
  unfold State.onStatus
  try dsimp only
  repeat' (first
    | with_reducible assumption
    | (refine mask_mono ?_ hP; rfl)
    | (intro _; try dsimp only)
    | with_reducible apply State.bump_keeps
    | with_reducible apply State.pnlOnce_keeps
    | with_reducible apply State.modPort_keeps
    | with_reducible apply State.laneEvent_keeps
    | with_reducible apply State.portRetrain_keeps
    | with_reducible apply keeps_foldl
    | with_reducible apply keeps_ite)

theorem State.panelOut_keeps {P : Nat} {r₀ : State} {s : State} {n : Nat} {blk : List Byte} (hP : 1048577 ||| P = P) (hs : Keeps P r₀ s) :
    Keeps P r₀ (State.panelOut s n blk) := by
  unfold State.panelOut
  try dsimp only
  repeat' (first
    | with_reducible assumption
    | (refine mask_mono ?_ hP; rfl)
    | intro _
    | with_reducible apply State.txBlocks_keeps
    | with_reducible apply State.emit_keeps
    | with_reducible apply keeps_ite)

theorem State.answerTrain_keeps {P : Nat} {r₀ : State} {s : State} {w : TrainWait} (hP : 1048581 ||| P = P) (hs : Keeps P r₀ s) :
    Keeps P r₀ (State.answerTrain s w) := by
  unfold State.answerTrain
  try dsimp only
  repeat' (first
    | with_reducible assumption
    | (refine mask_mono ?_ hP; rfl)
    | intro _
    | with_reducible apply State.applyTrain_keeps
    | with_reducible apply State.panelOut_keeps)

theorem State.onTrainReq_keeps {P : Nat} {r₀ : State} {s : State} {ret : Nat} {blk : List Byte} (hP : 1064965 ||| P = P) (hs : Keeps P r₀ s) :
    Keeps P r₀ (State.onTrainReq s ret blk) := by
  unfold State.onTrainReq
  try dsimp only
  repeat' (first
    | with_reducible assumption
    | (refine mask_mono ?_ hP; rfl)
    | exact fun h => h
    | exact fun h => (List.length_map ..).trans h
    | exact fun _ h => h
    | exact fun _ h => (List.length_map ..).trans h
    | intro _
    | with_reducible apply State.answerTrain_keeps
    | with_reducible apply keeps_ite
    | split
    | with_reducible apply Keeps.set_pnl)

theorem State.drainTrain_keeps {P : Nat} {r₀ : State} {s : State} (hP : 1064965 ||| P = P) (hs : Keeps P r₀ s) :
    Keeps P r₀ (State.drainTrain s) := by
  unfold State.drainTrain
  try dsimp only
  repeat' (first
    | with_reducible assumption
    | (refine mask_mono ?_ hP; rfl)
    | exact fun h => h
    | exact fun h => (List.length_map ..).trans h
    | exact fun _ h => h
    | exact fun _ h => (List.length_map ..).trans h
    | (intro _; try dsimp only)
    | with_reducible apply State.answerTrain_keeps
    | with_reducible apply keeps_foldl
    | with_reducible apply keeps_ite
    | split
    | with_reducible apply Keeps.set_pnl)

theorem State.writeRetrain_keeps {P : Nat} {r₀ : State} {s : State} {val : Word} (hP : 16999 ||| P = P) (hs : Keeps P r₀ s) :
    Keeps P r₀ (State.writeRetrain s val) := by
  unfold State.writeRetrain
  try dsimp only
  repeat' (first
    | with_reducible assumption
    | (refine mask_mono ?_ hP; rfl)
    | (intro _; try dsimp only)
    | with_reducible apply State.portRetrain_keeps
    | with_reducible apply State.wrB_keeps
    | with_reducible apply keeps_foldl
    | with_reducible apply keeps_ite)

theorem State.onCrk_keeps {P : Nat} {r₀ : State} {s : State} {ohms : Nat} (hP : 3162743 ||| P = P) (hs : Keeps P r₀ s) :
    Keeps P r₀ (State.onCrk s ohms) := by
  unfold State.onCrk
  try dsimp only
  repeat' (first
    | with_reducible assumption
    | (refine mask_mono ?_ hP; rfl)
    | exact fun h => h
    | exact fun h => (List.length_map ..).trans h
    | exact fun _ h => h
    | exact fun _ h => (List.length_map ..).trans h
    | intro _
    | with_reducible apply State.wr_keeps
    | with_reducible apply State.wrB_keeps
    | with_reducible apply State.raise_keeps
    | with_reducible apply State.alarm_keeps
    | with_reducible apply State.bump_keeps
    | with_reducible apply keeps_ite
    | split
    | with_reducible apply Keeps.set_pnl)

theorem State.startPmb_keeps {P : Nat} {r₀ : State} {s : State} (hP : 5 ||| P = P) (hs : Keeps P r₀ s) :
    Keeps P r₀ (State.startPmb s) := by
  unfold State.startPmb
  try dsimp only
  repeat' (first
    | with_reducible assumption
    | (refine mask_mono ?_ hP; rfl)
    | intro _
    | with_reducible apply State.wrB_keeps
    | with_reducible apply State.emit_keeps)

theorem State.writePmb_keeps {P : Nat} {r₀ : State} {s : State} {val : Word} (hP : 5 ||| P = P) (hs : Keeps P r₀ s) :
    Keeps P r₀ (State.writePmb s val) := by
  unfold State.writePmb
  try dsimp only
  repeat' (first
    | with_reducible assumption
    | (refine mask_mono ?_ hP; rfl)
    | intro _
    | with_reducible apply State.wr_keeps
    | with_reducible apply State.wrB_keeps
    | with_reducible apply State.startPmb_keeps
    | with_reducible apply keeps_ite)

theorem State.endPmb_keeps {P : Nat} {r₀ : State} {s : State} {ack : Bool} {data : Word} (hP : 615 ||| P = P) (hs : Keeps P r₀ s) :
    Keeps P r₀ (State.endPmb s ack data) := by
  unfold State.endPmb
  try dsimp only
  repeat' (first
    | with_reducible assumption
    | (refine mask_mono ?_ hP; rfl)
    | intro _
    | with_reducible apply State.wr_keeps
    | with_reducible apply State.wrB_keeps
    | with_reducible apply State.raise_keeps
    | with_reducible apply keeps_ite)

theorem State.afterRet_keeps {P : Nat} {r₀ : State} {s : State} {n : Nat} {was : Bool} (hP : 1065575 ||| P = P) (hs : Keeps P r₀ s) :
    Keeps P r₀ (State.afterRet s n was) := by
  unfold State.afterRet
  try dsimp only
  repeat' (first
    | with_reducible assumption
    | (refine mask_mono ?_ hP; rfl)
    | intro _
    | with_reducible apply State.wrB_keeps
    | with_reducible apply State.raise_keeps
    | with_reducible apply State.settlePorts_keeps
    | with_reducible apply keeps_ite)

theorem State.afterRopeLane_keeps {P : Nat} {r₀ : State} {s : State} {n : Nat} (hP : 3146343 ||| P = P) (hs : Keeps P r₀ s) :
    Keeps P r₀ (State.afterRopeLane s n) := by
  unfold State.afterRopeLane
  try dsimp only
  repeat' (first
    | with_reducible assumption
    | intro _
    | with_reducible apply State.advancePitch_keeps)

theorem State.afterLane_keeps {P : Nat} {r₀ : State} {s : State} {n : Nat} {was : Bool} (hP : 3162727 ||| P = P) (hs : Keeps P r₀ s) :
    Keeps P r₀ (State.afterLane s n was) := by
  unfold State.afterLane
  try dsimp only
  repeat' (first
    | with_reducible assumption
    | (refine mask_mono ?_ hP; rfl)
    | intro _
    | with_reducible apply State.afterRet_keeps
    | with_reducible apply State.afterRopeLane_keeps
    | with_reducible apply keeps_ite)

theorem State.afterPrbs_keeps {P : Nat} {r₀ : State} {s : State} {n : Nat} {was : Bool} (hP : 3162727 ||| P = P) (hs : Keeps P r₀ s) :
    Keeps P r₀ (State.afterPrbs s n was) := by
  unfold State.afterPrbs
  try dsimp only
  repeat' (first
    | with_reducible assumption
    | (refine mask_mono ?_ hP; rfl)
    | intro _
    | with_reducible apply State.afterLane_keeps
    | with_reducible apply State.portRetrain_keeps
    | with_reducible apply keeps_ite)

theorem State.setPrbsChk_keeps {P : Nat} {r₀ : State} {s : State} {n : Nat} {on : Bool} (hP : 3162727 ||| P = P) (hs : Keeps P r₀ s) :
    Keeps P r₀ (State.setPrbsChk s n on) := by
  unfold State.setPrbsChk
  try dsimp only
  repeat' (first
    | with_reducible assumption
    | (refine mask_mono ?_ hP; rfl)
    | intro _
    | with_reducible apply State.writePrbsChk_keeps
    | with_reducible apply State.afterPrbs_keeps)

theorem State.setPrbsGen_keeps {P : Nat} {r₀ : State} {s : State} {n : Nat} {on : Bool} (hP : 3162727 ||| P = P) (hs : Keeps P r₀ s) :
    Keeps P r₀ (State.setPrbsGen s n on) := by
  unfold State.setPrbsGen
  try dsimp only
  repeat' (first
    | with_reducible assumption
    | (refine mask_mono ?_ hP; rfl)
    | intro _
    | with_reducible apply State.writePrbsGen_keeps
    | with_reducible apply State.afterPrbs_keeps)

theorem State.idleEnd_keeps {P : Nat} {r₀ : State} {s : State} {n : Nat} (hP : 3146343 ||| P = P) (hs : Keeps P r₀ s) :
    Keeps P r₀ (State.idleEnd s n) := by
  unfold State.idleEnd
  try dsimp only
  repeat' (first
    | with_reducible assumption
    | (refine mask_mono ?_ hP; rfl)
    | intro _
    | with_reducible apply State.toHunt_keeps
    | with_reducible apply State.modLane_keeps
    | with_reducible apply State.setRate_keeps
    | with_reducible apply State.showIdle_keeps
    | with_reducible apply keeps_ite)

theorem State.dwellEnd_keeps {P : Nat} {r₀ : State} {s : State} {n : Nat} (hP : 3146343 ||| P = P) (hs : Keeps P r₀ s) :
    Keeps P r₀ (State.dwellEnd s n) := by
  unfold State.dwellEnd
  try dsimp only
  repeat' (first
    | with_reducible assumption
    | (refine mask_mono ?_ hP; rfl)
    | intro _
    | with_reducible apply State.setRate_keeps
    | with_reducible apply State.startFir_keeps
    | with_reducible apply State.txIdle_keeps
    | with_reducible apply State.toHunt_keeps
    | with_reducible apply State.modLane_keeps
    | with_reducible apply State.modPitch_keeps
    | with_reducible apply State.wrB_keeps
    | with_reducible apply State.advancePitch_keeps
    | with_reducible apply State.checkRate_keeps
    | with_reducible apply keeps_ite)

theorem State.panelDwellEnd_keeps {P : Nat} {r₀ : State} {s : State} {n : Nat} (hP : 1064964 ||| P = P) (hs : Keeps P r₀ s) :
    Keeps P r₀ (State.panelDwellEnd s n) := by
  unfold State.panelDwellEnd
  try dsimp only
  repeat' (first
    | with_reducible assumption
    | (refine mask_mono ?_ hP; rfl)
    | intro _
    | with_reducible apply State.txIdle_keeps
    | with_reducible apply State.setRate_keeps
    | with_reducible apply State.startFir_keeps
    | with_reducible apply State.settlePort_keeps
    | with_reducible apply keeps_ite)

theorem State.ratePort_keeps {P : Nat} {r₀ : State} {s : State} {p : Nat} (hP : 1064964 ||| P = P) (hs : Keeps P r₀ s) :
    Keeps P r₀ (State.ratePort s p) := by
  unfold State.ratePort
  try dsimp only
  repeat' (first
    | with_reducible assumption
    | (refine mask_mono ?_ hP; rfl)
    | (intro _; try dsimp only)
    | with_reducible apply State.txIdle_keeps
    | with_reducible apply State.setPort_keeps
    | with_reducible apply State.modPort_keeps
    | with_reducible apply keeps_foldl
    | with_reducible apply keeps_ite)

theorem State.ratePorts_keeps {P : Nat} {r₀ : State} {s : State} (hP : 1064964 ||| P = P) (hs : Keeps P r₀ s) :
    Keeps P r₀ (State.ratePorts s) := by
  unfold State.ratePorts
  try dsimp only
  repeat' (first
    | with_reducible assumption
    | (intro _; try dsimp only)
    | with_reducible apply State.ratePort_keeps
    | with_reducible apply keeps_foldl)

theorem State.setPref_keeps {P : Nat} {r₀ : State} {s : State} {n : Nat} {v : Nat} (hP : 16385 ||| P = P) (hs : Keeps P r₀ s) :
    Keeps P r₀ (State.setPref s n v) := by
  unfold State.setPref
  try dsimp only
  repeat' (first
    | with_reducible assumption
    | (refine mask_mono ?_ hP; rfl)
    | exact fun h => h
    | exact fun h => (List.length_map ..).trans h
    | exact fun _ h => h
    | exact fun _ h => (List.length_map ..).trans h
    | intro _
    | with_reducible apply State.emit_keeps
    | with_reducible apply keeps_ite
    | split
    | with_reducible apply Keeps.set_pnl)

theorem State.drivePref_keeps {P : Nat} {r₀ : State} {s : State} (hP : 16385 ||| P = P) (hs : Keeps P r₀ s) :
    Keeps P r₀ (State.drivePref s) := by
  unfold State.drivePref
  try dsimp only
  repeat' (first
    | with_reducible assumption
    | (intro _; try dsimp only)
    | with_reducible apply State.setPref_keeps
    | with_reducible apply keeps_foldl
    | with_reducible apply keeps_ite)

theorem State.dropPref_keeps {P : Nat} {r₀ : State} {s : State} (hP : 16385 ||| P = P) (hs : Keeps P r₀ s) :
    Keeps P r₀ (State.dropPref s) := by
  unfold State.dropPref
  try dsimp only
  repeat' (first
    | with_reducible assumption
    | (intro _; try dsimp only)
    | with_reducible apply State.setPref_keeps
    | with_reducible apply keeps_foldl)

theorem State.prefPower_keeps {P : Nat} {r₀ : State} {s : State} {on : Bool} (hP : 16385 ||| P = P) (hs : Keeps P r₀ s) :
    Keeps P r₀ (State.prefPower s on) := by
  unfold State.prefPower
  try dsimp only
  repeat' (first
    | with_reducible assumption
    | (refine mask_mono ?_ hP; rfl)
    | exact fun h => h
    | exact fun h => (List.length_map ..).trans h
    | exact fun _ h => h
    | exact fun _ h => (List.length_map ..).trans h
    | intro _
    | with_reducible apply State.drivePref_keeps
    | with_reducible apply State.dropPref_keeps
    | with_reducible apply keeps_ite
    | split
    | with_reducible apply Keeps.set_pnl)

theorem State.applyPref_keeps {P : Nat} {r₀ : State} {s : State} (hP : 16385 ||| P = P) (hs : Keeps P r₀ s) :
    Keeps P r₀ (State.applyPref s) := by
  unfold State.applyPref
  try dsimp only
  repeat' (first
    | with_reducible assumption
    | (refine mask_mono ?_ hP; rfl)
    | exact fun h => h
    | exact fun h => (List.length_map ..).trans h
    | exact fun _ h => h
    | exact fun _ h => (List.length_map ..).trans h
    | intro _
    | with_reducible apply State.drivePref_keeps
    | with_reducible apply Keeps.set_pnl)

end Sys2Proof.Machine
end

