-- ==== Sys2Proof/Laws/Syn.lean ====
section
/-!
SUPPORT. What each operation of Machine/Syn.lean leaves alone (see Laws/Keeps.lean).
-/
namespace Sys2Proof.Machine

theorem State.modSyn_keeps {P : Nat} {r₀ : State} {s : State} {f : SynSt → SynSt} (hP : 2048 ||| P = P) (hs : Keeps P r₀ s) :
    Keeps P r₀ (State.modSyn s f) := by
  unfold State.modSyn
  try dsimp only
  repeat' (first
    | with_reducible assumption
    | intro _
    | with_reducible apply hf
    | with_reducible apply Keeps.set_syn)

theorem State.setDie_keeps {P : Nat} {r₀ : State} {s : State} {d : Die} {x : SynDie} (hP : 2048 ||| P = P) (hs : Keeps P r₀ s) :
    Keeps P r₀ (State.setDie s d x) := by
  unfold State.setDie
  try dsimp only
  repeat' (first
    | with_reducible assumption
    | intro _
    | with_reducible apply State.modSyn_keeps)

theorem State.synOnce_keeps {P : Nat} {r₀ : State} {s : State} {e : Nat} (hP : 2663 ||| P = P) (hs : Keeps P r₀ s) :
    Keeps P r₀ (State.synOnce s e) := by
  unfold State.synOnce
  try dsimp only
  repeat' (first
    | with_reducible assumption
    | (refine mask_mono ?_ hP; rfl)
    | intro _
    | with_reducible apply State.modSyn_keeps
    | with_reducible apply State.raise_keeps
    | with_reducible apply keeps_ite)

theorem State.setLevel_keeps {P : Nat} {r₀ : State} {s : State} {d : Die} {n : Nat} (hP : 2663 ||| P = P) (hs : Keeps P r₀ s) :
    Keeps P r₀ (State.setLevel s d n) := by
  unfold State.setLevel
  try dsimp only
  repeat' (first
    | with_reducible assumption
    | (refine mask_mono ?_ hP; rfl)
    | intro _
    | with_reducible apply State.setDie_keeps
    | with_reducible apply State.synOnce_keeps
    | with_reducible apply keeps_ite)

theorem State.updateLevel_keeps {P : Nat} {r₀ : State} {s : State} {d : Die} (hP : 2663 ||| P = P) (hs : Keeps P r₀ s) :
    Keeps P r₀ (State.updateLevel s d) := by
  unfold State.updateLevel
  try dsimp only
  repeat' (first
    | with_reducible assumption
    | intro _
    | with_reducible apply State.setLevel_keeps)

theorem State.applyFloor_keeps {P : Nat} {r₀ : State} {s : State} {d : Die} (hP : 2663 ||| P = P) (hs : Keeps P r₀ s) :
    Keeps P r₀ (State.applyFloor s d) := by
  unfold State.applyFloor
  try dsimp only
  repeat' (first
    | with_reducible assumption
    | intro _
    | with_reducible apply State.setLevel_keeps)

theorem State.showThrottle_keeps {P : Nat} {r₀ : State} {s : State} {e : Nat} (hP : 4 ||| P = P) (hs : Keeps P r₀ s) :
    Keeps P r₀ (State.showThrottle s e) := by
  unfold State.showThrottle
  try dsimp only
  repeat' (first
    | with_reducible assumption
    | intro _
    | with_reducible apply State.wr_keeps)

theorem State.setApp_keeps {P : Nat} {r₀ : State} {s : State} {e : Nat} (hP : 615 ||| P = P) (hs : Keeps P r₀ s) :
    Keeps P r₀ (State.setApp s e) := by
  unfold State.setApp
  try dsimp only
  repeat' (first
    | with_reducible assumption
    | (refine mask_mono ?_ hP; rfl)
    | intro _
    | with_reducible apply State.showThrottle_keeps
    | with_reducible apply State.raise_keeps
    | with_reducible apply keeps_ite)

theorem State.throttle_keeps {P : Nat} {r₀ : State} {s : State} (hP : 2663 ||| P = P) (hs : Keeps P r₀ s) :
    Keeps P r₀ (State.throttle s) := by
  unfold State.throttle
  try dsimp only
  repeat' (first
    | with_reducible assumption
    | (refine mask_mono ?_ hP; rfl)
    | intro _
    | with_reducible apply State.modSyn_keeps
    | with_reducible apply State.setApp_keeps
    | with_reducible apply keeps_ite)

theorem State.supplyExcess_keeps {P : Nat} {r₀ : State} {s : State} (hP : 615 ||| P = P) (hs : Keeps P r₀ s) :
    Keeps P r₀ (State.supplyExcess s) := by
  unfold State.supplyExcess
  try dsimp only
  repeat' (first
    | with_reducible assumption
    | (refine mask_mono ?_ hP; rfl)
    | intro _
    | with_reducible apply State.wr_keeps
    | with_reducible apply State.raise_keeps
    | with_reducible apply keeps_ite)

theorem State.appFall_keeps {P : Nat} {r₀ : State} {s : State} (hP : 2663 ||| P = P) (hs : Keeps P r₀ s) :
    Keeps P r₀ (State.appFall s) := by
  unfold State.appFall
  try dsimp only
  repeat' (first
    | with_reducible assumption
    | (refine mask_mono ?_ hP; rfl)
    | intro _
    | with_reducible apply State.supplyExcess_keeps
    | with_reducible apply State.modSyn_keeps
    | with_reducible apply State.setApp_keeps
    | with_reducible apply keeps_ite)

theorem State.chooseViews_keeps {P : Nat} {r₀ : State} {s : State} {k : Nat} (hP : 2048 ||| P = P) (hs : Keeps P r₀ s) :
    Keeps P r₀ (State.chooseViews s k) := by
  unfold State.chooseViews
  try dsimp only
  repeat' (first
    | with_reducible assumption
    | intro _
    | with_reducible apply State.modSyn_keeps)

theorem State.synStart_keeps {P : Nat} {r₀ : State} {s : State} {k : Nat} {au : Option Nat} (hP : 2663 ||| P = P) (hs : Keeps P r₀ s) :
    Keeps P r₀ (State.synStart s k au) := by
  unfold State.synStart
  try dsimp only
  repeat' (first
    | with_reducible assumption
    | (refine mask_mono ?_ hP; rfl)
    | intro _
    | with_reducible apply State.raise_keeps
    | with_reducible apply State.modSyn_keeps
    | with_reducible apply State.chooseViews_keeps
    | with_reducible apply State.bump_keeps
    | with_reducible apply State.setLevel_keeps
    | with_reducible apply keeps_ite)

theorem State.synStop_keeps {P : Nat} {r₀ : State} {s : State} (hP : 2048 ||| P = P) (hs : Keeps P r₀ s) :
    Keeps P r₀ (State.synStop s) := by
  unfold State.synStop
  try dsimp only
  repeat' (first
    | with_reducible assumption
    | intro _
    | with_reducible apply State.modSyn_keeps)

theorem State.showDecim_keeps {P : Nat} {r₀ : State} {s : State} (hP : 4 ||| P = P) (hs : Keeps P r₀ s) :
    Keeps P r₀ (State.showDecim s) := by
  unfold State.showDecim
  try dsimp only
  repeat' (first
    | with_reducible assumption
    | (intro _; try dsimp only)
    | with_reducible apply State.wr_keeps
    | with_reducible apply keeps_foldl)

theorem State.readPlaneRow_keeps {P : Nat} {r₀ : State} {s : State} {depth : Bool} {src : RowSrc} {x0 : Int} {x1 : Int} (hP : 743 ||| P = P) (hs : Keeps P r₀ s) :
    Keeps P r₀ (State.readPlaneRow s depth src x0 x1) := by
  unfold State.readPlaneRow
  try dsimp only
  repeat' (first
    | with_reducible assumption
    | intro _
    | with_reducible apply State.readFor_keeps
    | split)

theorem State.countUnready_keeps {P : Nat} {r₀ : State} {s : State} {anchor : Nat} {depth : Bool} {sb : Option Nat} (hP : 2663 ||| P = P) (hs : Keeps P r₀ s) :
    Keeps P r₀ (State.countUnready s anchor depth sb) := by
  unfold State.countUnready
  try dsimp only
  repeat' (first
    | with_reducible assumption
    | (refine mask_mono ?_ hP; rfl)
    | intro _
    | with_reducible apply State.modSyn_keeps
    | with_reducible apply State.bump_keeps
    | with_reducible apply State.synOnce_keeps
    | with_reducible apply keeps_ite
    | split)

theorem State.loadAnchor_keeps {P : Nat} {r₀ : State} {s : State} {anchor : Nat} {r : Int} {x0 : Int} {x1 : Int} (hP : 2791 ||| P = P) (hs : Keeps P r₀ s) :
    Keeps P r₀ (State.loadAnchor s anchor r x0 x1).1 := by
  unfold State.loadAnchor
  try dsimp only
  repeat' (first
    | with_reducible assumption
    | (refine mask_mono ?_ hP; rfl)
    | intro _
    | with_reducible apply State.readPlaneRow_keeps
    | with_reducible apply State.countUnready_keeps)

theorem State.loadAnchor_of {P : Nat} {r₀ t : State} {b₀ : List Cell} {s : State} {anchor : Nat} {r : Int} {x0 : Int} {x1 : Int} (he : State.loadAnchor s anchor r x0 x1 = (t, b₀)) (hP : 2791 ||| P = P)
    (hs : Keeps P r₀ s) : Keeps P r₀ t := by
  have := State.loadAnchor_keeps (s := s) (anchor := anchor) (r := r) (x0 := x0) (x1 := x1) hP hs
  rwa [he] at this

theorem State.loadAnchors_keeps {P : Nat} {r₀ s : State} {r x0 x1 : Int} {n : Nat} (hP : 2791 ||| P = P) (hs : Keeps P r₀ s) :
    Keeps P r₀ (s.loadAnchors r x0 x1 n).1 := by
  induction n with
  | zero => exact hs
  | succ n ih => exact State.loadAnchor_keeps (mask_mono rfl hP) ih

theorem State.swathLoad_keeps {P : Nat} {r₀ : State} {s : State} {d : Die} (hP : 2791 ||| P = P) (hs : Keeps P r₀ s) :
    Keeps P r₀ (State.swathLoad s d) := by
  unfold State.swathLoad
  try dsimp only
  repeat' (first
    | with_reducible assumption
    | (refine mask_mono ?_ hP; rfl)
    | intro _
    | with_reducible apply State.loadAnchors_keeps
    | with_reducible apply State.setDie_keeps
    | with_reducible refine State.loadAnchors_of (by assumption) ?_ ?_
    | with_reducible apply keeps_ite)

theorem State.readHold_keeps {P : Nat} {r₀ : State} {s : State} {view : Nat} {y : Nat} {x : Nat} {n : Nat} (hP : 743 ||| P = P) (hs : Keeps P r₀ s) :
    Keeps P r₀ (State.readHold s view y x n) := by
  unfold State.readHold
  try dsimp only
  repeat' (first
    | with_reducible assumption
    | intro _
    | with_reducible apply State.touch_keeps)

theorem State.writeHold_keeps {P : Nat} {r₀ : State} {s : State} {view : Nat} {y : Nat} {x : Nat} {ws : List Nat} (hP : 743 ||| P = P) (hs : Keeps P r₀ s) :
    Keeps P r₀ (State.writeHold s view y x ws) := by
  unfold State.writeHold
  try dsimp only
  repeat' (first
    | with_reducible assumption
    | intro _
    | with_reducible apply State.store_keeps)

theorem State.excessCheck_keeps {P : Nat} {r₀ : State} {s : State} (hP : 33383 ||| P = P) (hs : Keeps P r₀ s) :
    Keeps P r₀ (State.excessCheck s) := by
  unfold State.excessCheck
  try dsimp only
  repeat' (first
    | with_reducible assumption
    | (refine mask_mono ?_ hP; rfl)
    | intro _
    | with_reducible apply State.modDec_keeps
    | with_reducible apply State.raise_keeps
    | with_reducible apply keeps_ite
    | split)

theorem State.frameDone_keeps {P : Nat} {r₀ : State} {s : State} (hP : 2052 ||| P = P) (hs : Keeps P r₀ s) :
    Keeps P r₀ (State.frameDone s) := by
  unfold State.frameDone
  try dsimp only
  repeat' (first
    | with_reducible assumption
    | (refine mask_mono ?_ hP; rfl)
    | intro _
    | with_reducible apply State.modSyn_keeps
    | with_reducible apply State.bump_keeps
    | with_reducible apply keeps_ite)

theorem State.synthDie_keeps {P : Nat} {r₀ : State} {s : State} {d : Die} {got : List Nat} (hP : 35559 ||| P = P) (hs : Keeps P r₀ s) :
    Keeps P r₀ (State.synthDie s d got) := by
  unfold State.synthDie
  try dsimp only
  repeat' (first
    | with_reducible assumption
    | (refine mask_mono ?_ hP; rfl)
    | (intro _; try dsimp only)
    | with_reducible apply State.setDie_keeps
    | with_reducible apply State.readHold_keeps
    | with_reducible apply State.writeHold_keeps
    | with_reducible apply State.modSyn_keeps
    | with_reducible apply State.wrB_keeps
    | with_reducible apply State.excessCheck_keeps
    | with_reducible apply State.bump_keeps
    | with_reducible apply State.synOnce_keeps
    | with_reducible apply State.frameDone_keeps
    | with_reducible apply State.updateLevel_keeps
    | with_reducible apply keeps_foldl
    | with_reducible apply keeps_ite)

end Sys2Proof.Machine
end

