-- ==== Sys2Proof/Laws/Scn.lean ====
section
/-!
SUPPORT. What each operation of Machine/Scn.lean leaves alone (see Laws/Keeps.lean).
-/
namespace Sys2Proof.Machine

theorem State.modScn_keeps {P : Nat} {r₀ : State} {s : State} {f : ScnSt → ScnSt} (hP : 8192 ||| P = P) (hs : Keeps P r₀ s) :
    Keeps P r₀ (State.modScn s f) := by
  unfold State.modScn
  try dsimp only
  repeat' (first
    | with_reducible assumption
    | intro _
    | with_reducible apply hf
    | with_reducible apply Keeps.set_scn)

theorem State.enterPresent_keeps {P : Nat} {r₀ : State} {s : State} {t : Nat} {au : Nat} {desc : Option (Nat × Nat)} (hP : 8192 ||| P = P) (hs : Keeps P r₀ s) :
    Keeps P r₀ (State.enterPresent s t au desc) := by
  unfold State.enterPresent
  try dsimp only
  repeat' (first
    | with_reducible assumption
    | intro _
    | with_reducible apply State.modScn_keeps)

theorem State.opPresent_keeps {P : Nat} {r₀ : State} {s : State} {ring : Nat} (hP : 3154551 ||| P = P) (hs : Keeps P r₀ s) :
    Keeps P r₀ (State.opPresent s ring) := by
  unfold State.opPresent
  try dsimp only
  repeat' (first
    | with_reducible assumption
    | (refine mask_mono ?_ hP; rfl)
    | (intro _; try dsimp only)
    | with_reducible apply State.withOp_keeps
    | with_reducible apply State.enterPresent_keeps
    | with_reducible apply State.park_keeps
    | with_reducible apply State.broadcast_keeps
    | with_reducible apply keeps_ite)

theorem State.onPresentMsg_keeps {P : Nat} {r₀ : State} {s : State} {p : Port} {msg : List Byte} (hP : 2105959 ||| P = P) (hs : Keeps P r₀ s) :
    Keeps P r₀ (State.onPresentMsg s p msg) := by
  unfold State.onPresentMsg
  try dsimp only
  repeat' (first
    | with_reducible assumption
    | (refine mask_mono ?_ hP; rfl)
    | intro _
    | with_reducible apply State.forwardHop_keeps
    | with_reducible apply State.enterPresent_keeps)

theorem State.endPresent_keeps {P : Nat} {r₀ : State} {s : State} {p : Pres} {status : Nat} {frame : Nat} {flags : Nat} {evs : List Nat} (hP : 615 ||| P = P) (hs : Keeps P r₀ s) :
    Keeps P r₀ (State.endPresent s p status frame flags evs) := by
  unfold State.endPresent
  try dsimp only
  repeat' (first
    | with_reducible assumption
    | (refine mask_mono ?_ hP; rfl)
    | intro _
    | with_reducible apply State.complete_keeps
    | with_reducible apply State.raiseAll_keeps
    | with_reducible refine State.raiseAll_of (by assumption) ?_ ?_
    | split)

theorem State.showPresent_keeps {P : Nat} {r₀ : State} {s : State} {k : Nat} {d : Pres} (hP : 8807 ||| P = P) (hs : Keeps P r₀ s) :
    Keeps P r₀ (State.showPresent s k d) := by
  unfold State.showPresent
  try dsimp only
  repeat' (first
    | with_reducible assumption
    | (refine mask_mono ?_ hP; rfl)
    | intro _
    | with_reducible apply State.modScn_keeps
    | with_reducible apply State.bump_keeps
    | with_reducible apply State.endPresent_keeps
    | with_reducible apply keeps_ite)

theorem State.selectPresent_keeps {P : Nat} {r₀ : State} {s : State} {k : Nat} {tk : Int} (hP : 8807 ||| P = P) (hs : Keeps P r₀ s) :
    Keeps P r₀ (State.selectPresent s k tk) := by
  unfold State.selectPresent
  try dsimp only
  repeat' (first
    | with_reducible assumption
    | (refine mask_mono ?_ hP; rfl)
    | (intro _; try dsimp only)
    | with_reducible apply State.endPresent_keeps
    | with_reducible apply State.modScn_keeps
    | with_reducible apply State.showPresent_keeps
    | with_reducible apply keeps_foldl
    | with_reducible apply keeps_ite
    | split)

theorem State.renumber_keeps {P : Nat} {r₀ : State} {s : State} {j : Nat} (hP : 16 ||| P = P) (hs : Keeps P r₀ s) :
    Keeps P r₀ (State.renumber s j) := by
  unfold State.renumber
  try dsimp only
  repeat' (first
    | with_reducible assumption
    | intro _
    | with_reducible apply keeps_ite
    | split
    | with_reducible apply Keeps.set_tim)

theorem State.captureAs_keeps {P : Nat} {r₀ : State} {s : State} {k : Option Nat} (hP : 256 ||| P = P) (hs : Keeps P r₀ s) :
    Keeps P r₀ (State.captureAs s k) := by
  unfold State.captureAs
  try dsimp only
  repeat' (first
    | with_reducible assumption
    | intro _
    | with_reducible apply Keeps.set_pwr)

theorem State.resyncLine_keeps {P : Nat} {r₀ : State} {s : State} (hP : 8196 ||| P = P) (hs : Keeps P r₀ s) :
    Keeps P r₀ (State.resyncLine s) := by
  unfold State.resyncLine
  try dsimp only
  repeat' (first
    | with_reducible assumption
    | (refine mask_mono ?_ hP; rfl)
    | intro _
    | with_reducible apply State.modScn_keeps
    | with_reducible apply State.wr_keeps)

theorem State.forgetGuard_keeps {P : Nat} {r₀ : State} {s : State} (hP : 12288 ||| P = P) (hs : Keeps P r₀ s) :
    Keeps P r₀ (State.forgetGuard s) := by
  unfold State.forgetGuard
  try dsimp only
  repeat' (first
    | with_reducible assumption
    | (refine mask_mono ?_ hP; rfl)
    | intro _
    | with_reducible apply State.modScn_keeps
    | with_reducible apply Keeps.set_cmp)

theorem State.scnStart_keeps {P : Nat} {r₀ : State} {s : State} (hP : 8468 ||| P = P) (hs : Keeps P r₀ s) :
    Keeps P r₀ (State.scnStart s) := by
  unfold State.scnStart
  try dsimp only
  repeat' (first
    | with_reducible assumption
    | (refine mask_mono ?_ hP; rfl)
    | intro _
    | with_reducible apply State.renumber_keeps
    | with_reducible apply State.captureAs_keeps
    | with_reducible apply State.resyncLine_keeps
    | with_reducible apply State.modScn_keeps
    | with_reducible apply State.wrB_keeps)

theorem State.scnStop_keeps {P : Nat} {r₀ : State} {s : State} (hP : 8196 ||| P = P) (hs : Keeps P r₀ s) :
    Keeps P r₀ (State.scnStop s) := by
  unfold State.scnStop
  try dsimp only
  repeat' (first
    | with_reducible assumption
    | (refine mask_mono ?_ hP; rfl)
    | intro _
    | with_reducible apply State.modScn_keeps
    | with_reducible apply State.wrB_keeps)

theorem State.guardPoint_keeps {P : Nat} {r₀ : State} {s : State} (hP : 45316 ||| P = P) (hs : Keeps P r₀ s) :
    Keeps P r₀ (State.guardPoint s) := by
  unfold State.guardPoint
  try dsimp only
  repeat' (first
    | with_reducible assumption
    | (refine mask_mono ?_ hP; rfl)
    | intro _
    | with_reducible apply State.modScn_keeps
    | with_reducible apply State.commitBits_keeps
    | with_reducible apply State.decGuard_keeps
    | with_reducible apply keeps_ite
    | split
    | with_reducible apply Keeps.set_cmp
    | with_reducible apply Keeps.set_pwr)

theorem State.freezeStep_keeps {P : Nat} {r₀ : State} {s : State} (hP : 3154551 ||| P = P) (hs : Keeps P r₀ s) :
    Keeps P r₀ (State.freezeStep s) := by
  unfold State.freezeStep
  try dsimp only
  repeat' (first
    | with_reducible assumption
    | (refine mask_mono ?_ hP; rfl)
    | intro _
    | with_reducible apply State.wr_keeps
    | with_reducible apply State.modScn_keeps
    | with_reducible apply State.bump_keeps
    | with_reducible apply State.wrB_keeps
    | with_reducible apply State.raise_keeps
    | with_reducible apply State.alarm_keeps
    | with_reducible apply keeps_ite)

theorem State.cyclicStep_keeps {P : Nat} {r₀ : State} {s : State} (hP : 3146359 ||| P = P) (hs : Keeps P r₀ s) :
    Keeps P r₀ (State.cyclicStep s) := by
  unfold State.cyclicStep
  try dsimp only
  repeat' (first
    | with_reducible assumption
    | (refine mask_mono ?_ hP; rfl)
    | (intro _; try dsimp only)
    | with_reducible apply State.wr_keeps
    | with_reducible apply State.bump_keeps
    | with_reducible apply State.raise_keeps
    | with_reducible apply State.alarm_keeps
    | with_reducible apply keeps_foldl
    | with_reducible apply keeps_ite)

theorem State.pictureChecks_keeps {P : Nat} {r₀ : State} {s : State} (hP : 3154551 ||| P = P) (hs : Keeps P r₀ s) :
    Keeps P r₀ (State.pictureChecks s) := by
  unfold State.pictureChecks
  try dsimp only
  repeat' (first
    | with_reducible assumption
    | (refine mask_mono ?_ hP; rfl)
    | intro _
    | with_reducible apply State.freezeStep_keeps
    | with_reducible apply State.cyclicStep_keeps
    | with_reducible apply keeps_ite)

theorem State.decideBlank_keeps {P : Nat} {r₀ : State} {s : State} (hP : 8807 ||| P = P) (hs : Keeps P r₀ s) :
    Keeps P r₀ (State.decideBlank s) := by
  unfold State.decideBlank
  try dsimp only
  repeat' (first
    | with_reducible assumption
    | (refine mask_mono ?_ hP; rfl)
    | intro _
    | with_reducible apply State.wrB_keeps
    | with_reducible apply State.raise_keeps
    | with_reducible apply State.modScn_keeps
    | with_reducible apply keeps_ite)

theorem State.frzRestart_keeps {P : Nat} {r₀ : State} {s : State} (hP : 8192 ||| P = P) (hs : Keeps P r₀ s) :
    Keeps P r₀ (State.frzRestart s) := by
  unfold State.frzRestart
  try dsimp only
  repeat' (first
    | with_reducible assumption
    | intro _
    | with_reducible apply State.modScn_keeps)

theorem State.retime_keeps {P : Nat} {r₀ : State} {s : State} {d : Int} (hP : 29303 ||| P = P) (hs : Keeps P r₀ s) :
    Keeps P r₀ (State.retime s d) := by
  unfold State.retime
  try dsimp only
  repeat' (first
    | with_reducible assumption
    | (refine mask_mono ?_ hP; rfl)
    | intro _
    | with_reducible apply State.renumber_keeps
    | with_reducible apply State.forgetGuard_keeps
    | with_reducible apply State.modScn_keeps
    | with_reducible apply State.wrB_keeps
    | with_reducible apply State.frzRestart_keeps
    | with_reducible apply State.dcbRestart_keeps
    | with_reducible apply State.raise_keeps)

theorem State.touchReady_keeps {P : Nat} {r₀ : State} {s : State} {n : Nat} {new : Option (List (Nat × Word))} (hP : 4839 ||| P = P) (hs : Keeps P r₀ s) :
    Keeps P r₀ (State.touchReady s n new) := by
  unfold State.touchReady
  try dsimp only
  repeat' (first
    | with_reducible assumption
    | intro _
    | with_reducible apply State.readReady_keeps
    | with_reducible apply keeps_ite)

theorem State.retirePlane_keeps {P : Nat} {r₀ : State} {s : State} {k : Nat} {n : Nat} {was : Nat → Word} {is_ : Nat → Word} {dropped : Option Nat} (hP : 4711 ||| P = P) (hs : Keeps P r₀ s) :
    Keeps P r₀ (State.retirePlane s k n was is_ dropped) := by
  unfold State.retirePlane
  try dsimp only
  repeat' (first
    | with_reducible assumption
    | intro _
    | with_reducible apply State.retire_keeps
    | with_reducible apply keeps_ite
    | split)

theorem State.latchWords_keeps {P : Nat} {r₀ : State} {s : State} {snap : List (Nat × Word)} {outs : List (Nat × PlaneOut)} (hP : 4104 ||| P = P) (hs : Keeps P r₀ s) :
    Keeps P r₀ (State.latchWords s snap outs) := by
  unfold State.latchWords
  try dsimp only
  repeat' (first
    | with_reducible assumption
    | (refine mask_mono ?_ hP; rfl)
    | (intro _; try dsimp only)
    | with_reducible apply State.setLives_keeps
    | with_reducible apply keeps_foldl
    | exact cellsOf_wf _
    | with_reducible apply Keeps.set_live_cmp)

theorem State.settlePlanes_keeps {P : Nat} {r₀ : State} {s : State} {k : Nat} {snap : Option (List (Nat × Word))} (hP : 4847 ||| P = P) (hs : Keeps P r₀ s) :
    Keeps P r₀ (State.settlePlanes s k snap) := by
  unfold State.settlePlanes
  try dsimp only
  repeat' (first
    | with_reducible assumption
    | (refine mask_mono ?_ hP; rfl)
    | (intro _; try dsimp only)
    | with_reducible apply State.touchReady_keeps
    | with_reducible apply State.latchWords_keeps
    | with_reducible apply State.setLives_keeps
    | with_reducible apply State.wr_keeps
    | with_reducible apply State.bump_keeps
    | with_reducible apply State.raise_keeps
    | with_reducible apply State.retirePlane_keeps
    | with_reducible apply keeps_foldl
    | with_reducible apply keeps_ite
    | split
    | with_reducible apply Keeps.set_cmp)

theorem State.latchEffects_keeps {P : Nat} {r₀ : State} {s : State} {was : Nat → Word} (hP : 1075204 ||| P = P) (hs : Keeps P r₀ s) :
    Keeps P r₀ (State.latchEffects s was) := by
  unfold State.latchEffects
  try dsimp only
  repeat' (first
    | with_reducible assumption
    | (refine mask_mono ?_ hP; rfl)
    | intro _
    | with_reducible apply State.modSyn_keeps
    | with_reducible apply State.frzRestart_keeps
    | with_reducible apply State.dcbRestart_keeps
    | with_reducible apply State.settlePorts_keeps
    | with_reducible apply keeps_ite)

theorem State.latchCommit_keeps {P : Nat} {r₀ : State} {s : State} {k : Nat} {d : Int} {c : Commit} (hP : 1080319 ||| P = P) (hs : Keeps P r₀ s) :
    Keeps P r₀ (State.latchCommit s k d c) := by
  unfold State.latchCommit
  try dsimp only
  repeat' (first
    | with_reducible assumption
    | (refine mask_mono ?_ hP; rfl)
    | intro _
    | with_reducible apply State.settlePlanes_keeps
    | with_reducible apply State.latchEffects_keeps
    | with_reducible apply State.retime_keeps
    | with_reducible apply State.captureAs_keeps
    | with_reducible apply State.wrB_keeps
    | with_reducible apply State.bump_keeps
    | with_reducible apply State.complete_keeps
    | with_reducible apply State.commitBits_keeps
    | with_reducible apply keeps_ite
    | split
    | with_reducible apply Keeps.set_cmp)

theorem State.latchStep_keeps {P : Nat} {r₀ : State} {s : State} {k : Nat} {d : Int} (hP : 1080319 ||| P = P) (hs : Keeps P r₀ s) :
    Keeps P r₀ (State.latchStep s k d) := by
  unfold State.latchStep
  try dsimp only
  repeat' (first
    | with_reducible assumption
    | (refine mask_mono ?_ hP; rfl)
    | intro _
    | with_reducible apply State.latchCommit_keeps
    | with_reducible apply State.settlePlanes_keeps
    | with_reducible apply keeps_ite
    | split)

theorem State.applyCal_keeps {P : Nat} {r₀ : State} {s : State} (hP : 16999 ||| P = P) (hs : Keeps P r₀ s) :
    Keeps P r₀ (State.applyCal s) := by
  unfold State.applyCal
  try dsimp only
  repeat' (first
    | with_reducible assumption
    | (refine mask_mono ?_ hP; rfl)
    | (intro _; try dsimp only)
    | with_reducible apply State.setWord_keeps
    | with_reducible apply State.wr_keeps
    | with_reducible apply State.wrB_keeps
    | with_reducible apply State.applyPref_keeps
    | with_reducible apply State.raise_keeps
    | with_reducible apply keeps_foldl
    | with_reducible apply keeps_ite)

theorem State.startSynthesis_keeps {P : Nat} {r₀ : State} {s : State} (hP : 10855 ||| P = P) (hs : Keeps P r₀ s) :
    Keeps P r₀ (State.startSynthesis s) := by
  unfold State.startSynthesis
  try dsimp only
  repeat' (first
    | with_reducible assumption
    | (refine mask_mono ?_ hP; rfl)
    | intro _
    | with_reducible apply State.supplyExcess_keeps
    | with_reducible apply State.throttle_keeps
    | with_reducible apply State.modSyn_keeps
    | with_reducible apply State.modScn_keeps
    | with_reducible apply State.synStart_keeps
    | with_reducible apply keeps_ite)

theorem State.pumpLatch_keeps {P : Nat} {r₀ : State} {s : State} (hP : 295527 ||| P = P) (hs : Keeps P r₀ s) :
    Keeps P r₀ (State.pumpLatch s) := by
  unfold State.pumpLatch
  try dsimp only
  repeat' (first
    | with_reducible assumption
    | (intro _; try dsimp only)
    | with_reducible apply State.pumpRing_keeps
    | with_reducible apply keeps_foldl
    | split)

theorem State.latchLine_keeps {P : Nat} {r₀ : State} {s : State} (hP : 1375231 ||| P = P) (hs : Keeps P r₀ s) :
    Keeps P r₀ (State.latchLine s) := by
  unfold State.latchLine
  try dsimp only
  repeat' (first
    | with_reducible assumption
    | (refine mask_mono ?_ hP; rfl)
    | intro _
    | with_reducible apply State.selectPresent_keeps
    | with_reducible apply State.latchStep_keeps
    | with_reducible apply State.applyCal_keeps
    | with_reducible apply State.applyPref_keeps
    | with_reducible apply State.decPublish_keeps
    | with_reducible apply State.modDec_keeps
    | with_reducible apply State.decideBlank_keeps
    | with_reducible apply State.pumpLatch_keeps
    | with_reducible apply State.releaseEvents_keeps
    | with_reducible apply State.startSynthesis_keeps
    | with_reducible apply State.modScn_keeps
    | with_reducible apply State.forgetGuard_keeps
    | with_reducible apply Keeps.set_cmp)

end Sys2Proof.Machine
end

