-- ==== Sys2Proof/Laws/ScanLine.lean ====
section
/-!
SUPPORT. What each operation of Machine/ScanLine.lean leaves alone (see Laws/Keeps.lean).
-/
namespace Sys2Proof.Machine

theorem State.modPnl_keeps {P : Nat} {r₀ : State} {s : State} {f : PnlSt → PnlSt} (hP : 16384 ||| P = P) (hs : Keeps P r₀ s)
    (hf : ∀ p, p.ports.length = 16 → (f p).ports.length = 16) : Keeps P r₀ (State.modPnl s f) := hs.set_pnl hP (hf _)

theorem State.togglePhi_keeps {P : Nat} {r₀ : State} {s : State} (hP : 16388 ||| P = P) (hs : Keeps P r₀ s) :
    Keeps P r₀ (State.togglePhi s) := by
  unfold State.togglePhi
  try dsimp only
  repeat' (first
    | with_reducible assumption
    | (refine mask_mono ?_ hP; rfl)
    | exact fun h => h
    | exact fun h => (List.length_map ..).trans h
    | exact fun _ h => h
    | exact fun _ h => (List.length_map ..).trans h
    | intro _
    | with_reducible apply State.modPnl_keeps
    | with_reducible apply State.wr_keeps)

theorem State.takeBlink_keeps {P : Nat} {r₀ : State} {s : State} {dt : Nat} {apply : Bool} (hP : 16384 ||| P = P) (hs : Keeps P r₀ s) :
    Keeps P r₀ (State.takeBlink s dt apply) := by
  unfold State.takeBlink
  try dsimp only
  repeat' (first
    | with_reducible assumption
    | exact fun h => h
    | exact fun h => (List.length_map ..).trans h
    | exact fun _ h => h
    | exact fun _ h => (List.length_map ..).trans h
    | intro _
    | with_reducible apply State.modPnl_keeps)

theorem State.takeScanCfg_keeps {P : Nat} {r₀ : State} {s : State} (hP : 16386 ||| P = P) (hs : Keeps P r₀ s) :
    Keeps P r₀ (State.takeScanCfg s) := by
  unfold State.takeScanCfg
  try dsimp only
  repeat' (first
    | with_reducible assumption
    | (refine mask_mono ?_ hP; rfl)
    | exact fun h => h
    | exact fun h => (List.length_map ..).trans h
    | exact fun _ h => h
    | exact fun _ h => (List.length_map ..).trans h
    | intro _
    | with_reducible apply State.modPnl_keeps
    | with_reducible apply State.drawn_keeps)

theorem State.dcbPattern_keeps {P : Nat} {r₀ : State} {s : State} (hP : 615 ||| P = P) (hs : Keeps P r₀ s) :
    Keeps P r₀ (State.dcbPattern s) := by
  unfold State.dcbPattern
  try dsimp only
  repeat' (first
    | with_reducible assumption
    | (refine mask_mono ?_ hP; rfl)
    | intro _
    | with_reducible apply State.wrB_keeps
    | with_reducible apply State.raise_keeps
    | with_reducible apply keeps_ite)

theorem State.dcbEnd_keeps {P : Nat} {r₀ : State} {s : State} (hP : 16999 ||| P = P) (hs : Keeps P r₀ s) :
    Keeps P r₀ (State.dcbEnd s) := by
  unfold State.dcbEnd
  try dsimp only
  repeat' (first
    | with_reducible assumption
    | (refine mask_mono ?_ hP; rfl)
    | (intro _; try dsimp only)
    | with_reducible apply State.dcbPattern_keeps
    | with_reducible apply State.wrB_keeps
    | with_reducible apply State.wr_keeps
    | with_reducible apply State.raise_keeps
    | with_reducible apply State.dcbRestart_keeps
    | with_reducible apply keeps_foldl)

theorem State.dcbFrame_keeps {P : Nat} {r₀ : State} {s : State} (hP : 16999 ||| P = P) (hs : Keeps P r₀ s) :
    Keeps P r₀ (State.dcbFrame s) := by
  unfold State.dcbFrame
  try dsimp only
  repeat' (first
    | with_reducible assumption
    | (refine mask_mono ?_ hP; rfl)
    | exact fun h => h
    | exact fun h => (List.length_map ..).trans h
    | exact fun _ h => h
    | exact fun _ h => (List.length_map ..).trans h
    | intro _
    | with_reducible apply State.dcbEnd_keeps
    | with_reducible apply State.modPnl_keeps
    | with_reducible apply State.dcbPattern_keeps
    | with_reducible apply keeps_ite
    | split)

theorem State.drive_keeps {P : Nat} {r₀ : State} {s : State} {n : Nat} {level : Bool} {ps : Int} (hP : 17 ||| P = P) (hs : Keeps P r₀ s) :
    Keeps P r₀ (State.drive s n level ps) := by
  unfold State.drive
  try dsimp only
  repeat' (first
    | with_reducible assumption
    | (refine mask_mono ?_ hP; rfl)
    | intro _
    | with_reducible apply State.emit_keeps
    | with_reducible apply keeps_ite
    | split
    | with_reducible apply Keeps.set_tim)

theorem State.idleFstrobe_keeps {P : Nat} {r₀ : State} {s : State} (hP : 17 ||| P = P) (hs : Keeps P r₀ s) :
    Keeps P r₀ (State.idleFstrobe s) := by
  unfold State.idleFstrobe
  try dsimp only
  repeat' (first
    | with_reducible assumption
    | intro _
    | with_reducible apply State.fstrobe_keeps
    | with_reducible apply State.drive_keeps
    | with_reducible apply keeps_ite)

theorem State.fstrobe_keeps {P : Nat} {r₀ : State} {s : State} {ns : Int} (hP : 17 ||| P = P) (hs : Keeps P r₀ s) :
    Keeps P r₀ (State.fstrobe s ns) := by
  unfold State.fstrobe
  try dsimp only
  repeat' (first
    | with_reducible assumption
    | (refine mask_mono ?_ hP; rfl)
    | intro _
    | with_reducible apply State.drive_keeps
    | with_reducible apply keeps_ite
    | split
    | with_reducible apply Keeps.set_tim)

theorem State.countFrame_keeps {P : Nat} {r₀ : State} {s : State} (hP : 12292 ||| P = P) (hs : Keeps P r₀ s) :
    Keeps P r₀ (State.countFrame s) := by
  unfold State.countFrame
  try dsimp only
  repeat' (first
    | with_reducible assumption
    | (refine mask_mono ?_ hP; rfl)
    | intro _
    | with_reducible apply State.wr_keeps
    | with_reducible apply State.wrB_keeps
    | with_reducible apply State.modScn_keeps
    | with_reducible apply Keeps.set_cmp)

theorem State.startFrame_keeps {P : Nat} {r₀ : State} {s : State} (hP : 1110631 ||| P = P) (hs : Keeps P r₀ s) :
    Keeps P r₀ (State.startFrame s) := by
  unfold State.startFrame
  try dsimp only
  repeat' (first
    | with_reducible assumption
    | (refine mask_mono ?_ hP; rfl)
    | exact fun h => h
    | exact fun h => (List.length_map ..).trans h
    | exact fun _ h => h
    | exact fun _ h => (List.length_map ..).trans h
    | intro _
    | with_reducible apply State.activatePorts_keeps
    | with_reducible apply State.takeScanCfg_keeps
    | with_reducible apply State.takeBlink_keeps
    | with_reducible apply State.modScn_keeps
    | with_reducible apply State.modPnl_keeps
    | with_reducible apply State.showDecim_keeps
    | with_reducible apply State.wr_keeps
    | with_reducible apply State.togglePhi_keeps
    | with_reducible apply State.dcbFrame_keeps
    | with_reducible apply State.decFrameStart_keeps
    | with_reducible apply State.countFrame_keeps
    | with_reducible apply keeps_ite)

theorem State.blankFrame_keeps {P : Nat} {r₀ : State} {s : State} (hP : 61444 ||| P = P) (hs : Keeps P r₀ s) :
    Keeps P r₀ (State.blankFrame s) := by
  unfold State.blankFrame
  try dsimp only
  repeat' (first
    | with_reducible assumption
    | (refine mask_mono ?_ hP; rfl)
    | exact fun h => h
    | exact fun h => (List.length_map ..).trans h
    | exact fun _ h => h
    | exact fun _ h => (List.length_map ..).trans h
    | intro _
    | with_reducible apply State.modPnl_keeps
    | with_reducible apply State.decFrameStart_keeps
    | with_reducible apply State.countFrame_keeps
    | with_reducible apply State.modScn_keeps)

theorem State.frameStart_keeps {P : Nat} {r₀ : State} {s : State} (hP : 1110647 ||| P = P) (hs : Keeps P r₀ s) :
    Keeps P r₀ (State.frameStart s) := by
  unfold State.frameStart
  try dsimp only
  repeat' (first
    | with_reducible assumption
    | (refine mask_mono ?_ hP; rfl)
    | intro _
    | with_reducible apply State.startFrame_keeps
    | with_reducible apply State.blankFrame_keeps
    | with_reducible apply State.fstrobe_keeps
    | with_reducible apply State.decFrameStart_keeps
    | with_reducible apply State.countFrame_keeps
    | with_reducible apply keeps_ite)

theorem State.formed_keeps {P : Nat} {r₀ : State} {s : State} {p : Plane} {row : DestRow} (hP : 4839 ||| P = P) (hs : Keeps P r₀ s) :
    Keeps P r₀ (State.formed s p row) := by
  unfold State.formed
  try dsimp only
  repeat' (first
    | with_reducible assumption
    | (refine mask_mono ?_ hP; rfl)
    | (intro _; try dsimp only)
    | with_reducible apply State.readPlane_keeps
    | with_reducible apply State.poison_keeps
    | with_reducible apply State.bump_keeps
    | with_reducible apply State.cmpOnce_keeps
    | with_reducible apply keeps_foldl
    | with_reducible apply keeps_ite
    | split
    | with_reducible apply Keeps.set_cmp)

theorem State.panelData_keeps {P : Nat} {r₀ : State} {s : State} {n : Nat} {ws : List Nat} (hP : 1048577 ||| P = P) (hs : Keeps P r₀ s) :
    Keeps P r₀ (State.panelData s n ws) := by
  unfold State.panelData
  try dsimp only
  repeat' (first
    | with_reducible assumption
    | (refine mask_mono ?_ hP; rfl)
    | intro _
    | with_reducible apply State.txBlocks_keeps
    | with_reducible apply State.emit_keeps
    | with_reducible apply keeps_ite)

theorem State.sendLine_keeps {P : Nat} {r₀ : State} {s : State} {port : Nat} {active : Bool} {fstart : Bool} {hold : Bool} {line : Nat} {frame : Nat} {rays : List Rgb} (hP : 1048577 ||| P = P) (hs : Keeps P r₀ s) :
    Keeps P r₀ (State.sendLine s port active fstart hold line frame rays) := by
  unfold State.sendLine
  try dsimp only
  repeat' (first
    | with_reducible assumption
    | (intro _; try dsimp only)
    | with_reducible apply State.panelOut_keeps
    | with_reducible apply State.panelData_keeps
    | with_reducible apply keeps_foldl
    | with_reducible apply keeps_ite)

theorem State.signLine_keeps {P : Nat} {r₀ : State} {s : State} {ls : List PortLine} {y : Nat} (hP : 8192 ||| P = P) (hs : Keeps P r₀ s) :
    Keeps P r₀ (State.signLine s ls y) := by
  unfold State.signLine
  try dsimp only
  repeat' (first
    | with_reducible assumption
    | intro _
    | with_reducible apply State.modScn_keeps)

theorem State.dcbLine_keeps {P : Nat} {r₀ : State} {s : State} {ls : List PortLine} {y : Nat} (hP : 16384 ||| P = P) (hs : Keeps P r₀ s) :
    Keeps P r₀ (State.dcbLine s ls y) := by
  unfold State.dcbLine
  try dsimp only
  repeat' (first
    | with_reducible assumption
    | exact fun h => h
    | exact fun h => (List.length_map ..).trans h
    | exact fun _ h => h
    | exact fun _ h => (List.length_map ..).trans h
    | (intro _; try dsimp only)
    | with_reducible apply State.modPnl_keeps
    | with_reducible apply keeps_foldl
    | with_reducible apply keeps_ite)

theorem State.captureLine_keeps {P : Nat} {r₀ : State} {s : State} {l : PortLine} {y : Nat} (hP : 743 ||| P = P) (hs : Keeps P r₀ s) :
    Keeps P r₀ (State.captureLine s l y) := by
  unfold State.captureLine
  try dsimp only
  repeat' (first
    | with_reducible assumption
    | (refine mask_mono ?_ hP; rfl)
    | (intro _; try dsimp only)
    | with_reducible apply State.writeHold_keeps
    | with_reducible apply State.wrB_keeps
    | with_reducible apply keeps_foldl)

theorem State.drainLine_keeps {P : Nat} {r₀ : State} {s : State} {y : Nat} (hP : 2663 ||| P = P) (hs : Keeps P r₀ s) :
    Keeps P r₀ (State.drainLine s y) := by
  unfold State.drainLine
  try dsimp only
  repeat' (first
    | with_reducible assumption
    | (refine mask_mono ?_ hP; rfl)
    | intro _
    | with_reducible apply State.setDie_keeps
    | with_reducible apply State.updateLevel_keeps
    | with_reducible apply keeps_ite)

theorem State.activeLine_keeps {P : Nat} {r₀ : State} {s : State} {y : Nat} (hP : 1080039 ||| P = P) (hs : Keeps P r₀ s) :
    Keeps P r₀ (State.activeLine s y) := by
  unfold State.activeLine
  try dsimp only
  repeat' (first
    | with_reducible assumption
    | (refine mask_mono ?_ hP; rfl)
    | (intro _; try dsimp only)
    | with_reducible apply State.formed_keeps
    | with_reducible apply State.bump_keeps
    | with_reducible apply State.synOnce_keeps
    | with_reducible apply State.signLine_keeps
    | with_reducible apply State.dcbLine_keeps
    | with_reducible apply State.captureLine_keeps
    | with_reducible apply State.sendLine_keeps
    | with_reducible apply State.drainLine_keeps
    | with_reducible apply keeps_foldl
    | with_reducible apply keeps_ite
    | split)

theorem State.captureRow_keeps {P : Nat} {r₀ : State} {s : State} {y : Nat} (hP : 4839 ||| P = P) (hs : Keeps P r₀ s) :
    Keeps P r₀ (State.captureRow s y) := by
  unfold State.captureRow
  try dsimp only
  repeat' (first
    | with_reducible assumption
    | (refine mask_mono ?_ hP; rfl)
    | (intro _; try dsimp only)
    | with_reducible apply State.formed_keeps
    | with_reducible apply State.captureLine_keeps
    | with_reducible apply keeps_foldl
    | split)

theorem State.blankLine_keeps {P : Nat} {r₀ : State} {s : State} {line : Nat} (hP : 1064965 ||| P = P) (hs : Keeps P r₀ s) :
    Keeps P r₀ (State.blankLine s line) := by
  unfold State.blankLine
  try dsimp only
  repeat' (first
    | with_reducible assumption
    | (refine mask_mono ?_ hP; rfl)
    | (intro _; try dsimp only)
    | with_reducible apply State.sendLine_keeps
    | with_reducible apply State.drainTrain_keeps
    | with_reducible apply keeps_foldl
    | with_reducible apply keeps_ite)

theorem State.lineStart_keeps {P : Nat} {r₀ : State} {s : State} (hP : 1080039 ||| P = P) (hs : Keeps P r₀ s) :
    Keeps P r₀ (State.lineStart s) := by
  unfold State.lineStart
  try dsimp only
  repeat' (first
    | with_reducible assumption
    | (refine mask_mono ?_ hP; rfl)
    | intro _
    | with_reducible apply State.modScn_keeps
    | with_reducible apply State.activatePorts_keeps
    | with_reducible apply State.wr_keeps
    | with_reducible apply State.wrB_keeps
    | with_reducible apply State.activeLine_keeps
    | with_reducible apply State.captureRow_keeps
    | with_reducible apply State.blankLine_keeps
    | with_reducible apply State.drainLine_keeps
    | with_reducible apply keeps_ite)

end Sys2Proof.Machine
end

