-- ==== Sys2Proof/Laws/Tim.lean ====
section
/-!
SUPPORT. What each operation of Machine/Tim.lean leaves alone (see Laws/Keeps.lean).
-/
namespace Sys2Proof.Machine

theorem State.modTim_keeps {P : Nat} {r₀ : State} {s : State} {f : TimSt → TimSt} (hP : 16 ||| P = P) (hs : Keeps P r₀ s) :
    Keeps P r₀ (State.modTim s f) := by
  unfold State.modTim
  try dsimp only
  repeat' (first
    | with_reducible assumption
    | intro _
    | with_reducible apply hf
    | with_reducible apply Keeps.set_tim)

theorem State.settleRef_keeps {P : Nat} {r₀ : State} {s : State} (hP : 4 ||| P = P) (hs : Keeps P r₀ s) :
    Keeps P r₀ (State.settleRef s) := by
  unfold State.settleRef
  try dsimp only
  repeat' (first
    | with_reducible assumption
    | intro _
    | with_reducible apply State.wrB_keeps)

theorem State.trefValid_keeps {P : Nat} {r₀ : State} {s : State} (hP : 631 ||| P = P) (hs : Keeps P r₀ s) :
    Keeps P r₀ (State.trefValid s) := by
  unfold State.trefValid
  try dsimp only
  repeat' (first
    | with_reducible assumption
    | (refine mask_mono ?_ hP; rfl)
    | intro _
    | with_reducible apply State.wrB_keeps
    | with_reducible apply State.settleRef_keeps
    | with_reducible apply State.modTim_keeps
    | with_reducible apply State.raise_keeps
    | with_reducible apply keeps_ite)

theorem State.trefLost_keeps {P : Nat} {r₀ : State} {s : State} (hP : 631 ||| P = P) (hs : Keeps P r₀ s) :
    Keeps P r₀ (State.trefLost s) := by
  unfold State.trefLost
  try dsimp only
  repeat' (first
    | with_reducible assumption
    | (refine mask_mono ?_ hP; rfl)
    | intro _
    | with_reducible apply State.wrB_keeps
    | with_reducible apply State.settleRef_keeps
    | with_reducible apply State.modTim_keeps
    | with_reducible apply State.raise_keeps
    | with_reducible apply keeps_ite)

theorem State.setOffset_keeps {P : Nat} {r₀ : State} {s : State} {z : Int} (hP : 20 ||| P = P) (hs : Keeps P r₀ s) :
    Keeps P r₀ (State.setOffset s z) := by
  unfold State.setOffset
  try dsimp only
  repeat' (first
    | with_reducible assumption
    | (refine mask_mono ?_ hP; rfl)
    | intro _
    | with_reducible apply State.modTim_keeps
    | with_reducible apply State.wr_keeps
    | with_reducible apply State.wrB_keeps
    | with_reducible apply keeps_ite)

theorem State.setTimeRate_keeps {P : Nat} {r₀ : State} {s : State} {r : Nat} (hP : 20 ||| P = P) (hs : Keeps P r₀ s) :
    Keeps P r₀ (State.setTimeRate s r) := by
  unfold State.setTimeRate
  try dsimp only
  repeat' (first
    | with_reducible assumption
    | (refine mask_mono ?_ hP; rfl)
    | intro _
    | with_reducible apply State.setOffset_keeps
    | with_reducible apply State.modTim_keeps
    | with_reducible apply State.wr_keeps
    | with_reducible apply State.wrB_keeps
    | with_reducible apply keeps_ite)

theorem State.setValid_keeps {P : Nat} {r₀ : State} {s : State} (hP : 8468 ||| P = P) (hs : Keeps P r₀ s) :
    Keeps P r₀ (State.setValid s) := by
  unfold State.setValid
  try dsimp only
  repeat' (first
    | with_reducible assumption
    | (refine mask_mono ?_ hP; rfl)
    | intro _
    | with_reducible apply State.wrB_keeps
    | with_reducible apply State.scnStart_keeps
    | with_reducible apply keeps_ite)

theorem State.writeOffsetLo_keeps {P : Nat} {r₀ : State} {s : State} {val : Nat} (hP : 20 ||| P = P) (hs : Keeps P r₀ s) :
    Keeps P r₀ (State.writeOffsetLo s val) := by
  unfold State.writeOffsetLo
  try dsimp only
  repeat' (first
    | with_reducible assumption
    | (refine mask_mono ?_ hP; rfl)
    | intro _
    | with_reducible apply State.wr_keeps
    | with_reducible apply State.modTim_keeps)

theorem State.writeOffsetHi_keeps {P : Nat} {r₀ : State} {s : State} {val : Nat} (hP : 8468 ||| P = P) (hs : Keeps P r₀ s) :
    Keeps P r₀ (State.writeOffsetHi s val) := by
  unfold State.writeOffsetHi
  try dsimp only
  repeat' (first
    | with_reducible assumption
    | (refine mask_mono ?_ hP; rfl)
    | intro _
    | with_reducible apply State.setOffset_keeps
    | with_reducible apply State.modTim_keeps
    | with_reducible apply State.setValid_keeps
    | with_reducible apply keeps_ite)

theorem State.writeTimCtrl_keeps {P : Nat} {r₀ : State} {s : State} (hP : 20 ||| P = P) (hs : Keeps P r₀ s) :
    Keeps P r₀ (State.writeTimCtrl s) := by
  unfold State.writeTimCtrl
  try dsimp only
  repeat' (first
    | with_reducible assumption
    | (refine mask_mono ?_ hP; rfl)
    | intro _
    | with_reducible apply State.settleRole_keeps
    | with_reducible apply State.settleRef_keeps
    | with_reducible apply State.modTim_keeps
    | with_reducible apply keeps_ite)

theorem State.writeIncHi_keeps {P : Nat} {r₀ : State} {s : State} {val : Nat} (hP : 20 ||| P = P) (hs : Keeps P r₀ s) :
    Keeps P r₀ (State.writeIncHi s val) := by
  unfold State.writeIncHi
  try dsimp only
  repeat' (first
    | with_reducible assumption
    | (refine mask_mono ?_ hP; rfl)
    | intro _
    | with_reducible apply State.wr_keeps
    | with_reducible apply State.modTim_keeps
    | with_reducible apply keeps_ite)

theorem State.writePpsSec_keeps {P : Nat} {r₀ : State} {s : State} {val : Nat} (hP : 20 ||| P = P) (hs : Keeps P r₀ s) :
    Keeps P r₀ (State.writePpsSec s val) := by
  unfold State.writePpsSec
  try dsimp only
  repeat' (first
    | with_reducible assumption
    | (refine mask_mono ?_ hP; rfl)
    | intro _
    | with_reducible apply State.wr_keeps
    | with_reducible apply State.modTim_keeps)

theorem State.snapTime_keeps {P : Nat} {r₀ : State} {s : State} (hP : 4 ||| P = P) (hs : Keeps P r₀ s) :
    Keeps P r₀ (State.snapTime s) := by
  unfold State.snapTime
  try dsimp only
  repeat' (first
    | with_reducible assumption
    | intro _
    | with_reducible apply State.wr_keeps)

theorem State.modTev_keeps {P : Nat} {r₀ : State} {s : State} {n : Nat} {f : Tev → Tev} (hP : 16 ||| P = P) (hs : Keeps P r₀ s) :
    Keeps P r₀ (State.modTev s n f) := by
  unfold State.modTev
  try dsimp only
  repeat' (first
    | with_reducible assumption
    | intro _
    | with_reducible apply State.modTim_keeps)

theorem State.setArmed_keeps {P : Nat} {r₀ : State} {s : State} {n : Nat} {a : Option TevArmed} (hP : 20 ||| P = P) (hs : Keeps P r₀ s) :
    Keeps P r₀ (State.setArmed s n a) := by
  unfold State.setArmed
  try dsimp only
  repeat' (first
    | with_reducible assumption
    | (refine mask_mono ?_ hP; rfl)
    | intro _
    | with_reducible apply State.modTev_keeps
    | with_reducible apply State.wrB_keeps)

theorem State.idleTev_keeps {P : Nat} {r₀ : State} {s : State} {n : Nat} (hP : 17 ||| P = P) (hs : Keeps P r₀ s) :
    Keeps P r₀ (State.idleTev s n) := by
  unfold State.idleTev
  try dsimp only
  repeat' (first
    | with_reducible assumption
    | intro _
    | with_reducible apply State.drive_keeps
    | with_reducible apply keeps_ite)

theorem State.setTevCtrl_keeps {P : Nat} {r₀ : State} {s : State} {n : Nat} {val : Nat} (hP : 21 ||| P = P) (hs : Keeps P r₀ s) :
    Keeps P r₀ (State.setTevCtrl s n val) := by
  unfold State.setTevCtrl
  try dsimp only
  repeat' (first
    | with_reducible assumption
    | (refine mask_mono ?_ hP; rfl)
    | intro _
    | with_reducible apply State.wr_keeps
    | with_reducible apply State.idleTev_keeps
    | with_reducible apply State.modTev_keeps
    | with_reducible apply keeps_ite)

theorem State.arm_keeps {P : Nat} {r₀ : State} {s : State} {n : Nat} {val : Nat} (hP : 631 ||| P = P) (hs : Keeps P r₀ s) :
    Keeps P r₀ (State.arm s n val) := by
  unfold State.arm
  try dsimp only
  repeat' (first
    | with_reducible assumption
    | (refine mask_mono ?_ hP; rfl)
    | intro _
    | with_reducible apply State.setTevCtrl_keeps
    | with_reducible apply State.setArmed_keeps
    | with_reducible apply State.wrB_keeps
    | with_reducible apply State.raise_keeps
    | with_reducible apply keeps_ite)

theorem State.disarm_keeps {P : Nat} {r₀ : State} {s : State} {n : Nat} (hP : 20 ||| P = P) (hs : Keeps P r₀ s) :
    Keeps P r₀ (State.disarm s n) := by
  unfold State.disarm
  try dsimp only
  repeat' (first
    | with_reducible assumption
    | (refine mask_mono ?_ hP; rfl)
    | intro _
    | with_reducible apply State.setArmed_keeps
    | with_reducible apply State.modTev_keeps)

theorem State.fire_keeps {P : Nat} {r₀ : State} {s : State} {n : Nat} {a : TevArmed} {used : Nat} {q : Int} (hP : 17 ||| P = P) (hs : Keeps P r₀ s) :
    Keeps P r₀ (State.fire s n a used q) := by
  unfold State.fire
  try dsimp only
  repeat' (first
    | with_reducible assumption
    | (refine mask_mono ?_ hP; rfl)
    | intro _
    | with_reducible apply State.drive_keeps
    | with_reducible apply State.modTev_keeps)

theorem State.pulseEnd_keeps {P : Nat} {r₀ : State} {s : State} {n : Nat} {t : Tev} {e : Int} (hP : 631 ||| P = P) (hs : Keeps P r₀ s) :
    Keeps P r₀ (State.pulseEnd s n t e) := by
  unfold State.pulseEnd
  try dsimp only
  repeat' (first
    | with_reducible assumption
    | (refine mask_mono ?_ hP; rfl)
    | intro _
    | with_reducible apply State.drive_keeps
    | with_reducible apply State.modTev_keeps
    | with_reducible apply State.setArmed_keeps
    | with_reducible apply State.wrB_keeps
    | with_reducible apply State.raise_keeps
    | with_reducible apply keeps_ite)

theorem State.stepTev_keeps {P : Nat} {r₀ : State} {s : State} {t : Int} {n : Nat} (hP : 631 ||| P = P) (hs : Keeps P r₀ s) :
    Keeps P r₀ (State.stepTev s t n) := by
  unfold State.stepTev
  try dsimp only
  repeat' (first
    | with_reducible assumption
    | (refine mask_mono ?_ hP; rfl)
    | intro _
    | with_reducible apply State.fire_keeps
    | with_reducible apply State.wrB_keeps
    | with_reducible apply State.raise_keeps
    | with_reducible apply keeps_ite
    | split)

theorem State.keepFired_keeps {P : Nat} {r₀ : State} {s : State} {before : List Tev} (hP : 16 ||| P = P) (hs : Keeps P r₀ s) :
    Keeps P r₀ (State.keepFired s before) := by
  unfold State.keepFired
  try dsimp only
  repeat' (first
    | with_reducible assumption
    | intro _
    | with_reducible apply State.modTim_keeps)

theorem State.stepClock_keeps {P : Nat} {r₀ : State} {s : State} {z : Int} {f : Nat} (hP : 64375 ||| P = P) (hs : Keeps P r₀ s) :
    Keeps P r₀ (State.stepClock s z f) := by
  unfold State.stepClock
  try dsimp only
  repeat' (first
    | with_reducible assumption
    | (refine mask_mono ?_ hP; rfl)
    | (intro _; try dsimp only)
    | with_reducible apply State.modTim_keeps
    | with_reducible apply State.raise_keeps
    | with_reducible apply State.stepTev_keeps
    | with_reducible apply State.retime_keeps
    | with_reducible apply State.captureAs_keeps
    | with_reducible apply State.keepFired_keeps
    | with_reducible apply State.modScn_keeps
    | with_reducible apply State.modDec_keeps
    | with_reducible apply State.synStart_keeps
    | with_reducible apply keeps_foldl
    | with_reducible apply keeps_ite)

theorem State.writeDcAdj_keeps {P : Nat} {r₀ : State} {s : State} {val : Nat} (hP : 64375 ||| P = P) (hs : Keeps P r₀ s) :
    Keeps P r₀ (State.writeDcAdj s val) := by
  unfold State.writeDcAdj
  try dsimp only
  repeat' (first
    | with_reducible assumption
    | intro _
    | with_reducible apply State.stepClock_keeps
    | with_reducible apply keeps_ite)

theorem State.steerCompare_keeps {P : Nat} {r₀ : State} {s : State} (hP : 64375 ||| P = P) (hs : Keeps P r₀ s) :
    Keeps P r₀ (State.steerCompare s) := by
  unfold State.steerCompare
  try dsimp only
  repeat' (first
    | with_reducible assumption
    | (refine mask_mono ?_ hP; rfl)
    | intro _
    | with_reducible apply State.wr_keeps
    | with_reducible apply State.wrB_keeps
    | with_reducible apply State.stepClock_keeps
    | with_reducible apply State.modTim_keeps
    | with_reducible apply State.drawn_keeps
    | with_reducible apply keeps_ite)

theorem State.servoLoop_keeps {P : Nat} {r₀ : State} {s : State} {ps : Int} (hP : 22 ||| P = P) (hs : Keeps P r₀ s) :
    Keeps P r₀ (State.servoLoop s ps) := by
  unfold State.servoLoop
  try dsimp only
  repeat' (first
    | with_reducible assumption
    | (refine mask_mono ?_ hP; rfl)
    | intro _
    | with_reducible apply State.drawn_keeps
    | with_reducible apply State.setTimeRate_keeps
    | with_reducible apply State.setOffset_keeps)

theorem State.servo_keeps {P : Nat} {r₀ : State} {s : State} {ps : Int} (hP : 22 ||| P = P) (hs : Keeps P r₀ s) :
    Keeps P r₀ (State.servo s ps) := by
  unfold State.servo
  try dsimp only
  repeat' (first
    | with_reducible assumption
    | (refine mask_mono ?_ hP; rfl)
    | intro _
    | with_reducible apply State.wr_keeps
    | with_reducible apply State.setOffset_keeps
    | with_reducible apply State.drawn_keeps
    | with_reducible apply State.servoLoop_keeps
    | with_reducible apply keeps_ite)

theorem State.ppsInvalid_keeps {P : Nat} {r₀ : State} {s : State} (hP : 631 ||| P = P) (hs : Keeps P r₀ s) :
    Keeps P r₀ (State.ppsInvalid s) := by
  unfold State.ppsInvalid
  try dsimp only
  repeat' (first
    | with_reducible assumption
    | (refine mask_mono ?_ hP; rfl)
    | intro _
    | with_reducible apply State.wrB_keeps
    | with_reducible apply State.modTim_keeps
    | with_reducible apply State.raise_keeps
    | with_reducible apply State.settleRole_keeps
    | with_reducible apply keeps_ite)

theorem State.ppsTake_keeps {P : Nat} {r₀ : State} {s : State} (hP : 8470 ||| P = P) (hs : Keeps P r₀ s) :
    Keeps P r₀ (State.ppsTake s) := by
  unfold State.ppsTake
  try dsimp only
  repeat' (first
    | with_reducible assumption
    | (refine mask_mono ?_ hP; rfl)
    | intro _
    | with_reducible apply State.modTim_keeps
    | with_reducible apply State.wr_keeps
    | with_reducible apply State.servo_keeps
    | with_reducible apply State.setValid_keeps)

theorem State.ppsEdge_keeps {P : Nat} {r₀ : State} {s : State} (hP : 9079 ||| P = P) (hs : Keeps P r₀ s) :
    Keeps P r₀ (State.ppsEdge s) := by
  unfold State.ppsEdge
  try dsimp only
  repeat' (first
    | with_reducible assumption
    | (refine mask_mono ?_ hP; rfl)
    | intro _
    | with_reducible apply State.ppsInvalid_keeps
    | with_reducible apply State.modTim_keeps
    | with_reducible apply State.wrB_keeps
    | with_reducible apply State.settleRole_keeps
    | with_reducible apply State.ppsTake_keeps
    | with_reducible apply keeps_ite)

theorem State.followTsync_keeps {P : Nat} {r₀ : State} {s : State} {ps : Int} (hP : 22 ||| P = P) (hs : Keeps P r₀ s) :
    Keeps P r₀ (State.followTsync s ps) := by
  unfold State.followTsync
  try dsimp only
  repeat' (first
    | with_reducible assumption
    | (refine mask_mono ?_ hP; rfl)
    | intro _
    | with_reducible apply State.servo_keeps
    | with_reducible apply State.modTim_keeps)

theorem State.unlock_keeps {P : Nat} {r₀ : State} {s : State} (hP : 631 ||| P = P) (hs : Keeps P r₀ s) :
    Keeps P r₀ (State.unlock s) := by
  unfold State.unlock
  try dsimp only
  repeat' (first
    | with_reducible assumption
    | (refine mask_mono ?_ hP; rfl)
    | intro _
    | with_reducible apply State.wrB_keeps
    | with_reducible apply State.modTim_keeps
    | with_reducible apply State.raise_keeps
    | with_reducible apply keeps_ite)

theorem State.exchange_keeps {P : Nat} {r₀ : State} {s : State} {o : TdOut} {t4 : Int} {turn : Nat} (hP : 22 ||| P = P) (hs : Keeps P r₀ s) :
    Keeps P r₀ (State.exchange s o t4 turn) := by
  unfold State.exchange
  try dsimp only
  repeat' (first
    | with_reducible assumption
    | (refine mask_mono ?_ hP; rfl)
    | intro _
    | with_reducible apply State.modTim_keeps
    | with_reducible apply State.wr_keeps
    | with_reducible apply State.drawn_keeps)

theorem State.tsqPop_keeps {P : Nat} {r₀ : State} {s : State} (hP : 16 ||| P = P) (hs : Keeps P r₀ s) :
    Keeps P r₀ (State.tsqPop s) := by
  unfold State.tsqPop
  try dsimp only
  repeat' (first
    | with_reducible assumption
    | intro _
    | with_reducible apply State.modTim_keeps)

end Sys2Proof.Machine
end

