-- ==== Sys2Proof/Laws/Pwr.lean ====
section
/-!
SUPPORT. What each operation of Machine/Pwr.lean leaves alone (see Laws/Keeps.lean).
-/
namespace Sys2Proof.Machine

theorem State.modPwr_keeps {P : Nat} {r₀ : State} {s : State} {f : PwrSt → PwrSt} (hP : 256 ||| P = P) (hs : Keeps P r₀ s) :
    Keeps P r₀ (State.modPwr s f) := by
  unfold State.modPwr
  try dsimp only
  repeat' (first
    | with_reducible assumption
    | intro _
    | with_reducible apply hf
    | with_reducible apply Keeps.set_pwr)

theorem State.setTrans_keeps {P : Nat} {r₀ : State} {s : State} {t : Option PwrTrans} (hP : 260 ||| P = P) (hs : Keeps P r₀ s) :
    Keeps P r₀ (State.setTrans s t) := by
  unfold State.setTrans
  try dsimp only
  repeat' (first
    | with_reducible assumption
    | (refine mask_mono ?_ hP; rfl)
    | intro _
    | with_reducible apply State.modPwr_keeps
    | with_reducible apply State.wrB_keeps)

theorem State.setPwr_keeps {P : Nat} {r₀ : State} {s : State} {st : PwrState} (hP : 260 ||| P = P) (hs : Keeps P r₀ s) :
    Keeps P r₀ (State.setPwr s st) := by
  unfold State.setPwr
  try dsimp only
  repeat' (first
    | with_reducible assumption
    | (refine mask_mono ?_ hP; rfl)
    | intro _
    | with_reducible apply State.modPwr_keeps
    | with_reducible apply State.wr_keeps)

theorem State.leaveS0_keeps {P : Nat} {r₀ : State} {s : State} (hP : 2538471 ||| P = P) (hs : Keeps P r₀ s) :
    Keeps P r₀ (State.leaveS0 s) := by
  unfold State.leaveS0
  try dsimp only
  repeat' (first
    | with_reducible assumption
    | (refine mask_mono ?_ hP; rfl)
    | (intro _; try dsimp only)
    | with_reducible apply State.abortEngines_keeps
    | with_reducible apply State.pumpRing_keeps
    | with_reducible apply State.synStop_keeps
    | with_reducible apply State.modScn_keeps
    | with_reducible apply State.commitBits_keeps
    | with_reducible apply State.wrB_keeps
    | with_reducible apply State.modPwr_keeps
    | with_reducible apply keeps_foldl
    | split
    | with_reducible apply Keeps.set_cmp)

theorem State.ropePower_keeps {P : Nat} {r₀ : State} {s : State} (hP : 3146343 ||| P = P) (hs : Keeps P r₀ s) :
    Keeps P r₀ (State.ropePower s) := by
  unfold State.ropePower
  try dsimp only
  repeat' (first
    | with_reducible assumption
    | intro _
    | with_reducible apply State.powerPitch_keeps)

theorem State.dropCapture_keeps {P : Nat} {r₀ : State} {s : State} (hP : 838 ||| P = P) (hs : Keeps P r₀ s) :
    Keeps P r₀ (State.dropCapture s) := by
  unfold State.dropCapture
  try dsimp only
  repeat' (first
    | with_reducible assumption
    | (refine mask_mono ?_ hP; rfl)
    | intro _
    | with_reducible apply State.modPwr_keeps
    | with_reducible apply State.setTrans_keeps
    | with_reducible apply State.complete_keeps
    | split)

theorem State.noHolds_keeps {P : Nat} {r₀ : State} {s : State} (hP : 256 ||| P = P) (hs : Keeps P r₀ s) :
    Keeps P r₀ (State.noHolds s) := by
  unfold State.noHolds
  try dsimp only
  repeat' (first
    | with_reducible assumption
    | intro _
    | with_reducible apply State.modPwr_keeps)

theorem State.enterS1_keeps {P : Nat} {r₀ : State} {s : State} (hP : 3603431 ||| P = P) (hs : Keeps P r₀ s) :
    Keeps P r₀ (State.enterS1 s) := by
  unfold State.enterS1
  try dsimp only
  repeat' (first
    | with_reducible assumption
    | (refine mask_mono ?_ hP; rfl)
    | intro _
    | with_reducible apply State.leaveS0_keeps
    | with_reducible apply State.setPwr_keeps
    | with_reducible apply State.ratePorts_keeps
    | with_reducible apply State.noHolds_keeps
    | with_reducible apply State.wrB_keeps
    | with_reducible apply State.dcbRestart_keeps
    | with_reducible apply State.setTrans_keeps
    | with_reducible apply State.complete_keeps
    | with_reducible apply State.raise_keeps
    | split)

theorem State.backToS1_keeps {P : Nat} {r₀ : State} {s : State} (hP : 3162983 ||| P = P) (hs : Keeps P r₀ s) :
    Keeps P r₀ (State.backToS1 s) := by
  unfold State.backToS1
  try dsimp only
  repeat' (first
    | with_reducible assumption
    | (refine mask_mono ?_ hP; rfl)
    | intro _
    | with_reducible apply State.setPwr_keeps
    | with_reducible apply State.noHolds_keeps
    | with_reducible apply State.prefPower_keeps
    | with_reducible apply State.settlePorts_keeps
    | with_reducible apply State.ropePower_keeps
    | with_reducible apply State.dcbRestart_keeps
    | with_reducible apply State.wrB_keeps)

theorem State.enterS2_keeps {P : Nat} {r₀ : State} {s : State} (hP : 3603431 ||| P = P) (hs : Keeps P r₀ s) :
    Keeps P r₀ (State.enterS2 s) := by
  unfold State.enterS2
  try dsimp only
  repeat' (first
    | with_reducible assumption
    | (refine mask_mono ?_ hP; rfl)
    | intro _
    | with_reducible apply State.leaveS0_keeps
    | with_reducible apply State.setPwr_keeps
    | with_reducible apply State.noHolds_keeps
    | with_reducible apply State.modPwr_keeps
    | with_reducible apply State.settlePorts_keeps
    | with_reducible apply State.prefPower_keeps
    | with_reducible apply State.ropePower_keeps
    | with_reducible apply State.releaseLines_keeps
    | with_reducible apply State.dcbRestart_keeps
    | with_reducible apply keeps_ite)

theorem State.enterS0_keeps {P : Nat} {r₀ : State} {s : State} (hP : 3173223 ||| P = P) (hs : Keeps P r₀ s) :
    Keeps P r₀ (State.enterS0 s) := by
  unfold State.enterS0
  try dsimp only
  repeat' (first
    | with_reducible assumption
    | (refine mask_mono ?_ hP; rfl)
    | intro _
    | with_reducible apply State.setPwr_keeps
    | with_reducible apply State.noHolds_keeps
    | with_reducible apply State.prefPower_keeps
    | with_reducible apply State.modSyn_keeps
    | with_reducible apply State.ratePorts_keeps
    | with_reducible apply State.settlePorts_keeps
    | with_reducible apply State.ropePower_keeps
    | with_reducible apply State.resyncLine_keeps
    | with_reducible apply State.frzRestart_keeps
    | with_reducible apply State.dcbRestart_keeps
    | with_reducible apply State.wrB_keeps
    | with_reducible apply State.rereadDoorbells_keeps
    | with_reducible apply keeps_ite)

theorem State.clearHbm_keeps {P : Nat} {r₀ : State} {s : State} (hP : 132 ||| P = P) (hs : Keeps P r₀ s) :
    Keeps P r₀ (State.clearHbm s) := by
  unfold State.clearHbm
  try dsimp only
  repeat' (first
    | with_reducible assumption
    | (refine mask_mono ?_ hP; rfl)
    | (intro (_ : State); try dsimp only)
    | (intro _ (_ : Keeps _ _ _); try dsimp only)
    | with_reducible apply State.modMem_keeps
    | with_reducible apply State.wrB_keeps
    | with_reducible apply State.wr_keeps
    | (intro (_ : Memory.wf _ = true); try dsimp only)
    | with_reducible apply MemSt.storeSector_wf
    | exact Memory.wf_of rfl rfl (by assumption)
    | exact rfl)

theorem State.idleOutputs_keeps {P : Nat} {r₀ : State} {s : State} (hP : 21 ||| P = P) (hs : Keeps P r₀ s) :
    Keeps P r₀ (State.idleOutputs s) := by
  unfold State.idleOutputs
  try dsimp only
  repeat' (first
    | with_reducible assumption
    | (refine mask_mono ?_ hP; rfl)
    | (intro _; try dsimp only)
    | with_reducible apply State.setArmed_keeps
    | with_reducible apply State.modTev_keeps
    | with_reducible apply State.idleTev_keeps
    | with_reducible apply State.idleFstrobe_keeps
    | with_reducible apply keeps_foldl
    | with_reducible apply Keeps.set_tim)

theorem State.dropOutputs_keeps {P : Nat} {r₀ : State} {s : State} (hP : 17 ||| P = P) (hs : Keeps P r₀ s) :
    Keeps P r₀ (State.dropOutputs s) := by
  unfold State.dropOutputs
  try dsimp only
  repeat' (first
    | with_reducible assumption
    | (intro _; try dsimp only)
    | with_reducible apply State.drive_keeps
    | with_reducible apply keeps_foldl)

theorem State.timeDown_keeps {P : Nat} {r₀ : State} {s : State} (hP : 25207 ||| P = P) (hs : Keeps P r₀ s) :
    Keeps P r₀ (State.timeDown s) := by
  unfold State.timeDown
  try dsimp only
  repeat' (first
    | with_reducible assumption
    | (refine mask_mono ?_ hP; rfl)
    | intro _
    | with_reducible apply State.scnStop_keeps
    | with_reducible apply State.applyCal_keeps
    | with_reducible apply State.idleOutputs_keeps
    | with_reducible apply State.modTim_keeps
    | with_reducible apply State.wrB_keeps
    | with_reducible apply State.settleRef_keeps
    | with_reducible apply State.settleRole_keeps)

theorem State.enterS3_keeps {P : Nat} {r₀ : State} {s : State} (hP : 3171191 ||| P = P) (hs : Keeps P r₀ s) :
    Keeps P r₀ (State.enterS3 s) := by
  unfold State.enterS3
  try dsimp only
  repeat' (first
    | with_reducible assumption
    | (refine mask_mono ?_ hP; rfl)
    | exact fun h => h
    | exact fun h => (List.length_map ..).trans h
    | exact fun _ h => h
    | exact fun _ h => (List.length_map ..).trans h
    | intro _
    | with_reducible apply State.startLeave_keeps
    | with_reducible apply State.holdDown_keeps
    | with_reducible apply State.timeDown_keeps
    | with_reducible apply State.wrB_keeps
    | with_reducible apply State.releaseLines_keeps
    | with_reducible apply State.modPwr_keeps
    | with_reducible apply Keeps.set_lanes)

theorem State.leaveS3_keeps {P : Nat} {r₀ : State} {s : State} (hP : 3206135 ||| P = P) (hs : Keeps P r₀ s) :
    Keeps P r₀ (State.leaveS3 s) := by
  unfold State.leaveS3
  try dsimp only
  repeat' (first
    | with_reducible assumption
    | (refine mask_mono ?_ hP; rfl)
    | intro _
    | with_reducible apply State.clearHbm_keeps
    | with_reducible apply State.decRestart_keeps
    | with_reducible apply State.enterS0_keeps
    | with_reducible apply State.wrB_keeps
    | with_reducible apply State.releaseRope_keeps
    | with_reducible apply State.deliverHeld_keeps)

theorem State.powerDown_keeps {P : Nat} {r₀ s : State} {st : PwrState} (hP : 4193277 ||| P = P) (hs : Keeps P r₀ s) :
    Keeps P r₀ (s.powerDown st) := by
  have h := State.dropPref_keeps (mask_mono rfl hP) (State.dropOutputs_keeps (mask_mono rfl hP) hs)
  unfold State.powerDown
  generalize s.dropOutputs.dropPref = t at h ⊢
  dsimp only
  exact {
    pending := h.pending
    airCooled := h.airCooled
    canonical := fun hr => by
      have := h.canonical hr
      simp only [State.canonical, Stores.wf, Bool.and_eq_true] at this
      simp only [State.canonical, Stores.wf, this, Bool.and_true]
      rfl
    shape := fun _ => rfl
    same := fun p hp => by
      cases p
      case free => exact h.same .free hp
      case flash => exact h.same .flash hp
      all_goals
        refine absurd (mask_bit hP ?_) (Bool.eq_false_iff.1 hp)
        rfl }

theorem State.setPower_keeps {P : Nat} {r₀ : State} {s : State} {ring : Nat} {idx : Nat} {target : Nat} (hP : 3603431 ||| P = P) (hs : Keeps P r₀ s) :
    Keeps P r₀ (State.setPower s ring idx target) := by
  unfold State.setPower
  try dsimp only
  repeat' (first
    | with_reducible assumption
    | (refine mask_mono ?_ hP; rfl)
    | intro _
    | with_reducible apply State.complete_keeps
    | with_reducible apply State.modPwr_keeps
    | with_reducible apply State.setTrans_keeps
    | with_reducible apply State.enterS0_keeps
    | with_reducible apply State.backToS1_keeps
    | with_reducible apply State.enterS2_keeps
    | with_reducible apply keeps_ite)

theorem State.opSetPower_keeps {P : Nat} {r₀ : State} {s : State} {ring : Nat} {target : Nat} (hP : 3603431 ||| P = P) (hs : Keeps P r₀ s) :
    Keeps P r₀ (State.opSetPower s ring target) := by
  unfold State.opSetPower
  try dsimp only
  repeat' (first
    | with_reducible assumption
    | (refine mask_mono ?_ hP; rfl)
    | (intro _; try dsimp only)
    | with_reducible apply State.withOp_keeps
    | with_reducible apply State.setPower_keeps
    | with_reducible apply keeps_ite
    | split)

theorem State.decisionPoint_keeps {P : Nat} {r₀ : State} {s : State} (hP : 3603455 ||| P = P) (hs : Keeps P r₀ s) :
    Keeps P r₀ (State.decisionPoint s) := by
  unfold State.decisionPoint
  try dsimp only
  repeat' (first
    | with_reducible assumption
    | (refine mask_mono ?_ hP; rfl)
    | intro _
    | with_reducible apply State.guardPoint_keeps
    | with_reducible apply State.holdEvents_keeps
    | with_reducible apply State.pictureChecks_keeps
    | with_reducible apply State.latchLine_keeps
    | with_reducible apply State.enterS1_keeps
    | with_reducible apply State.releaseEvents_keeps
    | with_reducible apply State.modPwr_keeps
    | with_reducible apply keeps_ite
    | split)

theorem State.sendHeld_keeps {P : Nat} {r₀ : State} {s : State} {y : Nat} (hP : 1065703 ||| P = P) (hs : Keeps P r₀ s) :
    Keeps P r₀ (State.sendHeld s y) := by
  unfold State.sendHeld
  try dsimp only
  repeat' (first
    | with_reducible assumption
    | (refine mask_mono ?_ hP; rfl)
    | (intro _; try dsimp only)
    | with_reducible apply State.readHold_keeps
    | with_reducible apply State.dcbLine_keeps
    | with_reducible apply State.sendLine_keeps
    | with_reducible apply keeps_foldl
    | with_reducible apply keeps_ite)

theorem State.heldBlank_keeps {P : Nat} {r₀ : State} {s : State} {line : Nat} {frame : Nat} (hP : 1064965 ||| P = P) (hs : Keeps P r₀ s) :
    Keeps P r₀ (State.heldBlank s line frame) := by
  unfold State.heldBlank
  try dsimp only
  repeat' (first
    | with_reducible assumption
    | (refine mask_mono ?_ hP; rfl)
    | (intro _; try dsimp only)
    | with_reducible apply State.sendLine_keeps
    | with_reducible apply State.drainTrain_keeps
    | with_reducible apply keeps_foldl)

theorem State.holdNext_keeps {P : Nat} {r₀ : State} {s : State} {i : Nat} (hP : 1065959 ||| P = P) (hs : Keeps P r₀ s) :
    Keeps P r₀ (State.holdNext s i) := by
  unfold State.holdNext
  try dsimp only
  repeat' (first
    | with_reducible assumption
    | (refine mask_mono ?_ hP; rfl)
    | intro _
    | with_reducible apply State.modPwr_keeps
    | with_reducible apply State.sendHeld_keeps
    | with_reducible apply State.heldBlank_keeps
    | with_reducible apply keeps_ite)

theorem State.holdRefresh_keeps {P : Nat} {r₀ : State} {s : State} {j : Nat} (hP : 1065975 ||| P = P) (hs : Keeps P r₀ s) :
    Keeps P r₀ (State.holdRefresh s j) := by
  unfold State.holdRefresh
  try dsimp only
  repeat' (first
    | with_reducible assumption
    | (refine mask_mono ?_ hP; rfl)
    | exact fun h => h
    | exact fun h => (List.length_map ..).trans h
    | exact fun _ h => h
    | exact fun _ h => (List.length_map ..).trans h
    | intro _
    | with_reducible apply State.applyCal_keeps
    | with_reducible apply State.activatePorts_keeps
    | with_reducible apply State.takeScanCfg_keeps
    | with_reducible apply State.takeBlink_keeps
    | with_reducible apply State.modPnl_keeps
    | with_reducible apply State.togglePhi_keeps
    | with_reducible apply State.dcbFrame_keeps
    | with_reducible apply State.fstrobe_keeps
    | with_reducible apply State.modPwr_keeps
    | with_reducible apply State.holdNext_keeps
    | with_reducible apply keeps_ite)

theorem State.holdLine_keeps {P : Nat} {r₀ : State} {s : State} (hP : 1065959 ||| P = P) (hs : Keeps P r₀ s) :
    Keeps P r₀ (State.holdLine s) := by
  unfold State.holdLine
  try dsimp only
  repeat' (first
    | with_reducible assumption
    | (refine mask_mono ?_ hP; rfl)
    | intro _
    | with_reducible apply State.activatePorts_keeps
    | with_reducible apply State.holdNext_keeps
    | with_reducible apply State.heldBlank_keeps
    | with_reducible apply State.drainTrain_keeps
    | with_reducible apply keeps_ite
    | split)

theorem State.shed_keeps {P : Nat} {r₀ : State} {s : State} {cause : Nat} (hP : 3603447 ||| P = P) (hs : Keeps P r₀ s) :
    Keeps P r₀ (State.shed s cause) := by
  unfold State.shed
  try dsimp only
  repeat' (first
    | with_reducible assumption
    | (refine mask_mono ?_ hP; rfl)
    | intro _
    | with_reducible apply State.modPwr_keeps
    | with_reducible apply State.bump_keeps
    | with_reducible apply State.wrB_keeps
    | with_reducible apply State.wr_keeps
    | with_reducible apply State.raise_keeps
    | with_reducible apply State.bumpLifetime_keeps
    | with_reducible apply State.alarm_keeps
    | with_reducible apply State.cairn_keeps
    | with_reducible apply State.dropCapture_keeps
    | with_reducible apply State.abortClasses_keeps
    | with_reducible apply State.setTrans_keeps
    | with_reducible apply State.enterS2_keeps
    | with_reducible apply keeps_ite)

theorem State.warn_keeps {P : Nat} {r₀ : State} {s : State} {own : Bool} (hP : 3603447 ||| P = P) (hs : Keeps P r₀ s) :
    Keeps P r₀ (State.warn s own) := by
  unfold State.warn
  try dsimp only
  repeat' (first
    | with_reducible assumption
    | (refine mask_mono ?_ hP; rfl)
    | intro _
    | with_reducible apply State.modPwr_keeps
    | with_reducible apply State.wrB_keeps
    | with_reducible apply State.shed_keeps
    | with_reducible apply keeps_ite)

theorem State.warnEnd_keeps {P : Nat} {r₀ : State} {s : State} (hP : 871 ||| P = P) (hs : Keeps P r₀ s) :
    Keeps P r₀ (State.warnEnd s) := by
  unfold State.warnEnd
  try dsimp only
  repeat' (first
    | with_reducible assumption
    | (refine mask_mono ?_ hP; rfl)
    | intro _
    | with_reducible apply State.modPwr_keeps
    | with_reducible apply State.raise_keeps
    | with_reducible apply State.setTrans_keeps
    | with_reducible apply State.wrB_keeps
    | with_reducible apply keeps_ite)

theorem State.goD3_keeps {P : Nat} {r₀ : State} {s : State} (hP : 3603431 ||| P = P) (hs : Keeps P r₀ s) :
    Keeps P r₀ (State.goD3 s) := by
  unfold State.goD3
  try dsimp only
  repeat' (first
    | with_reducible assumption
    | (refine mask_mono ?_ hP; rfl)
    | intro _
    | with_reducible apply State.dropCapture_keeps
    | with_reducible apply State.modPwr_keeps
    | with_reducible apply State.enterS2_keeps
    | with_reducible apply State.setTrans_keeps
    | with_reducible apply keeps_ite)

theorem State.startReturn_keeps {P : Nat} {r₀ : State} {s : State} (hP : 260 ||| P = P) (hs : Keeps P r₀ s) :
    Keeps P r₀ (State.startReturn s) := by
  unfold State.startReturn
  try dsimp only
  repeat' (first
    | with_reducible assumption
    | (refine mask_mono ?_ hP; rfl)
    | intro _
    | with_reducible apply State.wrB_keeps
    | with_reducible apply State.setTrans_keeps)

theorem State.goPmcsr_keeps {P : Nat} {r₀ : State} {s : State} {d3 : Bool} (hP : 3603431 ||| P = P) (hs : Keeps P r₀ s) :
    Keeps P r₀ (State.goPmcsr s d3) := by
  unfold State.goPmcsr
  try dsimp only
  repeat' (first
    | with_reducible assumption
    | (refine mask_mono ?_ hP; rfl)
    | intro _
    | with_reducible apply State.modPwr_keeps
    | with_reducible apply State.startReturn_keeps
    | with_reducible apply State.goD3_keeps
    | with_reducible apply keeps_ite)

theorem State.endS3_keeps {P : Nat} {r₀ : State} {s : State} (hP : 3171191 ||| P = P) (hs : Keeps P r₀ s) :
    Keeps P r₀ (State.endS3 s) := by
  unfold State.endS3
  try dsimp only
  repeat' (first
    | with_reducible assumption
    | (refine mask_mono ?_ hP; rfl)
    | intro _
    | with_reducible apply State.enterS3_keeps
    | with_reducible apply State.raise_keeps
    | with_reducible apply State.startReturn_keeps
    | with_reducible apply keeps_ite)

theorem State.endReturn_keeps {P : Nat} {r₀ : State} {s : State} (hP : 3603447 ||| P = P) (hs : Keeps P r₀ s) :
    Keeps P r₀ (State.endReturn s) := by
  unfold State.endReturn
  try dsimp only
  repeat' (first
    | with_reducible assumption
    | (refine mask_mono ?_ hP; rfl)
    | intro _
    | with_reducible apply State.leaveS3_keeps
    | with_reducible apply State.raise_keeps
    | with_reducible apply State.modPwr_keeps
    | with_reducible apply State.wrB_keeps
    | with_reducible apply State.enterS2_keeps
    | with_reducible apply State.setTrans_keeps
    | with_reducible apply State.goD3_keeps
    | with_reducible apply keeps_ite)

theorem State.transEnd_keeps {P : Nat} {r₀ : State} {s : State} {target : PwrState} (hP : 3603447 ||| P = P) (hs : Keeps P r₀ s) :
    Keeps P r₀ (State.transEnd s target) := by
  unfold State.transEnd
  try dsimp only
  repeat' (first
    | with_reducible assumption
    | (refine mask_mono ?_ hP; rfl)
    | intro _
    | with_reducible apply State.setTrans_keeps
    | with_reducible apply State.endReturn_keeps
    | with_reducible apply State.enterS0_keeps
    | with_reducible apply State.raise_keeps
    | with_reducible apply State.backToS1_keeps
    | with_reducible apply State.endS3_keeps
    | with_reducible apply keeps_ite
    | split)

end Sys2Proof.Machine
end

