-- ==== Sys2Proof/Laws/Thm.lean ====
section
/-!
SUPPORT. What each operation of Machine/Thm.lean leaves alone (see Laws/Keeps.lean).
-/
namespace Sys2Proof.Machine

theorem State.modThm_keeps {P : Nat} {r₀ : State} {s : State} {f : ThmSt → ThmSt} (hP : 65536 ||| P = P) (hs : Keeps P r₀ s) :
    Keeps P r₀ (State.modThm s f) := by
  unfold State.modThm
  try dsimp only
  repeat' (first
    | with_reducible assumption
    | intro _
    | with_reducible apply hf
    | with_reducible apply Keeps.set_thm)

theorem State.modSensor_keeps {P : Nat} {r₀ : State} {s : State} {n : Nat} {f : Sensor → Sensor} (hP : 65536 ||| P = P) (hs : Keeps P r₀ s) :
    Keeps P r₀ (State.modSensor s n f) := by
  unfold State.modSensor
  try dsimp only
  repeat' (first
    | with_reducible assumption
    | intro _
    | with_reducible apply State.modThm_keeps)

theorem State.showSensor_keeps {P : Nat} {r₀ : State} {s : State} {n : Nat} (hP : 4 ||| P = P) (hs : Keeps P r₀ s) :
    Keeps P r₀ (State.showSensor s n) := by
  unfold State.showSensor
  try dsimp only
  repeat' (first
    | with_reducible assumption
    | intro _
    | with_reducible apply State.wrB_keeps
    | with_reducible apply State.wr_keeps)

theorem State.readSensor_keeps {P : Nat} {r₀ : State} {s : State} {n : Nat} {a : Option Int} (hP : 66151 ||| P = P) (hs : Keeps P r₀ s) :
    Keeps P r₀ (State.readSensor s n a) := by
  unfold State.readSensor
  try dsimp only
  repeat' (first
    | with_reducible assumption
    | (refine mask_mono ?_ hP; rfl)
    | intro _
    | with_reducible apply State.modSensor_keeps
    | with_reducible apply State.showSensor_keeps
    | with_reducible apply State.wr_keeps
    | with_reducible apply State.raise_keeps
    | with_reducible apply keeps_ite
    | split)

theorem State.crossCheck_keeps {P : Nat} {r₀ : State} {s : State} (hP : 65536 ||| P = P) (hs : Keeps P r₀ s) :
    Keeps P r₀ (State.crossCheck s) := by
  unfold State.crossCheck
  try dsimp only
  repeat' (first
    | with_reducible assumption
    | intro _
    | with_reducible apply State.modThm_keeps)

theorem State.settleLimit_keeps {P : Nat} {r₀ : State} {s : State} (hP : 4 ||| P = P) (hs : Keeps P r₀ s) :
    Keeps P r₀ (State.settleLimit s) := by
  unfold State.settleLimit
  try dsimp only
  repeat' (first
    | with_reducible assumption
    | intro _
    | with_reducible apply State.wrB_keeps)

theorem State.mark_keeps {P : Nat} {r₀ : State} {s : State} {n : Nat} (hP : 66151 ||| P = P) (hs : Keeps P r₀ s) :
    Keeps P r₀ (State.mark s n) := by
  unfold State.mark
  try dsimp only
  repeat' (first
    | with_reducible assumption
    | (refine mask_mono ?_ hP; rfl)
    | intro _
    | with_reducible apply State.modSensor_keeps
    | with_reducible apply State.modThm_keeps
    | with_reducible apply State.showSensor_keeps
    | with_reducible apply State.bump_keeps
    | with_reducible apply State.raise_keeps)

theorem State.tell_keeps {P : Nat} {r₀ : State} {s : State} {n : Nat} (hP : 66151 ||| P = P) (hs : Keeps P r₀ s) :
    Keeps P r₀ (State.tell s n) := by
  unfold State.tell
  try dsimp only
  repeat' (first
    | with_reducible assumption
    | (refine mask_mono ?_ hP; rfl)
    | intro _
    | with_reducible apply State.modSensor_keeps
    | with_reducible apply State.wrB_keeps
    | with_reducible apply State.raise_keeps
    | with_reducible apply keeps_ite)

theorem State.showMean_keeps {P : Nat} {r₀ : State} {s : State} {g : Nat} (hP : 6 ||| P = P) (hs : Keeps P r₀ s) :
    Keeps P r₀ (State.showMean s g) := by
  unfold State.showMean
  try dsimp only
  repeat' (first
    | with_reducible assumption
    | (refine mask_mono ?_ hP; rfl)
    | intro _
    | with_reducible apply State.wr_keeps
    | with_reducible apply State.drawn_keeps)

theorem State.settleTj_keeps {P : Nat} {r₀ : State} {s : State} (hP : 6 ||| P = P) (hs : Keeps P r₀ s) :
    Keeps P r₀ (State.settleTj s) := by
  unfold State.settleTj
  try dsimp only
  repeat' (first
    | with_reducible assumption
    | (refine mask_mono ?_ hP; rfl)
    | (intro _; try dsimp only)
    | with_reducible apply State.showMean_keeps
    | with_reducible apply State.wr_keeps
    | with_reducible apply keeps_foldl
    | with_reducible apply keeps_ite
    | split)

theorem State.maxTj_keeps {P : Nat} {r₀ : State} {s : State} (hP : 512 ||| P = P) (hs : Keeps P r₀ s) :
    Keeps P r₀ (State.maxTj s) := by
  unfold State.maxTj
  try dsimp only
  repeat' (first
    | with_reducible assumption
    | intro _
    | with_reducible apply State.setLifetime_keeps
    | with_reducible apply keeps_ite)

theorem State.critical_keeps {P : Nat} {r₀ : State} {s : State} (hP : 3146359 ||| P = P) (hs : Keeps P r₀ s) :
    Keeps P r₀ (State.critical s) := by
  unfold State.critical
  try dsimp only
  repeat' (first
    | with_reducible assumption
    | (refine mask_mono ?_ hP; rfl)
    | intro _
    | with_reducible apply State.wrB_keeps
    | with_reducible apply State.bump_keeps
    | with_reducible apply State.raise_keeps
    | with_reducible apply State.alarm_keeps
    | with_reducible apply keeps_ite)

theorem State.junction_keeps {P : Nat} {r₀ : State} {s : State} (hP : 3146359 ||| P = P) (hs : Keeps P r₀ s) :
    Keeps P r₀ (State.junction s) := by
  unfold State.junction
  try dsimp only
  repeat' (first
    | with_reducible assumption
    | (refine mask_mono ?_ hP; rfl)
    | intro _
    | with_reducible apply State.settleLimit_keeps
    | with_reducible apply State.settleTj_keeps
    | with_reducible apply State.maxTj_keeps
    | with_reducible apply State.critical_keeps)

theorem State.sendBlank_keeps {P : Nat} {r₀ : State} {s : State} (hP : 1065959 ||| P = P) (hs : Keeps P r₀ s) :
    Keeps P r₀ (State.sendBlank s) := by
  unfold State.sendBlank
  try dsimp only
  repeat' (first
    | with_reducible assumption
    | (refine mask_mono ?_ hP; rfl)
    | (intro _; try dsimp only)
    | with_reducible apply State.holdLine_keeps
    | with_reducible apply State.sendLine_keeps
    | with_reducible apply State.drawn_keeps
    | with_reducible apply keeps_foldl
    | with_reducible apply keeps_ite
    | split)

theorem State.shutdown_keeps {P : Nat} {r₀ : State} {s : State} {cause : Nat} {detail : Nat} (hP : 4193279 ||| P = P) (hs : Keeps P r₀ s) :
    Keeps P r₀ (State.shutdown s cause detail) := by
  unfold State.shutdown
  try dsimp only
  repeat' (first
    | with_reducible assumption
    | (refine mask_mono ?_ hP; rfl)
    | intro _
    | with_reducible apply State.sendBlank_keeps
    | with_reducible apply State.alarm_keeps
    | with_reducible apply State.cairn_keeps
    | with_reducible apply State.bumpLifetime_keeps
    | with_reducible apply State.powerDown_keeps
    | with_reducible apply keeps_ite)

theorem State.hotCount_keeps {P : Nat} {r₀ : State} {s : State} {readings : List (Option Int)} (hP : 65536 ||| P = P) (hs : Keeps P r₀ s) :
    Keeps P r₀ (State.hotCount s readings).1 := by
  unfold State.hotCount
  try dsimp only
  repeat' (first
    | with_reducible assumption
    | (intro _; try dsimp only)
    | with_reducible apply State.modSensor_keeps
    | with_reducible apply keeps_foldl
    | with_reducible apply keeps_ite
    | split)

theorem State.hotCount_of {P : Nat} {r₀ t : State} {b₀ : Option Nat} {s : State} {readings : List (Option Int)} (he : State.hotCount s readings = (t, b₀)) (hP : 65536 ||| P = P)
    (hs : Keeps P r₀ s) : Keeps P r₀ t := by
  have := State.hotCount_keeps (s := s) (readings := readings) hP hs
  rwa [he] at this

theorem State.sensorRead_keeps {P : Nat} {r₀ : State} {s : State} {readings : List (Option Int)} (hP : 3211895 ||| P = P) (hs : Keeps P r₀ s) :
    Keeps P r₀ (State.sensorRead s readings) := by
  unfold State.sensorRead
  try dsimp only
  repeat' (first
    | with_reducible assumption
    | (refine mask_mono ?_ hP; rfl)
    | (intro _; try dsimp only)
    | with_reducible apply State.readSensor_keeps
    | with_reducible apply State.crossCheck_keeps
    | with_reducible apply State.junction_keeps
    | with_reducible apply State.bump_keeps
    | with_reducible apply keeps_foldl
    | with_reducible apply keeps_ite)

theorem State.readmit_keeps {P : Nat} {r₀ : State} {s : State} {n : Nat} (hP : 3211895 ||| P = P) (hs : Keeps P r₀ s) :
    Keeps P r₀ (State.readmit s n) := by
  unfold State.readmit
  try dsimp only
  repeat' (first
    | with_reducible assumption
    | (refine mask_mono ?_ hP; rfl)
    | intro _
    | with_reducible apply State.modSensor_keeps
    | with_reducible apply State.showSensor_keeps
    | with_reducible apply State.junction_keeps
    | with_reducible apply keeps_ite)

theorem State.suspectStep_keeps {P : Nat} {r₀ : State} {s : State} (hP : 3211895 ||| P = P) (hs : Keeps P r₀ s) :
    Keeps P r₀ (State.suspectStep s) := by
  unfold State.suspectStep
  try dsimp only
  repeat' (first
    | with_reducible assumption
    | (refine mask_mono ?_ hP; rfl)
    | (intro _; try dsimp only)
    | with_reducible apply State.tell_keeps
    | with_reducible apply State.mark_keeps
    | with_reducible apply State.junction_keeps
    | with_reducible apply keeps_foldl
    | with_reducible apply keeps_ite
    | split)

theorem State.suspectClear_keeps {P : Nat} {r₀ : State} {s : State} {n : Nat} (hP : 3211895 ||| P = P) (hs : Keeps P r₀ s) :
    Keeps P r₀ (State.suspectClear s n) := by
  unfold State.suspectClear
  try dsimp only
  repeat' (first
    | with_reducible assumption
    | (refine mask_mono ?_ hP; rfl)
    | intro _
    | with_reducible apply State.modSensor_keeps
    | with_reducible apply State.showSensor_keeps
    | with_reducible apply State.junction_keeps
    | with_reducible apply State.raise_keeps
    | with_reducible apply keeps_ite)

end Sys2Proof.Machine
end

