-- ==== Sys2Proof/Laws/Cal.lean ====
section
/-!
SUPPORT. What each operation of Machine/Cal.lean leaves alone (see Laws/Keeps.lean).
-/
namespace Sys2Proof.Machine

theorem State.modCal_keeps {P : Nat} {r₀ : State} {s : State} {f : CalSt → CalSt} (hP : 524288 ||| P = P) (hs : Keeps P r₀ s) :
    Keeps P r₀ (State.modCal s f) := by
  unfold State.modCal
  try dsimp only
  repeat' (first
    | with_reducible assumption
    | intro _
    | with_reducible apply hf
    | with_reducible apply Keeps.set_cal)

theorem State.setStaged_keeps {P : Nat} {r₀ : State} {s : State} {ws : List Word} (hP : 4 ||| P = P) (hs : Keeps P r₀ s) :
    Keeps P r₀ (State.setStaged s ws) := by
  unfold State.setStaged
  try dsimp only
  repeat' (first
    | with_reducible assumption
    | (intro _; try dsimp only)
    | with_reducible apply State.setWord_keeps
    | with_reducible apply keeps_foldl)

theorem State.stageSet_keeps {P : Nat} {r₀ : State} {s : State} {source : Nat} (hP : 541287 ||| P = P) (hs : Keeps P r₀ s) :
    Keeps P r₀ (State.stageSet s source) := by
  unfold State.stageSet
  try dsimp only
  repeat' (first
    | with_reducible assumption
    | (refine mask_mono ?_ hP; rfl)
    | intro _
    | with_reducible apply State.modCal_keeps
    | with_reducible apply State.wrB_keeps
    | with_reducible apply State.applyCal_keeps
    | with_reducible apply keeps_ite)

theorem State.calStart_keeps {P : Nat} {r₀ : State} {s : State} (hP : 524292 ||| P = P) (hs : Keeps P r₀ s) :
    Keeps P r₀ (State.calStart s) := by
  unfold State.calStart
  try dsimp only
  repeat' (first
    | with_reducible assumption
    | (refine mask_mono ?_ hP; rfl)
    | intro _
    | with_reducible apply State.modCal_keeps
    | with_reducible apply State.wrB_keeps
    | with_reducible apply State.bump_keeps)

theorem State.calRequest_keeps {P : Nat} {r₀ : State} {s : State} {host : Bool} (hP : 524292 ||| P = P) (hs : Keeps P r₀ s) :
    Keeps P r₀ (State.calRequest s host) := by
  unfold State.calRequest
  try dsimp only
  repeat' (first
    | with_reducible assumption
    | (refine mask_mono ?_ hP; rfl)
    | intro _
    | with_reducible apply State.calStart_keeps
    | with_reducible apply State.modCal_keeps
    | with_reducible apply State.wrB_keeps
    | with_reducible apply keeps_ite)

theorem State.calFail_keeps {P : Nat} {r₀ : State} {s : State} (hP : 524903 ||| P = P) (hs : Keeps P r₀ s) :
    Keeps P r₀ (State.calFail s) := by
  unfold State.calFail
  try dsimp only
  repeat' (first
    | with_reducible assumption
    | (refine mask_mono ?_ hP; rfl)
    | intro _
    | with_reducible apply State.wr_keeps
    | with_reducible apply State.bump_keeps
    | with_reducible apply State.modCal_keeps
    | with_reducible apply State.raise_keeps)

theorem State.setBase_keeps {P : Nat} {r₀ : State} {s : State} (hP : 4 ||| P = P) (hs : Keeps P r₀ s) :
    Keeps P r₀ (State.setBase s) := by
  unfold State.setBase
  try dsimp only
  repeat' (first
    | with_reducible assumption
    | (intro _; try dsimp only)
    | with_reducible apply State.wr_keeps
    | with_reducible apply keeps_foldl)

theorem State.calEnd_keeps {P : Nat} {r₀ : State} {s : State} {refOk : Bool} {pref : List Word} {adc : List Word} {lat : Nat} (hP : 541287 ||| P = P) (hs : Keeps P r₀ s) :
    Keeps P r₀ (State.calEnd s refOk pref adc lat) := by
  unfold State.calEnd
  try dsimp only
  repeat' (first
    | with_reducible assumption
    | (refine mask_mono ?_ hP; rfl)
    | intro _
    | with_reducible apply State.wrB_keeps
    | with_reducible apply State.raise_keeps
    | with_reducible apply State.setBase_keeps
    | with_reducible apply State.setStaged_keeps
    | with_reducible apply State.wr_keeps
    | with_reducible apply State.stageSet_keeps
    | with_reducible apply State.calFail_keeps
    | with_reducible apply keeps_ite)

theorem State.stage_keeps {P : Nat} {r₀ : State} {s : State} (hP : 541287 ||| P = P) (hs : Keeps P r₀ s) :
    Keeps P r₀ (State.stage s) := by
  unfold State.stage
  try dsimp only
  repeat' (first
    | with_reducible assumption
    | (refine mask_mono ?_ hP; rfl)
    | intro _
    | with_reducible apply State.stageSet_keeps
    | with_reducible apply State.wrB_keeps
    | with_reducible apply keeps_ite)

end Sys2Proof.Machine
end

