-- ==== Sys2Proof/Laws/Reset.lean ====
section
/-!
SUPPORT. What each operation of Machine/Reset.lean leaves alone (see Laws/Keeps.lean).
-/
namespace Sys2Proof.Machine

theorem State.dropDescs_keeps {P : Nat} {r₀ : State} {s : State} {r : Ring} (hP : 2536423 ||| P = P) (hs : Keeps P r₀ s) :
    Keeps P r₀ (State.dropDescs s r) := by
  unfold State.dropDescs
  try dsimp only
  repeat' (first
    | with_reducible assumption
    | (intro _; try dsimp only)
    | with_reducible apply State.abortEffect_keeps
    | with_reducible apply keeps_foldl
    | with_reducible apply keeps_ite)

theorem State.dropRings_keeps {P : Nat} {r₀ : State} {s : State} (hP : 2536423 ||| P = P) (hs : Keeps P r₀ s) :
    Keeps P r₀ (State.dropRings s) := by
  unfold State.dropRings
  try dsimp only
  repeat' (first
    | with_reducible assumption
    | (refine mask_mono ?_ hP; rfl)
    | (intro _; try dsimp only)
    | with_reducible apply State.dropDescs_keeps
    | with_reducible apply State.wrB_keeps
    | with_reducible apply State.wr_keeps
    | with_reducible apply keeps_foldl
    | with_reducible apply keeps_ite)

theorem State.clearRings_keeps {P : Nat} {r₀ : State} {s : State} (hP : 2359376 ||| P = P) (hs : Keeps P r₀ s) :
    Keeps P r₀ (State.clearRings s) := by
  unfold State.clearRings
  try dsimp only
  repeat' (first
    | with_reducible assumption
    | (intro (_ : State); try dsimp only)
    | (intro _ (_ : Keeps _ _ _); try dsimp only)
    | exact fun hm => hm
    | split
    | with_reducible apply Keeps.set_tim_hif_enc_rope)

theorem State.clearRegs_keeps {P : Nat} {r₀ s : State} {lo hi : Nat} (hP : 4 ||| P = P) (hs : Keeps P r₀ s) :
    Keeps P r₀ (s.clearRegs lo hi) :=
  hs.set_regs hP (cellClear_wf lo hi)

theorem State.clearHifRegs_keeps {P : Nat} {r₀ : State} {s : State} (hP : 4 ||| P = P) (hs : Keeps P r₀ s) :
    Keeps P r₀ (State.clearHifRegs s) := by
  unfold State.clearHifRegs
  try dsimp only
  repeat' (first
    | with_reducible assumption
    | intro _
    | with_reducible apply State.wrB_keeps
    | with_reducible apply State.wr_keeps
    | with_reducible apply State.clearRegs_keeps)

theorem State.clearEvents_keeps {P : Nat} {r₀ : State} {s : State} (hP : 100 ||| P = P) (hs : Keeps P r₀ s) :
    Keeps P r₀ (State.clearEvents s) := by
  unfold State.clearEvents
  try dsimp only
  repeat' (first
    | with_reducible assumption
    | (refine mask_mono ?_ hP; rfl)
    | (intro (_ : State); try dsimp only)
    | (intro _ (_ : Keeps _ _ _); try dsimp only)
    | with_reducible apply State.clearRegs_keeps
    | with_reducible apply State.wrB_keeps
    | with_reducible apply State.wr_keeps
    | exact Tables.wf_noMsix
    | exact fun hm => hm
    | split
    | with_reducible apply Keeps.set_evt_hif)

theorem State.clearShow_keeps {P : Nat} {r₀ : State} {s : State} (hP : 14340 ||| P = P) (hs : Keeps P r₀ s) :
    Keeps P r₀ (State.clearShow s) := by
  unfold State.clearShow
  try dsimp only
  repeat' (first
    | with_reducible assumption
    | (refine mask_mono ?_ hP; rfl)
    | intro _
    | with_reducible apply State.commitBits_keeps
    | with_reducible apply State.wrB_keeps
    | with_reducible apply Keeps.set_syn_cmp_scn)

theorem State.functionClear_keeps {P : Nat} {r₀ : State} {s : State} (hP : 2538487 ||| P = P) (hs : Keeps P r₀ s) :
    Keeps P r₀ (State.functionClear s) := by
  unfold State.functionClear
  try dsimp only
  repeat' (first
    | with_reducible assumption
    | (refine mask_mono ?_ hP; rfl)
    | intro _
    | with_reducible apply State.wrB_keeps
    | with_reducible apply State.clearEvents_keeps
    | with_reducible apply State.dropRings_keeps
    | with_reducible apply State.decRestart_keeps
    | with_reducible apply State.clearRings_keeps
    | with_reducible apply State.clearHifRegs_keeps
    | with_reducible apply State.clearShow_keeps)

theorem State.functionReset_keeps {P : Nat} {r₀ : State} {s : State} (hP : 2538487 ||| P = P) (hs : Keeps P r₀ s) :
    Keeps P r₀ (State.functionReset s) := by
  unfold State.functionReset
  try dsimp only
  repeat' (first
    | with_reducible assumption
    | (refine mask_mono ?_ hP; rfl)
    | intro _
    | with_reducible apply State.functionClear_keeps
    | with_reducible apply State.wrB_keeps
    | with_reducible apply keeps_ite)

theorem State.hotReset_keeps {P : Nat} {r₀ : State} {s : State} (hP : 2538487 ||| P = P) (hs : Keeps P r₀ s) :
    Keeps P r₀ (State.hotReset s) := by
  unfold State.hotReset
  try dsimp only
  repeat' (first
    | with_reducible assumption
    | (refine mask_mono ?_ hP; rfl)
    | (intro (_ : State); try dsimp only)
    | (intro _ (_ : Keeps _ _ _); try dsimp only)
    | with_reducible apply State.functionClear_keeps
    | with_reducible apply State.wrB_keeps
    | exact Tables.wf_noCxl
    | exact fun hm => hm
    | split
    | with_reducible apply Keeps.set_hif)

theorem State.internalRing_keeps {P : Nat} {r₀ : State} {s : State} {r : Ring} (hP : 2536423 ||| P = P) (hs : Keeps P r₀ s) :
    Keeps P r₀ (State.internalRing s r) := by
  unfold State.internalRing
  try dsimp only
  repeat' (first
    | with_reducible assumption
    | (refine mask_mono ?_ hP; rfl)
    | (intro _; try dsimp only)
    | with_reducible apply State.abortEffect_keeps
    | with_reducible apply State.complete_keeps
    | with_reducible apply keeps_foldl)

theorem State.mgmtRestart_keeps {P : Nat} {r₀ : State} {s : State} (hP : 2536423 ||| P = P) (hs : Keeps P r₀ s) :
    Keeps P r₀ (State.mgmtRestart s) := by
  unfold State.mgmtRestart
  try dsimp only
  repeat' (first
    | with_reducible assumption
    | (refine mask_mono ?_ hP; rfl)
    | (intro (_ : State); try dsimp only)
    | (intro _ (_ : Keeps _ _ _); try dsimp only)
    | with_reducible apply State.internalRing_keeps
    | with_reducible apply State.wrB_keeps
    | with_reducible apply State.raise_keeps
    | with_reducible apply keeps_foldl
    | exact fun hm => hm
    | split
    | with_reducible apply Keeps.set_hif)

end Sys2Proof.Machine
end

