-- ==== Sys2Proof/Laws/RegRead.lean ====
section
/-!
SUPPORT. What each operation of Machine/RegRead.lean leaves alone (see Laws/Keeps.lean).
-/
namespace Sys2Proof.Machine

theorem State.readCapture_keeps {P : Nat} {r₀ : State} {s : State} {off : Nat} (hP : 65 ||| P = P) (hs : Keeps P r₀ s) :
    Keeps P r₀ (State.readCapture s off) := by
  unfold State.readCapture
  try dsimp only
  repeat' (first
    | with_reducible assumption
    | (refine mask_mono ?_ hP; rfl)
    | (intro (_ : State); try dsimp only)
    | (intro _ (_ : Keeps _ _ _); try dsimp only)
    | with_reducible apply State.emit_keeps
    | with_reducible apply keeps_ite
    | exact fun hm => hm
    | split
    | with_reducible apply Keeps.set_hif)

end Sys2Proof.Machine
end

