-- ==== Sys2Proof/Laws/RegWrite.lean ====
section
/-!
SUPPORT. What each operation of Machine/RegWrite.lean leaves alone (see Laws/Keeps.lean).
-/
namespace Sys2Proof.Machine

theorem State.storeFields_keeps {P : Nat} {r₀ : State} {s : State} {off : Nat} {val : Word} (hP : 4 ||| P = P) (hs : Keeps P r₀ s) :
    Keeps P r₀ (State.storeFields s off val) := by
  unfold State.storeFields
  try dsimp only
  repeat' (first
    | with_reducible assumption
    | intro _
    | with_reducible apply State.setWord_keeps
    | with_reducible apply keeps_foldl
    | split)

theorem State.onBit_keeps {P : Nat} {r₀ : State} {s : State} {val : Word} {i : Nat} {f : State → State} (hP : 0 ||| P = P) (hs : Keeps P r₀ s) (hf : ∀ s, Keeps P r₀ s → Keeps P r₀ (f s)) :
    Keeps P r₀ (State.onBit s val i f) := by
  unfold State.onBit
  try dsimp only
  repeat' (first
    | with_reducible assumption
    | intro _
    | with_reducible apply keeps_ite
    | split
    | with_reducible apply hf)

theorem State.writeHifCtrl_keeps {P : Nat} {r₀ : State} {s : State} {val : Word} (hP : 2538487 ||| P = P) (hs : Keeps P r₀ s) :
    Keeps P r₀ (State.writeHifCtrl s val) := by
  unfold State.writeHifCtrl
  try dsimp only
  repeat' (first
    | with_reducible assumption
    | (refine mask_mono ?_ hP; rfl)
    | intro _
    | with_reducible apply State.functionReset_keeps
    | with_reducible apply State.enableRing0_keeps
    | with_reducible apply State.releaseLines_keeps
    | with_reducible apply State.setFeaturesOk_keeps
    | with_reducible apply State.wrB_keeps
    | with_reducible apply keeps_ite)

theorem State.writeHif_keeps {P : Nat} {r₀ : State} {s : State} {off : Nat} {val : Word} (hP : 2538487 ||| P = P) (hs : Keeps P r₀ s) :
    Keeps P r₀ (State.writeHif s off val) := by
  unfold State.writeHif
  try dsimp only
  repeat' (first
    | with_reducible assumption
    | (refine mask_mono ?_ hP; rfl)
    | intro _
    | with_reducible apply State.writeHifCtrl_keeps
    | with_reducible apply State.startHifAbort_keeps
    | with_reducible apply State.storeFields_keeps
    | with_reducible apply State.writeDbSq_keeps
    | with_reducible apply State.writeDbCq_keeps
    | with_reducible apply keeps_ite)

theorem State.writeEvt_keeps {P : Nat} {r₀ : State} {s : State} {off : Nat} {val : Word} (hP : 615 ||| P = P) (hs : Keeps P r₀ s) :
    Keeps P r₀ (State.writeEvt s off val) := by
  unfold State.writeEvt
  try dsimp only
  repeat' (first
    | with_reducible assumption
    | (refine mask_mono ?_ hP; rfl)
    | (intro _; try dsimp only)
    | with_reducible apply State.writeEvtEnable_keeps
    | with_reducible apply State.storeFields_keeps
    | with_reducible apply State.onBit_keeps
    | with_reducible apply State.raise_keeps
    | with_reducible apply keeps_ite)

theorem State.writePwr_keeps {P : Nat} {r₀ : State} {s : State} {off : Nat} {val : Word} (hP : 3603447 ||| P = P) (hs : Keeps P r₀ s) :
    Keeps P r₀ (State.writePwr s off val) := by
  unfold State.writePwr
  try dsimp only
  repeat' (first
    | with_reducible assumption
    | (refine mask_mono ?_ hP; rfl)
    | (intro _; try dsimp only)
    | with_reducible apply State.storeFields_keeps
    | with_reducible apply State.onBit_keeps
    | with_reducible apply State.clearCounters_keeps
    | with_reducible apply State.warn_keeps
    | with_reducible apply keeps_ite)

theorem State.writeThm_keeps {P : Nat} {r₀ : State} {s : State} {off : Nat} {val : Word} (hP : 4 ||| P = P) (hs : Keeps P r₀ s) :
    Keeps P r₀ (State.writeThm s off val) := by
  unfold State.writeThm
  try dsimp only
  repeat' (first
    | with_reducible assumption
    | (refine mask_mono ?_ hP; rfl)
    | (intro _; try dsimp only)
    | with_reducible apply State.storeFields_keeps
    | with_reducible apply State.onBit_keeps
    | with_reducible apply State.clearCounters_keeps
    | with_reducible apply keeps_ite)

theorem State.writeCal_keeps {P : Nat} {r₀ : State} {s : State} {off : Nat} {val : Word} (hP : 541287 ||| P = P) (hs : Keeps P r₀ s) :
    Keeps P r₀ (State.writeCal s off val) := by
  unfold State.writeCal
  try dsimp only
  repeat' (first
    | with_reducible assumption
    | (refine mask_mono ?_ hP; rfl)
    | (intro _; try dsimp only)
    | with_reducible apply State.storeFields_keeps
    | with_reducible apply State.onBit_keeps
    | with_reducible apply State.calRequest_keeps
    | with_reducible apply State.stage_keeps
    | with_reducible apply State.clearCounters_keeps
    | with_reducible apply State.wrB_keeps
    | with_reducible apply keeps_ite)

theorem State.writeNvs_keeps {P : Nat} {r₀ : State} {s : State} {off : Nat} {val : Word} (hP : 516 ||| P = P) (hs : Keeps P r₀ s) :
    Keeps P r₀ (State.writeNvs s off val) := by
  unfold State.writeNvs
  try dsimp only
  repeat' (first
    | with_reducible assumption
    | (refine mask_mono ?_ hP; rfl)
    | (intro _; try dsimp only)
    | with_reducible apply State.onBit_keeps
    | with_reducible apply State.svnCommit_keeps
    | with_reducible apply State.clearCounters_keeps
    | with_reducible apply State.storeFields_keeps
    | with_reducible apply keeps_ite)

theorem State.writeTev_keeps {P : Nat} {r₀ : State} {s : State} {n : Nat} {val : Word} (hP : 631 ||| P = P) (hs : Keeps P r₀ s) :
    Keeps P r₀ (State.writeTev s n val) := by
  unfold State.writeTev
  try dsimp only
  repeat' (first
    | with_reducible assumption
    | (refine mask_mono ?_ hP; rfl)
    | intro _
    | with_reducible apply State.setTevCtrl_keeps
    | with_reducible apply State.disarm_keeps
    | with_reducible apply State.arm_keeps
    | with_reducible apply keeps_ite)

theorem State.writeTim_keeps {P : Nat} {r₀ : State} {s : State} {off : Nat} {val : Word} (hP : 64375 ||| P = P) (hs : Keeps P r₀ s) :
    Keeps P r₀ (State.writeTim s off val) := by
  unfold State.writeTim
  try dsimp only
  repeat' (first
    | with_reducible assumption
    | (refine mask_mono ?_ hP; rfl)
    | (intro _; try dsimp only)
    | with_reducible apply State.storeFields_keeps
    | with_reducible apply State.writeTimCtrl_keeps
    | with_reducible apply State.onBit_keeps
    | with_reducible apply State.snapTime_keeps
    | with_reducible apply State.writeOffsetHi_keeps
    | with_reducible apply State.setTimeRate_keeps
    | with_reducible apply State.writeOffsetLo_keeps
    | with_reducible apply State.idleFstrobe_keeps
    | with_reducible apply State.writeIncHi_keeps
    | with_reducible apply State.writeDcAdj_keeps
    | with_reducible apply State.writePpsSec_keeps
    | with_reducible apply State.tsqPop_keeps
    | with_reducible apply State.writeTev_keeps
    | with_reducible apply keeps_ite)

theorem State.writeRope_keeps {P : Nat} {r₀ : State} {s : State} {off : Nat} {val : Word} (hP : 3146359 ||| P = P) (hs : Keeps P r₀ s) :
    Keeps P r₀ (State.writeRope s off val) := by
  unfold State.writeRope
  try dsimp only
  repeat' (first
    | with_reducible assumption
    | (refine mask_mono ?_ hP; rfl)
    | (intro _; try dsimp only)
    | with_reducible apply State.onBit_keeps
    | with_reducible apply State.startLeave_keeps
    | with_reducible apply State.join_keeps
    | with_reducible apply State.retrainPort_keeps
    | with_reducible apply State.clearCounters_keeps
    | with_reducible apply State.storeFields_keeps
    | with_reducible apply State.helloChanged_keeps
    | with_reducible apply State.swAlarm_keeps
    | with_reducible apply keeps_ite)

theorem State.writeMem_keeps {P : Nat} {r₀ : State} {s : State} {off : Nat} {val : Word} (hP : 132 ||| P = P) (hs : Keeps P r₀ s) :
    Keeps P r₀ (State.writeMem s off val) := by
  unfold State.writeMem
  try dsimp only
  repeat' (first
    | with_reducible assumption
    | (refine mask_mono ?_ hP; rfl)
    | (intro _; try dsimp only)
    | with_reducible apply State.storeFields_keeps
    | with_reducible apply State.onBit_keeps
    | with_reducible apply State.clearCounters_keeps
    | with_reducible apply State.writeAffine_keeps
    | with_reducible apply keeps_ite)

theorem State.writeDec_keeps {P : Nat} {r₀ : State} {s : State} {off : Nat} {val : Word} (hP : 4 ||| P = P) (hs : Keeps P r₀ s) :
    Keeps P r₀ (State.writeDec s off val) := by
  unfold State.writeDec
  try dsimp only
  repeat' (first
    | with_reducible assumption
    | (refine mask_mono ?_ hP; rfl)
    | (intro _; try dsimp only)
    | with_reducible apply State.storeFields_keeps
    | with_reducible apply State.onBit_keeps
    | with_reducible apply State.clearCounters_keeps
    | with_reducible apply keeps_ite)

theorem State.writeSyn_keeps {P : Nat} {r₀ : State} {s : State} {off : Nat} {val : Word} (hP : 2663 ||| P = P) (hs : Keeps P r₀ s) :
    Keeps P r₀ (State.writeSyn s off val) := by
  unfold State.writeSyn
  try dsimp only
  repeat' (first
    | with_reducible assumption
    | (refine mask_mono ?_ hP; rfl)
    | (intro _; try dsimp only)
    | with_reducible apply State.storeFields_keeps
    | with_reducible apply State.onBit_keeps
    | with_reducible apply State.clearCounters_keeps
    | with_reducible apply State.setWord_keeps
    | with_reducible apply State.applyFloor_keeps
    | with_reducible apply keeps_ite)

theorem State.writeCmp_keeps {P : Nat} {r₀ : State} {s : State} {off : Nat} {val : Word} (hP : 4100 ||| P = P) (hs : Keeps P r₀ s) :
    Keeps P r₀ (State.writeCmp s off val) := by
  unfold State.writeCmp
  try dsimp only
  repeat' (first
    | with_reducible assumption
    | (refine mask_mono ?_ hP; rfl)
    | (intro _; try dsimp only)
    | with_reducible apply State.storeFields_keeps
    | with_reducible apply State.onBit_keeps
    | with_reducible apply State.clearCounters_keeps
    | with_reducible apply State.writeRetireCfg_keeps
    | with_reducible apply keeps_ite)

theorem State.writeScn_keeps {P : Nat} {r₀ : State} {s : State} {off : Nat} {val : Word} (hP : 4 ||| P = P) (hs : Keeps P r₀ s) :
    Keeps P r₀ (State.writeScn s off val) := by
  unfold State.writeScn
  try dsimp only
  repeat' (first
    | with_reducible assumption
    | (refine mask_mono ?_ hP; rfl)
    | (intro _; try dsimp only)
    | with_reducible apply State.storeFields_keeps
    | with_reducible apply State.onBit_keeps
    | with_reducible apply State.clearCounters_keeps
    | with_reducible apply keeps_ite)

theorem State.writePnl_keeps {P : Nat} {r₀ : State} {s : State} {off : Nat} {val : Word} (hP : 16999 ||| P = P) (hs : Keeps P r₀ s) :
    Keeps P r₀ (State.writePnl s off val) := by
  unfold State.writePnl
  try dsimp only
  repeat' (first
    | with_reducible assumption
    | (refine mask_mono ?_ hP; rfl)
    | (intro _; try dsimp only)
    | with_reducible apply State.storeFields_keeps
    | with_reducible apply State.onBit_keeps
    | with_reducible apply State.clearCounters_keeps
    | with_reducible apply State.writeRetrain_keeps
    | with_reducible apply State.writePmb_keeps
    | with_reducible apply keeps_ite)

theorem State.writeLnk_keeps {P : Nat} {r₀ : State} {s : State} {off : Nat} {val : Word} (hP : 3162727 ||| P = P) (hs : Keeps P r₀ s) :
    Keeps P r₀ (State.writeLnk s off val) := by
  unfold State.writeLnk
  try dsimp only
  repeat' (first
    | with_reducible assumption
    | (refine mask_mono ?_ hP; rfl)
    | (intro _; try dsimp only)
    | with_reducible apply State.onBit_keeps
    | with_reducible apply State.clearCounters_keeps
    | with_reducible apply State.setPrbsGen_keeps
    | with_reducible apply State.setPrbsChk_keeps
    | with_reducible apply State.writeAdaptHold_keeps
    | with_reducible apply State.storeFields_keeps
    | with_reducible apply keeps_foldl
    | with_reducible apply keeps_ite)

theorem State.writeEnc_keeps {P : Nat} {r₀ : State} {s : State} {off : Nat} {val : Word} (hP : 262148 ||| P = P) (hs : Keeps P r₀ s) :
    Keeps P r₀ (State.writeEnc s off val) := by
  unfold State.writeEnc
  try dsimp only
  repeat' (first
    | with_reducible assumption
    | (refine mask_mono ?_ hP; rfl)
    | (intro _; try dsimp only)
    | with_reducible apply State.onBit_keeps
    | with_reducible apply State.clearCounters_keeps
    | with_reducible apply State.encKeyReq_keeps
    | with_reducible apply State.storeFields_keeps
    | with_reducible apply keeps_ite)

theorem State.writeBlt_keeps {P : Nat} {r₀ : State} {s : State} {off : Nat} {val : Word} (hP : 4 ||| P = P) (hs : Keeps P r₀ s) :
    Keeps P r₀ (State.writeBlt s off val) := by
  unfold State.writeBlt
  try dsimp only
  repeat' (first
    | with_reducible assumption
    | (refine mask_mono ?_ hP; rfl)
    | (intro _; try dsimp only)
    | with_reducible apply State.onBit_keeps
    | with_reducible apply State.clearCounters_keeps
    | with_reducible apply State.storeFields_keeps
    | with_reducible apply keeps_ite)

theorem State.writeReg_keeps {P : Nat} {r₀ : State} {s : State} {off : Nat} {val : Word} (hP : 4127735 ||| P = P) (hs : Keeps P r₀ s) :
    Keeps P r₀ (State.writeReg s off val) := by
  unfold State.writeReg
  try dsimp only
  repeat' (first
    | with_reducible assumption
    | (refine mask_mono ?_ hP; rfl)
    | intro _
    | with_reducible apply State.writeHif_keeps
    | with_reducible apply State.writeEvt_keeps
    | with_reducible apply State.writePwr_keeps
    | with_reducible apply State.writeThm_keeps
    | with_reducible apply State.writeCal_keeps
    | with_reducible apply State.writeNvs_keeps
    | with_reducible apply State.writeTim_keeps
    | with_reducible apply State.writeRope_keeps
    | with_reducible apply State.writeMem_keeps
    | with_reducible apply State.writeDec_keeps
    | with_reducible apply State.writeSyn_keeps
    | with_reducible apply State.writeCmp_keeps
    | with_reducible apply State.writeScn_keeps
    | with_reducible apply State.writePnl_keeps
    | with_reducible apply State.writeLnk_keeps
    | with_reducible apply State.writeEnc_keeps
    | with_reducible apply State.writeBlt_keeps
    | with_reducible apply State.storeFields_keeps
    | split)

end Sys2Proof.Machine
end

