-- ==== Sys2Proof/Laws/Boot.lean ====
section
/-!
SUPPORT. What each operation of Machine/Boot.lean leaves alone (see Laws/Keeps.lean).
-/
namespace Sys2Proof.Machine

theorem State.bootFlash_keeps {P : Nat} {r₀ : State} {s : State} {b : BootIn} (hP : 516 ||| P = P) (hs : Keeps P r₀ s) :
    Keeps P r₀ (State.bootFlash s b) := by
  unfold State.bootFlash
  try dsimp only
  repeat' (first
    | with_reducible assumption
    | (refine mask_mono ?_ hP; rfl)
    | (intro (_ : State); try dsimp only)
    | (intro _ (_ : Keeps _ _ _); try dsimp only)
    | with_reducible apply State.modNvs_keeps
    | with_reducible apply State.wrB_keeps
    | with_reducible apply State.wr_keeps
    | exact fun hw => Stores.wf_of rfl rfl hw
    | exact rfl
    | split)

theorem State.showImage_keeps {P : Nat} {r₀ : State} {s : State} {img : Option Nat} (hP : 4 ||| P = P) (hs : Keeps P r₀ s) :
    Keeps P r₀ (State.showImage s img) := by
  unfold State.showImage
  try dsimp only
  repeat' (first
    | with_reducible assumption
    | intro _
    | with_reducible apply State.wr_keeps
    | with_reducible apply State.wrB_keeps
    | split)

theorem State.takeSnapshot_keeps {P : Nat} {r₀ : State} {s : State} (hP : 4 ||| P = P) (hs : Keeps P r₀ s) :
    Keeps P r₀ (State.takeSnapshot s) := by
  unfold State.takeSnapshot
  try dsimp only
  repeat' (first
    | with_reducible assumption
    | (intro _; try dsimp only)
    | with_reducible apply State.setWord_keeps
    | with_reducible apply State.wr_keeps
    | with_reducible apply State.wrB_keeps
    | with_reducible apply keeps_foldl
    | split)

theorem State.applyEntry_keeps {P : Nat} {r₀ : State} {s : State} {pnlOnly : Bool} {off : Nat} {val : Nat} (hP : 4127743 ||| P = P) (hs : Keeps P r₀ s) :
    Keeps P r₀ (State.applyEntry s pnlOnly off val) := by
  unfold State.applyEntry
  try dsimp only
  repeat' (first
    | with_reducible assumption
    | (refine mask_mono ?_ hP; rfl)
    | intro _
    | with_reducible apply State.bump_keeps
    | with_reducible apply State.writeReg_keeps
    | with_reducible apply State.setLive_keeps
    | with_reducible apply keeps_foldl
    | with_reducible apply keeps_ite)

theorem State.applyBody_keeps {P : Nat} {r₀ : State} {s : State} {pnlOnly : Bool} {body : List Byte} (hP : 4127743 ||| P = P) (hs : Keeps P r₀ s) :
    Keeps P r₀ (State.applyBody s pnlOnly body) := by
  unfold State.applyBody
  try dsimp only
  repeat' (first
    | with_reducible assumption
    | (intro _; try dsimp only)
    | with_reducible apply State.applyEntry_keeps
    | with_reducible apply keeps_foldl)

theorem State.applyProfile_keeps {P : Nat} {r₀ : State} {s : State} (hP : 4127743 ||| P = P) (hs : Keeps P r₀ s) :
    Keeps P r₀ (State.applyProfile s) := by
  unfold State.applyProfile
  try dsimp only
  repeat' (first
    | with_reducible assumption
    | (refine mask_mono ?_ hP; rfl)
    | intro _
    | with_reducible apply State.wrB_keeps
    | with_reducible apply State.applyBody_keeps
    | split)

theorem State.applySettings_keeps {P : Nat} {r₀ : State} {s : State} (hP : 4127743 ||| P = P) (hs : Keeps P r₀ s) :
    Keeps P r₀ (State.applySettings s) := by
  unfold State.applySettings
  try dsimp only
  repeat' (first
    | with_reducible assumption
    | (refine mask_mono ?_ hP; rfl)
    | intro _
    | with_reducible apply State.raise_keeps
    | with_reducible apply State.wr_keeps
    | with_reducible apply State.wrB_keeps
    | with_reducible apply State.applyBody_keeps
    | with_reducible apply keeps_ite
    | split)

theorem State.resetShadow_keeps {P : Nat} {r₀ : State} {s : State} (hP : 12 ||| P = P) (hs : Keeps P r₀ s) :
    Keeps P r₀ (State.resetShadow s) := by
  unfold State.resetShadow
  try dsimp only
  repeat' (first
    | with_reducible assumption
    | (refine mask_mono ?_ hP; rfl)
    | (intro _; try dsimp only)
    | with_reducible apply State.setWord_keeps
    | with_reducible apply keeps_foldl
    | exact cellsWf_nil
    | with_reducible apply Keeps.set_live)

theorem State.validateSettings_keeps {P : Nat} {r₀ : State} {s : State} (hP : 12 ||| P = P) (hs : Keeps P r₀ s) :
    Keeps P r₀ (State.validateSettings s) := by
  unfold State.validateSettings
  try dsimp only
  repeat' (first
    | with_reducible assumption
    | (refine mask_mono ?_ hP; rfl)
    | intro _
    | with_reducible apply State.recordReject_keeps
    | with_reducible apply State.resetShadow_keeps
    | with_reducible apply State.wrB_keeps
    | split)

theorem State.drivesPref_keeps {P : Nat} {r₀ : State} {s : State} (hP : 16385 ||| P = P) (hs : Keeps P r₀ s) :
    Keeps P r₀ (State.drivesPref s) := by
  unfold State.drivesPref
  try dsimp only
  repeat' (first
    | with_reducible assumption
    | (refine mask_mono ?_ hP; rfl)
    | exact fun h => h
    | exact fun h => (List.length_map ..).trans h
    | exact fun _ h => h
    | exact fun _ h => (List.length_map ..).trans h
    | intro _
    | with_reducible apply State.modPnl_keeps
    | with_reducible apply State.applyPref_keeps)

theorem State.firmware_keeps {P : Nat} {r₀ : State} {s : State} (hP : 4127743 ||| P = P) (hs : Keeps P r₀ s) :
    Keeps P r₀ (State.firmware s) := by
  unfold State.firmware
  try dsimp only
  repeat' (first
    | with_reducible assumption
    | (refine mask_mono ?_ hP; rfl)
    | intro _
    | with_reducible apply State.applyProfile_keeps
    | with_reducible apply State.applySettings_keeps
    | with_reducible apply State.validateSettings_keeps
    | with_reducible apply State.takeDecSettings_keeps
    | with_reducible apply State.drivesPref_keeps
    | with_reducible apply State.settlePorts_keeps
    | with_reducible apply State.releaseRope_keeps)

theorem State.hubStart_keeps {P : Nat} {r₀ : State} {s : State} {cause : Fld} {b : BootIn} (hP : 4193279 ||| P = P) (hs : Keeps P r₀ s) :
    Keeps P r₀ (State.hubStart s cause b) := by
  unfold State.hubStart
  try dsimp only
  repeat' (first
    | with_reducible assumption
    | (refine mask_mono ?_ hP; rfl)
    | intro _
    | with_reducible apply State.powerDown_keeps
    | with_reducible apply State.setWord_keeps
    | with_reducible apply State.wrB_keeps
    | with_reducible apply State.settleRef_keeps
    | with_reducible apply State.becomeHead_keeps
    | with_reducible apply State.settleRole_keeps
    | with_reducible apply State.sensorRead_keeps
    | with_reducible apply State.hotCount_keeps
    | with_reducible refine State.hotCount_of (by assumption) ?_ ?_
    | with_reducible apply keeps_ite)

theorem State.cairnFound_keeps {P : Nat} {r₀ : State} {s : State} (hP : 615 ||| P = P) (hs : Keeps P r₀ s) :
    Keeps P r₀ (State.cairnFound s) := by
  unfold State.cairnFound
  try dsimp only
  repeat' (first
    | with_reducible assumption
    | (refine mask_mono ?_ hP; rfl)
    | intro _
    | with_reducible apply State.raise_keeps
    | with_reducible apply State.setLifetime_keeps
    | with_reducible apply keeps_ite)

theorem State.bootRecall_keeps {P : Nat} {r₀ : State} {s : State} {power : Bool} {b : BootIn} (hP : 615 ||| P = P) (hs : Keeps P r₀ s) :
    Keeps P r₀ (State.bootRecall s power b) := by
  unfold State.bootRecall
  try dsimp only
  repeat' (first
    | with_reducible assumption
    | (refine mask_mono ?_ hP; rfl)
    | intro _
    | with_reducible apply State.recallEnd_keeps
    | with_reducible apply State.cairnFound_keeps
    | with_reducible apply State.bumpLifetime_keeps
    | with_reducible apply keeps_ite)

theorem State.bootCal_keeps {P : Nat} {r₀ : State} {s : State} {b : BootIn} (hP : 541287 ||| P = P) (hs : Keeps P r₀ s) :
    Keeps P r₀ (State.bootCal s b) := by
  unfold State.bootCal
  try dsimp only
  repeat' (first
    | with_reducible assumption
    | (refine mask_mono ?_ hP; rfl)
    | intro _
    | with_reducible apply State.calStart_keeps
    | with_reducible apply State.calEnd_keeps)

theorem State.bootReady_keeps {P : Nat} {r₀ : State} {s : State} {img : Option Nat} {b : BootIn} (hP : 615 ||| P = P) (hs : Keeps P r₀ s) :
    Keeps P r₀ (State.bootReady s img b) := by
  unfold State.bootReady
  try dsimp only
  repeat' (first
    | with_reducible assumption
    | (refine mask_mono ?_ hP; rfl)
    | intro _
    | with_reducible apply State.wrB_keeps
    | with_reducible apply State.wr_keeps
    | with_reducible apply State.raise_keeps
    | with_reducible apply keeps_ite)

theorem State.bootStop_keeps {P : Nat} {r₀ : State} {s : State} {b : BootIn} (hP : 4 ||| P = P) (hs : Keeps P r₀ s) :
    Keeps P r₀ (State.bootStop s b) := by
  unfold State.bootStop
  try dsimp only
  repeat' (first
    | with_reducible assumption
    | intro _
    | with_reducible apply State.wr_keeps)

theorem State.bootSteps_keeps {P : Nat} {r₀ : State} {s : State} {power : Bool} {b : BootIn} (hP : 4127743 ||| P = P) (hs : Keeps P r₀ s) :
    Keeps P r₀ (State.bootSteps s power b) := by
  unfold State.bootSteps
  try dsimp only
  repeat' (first
    | with_reducible assumption
    | (refine mask_mono ?_ hP; rfl)
    | intro _
    | with_reducible apply State.bootFlash_keeps
    | with_reducible apply State.logErrors_keeps
    | with_reducible apply State.showImage_keeps
    | with_reducible apply State.takeSnapshot_keeps
    | with_reducible apply State.clearHbm_keeps
    | with_reducible apply State.bootRecall_keeps
    | with_reducible apply State.bumpLifetime_keeps
    | with_reducible apply State.firmware_keeps
    | with_reducible apply State.drivesPref_keeps
    | with_reducible apply State.bootCal_keeps
    | with_reducible apply State.bootReady_keeps
    | with_reducible apply keeps_ite)

theorem State.boot_keeps {P : Nat} {r₀ : State} {s : State} {cause : Fld} {power : Bool} {b : BootIn} (hP : 4193279 ||| P = P) (hs : Keeps P r₀ s) :
    Keeps P r₀ (State.boot s cause power b) := by
  unfold State.boot
  try dsimp only
  repeat' (first
    | with_reducible assumption
    | (refine mask_mono ?_ hP; rfl)
    | intro _
    | with_reducible apply State.powerDown_keeps
    | with_reducible apply State.modPwr_keeps
    | with_reducible apply State.hubStart_keeps
    | with_reducible apply State.bootFlash_keeps
    | with_reducible apply State.bootRecall_keeps
    | with_reducible apply State.bootStop_keeps
    | with_reducible apply State.bootSteps_keeps
    | with_reducible apply keeps_ite)

theorem State.bootS4_keeps {P : Nat} {r₀ : State} {s : State} {b : BootIn} (hP : 4193279 ||| P = P) (hs : Keeps P r₀ s) :
    Keeps P r₀ (State.bootS4 s b) := by
  unfold State.bootS4
  try dsimp only
  repeat' (first
    | with_reducible assumption
    | (refine mask_mono ?_ hP; rfl)
    | intro _
    | with_reducible apply State.boot_keeps
    | with_reducible apply State.raise_keeps
    | with_reducible apply keeps_ite)

end Sys2Proof.Machine
end

