-- ==== Sys2Proof/Laws/Regs.lean ====
section
/-!
SUPPORT. Laws of bit fields and of the register operations: what a field reads after a write, and what a write leaves alone.
-/
namespace Sys2Proof.Machine

theorem bits_lt (w lo len : Nat) : bits w lo len < 2 ^ len := Nat.mod_lt _ (Nat.two_pow_pos _)

/-- A field is the word's bits, so a word is its low part, the field and its high part. -/
theorem bits_split (w lo len : Nat) : w = w % 2 ^ lo + bits w lo len * 2 ^ lo + w / 2 ^ (lo + len) * 2 ^ (lo + len) := by
  have h1 := Nat.div_add_mod w (2 ^ lo)
  have h2 := Nat.div_add_mod (w / 2 ^ lo) (2 ^ len)
  unfold bits
  rw [Nat.pow_add, ← Nat.div_div_eq_div_mul]
  generalize w / 2 ^ lo / 2 ^ len = q at *
  generalize w / 2 ^ lo % 2 ^ len = m at *
  generalize w / 2 ^ lo = u at *
  generalize w % 2 ^ lo = v at *
  subst h2
  rw [← h1]
  ring

/-- The word with a field replaced: its low part, the new field and its high part. -/
theorem setBits_eq (w lo len v : Nat) :
    setBits w lo len v = w % 2 ^ lo + v % 2 ^ len * 2 ^ lo + w / 2 ^ (lo + len) * 2 ^ (lo + len) := by
  have h := bits_split w lo len
  unfold setBits
  generalize bits w lo len * 2 ^ lo = x at *
  omega

/-- The field written reads the value's low bits. -/
theorem bits_setBits_same (w lo len v : Nat) : bits (setBits w lo len v) lo len = v % 2 ^ len := by
  have hlo : w % 2 ^ lo < 2 ^ lo := Nat.mod_lt _ (Nat.two_pow_pos _)
  rw [setBits_eq, Nat.pow_add]
  unfold bits
  rw [show w % 2 ^ lo + v % 2 ^ len * 2 ^ lo + w / (2 ^ lo * 2 ^ len) * (2 ^ lo * 2 ^ len)
      = w % 2 ^ lo + 2 ^ lo * (v % 2 ^ len + 2 ^ len * (w / (2 ^ lo * 2 ^ len))) by ring,
    Nat.add_mul_div_left _ _ (Nat.two_pow_pos _), Nat.div_eq_of_lt hlo, Nat.zero_add, Nat.add_mul_mod_self_left,
    Nat.mod_mod]

/-- The bits of a field. -/
theorem testBit_bits (w lo len i : Nat) : (bits w lo len).testBit i = (decide (i < len) && w.testBit (lo + i)) := by
  simp [bits, Nat.testBit_mod_two_pow, Nat.testBit_div_two_pow, Nat.add_comm]

/-- The bits of a word with a field replaced. -/
theorem testBit_setBits (w lo len v i : Nat) :
    (setBits w lo len v).testBit i = if lo ≤ i ∧ i < lo + len then v.testBit (i - lo) else w.testBit i := by
  have hlo : w % 2 ^ lo < 2 ^ lo := Nat.mod_lt _ (Nat.two_pow_pos _)
  have hv : v % 2 ^ len < 2 ^ len := Nat.mod_lt _ (Nat.two_pow_pos _)
  rw [setBits_eq, Nat.pow_add, show w % 2 ^ lo + v % 2 ^ len * 2 ^ lo + w / (2 ^ lo * 2 ^ len) * (2 ^ lo * 2 ^ len)
      = 2 ^ lo * (2 ^ len * (w / (2 ^ lo * 2 ^ len)) + v % 2 ^ len) + w % 2 ^ lo by ring,
    Nat.testBit_two_pow_mul_add _ hlo, Nat.testBit_two_pow_mul_add _ hv, Nat.testBit_mod_two_pow, ← Nat.pow_add,
    Nat.testBit_div_two_pow, Nat.testBit_mod_two_pow]
  rcases Nat.lt_or_ge i lo with h | h
  · have : ¬ (lo ≤ i ∧ i < lo + len) := by omega
    simp [h, this]
  · rcases Nat.lt_or_ge i (lo + len) with h' | h'
    · have h1 : i - lo < len := by omega
      simp [h, h', h1, Nat.not_lt.2 h]
    · have h1 : ¬ i - lo < len := by omega
      have h2 : i - lo - len + (lo + len) = i := by omega
      simp [h1, h2, Nat.not_lt.2 h, Nat.not_lt.2 h']

/-- A field that does not meet the field written reads as before. -/
theorem bits_setBits_ne {w lo len v l n : Nat} (h : l + n ≤ lo ∨ lo + len ≤ l) :
    bits (setBits w lo len v) l n = bits w l n := by
  apply Nat.eq_of_testBit_eq
  intro i
  rw [testBit_bits, testBit_bits, testBit_setBits]
  by_cases hi : i < n
  · rw [if_neg (by omega)]
  · simp [hi]

/-- A field written inside `n` bits stays inside them. -/
theorem setBits_lt {w lo len v n : Nat} (hw : w < 2 ^ n) (h : lo + len ≤ n) : setBits w lo len v < 2 ^ n := by
  apply Nat.lt_pow_two_of_testBit
  intro i hi
  rw [testBit_setBits, if_neg (by omega)]
  exact Nat.testBit_lt_two_pow (Nat.lt_of_lt_of_le hw (Nat.pow_le_pow_right (by norm_num) hi))

/-- A whole word written is read back. -/
@[simp] theorem State.word_setWord_same (s : State) (off : Nat) (w : Word) : (s.setWord off w).word off = w :=
  cellGet_set_same ..

/-- Another register keeps its word. -/
theorem State.word_setWord_ne (s : State) {off o : Nat} (w : Word) (h : o ≠ off) : (s.setWord off w).word o = s.word o :=
  cellGet_set_ne _ _ h

/-- What any register holds after a word is written. -/
theorem State.word_setWord (s : State) (off o : Nat) (w : Word) :
    (s.setWord off w).word o = if o = off then w else s.word o := cellGet_set ..

/-- Another register keeps its word when a field is written. -/
theorem State.word_wr_ne (s : State) (f : Fld) {o : Nat} (v : Nat) (h : o ≠ f.off) : (s.wr f v).word o = s.word o :=
  s.word_setWord_ne _ h

/-- A field written is read back, cut to its width. -/
theorem State.rd_wr_same (s : State) (f : Fld) (v : Nat) (h : f.lo + f.len ≤ 32) : (s.wr f v).rd f = v % 2 ^ f.len := by
  unfold State.rd State.wr
  rw [State.word_setWord_same, BitVec.toNat_ofNat, Nat.mod_eq_of_lt (setBits_lt (s.word f.off).isLt h)]
  exact bits_setBits_same ..

/-- A field of another register, or one that does not meet the field written, reads as before. -/
theorem State.rd_wr_ne (s : State) (f g : Fld) (v : Nat) (h : f.lo + f.len ≤ 32)
    (hg : g.off ≠ f.off ∨ g.lo + g.len ≤ f.lo ∨ f.lo + f.len ≤ g.lo) : (s.wr f v).rd g = s.rd g := by
  unfold State.rd State.wr
  rw [State.word_setWord]
  split
  · rename_i he
    rw [BitVec.toNat_ofNat, Nat.mod_eq_of_lt (setBits_lt (s.word f.off).isLt h), he]
    exact bits_setBits_ne (hg.resolve_left fun hn => hn he)
  · rfl

/-- A counter stays within its field. -/
theorem satAdd_le (w a n : Nat) : satAdd w a n ≤ 2 ^ w - 1 := Nat.min_le_right ..

/-- A counter after an addition, saturated. -/
theorem State.rd_bump_same (s : State) (f : Fld) (n : Nat) (h : f.lo + f.len ≤ 32) :
    (s.bump f n).rd f = min (s.rd f + n) (2 ^ f.len - 1) := by
  unfold State.bump
  rw [State.rd_wr_same _ _ _ h, Nat.mod_eq_of_lt]
  · rfl
  · have := satAdd_le f.len (s.rd f) n
    have := Nat.two_pow_pos f.len
    omega

/-- What the registers hold after `n` counter registers from `base` are cleared. -/
theorem State.word_clearCounters (s : State) (base n o : Nat) :
    (s.clearCounters base n).word o = if ∃ i < n, o = base + 4 * i then 0 else s.word o := by
  unfold State.clearCounters
  induction n with
  | zero => simp
  | succ n ih =>
    rw [List.range_succ, List.foldl_append, List.foldl_cons, List.foldl_nil, State.word_setWord, ih]
    by_cases h : o = base + 4 * n
    · rw [if_pos h, if_pos ⟨n, by omega, h⟩]
    · rw [if_neg h]
      by_cases h' : ∃ i < n, o = base + 4 * i
      · obtain ⟨i, hi, he⟩ := h'
        rw [if_pos ⟨i, hi, he⟩, if_pos ⟨i, by omega, he⟩]
      · rw [if_neg h', if_neg]
        rintro ⟨i, hi, he⟩
        rcases Nat.lt_or_ge i n with hn | hn
        · exact h' ⟨i, hn, he⟩
        · exact h (by rw [he, show i = n by omega])

end Sys2Proof.Machine
end

