-- ==== Sys2Proof/Laws/State.lean ====
section
/-!
SUPPORT. One lemma per field per named update of the state: what the update leaves alone, and what it puts in its own field.
-/
namespace Sys2Proof.Machine

variable (s : State)

/-! ## setWord -/

@[simp] theorem State.setWord_pending (off : Nat) (w : Word) : (s.setWord off w).pending = s.pending := rfl
@[simp] theorem State.setWord_out (off : Nat) (w : Word) : (s.setWord off w).out = s.out := rfl
@[simp] theorem State.setWord_freeCtr (off : Nat) (w : Word) : (s.setWord off w).freeCtr = s.freeCtr := rfl
@[simp] theorem State.setWord_airCooled (off : Nat) (w : Word) : (s.setWord off w).airCooled = s.airCooled := rfl
@[simp] theorem State.setWord_live (off : Nat) (w : Word) : (s.setWord off w).live = s.live := rfl
@[simp] theorem State.setWord_tim (off : Nat) (w : Word) : (s.setWord off w).tim = s.tim := rfl
@[simp] theorem State.setWord_evt (off : Nat) (w : Word) : (s.setWord off w).evt = s.evt := rfl
@[simp] theorem State.setWord_hif (off : Nat) (w : Word) : (s.setWord off w).hif = s.hif := rfl
@[simp] theorem State.setWord_mem (off : Nat) (w : Word) : (s.setWord off w).mem = s.mem := rfl
@[simp] theorem State.setWord_pwr (off : Nat) (w : Word) : (s.setWord off w).pwr = s.pwr := rfl
@[simp] theorem State.setWord_nvs (off : Nat) (w : Word) : (s.setWord off w).nvs = s.nvs := rfl
@[simp] theorem State.setWord_syn (off : Nat) (w : Word) : (s.setWord off w).syn = s.syn := rfl
@[simp] theorem State.setWord_cmp (off : Nat) (w : Word) : (s.setWord off w).cmp = s.cmp := rfl
@[simp] theorem State.setWord_scn (off : Nat) (w : Word) : (s.setWord off w).scn = s.scn := rfl
@[simp] theorem State.setWord_pnl (off : Nat) (w : Word) : (s.setWord off w).pnl = s.pnl := rfl
@[simp] theorem State.setWord_dec (off : Nat) (w : Word) : (s.setWord off w).dec = s.dec := rfl
@[simp] theorem State.setWord_thm (off : Nat) (w : Word) : (s.setWord off w).thm = s.thm := rfl
@[simp] theorem State.setWord_blt (off : Nat) (w : Word) : (s.setWord off w).blt = s.blt := rfl
@[simp] theorem State.setWord_enc (off : Nat) (w : Word) : (s.setWord off w).enc = s.enc := rfl
@[simp] theorem State.setWord_cal (off : Nat) (w : Word) : (s.setWord off w).cal = s.cal := rfl
@[simp] theorem State.setWord_lanes (off : Nat) (w : Word) : (s.setWord off w).lanes = s.lanes := rfl
@[simp] theorem State.setWord_rope (off : Nat) (w : Word) : (s.setWord off w).rope = s.rope := rfl

/-! ## wr -/

@[simp] theorem State.wr_pending (f : Fld) (v : Nat) : (s.wr f v).pending = s.pending := rfl
@[simp] theorem State.wr_out (f : Fld) (v : Nat) : (s.wr f v).out = s.out := rfl
@[simp] theorem State.wr_freeCtr (f : Fld) (v : Nat) : (s.wr f v).freeCtr = s.freeCtr := rfl
@[simp] theorem State.wr_airCooled (f : Fld) (v : Nat) : (s.wr f v).airCooled = s.airCooled := rfl
@[simp] theorem State.wr_live (f : Fld) (v : Nat) : (s.wr f v).live = s.live := rfl
@[simp] theorem State.wr_tim (f : Fld) (v : Nat) : (s.wr f v).tim = s.tim := rfl
@[simp] theorem State.wr_evt (f : Fld) (v : Nat) : (s.wr f v).evt = s.evt := rfl
@[simp] theorem State.wr_hif (f : Fld) (v : Nat) : (s.wr f v).hif = s.hif := rfl
@[simp] theorem State.wr_mem (f : Fld) (v : Nat) : (s.wr f v).mem = s.mem := rfl
@[simp] theorem State.wr_pwr (f : Fld) (v : Nat) : (s.wr f v).pwr = s.pwr := rfl
@[simp] theorem State.wr_nvs (f : Fld) (v : Nat) : (s.wr f v).nvs = s.nvs := rfl
@[simp] theorem State.wr_syn (f : Fld) (v : Nat) : (s.wr f v).syn = s.syn := rfl
@[simp] theorem State.wr_cmp (f : Fld) (v : Nat) : (s.wr f v).cmp = s.cmp := rfl
@[simp] theorem State.wr_scn (f : Fld) (v : Nat) : (s.wr f v).scn = s.scn := rfl
@[simp] theorem State.wr_pnl (f : Fld) (v : Nat) : (s.wr f v).pnl = s.pnl := rfl
@[simp] theorem State.wr_dec (f : Fld) (v : Nat) : (s.wr f v).dec = s.dec := rfl
@[simp] theorem State.wr_thm (f : Fld) (v : Nat) : (s.wr f v).thm = s.thm := rfl
@[simp] theorem State.wr_blt (f : Fld) (v : Nat) : (s.wr f v).blt = s.blt := rfl
@[simp] theorem State.wr_enc (f : Fld) (v : Nat) : (s.wr f v).enc = s.enc := rfl
@[simp] theorem State.wr_cal (f : Fld) (v : Nat) : (s.wr f v).cal = s.cal := rfl
@[simp] theorem State.wr_lanes (f : Fld) (v : Nat) : (s.wr f v).lanes = s.lanes := rfl
@[simp] theorem State.wr_rope (f : Fld) (v : Nat) : (s.wr f v).rope = s.rope := rfl

/-! ## wrB -/

@[simp] theorem State.wrB_pending (f : Fld) (b : Bool) : (s.wrB f b).pending = s.pending := rfl
@[simp] theorem State.wrB_out (f : Fld) (b : Bool) : (s.wrB f b).out = s.out := rfl
@[simp] theorem State.wrB_freeCtr (f : Fld) (b : Bool) : (s.wrB f b).freeCtr = s.freeCtr := rfl
@[simp] theorem State.wrB_airCooled (f : Fld) (b : Bool) : (s.wrB f b).airCooled = s.airCooled := rfl
@[simp] theorem State.wrB_live (f : Fld) (b : Bool) : (s.wrB f b).live = s.live := rfl
@[simp] theorem State.wrB_tim (f : Fld) (b : Bool) : (s.wrB f b).tim = s.tim := rfl
@[simp] theorem State.wrB_evt (f : Fld) (b : Bool) : (s.wrB f b).evt = s.evt := rfl
@[simp] theorem State.wrB_hif (f : Fld) (b : Bool) : (s.wrB f b).hif = s.hif := rfl
@[simp] theorem State.wrB_mem (f : Fld) (b : Bool) : (s.wrB f b).mem = s.mem := rfl
@[simp] theorem State.wrB_pwr (f : Fld) (b : Bool) : (s.wrB f b).pwr = s.pwr := rfl
@[simp] theorem State.wrB_nvs (f : Fld) (b : Bool) : (s.wrB f b).nvs = s.nvs := rfl
@[simp] theorem State.wrB_syn (f : Fld) (b : Bool) : (s.wrB f b).syn = s.syn := rfl
@[simp] theorem State.wrB_cmp (f : Fld) (b : Bool) : (s.wrB f b).cmp = s.cmp := rfl
@[simp] theorem State.wrB_scn (f : Fld) (b : Bool) : (s.wrB f b).scn = s.scn := rfl
@[simp] theorem State.wrB_pnl (f : Fld) (b : Bool) : (s.wrB f b).pnl = s.pnl := rfl
@[simp] theorem State.wrB_dec (f : Fld) (b : Bool) : (s.wrB f b).dec = s.dec := rfl
@[simp] theorem State.wrB_thm (f : Fld) (b : Bool) : (s.wrB f b).thm = s.thm := rfl
@[simp] theorem State.wrB_blt (f : Fld) (b : Bool) : (s.wrB f b).blt = s.blt := rfl
@[simp] theorem State.wrB_enc (f : Fld) (b : Bool) : (s.wrB f b).enc = s.enc := rfl
@[simp] theorem State.wrB_cal (f : Fld) (b : Bool) : (s.wrB f b).cal = s.cal := rfl
@[simp] theorem State.wrB_lanes (f : Fld) (b : Bool) : (s.wrB f b).lanes = s.lanes := rfl
@[simp] theorem State.wrB_rope (f : Fld) (b : Bool) : (s.wrB f b).rope = s.rope := rfl

/-! ## bump -/

@[simp] theorem State.bump_pending (f : Fld) (n : Nat) : (s.bump f n).pending = s.pending := rfl
@[simp] theorem State.bump_out (f : Fld) (n : Nat) : (s.bump f n).out = s.out := rfl
@[simp] theorem State.bump_freeCtr (f : Fld) (n : Nat) : (s.bump f n).freeCtr = s.freeCtr := rfl
@[simp] theorem State.bump_airCooled (f : Fld) (n : Nat) : (s.bump f n).airCooled = s.airCooled := rfl
@[simp] theorem State.bump_live (f : Fld) (n : Nat) : (s.bump f n).live = s.live := rfl
@[simp] theorem State.bump_tim (f : Fld) (n : Nat) : (s.bump f n).tim = s.tim := rfl
@[simp] theorem State.bump_evt (f : Fld) (n : Nat) : (s.bump f n).evt = s.evt := rfl
@[simp] theorem State.bump_hif (f : Fld) (n : Nat) : (s.bump f n).hif = s.hif := rfl
@[simp] theorem State.bump_mem (f : Fld) (n : Nat) : (s.bump f n).mem = s.mem := rfl
@[simp] theorem State.bump_pwr (f : Fld) (n : Nat) : (s.bump f n).pwr = s.pwr := rfl
@[simp] theorem State.bump_nvs (f : Fld) (n : Nat) : (s.bump f n).nvs = s.nvs := rfl
@[simp] theorem State.bump_syn (f : Fld) (n : Nat) : (s.bump f n).syn = s.syn := rfl
@[simp] theorem State.bump_cmp (f : Fld) (n : Nat) : (s.bump f n).cmp = s.cmp := rfl
@[simp] theorem State.bump_scn (f : Fld) (n : Nat) : (s.bump f n).scn = s.scn := rfl
@[simp] theorem State.bump_pnl (f : Fld) (n : Nat) : (s.bump f n).pnl = s.pnl := rfl
@[simp] theorem State.bump_dec (f : Fld) (n : Nat) : (s.bump f n).dec = s.dec := rfl
@[simp] theorem State.bump_thm (f : Fld) (n : Nat) : (s.bump f n).thm = s.thm := rfl
@[simp] theorem State.bump_blt (f : Fld) (n : Nat) : (s.bump f n).blt = s.blt := rfl
@[simp] theorem State.bump_enc (f : Fld) (n : Nat) : (s.bump f n).enc = s.enc := rfl
@[simp] theorem State.bump_cal (f : Fld) (n : Nat) : (s.bump f n).cal = s.cal := rfl
@[simp] theorem State.bump_lanes (f : Fld) (n : Nat) : (s.bump f n).lanes = s.lanes := rfl
@[simp] theorem State.bump_rope (f : Fld) (n : Nat) : (s.bump f n).rope = s.rope := rfl

/-! ## setLive -/

@[simp] theorem State.setLive_pending (off : Nat) (w : Word) : (s.setLive off w).pending = s.pending := rfl
@[simp] theorem State.setLive_out (off : Nat) (w : Word) : (s.setLive off w).out = s.out := rfl
@[simp] theorem State.setLive_freeCtr (off : Nat) (w : Word) : (s.setLive off w).freeCtr = s.freeCtr := rfl
@[simp] theorem State.setLive_airCooled (off : Nat) (w : Word) : (s.setLive off w).airCooled = s.airCooled := rfl
@[simp] theorem State.setLive_regs (off : Nat) (w : Word) : (s.setLive off w).regs = s.regs := rfl
@[simp] theorem State.setLive_tim (off : Nat) (w : Word) : (s.setLive off w).tim = s.tim := rfl
@[simp] theorem State.setLive_evt (off : Nat) (w : Word) : (s.setLive off w).evt = s.evt := rfl
@[simp] theorem State.setLive_hif (off : Nat) (w : Word) : (s.setLive off w).hif = s.hif := rfl
@[simp] theorem State.setLive_mem (off : Nat) (w : Word) : (s.setLive off w).mem = s.mem := rfl
@[simp] theorem State.setLive_pwr (off : Nat) (w : Word) : (s.setLive off w).pwr = s.pwr := rfl
@[simp] theorem State.setLive_nvs (off : Nat) (w : Word) : (s.setLive off w).nvs = s.nvs := rfl
@[simp] theorem State.setLive_syn (off : Nat) (w : Word) : (s.setLive off w).syn = s.syn := rfl
@[simp] theorem State.setLive_cmp (off : Nat) (w : Word) : (s.setLive off w).cmp = s.cmp := rfl
@[simp] theorem State.setLive_scn (off : Nat) (w : Word) : (s.setLive off w).scn = s.scn := rfl
@[simp] theorem State.setLive_pnl (off : Nat) (w : Word) : (s.setLive off w).pnl = s.pnl := rfl
@[simp] theorem State.setLive_dec (off : Nat) (w : Word) : (s.setLive off w).dec = s.dec := rfl
@[simp] theorem State.setLive_thm (off : Nat) (w : Word) : (s.setLive off w).thm = s.thm := rfl
@[simp] theorem State.setLive_blt (off : Nat) (w : Word) : (s.setLive off w).blt = s.blt := rfl
@[simp] theorem State.setLive_enc (off : Nat) (w : Word) : (s.setLive off w).enc = s.enc := rfl
@[simp] theorem State.setLive_cal (off : Nat) (w : Word) : (s.setLive off w).cal = s.cal := rfl
@[simp] theorem State.setLive_lanes (off : Nat) (w : Word) : (s.setLive off w).lanes = s.lanes := rfl
@[simp] theorem State.setLive_rope (off : Nat) (w : Word) : (s.setLive off w).rope = s.rope := rfl
@[simp] theorem State.setLive_word (off : Nat) (w : Word) (o : Nat) : (s.setLive off w).word o = s.word o := rfl
@[simp] theorem State.setLive_rd (off : Nat) (w : Word) (g : Fld) : (s.setLive off w).rd g = s.rd g := rfl
@[simp] theorem State.setLive_rdB (off : Nat) (w : Word) (g : Fld) : (s.setLive off w).rdB g = s.rdB g := rfl

/-! ## emit -/

@[simp] theorem State.emit_pending (o : Out) : (s.emit o).pending = s.pending := rfl
@[simp] theorem State.emit_out (o : Out) : (s.emit o).out = o :: s.out := rfl
@[simp] theorem State.emit_freeCtr (o : Out) : (s.emit o).freeCtr = s.freeCtr := rfl
@[simp] theorem State.emit_airCooled (o : Out) : (s.emit o).airCooled = s.airCooled := rfl
@[simp] theorem State.emit_regs (o : Out) : (s.emit o).regs = s.regs := rfl
@[simp] theorem State.emit_live (o : Out) : (s.emit o).live = s.live := rfl
@[simp] theorem State.emit_tim (o : Out) : (s.emit o).tim = s.tim := rfl
@[simp] theorem State.emit_evt (o : Out) : (s.emit o).evt = s.evt := rfl
@[simp] theorem State.emit_hif (o : Out) : (s.emit o).hif = s.hif := rfl
@[simp] theorem State.emit_mem (o : Out) : (s.emit o).mem = s.mem := rfl
@[simp] theorem State.emit_pwr (o : Out) : (s.emit o).pwr = s.pwr := rfl
@[simp] theorem State.emit_nvs (o : Out) : (s.emit o).nvs = s.nvs := rfl
@[simp] theorem State.emit_syn (o : Out) : (s.emit o).syn = s.syn := rfl
@[simp] theorem State.emit_cmp (o : Out) : (s.emit o).cmp = s.cmp := rfl
@[simp] theorem State.emit_scn (o : Out) : (s.emit o).scn = s.scn := rfl
@[simp] theorem State.emit_pnl (o : Out) : (s.emit o).pnl = s.pnl := rfl
@[simp] theorem State.emit_dec (o : Out) : (s.emit o).dec = s.dec := rfl
@[simp] theorem State.emit_thm (o : Out) : (s.emit o).thm = s.thm := rfl
@[simp] theorem State.emit_blt (o : Out) : (s.emit o).blt = s.blt := rfl
@[simp] theorem State.emit_enc (o : Out) : (s.emit o).enc = s.enc := rfl
@[simp] theorem State.emit_cal (o : Out) : (s.emit o).cal = s.cal := rfl
@[simp] theorem State.emit_lanes (o : Out) : (s.emit o).lanes = s.lanes := rfl
@[simp] theorem State.emit_rope (o : Out) : (s.emit o).rope = s.rope := rfl
@[simp] theorem State.emit_word (e : Out) (o : Nat) : (s.emit e).word o = s.word o := rfl
@[simp] theorem State.emit_rd (o : Out) (g : Fld) : (s.emit o).rd g = s.rd g := rfl
@[simp] theorem State.emit_rdB (o : Out) (g : Fld) : (s.emit o).rdB g = s.rdB g := rfl

/-! ## drawn -/

@[simp] theorem State.drawn_pending (n : Nat) : (s.drawn n).pending = s.pending := rfl
@[simp] theorem State.drawn_out (n : Nat) : (s.drawn n).out = s.out := rfl
@[simp] theorem State.drawn_freeCtr (n : Nat) : (s.drawn n).freeCtr = s.freeCtr + n := rfl
@[simp] theorem State.drawn_airCooled (n : Nat) : (s.drawn n).airCooled = s.airCooled := rfl
@[simp] theorem State.drawn_regs (n : Nat) : (s.drawn n).regs = s.regs := rfl
@[simp] theorem State.drawn_live (n : Nat) : (s.drawn n).live = s.live := rfl
@[simp] theorem State.drawn_tim (n : Nat) : (s.drawn n).tim = s.tim := rfl
@[simp] theorem State.drawn_evt (n : Nat) : (s.drawn n).evt = s.evt := rfl
@[simp] theorem State.drawn_hif (n : Nat) : (s.drawn n).hif = s.hif := rfl
@[simp] theorem State.drawn_mem (n : Nat) : (s.drawn n).mem = s.mem := rfl
@[simp] theorem State.drawn_pwr (n : Nat) : (s.drawn n).pwr = s.pwr := rfl
@[simp] theorem State.drawn_nvs (n : Nat) : (s.drawn n).nvs = s.nvs := rfl
@[simp] theorem State.drawn_syn (n : Nat) : (s.drawn n).syn = s.syn := rfl
@[simp] theorem State.drawn_cmp (n : Nat) : (s.drawn n).cmp = s.cmp := rfl
@[simp] theorem State.drawn_scn (n : Nat) : (s.drawn n).scn = s.scn := rfl
@[simp] theorem State.drawn_pnl (n : Nat) : (s.drawn n).pnl = s.pnl := rfl
@[simp] theorem State.drawn_dec (n : Nat) : (s.drawn n).dec = s.dec := rfl
@[simp] theorem State.drawn_thm (n : Nat) : (s.drawn n).thm = s.thm := rfl
@[simp] theorem State.drawn_blt (n : Nat) : (s.drawn n).blt = s.blt := rfl
@[simp] theorem State.drawn_enc (n : Nat) : (s.drawn n).enc = s.enc := rfl
@[simp] theorem State.drawn_cal (n : Nat) : (s.drawn n).cal = s.cal := rfl
@[simp] theorem State.drawn_lanes (n : Nat) : (s.drawn n).lanes = s.lanes := rfl
@[simp] theorem State.drawn_rope (n : Nat) : (s.drawn n).rope = s.rope := rfl
@[simp] theorem State.drawn_word (n : Nat) (o : Nat) : (s.drawn n).word o = s.word o := rfl
@[simp] theorem State.drawn_rd (n : Nat) (g : Fld) : (s.drawn n).rd g = s.rd g := rfl
@[simp] theorem State.drawn_rdB (n : Nat) (g : Fld) : (s.drawn n).rdB g = s.rdB g := rfl

/-! ## modMem -/

@[simp] theorem State.modMem_pending (f : MemSt → MemSt) : (s.modMem f).pending = s.pending := rfl
@[simp] theorem State.modMem_out (f : MemSt → MemSt) : (s.modMem f).out = s.out := rfl
@[simp] theorem State.modMem_freeCtr (f : MemSt → MemSt) : (s.modMem f).freeCtr = s.freeCtr := rfl
@[simp] theorem State.modMem_airCooled (f : MemSt → MemSt) : (s.modMem f).airCooled = s.airCooled := rfl
@[simp] theorem State.modMem_regs (f : MemSt → MemSt) : (s.modMem f).regs = s.regs := rfl
@[simp] theorem State.modMem_live (f : MemSt → MemSt) : (s.modMem f).live = s.live := rfl
@[simp] theorem State.modMem_tim (f : MemSt → MemSt) : (s.modMem f).tim = s.tim := rfl
@[simp] theorem State.modMem_evt (f : MemSt → MemSt) : (s.modMem f).evt = s.evt := rfl
@[simp] theorem State.modMem_hif (f : MemSt → MemSt) : (s.modMem f).hif = s.hif := rfl
@[simp] theorem State.modMem_mem (f : MemSt → MemSt) : (s.modMem f).mem = f s.mem := rfl
@[simp] theorem State.modMem_pwr (f : MemSt → MemSt) : (s.modMem f).pwr = s.pwr := rfl
@[simp] theorem State.modMem_nvs (f : MemSt → MemSt) : (s.modMem f).nvs = s.nvs := rfl
@[simp] theorem State.modMem_syn (f : MemSt → MemSt) : (s.modMem f).syn = s.syn := rfl
@[simp] theorem State.modMem_cmp (f : MemSt → MemSt) : (s.modMem f).cmp = s.cmp := rfl
@[simp] theorem State.modMem_scn (f : MemSt → MemSt) : (s.modMem f).scn = s.scn := rfl
@[simp] theorem State.modMem_pnl (f : MemSt → MemSt) : (s.modMem f).pnl = s.pnl := rfl
@[simp] theorem State.modMem_dec (f : MemSt → MemSt) : (s.modMem f).dec = s.dec := rfl
@[simp] theorem State.modMem_thm (f : MemSt → MemSt) : (s.modMem f).thm = s.thm := rfl
@[simp] theorem State.modMem_blt (f : MemSt → MemSt) : (s.modMem f).blt = s.blt := rfl
@[simp] theorem State.modMem_enc (f : MemSt → MemSt) : (s.modMem f).enc = s.enc := rfl
@[simp] theorem State.modMem_cal (f : MemSt → MemSt) : (s.modMem f).cal = s.cal := rfl
@[simp] theorem State.modMem_lanes (f : MemSt → MemSt) : (s.modMem f).lanes = s.lanes := rfl
@[simp] theorem State.modMem_rope (f : MemSt → MemSt) : (s.modMem f).rope = s.rope := rfl
@[simp] theorem State.modMem_word (f : MemSt → MemSt) (o : Nat) : (s.modMem f).word o = s.word o := rfl
@[simp] theorem State.modMem_rd (f : MemSt → MemSt) (g : Fld) : (s.modMem f).rd g = s.rd g := rfl
@[simp] theorem State.modMem_rdB (f : MemSt → MemSt) (g : Fld) : (s.modMem f).rdB g = s.rdB g := rfl

/-! ## modPwr -/

@[simp] theorem State.modPwr_pending (f : PwrSt → PwrSt) : (s.modPwr f).pending = s.pending := rfl
@[simp] theorem State.modPwr_out (f : PwrSt → PwrSt) : (s.modPwr f).out = s.out := rfl
@[simp] theorem State.modPwr_freeCtr (f : PwrSt → PwrSt) : (s.modPwr f).freeCtr = s.freeCtr := rfl
@[simp] theorem State.modPwr_airCooled (f : PwrSt → PwrSt) : (s.modPwr f).airCooled = s.airCooled := rfl
@[simp] theorem State.modPwr_regs (f : PwrSt → PwrSt) : (s.modPwr f).regs = s.regs := rfl
@[simp] theorem State.modPwr_live (f : PwrSt → PwrSt) : (s.modPwr f).live = s.live := rfl
@[simp] theorem State.modPwr_tim (f : PwrSt → PwrSt) : (s.modPwr f).tim = s.tim := rfl
@[simp] theorem State.modPwr_evt (f : PwrSt → PwrSt) : (s.modPwr f).evt = s.evt := rfl
@[simp] theorem State.modPwr_hif (f : PwrSt → PwrSt) : (s.modPwr f).hif = s.hif := rfl
@[simp] theorem State.modPwr_mem (f : PwrSt → PwrSt) : (s.modPwr f).mem = s.mem := rfl
@[simp] theorem State.modPwr_pwr (f : PwrSt → PwrSt) : (s.modPwr f).pwr = f s.pwr := rfl
@[simp] theorem State.modPwr_nvs (f : PwrSt → PwrSt) : (s.modPwr f).nvs = s.nvs := rfl
@[simp] theorem State.modPwr_syn (f : PwrSt → PwrSt) : (s.modPwr f).syn = s.syn := rfl
@[simp] theorem State.modPwr_cmp (f : PwrSt → PwrSt) : (s.modPwr f).cmp = s.cmp := rfl
@[simp] theorem State.modPwr_scn (f : PwrSt → PwrSt) : (s.modPwr f).scn = s.scn := rfl
@[simp] theorem State.modPwr_pnl (f : PwrSt → PwrSt) : (s.modPwr f).pnl = s.pnl := rfl
@[simp] theorem State.modPwr_dec (f : PwrSt → PwrSt) : (s.modPwr f).dec = s.dec := rfl
@[simp] theorem State.modPwr_thm (f : PwrSt → PwrSt) : (s.modPwr f).thm = s.thm := rfl
@[simp] theorem State.modPwr_blt (f : PwrSt → PwrSt) : (s.modPwr f).blt = s.blt := rfl
@[simp] theorem State.modPwr_enc (f : PwrSt → PwrSt) : (s.modPwr f).enc = s.enc := rfl
@[simp] theorem State.modPwr_cal (f : PwrSt → PwrSt) : (s.modPwr f).cal = s.cal := rfl
@[simp] theorem State.modPwr_lanes (f : PwrSt → PwrSt) : (s.modPwr f).lanes = s.lanes := rfl
@[simp] theorem State.modPwr_rope (f : PwrSt → PwrSt) : (s.modPwr f).rope = s.rope := rfl
@[simp] theorem State.modPwr_word (f : PwrSt → PwrSt) (o : Nat) : (s.modPwr f).word o = s.word o := rfl
@[simp] theorem State.modPwr_rd (f : PwrSt → PwrSt) (g : Fld) : (s.modPwr f).rd g = s.rd g := rfl
@[simp] theorem State.modPwr_rdB (f : PwrSt → PwrSt) (g : Fld) : (s.modPwr f).rdB g = s.rdB g := rfl

/-! ## modNvs -/

@[simp] theorem State.modNvs_pending (f : NvsSt → NvsSt) : (s.modNvs f).pending = s.pending := rfl
@[simp] theorem State.modNvs_out (f : NvsSt → NvsSt) : (s.modNvs f).out = s.out := rfl
@[simp] theorem State.modNvs_freeCtr (f : NvsSt → NvsSt) : (s.modNvs f).freeCtr = s.freeCtr := rfl
@[simp] theorem State.modNvs_airCooled (f : NvsSt → NvsSt) : (s.modNvs f).airCooled = s.airCooled := rfl
@[simp] theorem State.modNvs_regs (f : NvsSt → NvsSt) : (s.modNvs f).regs = s.regs := rfl
@[simp] theorem State.modNvs_live (f : NvsSt → NvsSt) : (s.modNvs f).live = s.live := rfl
@[simp] theorem State.modNvs_tim (f : NvsSt → NvsSt) : (s.modNvs f).tim = s.tim := rfl
@[simp] theorem State.modNvs_evt (f : NvsSt → NvsSt) : (s.modNvs f).evt = s.evt := rfl
@[simp] theorem State.modNvs_hif (f : NvsSt → NvsSt) : (s.modNvs f).hif = s.hif := rfl
@[simp] theorem State.modNvs_mem (f : NvsSt → NvsSt) : (s.modNvs f).mem = s.mem := rfl
@[simp] theorem State.modNvs_pwr (f : NvsSt → NvsSt) : (s.modNvs f).pwr = s.pwr := rfl
@[simp] theorem State.modNvs_nvs (f : NvsSt → NvsSt) : (s.modNvs f).nvs = f s.nvs := rfl
@[simp] theorem State.modNvs_syn (f : NvsSt → NvsSt) : (s.modNvs f).syn = s.syn := rfl
@[simp] theorem State.modNvs_cmp (f : NvsSt → NvsSt) : (s.modNvs f).cmp = s.cmp := rfl
@[simp] theorem State.modNvs_scn (f : NvsSt → NvsSt) : (s.modNvs f).scn = s.scn := rfl
@[simp] theorem State.modNvs_pnl (f : NvsSt → NvsSt) : (s.modNvs f).pnl = s.pnl := rfl
@[simp] theorem State.modNvs_dec (f : NvsSt → NvsSt) : (s.modNvs f).dec = s.dec := rfl
@[simp] theorem State.modNvs_thm (f : NvsSt → NvsSt) : (s.modNvs f).thm = s.thm := rfl
@[simp] theorem State.modNvs_blt (f : NvsSt → NvsSt) : (s.modNvs f).blt = s.blt := rfl
@[simp] theorem State.modNvs_enc (f : NvsSt → NvsSt) : (s.modNvs f).enc = s.enc := rfl
@[simp] theorem State.modNvs_cal (f : NvsSt → NvsSt) : (s.modNvs f).cal = s.cal := rfl
@[simp] theorem State.modNvs_lanes (f : NvsSt → NvsSt) : (s.modNvs f).lanes = s.lanes := rfl
@[simp] theorem State.modNvs_rope (f : NvsSt → NvsSt) : (s.modNvs f).rope = s.rope := rfl
@[simp] theorem State.modNvs_word (f : NvsSt → NvsSt) (o : Nat) : (s.modNvs f).word o = s.word o := rfl
@[simp] theorem State.modNvs_rd (f : NvsSt → NvsSt) (g : Fld) : (s.modNvs f).rd g = s.rd g := rfl
@[simp] theorem State.modNvs_rdB (f : NvsSt → NvsSt) (g : Fld) : (s.modNvs f).rdB g = s.rdB g := rfl

/-! ## modSyn -/

@[simp] theorem State.modSyn_pending (f : SynSt → SynSt) : (s.modSyn f).pending = s.pending := rfl
@[simp] theorem State.modSyn_out (f : SynSt → SynSt) : (s.modSyn f).out = s.out := rfl
@[simp] theorem State.modSyn_freeCtr (f : SynSt → SynSt) : (s.modSyn f).freeCtr = s.freeCtr := rfl
@[simp] theorem State.modSyn_airCooled (f : SynSt → SynSt) : (s.modSyn f).airCooled = s.airCooled := rfl
@[simp] theorem State.modSyn_regs (f : SynSt → SynSt) : (s.modSyn f).regs = s.regs := rfl
@[simp] theorem State.modSyn_live (f : SynSt → SynSt) : (s.modSyn f).live = s.live := rfl
@[simp] theorem State.modSyn_tim (f : SynSt → SynSt) : (s.modSyn f).tim = s.tim := rfl
@[simp] theorem State.modSyn_evt (f : SynSt → SynSt) : (s.modSyn f).evt = s.evt := rfl
@[simp] theorem State.modSyn_hif (f : SynSt → SynSt) : (s.modSyn f).hif = s.hif := rfl
@[simp] theorem State.modSyn_mem (f : SynSt → SynSt) : (s.modSyn f).mem = s.mem := rfl
@[simp] theorem State.modSyn_pwr (f : SynSt → SynSt) : (s.modSyn f).pwr = s.pwr := rfl
@[simp] theorem State.modSyn_nvs (f : SynSt → SynSt) : (s.modSyn f).nvs = s.nvs := rfl
@[simp] theorem State.modSyn_syn (f : SynSt → SynSt) : (s.modSyn f).syn = f s.syn := rfl
@[simp] theorem State.modSyn_cmp (f : SynSt → SynSt) : (s.modSyn f).cmp = s.cmp := rfl
@[simp] theorem State.modSyn_scn (f : SynSt → SynSt) : (s.modSyn f).scn = s.scn := rfl
@[simp] theorem State.modSyn_pnl (f : SynSt → SynSt) : (s.modSyn f).pnl = s.pnl := rfl
@[simp] theorem State.modSyn_dec (f : SynSt → SynSt) : (s.modSyn f).dec = s.dec := rfl
@[simp] theorem State.modSyn_thm (f : SynSt → SynSt) : (s.modSyn f).thm = s.thm := rfl
@[simp] theorem State.modSyn_blt (f : SynSt → SynSt) : (s.modSyn f).blt = s.blt := rfl
@[simp] theorem State.modSyn_enc (f : SynSt → SynSt) : (s.modSyn f).enc = s.enc := rfl
@[simp] theorem State.modSyn_cal (f : SynSt → SynSt) : (s.modSyn f).cal = s.cal := rfl
@[simp] theorem State.modSyn_lanes (f : SynSt → SynSt) : (s.modSyn f).lanes = s.lanes := rfl
@[simp] theorem State.modSyn_rope (f : SynSt → SynSt) : (s.modSyn f).rope = s.rope := rfl
@[simp] theorem State.modSyn_word (f : SynSt → SynSt) (o : Nat) : (s.modSyn f).word o = s.word o := rfl
@[simp] theorem State.modSyn_rd (f : SynSt → SynSt) (g : Fld) : (s.modSyn f).rd g = s.rd g := rfl
@[simp] theorem State.modSyn_rdB (f : SynSt → SynSt) (g : Fld) : (s.modSyn f).rdB g = s.rdB g := rfl

/-! ## modScn -/

@[simp] theorem State.modScn_pending (f : ScnSt → ScnSt) : (s.modScn f).pending = s.pending := rfl
@[simp] theorem State.modScn_out (f : ScnSt → ScnSt) : (s.modScn f).out = s.out := rfl
@[simp] theorem State.modScn_freeCtr (f : ScnSt → ScnSt) : (s.modScn f).freeCtr = s.freeCtr := rfl
@[simp] theorem State.modScn_airCooled (f : ScnSt → ScnSt) : (s.modScn f).airCooled = s.airCooled := rfl
@[simp] theorem State.modScn_regs (f : ScnSt → ScnSt) : (s.modScn f).regs = s.regs := rfl
@[simp] theorem State.modScn_live (f : ScnSt → ScnSt) : (s.modScn f).live = s.live := rfl
@[simp] theorem State.modScn_tim (f : ScnSt → ScnSt) : (s.modScn f).tim = s.tim := rfl
@[simp] theorem State.modScn_evt (f : ScnSt → ScnSt) : (s.modScn f).evt = s.evt := rfl
@[simp] theorem State.modScn_hif (f : ScnSt → ScnSt) : (s.modScn f).hif = s.hif := rfl
@[simp] theorem State.modScn_mem (f : ScnSt → ScnSt) : (s.modScn f).mem = s.mem := rfl
@[simp] theorem State.modScn_pwr (f : ScnSt → ScnSt) : (s.modScn f).pwr = s.pwr := rfl
@[simp] theorem State.modScn_nvs (f : ScnSt → ScnSt) : (s.modScn f).nvs = s.nvs := rfl
@[simp] theorem State.modScn_syn (f : ScnSt → ScnSt) : (s.modScn f).syn = s.syn := rfl
@[simp] theorem State.modScn_cmp (f : ScnSt → ScnSt) : (s.modScn f).cmp = s.cmp := rfl
@[simp] theorem State.modScn_scn (f : ScnSt → ScnSt) : (s.modScn f).scn = f s.scn := rfl
@[simp] theorem State.modScn_pnl (f : ScnSt → ScnSt) : (s.modScn f).pnl = s.pnl := rfl
@[simp] theorem State.modScn_dec (f : ScnSt → ScnSt) : (s.modScn f).dec = s.dec := rfl
@[simp] theorem State.modScn_thm (f : ScnSt → ScnSt) : (s.modScn f).thm = s.thm := rfl
@[simp] theorem State.modScn_blt (f : ScnSt → ScnSt) : (s.modScn f).blt = s.blt := rfl
@[simp] theorem State.modScn_enc (f : ScnSt → ScnSt) : (s.modScn f).enc = s.enc := rfl
@[simp] theorem State.modScn_cal (f : ScnSt → ScnSt) : (s.modScn f).cal = s.cal := rfl
@[simp] theorem State.modScn_lanes (f : ScnSt → ScnSt) : (s.modScn f).lanes = s.lanes := rfl
@[simp] theorem State.modScn_rope (f : ScnSt → ScnSt) : (s.modScn f).rope = s.rope := rfl
@[simp] theorem State.modScn_word (f : ScnSt → ScnSt) (o : Nat) : (s.modScn f).word o = s.word o := rfl
@[simp] theorem State.modScn_rd (f : ScnSt → ScnSt) (g : Fld) : (s.modScn f).rd g = s.rd g := rfl
@[simp] theorem State.modScn_rdB (f : ScnSt → ScnSt) (g : Fld) : (s.modScn f).rdB g = s.rdB g := rfl

/-! ## modPnl -/

@[simp] theorem State.modPnl_pending (f : PnlSt → PnlSt) : (s.modPnl f).pending = s.pending := rfl
@[simp] theorem State.modPnl_out (f : PnlSt → PnlSt) : (s.modPnl f).out = s.out := rfl
@[simp] theorem State.modPnl_freeCtr (f : PnlSt → PnlSt) : (s.modPnl f).freeCtr = s.freeCtr := rfl
@[simp] theorem State.modPnl_airCooled (f : PnlSt → PnlSt) : (s.modPnl f).airCooled = s.airCooled := rfl
@[simp] theorem State.modPnl_regs (f : PnlSt → PnlSt) : (s.modPnl f).regs = s.regs := rfl
@[simp] theorem State.modPnl_live (f : PnlSt → PnlSt) : (s.modPnl f).live = s.live := rfl
@[simp] theorem State.modPnl_tim (f : PnlSt → PnlSt) : (s.modPnl f).tim = s.tim := rfl
@[simp] theorem State.modPnl_evt (f : PnlSt → PnlSt) : (s.modPnl f).evt = s.evt := rfl
@[simp] theorem State.modPnl_hif (f : PnlSt → PnlSt) : (s.modPnl f).hif = s.hif := rfl
@[simp] theorem State.modPnl_mem (f : PnlSt → PnlSt) : (s.modPnl f).mem = s.mem := rfl
@[simp] theorem State.modPnl_pwr (f : PnlSt → PnlSt) : (s.modPnl f).pwr = s.pwr := rfl
@[simp] theorem State.modPnl_nvs (f : PnlSt → PnlSt) : (s.modPnl f).nvs = s.nvs := rfl
@[simp] theorem State.modPnl_syn (f : PnlSt → PnlSt) : (s.modPnl f).syn = s.syn := rfl
@[simp] theorem State.modPnl_cmp (f : PnlSt → PnlSt) : (s.modPnl f).cmp = s.cmp := rfl
@[simp] theorem State.modPnl_scn (f : PnlSt → PnlSt) : (s.modPnl f).scn = s.scn := rfl
@[simp] theorem State.modPnl_pnl (f : PnlSt → PnlSt) : (s.modPnl f).pnl = f s.pnl := rfl
@[simp] theorem State.modPnl_dec (f : PnlSt → PnlSt) : (s.modPnl f).dec = s.dec := rfl
@[simp] theorem State.modPnl_thm (f : PnlSt → PnlSt) : (s.modPnl f).thm = s.thm := rfl
@[simp] theorem State.modPnl_blt (f : PnlSt → PnlSt) : (s.modPnl f).blt = s.blt := rfl
@[simp] theorem State.modPnl_enc (f : PnlSt → PnlSt) : (s.modPnl f).enc = s.enc := rfl
@[simp] theorem State.modPnl_cal (f : PnlSt → PnlSt) : (s.modPnl f).cal = s.cal := rfl
@[simp] theorem State.modPnl_lanes (f : PnlSt → PnlSt) : (s.modPnl f).lanes = s.lanes := rfl
@[simp] theorem State.modPnl_rope (f : PnlSt → PnlSt) : (s.modPnl f).rope = s.rope := rfl
@[simp] theorem State.modPnl_word (f : PnlSt → PnlSt) (o : Nat) : (s.modPnl f).word o = s.word o := rfl
@[simp] theorem State.modPnl_rd (f : PnlSt → PnlSt) (g : Fld) : (s.modPnl f).rd g = s.rd g := rfl
@[simp] theorem State.modPnl_rdB (f : PnlSt → PnlSt) (g : Fld) : (s.modPnl f).rdB g = s.rdB g := rfl

/-! ## modDec -/

@[simp] theorem State.modDec_pending (f : DecSt → DecSt) : (s.modDec f).pending = s.pending := rfl
@[simp] theorem State.modDec_out (f : DecSt → DecSt) : (s.modDec f).out = s.out := rfl
@[simp] theorem State.modDec_freeCtr (f : DecSt → DecSt) : (s.modDec f).freeCtr = s.freeCtr := rfl
@[simp] theorem State.modDec_airCooled (f : DecSt → DecSt) : (s.modDec f).airCooled = s.airCooled := rfl
@[simp] theorem State.modDec_regs (f : DecSt → DecSt) : (s.modDec f).regs = s.regs := rfl
@[simp] theorem State.modDec_live (f : DecSt → DecSt) : (s.modDec f).live = s.live := rfl
@[simp] theorem State.modDec_tim (f : DecSt → DecSt) : (s.modDec f).tim = s.tim := rfl
@[simp] theorem State.modDec_evt (f : DecSt → DecSt) : (s.modDec f).evt = s.evt := rfl
@[simp] theorem State.modDec_hif (f : DecSt → DecSt) : (s.modDec f).hif = s.hif := rfl
@[simp] theorem State.modDec_mem (f : DecSt → DecSt) : (s.modDec f).mem = s.mem := rfl
@[simp] theorem State.modDec_pwr (f : DecSt → DecSt) : (s.modDec f).pwr = s.pwr := rfl
@[simp] theorem State.modDec_nvs (f : DecSt → DecSt) : (s.modDec f).nvs = s.nvs := rfl
@[simp] theorem State.modDec_syn (f : DecSt → DecSt) : (s.modDec f).syn = s.syn := rfl
@[simp] theorem State.modDec_cmp (f : DecSt → DecSt) : (s.modDec f).cmp = s.cmp := rfl
@[simp] theorem State.modDec_scn (f : DecSt → DecSt) : (s.modDec f).scn = s.scn := rfl
@[simp] theorem State.modDec_pnl (f : DecSt → DecSt) : (s.modDec f).pnl = s.pnl := rfl
@[simp] theorem State.modDec_dec (f : DecSt → DecSt) : (s.modDec f).dec = f s.dec := rfl
@[simp] theorem State.modDec_thm (f : DecSt → DecSt) : (s.modDec f).thm = s.thm := rfl
@[simp] theorem State.modDec_blt (f : DecSt → DecSt) : (s.modDec f).blt = s.blt := rfl
@[simp] theorem State.modDec_enc (f : DecSt → DecSt) : (s.modDec f).enc = s.enc := rfl
@[simp] theorem State.modDec_cal (f : DecSt → DecSt) : (s.modDec f).cal = s.cal := rfl
@[simp] theorem State.modDec_lanes (f : DecSt → DecSt) : (s.modDec f).lanes = s.lanes := rfl
@[simp] theorem State.modDec_rope (f : DecSt → DecSt) : (s.modDec f).rope = s.rope := rfl
@[simp] theorem State.modDec_word (f : DecSt → DecSt) (o : Nat) : (s.modDec f).word o = s.word o := rfl
@[simp] theorem State.modDec_rd (f : DecSt → DecSt) (g : Fld) : (s.modDec f).rd g = s.rd g := rfl
@[simp] theorem State.modDec_rdB (f : DecSt → DecSt) (g : Fld) : (s.modDec f).rdB g = s.rdB g := rfl

/-! ## modThm -/

@[simp] theorem State.modThm_pending (f : ThmSt → ThmSt) : (s.modThm f).pending = s.pending := rfl
@[simp] theorem State.modThm_out (f : ThmSt → ThmSt) : (s.modThm f).out = s.out := rfl
@[simp] theorem State.modThm_freeCtr (f : ThmSt → ThmSt) : (s.modThm f).freeCtr = s.freeCtr := rfl
@[simp] theorem State.modThm_airCooled (f : ThmSt → ThmSt) : (s.modThm f).airCooled = s.airCooled := rfl
@[simp] theorem State.modThm_regs (f : ThmSt → ThmSt) : (s.modThm f).regs = s.regs := rfl
@[simp] theorem State.modThm_live (f : ThmSt → ThmSt) : (s.modThm f).live = s.live := rfl
@[simp] theorem State.modThm_tim (f : ThmSt → ThmSt) : (s.modThm f).tim = s.tim := rfl
@[simp] theorem State.modThm_evt (f : ThmSt → ThmSt) : (s.modThm f).evt = s.evt := rfl
@[simp] theorem State.modThm_hif (f : ThmSt → ThmSt) : (s.modThm f).hif = s.hif := rfl
@[simp] theorem State.modThm_mem (f : ThmSt → ThmSt) : (s.modThm f).mem = s.mem := rfl
@[simp] theorem State.modThm_pwr (f : ThmSt → ThmSt) : (s.modThm f).pwr = s.pwr := rfl
@[simp] theorem State.modThm_nvs (f : ThmSt → ThmSt) : (s.modThm f).nvs = s.nvs := rfl
@[simp] theorem State.modThm_syn (f : ThmSt → ThmSt) : (s.modThm f).syn = s.syn := rfl
@[simp] theorem State.modThm_cmp (f : ThmSt → ThmSt) : (s.modThm f).cmp = s.cmp := rfl
@[simp] theorem State.modThm_scn (f : ThmSt → ThmSt) : (s.modThm f).scn = s.scn := rfl
@[simp] theorem State.modThm_pnl (f : ThmSt → ThmSt) : (s.modThm f).pnl = s.pnl := rfl
@[simp] theorem State.modThm_dec (f : ThmSt → ThmSt) : (s.modThm f).dec = s.dec := rfl
@[simp] theorem State.modThm_thm (f : ThmSt → ThmSt) : (s.modThm f).thm = f s.thm := rfl
@[simp] theorem State.modThm_blt (f : ThmSt → ThmSt) : (s.modThm f).blt = s.blt := rfl
@[simp] theorem State.modThm_enc (f : ThmSt → ThmSt) : (s.modThm f).enc = s.enc := rfl
@[simp] theorem State.modThm_cal (f : ThmSt → ThmSt) : (s.modThm f).cal = s.cal := rfl
@[simp] theorem State.modThm_lanes (f : ThmSt → ThmSt) : (s.modThm f).lanes = s.lanes := rfl
@[simp] theorem State.modThm_rope (f : ThmSt → ThmSt) : (s.modThm f).rope = s.rope := rfl
@[simp] theorem State.modThm_word (f : ThmSt → ThmSt) (o : Nat) : (s.modThm f).word o = s.word o := rfl
@[simp] theorem State.modThm_rd (f : ThmSt → ThmSt) (g : Fld) : (s.modThm f).rd g = s.rd g := rfl
@[simp] theorem State.modThm_rdB (f : ThmSt → ThmSt) (g : Fld) : (s.modThm f).rdB g = s.rdB g := rfl

/-! ## modBlt -/

@[simp] theorem State.modBlt_pending (f : BltSt → BltSt) : (s.modBlt f).pending = s.pending := rfl
@[simp] theorem State.modBlt_out (f : BltSt → BltSt) : (s.modBlt f).out = s.out := rfl
@[simp] theorem State.modBlt_freeCtr (f : BltSt → BltSt) : (s.modBlt f).freeCtr = s.freeCtr := rfl
@[simp] theorem State.modBlt_airCooled (f : BltSt → BltSt) : (s.modBlt f).airCooled = s.airCooled := rfl
@[simp] theorem State.modBlt_regs (f : BltSt → BltSt) : (s.modBlt f).regs = s.regs := rfl
@[simp] theorem State.modBlt_live (f : BltSt → BltSt) : (s.modBlt f).live = s.live := rfl
@[simp] theorem State.modBlt_tim (f : BltSt → BltSt) : (s.modBlt f).tim = s.tim := rfl
@[simp] theorem State.modBlt_evt (f : BltSt → BltSt) : (s.modBlt f).evt = s.evt := rfl
@[simp] theorem State.modBlt_hif (f : BltSt → BltSt) : (s.modBlt f).hif = s.hif := rfl
@[simp] theorem State.modBlt_mem (f : BltSt → BltSt) : (s.modBlt f).mem = s.mem := rfl
@[simp] theorem State.modBlt_pwr (f : BltSt → BltSt) : (s.modBlt f).pwr = s.pwr := rfl
@[simp] theorem State.modBlt_nvs (f : BltSt → BltSt) : (s.modBlt f).nvs = s.nvs := rfl
@[simp] theorem State.modBlt_syn (f : BltSt → BltSt) : (s.modBlt f).syn = s.syn := rfl
@[simp] theorem State.modBlt_cmp (f : BltSt → BltSt) : (s.modBlt f).cmp = s.cmp := rfl
@[simp] theorem State.modBlt_scn (f : BltSt → BltSt) : (s.modBlt f).scn = s.scn := rfl
@[simp] theorem State.modBlt_pnl (f : BltSt → BltSt) : (s.modBlt f).pnl = s.pnl := rfl
@[simp] theorem State.modBlt_dec (f : BltSt → BltSt) : (s.modBlt f).dec = s.dec := rfl
@[simp] theorem State.modBlt_thm (f : BltSt → BltSt) : (s.modBlt f).thm = s.thm := rfl
@[simp] theorem State.modBlt_blt (f : BltSt → BltSt) : (s.modBlt f).blt = f s.blt := rfl
@[simp] theorem State.modBlt_enc (f : BltSt → BltSt) : (s.modBlt f).enc = s.enc := rfl
@[simp] theorem State.modBlt_cal (f : BltSt → BltSt) : (s.modBlt f).cal = s.cal := rfl
@[simp] theorem State.modBlt_lanes (f : BltSt → BltSt) : (s.modBlt f).lanes = s.lanes := rfl
@[simp] theorem State.modBlt_rope (f : BltSt → BltSt) : (s.modBlt f).rope = s.rope := rfl
@[simp] theorem State.modBlt_word (f : BltSt → BltSt) (o : Nat) : (s.modBlt f).word o = s.word o := rfl
@[simp] theorem State.modBlt_rd (f : BltSt → BltSt) (g : Fld) : (s.modBlt f).rd g = s.rd g := rfl
@[simp] theorem State.modBlt_rdB (f : BltSt → BltSt) (g : Fld) : (s.modBlt f).rdB g = s.rdB g := rfl

/-! ## modEnc -/

@[simp] theorem State.modEnc_pending (f : EncSt → EncSt) : (s.modEnc f).pending = s.pending := rfl
@[simp] theorem State.modEnc_out (f : EncSt → EncSt) : (s.modEnc f).out = s.out := rfl
@[simp] theorem State.modEnc_freeCtr (f : EncSt → EncSt) : (s.modEnc f).freeCtr = s.freeCtr := rfl
@[simp] theorem State.modEnc_airCooled (f : EncSt → EncSt) : (s.modEnc f).airCooled = s.airCooled := rfl
@[simp] theorem State.modEnc_regs (f : EncSt → EncSt) : (s.modEnc f).regs = s.regs := rfl
@[simp] theorem State.modEnc_live (f : EncSt → EncSt) : (s.modEnc f).live = s.live := rfl
@[simp] theorem State.modEnc_tim (f : EncSt → EncSt) : (s.modEnc f).tim = s.tim := rfl
@[simp] theorem State.modEnc_evt (f : EncSt → EncSt) : (s.modEnc f).evt = s.evt := rfl
@[simp] theorem State.modEnc_hif (f : EncSt → EncSt) : (s.modEnc f).hif = s.hif := rfl
@[simp] theorem State.modEnc_mem (f : EncSt → EncSt) : (s.modEnc f).mem = s.mem := rfl
@[simp] theorem State.modEnc_pwr (f : EncSt → EncSt) : (s.modEnc f).pwr = s.pwr := rfl
@[simp] theorem State.modEnc_nvs (f : EncSt → EncSt) : (s.modEnc f).nvs = s.nvs := rfl
@[simp] theorem State.modEnc_syn (f : EncSt → EncSt) : (s.modEnc f).syn = s.syn := rfl
@[simp] theorem State.modEnc_cmp (f : EncSt → EncSt) : (s.modEnc f).cmp = s.cmp := rfl
@[simp] theorem State.modEnc_scn (f : EncSt → EncSt) : (s.modEnc f).scn = s.scn := rfl
@[simp] theorem State.modEnc_pnl (f : EncSt → EncSt) : (s.modEnc f).pnl = s.pnl := rfl
@[simp] theorem State.modEnc_dec (f : EncSt → EncSt) : (s.modEnc f).dec = s.dec := rfl
@[simp] theorem State.modEnc_thm (f : EncSt → EncSt) : (s.modEnc f).thm = s.thm := rfl
@[simp] theorem State.modEnc_blt (f : EncSt → EncSt) : (s.modEnc f).blt = s.blt := rfl
@[simp] theorem State.modEnc_enc (f : EncSt → EncSt) : (s.modEnc f).enc = f s.enc := rfl
@[simp] theorem State.modEnc_cal (f : EncSt → EncSt) : (s.modEnc f).cal = s.cal := rfl
@[simp] theorem State.modEnc_lanes (f : EncSt → EncSt) : (s.modEnc f).lanes = s.lanes := rfl
@[simp] theorem State.modEnc_rope (f : EncSt → EncSt) : (s.modEnc f).rope = s.rope := rfl
@[simp] theorem State.modEnc_word (f : EncSt → EncSt) (o : Nat) : (s.modEnc f).word o = s.word o := rfl
@[simp] theorem State.modEnc_rd (f : EncSt → EncSt) (g : Fld) : (s.modEnc f).rd g = s.rd g := rfl
@[simp] theorem State.modEnc_rdB (f : EncSt → EncSt) (g : Fld) : (s.modEnc f).rdB g = s.rdB g := rfl

/-! ## modCal -/

@[simp] theorem State.modCal_pending (f : CalSt → CalSt) : (s.modCal f).pending = s.pending := rfl
@[simp] theorem State.modCal_out (f : CalSt → CalSt) : (s.modCal f).out = s.out := rfl
@[simp] theorem State.modCal_freeCtr (f : CalSt → CalSt) : (s.modCal f).freeCtr = s.freeCtr := rfl
@[simp] theorem State.modCal_airCooled (f : CalSt → CalSt) : (s.modCal f).airCooled = s.airCooled := rfl
@[simp] theorem State.modCal_regs (f : CalSt → CalSt) : (s.modCal f).regs = s.regs := rfl
@[simp] theorem State.modCal_live (f : CalSt → CalSt) : (s.modCal f).live = s.live := rfl
@[simp] theorem State.modCal_tim (f : CalSt → CalSt) : (s.modCal f).tim = s.tim := rfl
@[simp] theorem State.modCal_evt (f : CalSt → CalSt) : (s.modCal f).evt = s.evt := rfl
@[simp] theorem State.modCal_hif (f : CalSt → CalSt) : (s.modCal f).hif = s.hif := rfl
@[simp] theorem State.modCal_mem (f : CalSt → CalSt) : (s.modCal f).mem = s.mem := rfl
@[simp] theorem State.modCal_pwr (f : CalSt → CalSt) : (s.modCal f).pwr = s.pwr := rfl
@[simp] theorem State.modCal_nvs (f : CalSt → CalSt) : (s.modCal f).nvs = s.nvs := rfl
@[simp] theorem State.modCal_syn (f : CalSt → CalSt) : (s.modCal f).syn = s.syn := rfl
@[simp] theorem State.modCal_cmp (f : CalSt → CalSt) : (s.modCal f).cmp = s.cmp := rfl
@[simp] theorem State.modCal_scn (f : CalSt → CalSt) : (s.modCal f).scn = s.scn := rfl
@[simp] theorem State.modCal_pnl (f : CalSt → CalSt) : (s.modCal f).pnl = s.pnl := rfl
@[simp] theorem State.modCal_dec (f : CalSt → CalSt) : (s.modCal f).dec = s.dec := rfl
@[simp] theorem State.modCal_thm (f : CalSt → CalSt) : (s.modCal f).thm = s.thm := rfl
@[simp] theorem State.modCal_blt (f : CalSt → CalSt) : (s.modCal f).blt = s.blt := rfl
@[simp] theorem State.modCal_enc (f : CalSt → CalSt) : (s.modCal f).enc = s.enc := rfl
@[simp] theorem State.modCal_cal (f : CalSt → CalSt) : (s.modCal f).cal = f s.cal := rfl
@[simp] theorem State.modCal_lanes (f : CalSt → CalSt) : (s.modCal f).lanes = s.lanes := rfl
@[simp] theorem State.modCal_rope (f : CalSt → CalSt) : (s.modCal f).rope = s.rope := rfl
@[simp] theorem State.modCal_word (f : CalSt → CalSt) (o : Nat) : (s.modCal f).word o = s.word o := rfl
@[simp] theorem State.modCal_rd (f : CalSt → CalSt) (g : Fld) : (s.modCal f).rd g = s.rd g := rfl
@[simp] theorem State.modCal_rdB (f : CalSt → CalSt) (g : Fld) : (s.modCal f).rdB g = s.rdB g := rfl

/-! ## modTim -/

@[simp] theorem State.modTim_pending (f : TimSt → TimSt) : (s.modTim f).pending = s.pending := rfl
@[simp] theorem State.modTim_out (f : TimSt → TimSt) : (s.modTim f).out = s.out := rfl
@[simp] theorem State.modTim_freeCtr (f : TimSt → TimSt) : (s.modTim f).freeCtr = s.freeCtr := rfl
@[simp] theorem State.modTim_airCooled (f : TimSt → TimSt) : (s.modTim f).airCooled = s.airCooled := rfl
@[simp] theorem State.modTim_regs (f : TimSt → TimSt) : (s.modTim f).regs = s.regs := rfl
@[simp] theorem State.modTim_live (f : TimSt → TimSt) : (s.modTim f).live = s.live := rfl
@[simp] theorem State.modTim_tim (f : TimSt → TimSt) : (s.modTim f).tim = f s.tim := rfl
@[simp] theorem State.modTim_evt (f : TimSt → TimSt) : (s.modTim f).evt = s.evt := rfl
@[simp] theorem State.modTim_hif (f : TimSt → TimSt) : (s.modTim f).hif = s.hif := rfl
@[simp] theorem State.modTim_mem (f : TimSt → TimSt) : (s.modTim f).mem = s.mem := rfl
@[simp] theorem State.modTim_pwr (f : TimSt → TimSt) : (s.modTim f).pwr = s.pwr := rfl
@[simp] theorem State.modTim_nvs (f : TimSt → TimSt) : (s.modTim f).nvs = s.nvs := rfl
@[simp] theorem State.modTim_syn (f : TimSt → TimSt) : (s.modTim f).syn = s.syn := rfl
@[simp] theorem State.modTim_cmp (f : TimSt → TimSt) : (s.modTim f).cmp = s.cmp := rfl
@[simp] theorem State.modTim_scn (f : TimSt → TimSt) : (s.modTim f).scn = s.scn := rfl
@[simp] theorem State.modTim_pnl (f : TimSt → TimSt) : (s.modTim f).pnl = s.pnl := rfl
@[simp] theorem State.modTim_dec (f : TimSt → TimSt) : (s.modTim f).dec = s.dec := rfl
@[simp] theorem State.modTim_thm (f : TimSt → TimSt) : (s.modTim f).thm = s.thm := rfl
@[simp] theorem State.modTim_blt (f : TimSt → TimSt) : (s.modTim f).blt = s.blt := rfl
@[simp] theorem State.modTim_enc (f : TimSt → TimSt) : (s.modTim f).enc = s.enc := rfl
@[simp] theorem State.modTim_cal (f : TimSt → TimSt) : (s.modTim f).cal = s.cal := rfl
@[simp] theorem State.modTim_lanes (f : TimSt → TimSt) : (s.modTim f).lanes = s.lanes := rfl
@[simp] theorem State.modTim_rope (f : TimSt → TimSt) : (s.modTim f).rope = s.rope := rfl
@[simp] theorem State.modTim_word (f : TimSt → TimSt) (o : Nat) : (s.modTim f).word o = s.word o := rfl
@[simp] theorem State.modTim_rd (f : TimSt → TimSt) (g : Fld) : (s.modTim f).rd g = s.rd g := rfl
@[simp] theorem State.modTim_rdB (f : TimSt → TimSt) (g : Fld) : (s.modTim f).rdB g = s.rdB g := rfl

/-! ## modLane -/

@[simp] theorem State.modLane_pending (n : Nat) (f : Lane → Lane) : (s.modLane n f).pending = s.pending := rfl
@[simp] theorem State.modLane_out (n : Nat) (f : Lane → Lane) : (s.modLane n f).out = s.out := rfl
@[simp] theorem State.modLane_freeCtr (n : Nat) (f : Lane → Lane) : (s.modLane n f).freeCtr = s.freeCtr := rfl
@[simp] theorem State.modLane_airCooled (n : Nat) (f : Lane → Lane) : (s.modLane n f).airCooled = s.airCooled := rfl
@[simp] theorem State.modLane_regs (n : Nat) (f : Lane → Lane) : (s.modLane n f).regs = s.regs := rfl
@[simp] theorem State.modLane_live (n : Nat) (f : Lane → Lane) : (s.modLane n f).live = s.live := rfl
@[simp] theorem State.modLane_tim (n : Nat) (f : Lane → Lane) : (s.modLane n f).tim = s.tim := rfl
@[simp] theorem State.modLane_evt (n : Nat) (f : Lane → Lane) : (s.modLane n f).evt = s.evt := rfl
@[simp] theorem State.modLane_hif (n : Nat) (f : Lane → Lane) : (s.modLane n f).hif = s.hif := rfl
@[simp] theorem State.modLane_mem (n : Nat) (f : Lane → Lane) : (s.modLane n f).mem = s.mem := rfl
@[simp] theorem State.modLane_pwr (n : Nat) (f : Lane → Lane) : (s.modLane n f).pwr = s.pwr := rfl
@[simp] theorem State.modLane_nvs (n : Nat) (f : Lane → Lane) : (s.modLane n f).nvs = s.nvs := rfl
@[simp] theorem State.modLane_syn (n : Nat) (f : Lane → Lane) : (s.modLane n f).syn = s.syn := rfl
@[simp] theorem State.modLane_cmp (n : Nat) (f : Lane → Lane) : (s.modLane n f).cmp = s.cmp := rfl
@[simp] theorem State.modLane_scn (n : Nat) (f : Lane → Lane) : (s.modLane n f).scn = s.scn := rfl
@[simp] theorem State.modLane_pnl (n : Nat) (f : Lane → Lane) : (s.modLane n f).pnl = s.pnl := rfl
@[simp] theorem State.modLane_dec (n : Nat) (f : Lane → Lane) : (s.modLane n f).dec = s.dec := rfl
@[simp] theorem State.modLane_thm (n : Nat) (f : Lane → Lane) : (s.modLane n f).thm = s.thm := rfl
@[simp] theorem State.modLane_blt (n : Nat) (f : Lane → Lane) : (s.modLane n f).blt = s.blt := rfl
@[simp] theorem State.modLane_enc (n : Nat) (f : Lane → Lane) : (s.modLane n f).enc = s.enc := rfl
@[simp] theorem State.modLane_cal (n : Nat) (f : Lane → Lane) : (s.modLane n f).cal = s.cal := rfl
@[simp] theorem State.modLane_lanes (n : Nat) (f : Lane → Lane) : (s.modLane n f).lanes = s.lanes.modify n f := rfl
@[simp] theorem State.modLane_rope (n : Nat) (f : Lane → Lane) : (s.modLane n f).rope = s.rope := rfl
@[simp] theorem State.modLane_word (n : Nat) (f : Lane → Lane) (o : Nat) : (s.modLane n f).word o = s.word o := rfl
@[simp] theorem State.modLane_rd (n : Nat) (f : Lane → Lane) (g : Fld) : (s.modLane n f).rd g = s.rd g := rfl
@[simp] theorem State.modLane_rdB (n : Nat) (f : Lane → Lane) (g : Fld) : (s.modLane n f).rdB g = s.rdB g := rfl

end Sys2Proof.Machine
end

