-- ==== Sys2Proof/Laws/Events.lean ====
section
/-!
SUPPORT. What raising events does: `EventsOnly` holds of every operation of the event path, and the status bit of a raised source is
set.
-/
namespace Sys2Proof.Machine

theorem EventsOnly.refl (s : State) : EventsOnly s s := ⟨fun _ _ => rfl, fun _ _ h => h, rfl, rfl, ⟨[], rfl⟩, rfl⟩

theorem EventsOnly.trans {s t u : State} (h : EventsOnly s t) (k : EventsOnly t u) : EventsOnly s u where
  words := fun off ho => (k.words off ho).trans (h.words off ho)
  status := fun src hs h1 => k.status src hs (h.status src hs h1)
  hif := by rw [k.hif, h.hif]
  nvs := by rw [k.nvs, h.nvs]
  sent := by
    obtain ⟨l, hl⟩ := h.sent
    obtain ⟨m, hm⟩ := k.sent
    exact ⟨m ++ l, by rw [hm, hl, List.append_assoc]⟩
  rest := by rw [k.rest, h.rest]

/-- Writing a field of the event ring's registers is within the event path. -/
theorem State.wr_events (s : State) (f : Fld) (v : Nat) (h : evtReg f.off = true) (hl : 0x20040 ≤ f.off) :
    EventsOnly s (s.wr f v) where
  words := fun off ho => s.word_wr_ne f v fun he => by rw [he, h] at ho; cases ho
  status := fun src hs h1 => by
    have hne : (evtStatusFld src).off ≠ f.off := by
      simp only [evtStatusFld]
      omega
    unfold State.rd at h1 ⊢
    rwa [s.word_wr_ne f v hne]
  hif := rfl
  nvs := rfl
  sent := ⟨[], rfl⟩
  rest := rfl

theorem State.errLogWrite_events (s : State) (src rt frame : Nat) : EventsOnly s (s.errLogWrite src rt frame) :=
  ⟨fun _ _ => rfl, fun _ _ h => h, rfl, rfl, ⟨[], rfl⟩, rfl⟩

theorem State.errLog_events (s : State) (src : Nat) : EventsOnly s (s.errLog src) := by
  unfold State.errLog
  dsimp only
  split
  · exact .refl s
  · split
    · exact ⟨fun _ _ => rfl, fun _ _ h => h, rfl, rfl, ⟨[], rfl⟩, rfl⟩
    · exact ⟨fun _ _ => rfl, fun _ _ h => h, rfl, rfl, ⟨[], rfl⟩, rfl⟩

theorem evtStatusFld_evtReg {src : Nat} (h : src < 512) : evtReg (evtStatusFld src).off = true := by
  have : src / 32 < 16 := by omega
  simp only [evtReg, evtStatusFld, Bool.or_eq_true, Bool.and_eq_true]
  exact .inl (.inl (.inl ⟨decide_eq_true (by omega), decide_eq_true (by omega)⟩))

theorem evtInUse_lt {src : Nat} (h : evtInUse src = true) : src < 512 := by
  by_contra hn
  have h16 : 16 ≤ src / 32 := by omega
  have h0 : evtGroupSize.getD (src / 32) 0 = 0 := List.getD_eq_default _ _ h16
  have := of_decide_eq_true h
  omega

/-- Setting a status bit. -/
theorem State.wr_status_events (s : State) {src : Nat} (h : src < 512) : EventsOnly s (s.wr (evtStatusFld src) 1) where
  words := fun off ho => s.word_wr_ne _ 1 fun he => by rw [he, evtStatusFld_evtReg h] at ho; cases ho
  status := fun i hi h1 => by
    have hw : (evtStatusFld src).lo + (evtStatusFld src).len ≤ 32 := by
      simp only [evtStatusFld]
      omega
    rcases eq_or_ne i src with rfl | hne
    · exact s.rd_wr_same _ 1 hw
    · rw [s.rd_wr_ne _ _ 1 hw]
      · exact h1
      · simp only [evtStatusFld]
        omega
  hif := rfl
  nvs := rfl
  sent := ⟨[], rfl⟩
  rest := rfl

theorem State.evtStatus_events (s : State) {src : Nat} (h : src < 512) : EventsOnly s (s.evtStatus src) :=
  (s.wr_status_events h).trans (State.errLog_events _ src)

/-- The status bit of an occurrence is set. -/
theorem State.evtStatus_set (s : State) {src : Nat} (h : src < 512) : (s.evtStatus src).rd (evtStatusFld src) = 1 := by
  refine (State.errLog_events (s.wr (evtStatusFld src) 1) src).status src h (s.rd_wr_same _ 1 ?_)
  simp only [evtStatusFld]
  omega

theorem State.signal_events (s : State) (v : Nat) : EventsOnly s (s.signal v) where
  words := fun _ _ => rfl
  status := fun _ _ h => h
  hif := by
    unfold State.signal
    dsimp only
    split <;> rfl
  nvs := rfl
  sent := by
    unfold State.signal
    dsimp only
    split
    · exact ⟨[], rfl⟩
    · exact ⟨[_], rfl⟩
  rest := rfl

theorem State.emit_events (s : State) (o : Out) : EventsOnly s (s.emit o) := ⟨fun _ _ => rfl, fun _ _ h => h, rfl, rfl, ⟨[o], rfl⟩, rfl⟩

/-- The event unit's own state is within the event path. -/
theorem EventsOnly.set_evt {s t : State} (h : EventsOnly s t) (x : EvtSt) : EventsOnly s { t with evt := x } :=
  h.trans ⟨fun _ _ => rfl, fun _ _ h => h, rfl, rfl, ⟨[], rfl⟩, rfl⟩

theorem State.evtWrite_events (s : State) (src count frame rt : Nat) : EventsOnly s (s.evtWrite src count frame rt) := by
  unfold State.evtWrite
  dsimp only
  refine EventsOnly.trans ?_ (State.signal_events _ _)
  exact ((s.emit_events _).trans (State.wr_events _ F.EVT_RING_PI_INDEX _ rfl (by decide))).set_evt _

theorem State.setEvtSrc_events (s : State) (e : EvtSrc) : EventsOnly s (s.setEvtSrc e) :=
  ⟨fun _ _ => rfl, fun _ _ h => h, rfl, rfl, ⟨[], rfl⟩, rfl⟩

theorem State.evtStart_events (s : State) (src : Nat) : EventsOnly s (s.evtStart src) := by
  unfold State.evtStart
  split
  · exact .refl s
  · exact s.setEvtSrc_events _

theorem State.evtHold_events (s : State) (h : HeldEvt) (running : Bool) : EventsOnly s (s.evtHold h running) := by
  unfold State.evtHold
  split
  · split <;> exact s.setEvtSrc_events _
  · exact s.setEvtSrc_events _

theorem State.evtOccur_events (s : State) (h : HeldEvt) {deliver : State → State} (hd : ∀ s, EventsOnly s (deliver s)) :
    EventsOnly s (s.evtOccur h deliver) := by
  unfold State.evtOccur
  split
  · exact .refl s
  split
  · exact s.evtHold_events h false
  split
  · exact s.evtHold_events h true
  · exact (hd s).trans (State.evtStart_events _ h.src)

theorem State.deliverVector_events (s : State) (src : Nat) : EventsOnly s (s.deliverVector src) := s.signal_events _

theorem State.raiseOvf_events (s : State) : EventsOnly s s.raiseOvf :=
  (s.evtStatus_events (by omega)).trans (State.evtOccur_events _ (State.evtNow _ 481) fun s => s.deliverVector_events 481)

theorem State.deliver_events (s : State) (src count frame rt : Nat) : EventsOnly s (s.deliver src count frame rt) := by
  unfold State.deliver
  dsimp only
  split
  · split
    · exact s.evtWrite_events src count frame rt
    · refine EventsOnly.trans ?_ (State.raiseOvf_events _)
      exact ((State.wr_events s F.EVT_CNT_LOST_COUNT _ rfl (by decide)).trans (State.wr_events _ F.EVT_RING_STATUS_OVF _ rfl (by decide))).set_evt _
  · exact s.deliverVector_events src

theorem State.occurNow_events (s : State) (h : HeldEvt) : EventsOnly s (s.occurNow h) :=
  s.evtOccur_events h fun s => s.deliver_events h.src 1 h.frame h.rt

theorem State.occurHeld_events (s : State) (h : HeldEvt) : EventsOnly s (s.occurHeld h) := by
  unfold State.occurHeld
  split
  · exact (EventsOnly.refl s).set_evt _
  · exact s.occurNow_events h

theorem State.occur_events (s : State) (src : Nat) : EventsOnly s (s.occur src) := by
  unfold State.occur
  split
  · exact s.occurHeld_events _
  · exact .refl s

/-- Raising a source is within the event path. -/
theorem State.raise_events (s : State) (src : Nat) : EventsOnly s (s.raise src) := by
  unfold State.raise
  split
  · rename_i h
    rw [Bool.and_eq_true] at h
    exact (s.evtStatus_events (evtInUse_lt h.1)).trans (State.occur_events _ src)
  · exact .refl s

/-- A raised source's status bit is set, while event state exists. -/
theorem State.raise_status (s : State) {src : Nat} (h : evtInUse src = true) (hp : (s.awake || s.pwr.st == .s3) = true) :
    (s.raise src).rd (evtStatusFld src) = 1 := by
  unfold State.raise
  rw [if_pos (by rw [h, hp]; rfl)]
  exact (State.occur_events _ src).status src (evtInUse_lt h) (s.evtStatus_set (evtInUse_lt h))

/-- A register that is no event register keeps its word. -/
theorem State.raise_word (s : State) (src : Nat) {off : Nat} (h : evtReg off = false) : (s.raise src).word off = s.word off :=
  (s.raise_events src).words off h

/-- A field of a register that is no event register keeps its value. -/
theorem State.raise_rd (s : State) (src : Nat) {f : Fld} (h : evtReg f.off = false) : (s.raise src).rd f = s.rd f := by
  unfold State.rd
  rw [s.raise_word src h]

theorem State.raise_rdB (s : State) (src : Nat) {f : Fld} (h : evtReg f.off = false) : (s.raise src).rdB f = s.rdB f := by
  unfold State.rdB
  rw [s.raise_rd src h]

theorem State.raise_rings (s : State) (src : Nat) : (s.raise src).hif.rings = s.hif.rings := by rw [(s.raise_events src).hif]

theorem State.raise_flash (s : State) (src : Nat) : (s.raise src).nvs.flash = s.nvs.flash := by rw [(s.raise_events src).nvs]

@[simp] theorem State.raise_pending (s : State) (src : Nat) : (s.raise src).pending = s.pending := by rw [(s.raise_events src).rest]
@[simp] theorem State.raise_airCooled (s : State) (src : Nat) : (s.raise src).airCooled = s.airCooled := by rw [(s.raise_events src).rest]
@[simp] theorem State.raise_live (s : State) (src : Nat) : (s.raise src).live = s.live := by rw [(s.raise_events src).rest]
@[simp] theorem State.raise_tim (s : State) (src : Nat) : (s.raise src).tim = s.tim := by rw [(s.raise_events src).rest]
@[simp] theorem State.raise_mem (s : State) (src : Nat) : (s.raise src).mem = s.mem := by rw [(s.raise_events src).rest]
@[simp] theorem State.raise_pwr (s : State) (src : Nat) : (s.raise src).pwr = s.pwr := by rw [(s.raise_events src).rest]
@[simp] theorem State.raise_syn (s : State) (src : Nat) : (s.raise src).syn = s.syn := by rw [(s.raise_events src).rest]
@[simp] theorem State.raise_cmp (s : State) (src : Nat) : (s.raise src).cmp = s.cmp := by rw [(s.raise_events src).rest]
@[simp] theorem State.raise_scn (s : State) (src : Nat) : (s.raise src).scn = s.scn := by rw [(s.raise_events src).rest]
@[simp] theorem State.raise_pnl (s : State) (src : Nat) : (s.raise src).pnl = s.pnl := by rw [(s.raise_events src).rest]
@[simp] theorem State.raise_dec (s : State) (src : Nat) : (s.raise src).dec = s.dec := by rw [(s.raise_events src).rest]
@[simp] theorem State.raise_thm (s : State) (src : Nat) : (s.raise src).thm = s.thm := by rw [(s.raise_events src).rest]
@[simp] theorem State.raise_blt (s : State) (src : Nat) : (s.raise src).blt = s.blt := by rw [(s.raise_events src).rest]
@[simp] theorem State.raise_enc (s : State) (src : Nat) : (s.raise src).enc = s.enc := by rw [(s.raise_events src).rest]
@[simp] theorem State.raise_cal (s : State) (src : Nat) : (s.raise src).cal = s.cal := by rw [(s.raise_events src).rest]
@[simp] theorem State.raise_lanes (s : State) (src : Nat) : (s.raise src).lanes = s.lanes := by rw [(s.raise_events src).rest]
@[simp] theorem State.raise_rope (s : State) (src : Nat) : (s.raise src).rope = s.rope := by rw [(s.raise_events src).rest]

/-- Raising several sources is within the event path. -/
theorem State.raiseAll_events (s : State) (l : List Nat) : EventsOnly s (s.raiseAll l) := by
  induction l generalizing s with
  | nil => exact .refl s
  | cons e es ih => exact (s.raise_events e).trans (ih _)

end Sys2Proof.Machine
end

