-- ==== Sys2Proof/Laws/Tick.lean ====
section
/-!
SUPPORT. What each operation of Machine/Tick.lean leaves alone (see Laws/Keeps.lean).
-/
namespace Sys2Proof.Machine

theorem NvsSt.s0Tick_wf {n : NvsSt} {st : PwrState} (h : Stores.wf n = true) : Stores.wf (n.s0Tick st) = true := by
  unfold NvsSt.s0Tick
  split
  · exact Stores.wf_of rfl rfl h
  · exact h

theorem NvsSt.s0Tick_flash (n : NvsSt) (st : PwrState) : (n.s0Tick st).flash = n.flash := by
  unfold NvsSt.s0Tick
  split <;> rfl

theorem State.usTick_keeps {P : Nat} {r₀ : State} {s : State} (hP : 4 ||| P = P) (hs : Keeps P r₀ s) :
    Keeps P r₀ (State.usTick s) := by
  unfold State.usTick
  try dsimp only
  repeat' (first
    | with_reducible assumption
    | intro _
    | with_reducible apply State.bump_keeps
    | with_reducible apply keeps_ite)

theorem tick_keeps {P : Nat} {r₀ : State} {s : State} (hP : 532 ||| P = P) (hs : Keeps P r₀ s) :
    Keeps P r₀ (tick s) := by
  unfold tick
  try dsimp only
  repeat' (first
    | with_reducible assumption
    | (refine mask_mono ?_ hP; rfl)
    | (intro (_ : State); try dsimp only)
    | (intro _ (_ : Keeps _ _ _); try dsimp only)
    | with_reducible apply State.usTick_keeps
    | with_reducible apply keeps_ite
    | exact NvsSt.s0Tick_wf
    | exact NvsSt.s0Tick_flash _ _
    | exact fun hw => Stores.wf_of rfl rfl hw
    | exact rfl
    | split
    | with_reducible apply Keeps.set_tim_nvs)

end Sys2Proof.Machine
end

