-- ==== Sys2Proof/Laws/Exec.lean ====
section
/-!
SUPPORT. What each command leaves alone: one lemma per meaning, from the lemmas of the operations it calls.
-/
namespace Sys2Proof.Machine

theorem execEvtEnable_keeps {t₀ : State} {g : Nat} {val : Word} {s : State} (he : execEvtEnable g val s = .next t₀) : Keeps 615 s t₀ := by
  obtain ⟨P, hPP⟩ : ∃ P, P = 615 := ⟨_, rfl⟩
  have hP : 615 ||| P = P := by rw [hPP]; rfl
  have hs : Keeps P s s := Keeps.refl _ _
  rw [← hPP]
  unfold execEvtEnable at he
  injection he with he
  rw [← he]
  clear he
  repeat' (first
    | with_reducible assumption
    | with_reducible apply State.writeEvtEnable_keeps
    | with_reducible apply keeps_ite)

theorem execEvtTest_keeps {t₀ : State} {src : Nat} {s : State} (he : execEvtTest src s = .next t₀) : Keeps 615 s t₀ := by
  obtain ⟨P, hPP⟩ : ∃ P, P = 615 := ⟨_, rfl⟩
  have hP : 615 ||| P = P := by rw [hPP]; rfl
  have hs : Keeps P s s := Keeps.refl _ _
  rw [← hPP]
  unfold execEvtTest at he
  injection he with he
  rw [← he]
  clear he
  repeat' (first
    | with_reducible assumption
    | (refine mask_mono ?_ hP; rfl)
    | with_reducible apply State.wr_keeps
    | with_reducible apply State.raise_keeps
    | with_reducible apply keeps_ite)

theorem execEventCoalesceExpiry_keeps {t₀ : State} {src : Nat} {s : State} (he : execEventCoalesceExpiry src s = .next t₀) : Keeps 615 s t₀ := by
  obtain ⟨P, hPP⟩ : ∃ P, P = 615 := ⟨_, rfl⟩
  have hP : 615 ||| P = P := by rw [hPP]; rfl
  have hs : Keeps P s s := Keeps.refl _ _
  rw [← hPP]
  unfold execEventCoalesceExpiry at he
  injection he with he
  rw [← he]
  clear he
  repeat' (first
    | with_reducible assumption
    | with_reducible apply State.coalesceExpire_keeps)

theorem execEvtRing_keeps {t₀ : State} {ring : Nat} {s : State} (he : execEvtRing ring s = .next t₀) : Keeps 614 s t₀ := by
  obtain ⟨P, hPP⟩ : ∃ P, P = 614 := ⟨_, rfl⟩
  have hP : 614 ||| P = P := by rw [hPP]; rfl
  have hs : Keeps P s s := Keeps.refl _ _
  rw [← hPP]
  unfold execEvtRing at he
  injection he with he
  rw [← he]
  clear he
  repeat' (first
    | with_reducible assumption
    | with_reducible apply State.opEvtRing_keeps)

theorem execMsixTableWrite_keeps {t₀ : State} {off : Nat} {val : Word} {s : State} (he : execMsixTableWrite off val s = .next t₀) : Keeps 65 s t₀ := by
  obtain ⟨P, hPP⟩ : ∃ P, P = 65 := ⟨_, rfl⟩
  have hP : 65 ||| P = P := by rw [hPP]; rfl
  have hs : Keeps P s s := Keeps.refl _ _
  rw [← hPP]
  unfold execMsixTableWrite at he
  injection he with he
  rw [← he]
  clear he
  repeat' (first
    | with_reducible assumption
    | with_reducible apply State.writeMsix_keeps
    | with_reducible apply keeps_ite)

theorem execGlbFwNotice_keeps {t₀ : State} {s : State} (he : execGlbFwNotice s = .next t₀) : Keeps 615 s t₀ := by
  obtain ⟨P, hPP⟩ : ∃ P, P = 615 := ⟨_, rfl⟩
  have hP : 615 ||| P = P := by rw [hPP]; rfl
  have hs : Keeps P s s := Keeps.refl _ _
  rw [← hPP]
  unfold execGlbFwNotice at he
  injection he with he
  rw [← he]
  clear he
  repeat' (first
    | with_reducible assumption
    | with_reducible apply State.raise_keeps
    | with_reducible apply keeps_ite)

theorem execBar0UnsupportedAccess_keeps {t₀ : State} {off : Nat} {size : Nat} {_write : Bool} {s : State} (he : execBar0UnsupportedAccess off size _write s = .next t₀) : Keeps 1 s t₀ := by
  obtain ⟨P, hPP⟩ : ∃ P, P = 1 := ⟨_, rfl⟩
  have hP : 1 ||| P = P := by rw [hPP]; rfl
  have hs : Keeps P s s := Keeps.refl _ _
  rw [← hPP]
  unfold execBar0UnsupportedAccess at he
  injection he with he
  rw [← he]
  clear he
  repeat' (first
    | with_reducible assumption
    | with_reducible apply State.emit_keeps
    | with_reducible apply keeps_ite)

theorem execLinkUp_keeps {t₀ : State} {cxl : Bool} {width : Nat} {gts : Nat} {s : State} (he : execLinkUp cxl width gts s = .next t₀) : Keeps 615 s t₀ := by
  obtain ⟨P, hPP⟩ : ∃ P, P = 615 := ⟨_, rfl⟩
  have hP : 615 ||| P = P := by rw [hPP]; rfl
  have hs : Keeps P s s := Keeps.refl _ _
  rw [← hPP]
  unfold execLinkUp at he
  injection he with he
  rw [← he]
  clear he
  repeat' (first
    | with_reducible assumption
    | with_reducible apply State.linkTrain_keeps
    | with_reducible apply keeps_ite)

theorem execHifCxlRas_keeps {t₀ : State} {s : State} (he : execHifCxlRas s = .next t₀) : Keeps 615 s t₀ := by
  obtain ⟨P, hPP⟩ : ∃ P, P = 615 := ⟨_, rfl⟩
  have hP : 615 ||| P = P := by rw [hPP]; rfl
  have hs : Keeps P s s := Keeps.refl _ _
  rw [← hPP]
  unfold execHifCxlRas at he
  injection he with he
  rw [← he]
  clear he
  repeat' (first
    | with_reducible assumption
    | with_reducible apply State.raise_keeps
    | with_reducible apply keeps_ite)

theorem execFeaturesOk_keeps {t₀ : State} {s : State} (he : execFeaturesOk s = .next t₀) : Keeps 615 s t₀ := by
  obtain ⟨P, hPP⟩ : ∃ P, P = 615 := ⟨_, rfl⟩
  have hP : 615 ||| P = P := by rw [hPP]; rfl
  have hs : Keeps P s s := Keeps.refl _ _
  rw [← hPP]
  unfold execFeaturesOk at he
  injection he with he
  rw [← he]
  clear he
  repeat' (first
    | with_reducible assumption
    | with_reducible apply State.setFeaturesOk_keeps
    | with_reducible apply keeps_ite)

theorem execEnable_keeps {t₀ : State} {features : Bool} {pi : Nat} {ci : Nat} {s : State} (he : execEnable features pi ci s = .next t₀) : Keeps 615 s t₀ := by
  obtain ⟨P, hPP⟩ : ∃ P, P = 615 := ⟨_, rfl⟩
  have hP : 615 ||| P = P := by rw [hPP]; rfl
  have hs : Keeps P s s := Keeps.refl _ _
  rw [← hPP]
  unfold execEnable at he
  injection he with he
  rw [← he]
  clear he
  repeat' (first
    | with_reducible assumption
    | with_reducible apply State.enableRing0_keeps
    | with_reducible apply keeps_ite)

theorem execDoorbellSnoop_keeps {t₀ : State} {ring : Nat} {s : State} (he : execDoorbellSnoop ring s = .next t₀) : Keeps 64 s t₀ := by
  obtain ⟨P, hPP⟩ : ∃ P, P = 64 := ⟨_, rfl⟩
  have hP : 64 ||| P = P := by rw [hPP]; rfl
  have hs : Keeps P s s := Keeps.refl _ _
  rw [← hPP]
  unfold execDoorbellSnoop at he
  injection he with he
  rw [← he]
  clear he
  repeat' (first
    | with_reducible assumption
    | with_reducible apply State.setRing_keeps
    | with_reducible apply keeps_ite
    | split)

theorem execDoorbellReread_keeps {t₀ : State} {ring : Nat} {pi : Nat} {ci : Nat} {s : State} (he : execDoorbellReread ring pi ci s = .next t₀) : Keeps 615 s t₀ := by
  obtain ⟨P, hPP⟩ : ∃ P, P = 615 := ⟨_, rfl⟩
  have hP : 615 ||| P = P := by rw [hPP]; rfl
  have hs : Keeps P s s := Keeps.refl _ _
  rw [← hPP]
  unfold execDoorbellReread at he
  injection he with he
  rw [← he]
  clear he
  repeat' (first
    | with_reducible assumption
    | with_reducible apply State.readLine_keeps
    | with_reducible apply keeps_ite
    | split)

theorem execHifDbSq_keeps {t₀ : State} {ring : Nat} {val : Word} {s : State} (he : execHifDbSq ring val s = .next t₀) : Keeps 615 s t₀ := by
  obtain ⟨P, hPP⟩ : ∃ P, P = 615 := ⟨_, rfl⟩
  have hP : 615 ||| P = P := by rw [hPP]; rfl
  have hs : Keeps P s s := Keeps.refl _ _
  rw [← hPP]
  unfold execHifDbSq at he
  injection he with he
  rw [← he]
  clear he
  repeat' (first
    | with_reducible assumption
    | with_reducible apply State.writeDbSq_keeps
    | with_reducible apply keeps_ite)

theorem execHifDbCq_keeps {t₀ : State} {ring : Nat} {val : Word} {s : State} (he : execHifDbCq ring val s = .next t₀) : Keeps 68 s t₀ := by
  obtain ⟨P, hPP⟩ : ∃ P, P = 68 := ⟨_, rfl⟩
  have hP : 68 ||| P = P := by rw [hPP]; rfl
  have hs : Keeps P s s := Keeps.refl _ _
  rw [← hPP]
  unfold execHifDbCq at he
  injection he with he
  rw [← he]
  clear he
  repeat' (first
    | with_reducible assumption
    | with_reducible apply State.writeDbCq_keeps
    | with_reducible apply keeps_ite)

theorem execDescriptorFetch_keeps {t₀ : State} {ring : Nat} {bytes : List Byte} {s : State} (he : execDescriptorFetch ring bytes s = .next t₀) : Keeps 65 s t₀ := by
  obtain ⟨P, hPP⟩ : ∃ P, P = 65 := ⟨_, rfl⟩
  have hP : 65 ||| P = P := by rw [hPP]; rfl
  have hs : Keeps P s s := Keeps.refl _ _
  rw [← hPP]
  unfold execDescriptorFetch at he
  injection he with he
  rw [← he]
  clear he
  repeat' (first
    | with_reducible assumption
    | with_reducible apply State.fetchDesc_keeps
    | with_reducible apply keeps_ite
    | split)

theorem execDescriptorRetire_keeps {t₀ : State} {ring : Nat} {s : State} (he : execDescriptorRetire ring s = .next t₀) : Keeps 582 s t₀ := by
  obtain ⟨P, hPP⟩ : ∃ P, P = 582 := ⟨_, rfl⟩
  have hP : 582 ||| P = P := by rw [hPP]; rfl
  have hs : Keeps P s s := Keeps.refl _ _
  rw [← hPP]
  unfold execDescriptorRetire at he
  injection he with he
  rw [← he]
  clear he
  repeat' (first
    | with_reducible assumption
    | (refine mask_mono ?_ hP; rfl)
    | with_reducible apply State.refuseUnknown_keeps
    | with_reducible apply State.retireHead_keeps)

theorem execCompletionWrite_keeps {t₀ : State} {ring : Nat} {s : State} (he : execCompletionWrite ring s = .next t₀) : Keeps 295527 s t₀ := by
  obtain ⟨P, hPP⟩ : ∃ P, P = 295527 := ⟨_, rfl⟩
  have hP : 295527 ||| P = P := by rw [hPP]; rfl
  have hs : Keeps P s s := Keeps.refl _ _
  rw [← hPP]
  unfold execCompletionWrite at he
  injection he with he
  rw [← he]
  clear he
  repeat' (first
    | with_reducible assumption
    | with_reducible apply State.writeRecord_keeps)

theorem execCoalesceTimerExpiry_keeps {t₀ : State} {ring : Nat} {s : State} (he : execCoalesceTimerExpiry ring s = .next t₀) : Keeps 65 s t₀ := by
  obtain ⟨P, hPP⟩ : ∃ P, P = 65 := ⟨_, rfl⟩
  have hP : 65 ||| P = P := by rw [hPP]; rfl
  have hs : Keeps P s s := Keeps.refl _ _
  rw [← hPP]
  unfold execCoalesceTimerExpiry at he
  injection he with he
  rw [← he]
  clear he
  repeat' (first
    | with_reducible assumption
    | (refine mask_mono ?_ hP; rfl)
    | with_reducible apply State.setRing_keeps
    | with_reducible apply State.signal_keeps
    | with_reducible apply keeps_ite
    | split)

theorem execCreateRing_keeps {t₀ : State} {ring : Nat} {pi : Nat} {ci : Nat} {s : State} (he : execCreateRing ring pi ci s = .next t₀) : Keeps 615 s t₀ := by
  obtain ⟨P, hPP⟩ : ∃ P, P = 615 := ⟨_, rfl⟩
  have hP : 615 ||| P = P := by rw [hPP]; rfl
  have hs : Keeps P s s := Keeps.refl _ _
  rw [← hPP]
  unfold execCreateRing at he
  injection he with he
  rw [← he]
  clear he
  repeat' (first
    | with_reducible assumption
    | with_reducible apply State.opCreateRing_keeps)

theorem execNop_keeps {t₀ : State} {ring : Nat} {s : State} (he : execNop ring s = .next t₀) : Keeps 582 s t₀ := by
  obtain ⟨P, hPP⟩ : ∃ P, P = 582 := ⟨_, rfl⟩
  have hP : 582 ||| P = P := by rw [hPP]; rfl
  have hs : Keeps P s s := Keeps.refl _ _
  rw [← hPP]
  unfold execNop at he
  injection he with he
  rw [← he]
  clear he
  repeat' (first
    | with_reducible assumption
    | (intro (_ : State) _ (_ : Keeps _ _ _); try dsimp only)
    | (intro _ _ _ (_ : Keeps _ _ _); try dsimp only)
    | with_reducible apply State.withOp_keeps
    | with_reducible apply State.complete_keeps)

theorem execQueueAbort_keeps {t₀ : State} {ring : Nat} {s : State} (he : execQueueAbort ring s = .next t₀) : Keeps 582 s t₀ := by
  obtain ⟨P, hPP⟩ : ∃ P, P = 582 := ⟨_, rfl⟩
  have hP : 582 ||| P = P := by rw [hPP]; rfl
  have hs : Keeps P s s := Keeps.refl _ _
  rw [← hPP]
  unfold execQueueAbort at he
  injection he with he
  rw [← he]
  clear he
  repeat' (first
    | with_reducible assumption
    | (refine mask_mono ?_ hP; rfl)
    | (intro (_ : State) _ (_ : Keeps _ _ _); try dsimp only)
    | (intro _ _ _ (_ : Keeps _ _ _); try dsimp only)
    | with_reducible apply State.withOp_keeps
    | with_reducible apply State.beginAbort_keeps)

theorem execDeleteRing_keeps {t₀ : State} {ring : Nat} {s : State} (he : execDeleteRing ring s = .next t₀) : Keeps 582 s t₀ := by
  obtain ⟨P, hPP⟩ : ∃ P, P = 582 := ⟨_, rfl⟩
  have hP : 582 ||| P = P := by rw [hPP]; rfl
  have hs : Keeps P s s := Keeps.refl _ _
  rw [← hPP]
  unfold execDeleteRing at he
  injection he with he
  rw [← he]
  clear he
  repeat' (first
    | with_reducible assumption
    | (refine mask_mono ?_ hP; rfl)
    | (intro (_ : State) _ (_ : Keeps _ _ _); try dsimp only)
    | (intro _ _ _ (_ : Keeps _ _ _); try dsimp only)
    | with_reducible apply State.withOp_keeps
    | with_reducible apply State.beginAbort_keeps)

theorem execHifAbort_keeps {t₀ : State} {ring : Nat} {all : Bool} {s : State} (he : execHifAbort ring all s = .next t₀) : Keeps 615 s t₀ := by
  obtain ⟨P, hPP⟩ : ∃ P, P = 615 := ⟨_, rfl⟩
  have hP : 615 ||| P = P := by rw [hPP]; rfl
  have hs : Keeps P s s := Keeps.refl _ _
  rw [← hPP]
  unfold execHifAbort at he
  injection he with he
  rw [← he]
  clear he
  repeat' (first
    | with_reducible assumption
    | with_reducible apply State.startHifAbort_keeps
    | with_reducible apply keeps_ite)

theorem execShadowWrite_keeps {t₀ : State} {ring : Nat} {s : State} (he : execShadowWrite ring s = .next t₀) : Keeps 582 s t₀ := by
  obtain ⟨P, hPP⟩ : ∃ P, P = 582 := ⟨_, rfl⟩
  have hP : 582 ||| P = P := by rw [hPP]; rfl
  have hs : Keeps P s s := Keeps.refl _ _
  rw [← hPP]
  unfold execShadowWrite at he
  injection he with he
  rw [← he]
  clear he
  repeat' (first
    | with_reducible assumption
    | with_reducible apply State.opShadowWrite_keeps)

theorem execCxlMemRead_keeps {t₀ : State} {addr : Nat} {lines : Nat} {upsets : List Upset} {s : State} (he : execCxlMemRead addr lines upsets s = .next t₀) : Keeps 743 s t₀ := by
  obtain ⟨P, hPP⟩ : ∃ P, P = 743 := ⟨_, rfl⟩
  have hP : 743 ||| P = P := by rw [hPP]; rfl
  have hs : Keeps P s s := Keeps.refl _ _
  rw [← hPP]
  unfold execCxlMemRead at he
  split at he
  · cases he
  injection he with he
  rw [← he]
  clear he
  repeat' (first
    | with_reducible assumption
    | (refine mask_mono ?_ hP; rfl)
    | (intro (_ : State) _ (_ : Keeps _ _ _); try dsimp only)
    | (intro _ _ _ (_ : Keeps _ _ _); try dsimp only)
    | (intro _ _ _ _ (_ : Keeps _ _ _); try dsimp only)
    | (intro _ _ _ _ _ (_ : Keeps _ _ _); try dsimp only)
    | (intro (_ : Memory.wf _ = true); try dsimp only)
    | exact MemSt.upsets_wf (by assumption)
    | exact Memory.wf_of rfl rfl (by assumption)
    | with_reducible apply State.cxlReadLine_keeps
    | with_reducible apply State.modMem_keeps
    | with_reducible apply keeps_foldl
    | with_reducible apply keeps_ite)

theorem execCxlMemWrite_keeps {t₀ : State} {addr : Nat} {data : List Byte} {s : State} (he : execCxlMemWrite addr data s = .next t₀) : Keeps 743 s t₀ := by
  obtain ⟨P, hPP⟩ : ∃ P, P = 743 := ⟨_, rfl⟩
  have hP : 743 ||| P = P := by rw [hPP]; rfl
  have hs : Keeps P s s := Keeps.refl _ _
  rw [← hPP]
  unfold execCxlMemWrite at he
  split at he
  · cases he
  injection he with he
  rw [← he]
  clear he
  repeat' (first
    | with_reducible assumption
    | (refine mask_mono ?_ hP; rfl)
    | (intro (_ : State) _ (_ : Keeps _ _ _); try dsimp only)
    | with_reducible apply State.cxlWriteLine_keeps
    | with_reducible apply State.emit_keeps
    | with_reducible apply keeps_foldl
    | with_reducible apply keeps_ite)

theorem execMemAffine_keeps {t₀ : State} {val : Word} {s : State} (he : execMemAffine val s = .next t₀) : Keeps 132 s t₀ := by
  obtain ⟨P, hPP⟩ : ∃ P, P = 132 := ⟨_, rfl⟩
  have hP : 132 ||| P = P := by rw [hPP]; rfl
  have hs : Keeps P s s := Keeps.refl _ _
  rw [← hPP]
  unfold execMemAffine at he
  injection he with he
  rw [← he]
  clear he
  repeat' (first
    | with_reducible assumption
    | with_reducible apply State.writeAffine_keeps
    | with_reducible apply keeps_ite)

theorem execPairReinitDone_keeps {t₀ : State} {s : State} (he : execPairReinitDone s = .next t₀) : Keeps 743 s t₀ := by
  obtain ⟨P, hPP⟩ : ∃ P, P = 743 := ⟨_, rfl⟩
  have hP : 743 ||| P = P := by rw [hPP]; rfl
  have hs : Keeps P s s := Keeps.refl _ _
  rw [← hPP]
  unfold execPairReinitDone at he
  injection he with he
  rw [← he]
  clear he
  repeat' (first
    | with_reducible assumption
    | with_reducible apply State.pairDone_keeps)

theorem execBackgroundClearDone_keeps {t₀ : State} {s : State} (he : execBackgroundClearDone s = .next t₀) : Keeps 128 s t₀ := by
  obtain ⟨P, hPP⟩ : ∃ P, P = 128 := ⟨_, rfl⟩
  have hP : 128 ||| P = P := by rw [hPP]; rfl
  have hs : Keeps P s s := Keeps.refl _ _
  rw [← hPP]
  unfold execBackgroundClearDone at he
  injection he with he
  rw [← he]
  clear he
  repeat' (first
    | with_reducible assumption
    | (intro (_ : State) _ (_ : Keeps _ _ _); try dsimp only)
    | (intro _ _ _ (_ : Keeps _ _ _); try dsimp only)
    | (intro _ _ _ _ (_ : Keeps _ _ _); try dsimp only)
    | (intro _ _ _ _ _ (_ : Keeps _ _ _); try dsimp only)
    | (intro (_ : Memory.wf _ = true); try dsimp only)
    | exact MemSt.upsets_wf (by assumption)
    | exact Memory.wf_of rfl rfl (by assumption)
    | with_reducible apply State.modMem_keeps)

theorem execPatrolScrubRead_keeps {t₀ : State} {upsets : List Upset} {s : State} (he : execPatrolScrubRead upsets s = .next t₀) : Keeps 743 s t₀ := by
  obtain ⟨P, hPP⟩ : ∃ P, P = 743 := ⟨_, rfl⟩
  have hP : 743 ||| P = P := by rw [hPP]; rfl
  have hs : Keeps P s s := Keeps.refl _ _
  rw [← hPP]
  unfold execPatrolScrubRead at he
  injection he with he
  rw [← he]
  clear he
  repeat' (first
    | with_reducible assumption
    | with_reducible apply State.scrub_keeps
    | with_reducible apply keeps_ite)

theorem execMemBwInterval_keeps {t₀ : State} {s : State} (he : execMemBwInterval s = .next t₀) : Keeps 132 s t₀ := by
  obtain ⟨P, hPP⟩ : ∃ P, P = 132 := ⟨_, rfl⟩
  have hP : 132 ||| P = P := by rw [hPP]; rfl
  have hs : Keeps P s s := Keeps.refl _ _
  rw [← hPP]
  unfold execMemBwInterval at he
  injection he with he
  rw [← he]
  clear he
  repeat' (first
    | with_reducible assumption
    | with_reducible apply State.bwInterval_keeps
    | with_reducible apply keeps_ite)

theorem execMemCntClear_keeps {t₀ : State} {s : State} (he : execMemCntClear s = .next t₀) : Keeps 4 s t₀ := by
  obtain ⟨P, hPP⟩ : ∃ P, P = 4 := ⟨_, rfl⟩
  have hP : 4 ||| P = P := by rw [hPP]; rfl
  have hs : Keeps P s s := Keeps.refl _ _
  rw [← hPP]
  unfold execMemCntClear at he
  injection he with he
  rw [← he]
  clear he
  repeat' (first
    | with_reducible assumption
    | with_reducible apply State.clearCounters_keeps
    | with_reducible apply keeps_ite)

theorem execAcquireDone_keeps {t₀ : State} {n : Nat} {s : State} (he : execAcquireDone n s = .next t₀) : Keeps 4 s t₀ := by
  obtain ⟨P, hPP⟩ : ∃ P, P = 4 := ⟨_, rfl⟩
  have hP : 4 ||| P = P := by rw [hPP]; rfl
  have hs : Keeps P s s := Keeps.refl _ _
  rw [← hPP]
  unfold execAcquireDone at he
  injection he with he
  rw [← he]
  clear he
  repeat' (first
    | with_reducible assumption
    | with_reducible apply State.setAdapt_keeps
    | with_reducible apply keeps_ite)

theorem execAdaptFreeze_keeps {t₀ : State} {n : Nat} {s : State} (he : execAdaptFreeze n s = .next t₀) : Keeps 4 s t₀ := by
  obtain ⟨P, hPP⟩ : ∃ P, P = 4 := ⟨_, rfl⟩
  have hP : 4 ||| P = P := by rw [hPP]; rfl
  have hs : Keeps P s s := Keeps.refl _ _
  rw [← hPP]
  unfold execAdaptFreeze at he
  injection he with he
  rw [← he]
  clear he
  repeat' (first
    | with_reducible assumption
    | with_reducible apply State.setAdapt_keeps
    | with_reducible apply keeps_ite)

theorem execFrozenResume_keeps {t₀ : State} {n : Nat} {s : State} (he : execFrozenResume n s = .next t₀) : Keeps 4 s t₀ := by
  obtain ⟨P, hPP⟩ : ∃ P, P = 4 := ⟨_, rfl⟩
  have hP : 4 ||| P = P := by rw [hPP]; rfl
  have hs : Keeps P s s := Keeps.refl _ _
  rw [← hPP]
  unfold execFrozenResume at he
  injection he with he
  rw [← he]
  clear he
  repeat' (first
    | with_reducible assumption
    | with_reducible apply State.setAdapt_keeps
    | with_reducible apply keeps_ite)

theorem execAdaptHold_keeps {t₀ : State} {n : Nat} {on : Bool} {s : State} (he : execAdaptHold n on s = .next t₀) : Keeps 1048580 s t₀ := by
  obtain ⟨P, hPP⟩ : ∃ P, P = 1048580 := ⟨_, rfl⟩
  have hP : 1048580 ||| P = P := by rw [hPP]; rfl
  have hs : Keeps P s s := Keeps.refl _ _
  rw [← hPP]
  unfold execAdaptHold at he
  injection he with he
  rw [← he]
  clear he
  repeat' (first
    | with_reducible assumption
    | with_reducible apply State.writeAdaptHold_keeps
    | with_reducible apply keeps_ite)

theorem execEyeMeasure_keeps {t₀ : State} {readings : List (Nat × Nat × Nat)} {s : State} (he : execEyeMeasure readings s = .next t₀) : Keeps 1049191 s t₀ := by
  obtain ⟨P, hPP⟩ : ∃ P, P = 1049191 := ⟨_, rfl⟩
  have hP : 1049191 ||| P = P := by rw [hPP]; rfl
  have hs : Keeps P s s := Keeps.refl _ _
  rw [← hPP]
  unfold execEyeMeasure at he
  injection he with he
  rw [← he]
  clear he
  repeat' (first
    | with_reducible assumption
    | (intro (_ : State) _ (_ : Keeps _ _ _); try dsimp only)
    | with_reducible apply State.measureEye_keeps
    | with_reducible apply keeps_foldl)

theorem execLnkTxFault_keeps {t₀ : State} {n : Nat} {s : State} (he : execLnkTxFault n s = .next t₀) : Keeps 615 s t₀ := by
  obtain ⟨P, hPP⟩ : ∃ P, P = 615 := ⟨_, rfl⟩
  have hP : 615 ||| P = P := by rw [hPP]; rfl
  have hs : Keeps P s s := Keeps.refl _ _
  rw [← hPP]
  unfold execLnkTxFault at he
  injection he with he
  rw [← he]
  clear he
  repeat' (first
    | with_reducible assumption
    | with_reducible apply State.laneEvent_keeps
    | with_reducible apply keeps_ite)

theorem execLnkCntClear_keeps {t₀ : State} {s : State} (he : execLnkCntClear s = .next t₀) : Keeps 4 s t₀ := by
  obtain ⟨P, hPP⟩ : ∃ P, P = 4 := ⟨_, rfl⟩
  have hP : 4 ||| P = P := by rw [hPP]; rfl
  have hs : Keeps P s s := Keeps.refl _ _
  rw [← hPP]
  unfold execLnkCntClear at he
  injection he with he
  rw [← he]
  clear he
  repeat' (first
    | with_reducible assumption
    | (intro (_ : State) _ (_ : Keeps _ _ _); try dsimp only)
    | with_reducible apply State.clearCounters_keeps
    | with_reducible apply keeps_foldl
    | with_reducible apply keeps_ite)

theorem execSwGo_keeps {t₀ : State} {val : Word} {s : State} (he : execSwGo val s = .next t₀) : Keeps 3146359 s t₀ := by
  obtain ⟨P, hPP⟩ : ∃ P, P = 3146359 := ⟨_, rfl⟩
  have hP : 3146359 ||| P = P := by rw [hPP]; rfl
  have hs : Keeps P s s := Keeps.refl _ _
  rw [← hPP]
  unfold execSwGo at he
  injection he with he
  rw [← he]
  clear he
  repeat' (first
    | with_reducible assumption
    | (refine mask_mono ?_ hP; rfl)
    | with_reducible apply State.wr_keeps
    | with_reducible apply State.swAlarm_keeps
    | with_reducible apply keeps_ite)

theorem execPitchLockTimeout_keeps {t₀ : State} {p : Port} {s : State} (he : execPitchLockTimeout p s = .next t₀) : Keeps 3146359 s t₀ := by
  obtain ⟨P, hPP⟩ : ∃ P, P = 3146359 := ⟨_, rfl⟩
  have hP : 3146359 ||| P = P := by rw [hPP]; rfl
  have hs : Keeps P s s := Keeps.refl _ _
  rw [← hPP]
  unfold execPitchLockTimeout at he
  injection he with he
  rw [← he]
  clear he
  repeat' (first
    | with_reducible assumption
    | with_reducible apply State.pitchDown_keeps
    | with_reducible apply keeps_ite)

theorem execPitchTrainTimeout_keeps {t₀ : State} {p : Port} {s : State} (he : execPitchTrainTimeout p s = .next t₀) : Keeps 3146359 s t₀ := by
  obtain ⟨P, hPP⟩ : ∃ P, P = 3146359 := ⟨_, rfl⟩
  have hP : 3146359 ||| P = P := by rw [hPP]; rfl
  have hs : Keeps P s s := Keeps.refl _ _
  rw [← hPP]
  unfold execPitchTrainTimeout at he
  injection he with he
  rw [← he]
  clear he
  repeat' (first
    | with_reducible assumption
    | with_reducible apply State.pitchDown_keeps
    | with_reducible apply keeps_ite)

theorem execPitchRetry_keeps {t₀ : State} {p : Port} {s : State} (he : execPitchRetry p s = .next t₀) : Keeps 3146343 s t₀ := by
  obtain ⟨P, hPP⟩ : ∃ P, P = 3146343 := ⟨_, rfl⟩
  have hP : 3146343 ||| P = P := by rw [hPP]; rfl
  have hs : Keeps P s s := Keeps.refl _ _
  rw [← hPP]
  unfold execPitchRetry at he
  injection he with he
  rw [← he]
  clear he
  repeat' (first
    | with_reducible assumption
    | (refine mask_mono ?_ hP; rfl)
    | with_reducible apply State.modPitch_keeps
    | with_reducible apply State.settleRope_keeps
    | with_reducible apply keeps_ite)

theorem execPitchReq_keeps {t₀ : State} {p : Port} {lane : Nat} {msg : List Byte} {s : State} (he : execPitchReq p lane msg s = .next t₀) : Keeps 3146343 s t₀ := by
  obtain ⟨P, hPP⟩ : ∃ P, P = 3146343 := ⟨_, rfl⟩
  have hP : 3146343 ||| P = P := by rw [hPP]; rfl
  have hs : Keeps P s s := Keeps.refl _ _
  rw [← hPP]
  unfold execPitchReq at he
  injection he with he
  rw [← he]
  clear he
  repeat' (first
    | with_reducible assumption
    | with_reducible apply State.onPitchReq_keeps
    | with_reducible apply keeps_ite)

theorem execPitchAck_keeps {t₀ : State} {p : Port} {lane : Nat} {msg : List Byte} {s : State} (he : execPitchAck p lane msg s = .next t₀) : Keeps 1048576 s t₀ := by
  obtain ⟨P, hPP⟩ : ∃ P, P = 1048576 := ⟨_, rfl⟩
  have hP : 1048576 ||| P = P := by rw [hPP]; rfl
  have hs : Keeps P s s := Keeps.refl _ _
  rw [← hPP]
  unfold execPitchAck at he
  injection he with he
  rw [← he]
  clear he
  repeat' (first
    | with_reducible assumption
    | with_reducible apply State.modLane_keeps
    | with_reducible apply keeps_ite)

theorem execHopForward_keeps {t₀ : State} {p : Port} {mail : Bool} {lead : Nat} {s : State} (he : execHopForward p mail lead s = .next t₀) : Keeps 3146359 s t₀ := by
  obtain ⟨P, hPP⟩ : ∃ P, P = 3146359 := ⟨_, rfl⟩
  have hP : 3146359 ||| P = P := by rw [hPP]; rfl
  have hs : Keeps P s s := Keeps.refl _ _
  rw [← hPP]
  unfold execHopForward at he
  injection he with he
  rw [← he]
  clear he
  repeat' (first
    | with_reducible assumption
    | with_reducible apply State.hopForward_keeps
    | with_reducible apply keeps_ite)

theorem execHello_keeps {t₀ : State} {p : Port} {msg : List Byte} {s : State} (he : execHello p msg s = .next t₀) : Keeps 3146359 s t₀ := by
  obtain ⟨P, hPP⟩ : ∃ P, P = 3146359 := ⟨_, rfl⟩
  have hP : 3146359 ||| P = P := by rw [hPP]; rfl
  have hs : Keeps P s s := Keeps.refl _ _
  rw [← hPP]
  unfold execHello at he
  injection he with he
  rw [← he]
  clear he
  repeat' (first
    | with_reducible assumption
    | with_reducible apply State.onHello_keeps
    | with_reducible apply keeps_ite)

theorem execHelloSend_keeps {t₀ : State} {p : Port} {s : State} (he : execHelloSend p s = .next t₀) : Keeps 1048577 s t₀ := by
  obtain ⟨P, hPP⟩ : ∃ P, P = 1048577 := ⟨_, rfl⟩
  have hP : 1048577 ||| P = P := by rw [hPP]; rfl
  have hs : Keeps P s s := Keeps.refl _ _
  rw [← hPP]
  unfold execHelloSend at he
  injection he with he
  rw [← he]
  clear he
  repeat' (first
    | with_reducible assumption
    | (intro (_ : State) _ (_ : Keeps _ _ _); try dsimp only)
    | with_reducible apply State.ropeOut_keeps
    | with_reducible apply State.sendLocal_keeps
    | with_reducible apply keeps_foldl
    | with_reducible apply keeps_ite)

theorem execPitchAlignLoss_keeps {t₀ : State} {p : Port} {s : State} (he : execPitchAlignLoss p s = .next t₀) : Keeps 3146359 s t₀ := by
  obtain ⟨P, hPP⟩ : ∃ P, P = 3146359 := ⟨_, rfl⟩
  have hP : 3146359 ||| P = P := by rw [hPP]; rfl
  have hs : Keeps P s s := Keeps.refl _ _
  rw [← hPP]
  unfold execPitchAlignLoss at he
  injection he with he
  rw [← he]
  clear he
  repeat' (first
    | with_reducible assumption
    | (refine mask_mono ?_ hP; rfl)
    | with_reducible apply State.pitchDown_keeps
    | with_reducible apply State.settleRope_keeps
    | with_reducible apply keeps_ite)

theorem execBelay_keeps {t₀ : State} {p : Port} {msg : List Byte} {s : State} (he : execBelay p msg s = .next t₀) : Keeps 2097152 s t₀ := by
  obtain ⟨P, hPP⟩ : ∃ P, P = 2097152 := ⟨_, rfl⟩
  have hP : 2097152 ||| P = P := by rw [hPP]; rfl
  have hs : Keeps P s s := Keeps.refl _ _
  rw [← hPP]
  unfold execBelay at he
  injection he with he
  rw [← he]
  clear he
  repeat' (first
    | with_reducible assumption
    | with_reducible apply State.onBelay_keeps
    | with_reducible apply keeps_ite)

theorem execBelaySend_keeps {t₀ : State} {p : Port} {mail : Bool} {s : State} (he : execBelaySend p mail s = .next t₀) : Keeps 3145729 s t₀ := by
  obtain ⟨P, hPP⟩ : ∃ P, P = 3145729 := ⟨_, rfl⟩
  have hP : 3145729 ||| P = P := by rw [hPP]; rfl
  have hs : Keeps P s s := Keeps.refl _ _
  rw [← hPP]
  unfold execBelaySend at he
  injection he with he
  rw [← he]
  clear he
  repeat' (first
    | with_reducible assumption
    | with_reducible apply State.sendBelay_keeps
    | with_reducible apply keeps_ite)

theorem execEnum_keeps {t₀ : State} {msg : List Byte} {s : State} (he : execEnum msg s = .next t₀) : Keeps 3146359 s t₀ := by
  obtain ⟨P, hPP⟩ : ∃ P, P = 3146359 := ⟨_, rfl⟩
  have hP : 3146359 ||| P = P := by rw [hPP]; rfl
  have hs : Keeps P s s := Keeps.refl _ _
  rw [← hPP]
  unfold execEnum at he
  injection he with he
  rw [← he]
  clear he
  repeat' (first
    | with_reducible assumption
    | with_reducible apply State.onEnum_keeps
    | with_reducible apply keeps_ite)

theorem execEnumDone_keeps {t₀ : State} {msg : List Byte} {s : State} (he : execEnumDone msg s = .next t₀) : Keeps 3146359 s t₀ := by
  obtain ⟨P, hPP⟩ : ∃ P, P = 3146359 := ⟨_, rfl⟩
  have hP : 3146359 ||| P = P := by rw [hPP]; rfl
  have hs : Keeps P s s := Keeps.refl _ _
  rw [← hPP]
  unfold execEnumDone at he
  injection he with he
  rw [← he]
  clear he
  repeat' (first
    | with_reducible assumption
    | with_reducible apply State.onEnumDone_keeps
    | with_reducible apply keeps_ite)

theorem execAlarm_keeps {t₀ : State} {p : Port} {msg : List Byte} {s : State} (he : execAlarm p msg s = .next t₀) : Keeps 2097767 s t₀ := by
  obtain ⟨P, hPP⟩ : ∃ P, P = 2097767 := ⟨_, rfl⟩
  have hP : 2097767 ||| P = P := by rw [hPP]; rfl
  have hs : Keeps P s s := Keeps.refl _ _
  rw [← hPP]
  unfold execAlarm at he
  injection he with he
  rw [← he]
  clear he
  repeat' (first
    | with_reducible assumption
    | with_reducible apply State.onAlarm_keeps
    | with_reducible apply keeps_ite)

theorem execMail_keeps {t₀ : State} {p : Port} {msg : List Byte} {s : State} (he : execMail p msg s = .next t₀) : Keeps 3146359 s t₀ := by
  obtain ⟨P, hPP⟩ : ∃ P, P = 3146359 := ⟨_, rfl⟩
  have hP : 3146359 ||| P = P := by rw [hPP]; rfl
  have hs : Keeps P s s := Keeps.refl _ _
  rw [← hPP]
  unfold execMail at he
  injection he with he
  rw [← he]
  clear he
  repeat' (first
    | with_reducible assumption
    | with_reducible apply State.onMail_keeps
    | with_reducible apply keeps_ite)

theorem execLeaveMessage_keeps {t₀ : State} {p : Port} {s : State} (he : execLeaveMessage p s = .next t₀) : Keeps 3146359 s t₀ := by
  obtain ⟨P, hPP⟩ : ∃ P, P = 3146359 := ⟨_, rfl⟩
  have hP : 3146359 ||| P = P := by rw [hPP]; rfl
  have hs : Keeps P s s := Keeps.refl _ _
  rw [← hPP]
  unfold execLeaveMessage at he
  injection he with he
  rw [← he]
  clear he
  repeat' (first
    | with_reducible assumption
    | (refine mask_mono ?_ hP; rfl)
    | with_reducible apply State.pitchDown_keeps
    | with_reducible apply State.settleRope_keeps
    | with_reducible apply keeps_ite)

theorem execLeave_keeps {t₀ : State} {s : State} (he : execLeave s = .next t₀) : Keeps 1049191 s t₀ := by
  obtain ⟨P, hPP⟩ : ∃ P, P = 1049191 := ⟨_, rfl⟩
  have hP : 1049191 ||| P = P := by rw [hPP]; rfl
  have hs : Keeps P s s := Keeps.refl _ _
  rw [← hPP]
  unfold execLeave at he
  injection he with he
  rw [← he]
  clear he
  repeat' (first
    | with_reducible assumption
    | with_reducible apply State.startLeave_keeps
    | with_reducible apply keeps_ite)

theorem execLeaveHoldDown_keeps {t₀ : State} {s : State} (he : execLeaveHoldDown s = .next t₀) : Keeps 3146359 s t₀ := by
  obtain ⟨P, hPP⟩ : ∃ P, P = 3146359 := ⟨_, rfl⟩
  have hP : 3146359 ||| P = P := by rw [hPP]; rfl
  have hs : Keeps P s s := Keeps.refl _ _
  rw [← hPP]
  unfold execLeaveHoldDown at he
  injection he with he
  rw [← he]
  clear he
  repeat' (first
    | with_reducible assumption
    | with_reducible apply State.holdDown_keeps
    | with_reducible apply keeps_ite)

theorem execJoin_keeps {t₀ : State} {s : State} (he : execJoin s = .next t₀) : Keeps 3146359 s t₀ := by
  obtain ⟨P, hPP⟩ : ∃ P, P = 3146359 := ⟨_, rfl⟩
  have hP : 3146359 ||| P = P := by rw [hPP]; rfl
  have hs : Keeps P s s := Keeps.refl _ _
  rw [← hPP]
  unfold execJoin at he
  injection he with he
  rw [← he]
  clear he
  repeat' (first
    | with_reducible assumption
    | with_reducible apply State.join_keeps
    | with_reducible apply keeps_ite)

theorem execRetrainUp_keeps {t₀ : State} {s : State} (he : execRetrainUp s = .next t₀) : Keeps 3146359 s t₀ := by
  obtain ⟨P, hPP⟩ : ∃ P, P = 3146359 := ⟨_, rfl⟩
  have hP : 3146359 ||| P = P := by rw [hPP]; rfl
  have hs : Keeps P s s := Keeps.refl _ _
  rw [← hPP]
  unfold execRetrainUp at he
  injection he with he
  rw [← he]
  clear he
  repeat' (first
    | with_reducible assumption
    | with_reducible apply State.retrainPort_keeps
    | with_reducible apply keeps_ite)

theorem execRetrainDn_keeps {t₀ : State} {s : State} (he : execRetrainDn s = .next t₀) : Keeps 3146359 s t₀ := by
  obtain ⟨P, hPP⟩ : ∃ P, P = 3146359 := ⟨_, rfl⟩
  have hP : 3146359 ||| P = P := by rw [hPP]; rfl
  have hs : Keeps P s s := Keeps.refl _ _
  rw [← hPP]
  unfold execRetrainDn at he
  injection he with he
  rw [← he]
  clear he
  repeat' (first
    | with_reducible assumption
    | with_reducible apply State.retrainPort_keeps
    | with_reducible apply keeps_ite)

theorem execHeadWaitExpiry_keeps {t₀ : State} {s : State} (he : execHeadWaitExpiry s = .next t₀) : Keeps 3146359 s t₀ := by
  obtain ⟨P, hPP⟩ : ∃ P, P = 3146359 := ⟨_, rfl⟩
  have hP : 3146359 ||| P = P := by rw [hPP]; rfl
  have hs : Keeps P s s := Keeps.refl _ _
  rw [← hPP]
  unfold execHeadWaitExpiry at he
  injection he with he
  rw [← he]
  clear he
  try dsimp only
  repeat' (first
    | with_reducible assumption
    | (refine mask_mono ?_ hP; rfl)
    | with_reducible apply State.becomeHead_keeps
    | with_reducible apply keeps_ite
    | with_reducible apply Keeps.set_rope)

theorem execRopeNoHead_keeps {t₀ : State} {s : State} (he : execRopeNoHead s = .next t₀) : Keeps 615 s t₀ := by
  obtain ⟨P, hPP⟩ : ∃ P, P = 615 := ⟨_, rfl⟩
  have hP : 615 ||| P = P := by rw [hPP]; rfl
  have hs : Keeps P s s := Keeps.refl _ _
  rw [← hPP]
  unfold execRopeNoHead at he
  injection he with he
  rw [← he]
  clear he
  repeat' (first
    | with_reducible assumption
    | (refine mask_mono ?_ hP; rfl)
    | with_reducible apply State.wrB_keeps
    | with_reducible apply State.raise_keeps
    | with_reducible apply keeps_ite)

theorem execRopeCntClear_keeps {t₀ : State} {s : State} (he : execRopeCntClear s = .next t₀) : Keeps 4 s t₀ := by
  obtain ⟨P, hPP⟩ : ∃ P, P = 4 := ⟨_, rfl⟩
  have hP : 4 ||| P = P := by rw [hPP]; rfl
  have hs : Keeps P s s := Keeps.refl _ _
  rw [← hPP]
  unfold execRopeCntClear at he
  injection he with he
  rw [← he]
  clear he
  repeat' (first
    | with_reducible assumption
    | with_reducible apply State.clearCounters_keeps
    | with_reducible apply keeps_ite)

theorem execMbox_keeps {t₀ : State} {ring : Nat} {req : List Byte} {s : State} (he : execMbox ring req s = .next t₀) : Keeps 743 s t₀ := by
  obtain ⟨P, hPP⟩ : ∃ P, P = 743 := ⟨_, rfl⟩
  have hP : 743 ||| P = P := by rw [hPP]; rfl
  have hs : Keeps P s s := Keeps.refl _ _
  rw [← hPP]
  unfold execMbox at he
  injection he with he
  rw [← he]
  clear he
  repeat' (first
    | with_reducible assumption
    | (intro (_ : State) _ (_ : Keeps _ _ _); try dsimp only)
    | (intro _ _ _ (_ : Keeps _ _ _); try dsimp only)
    | (intro _ _ _ _ (_ : Keeps _ _ _); try dsimp only)
    | (intro _ _ _ _ _ (_ : Keeps _ _ _); try dsimp only)
    | with_reducible apply State.opMbox_keeps
    | with_reducible apply State.mboxOther_keeps)

theorem execSend_keeps {t₀ : State} {ring : Nat} {req : List Byte} {s : State} (he : execSend ring req s = .next t₀) : Keeps 3146487 s t₀ := by
  obtain ⟨P, hPP⟩ : ∃ P, P = 3146487 := ⟨_, rfl⟩
  have hP : 3146487 ||| P = P := by rw [hPP]; rfl
  have hs : Keeps P s s := Keeps.refl _ _
  rw [← hPP]
  unfold execSend at he
  injection he with he
  rw [← he]
  clear he
  repeat' (first
    | with_reducible assumption
    | (refine mask_mono ?_ hP; rfl)
    | (intro (_ : State) _ (_ : Keeps _ _ _); try dsimp only)
    | (intro _ _ _ (_ : Keeps _ _ _); try dsimp only)
    | (intro _ _ _ _ (_ : Keeps _ _ _); try dsimp only)
    | (intro _ _ _ _ _ (_ : Keeps _ _ _); try dsimp only)
    | with_reducible apply State.opMbox_keeps
    | with_reducible apply State.doSend_keeps)

theorem execRecv_keeps {t₀ : State} {ring : Nat} {req : List Byte} {s : State} (he : execRecv ring req s = .next t₀) : Keeps 2097895 s t₀ := by
  obtain ⟨P, hPP⟩ : ∃ P, P = 2097895 := ⟨_, rfl⟩
  have hP : 2097895 ||| P = P := by rw [hPP]; rfl
  have hs : Keeps P s s := Keeps.refl _ _
  rw [← hPP]
  unfold execRecv at he
  injection he with he
  rw [← he]
  clear he
  repeat' (first
    | with_reducible assumption
    | (refine mask_mono ?_ hP; rfl)
    | (intro (_ : State) _ (_ : Keeps _ _ _); try dsimp only)
    | (intro _ _ _ (_ : Keeps _ _ _); try dsimp only)
    | (intro _ _ _ _ (_ : Keeps _ _ _); try dsimp only)
    | (intro _ _ _ _ _ (_ : Keeps _ _ _); try dsimp only)
    | with_reducible apply State.opMbox_keeps
    | with_reducible apply State.doRecv_keeps)

theorem execMailAck_keeps {t₀ : State} {p : Port} {msg : List Byte} {s : State} (he : execMailAck p msg s = .next t₀) : Keeps 2097895 s t₀ := by
  obtain ⟨P, hPP⟩ : ∃ P, P = 2097895 := ⟨_, rfl⟩
  have hP : 2097895 ||| P = P := by rw [hPP]; rfl
  have hs : Keeps P s s := Keeps.refl _ _
  rw [← hPP]
  unfold execMailAck at he
  injection he with he
  rw [← he]
  clear he
  repeat' (first
    | with_reducible assumption
    | with_reducible apply State.onMailAck_keeps
    | with_reducible apply keeps_ite)

theorem execMailAckTimeout_keeps {t₀ : State} {tag : Nat} {s : State} (he : execMailAckTimeout tag s = .next t₀) : Keeps 2097895 s t₀ := by
  obtain ⟨P, hPP⟩ : ∃ P, P = 2097895 := ⟨_, rfl⟩
  have hP : 2097895 ||| P = P := by rw [hPP]; rfl
  have hs : Keeps P s s := Keeps.refl _ _
  rw [← hPP]
  unfold execMailAckTimeout at he
  injection he with he
  rw [← he]
  clear he
  repeat' (first
    | with_reducible assumption
    | with_reducible apply State.endTag_keeps)

theorem execConcealCopy_keeps {t₀ : State} {n : Nat} {s : State} (he : execConcealCopy n s = .next t₀) : Keeps 33511 s t₀ := by
  obtain ⟨P, hPP⟩ : ∃ P, P = 33511 := ⟨_, rfl⟩
  have hP : 33511 ||| P = P := by rw [hPP]; rfl
  have hs : Keeps P s s := Keeps.refl _ _
  rw [← hPP]
  unfold execConcealCopy at he
  injection he with he
  rw [← he]
  clear he
  repeat' (first
    | with_reducible assumption
    | with_reducible apply State.concealCopy_keeps
    | with_reducible apply keeps_ite)

theorem execLateWindowClose_keeps {t₀ : State} {s : State} (he : execLateWindowClose s = .next t₀) : Keeps 32768 s t₀ := by
  obtain ⟨P, hPP⟩ : ∃ P, P = 32768 := ⟨_, rfl⟩
  have hP : 32768 ||| P = P := by rw [hPP]; rfl
  have hs : Keeps P s s := Keeps.refl _ _
  rw [← hPP]
  unfold execLateWindowClose at he
  injection he with he
  rw [← he]
  clear he
  repeat' (first
    | with_reducible assumption
    | with_reducible apply State.closeWindows_keeps)

theorem execDecCntClear_keeps {t₀ : State} {s : State} (he : execDecCntClear s = .next t₀) : Keeps 4 s t₀ := by
  obtain ⟨P, hPP⟩ : ∃ P, P = 4 := ⟨_, rfl⟩
  have hP : 4 ||| P = P := by rw [hPP]; rfl
  have hs : Keeps P s s := Keeps.refl _ _
  rw [← hPP]
  unfold execDecCntClear at he
  injection he with he
  rw [← he]
  clear he
  repeat' (first
    | with_reducible assumption
    | with_reducible apply State.clearCounters_keeps
    | with_reducible apply keeps_ite)

theorem execSliceDispatch_keeps {t₀ : State} {s : State} (he : execSliceDispatch s = .next t₀) : Keeps 33511 s t₀ := by
  obtain ⟨P, hPP⟩ : ∃ P, P = 33511 := ⟨_, rfl⟩
  have hP : 33511 ||| P = P := by rw [hPP]; rfl
  have hs : Keeps P s s := Keeps.refl _ _
  rw [← hPP]
  unfold execSliceDispatch at he
  injection he with he
  rw [← he]
  clear he
  repeat' (first
    | with_reducible assumption
    | with_reducible apply State.sliceDispatch_keeps
    | with_reducible apply keeps_ite)

theorem execSliceResume_keeps {t₀ : State} {s : State} (he : execSliceResume s = .next t₀) : Keeps 32768 s t₀ := by
  obtain ⟨P, hPP⟩ : ∃ P, P = 32768 := ⟨_, rfl⟩
  have hP : 32768 ||| P = P := by rw [hPP]; rfl
  have hs : Keeps P s s := Keeps.refl _ _
  rw [← hPP]
  unfold execSliceResume at he
  injection he with he
  rw [← he]
  clear he
  repeat' (first
    | with_reducible assumption
    | with_reducible apply State.sliceResume_keeps
    | with_reducible apply keeps_ite)

theorem execSbrowFinal_keeps {t₀ : State} {n : Nat} {s : State} (he : execSbrowFinal n s = .next t₀) : Keeps 33511 s t₀ := by
  obtain ⟨P, hPP⟩ : ∃ P, P = 33511 := ⟨_, rfl⟩
  have hP : 33511 ||| P = P := by rw [hPP]; rfl
  have hs : Keeps P s s := Keeps.refl _ _
  rw [← hPP]
  unfold execSbrowFinal at he
  injection he with he
  rw [← he]
  clear he
  repeat' (first
    | with_reducible assumption
    | with_reducible apply State.sbrowFinal_keeps
    | with_reducible apply keeps_ite)

theorem execBltRun_keeps {t₀ : State} {ring : Nat} {s : State} (he : execBltRun ring s = .next t₀) : Keeps 131654 s t₀ := by
  obtain ⟨P, hPP⟩ : ∃ P, P = 131654 := ⟨_, rfl⟩
  have hP : 131654 ||| P = P := by rw [hPP]; rfl
  have hs : Keeps P s s := Keeps.refl _ _
  rw [← hPP]
  unfold execBltRun at he
  injection he with he
  rw [← he]
  clear he
  repeat' (first
    | with_reducible assumption
    | with_reducible apply State.opBltRun_keeps)

theorem execBltListStart_keeps {t₀ : State} {s : State} (he : execBltListStart s = .next t₀) : Keeps 131076 s t₀ := by
  obtain ⟨P, hPP⟩ : ∃ P, P = 131076 := ⟨_, rfl⟩
  have hP : 131076 ||| P = P := by rw [hPP]; rfl
  have hs : Keeps P s s := Keeps.refl _ _
  rw [← hPP]
  unfold execBltListStart at he
  injection he with he
  rw [← he]
  clear he
  repeat' (first
    | with_reducible assumption
    | with_reducible apply State.bltListStart_keeps
    | with_reducible apply keeps_ite)

theorem execBltCommandStart_keeps {t₀ : State} {die : Die} {s : State} (he : execBltCommandStart die s = .next t₀) : Keeps 131815 s t₀ := by
  obtain ⟨P, hPP⟩ : ∃ P, P = 131815 := ⟨_, rfl⟩
  have hP : 131815 ||| P = P := by rw [hPP]; rfl
  have hs : Keeps P s s := Keeps.refl _ _
  rw [← hPP]
  unfold execBltCommandStart at he
  injection he with he
  rw [← he]
  clear he
  repeat' (first
    | with_reducible assumption
    | with_reducible apply State.bltStart_keeps
    | with_reducible apply keeps_ite)

theorem execBltCommandDone_keeps {t₀ : State} {die : Die} {s : State} (he : execBltCommandDone die s = .next t₀) : Keeps 131815 s t₀ := by
  obtain ⟨P, hPP⟩ : ∃ P, P = 131815 := ⟨_, rfl⟩
  have hP : 131815 ||| P = P := by rw [hPP]; rfl
  have hs : Keeps P s s := Keeps.refl _ _
  rw [← hPP]
  unfold execBltCommandDone at he
  injection he with he
  rw [← he]
  clear he
  repeat' (first
    | with_reducible assumption
    | with_reducible apply State.bltDone_keeps
    | with_reducible apply keeps_ite)

theorem execBltCntClear_keeps {t₀ : State} {s : State} (he : execBltCntClear s = .next t₀) : Keeps 4 s t₀ := by
  obtain ⟨P, hPP⟩ : ∃ P, P = 4 := ⟨_, rfl⟩
  have hP : 4 ||| P = P := by rw [hPP]; rfl
  have hs : Keeps P s s := Keeps.refl _ _
  rw [← hPP]
  unfold execBltCntClear at he
  injection he with he
  rw [← he]
  clear he
  repeat' (first
    | with_reducible assumption
    | with_reducible apply State.clearCounters_keeps
    | with_reducible apply keeps_ite)

theorem execEncOpen_keeps {t₀ : State} {ring : Nat} {param : List Byte} {s : State} (he : execEncOpen ring param s = .next t₀) : Keeps 262887 s t₀ := by
  obtain ⟨P, hPP⟩ : ∃ P, P = 262887 := ⟨_, rfl⟩
  have hP : 262887 ||| P = P := by rw [hPP]; rfl
  have hs : Keeps P s s := Keeps.refl _ _
  rw [← hPP]
  unfold execEncOpen at he
  injection he with he
  rw [← he]
  clear he
  repeat' (first
    | with_reducible assumption
    | (refine mask_mono ?_ hP; rfl)
    | (intro (_ : State) _ (_ : Keeps _ _ _); try dsimp only)
    | (intro _ _ _ (_ : Keeps _ _ _); try dsimp only)
    | with_reducible apply State.withOp_keeps
    | with_reducible apply State.encOpen_keeps
    | with_reducible apply keeps_ite)

theorem execEncPut_keeps {t₀ : State} {ring : Nat} {table : List Byte} {s : State} (he : execEncPut ring table s = .next t₀) : Keeps 262887 s t₀ := by
  obtain ⟨P, hPP⟩ : ∃ P, P = 262887 := ⟨_, rfl⟩
  have hP : 262887 ||| P = P := by rw [hPP]; rfl
  have hs : Keeps P s s := Keeps.refl _ _
  rw [← hPP]
  unfold execEncPut at he
  injection he with he
  rw [← he]
  clear he
  repeat' (first
    | with_reducible assumption
    | (refine mask_mono ?_ hP; rfl)
    | (intro (_ : State) _ (_ : Keeps _ _ _); try dsimp only)
    | (intro _ _ _ (_ : Keeps _ _ _); try dsimp only)
    | with_reducible apply State.withOp_keeps
    | with_reducible apply State.encPut_keeps
    | with_reducible apply keeps_ite)

theorem execEncKey_keeps {t₀ : State} {ring : Nat} {s : State} (he : execEncKey ring s = .next t₀) : Keeps 262726 s t₀ := by
  obtain ⟨P, hPP⟩ : ∃ P, P = 262726 := ⟨_, rfl⟩
  have hP : 262726 ||| P = P := by rw [hPP]; rfl
  have hs : Keeps P s s := Keeps.refl _ _
  rw [← hPP]
  unfold execEncKey at he
  injection he with he
  rw [← he]
  clear he
  repeat' (first
    | with_reducible assumption
    | (refine mask_mono ?_ hP; rfl)
    | (intro (_ : State) _ (_ : Keeps _ _ _); try dsimp only)
    | (intro _ _ _ (_ : Keeps _ _ _); try dsimp only)
    | with_reducible apply State.withOp_keeps
    | with_reducible apply State.encFail_keeps
    | with_reducible apply State.modEnc_keeps
    | with_reducible apply State.complete_keeps
    | with_reducible apply keeps_ite
    | split)

theorem execEncClose_keeps {t₀ : State} {ring : Nat} {s : State} (he : execEncClose ring s = .next t₀) : Keeps 262887 s t₀ := by
  obtain ⟨P, hPP⟩ : ∃ P, P = 262887 := ⟨_, rfl⟩
  have hP : 262887 ||| P = P := by rw [hPP]; rfl
  have hs : Keeps P s s := Keeps.refl _ _
  rw [← hPP]
  unfold execEncClose at he
  injection he with he
  rw [← he]
  clear he
  repeat' (first
    | with_reducible assumption
    | (refine mask_mono ?_ hP; rfl)
    | (intro (_ : State) _ (_ : Keeps _ _ _); try dsimp only)
    | (intro _ _ _ (_ : Keeps _ _ _); try dsimp only)
    | with_reducible apply State.withOp_keeps
    | with_reducible apply State.encClose_keeps
    | with_reducible apply keeps_ite)

theorem execEncKeyReq_keeps {t₀ : State} {val : Word} {s : State} (he : execEncKeyReq val s = .next t₀) : Keeps 262144 s t₀ := by
  obtain ⟨P, hPP⟩ : ∃ P, P = 262144 := ⟨_, rfl⟩
  have hP : 262144 ||| P = P := by rw [hPP]; rfl
  have hs : Keeps P s s := Keeps.refl _ _
  rw [← hPP]
  unfold execEncKeyReq at he
  injection he with he
  rw [← he]
  clear he
  repeat' (first
    | with_reducible assumption
    | with_reducible apply State.encKeyReq_keeps
    | with_reducible apply keeps_ite)

theorem execEncAuStart_keeps {t₀ : State} {ring : Nat} {s : State} (he : execEncAuStart ring s = .next t₀) : Keeps 262887 s t₀ := by
  obtain ⟨P, hPP⟩ : ∃ P, P = 262887 := ⟨_, rfl⟩
  have hP : 262887 ||| P = P := by rw [hPP]; rfl
  have hs : Keeps P s s := Keeps.refl _ _
  rw [← hPP]
  unfold execEncAuStart at he
  injection he with he
  rw [← he]
  clear he
  repeat' (first
    | with_reducible assumption
    | with_reducible apply State.encAuStart_keeps
    | with_reducible apply keeps_ite
    | split)

theorem execEncPictureStart_keeps {t₀ : State} {tex : List (Option Byte)} {dep : List (Option Byte)} {s : State} (he : execEncPictureStart tex dep s = .next t₀) : Keeps 262887 s t₀ := by
  obtain ⟨P, hPP⟩ : ∃ P, P = 262887 := ⟨_, rfl⟩
  have hP : 262887 ||| P = P := by rw [hPP]; rfl
  have hs : Keeps P s s := Keeps.refl _ _
  rw [← hPP]
  unfold execEncPictureStart at he
  injection he with he
  rw [← he]
  clear he
  repeat' (first
    | with_reducible assumption
    | with_reducible apply State.encPicture_keeps
    | with_reducible apply keeps_ite
    | split)

theorem execEncAuDone_keeps {t₀ : State} {ring : Nat} {s : State} (he : execEncAuDone ring s = .next t₀) : Keeps 262887 s t₀ := by
  obtain ⟨P, hPP⟩ : ∃ P, P = 262887 := ⟨_, rfl⟩
  have hP : 262887 ||| P = P := by rw [hPP]; rfl
  have hs : Keeps P s s := Keeps.refl _ _
  rw [← hPP]
  unfold execEncAuDone at he
  injection he with he
  rw [← he]
  clear he
  repeat' (first
    | with_reducible assumption
    | with_reducible apply State.encAuDone_keeps
    | with_reducible apply keeps_ite
    | split)

theorem execEncCntClear_keeps {t₀ : State} {s : State} (he : execEncCntClear s = .next t₀) : Keeps 4 s t₀ := by
  obtain ⟨P, hPP⟩ : ∃ P, P = 4 := ⟨_, rfl⟩
  have hP : 4 ||| P = P := by rw [hPP]; rfl
  have hs : Keeps P s s := Keeps.refl _ _
  rw [← hPP]
  unfold execEncCntClear at he
  injection he with he
  rw [← he]
  clear he
  repeat' (first
    | with_reducible assumption
    | with_reducible apply State.clearCounters_keeps
    | with_reducible apply keeps_ite)

theorem execCommit_keeps {t₀ : State} {ring : Nat} {s : State} (he : execCommit ring s = .next t₀) : Keeps 4678 s t₀ := by
  obtain ⟨P, hPP⟩ : ∃ P, P = 4678 := ⟨_, rfl⟩
  have hP : 4678 ||| P = P := by rw [hPP]; rfl
  have hs : Keeps P s s := Keeps.refl _ _
  rw [← hPP]
  unfold execCommit at he
  injection he with he
  rw [← he]
  clear he
  repeat' (first
    | with_reducible assumption
    | with_reducible apply State.opCommit_keeps)

theorem execCommitArrive_keeps {t₀ : State} {s : State} (he : execCommitArrive s = .next t₀) : Keeps 4678 s t₀ := by
  obtain ⟨P, hPP⟩ : ∃ P, P = 4678 := ⟨_, rfl⟩
  have hP : 4678 ||| P = P := by rw [hPP]; rfl
  have hs : Keeps P s s := Keeps.refl _ _
  rw [← hPP]
  unfold execCommitArrive at he
  injection he with he
  rw [← he]
  clear he
  repeat' (first
    | with_reducible assumption
    | with_reducible apply State.commitArrive_keeps)

theorem execRetireEnable_keeps {t₀ : State} {log2 : Nat} {s : State} (he : execRetireEnable log2 s = .next t₀) : Keeps 4100 s t₀ := by
  obtain ⟨P, hPP⟩ : ∃ P, P = 4100 := ⟨_, rfl⟩
  have hP : 4100 ||| P = P := by rw [hPP]; rfl
  have hs : Keeps P s s := Keeps.refl _ _
  rw [← hPP]
  unfold execRetireEnable at he
  injection he with he
  rw [← he]
  clear he
  repeat' (first
    | with_reducible assumption
    | with_reducible apply State.writeRetireCfg_keeps
    | with_reducible apply keeps_ite)

theorem execCmpCntClear_keeps {t₀ : State} {s : State} (he : execCmpCntClear s = .next t₀) : Keeps 4 s t₀ := by
  obtain ⟨P, hPP⟩ : ∃ P, P = 4 := ⟨_, rfl⟩
  have hP : 4 ||| P = P := by rw [hPP]; rfl
  have hs : Keeps P s s := Keeps.refl _ _
  rw [← hPP]
  unfold execCmpCntClear at he
  injection he with he
  rw [← he]
  clear he
  repeat' (first
    | with_reducible assumption
    | with_reducible apply State.clearCounters_keeps
    | with_reducible apply keeps_ite)

theorem execPlaneFetch_keeps {t₀ : State} {fetcher : Fetcher} {j : Nat} {s : State} (he : execPlaneFetch fetcher j s = .next t₀) : Keeps 4839 s t₀ := by
  obtain ⟨P, hPP⟩ : ∃ P, P = 4839 := ⟨_, rfl⟩
  have hP : 4839 ||| P = P := by rw [hPP]; rfl
  have hs : Keeps P s s := Keeps.refl _ _
  rw [← hPP]
  unfold execPlaneFetch at he
  injection he with he
  rw [← he]
  clear he
  repeat' (first
    | with_reducible assumption
    | with_reducible apply State.fetchLine_keeps
    | with_reducible apply keeps_ite)

theorem execAbortPoint_keeps {t₀ : State} {ring : Nat} {pi : Nat} {ci : Nat} {s : State} (he : execAbortPoint ring pi ci s = .next t₀) : Keeps 2536423 s t₀ := by
  obtain ⟨P, hPP⟩ : ∃ P, P = 2536423 := ⟨_, rfl⟩
  have hP : 2536423 ||| P = P := by rw [hPP]; rfl
  have hs : Keeps P s s := Keeps.refl _ _
  rw [← hPP]
  unfold execAbortPoint at he
  injection he with he
  rw [← he]
  clear he
  repeat' (first
    | with_reducible assumption
    | with_reducible apply State.abortPoint_keeps
    | with_reducible apply keeps_ite)

theorem execLogRead_keeps {t₀ : State} {ring : Nat} {errs : List LogErr} {s : State} (he : execLogRead ring errs s = .next t₀) : Keeps 743 s t₀ := by
  obtain ⟨P, hPP⟩ : ∃ P, P = 743 := ⟨_, rfl⟩
  have hP : 743 ||| P = P := by rw [hPP]; rfl
  have hs : Keeps P s s := Keeps.refl _ _
  rw [← hPP]
  unfold execLogRead at he
  injection he with he
  rw [← he]
  clear he
  repeat' (first
    | with_reducible assumption
    | with_reducible apply State.opLogRead_keeps)

theorem execLogWrite_keeps {t₀ : State} {ring : Nat} {data : List Byte} {run : LogRun} {s : State} (he : execLogWrite ring data run s = .next t₀) : Keeps 743 s t₀ := by
  obtain ⟨P, hPP⟩ : ∃ P, P = 743 := ⟨_, rfl⟩
  have hP : 743 ||| P = P := by rw [hPP]; rfl
  have hs : Keeps P s s := Keeps.refl _ _
  rw [← hPP]
  unfold execLogWrite at he
  injection he with he
  rw [← he]
  clear he
  repeat' (first
    | with_reducible assumption
    | (refine mask_mono ?_ hP; rfl)
    | with_reducible apply State.logGo_keeps
    | with_reducible apply State.opLogWrite_keeps
    | with_reducible apply keeps_ite
    | split)

theorem execNvsRecallDone_keeps {t₀ : State} {errs : List LogErr} {s : State} (he : execNvsRecallDone errs s = .next t₀) : Keeps 615 s t₀ := by
  obtain ⟨P, hPP⟩ : ∃ P, P = 615 := ⟨_, rfl⟩
  have hP : 615 ||| P = P := by rw [hPP]; rfl
  have hs : Keeps P s s := Keeps.refl _ _
  rw [← hPP]
  unfold execNvsRecallDone at he
  injection he with he
  rw [← he]
  clear he
  repeat' (first
    | with_reducible assumption
    | with_reducible apply State.recallEnd_keeps
    | with_reducible apply keeps_ite)

theorem execSvnCommit_keeps {t₀ : State} {s : State} (he : execSvnCommit s = .next t₀) : Keeps 516 s t₀ := by
  obtain ⟨P, hPP⟩ : ∃ P, P = 516 := ⟨_, rfl⟩
  have hP : 516 ||| P = P := by rw [hPP]; rfl
  have hs : Keeps P s s := Keeps.refl _ _
  rw [← hPP]
  unfold execSvnCommit at he
  injection he with he
  rw [← he]
  clear he
  repeat' (first
    | with_reducible assumption
    | with_reducible apply State.svnCommit_keeps
    | with_reducible apply keeps_ite)

theorem execS0SecondsUpdate_keeps {t₀ : State} {s : State} (he : execS0SecondsUpdate s = .next t₀) : Keeps 512 s t₀ := by
  obtain ⟨P, hPP⟩ : ∃ P, P = 512 := ⟨_, rfl⟩
  have hP : 512 ||| P = P := by rw [hPP]; rfl
  have hs : Keeps P s s := Keeps.refl _ _
  rw [← hPP]
  unfold execS0SecondsUpdate at he
  injection he with he
  rw [← he]
  clear he
  repeat' (first
    | with_reducible assumption
    | (intro (_ : State) _ (_ : Keeps _ _ _); try dsimp only)
    | (intro _ _ _ (_ : Keeps _ _ _); try dsimp only)
    | (intro _ _ _ _ (_ : Keeps _ _ _); try dsimp only)
    | (intro _ _ _ _ _ (_ : Keeps _ _ _); try dsimp only)
    | (intro (_ : State) (_ : Keeps _ _ _); try dsimp only)
    | exact fun hw => Stores.wf_of rfl rfl hw
    | with_reducible apply State.bumpLifetime_keeps
    | with_reducible apply State.modNvs_keeps
    | with_reducible apply keeps_ite
    | exact rfl)

theorem execNvsCntClear_keeps {t₀ : State} {s : State} (he : execNvsCntClear s = .next t₀) : Keeps 4 s t₀ := by
  obtain ⟨P, hPP⟩ : ∃ P, P = 4 := ⟨_, rfl⟩
  have hP : 4 ||| P = P := by rw [hPP]; rfl
  have hs : Keeps P s s := Keeps.refl _ _
  rw [← hPP]
  unfold execNvsCntClear at he
  injection he with he
  rw [← he]
  clear he
  repeat' (first
    | with_reducible assumption
    | with_reducible apply State.clearCounters_keeps
    | with_reducible apply keeps_ite)

theorem execFlashRead_keeps {t₀ : State} {ring : Nat} {s : State} (he : execFlashRead ring s = .next t₀) : Keeps 743 s t₀ := by
  obtain ⟨P, hPP⟩ : ∃ P, P = 743 := ⟨_, rfl⟩
  have hP : 743 ||| P = P := by rw [hPP]; rfl
  have hs : Keeps P s s := Keeps.refl _ _
  rw [← hPP]
  unfold execFlashRead at he
  injection he with he
  rw [← he]
  clear he
  repeat' (first
    | with_reducible assumption
    | with_reducible apply State.opFlashRead_keeps
    | with_reducible apply keeps_ite)

theorem execFlashWrite_keeps {t₀ : State} {ring : Nat} {data : List Byte} {run : StoreRun} {s : State} (he : execFlashWrite ring data run s = .next t₀) : Keeps 1767 s t₀ := by
  obtain ⟨P, hPP⟩ : ∃ P, P = 1767 := ⟨_, rfl⟩
  have hP : 1767 ||| P = P := by rw [hPP]; rfl
  have hs : Keeps P s s := Keeps.refl _ _
  rw [← hPP]
  unfold execFlashWrite at he
  injection he with he
  rw [← he]
  clear he
  repeat' (first
    | with_reducible assumption
    | (refine mask_mono ?_ hP; rfl)
    | with_reducible apply State.flashGo_keeps
    | with_reducible apply State.opFlashWrite_keeps
    | with_reducible apply keeps_ite
    | split)

theorem execSettingsWrite_keeps {t₀ : State} {ring : Nat} {data : List Byte} {run : StoreRun} {s : State} (he : execSettingsWrite ring data run s = .next t₀) : Keeps 1767 s t₀ := by
  obtain ⟨P, hPP⟩ : ∃ P, P = 1767 := ⟨_, rfl⟩
  have hP : 1767 ||| P = P := by rw [hPP]; rfl
  have hs : Keeps P s s := Keeps.refl _ _
  rw [← hPP]
  unfold execSettingsWrite at he
  injection he with he
  rw [← he]
  clear he
  repeat' (first
    | with_reducible assumption
    | (refine mask_mono ?_ hP; rfl)
    | with_reducible apply State.settingsGo_keeps
    | with_reducible apply State.opSettingsWrite_keeps
    | with_reducible apply keeps_ite
    | split)

theorem execEAppFall_keeps {t₀ : State} {s : State} (he : execEAppFall s = .next t₀) : Keeps 2663 s t₀ := by
  obtain ⟨P, hPP⟩ : ∃ P, P = 2663 := ⟨_, rfl⟩
  have hP : 2663 ||| P = P := by rw [hPP]; rfl
  have hs : Keeps P s s := Keeps.refl _ _
  rw [← hPP]
  unfold execEAppFall at he
  injection he with he
  rw [← he]
  clear he
  repeat' (first
    | with_reducible assumption
    | with_reducible apply State.appFall_keeps
    | with_reducible apply keeps_ite)

theorem execHostMaxUsExpiry_keeps {t₀ : State} {s : State} (he : execHostMaxUsExpiry s = .next t₀) : Keeps 0 s t₀ := by
  obtain ⟨P, hPP⟩ : ∃ P, P = 0 := ⟨_, rfl⟩
  have hP : 0 ||| P = P := by rw [hPP]; rfl
  have hs : Keeps P s s := Keeps.refl _ _
  rw [← hPP]
  unfold execHostMaxUsExpiry at he
  injection he with he
  rw [← he]
  clear he
  repeat' (first
    | with_reducible assumption)

theorem execSwathRowLoad_keeps {t₀ : State} {die : Die} {s : State} (he : execSwathRowLoad die s = .next t₀) : Keeps 2791 s t₀ := by
  obtain ⟨P, hPP⟩ : ∃ P, P = 2791 := ⟨_, rfl⟩
  have hP : 2791 ||| P = P := by rw [hPP]; rfl
  have hs : Keeps P s s := Keeps.refl _ _
  rw [← hPP]
  unfold execSwathRowLoad at he
  injection he with he
  rw [← he]
  clear he
  repeat' (first
    | with_reducible assumption
    | with_reducible apply State.swathLoad_keeps
    | with_reducible apply keeps_ite)

theorem execSynthRow_keeps {t₀ : State} {row : DieRow} {s : State} (he : execSynthRow row s = .next t₀) : Keeps 35559 s t₀ := by
  obtain ⟨P, hPP⟩ : ∃ P, P = 35559 := ⟨_, rfl⟩
  have hP : 35559 ||| P = P := by rw [hPP]; rfl
  have hs : Keeps P s s := Keeps.refl _ _
  rw [← hPP]
  unfold execSynthRow at he
  injection he with he
  rw [← he]
  clear he
  repeat' (first
    | with_reducible assumption
    | with_reducible apply State.synthDie_keeps
    | with_reducible apply keeps_ite)

theorem execSynCntClear_keeps {t₀ : State} {s : State} (he : execSynCntClear s = .next t₀) : Keeps 4 s t₀ := by
  obtain ⟨P, hPP⟩ : ∃ P, P = 4 := ⟨_, rfl⟩
  have hP : 4 ||| P = P := by rw [hPP]; rfl
  have hs : Keeps P s s := Keeps.refl _ _
  rw [← hPP]
  unfold execSynCntClear at he
  injection he with he
  rw [← he]
  clear he
  repeat' (first
    | with_reducible assumption
    | with_reducible apply State.clearCounters_keeps
    | with_reducible apply State.setWord_keeps
    | with_reducible apply keeps_ite)

theorem execStatusBlock_keeps {t₀ : State} {lane : Nat} {blk : List Byte} {s : State} (he : execStatusBlock lane blk s = .next t₀) : Keeps 16999 s t₀ := by
  obtain ⟨P, hPP⟩ : ∃ P, P = 16999 := ⟨_, rfl⟩
  have hP : 16999 ||| P = P := by rw [hPP]; rfl
  have hs : Keeps P s s := Keeps.refl _ _
  rw [← hPP]
  unfold execStatusBlock at he
  injection he with he
  rw [← he]
  clear he
  repeat' (first
    | with_reducible assumption
    | with_reducible apply State.onStatus_keeps
    | with_reducible apply keeps_ite)

theorem execStatusTimeout_keeps {t₀ : State} {port : Nat} {s : State} (he : execStatusTimeout port s = .next t₀) : Keeps 16999 s t₀ := by
  obtain ⟨P, hPP⟩ : ∃ P, P = 16999 := ⟨_, rfl⟩
  have hP : 16999 ||| P = P := by rw [hPP]; rfl
  have hs : Keeps P s s := Keeps.refl _ _
  rw [← hPP]
  unfold execStatusTimeout at he
  injection he with he
  rw [← he]
  clear he
  repeat' (first
    | with_reducible assumption
    | with_reducible apply State.portRetrain_keeps
    | with_reducible apply keeps_ite)

theorem execTrainReq_keeps {t₀ : State} {lane : Nat} {blk : List Byte} {s : State} (he : execTrainReq lane blk s = .next t₀) : Keeps 1064965 s t₀ := by
  obtain ⟨P, hPP⟩ : ∃ P, P = 1064965 := ⟨_, rfl⟩
  have hP : 1064965 ||| P = P := by rw [hPP]; rfl
  have hs : Keeps P s s := Keeps.refl _ _
  rw [← hPP]
  unfold execTrainReq at he
  injection he with he
  rw [← he]
  clear he
  repeat' (first
    | with_reducible assumption
    | with_reducible apply State.onTrainReq_keeps
    | with_reducible apply keeps_ite)

theorem execPnlTrainFail_keeps {t₀ : State} {port : Nat} {s : State} (he : execPnlTrainFail port s = .next t₀) : Keeps 1065575 s t₀ := by
  obtain ⟨P, hPP⟩ : ∃ P, P = 1065575 := ⟨_, rfl⟩
  have hP : 1065575 ||| P = P := by rw [hPP]; rfl
  have hs : Keeps P s s := Keeps.refl _ _
  rw [← hPP]
  unfold execPnlTrainFail at he
  injection he with he
  rw [← he]
  clear he
  repeat' (first
    | with_reducible assumption
    | (refine mask_mono ?_ hP; rfl)
    | with_reducible apply State.stopPort_keeps
    | with_reducible apply State.raise_keeps
    | with_reducible apply keeps_ite)

theorem execTrainRetry_keeps {t₀ : State} {port : Nat} {s : State} (he : execTrainRetry port s = .next t₀) : Keeps 1064964 s t₀ := by
  obtain ⟨P, hPP⟩ : ∃ P, P = 1064964 := ⟨_, rfl⟩
  have hP : 1064964 ||| P = P := by rw [hPP]; rfl
  have hs : Keeps P s s := Keeps.refl _ _
  rw [← hPP]
  unfold execTrainRetry at he
  injection he with he
  rw [← he]
  clear he
  repeat' (first
    | with_reducible assumption
    | (refine mask_mono ?_ hP; rfl)
    | with_reducible apply State.modPort_keeps
    | with_reducible apply State.settlePorts_keeps
    | with_reducible apply keeps_ite)

theorem execPnlRetrain_keeps {t₀ : State} {val : Word} {s : State} (he : execPnlRetrain val s = .next t₀) : Keeps 16999 s t₀ := by
  obtain ⟨P, hPP⟩ : ∃ P, P = 16999 := ⟨_, rfl⟩
  have hP : 16999 ||| P = P := by rw [hPP]; rfl
  have hs : Keeps P s s := Keeps.refl _ _
  rw [← hPP]
  unfold execPnlRetrain at he
  injection he with he
  rw [← he]
  clear he
  repeat' (first
    | with_reducible assumption
    | with_reducible apply State.writeRetrain_keeps
    | with_reducible apply keeps_ite)

theorem execPrefLimit_keeps {t₀ : State} {n : Nat} {s : State} (he : execPrefLimit n s = .next t₀) : Keeps 615 s t₀ := by
  obtain ⟨P, hPP⟩ : ∃ P, P = 615 := ⟨_, rfl⟩
  have hP : 615 ||| P = P := by rw [hPP]; rfl
  have hs : Keeps P s s := Keeps.refl _ _
  rw [← hPP]
  unfold execPrefLimit at he
  injection he with he
  rw [← he]
  clear he
  repeat' (first
    | with_reducible assumption
    | with_reducible apply State.raise_keeps
    | with_reducible apply keeps_ite)

theorem execCrkMeasure_keeps {t₀ : State} {ohms : Nat} {s : State} (he : execCrkMeasure ohms s = .next t₀) : Keeps 3162743 s t₀ := by
  obtain ⟨P, hPP⟩ : ∃ P, P = 3162743 := ⟨_, rfl⟩
  have hP : 3162743 ||| P = P := by rw [hPP]; rfl
  have hs : Keeps P s s := Keeps.refl _ _
  rw [← hPP]
  unfold execCrkMeasure at he
  injection he with he
  rw [← he]
  clear he
  repeat' (first
    | with_reducible assumption
    | with_reducible apply State.onCrk_keeps
    | with_reducible apply keeps_ite)

theorem execPmbGo_keeps {t₀ : State} {val : Word} {s : State} (he : execPmbGo val s = .next t₀) : Keeps 5 s t₀ := by
  obtain ⟨P, hPP⟩ : ∃ P, P = 5 := ⟨_, rfl⟩
  have hP : 5 ||| P = P := by rw [hPP]; rfl
  have hs : Keeps P s s := Keeps.refl _ _
  rw [← hPP]
  unfold execPmbGo at he
  injection he with he
  rw [← he]
  clear he
  repeat' (first
    | with_reducible assumption
    | with_reducible apply State.writePmb_keeps
    | with_reducible apply keeps_ite)

theorem execPnlPmbDone_keeps {t₀ : State} {ack : Bool} {data : Word} {s : State} (he : execPnlPmbDone ack data s = .next t₀) : Keeps 615 s t₀ := by
  obtain ⟨P, hPP⟩ : ∃ P, P = 615 := ⟨_, rfl⟩
  have hP : 615 ||| P = P := by rw [hPP]; rfl
  have hs : Keeps P s s := Keeps.refl _ _
  rw [← hPP]
  unfold execPnlPmbDone at he
  injection he with he
  rw [← he]
  clear he
  repeat' (first
    | with_reducible assumption
    | with_reducible apply State.endPmb_keeps
    | with_reducible apply keeps_ite)

theorem execPnlCntClear_keeps {t₀ : State} {s : State} (he : execPnlCntClear s = .next t₀) : Keeps 4 s t₀ := by
  obtain ⟨P, hPP⟩ : ∃ P, P = 4 := ⟨_, rfl⟩
  have hP : 4 ||| P = P := by rw [hPP]; rfl
  have hs : Keeps P s s := Keeps.refl _ _
  rw [← hPP]
  unfold execPnlCntClear at he
  injection he with he
  rw [← he]
  clear he
  repeat' (first
    | with_reducible assumption
    | with_reducible apply State.clearCounters_keeps
    | with_reducible apply keeps_ite)

theorem execPrbsChk_keeps {t₀ : State} {n : Nat} {on : Bool} {s : State} (he : execPrbsChk n on s = .next t₀) : Keeps 3162727 s t₀ := by
  obtain ⟨P, hPP⟩ : ∃ P, P = 3162727 := ⟨_, rfl⟩
  have hP : 3162727 ||| P = P := by rw [hPP]; rfl
  have hs : Keeps P s s := Keeps.refl _ _
  rw [← hPP]
  unfold execPrbsChk at he
  injection he with he
  rw [← he]
  clear he
  repeat' (first
    | with_reducible assumption
    | with_reducible apply State.setPrbsChk_keeps
    | with_reducible apply keeps_ite)

theorem execPrbsGen_keeps {t₀ : State} {n : Nat} {on : Bool} {s : State} (he : execPrbsGen n on s = .next t₀) : Keeps 3162727 s t₀ := by
  obtain ⟨P, hPP⟩ : ∃ P, P = 3162727 := ⟨_, rfl⟩
  have hP : 3162727 ||| P = P := by rw [hPP]; rfl
  have hs : Keeps P s s := Keeps.refl _ _
  rw [← hPP]
  unfold execPrbsGen at he
  injection he with he
  rw [← he]
  clear he
  repeat' (first
    | with_reducible assumption
    | with_reducible apply State.setPrbsGen_keeps
    | with_reducible apply keeps_ite)

theorem execRxBlock_keeps {t₀ : State} {n : Nat} {syms : List Nat} {s : State} (he : execRxBlock n syms s = .next t₀) : Keeps 3162727 s t₀ := by
  obtain ⟨P, hPP⟩ : ∃ P, P = 3162727 := ⟨_, rfl⟩
  have hP : 3162727 ||| P = P := by rw [hPP]; rfl
  have hs : Keeps P s s := Keeps.refl _ _
  rw [← hPP]
  unfold execRxBlock at he
  injection he with he
  rw [← he]
  clear he
  repeat' (first
    | with_reducible assumption
    | (refine mask_mono ?_ hP; rfl)
    | with_reducible apply State.rxLane_keeps
    | with_reducible apply State.afterLane_keeps
    | with_reducible apply keeps_ite)

theorem execRxElectricalIdle_keeps {t₀ : State} {n : Nat} {s : State} (he : execRxElectricalIdle n s = .next t₀) : Keeps 3162727 s t₀ := by
  obtain ⟨P, hPP⟩ : ∃ P, P = 3162727 := ⟨_, rfl⟩
  have hP : 3162727 ||| P = P := by rw [hPP]; rfl
  have hs : Keeps P s s := Keeps.refl _ _
  rw [← hPP]
  unfold execRxElectricalIdle at he
  injection he with he
  rw [← he]
  clear he
  repeat' (first
    | with_reducible assumption
    | (refine mask_mono ?_ hP; rfl)
    | with_reducible apply State.modLane_keeps
    | with_reducible apply State.showIdle_keeps
    | with_reducible apply State.afterLane_keeps
    | with_reducible apply keeps_ite)

theorem execRxIdleEnd_keeps {t₀ : State} {n : Nat} {s : State} (he : execRxIdleEnd n s = .next t₀) : Keeps 3162727 s t₀ := by
  obtain ⟨P, hPP⟩ : ∃ P, P = 3162727 := ⟨_, rfl⟩
  have hP : 3162727 ||| P = P := by rw [hPP]; rfl
  have hs : Keeps P s s := Keeps.refl _ _
  rw [← hPP]
  unfold execRxIdleEnd at he
  injection he with he
  rw [← he]
  clear he
  repeat' (first
    | with_reducible assumption
    | (refine mask_mono ?_ hP; rfl)
    | with_reducible apply State.idleEnd_keeps
    | with_reducible apply State.afterLane_keeps
    | with_reducible apply keeps_ite)

theorem execElectricalIdleDwellEnd_keeps {t₀ : State} {n : Nat} {s : State} (he : execElectricalIdleDwellEnd n s = .next t₀) : Keeps 3162727 s t₀ := by
  obtain ⟨P, hPP⟩ : ∃ P, P = 3162727 := ⟨_, rfl⟩
  have hP : 3162727 ||| P = P := by rw [hPP]; rfl
  have hs : Keeps P s s := Keeps.refl _ _
  rw [← hPP]
  unfold execElectricalIdleDwellEnd at he
  injection he with he
  rw [← he]
  clear he
  repeat' (first
    | with_reducible assumption
    | (refine mask_mono ?_ hP; rfl)
    | with_reducible apply State.panelDwellEnd_keeps
    | with_reducible apply State.txIdle_keeps
    | with_reducible apply State.dwellEnd_keeps
    | with_reducible apply keeps_ite)

theorem execPresent_keeps {t₀ : State} {ring : Nat} {s : State} (he : execPresent ring s = .next t₀) : Keeps 3154551 s t₀ := by
  obtain ⟨P, hPP⟩ : ∃ P, P = 3154551 := ⟨_, rfl⟩
  have hP : 3154551 ||| P = P := by rw [hPP]; rfl
  have hs : Keeps P s s := Keeps.refl _ _
  rw [← hPP]
  unfold execPresent at he
  injection he with he
  rw [← he]
  clear he
  repeat' (first
    | with_reducible assumption
    | with_reducible apply State.opPresent_keeps)

theorem execPresentMessage_keeps {t₀ : State} {p : Port} {msg : List Byte} {s : State} (he : execPresentMessage p msg s = .next t₀) : Keeps 2105959 s t₀ := by
  obtain ⟨P, hPP⟩ : ∃ P, P = 2105959 := ⟨_, rfl⟩
  have hP : 2105959 ||| P = P := by rw [hPP]; rfl
  have hs : Keeps P s s := Keeps.refl _ _
  rw [← hPP]
  unfold execPresentMessage at he
  injection he with he
  rw [← he]
  clear he
  repeat' (first
    | with_reducible assumption
    | with_reducible apply State.onPresentMsg_keeps
    | with_reducible apply keeps_ite)

theorem execGuardPoint_keeps {t₀ : State} {s : State} (he : execGuardPoint s = .next t₀) : Keeps 45316 s t₀ := by
  obtain ⟨P, hPP⟩ : ∃ P, P = 45316 := ⟨_, rfl⟩
  have hP : 45316 ||| P = P := by rw [hPP]; rfl
  have hs : Keeps P s s := Keeps.refl _ _
  rw [← hPP]
  unfold execGuardPoint at he
  injection he with he
  rw [← he]
  clear he
  repeat' (first
    | with_reducible assumption
    | with_reducible apply State.guardPoint_keeps
    | with_reducible apply keeps_ite)

theorem execScnCntClear_keeps {t₀ : State} {s : State} (he : execScnCntClear s = .next t₀) : Keeps 4 s t₀ := by
  obtain ⟨P, hPP⟩ : ∃ P, P = 4 := ⟨_, rfl⟩
  have hP : 4 ||| P = P := by rw [hPP]; rfl
  have hs : Keeps P s s := Keeps.refl _ _
  rw [← hPP]
  unfold execScnCntClear at he
  injection he with he
  rw [← he]
  clear he
  repeat' (first
    | with_reducible assumption
    | with_reducible apply State.clearCounters_keeps
    | with_reducible apply keeps_ite)

theorem execDcbWindowEnd_keeps {t₀ : State} {s : State} (he : execDcbWindowEnd s = .next t₀) : Keeps 16999 s t₀ := by
  obtain ⟨P, hPP⟩ : ∃ P, P = 16999 := ⟨_, rfl⟩
  have hP : 16999 ||| P = P := by rw [hPP]; rfl
  have hs : Keeps P s s := Keeps.refl _ _
  rw [← hPP]
  unfold execDcbWindowEnd at he
  injection he with he
  rw [← he]
  clear he
  repeat' (first
    | with_reducible assumption
    | with_reducible apply State.dcbEnd_keeps
    | with_reducible apply keeps_ite)

theorem execFstrobePulseEnd_keeps {t₀ : State} {s : State} (he : execFstrobePulseEnd s = .next t₀) : Keeps 17 s t₀ := by
  obtain ⟨P, hPP⟩ : ∃ P, P = 17 := ⟨_, rfl⟩
  have hP : 17 ||| P = P := by rw [hPP]; rfl
  have hs : Keeps P s s := Keeps.refl _ _
  rw [← hPP]
  unfold execFstrobePulseEnd at he
  injection he with he
  rw [← he]
  clear he
  repeat' (first
    | with_reducible assumption
    | (refine mask_mono ?_ hP; rfl)
    | with_reducible apply State.fstrobe_keeps
    | with_reducible apply State.drive_keeps
    | split
    | with_reducible apply Keeps.set_tim)

theorem execFrameStart_keeps {t₀ : State} {s : State} (he : execFrameStart s = .next t₀) : Keeps 1110647 s t₀ := by
  obtain ⟨P, hPP⟩ : ∃ P, P = 1110647 := ⟨_, rfl⟩
  have hP : 1110647 ||| P = P := by rw [hPP]; rfl
  have hs : Keeps P s s := Keeps.refl _ _
  rw [← hPP]
  unfold execFrameStart at he
  injection he with he
  rw [← he]
  clear he
  repeat' (first
    | with_reducible assumption
    | with_reducible apply State.frameStart_keeps
    | with_reducible apply keeps_ite)

theorem execTrefValid_keeps {t₀ : State} {s : State} (he : execTrefValid s = .next t₀) : Keeps 631 s t₀ := by
  obtain ⟨P, hPP⟩ : ∃ P, P = 631 := ⟨_, rfl⟩
  have hP : 631 ||| P = P := by rw [hPP]; rfl
  have hs : Keeps P s s := Keeps.refl _ _
  rw [← hPP]
  unfold execTrefValid at he
  injection he with he
  rw [← he]
  clear he
  repeat' (first
    | with_reducible assumption
    | with_reducible apply State.trefValid_keeps
    | with_reducible apply keeps_ite)

theorem execTrefLost_keeps {t₀ : State} {s : State} (he : execTrefLost s = .next t₀) : Keeps 631 s t₀ := by
  obtain ⟨P, hPP⟩ : ∃ P, P = 631 := ⟨_, rfl⟩
  have hP : 631 ||| P = P := by rw [hPP]; rfl
  have hs : Keeps P s s := Keeps.refl _ _
  rw [← hPP]
  unfold execTrefLost at he
  injection he with he
  rw [← he]
  clear he
  repeat' (first
    | with_reducible assumption
    | with_reducible apply State.trefLost_keeps
    | with_reducible apply keeps_ite)

theorem execTimOffsetHi_keeps {t₀ : State} {val : Word} {s : State} (he : execTimOffsetHi val s = .next t₀) : Keeps 8468 s t₀ := by
  obtain ⟨P, hPP⟩ : ∃ P, P = 8468 := ⟨_, rfl⟩
  have hP : 8468 ||| P = P := by rw [hPP]; rfl
  have hs : Keeps P s s := Keeps.refl _ _
  rw [← hPP]
  unfold execTimOffsetHi at he
  injection he with he
  rw [← he]
  clear he
  repeat' (first
    | with_reducible assumption
    | with_reducible apply State.writeOffsetHi_keeps
    | with_reducible apply keeps_ite)

theorem execTimRate_keeps {t₀ : State} {val : Word} {s : State} (he : execTimRate val s = .next t₀) : Keeps 20 s t₀ := by
  obtain ⟨P, hPP⟩ : ∃ P, P = 20 := ⟨_, rfl⟩
  have hP : 20 ||| P = P := by rw [hPP]; rfl
  have hs : Keeps P s s := Keeps.refl _ _
  rw [← hPP]
  unfold execTimRate at he
  injection he with he
  rw [← he]
  clear he
  repeat' (first
    | with_reducible assumption
    | with_reducible apply State.setTimeRate_keeps
    | with_reducible apply keeps_ite)

theorem execTimDcIncHi_keeps {t₀ : State} {val : Word} {s : State} (he : execTimDcIncHi val s = .next t₀) : Keeps 20 s t₀ := by
  obtain ⟨P, hPP⟩ : ∃ P, P = 20 := ⟨_, rfl⟩
  have hP : 20 ||| P = P := by rw [hPP]; rfl
  have hs : Keeps P s s := Keeps.refl _ _
  rw [← hPP]
  unfold execTimDcIncHi at he
  injection he with he
  rw [← he]
  clear he
  repeat' (first
    | with_reducible assumption
    | with_reducible apply State.writeIncHi_keeps
    | with_reducible apply keeps_ite)

theorem execTimPpsSecHi_keeps {t₀ : State} {val : Word} {s : State} (he : execTimPpsSecHi val s = .next t₀) : Keeps 20 s t₀ := by
  obtain ⟨P, hPP⟩ : ∃ P, P = 20 := ⟨_, rfl⟩
  have hP : 20 ||| P = P := by rw [hPP]; rfl
  have hs : Keeps P s s := Keeps.refl _ _
  rw [← hPP]
  unfold execTimPpsSecHi at he
  injection he with he
  rw [← he]
  clear he
  repeat' (first
    | with_reducible assumption
    | with_reducible apply State.writePpsSec_keeps
    | with_reducible apply keeps_ite)

theorem execSnap_keeps {t₀ : State} {s : State} (he : execSnap s = .next t₀) : Keeps 4 s t₀ := by
  obtain ⟨P, hPP⟩ : ∃ P, P = 4 := ⟨_, rfl⟩
  have hP : 4 ||| P = P := by rw [hPP]; rfl
  have hs : Keeps P s s := Keeps.refl _ _
  rw [← hPP]
  unfold execSnap at he
  injection he with he
  rw [← he]
  clear he
  repeat' (first
    | with_reducible assumption
    | with_reducible apply State.snapTime_keeps
    | with_reducible apply keeps_ite)

theorem execArm_keeps {t₀ : State} {n : Nat} {val : Word} {s : State} (he : execArm n val s = .next t₀) : Keeps 631 s t₀ := by
  obtain ⟨P, hPP⟩ : ∃ P, P = 631 := ⟨_, rfl⟩
  have hP : 631 ||| P = P := by rw [hPP]; rfl
  have hs : Keeps P s s := Keeps.refl _ _
  rw [← hPP]
  unfold execArm at he
  injection he with he
  rw [← he]
  clear he
  repeat' (first
    | with_reducible assumption
    | with_reducible apply State.arm_keeps
    | with_reducible apply keeps_ite)

theorem execDisarm_keeps {t₀ : State} {n : Nat} {val : Word} {s : State} (he : execDisarm n val s = .next t₀) : Keeps 21 s t₀ := by
  obtain ⟨P, hPP⟩ : ∃ P, P = 21 := ⟨_, rfl⟩
  have hP : 21 ||| P = P := by rw [hPP]; rfl
  have hs : Keeps P s s := Keeps.refl _ _
  rw [← hPP]
  unfold execDisarm at he
  injection he with he
  rw [← he]
  clear he
  repeat' (first
    | with_reducible assumption
    | (refine mask_mono ?_ hP; rfl)
    | with_reducible apply State.setTevCtrl_keeps
    | with_reducible apply State.disarm_keeps
    | with_reducible apply keeps_ite)

theorem execTevEdge_keeps {t₀ : State} {n : Nat} {s : State} (he : execTevEdge n s = .next t₀) : Keeps 17 s t₀ := by
  obtain ⟨P, hPP⟩ : ∃ P, P = 17 := ⟨_, rfl⟩
  have hP : 17 ||| P = P := by rw [hPP]; rfl
  have hs : Keeps P s s := Keeps.refl _ _
  rw [← hPP]
  unfold execTevEdge at he
  injection he with he
  rw [← he]
  clear he
  repeat' (first
    | with_reducible assumption
    | with_reducible apply State.fire_keeps
    | with_reducible apply keeps_ite
    | split)

theorem execTevPulseEnd_keeps {t₀ : State} {n : Nat} {s : State} (he : execTevPulseEnd n s = .next t₀) : Keeps 631 s t₀ := by
  obtain ⟨P, hPP⟩ : ∃ P, P = 631 := ⟨_, rfl⟩
  have hP : 631 ||| P = P := by rw [hPP]; rfl
  have hs : Keeps P s s := Keeps.refl _ _
  rw [← hPP]
  unfold execTevPulseEnd at he
  injection he with he
  rw [← he]
  clear he
  repeat' (first
    | with_reducible assumption
    | with_reducible apply State.pulseEnd_keeps
    | split)

theorem execTimDcAdj_keeps {t₀ : State} {val : Word} {s : State} (he : execTimDcAdj val s = .next t₀) : Keeps 64375 s t₀ := by
  obtain ⟨P, hPP⟩ : ∃ P, P = 64375 := ⟨_, rfl⟩
  have hP : 64375 ||| P = P := by rw [hPP]; rfl
  have hs : Keeps P s s := Keeps.refl _ _
  rw [← hPP]
  unfold execTimDcAdj at he
  injection he with he
  rw [← he]
  clear he
  repeat' (first
    | with_reducible assumption
    | with_reducible apply State.writeDcAdj_keeps
    | with_reducible apply keeps_ite)

theorem execSteerCompare_keeps {t₀ : State} {s : State} (he : execSteerCompare s = .next t₀) : Keeps 64375 s t₀ := by
  obtain ⟨P, hPP⟩ : ∃ P, P = 64375 := ⟨_, rfl⟩
  have hP : 64375 ||| P = P := by rw [hPP]; rfl
  have hs : Keeps P s s := Keeps.refl _ _
  rw [← hPP]
  unfold execSteerCompare at he
  injection he with he
  rw [← he]
  clear he
  repeat' (first
    | with_reducible assumption
    | with_reducible apply State.steerCompare_keeps
    | with_reducible apply keeps_ite)

theorem execTimPpsLost_keeps {t₀ : State} {s : State} (he : execTimPpsLost s = .next t₀) : Keeps 631 s t₀ := by
  obtain ⟨P, hPP⟩ : ∃ P, P = 631 := ⟨_, rfl⟩
  have hP : 631 ||| P = P := by rw [hPP]; rfl
  have hs : Keeps P s s := Keeps.refl _ _
  rw [← hPP]
  unfold execTimPpsLost at he
  injection he with he
  rw [← he]
  clear he
  repeat' (first
    | with_reducible assumption
    | with_reducible apply State.ppsInvalid_keeps
    | with_reducible apply keeps_ite)

theorem execPpsEdge_keeps {t₀ : State} {s : State} (he : execPpsEdge s = .next t₀) : Keeps 9079 s t₀ := by
  obtain ⟨P, hPP⟩ : ∃ P, P = 9079 := ⟨_, rfl⟩
  have hP : 9079 ||| P = P := by rw [hPP]; rfl
  have hs : Keeps P s s := Keeps.refl _ _
  rw [← hPP]
  unfold execPpsEdge at he
  injection he with he
  rw [← he]
  clear he
  repeat' (first
    | with_reducible assumption
    | with_reducible apply State.ppsEdge_keeps
    | with_reducible apply keeps_ite)

theorem execTsyncSend_keeps {t₀ : State} {lead : Nat} {s : State} (he : execTsyncSend lead s = .next t₀) : Keeps 1048577 s t₀ := by
  obtain ⟨P, hPP⟩ : ∃ P, P = 1048577 := ⟨_, rfl⟩
  have hP : 1048577 ||| P = P := by rw [hPP]; rfl
  have hs : Keeps P s s := Keeps.refl _ _
  rw [← hPP]
  unfold execTsyncSend at he
  injection he with he
  rw [← he]
  clear he
  repeat' (first
    | with_reducible assumption
    | with_reducible apply State.sendLocal_keeps
    | with_reducible apply keeps_ite
    | split)

theorem execTsync_keeps {t₀ : State} {lane : Nat} {msg : List Byte} {back : Nat} {s : State} (he : execTsync lane msg back s = .next t₀) : Keeps 22 s t₀ := by
  obtain ⟨P, hPP⟩ : ∃ P, P = 22 := ⟨_, rfl⟩
  have hP : 22 ||| P = P := by rw [hPP]; rfl
  have hs : Keeps P s s := Keeps.refl _ _
  rw [← hPP]
  unfold execTsync at he
  injection he with he
  rw [← he]
  clear he
  try dsimp only
  repeat' (first
    | with_reducible assumption
    | with_reducible apply State.followTsync_keeps
    | with_reducible apply keeps_ite
    | split)

theorem execTimLock_keeps {t₀ : State} {s : State} (he : execTimLock s = .next t₀) : Keeps 9079 s t₀ := by
  obtain ⟨P, hPP⟩ : ∃ P, P = 9079 := ⟨_, rfl⟩
  have hP : 9079 ||| P = P := by rw [hPP]; rfl
  have hs : Keeps P s s := Keeps.refl _ _
  rw [← hPP]
  unfold execTimLock at he
  injection he with he
  rw [← he]
  clear he
  try dsimp only
  repeat' (first
    | with_reducible assumption
    | (refine mask_mono ?_ hP; rfl)
    | with_reducible apply State.wrB_keeps
    | with_reducible apply State.raise_keeps
    | with_reducible apply State.setValid_keeps
    | with_reducible apply keeps_ite)

theorem execTimUnlock_keeps {t₀ : State} {s : State} (he : execTimUnlock s = .next t₀) : Keeps 631 s t₀ := by
  obtain ⟨P, hPP⟩ : ∃ P, P = 631 := ⟨_, rfl⟩
  have hP : 631 ||| P = P := by rw [hPP]; rfl
  have hs : Keeps P s s := Keeps.refl _ _
  rw [← hPP]
  unfold execTimUnlock at he
  injection he with he
  rw [← he]
  clear he
  repeat' (first
    | with_reducible assumption
    | with_reducible apply State.unlock_keeps
    | with_reducible apply keeps_ite)

theorem execTsyncTimeout_keeps {t₀ : State} {s : State} (he : execTsyncTimeout s = .next t₀) : Keeps 631 s t₀ := by
  obtain ⟨P, hPP⟩ : ∃ P, P = 631 := ⟨_, rfl⟩
  have hP : 631 ||| P = P := by rw [hPP]; rfl
  have hs : Keeps P s s := Keeps.refl _ _
  rw [← hPP]
  unfold execTsyncTimeout at he
  injection he with he
  rw [← he]
  clear he
  try dsimp only
  repeat' (first
    | with_reducible assumption
    | (refine mask_mono ?_ hP; rfl)
    | with_reducible apply State.unlock_keeps
    | with_reducible apply State.modTim_keeps
    | with_reducible apply State.wrB_keeps
    | with_reducible apply keeps_ite)

theorem execTdreqSend_keeps {t₀ : State} {lead : Nat} {s : State} (he : execTdreqSend lead s = .next t₀) : Keeps 1048593 s t₀ := by
  obtain ⟨P, hPP⟩ : ∃ P, P = 1048593 := ⟨_, rfl⟩
  have hP : 1048593 ||| P = P := by rw [hPP]; rfl
  have hs : Keeps P s s := Keeps.refl _ _
  rw [← hPP]
  unfold execTdreqSend at he
  injection he with he
  rw [← he]
  clear he
  try dsimp only
  repeat' (first
    | with_reducible assumption
    | (refine mask_mono ?_ hP; rfl)
    | with_reducible apply State.ropeOut_keeps
    | with_reducible apply State.modTim_keeps
    | with_reducible apply keeps_ite
    | split)

theorem execTdreq_keeps {t₀ : State} {lane : Nat} {msg : List Byte} {turn : Nat} {s : State} (he : execTdreq lane msg turn s = .next t₀) : Keeps 1048577 s t₀ := by
  obtain ⟨P, hPP⟩ : ∃ P, P = 1048577 := ⟨_, rfl⟩
  have hP : 1048577 ||| P = P := by rw [hPP]; rfl
  have hs : Keeps P s s := Keeps.refl _ _
  rw [← hPP]
  unfold execTdreq at he
  injection he with he
  rw [← he]
  clear he
  try dsimp only
  repeat' (first
    | with_reducible assumption
    | with_reducible apply State.sendLocal_keeps
    | with_reducible apply keeps_ite
    | split)

theorem execTdresp_keeps {t₀ : State} {lane : Nat} {msg : List Byte} {back : Nat} {s : State} (he : execTdresp lane msg back s = .next t₀) : Keeps 22 s t₀ := by
  obtain ⟨P, hPP⟩ : ∃ P, P = 22 := ⟨_, rfl⟩
  have hP : 22 ||| P = P := by rw [hPP]; rfl
  have hs : Keeps P s s := Keeps.refl _ _
  rw [← hPP]
  unfold execTdresp at he
  injection he with he
  rw [← he]
  clear he
  try dsimp only
  repeat' (first
    | with_reducible assumption
    | (refine mask_mono ?_ hP; rfl)
    | with_reducible apply State.modTim_keeps
    | with_reducible apply State.exchange_keeps
    | with_reducible apply keeps_ite
    | split)

theorem execPop_keeps {t₀ : State} {s : State} (he : execPop s = .next t₀) : Keeps 16 s t₀ := by
  obtain ⟨P, hPP⟩ : ∃ P, P = 16 := ⟨_, rfl⟩
  have hP : 16 ||| P = P := by rw [hPP]; rfl
  have hs : Keeps P s s := Keeps.refl _ _
  rw [← hPP]
  unfold execPop at he
  injection he with he
  rw [← he]
  clear he
  repeat' (first
    | with_reducible assumption
    | with_reducible apply State.tsqPop_keeps
    | with_reducible apply keeps_ite)

theorem execSeqParcel_keeps {t₀ : State} {s : State} (he : execSeqParcel s = .next t₀) : Keeps 33511 s t₀ := by
  obtain ⟨P, hPP⟩ : ∃ P, P = 33511 := ⟨_, rfl⟩
  have hP : 33511 ||| P = P := by rw [hPP]; rfl
  have hs : Keeps P s s := Keeps.refl _ _
  rw [← hPP]
  unfold execSeqParcel at he
  injection he with he
  rw [← he]
  clear he
  repeat' (first
    | with_reducible assumption
    | with_reducible apply State.parse_keeps)

theorem execGridParcel_keeps {t₀ : State} {s : State} (he : execGridParcel s = .next t₀) : Keeps 33511 s t₀ := by
  obtain ⟨P, hPP⟩ : ∃ P, P = 33511 := ⟨_, rfl⟩
  have hP : 33511 ||| P = P := by rw [hPP]; rfl
  have hs : Keeps P s s := Keeps.refl _ _
  rw [← hPP]
  unfold execGridParcel at he
  injection he with he
  rw [← he]
  clear he
  repeat' (first
    | with_reducible assumption
    | with_reducible apply State.parse_keeps)

theorem execAuParcel_keeps {t₀ : State} {s : State} (he : execAuParcel s = .next t₀) : Keeps 33511 s t₀ := by
  obtain ⟨P, hPP⟩ : ∃ P, P = 33511 := ⟨_, rfl⟩
  have hP : 33511 ||| P = P := by rw [hPP]; rfl
  have hs : Keeps P s s := Keeps.refl _ _
  rw [← hPP]
  unfold execAuParcel at he
  injection he with he
  rw [← he]
  clear he
  repeat' (first
    | with_reducible assumption
    | with_reducible apply State.parse_keeps)

theorem execViewpicParcel_keeps {t₀ : State} {s : State} (he : execViewpicParcel s = .next t₀) : Keeps 33511 s t₀ := by
  obtain ⟨P, hPP⟩ : ∃ P, P = 33511 := ⟨_, rfl⟩
  have hP : 33511 ||| P = P := by rw [hPP]; rfl
  have hs : Keeps P s s := Keeps.refl _ _
  rw [← hPP]
  unfold execViewpicParcel at he
  injection he with he
  rw [← he]
  clear he
  repeat' (first
    | with_reducible assumption
    | with_reducible apply State.parse_keeps)

theorem execSliceParcel_keeps {t₀ : State} {s : State} (he : execSliceParcel s = .next t₀) : Keeps 33511 s t₀ := by
  obtain ⟨P, hPP⟩ : ∃ P, P = 33511 := ⟨_, rfl⟩
  have hP : 33511 ||| P = P := by rw [hPP]; rfl
  have hs : Keeps P s s := Keeps.refl _ _
  rw [← hPP]
  unfold execSliceParcel at he
  injection he with he
  rw [← he]
  clear he
  repeat' (first
    | with_reducible assumption
    | with_reducible apply State.parse_keeps)

theorem execDepthParcel_keeps {t₀ : State} {s : State} (he : execDepthParcel s = .next t₀) : Keeps 33511 s t₀ := by
  obtain ⟨P, hPP⟩ : ∃ P, P = 33511 := ⟨_, rfl⟩
  have hP : 33511 ||| P = P := by rw [hPP]; rfl
  have hs : Keeps P s s := Keeps.refl _ _
  rw [← hPP]
  unfold execDepthParcel at he
  injection he with he
  rw [← he]
  clear he
  repeat' (first
    | with_reducible assumption
    | with_reducible apply State.parse_keeps)

theorem execPadParcel_keeps {t₀ : State} {s : State} (he : execPadParcel s = .next t₀) : Keeps 33511 s t₀ := by
  obtain ⟨P, hPP⟩ : ∃ P, P = 33511 := ⟨_, rfl⟩
  have hP : 33511 ||| P = P := by rw [hPP]; rfl
  have hs : Keeps P s s := Keeps.refl _ _
  rw [← hPP]
  unfold execPadParcel at he
  injection he with he
  rw [← he]
  clear he
  repeat' (first
    | with_reducible assumption
    | with_reducible apply State.parse_keeps)

theorem execEndParcel_keeps {t₀ : State} {s : State} (he : execEndParcel s = .next t₀) : Keeps 33511 s t₀ := by
  obtain ⟨P, hPP⟩ : ∃ P, P = 33511 := ⟨_, rfl⟩
  have hP : 33511 ||| P = P := by rw [hPP]; rfl
  have hs : Keeps P s s := Keeps.refl _ _
  rw [← hPP]
  unfold execEndParcel at he
  injection he with he
  rw [← he]
  clear he
  repeat' (first
    | with_reducible assumption
    | with_reducible apply State.parse_keeps)

theorem execExtensionParcel_keeps {t₀ : State} {s : State} (he : execExtensionParcel s = .next t₀) : Keeps 33511 s t₀ := by
  obtain ⟨P, hPP⟩ : ∃ P, P = 33511 := ⟨_, rfl⟩
  have hP : 33511 ||| P = P := by rw [hPP]; rfl
  have hs : Keeps P s s := Keeps.refl _ _
  rw [← hPP]
  unfold execExtensionParcel at he
  injection he with he
  rw [← he]
  clear he
  repeat' (first
    | with_reducible assumption
    | with_reducible apply State.parse_keeps)

theorem execInvalidTypeParcel_keeps {t₀ : State} {s : State} (he : execInvalidTypeParcel s = .next t₀) : Keeps 33511 s t₀ := by
  obtain ⟨P, hPP⟩ : ∃ P, P = 33511 := ⟨_, rfl⟩
  have hP : 33511 ||| P = P := by rw [hPP]; rfl
  have hs : Keeps P s s := Keeps.refl _ _
  rw [← hPP]
  unfold execInvalidTypeParcel at he
  injection he with he
  rw [← he]
  clear he
  repeat' (first
    | with_reducible assumption
    | with_reducible apply State.parse_keeps)

theorem execCrcFailedParcel_keeps {t₀ : State} {s : State} (he : execCrcFailedParcel s = .next t₀) : Keeps 33511 s t₀ := by
  obtain ⟨P, hPP⟩ : ∃ P, P = 33511 := ⟨_, rfl⟩
  have hP : 33511 ||| P = P := by rw [hPP]; rfl
  have hs : Keeps P s s := Keeps.refl _ _
  rw [← hPP]
  unfold execCrcFailedParcel at he
  injection he with he
  rw [← he]
  clear he
  repeat' (first
    | with_reducible assumption
    | with_reducible apply State.parse_keeps)

theorem execDecWatchdog_keeps {t₀ : State} {lane : Option Nat} {s : State} (he : execDecWatchdog lane s = .next t₀) : Keeps 33511 s t₀ := by
  obtain ⟨P, hPP⟩ : ∃ P, P = 33511 := ⟨_, rfl⟩
  have hP : 33511 ||| P = P := by rw [hPP]; rfl
  have hs : Keeps P s s := Keeps.refl _ _
  rw [← hPP]
  unfold execDecWatchdog at he
  injection he with he
  rw [← he]
  clear he
  repeat' (first
    | with_reducible assumption
    | with_reducible apply State.watchParser_keeps
    | with_reducible apply State.watchLane_keeps
    | with_reducible apply keeps_ite
    | split)

theorem execStreamPush_keeps {t₀ : State} {ring : Nat} {data : List Byte} {s : State} (he : execStreamPush ring data s = .next t₀) : Keeps 33511 s t₀ := by
  obtain ⟨P, hPP⟩ : ∃ P, P = 33511 := ⟨_, rfl⟩
  have hP : 33511 ||| P = P := by rw [hPP]; rfl
  have hs : Keeps P s s := Keeps.refl _ _
  rw [← hPP]
  unfold execStreamPush at he
  injection he with he
  rw [← he]
  clear he
  repeat' (first
    | with_reducible assumption
    | with_reducible apply State.opStreamPush_keeps)

theorem execLoopPlay_keeps {t₀ : State} {ring : Nat} {s : State} (he : execLoopPlay ring s = .next t₀) : Keeps 33511 s t₀ := by
  obtain ⟨P, hPP⟩ : ∃ P, P = 33511 := ⟨_, rfl⟩
  have hP : 33511 ||| P = P := by rw [hPP]; rfl
  have hs : Keeps P s s := Keeps.refl _ _
  rw [← hPP]
  unfold execLoopPlay at he
  injection he with he
  rw [← he]
  clear he
  repeat' (first
    | with_reducible assumption
    | with_reducible apply State.opLoopPlay_keeps)

theorem execStreamReset_keeps {t₀ : State} {ring : Nat} {s : State} (he : execStreamReset ring s = .next t₀) : Keeps 33511 s t₀ := by
  obtain ⟨P, hPP⟩ : ∃ P, P = 33511 := ⟨_, rfl⟩
  have hP : 33511 ||| P = P := by rw [hPP]; rfl
  have hs : Keeps P s s := Keeps.refl _ _
  rw [← hPP]
  unfold execStreamReset at he
  injection he with he
  rw [← he]
  clear he
  repeat' (first
    | with_reducible assumption
    | with_reducible apply State.opStreamReset_keeps)

theorem execStreamResetTakesEffect_keeps {t₀ : State} {s : State} (he : execStreamResetTakesEffect s = .next t₀) : Keeps 33383 s t₀ := by
  obtain ⟨P, hPP⟩ : ∃ P, P = 33383 := ⟨_, rfl⟩
  have hP : 33383 ||| P = P := by rw [hPP]; rfl
  have hs : Keeps P s s := Keeps.refl _ _
  rw [← hPP]
  unfold execStreamResetTakesEffect at he
  injection he with he
  rw [← he]
  clear he
  repeat' (first
    | with_reducible assumption
    | with_reducible apply State.streamResetEffect_keeps)

theorem execSetPowerS0_keeps {t₀ : State} {ring : Nat} {s : State} (he : execSetPowerS0 ring s = .next t₀) : Keeps 3603431 s t₀ := by
  obtain ⟨P, hPP⟩ : ∃ P, P = 3603431 := ⟨_, rfl⟩
  have hP : 3603431 ||| P = P := by rw [hPP]; rfl
  have hs : Keeps P s s := Keeps.refl _ _
  rw [← hPP]
  unfold execSetPowerS0 at he
  injection he with he
  rw [← he]
  clear he
  repeat' (first
    | with_reducible assumption
    | with_reducible apply State.opSetPower_keeps)

theorem execSetPowerS1_keeps {t₀ : State} {ring : Nat} {s : State} (he : execSetPowerS1 ring s = .next t₀) : Keeps 3603431 s t₀ := by
  obtain ⟨P, hPP⟩ : ∃ P, P = 3603431 := ⟨_, rfl⟩
  have hP : 3603431 ||| P = P := by rw [hPP]; rfl
  have hs : Keeps P s s := Keeps.refl _ _
  rw [← hPP]
  unfold execSetPowerS1 at he
  injection he with he
  rw [← he]
  clear he
  repeat' (first
    | with_reducible assumption
    | with_reducible apply State.opSetPower_keeps)

theorem execSetPowerS2_keeps {t₀ : State} {ring : Nat} {s : State} (he : execSetPowerS2 ring s = .next t₀) : Keeps 3603431 s t₀ := by
  obtain ⟨P, hPP⟩ : ∃ P, P = 3603431 := ⟨_, rfl⟩
  have hP : 3603431 ||| P = P := by rw [hPP]; rfl
  have hs : Keeps P s s := Keeps.refl _ _
  rw [← hPP]
  unfold execSetPowerS2 at he
  injection he with he
  rw [← he]
  clear he
  repeat' (first
    | with_reducible assumption
    | with_reducible apply State.opSetPower_keeps)

theorem execDecisionPoint_keeps {t₀ : State} {s : State} (he : execDecisionPoint s = .next t₀) : Keeps 3603455 s t₀ := by
  obtain ⟨P, hPP⟩ : ∃ P, P = 3603455 := ⟨_, rfl⟩
  have hP : 3603455 ||| P = P := by rw [hPP]; rfl
  have hs : Keeps P s s := Keeps.refl _ _
  rw [← hPP]
  unfold execDecisionPoint at he
  injection he with he
  rw [← he]
  clear he
  repeat' (first
    | with_reducible assumption
    | with_reducible apply State.decisionPoint_keeps
    | with_reducible apply keeps_ite)

theorem execLineStart_keeps {t₀ : State} {s : State} (he : execLineStart s = .next t₀) : Keeps 1080295 s t₀ := by
  obtain ⟨P, hPP⟩ : ∃ P, P = 1080295 := ⟨_, rfl⟩
  have hP : 1080295 ||| P = P := by rw [hPP]; rfl
  have hs : Keeps P s s := Keeps.refl _ _
  rw [← hPP]
  unfold execLineStart at he
  injection he with he
  rw [← he]
  clear he
  repeat' (first
    | with_reducible assumption
    | (refine mask_mono ?_ hP; rfl)
    | with_reducible apply State.lineStart_keeps
    | with_reducible apply State.holdLine_keeps
    | with_reducible apply keeps_ite)

theorem execHoldRefresh_keeps {t₀ : State} {s : State} (he : execHoldRefresh s = .next t₀) : Keeps 1065975 s t₀ := by
  obtain ⟨P, hPP⟩ : ∃ P, P = 1065975 := ⟨_, rfl⟩
  have hP : 1065975 ||| P = P := by rw [hPP]; rfl
  have hs : Keeps P s s := Keeps.refl _ _
  rw [← hPP]
  unfold execHoldRefresh at he
  injection he with he
  rw [← he]
  clear he
  repeat' (first
    | with_reducible assumption
    | with_reducible apply State.holdRefresh_keeps
    | with_reducible apply keeps_ite
    | split)

theorem execPfailWarn_keeps {t₀ : State} {s : State} (he : execPfailWarn s = .next t₀) : Keeps 3603447 s t₀ := by
  obtain ⟨P, hPP⟩ : ∃ P, P = 3603447 := ⟨_, rfl⟩
  have hP : 3603447 ||| P = P := by rw [hPP]; rfl
  have hs : Keeps P s s := Keeps.refl _ _
  rw [← hPP]
  unfold execPfailWarn at he
  injection he with he
  rw [← he]
  clear he
  repeat' (first
    | with_reducible assumption
    | with_reducible apply State.warn_keeps
    | with_reducible apply keeps_ite)

theorem execPfailNLow_keeps {t₀ : State} {s : State} (he : execPfailNLow s = .next t₀) : Keeps 3603447 s t₀ := by
  obtain ⟨P, hPP⟩ : ∃ P, P = 3603447 := ⟨_, rfl⟩
  have hP : 3603447 ||| P = P := by rw [hPP]; rfl
  have hs : Keeps P s s := Keeps.refl _ _
  rw [← hPP]
  unfold execPfailNLow at he
  injection he with he
  rw [← he]
  clear he
  repeat' (first
    | with_reducible assumption
    | (refine mask_mono ?_ hP; rfl)
    | with_reducible apply State.warn_keeps
    | with_reducible apply State.wrB_keeps
    | with_reducible apply keeps_ite)

theorem execPfailClear_keeps {t₀ : State} {s : State} (he : execPfailClear s = .next t₀) : Keeps 871 s t₀ := by
  obtain ⟨P, hPP⟩ : ∃ P, P = 871 := ⟨_, rfl⟩
  have hP : 871 ||| P = P := by rw [hPP]; rfl
  have hs : Keeps P s s := Keeps.refl _ _
  rw [← hPP]
  unfold execPfailClear at he
  injection he with he
  rw [← he]
  clear he
  try dsimp only
  repeat' (first
    | with_reducible assumption
    | (refine mask_mono ?_ hP; rfl)
    | with_reducible apply State.wrB_keeps
    | with_reducible apply State.warnEnd_keeps
    | with_reducible apply keeps_ite)

theorem execPwrInputRange_keeps {t₀ : State} {high : Bool} {s : State} (he : execPwrInputRange high s = .next t₀) : Keeps 615 s t₀ := by
  obtain ⟨P, hPP⟩ : ∃ P, P = 615 := ⟨_, rfl⟩
  have hP : 615 ||| P = P := by rw [hPP]; rfl
  have hs : Keeps P s s := Keeps.refl _ _
  rw [← hPP]
  unfold execPwrInputRange at he
  injection he with he
  rw [← he]
  clear he
  repeat' (first
    | with_reducible assumption
    | with_reducible apply State.raise_keeps
    | with_reducible apply keeps_ite)

theorem execPmcsrD3hot_keeps {t₀ : State} {s : State} (he : execPmcsrD3hot s = .next t₀) : Keeps 3603431 s t₀ := by
  obtain ⟨P, hPP⟩ : ∃ P, P = 3603431 := ⟨_, rfl⟩
  have hP : 3603431 ||| P = P := by rw [hPP]; rfl
  have hs : Keeps P s s := Keeps.refl _ _
  rw [← hPP]
  unfold execPmcsrD3hot at he
  injection he with he
  rw [← he]
  clear he
  repeat' (first
    | with_reducible assumption
    | with_reducible apply State.goPmcsr_keeps
    | with_reducible apply keeps_ite)

theorem execPmcsrD0_keeps {t₀ : State} {s : State} (he : execPmcsrD0 s = .next t₀) : Keeps 3603431 s t₀ := by
  obtain ⟨P, hPP⟩ : ∃ P, P = 3603431 := ⟨_, rfl⟩
  have hP : 3603431 ||| P = P := by rw [hPP]; rfl
  have hs : Keeps P s s := Keeps.refl _ _
  rw [← hPP]
  unfold execPmcsrD0 at he
  injection he with he
  rw [← he]
  clear he
  repeat' (first
    | with_reducible assumption
    | with_reducible apply State.goPmcsr_keeps
    | with_reducible apply keeps_ite)

theorem execPowerTransitionDone_keeps {t₀ : State} {s : State} (he : execPowerTransitionDone s = .next t₀) : Keeps 3603447 s t₀ := by
  obtain ⟨P, hPP⟩ : ∃ P, P = 3603447 := ⟨_, rfl⟩
  have hP : 3603447 ||| P = P := by rw [hPP]; rfl
  have hs : Keeps P s s := Keeps.refl _ _
  rw [← hPP]
  unfold execPowerTransitionDone at he
  injection he with he
  rw [← he]
  clear he
  repeat' (first
    | with_reducible assumption
    | with_reducible apply State.transEnd_keeps
    | split)

theorem execUvloFall_keeps {t₀ : State} {s : State} (he : execUvloFall s = .next t₀) : Keeps 4193277 s t₀ := by
  obtain ⟨P, hPP⟩ : ∃ P, P = 4193277 := ⟨_, rfl⟩
  have hP : 4193277 ||| P = P := by rw [hPP]; rfl
  have hs : Keeps P s s := Keeps.refl _ _
  rw [← hPP]
  unfold execUvloFall at he
  injection he with he
  rw [← he]
  clear he
  repeat' (first
    | with_reducible assumption
    | with_reducible apply State.powerDown_keeps)

theorem execOvervoltage_keeps {t₀ : State} {s : State} (he : execOvervoltage s = .next t₀) : Keeps 4193277 s t₀ := by
  obtain ⟨P, hPP⟩ : ∃ P, P = 4193277 := ⟨_, rfl⟩
  have hP : 4193277 ||| P = P := by rw [hPP]; rfl
  have hs : Keeps P s s := Keeps.refl _ _
  rw [← hPP]
  unfold execOvervoltage at he
  injection he with he
  rw [← he]
  clear he
  repeat' (first
    | with_reducible assumption
    | (refine mask_mono ?_ hP; rfl)
    | with_reducible apply State.cairn_keeps
    | with_reducible apply State.powerDown_keeps
    | with_reducible apply State.modPwr_keeps
    | with_reducible apply keeps_ite)

theorem execPwrRailFault_keeps {t₀ : State} {s : State} (he : execPwrRailFault s = .next t₀) : Keeps 871 s t₀ := by
  obtain ⟨P, hPP⟩ : ∃ P, P = 871 := ⟨_, rfl⟩
  have hP : 871 ||| P = P := by rw [hPP]; rfl
  have hs : Keeps P s s := Keeps.refl _ _
  rw [← hPP]
  unfold execPwrRailFault at he
  injection he with he
  rw [← he]
  clear he
  repeat' (first
    | with_reducible assumption
    | (refine mask_mono ?_ hP; rfl)
    | with_reducible apply State.modPwr_keeps
    | with_reducible apply State.bump_keeps
    | with_reducible apply State.raise_keeps
    | with_reducible apply keeps_ite)

theorem execRailFaultTimeout_keeps {t₀ : State} {s : State} (he : execRailFaultTimeout s = .next t₀) : Keeps 4193277 s t₀ := by
  obtain ⟨P, hPP⟩ : ∃ P, P = 4193277 := ⟨_, rfl⟩
  have hP : 4193277 ||| P = P := by rw [hPP]; rfl
  have hs : Keeps P s s := Keeps.refl _ _
  rw [← hPP]
  unfold execRailFaultTimeout at he
  injection he with he
  rw [← he]
  clear he
  repeat' (first
    | with_reducible assumption
    | (refine mask_mono ?_ hP; rfl)
    | with_reducible apply State.powerDown_keeps
    | with_reducible apply State.modPwr_keeps
    | with_reducible apply keeps_ite)

theorem execPerstNAssert_keeps {t₀ : State} {s : State} (he : execPerstNAssert s = .next t₀) : Keeps 4193277 s t₀ := by
  obtain ⟨P, hPP⟩ : ∃ P, P = 4193277 := ⟨_, rfl⟩
  have hP : 4193277 ||| P = P := by rw [hPP]; rfl
  have hs : Keeps P s s := Keeps.refl _ _
  rw [← hPP]
  unfold execPerstNAssert at he
  injection he with he
  rw [← he]
  clear he
  repeat' (first
    | with_reducible assumption
    | (refine mask_mono ?_ hP; rfl)
    | with_reducible apply State.sendLeave_keeps
    | with_reducible apply State.modPwr_keeps
    | with_reducible apply State.powerDown_keeps
    | with_reducible apply keeps_ite)

theorem execPwrCntClear_keeps {t₀ : State} {s : State} (he : execPwrCntClear s = .next t₀) : Keeps 4 s t₀ := by
  obtain ⟨P, hPP⟩ : ∃ P, P = 4 := ⟨_, rfl⟩
  have hP : 4 ||| P = P := by rw [hPP]; rfl
  have hs : Keeps P s s := Keeps.refl _ _
  rw [← hPP]
  unfold execPwrCntClear at he
  injection he with he
  rw [← he]
  clear he
  repeat' (first
    | with_reducible assumption
    | with_reducible apply State.clearCounters_keeps
    | with_reducible apply keeps_ite)

theorem execFunctionReset_keeps {t₀ : State} {s : State} (he : execFunctionReset s = .next t₀) : Keeps 2538487 s t₀ := by
  obtain ⟨P, hPP⟩ : ∃ P, P = 2538487 := ⟨_, rfl⟩
  have hP : 2538487 ||| P = P := by rw [hPP]; rfl
  have hs : Keeps P s s := Keeps.refl _ _
  rw [← hPP]
  unfold execFunctionReset at he
  injection he with he
  rw [← he]
  clear he
  repeat' (first
    | with_reducible assumption
    | with_reducible apply State.functionReset_keeps
    | with_reducible apply keeps_ite)

theorem execFunctionLevelReset_keeps {t₀ : State} {s : State} (he : execFunctionLevelReset s = .next t₀) : Keeps 2538487 s t₀ := by
  obtain ⟨P, hPP⟩ : ∃ P, P = 2538487 := ⟨_, rfl⟩
  have hP : 2538487 ||| P = P := by rw [hPP]; rfl
  have hs : Keeps P s s := Keeps.refl _ _
  rw [← hPP]
  unfold execFunctionLevelReset at he
  injection he with he
  rw [← he]
  clear he
  repeat' (first
    | with_reducible assumption
    | with_reducible apply State.functionReset_keeps
    | with_reducible apply keeps_ite)

theorem execFunctionResetDone_keeps {t₀ : State} {s : State} (he : execFunctionResetDone s = .next t₀) : Keeps 4 s t₀ := by
  obtain ⟨P, hPP⟩ : ∃ P, P = 4 := ⟨_, rfl⟩
  have hP : 4 ||| P = P := by rw [hPP]; rfl
  have hs : Keeps P s s := Keeps.refl _ _
  rw [← hPP]
  unfold execFunctionResetDone at he
  injection he with he
  rw [← he]
  clear he
  repeat' (first
    | with_reducible assumption
    | with_reducible apply State.wrB_keeps
    | with_reducible apply keeps_ite)

theorem execHotReset_keeps {t₀ : State} {s : State} (he : execHotReset s = .next t₀) : Keeps 2538487 s t₀ := by
  obtain ⟨P, hPP⟩ : ∃ P, P = 2538487 := ⟨_, rfl⟩
  have hP : 2538487 ||| P = P := by rw [hPP]; rfl
  have hs : Keeps P s s := Keeps.refl _ _
  rw [← hPP]
  unfold execHotReset at he
  injection he with he
  rw [← he]
  clear he
  repeat' (first
    | with_reducible assumption
    | with_reducible apply State.hotReset_keeps
    | with_reducible apply keeps_ite)

theorem execMgmtWatchdog_keeps {t₀ : State} {s : State} (he : execMgmtWatchdog s = .next t₀) : Keeps 2536423 s t₀ := by
  obtain ⟨P, hPP⟩ : ∃ P, P = 2536423 := ⟨_, rfl⟩
  have hP : 2536423 ||| P = P := by rw [hPP]; rfl
  have hs : Keeps P s s := Keeps.refl _ _
  rw [← hPP]
  unfold execMgmtWatchdog at he
  injection he with he
  rw [← he]
  clear he
  repeat' (first
    | with_reducible assumption
    | with_reducible apply State.mgmtRestart_keeps
    | with_reducible apply keeps_ite)

theorem execMgmtRestartDone_keeps {t₀ : State} {s : State} (he : execMgmtRestartDone s = .next t₀) : Keeps 64 s t₀ := by
  obtain ⟨P, hPP⟩ : ∃ P, P = 64 := ⟨_, rfl⟩
  have hP : 64 ||| P = P := by rw [hPP]; rfl
  have hs : Keeps P s s := Keeps.refl _ _
  rw [← hPP]
  unfold execMgmtRestartDone at he
  injection he with he
  rw [← he]
  clear he
  repeat' (first
    | with_reducible assumption
    | (intro (_ : State) _ (_ : Keeps _ _ _); try dsimp only)
    | (intro _ _ _ (_ : Keeps _ _ _); try dsimp only)
    | (intro _ _ _ _ (_ : Keeps _ _ _); try dsimp only)
    | (intro _ _ _ _ _ (_ : Keeps _ _ _); try dsimp only)
    | (intro (_ : State) (_ : Keeps _ _ _); try dsimp only)
    | with_reducible apply keeps_ite
    | exact fun hm => hm
    | with_reducible apply Keeps.set_hif)

theorem execLoRegisterRead_keeps {t₀ : State} {off : Nat} {s : State} (he : execLoRegisterRead off s = .next t₀) : Keeps 65 s t₀ := by
  obtain ⟨P, hPP⟩ : ∃ P, P = 65 := ⟨_, rfl⟩
  have hP : 65 ||| P = P := by rw [hPP]; rfl
  have hs : Keeps P s s := Keeps.refl _ _
  rw [← hPP]
  unfold execLoRegisterRead at he
  injection he with he
  rw [← he]
  clear he
  repeat' (first
    | with_reducible assumption
    | with_reducible apply State.readCapture_keeps
    | with_reducible apply keeps_ite)

theorem execSensorRead_keeps {t₀ : State} {readings : List (Option Int)} {vin : Nat} {pin : Nat} {s : State} (he : execSensorRead readings vin pin s = .next t₀) : Keeps 4193279 s t₀ := by
  obtain ⟨P, hPP⟩ : ∃ P, P = 4193279 := ⟨_, rfl⟩
  have hP : 4193279 ||| P = P := by rw [hPP]; rfl
  have hs : Keeps P s s := Keeps.refl _ _
  rw [← hPP]
  unfold execSensorRead at he
  injection he with he
  rw [← he]
  clear he
  try dsimp only
  repeat' (first
    | with_reducible assumption
    | (refine mask_mono ?_ hP; rfl)
    | with_reducible refine State.hotCount_of (by assumption) ?_ ?_
    | with_reducible apply State.wr_keeps
    | with_reducible apply State.sensorRead_keeps
    | with_reducible apply State.hotCount_keeps
    | with_reducible apply State.shutdown_keeps
    | with_reducible apply keeps_ite
    | split)

theorem execSensorReadmit_keeps {t₀ : State} {n : Nat} {s : State} (he : execSensorReadmit n s = .next t₀) : Keeps 3211895 s t₀ := by
  obtain ⟨P, hPP⟩ : ∃ P, P = 3211895 := ⟨_, rfl⟩
  have hP : 3211895 ||| P = P := by rw [hPP]; rfl
  have hs : Keeps P s s := Keeps.refl _ _
  rw [← hPP]
  unfold execSensorReadmit at he
  injection he with he
  rw [← he]
  clear he
  repeat' (first
    | with_reducible assumption
    | with_reducible apply State.readmit_keeps
    | with_reducible apply keeps_ite)

theorem execThmSuspect_keeps {t₀ : State} {s : State} (he : execThmSuspect s = .next t₀) : Keeps 3211895 s t₀ := by
  obtain ⟨P, hPP⟩ : ∃ P, P = 3211895 := ⟨_, rfl⟩
  have hP : 3211895 ||| P = P := by rw [hPP]; rfl
  have hs : Keeps P s s := Keeps.refl _ _
  rw [← hPP]
  unfold execThmSuspect at he
  injection he with he
  rw [← he]
  clear he
  repeat' (first
    | with_reducible assumption
    | with_reducible apply State.suspectStep_keeps
    | with_reducible apply keeps_ite)

theorem execThmSuspectClear_keeps {t₀ : State} {n : Nat} {s : State} (he : execThmSuspectClear n s = .next t₀) : Keeps 3211895 s t₀ := by
  obtain ⟨P, hPP⟩ : ∃ P, P = 3211895 := ⟨_, rfl⟩
  have hP : 3211895 ||| P = P := by rw [hPP]; rfl
  have hs : Keeps P s s := Keeps.refl _ _
  rw [← hPP]
  unfold execThmSuspectClear at he
  injection he with he
  rw [← he]
  clear he
  repeat' (first
    | with_reducible assumption
    | with_reducible apply State.suspectClear_keeps
    | with_reducible apply keeps_ite)

theorem execHardwareTrip_keeps {t₀ : State} {die : Nat} {s : State} (he : execHardwareTrip die s = .next t₀) : Keeps 4193279 s t₀ := by
  obtain ⟨P, hPP⟩ : ∃ P, P = 4193279 := ⟨_, rfl⟩
  have hP : 4193279 ||| P = P := by rw [hPP]; rfl
  have hs : Keeps P s s := Keeps.refl _ _
  rw [← hPP]
  unfold execHardwareTrip at he
  injection he with he
  rw [← he]
  clear he
  repeat' (first
    | with_reducible assumption
    | with_reducible apply State.shutdown_keeps
    | with_reducible apply keeps_ite)

theorem execShutdownPoll_keeps {t₀ : State} {reading : Int} {s : State} (he : execShutdownPoll reading s = .next t₀) : Keeps 65536 s t₀ := by
  obtain ⟨P, hPP⟩ : ∃ P, P = 65536 := ⟨_, rfl⟩
  have hP : 65536 ||| P = P := by rw [hPP]; rfl
  have hs : Keeps P s s := Keeps.refl _ _
  rw [← hPP]
  unfold execShutdownPoll at he
  injection he with he
  rw [← he]
  clear he
  repeat' (first
    | with_reducible assumption
    | with_reducible apply State.modThm_keeps
    | with_reducible apply keeps_ite)

theorem execThmCntClear_keeps {t₀ : State} {s : State} (he : execThmCntClear s = .next t₀) : Keeps 4 s t₀ := by
  obtain ⟨P, hPP⟩ : ∃ P, P = 4 := ⟨_, rfl⟩
  have hP : 4 ||| P = P := by rw [hPP]; rfl
  have hs : Keeps P s s := Keeps.refl _ _
  rw [← hPP]
  unfold execThmCntClear at he
  injection he with he
  rw [← he]
  clear he
  repeat' (first
    | with_reducible assumption
    | with_reducible apply State.clearCounters_keeps
    | with_reducible apply keeps_ite)

theorem execCalTempCheck_keeps {t₀ : State} {s : State} (he : execCalTempCheck s = .next t₀) : Keeps 524292 s t₀ := by
  obtain ⟨P, hPP⟩ : ∃ P, P = 524292 := ⟨_, rfl⟩
  have hP : 524292 ||| P = P := by rw [hPP]; rfl
  have hs : Keeps P s s := Keeps.refl _ _
  rw [← hPP]
  unfold execCalTempCheck at he
  injection he with he
  rw [← he]
  clear he
  repeat' (first
    | with_reducible assumption
    | with_reducible apply State.calRequest_keeps
    | with_reducible apply keeps_ite)

theorem execCalRun_keeps {t₀ : State} {s : State} (he : execCalRun s = .next t₀) : Keeps 524292 s t₀ := by
  obtain ⟨P, hPP⟩ : ∃ P, P = 524292 := ⟨_, rfl⟩
  have hP : 524292 ||| P = P := by rw [hPP]; rfl
  have hs : Keeps P s s := Keeps.refl _ _
  rw [← hPP]
  unfold execCalRun at he
  injection he with he
  rw [← he]
  clear he
  repeat' (first
    | with_reducible assumption
    | with_reducible apply State.calRequest_keeps
    | with_reducible apply keeps_ite)

theorem execCalRunStart_keeps {t₀ : State} {s : State} (he : execCalRunStart s = .next t₀) : Keeps 524292 s t₀ := by
  obtain ⟨P, hPP⟩ : ∃ P, P = 524292 := ⟨_, rfl⟩
  have hP : 524292 ||| P = P := by rw [hPP]; rfl
  have hs : Keeps P s s := Keeps.refl _ _
  rw [← hPP]
  unfold execCalRunStart at he
  injection he with he
  rw [← he]
  clear he
  repeat' (first
    | with_reducible assumption
    | with_reducible apply State.calStart_keeps
    | with_reducible apply keeps_ite)

theorem execCalRunDone_keeps {t₀ : State} {refOk : Bool} {pref : List Word} {adc : List Word} {lat : Nat} {s : State} (he : execCalRunDone refOk pref adc lat s = .next t₀) : Keeps 541287 s t₀ := by
  obtain ⟨P, hPP⟩ : ∃ P, P = 541287 := ⟨_, rfl⟩
  have hP : 541287 ||| P = P := by rw [hPP]; rfl
  have hs : Keeps P s s := Keeps.refl _ _
  rw [← hPP]
  unfold execCalRunDone at he
  injection he with he
  rw [← he]
  clear he
  repeat' (first
    | with_reducible assumption
    | with_reducible apply State.calEnd_keeps
    | with_reducible apply keeps_ite)

theorem execCalMoveHoldoff_keeps {t₀ : State} {s : State} (he : execCalMoveHoldoff s = .next t₀) : Keeps 524288 s t₀ := by
  obtain ⟨P, hPP⟩ : ∃ P, P = 524288 := ⟨_, rfl⟩
  have hP : 524288 ||| P = P := by rw [hPP]; rfl
  have hs : Keeps P s s := Keeps.refl _ _
  rw [← hPP]
  unfold execCalMoveHoldoff at he
  injection he with he
  rw [← he]
  clear he
  repeat' (first
    | with_reducible assumption
    | with_reducible apply State.modCal_keeps
    | with_reducible apply keeps_ite)

theorem execStage_keeps {t₀ : State} {s : State} (he : execStage s = .next t₀) : Keeps 541287 s t₀ := by
  obtain ⟨P, hPP⟩ : ∃ P, P = 541287 := ⟨_, rfl⟩
  have hP : 541287 ||| P = P := by rw [hPP]; rfl
  have hs : Keeps P s s := Keeps.refl _ _
  rw [← hPP]
  unfold execStage at he
  injection he with he
  rw [← he]
  clear he
  repeat' (first
    | with_reducible assumption
    | with_reducible apply State.stage_keeps
    | with_reducible apply keeps_ite)

theorem execCalCntClear_keeps {t₀ : State} {s : State} (he : execCalCntClear s = .next t₀) : Keeps 4 s t₀ := by
  obtain ⟨P, hPP⟩ : ∃ P, P = 4 := ⟨_, rfl⟩
  have hP : 4 ||| P = P := by rw [hPP]; rfl
  have hs : Keeps P s s := Keeps.refl _ _
  rw [← hPP]
  unfold execCalCntClear at he
  injection he with he
  rw [← he]
  clear he
  repeat' (first
    | with_reducible assumption
    | with_reducible apply State.clearCounters_keeps
    | with_reducible apply keeps_ite)

theorem execRegisterWrite_keeps {t₀ : State} {off : Nat} {val : Word} {s : State} (he : execRegisterWrite off val s = .next t₀) : Keeps 4127735 s t₀ := by
  obtain ⟨P, hPP⟩ : ∃ P, P = 4127735 := ⟨_, rfl⟩
  have hP : 4127735 ||| P = P := by rw [hPP]; rfl
  have hs : Keeps P s s := Keeps.refl _ _
  rw [← hPP]
  unfold execRegisterWrite at he
  injection he with he
  rw [← he]
  clear he
  repeat' (first
    | with_reducible assumption
    | (refine mask_mono ?_ hP; rfl)
    | with_reducible apply State.writeCxl_keeps
    | with_reducible apply State.writeReg_keeps
    | with_reducible apply keeps_ite)

theorem execUvloRise_keeps {t₀ : State} {b : BootIn} {s : State} (he : execUvloRise b s = .next t₀) : Keeps 4193279 s t₀ := by
  obtain ⟨P, hPP⟩ : ∃ P, P = 4193279 := ⟨_, rfl⟩
  have hP : 4193279 ||| P = P := by rw [hPP]; rfl
  have hs : Keeps P s s := Keeps.refl _ _
  rw [← hPP]
  unfold execUvloRise at he
  injection he with he
  rw [← he]
  clear he
  repeat' (first
    | with_reducible assumption
    | with_reducible apply State.boot_keeps
    | with_reducible apply keeps_ite)

theorem execOvervoltageRecovery_keeps {t₀ : State} {b : BootIn} {s : State} (he : execOvervoltageRecovery b s = .next t₀) : Keeps 4193279 s t₀ := by
  obtain ⟨P, hPP⟩ : ∃ P, P = 4193279 := ⟨_, rfl⟩
  have hP : 4193279 ||| P = P := by rw [hPP]; rfl
  have hs : Keeps P s s := Keeps.refl _ _
  rw [← hPP]
  unfold execOvervoltageRecovery at he
  injection he with he
  rw [← he]
  clear he
  try dsimp only
  repeat' (first
    | with_reducible assumption
    | (refine mask_mono ?_ hP; rfl)
    | with_reducible apply State.modPwr_keeps
    | with_reducible apply State.boot_keeps
    | with_reducible apply keeps_ite)

theorem execRailRetry_keeps {t₀ : State} {b : BootIn} {s : State} (he : execRailRetry b s = .next t₀) : Keeps 4193279 s t₀ := by
  obtain ⟨P, hPP⟩ : ∃ P, P = 4193279 := ⟨_, rfl⟩
  have hP : 4193279 ||| P = P := by rw [hPP]; rfl
  have hs : Keeps P s s := Keeps.refl _ _
  rw [← hPP]
  unfold execRailRetry at he
  injection he with he
  rw [← he]
  clear he
  repeat' (first
    | with_reducible assumption
    | with_reducible apply State.boot_keeps
    | with_reducible apply keeps_ite)

theorem execPerstNDeassert_keeps {t₀ : State} {b : BootIn} {s : State} (he : execPerstNDeassert b s = .next t₀) : Keeps 4193279 s t₀ := by
  obtain ⟨P, hPP⟩ : ∃ P, P = 4193279 := ⟨_, rfl⟩
  have hP : 4193279 ||| P = P := by rw [hPP]; rfl
  have hs : Keeps P s s := Keeps.refl _ _
  rw [← hPP]
  unfold execPerstNDeassert at he
  injection he with he
  rw [← he]
  clear he
  try dsimp only
  repeat' (first
    | with_reducible assumption
    | (refine mask_mono ?_ hP; rfl)
    | with_reducible apply State.modPwr_keeps
    | with_reducible apply State.bootS4_keeps
    | with_reducible apply keeps_ite)

theorem execWakeN_keeps {t₀ : State} {fresh : Bool} {b : BootIn} {s : State} (he : execWakeN fresh b s = .next t₀) : Keeps 4193279 s t₀ := by
  obtain ⟨P, hPP⟩ : ∃ P, P = 4193279 := ⟨_, rfl⟩
  have hP : 4193279 ||| P = P := by rw [hPP]; rfl
  have hs : Keeps P s s := Keeps.refl _ _
  rw [← hPP]
  unfold execWakeN at he
  injection he with he
  rw [← he]
  clear he
  repeat' (first
    | with_reducible assumption
    | with_reducible apply State.bootS4_keeps
    | with_reducible apply State.boot_keeps
    | with_reducible apply keeps_ite)

end Sys2Proof.Machine
end

