-- ==== Sys2Proof/Laws/Relations.lean ====
section
/-!
SUPPORT. Laws of the relations that statements use: `RegsOnly`, `WordsKept` and `Gives`.
-/
namespace Sys2Proof.Machine

theorem RegsOnly.refl (s : State) (offs : List Nat) : RegsOnly offs s s := ⟨rfl, fun _ _ => rfl⟩

theorem RegsOnly.mono {a b : List Nat} {s t : State} (h : RegsOnly a s t) (hab : ∀ o ∈ a, o ∈ b) : RegsOnly b s t :=
  ⟨h.1, fun o ho => h.2 o fun ha => ho (hab o ha)⟩

theorem RegsOnly.trans {a b : List Nat} {s t u : State} (h : RegsOnly a s t) (k : RegsOnly b t u) : RegsOnly (a ++ b) s u := by
  refine ⟨by rw [k.1, h.1], fun o ho => ?_⟩
  simp only [List.mem_append, not_or] at ho
  rw [k.2 o ho.2, h.2 o ho.1]

/-- Writing a word changes one register. -/
theorem State.setWord_regsOnly (s : State) (off : Nat) (w : Word) : RegsOnly [off] s (s.setWord off w) :=
  ⟨rfl, fun _ ho => s.word_setWord_ne w (by simpa using ho)⟩

/-- Writing a field changes one register. -/
theorem State.wr_regsOnly (s : State) (f : Fld) (v : Nat) : RegsOnly [f.off] s (s.wr f v) := s.setWord_regsOnly _ _

theorem State.wrB_regsOnly (s : State) (f : Fld) (b : Bool) : RegsOnly [f.off] s (s.wrB f b) := s.setWord_regsOnly _ _

theorem State.bump_regsOnly (s : State) (f : Fld) (n : Nat) : RegsOnly [f.off] s (s.bump f n) := s.setWord_regsOnly _ _

/-- Clearing counters changes those counters. -/
theorem State.clearCounters_regsOnly (s : State) (base n : Nat) :
    RegsOnly ((List.range n).map fun i => base + 4 * i) s (s.clearCounters base n) := by
  unfold State.clearCounters
  induction n with
  | zero => exact RegsOnly.refl ..
  | succ n ih =>
    rw [List.range_succ, List.foldl_append, List.map_append]
    exact ih.trans (State.setWord_regsOnly _ _ _)

theorem WordsKept.refl (s : State) (offs : List Nat) : WordsKept offs s s := fun _ _ _ => rfl

theorem WordsKept.mono {a b : List Nat} {s t : State} (h : WordsKept a s t) (hab : ∀ o ∈ a, o ∈ b) : WordsKept b s t :=
  fun o ho he => h o (fun ha => ho (hab o ha)) he

theorem WordsKept.trans {a b : List Nat} {s t u : State} (h : WordsKept a s t) (k : WordsKept b t u) : WordsKept (a ++ b) s u := by
  intro o ho he
  simp only [List.mem_append, not_or] at ho
  rw [k o ho.2 he, h o ho.1 he]

theorem RegsOnly.words {a : List Nat} {s t : State} (h : RegsOnly a s t) : WordsKept a s t := fun o ho _ => h.2 o ho

theorem EventsOnly.wordsKept {s t : State} (h : EventsOnly s t) (offs : List Nat) : WordsKept offs s t := fun o _ he => h.words o he

theorem State.raise_wordsKept (s : State) (src : Nat) (offs : List Nat) : WordsKept offs s (s.raise src) :=
  (s.raise_events src).wordsKept offs

/-- A field of a register that is kept. -/
theorem WordsKept.rd {a : List Nat} {s t : State} (h : WordsKept a s t) {f : Fld} (ho : f.off ∉ a) (he : evtReg f.off = false) :
    t.rd f = s.rd f := by
  unfold State.rd
  rw [h _ ho he]

@[simp] theorem State.raise_awake (s : State) (src : Nat) : (s.raise src).awake = s.awake := by simp [State.awake]

/-- The status bit of a raised source is set. -/
theorem State.raised (s : State) {src : Nat} (h : evtInUse src = true) (hp : s.hasEvents = true) : Raised src (s.raise src) :=
  s.raise_status h hp

/-- A set status bit stays set. -/
theorem Raised.raise {src e : Nat} {s : State} (h : Raised src s) (hs : src < 512) : Raised src (s.raise e) :=
  (s.raise_events e).status src hs h

/-- A command whose meaning is guarded completes where its guard holds. -/
theorem gives_pos {c : Instr} {s a b : State} {p : Prop} [Decidable p] {Q : State → Prop}
    (e : exec c s = .next (if p then a else b)) (hp : p) (q : Q a) : Gives c s Q :=
  ⟨a, by rw [e, if_pos hp], q⟩

/-- The same, as an equation. -/
theorem exec_pos {c : Instr} {s a b : State} {p : Prop} [Decidable p] (e : exec c s = .next (if p then a else b)) (hp : p) :
    exec c s = .next a := by rw [e, if_pos hp]

theorem exec_neg {c : Instr} {s a b : State} {p : Prop} [Decidable p] (e : exec c s = .next (if p then a else b)) (hp : ¬p) :
    exec c s = .next b := by rw [e, if_neg hp]

/-- A raised source, over whatever the state was before. -/
theorem State.raise_gives {c : Instr} {s u : State} {src : Nat} (e : exec c s = .next (u.raise src)) (h : evtInUse src = true)
    (hp : u.hasEvents = true) : Gives c s fun t => EventsOnly u t ∧ Raised src t :=
  ⟨_, e, u.raise_events src, u.raised h hp⟩

theorem State.hasEvents_of_awake {s : State} (h : s.awake = true) : s.hasEvents = true := by simp [State.hasEvents, h]

@[simp] theorem State.hasEvents_setWord (s : State) (off : Nat) (w : Word) : (s.setWord off w).hasEvents = s.hasEvents := rfl
@[simp] theorem State.hasEvents_wr (s : State) (f : Fld) (v : Nat) : (s.wr f v).hasEvents = s.hasEvents := rfl
@[simp] theorem State.hasEvents_wrB (s : State) (f : Fld) (b : Bool) : (s.wrB f b).hasEvents = s.hasEvents := rfl
@[simp] theorem State.hasEvents_raise (s : State) (e : Nat) : (s.raise e).hasEvents = s.hasEvents := by
  simp [State.hasEvents, State.awake]

/-- BAR0 takes writes only while the module is awake. -/
theorem State.bar0Open_awake {s : State} (h : s.bar0Open = true) : s.awake = true := by
  simp only [State.bar0Open, Bool.and_eq_true] at h
  exact h.1.1

/-- A one-bit field reads as its Boolean. -/
theorem State.rdB_eq_false {s : State} {f : Fld} (h : s.rd f = 0) : s.rdB f = false := by simp [State.rdB, h]
theorem State.rdB_eq_true {s : State} {f : Fld} (h : s.rd f = 1) : s.rdB f = true := by simp [State.rdB, h]

/-- The word of a register after a field is written. -/
theorem State.word_wr (s : State) (f : Fld) (v o : Nat) : (s.wr f v).word o =
    if o = f.off then BitVec.ofNat 32 (setBits (s.word f.off).toNat f.lo f.len v) else s.word o := s.word_setWord ..

/-- A field of another register reads as before. -/
theorem State.rd_wr_apart (s : State) (f g : Fld) (v : Nat) (h : g.off ≠ f.off) : (s.wr f v).rd g = s.rd g := by
  unfold State.rd; rw [State.word_wr, if_neg h]

/-- A field reads the same where its register's word is the same. -/
theorem State.rd_of_word {s t : State} {f : Fld} (h : t.word f.off = s.word f.off) : t.rd f = s.rd f := by unfold State.rd; rw [h]

/-- A cleared range reads as nothing was listed there. -/
theorem cellGet_clear_in {α : Type} [DecidableEq α] (d : Nat → α) (l : List (Nat × α)) (lo hi o : Nat) (h : lo ≤ o ∧ o < hi) :
    cellGet d (cellClear l lo hi) o = d o := by
  induction l with
  | nil => rfl
  | cons c l ih =>
    unfold cellClear at ih ⊢
    rw [List.filter_cons]
    split
    · rename_i hc
      simp only [cellGet]
      rw [if_neg, ih]
      rintro rfl
      simp [h.1, h.2] at hc
    · exact ih

/-- Outside it everything reads as before. -/
theorem cellGet_clear_out {α : Type} [DecidableEq α] (d : Nat → α) (l : List (Nat × α)) (lo hi o : Nat) (h : ¬(lo ≤ o ∧ o < hi)) :
    cellGet d (cellClear l lo hi) o = cellGet d l o := by
  induction l with
  | nil => rfl
  | cons c l ih =>
    unfold cellClear at ih ⊢
    rw [List.filter_cons]
    split
    · obtain ⟨j, v⟩ := c
      simp only [cellGet]
      rw [ih]
    · rename_i hc
      obtain ⟨j, v⟩ := c
      simp only [cellGet]
      rw [ih, if_neg]
      rintro rfl
      simp at hc; exact h ⟨hc.1, hc.2⟩

/-- The word of a register after a range of registers is cleared. -/
theorem State.word_clearRegs (s : State) (lo hi o : Nat) :
    (s.clearRegs lo hi).word o = if lo ≤ o ∧ o < hi then resetWord o else s.word o := by
  split
  · exact cellGet_clear_in _ _ _ _ _ ‹_›
  · exact cellGet_clear_out _ _ _ _ _ ‹_›

/-- A change of a descriptor that follows another of the same one. -/
theorem State.modDesc_modDesc (s : State) (ring idx : Nat) (f g : Desc → Desc) (hf : ∀ d, (f d).idx = d.idx) :
    (s.modDesc ring idx f).modDesc ring idx g = s.modDesc ring idx (fun d => g (f d)) := by
  simp only [State.modDesc, List.map_map]
  congr 1
  congr 1
  refine List.map_congr_left fun r _ => ?_
  simp only [Function.comp]
  by_cases h : r.num = ring
  · simp only [h, if_true, Ring.modDesc, List.map_map]
    congr 1
    refine List.map_congr_left fun d _ => ?_
    simp only [Function.comp]
    by_cases h2 : d.idx = idx
    · simp [h2, hf]
    · simp [h2]
  · simp [h]

/-- A descriptor that starts and completes without events: its outcome is all that changes. -/
theorem State.run_complete (s : State) (ring idx status info : Nat) :
    (s.run ring idx).complete ring idx status info =
      s.modDesc ring idx fun d => { d with phase := .done, status := status, info := info, cflags := 0, evs := [] } := by
  unfold State.run State.complete
  exact State.modDesc_modDesc s ring idx (fun d => { d with phase := .running }) _ fun _ => rfl

/-- The ring that was put is found again. -/
theorem State.ring?_setRing {s : State} {n : Nat} {r q : Ring} (h : s.ring? n = some r) (hq : q.num = n) :
    (s.setRing q).ring? n = some q := by
  subst hq
  unfold State.ring? at h ⊢
  unfold State.setRing
  simp only
  revert h
  generalize s.hif.rings = l
  intro h
  induction l with
  | nil => cases h
  | cons x l ih =>
    rw [List.find?_cons] at h
    rw [List.map_cons, List.find?_cons]
    by_cases hx : x.num = q.num
    · simp [hx]
    · simp only [hx, if_false, beq_eq_false_iff_ne.2 hx] at h ⊢
      exact ih h

/-- Putting a ring twice is putting it once. -/
theorem State.setRing_setRing (s : State) (p q : Ring) (h : p.num = q.num) : (s.setRing p).setRing q = s.setRing q := by
  simp only [State.setRing, List.map_map]
  congr 1
  congr 1
  refine List.map_congr_left fun x _ => ?_
  simp only [Function.comp]
  by_cases hx : x.num = q.num <;> simp [hx, h]

/-- The number of a ring that is found. -/
theorem State.ring?_num {s : State} {n : Nat} {r : Ring} (h : s.ring? n = some r) : r.num = n := by
  simpa using List.find?_some h

/-- `withOp` on a descriptor that passes every check. -/
theorem State.withOp_pass {s : State} {ring op : Nat} {checks : Ring → Desc → List (Bool × Nat)} {go : Ring → Desc → State → State}
    {r : Ring} {d : Desc} (h : s.nextOp ring op = some (r, d)) (ha : s.opAllowed r.cls op = true) (hh : s.headerOk d = true)
    (hc : ∀ p ∈ checks r d, p.1 = true) : s.withOp ring op checks go = go r d (s.run ring d.idx) := by
  have hb : ∀ l : List (Bool × Nat), (∀ p ∈ l, p.1 = true) → firstBad l = none := by
    intro l
    induction l with
    | nil => intro; rfl
    | cons p l ih =>
      intro hl
      obtain ⟨ok, code⟩ := p
      have : ok = true := hl (ok, code) List.mem_cons_self
      rw [this]
      exact ih fun q hq => hl q (List.mem_cons_of_mem _ hq)
  unfold State.withOp
  rw [h]
  simp only [firstBad, ha, hh, if_true, hb _ hc]

/-- `withOp` on an opcode that is not allowed. -/
theorem State.withOp_badOpcode {s : State} {ring op : Nat} {checks : Ring → Desc → List (Bool × Nat)} {go : Ring → Desc → State → State}
    {r : Ring} {d : Desc} (h : s.nextOp ring op = some (r, d)) (ha : s.opAllowed r.cls op = false) :
    s.withOp ring op checks go = s.complete ring d.idx Cpl.BAD_OPCODE 0 := by
  unfold State.withOp
  rw [h]
  simp [firstBad, ha]

/-- The ring that `nextOp` answers has the number asked for. -/
theorem State.nextOp_num {s : State} {ring op : Nat} {r : Ring} {d : Desc} (h : s.nextOp ring op = some (r, d)) : r.num = ring := by
  unfold State.nextOp at h
  split at h
  · cases h
  · rename_i x hx
    split at h
    · cases h
    · split at h
      · have := List.find?_some hx
        cases h
        simpa using this
      · cases h

end Sys2Proof.Machine
end

