-- ==== Sys2Proof/Tests/Slice0.lean ====
section
/-!
SUPPORT. The model's own tests: ill-formed commands are refused, worked examples of the spec, and for every statement that has
hypotheses a concrete state and operands that meet them.
-/
open Sys2Proof Sys2Proof.Machine
namespace Sys2Proof.Tests

set_option Elab.async false

/-! ## Small states -/

/-- Awake in S0 and after READY (R451), the module head of its rope, which no host drives yet. -/
def up : State := ({ State.reset with pwr := { PwrSt.reset with st := .s0, perst := false } } : State).wr F.HIF_STATUS_READY 1

/-- The state after a command, for expected results. -/
def after (c : Instr) (s : State) : State :=
  match exec c s with
  | .next t => t
  | _ => s

/-- The power state changed. -/
def inState (p : PwrState) (s : State) : State := { s with pwr := { s.pwr with st := p } }

/-- A waiting descriptor (Table 2-5) with TAG 7 and the given bytes from byte 8 on. -/
def desc (op : Nat) (body : List Byte) : Desc :=
  ⟨0, leBytes op 4 ++ leBytes 7 4 ++ body ++ List.replicate (56 - body.length) 0, .waiting, 0, 0, 0, []⟩

/-- A ring of 64 entries that has fetched the given descriptors. -/
def ringOf (n cls : Nat) (ds : List Desc) : Ring :=
  { Ring.fresh n cls 6 5 0 0 0x1000 0x2000 0 with pi := ds.length, fetch := ds.length, descs := ds }

/-- A state with its link up, every feature in force and one more ring. -/
def withRing (s : State) (r : Ring) : State :=
  { s with hif := { s.hif with linkUp := true, feats := 2 ^ 128 - 1, rings := s.hif.rings ++ [r] } }

/-- One descriptor in ring 1 of a class. -/
def oneDesc (s : State) (cls op : Nat) (body : List Byte) : State := withRing s (ringOf 1 cls [desc op body])

/-- Memory window 0 grants every engine all of device memory (R335). -/
def granted : State := (up.setWord 0x90104 0xFFFFFF).setWord 0x90108 0x3FF


/-! ## Ill-formed commands (WellFormed.lean, one for each check) -/

theorem test_refuses_offsets : (Instr.registerWrite 2 0).wellFormed = false ∧ (Instr.registerWrite 0x1000000 0).wellFormed = false ∧
    (Instr.loRegisterRead 0x70009).wellFormed = false ∧ (Instr.bar0UnsupportedAccess 0x100 4 true).wellFormed = false ∧
    (Instr.msixTableWrite 0x10000 0).wellFormed = false ∧ (Instr.msixTableWrite 6 0).wellFormed = false := by decide

theorem test_refuses_link_and_lines : (Instr.linkUp true 0 32).wellFormed = false ∧ (Instr.linkUp true 9 32).wellFormed = false ∧
    (Instr.linkUp true 8 33).wellFormed = false ∧ (Instr.cxlMemRead 32 1 []).wellFormed = false ∧
    (Instr.cxlMemRead 0 0 []).wellFormed = false ∧ (Instr.cxlMemRead 0 1 [⟨0, 36, 1⟩]).wellFormed = false ∧
    (Instr.cxlMemRead 0 1 [⟨0, 0, 0⟩]).wellFormed = false ∧ (Instr.cxlMemWrite 0 [1]).wellFormed = false ∧
    (Instr.patrolScrubRead [⟨2 ^ 31, 0, 1⟩]).wellFormed = false := by decide

theorem test_refuses_rings : (Instr.enable true (2 ^ 32) 0).wellFormed = false ∧ (Instr.hifAbort 64 false).wellFormed = false ∧
    (Instr.abortPoint 64 0 0).wellFormed = false ∧ (Instr.doorbellSnoop 64).wellFormed = false ∧
    (Instr.doorbellReread 0 0 (2 ^ 32)).wellFormed = false ∧ (Instr.hifDbSq 64 0).wellFormed = false ∧
    (Instr.hifDbCq 64 0).wellFormed = false ∧ (Instr.descriptorFetch 0 []).wellFormed = false ∧
    (Instr.descriptorRetire 64).wellFormed = false ∧ (Instr.completionWrite 64).wellFormed = false ∧
    (Instr.coalesceTimerExpiry 64).wellFormed = false := by decide

theorem test_refuses_descriptor_rings : ∀ c ∈ [Instr.createRing 64 0 0, .deleteRing 64, .queueAbort 64, .setPowerS0 64, .setPowerS1 64,
    .setPowerS2 64, .nop 64, .evtRing 64, .streamPush 64 [], .streamReset 64, .loopPlay 64, .present 64, .shadowWrite 64, .commit 64,
    .bltRun 64, .mbox 64 [], .send 64 [], .recv 64 [], .logRead 64 [], .logWrite 64 [] ⟨[], none⟩, .flashRead 64, .flashWrite 64 [] .whole,
    .settingsWrite 64 [] .whole, .encOpen 64 [], .encPut 64 [], .encKey 64, .encClose 64, .encAuStart 64, .encAuDone 64],
    c.wellFormed = false := by decide

theorem test_refuses_storage_operands : (Instr.logRead 0 [⟨0x8000, false⟩]).wellFormed = false ∧
    (Instr.logWrite 0 [] ⟨[⟨0x8000, true⟩], none⟩).wellFormed = false ∧ (Instr.settingsWrite 0 [] (.bad 2)).wellFormed = false ∧
    (Instr.settingsWrite 0 [] (.cut 3)).wellFormed = false ∧
    (Instr.nvsRecallDone [⟨0x8000, true⟩]).wellFormed = false := by decide

theorem test_refuses_units : ∀ c ∈ [Instr.planeFetch ⟨.west, 0⟩ 0, .planeFetch ⟨.east, 8⟩ 0, .synthRow ⟨.west, [257]⟩, .synthRow ⟨.east, List.replicate 9 0⟩, .retireEnable 16, .statusBlock 4 (List.replicate 8 0),
    .statusBlock 0 [], .statusTimeout 16, .trainReq 4 (List.replicate 8 0), .trainReq 0 [], .pnlTrainFail 16, .trainRetry 16,
    .prefLimit 18, .arm 8 0, .disarm 8 0, .tevEdge 8, .tevPulseEnd 8, .evtEnable 16 0, .evtTest 512, .eventCoalesceExpiry 512],
    c.wellFormed = false := by decide

theorem test_refuses_lanes : ∀ c ∈ [Instr.rxBlock 104 (List.replicate 33 0), .rxBlock 0 (List.replicate 33 4), .rxBlock 0 [],
    .acquireDone 104, .adaptFreeze 104, .frozenResume 104, .rxElectricalIdle 104, .rxIdleEnd 104, .prbsGen 104 true, .prbsChk 104 true,
    .adaptHold 104 true, .eyeMeasure [(104, 0, 0)], .lnkTxFault 104, .electricalIdleDwellEnd 104], c.wellFormed = false := by decide

theorem test_refuses_messages : ∀ c ∈ [Instr.pitchReq .up 2 (List.replicate 8 0), .pitchReq .up 0 [], .pitchAck .dn 2 (List.replicate 8 0),
    .pitchAck .dn 0 [1], .hello .up [], .belay .up [], .enum [], .enumDone [], .presentMessage .up [], .alarm .up [], .mail .up [],
    .mailAck .up [1], .mailAckTimeout 256, .tsync 2 (List.replicate 8 0) 0, .tsync 0 [] 0, .tdreq 2 (List.replicate 8 0) 0,
    .tdresp 0 [] 0], c.wellFormed = false := by decide

/-- A boot that meets no trouble. -/
def goodBoot : BootIn :=
  { rails := true, hbmFail := 0, logbook := true, headN := true, capMiB := 64, sfdp := some (false, true), sigA := true, sigB := true, errs := [],
    sensors := List.replicate 48 (some 640), tref := true, refOk := true, pref := List.replicate 18 0, adc := List.replicate 3 0,
    lat := 100, readyT := 100 }

theorem test_refuses_boots : (Instr.uvloRise goodBoot).wellFormed = true ∧
    (∀ b ∈ [{ goodBoot with sensors := [] }, { goodBoot with pref := [] }, { goodBoot with adc := [] }, { goodBoot with capMiB := 31 },
      { goodBoot with capMiB := 4097 }, { goodBoot with hbmFail := 16 },
      { goodBoot with readyT := 2 ^ 16 }, { goodBoot with errs := [⟨0x8000, false⟩] }],
      (Instr.uvloRise b).wellFormed = false ∧ (Instr.overvoltageRecovery b).wellFormed = false ∧
      (Instr.railRetry b).wellFormed = false ∧ (Instr.perstNDeassert b).wellFormed = false ∧
      (Instr.wakeN true b).wellFormed = false) := by decide

theorem test_refuses_readings : (Instr.sensorRead [] 0 0).wellFormed = false ∧
    (Instr.sensorRead (List.replicate 48 none) (2 ^ 16) 0).wellFormed = false ∧
    (Instr.sensorRead (List.replicate 48 none) 0 (2 ^ 16)).wellFormed = false ∧ (Instr.sensorReadmit 48).wellFormed = false ∧
    (Instr.thmSuspectClear 48).wellFormed = false ∧ (Instr.hardwareTrip 3).wellFormed = false ∧
    (Instr.calRunDone true [] (List.replicate 3 0) 0).wellFormed = false ∧
    (Instr.calRunDone true (List.replicate 18 0) [] 0).wellFormed = false := by decide


/-! ## Witnesses: concrete states and operands that meet the hypotheses of each statement -/

theorem witness_EmptyQueueTicks : State.reset.pending = [] ∧ State.reset.awake = false ∧ up.pending = [] ∧ up.awake = true := by decide

theorem witness_EveryStepKeepsStoresCanonical : up.canonical = true ∧ ∃ t, step { up with pending := [.pop] } = .next t := ⟨by decide, _, rfl⟩

theorem witness_EveryStepKeepsItsLanesAndPorts : up.shaped = true ∧ ∃ t, step { up with pending := [.pop] } = .next t := ⟨by decide, _, rfl⟩

/-- CXL.mem in use: decoder 0 maps 64 GiB from 2^40, more than the device has. -/
def cxlUp : State :=
  let s := (withRing up (ringOf 1 1 [])).wr F.HIF_STATUS_CXL_MODE 1
  { s with hif := { s.hif with hdm := ⟨2 ^ 40, 2 ^ 36, 0, 0, true⟩ } }

theorem witness_EveryCommandCompletesWithinItsFrame : (cxlUp.cxlLines (2 ^ 40) 1).isSome = true ∧
    (cxlUp.cxlLines (2 ^ 40) ((([7] : List Byte).length + 63) / 64)).isSome = true ∧
    (∀ addr lines u, Instr.evtTest 0 = .cxlMemRead addr lines u → (up.cxlLines addr lines).isSome = true) ∧
    (∀ addr data, Instr.evtTest 0 = .cxlMemWrite addr data → (up.cxlLines addr ((data.length + 63) / 64)).isSome = true) ∧
    exec (.cxlMemRead (2 ^ 40) 1 []) cxlUp = .next (after (.cxlMemRead (2 ^ 40) 1 []) cxlUp) := by
  refine ⟨by decide +kernel, by decide +kernel, nofun, nofun, rfl⟩

/-- A setting in force that a loss of power takes back to its reset value. -/
def litUp : State := { up with live := [(0xC0014, 5)] }

theorem witness_SettingsInForceChangeOnlyWhereTheRulesSay : exec .uvloFall litUp = .next (after .uvloFall litUp) ∧
    (after .uvloFall litUp).live ≠ litUp.live := by
  refine ⟨?_, by decide⟩
  simp only [after, exec]
  rfl

theorem witness_CounterClearsAreExact : (Instr.pwrCntClear, counterRegs 0x30010 2) ∈ clearedBy ∧
    (Instr.lnkCntClear, (List.range 104).flatMap fun n => counterRegs (0xF1020 + 0x40 * n) 6) ∈ clearedBy ∧
    up.bar0Open = true ∧ State.reset.bar0Open = false := ⟨by simp [clearedBy], by simp [clearedBy], by decide, by decide⟩

theorem witness_Bar0WritesActOnceAndOnlyWhileOpen : isBar0Write (.registerWrite 0x10020 1) = true ∧ State.reset.bar0Open = false ∧
    isBar0Write .featuresOk = true ∧ (up.wr F.HIF_STATUS_RESET_BUSY 1).bar0Open = false ∧
    (0x7000C, Instr.timOffsetHi) ∈ rowWrites ∧ (0x11000 + 8 * 63, Instr.hifDbSq 63) ∈ rowWrites ∧
    (0x20040 + 4 * 15, Instr.evtEnable 15) ∈ rowWrites ∧ 15 < 16 := by
  refine ⟨by decide, by decide, by decide, by decide, by simp [rowWrites], ?_, ?_, by decide⟩
  · simp [rowWrites]
    exact .inl ⟨63, by decide, rfl, rfl⟩
  · simp [rowWrites]
    exact .inr (.inr ⟨15, by decide, rfl, rfl⟩)

theorem witness_PlainRegisterWritesFollowTheirAccessTypes : up.bar0Open = true ∧
    (∀ off ∈ [0x10020, 0x1002C, 0x20000, 0x2003C, 0x21000, 0x217FC, 0xC0004, 0xD0004], off % 4 = 0 ∧ plainOffset off = true) ∧
    (regFind 0x10020).isSome = true ∧ plainOffset 0xCFFFC = true ∧ regFind 0xCFFFC = none := by decide

theorem witness_ReadsAndOtherAccesses : ¬(8 = 4 ∧ 0x10000 % 4 = 0) ∧ ¬(4 = 4 ∧ 0x10002 % 4 = 0) ∧ up.awake = true ∧
    isLo 0x10000 = false ∧ up.hif.hiCap = [] ∧ isLo 0x70008 = true ∧ isLo (0x70008 + 4) = false ∧
    0x70008 / 0x10000 = (0x70008 + 4) / 0x10000 ∧
    (after (.loRegisterRead 0x70008) up).awake = true := by decide

theorem witness_LinkAndFirmwareEvents : up.awake = true ∧ up.pwr.perst = false ∧ up.ready = true ∧
    ((withRing up (ringOf 1 1 [])).wr F.HIF_STATUS_CXL_MODE 1).hif.linkUp = true ∧
    ((withRing up (ringOf 1 1 [])).wr F.HIF_STATUS_CXL_MODE 1).rd F.HIF_STATUS_CXL_MODE = 1 := by decide

theorem witness_ResetsClearTheHostSide : up.bar0Open = true ∧ up.powered = true ∧ up.rd F.HIF_STATUS_RESET_BUSY = 0 ∧
    (inState .s3 up).powered = true ∧ (up.wr F.HIF_STATUS_RESET_BUSY 1).powered = true ∧
    (up.wr F.HIF_STATUS_RESET_BUSY 1).rd F.HIF_STATUS_RESET_BUSY = 1 := by decide

/-- A driver that accepts the given features. -/
def accepting (n : Nat) : State := up.setWord 0x10020 (BitVec.ofNat 32 n)

/-- R62's four conditions, decided. -/
def r62 (s : State) : List Bool :=
  [(List.range 128).all fun i => !accepts s i || bitAt s.featOffer i,
   [accepts s 0, accepts s 1, accepts s 2].count true == 1, accepts s 3 || accepts s 4,
   !accepts s 3 || accepts s 1 || accepts s 2]

theorem r62_iff (s : State) : r62 s = [true, true, true, true] ↔ setOffered s ∧ setOneVersion s ∧ setDoorbell s ∧ setLineVersion s := by
  simp only [r62, List.cons.injEq, and_true, List.all_eq_true, List.mem_range, Bool.or_eq_true, Bool.not_eq_true']
  refine and_congr ?_ (and_congr ?_ (and_congr Iff.rfl ?_))
  · refine forall_congr' fun i => imp_congr_right fun _ => ?_
    cases accepts s i <;> simp
  · simp only [setOneVersion]
    cases accepts s 0 <;> cases accepts s 1 <;> cases accepts s 2 <;> decide
  · simp only [setLineVersion]
    cases accepts s 3 <;> simp

theorem witness_FeatureSetsAreHonouredOrRefused :
    (∀ n ∈ [0x12, 0x20, 0x10, 1, 9], (accepting n).bar0Open = true ∧ (accepting n).rd F.HIF_STATUS_RUNNING = 0 ∧
      (accepting n).rd F.HIF_CTRL_FEATURES_OK = 0) ∧
    r62 (accepting 0x12) = [true, true, true, true] ∧ (r62 (accepting 0x20))[0]? = some false ∧
    (r62 (accepting 0x10)).take 2 = [true, false] ∧ (r62 (accepting 1)).take 3 = [true, true, false] ∧
    ((accepting 9).wr F.HIF_STATUS_CXL_MODE 1).rd F.HIF_CTRL_FEATURES_OK = 0 ∧
    r62 ((accepting 9).wr F.HIF_STATUS_CXL_MODE 1) = [true, true, true, false] := by decide

/-- Ring 0 configured: LOG2_SIZE and bases in 4 KiB, and a doorbell line in 64 bytes. -/
def ring0 (log2 sq cq line : Nat) : State :=
  (((up.wr F.HIF_RING_CFG_LOG2_SIZE log2).setWord 0x10034 (BitVec.ofNat 32 (4096 * sq))).setWord 0x1003C (BitVec.ofNat 32 (4096 * cq))).setWord
    0x10044 (BitVec.ofNat 32 (64 * line))

theorem witness_Ring0StartsOrSaysWhyNot :
    (∀ p ∈ [(6, 1, 1, 0), (12, 1, 1, 0), (5, 1, 1, 0), (13, 1, 1, 0), (6, 0, 1, 0), (6, 1, 0, 0), (6, 1, 1, 1)],
      (ring0 p.1 p.2.1 p.2.2.1 p.2.2.2).bar0Open = true ∧ (ring0 p.1 p.2.1 p.2.2.1 p.2.2.2).ring? 0 = none ∧ (ring0 p.1 p.2.1 p.2.2.1 p.2.2.2).rd F.HIF_STATUS_RUNNING = 0) ∧
    (∀ n ∈ [6, 12], ring0SizeOk 1 (ring0 n 1 1 0) ∧ ring0BaseOk (ring0 n 1 1 0) ∧ (ring0 n 1 1 0).ring0Line = 0) ∧
    (∀ n ∈ [5, 13], ¬ring0SizeOk 1 (ring0 n 1 1 0)) ∧ (∀ p ∈ [(0, 1), (1, 0)], ring0SizeOk 1 (ring0 6 p.1 p.2 0) ∧ ¬ring0BaseOk (ring0 6 p.1 p.2 0)) ∧
    ring0SizeOk 1 (ring0 6 1 1 1) ∧ ring0BaseOk (ring0 6 1 1 1) ∧ (ring0 6 1 1 1).ring0Line ≠ 0 ∧
    (accepting 1).rd F.HIF_CTRL_FEATURES_OK = 0 ∧ rejectReason (accepting 1).featOffer (accepting 1).featAccept ≠ 0 := by
  unfold ring0SizeOk ring0BaseOk
  decide

/-- A driver that accepts a set with ring version `ver`, and ring 0 of the given size. -/
def starting (feats log2 line : Nat) : State := (ring0 log2 1 1 line).setWord 0x10020 (BitVec.ofNat 32 feats)

theorem witness_Ring0StartsOrSaysWhyNot_version :
    (∀ p ∈ [(0x11, 1, 12, 0), (0x12, 2, 14, 0), (0x14, 3, 16, 0), (0x1A, 2, 6, 1)],
      let s := (starting p.1 p.2.2.1 p.2.2.2).wr F.HIF_STATUS_CXL_MODE 1
      s.bar0Open = true ∧ s.rd F.HIF_STATUS_RUNNING = 0 ∧ s.ring? 0 = none ∧ s.rd F.HIF_CTRL_FEATURES_OK = 0 ∧
        r62 s = [true, true, true, true] ∧ accepts s (p.2.1 - 1) = true ∧ ring0SizeOk p.2.1 s ∧ ring0BaseOk s ∧
        (s.ring0Line = 0 ∨ accepts s 3 = true)) ∧
    ((starting 0x1A 6 1).ring0Line ≠ 0 ∧ 64 ≤ 2 ^ (starting 0x1A 6 1).rd F.HIF_RING_CFG_LOG2_SIZE) ∧
    ((up.wr F.HIF_STATUS_RUNNING 1).bar0Open = true ∧ (up.wr F.HIF_STATUS_RUNNING 1).rd F.HIF_STATUS_RUNNING = 1) := by
  unfold ring0SizeOk ring0BaseOk
  decide

/-- Ring 1 of class STREAM with a doorbell line. -/
def lined (shared : Bool) : Ring := { ringOf 1 1 [] with dbLine := 0x40, lineShared := shared }

theorem witness_DoorbellsAct : up.bar0Open = true ∧ up.hif.rings = [] ∧
    (withRing up (ringOf 1 1 [])).bar0Open = true ∧ (withRing up (ringOf 1 1 [])).ring? 1 = some (ringOf 1 1 []) ∧
    (ringOf 1 1 []).dbLine = 0 ∧ (withRing up (ringOf 1 1 [])).doorbellActs 1 true = true ∧ (ringOf 1 1 []).fault = false ∧
    (ringOf 1 1 []).cqCi < 2 ^ up.idxW ∧
    (∀ v ∈ [0, 64], 0 ≤ serialDelta 16 v 0 ∧ serialDelta 16 v 0 ≤ 2 ^ 6) ∧
    (∀ v ∈ [65, 0xFFFF], ¬(0 ≤ serialDelta 16 v 0 ∧ serialDelta 16 v 0 ≤ 2 ^ 6)) ∧
    (withRing up (lined true)).ring? 1 = some (lined true) ∧ (lined true).dbLine ≠ 0 ∧ (lined true).lineShared = true ∧
    (withRing up (lined false)).ring? 1 = some (lined false) ∧ (lined false).lineShared = false ∧
    (withRing up (lined false)).hostLink = true ∧ (withRing up (lined false)).doorbellActs 1 true = true ∧
    (let r := { ringOf 1 1 [] with fault := true }
     (withRing up r).ring? 1 = some r ∧ r.fault = true ∧ (withRing up r).doorbellActs 1 true = true) := by decide

/-- A finished descriptor, and a completion record. -/
def finished : Desc := { desc 0x05 [] with phase := .done }
def aRecord : CplRec := ⟨5, 7, 0, 0, 0, 1, true, []⟩

/-- Ring 1 with one entry that may be fetched; `upTo` is where an abort ends. -/
def fetching (upTo : Nat) : Ring := { ringOf 1 1 [] with pi := 1, abortTo := upTo }

theorem witness_DescriptorsAreFetchedAndReported :
    (∀ a ∈ [0, 1], (withRing up (fetching a)).ring? 1 = some (fetching a) ∧ (fetching a).fault = false ∧
      (withRing up (fetching a)).hostLink = true ∧ serialLater (withRing up (fetching a)).idxW (fetching a).pi (fetching a).fetch = true ∧
      (withRing up (fetching a)).doorbellActs 1 false = true ∧ (withRing up (fetching a)).serves 1 = true ∧
      (desc 0x05 []).bytes.length = 64 ∧ serialLater 16 (fetching a).abortTo (fetching a).fetch = (a == 1)) ∧
    (fetching 1).stale = false ∧
    (withRing up (ringOf 1 1 [finished])).ring? 1 = some (ringOf 1 1 [finished]) ∧ finished.phase = .done ∧
    (withRing up (ringOf 1 1 [finished])).retireHeld finished = false ∧ (ringOf 1 1 [finished]).startable = none ∧
    (let d := desc 0x7F []
     (withRing up (ringOf 1 1 [d])).ring? 1 = some (ringOf 1 1 [d]) ∧ d.phase = .waiting ∧ d.fence = false ∧ opClass d.op = none ∧
       (withRing up (ringOf 1 1 [d])).serves 1 = true) ∧
    (let r := { ringOf 1 0 [] with recs := [aRecord] }
     (withRing up r).ring? 1 = some r ∧ (r.cqPi + 2 ^ up.idxW - r.cqCi) % 2 ^ up.idxW < 2 ^ r.log2 ∧ (withRing up r).hostLink = true ∧
       r.cls ≠ Cls.STREAM ∧ aRecord.evs = [] ∧ (withRing up r).hif.aborts = [] ∧ r.coalUs = 0) ∧
    (let r := { ringOf 1 1 [] with timer := true }; (withRing up r).ring? 1 = some r ∧ r.timer = true) := by decide

/-- CREATE_RING's operands (Table 2-8): both bases, no doorbell line, ring 2 of class STREAM with 64 entries. -/
def createBody : List Byte := leBytes 0x3000 8 ++ leBytes 0x4000 8 ++ leBytes 0 8 ++ [2, 1, 6, 0]

theorem witness_RingManagement :
    Passes (oneDesc up 1 0x05 []) 1 0x05 (ringOf 1 1 [desc 0x05 []]) (desc 0x05 []) [((desc 0x05 []).restZero [], Cpl.BAD_FIELD)] ∧
    (let d := desc 0x01 createBody
     let s := oneDesc up 0 0x01 createBody
     Passes s 1 0x01 (ringOf 1 0 [d]) d (s.createChecks (ringOf 1 0 [d]) d) ∧ leAt d.bytes 24 8 = 0) ∧
    (let body := leBytes 0x3000 8 ++ leBytes 0x4000 8 ++ leBytes 0x40 8 ++ [2, 1, 6, 0]
     let d := desc 0x01 body
     ∀ s ∈ [oneDesc up 0 0x01 body, inState .s2 (oneDesc up 0 0x01 body)],
       Passes s 1 0x01 (ringOf 1 0 [d]) d (s.createChecks (ringOf 1 0 [d]) d) ∧ leAt d.bytes 24 8 ≠ 0 ∧
         s.doorbellActs (byteAt d.bytes 33) true = (s.pwr.st == .s0)) ∧
    (∀ op ∈ [0x02, 0x03], Passes (oneDesc up 0 op [1]) 1 op (ringOf 1 0 [desc op [1]]) (desc op [1])
      ((oneDesc up 0 op [1]).ringIdChecks (ringOf 1 0 [desc op [1]]) (desc op [1]))) ∧
    (∀ p ∈ [(0, 6, 0), (0x5000, 16, 63)], let body := leBytes p.1 8 ++ leBytes p.2.1 1 ++ leBytes p.2.2 1
      let d := desc 0x06 body
      let s := oneDesc up 0 0x06 body
      s.nextOp 1 0x06 = some (ringOf 1 0 [d], d) ∧ s.opAllowed 0 0x06 = true ∧ s.headerOk d = true ∧ d.restZero [(8, 10)] = true ∧
        leAt d.bytes 8 8 < 2 ^ 63 ∧ leAt d.bytes 8 8 % 4096 = 0 ∧ 6 ≤ byteAt d.bytes 16 ∧ byteAt d.bytes 16 ≤ 16 ∧ byteAt d.bytes 17 ≤ 63) ∧
    ((fun n => Instr.createRing n 0 0), 0x01) ∈ opcodeRows ∧
    (oneDesc up 1 0x01 []).nextOp 1 0x01 = some (ringOf 1 1 [desc 0x01 []], desc 0x01 []) ∧ (oneDesc up 1 0x01 []).opAllowed 1 0x01 = false ∧
    (oneDesc up 1 0x01 []).nvs.logOp = none ∧ (oneDesc up 1 0x01 []).nvs.flashOp = none := by
  unfold Passes
  refine ⟨by decide, by decide, by decide, by decide, by decide, by simp [opcodeRows], by decide⟩

theorem witness_EmergencyAborts : up.bar0Open = true ∧ up.rd F.HIF_ABORT_STATUS_BUSY = 0 ∧ up.hif.rings = [] ∧
    (withRing up (ringOf 1 1 [])).bar0Open = true ∧ (withRing up (ringOf 1 1 [])).rd F.HIF_ABORT_STATUS_BUSY = 0 ∧
    ((withRing up (ringOf 1 1 [])).hif.rings.map Ring.num).filter (fun n => false || n == 1) ≠ [] ∧
    (up.wr F.HIF_ABORT_STATUS_BUSY 1).bar0Open = true ∧ (up.wr F.HIF_ABORT_STATUS_BUSY 1).rd F.HIF_ABORT_STATUS_BUSY = 1 ∧
    (let r := ringOf 1 1 []
     let s := (withRing up r).beginAbort ⟨1, [1], none, false, 0⟩
     s.awake = true ∧ s.rd F.HIF_STATUS_RESET_BUSY = 0 ∧ s.ring? 1 = some r ∧ s.hif.aborts = [⟨1, [1], none, false, 0⟩] ∧ r.dbLine = 0 ∧
       r.fault = false ∧ s.rd (F.HIF_DB_SQ_INDEX 1) = r.pi ∧ r.pi < 2 ^ s.idxW ∧ serialLater s.idxW r.pi r.fetch = false ∧
       serialLater s.idxW r.abortTo r.fetch = false ∧ piLegal s.idxW (2 ^ r.log2) r.pi r.ci = true) ∧
    (let s := (withRing (withRing up (ringOf 0 0 [{ desc 0x03 [1] with phase := .running }])) (ringOf 1 1 [])).beginAbort
       ⟨1, [1], some 0, false, 0⟩
     s.awake = true ∧ s.ring? 1 = some (ringOf 1 1 []) ∧ s.hif.aborts = [⟨1, [1], some 0, false, 0⟩] ∧
       s.rd (F.HIF_DB_SQ_INDEX 1) = 0 ∧ ∃ r ∈ s.hif.rings, r.num = 0 ∧ ∃ d ∈ r.descs, d.idx = 0) := by decide

/-- Event `src` is enabled, by itself in its group, and goes to the event ring, where `used` of 64 records are not consumed. -/
def evtOn (src used : Nat) : State :=
  { ((((up.wr (evtEnableFld src) 1).wr (F.EVT_ROUTE_RING src) 1).wr F.EVT_RING_STATUS_ACTIVE 1).wr F.EVT_RING_STATUS_LOG2_SIZE 6).wr
      F.EVT_RING_PI_INDEX used with evt := { EvtSt.reset with ringBase := 0x5000 } }

/-- The MSI-X vector `v` is unmasked (R388). -/
def unmask (v : Nat) (s : State) : State := { s with hif := { s.hif with msix := [(4 * v + 3, 0)] } }

theorem witness_TestRaisesOneOccurrence : up.bar0Open = true ∧ evtInUse 511 = false ∧ evtInUse 0 = true ∧ up.evt.wait = none ∧
    up.rd (evtEnableFld 0) = 0 ∧
    (let s := unmask 0 (up.wr (evtEnableFld 0) 1)
     s.evt.wait = none ∧ s.rd (evtEnableFld 0) = 1 ∧ s.evtSrc 0 = none ∧ s.rd (F.EVT_ROUTE_RING 0) = 0 ∧ s.rd (F.EVT_ROUTE_COAL_US 0) = 0 ∧
       bitAt (s.msixWord (4 * s.rd (F.EVT_ROUTE_VECTOR 0) + 3)).toNat 0 = false) := by decide

theorem witness_FullEventRingLosesRecords :
    (∀ used ∈ [63, 64], let s := unmask 0 (evtOn 0 used)
      s.bar0Open = true ∧ evtInUse 0 = true ∧ s.evt.wait = none ∧ s.rd (evtEnableFld 0) = 1 ∧ s.evtSrc 0 = none ∧
        s.rd (F.EVT_ROUTE_COAL_US 0) = 0 ∧ s.rd (F.EVT_ROUTE_RING 0) = 1 ∧ s.rd F.EVT_RING_STATUS_ACTIVE = 1 ∧
        s.rd F.EVT_RING_STATUS_LOG2_SIZE = 6 ∧ (s.rd F.EVT_RING_PI_INDEX + 2 ^ 32 - s.rd F.EVT_RING_CI_INDEX) % 2 ^ 32 = used ∧
        bitAt (s.msixWord (4 * s.evt.ringVec + 3)).toNat 0 = false ∧ s.rd (evtEnableFld 481) = 0) ∧
    (let s := unmask 0 ((evtOn 0 64).wr (evtEnableFld 481) 1)
     s.rd (evtEnableFld 481) = 1 ∧ s.evtSrc 481 = none ∧ bitAt (s.msixWord (4 * s.rd (F.EVT_ROUTE_VECTOR 481) + 3)).toNat 0 = false) := by decide

/-- Source 0's coalescing timer runs with `n` occurrences held. -/
def held (n : Nat) : State := { unmask 0 up with evt := { EvtSt.reset with srcs := [⟨0, true, n, 0, 0⟩] } }

theorem witness_EventsAreEnabledHeldAndSignalled : up.bar0Open = true ∧
    bitAt ((up.setWord 0x20040 1).word (0x20040 + 4 * 0)).toNat 0 = true ∧ bitAt (0 : Word).toNat 0 = false ∧
    (let s := unmask 0 (up.wr (evtStatusFld 0) 1)
     evtInUse (32 * 0 + 0) = true ∧ s.bar0Open = true ∧ s.word (0x20040 + 4 * 0) = 0 ∧ (1 : Word).toNat = 2 ^ 0 ∧ s.rd (evtStatusFld 0) = 1 ∧
       s.rd (F.EVT_ROUTE_RING 0) = 0 ∧ bitAt (s.msixWord (4 * s.rd (F.EVT_ROUTE_VECTOR 0) + 3)).toNat 0 = false) ∧
    (∀ n ∈ [0, 1], (held n).evtSrc 0 = some ⟨0, true, n, 0, 0⟩ ∧ (held n).awake = true ∧ (held n).rd (F.EVT_ROUTE_RING 0) = 0 ∧
      bitAt ((held n).msixWord (4 * (held n).rd (F.EVT_ROUTE_VECTOR 0) + 3)).toNat 0 = false) ∧
    (inState .off (held 1)).awake = false ∧ (inState .off (held 1)).evtSrc 0 = some ⟨0, true, 1, 0, 0⟩ ∧ up.hif.rings = [] ∧
    0x3FC < 0x400 ∧ 0x3FC % 4 = 0 ∧ 0x3FC % 16 = 12 := by decide


theorem witness_SymbolGuardCorrectsOneSymbol : (List.replicate 32 255).length = 32 ∧ (∀ b ∈ List.replicate 32 255, b < 256) ∧
    35 < 36 ∧ 0 < 1 ∧ 255 < 256 := by decide +kernel

theorem witness_DeviceAddressesMapOneToOne : 0 < 2 ^ 36 ∧ 2 ^ 36 - 1 < 2 ^ 36 ∧
    MemSt.reset.stackOf 0 = MemSt.reset.stackOf (2 ^ 36 - 1 - (2 ^ 36 - 1)) ∧ MemSt.reset.stackOffset 0 = MemSt.reset.stackOffset 0 := by decide +kernel

/-- CXL.mem in use while pair 28 is being initialised. -/
def cxlBusy : State := { cxlUp with mem := { cxlUp.mem with reinit := [28] } }

/-- The host address of device address `a`. -/
def hpaOf (a : Nat) : Nat := 2 ^ 40 + a

theorem witness_HostLinesOfDeviceMemory : cxlUp.canonical = true ∧ cxlUp.cxlMemUp = true ∧ cxlUp.mem.reinit = [] ∧
    cxlUp.hif.hdm.committed = true ∧ cxlUp.hif.hdm.ways = 0 ∧ cxlUp.hif.hdm.base = 2 ^ 40 ∧ cxlUp.hif.hdm.size = 2 ^ 36 ∧
    (∀ a ∈ [0, visibleEnd - 64], hpaOf a % 64 = 0 ∧ a % 64 = 0 ∧ cxlUp.cxlLine (hpaOf a) = some a ∧ cxlUp.cxlLines (hpaOf a) 1 = some [a] ∧
      hpaOf a - 2 ^ 40 + 64 ≤ 58 * 2 ^ 30 ∧ cxlUp.mem.classify (a / 32) = .good ∧ cxlUp.mem.classify (a / 32 + 1) = .good) ∧
    cxlUp.cxlLine (2 ^ 40 - 64) = none ∧ cxlUp.cxlLine (hpaOf visibleEnd) = none ∧ State.reset.hif.hdm.committed = false ∧
    cxlUp.cxlLines (hpaOf (visibleEnd - 64)) 2 = none ∧ cxlUp.cxlLines (hpaOf visibleEnd) ((([7] : List Byte).length + 63) / 64) = none ∧
    (cxlBusy.canonical = true ∧ cxlBusy.cxlMemUp = true ∧ (visibleEnd - 64) / 2 ^ 31 ∈ cxlBusy.mem.reinit ∧ 0 / 2 ^ 31 ∉ cxlBusy.mem.reinit ∧
      cxlBusy.cxlLine (hpaOf (visibleEnd - 64)) = some (visibleEnd - 64) ∧ cxlBusy.cxlLine (hpaOf 0) = some 0) ∧
    (inState .s3 cxlUp).cxlMemUp = false ∧ ((inState .s3 cxlUp).cxlLines (hpaOf 0) 1).isSome = true ∧
    (List.replicate 64 (7 : Byte)).length = 64 := by decide +kernel

/-- A memory whose sector 0 reads as the given class: its codeword holds `bad` symbols changed. -/
def marred (bad : Nat) : MemSt := { MemSt.reset with data := (List.range bad).map fun i => (i, 1) }

theorem witness_ScrubClassifiesItsSector : up.canonical = true ∧
    (∀ m ∈ [marred 1, marred 2, MemSt.reset.poisonSector 0], ({ up with mem := m } : State).canonical = true ∧
      ({ up with mem := m } : State).scrubPaused = false) ∧ up.awake = true ∧ up.ready = true ∧ up.rd F.MEM_CTRL_SCRUB_EN = 1 ∧ up.scrubPaused = false ∧
    up.rd F.MEM_SCRUB_POS_SECTOR = 0 ∧ (up.wr F.MEM_SCRUB_POS_SECTOR (2 ^ 31 - 1)).rd F.MEM_SCRUB_POS_SECTOR + 1 = 2 ^ 31 ∧
    up.mem.classify 0 = .good ∧ (marred 1).classify 0 = .correctable 0 1 ∧ (marred 2).classify 0 = .uncorrectable ∧
    (MemSt.reset.poisonSector 0).classify 0 = .poisoned ∧ up.rd F.MEM_ERR_INFO_VALID = 0 ∧
    (up.wr F.MEM_ERR_INFO_VALID 1).rd F.MEM_ERR_INFO_VALID = 1 := by decide +kernel

theorem witness_PairModesChangeByReinitialisation : up.bar0Open = true ∧ up.initBusy = false ∧
    (∀ js ∈ [[28], [0, 5]], let s := { up with mem := { up.mem with reinit := js } }
      s.bar0Open = true ∧ s.initBusy = true ∧ s.awake = true ∧ s.mem.reinit = js.headD 0 :: js.tail ∧ (js.tail = [] ∨ js.tail ≠ [])) := by decide +kernel

/-- A waiting feed of STREAM_RESET. -/
def resetFeed : Feed := { Feed.start 1 0 0 with fid := 1, isReset := true }

theorem witness_StreamDescriptorsFeedTheParser :
    (∀ src ∈ [0x8000, 2 ^ 63 + 0x8000], let body := leBytes src 8 ++ leBytes 8 4
      let d := desc 0x10 body
      Passes (oneDesc granted 1 0x10 body) 1 0x10 (ringOf 1 1 [d]) d
        [(d.restZero [(8, 8), (16, 4)] && addrForm (leAt d.bytes 8 8) && leAt d.bytes 16 4 % 8 == 0, Cpl.BAD_FIELD),
          ((oneDesc granted 1 0x10 body).bufOk .dec false (leAt d.bytes 8 8) (leAt d.bytes 16 4) && (oneDesc granted 1 0x10 body).cfgOk,
            Cpl.BAD_ADDRESS)] ∧ 0 < leAt d.bytes 16 4 ∧ ∀ f ∈ (oneDesc granted 1 0x10 body).dec.feeds, (oneDesc granted 1 0x10 body).dec.feedDone f = false) ∧
    (let body := leBytes (2 ^ 63 + 0x8000) 8 ++ leBytes 8 4 ++ leBytes 3 4
     let d := desc 0x12 body
     let s := oneDesc granted 1 0x12 body
     Passes s 1 0x12 (ringOf 1 1 [d]) d
       [(d.restZero [(8, 8), (16, 4), (20, 4)] && isDevice (leAt d.bytes 8 8), Cpl.BAD_FIELD),
         (s.rangeOk .dec false (leAt d.bytes 8 8 - 2 ^ 63) (leAt d.bytes 16 4) && s.cfgOk, Cpl.BAD_ADDRESS)] ∧
       0 < leAt d.bytes 16 4 ∧ ∀ f ∈ s.dec.feeds, s.dec.feedDone f = false) ∧
    Passes (oneDesc up 1 0x11 []) 1 0x11 (ringOf 1 1 [desc 0x11 []]) (desc 0x11 []) [((desc 0x11 []).restZero [], Cpl.BAD_FIELD)] ∧
    (let s := { oneDesc up 1 0x11 [] with dec := { DecSt.reset with feeds := [resetFeed] } }
     (s.dec.feeds.find? fun f => !f.parsed) = some resetFeed ∧ resetFeed.isReset = true ∧ s.pwr.st = .s0 ∧
       (s.descsOf resetFeed.ring).head?.map Desc.idx = some resetFeed.idx) := by
  unfold Passes
  refine ⟨by decide +kernel, by decide +kernel, by decide +kernel, by decide +kernel⟩

/-- A parcel of chapter 3: its header with the CRC, its payload and padding (R73 to R75). -/
def parcel (type view : Nat) (pl : List Byte) : List Byte :=
  let h := leBytes type 1 ++ leBytes view 1 ++ leBytes pl.length 4
  h ++ leBytes (crc16 (h ++ pl)) 2 ++ pl ++ List.replicate (8 * ceilDiv pl.length 8 - pl.length) 0

/-- STREAM ring 1 has a buffer of one parcel in parse, where the parser stands as `d` says. -/
def feedOf (bs : List Byte) : Feed := { Feed.start 1 0 bs.length with fid := 1, bytes := bs }
def parsing (d : DecSt) (bs : List Byte) : State := { oneDesc granted 1 0x10 [] with dec := { d with feeds := [feedOf bs] } }

/-- The parser takes that parcel. -/
def Parses (d : DecSt) (type view : Nat) (pl : List Byte) : Prop :=
  Takes (parsing d (parcel type view pl)) (feedOf (parcel type view pl)) ((parcel type view pl).map fun b => ⟨b, false⟩) (kindOfType type)
    ⟨type, view, pl⟩

/-- What the parser leaves of the parser's own state as it takes that parcel. -/
def taken (d : DecSt) (type view : Nat) (pl : List Byte) : DecSt :=
  let bs := parcel type view pl
  ((parsing d bs).takeParcel (feedOf bs) (bs.map fun b => ⟨b, false⟩)).1.dec

/-- A SEQ of version 1, profile 1 or another, 10 tenths of luma, the size given, DOFF `doff` (Table 3-6). -/
def seqPl (ver cols rows doff : Nat) : List Byte :=
  leBytes ver 2 ++ [1, 10] ++ leBytes cols 2 ++ leBytes rows 2 ++ leBytes doff 2 ++ [2, 0] ++ leBytes 0 4

theorem witness_parse_seq : Parses DecSt.reset 1 0xFF (seqPl 1 4096 2160 5) ∧ Parses DecSt.reset 1 0xFF (seqPl 2 4096 2160 5) ∧
    Parses DecSt.reset 1 0xFF (seqPl 1 512 8 5) ∧ 16 ≤ (seqPl 1 512 8 5).length ∧ (byteAt (seqPl 1 512 8 5) 0 = 1) ∧
    leAt (seqPl 1 512 8 5) 8 2 ≠ 0 ∧ byteAt (seqPl 1 512 8 5) 10 ≤ 4 ∧ byteAt (seqPl 1 512 8 5) 2 = 1 ∧ byteAt (seqPl 1 512 8 5) 3 = 10 ∧
    byteAt (seqPl 2 4096 2160 5) 0 ≠ 1 ∧ (parsing DecSt.reset []).geo.cols = 4096 ∧ (parsing DecSt.reset []).geo.rows = 2160 := by
  unfold Parses Takes
  decide +kernel

/-- Where the parser stands in an access unit with one anchor. -/
def curAu : CurAu := { id := 1, seq := 0, rank := 1, key := true, live := true, done := [], short := [] }
def inUnit : DecSt :=
  { DecSt.reset with
    mode := .inAu, seq := some ⟨5, 2⟩, grid := some ⟨12, 12, [(0, 0)]⟩, gridOk := true, needKey := false, cur := some curAu }

/-- A picture of 8 by 8 samples in slot 0 of anchor 0, its rows in the given states. -/
def tinyView : ViewPic :=
  { scale := 1, gl := 0, gr := 0, gt := 0, gb := 0, qpTex := 20, qpDepth := 20, qpOffR := 0, qpOffB := 0, sbQp := false, nTref := 0,
    sw := 8, sh := 8 }
def tinyPic (row : SbRow) : Pic :=
  { uid := 1, anchor := 0, au := 1, auRank := 1, epoch := 0, slot := 0, addr := 0x100000, vp := tinyView, refs := [], tex := [row],
    dep := [row], passed := false, win := .unopened, repair := false, stale := false, stalePin := false }

/-- That unit with that picture accepted. -/
def withPic (row : SbRow) : DecSt := { inUnit with cur := some { curAu with done := [0] }, adm := 1, pics := [tinyPic row] }

/-- A SLICE or DEPTH payload for row 0 of anchor 0 (Table 3-10). -/
def slicePl : List Byte := leBytes 1 4 ++ leBytes 0 2 ++ leBytes 1 2 ++ leBytes 0 8
def tinyJob (st : JobSt) : Job := { sliceJob 1 none 1 true slicePl [0] 1 false with st := st }
def decOf (d : DecSt) : State := { granted with dec := d }

/-- GRID (Table 3-7), AU (Table 3-8), VIEWPIC (Table 3-9) payloads. -/
def gridPl : List Byte := [12, 12, 1, 0, 0, 0]
def auPl (id : Nat) (key : Bool) : List Byte := leBytes id 4 ++ leBytes (if key then 1 else 0) 4
def viewPl : List Byte := leBytes 1 4 ++ [1] ++ List.replicate 19 0

theorem witness_parse_grid : Parses { DecSt.reset with mode := .afterSeq } 2 0xFF gridPl ∧ gridOf gridPl = some ⟨12, 12, [(0, 0)]⟩ ∧
    (taken { DecSt.reset with mode := .afterSeq } 2 0xFF gridPl).mode = .afterSeq ∧
    (let other : List Byte := [144, 12, 1, 0, 0, 0]
     Parses { DecSt.reset with mode := .afterSeq } 2 0xFF other ∧ 2 ≤ other.length ∧ byteAt other 0 ≠ granted.geo.gu ∧ gridOf other = none) ∧
    granted.geo.gu = 12 ∧ granted.geo.gv = 12 := by
  unfold Parses Takes
  decide +kernel

theorem witness_parse_au : (∀ m ∈ [ParseMode.afterGrid, .inAu, .auBad, .afterReset],
      let d := { DecSt.reset with mode := m, gridOk := true }
      (∀ key ∈ [true, false], Parses d 3 0xFF (auPl 7 key) ∧ (auPl 7 key).length = 8 ∧ bitAt (byteAt (auPl 7 key) 4) 0 = key ∧
        (taken d 3 0xFF (auPl 7 key)).mode = m ∧ (taken d 3 0xFF (auPl 7 key)).gridOk = true) ∧ d.needKey = true) ∧
    Parses inUnit 3 0xFF (auPl 1 false) ∧ inUnit.needKey = false ∧ (taken inUnit 3 0xFF (auPl 1 false)).auFollows 1 = false := by
  unfold Parses Takes
  decide +kernel

/-- A pool without slots. -/
def noSlots : DecSt := { inUnit with cfg := { DecCfg.reset with slots := 0 } }

theorem witness_parse_viewpic : (∀ d ∈ [inUnit, noSlots], Parses d 4 0 viewPl ∧ d.mode = .inAu ∧ d.cur = some curAu ∧
      d.viewpicOk curAu ⟨12, 12, [(0, 0)]⟩ 0 (byteAt viewPl) (leAt viewPl 0 4) 2 = true ∧ 0 < d.cfg.anchors ∧
      6 * (viewPicOf granted.geo (byteAt viewPl)).cw * (viewPicOf granted.geo (byteAt viewPl)).ch ≤ d.cfg.stride * 4096) ∧
    viewPl.length = 24 ∧ ((decOf inUnit).chooseSlot 0).isSome = true ∧
    (decOf { inUnit with cfg := { DecCfg.reset with slots := 1 } }).chooseSlot 0 = some 0 ∧ (decOf noSlots).chooseSlot 0 = none := by
  unfold Parses Takes
  decide +kernel

theorem witness_parse_slice : Parses (withPic SbRow.fresh) 5 0 slicePl ∧ Parses (withPic SbRow.fresh) 6 0 slicePl ∧ 12 ≤ slicePl.length ∧
    (sext 8 (byteAt slicePl 8)).natAbs ≤ 63 ∧
    (withPic SbRow.fresh).sliceTarget { curAu with done := [0] } 0 (leAt slicePl 0 4) = .pic (tinyPic SbRow.fresh) ∧
    0 < leAt slicePl 6 2 ∧ leAt slicePl 4 2 + leAt slicePl 6 2 ≤ tinyView.sbr ∧ (tinyPic SbRow.fresh).row true 0 = SbRow.fresh ∧
    SbRow.fresh.kind = .empty ∧ ((decOf (withPic SbRow.fresh)).archiveCopy 1 (some 1) (parcel 5 0 slicePl)).2 = true ∧
    (∀ t ∈ [5, 6], Parses { withPic SbRow.fresh with mode := .afterReset } t 0 slicePl) := by
  unfold Parses Takes
  decide +kernel

theorem witness_parse_others : Parses DecSt.reset 7 0xFF [1] ∧ Parses DecSt.reset 0x80 0 [] ∧ Parses DecSt.reset 0xFE 0 [] := by
  unfold Parses Takes
  decide +kernel

theorem witness_parse_ends : Parses inUnit 8 0xFF [] ∧ inUnit.mode = .inAu ∧ Parses DecSt.reset 9 0 [] ∧ Parses DecSt.reset 0xFF 0 [] ∧
    (let bs := (parcel 7 0xFF []).set 6 0
     (parsing inUnit bs).nextParcel = some (feedOf bs, bs.map fun b => ⟨b, false⟩, .crc) ∧ parcelAt bs 0 = none) := by
  unfold Parses Takes
  decide +kernel

/-- What a lane has decoded of that row, and a row that waits for its concealment copy. -/
def outRow : RowOut := ⟨[List.replicate 64 32768], [], 4, [⟨0, 0, 8, false, 0, 0, 0⟩]⟩
def lostRow : SbRow := { SbRow.fresh with kind := .concealed }

/-- An inter unit of anchor 1 refers to anchor 0 (R102). -/
def interPic : Pic := { tinyPic SbRow.fresh with uid := 2, anchor := 1, refs := [⟨.pic 1, 0, false, 1, 0⟩] }
def interJob : Job := { tinyJob .queued with uid := 2, data := [0x40, 0x01, 0, 0, 0, 0] }

theorem witness_SlicesAreDecodedRowByRow :
    (let s := decOf { withPic SbRow.fresh with jobs := [tinyJob .queued] }
     s.pwr.st = .s0 ∧ (sortBy Job.rank s.dec.queued).head? = some (tinyJob .queued) ∧ s.dec.inLanes.length < 32 ∧
       s.dec.decPic 1 = some (tinyPic SbRow.fresh) ∧ (tinyJob .queued).only.contains 0 = true ∧
       (tinyJob .queued).row < (tinyJob .queued).first + (tinyJob .queued).num ∧
       (s.decodeRow (tinyPic SbRow.fresh) (tinyJob .queued)).2.2 = .done outRow false) ∧
    (let s := decOf { withPic SbRow.fresh with pics := [interPic, tinyPic SbRow.fresh], jobs := [interJob] }
     (sortBy Job.rank s.dec.queued).head? = some interJob ∧ s.dec.decPic 2 = some interPic ∧
       (s.decodeRow interPic interJob).2.2 = .stopped (.blocked [.row 1 true 0])) ∧
    (let s := decOf { withPic { SbRow.fresh with ready := true } with jobs := [tinyJob (.waiting [.row 1 true 0]), tinyJob (.waiting [.row 1 true 0])] }
     s.dec.waitOver 1 (.row 1 true 0) = true) ∧
    (decOf { withPic SbRow.fresh with jobs := [tinyJob (.waiting [.row 1 true 0])] }).dec.waitOver 1 (.row 1 true 0) = false ∧
    (let s := decOf { withPic SbRow.fresh with jobs := [tinyJob (.lane outRow)] }
     s.dec.inLanes[0]? = some (tinyJob (.lane outRow), outRow) ∧ s.dec.decPic 1 = some (tinyPic SbRow.fresh) ∧
       s.rangeOk .dec true ((tinyPic SbRow.fresh).rowSpan true 0).1 ((tinyPic SbRow.fresh).rowSpan true 0).2 = true) ∧
    (let s := decOf (withPic lostRow)
     s.pwr.st = .s0 ∧ s.dec.copiesDue[1]? = some (tinyPic lostRow, true, 0) ∧ ((tinyPic lostRow).row true 0).src = none) ∧
    (let donor := { tinyPic { SbRow.fresh with kind := .final, ready := true } with uid := 2, slot := 1, addr := 0x200000 }
     let lost := tinyPic { lostRow with src := some 2 }
     let s := decOf { withPic lostRow with pics := [lost, donor] }
     s.dec.copiesDue[1]? = some (lost, true, 0) ∧ (lost.row true 0).src = some 2 ∧ s.dec.decPic 2 = some donor ∧
       (donor.row true 0).ready = true ∧ s.rangeOk .dec false (donor.rowSpan true 0).1 (lost.rowSpan true 0).2 = true) ∧
    (let s := parsing inUnit (parcel 5 0 slicePl)
     s.nextParcel = some (feedOf (parcel 5 0 slicePl), (parcel 5 0 slicePl).map fun b => ⟨b, false⟩, .slice) ∧ s.pwr.st = .s0 ∧
       s.cfgOk = true) := by
  decide +kernel


/-- In S0 with the timing generator started and time valid. -/
def timed : State :=
  { granted.wr F.TIM_STATUS_VALID 1 with scn := { ScnSt.reset with started := true, next := 5 } }
def modScn (f : ScnSt → ScnSt) (s : State) : State := { s with scn := f s.scn }

/-- SHADOW_WRITE's operands: one pair, SYN_WM (Table 2-8). -/
def shadowBody : List Byte := leBytes 1 8 ++ leBytes 0xB0028 4 ++ leBytes 0x10203 4

/-- A commit with one setting, bound or not. -/
def aCommit (bound : Bool) : Commit := ⟨1, 0, [(0xD0014, 7)], false, false, bound⟩
def pending (cs : List Commit) (s : State) : State := { s with cmp := { CmpSt.reset with pend := cs } }

theorem witness_CommitsAreValidatedAndBound :
    (let d := desc 0x30 shadowBody
     Passes (oneDesc up 3 0x30 shadowBody) 1 0x30 (ringOf 1 3 [d]) d
       [(d.restZero [(8, 1), (16, 48)] && decide (1 ≤ byteAt d.bytes 8) && decide (byteAt d.bytes 8 ≤ 6) &&
         d.pairs.all fun p => !(shFields p.1).isEmpty, Cpl.BAD_FIELD)] ∧ d.pairs = [(0xB0028, 0x10203)] ∧ (regFind 0xB0028).isSome = true) ∧
    (∀ s ∈ [oneDesc up 3 0x31 [], oneDesc (up.wr F.CMP_CTRL_PLANES 0) 3 0x31 []],
      Passes s 1 0x31 (ringOf 1 3 [desc 0x31 []]) (desc 0x31 []) [((desc 0x31 []).restZero [], Cpl.BAD_FIELD)]) ∧
    (∀ ok ∈ up.commitChecks (snapWord (shOnly up.regs)), ok = true) ∧
    (let s := up.wr F.CMP_CTRL_PLANES 0
     (s.commitChecks (snapWord (shOnly s.regs)))[8]? = some false ∧ ∀ m < 8, (s.commitChecks (snapWord (shOnly s.regs)))[m]? = some true) ∧
    ({ up with cmp := { CmpSt.reset with transit := some (aCommit false), pend := [aCommit false] } } : State).cmp.transit =
      some (aCommit false) ∧ (aCommit false).bound = false ∧
    (∀ cs ∈ [[], [aCommit false]], (pending cs timed).latchDue = true ∧ (pending cs timed).scn.guarded = false) ∧
    up.bar0Open = true ∧ up.rd F.CMP_RETIRE_CFG_EN = 0 ∧ (up.wr F.CMP_RETIRE_CFG_EN 1).rd F.CMP_RETIRE_CFG_EN = 1 ∧ 6 ≤ 6 ∧ 6 ≤ 12 := by
  unfold Passes
  refine ⟨by decide +kernel, by decide +kernel, by decide +kernel, by decide +kernel, by decide +kernel, by decide +kernel, by decide +kernel,
    by decide +kernel⟩

theorem witness_DecisionPointsLatch :
    (∀ cs ∈ [[], [aCommit true]], let s := modScn (fun c => { c with guarded := true }) (pending cs timed)
      s.latchDue = true ∧ s.scn.guarded = true ∧ s.pwr.captureFrame = none ∧ s.cmp.waits = [] ∧ s.cmp.chkWaits = []) ∧
    (aCommit true).bound = true ∧ cellsWf resetWord (aCommit true).snap = true ∧
    (let d : Pres := ⟨5, 7, none, none, false⟩
     let s := modScn (fun c => { c with guarded := true, presents := [d], shown := some { d with t := 6 } }) timed
     s.latchDue = true ∧ s.scn.guarded = true ∧ s.pwr.captureFrame = none ∧ (5 : Int) ≤ s.geo.startOf s.scn.next ∧
       bestPresent s.scn.presents = some d ∧ (6 : Int) ≤ s.geo.startOf s.scn.next) := by decide +kernel

/-- The DC-balance window ends; region 0 of the active port 0 has drifted. -/
def driftEnd : State :=
  { (timed.wr (portFld 0) 2) with
    live := [(0xE0090, 1 + 2 ^ 8 * 1)]
    pnl := { PnlSt.reset with dcbC := (List.replicate 64 0).set 0 1, dcbS := (List.replicate 64 0).set 0 (10 ^ 12) } }

/-- A setting in force. -/
def force (f : Fld) (v : Nat) (s : State) : State := s.setLive f.off (BitVec.ofNat 32 (v * 2 ^ f.lo))

/-- Synthesis has a frame, and overlay plane 1 is enabled with 2 source lines. -/
def overlaid : State :=
  force (F.CMP_L_SRC_SIZE_HEIGHT 0) 2 (force (F.CMP_L_CTRL_ENABLE 0) 1 { timed with syn := { SynSt.reset with frame := some 5 } })

/-- PRESENT's operands: seconds, nanoseconds, AU_ID (Table 2-8). -/
def presentBody : List Byte := leBytes 3 8 ++ leBytes 999999999 4 ++ leBytes 7 4

theorem witness_FramesAndLinesFollowTheTimer :
    (let s := modScn (fun c => { c with decided := true }) timed
     s.timed = true ∧ s.pwr.st = .s0 ∧ s.scn.decided = true) ∧
    (inState .s1 timed).timed = true ∧ (inState .s1 timed).pwr.st ≠ .s0 ∧ timed.timed = true ∧ timed.pwr.st = .s0 ∧
    timed.scn.decided = false ∧
    (∀ l ∈ [0, timed.geo.lt - 1], let s := modScn (fun c => { c with line := l, lineZero := false }) timed
      s.timed = true ∧ s.pwr.st = .s0 ∧ (modScn (fun c => { c with gap := some 0 }) s).timed = true) ∧ timed.geo.lt - 1 + 1 = timed.geo.lt ∧
    driftEnd.dcbOn = true ∧ ({ driftEnd with pnl := { driftEnd.pnl with dcbWin := some 2 } } : State).pnl.dcbWin =
      some (2 * driftEnd.lv F.PNL_DCB_CFG_WIN) ∧ driftEnd.awake = true ∧ (1 : Int) ∈ driftEnd.pnl.dcbC ∧ driftEnd.portActive (0 / 4) = true ∧
    driftEnd.lv F.PNL_DCB_CFG_LIMIT * driftEnd.regionRays 0 * (2 * driftEnd.lv F.PNL_DCB_CFG_WIN) < 16 * (driftEnd.pnl.dcbS.getD 0 0).natAbs ∧
    (let d := desc 0x20 presentBody
     Passes (oneDesc up 2 0x20 presentBody) 1 0x20 (ringOf 1 2 [d]) d ((oneDesc up 2 0x20 presentBody).presentChecks d) ∧
       byteAt d.bytes 24 = 0) ∧
    overlaid.pwr.st = .s0 ∧ overlaid.syn.frame.isSome = true ∧ 1 ≤ overlaid.lv F.CMP_CTRL_PLANES ∧
    (planeOf overlaid.liveWord 1).enable = true ∧ 0 < (planeOf overlaid.liveWord 1).sh ∧ 1 < (planeOf overlaid.liveWord 1).sh := by
  unfold Passes
  decide +kernel

/-- Synthesis is ready for its first target row: 48 rows are loaded beyond it. -/
def rowReady (d : SynDie) : State :=
  force F.CMP_CTRL_PLANES 1 { timed with syn := { SynSt.reset with frame := some 5, west := d, height := 2160 } }
def loadedDie : SynDie := { SynDie.reset with nextRow := 49, fifo := [[], []], drained := [0, 1] }

theorem witness_RowsAreLoadedAndSynthesised :
    (let s := ({ timed with syn := { SynSt.reset with fall := 63 } } : State).wr F.SYN_THROTTLE_E_APP 1
     s.pwr.st = .s0 ∧ s.scn.started = true ∧ s.syn.fall = 63 ∧ s.syn.fallen = false ∧ max (excessOf (sext 16 (s.rd F.THM_STATUS_TJ)) (s.rd F.THM_CTRL_THR)) (s.rd F.SYN_THROTTLE_E_FORCE) <
         s.rd F.SYN_THROTTLE_E_APP) ∧
    Die.west ≠ .east ∧ (rowReady SynDie.reset).syn.frame.isSome = true ∧
    ((rowReady SynDie.reset).syn.die .west).rows.length < 8 + 2 * (rowReady SynDie.reset).geo.dv ∧
    ((rowReady SynDie.reset).syn.die .west).nextRow < ((rowReady SynDie.reset).geo.rows : Int) + (rowReady SynDie.reset).geo.dv ∧
    (rowReady loadedDie).pwr.st = .s0 ∧ (rowReady loadedDie).synReady .west = true ∧
    ((rowReady loadedDie).syn.die .west).drained.getD 0 0 ≤ 0 ∧ 0 < ((rowReady loadedDie).syn.die .west).drained.getD 1 0 ∧
    ((rowReady loadedDie).syn.die .west).fifo[0]? = some [] ∧ ((rowReady loadedDie).syn.die .west).fifo[1]? = some [] ∧ ((rowReady loadedDie).syn.die .west).y = 0 ∧
    (rowReady loadedDie).syn.au = none ∧ (rowReady loadedDie).syn.replay = [] ∧ (rowReady loadedDie).lv F.CMP_CTRL_CULL_EN = 0 := by
  decide +kernel

/-- Panel return lane 0 is aligned, port 0 is in state `p`. -/
def panel (p : Nat) : State :=
  { (timed.wr (portFld 0) p).wr (F.LNK_L_STATUS_LOCK 96) 3 with lanes := timed.lanes.modify 96 fun l => { l with rxIdle := false } }

/-- A STATUS block of port 0 (Table 8-4). -/
def statusBlk (lock errs : Nat) : List Byte := [0x48, 0] ++ leBytes lock 1 ++ leBytes 0 2 ++ leBytes errs 3

theorem witness_PanelPortsTrainAndReport :
    (∀ p ∈ [1, 2], ∀ lock ∈ [0x7F, 0x3F], ∀ errs ∈ [0, 1], (panel p).retLive 0 = true ∧ byteAt (statusBlk lock errs) 0 = 0x48 ∧
      byteAt (statusBlk lock errs) 1 % 16 / 4 = 0 ∧ (panel p).portInUse 0 = true ∧ (panel p).portState 0 = p ∧ (panel p).portClean 0 = true ∧
      (decide (byteAt (statusBlk lock errs) 2 % 64 = 63) && bitAt (byteAt (statusBlk lock errs) 2) 6) = (lock == 0x7F)) ∧
    (∀ p ∈ [1, 2], let blk : List Byte := [0x49, 0x50, 1, 0x20, 0, 0, 0, 0]
      (panel p).retLive 0 = true ∧ byteAt blk 0 = 0x49 ∧ byteAt blk 1 % 16 / 4 = 0 ∧ byteAt blk 1 / 16 % 8 < 6 ∧ (panel p).portState 0 = p ∧ (panel p).shaped = true) ∧
    ((panel 1).lane 5).lastSeq ≠ some 1 ∧
    (let s := { panel 1 with lanes := (panel 1).lanes.modify 5 fun l => { l with lastSeq := some 1, txIdle := false } }
     (s.lane 5).lastSeq = some 1 ∧ s.txLive 5 = true ∧ s.shaped = true ∧ s.retLive 0 = true) ∧
    (firAsked 0x2800 0x10).isSome = true ∧ firAsked 0x2800 0x01 = some (1, 40, 0) ∧ firOk 1 40 0 = false ∧
    firAsked 0x2800 0x02 = some (-1, 40, 0) ∧ firOk (-1) 40 0 = true ∧ firAsked 0x2800 0x07 = none ∧
    (panel 1).awake = true ∧ (panel 1).shaped = true ∧ (panel 1).bar0Open = true ∧
    (let s := (panel 0).modPort 0 fun q => { q with failed := true }
     (s.port 0).failed = true ∧ s.portState 0 = 0 ∧ s.portInUse 0 = true ∧ s.panelOn = true ∧ s.pwr.ownWarn = false ∧
       s.pwr.pinWarn = false ∧ s.retLocked (0 / 4) = true) ∧
    (∀ p ∈ [0, 2], bitAt (0x80000001 : Word).toNat 0 = true ∧ (panel p).portState 0 = p) := by decide +kernel

theorem witness_PanelAuxiliariesAct :
    (let s := { up with pnl := { PnlSt.reset with prefOn := true } }
     s.awake = true ∧ s.pnl.prefOn = true ∧ 17 < 18) ∧
    (let s := ((up.wr F.PNL_CRK_CFG_PERIOD_MS 1).wr F.PNL_CRK_THRESH_WARN 100).wr F.PNL_CRK_THRESH_OPEN 200
     s.panelOn = true ∧ s.rd F.PNL_CRK_CFG_PERIOD_MS ≠ 0 ∧ s.rd F.PNL_CRK_THRESH_WARN = 100 ∧ s.rd F.PNL_CRK_THRESH_OPEN = 200 ∧
       s.pnl.crkOpen = false ∧ s.rd F.PNL_CRK_STATUS_CRACK = 0 ∧ ({ s with pnl := { s.pnl with crkOpen := true } } : State).pnl.crkOpen = true) ∧
    up.bar0Open = true ∧ up.rd F.PNL_PMB_XFER_BUSY = 0 ∧ (up.wr F.PNL_PMB_XFER_BUSY 1).bar0Open = true ∧
    (up.wr F.PNL_PMB_XFER_BUSY 1).rd F.PNL_PMB_XFER_BUSY = 1 ∧
    ((up.wr F.PNL_PMB_XFER_BUSY 1).wr F.PNL_PMB_XFER_RD 1).rd F.PNL_PMB_XFER_RD = 1 := by decide +kernel


/-- Lane 100 (UP pitch) sees a signal, its lock state is `lock` and its history `f`. -/
def laneAt (n lock : Nat) (f : Lane → Lane) : State :=
  { up.wr (F.LNK_L_STATUS_LOCK n) lock with lanes := up.lanes.modify n f }
def heard (l : Lane) : Lane := { l with rxIdle := false }

/-- The west die's output FIFOs run low: SCRUB, ENC and BLT give way (Table 5-4). -/
def yielding : State := { granted with syn := { SynSt.reset with west := { SynDie.reset with level := 2 } } }

/-- 33 symbols whose first two bits are the header given. -/
def blockOf (hdr : Nat) : List Nat := hdr :: List.replicate 32 0

theorem witness_LanesLockAndIdle :
    (∀ run ∈ [62, 63], let s := laneAt 100 0 fun l => { heard l with run := run }
      s.shaped = true ∧ s.rxOn 100 = true ∧ (s.lane 100).rxIdle = false ∧ s.rd (F.LNK_L_CTRL_PRBS_CHK 100) = 0 ∧ s.lockOf 100 = 0 ∧
        (s.lane 100).run = run ∧
        (({ s.lane 100 with carry := (s.lane 100).carry ++ blockOf 2 } : Lane).takeBlock.map Prod.fst) = some 3 ∧
        (({ s.lane 100 with carry := (s.lane 100).carry ++ blockOf 1 } : Lane).takeBlock.map Prod.fst) = some 1) ∧
    (∀ n ∈ [96, 103], let s := laneAt n 1 heard
      s.shaped = true ∧ laneRx n = true ∧ (s.lane n).rxIdle = false ∧ s.awake = true ∧ s.lockOf n ≠ 0 ∧ s.rd (F.LNK_L_CTRL_PRBS_CHK n) = 0) ∧ (laneAt 96 1 heard).retInUse 0 = true ∧
    (∀ n ∈ [96, 103], up.shaped = true ∧ up.rxOn n = true ∧ (up.lane n).rxIdle = true) ∧
    (∀ n ∈ [0, 95], let s := up.wr (portFld (n / 6)) 1
      s.shaped = true ∧ s.portState (n / 6) = 1 ∧ (s.lane n).txIdle = true ∧ s.pwr.st = .s0 ∧ (inState .s1 s).portState (n / 6) = 1) := by
  decide +kernel

theorem witness_LanesAdaptAndTest :
    (∀ n ∈ [96, 103], laneRx n = true ∧ up.rd (F.LNK_L_STATUS_ADAPT n) = 0 ∧
      65536 ≤ ((laneAt n 1 fun l => { l with blocks := 65536 }).lane n).blocks ∧
      (∀ a ∈ [1, 2], ((laneAt n 1 fun l => { l with idleRun := 4096, traffic := 256 }).wr (F.LNK_L_STATUS_ADAPT n) a).rd
        (F.LNK_L_STATUS_ADAPT n) = a) ∧ 4096 ≤ ((laneAt n 1 fun l => { l with idleRun := 4096, traffic := 256 }).lane n).idleRun ∧
      256 ≤ ((laneAt n 1 fun l => { l with idleRun := 4096, traffic := 256 }).lane n).traffic) ∧
    (∀ n ∈ [5, 95], let s := up.wr (portFld (n / 6)) 2
      s.bar0Open = true ∧ s.portState (n / 6) = 2 ∧ up.portState (n / 6) ≠ 2 ∧ n < 96) ∧
    (let s := laneAt 96 1 heard
     s.bar0Open = true ∧ s.blockLocked 96 = true ∧ s.rd (F.LNK_L_CTRL_PRBS_CHK 96) = 0 ∧ s.retInUse (96 - 96) = true ∧ s.shaped = true ∧
       (s.wr (F.LNK_L_CTRL_PRBS_CHK 96) 1).rd (F.LNK_L_CTRL_PRBS_CHK 96) = 1) ∧
    up.bar0Open = true ∧ 103 < 104 ∧ up.rd (F.LNK_L_CTRL_ADAPT_HOLD 103) = 0 ∧ up.rd (F.LNK_L_CTRL_PRBS_CHK 103) = 0 ∧
    (up.wr (F.LNK_L_CTRL_ADAPT_HOLD 103) 1).bar0Open = true ∧ (up.wr (F.LNK_L_CTRL_ADAPT_HOLD 103) 1).rd (F.LNK_L_CTRL_ADAPT_HOLD 103) = 1 ∧
    (let s := (laneAt 100 1 heard).wr F.LNK_EYE_CFG_EYE_MIN 100
     s.rxOn 100 = true ∧ s.blockLocked 100 = true ∧ 99 % 2 ^ 10 < s.rd F.LNK_EYE_CFG_EYE_MIN ∧ s.rd F.LNK_EYE_CFG_EYE_MIN ≤ 100 % 2 ^ 10 ∧
       (s.lane 100).eyeLow = false ∧ s.rd ⟨0xF0010 + 4 * (100 / 32), 100 % 32, 1⟩ = 0) ∧
    (∀ n ∈ [0, 95, 100], up.awake = true ∧ laneTx n = true ∧ up.rd ⟨0xF0010 + 4 * (n / 32), n % 32, 1⟩ = 0 ∧
      (up.wr ⟨0xF0010 + 4 * (n / 32), n % 32, 1⟩ 1).rd ⟨0xF0010 + 4 * (n / 32), n % 32, 1⟩ = 1) := by decide +kernel

/-- A parameter block (Table 10-2): one anchor of a 512 by 8 display, loop at 0, work area at 1 MiB, QP 0 to 40. -/
def encBlock (doff work : Nat) : List Byte :=
  leBytes (2 ^ 63) 8 ++ leBytes 16384 4 ++ leBytes 0 4 ++ leBytes (2 ^ 63 + 0x100000) 8 ++ leBytes work 4 ++ leBytes 512 2 ++ leBytes 8 2 ++
    leBytes doff 2 ++ [1, 1, 1, 0, 0, 1, 30, 0, 40, 0, 0, 0, 0, 0] ++ leBytes 8400 4 ++ leBytes 0 4 ++ leBytes 0 8 ++
    [0, 0, 1, 0, 0, 0, 0, 0]
def encPar : EncPar := encParOf (encBlock 1 16)

/-- A session of ring 1; the descriptor that carries the block in host memory. -/
def encSess (n : Nat) : EncSess := ⟨n, 1, encPar, 64, 30, 0, 0, false, false, false, false, [], none, []⟩
def encOn (op : Nat) (body : List Byte) (l : List EncSess) : State :=
  { oneDesc granted 4 op body with enc := { EncSt.reset with sess := l } }
def encBody : List Byte := leBytes 0x8000 8

theorem witness_encoder_opens : granted.yields = false ∧ granted.pwr.st = .s0 ∧ yielding.yields = true ∧
    (∀ b ∈ [encBlock 1 16, encBlock 0 16, encBlock 1 1], ∀ l ∈ [[], [encSess 0], (List.range 16).map fun n => { encSess n with ring := 2 }],
      let s := encOn 0x40 encBody l
      let d := desc 0x40 encBody
      s.nextOp 1 0x40 = some (ringOf 1 4 [d], d) ∧ s.opAllowed 4 0x40 = true ∧ s.headerOk d = true ∧
        (∀ p ∈ s.encOpenChecks b (ringOf 1 4 [d]) d, p.1 = true) ∧ s.encBlockBytes d b = b) ∧
    encParamOk (encBlock 1 16) encPar = true ∧ encPar.workNeed ≤ 4096 * encPar.workSize ∧
    encParamOk (encBlock 0 16) (encParOf (encBlock 0 16)) = false ∧ encParamOk (encBlock 1 1) (encParOf (encBlock 1 1)) = true ∧
    4096 * (encParOf (encBlock 1 1)).workSize < (encParOf (encBlock 1 1)).workNeed ∧
    (encOn 0x40 encBody []).enc.ofRing 1 = none ∧ (encOn 0x40 encBody [encSess 0]).enc.ofRing 1 = some (encSess 0) ∧
    (encOn 0x40 encBody ((List.range 16).map fun n => { encSess n with ring := 2 })).enc.ofRing 1 = none := by decide +kernel

/-- ENC_PUT's operands: SRC_TABLE, RESULT, budget (Table 10-3); the table points into host memory. -/
def putBody : List Byte := leBytes 0x9000 8 ++ leBytes 0xA000 8 ++ leBytes 0 8
def srcTab : List Byte := leBytes 0xB000 8 ++ leBytes 0xC000 8 ++ leBytes 2048 4 ++ leBytes 1024 4 ++ leBytes 0 8

theorem witness_encoder_puts_and_closes :
    (∀ l ∈ [[], [encSess 0]],
      (let d := desc 0x41 putBody
       let s := encOn 0x41 putBody l
       Passes s 1 0x41 (ringOf 1 4 [d]) d (s.encPutChecks srcTab (ringOf 1 4 [d]) d)) ∧
      ∀ op ∈ [0x42, 0x43], Passes (encOn op [] l) 1 op (ringOf 1 4 [desc op []]) (desc op []) [((desc op []).restZero [], Cpl.BAD_FIELD)]) ∧
    (encOn 0x42 [] []).enc.ofRing 1 = none ∧ (encOn 0x42 [] [encSess 0]).enc.ofRing 1 = some (encSess 0) ∧ (encSess 0).puts = [] ∧
    (encSess 0).cur = none ∧ granted.pwr.st = .s0 ∧ granted.bar0Open = true := by
  unfold Passes
  decide +kernel

/-- An ENC_PUT waits with a budget; an access unit is in coding with the pictures and tail given. -/
def aPut (budget : Nat) : EncPut := ⟨0, [(0xB000, 0xC000, 2048, 1024)], 0xA000, budget, none, none, false, false⟩
def anAu (pics tail : Nat) : EncAu := ⟨aPut 0, 0, 64, 2000, 1, false, 30, 30, 0, pics, 0, tail, false, false⟩

theorem witness_EncoderCodesAccessUnits :
    (∀ x ∈ [{ encSess 0 with puts := [aPut 0] }, { encSess 0 with puts := [aPut 0], full := true },
        { encSess 0 with puts := [aPut 0], wptr := 8192 }, { encSess 0 with puts := [aPut 1] }],
      let s := encOn 0x41 putBody [x]
      s.pwr.st = .s0 ∧ s.yields = false ∧ s.enc.ofRing 1 = some x ∧ x.puts.length = 1 ∧ x.cur = none) ∧
    (∀ a ∈ encPar.anchors.zipIdx, 50 * tailSize (encPar.ctx a.1 a.2 0) encPar.sliceRows ≤ encPar.budget * (a.1.sw * a.1.sh) / encPar.area) ∧
    (¬∀ a ∈ encPar.anchors.zipIdx, 50 * tailSize (encPar.ctx a.1 a.2 0) encPar.sliceRows ≤ 1 * (a.1.sw * a.1.sh) / encPar.area) ∧
    (let need := 16 + (encPar.anchors.map fun a => 102 * (encPar.budget * (a.sw * a.sh) / encPar.area) / 100).sum + 8
     64 + need ≤ encPar.loopSize ∧ encPar.loopSize < 8192 + need) ∧
    (let x := { encSess 0 with cur := some (anAu 0 0) }
     let s := encOn 0x41 putBody [x]
     s.enc.nextSess = some (x, anAu 0 0) ∧ x.par.anchors[0]? = some ⟨0, 0, 1, 0, 0, 0, 0, 512, 8⟩) ∧
    (∀ tail ∈ [0, 1], let x := { encSess 0 with cur := some (anAu 1 tail), q := 40 }
      let s := encOn 0x41 putBody [x]
      s.enc.ofRing 1 = some x ∧ (anAu 1 tail).pics = x.par.anchors.length ∧ (aPut 0).result ≠ 0 ∧
        isHost (aPut 0).result = true ∧ x.q = x.par.qpMax ∧ s.yields = false) ∧ yielding.yields = true := by decide +kernel

/-- A command list at 0x4000; FILL of 4 by 1 pixels of ARGB8888 at an address (Table 11-1). -/
def aList (cmd : Option (List Byte)) (n : Nat) : BltList := ⟨1, 0, 0x4000, n, 0, cmd, false, false⟩
def fillCmd (op w base : Nat) : List Byte :=
  leBytes op 1 ++ [0, 2, 0] ++ leBytes 0 16 ++ leBytes 64 4 ++ leBytes base 8 ++ leBytes 0 8 ++ leBytes w 2 ++ leBytes 1 2 ++
    List.replicate 20 0

/-- The west blitter runs a list, the east one perhaps a command. -/
def blitting (cmd : List Byte) (east : Option (List Byte)) : State :=
  { granted.writeFor .blt .blt 0x4000 cmd with
    blt := { BltSt.reset with west := some (aList none 1), east := east.map fun c => aList (some c) 1 } }

/-- BLT_RUN's operands (Table 2-8). -/
def bltBody : List Byte := leBytes (2 ^ 63 + 0x4000) 8 ++ leBytes 1 4

theorem witness_BlittersRunTheirLists :
    (let d := desc 0x50 bltBody
     Passes (oneDesc granted 5 0x50 bltBody) 1 0x50 (ringOf 1 5 [d]) d ((oneDesc granted 5 0x50 bltBody).bltChecks d)) ∧
    (∀ b ∈ [BltSt.reset, { BltSt.reset with west := some (aList none 1) },
        { BltSt.reset with west := some (aList none 1), east := some (aList none 1) }],
      let s := { granted with blt := { b with queue := [aList none 1] } }
      s.pwr.st = .s0 ∧ s.blt.queue = [aList none 1]) ∧
    (∀ p ∈ [(fillCmd 0 4 0x5000, none), (fillCmd 2 0 0x5000, none), (fillCmd 2 4 (2 ^ 35 + 2 ^ 34 + 2 ^ 33 + 2 ^ 32), none), (fillCmd 2 4 0x5000, none),
        (fillCmd 2 4 0x5000, some (fillCmd 2 4 0x500C))],
      let s := blitting p.1 p.2
      s.pwr.st = .s0 ∧ s.blt.on .west = some (aList none 1) ∧ (s.peekFor .blt 0x4000 64).map MByte.val = p.1 ∧
        ∀ v ∈ s.peekFor .blt 0x4000 64, v.poison = false) ∧
    (bltCmdOf (fillCmd 0 4 0x5000)).cmdOk (fillCmd 0 4 0x5000) = false ∧
    (∀ c ∈ [fillCmd 2 0 0x5000, fillCmd 2 4 (2 ^ 35 + 2 ^ 34 + 2 ^ 33 + 2 ^ 32), fillCmd 2 4 0x5000], (bltCmdOf c).cmdOk c = true) ∧
    (bltCmdOf (fillCmd 2 0 0x5000)).rectIsOk = false ∧ (bltCmdOf (fillCmd 2 4 0x5000)).rectIsOk = true ∧
    (bltCmdOf (fillCmd 2 4 (2 ^ 35 + 2 ^ 34 + 2 ^ 33 + 2 ^ 32))).rectIsOk = true ∧
    granted.bltWindowOk (bltCmdOf (fillCmd 2 4 (2 ^ 35 + 2 ^ 34 + 2 ^ 33 + 2 ^ 32))) = false ∧
    granted.bltWindowOk (bltCmdOf (fillCmd 2 4 0x5000)) = true ∧
    conflict (bltCmdOf (fillCmd 2 4 0x5000)) (bltCmdOf (fillCmd 2 4 0x500C)) = true ∧
    (let s := { blitting (fillCmd 2 4 0x5000) none with mem := (blitting (fillCmd 2 4 0x5000) none).mem.poisonSector (0x4000 / 32) }
     s.blt.on .west = some (aList none 1) ∧ ∃ v ∈ s.peekFor .blt 0x4000 64, v.poison = true) ∧
    (blitting (fillCmd 2 4 0x5000) none).yields = false ∧ yielding.yields = true ∧
    (∀ n ∈ [1, 2], let s := { granted with blt := { BltSt.reset with west := some (aList (some (fillCmd 2 4 0x5000)) n) } }
      s.pwr.st = .s0 ∧ s.blt.on .west = some (aList (some (fillCmd 2 4 0x5000)) n) ∧ (decide (0 + 1 = n)) = (n == 1)) := by
  unfold Passes
  decide +kernel

/-- Pitches in the states given, version 2, both lanes carrying; this tile has address 5. -/
def roped (upSt dnSt : Nat) : State :=
  ((((((up.wr F.ROPE_UP_STATE_STATE upSt).wr (pf .dn F.ROPE_UP_STATE_STATE) dnSt).wr F.ROPE_UP_STATE_VERSION 2).wr
    (pf .dn F.ROPE_UP_STATE_VERSION) 2).wr F.ROPE_UP_STATE_LANES 3).wr (pf .dn F.ROPE_UP_STATE_LANES) 3).wr F.ROPE_STATUS_ADDRESS 5

/-- Rope lane 0 of the UP pitch is aligned. -/
def alignedUp (s : State) : State := { s.wr (F.LNK_L_STATUS_LOCK 100) 3 with lanes := s.lanes.modify 100 heard }

/-- A lane that sends, and a pitch whose tile offers the versions given. -/
def sendsUp (s : State) : State := { s with lanes := s.lanes.modify 100 fun l => { l with txIdle := false } }
def offering (v : Nat) (s : State) : State := s.modPitch .up fun q => { q with versions := v }

theorem witness_PitchesTrainAndFail :
    (∀ v ∈ [1, 2, 3], ((offering v (roped 3 0)).pitch .up).versions = v ∧ (offering v (roped 3 0)).pitchState .up = 3 ∧
      (offering v (roped 3 0)).awake = true) ∧
    ((alignedUp (roped 2 0)).lane 100).lastSeq ≠ some 1 ∧ (sendsUp (alignedUp (roped 2 0))).txLive (100 + 0) = true ∧
    (let s := { roped 4 0 with rope := { (roped 4 0).rope with released := true } }; MayLock s .up = true ∧ s.pitchState .up = 4) ∧
    MayLock (roped 4 0) .up = false ∧
    (roped 1 0).pitchState .up = 1 ∧ (roped 2 0).pitchState .up = 2 ∧
    (((roped 0 0).modPitch .up fun q => { q with failed := true }).pitch .up).failed = true ∧
    (∀ n ∈ Port.lanes .up, (roped 0 0).aligned n = false) ∧
    (∀ st ∈ [2, 3, 4], let s := alignedUp (roped st 0)
      s.awake = true ∧ 2 ≤ s.pitchState .up ∧ s.aligned (Port.lane0 .up + 0) = true ∧ 0 < (s.pitch .up).gotDone.length) ∧
    (roped 3 0).awake = true ∧ (roped 3 0).pitchState .up = 3 ∧ bitAt (byteAt [0x52, 0] 1) 0 = false ∧
    bitAt (byteAt [0x52, 0] 1) 1 = false ∧ bitAt ((roped 3 0).pitch .up).versions 1 = true ∧ bitAt (byteAt [0x52, 2] 1) 1 = true ∧
    bitAt (byteAt [0x52, 1] 1) 1 = false ∧ bitAt (byteAt [0x52, 1] 1) 0 = true ∧ (roped 4 0).pitchState .up = 4 ∧
    (alignedUp (roped 3 0)).laneUsable (Port.lane0 .up + 0) = true ∧ (roped 4 4).carryLane .up false = some 0 ∧
    (roped 4 0).anyAligned .up = false ∧ (roped 4 0).bar0Open = true := by decide +kernel

/-- A control message and a mail that wait on the UP port, from the DN port. -/
def ctrlMsg : HopMsg := ⟨false, [0x5B, 5, 0, 0, 0, 0, 0x80, 0], some (1, 9, 0), none⟩
def mailMsg : HopMsg := ⟨true, [0x5C, 5, 3, 0, 0, 0, 0, 0], none, some .dn⟩
def hopping (m : HopMsg) : State := (roped 4 4).modPitch .up fun q => { q with txq := [m], peerCtrl := 32, peerMail := 2048 }

theorem witness_HopMessagesFlow :
    (roped 4 4).pitchUp .up = true ∧ byteAt [0x53, 1] 1 < 2 ∧ serialDist 24 0 0 ≤ 0 ∧
    0 < serialDist 24 (leAt ([0x53, 0, 7, 0, 0, 0, 0, 0] : List Byte) 2 3) (((roped 4 4).pitch .up).recv.getD 0 0) ∧
    (∀ mail ∈ [true, false], (roped 4 4).carryLane .up mail = some (if mail then 1 else 0)) ∧
    (∀ m ∈ [ctrlMsg, mailMsg], (hopping m).awake = true ∧ ((hopping m).pitch .up).txq.find? (fun x => x.mail == m.mail) = some m ∧
      (hopping m).hopCanStart .up m = true ∧ (hopping m).alarmWaits .up = false ∧ (sendsUp (hopping m)).txLive (100 + 0) = true ∧ (hopping m).tim.tsq.length < 16) ∧
    (roped 4 0).pitchUp .dn = false ∧ (roped 4 4).pitchUp .dn = true ∧ (roped 4 4).awake = true ∧ (roped 4 4).bar0Open = true ∧
    (roped 0 0).bar0Open = true ∧ (roped 0 0).pitchUp .up = false ∧ (roped 0 0).pitchUp .dn = false ∧
    (let s := sendsUp ((roped 4 0).modPitch .up fun q => { q with peerCtrl := 32 })
     s.bar0Open = true ∧ s.pitchUp .up = true ∧ s.pitchUp (Port.other .up) = false ∧ s.rd F.TIM_TS_SEL_ALARM = 0 ∧ (s.pitch .up).txq = [] ∧
       (s.pitch .up).retrain = false ∧ s.carryLane .up false = some 0 ∧ (s.pitch .up).credit false 1 = true ∧
       s.txLive (100 + 0) = true) := by decide +kernel

theorem witness_TilesEnumerateLeaveAndJoin :
    (∀ p ∈ [(4, 4), (4, 0)], (roped p.1 p.2).pitchUp .up = true ∧ (roped p.1 p.2).pitchUp .dn = (p.2 == 4) ∧ (roped p.1 p.2).awake = true) ∧
    leAt ([0x58, 0, 0, 0, 0, 0, 254, 0] : List Byte) 6 2 < 255 ∧ 255 ≤ leAt ([0x58, 0, 0, 0, 0, 0, 255, 0] : List Byte) 6 2 ∧
    (roped 4 4).ropeAddr ≠ 254 + 1 ∧ (roped 4 4).rd F.ROPE_STATUS_TOTAL ≠ 9 % 256 ∧
    ((roped 4 4).wr F.ROPE_STATUS_HEAD 1).rd F.ROPE_STATUS_HEAD = 1 ∧ (roped 4 4).pitchVer .up = 2 ∧ (roped 4 4).bar0Open = true ∧
    (roped 4 4).ropeAddr ≠ 0 ∧ (roped 4 4).carryLane .up false = some 0 ∧ (sendsUp (roped 4 4)).txLive (Port.lane0 .up + 0) = true ∧
    up.rope.released = false ∧ (let s := { up with rope := { up.rope with released := true } }
      s.bar0Open = true ∧ s.rd F.ROPE_STATUS_LEFT = 0 ∧ s.rope.released = true) ∧
    (∀ strap ∈ [0, 1], let s := (up.wr F.ROPE_STATUS_LEFT 1).wr F.ROPE_STATUS_STRAPPED strap
      s.rd F.ROPE_STATUS_LEFT = 1 ∧ s.shaped = true ∧ s.bar0Open = true ∧ s.rd F.ROPE_STATUS_STRAPPED = strap) ∧
    (∀ u ∈ [0, 4], let s := { roped u 0 with rope := { (roped u 0).rope with released := true } }
      s.rope.released = true ∧ s.rope.headWaited = false ∧ s.pitchUp .up = (u == 4) ∧ s.rd F.ROPE_STATUS_LEFT = 0) ∧
    (roped 4 0).rope.enumSeen = false ∧ (roped 4 0).rd F.ROPE_STATUS_NO_HEAD = 0 := by decide +kernel

/-- MBOX's operands: request in host memory, its length, response, RSP_MAX (Table 2-8); SEND and RECV (Table 13-9). -/
def mboxBody : List Byte := leBytes 0x8000 8 ++ leBytes 16 4 ++ leBytes 0 4 ++ leBytes 0x9000 8 ++ leBytes 64 4
def sendReq (dst : Nat) : List Byte := [0x10] ++ leBytes dst 1 ++ leBytes 8 2 ++ leBytes 0 12
def recvReq : List Byte := [0x11] ++ leBytes 0 15
def mboxOn (s : State) : State := oneDesc s 6 0x60 mboxBody
def mboxDesc : Desc := desc 0x60 mboxBody
def inMail : Mail := ⟨3, [1, 2]⟩
def withMails (n : Nat) (s : State) : State := { s with rope := { s.rope with mails := List.replicate n inMail } }

theorem witness_mail_requests :
    (∀ s ∈ [mboxOn up, mboxOn (roped 4 4), mboxOn (withMails 1 up)],
      Passes s 1 0x60 (ringOf 1 6 [mboxDesc]) mboxDesc (s.mboxChecks (ringOf 1 6 [mboxDesc]) mboxDesc) ∧
      (∀ q ∈ [sendReq 3, sendReq 5, recvReq, List.replicate 16 0], s.reqBytes mboxDesc q = q) ∧
      (s.descsOf 1).find? (fun x => x.idx == mboxDesc.idx) = some mboxDesc) ∧
    mboxKind (List.replicate 16 0) = 0 ∧ mboxKind (sendReq 3) = 0x10 ∧ mboxKind (sendReq 5) = 0x10 ∧ mboxKind recvReq = 0x11 ∧
    (mboxOn up).ropeAddr = 0 ∧ (mboxOn (roped 4 4)).ropeAddr = 5 ∧ (mboxOn (roped 4 4)).pitchUp .up = true ∧
    (mboxOn (roped 4 4)).rope.mails.length < 16 ∧ (mboxOn (roped 4 4)).mailTooLong .up ((8 + 7) / 8) = false ∧
    (mboxOn up).rope.mails = [] ∧ (mboxOn (withMails 1 up)).rope.mails = [inMail] ∧
    (∀ n ∈ [15, 16], (mboxOn (withMails n (roped 4 4))).rope.mails.length = n ∧ (mboxOn (withMails n (roped 4 4))).ropeAddr = 5) ∧
    (mboxOn ((roped 4 4).wr F.ROPE_UP_STATE_VERSION 1)).mailTooLong .up 33 = true ∧ isHost mboxDesc.mboxRsp = true := by
  unfold Passes
  decide +kernel

/-- A SEND that waits for its MAIL_ACK. -/
def aWait : SendWait := ⟨1, 0, 255, 3, 0x9000, false⟩
def sending : State :=
  { withRing (roped 4 4) (ringOf 1 6 [{ mboxDesc with phase := .running }]) with rope := { (roped 4 4).rope with send := [aWait] } }

theorem witness_mail_messages :
    (roped 4 4).pitchUp .up = true ∧ byteAt ([0x5C, 3, 5, 0, 1, 0, 7, 0] : List Byte) 2 = (roped 4 4).ropeAddr ∧ (roped 4 4).ropeAddr ≠ 0 ∧
    (withMails 15 (roped 4 4)).rope.mails.length < 16 ∧ 16 ≤ (withMails 16 (roped 4 4)).rope.mails.length ∧
    byteAt ([0x5C, 3, 9, 0, 1, 0, 7, 0] : List Byte) 2 ≠ (roped 4 4).ropeAddr ∧ byteAt ([0x5C, 3, 9, 0, 1, 0, 7, 0] : List Byte) 2 ≠ 0 ∧
    (roped 4 4).mailTooLong (Port.other .up) 1 = false ∧ sending.rope.send.find? (fun x => x.tag == aWait.tag) = some aWait ∧
    (sending.descsOf 1).find? (fun x => x.idx == 0 && x.phase == .running) = some { mboxDesc with phase := .running } ∧
    sending.pitchUp .up = true ∧ byteAt ([0x5D, 3, 5, 0, 0, 0, 255, 0] : List Byte) 2 = sending.ropeAddr ∧
    byteAt ([0x5D, 3, 5, 0, 0, 0, 255, 0] : List Byte) 6 = aWait.tag := by decide +kernel

/-- Role FREE, PPS or ROPE (TIM_CTRL.MODE). -/
def inRole (n : Nat) (s : State) : State := s.wr F.TIM_CTRL_MODE n

theorem witness_RopeTimeFollowsItsRule :
    ((0 : Word).toNat = up.rd F.TIM_RATE_RATE ∧ (1 : Word).toNat ≠ up.rd F.TIM_RATE_RATE) ∧
    ({ up with tim := { up.tim with offLo := some 9 } } : State).tim.offLo = some 9 ∧ up.tim.offLo = none ∧
    (∀ n ∈ [0, 1, 2], (inRole n up).role = n ∧ (inRole n up).bar0Open = true) ∧ (inRole 0 up).rd F.TIM_STATUS_VALID = 0 ∧
    ((inRole 0 up).wr F.TIM_STATUS_VALID 1).rd F.TIM_STATUS_VALID = 1 ∧
    -2 ^ 63 ≤ up.tim.offset + up.rateTerm up.tim.raw ∧ up.tim.offset + up.rateTerm up.tim.raw < 2 ^ 63 := by decide +kernel

/-- The display clock stands at `ns`, rope time at `rt` ns. -/
def clocks (ns rt : Nat) (s : State) : State := { s with tim := { s.tim with dcNs := ns, raw := rt } }

theorem witness_ReferencesAndSteering :
    (∀ v ∈ [0, 1], (up.wr F.TIM_STATUS_TREF_OK v).awake = true ∧ (up.wr F.TIM_STATUS_TREF_OK v).rd F.TIM_STATUS_TREF_OK = v ∧
      ((up.wr F.TIM_STATUS_TREF_OK 1).wr F.TIM_STATUS_TREF_USED v).rd F.TIM_STATUS_TREF_USED = v) ∧
    ({ up with tim := { up.tim with refLost := true } } : State).tim.refLost = true ∧ up.tim.ppsPrev = none ∧
    (∀ r ∈ [1000, 1000 + 999000000, 1000 + 1001000000], let s := { inRole 1 up with tim := { up.tim with raw := r, ppsPrev := some 1000, ppsS := some 4 } }
      s.awake = true ∧ s.tim.ppsPrev ≠ none ∧ s.role = 1 ∧ (r = 1000 ∨ (1000 + 999000000 ≤ s.tim.raw ∧ s.tim.raw ≤ 1000 + 1001000000))) ∧
    (inRole 1 up).role = 1 ∧ (inRole 0 up).role ≠ 1 ∧ (up.wr F.TIM_STATUS_PPS_OK 1).rd F.TIM_STATUS_PPS_OK = 1 ∧
    (let s := (clocks 0 2000 up).wr F.TIM_CTRL_STEER 1
     s.awake = true ∧ s.rd F.TIM_CTRL_STEER = 1 ∧ max 1 (s.rd F.TIM_STEER_STEP_NS) < (s.rtNs - s.dcNs).natAbs) ∧
    (let s := (clocks 7 7 up).wr F.TIM_CTRL_STEER 1
     s.awake = true ∧ s.rd F.TIM_CTRL_STEER = 1 ∧ (s.rtNs - s.dcNs).natAbs ≤ max 1 (s.rd F.TIM_STEER_STEP_NS)) ∧
    (up.wr F.TIM_CTRL_STEER 0).bar0Open = true ∧ (up.wr F.TIM_CTRL_STEER 0).rd F.TIM_CTRL_STEER = 0 ∧ (5 : Word) ≠ 0 := by decide +kernel

/-- A follower: role ROPE, the UP pitch UP; one delay known, an exchange outstanding, and the epoch known since raw time `at_`. -/
def follower (at_ : Nat) : State :=
  { inRole 2 (roped 4 4) with
    tim := { up.tim with raw := 5000000, delays := [1000], tdOut := some ⟨9, 0, 0⟩, epochHi := some (0, at_) } }

theorem witness_TimeFlowsDownTheRope :
    ((roped 4 4).wr F.TIM_STATUS_VALID 1).awake = true ∧ ((roped 4 4).wr F.TIM_STATUS_VALID 1).rd F.TIM_STATUS_VALID = 1 ∧
    (roped 4 4).pitchUp .dn = true ∧ (roped 4 4).carryLane .dn false = some 0 ∧
    (let s := { roped 4 4 with lanes := (roped 4 4).lanes.modify 102 fun l => { l with txIdle := false } }
     s.txLive (102 + 0) = true ∧ (roped 4 4).txLive (102 + 0) = false) ∧
    (∀ a ∈ [3000000, 3000001], (follower a).role = 2 ∧ (follower a).pitchUp .up = true ∧ (follower a).carryLane .up false = some 0 ∧
      (follower a).tim.tdOut = some ⟨9, 0, 0⟩ ∧ byteAt ([0x57, 9] : List Byte) 1 = 9 ∧ (follower a).tim.delays ≠ [] ∧
      (follower a).rd F.TIM_STATUS_VALID = 0 ∧ (follower a).tim.epochHi = some (0, a) ∧
      (decide ((follower a).tim.raw < a + 2000000)) = (a == 3000001)) ∧
    ((follower 0).wr F.TIM_STATUS_VALID 1).rd F.TIM_STATUS_VALID = 1 ∧
    (let s := { up with tim := { up.tim with goodRun := 64, badRun := 16 } }
     s.awake = true ∧ s.rd F.TIM_STATUS_LOCKED = 0 ∧ 64 ≤ s.tim.goodRun ∧ 16 ≤ s.tim.badRun ∧
       (s.wr F.TIM_STATUS_LOCKED 1).rd F.TIM_STATUS_LOCKED = 1) := by decide +kernel

/-- TEV0 with a width and a start; an armed output and a pulse in progress. -/
def tevSet (width start : Nat) : State := (up.wr (F.TIM_TEV_WIDTH_NS 0) width).wr (F.TIM_TEV_START_NS_NS 0) start
def armedAt : TevArmed := ⟨4000, 4000, 400, 4, 2, 0, 0, 0⟩
def armedTev : Tev := ⟨some armedAt, none, false⟩
def pulseTev (last : Bool) : Tev := ⟨some { armedAt with next := 1, done := 1 }, some 1004000, last⟩
def withTev (v : Tev) (s : State) : State := { s with tim := { s.tim with tev := s.tim.tev.set 0 v, fstrobe := some 1000 } }

theorem witness_TimedOutputsFollowTheirSettings :
    up.bar0Open = true ∧ (tevSet 3 1000).rd (F.TIM_TEV_WIDTH_NS 0) < 4 ∧ 4 ≤ (tevSet 4 1000).rd (F.TIM_TEV_WIDTH_NS 0) ∧
    (∀ m ∈ [0, 1, 2, 3], (BitVec.ofNat 32 m : Word).toNat % 4 = m) ∧
    (∀ p ∈ ([199, 200] : List Nat), 4 * (p : Int) < (tevSet 4 p).dcFine * 4 / 2 ^ 32 + 800 ↔ p = 199) ∧
    (4 * 8 ≤ 4 * (up.wr (F.TIM_TEV_PERIOD_NS 0) 8).rd (F.TIM_TEV_PERIOD_NS 0)) ∧ (4 + 4) * up.geo.pd ≤ up.geo.pn ∧
    (∀ m ∈ [1, 2, 3], let s := withTev armedTev (timed.wr (F.TIM_TEV_CTRL_MODE 0) m)
      s.awake = true ∧ s.tim.tev[0]? = some armedTev ∧ armedTev.armed = some armedAt ∧ s.rd (F.TIM_TEV_CTRL_MODE 0) = m ∧
        armedTev.last = false ∧ s.timed = true) ∧
    (∀ b ∈ [true, false], let s := withTev (pulseTev b) up
      s.tim.tev[0]? = some (pulseTev b) ∧ (pulseTev b).pulse = some 1004000 ∧ (pulseTev b).last = b ∧ s.awake = true ∧
        s.tim.fstrobe = some 1000) := by decide +kernel

/-- A SET_POWER descriptor in ADMIN ring 1 (Table 2-8). -/
def powering (target : Nat) (st : PwrState) (fromS1 : Bool) (valid : Nat) : State :=
  oneDesc ({ up with pwr := { up.pwr with st := st, s2FromS1 := fromS1 } }.wr F.TIM_STATUS_VALID valid) 0 0x04 [BitVec.ofNat 8 target]

theorem witness_SetPowerFollowsTheLadder :
    (∀ p ∈ [(0, PwrState.s0, false, 0), (0, .s1, false, 1), (1, .s0, false, 0), (1, .s0, false, 1), (1, .s2, false, 1), (1, .s2, true, 1),
        (2, .s0, false, 0), (2, .s1, false, 0), (2, .s2, false, 0)],
      let s := powering p.1 p.2.1 p.2.2.1 p.2.2.2
      let d := desc 0x04 [BitVec.ofNat 8 p.1]
      Passes s 1 0x04 (ringOf 1 0 [d]) d [(d.restZero [(8, 1)], Cpl.BAD_FIELD)] ∧ byteAt d.bytes 8 = p.1 ∧ s.pwr.trans = none ∧
        s.pwr.ownWarn = false ∧ s.pwr.pinWarn = false ∧ s.pwr.st = p.2.1 ∧ s.pwr.s2FromS1 = p.2.2.1 ∧
        s.rd F.TIM_STATUS_VALID = p.2.2.2) ∧ PwrState.s0.number = 0 ∧ PwrState.s2.number = 2 := by
  unfold Passes
  decide +kernel

def inTrans (target : PwrState) (s : State) : State := { s with pwr := { s.pwr with trans := some ⟨target, none⟩ } }

theorem witness_TransitionsEndAndHoldsRefresh :
    up.awake = true ∧ up.pwr.d3hot = false ∧
    (∀ st ∈ [PwrState.s3, .s2], let s := { up with pwr := { up.pwr with st := st, d3hot := true } }
      s.pwr.d3hot = true ∧ s.pwr.st = st ∧ s.awake = (st == .s2)) ∧
    (∀ st ∈ [PwrState.s3, .s0, .s1, .s2], (inTrans st up).pwr.trans = some ⟨st, none⟩ ∧ (inTrans st up).hasEvents = true) ∧
    (let s := inTrans .s0 (inState .s3 up); s.pwr.st = .s3 ∧ s.pwr.d3hot = false ∧ s.pwr.ownWarn = false ∧ s.pwr.pinWarn = false) ∧
    (inState .s3 up).pwr.d3hot = false ∧
    (inTrans .s3 ((roped 4 0).wr F.ROPE_UP_STATE_LANES 0)).leaveDue .up = true ∧
    (∀ d ∈ [true, false], let s := inTrans .s3 { roped 4 4 with pwr := { (inState .s2 up).pwr with d3hot := d } }
      s.pwr.trans = some ⟨.s3, none⟩ ∧ s.leaveDue .up = false ∧ s.leaveDue .dn = false ∧ s.pwr.d3hot = d) ∧
    (∀ i ∈ [1, up.geo.rows + 99], let s := { inState .s1 up with pwr := { (inState .s1 up).pwr with holdLine := some i } }
      s.pwr.st = .s1 ∧ s.pwr.holdLine = some i) ∧
    ({ timed with lanes := timed.lanes.modify 5 fun l => { l with txIdle := false } } : State).txLive (6 * 0 + 5) = true ∧
    (let s := ((((inState .s1 (clocks 41666666 0 timed)).wr (portFld 0) 2).wr F.TIM_FSTROBE_EN 1).wr F.TIM_CTRL_COMP 1).wr F.TIM_FSTROBE_POL 1
     s.pwr.st = .s1 ∧ s.rd F.TIM_STATUS_VALID = 1 ∧ s.portState 0 = 2 ∧ (s.geo.t0 + 1 * 1000000000 / 24 : Nat) ≤ s.dcNs ∧
       s.dcNs < (s.geo.t0 + (1 + 1) * 1000000000 / 24 : Nat) ∧ s.rd F.TIM_FSTROBE_EN = 1 ∧ s.rd F.TIM_CTRL_COMP = 1 ∧
       s.tim.levels.getD 8 false ≠ decide (s.rd F.TIM_FSTROBE_POL = 1)) := by decide +kernel

def warned (own pin : Bool) (s : State) : State := { s with pwr := { s.pwr with ownWarn := own, pinWarn := pin } }

theorem witness_WarningsShedLoadAndClear :
    up.hasEvents = true ∧ up.pwr.ownWarn = false ∧ up.pwr.pinWarn = false ∧ up.rd F.PWR_CTRL_PFAIL_IN_EN = 1 ∧ (inState .s3 up).hasEvents = true ∧
    (warned true false up).pwr.pinWarn = false ∧ (warned true false up).rd F.PWR_CTRL_PFAIL_IN_EN = 1 ∧ (warned false true up).pwr.ownWarn = false ∧
    (∀ f ∈ [PwrState.s0, .s1, .s2], ∀ tr ∈ [none, some ⟨PwrState.s2, none⟩, some ⟨.s3, none⟩],
      let s := { (warned true false up).wr F.TIM_STATUS_VALID 1 with
        pwr := { (warned true false up).pwr with st := .s2, warnFrom := f, trans := tr, s2FromS1 := true } }
      s.hasEvents = true ∧ s.pwr.st = .s2 ∧ s.pwr.warnFrom = f ∧ s.pwr.trans = tr ∧ s.rd F.TIM_STATUS_VALID = 1 ∧ s.pwr.s2FromS1 = true) ∧
    (up.wr F.PWR_CTRL_PFAIL_IN_EN 0).rd F.PWR_CTRL_PFAIL_IN_EN = 0 ∧ (warned false true up).pwr.pinWarn = true ∧
    (warned true false up).hasEvents = true ∧ (warned true false up).pwr.ownWarn = true ∧ (warned true false up).pwr.warnFrom = .s0 ∧
    (∀ r ∈ [0, 1], ((warned true false up).wr F.PWR_CTRL_AUTO_RESUME r).rd F.PWR_CTRL_AUTO_RESUME = r) ∧
    ({ up with pwr := { up.pwr with ownWarn := true, warnFrom := .s2 } } : State).pwr.warnFrom ≠ .s0 ∧
    up.nvs.log = [] ∧ Stores.wf up.nvs = true ∧
    ({ up with pwr := { up.pwr with trans := some ⟨.s1, some 0⟩ } } : State).pwr.trans = some ⟨.s1, some 0⟩ := by decide +kernel

/-- No power, for the reason given. -/
def dark (fails : Nat) (bad volts : Bool) : State :=
  { State.reset with pwr := { PwrSt.reset with railFails := fails, railBad := bad, overVolt := volts } }

theorem witness_PowerComesAndGoes : up.pwr.st ≠ .off ∧ up.pwr.st ≠ .thermal ∧ (dark 0 false false).pwr.st = .off ∧ up.hasEvents = true ∧
    ({ up with pwr := { up.pwr with railBad := true } } : State).pwr.railBad = true ∧ (dark 0 false false).hasEvents = false ∧
    (dark 0 false false).pwr.railFails = 0 ∧ (dark 0 false false).pwr.railBad = false ∧ (dark 0 false false).pwr.overVolt = false ∧
    (∀ n ∈ [0, 2, 3], (dark n false true).pwr.overVolt = true ∧ (dark n false true).pwr.st = .off ∧ (dark n false true).pwr.railFails = n) ∧
    (let s := { inState .thermal up with pwr := { (inState .thermal up).pwr with overVolt := true } }
     s.pwr.st = .thermal ∧ s.pwr.overVolt = true ∧ s.pwr.st ≠ .off) ∧ Stores.wf up.nvs = true ∧ (∀ n ∈ [1, 2], 0 < (dark n false false).pwr.railFails ∧ (dark n false false).pwr.railFails < 3) ∧
    (dark 0 true false).pwr.railBad = true ∧ 3 ≤ (dark 3 false false).pwr.railFails ∧ (dark 3 false false).pwr.railBad = false ∧
    (inState .s4 up).pwr.st = .s4 ∧ (inState .s4 up).pwr.perst = false ∧
    (let s := { inState .thermal up with thm := { ThmSt.reset with cool := true } }
     s.pwr.st = .thermal ∧ s.pwr.perst = false ∧ s.pwr.overVolt = false ∧ s.thm.cool = true) ∧ State.reset.pwr.perst = true ∧
    goodBoot.rails = true ∧ goodBoot.logbook = true ∧ goodBoot.hbmFail % 16 = 0 := by decide +kernel

/-- Every sensor in use at 40 degrees, sensor n as given. -/
def warm (n : Nat) (f : Sensor → Sensor) (s : State) : State :=
  { s with thm := { ThmSt.reset with sensors := (List.replicate 48 { Sensor.reset with f := some 640 }).modify n f } }

theorem witness_SensorsAreReadAndFiltered :
    (∀ s ∈ [warm 0 id up, warm 5 (fun x => { x with missed := 2 }) up, warm 5 (fun x => { x with failed := true }) up, up,
        (warm 0 id up).wr F.THM_STATUS_CRITICAL 1],
      s.awake = true ∧ ∀ n < 48, s.correctAdc n 640 < 16 * (s.rd F.THM_CTRL_SHUT : Int)) ∧
    (List.replicate 48 (some (640 : Int)))[47]? = some (some 640) ∧ ((List.replicate 48 (some (640 : Int))).set 5 none).getD 5 none = none ∧
    (warm 5 (fun x => { x with missed := 2 }) up).thm.sensors[5]? = some { Sensor.reset with f := some 640, missed := 2 } ∧
    ((warm 0 id up).wr F.THM_STATUS_CRITICAL 1).rd F.THM_STATUS_CRITICAL = 1 ∧ up.rd F.THM_STATUS_CRITICAL = 0 := by decide +kernel

/-- Sensor 3 has deviated for 1 s; with `tight`, so many others are out of use that its group cannot lose it. -/
def deviant (tight : Bool) : State :=
  let s := warm 3 (fun x => { x with dev := 1000, f := some 2000 }) up
  if tight then
    { s with thm := { s.thm with sensors := s.thm.sensors.mapIdx fun i x => if i = 3 then x else { x with failed := true } } }
  else s

theorem witness_SensorsAreExcludedAndShutDown :
    up.awake = true ∧ (∀ m < 48, ¬1000 ≤ (up.sensor m).dev) ∧
    ((deviant false).sensor 3).inUse = true ∧ 1000 ≤ ((deviant false).sensor 3).dev ∧ (deviant false).thm.marked = false ∧
    (deviant false).groupTight 3 = false ∧ (∀ m < 48, m ≠ 3 → ¬1000 ≤ ((deviant false).sensor m).dev) ∧ (deviant false).awake = true ∧
    ((deviant true).sensor 3).inUse = true ∧ 1000 ≤ ((deviant true).sensor 3).dev ∧ (deviant true).groupTight 3 = true ∧
    ((deviant true).sensor 3).told = false ∧ (∀ m < 48, m ≠ 3 → ¬1000 ≤ ((deviant true).sensor m).dev) ∧
    (let s := warm 47 (fun x => { x with failed := true, good := 1000 }) up
     s.thm.sensors[47]? = some { Sensor.reset with f := some 640, failed := true, good := 1000 }) ∧
    (let s := warm 47 (fun x => { x with suspect := true, near := 10000 }) up
     s.thm.sensors[47]? = some { Sensor.reset with f := some 640, suspect := true, near := 10000 }) ∧
    (let s := warm 5 (fun x => { x with hot := 1 }) up
     s.awake = true ∧ (s.sensor 5).inUse = true ∧ 1 ≤ (s.sensor 5).hot ∧ (∀ m < 5, (s.sensor m).hot = 0) ∧ Stores.wf s.nvs = true ∧
       16 * (s.rd F.THM_CTRL_SHUT : Int) ≤ s.correctAdc 5 (16 * s.rd F.THM_CTRL_SHUT)) ∧
    up.hasEvents = true ∧ 2 < 3 ∧ (inState .thermal up).pwr.st = .thermal := by decide +kernel

/-- Results of a calibration run that pass Table 17-3. -/
def goodPref : List Word := List.replicate 18 0x8000
def goodAdc : List Word := List.replicate 3 0x8000
def staged (s : State) : State :=
  (goodPref ++ goodAdc ++ [5000]).zipIdx.foldl (fun (s : State) (p : Word × Nat) => s.setWord (0x50100 + 4 * p.2) p.1) s

/-- Table 17-3's limits, decided. -/
def within (ws : List Word) : Bool :=
  ws.zipIdx.all fun p =>
    (decide (21 ≤ p.2) || (decide (32112 ≤ p.1.toNat % 2 ^ 16) && decide (p.1.toNat % 2 ^ 16 ≤ 33424) &&
      decide ((sext 16 (p.1.toNat / 2 ^ 16)).natAbs ≤ if p.2 < 18 then 64 else 160))) &&
    (p.2 != 21 || (decide (4500 ≤ p.1.toNat) && decide (p.1.toNat ≤ 5500)))

theorem within_limits (ws : List Word) (h : within ws = true) : WithinLimits ws := by
  intro i w hi
  have hm : (w, i) ∈ ws.zipIdx := by simpa [List.mem_zipIdx_iff_getElem?] using hi
  have h1 := List.all_eq_true.1 h _ hm
  simp only [Bool.and_eq_true, Bool.or_eq_true, decide_eq_true_eq, bne_iff_ne, ne_eq] at h1
  refine ⟨fun hi => ?_, fun hi => ?_⟩
  · rcases h1.1 with h2 | h2
    · omega
    · exact ⟨h2.1.1, h2.1.2, h2.2⟩
  · rcases h1.2 with h2 | h2
    · exact absurd hi h2
    · exact h2

theorem witness_calibration_limits : WithinLimits (goodPref ++ goodAdc ++ [4500]) ∧
    WithinLimits ((List.range 22).map fun i => (staged up).word (0x50100 + 4 * i)) ∧
    ¬WithinLimits ((List.range 22).map fun i => (up.setWord 0x50254 0).word (0x50200 + 4 * i)) := by
  refine ⟨within_limits _ (by decide +kernel), within_limits _ (by decide +kernel), fun h => ?_⟩
  have := (h 21 _ rfl).2 rfl
  revert this
  decide +kernel

theorem witness_CalibrationRunsStageAndApply :
    (let s := warm 0 id (up.wr F.CAL_CTRL_AUTO 1)
     s.awake = true ∧ s.rd F.CAL_CTRL_AUTO = 1 ∧ s.cal.holdoff = false ∧ 0 < (s.groupSum 0).1 ∧
       16 * max 1 (s.rd F.CAL_TDELTA_TDELTA) * (s.groupSum 0).1 <
         ((s.groupSum 0).2 - (s.groupSum 0).1 * sext 16 (s.rd ⟨0x5000C + 4 * (0 / 2), 16 * (0 % 2), 16⟩)).natAbs) ∧
    (∀ b ∈ [true, false], ∀ h ∈ [true, false], let s := { up.wr F.CAL_STATUS_REQ_HELD 1 with cal := { CalSt.reset with byHost := b, holdoff := h } }
      s.awake = true ∧ s.rd F.CAL_STATUS_REQ_HELD = 1 ∧ s.rd F.CAL_STATUS_BUSY = 0 ∧ s.rd F.CAL_STATUS_APPLY_PENDING = 0 ∧ s.cal.byHost = b ∧
        s.cal.holdoff = h) ∧
    (up.wr F.CAL_CTRL_AUTO 0).rd F.CAL_CTRL_AUTO = 0 ∧ up.bar0Open = true ∧ up.rd F.CAL_STATUS_BUSY = 0 ∧
    up.rd F.CAL_STATUS_APPLY_PENDING = 0 ∧ (up.wr F.CAL_STATUS_BUSY 1).rd F.CAL_STATUS_BUSY = 1 ∧
    (up.wr F.CAL_STATUS_REQ_HELD 1).rd F.CAL_STATUS_REQ_HELD = 1 ∧ goodPref.length = 18 ∧ goodAdc.length = 3 ∧
    (∀ v ∈ [0, 1], (up.wr F.TIM_STATUS_TREF_OK v).rd F.TIM_STATUS_TREF_OK = v ∧
      (up.wr F.SCN_STATUS_TIME_OK v).rd F.SCN_STATUS_TIME_OK = v) ∧ (staged up).bar0Open = true ∧
    (staged up).rd F.CAL_STATUS_BUSY = 0 := by decide +kernel

/-- The operands of the MGMT storage commands (Table 2-8): buffer, offset, length. -/
def storeBody (buf off len : Nat) : List Byte := leBytes buf 8 ++ leBytes off 4 ++ leBytes len 4

/-- The logbook's group 2 is uncorrectable; the recall is busy or not. -/
def logging (bad : List Nat) (busy : Nat) : State :=
  ({ up with nvs := { up.nvs with badGroups := bad } } : State).wr F.NVS_STATUS_RECALL_BUSY busy

theorem witness_LogbookIsReadAndWritten :
    (∀ bad ∈ [[], [2]], ∀ busy ∈ [0, 1], ∀ p ∈ [(0, 24), (0x3FFE8, 24), (0, 0x40000)],
      let d := desc 0x61 (storeBody 0x8000 p.1 p.2)
      let s := oneDesc (logging bad busy) 6 0x61 (storeBody 0x8000 p.1 p.2)
      Passes s 1 0x61 (ringOf 1 6 [d]) d [(d.restZero [(8, 16)] && decide (leAt d.bytes 8 8 < 2 ^ 63) &&
        decide (leAt d.bytes 16 4 + leAt d.bytes 20 4 ≤ 0x40000), Cpl.BAD_FIELD)] ∧ Stores.wf s.nvs = true ∧
        s.rd F.NVS_STATUS_RECALL_BUSY = busy ∧ s.nvs.badGroups = bad ∧ s.rd (F.EVT_ROUTE_ALERT Ev.NVS_LOG_UNCORR) = 0) ∧
    (∀ i < 24, (0x3FFE8 + i) / 8 ∉ [2]) ∧ (0 + 16) / 8 ∈ [2] ∧ 16 < 24 ∧
    (∀ busy ∈ [0, 1], let d := desc 0x62 (storeBody 0x8000 0xC004 8)
      let s := oneDesc (logging [0x1801] busy) 6 0x62 (storeBody 0x8000 0xC004 8)
      Passes s 1 0x62 (ringOf 1 6 [d]) d [(d.restZero [(8, 16)] && decide (leAt d.bytes 8 8 < 2 ^ 63) &&
        decide (0xC000 ≤ leAt d.bytes 16 4) && decide (leAt d.bytes 16 4 + leAt d.bytes 20 4 ≤ 0x40000), Cpl.BAD_FIELD)] ∧
        Stores.wf s.nvs = true ∧ (List.replicate 8 (1 : Byte)).length = leAt d.bytes 20 4 ∧
        s.rd (F.EVT_ROUTE_ALERT Ev.NVS_LOG_UNCORR) = 0 ∧ s.nvs.logOp = none ∧ s.rd F.NVS_STATUS_RECALL_BUSY = busy) ∧
    (let s := { logging [] 1 with nvs := { up.nvs with logQ := [⟨7, 1, 2⟩] } }
     s.hasEvents = true ∧ s.rd F.NVS_STATUS_RECALL_BUSY = 1 ∧ s.nvs.logQ = [⟨7, 1, 2⟩] ∧
       s.rd (F.EVT_ROUTE_ALERT Ev.NVS_RECALL_DONE) = 0 ∧ Stores.wf s.nvs = true) ∧
    up.bar0Open = true ∧ up.rd F.NVS_SVN_RUN_SVN ≤ up.rd F.NVS_SVN_MIN_SVN ∧
    (up.wr F.NVS_SVN_RUN_SVN 3).rd F.NVS_SVN_MIN_SVN < (up.wr F.NVS_SVN_RUN_SVN 3).rd F.NVS_SVN_RUN_SVN ∧ up.awake = true := by
  unfold Passes
  decide +kernel

theorem witness_log_write_in_progress :
    (let s := oneDesc (logging [] 0) 6 0x62 (storeBody 0x8000 0xC004 8)
     s.nvs.badGroups = [] ∧ (0xC004 / 8 + 1) * 8 - 0xC004 < 8 ∧ (0xC004 / 8 + 2) * 8 - 0xC004 = 12) ∧
    (∀ ring ∈ [1, 2], let o : StoreOp := ⟨1, 0, 0xC008, List.replicate 4 1, false, 4, true, 0, []⟩
      let s : State := { up with nvs := { up.nvs with logOp := some o } }
      s.nvs.logOp = some o ∧ (o.ring = ring ↔ ring = 1) ∧ o.evs = [] ∧ Stores.wf s.nvs = true ∧ s.nvs.badGroups = [] ∧ s.powered = true) ∧
    up.hasEvents = true := by
  decide +kernel

/-- A flash of 64 MiB whose SFDP was accepted or not. -/
def flashy (ok : Nat) : State := ({ up with nvs := { up.nvs with capMiB := 64 } } : State).wr F.NVS_STATUS_SFDP_OK ok
def sector : List Byte := List.replicate 4096 0x5A
def settings : List Byte := [1, 2, 3, 4, 5, 6, 7, 8]

theorem witness_FlashIsReadAndWritten :
    (let d := desc 0x63 (storeBody 0x8000 0x3FFFFF8 8)
     let s := oneDesc (flashy 0) 6 0x63 (storeBody 0x8000 0x3FFFFF8 8)
     Passes s 1 0x63 (ringOf 1 6 [d]) d [(d.restZero [(8, 16)] && decide (leAt d.bytes 8 8 < 2 ^ 63) &&
       decide (leAt d.bytes 16 4 + leAt d.bytes 20 4 ≤ s.nvs.capMiB * 2 ^ 20), Cpl.BAD_FIELD)] ∧ Stores.wf s.nvs = true ∧ s.nvs.flashOp = none) ∧
    (∀ set ∈ [true, false], let o : StoreOp := ⟨1, 0, 0x1020000, [1], set, 4096, true, 0, []⟩
      let s : State := { up with nvs := { up.nvs with flashOp := some o } }
      s.nvs.flashOp = some o ∧ o.ring = 1 ∧ o.settings = set ∧ s.pwr.ownWarn = false ∧ s.pwr.pinWarn = false ∧ Stores.wf s.nvs = true) ∧
    (warned true false up).pwr.ownWarn = true ∧
    (∀ ok ∈ [0, 1], ∀ off ∈ [0xFFF000, 0x1020000], let d := desc 0x64 (storeBody 0x8000 off 4096)
      let s := oneDesc (flashy ok) 6 0x64 (storeBody 0x8000 off 4096)
      Passes s 1 0x64 (ringOf 1 6 [d]) d [(d.restZero [(8, 16)] && decide (leAt d.bytes 8 8 < 2 ^ 63) && decide (leAt d.bytes 16 4 % 4096 = 0) &&
        decide (leAt d.bytes 20 4 % 4096 = 0) && decide (leAt d.bytes 16 4 + leAt d.bytes 20 4 ≤ s.nvs.capMiB * 2 ^ 20) &&
        (decide (leAt d.bytes 16 4 + leAt d.bytes 20 4 ≤ 0x1000000) || decide (0x1020000 ≤ leAt d.bytes 16 4)), Cpl.BAD_FIELD)] ∧
        s.pwr.ownWarn = false ∧ s.pwr.pinWarn = false ∧ Stores.wf s.nvs = true ∧ sector.length = leAt d.bytes 20 4 ∧
        s.nvs.flashOp = none ∧
        s.rd F.NVS_STATUS_SFDP_OK = ok ∧ 0 < leAt d.bytes 20 4 / 4096 ∧ leAt d.bytes 20 4 / 4096 ≤ 1) ∧
    (∀ ok ∈ [0, 1], let d := desc 0x65 (leBytes 0x8000 8 ++ leBytes 8 4)
      let s := oneDesc (flashy ok) 6 0x65 (leBytes 0x8000 8 ++ leBytes 8 4)
      Passes s 1 0x65 (ringOf 1 6 [d]) d [(d.restZero [(8, 12)] && decide (leAt d.bytes 8 8 < 2 ^ 63) &&
        decide (leAt d.bytes 16 4 % 8 = 0) && decide (leAt d.bytes 16 4 ≤ 65512), Cpl.BAD_FIELD)] ∧
        s.pwr.ownWarn = false ∧ s.pwr.pinWarn = false ∧ Stores.wf s.nvs = true ∧ settings.length = leAt d.bytes 16 4 ∧
        s.nvs.flashOp = none ∧ s.rd F.NVS_STATUS_SFDP_OK = ok) := by
  unfold Passes
  decide +kernel

/-- A SETTINGS_WRITE at the front of the queue. -/
def saving : State :=
  { oneDesc (flashy 1) 6 0x65 (leBytes 0x8000 8 ++ leBytes 8 4) with pending := [.settingsWrite 1 settings .whole] }

def saved : State := after (.settingsWrite 1 settings .whole) { saving with pending := [] }

theorem witness_OnlyFlashCommandsWriteTheFlash : step saving = .next saved ∧ saved.nvs.flash ≠ saving.nvs.flash := by
  refine ⟨?_, by decide +kernel⟩
  simp only [saved, after, exec]
  rfl

theorem witness_SerialNumbersCompareByDistance : 0 < 16 ∧ 0xFFFF < 2 ^ 16 ∧ 0x7FFF < 2 ^ 16 ∧ serialDelta 16 0x8000 0 = -2 ^ 15 ∧
    serialDelta 16 0 0xFFFF = 1 := by decide +kernel

/-! ## Worked examples of the spec

Expected values are the spec's own, from the example that each theorem names. -/

theorem test_serial_frames : serialDist 32 0x10 0xFFFFFFF0 = 32 ∧ serialDist 32 0x80000005 5 = 0 ∧ serialDist 32 0 0xFFFFFFFF = 1 := by
  decide

/-- The sizing examples of chapter 1: 50,319,360 and 49,766,400 bytes. -/
theorem test_swath_need : up.geo.swathNeed = 50319360 ∧ ({ up.geo with anchors := 25, dh := 128, dv := 68 } : Geo).swathNeed = 49766400 := by
  decide +kernel

/-- The view anchors of the ray (8, 5) on the odd lattice, their weights, the splat and the weighting (R149 to R159). -/
def oddGrid : List (Nat × Nat) := (List.range 6).flatMap fun j => (List.range 6).map fun i => (2 * i + 1, 2 * j + 1)

theorem test_view_anchors : (viewAnchors 4 oddGrid 8 5).map (fun a => (a.ix, a.weight)) = [(15, 2048), (16, 2048), (9, 682), (10, 682)] := by
  decide +kernel

theorem test_splat_and_blend : (Disp.fin 40).shift 1 = 3 ∧ (Disp.fin 40).shift (-1) = -2 ∧ (Disp.fin 40).shift (-2) = -5 ∧
    visible 16 (.fin 40) (.fin 42) = true ∧ visible 16 (.fin 40) (.fin 8) = false ∧ blend [(2048, 600), (2048, 620), (682, 650)] = 616 := by decide +kernel

/-- The plane shifts of chapter 6 at PD = 24 and 32, and the line need of a 2160-line source on 576 rows. -/
theorem test_plane_shifts : planeShift 24 0 12 = -8 ∧ planeShift 24 11 12 = 8 ∧ planeShift 32 11 12 = 11 ∧ planeShift 32 0 12 = -11 := by
  decide

theorem test_fetch_load : (let p := { planeOf up.liveWord 2 with format := 2, sw := 3840, sh := 2160, dw := 1024, dh := 576, pd := 0 }
    p.lines = 5 ∧ p.fetchLoad 12 = 76800 * bpp p.format / 4 ∧ ({ p with pd := 32, format := 3 } : Plane).fetchLoad 12 = 921600) := by decide +kernel

/-- Dithering of chapter 6, reduction by rounding, and the CRC-32 of four zero bytes of chapter 7. -/
theorem test_dither : ditherC 1 8 0 5 2 3 0 613 = 153 ∧ ditherC 1 8 0 6 2 3 0 613 = 153 ∧ ditherC 1 8 0 5 3 3 0 613 = 154 := by decide

theorem test_crc32 : crc32 [0, 0, 0, 0] = 0x2144DF1C ∧ crc32 ("123456789".toList.map Char.toNat) = 0xCBF43926 := by decide +kernel

/-- The panel example of chapter 8: LINE block of line 500. -/
theorem test_line_block : lineBlock ⟨144, false, 2, 2, false⟩ true false false 1 500 3 1 0x12C3A = [0x4C, 0xA9, 0xF4, 0x01, 0x13, 0x3A, 0x2C, 0x8F] := by
  decide +kernel

/-- The precoder example of chapter 9, and its inverse. -/
theorem test_precoder : precode 0 [1, 0, 2, 0] = [1, 3, 3, 1] ∧ unprecode true 0 [1, 3, 3, 1] = [1, 0, 2, 0] := by decide

/-- The inter sample and the intra unit of chapter 3: 559; 14 bits, level 3, dequantised 38, residual 5, prediction 516. -/
theorem test_inter_sample : interSample 10 (fun x _ => [500, 520, 600, 640].getD (x - 10).toNat 0) 46 0 = 559 := by decide +kernel

def intraBits : List Bool :=
  [false, false, false, false, false, false, true, true, true, false, true, true, false, false]

theorem test_intra_unit_head : ((rdCu ⟨8, 8, 3, false, 0, 1⟩ [] 0 0 8 0 intraBits).map fun r => (r.2.length, r.1.mode, r.1.nt)) = some (0, 0, 8) := by
  decide +kernel

theorem test_intra_unit_kind : ((rdCu ⟨8, 8, 3, false, 0, 1⟩ [] 0 0 8 0 intraBits).map fun r => r.1.kind) = some CuKind.intra := by decide +kernel

theorem test_intra_unit_level :
    ((rdCu ⟨8, 8, 3, false, 0, 1⟩ [] 0 0 8 0 intraBits).map fun r => r.1.blocks.map fun b => (b.comp, b.levels.head?)) = some [(1, some 3)] := by
  decide +kernel

theorem test_intra_recon : dequant 22 3 = 38 ∧ residualOf 8 22 (3 :: List.replicate 63 0) = List.replicate 64 5 ∧
    intraSample 8 0 (List.replicate 16 520 ++ [520] ++ List.replicate 16 512) 3 4 = 516 := by decide +kernel

/-- T_p of chapter 10: 5,272 bytes. -/
theorem test_tail_size : tailSize ⟨4096, 2160, 3, false, 1, 1⟩ 4 = 5272 := by decide +kernel

/-- The address and the check bytes of chapter 12. -/
theorem test_device_address : MemSt.reset.stackOf 0x280005123 = 1 ∧ MemSt.reset.stackOffset 0x280005123 = 0xA0001123 ∧
    ({ MemSt.reset with affine := 2 ^ 5 } : MemSt).stackOf 0x280005123 = 1 ∧
    ({ MemSt.reset with affine := 2 ^ 5 } : MemSt).stackOffset 0x280005123 = 0xA0002123 := by decide

theorem test_check_bytes : guardCheck (List.replicate 31 0 ++ [1]) = [0x0F, 0x36, 0x78, 0x40] ∧ guardCheck (List.replicate 32 0) = [0, 0, 0, 0] := by
  decide +kernel

/-- The overlapping COPY of chapter 11. -/
def surface : List Byte := (List.range 16).flatMap fun i => leBytes (10 * (i / 4) + i % 4) 4
def copyCmd : List Byte :=
  [1, 3, 3, 0] ++ leBytes 0 4 ++ leBytes 0x5000 8 ++ leBytes 16 4 ++ leBytes 16 4 ++ leBytes 0x5000 8 ++ leBytes 0 4 ++ leBytes 1 2 ++
    leBytes 1 2 ++ leBytes 3 2 ++ leBytes 3 2 ++ List.replicate 20 0
def copying : State := { granted.writeFor .blt .blt 0x5000 surface with blt := { BltSt.reset with west := some (aList (some copyCmd) 1) } }

theorem test_copy_overlap : ((List.range 16).map fun i => byteAt (((after (.bltCommandDone .west) copying).mem.peek 0x5000 64).map MByte.val) (4 * i)) =
    [0, 1, 2, 3, 10, 0, 1, 2, 20, 10, 11, 12, 30, 20, 21, 22] := by decide +kernel

/-- Table 15-8: held occurrences give one delivery and the timer restarts; with none held it stops. -/
def coalescing (n : Nat) : State :=
  { unmask 7 (((up.wr (evtEnableFld 131) 1).wr (F.EVT_ROUTE_COAL_US 131) 1000).wr (F.EVT_ROUTE_VECTOR 131) 7) with
    evt := { EvtSt.reset with srcs := [⟨131, true, n, 0, 0⟩] } }

theorem test_coalescing : (after (.eventCoalesceExpiry 131) (coalescing 2)).out = [.msix 7] ∧
    (after (.eventCoalesceExpiry 131) (coalescing 2)).evt.srcs = [⟨131, true, 0, 0, 0⟩] ∧
    (after (.eventCoalesceExpiry 131) (coalescing 0)).out = [] ∧ (after (.eventCoalesceExpiry 131) (coalescing 0)).evt.srcs = [] ∧
    (F.EVT_ROUTE_VECTOR 131).off = 0x2120C := by decide +kernel

/-- The register examples of chapter 20, and reset values that the registers compute. -/
theorem test_register_reads : up.readReg 0xF1808 = 0x4000 ∧ up.readReg 0xC01E8 = 0 ∧ up.readReg 0x21730 = 0x80 ∧
    up.readReg 0xA0014 = 0x549B10 ∧ up.readReg 0xB0010 = 0x02FFD000 ∧ up.readReg 0xD0034 = 0x384393 := by decide +kernel

/-- The sensor example of chapter 17: west sensor 5 deviates from its neighbours. -/
def hotSpot : State :=
  { up with thm := { ThmSt.reset with sensors := (List.replicate 48 Sensor.reset).mapIdx fun i x =>
      { x with f := [none, some 1352, none, none, some 1360, some 1536, some 1376, none, none, some 1368].getD i none } } }

theorem test_deviation : sensorNeighbours 5 = [1, 4, 6, 9] ∧ hotSpot.offMean 5 = 688 ∧ hotSpot.deviates 5 = true ∧ excessOf 1536 95 = 1 ∧
    excessOf 1444 95 = 0 := by decide +kernel

/-- The corrected reference code of chapter 17: 4,110. -/
theorem test_pref_code : correctCode (32900 + 65536 * 0xFFFD) 4096 = 4110 := by decide

end Sys2Proof.Tests
end

section
/-!
PROOFS. The statements about the machine as a whole: canonical stores, counter clears, BAR0 writes and reads.
-/
namespace Sys2Proof.Machine

/-! ## Every step keeps the stores canonical -/

/-- Every command keeps what the table `touches` does not name for it, and canonical stores and unit lists: its meaning does. -/
theorem exec_keeps {c : Instr} {s t : State} (h : exec c s = .next t) : Keeps (Part.mask (touches c)) s t := by
  cases c with
  | registerWrite => exact execRegisterWrite_keeps h
  | bar0UnsupportedAccess off size write => exact execBar0UnsupportedAccess_keeps (_write := write) h
  | linkUp => exact execLinkUp_keeps h
  | hifCxlRas => exact execHifCxlRas_keeps h
  | hotReset => exact execHotReset_keeps h
  | cxlMemRead => exact execCxlMemRead_keeps h
  | cxlMemWrite => exact execCxlMemWrite_keeps h
  | featuresOk => exact execFeaturesOk_keeps h
  | enable => exact execEnable_keeps h
  | functionReset => exact execFunctionReset_keeps h
  | functionLevelReset => exact execFunctionLevelReset_keeps h
  | functionResetDone => exact execFunctionResetDone_keeps h
  | hifAbort => exact execHifAbort_keeps h
  | abortPoint => exact execAbortPoint_keeps h
  | doorbellSnoop => exact execDoorbellSnoop_keeps h
  | doorbellReread => exact execDoorbellReread_keeps h
  | hifDbSq => exact execHifDbSq_keeps h
  | hifDbCq => exact execHifDbCq_keeps h
  | descriptorFetch => exact execDescriptorFetch_keeps h
  | descriptorRetire => exact execDescriptorRetire_keeps h
  | completionWrite => exact execCompletionWrite_keeps h
  | coalesceTimerExpiry => exact execCoalesceTimerExpiry_keeps h
  | createRing => exact execCreateRing_keeps h
  | deleteRing => exact execDeleteRing_keeps h
  | queueAbort => exact execQueueAbort_keeps h
  | setPowerS0 => exact execSetPowerS0_keeps h
  | setPowerS1 => exact execSetPowerS1_keeps h
  | setPowerS2 => exact execSetPowerS2_keeps h
  | nop => exact execNop_keeps h
  | evtRing => exact execEvtRing_keeps h
  | streamPush => exact execStreamPush_keeps h
  | streamReset => exact execStreamReset_keeps h
  | streamResetTakesEffect => exact execStreamResetTakesEffect_keeps h
  | loopPlay => exact execLoopPlay_keeps h
  | present => exact execPresent_keeps h
  | shadowWrite => exact execShadowWrite_keeps h
  | commit => exact execCommit_keeps h
  | commitArrive => exact execCommitArrive_keeps h
  | bltRun => exact execBltRun_keeps h
  | mbox => exact execMbox_keeps h
  | send => exact execSend_keeps h
  | recv => exact execRecv_keeps h
  | logRead => exact execLogRead_keeps h
  | logWrite => exact execLogWrite_keeps h
  | flashRead => exact execFlashRead_keeps h
  | flashWrite => exact execFlashWrite_keeps h
  | settingsWrite => exact execSettingsWrite_keeps h
  | encOpen => exact execEncOpen_keeps h
  | encPut => exact execEncPut_keeps h
  | encKey => exact execEncKey_keeps h
  | encClose => exact execEncClose_keeps h
  | encKeyReq => exact execEncKeyReq_keeps h
  | encAuStart => exact execEncAuStart_keeps h
  | encPictureStart => exact execEncPictureStart_keeps h
  | encAuDone => exact execEncAuDone_keeps h
  | seqParcel => exact execSeqParcel_keeps h
  | gridParcel => exact execGridParcel_keeps h
  | auParcel => exact execAuParcel_keeps h
  | viewpicParcel => exact execViewpicParcel_keeps h
  | sliceParcel => exact execSliceParcel_keeps h
  | depthParcel => exact execDepthParcel_keeps h
  | padParcel => exact execPadParcel_keeps h
  | endParcel => exact execEndParcel_keeps h
  | extensionParcel => exact execExtensionParcel_keeps h
  | invalidTypeParcel => exact execInvalidTypeParcel_keeps h
  | crcFailedParcel => exact execCrcFailedParcel_keeps h
  | sliceDispatch => exact execSliceDispatch_keeps h
  | sliceResume => exact execSliceResume_keeps h
  | sbrowFinal => exact execSbrowFinal_keeps h
  | decWatchdog => exact execDecWatchdog_keeps h
  | concealCopy => exact execConcealCopy_keeps h
  | lateWindowClose => exact execLateWindowClose_keeps h
  | decCntClear => exact execDecCntClear_keeps h
  | lineStart => exact execLineStart_keeps h
  | frameStart => exact execFrameStart_keeps h
  | dcbWindowEnd => exact execDcbWindowEnd_keeps h
  | guardPoint => exact execGuardPoint_keeps h
  | decisionPoint => exact execDecisionPoint_keeps h
  | eAppFall => exact execEAppFall_keeps h
  | swathRowLoad => exact execSwathRowLoad_keeps h
  | synthRow => exact execSynthRow_keeps h
  | hostMaxUsExpiry => exact execHostMaxUsExpiry_keeps h
  | synCntClear => exact execSynCntClear_keeps h
  | planeFetch => exact execPlaneFetch_keeps h
  | cmpCntClear => exact execCmpCntClear_keeps h
  | retireEnable => exact execRetireEnable_keeps h
  | scnCntClear => exact execScnCntClear_keeps h
  | statusBlock => exact execStatusBlock_keeps h
  | statusTimeout => exact execStatusTimeout_keeps h
  | trainReq => exact execTrainReq_keeps h
  | pnlTrainFail => exact execPnlTrainFail_keeps h
  | trainRetry => exact execTrainRetry_keeps h
  | pnlRetrain => exact execPnlRetrain_keeps h
  | prefLimit => exact execPrefLimit_keeps h
  | crkMeasure => exact execCrkMeasure_keeps h
  | pmbGo => exact execPmbGo_keeps h
  | pnlPmbDone => exact execPnlPmbDone_keeps h
  | pnlCntClear => exact execPnlCntClear_keeps h
  | rxBlock => exact execRxBlock_keeps h
  | acquireDone => exact execAcquireDone_keeps h
  | adaptFreeze => exact execAdaptFreeze_keeps h
  | frozenResume => exact execFrozenResume_keeps h
  | rxElectricalIdle => exact execRxElectricalIdle_keeps h
  | rxIdleEnd => exact execRxIdleEnd_keeps h
  | prbsGen => exact execPrbsGen_keeps h
  | prbsChk => exact execPrbsChk_keeps h
  | adaptHold => exact execAdaptHold_keeps h
  | eyeMeasure => exact execEyeMeasure_keeps h
  | lnkTxFault => exact execLnkTxFault_keeps h
  | lnkCntClear => exact execLnkCntClear_keeps h
  | encCntClear => exact execEncCntClear_keeps h
  | bltListStart => exact execBltListStart_keeps h
  | bltCommandStart => exact execBltCommandStart_keeps h
  | bltCommandDone => exact execBltCommandDone_keeps h
  | bltCntClear => exact execBltCntClear_keeps h
  | memAffine => exact execMemAffine_keeps h
  | pairReinitDone => exact execPairReinitDone_keeps h
  | backgroundClearDone => exact execBackgroundClearDone_keeps h
  | patrolScrubRead => exact execPatrolScrubRead_keeps h
  | memBwInterval => exact execMemBwInterval_keeps h
  | memCntClear => exact execMemCntClear_keeps h
  | pitchLockTimeout => exact execPitchLockTimeout_keeps h
  | pitchTrainTimeout => exact execPitchTrainTimeout_keeps h
  | pitchRetry => exact execPitchRetry_keeps h
  | pitchReq => exact execPitchReq_keeps h
  | pitchAck => exact execPitchAck_keeps h
  | hello => exact execHello_keeps h
  | helloSend => exact execHelloSend_keeps h
  | pitchAlignLoss => exact execPitchAlignLoss_keeps h
  | belay => exact execBelay_keeps h
  | belaySend => exact execBelaySend_keeps h
  | enum => exact execEnum_keeps h
  | enumDone => exact execEnumDone_keeps h
  | presentMessage => exact execPresentMessage_keeps h
  | alarm => exact execAlarm_keeps h
  | mail => exact execMail_keeps h
  | mailAck => exact execMailAck_keeps h
  | mailAckTimeout => exact execMailAckTimeout_keeps h
  | hopForward => exact execHopForward_keeps h
  | leaveMessage => exact execLeaveMessage_keeps h
  | leave => exact execLeave_keeps h
  | leaveHoldDown => exact execLeaveHoldDown_keeps h
  | join => exact execJoin_keeps h
  | retrainUp => exact execRetrainUp_keeps h
  | retrainDn => exact execRetrainDn_keeps h
  | swGo => exact execSwGo_keeps h
  | headWaitExpiry => exact execHeadWaitExpiry_keeps h
  | ropeNoHead => exact execRopeNoHead_keeps h
  | ropeCntClear => exact execRopeCntClear_keeps h
  | trefValid => exact execTrefValid_keeps h
  | trefLost => exact execTrefLost_keeps h
  | ppsEdge => exact execPpsEdge_keeps h
  | timPpsLost => exact execTimPpsLost_keeps h
  | timOffsetHi => exact execTimOffsetHi_keeps h
  | timRate => exact execTimRate_keeps h
  | timDcIncHi => exact execTimDcIncHi_keeps h
  | timDcAdj => exact execTimDcAdj_keeps h
  | timPpsSecHi => exact execTimPpsSecHi_keeps h
  | snap => exact execSnap_keeps h
  | steerCompare => exact execSteerCompare_keeps h
  | tsyncSend => exact execTsyncSend_keeps h
  | tsync => exact execTsync_keeps h
  | timLock => exact execTimLock_keeps h
  | timUnlock => exact execTimUnlock_keeps h
  | tsyncTimeout => exact execTsyncTimeout_keeps h
  | tdreqSend => exact execTdreqSend_keeps h
  | tdreq => exact execTdreq_keeps h
  | tdresp => exact execTdresp_keeps h
  | arm => exact execArm_keeps h
  | disarm => exact execDisarm_keeps h
  | tevEdge => exact execTevEdge_keeps h
  | tevPulseEnd => exact execTevPulseEnd_keeps h
  | pop => exact execPop_keeps h
  | evtEnable => exact execEvtEnable_keeps h
  | evtTest => exact execEvtTest_keeps h
  | eventCoalesceExpiry => exact execEventCoalesceExpiry_keeps h
  | uvloRise => exact execUvloRise_keeps h
  | nvsRecallDone => exact execNvsRecallDone_keeps h
  | pfailWarn => exact execPfailWarn_keeps h
  | pfailNLow => exact execPfailNLow_keeps h
  | pfailClear => exact execPfailClear_keeps h
  | uvloFall => exact execUvloFall_keeps h
  | overvoltage => exact execOvervoltage_keeps h
  | overvoltageRecovery => exact execOvervoltageRecovery_keeps h
  | pwrInputRange => exact execPwrInputRange_keeps h
  | pwrRailFault => exact execPwrRailFault_keeps h
  | railFaultTimeout => exact execRailFaultTimeout_keeps h
  | railRetry => exact execRailRetry_keeps h
  | pmcsrD3hot => exact execPmcsrD3hot_keeps h
  | pmcsrD0 => exact execPmcsrD0_keeps h
  | perstNAssert => exact execPerstNAssert_keeps h
  | perstNDeassert => exact execPerstNDeassert_keeps h
  | wakeN => exact execWakeN_keeps h
  | holdRefresh => exact execHoldRefresh_keeps h
  | pwrCntClear => exact execPwrCntClear_keeps h
  | sensorRead => exact execSensorRead_keeps h
  | sensorReadmit => exact execSensorReadmit_keeps h
  | thmSuspect => exact execThmSuspect_keeps h
  | thmSuspectClear => exact execThmSuspectClear_keeps h
  | hardwareTrip => exact execHardwareTrip_keeps h
  | shutdownPoll => exact execShutdownPoll_keeps h
  | thmCntClear => exact execThmCntClear_keeps h
  | calTempCheck => exact execCalTempCheck_keeps h
  | calRun => exact execCalRun_keeps h
  | calRunStart => exact execCalRunStart_keeps h
  | calRunDone => exact execCalRunDone_keeps h
  | calMoveHoldoff => exact execCalMoveHoldoff_keeps h
  | stage => exact execStage_keeps h
  | calCntClear => exact execCalCntClear_keeps h
  | svnCommit => exact execSvnCommit_keeps h
  | s0SecondsUpdate => exact execS0SecondsUpdate_keeps h
  | nvsCntClear => exact execNvsCntClear_keeps h
  | mgmtWatchdog => exact execMgmtWatchdog_keeps h
  | glbFwNotice => exact execGlbFwNotice_keeps h
  | msixTableWrite => exact execMsixTableWrite_keeps h
  | loRegisterRead => exact execLoRegisterRead_keeps h
  | powerTransitionDone => exact execPowerTransitionDone_keeps h
  | mgmtRestartDone => exact execMgmtRestartDone_keeps h
  | electricalIdleDwellEnd => exact execElectricalIdleDwellEnd_keeps h
  | fstrobePulseEnd => exact execFstrobePulseEnd_keeps h

/-- A step keeps what its command, run on the queue's rest, or the tick keeps. -/
theorem step_keeps {s t : State} (h : step s = .next t) : ∃ P q, Keeps P { s with pending := q } t := by
  unfold step at h
  split at h
  · cases h
    exact ⟨532, s.pending, tick_keeps rfl (Keeps.refl _ s)⟩
  · next c rest _ => exact ⟨Part.mask (touches c), rest, exec_keeps h⟩

/-- The canonical form does not speak of the queue. -/
theorem State.canonical_pending (s : State) (q : List Instr) : ({ s with pending := q } : State).canonical = s.canonical := rfl

/-- Settles O4: the tick and every command keep the canonical form. -/
theorem everyStepKeepsStoresCanonical : Obligations.EveryStepKeepsStoresCanonical := by
  unfold Obligations.EveryStepKeepsStoresCanonical
  intro s t hs h
  obtain ⟨P, q, hk⟩ := step_keeps h
  exact hk.canonical ((s.canonical_pending q).trans hs)

/-! ## Counter clears (R6) -/

/-- The update `f` sets the registers at `offs` to 0 and changes nothing else. -/
def Clears (offs : List Nat) (f : State → State) : Prop := ∀ s, RegsOnly offs s (f s) ∧ ∀ o ∈ offs, (f s).word o = 0

/-- Clearing one set of registers and then another clears both. -/
theorem Clears.comp {a b : List Nat} {f g : State → State} (hf : Clears a f) (hg : Clears b g) :
    Clears (a ++ b) fun s => g (f s) := by
  intro s
  obtain ⟨hfr, hf0⟩ := hf s
  obtain ⟨hgr, hg0⟩ := hg (f s)
  refine ⟨hfr.trans hgr, fun o ho => ?_⟩
  by_cases hb : o ∈ b
  · exact hg0 o hb
  · rw [hgr.2 o hb]
    exact hf0 o ((List.mem_append.1 ho).resolve_right hb)

/-- Clearing a set of registers for each member of a list clears all of them. -/
theorem Clears.foldl {offs : Nat → List Nat} {f : State → Nat → State} (h : ∀ n, Clears (offs n) fun s => f s n) (l : List Nat) :
    Clears (l.flatMap offs) fun s => l.foldl f s := by
  induction l with
  | nil => exact fun s => ⟨RegsOnly.refl s _, List.forall_mem_nil _⟩
  | cons n l ih => exact (h n).comp ih

theorem State.setWord_clears (off : Nat) : Clears [off] fun s => s.setWord off 0 :=
  fun s => ⟨s.setWord_regsOnly off 0, fun o ho => by rw [List.mem_singleton.1 ho, State.word_setWord_same]⟩

theorem State.clearCounters_clears (base n : Nat) : Clears (counterRegs base n) fun s => s.clearCounters base n := by
  refine fun s => ⟨s.clearCounters_regsOnly base n, fun o ho => ?_⟩
  obtain ⟨i, hi, rfl⟩ := List.mem_map.1 ho
  rw [State.word_clearCounters, if_pos ⟨i, List.mem_range.1 hi, rfl⟩]

/-- The command is a BAR0 write that clears exactly the registers beside it. -/
def IsClear (p : Instr × List Nat) : Prop := ∃ f, Clears p.2 f ∧ ∀ s, exec p.1 s = .next (if s.bar0Open then f s else s)

/-- A command that clears one row of counters. -/
theorem isClear_counters {c : Instr} {base n : Nat} (h : ∀ s, exec c s = .next (if s.bar0Open then s.clearCounters base n else s)) :
    IsClear (c, counterRegs base n) := ⟨_, State.clearCounters_clears base n, h⟩

theorem isClear_syn : IsClear (.synCntClear, counterRegs 0xB0040 7 ++ [0xB0060]) :=
  ⟨_, (State.clearCounters_clears 0xB0040 7).comp (State.setWord_clears 0xB0060), fun _ => rfl⟩

theorem isClear_lnk : IsClear (.lnkCntClear, (List.range 104).flatMap fun n => counterRegs (0xF1020 + 0x40 * n) 6) :=
  ⟨_, Clears.foldl (fun n => State.clearCounters_clears (0xF1020 + 0x40 * n) 6) (List.range 104), fun _ => rfl⟩

/-- Every pair of the table is a clear. -/
theorem isClear_of_mem : ∀ p ∈ clearedBy, IsClear p := by
  simp only [clearedBy, List.forall_mem_cons]
  refine ⟨?_, ?_, ?_, ?_, ?_, ?_, ?_, isClear_syn, ?_, ?_, ?_, ?_, ?_, isClear_lnk, List.forall_mem_nil _⟩
  all_goals exact isClear_counters fun _ => rfl

/-- Settles O9: each command of the table is guarded by `bar0Open`, and behind the guard stands an update that clears its
counters. -/
theorem counterClearsAreExact : Obligations.CounterClearsAreExact := by
  unfold Obligations.CounterClearsAreExact
  intro p hp s
  obtain ⟨f, hf, he⟩ := isClear_of_mem p hp
  exact ⟨fun ho => gives_pos (he s) ho (hf s), fun hc => exec_neg (he s) (by simp [hc])⟩

/-! ## BAR0 writes (R6, R68, R455) -/

/-- Behind a closed BAR0 a guard does not hold, whatever it asks besides. -/
theorem not_bar0Open_and {s : State} (hs : s.bar0Open = false) (b : Bool) : ¬(s.bar0Open && b) = true := by simp [hs]

/-- Every BAR0 write is guarded by `bar0Open`. -/
theorem exec_bar0Write_closed {c : Instr} {s : State} (hc : isBar0Write c = true) (hs : s.bar0Open = false) :
    exec c s = .next s := by
  cases c with
  | registerWrite => exact exec_pos rfl (by simp [hs])
  | hifDbSq | hifDbCq | prbsGen | prbsChk | adaptHold | arm | disarm | evtEnable | timOffsetHi | timRate =>
    exact exec_neg rfl (not_bar0Open_and hs _)
  | featuresOk | enable | functionReset | hifAbort | encKeyReq | decCntClear | synCntClear | cmpCntClear | retireEnable | scnCntClear
  | pnlRetrain | pmbGo | pnlCntClear | lnkCntClear | encCntClear | bltCntClear | memAffine | memCntClear | leave | join | retrainUp
  | retrainDn | swGo | ropeCntClear | timDcIncHi | timDcAdj | timPpsSecHi | snap | pop | evtTest | pwrCntClear | thmCntClear | calRun
  | stage | calCntClear | svnCommit | nvsCntClear =>
    exact exec_neg rfl (Bool.eq_false_iff.1 hs)
  | _ => cases hc

/-- A write to a register of the blocks, while BAR0 takes writes. -/
theorem exec_registerWrite {off : Nat} (val : Word) (s : State) (ha : off % 4 = 0) (hx : cxlOffset off = false) :
    exec (.registerWrite off val) s = .next (if s.bar0Open then s.writeReg off val else s) := by
  change execRegisterWrite off val s = _
  unfold execRegisterWrite
  cases s.bar0Open <;> simp [ha, hx]

/-- A write to a register is its row, where both do the same behind the same guard. -/
theorem registerWrite_eq_row {off : Nat} {val : Word} {c : Instr} {s u : State} (ha : off % 4 = 0) (hx : cxlOffset off = false)
    (hw : s.writeReg off val = u) (hc : exec c s = .next (if s.bar0Open then u else s)) :
    exec (.registerWrite off val) s = exec c s := by
  rw [exec_registerWrite val s ha hx, hw, hc]

/-- The CXL component and device registers lie behind the blocks of Table 20-1. -/
theorem cxlOffset_eq_false {off : Nat} (h : off < 0xF00000) : cxlOffset off = false := by
  simp only [cxlOffset, Bool.and_eq_false_iff, decide_eq_false_iff_not]
  omega

theorem State.writeReg_hif {off : Nat} (h : off / 0x10000 = 1) (s : State) (v : Word) : s.writeReg off v = s.writeHif off v := by
  simp only [State.writeReg, h]

theorem State.writeReg_evt {off : Nat} (h : off / 0x10000 = 2) (s : State) (v : Word) : s.writeReg off v = s.writeEvt off v := by
  simp only [State.writeReg, h]

theorem State.writeReg_cmp {off : Nat} (h : off / 0x10000 = 12) (s : State) (v : Word) : s.writeReg off v = s.writeCmp off v := by
  simp only [State.writeReg, h]

theorem State.writeReg_scn {off : Nat} (h : off / 0x10000 = 13) (s : State) (v : Word) : s.writeReg off v = s.writeScn off v := by
  simp only [State.writeReg, h]

/-- The doorbell registers of the submission rings lie at every eighth byte from 0x11000. -/
theorem State.writeReg_dbSq {n : Nat} (hn : n < 64) (v : Word) (s : State) :
    s.writeReg (0x11000 + 8 * n) v = s.writeDbSq n v := by
  rw [State.writeReg_hif (by omega), State.writeHif, if_neg (by omega), if_neg (by omega), if_neg (by omega), if_pos (by omega),
    if_pos (by omega), show (0x11000 + 8 * n - 0x11000) / 8 = n by omega]

/-- Those of the completion rings lie between them. -/
theorem State.writeReg_dbCq {n : Nat} (hn : n < 64) (v : Word) (s : State) :
    s.writeReg (0x11004 + 8 * n) v = s.writeDbCq n v := by
  rw [State.writeReg_hif (by omega), State.writeHif, if_neg (by omega), if_neg (by omega), if_neg (by omega), if_pos (by omega),
    if_neg (by omega), show (0x11004 + 8 * n - 0x11000) / 8 = n by omega]

theorem State.writeReg_evtEnable {g : Nat} (hg : g < 16) (v : Word) (s : State) :
    s.writeReg (0x20040 + 4 * g) v = s.writeEvtEnable g v := by
  rw [State.writeReg_evt (by omega), State.writeEvt, if_pos (by omega), show (0x20040 + 4 * g - 0x20040) / 4 = g by omega]

theorem State.writeReg_retireCfg (v : Word) (s : State) :
    s.writeReg 0xC0018 v = s.writeRetireCfg (bitAt v.toNat 0) (bits v.toNat 4 4) := rfl

/-- A meaning guarded by BAR0 and by a range that holds is guarded by BAR0. -/
theorem guard_range {s u : State} {n m : Nat} (h : n < m) : (Host.Outcome.next (if s.bar0Open && decide (n < m) then u else s) :
    Host.Outcome State Fault Refusal) = .next (if s.bar0Open then u else s) := by
  rw [decide_eq_true h, Bool.and_true]

/-- A meaning guarded by the host's right to write rope time (R365), behind BAR0. -/
theorem guard_hostTime {s u : State} : (Host.Outcome.next (if s.hostTime then u else s) : Host.Outcome State Fault Refusal) =
    .next (if s.bar0Open then if s.role = 2 then s else u else s) := by
  unfold State.hostTime
  cases s.bar0Open <;> by_cases h : s.role = 2 <;> simp [h]

/-- What a row of `rowWrites` says. -/
def IsRow (p : Nat × (Word → Instr)) : Prop := ∀ v s, exec (.registerWrite p.1 v) s = exec (p.2 v) s

/-- A register whose write and whose row do the same behind the same guard. -/
theorem isRow {off : Nat} {c : Word → Instr} {f : State → Word → State} (ha : off % 4 = 0) (hx : off < 0xF00000)
    (hw : ∀ v s, s.writeReg off v = f s v) (hc : ∀ v s, exec (c v) s = .next (if s.bar0Open then f s v else s)) :
    IsRow (off, c) := fun v s => registerWrite_eq_row ha (cxlOffset_eq_false hx) (hw v s) (hc v s)

/-- Every entry of the table: the registers written by value, the doorbells of both kinds and the event enables. -/
theorem isRow_of_mem : ∀ p ∈ rowWrites, IsRow p := by
  simp only [rowWrites, List.forall_mem_append, List.forall_mem_cons, List.forall_mem_map, List.mem_range]
  refine ⟨⟨⟨⟨?_, ?_, ?_, ?_, ?_, ?_, ?_, ?_, List.forall_mem_nil _⟩,
    fun n hn => isRow (by omega) (by omega) (State.writeReg_dbSq hn) fun _ _ => guard_range hn⟩,
    fun n hn => isRow (by omega) (by omega) (State.writeReg_dbCq hn) fun _ _ => guard_range hn⟩,
    fun g hg => isRow (by omega) (by omega) (State.writeReg_evtEnable hg) fun _ _ => guard_range hg⟩
  · exact isRow rfl (by decide) (fun _ _ => rfl) fun _ _ => guard_hostTime
  · exact isRow rfl (by decide) (fun _ _ => rfl) fun _ _ => guard_hostTime
  all_goals exact isRow rfl (by decide) (fun _ _ => rfl) fun _ _ => rfl

/-- The value that enables the retire ring with a size: bit 0 and bits 7:4 of CMP_RETIRE_CFG. -/
theorem retireCfg_value {n : Nat} (hn : n < 16) :
    bitAt (BitVec.ofNat 32 (1 + 16 * n)).toNat 0 = true ∧ bits (BitVec.ofNat 32 (1 + 16 * n)).toNat 4 4 = n := by
  rw [BitVec.toNat_ofNat, Nat.mod_eq_of_lt (by omega)]
  simp only [bitAt, bits, beq_iff_eq]
  omega

theorem registerWrite_retireEnable {n : Nat} (hn : n < 16) (s : State) :
    exec (.registerWrite 0xC0018 (BitVec.ofNat 32 (1 + 16 * n))) s = exec (.retireEnable n) s := by
  obtain ⟨hen, hlog⟩ := retireCfg_value hn
  refine registerWrite_eq_row rfl rfl (u := s.writeRetireCfg true n) ?_ rfl
  rw [State.writeReg_retireCfg, hen, hlog]

/-- Settles O10: a closed BAR0 is asked first by every write, and a register with a row acts through the row's operation. -/
theorem bar0WritesActOnceAndOnlyWhileOpen : Obligations.Bar0WritesActOnceAndOnlyWhileOpen := by
  unfold Obligations.Bar0WritesActOnceAndOnlyWhileOpen
  refine ⟨fun _ _ => exec_bar0Write_closed, isRow_of_mem, fun s => ?_, fun s => ?_, fun _ hn => registerWrite_retireEnable hn⟩
  · exact registerWrite_eq_row (u := s.functionReset) rfl rfl rfl rfl
  · exact registerWrite_eq_row (u := s.setFeaturesOk) rfl rfl rfl rfl

/-! ## Registers whose write only stores (Table 0-5) -/

/-- Two fields have no bit in common. -/
@[reducible] def Apart (f g : Nat × Nat × Acc) : Prop := f.1 + f.2.1 ≤ g.1 ∨ g.1 + g.2.1 ≤ f.1

/-- A list of fields lies within a word, and no two fields meet. -/
@[reducible] def FieldsOk (l : List (Nat × Nat × Acc)) : Prop := (∀ f ∈ l, f.1 + f.2.1 ≤ 32) ∧ l.Pairwise Apart

/-- The field itself holds what its access type leaves there. -/
theorem bits_writeField_same (locked : Bool) (v w : Nat) (f : Nat × Nat × Acc) :
    bits (writeField locked v w f) f.1 f.2.1 = fieldAfter locked f.2.2 (bits w f.1 f.2.1) (bits v f.1 f.2.1) := by
  obtain ⟨lo, len, acc⟩ := f
  have ho := bits_lt w lo len
  have hn := bits_lt v lo len
  cases acc with
  | ro | wo => rfl
  | rw | sh => exact (bits_setBits_same ..).trans (Nat.mod_eq_of_lt hn)
  | w1c => exact (bits_setBits_same ..).trans (Nat.mod_eq_of_lt (Nat.lt_of_le_of_lt (Nat.sub_le ..) ho))
  | w1s => exact (bits_setBits_same ..).trans (Nat.mod_eq_of_lt (Nat.or_lt_two_pow ho hn))
  | rwl =>
    cases locked with
    | true => rfl
    | false => exact (bits_setBits_same ..).trans (Nat.mod_eq_of_lt hn)

/-- A field write replaces bits of its field only, if any. -/
theorem writeField_eq (locked : Bool) (v w : Nat) (f : Nat × Nat × Acc) :
    writeField locked v w f = w ∨ ∃ x, writeField locked v w f = setBits w f.1 f.2.1 x := by
  obtain ⟨lo, len, acc⟩ := f
  cases acc with
  | ro | wo => exact .inl rfl
  | rw | sh | w1c | w1s => exact .inr ⟨_, rfl⟩
  | rwl =>
    cases locked with
    | true => exact .inl rfl
    | false => exact .inr ⟨_, rfl⟩

theorem bits_writeField_apart (locked : Bool) (v w : Nat) {f g : Nat × Nat × Acc} (h : Apart f g) :
    bits (writeField locked v w f) g.1 g.2.1 = bits w g.1 g.2.1 := by
  rcases writeField_eq locked v w f with he | ⟨x, he⟩
  · rw [he]
  · rw [he]
    exact bits_setBits_ne h.symm

theorem writeField_lt (locked : Bool) (v : Nat) {w n : Nat} {f : Nat × Nat × Acc} (hw : w < 2 ^ n) (h : f.1 + f.2.1 ≤ n) :
    writeField locked v w f < 2 ^ n := by
  rcases writeField_eq locked v w f with he | ⟨x, he⟩
  · rwa [he]
  · rw [he]
    exact setBits_lt hw h

theorem foldl_writeField_lt (locked : Bool) (v : Nat) {l : List (Nat × Nat × Acc)} {w n : Nat} (hw : w < 2 ^ n)
    (h : ∀ f ∈ l, f.1 + f.2.1 ≤ n) : l.foldl (writeField locked v) w < 2 ^ n := by
  induction l generalizing w with
  | nil => exact hw
  | cons f l ih =>
    rw [List.forall_mem_cons] at h
    exact ih (writeField_lt locked v hw h.1) h.2

/-- A field that none of the fields written meets reads as before. -/
theorem bits_foldl_writeField_apart (locked : Bool) (v : Nat) {l : List (Nat × Nat × Acc)} {g : Nat × Nat × Acc} (w : Nat)
    (h : ∀ f ∈ l, Apart g f) : bits (l.foldl (writeField locked v) w) g.1 g.2.1 = bits w g.1 g.2.1 := by
  induction l generalizing w with
  | nil => rfl
  | cons f l ih =>
    rw [List.forall_mem_cons] at h
    exact (ih _ h.2).trans (bits_writeField_apart locked v w h.1.symm)

/-- Each field of a register takes its own part of a write. -/
theorem bits_foldl_writeField (locked : Bool) (v : Nat) {l : List (Nat × Nat × Acc)} (w : Nat) (h : l.Pairwise Apart) :
    ∀ f ∈ l, bits (l.foldl (writeField locked v) w) f.1 f.2.1 = fieldAfter locked f.2.2 (bits w f.1 f.2.1) (bits v f.1 f.2.1) := by
  induction l generalizing w with
  | nil => exact List.forall_mem_nil _
  | cons g l ih =>
    rw [List.pairwise_cons] at h
    intro f hf
    rcases List.mem_cons.1 hf with rfl | hf
    · exact (bits_foldl_writeField_apart locked v _ h.1).trans (bits_writeField_same locked v w f)
    · have hg := h.1 f hf
      rw [List.foldl_cons, ih _ h.2 f hf, bits_writeField_apart locked v w hg]

/-- Every register of the index has its fields within its word and apart (Tables 20-2 to 20-19). -/
theorem regBlock_fieldsOk (b : Nat) : ∀ d ∈ regBlock b, FieldsOk d.fields := by
  unfold regBlock
  split <;> decide

theorem regFind_fieldsOk {off : Nat} {d : RegDesc} (h : regFind off = some d) : FieldsOk d.fields :=
  regBlock_fieldsOk _ d (List.mem_of_find?_eq_some h)

theorem State.storeFields_none {off : Nat} (h : regFind off = none) (s : State) (val : Word) : s.storeFields off val = s := by
  simp only [State.storeFields, h]

theorem State.storeFields_regsOnly (s : State) (off : Nat) (val : Word) : RegsOnly [off] s (s.storeFields off val) := by
  unfold State.storeFields
  split
  · exact RegsOnly.refl s _
  · exact s.setWord_regsOnly off _

/-- Each field of a register takes a stored value as its access type says (Table 0-5). -/
theorem State.storeFields_fields {off : Nat} {d : RegDesc} (h : regFind off = some d) (s : State) (val : Word) :
    ∀ f ∈ d.fields, bits ((s.storeFields off val).word off).toNat f.1 f.2.1 =
      fieldAfter (s.rdB F.HIF_CTRL_FEATURES_OK || s.rdB F.HIF_STATUS_RUNNING) f.2.2 (bits (s.word off).toNat f.1 f.2.1)
        (bits val.toNat f.1 f.2.1) := by
  obtain ⟨hlt, hapart⟩ := regFind_fieldsOk h
  intro f hf
  simp only [State.storeFields, h]
  rw [State.word_setWord_same, BitVec.toNat_ofNat, Nat.mod_eq_of_lt (foldl_writeField_lt _ _ (s.word off).isLt hlt)]
  exact bits_foldl_writeField _ _ _ hapart f hf

theorem plainOffset_iff {off : Nat} : plainOffset off = true ↔
    (0x10020 ≤ off ∧ off < 0x10030) ∨ (0x20000 ≤ off ∧ off < 0x20040) ∨ (0x21000 ≤ off ∧ off < 0x21800) ∨
      (0xC0004 ≤ off ∧ off < 0xD0000 ∧ off ≠ 0xC0018) ∨ (0xD0004 ≤ off ∧ off < 0xE0000) := by
  simp [plainOffset, or_assoc, and_assoc]

/-- A write to these registers triggers nothing. -/
theorem State.writeReg_plain {off : Nat} (h : plainOffset off = true) (s : State) (val : Word) :
    s.writeReg off val = s.storeFields off val := by
  rcases plainOffset_iff.1 h with h | h | h | h | h
  · rw [State.writeReg_hif (by omega), State.writeHif, if_neg (by omega), if_neg (by omega), if_neg (by omega), if_neg (by omega)]
  · rw [State.writeReg_evt (by omega), State.writeEvt, if_neg (by omega), if_neg (by omega)]
  · rw [State.writeReg_evt (by omega), State.writeEvt, if_neg (by omega), if_neg (by omega)]
  · rw [State.writeReg_cmp (by omega), State.writeCmp, if_neg (by omega), if_neg (by omega)]
  · rw [State.writeReg_scn (by omega), State.writeScn, if_neg (by omega)]

/-- Settles O11: such a write only stores, and storing takes the fields of the register one by one. -/
theorem plainRegisterWritesFollowTheirAccessTypes : Obligations.PlainRegisterWritesFollowTheirAccessTypes := by
  unfold Obligations.PlainRegisterWritesFollowTheirAccessTypes
  intro off val s ho ha hp
  have hx : off < 0xF00000 := by
    have := plainOffset_iff.1 hp
    omega
  have he : exec (.registerWrite off val) s = .next (s.storeFields off val) := by
    rw [exec_pos (exec_registerWrite val s ha (cxlOffset_eq_false hx)) ho, State.writeReg_plain hp]
  refine ⟨fun d hd => ⟨_, he, s.storeFields_regsOnly off val, State.storeFields_fields hd s val⟩, fun hn => ?_⟩
  rw [he, State.storeFields_none hn]

/-! ## Reads (R459, R466) -/

/-- An aligned read of BAR0 by a module that is awake. -/
theorem exec_loRegisterRead {off : Nat} {s : State} (hs : s.awake = true) (ha : off % 4 = 0) (hx : off < 0x1000000) :
    exec (.loRegisterRead off) s = .next (s.readCapture off) :=
  exec_pos rfl (by simp [hs, ha, hx])

/-- The `_LO` registers lie in the blocks of Table 20-1. -/
theorem isLo_lt {off : Nat} (h : isLo off = true) : off < 0xE0000 := by
  simp only [isLo, Bool.or_eq_true, Bool.and_eq_true, decide_eq_true_eq, List.contains_iff_mem] at h
  rcases h with (h | h) | h
  · revert off
    decide
  · omega
  · omega

/-- A read of a register that is no `_LO` and whose value no `_LO` captured answers what it holds. -/
theorem State.readCapture_plain {off : Nat} {s : State} (hl : isLo off = false)
    (hc : ∀ c ∈ s.hif.hiCap, ¬(c.1 = off / 0x10000 ∧ c.2.1 = off)) : s.readCapture off = s.emit (.regData (s.readReg off)) := by
  have hf : s.hif.hiCap.find? (fun c => c.1 == off / 0x10000 && c.2.1 == off) = none :=
    List.find?_eq_none.2 fun c h => by simpa using hc c h
  simp only [State.readCapture, hl, hf, Bool.false_eq_true, if_false]

/-- What a block's captures are once the register at `off` has captured its partner with value `v`. -/
def captured (off : Nat) (v : Word) (l : List (Nat × Nat × Word)) : List (Nat × Nat × Word) :=
  (off / 0x10000, off + 4, v) :: l.filter fun c => c.1 != off / 0x10000

/-- A read of a `_LO` register answers its value and captures its partner. -/
theorem State.readCapture_lo {off : Nat} {s : State} (hl : isLo off = true) :
    s.readCapture off = { s with out := .regData (s.readReg off) :: s.out
                                 hif := { s.hif with hiCap := captured off (s.readReg (off + 4)) s.hif.hiCap } } := by
  simp only [State.readCapture, hl, if_true]
  rfl

/-- The next read of the partner answers the captured value. -/
theorem State.readCapture_hi {off : Nat} {v : Word} {l : List (Nat × Nat × Word)} {s : State} (hl : isLo (off + 4) = false)
    (hb : off / 0x10000 = (off + 4) / 0x10000) (hc : s.hif.hiCap = captured off v l) :
    (s.readCapture (off + 4)).out = .regData v :: s.out := by
  have hf : s.hif.hiCap.find? (fun c => c.1 == (off + 4) / 0x10000 && c.2.1 == off + 4) = some (off / 0x10000, off + 4, v) := by
    rw [hc, captured, List.find?_cons_of_pos (by simp [hb])]
  simp only [State.readCapture, hl, hf, Bool.false_eq_true, if_false]
  rfl

/-- Settles O12: a read is `readCapture`, and what a `_LO` captures is found first at the next read of its partner. -/
theorem readsAndOtherAccesses : Obligations.ReadsAndOtherAccesses := by
  unfold Obligations.ReadsAndOtherAccesses
  refine ⟨fun off size w s h => ?_, fun off s hs ha hx hl hc => ?_, fun off s hs ha hl => ?_⟩
  · exact exec_neg rfl h
  · rw [exec_loRegisterRead hs ha hx, State.readCapture_plain hl hc]
    rfl
  · have hx := isLo_lt hl
    refine ⟨_, (exec_loRegisterRead hs ha (by omega)).trans (congrArg _ (State.readCapture_lo hl)), rfl, rfl, rfl, ?_⟩
    intro u hu hcap hh hb
    exact ⟨_, exec_loRegisterRead hu (by omega) (by omega), State.readCapture_hi hh hb hcap⟩

end Sys2Proof.Machine
end

section
/-!
PROOFS. Serial numbers: how wrapping counts compare (R36, R37).
-/
namespace Sys2Proof.Machine

/-- The count of steps from `a` up to `b`, modulo the range. -/
theorem serialSteps {N a b : Nat} (ha : a < N) (hb : b < N) :
    (b + N - a % N) % N = if a ≤ b then b - a else b + N - a := by
  rw [Nat.mod_eq_of_lt ha]
  split
  · rw [show b + N - a = b - a + N by omega, Nat.add_mod_right, Nat.mod_eq_of_lt (by omega)]
  · exact Nat.mod_eq_of_lt (by omega)

/-- The serial distance of two counts in range is their difference, moved by one whole range where it leaves the signed half ranges. -/
theorem serialDelta_cases {n a b : Nat} (hn : 0 < n) (ha : a < 2 ^ n) (hb : b < 2 ^ n) :
    (serialDelta n b a = (b : Int) - a ∨ serialDelta n b a = (b : Int) - a + 2 ^ n ∨ serialDelta n b a = (b : Int) - a - 2 ^ n) ∧
      -2 ^ (n - 1) ≤ serialDelta n b a ∧ serialDelta n b a ≤ 2 ^ (n - 1) - 1 := by
  have hz : ∀ m, (2 : Int) ^ m = ((2 ^ m : Nat) : Int) := fun m => by push_cast; rfl
  have hp : 2 ^ n = 2 * 2 ^ (n - 1) := by rw [← pow_succ', Nat.sub_add_cancel hn]
  unfold serialDelta sext
  rw [Nat.mod_mod, serialSteps ha hb, hz, hz]
  rw [hp] at ha hb ⊢
  generalize 2 ^ (n - 1) = H at *
  dsimp only
  split <;> split <;> omega

/-- A comparison uses the serial distance, but 0 half the range apart (R37). -/
theorem serialDist_eq (n b a : Nat) :
    serialDist n b a = if serialDelta n b a = -2 ^ (n - 1) then 0 else serialDelta n b a := by
  unfold serialDist
  push_cast
  rfl

/-- The distance is the difference modulo the range. -/
theorem serialDelta_mod {n a b : Nat} (hn : 0 < n) (ha : a < 2 ^ n) (hb : b < 2 ^ n) :
    (serialDelta n b a - ((b : Int) - a)) % 2 ^ n = 0 := by
  rcases (serialDelta_cases hn ha hb).1 with h | h | h <;> rw [h] <;> simp

/-- Counts in range at distance 0 are equal. -/
theorem serialDelta_eq_zero_iff {n a b : Nat} (hn : 0 < n) (ha : a < 2 ^ n) (hb : b < 2 ^ n) : serialDelta n b a = 0 ↔ b = a := by
  have hz : (2 : Int) ^ n = ((2 ^ n : Nat) : Int) := by push_cast; rfl
  have h := serialDelta_cases hn ha hb
  rw [hz] at h
  have hr : (2 : Int) ^ (n - 1) * 2 = ((2 ^ n : Nat) : Int) := by rw [← pow_succ, Nat.sub_add_cancel hn, hz]
  generalize 2 ^ n = N at *
  omega

/-- Settles O60: the distance is the difference modulo the range within the signed range, and a comparison reads its sign. -/
theorem serialNumbersCompareByDistance : Obligations.SerialNumbersCompareByDistance := by
  unfold Obligations.SerialNumbersCompareByDistance
  intro n a b hn ha hb
  obtain ⟨-, hlo, hhi⟩ := serialDelta_cases hn ha hb
  have hpos : (0 : Int) < 2 ^ (n - 1) := by positivity
  refine ⟨serialDelta_mod hn ha hb, hlo, hhi, ?_, fun h => ?_, fun h => ?_, ?_, serialDelta_eq_zero_iff hn ha hb⟩
  · rw [serialLater, decide_eq_true_iff, serialDist_eq]
    split <;> omega
  · rw [serialDist_eq, if_pos h]
  · rw [serialDist_eq, if_neg h]
  · rw [serialDist_eq]
    split <;> omega

end Sys2Proof.Machine
end

section
/-!
PROOFS. Hop messages (chapter 13): belay credit, forwarding, presents and alarms on the rope.
-/
namespace Sys2Proof.Machine

/-! ## One pitch of the two -/

theorem otherPort_ne (p : Port) : p.other ≠ p := by cases p <;> decide

theorem State.pitch_modPitch_same (s : State) (p : Port) (f : Pitch → Pitch) : (s.modPitch p f).pitch p = f (s.pitch p) := by
  cases p <;> rfl

theorem State.pitch_modPitch_ne (s : State) {p q : Port} (f : Pitch → Pitch) (h : q ≠ p) : (s.modPitch p f).pitch q = s.pitch q := by
  cases p with
  | up => cases q with
    | up => exact absurd rfl h
    | dn => rfl
  | dn => cases q with
    | up => rfl
    | dn => exact absurd rfl h

theorem State.modPitch_modPitch (s : State) (p : Port) (f g : Pitch → Pitch) :
    (s.modPitch p f).modPitch p g = s.modPitch p fun q => g (f q) := by
  cases p <;> rfl

/-! ## What a message on the rope may change -/

/-- From `s` to `t` only the rope, the lanes and what has left the device change. -/
def WireOnly (s t : State) : Prop := t = { s with out := t.out, lanes := t.lanes, rope := t.rope }

theorem WireOnly.refl (s : State) : WireOnly s s := rfl

theorem WireOnly.trans {s t u : State} (h : WireOnly s t) (k : WireOnly t u) : WireOnly s u := by
  unfold WireOnly at *
  rw [k, h]

theorem WireOnly.regs {s t : State} (h : WireOnly s t) : t.regs = s.regs := by rw [h]
theorem WireOnly.tim {s t : State} (h : WireOnly s t) : t.tim = s.tim := by rw [h]
theorem WireOnly.rd {s t : State} (h : WireOnly s t) (f : Fld) : t.rd f = s.rd f := by rw [h]; rfl
theorem WireOnly.departPs {s t : State} (h : WireOnly s t) (p : Port) (l lead : Nat) : t.departPs p l lead = s.departPs p l lead := by
  rw [h]; rfl

theorem State.modPitch_wire (s : State) (p : Port) (f : Pitch → Pitch) : WireOnly s (s.modPitch p f) := by cases p <;> rfl

theorem State.ropeOut_wire (s : State) (p : Port) (l : Nat) (msg : List Byte) : WireOnly s (s.ropeOut p l msg) := by
  unfold State.ropeOut
  split <;> rfl

theorem State.freeBlocks_wire (s : State) (p : Port) (mail : Bool) (b : Nat) : WireOnly s (s.freeBlocks p mail b) :=
  s.modPitch_wire p _

theorem State.modPitch_out (s : State) (p : Port) (f : Pitch → Pitch) : (s.modPitch p f).out = s.out := by cases p <;> rfl

/-- A change of a pitch is the same whatever the rest of the state is. -/
theorem State.modPitch_rope {s t : State} (p : Port) (f : Pitch → Pitch) (h : t.rope = s.rope) :
    (t.modPitch p f).rope = (s.modPitch p f).rope := by
  cases p <;> simp only [State.modPitch, h]

theorem State.ropeOut_rope (s : State) (p : Port) (l : Nat) (msg : List Byte) : (s.ropeOut p l msg).rope = s.rope := by
  unfold State.ropeOut
  split <;> rfl

/-- What leaves with a message: the message, where its lane sends blocks. -/
theorem State.ropeOut_out (s : State) (p : Port) (l : Nat) (msg : List Byte) :
    (s.ropeOut p l msg).out = if s.txLive (p.lane0 + l) = true then .rope p l msg :: s.out else s.out := by
  unfold State.ropeOut
  split <;> rfl

/-! ## Belay (R350, R351) -/

/-- The class number a BELAY names, as the index of its counts. -/
theorem b2n_beq_one {c : Nat} (h : c < 2) : b2n (c == 1) = c := by
  interval_cases c <;> rfl

/-- A BELAY on which no block was lost only returns credit. -/
theorem State.onBelay_kept {s : State} {p : Port} {msg : List Byte} (hc : byteAt msg 1 < 2)
    (hl : serialDist 24 (leAt msg 2 3) ((s.pitch p).recv.getD (byteAt msg 1) 0) ≤ 0) :
    s.onBelay p msg = s.modPitch p fun q => { q with peerFreed := q.peerFreed.set (byteAt msg 1) (leAt msg 5 3) } := by
  simp only [State.onBelay, if_neg (Nat.not_le.2 hc), State.pitch_modPitch_same, if_neg (Int.not_lt.2 hl)]

/-- Blocks that were lost count as received and freed. -/
theorem State.onBelay_lost {s : State} {p : Port} {msg : List Byte} (hc : byteAt msg 1 < 2)
    (hl : 0 < serialDist 24 (leAt msg 2 3) ((s.pitch p).recv.getD (byteAt msg 1) 0)) :
    s.onBelay p msg = s.modPitch p fun q => { q with
      peerFreed := q.peerFreed.set (byteAt msg 1) (leAt msg 5 3), recv := q.recv.set (byteAt msg 1) (leAt msg 2 3)
      freed := q.freed.modify (byteAt msg 1) fun n =>
        (n + (serialDist 24 (leAt msg 2 3) ((s.pitch p).recv.getD (byteAt msg 1) 0)).toNat) % 2 ^ 24
      belayDue := q.belayDue.set (byteAt msg 1) true } := by
  simp only [State.onBelay, if_neg (Nat.not_le.2 hc), State.pitch_modPitch_same, if_pos hl, State.freeBlocks, b2n_beq_one hc,
    State.modPitch_modPitch]

/-- A BELAY of a class leaves on the lane that carries it. -/
theorem State.sendBelay_carried {s : State} {p : Port} {mail : Bool} {l : Nat} (h : s.carryLane p mail = some l) :
    s.sendBelay p mail = (s.ropeOut p l (leBytes 0x53 1 ++ leBytes (b2n mail) 1 ++
      leBytes ((s.pitch p).sent.getD (b2n mail) 0) 3 ++ leBytes ((s.pitch p).freed.getD (b2n mail) 0) 3)).modPitch p
        fun q => { q with belayDue := q.belayDue.set (b2n mail) false } := by
  simp only [State.sendBelay, h]

/-! ## A message that starts (R342, R350, R381) -/

/-- The pitch once a message of it has left the queue and its blocks are counted. -/
def Pitch.started (m : HopMsg) (q : Pitch) : Pitch :=
  { q with txq := q.txq.erase m, sent := q.sent.modify (b2n m.mail) fun n => (n + m.blocks) % 2 ^ 24 }

/-- The buffer a forwarded message held is free. -/
def State.freeSource (s : State) (m : HopMsg) : State :=
  match m.src with
  | some o => s.freeBlocks o m.mail m.blocks
  | none => s

/-- The timestamp a message asked for is queued. -/
def State.stampHop (s : State) (p : Port) (l : Nat) (m : HopMsg) (lead : Nat) : State :=
  match m.ts with
  | some (kind, key, ident) => s.tsqPush ⟨ident, if p = .up then 0 else 1, kind, quarters (s.departPs p l lead), key⟩
  | none => s

theorem State.freeSource_wire (s : State) (m : HopMsg) : WireOnly s (s.freeSource m) := by
  unfold State.freeSource
  split
  · exact s.freeBlocks_wire _ _ _
  · exact .refl s

theorem State.freeSource_out (s : State) (m : HopMsg) : (s.freeSource m).out = s.out := by
  unfold State.freeSource
  split
  · exact s.modPitch_out _ _
  · rfl

theorem State.freeSource_rope {s t : State} (m : HopMsg) (h : t.rope = s.rope) : (t.freeSource m).rope = (s.freeSource m).rope := by
  unfold State.freeSource
  split
  · exact State.modPitch_rope _ _ h
  · exact h

/-- The oldest message of a class that may start leaves. -/
theorem State.tryHop_starts {s : State} {p : Port} {mail : Bool} {l lead : Nat} {m : HopMsg}
    (hm : (s.pitch p).txq.find? (fun m => m.mail == mail) = some m) (hl : s.carryLane p mail = some l) (hc : s.hopCanStart p m = true) :
    s.tryHop p mail lead = (s.modPitch p fun q => { q with txq := q.txq.erase m }).startHop p l m lead := by
  simp only [State.tryHop, hm, hl, hc, if_true]

/-- A message that starts is on the wire, counted, its buffer freed, and then its timestamp taken. -/
theorem State.startHop_eq (s : State) (p : Port) (l : Nat) (m : HopMsg) (lead : Nat) :
    s.startHop p l m lead = ((((s.ropeOut p l m.bytes).modPitch p fun q =>
      { q with sent := q.sent.modify (b2n m.mail) fun n => (n + m.blocks) % 2 ^ 24 }).freeSource m).stampHop p l m lead) := rfl

/-- Everything a message that starts does before its timestamp. -/
theorem State.tryHop_eq {s : State} {p : Port} {mail : Bool} {l lead : Nat} {m : HopMsg}
    (hm : (s.pitch p).txq.find? (fun m => m.mail == mail) = some m) (hl : s.carryLane p mail = some l) (hc : s.hopCanStart p m = true) :
    ∃ u, s.tryHop p mail lead = u.stampHop p l m lead ∧ WireOnly s u ∧ u.rope = ((s.modPitch p (Pitch.started m)).freeSource m).rope ∧
      u.out = if s.txLive (p.lane0 + l) = true then .rope p l m.bytes :: s.out else s.out := by
  refine ⟨_, (State.tryHop_starts hm hl hc).trans (State.startHop_eq ..), ?_, ?_, ?_⟩
  · exact (((s.modPitch_wire p _).trans (State.ropeOut_wire ..)).trans (State.modPitch_wire ..)).trans (State.freeSource_wire ..)
  · refine State.freeSource_rope m ((State.modPitch_rope p _ (State.ropeOut_rope ..)).trans ?_)
    rw [State.modPitch_modPitch]
    rfl
  · rw [State.freeSource_out, State.modPitch_out, State.ropeOut_out, State.modPitch_out]
    cases p <;> rfl

theorem State.tsqPush_rope (s : State) (e : TsqEntry) : (s.tsqPush e).rope = s.rope := by
  unfold State.tsqPush
  split
  · rfl
  · exact State.raise_rope _ _

theorem State.tsqPush_out (s : State) (e : TsqEntry) : ∃ later, (s.tsqPush e).out = later ++ s.out := by
  unfold State.tsqPush
  split
  · exact ⟨[], rfl⟩
  · exact (State.raise_events _ _).sent

theorem State.stampHop_rope (s : State) (p : Port) (l : Nat) (m : HopMsg) (lead : Nat) : (s.stampHop p l m lead).rope = s.rope := by
  unfold State.stampHop
  split
  · exact s.tsqPush_rope _
  · rfl

theorem State.stampHop_out (s : State) (p : Port) (l : Nat) (m : HopMsg) (lead : Nat) :
    ∃ later, (s.stampHop p l m lead).out = later ++ s.out := by
  unfold State.stampHop
  split
  · exact s.tsqPush_out _
  · exact ⟨[], rfl⟩

/-- A timestamp asked for joins a queue that has room. -/
theorem State.stampHop_tsq {s : State} {p : Port} {l lead : Nat} {m : HopMsg} {kind key ident : Nat} (hm : m.ts = some (kind, key, ident))
    (hr : s.tim.tsq.length < 16) : (s.stampHop p l m lead).tim.tsq = s.tim.tsq ++
      [⟨ident, if p = .up then 0 else 1, kind, quarters (s.departPs p l lead), key⟩] := by
  simp only [State.stampHop, hm, State.tsqPush, hr, if_true]

theorem State.stampHop_none {s : State} {p : Port} {l lead : Nat} {m : HopMsg} (hm : m.ts = none) : s.stampHop p l m lead = s := by
  simp only [State.stampHop, hm]

/-! ## Forwarding (R341) -/

/-- A pitch with one more message in its queue. -/
def Pitch.queued (m : HopMsg) (q : Pitch) : Pitch := { q with txq := q.txq ++ [m] }

/-- A message for a pitch in UP joins its queue. -/
theorem State.queueHop_up {s : State} {p : Port} (h : s.pitchUp p = true) (m : HopMsg) :
    s.queueHop p m = s.modPitch p (Pitch.queued m) := by
  simp only [State.queueHop, h, if_true]
  rfl

/-- A forwarded message other than a mail that goes nowhere only frees its buffer. -/
theorem State.queueHop_down {s : State} {p o : Port} (h : s.pitchUp p = false) {m : HopMsg} (hm : m.mail = false) (ho : m.src = some o) :
    s.queueHop p m = s.freeBlocks o m.mail m.blocks := by
  simp only [State.queueHop, h, State.dropHop, hm, ho, Bool.false_eq_true, if_false]

/-- A message this tile made itself that goes nowhere leaves no trace. -/
theorem State.queueHop_own {s : State} {p : Port} (h : s.pitchUp p = false) {m : HopMsg} (hm : m.mail = false) (ho : m.src = none) :
    s.queueHop p m = s := by
  simp only [State.queueHop, h, State.dropHop, hm, ho, Bool.false_eq_true, if_false]

theorem State.pitchUp_modPitch (s : State) (p q : Port) (f : Pitch → Pitch) : (s.modPitch p f).pitchUp q = s.pitchUp q := by
  cases p <;> rfl

/-- Forwarding a message that is no mail. -/
theorem State.forwardHop_forwarded (s : State) (p : Port) {msg : List Byte} (h : byteAt msg 0 ≠ 0x5C) :
    Forwarded s p msg (s.forwardHop p msg) ∧ s.forwardHop p msg = { s with rope := (s.forwardHop p msg).rope } := by
  have hm : (byteAt msg 0 == 0x5C) = false := beq_eq_false_iff_ne.2 h
  have hu : (s.recvHop p msg).pitchUp p.other = s.pitchUp p.other := s.pitchUp_modPitch _ _ _
  unfold Forwarded State.forwardHop
  cases hp : s.pitchUp p.other with
  | true =>
    rw [State.queueHop_up (hu.trans hp)]
    unfold State.recvHop State.countRecv
    refine ⟨⟨fun _ => ⟨?_, ?_⟩, fun hf => by cases hf⟩, ?_⟩
    · rw [State.pitch_modPitch_ne _ _ (otherPort_ne p).symm, State.pitch_modPitch_same]
      rfl
    · rw [State.pitch_modPitch_same, State.pitch_modPitch_ne _ _ (otherPort_ne p)]
      rfl
    · cases p <;> rfl
  | false =>
    rw [State.queueHop_down (hu.trans hp) hm rfl]
    unfold State.recvHop State.countRecv State.freeBlocks
    rw [State.modPitch_modPitch]
    refine ⟨⟨fun hf => by (cases hf), fun _ => ⟨?_, ?_⟩⟩, ?_⟩
    · rw [State.pitch_modPitch_ne _ _ (otherPort_ne p)]
    · rw [State.pitch_modPitch_same]
      rfl
    · cases p <;> rfl

/-- Forwarding speaks of the rope only. -/
theorem forwarded_of_rope {s t u : State} {p : Port} {msg : List Byte} (h : Forwarded s p msg t) (hr : u.rope = t.rope) :
    Forwarded s p msg u := by
  have hp : ∀ q, u.pitch q = t.pitch q := fun q => by cases q <;> simp only [State.pitch, hr]
  unfold Forwarded at *
  simp only [hp]
  exact h

/-! ## A broadcast (R341, R357) -/

theorem WireOnly.words {s t : State} (h : WireOnly s t) (offs : List Nat) : WordsKept offs s t := fun _ _ _ => by rw [h]; rfl

/-- A timestamp writes TIM_TSQ_INFO at most. -/
theorem State.tsqPush_wordsKept (s : State) (e : TsqEntry) : WordsKept [0x70084] s (s.tsqPush e) := by
  unfold State.tsqPush
  split
  · exact WordsKept.refl s _
  · exact (State.wrB_regsOnly s F.TIM_TSQ_INFO_OVF true).words.trans (State.raise_wordsKept _ _ [])

theorem State.stampHop_wordsKept (s : State) (p : Port) (l : Nat) (m : HopMsg) (lead : Nat) :
    WordsKept [0x70084] s (s.stampHop p l m lead) := by
  unfold State.stampHop
  split
  · exact s.tsqPush_wordsKept _
  · exact WordsKept.refl s _

theorem State.tryHop_wordsKept (s : State) (p : Port) (mail : Bool) (lead : Nat) : WordsKept [0x70084] s (s.tryHop p mail lead) := by
  cases hm : (s.pitch p).txq.find? fun m => m.mail == mail with
  | none => simp only [State.tryHop, hm]; exact WordsKept.refl s _
  | some m =>
    cases hl : s.carryLane p mail with
    | none => simp only [State.tryHop, hm, hl]; exact WordsKept.refl s _
    | some l =>
      cases hc : s.hopCanStart p m with
      | false => simp only [State.tryHop, hm, hl, hc, Bool.false_eq_true, if_false]; exact WordsKept.refl s _
      | true =>
        obtain ⟨u, he, hw, -⟩ := State.tryHop_eq (lead := lead) hm hl hc
        rw [he]
        exact (hw.words []).trans (u.stampHop_wordsKept p l m lead)

/-- Nothing starts on a pitch that is not UP. -/
theorem State.tryHop_down {s : State} {p : Port} (h : s.pitchUp p = false) (mail : Bool) (lead : Nat) : s.tryHop p mail lead = s := by
  have hc : ∀ m, s.hopCanStart p m = false := fun m => by simp only [State.hopCanStart, h, Bool.false_and]
  unfold State.tryHop
  split
  · rfl
  · split
    · rw [hc, if_neg Bool.false_ne_true]
    · rfl

/-- A message of this tile's own that is no mail. -/
structure OwnHop (m : HopMsg) : Prop where
  mail : m.mail = false
  src : m.src = none

theorem State.queueHop_wire (s : State) (p : Port) {m : HopMsg} (hm : OwnHop m) : WireOnly s (s.queueHop p m) := by
  cases h : s.pitchUp p with
  | true => rw [State.queueHop_up h]; exact s.modPitch_wire p _
  | false => rw [State.queueHop_own h hm.mail hm.src]; exact .refl s

theorem State.originate_wordsKept (s : State) (p : Port) {m : HopMsg} (hm : OwnHop m) : WordsKept [0x70084] s (s.originate p m) :=
  ((s.queueHop_wire p hm).words []).trans (State.tryHop_wordsKept _ p m.mail _)

/-- A message for a pitch that is not UP goes nowhere. -/
theorem State.originate_down {s : State} {p : Port} (h : s.pitchUp p = false) {m : HopMsg} (hm : OwnHop m) :
    s.originate p m = s.drawn 1 := by
  rw [State.originate, State.queueHop_own h hm.mail hm.src, State.tryHop_down h]

theorem State.carryLane_modPitch (s : State) (p : Port) (f : Pitch → Pitch) (mail : Bool) :
    (s.modPitch p f).carryLane p mail = s.carryLane p mail := by cases p <;> rfl

theorem State.txLive_modPitch (s : State) (p : Port) (f : Pitch → Pitch) (n : Nat) : (s.modPitch p f).txLive n = s.txLive n := by
  cases p <;> rfl

/-- A control message may start on a pitch in UP that is not retraining, with a lane and credit. -/
theorem State.hopCanStart_control {s : State} {p : Port} {l : Nat} {m : HopMsg} (hm : m.mail = false) (hp : s.pitchUp p = true)
    (hr : (s.pitch p).retrain = false) (hl : s.carryLane p false = some l) (hc : (s.pitch p).credit false m.blocks = true) :
    s.hopCanStart p m = true := by
  simp [State.hopCanStart, hm, hp, hr, hl, hc]

/-- A message that finds an idle pitch with credit leaves at once, and only that. -/
theorem State.originate_out {s : State} {p : Port} {l : Nat} {m : HopMsg} (hm : OwnHop m) (hts : m.ts = none)
    (hp : s.pitchUp p = true) (hq : (s.pitch p).txq = []) (hr : (s.pitch p).retrain = false) (hl : s.carryLane p false = some l)
    (hc : (s.pitch p).credit false m.blocks = true) (ht : s.txLive (p.lane0 + l) = true) :
    (s.originate p m).out = .rope p l m.bytes :: s.out := by
  have hpitch : (s.modPitch p (Pitch.queued m)).pitch p = { s.pitch p with txq := [m] } := by
    rw [State.pitch_modPitch_same]
    simp only [Pitch.queued, hq, List.nil_append]
  have hfind : ((s.modPitch p (Pitch.queued m)).pitch p).txq.find? (fun x => x.mail == false) = some m := by
    rw [hpitch]
    exact List.find?_cons_of_pos (by simp [hm.mail])
  have hlane := (s.carryLane_modPitch p (Pitch.queued m) false).trans hl
  have hstart : (s.modPitch p (Pitch.queued m)).hopCanStart p m = true :=
    State.hopCanStart_control hm.mail ((s.pitchUp_modPitch p p (Pitch.queued m)).trans hp) (by rw [hpitch]; exact hr) hlane
      (by rw [hpitch]; exact hc)
  obtain ⟨v, he, -, -, hv⟩ := State.tryHop_eq (lead := Config.freeNat s.freeCtr % 4) hfind hlane hstart
  rw [State.txLive_modPitch, if_pos ht, State.modPitch_out] at hv
  rw [State.stampHop_none hts] at he
  rw [State.originate, State.queueHop_up hp, hm.mail, he]
  exact hv

theorem State.takeTs_off {s : State} {kind : Nat} (key : Nat) (h : bitAt (s.word 0x70080).toNat kind = false) :
    s.takeTs kind key = (none, s) := by
  simp only [State.takeTs, h, Bool.false_eq_true, if_false]

theorem State.takeTs_words (s : State) (kind key : Nat) (offs : List Nat) : WordsKept offs s (s.takeTs kind key).2 := by
  unfold State.takeTs
  split <;> exact fun _ _ _ => rfl

theorem State.broadcast_wordsKept (s : State) (type len arg kind key : Nat) (data : List Byte) :
    WordsKept [0x70084] s (s.broadcast type len arg kind key data) := by
  unfold State.broadcast
  split
  · have hm : ∀ b ts, OwnHop ⟨false, b, ts, none⟩ := fun _ _ => ⟨rfl, rfl⟩
    exact (((s.takeTs_words kind key []).trans (State.originate_wordsKept _ .up (hm ..))).trans
      (State.originate_wordsKept _ .dn (hm ..))).mono (by simp)
  · exact WordsKept.refl s _

theorem State.broadcast_none {s : State} (hu : s.pitchUp .up = false) (hd : s.pitchUp .dn = false) (type len arg kind key : Nat)
    (data : List Byte) : s.broadcast type len arg kind key data = s := by
  simp only [State.broadcast, hu, hd, Bool.or_self, Bool.false_eq_true, if_false]

/-- A message that only writes TIM_TSQ_INFO leaves the pitches' states. -/
theorem State.pitchUp_of_kept {s t : State} (h : WordsKept [0x70084] s t) (p : Port) : t.pitchUp p = s.pitchUp p := by
  have hr : t.rd (pf p F.ROPE_UP_STATE_STATE) = s.rd (pf p F.ROPE_UP_STATE_STATE) := by
    cases p <;> exact h.rd (by decide) (by decide)
  simp only [State.pitchUp, State.pitchState, hr]

/-- A hop message without payload is its header. -/
theorem hopHeader_blocks (type src dst flags len arg : Nat) (ts : Option (Nat × Nat × Nat)) (o : Option Port) :
    HopMsg.blocks ⟨false, hopHeader type src dst flags len arg, ts, o⟩ = 1 := by
  simp [HopMsg.blocks, hopHeader, leBytes, ceilDiv]

/-- An alarm of this tile that asks for no timestamp leaves at once on the one pitch that is UP and idle. -/
theorem State.broadcast_out {s : State} {p : Port} {l kind type arg : Nat} (key : Nat) (hts : bitAt (s.word 0x70080).toNat kind = false)
    (hp : s.pitchUp p = true) (ho : s.pitchUp p.other = false) (hq : (s.pitch p).txq = []) (hr : (s.pitch p).retrain = false)
    (hl : s.carryLane p false = some l) (hc : (s.pitch p).credit false 1 = true) (ht : s.txLive (p.lane0 + l) = true) :
    (s.broadcast type 0 arg kind key []).out = .rope p l (hopHeader type s.ropeAddr 0 0 0 arg) :: s.out := by
  have hm : OwnHop ⟨false, hopHeader type s.ropeAddr 0 0 0 arg, none, none⟩ := ⟨rfl, rfl⟩
  have hup : (s.pitchUp .up || s.pitchUp .dn) = true := by cases p <;> simp [hp]
  unfold State.broadcast
  rw [if_pos hup, State.takeTs_off key hts]
  dsimp only
  rw [List.append_nil]
  cases p with
  | up =>
    have hu := State.originate_out hm rfl hp hq hr hl (by rwa [hopHeader_blocks]) ht
    have hd := (State.pitchUp_of_kept (s.originate_wordsKept .up hm) .dn).trans ho
    exact (congrArg State.out (State.originate_down hd hm)).trans hu
  | dn =>
    exact (congrArg (fun u : State => (u.originate .dn _).out) (State.originate_down ho hm)).trans
      (State.originate_out (s := s.drawn 1) hm rfl hp hq hr hl (by rw [hopHeader_blocks]; exact hc) ht)

/-! ## The messages as commands -/

/-- HOP_FORWARD where no alarm of a load shed waits. -/
theorem State.hopForward_unheld {s : State} {p : Port} (h : s.alarmWaits p = false) (mail : Bool) (lead : Nat) :
    s.hopForward p mail lead = s.tryHop p mail lead := by
  simp only [State.hopForward, h, Bool.false_and, Bool.false_eq_true, if_false]

/-- A message that starts, as HOP_FORWARD shows it. -/
theorem hopForward_starts {p : Port} {mail : Bool} {lead l : Nat} {m : HopMsg} {s : State} (ha : s.awake = true)
    (hw : s.alarmWaits p = false) (hm : (s.pitch p).txq.find? (fun m => m.mail == mail) = some m)
    (hl : s.carryLane p mail = some l) (hc : s.hopCanStart p m = true) :
    Gives (.hopForward p mail lead) s fun t => (s.txLive (p.lane0 + l) = true → ∃ later, t.out = later ++ .rope p l m.bytes :: s.out) ∧
      t.rope = ((s.modPitch p (Pitch.started m)).freeSource m).rope ∧
      (∀ kind key ident, m.ts = some (kind, key, ident) → s.tim.tsq.length < 16 → t.tim.tsq = s.tim.tsq ++
        [⟨ident, if p = .up then 0 else 1, kind, quarters (s.departPs p l lead), key⟩]) ∧ (m.ts = none → t.tim = s.tim) := by
  obtain ⟨u, he, hu, hrope, hout⟩ := State.tryHop_eq (lead := lead) hm hl hc
  refine gives_pos rfl ha ?_
  rw [State.hopForward_unheld hw, he]
  refine ⟨fun ht => ?_, (State.stampHop_rope ..).trans hrope, fun kind key ident hts hr => ?_, fun hts => ?_⟩
  · obtain ⟨later, hlater⟩ := u.stampHop_out p l m lead
    exact ⟨later, by rw [hlater, hout, if_pos ht]⟩
  · rw [← hu.tim] at hr
    rw [State.stampHop_tsq hts hr, hu.tim, hu.departPs]
  · rw [State.stampHop_none hts, hu.tim]

/-- ROPE_ALARM_LAST after an alarm: its source and code, valid, and overflowed where it was valid before. -/
def State.recordAlarm (s : State) (msg : List Byte) : State :=
  (((if s.rdB F.ROPE_ALARM_LAST_VALID then s.wrB F.ROPE_ALARM_LAST_OVF true else s).wrB F.ROPE_ALARM_LAST_VALID true).wr
    F.ROPE_ALARM_LAST_SRC (byteAt msg 1)).wr F.ROPE_ALARM_LAST_CODE (byteAt msg 6)

theorem State.onAlarm_eq (s : State) (p : Port) (msg : List Byte) :
    s.onAlarm p msg = ((s.forwardHop p msg).recordAlarm msg).raise Ev.ROPE_ALARM_RX := rfl

theorem byteAt_lt (msg : List Byte) (i : Nat) : byteAt msg i < 2 ^ 8 := (msg.getD i 0).isLt

theorem State.recordAlarm_regsOnly (s : State) (msg : List Byte) : RegsOnly [0x80024] s (s.recordAlarm msg) := by
  have h : RegsOnly [0x80024] s (if s.rdB F.ROPE_ALARM_LAST_VALID then s.wrB F.ROPE_ALARM_LAST_OVF true else s) := by
    split
    · exact s.wrB_regsOnly _ _
    · exact RegsOnly.refl s _
  exact (((h.trans (State.wrB_regsOnly _ _ _)).trans (State.wr_regsOnly _ _ _)).trans (State.wr_regsOnly _ _ _)).mono (by decide)

theorem State.recordAlarm_fields (s : State) (msg : List Byte) :
    (s.recordAlarm msg).rd F.ROPE_ALARM_LAST_SRC = byteAt msg 1 ∧ (s.recordAlarm msg).rd F.ROPE_ALARM_LAST_CODE = byteAt msg 6 ∧
      (s.recordAlarm msg).rd F.ROPE_ALARM_LAST_VALID = 1 ∧ (s.recordAlarm msg).rd F.ROPE_ALARM_LAST_OVF =
        if s.rd F.ROPE_ALARM_LAST_VALID = 1 then 1 else s.rd F.ROPE_ALARM_LAST_OVF := by
  unfold State.recordAlarm
  refine ⟨?_, ?_, ?_, ?_⟩
  · rw [State.rd_wr_ne _ _ _ _ (by decide) (by decide), State.rd_wr_same _ _ _ (by decide)]
    exact Nat.mod_eq_of_lt (byteAt_lt msg 1)
  · rw [State.rd_wr_same _ _ _ (by decide)]
    exact Nat.mod_eq_of_lt (byteAt_lt msg 6)
  · rw [State.rd_wr_ne _ _ _ _ (by decide) (by decide), State.rd_wr_ne _ _ _ _ (by decide) (by decide), State.wrB,
      State.rd_wr_same _ _ _ (by decide)]
    rfl
  · rw [State.rd_wr_ne _ _ _ _ (by decide) (by decide), State.rd_wr_ne _ _ _ _ (by decide) (by decide), State.wrB,
      State.rd_wr_ne _ _ _ _ (by decide) (by decide)]
    simp only [State.rdB, beq_iff_eq]
    split
    · exact State.rd_wr_same _ _ _ (by decide)
    · rfl

/-- An alarm is recorded, announced and forwarded. -/
theorem alarm_recorded {p : Port} {msg : List Byte} {s : State} (hp : s.pitchUp p = true) (hb : byteAt msg 0 = 0x5B)
    (ha : s.awake = true) : Gives (.alarm p msg) s fun t => Forwarded s p msg t ∧ t.rd F.ROPE_ALARM_LAST_SRC = byteAt msg 1 ∧
      t.rd F.ROPE_ALARM_LAST_CODE = byteAt msg 6 ∧ t.rd F.ROPE_ALARM_LAST_VALID = 1 ∧
      t.rd F.ROPE_ALARM_LAST_OVF = (if s.rd F.ROPE_ALARM_LAST_VALID = 1 then 1 else s.rd F.ROPE_ALARM_LAST_OVF) ∧
      Raised Ev.ROPE_ALARM_RX t ∧ WordsKept [0x80024] s t := by
  obtain ⟨hf, he⟩ := s.forwardHop_forwarded p (msg := msg) (by rw [hb]; decide)
  have hkeep := ((s.forwardHop p msg).recordAlarm_regsOnly msg)
  obtain ⟨hsrc, hcode, hvalid, hovf⟩ := (s.forwardHop p msg).recordAlarm_fields msg
  have hrd : ∀ f, (s.forwardHop p msg).rd f = s.rd f := fun f => by rw [he]; rfl
  have hwords : WordsKept [] s (s.forwardHop p msg) := fun _ _ _ => by rw [he]; rfl
  have hev : ((s.forwardHop p msg).recordAlarm msg).hasEvents = true := by
    rw [hkeep.1, he]
    exact State.hasEvents_of_awake ha
  refine gives_pos rfl hp ?_
  rw [State.onAlarm_eq]
  refine ⟨forwarded_of_rope hf (by rw [State.raise_rope, hkeep.1]), ?_, ?_, ?_, ?_, State.raised _ (by decide) hev,
    (hwords.trans hkeep.words).trans (State.raise_wordsKept _ _ [])⟩
  · exact (State.raise_rd _ _ (by decide)).trans hsrc
  · exact (State.raise_rd _ _ (by decide)).trans hcode
  · exact (State.raise_rd _ _ (by decide)).trans hvalid
  · rw [State.raise_rd _ _ (by decide), hovf, hrd, hrd]

/-- A PRESENT message enters the latch logic and is forwarded. -/
theorem presentMessage_enters {p : Port} {msg : List Byte} {s : State} (hp : s.pitchUp p = true) (hb : byteAt msg 0 = 0x5A) :
    Gives (.presentMessage p msg) s fun t => Forwarded s p msg t ∧ t.scn = { s.scn with presents := s.scn.presents ++
      [⟨beAt msg 8 6 * 1000000000 + beAt msg 16 4 % 2 ^ 30, beAt msg 20 4, none, s.scn.missT,
        s.scn.guarded && !s.scn.decided⟩] } ∧ t.regs = s.regs := by
  obtain ⟨hf, he⟩ := s.forwardHop_forwarded p (msg := msg) (by rw [hb]; decide)
  refine gives_pos rfl hp ⟨forwarded_of_rope hf rfl, ?_, ?_⟩
  · unfold State.onPresentMsg
    rw [he]
    rfl
  · unfold State.onPresentMsg
    rw [he]
    rfl

/-- ROPE_ALARM_CFG once SW_GO is written with `val`. -/
def State.writeSwGo (s : State) (val : Word) : State :=
  (s.wr F.ROPE_ALARM_CFG_SEND val.toNat).wr F.ROPE_ALARM_CFG_SW_CODE (val.toNat / 256)

theorem State.writeSwGo_regsOnly (s : State) (val : Word) : RegsOnly [0x80020] s (s.writeSwGo val) :=
  ((s.wr_regsOnly F.ROPE_ALARM_CFG_SEND _).trans (State.wr_regsOnly _ F.ROPE_ALARM_CFG_SW_CODE _)).mono (by decide)

theorem State.writeSwGo_send (s : State) (val : Word) : (s.writeSwGo val).rd F.ROPE_ALARM_CFG_SEND = val.toNat % 2 ^ 6 := by
  rw [State.writeSwGo, State.rd_wr_ne _ _ _ _ (by decide) (by decide)]
  exact State.rd_wr_same _ _ _ (by decide)

theorem State.writeSwGo_code (s : State) (val : Word) : (s.writeSwGo val).rd F.ROPE_ALARM_CFG_SW_CODE = val.toNat / 2 ^ 8 % 2 ^ 8 :=
  State.rd_wr_same _ _ _ (by decide)

/-- Beside ROPE_ALARM_CFG, every field reads as before. -/
theorem State.writeSwGo_rd (s : State) (val : Word) {f : Fld} (h : f.off ≠ 0x80020) : (s.writeSwGo val).rd f = s.rd f :=
  State.rd_of_word ((s.writeSwGo_regsOnly val).2 _ (by simpa using h))

theorem State.writeSwGo_pitchUp (s : State) (val : Word) (p : Port) : (s.writeSwGo val).pitchUp p = s.pitchUp p := by
  have h : (s.writeSwGo val).rd (pf p F.ROPE_UP_STATE_STATE) = s.rd (pf p F.ROPE_UP_STATE_STATE) :=
    s.writeSwGo_rd val (by cases p <;> decide)
  simp only [State.pitchUp, State.pitchState, h]

theorem State.writeSwGo_carryLane (s : State) (val : Word) (p : Port) (mail : Bool) :
    (s.writeSwGo val).carryLane p mail = s.carryLane p mail := by
  have h : (s.writeSwGo val).rd (pf p F.ROPE_UP_STATE_LANES) = s.rd (pf p F.ROPE_UP_STATE_LANES) :=
    s.writeSwGo_rd val (by cases p <;> decide)
  simp only [State.carryLane, h]

theorem State.writeSwGo_txLive (s : State) (val : Word) (n : Nat) : (s.writeSwGo val).txLive n = s.txLive n := by
  have h : (s.writeSwGo val).rd (F.LNK_L_CTRL_PRBS_GEN n) = s.rd (F.LNK_L_CTRL_PRBS_GEN n) :=
    s.writeSwGo_rd val (by simp only [F.LNK_L_CTRL_PRBS_GEN]; omega)
  simp only [State.txLive, State.rdB, h]
  rfl

/-- The alarm of SW_GO as it is broadcast. -/
theorem exec_swGo {val : Word} {s : State} (h : s.bar0Open = true) : exec (.swGo val) s =
    .next ((s.writeSwGo val).broadcast 0x5B 0 (max 0x80 (val.toNat / 2 ^ 8 % 2 ^ 8)) 1 (max 0x80 (val.toNat / 2 ^ 8 % 2 ^ 8)) []) := by
  rw [← s.writeSwGo_code val]
  exact exec_pos rfl h

/-- Settles O44: a BELAY settles the counts, a message that may start leaves, and presents and alarms are taken in and forwarded. -/
theorem hopMessagesFlow : Obligations.HopMessagesFlow := by
  unfold Obligations.HopMessagesFlow
  refine ⟨fun p msg s hp hc => ⟨fun hl => ?_, fun hl => ?_⟩, fun p mail l s hp hl => ?_, fun p mail lead l m s ha hw hm hl hc => ?_,
    fun p msg s hp => ⟨presentMessage_enters hp, alarm_recorded hp⟩, fun val s ho => ⟨?_, fun p l hp hd hts hq hr hl hc ht => ?_⟩⟩
  · rw [← State.onBelay_kept hc hl]
    exact exec_pos rfl hp
  · rw [← State.onBelay_lost hc hl]
    exact exec_pos rfl hp
  · refine gives_pos rfl hp ?_
    rw [State.sendBelay_carried hl]
    refine ⟨(State.ropeOut_wire ..).trans (State.modPitch_wire ..), State.modPitch_rope _ _ (State.ropeOut_rope ..), ?_⟩
    rw [State.modPitch_out, State.ropeOut_out]
    rfl
  · obtain ⟨t, he, hout, hrope, htim⟩ := hopForward_starts (lead := lead) ha hw hm hl hc
    have hmail : m.mail = mail := by simpa using List.find?_some hm
    subst hmail
    refine ⟨t, he, hout, hrope.trans ?_, htim⟩
    unfold State.freeSource
    cases m.src <;> rfl
  · have hk := (s.writeSwGo val).broadcast_wordsKept 0x5B 0 (max 0x80 (val.toNat / 2 ^ 8 % 2 ^ 8)) 1 (max 0x80 (val.toNat / 2 ^ 8 % 2 ^ 8)) []
    refine ⟨_, exec_swGo ho, ?_, ?_, fun hu hd => ?_⟩
    · exact (hk.rd (by decide) (by decide)).trans (s.writeSwGo_send val)
    · exact (hk.rd (by decide) (by decide)).trans (s.writeSwGo_code val)
    · rw [State.broadcast_none ((s.writeSwGo_pitchUp val _).trans hu) ((s.writeSwGo_pitchUp val _).trans hd)]
      exact ⟨rfl, s.writeSwGo_regsOnly val⟩
  · refine ⟨_, exec_swGo ho, ?_⟩
    have hword : (s.writeSwGo val).word 0x70080 = s.word 0x70080 := (s.writeSwGo_regsOnly val).2 _ (by decide)
    have haddr : (s.writeSwGo val).ropeAddr = s.ropeAddr := s.writeSwGo_rd val (by decide)
    have hbit : bitAt ((s.writeSwGo val).word 0x70080).toNat 1 = false := by
      rw [hword]
      exact beq_eq_false_iff_ne.2 (by rw [show (s.word 0x70080).toNat / 2 ^ 1 % 2 = 0 from hts]; decide)
    have hpitch : (s.writeSwGo val).pitch p = s.pitch p := by cases p <;> rfl
    refine (State.broadcast_out _ hbit ((s.writeSwGo_pitchUp val p).trans hp) ((s.writeSwGo_pitchUp val _).trans hd)
      (by rwa [hpitch]) (by rwa [hpitch]) ((s.writeSwGo_carryLane val p false).trans hl) (by rwa [hpitch])
      ((s.writeSwGo_txLive val _).trans ht)).trans ?_
    rw [haddr]
    rfl

end Sys2Proof.Machine
end

section
/-!
PROOFS. Row by row synthesis (chapter 5): swath loads, target rows into the ray FIFO, and the fall of e_app.
-/
namespace Sys2Proof.Machine

/-! ## The two dies -/

theorem State.die_setDie_same (s : State) (d : Die) (x : SynDie) : (s.setDie d x).syn.die d = x := by cases d <;> rfl

theorem State.die_setDie_ne (s : State) {d e : Die} (x : SynDie) (h : e ≠ d) : (s.setDie d x).syn.die e = s.syn.die e := by
  cases d with
  | west => cases e with
    | west => exact absurd rfl h
    | east => rfl
  | east => cases e with
    | west => rfl
    | east => exact absurd rfl h

/-- From `s` to `t` the dies' synthesis states are unchanged. -/
structure DiesKept (s t : State) : Prop where
  die : ∀ d, t.syn.die d = s.syn.die d

theorem DiesKept.refl (s : State) : DiesKept s s := ⟨fun _ => rfl⟩

theorem DiesKept.trans {s t u : State} (h : DiesKept s t) (k : DiesKept t u) : DiesKept s u :=
  ⟨fun d => (k.die d).trans (h.die d)⟩

theorem DiesKept.of_syn {s t : State} (h : t.syn = s.syn) : DiesKept s t := ⟨fun _ => by rw [h]⟩

/-- An operation whose mask leaves synthesis alone. -/
theorem DiesKept.of_keeps {P : Nat} {s t : State} (h : Keeps P s t) (hP : P.testBit Part.syn.idx = false) : DiesKept s t :=
  .of_syn (h.same .syn hP)

theorem DiesKept.of_dies {s t : State} (hw : t.syn.west = s.syn.west) (he : t.syn.east = s.syn.east) : DiesKept s t :=
  ⟨fun d => match d with
    | .west => hw
    | .east => he⟩

theorem DiesKept.foldl {α : Type} {f : State → α → State} (h : ∀ s a, DiesKept s (f s a)) (s : State) (l : List α) :
    DiesKept s (l.foldl f s) := by
  induction l generalizing s with
  | nil => exact .refl s
  | cons a l ih => exact (h s a).trans (ih _)

/-- Either way of a choice. -/
theorem DiesKept.ite {s a b : State} {c : Prop} [Decidable c] (ha : DiesKept s a) (hb : DiesKept s b) :
    DiesKept s (if c then a else b) := by
  split <;> assumption

theorem State.synOnce_dies (s : State) (e : Nat) : DiesKept s (s.synOnce e) := by
  unfold State.synOnce
  exact .ite (.refl s) (.trans (.of_dies (t := s.modSyn _) rfl rfl) (.of_syn (State.raise_syn _ _)))

/-- A die's level is all that a level change changes of it, and the other die stays. -/
theorem State.setLevel_die (s : State) (d : Die) (n : Nat) :
    (s.setLevel d n).syn.die d = { s.syn.die d with level := n } ∧ ∀ e, e ≠ d → (s.setLevel d n).syn.die e = s.syn.die e := by
  have h : DiesKept (s.setDie d { s.syn.die d with level := n }) (s.setLevel d n) := by
    unfold State.setLevel
    exact .ite (State.synOnce_dies _ _) (.ite (State.synOnce_dies _ _) (.refl _))
  exact ⟨(h.die d).trans (State.die_setDie_same ..), fun e he => (h.die e).trans (State.die_setDie_ne _ _ he)⟩

theorem State.updateLevel_die (s : State) (d : Die) :
    (∃ level, (s.updateLevel d).syn.die d = { s.syn.die d with level := level }) ∧
      ∀ e, e ≠ d → (s.updateLevel d).syn.die e = s.syn.die e :=
  ⟨⟨_, (s.setLevel_die d _).1⟩, (s.setLevel_die d _).2⟩

/-! ## Swath loads (R146, R147) -/

theorem State.readPlaneRow_dies (s : State) (depth : Bool) (src : RowSrc) (x0 x1 : Int) : DiesKept s (s.readPlaneRow depth src x0 x1) :=
  .of_keeps (State.readPlaneRow_keeps (P := 743) rfl (.refl _ s)) rfl

theorem State.countUnready_dies (s : State) (anchor : Nat) (depth : Bool) (sb : Option Nat) :
    DiesKept s (s.countUnready anchor depth sb) := by
  unfold State.countUnready
  split
  · exact .refl s
  · exact .ite (.refl s) (.trans (.of_dies (t := s.modSyn _) rfl rfl) (.trans (.of_syn (State.bump_syn _ _ _)) (State.synOnce_dies _ _)))

theorem State.loadAnchor_dies (s : State) (anchor : Nat) (r x0 x1 : Int) : DiesKept s (s.loadAnchor anchor r x0 x1).1 :=
  (((s.readPlaneRow_dies false _ x0 x1).trans (State.readPlaneRow_dies _ true _ x0 x1)).trans (State.countUnready_dies ..)).trans
    (State.countUnready_dies ..)

/-- A row load reads one row of cells for each anchor. -/
theorem State.loadAnchors_dies (s : State) (r x0 x1 : Int) (n : Nat) :
    DiesKept s (s.loadAnchors r x0 x1 n).1 ∧ (s.loadAnchors r x0 x1 n).2.length = n := by
  induction n with
  | zero => exact ⟨.refl s, rfl⟩
  | succ n ih =>
    obtain ⟨hd, hl⟩ := ih
    refine ⟨hd.trans (State.loadAnchor_dies ..), ?_⟩
    simp only [State.loadAnchors, List.length_append, List.length_singleton, hl]

/-- A die with a frame and room loads its next anchor row. -/
theorem State.swathLoad_loads {s : State} {d : Die} (hf : s.syn.frame.isSome = true)
    (hr : (s.syn.die d).rows.length < 8 + 2 * s.geo.dv) (hn : (s.syn.die d).nextRow < (s.geo.rows : Int) + s.geo.dv) :
    (∀ e, e ≠ d → (s.swathLoad d).syn.die e = s.syn.die e) ∧ ∃ w : SwathRow,
      (s.swathLoad d).syn.die d = { s.syn.die d with
        rows := (s.syn.die d).rows ++ [w], nextRow := (s.syn.die d).nextRow + 1 } ∧
      w.r = (s.syn.die d).nextRow ∧ w.cells.length = if s.syn.au.isSome then s.gridInUse.length else 0 := by
  unfold State.swathLoad
  dsimp only
  rw [if_pos ⟨hf, hr, hn⟩]
  obtain ⟨hd, hl⟩ := s.loadAnchors_dies (s.syn.die d).nextRow ((s.geo.dieCol d : Int) - s.geo.dh)
    ((s.geo.dieCol d : Int) + (s.geo.cols / 2 : Nat) - 1 + s.geo.dh) (if s.syn.au.isSome then s.gridInUse.length else 0)
  exact ⟨fun e he => (State.die_setDie_ne _ _ he).trans (hd.die e), _, (State.die_setDie_same ..).trans (by rw [hd.die d]), rfl, hl⟩

/-! ## Target rows (R145, R165, R171) -/

/-- What one row of a die makes of every view. -/
def State.rowViews (s : State) (d : Die) : RowAcc := (List.range s.geo.uv).foldl (s.addView d (s.syn.die d).y) ⟨[], 0, 0, 0, []⟩

/-- A die once its row has joined the sections and the anchor rows no longer needed are released. -/
def State.rowMade (s : State) (d : Die) (got : List Nat) : SynDie :=
  { (s.syn.die d).push (s.geo.cols / 2) got (s.rowViews d).views with
    y := (s.syn.die d).y + 1, rows := (s.syn.die d).rows.filter fun w => decide (((s.syn.die d).y : Int) - s.geo.dv < w.r) }

theorem State.frameDone_dies (s : State) : DiesKept s s.frameDone := by
  unfold State.frameDone
  exact .ite (.trans (.of_dies (t := s.modSyn _) rfl rfl) (.of_syn (State.bump_syn _ _ _))) (.refl s)

theorem State.addHoles_dies (s : State) (n : Nat) : DiesKept s (s.modSyn fun y => { y with holes := y.holes + n }) := .of_dies rfl rfl

theorem State.readHold_dies (s : State) (view y x n : Nat) : DiesKept s (s.readHold view y x n) :=
  .of_keeps (State.readHold_keeps (P := 743) rfl (.refl _ s)) rfl

theorem State.writeHold_dies (s : State) (view y x : Nat) (ws : List Nat) : DiesKept s (s.writeHold view y x ws) :=
  .of_keeps (State.writeHold_keeps (P := 743) rfl (.refl _ s)) rfl

theorem State.excessCheck_dies (s : State) : DiesKept s s.excessCheck :=
  .of_keeps (State.excessCheck_keeps (P := 33383) rfl (.refl _ s)) rfl

theorem State.countOnce_dies (s : State) (f : Fld) (n e : Nat) :
    DiesKept s (if n = 0 then s else (s.bump f n).synOnce e) :=
  .ite (.refl s) (.trans (.of_syn (State.bump_syn _ _ _)) (State.synOnce_dies _ _))

/-- A die that has its rows and room makes its row; beyond that only its level may change, and the other die stays. -/
theorem State.synthDie_makes {s : State} {d : Die} (h : s.synReady d = true) (got : List Nat) :
    (∃ level, (s.synthDie d got).syn.die d = { s.rowMade d got with level := level }) ∧
      ∀ e, e ≠ d → (s.synthDie d got).syn.die e = s.syn.die e := by
  have hkept : ∃ u, s.synthDie d got = u.updateLevel d ∧ DiesKept (s.setDie d (s.rowMade d got)) u := by
    unfold State.synthDie
    dsimp only
    rw [h, Bool.not_true, if_neg Bool.false_ne_true]
    refine ⟨_, rfl, ?_⟩
    refine .trans ?_ (State.frameDone_dies _)
    refine .trans ?_ (State.countOnce_dies _ _ _ _)
    refine .trans ?_ (State.countOnce_dies _ _ _ _)
    refine .trans ?_ (State.excessCheck_dies _)
    refine .trans ?_ (.ite (.refl _) (.of_syn (State.wrB_syn _ _ _)))
    refine .trans ?_ (State.addHoles_dies _ _)
    refine .trans ?_ (.foldl (fun s h => s.writeHold_dies _ _ _ _) _ _)
    exact .foldl (fun s v => s.readHold_dies _ _ _ _) _ _
  obtain ⟨u, he, hu⟩ := hkept
  obtain ⟨⟨level, hd⟩, ho⟩ := u.updateLevel_die d
  rw [he]
  refine ⟨⟨level, hd.trans ?_⟩, fun e hne => (ho e hne).trans ((hu.die e).trans (State.die_setDie_ne _ _ hne))⟩
  rw [hu.die d, State.die_setDie_same]

/-! ## What a row holds -/

/-- Every view adds one list of entries. -/
theorem State.addViews_length (s : State) (d : Die) (y : Nat) (l : List Nat) (acc : RowAcc) :
    (l.foldl (s.addView d y) acc).views.length = acc.views.length + l.length := by
  induction l generalizing acc with
  | nil => rfl
  | cons v l ih =>
    rw [List.foldl_cons, ih, List.length_cons]
    simp only [State.addView, List.length_append, List.length_singleton]
    omega

theorem State.rowViews_length (s : State) (d : Die) : (s.rowViews d).views.length = s.geo.uv := by
  rw [State.rowViews, State.addViews_length, List.length_range, List.length_nil, Nat.zero_add]

/-- A view of a row of background colour alone. -/
def State.plainView (s : State) : List Entry := List.replicate (s.geo.cols / 2) (.ray s.bg)

/-- Nothing is hidden while culling is off. -/
theorem State.culls_off {s : State} (h : s.lv F.CMP_CTRL_CULL_EN = 0) (d : Die) (view y i : Nat) : s.culls d view y i = false := by
  simp [State.culls, h]

/-- With nothing presented, nothing replayed and culling off, a view is of background colour. -/
theorem State.addView_plain {s : State} (ha : s.syn.au = none) (hr : s.syn.replay = []) (hc : s.lv F.CMP_CTRL_CULL_EN = 0)
    (d : Die) (y : Nat) (acc : RowAcc) (view : Nat) : (s.addView d y acc view).views = acc.views ++ [s.plainView] := by
  have hrow : ∀ cull, (s.synRow d view y cull).entries = s.plainView := fun cull => by
    simp only [State.synRow, ha, Option.isNone_none, if_true, bgRow, State.culls_off hc, Bool.and_false, Bool.false_eq_true, if_false,
      List.map_const', List.length_range]
    rfl
  have hnot : s.syn.replay.contains view = false := by rw [hr]; rfl
  have hshown : (s.plainView.zipIdx.map fun e => if s.culls d view y e.2 then .culled else e.1) = s.plainView := by
    simp only [State.culls_off hc, Bool.false_eq_true, if_false, List.zipIdx_map_fst]
  simp only [State.addView, hnot, Bool.false_eq_true, if_false, hrow, hshown, ite_self]

theorem State.addViews_plain {s : State} (ha : s.syn.au = none) (hr : s.syn.replay = []) (hc : s.lv F.CMP_CTRL_CULL_EN = 0)
    (d : Die) (y : Nat) (l : List Nat) (acc : RowAcc) (h : ∀ v ∈ acc.views, v = s.plainView) :
    ∀ v ∈ (l.foldl (s.addView d y) acc).views, v = s.plainView := by
  induction l generalizing acc with
  | nil => exact h
  | cons view l ih =>
    refine ih _ ?_
    rw [State.addView_plain ha hr hc]
    simpa [or_imp, forall_and] using h

theorem State.rowViews_plain {s : State} (ha : s.syn.au = none) (hr : s.syn.replay = []) (hc : s.lv F.CMP_CTRL_CULL_EN = 0)
    (d : Die) : ∀ v ∈ (s.rowViews d).views, v = s.plainView :=
  State.addViews_plain ha hr hc d _ _ _ (List.forall_mem_nil _)

theorem lineEntries_length (views : List (List Entry)) (lo n : Nat) : (lineEntries views lo n).length = n * views.length := by
  simp [lineEntries, upFrom, List.length_flatMap, Function.comp_def]

/-- The entries of a section are entries of the views, at the section's columns. -/
theorem mem_lineEntries {views : List (List Entry)} {lo n : Nat} {e : Entry} (h : e ∈ lineEntries views lo n) :
    ∃ i < n, ∃ v ∈ views, e = v.getD (lo + i) .culled := by
  simp only [lineEntries, upFrom, List.mem_flatMap, List.mem_map, List.mem_range] at h
  obtain ⟨_, ⟨i, hi, rfl⟩, v, hv, rfl⟩ := h
  exact ⟨i, hi, v, hv, rfl⟩

/-- The line a row puts into section `q`. -/
def State.rowLine (s : State) (d : Die) (got : List Nat) (q : Nat) : HogelLine :=
  ⟨(s.syn.die d).y, lineEntries (s.rowViews d).views (256 * q) ((s.syn.die d).hogelsIn (s.geo.cols / 2) got q),
    decide ((s.syn.die d).hogelsIn (s.geo.cols / 2) got q = sectionCols (s.geo.cols / 2) q)⟩

/-- A section takes the row's line unless its port has passed the row. -/
theorem State.rowMade_fifo {s : State} {d : Die} (got : List Nat) {q : Nat} {ls : List HogelLine}
    (h : (s.syn.die d).fifo[q]? = some ls) : (s.rowMade d got).fifo[q]? =
      some (if (s.syn.die d).y < (s.syn.die d).drained.getD q 0 then ls else ls ++ [s.rowLine d got q]) := by
  simp only [State.rowMade, SynDie.push, List.getElem?_map, List.getElem?_zipIdx, h, Option.map_some, Nat.zero_add]
  rfl

/-- A row's hogels in a section: all, unless its port met the end of the line. -/
theorem SynDie.hogelsIn_eq {x : SynDie} {q : Nat} {ls : List HogelLine} (h : x.fifo[q]? = some ls) (cols : Nat) (got : List Nat) :
    x.hogelsIn cols got q = if ls = [] ∧ x.y = x.drained.getD q 0 then min (got.getD q 256) (sectionCols cols q) else sectionCols cols q := by
  simp only [SynDie.hogelsIn, List.getD_eq_getElem?_getD, h, Option.getD_some, List.isEmpty_iff]

theorem SynDie.hogelsIn_le (x : SynDie) (cols : Nat) (got : List Nat) (q : Nat) : x.hogelsIn cols got q ≤ sectionCols cols q := by
  unfold SynDie.hogelsIn
  split
  · exact Nat.min_le_right _ _
  · exact Nat.le_refl _

/-- With nothing presented, nothing replayed and culling off, every ray of a row is of background colour (R32). -/
theorem State.rowLine_plain {s : State} (ha : s.syn.au = none) (hr : s.syn.replay = []) (hc : s.lv F.CMP_CTRL_CULL_EN = 0)
    (d : Die) (got : List Nat) (q : Nat) : ∀ e ∈ (s.rowLine d got q).entries, e = .ray s.bg := by
  intro e he
  obtain ⟨i, hi, v, hv, rfl⟩ := mem_lineEntries he
  have hle := (s.syn.die d).hogelsIn_le (s.geo.cols / 2) got q
  have hlt : 256 * q + i < s.geo.cols / 2 := by
    unfold sectionCols at hle
    omega
  rw [State.rowViews_plain ha hr hc d v hv, State.plainView, List.getD_eq_getElem?_getD, List.getElem?_replicate, if_pos hlt,
    Option.getD_some]

/-! ## The fall of e_app (R172) -/

theorem excessOf_lt (tj thr : Int) : excessOf tj thr < 2 ^ 5 := by
  unfold excessOf
  split <;> omega

/-- The excess of the die temperature now. -/
def State.excessNow (s : State) : Nat := excessOf (sext 16 (s.rd F.THM_STATUS_TJ)) (s.rd F.THM_CTRL_THR)

/-- THM_STATUS and SYN_THROTTLE with the excess supplied, before its event. -/
def State.writeExcess (s : State) : State := (s.wr F.THM_STATUS_E s.excessNow).wr F.SYN_THROTTLE_E_THERMAL s.excessNow

/-- Supplying the excess writes two fields, and at most raises its event. -/
theorem State.supplyExcess_events (s : State) : EventsOnly s.writeExcess s.supplyExcess := by
  unfold State.supplyExcess
  dsimp only
  split
  · exact State.raise_events _ _
  · exact .refl _

theorem State.writeExcess_regsOnly (s : State) : RegsOnly [0x40004, 0xB0030] s s.writeExcess :=
  (s.wr_regsOnly F.THM_STATUS_E _).trans (State.wr_regsOnly _ F.SYN_THROTTLE_E_THERMAL _)

theorem EventsOnly.rd {s t : State} (h : EventsOnly s t) {f : Fld} (hf : evtReg f.off = false) : t.rd f = s.rd f :=
  State.rd_of_word (h.words _ hf)

theorem State.supplyExcess_thermal (s : State) : s.supplyExcess.rd F.SYN_THROTTLE_E_THERMAL = s.excessNow := by
  rw [s.supplyExcess_events.rd (by decide), State.writeExcess, State.rd_wr_same _ _ _ (by decide)]
  exact Nat.mod_eq_of_lt (excessOf_lt _ _)

/-- The other fields of SYN_THROTTLE keep their values. -/
theorem State.supplyExcess_rd (s : State) {f : Fld} (hf : f = F.SYN_THROTTLE_E_FORCE ∨ f = F.SYN_THROTTLE_E_APP) :
    s.supplyExcess.rd f = s.rd f := by
  rcases hf with rfl | rfl
  all_goals
    rw [s.supplyExcess_events.rd (by decide), State.writeExcess, State.rd_wr_ne _ _ _ _ (by decide) (by decide),
      State.rd_wr_apart _ _ _ _ (by decide)]

theorem State.supplyExcess_wordsKept (s : State) : WordsKept [0x40004, 0xB0030] s s.supplyExcess :=
  (s.writeExcess_regsOnly.words.trans (s.supplyExcess_events.wordsKept [])).mono (by simp)

/-- What putting `e` in force shows, whether or not it raises SYN_THROTTLE. -/
theorem State.setApp_events (s : State) (e : Nat) : EventsOnly (s.showThrottle e) (s.setApp e) := by
  unfold State.setApp
  dsimp only
  split
  · exact .refl _
  · exact State.raise_events _ _

theorem State.showThrottle_regsOnly (s : State) (e : Nat) : RegsOnly [0xB0030, 0xB0034] s (s.showThrottle e) :=
  (((s.wr_regsOnly F.SYN_THROTTLE_E_APP e).trans (State.wr_regsOnly _ F.SYN_THROTTLE_K _)).trans
    (State.wr_regsOnly _ F.SYN_STATUS_N_D _)).mono (by decide)

theorem State.setApp_wordsKept (s : State) (e : Nat) : WordsKept [0xB0030, 0xB0034] s (s.setApp e) :=
  ((s.showThrottle_regsOnly e).words.trans ((s.setApp_events e).wordsKept [])).mono (by simp)

/-- e_app, K and N_d as they are shown. -/
theorem State.setApp_fields (s : State) (e : Nat) : (s.setApp e).rd F.SYN_THROTTLE_E_APP = e % 2 ^ 5 ∧
    (s.setApp e).rd F.SYN_THROTTLE_K = decimK e % 2 ^ 5 ∧ (s.setApp e).rd F.SYN_STATUS_N_D = decimN e s.geo.uv % 2 ^ 8 ∧
      (s.setApp e).rd F.SYN_THROTTLE_E_THERMAL = s.rd F.SYN_THROTTLE_E_THERMAL ∧
      (s.setApp e).rd F.SYN_THROTTLE_E_FORCE = s.rd F.SYN_THROTTLE_E_FORCE := by
  have h := s.setApp_events e
  refine ⟨?_, ?_, ?_, ?_, ?_⟩
  · rw [h.rd (by decide), State.showThrottle, State.rd_wr_apart _ _ _ _ (by decide), State.rd_wr_ne _ _ _ _ (by decide) (by decide)]
    exact State.rd_wr_same _ _ _ (by decide)
  · rw [h.rd (by decide), State.showThrottle, State.rd_wr_apart _ _ _ _ (by decide)]
    exact State.rd_wr_same _ _ _ (by decide)
  · rw [h.rd (by decide), State.showThrottle]
    exact State.rd_wr_same _ _ _ (by decide)
  · rw [h.rd (by decide), State.showThrottle, State.rd_wr_apart _ _ _ _ (by decide), State.rd_wr_ne _ _ _ _ (by decide) (by decide),
      State.rd_wr_ne _ _ _ _ (by decide) (by decide)]
  · rw [h.rd (by decide), State.showThrottle, State.rd_wr_apart _ _ _ _ (by decide), State.rd_wr_ne _ _ _ _ (by decide) (by decide),
      State.rd_wr_ne _ _ _ _ (by decide) (by decide)]

/-- A new e_app raises SYN_THROTTLE. -/
theorem State.setApp_raised {s : State} {e : Nat} (h : e % 2 ^ 5 ≠ s.rd F.SYN_THROTTLE_E_APP) (he : s.hasEvents = true) :
    Raised Ev.SYN_THROTTLE (s.setApp e) := by
  have hshown : (s.showThrottle e).rd F.SYN_THROTTLE_E_APP = e % 2 ^ 5 := by
    rw [← (s.setApp_events e).rd (f := F.SYN_THROTTLE_E_APP) (by decide)]
    exact (s.setApp_fields e).1
  unfold State.setApp
  dsimp only
  rw [if_neg fun hc => h (hshown.symm.trans hc.1)]
  exact State.raised _ (by decide) he

/-- The excess is supplied and the fall is marked as made. -/
def State.fallMarked (s : State) : State := s.supplyExcess.modSyn fun y => { y with fall := 0, fallen := true }

theorem State.fallMarked_words (s : State) : WordsKept [0x40004, 0xB0030] s s.fallMarked := s.supplyExcess_wordsKept

theorem State.fallMarked_rest (s : State) : s.fallMarked.syn = { s.syn with fall := 0, fallen := true } ∧ s.fallMarked.geo = s.geo ∧
    s.fallMarked.hasEvents = s.hasEvents := by
  unfold State.fallMarked
  rw [s.supplyExcess_events.rest]
  exact ⟨rfl, rfl, rfl⟩

/-- Where the count is full and the excess wanted is below e_app, e_app falls by 1. -/
theorem State.appFall_eq {s : State} (hf : s.syn.fall = 63) (hn : s.syn.fallen = false)
    (hx : max s.excessNow (s.rd F.SYN_THROTTLE_E_FORCE) < s.rd F.SYN_THROTTLE_E_APP) :
    s.appFall = s.fallMarked.setApp (s.rd F.SYN_THROTTLE_E_APP - 1) := by
  have hsyn : s.supplyExcess.syn = s.syn := by rw [s.supplyExcess_events.rest]; rfl
  have happ := s.supplyExcess_rd (.inr rfl)
  have hforce := s.supplyExcess_rd (.inl rfl)
  have hwant : s.supplyExcess.excessWanted = max s.excessNow (s.rd F.SYN_THROTTLE_E_FORCE) := by
    rw [State.excessWanted, s.supplyExcess_thermal, hforce]
  unfold State.appFall
  dsimp only
  rw [hsyn, hwant, happ, if_pos ⟨hf, hn, hx⟩]
  rfl

/-- The fall of e_app at the decision point at which the count is full. -/
theorem eAppFall_falls {s : State} (hp : s.pwr.st = .s0) (hs : s.scn.started = true) (hf : s.syn.fall = 63) (hn : s.syn.fallen = false)
    (hx : max s.excessNow (s.rd F.SYN_THROTTLE_E_FORCE) < s.rd F.SYN_THROTTLE_E_APP) : Gives .eAppFall s fun t =>
      t.rd F.SYN_THROTTLE_E_THERMAL = s.excessNow ∧ t.syn = { s.syn with fall := 0, fallen := true } ∧
      t.rd F.SYN_THROTTLE_E_APP = s.rd F.SYN_THROTTLE_E_APP - 1 ∧
      t.rd F.SYN_THROTTLE_K = decimK (s.rd F.SYN_THROTTLE_E_APP - 1) % 2 ^ 5 ∧
      t.rd F.SYN_STATUS_N_D = decimN (s.rd F.SYN_THROTTLE_E_APP - 1) s.geo.uv % 2 ^ 8 ∧
      t.rd F.SYN_THROTTLE_E_FORCE = s.rd F.SYN_THROTTLE_E_FORCE ∧ Raised Ev.SYN_THROTTLE t ∧
      WordsKept [0x40004, 0xB0030, 0xB0034] s t := by
  obtain ⟨hsyn, hgeo, hev⟩ := s.fallMarked_rest
  have happ : s.fallMarked.rd F.SYN_THROTTLE_E_APP = s.rd F.SYN_THROTTLE_E_APP := s.supplyExcess_rd (.inr rfl)
  have hforce : s.fallMarked.rd F.SYN_THROTTLE_E_FORCE = s.rd F.SYN_THROTTLE_E_FORCE := s.supplyExcess_rd (.inl rfl)
  have hthermal : s.fallMarked.rd F.SYN_THROTTLE_E_THERMAL = s.excessNow := s.supplyExcess_thermal
  have hawake : s.hasEvents = true := State.hasEvents_of_awake (by simp [State.awake, hp])
  have hlt : s.rd F.SYN_THROTTLE_E_APP < 2 ^ 5 := bits_lt _ _ _
  have hmod : (s.rd F.SYN_THROTTLE_E_APP - 1) % 2 ^ 5 = s.rd F.SYN_THROTTLE_E_APP - 1 := Nat.mod_eq_of_lt (by omega)
  obtain ⟨hshown, hk, hnd, hth, hfo⟩ := s.fallMarked.setApp_fields (s.rd F.SYN_THROTTLE_E_APP - 1)
  refine gives_pos rfl (by simp [hp, hs]) ?_
  rw [State.appFall_eq hf hn hx]
  refine ⟨hth.trans hthermal, ?_, hshown.trans hmod, hk, by rw [hnd, hgeo], hfo.trans hforce, ?_,
    (s.fallMarked_words.trans (s.fallMarked.setApp_wordsKept _)).mono (by decide)⟩
  · rw [(State.setApp_events _ _).rest, (State.showThrottle_regsOnly _ _).1]
    exact hsyn
  · exact State.setApp_raised (by rw [hmod, happ]; omega) (hev.trans hawake)

/-- Settles O35: a die with a place loads a row, a die that may makes one, and e_app falls when its count is full. -/
theorem rowsAreLoadedAndSynthesised : Obligations.RowsAreLoadedAndSynthesised := by
  unfold Obligations.RowsAreLoadedAndSynthesised
  refine ⟨fun s => eAppFall_falls, fun die other s hne hp hf hr hn => ?_, fun die other got s hne hp hready => ?_, fun _ => rfl⟩
  · obtain ⟨ho, hd⟩ := State.swathLoad_loads hf hr hn
    exact gives_pos rfl (by simp [hp]) ⟨ho other hne.symm, hd⟩
  · obtain ⟨⟨level, hd⟩, ho⟩ := State.synthDie_makes hready got
    have hcount : (s.rowMade die got).fifo.length = (s.syn.die die).fifo.length := by
      simp [State.rowMade, SynDie.push]
    refine gives_pos rfl (by simp [hp]) ⟨ho other hne.symm, ?_⟩
    rw [hd]
    refine ⟨rfl, rfl, rfl, hcount, fun q ls hq => ⟨fun hpast => ?_, fun hopen => ?_⟩⟩
    · exact (State.rowMade_fifo got hq).trans (by rw [if_pos hpast])
    · refine ⟨s.rowLine die got q, (State.rowMade_fifo got hq).trans (by rw [if_neg (Nat.not_lt.2 hopen)]), rfl, ?_,
        fun ha hrep hc => State.rowLine_plain ha hrep hc die got q⟩
      dsimp only
      rw [← SynDie.hogelsIn_eq hq]
      exact ⟨(lineEntries_length ..).trans (by rw [s.rowViews_length]), decide_eq_true_iff⟩

end Sys2Proof.Machine
end

section
/-!
PROOFS. Frame starts and line starts (chapters 7 and 8), presents, plane fetches and the DC-balance window.
-/
namespace Sys2Proof.Machine

theorem State.rd_of_regs {s t : State} (h : t.regs = s.regs) (f : Fld) : t.rd f = s.rd f :=
  State.rd_of_word (by unfold State.word; rw [h])

/-! ## Frame starts (R27, R211, R213) -/

/-- What counting a frame does to scan-out, to the commits and to the registers. -/
theorem State.countFrame_facts (s : State) :
    s.countFrame.scn = { s.scn with next := s.scn.next + 1, guarded := false, decided := false, gap := none } ∧
      s.countFrame.cmp.pend = s.cmp.pend.map (fun c => { c with late := true }) ∧
      s.countFrame.rd F.SCN_FRAME_FRAME = s.scn.next % 2 ^ 32 ∧ s.countFrame.rd F.SCN_STATUS_RETIMING = 0 ∧
      s.countFrame.out = s.out :=
  ⟨rfl, rfl, (State.rd_wr_apart _ _ _ _ (by decide)).trans (State.rd_wr_same _ _ _ (by decide)), State.rd_wr_same _ _ _ (by decide), rfl⟩

/-- The FSTROBE pulse at a frame start leaves scan-out, the commits and the registers alone. -/
theorem State.fstrobe_rest (s : State) (ns : Int) :
    (s.fstrobe ns).scn = s.scn ∧ (s.fstrobe ns).cmp = s.cmp ∧ ∀ f, (s.fstrobe ns).rd f = s.rd f := by
  have h := State.fstrobe_keeps (P := 17) (ns := ns) rfl (Keeps.refl _ s)
  exact ⟨h.same .scn rfl, h.same .cmp rfl, State.rd_of_regs (h.same .regs rfl)⟩

/-- What the ports take for a frame that starts. -/
def State.portsTakeFrame (s : State) : State :=
  s.activatePorts.takeScanCfg.takeBlink (s.scn.next * s.geo.pn / s.geo.pd) (s.rdB F.PNL_BLINK_CTRL_S0)

/-- Scan-out with the decided frame `k` in scan. -/
def State.scanFrame (s : State) (k : Nat) : State :=
  s.modScn fun c => { c with
    cur := some k, lineZero := true, auScan := c.auNext, blankScan := c.blankNext
    evaluated := s.lv F.SCN_CTRL_RUN == 1 && !c.blankNext
    crcs := List.replicate 9 0xFFFFFFFF, replayScan := s.syn.replay }

/-- What a frame start shows beside scan-out: decimation, holes, polarity and the DC-balance monitor, and the decoder's slots. -/
def State.showFrame (s : State) : State :=
  let s := (s.modPnl fun p => { p with seen := [] }).showDecim.wr (F.SYN_CNT_COUNT 7) s.syn.holesDone
  (if s.sendsFrame then s.togglePhi.dcbFrame else s).decFrameStart

theorem State.startFrame_eq (s : State) : s.startFrame = (s.portsTakeFrame.scanFrame s.scn.next).showFrame.countFrame := rfl

theorem State.portsTakeFrame_rest (s : State) : s.portsTakeFrame.scn = s.scn ∧ s.portsTakeFrame.cmp = s.cmp := by
  have h : Keeps 4182015 s s.portsTakeFrame :=
    State.takeBlink_keeps rfl (State.takeScanCfg_keeps rfl (State.activatePorts_keeps rfl (Keeps.refl _ s)))
  exact ⟨h.same .scn rfl, h.same .cmp rfl⟩

theorem State.showFrame_rest (s : State) : s.showFrame.scn = s.scn ∧ s.showFrame.cmp = s.cmp := by
  have h : Keeps 4182015 s s.showFrame := by
    have h0 : Keeps 4182015 s ((s.modPnl fun p => { p with seen := [] }).showDecim.wr (F.SYN_CNT_COUNT 7) s.syn.holesDone) :=
      State.wr_keeps rfl (State.showDecim_keeps rfl (State.modPnl_keeps rfl (Keeps.refl _ s) fun _ h => h))
    exact State.decFrameStart_keeps rfl (keeps_ite (State.dcbFrame_keeps rfl (State.togglePhi_keeps rfl h0)) h0)
  exact ⟨h.same .scn rfl, h.same .cmp rfl⟩

/-- A decided frame starts. -/
theorem frameStart_decided {s : State} (ht : s.timed = true) (hp : s.pwr.st = .s0) (hd : s.scn.decided = true) :
    Gives .frameStart s fun t => t.scn.cur = some s.scn.next ∧ t.scn.auScan = s.scn.auNext ∧ t.scn.blankScan = s.scn.blankNext ∧
      t.scn.lineZero = true ∧ t.scn.next = s.scn.next + 1 ∧ t.scn.guarded = false ∧ t.scn.decided = false ∧ t.scn.gap = none ∧
      t.rd F.SCN_FRAME_FRAME = s.scn.next % 2 ^ 32 ∧ t.rd F.SCN_STATUS_RETIMING = 0 ∧
      t.cmp.pend = s.cmp.pend.map fun c => { c with late := true } := by
  have he : s.frameStart = s.startFrame.fstrobe (s.geo.startOf s.scn.next) := by
    simp only [State.frameStart, hp, hd, if_true]
  obtain ⟨hport, hportc⟩ := s.portsTakeFrame_rest
  obtain ⟨hscn, hcmp⟩ := (s.portsTakeFrame.scanFrame s.scn.next).showFrame_rest
  obtain ⟨hc, hpend, hframe, hret, -⟩ := (s.portsTakeFrame.scanFrame s.scn.next).showFrame.countFrame_facts
  obtain ⟨fscn, fcmp, frd⟩ := s.startFrame.fstrobe_rest (s.geo.startOf s.scn.next)
  rw [← s.startFrame_eq, hscn] at hc hframe
  rw [← s.startFrame_eq] at hpend hret
  refine gives_pos rfl ht ?_
  rw [he, fscn, fcmp, frd, frd, hc, hframe, hret, hpend, hcmp]
  simp only [State.scanFrame, State.modScn, hport, hportc, and_self]

/-- A frame without a decision point starts: its lines are blanking lines. -/
theorem frameStart_undecided {s : State} (ht : s.timed = true) (hp : s.pwr.st = .s0) (hd : s.scn.decided = false) :
    Gives .frameStart s fun t =>
      t.scn = { s.scn with cur := none, lineZero := true, next := s.scn.next + 1, guarded := false, decided := false, gap := none } ∧
      t.rd F.SCN_FRAME_FRAME = s.scn.next % 2 ^ 32 ∧ t.rd F.SCN_STATUS_RETIMING = 0 := by
  have he : s.frameStart = s.blankFrame.fstrobe (s.geo.startOf s.scn.next) := by
    simp only [State.frameStart, hp, hd, if_true, Bool.false_eq_true, if_false]
  obtain ⟨-, -, hframe, hret, -⟩ := (s.modPnl fun p => { p with seen := [] }).decFrameStart.countFrame_facts
  obtain ⟨fscn, -, frd⟩ := s.blankFrame.fstrobe_rest (s.geo.startOf s.scn.next)
  refine gives_pos rfl ht ?_
  rw [he, fscn, frd, frd]
  exact ⟨rfl, hframe, hret⟩

/-- A frame that starts outside S0 is only counted. -/
theorem frameStart_counted {s : State} (ht : s.timed = true) (hp : s.pwr.st ≠ .s0) : Gives .frameStart s fun t =>
    t.scn = { s.scn with next := s.scn.next + 1, guarded := false, decided := false, gap := none } ∧
    t.rd F.SCN_FRAME_FRAME = s.scn.next % 2 ^ 32 ∧ t.out = s.out := by
  have he : s.frameStart = s.decFrameStart.countFrame := by simp only [State.frameStart, hp, if_false]
  obtain ⟨hc, -, hframe, -, hout⟩ := s.decFrameStart.countFrame_facts
  refine gives_pos rfl ht ?_
  rw [he]
  exact ⟨hc, hframe, hout⟩

/-! ## The DC-balance window (R247) -/

/-- A set status bit stays set when a register that events do not write is written. -/
theorem Raised.wr {src : Nat} {s : State} (h : Raised src s) (f : Fld) (v : Nat) (hf : evtReg f.off = false) (hs : src < 512) :
    Raised src (s.wr f v) := by
  refine (State.rd_wr_apart _ _ _ _ fun he => ?_).trans h
  rw [← he, evtStatusFld_evtReg hs] at hf
  cases hf

/-- What the drift of region `r` writes. -/
def State.noteDrift (s : State) (r : Nat) : State :=
  ((s.wrB F.PNL_DCB_STATUS_DRIFT true).wr F.PNL_DCB_STATUS_REGION r).raise Ev.PNL_DCB_DRIFT

/-- The regions whose drift over `f` frames is beyond the limit. -/
def State.driftRegions (s : State) (f : Nat) : List Nat :=
  (List.range 64).filter fun r =>
    s.portActive (r / 4) && decide (s.lv F.PNL_DCB_CFG_LIMIT * s.regionRays r * f < 16 * (s.pnl.dcbS.getD r 0).natAbs)

theorem State.dcbEnd_eq (s : State) :
    s.dcbEnd = ((s.dcbPattern.driftRegions s.dcbFrames).foldl State.noteDrift s.dcbPattern).dcbRestart := rfl

/-- From `s` to `t` the monitor's checks write PNL_DCB_STATUS and raise events; what they have raised stays. -/
structure DcbNoted (s t : State) : Prop where
  words : WordsKept [0xE0094] s t
  pnl : t.pnl = s.pnl
  live : t.live = s.live
  events : t.hasEvents = s.hasEvents
  raised : ∀ src < 512, Raised src s → Raised src t

theorem DcbNoted.refl (s : State) : DcbNoted s s := ⟨WordsKept.refl s _, rfl, rfl, rfl, fun _ _ h => h⟩

theorem DcbNoted.trans {s t u : State} (h : DcbNoted s t) (k : DcbNoted t u) : DcbNoted s u :=
  ⟨(h.words.trans k.words).mono (by simp), k.pnl.trans h.pnl, k.live.trans h.live, k.events.trans h.events,
    fun src hs hr => k.raised src hs (h.raised src hs hr)⟩

theorem DcbNoted.wr (s : State) (f : Fld) (v : Nat) (hf : f.off = 0xE0094) : DcbNoted s (s.wr f v) :=
  ⟨hf ▸ (s.wr_regsOnly f v).words, rfl, rfl, rfl, fun _ hs h => h.wr f v (by rw [hf]; decide) hs⟩

theorem DcbNoted.raise (s : State) (e : Nat) : DcbNoted s (s.raise e) :=
  ⟨s.raise_wordsKept e _, s.raise_pnl e, s.raise_live e, s.hasEvents_raise e, fun _ hs h => h.raise hs⟩

theorem State.noteDrift_noted (s : State) (r : Nat) : DcbNoted s (s.noteDrift r) :=
  ((DcbNoted.wr s F.PNL_DCB_STATUS_DRIFT _ rfl).trans (.wr _ F.PNL_DCB_STATUS_REGION _ rfl)).trans (.raise _ _)

theorem State.noteDrift_drift (s : State) (r : Nat) : (s.noteDrift r).rd F.PNL_DCB_STATUS_DRIFT = 1 := by
  rw [State.noteDrift, State.raise_rd _ _ (by decide), State.rd_wr_ne _ _ _ _ (by decide) (by decide)]
  exact State.rd_wr_same _ _ _ (by decide)

/-- The drift of a region leaves the other flags of PNL_DCB_STATUS set. -/
theorem State.noteDrift_keeps {f : Fld} (hf : f = F.PNL_DCB_STATUS_PATTERN ∨ f = F.PNL_DCB_STATUS_DRIFT) {s : State}
    (h : s.rd f = 1) (r : Nat) : (s.noteDrift r).rd f = 1 := by
  rcases hf with rfl | rfl
  · rw [State.noteDrift, State.raise_rd _ _ (by decide), State.rd_wr_ne _ _ _ _ (by decide) (by decide), State.wrB,
      State.rd_wr_ne _ _ _ _ (by decide) (by decide), h]
  · exact s.noteDrift_drift r

theorem State.noteDrifts_noted (s : State) (l : List Nat) : DcbNoted s (l.foldl State.noteDrift s) := by
  induction l generalizing s with
  | nil => exact .refl s
  | cons r l ih => exact (s.noteDrift_noted r).trans (ih _)

theorem State.noteDrifts_keeps {f : Fld} (hf : f = F.PNL_DCB_STATUS_PATTERN ∨ f = F.PNL_DCB_STATUS_DRIFT) {s : State}
    (h : s.rd f = 1) (l : List Nat) : (l.foldl State.noteDrift s).rd f = 1 := by
  induction l generalizing s with
  | nil => exact h
  | cons r l ih => exact ih (State.noteDrift_keeps hf h r)

/-- The drift of some region is flagged and raised. -/
theorem State.noteDrifts_raised {s : State} {l : List Nat} (hl : l ≠ []) (he : s.hasEvents = true) :
    (l.foldl State.noteDrift s).rd F.PNL_DCB_STATUS_DRIFT = 1 ∧ Raised Ev.PNL_DCB_DRIFT (l.foldl State.noteDrift s) := by
  cases l with
  | nil => exact absurd rfl hl
  | cons r l =>
    exact ⟨State.noteDrifts_keeps (.inr rfl) (s.noteDrift_drift r) l,
      (State.noteDrifts_noted _ l).raised _ (by decide) (State.raised _ (by decide) he)⟩

theorem State.dcbPattern_noted (s : State) : DcbNoted s s.dcbPattern := by
  unfold State.dcbPattern
  split
  · exact .refl s
  · exact (DcbNoted.wr s F.PNL_DCB_STATUS_PATTERN _ rfl).trans (.raise _ _)

/-- A count that is not 0 is a pattern. -/
theorem State.dcbPattern_raised {s : State} (h : ∃ c ∈ s.pnl.dcbC, c ≠ 0) (he : s.hasEvents = true) :
    s.dcbPattern.rd F.PNL_DCB_STATUS_PATTERN = 1 ∧ Raised Ev.PNL_DCB_PATTERN s.dcbPattern := by
  have hall : ¬(s.pnl.dcbC.all fun c => c == 0) = true := by simpa using h
  unfold State.dcbPattern
  rw [if_neg hall]
  exact ⟨(State.raise_rd _ _ (by decide)).trans (State.rd_wr_same _ _ _ (by decide)), State.raised _ (by decide) he⟩

/-- Which regions drift is not changed by the pattern check. -/
theorem DcbNoted.driftRegions {s t : State} (h : DcbNoted s t) (f : Nat) : t.driftRegions f = s.driftRegions f := by
  have hport : ∀ p, t.portActive p = s.portActive p := fun p => by
    simp only [State.portActive, State.portState, h.words.rd (f := portFld p) (by simp [portFld]) (by simp only [portFld]; decide)]
  have hlw : t.liveWord = s.liveWord := funext fun o => by unfold State.liveWord; rw [h.live]
  have hlv : ∀ f, t.lv f = s.lv f := fun f => by unfold State.lv; rw [hlw]
  have hrays : t.regionRays = s.regionRays := by
    funext r
    simp only [State.regionRays, State.portCols, State.geo, hlw]
  unfold State.driftRegions
  exact List.filter_congr fun r _ => by rw [hport, hlv, hrays, h.pnl]

/-- The end of a window raises what it finds and clears the sums. -/
theorem dcbWindowEnd_checks {s : State} (hon : s.dcbOn = true) (hw : s.pnl.dcbWin = some (2 * s.lv F.PNL_DCB_CFG_WIN)) :
    Gives .dcbWindowEnd s fun t =>
      t.pnl = { s.pnl with dcbC := List.replicate 64 0, dcbS := List.replicate 64 0, dcbWin := none } ∧
      ((∃ c ∈ s.pnl.dcbC, c ≠ 0) → s.awake = true → t.rd F.PNL_DCB_STATUS_PATTERN = 1 ∧ Raised Ev.PNL_DCB_PATTERN t) ∧
      ((∃ r < 64, s.portActive (r / 4) = true ∧
          s.lv F.PNL_DCB_CFG_LIMIT * s.regionRays r * (2 * s.lv F.PNL_DCB_CFG_WIN) < 16 * (s.pnl.dcbS.getD r 0).natAbs) →
        s.awake = true → t.rd F.PNL_DCB_STATUS_DRIFT = 1 ∧ Raised Ev.PNL_DCB_DRIFT t) ∧ WordsKept [0xE0094] s t := by
  have hpat := s.dcbPattern_noted
  have hdrift := s.dcbPattern.noteDrifts_noted (s.dcbPattern.driftRegions s.dcbFrames)
  refine gives_pos rfl (by rw [hon, hw]; exact beq_self_eq_true _) ?_
  rw [State.dcbEnd_eq]
  refine ⟨?_, fun hc ha => ?_, fun ⟨r, hr, hport, hlim⟩ ha => ?_, (hpat.trans hdrift).words⟩
  · simp only [State.dcbRestart, (hpat.trans hdrift).pnl]
  · obtain ⟨hflag, hraised⟩ := State.dcbPattern_raised hc (State.hasEvents_of_awake ha)
    exact ⟨State.noteDrifts_keeps (.inl rfl) hflag _, hdrift.raised _ (by decide) hraised⟩
  · have hmem : r ∈ s.dcbPattern.driftRegions s.dcbFrames := by
      rw [hpat.driftRegions]
      simpa [State.driftRegions, State.dcbFrames, hr, hport] using hlim
    exact State.noteDrifts_raised (List.ne_nil_of_mem hmem) (hpat.events.trans (State.hasEvents_of_awake ha))

/-! ## Presents and plane fetches (R31, R183, R194) -/

/-- A PRESENT that passes its checks, without BCAST, enters the latch logic and parks its descriptor. -/
theorem present_enters {ring : Nat} {r : Ring} {d : Desc} {s : State} (h : Passes s ring 0x20 r d (s.presentChecks d))
    (hb : byteAt d.bytes 24 = 0) :
    exec (.present ring) s = .next (({ s with scn := { s.scn with presents := s.scn.presents ++
      [⟨leAt d.bytes 8 6 * 1000000000 + leAt d.bytes 16 4, leAt d.bytes 20 4, some (ring, d.idx), s.scn.missT,
        s.scn.guarded && !s.scn.decided⟩] } } : State).modDesc ring d.idx fun d => { d with phase := .parked }) := by
  obtain ⟨hop, hall, hhead, hchecks⟩ := h
  have hne : ¬byteAt d.bytes 24 = 1 := by omega
  change Host.Outcome.next (s.opPresent ring) = _
  rw [State.opPresent, State.withOp_pass hop hall hhead hchecks]
  dsimp only
  rw [if_neg hne, State.nextOp_num hop]
  exact congrArg Host.Outcome.next (State.modDesc_modDesc (s.enterPresent (leAt d.bytes 8 6 * 1000000000 + leAt d.bytes 16 4)
    (leAt d.bytes 20 4) (some (ring, d.idx))) ring d.idx (fun d => { d with phase := .running })
    (fun d => { d with phase := .parked }) fun _ => rfl)

/-- An event of the frame leaves what the compositor holds. -/
theorem State.cmpOnce_cmp (s : State) (e : Nat) : (s.cmpOnce e).cmp = { s.cmp with seen := (s.cmpOnce e).cmp.seen } := by
  unfold State.cmpOnce
  split
  · rfl
  · rw [State.raise_cmp]

/-- Reading a plane's line notes at most an event of the frame in the compositor. -/
theorem State.readPlane_cmp (s : State) (p : Plane) (j : Nat) : (s.readPlane p j).cmp = { s.cmp with seen := (s.readPlane p j).cmp.seen } := by
  have hread : (s.readFor .scan .cmp (p.addr + j * p.stride) (p.sw * bpp p.format)).cmp = s.cmp :=
    (State.readFor_keeps (P := 743) rfl (Keeps.refl _ s)).same .cmp rfl
  unfold State.readPlane
  dsimp only
  split
  · rw [hread]
  · rw [State.cmpOnce_cmp, hread]

/-- The line a fetcher puts into its buffer. -/
def State.fetched (s : State) (d : Die) (n j : Nat) : PlaneLine :=
  ⟨d, n, j, s.peekFor .cmp ((planeOf s.liveWord n).addr + j * (planeOf s.liveWord n).stride)
    ((planeOf s.liveWord n).sw * bpp (planeOf s.liveWord n).format)⟩

/-- Another line of the same die's fetcher for the same plane. -/
def PlaneLine.mate (l x : PlaneLine) : Bool := x.die == l.die && x.plane == l.plane

/-- A line buffer once a line of a fetcher has joined it, in place of what was held of it: of that fetcher five older lines stay
at most. -/
def buffered (l : PlaneLine) (lines : List PlaneLine) : List PlaneLine :=
  l :: ((lines.filter fun x => !(l.mate x && x.j == l.j)).filter l.mate).take 5 ++
    (lines.filter fun x => !(l.mate x && x.j == l.j)).filter fun x => !l.mate x

theorem PlaneLine.mate_self (l : PlaneLine) : l.mate l = true := by simp [PlaneLine.mate]

theorem buffered_own (l : PlaneLine) (lines : List PlaneLine) : ((buffered l lines).filter l.mate).length ≤ 6 := by
  have hrest : ∀ xs : List PlaneLine, (xs.filter fun x => !l.mate x).filter l.mate = [] := fun xs => by
    simp [List.filter_filter]
  have hmine : ∀ xs : List PlaneLine, ((xs.take 5).filter l.mate).length ≤ 5 := fun xs =>
    (List.length_filter_le _ _).trans (List.length_take_le _ _)
  unfold buffered
  rw [List.filter_append, hrest, List.append_nil, List.filter_cons_of_pos l.mate_self, List.length_cons]
  exact Nat.succ_le_succ (hmine _)

theorem buffered_others (l : PlaneLine) (lines : List PlaneLine) :
    ((buffered l lines).filter fun x => !l.mate x) = lines.filter fun x => !l.mate x := by
  have hmine : ∀ xs : List PlaneLine, ((xs.filter l.mate).take 5).filter (fun x => !l.mate x) = [] := fun xs =>
    List.filter_eq_nil_iff.mpr fun x hx => by simpa using (List.mem_filter.mp (List.mem_of_mem_take hx)).2
  unfold buffered
  rw [List.filter_append, List.filter_cons_of_neg (by simp [l.mate_self]), hmine, List.nil_append, List.filter_filter,
    List.filter_filter]
  refine List.filter_congr fun x _ => ?_
  cases l.mate x
  · rfl
  · simp

/-- A fetch of a plane in force puts its line into the buffer. -/
theorem State.fetchLine_eq {s : State} {d : Die} {n j : Nat} (h1 : 1 ≤ n) (hn : n ≤ s.lv F.CMP_CTRL_PLANES)
    (he : (planeOf s.liveWord n).enable = true) (hj : j < (planeOf s.liveWord n).sh) :
    s.fetchLine d n j = { s.readPlane (planeOf s.liveWord n) j with
      cmp := { (s.readPlane (planeOf s.liveWord n) j).cmp with
        lines := buffered (s.fetched d n j) (s.readPlane (planeOf s.liveWord n) j).cmp.lines } } := by
  rw [s.readPlane_cmp]
  unfold State.fetchLine
  dsimp only
  rw [if_pos ⟨h1, hn, he, hj⟩, s.readPlane_cmp]
  rfl

/-- A line that joined the buffer last is the one read there. -/
theorem State.planeLine_head {s : State} {l : PlaneLine} {ls : List PlaneLine} {p : Plane} (h : s.cmp.lines = l :: ls)
    (hp : l.plane = p.num) : s.planeLine l.die p l.j = l.bytes := by
  unfold State.planeLine
  rw [h, List.find?_cons_of_pos (by simp [hp])]

/-- A plane fetch puts its source line into the buffer of its die and plane. -/
theorem planeFetch_buffers {die : Die} {n j : Nat} {s : State} (hp : s.pwr.st = .s0) (hf : s.syn.frame.isSome = true) (h1 : 1 ≤ n)
    (hn : n ≤ s.lv F.CMP_CTRL_PLANES) (he : (planeOf s.liveWord n).enable = true) (hj : j < (planeOf s.liveWord n).sh) :
    Gives (.planeFetch ⟨die, n⟩ j) s fun t => t.cmp = { s.cmp with lines := t.cmp.lines, seen := t.cmp.seen } ∧
      (let p := planeOf s.liveWord n
       t.planeLine die p j = s.peekFor .cmp (p.addr + j * p.stride) (p.sw * bpp p.format)) ∧
      (t.cmp.lines.filter fun l => l.die == die && l.plane == n).length ≤ 6 ∧
      (t.cmp.lines.filter fun l => !(l.die == die && l.plane == n)) = s.cmp.lines.filter fun l => !(l.die == die && l.plane == n) := by
  refine gives_pos rfl (by rw [hp, hf]; rfl) ?_
  rw [State.fetchLine_eq h1 hn he hj, s.readPlane_cmp]
  exact ⟨rfl, State.planeLine_head (l := s.fetched die n j) (p := planeOf s.liveWord n) rfl rfl, buffered_own (s.fetched die n j) _,
    buffered_others (s.fetched die n j) _⟩

/-! ## Line starts (R211, R213) -/

/-- From `r` to `s` a line is made and sent: of scan-out only the signatures move, and SCN_STATUS stays. -/
structure LineKept (r s : State) : Prop where
  scn : s.scn = { r.scn with crcs := s.scn.crcs }
  status : s.word 0xD0004 = r.word 0xD0004

theorem LineKept.refl (s : State) : LineKept s s := ⟨rfl, rfl⟩

theorem LineKept.same {r s t : State} (h : LineKept r s) (hc : t.scn = s.scn) (hr : t.regs = s.regs) : LineKept r t :=
  ⟨by rw [hc]; exact h.scn, by unfold State.word; rw [hr]; exact h.status⟩

theorem LineKept.keeps {P : Nat} {r s t : State} (h : LineKept r s) (k : Keeps P s t) (hc : P.testBit Part.scn.idx = false)
    (hr : P.testBit Part.regs.idx = false) : LineKept r t :=
  h.same (k.same .scn hc) (k.same .regs hr)

theorem LineKept.setWord {r s : State} (h : LineKept r s) {off : Nat} (w : Word) (ho : 0xD0004 ≠ off) : LineKept r (s.setWord off w) :=
  ⟨h.scn, (s.word_setWord_ne w ho).trans h.status⟩

theorem LineKept.wr {r s : State} (h : LineKept r s) {f : Fld} (v : Nat) (hf : 0xD0004 ≠ f.off) : LineKept r (s.wr f v) :=
  h.setWord _ hf

theorem LineKept.bump {r s : State} (h : LineKept r s) {f : Fld} (n : Nat) (hf : 0xD0004 ≠ f.off) : LineKept r (s.bump f n) :=
  h.wr _ hf

theorem LineKept.raise {r s : State} (h : LineKept r s) (e : Nat) : LineKept r (s.raise e) :=
  ⟨by rw [s.raise_scn]; exact h.scn, (s.raise_word e (by decide)).trans h.status⟩

theorem LineKept.ite {r a b : State} {c : Prop} [Decidable c] (ha : LineKept r a) (hb : LineKept r b) :
    LineKept r (if c then a else b) := by
  split
  · exact ha
  · exact hb

theorem LineKept.foldl {r s : State} {α : Type} {f : State → α → State} (l : List α) (h : LineKept r s)
    (hf : ∀ s a, LineKept r s → LineKept r (f s a)) : LineKept r (l.foldl f s) := by
  induction l generalizing s with
  | nil => exact h
  | cons a l ih => exact ih (hf s a h)

/-! Memory accesses count, record and raise in registers of the memory unit. -/

theorem LineKept.countCorr {r s : State} (h : LineKept r s) : LineKept r s.countCorr :=
  have hb : LineKept r (s.bump (F.MEM_CNT_COUNT 0)) := h.bump _ (by decide)
  .ite (hb.raise _) hb

theorem LineKept.poison {r s : State} (h : LineKept r s) (c : MemClass) (sec : Nat) : LineKept r (s.poison c sec) := by
  have hb : LineKept r ((s.modMem fun m => m.poisonSector sec).bump (F.MEM_CNT_COUNT 1)) :=
    (h.same (t := s.modMem _) rfl rfl).bump _ (by decide)
  unfold State.poison
  refine .raise (.ite (hb.wr _ (by decide)) ?_) _
  exact ((((hb.wr _ (by decide)).wr _ (by decide)).wr _ (by decide)).wr _ (by decide)).wr _ (by decide)

theorem LineKept.touchSector {r s : State} (h : LineKept r s) (c : MemClass) (sec : Nat) : LineKept r (s.touchSector c sec) := by
  unfold State.touchSector
  split
  case h_1 => exact h
  case h_2 => exact h.bump _ (by decide)
  case h_3 => exact (h.same (t := s.modMem _) rfl rfl).countCorr
  case h_4 => exact h.poison c sec

theorem LineKept.windowMiss {r s : State} (h : LineKept r s) (e : Engine) : LineKept r (s.windowMiss e) := by
  have hb : LineKept r (s.bump (F.MEM_CNT_COUNT 3)) := h.bump _ (by decide)
  have hm : ∀ f, LineKept r ((s.bump (F.MEM_CNT_COUNT 3)).modMem f) := fun _ => hb.same rfl rfl
  unfold State.windowMiss
  dsimp only
  exact .ite hb (.raise (hm _) _)

theorem LineKept.readFor {r s : State} (h : LineKept r s) (c : MemClass) (e : Engine) (a n : Nat) :
    LineKept r (s.readFor c e a n) := by
  have hf := LineKept.foldl ((sectorsOf a n).filter fun sec => s.pageOk e false (sec / 128))
    (h.same (t := s.account c (s.granted e false a n)) rfl rfl) fun _ sec h => h.touchSector c sec
  unfold State.readFor
  exact .ite hf (hf.windowMiss e)

theorem LineKept.mergeSector {r s : State} (h : LineKept r s) (c : MemClass) (sec o : Nat) (bs : List Byte) :
    LineKept r (s.mergeSector c sec o bs) := by
  unfold State.mergeSector
  dsimp only
  split
  case h_1 => exact h.same rfl rfl
  case h_2 => exact (h.same (t := s.modMem _) rfl rfl).countCorr
  case h_3 => exact h.raise _
  case h_4 => exact (h.poison c sec).raise _

theorem LineKept.writeSector {r s : State} (h : LineKept r s) (c : MemClass) (sec : Nat) (p : Nat × List Byte) :
    LineKept r (s.writeSector c sec p) := by
  unfold State.writeSector
  exact .ite (h.same rfl rfl) (h.mergeSector c sec _ _)

theorem LineKept.store {r s : State} (h : LineKept r s) (c : MemClass) (a : Nat) (bs : List Byte) : LineKept r (s.store c a bs) :=
  .foldl _ (h.same (t := s.account c bs.length) rfl rfl) fun _ _ h => h.writeSector c _ _

/-! The rows of the planes (R181 to R190) and the sections (R166, R167). -/

theorem LineKept.cmpOnce {r s : State} (h : LineKept r s) (e : Nat) : LineKept r (s.cmpOnce e) :=
  .ite h ((h.same (t := { s with cmp := { s.cmp with seen := e :: s.cmp.seen } }) rfl rfl).raise e)

theorem LineKept.readPlane {r s : State} (h : LineKept r s) (p : Plane) (j : Nat) : LineKept r (s.readPlane p j) :=
  have hr := h.readFor .scan .cmp (p.addr + j * p.stride) (p.sw * bpp p.format)
  .ite hr (hr.cmpOnce _)

theorem LineKept.formed {r s : State} (h : LineKept r s) (p : Plane) (row : DestRow) : LineKept r (s.formed p row) := by
  have ht := LineKept.foldl (p.taps row.j) h fun (s : State) y h =>
    LineKept.ite (c := (s.cmp.lines.any fun l => l.die == row.die && l.plane == p.num && l.j == y) = true) h (h.readPlane p y)
  unfold State.formed
  dsimp only
  refine .ite h (.ite (ht.same rfl rfl) (.cmpOnce (.bump ?_ _ (by decide)) _))
  exact ht.same rfl rfl

theorem LineKept.synOnce {r s : State} (h : LineKept r s) (e : Nat) : LineKept r (s.synOnce e) :=
  .ite h ((h.same (t := s.modSyn fun y => { y with seen := e :: y.seen }) rfl rfl).raise e)

theorem LineKept.updateLevel {r s : State} (h : LineKept r s) (d : Die) : LineKept r (s.updateLevel d) := by
  have hs : ∀ x, LineKept r (s.setDie d x) := fun _ => h.same rfl rfl
  unfold State.updateLevel State.setLevel
  dsimp only
  exact .ite (.synOnce (hs _) _) (.ite (.synOnce (hs _) _) (hs _))

theorem LineKept.drainLine {r s : State} (h : LineKept r s) (y : Nat) : LineKept r (s.drainLine y) := by
  unfold State.drainLine
  refine .updateLevel (.updateLevel ?_ _) _
  exact .ite (h.same rfl rfl) h

/-! What a line leaves behind: signatures, DC-balance sums, the hold store, the blocks sent and the training answers. -/

theorem LineKept.signLine {r s : State} (h : LineKept r s) (ls : List PortLine) (y : Nat) : LineKept r (s.signLine ls y) :=
  ⟨congrArg (fun c : ScnSt => { c with crcs := (s.signLine ls y).scn.crcs }) h.scn, h.status⟩

theorem LineKept.dcbLine {r s : State} (h : LineKept r s) (ls : List PortLine) (y : Nat) : LineKept r (s.dcbLine ls y) :=
  h.keeps (State.dcbLine_keeps (P := 16384) rfl (.refl _ s)) rfl rfl

theorem LineKept.captureLine {r s : State} (h : LineKept r s) (l : PortLine) (y : Nat) : LineKept r (s.captureLine l y) :=
  .foldl _ (h.wr _ (by decide)) fun _ _ h => h.store _ _ _

theorem LineKept.sendLine {r s : State} (h : LineKept r s) (port : Nat) (active fstart hold : Bool) (line frame : Nat)
    (rays : List Rgb) : LineKept r (s.sendLine port active fstart hold line frame rays) :=
  h.keeps (State.sendLine_keeps (P := 1048577) rfl (.refl _ s)) rfl rfl

theorem LineKept.applyTrain {r s : State} (h : LineKept r s) (n seq code : Nat) (pre : Bool) :
    LineKept r (s.applyTrain n seq code pre).2 := by
  have hl : ∀ f, LineKept r (s.modLane n f) := fun _ => h.same rfl rfl
  have hask : ∀ f on, LineKept r ((s.modLane n f).askPre n on) := fun f on =>
    (hl f).keeps (State.askPre_keeps (P := 1048576) rfl (.refl _ _)) rfl rfl
  unfold State.applyTrain
  dsimp only
  split
  · exact h
  split
  · exact hl _
  split
  · split
    · exact hask _ _
    · exact hl _
  split
  · exact hask _ _
  split
  · split
    · exact (hl _).setWord _ (by omega)
    · exact hl _
  · exact hl _

theorem LineKept.answerTrain {r s : State} (h : LineKept r s) (w : TrainWait) : LineKept r (s.answerTrain w) :=
  (h.applyTrain _ _ _ _).keeps (State.panelOut_keeps (P := 1048577) rfl (.refl _ _)) rfl rfl

theorem LineKept.drainTrain {r s : State} (h : LineKept r s) : LineKept r s.drainTrain :=
  .foldl _ (h.same rfl rfl) fun _ w h => .ite (h.answerTrain w) h

theorem LineKept.blankLine {r s : State} (h : LineKept r s) (line : Nat) : LineKept r (s.blankLine line) :=
  .drainTrain (.foldl _ h fun _ _ h => .ite (h.sendLine _ _ _ _ _ _ _) h)

/-- The rows of the planes that a line shows are formed. -/
theorem LineKept.formRows {r s : State} (h : LineKept r s) (ps : List Plane) (tbl : List DestRow) :
    LineKept r (tbl.foldl (fun s r => match ps.find? fun p => p.num == r.plane with | some p => s.formed p r | none => s) s) := by
  refine .foldl _ h fun s row h => ?_
  split
  · exact h.formed _ _
  · exact h

theorem LineKept.captureRow {r s : State} (h : LineKept r s) (y : Nat) : LineKept r (s.captureRow y) := by
  unfold State.captureRow
  exact .foldl _ (h.formRows _ _) fun _ l h => h.captureLine l y

theorem LineKept.activeLine {r s : State} (h : LineKept r s) (y : Nat) : LineKept r (s.activeLine y) := by
  have hf := h.formRows (planesOf s.liveWord) (s.rowTable (planesOf s.liveWord) y)
  unfold State.activeLine
  dsimp only
  refine .drainLine (.foldl _ (.ite (.foldl _ ?sent fun _ l h => h.captureLine l y) ?sent) fun _ l h =>
    .ite (h.sendLine _ _ _ _ _ _ _) h) y
  exact ((LineKept.ite hf ((hf.bump _ (by decide)).synOnce _)).signLine _ _).dcbLine _ _

/-- Line `i` begins in scan-out, and ports that are ready become ACTIVE. -/
def State.enterLine (s : State) (i : Nat) : State := (s.modScn fun c => { c with line := i, lineZero := false }).activatePorts

theorem State.enterLine_rest (s : State) (i : Nat) :
    (s.enterLine i).scn = { s.scn with line := i, lineZero := false } ∧ (s.enterLine i).liveWord = s.liveWord := by
  have h := State.activatePorts_keeps (P := 1065575) rfl (Keeps.refl _ (s.modScn fun c => { c with line := i, lineZero := false }))
  have hlive : (s.enterLine i).live = s.live := h.same .live rfl
  exact ⟨h.same .scn rfl, funext fun o => by unfold State.liveWord; rw [hlive]⟩

/-- The line that starts belongs to the rows of a frame in scan. -/
def State.rowStarts (s : State) : Bool := s.scn.cur.isSome && s.scn.gap.isNone && decide (s.nextLine < s.geo.rows)

/-- The line that starts is sent with the frame's rays. -/
def State.showsRow (s : State) : Bool := s.rowStarts && s.lv F.SCN_CTRL_RUN == 1

/-- SCN_STATUS shows the line that starts. -/
def State.showLine (s : State) : State :=
  ((s.enterLine s.nextLine).wr F.SCN_STATUS_LINE s.nextLine).wrB F.SCN_STATUS_BLANK (!s.showsRow)

theorem State.lineStart_eq (s : State) : s.lineStart =
    if s.showsRow then s.showLine.activeLine s.nextLine
    else if s.rowStarts then
      ((if s.showLine.capturesNow then s.showLine.captureRow s.nextLine else s.showLine).blankLine s.nextLine).drainLine s.nextLine
    else s.showLine.blankLine s.nextLine := by
  obtain ⟨hscn, hlive⟩ := s.enterLine_rest s.nextLine
  have hlv : (s.enterLine s.nextLine).lv F.SCN_CTRL_RUN = s.lv F.SCN_CTRL_RUN := by unfold State.lv; rw [hlive]
  have hrow : ((s.enterLine s.nextLine).scn.cur.isSome && (s.enterLine s.nextLine).scn.gap.isNone &&
      decide (s.nextLine < (s.enterLine s.nextLine).geo.rows)) = s.rowStarts := by
    rw [hscn, State.geo, hlive]
    rfl
  unfold State.showsRow State.showLine State.showsRow
  rw [← hrow, ← hlv]
  rfl

theorem State.lineStart_kept (s : State) : LineKept s.showLine s.lineStart := by
  have h := LineKept.refl s.showLine
  rw [s.lineStart_eq]
  exact .ite (h.activeLine _) (.ite (((LineKept.ite (h.captureRow _) h).blankLine _).drainLine _) (h.blankLine _))

/-- A line start in S0 moves to the next line and shows it. -/
theorem lineStart_moves {s : State} (ht : s.timed = true) (hp : s.pwr.st = .s0) :
    Gives .lineStart s fun t => t.scn = { s.scn with line := s.nextLine, lineZero := false, crcs := t.scn.crcs } ∧
      t.rd F.SCN_STATUS_LINE = s.nextLine % 2 ^ 12 ∧
      (t.rd F.SCN_STATUS_BLANK = 0 ↔
        s.scn.cur.isSome = true ∧ s.scn.gap = none ∧ s.nextLine < s.geo.rows ∧ s.lv F.SCN_CTRL_RUN = 1) := by
  have hk := s.lineStart_kept
  have hscn : s.showLine.scn = { s.scn with line := s.nextLine, lineZero := false } := (s.enterLine_rest s.nextLine).1
  have hline : s.showLine.rd F.SCN_STATUS_LINE = s.nextLine % 2 ^ 12 :=
    (State.rd_wr_ne _ _ _ _ (by decide) (by decide)).trans (State.rd_wr_same _ _ _ (by decide))
  have hblank : s.showLine.rd F.SCN_STATUS_BLANK = b2n (!s.showsRow) % 2 ^ 1 := State.rd_wr_same _ _ _ (by decide)
  have hzero : s.showLine.rd F.SCN_STATUS_BLANK = 0 ↔ s.showsRow = true := by
    rw [hblank]
    cases s.showsRow <;> decide
  refine gives_pos rfl (by rw [ht, hp]; rfl) ⟨?_, ?_, ?_⟩
  · rw [hk.scn, hscn]
  · exact (State.rd_of_word hk.status).trans hline
  · rw [State.rd_of_word (f := F.SCN_STATUS_BLANK) hk.status, hzero]
    simp [State.showsRow, State.rowStarts, and_assoc]

/-- Settles O34: each command's own clause, in the order of the statement. -/
theorem framesAndLinesFollowTheTimer : Obligations.FramesAndLinesFollowTheTimer :=
  ⟨fun _ => frameStart_decided, fun _ => frameStart_undecided, fun _ => frameStart_counted, fun _ => lineStart_moves,
    fun _ => dcbWindowEnd_checks, fun _ _ _ _ => present_enters, fun _ _ _ _ => planeFetch_buffers⟩

end Sys2Proof.Machine
end

section
/-!
PROOFS. The decision point (Table 7-3): the present it selects, the commit it latches and the synthesis it starts.
-/
namespace Sys2Proof.Machine

/-- A reading that no step of a fold changes is not changed by the fold. -/
theorem foldl_reads {α β : Type} {g : State → β} {f : State → α → State} (h : ∀ s a, g (f s a) = g s) (l : List α) (s : State) :
    g (l.foldl f s) = g s := by
  induction l generalizing s with
  | nil => rfl
  | cons a l ih => exact (ih _).trans (h s a)

theorem reads_ite {β : Type} {g : State → β} {x : β} {c : Prop} [Decidable c] {a b : State} (ha : g a = x) (hb : g b = x) :
    g (if c then a else b) = x := by
  split
  · exact ha
  · exact hb

theorem Keeps.liveWord {P : Nat} {s t : State} (k : Keeps P s t) (h : P.testBit Part.live.idx = false) : t.liveWord = s.liveWord := by
  have hl : t.live = s.live := k.same .live h
  unfold State.liveWord
  rw [hl]

/-! ## The present selected (R31) -/

/-- The present shown after a decision point of the frame that starts at `tk`, when `due` are due. -/
def State.choice (s : State) (tk : Int) : Option Pres :=
  match bestPresent (s.duePresents tk), s.scn.shown with
  | none, q => q
  | some d, none => some d
  | some d, some q => if (q.t : Int) ≤ tk ∧ d.t < q.t then some q else some d

theorem bestPresent_none {ps : List Pres} (h : bestPresent ps = none) : ps = [] := by
  have hsome : ∀ (l : List Pres) (b : Pres), l.foldl (fun b p => match b with
      | none => some p
      | some q => if q.t ≤ p.t then some p else b) (some b) ≠ none := by
    intro l
    induction l with
    | nil => exact fun b => Option.some_ne_none b
    | cons p l ih =>
      intro b
      rw [List.foldl_cons]
      dsimp only
      split
      · exact ih p
      · exact ih b
  cases ps with
  | nil => rfl
  | cons p ps => exact absurd h (hsome ps p)

/-- Completing a present's descriptor leaves scan-out alone. -/
theorem State.endPresent_scn (s : State) (p : Pres) (status frame flags : Nat) (evs : List Nat) :
    (s.endPresent p status frame flags evs).scn = s.scn :=
  (State.endPresent_keeps (P := 615) rfl (Keeps.refl _ s)).same .scn rfl

theorem State.showPresent_scn (s : State) (k : Nat) (d : Pres) : (s.showPresent k d).scn = { s.scn with shown := some d } := by
  unfold State.showPresent
  dsimp only
  rw [State.endPresent_scn]
  exact (apply_ite State.scn _ _ _).trans (ite_self _)

/-- Selecting a present shows the choice and takes out what is due. -/
theorem State.selectPresent_scn (s : State) (k : Nat) (tk : Int) : (s.selectPresent k tk).scn =
    { s.scn with
      shown := s.choice tk
      presents := s.scn.presents.filter fun p => !(s.duePresents tk).contains p } := by
  unfold State.selectPresent State.choice
  dsimp only
  cases hb : bestPresent (s.duePresents tk) with
  | none =>
    have hdue := bestPresent_none hb
    simp [hdue]
  | some d =>
    have hskip : ∀ l : List Pres, (l.foldl (fun s p => s.endPresent p Cpl.SKIPPED k 0 []) s).scn = s.scn := fun l =>
      foldl_reads (g := State.scn) (fun s p => s.endPresent_scn p _ _ _ _) l s
    cases hq : s.scn.shown with
    | none => simp [State.keepsShown, hq, State.showPresent_scn, State.modScn, hskip]
    | some q =>
      by_cases hk : (q.t : Int) ≤ tk ∧ d.t < q.t
      · simp [State.keepsShown, hq, hk, State.modScn, hskip]
      · have hkeep : s.keepsShown tk d = false := by simpa [State.keepsShown, hq] using hk
        simp [hkeep, hk, State.showPresent_scn, State.modScn, hskip]

/-! ## What the rest of a decision point carries through -/

/-- A present as the guard points to come see it (R222). -/
def Pres.fresh (p : Pres) : Pres := { p with afterGuard := false }

/-- A commit as the guard points to come see it (R217). -/
def Commit.fresh (c : Commit) : Commit := { c with afterGuard := false }

/-- From `r` to `s` the present shown stays, and so do the presents and the commits that wait, whatever guard point they missed. -/
structure Carried (r s : State) : Prop where
  shown : s.scn.shown = r.scn.shown
  presents : s.scn.presents.map Pres.fresh = r.scn.presents.map Pres.fresh
  pend : s.cmp.pend.map Commit.fresh = r.cmp.pend.map Commit.fresh

theorem Carried.refl (s : State) : Carried s s := ⟨rfl, rfl, rfl⟩

theorem Carried.same {r s t : State} (h : Carried r s) (hs : t.scn.shown = s.scn.shown) (hp : t.scn.presents = s.scn.presents)
    (hc : t.cmp.pend = s.cmp.pend) : Carried r t :=
  ⟨hs.trans h.shown, by rw [hp]; exact h.presents, by rw [hc]; exact h.pend⟩

theorem Carried.keeps {P : Nat} {r s t : State} (h : Carried r s) (k : Keeps P s t) (hs : P.testBit Part.scn.idx = false)
    (hc : P.testBit Part.cmp.idx = false) : Carried r t := by
  have hscn : t.scn = s.scn := k.same .scn hs
  have hcmp : t.cmp = s.cmp := k.same .cmp hc
  exact h.same (by rw [hscn]) (by rw [hscn]) (by rw [hcmp])

theorem Carried.ite {r a b : State} {c : Prop} [Decidable c] (ha : Carried r a) (hb : Carried r b) : Carried r (if c then a else b) := by
  split
  · exact ha
  · exact hb

theorem Carried.forgetGuard {r s : State} (h : Carried r s) : Carried r s.forgetGuard := by
  refine ⟨h.shown, ?_, ?_⟩
  · rw [← h.presents]
    exact List.map_map.trans (List.map_congr_left fun _ _ => rfl)
  · rw [← h.pend]
    exact List.map_map.trans (List.map_congr_left fun _ _ => rfl)

theorem Carried.raise {r s : State} (h : Carried r s) (e : Nat) : Carried r (s.raise e) :=
  h.same (by rw [s.raise_scn]) (by rw [s.raise_scn]) (by rw [s.raise_cmp])

theorem Carried.retime {r s : State} (h : Carried r s) (d : Int) : Carried r (s.retime d) := by
  have hf : Carried r (s.renumber (s.geo.firstAfter d)).forgetGuard := .forgetGuard (h.same rfl rfl rfl)
  unfold State.retime
  dsimp only
  refine .raise ?_ _
  exact hf.same rfl rfl rfl

theorem Carried.latchEffects {r s : State} (h : Carried r s) (was : Nat → Word) : Carried r (s.latchEffects was) := by
  have hports : ∀ {t : State}, Carried r t → Carried r t.settlePorts := fun h =>
    h.keeps (State.settlePorts_keeps (P := 1064964) rfl (.refl _ _)) rfl rfl
  have hfrz : ∀ {t : State}, Carried r t → Carried r t.frzRestart := fun h => h.same rfl rfl rfl
  have hdcb : ∀ {t : State}, Carried r t → Carried r t.dcbRestart := fun h => h.same rfl rfl rfl
  have hfull : Carried r (s.modSyn fun y => { y with full := true }) := h.same rfl rfl rfl
  unfold State.latchEffects
  dsimp only
  refine .ite (hports ?counted) ?counted
  refine .ite (hdcb ?watched) ?watched
  refine .ite (hfrz ?drawn) ?drawn
  exact .ite hfull h

/-! ## The words in force (R199, R203, R204) -/

theorem State.liveWord_setLives_out {ws : List (Nat × Word)} {o : Nat} (s : State) (h : o ∉ ws.map Prod.fst) :
    (s.setLives ws).liveWord o = s.liveWord o := by
  induction ws generalizing s with
  | nil => rfl
  | cons c ws ih =>
    rw [List.map_cons, List.mem_cons, not_or] at h
    exact (ih _ h.2).trans (cellGet_set_ne _ _ h.1)

/-- Putting in force what is in force changes no word. -/
theorem State.liveWord_setLives_same {w : Nat → Word} {s : State} (hs : s.liveWord = w) (offs : List Nat) :
    (s.setLives (wordsAt w offs)).liveWord = w := by
  induction offs generalizing s with
  | nil => exact hs
  | cons o offs ih =>
    refine ih (s := s.setLive o (w o)) (funext fun p => (cellGet_set _ _ _ _).trans ?_)
    split
    · next h => rw [h]
    · exact congrFun hs p

theorem State.setLives_cmp (s : State) (ws : List (Nat × Word)) : (s.setLives ws).cmp = s.cmp :=
  (State.setLives_keeps (P := 8) rfl (Keeps.refl _ s)).same .cmp rfl

theorem keys_wordsAt (w : Nat → Word) (offs : List Nat) : (wordsAt w offs).map Prod.fst = offs := by
  exact List.map_map.trans (List.map_id offs)

/-- What a latching commit gives plane `n`. -/
def newWords (snap : Option (List (Nat × Word))) (n : Nat) : Option (List (Nat × Word)) :=
  snap.map fun m => wordsAt (snapWord m) (planeOffs n)

/-- What a decision point does to each plane. -/
def State.planeOuts (s : State) (snap : Option (List (Nat × Word))) : List (Nat × PlaneOut) :=
  (upFrom 1 7).map fun n => (n, s.latchPlane n (newWords snap n))

/-- The ready words of a decision point are read. -/
def State.readsReady (s : State) (snap : Option (List (Nat × Word))) : State :=
  (upFrom 1 7).foldl (fun s n => s.touchReady n (newWords snap n)) s

/-- A latching commit's words are in force, and every plane's. -/
def State.wordsIn (s : State) (snap : Option (List (Nat × Word))) (outs : List (Nat × PlaneOut)) : State :=
  outs.foldl (fun s o => s.setLives o.2.words) (match snap with | some m => s.latchWords m outs | none => s)

/-- Some plane's waiting state holds the rectangle's settings back. -/
def State.holdsChk (s : State) (c : ChkWait) : Bool := s.cmp.waits.any fun w => w.plane == c.plane

/-- The planes that still wait are noted, and rectangles whose plane no longer waits are in force. -/
def State.rectsIn (s : State) (outs : List (Nat × PlaneOut)) : State :=
  let s : State := { s with cmp := { s.cmp with waits := outs.filterMap fun (o : Nat × PlaneOut) => o.2.wait } }
  (s.cmp.chkWaits.filter fun c => !s.holdsChk c).foldl (fun s c => s.setLives c.words)
    { s with cmp := { s.cmp with chkWaits := s.cmp.chkWaits.filter s.holdsChk } }

/-- The planes not ready are flagged, counted and raised, and the retire records written; `was` were the words in force. -/
def State.notePlanes (s : State) (k : Nat) (was : Nat → Word) (outs : List (Nat × PlaneOut)) : State :=
  let s := s.wr F.CMP_STATUS_NOT_READY (s.cmp.waits.map fun w => 2 ^ w.plane).sum
  let s := outs.foldl (fun s o => if o.2.unready then (s.bump (F.CMP_CNT_COUNT 0)).raise Ev.CMP_LAYER_NOT_READY else s) s
  outs.foldl (fun s o => s.retirePlane k o.1 was s.liveWord o.2.dropped) s

theorem State.settlePlanes_eq (s : State) (k : Nat) (snap : Option (List (Nat × Word))) :
    s.settlePlanes k snap =
      (((s.readsReady snap).wordsIn snap (s.planeOuts snap)).rectsIn (s.planeOuts snap)).notePlanes k s.liveWord (s.planeOuts snap) := rfl

/-- Reading a ready word notes at most an event of the frame in the compositor, and no word in force. -/
theorem State.readReady_cmp (s : State) (p : Plane) : (s.readReady p).cmp = { s.cmp with seen := (s.readReady p).cmp.seen } := by
  have hread : (s.readFor .scan .cmp p.readyAddr 4).cmp = s.cmp := (State.readFor_keeps (P := 743) rfl (Keeps.refl _ s)).same .cmp rfl
  unfold State.readReady
  dsimp only
  split
  · split
    · rw [hread]
    · rw [State.cmpOnce_cmp, hread]
  · rfl

/-- What a compositor holds beside the events of the frame and its retire index. -/
def State.cmpHeld (s : State) : CmpSt := { s.cmp with seen := [], retIdx := 0 }

theorem State.cmpHeld_of_cmp {s t : State} (h : t.cmp = s.cmp) : t.cmpHeld = s.cmpHeld := by
  unfold State.cmpHeld
  rw [h]

theorem State.cmpHeld_reads {s t : State} (h : t.cmpHeld = s.cmpHeld) : t.cmp.pend = s.cmp.pend ∧ t.cmp.chkWaits = s.cmp.chkWaits := by
  unfold State.cmpHeld at h
  injection h with _ hpend _ hchk
  exact ⟨hpend, hchk⟩

theorem State.readReady_held (s : State) (p : Plane) : (s.readReady p).cmpHeld = s.cmpHeld := by
  unfold State.cmpHeld
  rw [State.readReady_cmp]

theorem State.touchReady_held (s : State) (n : Nat) (new : Option (List (Nat × Word))) : (s.touchReady n new).cmpHeld = s.cmpHeld := by
  unfold State.touchReady
  exact reads_ite (g := State.cmpHeld) (s.readReady_held _) rfl

theorem State.readsReady_rest (s : State) (snap : Option (List (Nat × Word))) :
    (s.readsReady snap).cmpHeld = s.cmpHeld ∧ (s.readsReady snap).liveWord = s.liveWord :=
  ⟨foldl_reads (fun s n => s.touchReady_held n _) _ s,
    foldl_reads (fun s _ => (State.touchReady_keeps (P := 4839) rfl (.refl _ s)).liveWord rfl) _ s⟩

theorem State.retire_held (s : State) (frame plane : Nat) (disabled never : Bool) (addr : Nat) :
    (s.retire frame plane disabled never addr).cmpHeld = s.cmpHeld := by
  unfold State.retire
  exact reads_ite (g := State.cmpHeld) rfl (reads_ite (g := State.cmpHeld) rfl (State.cmpHeld_of_cmp (State.raise_cmp _ _)))

theorem State.retirePlane_held (s : State) (k n : Nat) (was is_ : Nat → Word) (dropped : Option Nat) :
    (s.retirePlane k n was is_ dropped).cmpHeld = s.cmpHeld := by
  have hretire : ∀ {t : State}, t.cmpHeld = s.cmpHeld → ∀ frame disabled never addr,
      (t.retire frame n disabled never addr).cmpHeld = s.cmpHeld := fun h _ _ _ _ => (State.retire_held _ _ _ _ _ _).trans h
  unfold State.retirePlane
  dsimp only
  have hdropped : (match dropped with
      | some a => if s.stillReads n a is_ then s else s.retire (k % 2 ^ 32) n false true a
      | none => s).cmpHeld = s.cmpHeld := by
    split
    · exact reads_ite (g := State.cmpHeld) rfl (hretire rfl _ _ _ _)
    · rfl
  exact reads_ite (g := State.cmpHeld) (hretire hdropped _ _ _ _) (reads_ite (g := State.cmpHeld) (hretire hdropped _ _ _ _) hdropped)

/-- A plane found not ready is counted and raised. -/
def State.noteUnready (s : State) (o : Nat × PlaneOut) : State :=
  if o.2.unready then (s.bump (F.CMP_CNT_COUNT 0)).raise Ev.CMP_LAYER_NOT_READY else s

theorem State.notePlanes_rest (s : State) (k : Nat) (was : Nat → Word) (outs : List (Nat × PlaneOut)) :
    (s.notePlanes k was outs).cmpHeld = s.cmpHeld ∧ (s.notePlanes k was outs).liveWord = s.liveWord := by
  have hunready : ∀ (t : State) (o : Nat × PlaneOut), (t.noteUnready o).cmpHeld = t.cmpHeld := fun t o =>
    reads_ite (g := State.cmpHeld) (State.cmpHeld_of_cmp (State.raise_cmp _ _)) rfl
  have hunreadyLive : ∀ (t : State) (o : Nat × PlaneOut), (t.noteUnready o).liveWord = t.liveWord := fun t o =>
    Keeps.liveWord (P := 615) (keeps_ite (State.raise_keeps rfl (State.bump_keeps rfl (.refl _ t))) (.refl _ t)) rfl
  constructor
  · exact (foldl_reads (fun t _ => t.retirePlane_held _ _ _ _ _) outs _).trans (foldl_reads hunready outs _)
  · exact (foldl_reads (fun t _ => (State.retirePlane_keeps (P := 4711) rfl (.refl _ t)).liveWord rfl) outs _).trans
      (foldl_reads hunreadyLive outs _)

/-- Words of a plane's registers. -/
def PlaneWords (ws : List (Nat × Word)) : Prop := ∃ n w, 1 ≤ n ∧ n ≤ 7 ∧ ws = wordsAt w (planeOffs n)

/-- Words of a cyclic rectangle's registers. -/
def RectWords (ws : List (Nat × Word)) : Prop := ∃ n w, n < 8 ∧ ws = wordsAt w (chkOffs n)

/-- A register that belongs to no plane and to no cyclic rectangle. -/
def PlainOff (o : Nat) : Prop := (∀ n, 1 ≤ n → n ≤ 7 → o ∉ planeOffs n) ∧ ∀ n < 8, o ∉ chkOffs n

theorem PlainOff.plane {o : Nat} (h : PlainOff o) {ws : List (Nat × Word)} (hw : PlaneWords ws) (s : State) :
    (s.setLives ws).liveWord o = s.liveWord o := by
  obtain ⟨n, w, h1, h7, rfl⟩ := hw
  exact s.liveWord_setLives_out (by rw [keys_wordsAt]; exact h.1 n h1 h7)

theorem PlainOff.rect {o : Nat} (h : PlainOff o) {ws : List (Nat × Word)} (hw : RectWords ws) (s : State) :
    (s.setLives ws).liveWord o = s.liveWord o := by
  obtain ⟨n, w, h8, rfl⟩ := hw
  exact s.liveWord_setLives_out (by rw [keys_wordsAt]; exact h.2 n h8)

theorem mem_planes {n : Nat} (h : n ∈ upFrom 1 7) : 1 ≤ n ∧ n ≤ 7 := by
  simp only [upFrom, List.mem_map, List.mem_range] at h
  omega

/-- A plane in a latch takes the words it had, or the commit's. -/
theorem State.latchPlane_words (s : State) (n : Nat) (ws : List (Nat × Word)) :
    (s.latchPlane n (some ws)).words = wordsAt s.liveWord (planeOffs n) ∨ (s.latchPlane n (some ws)).words = ws := by
  unfold State.latchPlane
  dsimp only
  cases hw : s.cmp.waits.find? fun w => w.plane == n with
  | none =>
    simp only [Bool.false_eq_true, if_false]
    split
    · exact .inl rfl
    · split
      · exact .inr rfl
      · exact .inl rfl
  | some w =>
    dsimp only
    split
    · next hk =>
      split
      · exact .inr (by simpa using Eq.symm (by simpa using hk))
      · exact .inl rfl
    · split
      · exact .inl rfl
      · split
        · exact .inr rfl
        · exact .inl rfl

theorem State.planeOuts_words (s : State) (m : List (Nat × Word)) {o : Nat × PlaneOut} (h : o ∈ s.planeOuts (some m)) :
    PlaneWords o.2.words := by
  obtain ⟨n, hn, rfl⟩ := List.mem_map.mp h
  obtain ⟨h1, h7⟩ := mem_planes hn
  rcases s.latchPlane_words n (wordsAt (snapWord m) (planeOffs n)) with hw | hw
  · exact ⟨n, _, h1, h7, hw⟩
  · exact ⟨n, _, h1, h7, hw⟩

/-- Without a commit and with no plane waiting, every plane keeps its words. -/
theorem State.planeOuts_idle {s : State} (h : s.cmp.waits = []) {o : Nat × PlaneOut} (ho : o ∈ s.planeOuts none) :
    ∃ n, o.2.words = wordsAt s.liveWord (planeOffs n) := by
  obtain ⟨n, -, rfl⟩ := List.mem_map.mp ho
  refine ⟨n, ?_⟩
  unfold State.latchPlane
  simp [h, newWords]

/-- A rectangle's settings are put in force, or what they were again. -/
theorem State.latchWords_rest (s : State) (m : List (Nat × Word)) (outs : List (Nat × PlaneOut)) :
    (s.latchWords m outs).cmp.pend = s.cmp.pend ∧ (∀ c ∈ (s.latchWords m outs).cmp.chkWaits, RectWords c.words) ∧
      ∀ o, PlainOff o → (s.latchWords m outs).liveWord o = snapWord m o := by
  have hcmp := foldl_reads (g := State.cmp) (fun (s' : State) (c : Nat × Nat × Bool) => s'.setLives_cmp (wordsAt s.liveWord (chkOffs c.1)))
  unfold State.latchWords
  dsimp only
  refine ⟨?_, ?_, fun o ho => ?_⟩
  · rw [hcmp]
  · rw [hcmp]
    intro c hc
    obtain ⟨r, hr, rfl⟩ := List.mem_map.mp hc
    obtain ⟨n, hn, rfl⟩ := List.mem_map.mp (List.mem_filter.mp hr).1
    exact ⟨n, _, List.mem_range.mp hn, rfl⟩
  · refine List.foldlRecOn _ _ (motive := fun t : State => t.liveWord o = snapWord m o) (cellGet_cellsOf m o) fun t ht c hc => ?_
    obtain ⟨n, hn, rfl⟩ := List.mem_map.mp (List.mem_filter.mp hc).1
    exact (ho.rect ⟨n, _, List.mem_range.mp hn, rfl⟩ t).trans ht

theorem State.wordsIn_cmp (s : State) (snap : Option (List (Nat × Word))) (outs : List (Nat × PlaneOut)) :
    (s.wordsIn snap outs).cmp = (match snap with | some m => s.latchWords m outs | none => s).cmp := by
  unfold State.wordsIn
  exact foldl_reads (g := State.cmp) (fun s (o : Nat × PlaneOut) => s.setLives_cmp o.2.words) outs _

theorem State.rectsIn_pend (s : State) (outs : List (Nat × PlaneOut)) : (s.rectsIn outs).cmp.pend = s.cmp.pend := by
  unfold State.rectsIn
  rw [foldl_reads (g := State.cmp) fun s (c : ChkWait) => s.setLives_cmp c.words]

/-- Rectangles whose plane no longer waits change words of rectangles only. -/
theorem State.rectsIn_liveWord {s : State} (h : ∀ c ∈ s.cmp.chkWaits, RectWords c.words) (outs : List (Nat × PlaneOut)) {o : Nat}
    (ho : PlainOff o) : (s.rectsIn outs).liveWord o = s.liveWord o :=
  List.foldlRecOn _ _ (motive := fun t : State => t.liveWord o = s.liveWord o) rfl fun t ht c hc =>
    (ho.rect (h c (List.mem_filter.mp hc).1) t).trans ht

theorem State.settlePlanes_pend (s : State) (k : Nat) (snap : Option (List (Nat × Word))) :
    (s.settlePlanes k snap).cmp.pend = s.cmp.pend := by
  have hread := (State.cmpHeld_reads (s.readsReady_rest snap).1).1
  rw [State.settlePlanes_eq, (State.cmpHeld_reads (State.notePlanes_rest _ _ _ _).1).1, State.rectsIn_pend, State.wordsIn_cmp, ← hread]
  cases snap with
  | none => rfl
  | some m => exact (State.latchWords_rest _ m _).1

/-- Beside planes and rectangles, a latching commit's words are in force. -/
theorem State.settlePlanes_latched (s : State) (k : Nat) (m : List (Nat × Word)) {o : Nat} (ho : PlainOff o) :
    (s.settlePlanes k (some m)).liveWord o = snapWord m o := by
  obtain ⟨-, hrect, hword⟩ := (s.readsReady (some m)).latchWords_rest m (s.planeOuts (some m))
  rw [State.settlePlanes_eq, (State.notePlanes_rest _ _ _ _).2,
    State.rectsIn_liveWord (by rw [State.wordsIn_cmp]; exact hrect) _ ho]
  exact List.foldlRecOn _ _ (motive := fun t : State => t.liveWord o = snapWord m o) (hword o ho) fun t ht c hc =>
    (ho.plane (s.planeOuts_words m hc) t).trans ht

/-- Without a commit and with nothing waiting, every word stays. -/
theorem State.settlePlanes_idle {s : State} (k : Nat) (hw : s.cmp.waits = []) (hc : s.cmp.chkWaits = []) :
    (s.settlePlanes k none).liveWord = s.liveWord := by
  obtain ⟨hheld, hlive⟩ := s.readsReady_rest none
  have hnone : ((s.readsReady none).wordsIn none (s.planeOuts none)).cmp.chkWaits = [] := by
    rw [State.wordsIn_cmp]
    exact (State.cmpHeld_reads hheld).2.trans hc
  have hwords : ((s.readsReady none).wordsIn none (s.planeOuts none)).liveWord = s.liveWord :=
    List.foldlRecOn _ _ (motive := fun t : State => t.liveWord = s.liveWord) hlive fun t ht o ho => by
      obtain ⟨n, hn⟩ := State.planeOuts_idle hw ho
      rw [hn]
      exact State.liveWord_setLives_same ht _
  rw [State.settlePlanes_eq, (State.notePlanes_rest _ _ _ _).2, ← hwords]
  unfold State.rectsIn
  dsimp only
  rw [hnone]
  rfl

/-! ## The commit latched (R199, R217) -/

/-- Planes settle without touching presents and commits. -/
theorem Carried.settlePlanes {r s : State} (h : Carried r s) (k : Nat) (snap : Option (List (Nat × Word))) :
    Carried r (s.settlePlanes k snap) := by
  have hscn : (s.settlePlanes k snap).scn = s.scn := (State.settlePlanes_keeps (P := 4847) rfl (Keeps.refl _ s)).same .scn rfl
  exact h.same (by rw [hscn]) (by rw [hscn]) (s.settlePlanes_pend k snap)

/-- A commit leaves the pending ones. -/
def State.dropCommit (s : State) : State := { s with cmp := { s.cmp with pend := s.cmp.pend.drop 1 } }

/-- The rest of a latch once planes have settled: what the words changed, a retiming, and the commit's completion. -/
def State.finishCommit (s : State) (d : Int) (was : Nat → Word) (re : Bool) (first : Nat) (c : Commit) : State :=
  let s := s.latchEffects was
  let s := if re then (s.retime d).captureAs (some first) else s
  let s := if c.late then
      (if s.cmp.pend.isEmpty then s.wrB F.SCN_LAST_COMMIT_LATE true else s).bump (F.SCN_CNT_COUNT 0)
    else s
  (s.complete c.ring c.idx Cpl.SUCCESS (first % 2 ^ 32) (if c.late then CFlag.COMMIT_LATE else 0)
    (if c.late then [Ev.SCN_COMMIT_LATE] else [])).commitBits

/-- The first frame with a commit's words. -/
def State.firstWith (s : State) (k : Nat) (d : Int) (c : Commit) : Nat :=
  if isRetiming s.liveWord (snapWord c.snap) then (geoOf (snapWord c.snap)).firstAfter d else k

theorem State.latchCommit_eq (s : State) (k : Nat) (d : Int) (c : Commit) :
    s.latchCommit k d c = (s.dropCommit.settlePlanes (s.firstWith k d c) (some c.snap)).finishCommit d s.liveWord
      (isRetiming s.liveWord (snapWord c.snap)) (s.firstWith k d c) c := rfl

theorem Carried.finishCommit {r s : State} (h : Carried r s) (d : Int) (was : Nat → Word) (re : Bool) (first : Nat) (c : Commit) :
    Carried r (s.finishCommit d was re first c) := by
  have he := h.latchEffects was
  have hdone : ∀ {t : State} {ring idx status info flags : Nat} {evs : List Nat}, Carried r t →
      Carried r (t.complete ring idx status info flags evs).commitBits := fun h =>
    h.keeps (P := 582) (State.commitBits_keeps rfl (State.complete_keeps rfl (.refl _ _))) rfl rfl
  unfold State.finishCommit
  dsimp only
  have hwr : ∀ {t : State} {f : Fld} {v : Nat}, Carried r t → Carried r (t.wr f v) := fun h => h.same rfl rfl rfl
  refine hdone (.ite (hwr (.ite (hwr ?retimed) ?retimed)) ?retimed)
  exact .ite ((he.retime d).same rfl rfl rfl) he

theorem State.finishCommit_live (s : State) (d : Int) (was : Nat → Word) (re : Bool) (first : Nat) (c : Commit) :
    (s.finishCommit d was re first c).liveWord = s.liveWord := by
  have he : Keeps (1075204 ||| 29303 ||| 256 ||| 582) s (s.latchEffects was) := State.latchEffects_keeps rfl (.refl _ s)
  have hr : Keeps (1075204 ||| 29303 ||| 256 ||| 582) s
      (if re then ((s.latchEffects was).retime d).captureAs (some first) else s.latchEffects was) :=
    keeps_ite (State.captureAs_keeps rfl (State.retime_keeps rfl he)) he
  unfold State.finishCommit
  dsimp only
  refine Keeps.liveWord (P := 1075204 ||| 29303 ||| 256 ||| 582) (State.commitBits_keeps rfl (State.complete_keeps rfl ?_)) rfl
  exact keeps_ite (State.bump_keeps rfl (keeps_ite (State.wrB_keeps rfl hr) hr)) hr

theorem State.latchStep_bound {s : State} {c : Commit} {cs : List Commit} (h : s.cmp.pend = c :: cs) (hb : c.bound = true) (k : Nat)
    (d : Int) : s.latchStep k d = s.latchCommit k d c := by
  unfold State.latchStep
  rw [h]
  exact if_pos hb

theorem State.latchStep_idle {s : State} (h : s.cmp.pend = []) (k : Nat) (d : Int) : s.latchStep k d = s.settlePlanes k none := by
  unfold State.latchStep
  rw [h]

theorem State.latchCommit_carried (s : State) (k : Nat) (d : Int) (c : Commit) : Carried s.dropCommit (s.latchCommit k d c) := by
  rw [State.latchCommit_eq]
  exact ((Carried.refl _).settlePlanes _ _).finishCommit _ _ _ _ _

/-- The latch leaves the presents, whatever guard point they missed. -/
theorem State.latchStep_presents (s : State) (k : Nat) (d : Int) : (s.latchStep k d).scn.shown = s.scn.shown ∧
    (s.latchStep k d).scn.presents.map Pres.fresh = s.scn.presents.map Pres.fresh := by
  have hidle := (Carried.refl s).settlePlanes k none
  unfold State.latchStep
  split
  · split
    · exact ⟨(s.latchCommit_carried k d _).shown, (s.latchCommit_carried k d _).presents⟩
    · exact ⟨hidle.shown, hidle.presents⟩
  · exact ⟨hidle.shown, hidle.presents⟩

/-! ## Picture checks, step 5 and the start of synthesis (R144, R224) -/

/-- Scan-out beside the freeze detector. -/
def State.scnHeld (s : State) : ScnSt := { s.scn with refSig := 0, refAu := none, frzFirst := false, frozen := false }

theorem State.scnHeld_of_scn {s t : State} (h : t.scn = s.scn) : t.scnHeld = s.scnHeld := by
  unfold State.scnHeld
  rw [h]

theorem State.scnHeld_reads {s t : State} (h : t.scnHeld = s.scnHeld) :
    t.scn.next = s.scn.next ∧ t.scn.shown = s.scn.shown ∧ t.scn.presents = s.scn.presents := by
  have hnext := congrArg ScnSt.next h
  have hshown := congrArg ScnSt.shown h
  have hpresents := congrArg ScnSt.presents h
  exact ⟨hnext, hshown, hpresents⟩

theorem State.scnHeld_alarm (s : State) (code bit : Nat) : (s.alarm code bit).scnHeld = s.scnHeld :=
  State.scnHeld_of_scn ((State.alarm_keeps (P := 3146359) rfl (Keeps.refl _ s)).same .scn rfl)

theorem State.scnHeld_raise (s : State) (e : Nat) : (s.raise e).scnHeld = s.scnHeld := State.scnHeld_of_scn (s.raise_scn e)

theorem State.scnHeld_wr (s : State) (f : Fld) (v : Nat) : (s.wr f v).scnHeld = s.scnHeld := State.scnHeld_of_scn rfl

/-- The signature `sig` becomes the freeze detector's reference, with the access unit in scan. -/
def State.takeReference (s : State) (sig : Nat) : State := s.modScn fun c => { c with refSig := sig, refAu := c.auScan }

/-- The freeze detector counts a frame of signature `sig`: a new signature starts over, another access unit counts. -/
def State.countFreeze (s : State) (sig : Nat) : State :=
  let other := s.scn.auScan.isNone || s.scn.refAu.isNone || s.scn.auScan != s.scn.refAu
  if sig ≠ s.scn.refSig then (s.wr F.SCN_FRZ_STATUS_COUNT 0).modScn fun c => { c with frozen := false }
  else if other then s.bump F.SCN_FRZ_STATUS_COUNT else s

/-- The picture is declared frozen at its limit. -/
def State.declareFreeze (s : State) : State :=
  if s.lv F.SCN_FRZ_CTRL_N ≤ s.frzCount ∧ s.scn.frozen = false then
    ((((s.modScn fun c => { c with frozen := true }).wrB F.SCN_FRZ_STATUS_FROZEN true).bump (F.SCN_CNT_COUNT 2)).raise
      Ev.SCN_FREEZE).alarm 0x05 4
  else s

theorem State.freezeStep_eq (s : State) : s.freezeStep =
    let t := s.wr F.SCN_FRZ_SIG_SIG (s.sigOf 0)
    if t.scn.frzFirst then ((t.takeReference (s.sigOf 0)).modScn fun c => { c with frzFirst := false }).wr F.SCN_FRZ_STATUS_COUNT 0
    else if t.scn.replayScan.contains (s.lv F.SCN_FRZ_CTRL_V_SEL * s.geo.gu + s.lv F.SCN_FRZ_CTRL_U_SEL) then t
    else ((t.countFreeze (s.sigOf 0)).takeReference (s.sigOf 0)).declareFreeze := rfl

theorem State.countFreeze_held (s : State) (sig : Nat) : (s.countFreeze sig).scnHeld = s.scnHeld :=
  reads_ite (g := State.scnHeld) (s.scnHeld_wr _ _) (reads_ite (g := State.scnHeld) (s.scnHeld_wr _ _) rfl)

theorem State.declareFreeze_held (s : State) : s.declareFreeze.scnHeld = s.scnHeld := by
  refine reads_ite (g := State.scnHeld) ?_ rfl
  rw [State.scnHeld_alarm, State.scnHeld_raise]
  rfl

theorem State.freezeStep_held (s : State) : s.freezeStep.scnHeld = s.scnHeld := by
  have ht := s.scnHeld_wr F.SCN_FRZ_SIG_SIG (s.sigOf 0)
  rw [State.freezeStep_eq]
  dsimp only
  refine reads_ite (g := State.scnHeld) ((State.scnHeld_wr _ _ _).trans ht) (reads_ite (g := State.scnHeld) ht ?_)
  exact (State.declareFreeze_held _).trans ((State.countFreeze_held _ _).trans ht)

/-- The picture checks leave scan-out beside the freeze detector, the compositor, the power state and the words in force. -/
theorem State.pictureChecks_rest (s : State) : s.pictureChecks.scnHeld = s.scnHeld ∧ s.pictureChecks.cmp = s.cmp ∧
    s.pictureChecks.pwr = s.pwr ∧ s.pictureChecks.liveWord = s.liveWord := by
  have hk := State.pictureChecks_keeps (P := 3154551) rfl (Keeps.refl _ s)
  have hcyclic : ∀ t : State, t.cyclicStep.scnHeld = t.scnHeld := fun t =>
    State.scnHeld_of_scn ((State.cyclicStep_keeps (P := 3146359) rfl (Keeps.refl _ t)).same .scn rfl)
  refine ⟨?_, hk.same .cmp rfl, hk.same .pwr rfl, hk.liveWord rfl⟩
  unfold State.pictureChecks
  exact reads_ite (g := State.scnHeld) ((hcyclic _).trans (reads_ite (g := State.scnHeld) s.freezeStep_held rfl)) rfl

/-- Steps 4 and 5 of Table 7-3 beside the latch: staged results, repairs, blanking, records and the events held. -/
def State.settleLine (s : State) : State :=
  ((s.applyCal.applyPref).decPublish.modDec fun d => { d with oldPics := none }).decideBlank.pumpLatch.releaseEvents

theorem State.decideBlank_scn (s : State) : s.decideBlank.scn = { s.scn with blankNext := s.decideBlank.scn.blankNext } := by
  have hraise : ∀ {t : State} {e : Nat}, t.scn = s.scn → (t.raise e).scn = s.scn := fun h => (State.raise_scn _ _).trans h
  unfold State.decideBlank
  dsimp only
  have hevents : ∀ {t : State} {b : Bool}, t.scn = s.scn → (t.modScn fun c => { c with blankNext := b }).scn = { s.scn with blankNext := b } :=
    fun {_ b} h => congrArg (fun c : ScnSt => { c with blankNext := b }) h
  refine hevents (reads_ite (g := State.scn) (hraise ?chk) ?chk)
  exact reads_ite (g := State.scn) (hraise rfl) rfl

theorem State.settleLine_rest (s : State) : s.settleLine.scn = { s.scn with blankNext := s.settleLine.scn.blankNext } ∧
    s.settleLine.cmp = s.cmp ∧ s.settleLine.liveWord = s.liveWord := by
  have hpre : Keeps (16999 ||| 16385 ||| 33383 ||| 32768) s ((s.applyCal.applyPref).decPublish.modDec fun d => { d with oldPics := none }) :=
    State.modDec_keeps rfl (State.decPublish_keeps rfl (State.applyPref_keeps rfl (State.applyCal_keeps rfl (.refl _ s))))
  have hpost : ∀ t : State, t.pumpLatch.releaseEvents.scn = t.scn := fun t =>
    (State.releaseEvents_keeps (P := 295527 ||| 615) rfl (State.pumpLatch_keeps rfl (Keeps.refl _ t))).same .scn rfl
  have hall : Keeps (16999 ||| 16385 ||| 33383 ||| 32768 ||| 8807 ||| 295527 ||| 615) s s.settleLine :=
    State.releaseEvents_keeps rfl (State.pumpLatch_keeps rfl (State.decideBlank_keeps rfl (State.modDec_keeps rfl
      (State.decPublish_keeps rfl (State.applyPref_keeps rfl (State.applyCal_keeps rfl (.refl _ s)))))))
  refine ⟨?_, hall.same .cmp rfl, hall.liveWord rfl⟩
  have hscn : ((s.applyCal.applyPref).decPublish.modDec fun d => { d with oldPics := none }).scn = s.scn := hpre.same .scn rfl
  unfold State.settleLine
  rw [hpost, State.decideBlank_scn, hscn]

/-- Synthesis of frame `k` with an access unit stands at row 0 of both dies. -/
structure AtRowZero (k : Nat) (au : Option Nat) (y : SynSt) : Prop where
  frame : y.frame = some k
  au : y.au = au
  west : y.west.y = 0
  east : y.east.y = 0

theorem AtRowZero.synOnce {k : Nat} {au : Option Nat} {s : State} (h : AtRowZero k au s.syn) (e : Nat) :
    AtRowZero k au (s.synOnce e).syn := by
  unfold State.synOnce
  split
  · exact h
  · rw [State.raise_syn]
    exact ⟨h.frame, h.au, h.west, h.east⟩

theorem AtRowZero.setLevel {k : Nat} {au : Option Nat} {s : State} (h : AtRowZero k au s.syn) (d : Die) (n : Nat) :
    AtRowZero k au (s.setLevel d n).syn := by
  have hd : AtRowZero k au (s.setDie d { s.syn.die d with level := n }).syn := by
    cases d <;> exact ⟨h.frame, h.au, h.west, h.east⟩
  unfold State.setLevel
  dsimp only
  split
  · exact hd.synOnce _
  split
  · exact hd.synOnce _
  · exact hd

theorem State.synStart_zero (s : State) (k : Nat) (au : Option Nat) : AtRowZero k au (s.synStart k au).syn := by
  unfold State.synStart
  dsimp only
  refine .setLevel (.setLevel ?_ _ _) _ _
  exact ⟨rfl, rfl, rfl, rfl⟩

/-- Synthesis starts for the next frame with the unit shown. -/
theorem State.startSynthesis_rest (s : State) : s.startSynthesis.scn = { s.scn with auNext := s.scn.shown.map Pres.au } ∧
    AtRowZero s.scn.next (s.scn.shown.map Pres.au) s.startSynthesis.syn ∧ s.startSynthesis.cmp = s.cmp ∧
    s.startSynthesis.liveWord = s.liveWord := by
  have hk := State.startSynthesis_keeps (P := 10855) rfl (Keeps.refl _ s)
  have hthr : Keeps (615 ||| 2663) s s.supplyExcess.throttle := State.throttle_keeps rfl (State.supplyExcess_keeps rfl (.refl _ s))
  have hscn : (if s.supplyExcess.throttle.isCapture s.scn.next then s.supplyExcess.throttle.modSyn fun y => { y with full := true }
      else s.supplyExcess.throttle).scn = s.scn := reads_ite (g := State.scn) (hthr.same .scn rfl) (hthr.same .scn rfl)
  refine ⟨?_, ?_, hk.same .cmp rfl, hk.liveWord rfl⟩
  · unfold State.startSynthesis
    dsimp only
    rw [hscn]
    refine ((State.synStart_keeps (P := 2663) rfl (Keeps.refl _ _)).same .scn rfl).trans ?_
    exact congrArg (fun c : ScnSt => { c with auNext := s.scn.shown.map Pres.au }) hscn
  · unfold State.startSynthesis
    dsimp only
    rw [hscn]
    exact State.synStart_zero _ _ _

/-! ## The decision point -/

/-- Step 2 of Table 7-3, with the line buffers of the frame before emptied. -/
def State.chosen (s : State) : State :=
  ({ s with cmp := { s.cmp with lines := [], formed := [], seen := [] } } : State).selectPresent s.scn.next (s.geo.startOf s.scn.next)

/-- Steps 2 to 4 of Table 7-3 on planes and commits. -/
def State.latched (s : State) : State := s.chosen.latchStep s.scn.next (s.geo.decisionOf s.scn.next)

/-- The next frame is decided. -/
def State.decided (s : State) : State := (s.modScn fun c => { c with decided := true, guarded := false }).forgetGuard

theorem State.decided_rest (s : State) :
    s.decided.scn = { s.scn with decided := true, guarded := false, presents := s.scn.presents.map Pres.fresh } ∧
    s.decided.syn = s.syn ∧ s.decided.cmp.pend = s.cmp.pend.map Commit.fresh ∧ s.decided.liveWord = s.liveWord := ⟨rfl, rfl, rfl, rfl⟩

theorem State.latchLine_eq (s : State) : s.latchLine = s.latched.settleLine.startSynthesis.decided := rfl

theorem State.chosen_rest (s : State) : s.chosen.scn = { s.scn with
      shown := s.choice (s.geo.startOf s.scn.next)
      presents := s.scn.presents.filter fun p => !(s.duePresents (s.geo.startOf s.scn.next)).contains p } ∧
    s.chosen.cmp = { s.cmp with lines := [], formed := [], seen := [] } ∧ s.chosen.liveWord = s.liveWord := by
  have hk := State.selectPresent_keeps (P := 8807) (k := s.scn.next) (tk := s.geo.startOf s.scn.next) rfl
    (Keeps.refl _ ({ s with cmp := { s.cmp with lines := [], formed := [], seen := [] } } : State))
  exact ⟨State.selectPresent_scn _ _ _, hk.same .cmp rfl, hk.liveWord rfl⟩

/-- What follows the latch at a decision point. -/
theorem State.latchLine_rest (s : State) : s.latchLine.scn = { s.latched.scn with
      decided := true, guarded := false, blankNext := s.latchLine.scn.blankNext, auNext := s.latched.scn.shown.map Pres.au
      presents := s.latched.scn.presents.map Pres.fresh } ∧
    AtRowZero s.latched.scn.next (s.latched.scn.shown.map Pres.au) s.latchLine.syn ∧
    s.latchLine.cmp.pend = s.latched.cmp.pend.map Commit.fresh ∧ s.latchLine.liveWord = s.latched.liveWord := by
  obtain ⟨hscn, hcmp, hlive⟩ := s.latched.settleLine_rest
  obtain ⟨sscn, ssyn, scmp, slive⟩ := s.latched.settleLine.startSynthesis_rest
  obtain ⟨dscn, dsyn, dpend, dlive⟩ := s.latched.settleLine.startSynthesis.decided_rest
  rw [hscn] at sscn ssyn
  rw [scmp, hcmp] at dpend
  rw [State.latchLine_eq]
  refine ⟨?_, by rw [dsyn]; exact ssyn, dpend, dlive.trans (slive.trans hlive)⟩
  rw [dscn, sscn]

/-- The present selected is shown, those due leave the latch logic, and synthesis starts with its access unit. -/
theorem State.latchLine_shows (s : State) : s.latchLine.scn.decided = true ∧ s.latchLine.scn.guarded = false ∧
    s.latchLine.scn.shown = s.choice (s.geo.startOf s.scn.next) ∧
    s.latchLine.scn.presents =
      (s.scn.presents.filter fun p => !(s.duePresents (s.geo.startOf s.scn.next)).contains p).map Pres.fresh ∧
    s.latchLine.syn.au = (s.choice (s.geo.startOf s.scn.next)).map Pres.au ∧
    s.latchLine.scn.auNext = (s.choice (s.geo.startOf s.scn.next)).map Pres.au ∧ s.latchLine.syn.west.y = 0 ∧
    s.latchLine.syn.east.y = 0 := by
  obtain ⟨hscn, hsyn, -, -⟩ := s.latchLine_rest
  obtain ⟨hshown, hpresents⟩ := s.chosen.latchStep_presents s.scn.next (s.geo.decisionOf s.scn.next)
  rw [s.chosen_rest.1] at hshown hpresents
  rw [hscn]
  refine ⟨rfl, rfl, hshown, hpresents, hsyn.au.trans ?_, ?_, hsyn.west, hsyn.east⟩
  · exact congrArg (Option.map Pres.au) hshown
  · exact congrArg (Option.map Pres.au) hshown

/-- A bound commit leaves the pending ones, and its snapshot is in force beside planes and rectangles. -/
theorem State.latchLine_latches {s : State} {c : Commit} {cs : List Commit} (h : s.cmp.pend = c :: cs) (hb : c.bound = true) :
    s.latchLine.cmp.pend = cs.map Commit.fresh ∧ ∀ o, PlainOff o → s.latchLine.liveWord o = snapWord c.snap o := by
  obtain ⟨-, -, hpend, hlive⟩ := s.latchLine_rest
  obtain ⟨-, hcmp, -⟩ := s.chosen_rest
  have hchosen : s.chosen.cmp.pend = c :: cs := by rw [hcmp]; exact h
  have hlatched : s.latched = s.chosen.latchCommit s.scn.next (s.geo.decisionOf s.scn.next) c := State.latchStep_bound hchosen hb _ _
  have hdrop : s.chosen.dropCommit.cmp.pend = cs := congrArg (List.drop 1) hchosen
  rw [hpend, hlive, hlatched]
  refine ⟨?_, fun o ho => ?_⟩
  · rw [(s.chosen.latchCommit_carried _ _ c).pend, hdrop]
  · rw [State.latchCommit_eq, State.finishCommit_live, State.settlePlanes_latched _ _ _ ho]

/-- With no commit pending the next frame is the one synthesised, and with nothing waiting every word in force stays. -/
theorem State.latchLine_idle {s : State} (h : s.cmp.pend = []) : s.latchLine.syn.frame = some s.scn.next ∧
    s.latchLine.scn.next = s.scn.next ∧
    (s.cmp.waits = [] → s.cmp.chkWaits = [] → s.latchLine.liveWord = s.liveWord) := by
  obtain ⟨hscn, hsyn, -, hlive⟩ := s.latchLine_rest
  obtain ⟨cscn, ccmp, clive⟩ := s.chosen_rest
  have hlatched : s.latched = s.chosen.settlePlanes s.scn.next none := State.latchStep_idle (by rw [ccmp]; exact h) _ _
  have hkept : s.latched.scn = s.chosen.scn := by
    rw [hlatched]
    exact (State.settlePlanes_keeps (P := 4847) rfl (Keeps.refl _ s.chosen)).same .scn rfl
  have hnext : s.latched.scn.next = s.scn.next := by rw [hkept, cscn]
  refine ⟨hsyn.frame.trans (by rw [hnext]), by rw [hscn]; exact hnext, fun hw hc => ?_⟩
  rw [hlive, hlatched, State.settlePlanes_idle _ (by rw [ccmp]; exact hw) (by rw [ccmp]; exact hc), clive]

/-- Step 1 of Table 7-3, with deliveries held. -/
def State.checked (s : State) : State := s.holdEvents.pictureChecks

/-- The picture checks leave what the later steps read. -/
theorem State.checked_rest (s : State) : s.checked.scn.next = s.scn.next ∧ s.checked.scn.presents = s.scn.presents ∧
    s.checked.cmp = s.cmp ∧ s.checked.liveWord = s.liveWord ∧ s.checked.geo = s.geo ∧ (∀ tk, s.checked.duePresents tk = s.duePresents tk) ∧
    (∀ tk, s.checked.choice tk = s.choice tk) := by
  obtain ⟨hheld, hcmp, -, hlive⟩ := s.holdEvents.pictureChecks_rest
  obtain ⟨hnext, hshown, hpresents⟩ := State.scnHeld_reads hheld
  have hdue : ∀ tk, s.checked.duePresents tk = s.duePresents tk := fun tk => congrArg (List.filter _) hpresents
  refine ⟨hnext, hpresents, hcmp, hlive, congrArg geoOf hlive, hdue, fun tk => ?_⟩
  have hshownKept : s.checked.scn.shown = s.scn.shown := hshown
  unfold State.choice
  rw [hdue, hshownKept]

theorem State.decisionPoint_eq {s : State} (hg : s.scn.guarded = true) (hc : s.pwr.captureFrame = none) :
    s.decisionPoint = s.checked.latchLine := by
  obtain ⟨-, -, hpwr, -⟩ := s.holdEvents.pictureChecks_rest
  have hcap : s.holdEvents.pictureChecks.pwr.captureFrame = none := by rw [hpwr]; exact hc
  unfold State.decisionPoint
  dsimp only
  rw [if_pos hg, hcap]
  rfl

/-- Settles O33: the picture checks leave what the latch line reads, and the latch line shows, latches and starts. -/
theorem decisionPointsLatch : Obligations.DecisionPointsLatch := by
  intro s hdue hguarded hcapture
  obtain ⟨hnext, hpresents, hcmp, hlive, hgeo, hdueKept, hchoice⟩ := s.checked_rest
  have hshows := s.checked.latchLine_shows
  rw [hgeo, hnext, hdueKept, hchoice, hpresents] at hshows
  obtain ⟨hdecided, hguard, hshown, hleft, hau, hauNext, hwest, heast⟩ := hshows
  refine gives_pos rfl hdue ?_
  rw [State.decisionPoint_eq hguarded hcapture]
  refine ⟨hdecided, hguard, hshown, hleft, hau, hauNext, hwest, heast, fun c cs hpend hb _ => ?_, fun hpend => ?_⟩
  · obtain ⟨hrest, hword⟩ := State.latchLine_latches (s := s.checked) (by rw [hcmp]; exact hpend) hb
    exact ⟨hrest, fun o hplane hrect => hword o ⟨hplane, hrect⟩⟩
  · obtain ⟨hframe, hnextKept, hkept⟩ := State.latchLine_idle (s := s.checked) (by rw [hcmp]; exact hpend)
    rw [hnext] at hframe hnextKept
    refine ⟨hframe, hnextKept, fun hwaits hchks o => ?_⟩
    rw [hkept (by rw [hcmp]; exact hwaits) (by rw [hcmp]; exact hchks), hlive]

end Sys2Proof.Machine
end

section
/-!
PROOFS. The host interface: every command completes within its frame.
-/
namespace Sys2Proof.Machine

/-- A read of lines that decoder 0 maps completes, whether or not CXL.mem is up. -/
theorem exec_cxlMemRead_mapped {addr lines : Nat} {as : List Nat} {s : State} (u : List Upset) (h : s.cxlLines addr lines = some as) :
    exec (.cxlMemRead addr lines u) s = .next (if s.cxlMemUp then
      as.foldl (fun s a => s.cxlReadLine a) (s.modMem fun m => u.foldl MemSt.upset m) else s) := by
  change execCxlMemRead addr lines u s = _
  simp only [execCxlMemRead, h]

/-- So does a write. -/
theorem exec_cxlMemWrite_mapped {addr : Nat} {data : List Byte} {as : List Nat} {s : State}
    (h : s.cxlLines addr ((data.length + 63) / 64) = some as) :
    exec (.cxlMemWrite addr data) s = .next (if s.cxlMemUp then
      (as.zipIdx.foldl (fun s x => s.cxlWriteLine x.1 ((data.drop (64 * x.2)).take 64)) s).emit .cxlDone else s) := by
  have h' : s.cxlLines addr (ceilDiv data.length 64) = some as := h
  change execCxlMemWrite addr data s = _
  simp only [execCxlMemWrite, h']

/-- Settles O6: only a CXL.mem access can fail to complete, and the frame of a command is what its meaning keeps. -/
theorem everyCommandCompletesWithinItsFrame : Obligations.EveryCommandCompletesWithinItsFrame := by
  unfold Obligations.EveryCommandCompletesWithinItsFrame
  refine ⟨fun c s hr hw => ?_, fun c s t h => (exec_keeps h).toFrame⟩
  cases c with
  | cxlMemRead addr lines u =>
    obtain ⟨as, ha⟩ := Option.isSome_iff_exists.1 (hr addr lines u rfl)
    exact ⟨_, exec_cxlMemRead_mapped u ha⟩
  | cxlMemWrite addr data =>
    obtain ⟨as, ha⟩ := Option.isSome_iff_exists.1 (hw addr data rfl)
    exact ⟨_, exec_cxlMemWrite_mapped ha⟩
  | _ => exact ⟨_, rfl⟩

end Sys2Proof.Machine
end

section
/-!
PROOFS. The host attachment: the link, the accepted features and ring 0.
-/
namespace Sys2Proof.Machine

/-! ## Flags as numbers -/

theorem State.rd_lt_two {s : State} {f : Fld} (h : f.len = 1) : s.rd f < 2 := by
  unfold State.rd
  rw [h]
  exact bits_lt _ _ 1

/-- A one-bit field that is not set reads 0. -/
theorem State.rdB_eq_false_iff {s : State} {f : Fld} (h : f.len = 1) : s.rdB f = false ↔ s.rd f = 0 := by
  have := s.rd_lt_two h
  simp only [State.rdB, beq_eq_false_iff_ne]
  omega

theorem State.rdB_eq_true_iff {s : State} {f : Fld} : s.rdB f = true ↔ s.rd f = 1 := by simp [State.rdB]

/-! ## The link (R38) and notices -/

/-- The link as trained; its mode is CXL where the host negotiated it and the boot allows it (R435, R456). -/
def State.linkTrained (s : State) (cxl : Bool) (width gts : Nat) : State :=
  ({ s with hif := { s.hif with linkUp := true, width := width, rate := gts } } : State).wr F.HIF_STATUS_CXL_MODE
    (if cxl = true ∧ s.rd F.NVS_STATUS_RECOVERY = 0 ∧ s.rd F.GLB_BOOT_STATUS_FAIL_STEP = 0 then 1 else 0)

theorem State.linkTrain_eq (s : State) (cxl : Bool) (width gts : Nat) : s.linkTrain cxl width gts =
    if width < 8 ∨ gts < 32 then (s.linkTrained cxl width gts).raise Ev.HIF_LINK_DEGRADED else s.linkTrained cxl width gts := by
  have hmode : b2n (cxl && !s.rdB F.NVS_STATUS_RECOVERY && s.rd F.GLB_BOOT_STATUS_FAIL_STEP == 0) =
      if cxl = true ∧ s.rd F.NVS_STATUS_RECOVERY = 0 ∧ s.rd F.GLB_BOOT_STATUS_FAIL_STEP = 0 then 1 else 0 := by
    simp only [b2n, Bool.and_eq_true, Bool.not_eq_true', beq_iff_eq, State.rdB_eq_false_iff (f := F.NVS_STATUS_RECOVERY) rfl, and_assoc]
  simp only [State.linkTrain, State.wrB, hmode]
  rfl

theorem State.linkTrain_events (s : State) (cxl : Bool) (width gts : Nat) :
    EventsOnly (s.linkTrained cxl width gts) (s.linkTrain cxl width gts) := by
  rw [State.linkTrain_eq]
  split
  · exact State.raise_events _ _
  · exact EventsOnly.refl _

/-- A link below x8 or 32 GT/s is reported (Table 15-2). -/
theorem State.linkTrain_degraded {s : State} (h : s.awake = true) (cxl : Bool) {width gts : Nat} (hw : width < 8 ∨ gts < 32) :
    Raised Ev.HIF_LINK_DEGRADED (s.linkTrain cxl width gts) := by
  rw [State.linkTrain_eq, if_pos hw]
  exact State.raised _ rfl (State.hasEvents_of_awake h)

/-- Settles O13: training writes the link's state and may raise one source, and each notice raises its own. -/
theorem linkAndFirmwareEvents : Obligations.LinkAndFirmwareEvents := by
  unfold Obligations.LinkAndFirmwareEvents
  refine ⟨fun cxl width gts s ha hp => ?_, fun s ha hl hm => ?_, fun s ha hr => ?_, fun _ => rfl⟩
  · exact gives_pos rfl (by simp [ha, hp]) ⟨s.linkTrain_events cxl width gts, s.linkTrain_degraded ha cxl⟩
  · exact State.raise_gives (exec_pos rfl (by simp [ha, hl, State.rdB_eq_true hm])) rfl (State.hasEvents_of_awake ha)
  · exact State.raise_gives (exec_pos rfl (by simp [ha, hr])) rfl (State.hasEvents_of_awake ha)

/-! ## The accepted features (R61, R62) -/

theorem not_setOffered_iff {s : State} :
    ((List.range 128).any fun i => bitAt s.featAccept i && !bitAt s.featOffer i) = true ↔ ¬setOffered s := by
  simp [setOffered, accepts]

theorem not_setOneVersion_iff {s : State} :
    b2n (bitAt s.featAccept 0) + b2n (bitAt s.featAccept 1) + b2n (bitAt s.featAccept 2) ≠ 1 ↔ ¬setOneVersion s := by
  simp only [setOneVersion, accepts]
  cases bitAt s.featAccept 0 <;> cases bitAt s.featAccept 1 <;> cases bitAt s.featAccept 2 <;> decide

theorem not_setDoorbell_iff {s : State} : (!bitAt s.featAccept 3 && !bitAt s.featAccept 4) = true ↔ ¬setDoorbell s := by
  simp [setDoorbell, accepts]

theorem not_setLineVersion_iff {s : State} :
    (bitAt s.featAccept 3 && !bitAt s.featAccept 1 && !bitAt s.featAccept 2) = true ↔ ¬setLineVersion s := by
  simp [setLineVersion, accepts, and_assoc]

/-- A set that meets the four conditions of R62 has no reason to be refused. -/
theorem rejectReason_honoured {s : State} (h : setOffered s ∧ setOneVersion s ∧ setDoorbell s ∧ setLineVersion s) :
    rejectReason s.featOffer s.featAccept = 0 := by
  obtain ⟨h1, h2, h3, h4⟩ := h
  rw [rejectReason, if_neg (mt not_setOffered_iff.1 (not_not.2 h1)), if_neg (mt not_setOneVersion_iff.1 (not_not.2 h2)),
    if_neg (mt not_setDoorbell_iff.1 (not_not.2 h3)), if_neg (mt not_setLineVersion_iff.1 (not_not.2 h4))]

/-- The reason of a refusal is the number of the first condition that fails. -/
theorem rejectReason_first {s : State} {r : Nat} (h : (r = 1 ∧ ¬setOffered s) ∨ (r = 2 ∧ setOffered s ∧ ¬setOneVersion s) ∨
      (r = 3 ∧ setOffered s ∧ setOneVersion s ∧ ¬setDoorbell s) ∨
      (r = 4 ∧ setOffered s ∧ setOneVersion s ∧ setDoorbell s ∧ ¬setLineVersion s)) :
    rejectReason s.featOffer s.featAccept = r := by
  unfold rejectReason
  rcases h with ⟨rfl, h1⟩ | ⟨rfl, h1, h2⟩ | ⟨rfl, h1, h2, h3⟩ | ⟨rfl, h1, h2, h3, h4⟩
  · rw [if_pos (not_setOffered_iff.2 h1)]
  · rw [if_neg (mt not_setOffered_iff.1 (not_not.2 h1)), if_pos (not_setOneVersion_iff.2 h2)]
  · rw [if_neg (mt not_setOffered_iff.1 (not_not.2 h1)), if_neg (mt not_setOneVersion_iff.1 (not_not.2 h2)),
      if_pos (not_setDoorbell_iff.2 h3)]
  · rw [if_neg (mt not_setOffered_iff.1 (not_not.2 h1)), if_neg (mt not_setOneVersion_iff.1 (not_not.2 h2)),
      if_neg (mt not_setDoorbell_iff.1 (not_not.2 h3)), if_pos (not_setLineVersion_iff.2 h4)]

/-- What FEATURES_OK and REJECT_REASON show for a reason. -/
def State.showFeatures (s : State) (r : Nat) : State :=
  (s.wr F.HIF_CTRL_FEATURES_OK (if r = 0 then 1 else 0)).wr F.HIF_STATUS_REJECT_REASON r

/-- A set that is checked afresh is shown with its reason, and a refusal is raised. -/
theorem State.setFeaturesOk_fresh {s : State} (hr : s.rd F.HIF_STATUS_RUNNING = 0) (hf : s.rd F.HIF_CTRL_FEATURES_OK = 0) {r : Nat}
    (h : rejectReason s.featOffer s.featAccept = r) :
    s.setFeaturesOk = if r = 0 then s.showFeatures 0 else (s.showFeatures r).raise Ev.HIF_FEATURES_REFUSED := by
  unfold State.setFeaturesOk State.checkFeatures State.showFeatures State.wrB
  rw [State.rdB_eq_false hr, State.rdB_eq_false hf, h]
  by_cases h0 : r = 0 <;> simp [h0, b2n]

/-- Settles O15: the reason is the first condition that fails, and what is shown follows from the reason. -/
theorem featureSetsAreHonouredOrRefused : Obligations.FeatureSetsAreHonouredOrRefused := by
  unfold Obligations.FeatureSetsAreHonouredOrRefused
  intro s ho hr hf
  have he : exec .featuresOk s = .next s.setFeaturesOk := exec_pos rfl ho
  refine ⟨fun h => ?_, fun r h => ?_⟩
  · rw [he, State.setFeaturesOk_fresh hr hf (rejectReason_honoured h)]
    rfl
  · have h0 : r ≠ 0 := by omega
    rw [State.setFeaturesOk_fresh hr hf (rejectReason_first h), if_neg h0] at he
    have hshow : s.showFeatures r = (s.wr F.HIF_CTRL_FEATURES_OK 0).wr F.HIF_STATUS_REJECT_REASON r := by
      rw [State.showFeatures, if_neg h0]
    rw [hshow] at he
    exact State.raise_gives he rfl (State.hasEvents_of_awake (s := s) (State.bar0Open_awake ho))

end Sys2Proof.Machine
end

section
/-!
PROOFS. Doorbells (R46, R51, R57, R58).
-/
namespace Sys2Proof.Machine

/-! ## A new producer index (R51) -/

/-- The index width reads HIF_STATUS only. -/
theorem State.idxW_of_word {s t : State} (h : t.word 0x10004 = s.word 0x10004) : t.idxW = s.idxW := by
  unfold State.idxW
  rw [State.rd_of_word (f := F.HIF_STATUS_RING_VER) h]

theorem State.idxW_setWord (s : State) {off : Nat} (h : 0x10004 ≠ off) (w : Word) : (s.setWord off w).idxW = s.idxW :=
  State.idxW_of_word (s.word_setWord_ne w h)

theorem piLegal_iff {w l pi ci : Nat} : piLegal w (2 ^ l) pi ci = true ↔ 0 ≤ serialDelta w pi ci ∧ serialDelta w pi ci ≤ 2 ^ l := by
  simp [piLegal]

theorem State.acceptPi_fault {s : State} {n : Nat} {r : Ring} (h : s.ring? n = some r) (hf : r.fault = true) (pi ci : Nat) :
    s.acceptPi n pi ci = s.setRing { r with cqCi := ci % 2 ^ s.idxW } := by
  simp only [State.acceptPi, h, hf, if_true]

theorem State.acceptPi_legal {s : State} {n pi : Nat} {r : Ring} (h : s.ring? n = some r) (hf : r.fault = false)
    (hl : piLegal s.idxW (2 ^ r.log2) (pi % 2 ^ s.idxW) r.ci = true) (ci : Nat) :
    s.acceptPi n pi ci = s.setRing { r with cqCi := ci % 2 ^ s.idxW, pi := pi % 2 ^ s.idxW } := by
  simp only [State.acceptPi, h, hf, hl, Bool.false_eq_true, if_false, if_true]

theorem State.acceptPi_illegal {s : State} {n pi : Nat} {r : Ring} (h : s.ring? n = some r) (hf : r.fault = false)
    (hl : ¬piLegal s.idxW (2 ^ r.log2) (pi % 2 ^ s.idxW) r.ci = true) (ci : Nat) :
    s.acceptPi n pi ci = (s.setRing { r with cqCi := ci % 2 ^ s.idxW, fault := true }).raise Ev.HIF_RING_FAULT := by
  simp only [State.acceptPi, h, hf, hl, Bool.false_eq_true, if_false]

/-! ## MMIO doorbells (R58) -/

theorem exec_hifDbSq {n : Nat} {s : State} (ho : s.bar0Open = true) (hn : n < 64) (val : Word) :
    exec (.hifDbSq n val) s = .next (s.writeDbSq n val) := exec_pos rfl (by simp [ho, hn])

theorem exec_hifDbCq {n : Nat} {s : State} (ho : s.bar0Open = true) (hn : n < 64) (val : Word) :
    exec (.hifDbCq n val) s = .next (s.writeDbCq n val) := exec_pos rfl (by simp [ho, hn])

/-- A doorbell write of no ring, of one with a doorbell line or of one whose class is not served is only stored. -/
theorem State.writeDb_stored {s : State} {n : Nat} (h : ∀ r, s.ring? n = some r → r.dbLine ≠ 0 ∨ s.doorbellActs r.cls true = false)
    (val : Word) : s.writeDbSq n val = s.setWord (0x11000 + 8 * n) val ∧ s.writeDbCq n val = s.setWord (0x11004 + 8 * n) val := by
  have hring : ∀ off, (s.setWord off val).ring? n = s.ring? n := fun _ => rfl
  simp only [State.writeDbSq, State.writeDbCq, hring]
  cases hr : s.ring? n with
  | none => exact ⟨rfl, rfl⟩
  | some r =>
    have hno : ¬(r.dbLine = 0 ∧ s.doorbellActs r.cls true = true) := by
      rintro ⟨hl, ha⟩
      rcases h r hr with hl' | ha'
      · exact hl' hl
      · rw [ha] at ha'
        cases ha'
    exact ⟨if_neg hno, if_neg hno⟩

/-- A served ring takes the index written to its submission doorbell. -/
theorem State.writeDbSq_acts {s : State} {n : Nat} {r : Ring} (hr : s.ring? n = some r) (hl : r.dbLine = 0)
    (ha : s.doorbellActs r.cls true = true) (val : Word) :
    s.writeDbSq n val = (s.setWord (0x11000 + 8 * n) val).acceptPi n (val.toNat % 2 ^ s.idxW) r.cqCi := by
  have hring : (s.setWord (0x11000 + 8 * n) val).ring? n = some r := hr
  have hv : (s.setWord (0x11000 + 8 * n) val).dbValue val = val.toNat % 2 ^ s.idxW := by
    rw [State.dbValue, State.idxW_setWord s (by omega)]
  simp only [State.writeDbSq, hring, hv]
  exact if_pos ⟨hl, ha⟩

theorem State.writeDbCq_acts {s : State} {n : Nat} {r : Ring} (hr : s.ring? n = some r) (hl : r.dbLine = 0)
    (ha : s.doorbellActs r.cls true = true) (val : Word) :
    s.writeDbCq n val = (s.setWord (0x11004 + 8 * n) val).setRing { r with cqCi := val.toNat % 2 ^ s.idxW } := by
  have hring : (s.setWord (0x11004 + 8 * n) val).ring? n = some r := hr
  have hv : (s.setWord (0x11004 + 8 * n) val).dbValue val = val.toNat % 2 ^ s.idxW := by
    rw [State.dbValue, State.idxW_setWord s (by omega)]
  simp only [State.writeDbCq, hring, hv]
  exact if_pos ⟨hl, ha⟩

theorem hifDbSq_acts (n : Nat) (val : Word) (r : Ring) (s : State) (ho : s.bar0Open = true) (hn : n < 64) (hr : s.ring? n = some r)
    (hl : r.dbLine = 0) (ha : s.doorbellActs r.cls true = true) (hc : r.cqCi < 2 ^ s.idxW) :
    let pi := val.toNat % 2 ^ s.idxW
    let dist := serialDelta s.idxW pi r.ci
    (r.fault = true → exec (.hifDbSq n val) s = .next ((s.setWord (0x11000 + 8 * n) val).setRing r)) ∧
    (r.fault = false → 0 ≤ dist ∧ dist ≤ 2 ^ r.log2 →
      exec (.hifDbSq n val) s = .next ((s.setWord (0x11000 + 8 * n) val).setRing { r with pi := pi })) ∧
    (r.fault = false → ¬(0 ≤ dist ∧ dist ≤ 2 ^ r.log2) →
      Gives (.hifDbSq n val) s (After Ev.HIF_RING_FAULT ((s.setWord (0x11000 + 8 * n) val).setRing { r with fault := true }))) ∧
    exec (.hifDbCq n val) s =
      .next ((s.setWord (0x11004 + 8 * n) val).setRing { r with cqCi := val.toNat % 2 ^ s.idxW }) := by
  have hw := State.idxW_setWord s (show 0x10004 ≠ 0x11000 + 8 * n by omega) val
  have hring : (s.setWord (0x11000 + 8 * n) val).ring? n = some r := hr
  have hci : r.cqCi % 2 ^ s.idxW = r.cqCi := Nat.mod_eq_of_lt hc
  have hpi : val.toNat % 2 ^ s.idxW % 2 ^ s.idxW = val.toNat % 2 ^ s.idxW := Nat.mod_mod _ _
  rw [exec_hifDbSq ho hn, exec_hifDbCq ho hn, State.writeDbSq_acts hr hl ha, State.writeDbCq_acts hr hl ha]
  refine ⟨fun hf => ?_, fun hf hd => ?_, fun hf hd => ?_, rfl⟩
  · rw [State.acceptPi_fault hring hf, hw, hci]
  · rw [State.acceptPi_legal hring hf (by rw [hw, hpi]; exact piLegal_iff.2 hd), hw, hci, hpi]
  · refine State.raise_gives ?_ rfl (State.hasEvents_of_awake (s := s) (State.bar0Open_awake ho))
    rw [exec_hifDbSq ho hn, State.writeDbSq_acts hr hl ha, State.acceptPi_illegal hring hf (by rw [hw, hpi, piLegal_iff]; exact hd), hw, hci]

/-! ## Doorbell lines (R57) -/

/-- A ring whose line the device has read holds a copy of it. -/
def Ring.withLine (r : Ring) : Ring := { r with lineShared := true, stale := false }

/-- Reading a line: the read leaves, the copy is held, and what the line holds is acted on. -/
theorem State.readLine_eq {s : State} {n : Nat} {r : Ring} (hr : s.ring? n = some r) (hl : r.dbLine ≠ 0) (pi ci : Nat) :
    s.readLine n pi ci = ((s.emit (.lineRead r.dbLine)).setRing r.withLine).acceptPi n pi ci := by
  simp only [State.readLine, hr, if_neg hl]
  rfl

theorem exec_doorbellReread {n : Nat} {r : Ring} {s : State} (hr : s.ring? n = some r) (hl : r.dbLine ≠ 0) (hs : r.lineShared = false)
    (ha : s.doorbellActs r.cls true = true) (hk : s.hostLink = true) (pi ci : Nat) :
    exec (.doorbellReread n pi ci) s = .next (s.readLine n pi ci) := by
  change execDoorbellReread n pi ci s = _
  simp only [execDoorbellReread, hr]
  rw [if_pos ⟨hl, hs, ha, hk⟩]

theorem doorbellReread_acts (n pi ci : Nat) (r : Ring) (s : State) (hr : s.ring? n = some r) (hl : r.dbLine ≠ 0)
    (hs : r.lineShared = false) (ha : s.doorbellActs r.cls true = true) (hk : s.hostLink = true) :
    let dist := serialDelta s.idxW (pi % 2 ^ s.idxW) r.ci
    let read := { r with lineShared := true, stale := false, cqCi := ci % 2 ^ s.idxW }
    let u := s.emit (.lineRead r.dbLine)
    (r.fault = true → exec (.doorbellReread n pi ci) s = .next (u.setRing read)) ∧
    (r.fault = false → 0 ≤ dist ∧ dist ≤ 2 ^ r.log2 →
      exec (.doorbellReread n pi ci) s = .next (u.setRing { read with pi := pi % 2 ^ s.idxW })) ∧
    (r.fault = false → ¬(0 ≤ dist ∧ dist ≤ 2 ^ r.log2) →
      Gives (.doorbellReread n pi ci) s (After Ev.HIF_RING_FAULT (u.setRing { read with fault := true }))) := by
  have hnum := State.ring?_num hr
  have hring : ((s.emit (.lineRead r.dbLine)).setRing r.withLine).ring? n = some r.withLine :=
    State.ring?_setRing (s := s.emit (.lineRead r.dbLine)) hr hnum
  have he := exec_doorbellReread hr hl hs ha hk pi ci
  rw [State.readLine_eq hr hl] at he
  refine ⟨fun hf => ?_, fun hf hd => ?_, fun hf hd => ?_⟩
  · rw [he, State.acceptPi_fault hring hf, State.setRing_setRing _ _ _ (by rfl)]
    rfl
  · rw [he, State.acceptPi_legal hring hf (piLegal_iff.2 hd), State.setRing_setRing _ _ _ (by rfl)]
    rfl
  · rw [State.acceptPi_illegal hring hf (mt piLegal_iff.1 hd), State.setRing_setRing _ _ _ (by rfl)] at he
    have hawake : s.awake = true := by
      simp only [State.hostLink, Bool.and_eq_true] at hk
      exact hk.1.1.1.2
    exact State.raise_gives he rfl (State.hasEvents_of_awake hawake)

/-- A snoop takes the device's copy of a line. -/
theorem doorbellSnoop_drops {n : Nat} {r : Ring} {s : State} (hr : s.ring? n = some r) (hl : r.dbLine ≠ 0) (hs : r.lineShared = true) :
    exec (.doorbellSnoop n) s = .next (s.setRing { r with lineShared := false }) := by
  change execDoorbellSnoop n s = _
  simp only [execDoorbellSnoop, hr]
  rw [if_pos ⟨hl, hs⟩]

/-- Settles O17: an index, from a register or a line, is taken through `acceptPi`, whose three outcomes are the cases. -/
theorem doorbellsAct : Obligations.DoorbellsAct := by
  unfold Obligations.DoorbellsAct
  refine ⟨fun n val s ho hn h => ?_, hifDbSq_acts, fun n r s => doorbellSnoop_drops, doorbellReread_acts⟩
  rw [exec_hifDbSq ho hn, exec_hifDbCq ho hn, (State.writeDb_stored h val).1, (State.writeDb_stored h val).2]
  exact ⟨rfl, rfl⟩

end Sys2Proof.Machine
end

section
/-!
PROOFS. Ring 0 (R44, R57, R63, R69), and how a ring is added.
-/
namespace Sys2Proof.Machine

/-- From `s` to `t` at most registers and the host interface change. -/
def HostOnly (s t : State) : Prop := t = { s with regs := t.regs, hif := t.hif }

theorem HostOnly.trans {s t u : State} (h : HostOnly s t) (k : HostOnly t u) : HostOnly s u := by
  unfold HostOnly at h k ⊢
  rw [k, h]

theorem State.wr_host (s : State) (f : Fld) (v : Nat) : HostOnly s (s.wr f v) := rfl

theorem State.set_hif_host (s : State) (x : HifSt) : HostOnly s { s with hif := x } := rfl

/-! ## A ring is added (R44, R58) -/

/-- A ring more, with its MMIO doorbells at 0. -/
def State.newRing (s : State) (r : Ring) : State :=
  (({ s with hif := { s.hif with rings := s.hif.rings ++ [r] } } : State).wr (F.HIF_DB_SQ_INDEX r.num) 0).wr (F.HIF_DB_CQ_INDEX r.num) 0

theorem State.addRing_eq (s : State) (r : Ring) (pi ci : Nat) :
    s.addRing r pi ci = if s.doorbellActs r.cls true then (s.newRing r).readLine r.num pi ci else s.newRing r := rfl

theorem State.newRing_ring? {s : State} {r : Ring} (h : s.ring? r.num = none) : (s.newRing r).ring? r.num = some r := by
  change (s.hif.rings ++ [r]).find? (fun x => x.num == r.num) = some r
  rw [List.find?_append]
  unfold State.ring? at h
  rw [h]
  simp

theorem State.newRing_word (s : State) (r : Ring) {o : Nat} (h : o < 0x11000) : (s.newRing r).word o = s.word o := by
  unfold State.newRing
  rw [State.word_wr_ne _ _ _ (by simp only [F.HIF_DB_CQ_INDEX]; omega), State.word_wr_ne _ _ _ (by simp only [F.HIF_DB_SQ_INDEX]; omega)]
  rfl

theorem State.newRing_host (s : State) (r : Ring) : HostOnly s (s.newRing r) :=
  ((s.set_hif_host _).trans (State.wr_host _ _ _)).trans (State.wr_host _ _ _)

theorem State.newRing_idxW (s : State) (r : Ring) : (s.newRing r).idxW = s.idxW := State.idxW_of_word (s.newRing_word r (by decide))

/-- A ring without a line is added as it is. -/
theorem State.addRing_noLine {s : State} {r : Ring} (h : s.ring? r.num = none) (hl : r.dbLine = 0) (pi ci : Nat) :
    s.addRing r pi ci = s.newRing r := by
  have hread : (s.newRing r).readLine r.num pi ci = s.newRing r := by
    simp only [State.readLine, State.newRing_ring? h, hl, if_true]
  rw [State.addRing_eq, hread, ite_self]

/-- The line of a new ring that the device may hold is read at once. -/
theorem State.addRing_line {s : State} {r : Ring} (h : s.ring? r.num = none) (hl : r.dbLine ≠ 0) (ha : s.doorbellActs r.cls true = true)
    (pi ci : Nat) :
    s.addRing r pi ci = (((s.newRing r).emit (.lineRead r.dbLine)).setRing r.withLine).acceptPi r.num pi ci := by
  rw [State.addRing_eq, if_pos ha, State.readLine_eq (State.newRing_ring? h) hl]

/-- What a ring that is not in the fault state becomes when an index is acted on. -/
def Ring.took (r : Ring) (pi ci : Nat) (fault : Bool) : Ring := { r with pi := pi, cqCi := ci, fault := fault }

/-- A new ring's index is acted on: the ring takes it, and beyond that only an event can be raised. -/
theorem State.acceptPi_events {s : State} {n : Nat} {r : Ring} (h : s.ring? n = some r) (hf : r.fault = false) (pi ci : Nat) :
    ∃ p f, (piLegal s.idxW (2 ^ r.log2) (pi % 2 ^ s.idxW) r.ci = true → p = pi % 2 ^ s.idxW ∧
        s.acceptPi n pi ci = s.setRing (r.took p (ci % 2 ^ s.idxW) f)) ∧
      EventsOnly (s.setRing (r.took p (ci % 2 ^ s.idxW) f)) (s.acceptPi n pi ci) := by
  by_cases hl : piLegal s.idxW (2 ^ r.log2) (pi % 2 ^ s.idxW) r.ci = true
  · have he : s.acceptPi n pi ci = s.setRing (r.took (pi % 2 ^ s.idxW) (ci % 2 ^ s.idxW) false) := by
      rw [State.acceptPi_legal h hf hl, Ring.took, ← hf]
    exact ⟨_, false, fun _ => ⟨rfl, he⟩, he ▸ EventsOnly.refl _⟩
  · refine ⟨r.pi, true, fun h => absurd h hl, ?_⟩
    rw [State.acceptPi_illegal h hf hl]
    exact State.raise_events _ _

/-- The first index of a new ring: any number of descriptors that the ring holds. -/
theorem piLegal_first {w l pi : Nat} (hl : l + 1 < w) (h : pi ≤ 2 ^ l) : pi % 2 ^ w = pi ∧ piLegal w (2 ^ l) pi 0 = true := by
  have hpow : 2 ^ (l + 2) ≤ 2 ^ w := Nat.pow_le_pow_right (by decide) hl
  rw [Nat.pow_add] at hpow
  have hpos := Nat.two_pow_pos l
  have hlt : pi < 2 ^ w := by omega
  refine ⟨Nat.mod_eq_of_lt hlt, ?_⟩
  have hd : serialDelta w pi 0 = pi := by
    unfold serialDelta sext
    rw [serialSteps (Nat.two_pow_pos _) hlt, if_pos (Nat.zero_le _), Nat.sub_zero, Nat.mod_eq_of_lt hlt]
    exact if_pos (by omega)
  rw [piLegal_iff, hd]
  exact ⟨by omega, by exact_mod_cast h⟩

/-- A ring's largest size is within half the index range (Table 2-4). -/
theorem State.log2Max_lt_idxW (s : State) : log2Max (s.rd F.HIF_STATUS_RING_VER) + 1 < s.idxW := by
  unfold log2Max State.idxW
  split
  · decide
  · split <;> decide

/-- A new ring with a line: its copy is held, and the read leaves. -/
theorem State.addRing_reads {s : State} {r : Ring} (h : s.ring? r.num = none) (hl : r.dbLine ≠ 0) (ha : s.doorbellActs r.cls true = true)
    (hf : r.fault = false) (hci : r.ci = 0) (pi ci : Nat) :
    ∃ q p c f, q = r.withLine.took p c f ∧ EventsOnly (((s.newRing r).emit (.lineRead r.dbLine)).setRing q) (s.addRing r pi ci) ∧
      (s.addRing r pi ci).ring? r.num = some q ∧
      (r.log2 + 1 < s.idxW → pi ≤ 2 ^ r.log2 → p = pi ∧ (s.addRing r pi ci).out = .lineRead r.dbLine :: s.out) := by
  have hring : (((s.newRing r).emit (.lineRead r.dbLine)).setRing r.withLine).ring? r.num = some r.withLine :=
    State.ring?_setRing (s := (s.newRing r).emit (.lineRead r.dbLine)) (State.newRing_ring? h) rfl
  have hw : (((s.newRing r).emit (.lineRead r.dbLine)).setRing r.withLine).idxW = s.idxW := s.newRing_idxW r
  rw [State.addRing_line h hl ha]
  obtain ⟨p, f, hlegal, hev⟩ := State.acceptPi_events hring hf pi ci
  rw [State.setRing_setRing _ _ _ (by rfl)] at hlegal hev
  rw [hw] at hlegal hev
  refine ⟨_, p, _, f, rfl, hev, ?_, fun hlog hpi => ?_⟩
  · unfold State.ring?
    rw [hev.hif]
    exact State.ring?_setRing (s := (s.newRing r).emit (.lineRead r.dbLine)) (State.newRing_ring? h) rfl
  · obtain ⟨hmod, hleg⟩ := piLegal_first hlog hpi
    obtain ⟨hp, hout⟩ := hlegal (by rw [hmod]; exact hci ▸ hleg)
    rw [hout]
    exact ⟨hp.trans hmod, rfl⟩

/-! ## Ring 0's set-up (R69) -/

/-- The registers in which the driver sets up ring 0 and the features read the same. -/
def SetupKept (s t : State) : Prop := ∀ o, 0x10020 ≤ o → o < 0x11000 → t.word o = s.word o

theorem SetupKept.rd {s t : State} (h : SetupKept s t) {f : Fld} (hf : 0x10020 ≤ f.off ∧ f.off < 0x11000) : t.rd f = s.rd f :=
  State.rd_of_word (h f.off hf.1 hf.2)

theorem RegsOnly.setup {s t : State} (h : RegsOnly [0x10000, 0x10004] s t) : SetupKept s t := by
  intro o hlo _
  refine h.2 o fun hm => ?_
  simp only [List.mem_cons, List.not_mem_nil, or_false] at hm
  omega

/-- Ring 0 as the registers set it up. -/
def State.ring0Ring (s : State) : Ring :=
  Ring.fresh 0 Cls.ADMIN (s.rd F.HIF_RING_CFG_LOG2_SIZE) (s.rd F.HIF_RING_CFG_VECTOR) 0 0 s.ring0Base s.ring0Cq s.ring0Line

theorem SetupKept.addresses {s t : State} (h : SetupKept s t) :
    t.ring0Base = s.ring0Base ∧ t.ring0Cq = s.ring0Cq ∧ t.ring0Line = s.ring0Line := by
  refine ⟨?_, ?_, ?_⟩
  · rw [State.ring0Base, h.rd (by decide), h.rd (by decide)]; rfl
  · rw [State.ring0Cq, h.rd (by decide), h.rd (by decide)]; rfl
  · rw [State.ring0Line, h.rd (by decide), h.rd (by decide)]; rfl

theorem SetupKept.ring0Ring {s t : State} (h : SetupKept s t) : t.ring0Ring = s.ring0Ring := by
  obtain ⟨hb, hc, hl⟩ := h.addresses
  rw [State.ring0Ring, h.rd (by decide), h.rd (by decide), hb, hc, hl]
  rfl

theorem SetupKept.ring0Err {s t : State} (h : SetupKept s t) (feats : Nat) : t.ring0Err feats = s.ring0Err feats := by
  obtain ⟨hb, hc, hl⟩ := h.addresses
  rw [State.ring0Err, h.rd (by decide), hb, hc, hl]
  rfl

theorem SetupKept.featAccept {s t : State} (h : SetupKept s t) : t.featAccept = s.featAccept := by
  rw [State.featAccept, h.rd (by decide), h.rd (by decide), h.rd (by decide), h.rd (by decide)]
  rfl

theorem not_ring0SizeOk_iff {s : State} {feats : Nat} :
    (s.rd F.HIF_RING_CFG_LOG2_SIZE < 6 ∨ log2Max (verOf feats) < s.rd F.HIF_RING_CFG_LOG2_SIZE) ↔ ¬ring0SizeOk (verOf feats) s := by
  simp only [ring0SizeOk, log2Max]
  omega

theorem not_ring0BaseOk_iff {s : State} : (s.ring0Base = 0 ∨ s.ring0Cq = 0 ∨ (!isHost s.ring0Base) = true ∨ (!isHost s.ring0Cq) = true ∨
    (!isHost s.ring0Line) = true) ↔ ¬ring0BaseOk s := by
  simp only [ring0BaseOk, isHost, Bool.not_eq_true', decide_eq_false_iff_not]
  omega

/-- A set-up that passes the checks of a feature set has no error. -/
theorem State.ring0Err_none {s : State} {feats : Nat} (hs : ring0SizeOk (verOf feats) s) (hb : ring0BaseOk s)
    (hl : s.ring0Line ≠ 0 → bitAt feats 3 = true) : s.ring0Err feats = 0 := by
  have hline : ¬(s.ring0Line ≠ 0 ∧ bitAt feats 3 = false) := fun h => by simp [hl h.1] at h
  rw [State.ring0Err, if_neg (mt not_ring0SizeOk_iff.1 (not_not.2 hs)), if_neg (mt not_ring0BaseOk_iff.1 (not_not.2 hb)), if_neg hline]

/-- The error is the number of the first check that fails. -/
theorem State.ring0Err_first {s : State} {feats e : Nat} (h : (e = 1 ∧ ¬ring0SizeOk (verOf feats) s) ∨
      (e = 2 ∧ ring0SizeOk (verOf feats) s ∧ ¬ring0BaseOk s) ∨
      (e = 3 ∧ ring0SizeOk (verOf feats) s ∧ ring0BaseOk s ∧ s.ring0Line ≠ 0 ∧ bitAt feats 3 = false)) : s.ring0Err feats = e := by
  unfold State.ring0Err
  rcases h with ⟨rfl, h1⟩ | ⟨rfl, h1, h2⟩ | ⟨rfl, h1, h2, h3⟩
  · exact if_pos (not_ring0SizeOk_iff.2 h1)
  · exact (if_neg (mt not_ring0SizeOk_iff.1 (not_not.2 h1))).trans (if_pos (not_ring0BaseOk_iff.2 h2))
  · exact (if_neg (mt not_ring0SizeOk_iff.1 (not_not.2 h1))).trans
      ((if_neg (mt not_ring0BaseOk_iff.1 (not_not.2 h2))).trans (if_pos h3))

/-! ## Ring 0 starts -/

/-- What the registers show of a running ring 0, and the features in force. -/
def State.ring0Regs (s : State) (feats : Nat) : State :=
  (((({ s with hif := { s.hif with feats := feats } } : State).wr F.HIF_CTRL_ENABLE 1).wr F.HIF_STATUS_RING0_ERR 0).wr
    F.HIF_STATUS_RUNNING 1).wr F.HIF_STATUS_RING_VER (verOf feats)

theorem State.ring0Regs_words (s : State) (feats : Nat) {o : Nat} (h0 : o ≠ 0x10000) (h4 : o ≠ 0x10004) :
    (s.ring0Regs feats).word o = s.word o := by
  unfold State.ring0Regs
  rw [State.word_wr_ne _ _ _ h4, State.word_wr_ne _ _ _ h4, State.word_wr_ne _ _ _ h4, State.word_wr_ne _ _ _ h0]
  rfl

theorem State.ring0Regs_setup (s : State) (feats : Nat) : SetupKept s (s.ring0Regs feats) :=
  fun _ _ _ => s.ring0Regs_words feats (by omega) (by omega)

theorem State.startRing0_eq (s : State) (feats pi ci : Nat) :
    s.startRing0 feats pi ci = (s.ring0Regs feats).addRing s.ring0Ring pi ci := by
  rw [← (s.ring0Regs_setup feats).ring0Ring]
  rfl

theorem State.ring0Regs_host (s : State) (feats : Nat) : HostOnly s (s.ring0Regs feats) :=
  ((((s.set_hif_host _).trans (State.wr_host _ _ _)).trans (State.wr_host _ _ _)).trans (State.wr_host _ _ _)).trans
    (State.wr_host _ _ _)

/-- Ring 0 as it stands before its line is read. -/
def State.ring0Up (s : State) (feats : Nat) : State := (s.ring0Regs feats).newRing s.ring0Ring

theorem verOf_lt (feats : Nat) : verOf feats < 4 := by
  unfold verOf
  split
  · decide
  · split <;> decide

theorem State.ring0Up_words (s : State) (feats : Nat) {o : Nat} (h : o ∉ [0x10000, 0x10004, 0x11000, 0x11004]) :
    (s.ring0Up feats).word o = s.word o := by
  simp only [List.mem_cons, List.not_mem_nil, or_false, not_or] at h
  obtain ⟨h0, h4, hsq, hcq⟩ := h
  rw [← s.ring0Regs_words feats h0 h4]
  exact (State.word_wr_ne _ _ _ hcq).trans (State.word_wr_ne _ _ _ hsq)

theorem State.ring0Up_shows (s : State) (feats : Nat) : (s.ring0Up feats).rd F.HIF_CTRL_ENABLE = 1 ∧
    (s.ring0Up feats).rd F.HIF_STATUS_RUNNING = 1 ∧ (s.ring0Up feats).rd F.HIF_STATUS_RING_VER = verOf feats ∧
    (s.ring0Up feats).rd F.HIF_STATUS_RING0_ERR = 0 ∧ (s.ring0Up feats).rd F.HIF_CTRL_FEATURES_OK = s.rd F.HIF_CTRL_FEATURES_OK := by
  have hrd : ∀ f : Fld, f.off < 0x11000 → (s.ring0Up feats).rd f = (s.ring0Regs feats).rd f := fun f hf =>
    State.rd_of_word (State.newRing_word _ _ hf)
  have hver : verOf feats % 2 ^ 4 = verOf feats := Nat.mod_eq_of_lt (Nat.lt_trans (verOf_lt feats) (by decide))
  simp (disch := decide) only [hrd, State.ring0Regs, State.rd_wr_same, State.rd_wr_ne]
  exact ⟨rfl, rfl, hver, rfl, rfl⟩

theorem State.ring0Up_doorbells (s : State) (feats : Nat) :
    (s.ring0Up feats).rd (F.HIF_DB_SQ_INDEX 0) = 0 ∧ (s.ring0Up feats).rd (F.HIF_DB_CQ_INDEX 0) = 0 := by
  have hcq : (s.ring0Up feats).rd (F.HIF_DB_CQ_INDEX 0) = 0 := State.rd_wr_same _ (F.HIF_DB_CQ_INDEX 0) 0 (by decide)
  have hsq : (s.ring0Up feats).rd (F.HIF_DB_SQ_INDEX 0) = 0 :=
    (State.rd_wr_ne _ (F.HIF_DB_CQ_INDEX 0) _ _ (by decide) (by decide)).trans
      (State.rd_wr_same _ (F.HIF_DB_SQ_INDEX 0) 0 (by decide))
  exact ⟨hsq, hcq⟩

/-- Without a line nothing more happens. -/
theorem State.ring0Up_started {s : State} {feats : Nat} (hl : s.ring0Line = 0) :
    Ring0Started s (verOf feats) feats (s.ring0Up feats) := by
  obtain ⟨hen, hrun, hver, herr, -⟩ := s.ring0Up_shows feats
  obtain ⟨hsq, hcq⟩ := s.ring0Up_doorbells feats
  have hrest : HostOnly s (s.ring0Up feats) := (s.ring0Regs_host feats).trans (State.newRing_host _ _)
  refine ⟨?_, hen, hrun, hver, herr, hsq, hcq, hrest, fun o ho => s.ring0Up_words feats ho⟩
  change ({ s.hif with feats := feats, rings := s.hif.rings ++ [s.ring0Ring] } : HifSt) = _
  rw [State.ring0Ring, hl]

/-- Starting does not depend on what FEATURES_OK and REJECT_REASON were before. -/
theorem ring0Started_of_regs {s u t : State} {ver feats : Nat} (hr : RegsOnly [0x10000, 0x10004] s u) (h : Ring0Started u ver feats t) :
    Ring0Started s ver feats t := by
  obtain ⟨hhif, hen, hrun, hver, herr, hsq, hcq, hrest, hwords⟩ := h
  have hring : u.hif = s.hif := by rw [hr.1]
  obtain ⟨hb, hc, -⟩ := hr.setup.addresses
  rw [hring, hr.setup.rd (by decide), hr.setup.rd (by decide), hb, hc] at hhif
  refine ⟨hhif, hen, hrun, hver, herr, hsq, hcq, ?_, fun o ho => (hwords o ho).trans (hr.2 o fun hm => ho ?_)⟩
  · rw [hrest, hr.1]
  · simp only [List.mem_cons, List.not_mem_nil, or_false] at hm ⊢
    omega

/-- The ADMIN class acts on its doorbells wherever the module is awake (Table 2-11). -/
theorem State.doorbellActs_admin {s : State} (h : s.awake = true) : s.doorbellActs Cls.ADMIN true = true := by
  simp only [State.awake, Bool.or_eq_true] at h
  rcases h with (h | h) | h <;> simp [State.doorbellActs, h, Cls.ADMIN]

theorem State.ring0Regs_ver (s : State) (feats : Nat) : (s.ring0Regs feats).rd F.HIF_STATUS_RING_VER = verOf feats :=
  (State.rd_wr_same _ _ _ (by decide)).trans (Nat.mod_eq_of_lt (Nat.lt_trans (verOf_lt feats) (by decide)))

/-- What is read of ring 0 once it has started. -/
structure Ring0Shows (s : State) (feats : Nat) (t : State) : Prop where
  enable : t.rd F.HIF_CTRL_ENABLE = 1
  running : t.rd F.HIF_STATUS_RUNNING = 1
  ver : t.rd F.HIF_STATUS_RING_VER = verOf feats
  err : t.rd F.HIF_STATUS_RING0_ERR = 0
  featuresOk : t.rd F.HIF_CTRL_FEATURES_OK = s.rd F.HIF_CTRL_FEATURES_OK
  feats : t.hif.feats = feats
  found : (t.ring? 0).isSome = true

theorem State.ring0Up_Shows {s : State} (h : s.ring? 0 = none) (feats : Nat) : Ring0Shows s feats (s.ring0Up feats) := by
  obtain ⟨hen, hrun, hver, herr, hok⟩ := s.ring0Up_shows feats
  have hring : (s.ring0Up feats).ring? 0 = some s.ring0Ring := State.newRing_ring? (s := s.ring0Regs feats) (r := s.ring0Ring) h
  exact ⟨hen, hrun, hver, herr, hok, rfl, by rw [hring]; rfl⟩

/-- What is read of ring 0 is read still after its line is read and an event raised. -/
theorem Ring0Shows.events {s u t : State} {feats : Nat} (h : Ring0Shows s feats u) (he : EventsOnly u t) : Ring0Shows s feats t where
  enable := (he.rd (by decide)).trans h.enable
  running := (he.rd (by decide)).trans h.running
  ver := (he.rd (by decide)).trans h.ver
  err := (he.rd (by decide)).trans h.err
  featuresOk := (he.rd (by decide)).trans h.featuresOk
  feats := by rw [he.hif]; exact h.feats
  found := by
    have := h.found
    unfold State.ring? at this ⊢
    rwa [he.hif]

theorem Ring0Shows.setRing {s u : State} {feats : Nat} (h : Ring0Shows s feats u) (o : Out) (q : Ring) :
    Ring0Shows s feats ((u.emit o).setRing q) where
  enable := h.enable
  running := h.running
  ver := h.ver
  err := h.err
  featuresOk := h.featuresOk
  feats := h.feats
  found := by
    have := h.found
    unfold State.ring? at this ⊢
    rw [List.find?_isSome] at this ⊢
    obtain ⟨x, hx, hn⟩ := this
    refine ⟨_, List.mem_map_of_mem hx, ?_⟩
    split
    · rename_i hq
      rwa [← hq]
    · exact hn

/-- Ring 0 starts with a line: the line is read. -/
theorem State.ring0_withLine {s : State} {feats : Nat} (ha : s.awake = true) (hn : s.ring? 0 = none) (hl : s.ring0Line ≠ 0)
    (hs : ring0SizeOk (verOf feats) s) (pi ci : Nat) :
    Ring0Shows s feats ((s.ring0Regs feats).addRing s.ring0Ring pi ci) ∧
      (pi ≤ 2 ^ s.rd F.HIF_RING_CFG_LOG2_SIZE →
        ((s.ring0Regs feats).addRing s.ring0Ring pi ci).out = .lineRead s.ring0Line :: s.out ∧
        ∃ r, ((s.ring0Regs feats).addRing s.ring0Ring pi ci).ring? 0 = some r ∧ r.lineShared = true ∧ r.pi = pi) := by
  obtain ⟨q, p, c, f, hq, hev, hring, hpi⟩ := State.addRing_reads (s := s.ring0Regs feats) (r := s.ring0Ring) hn hl
    (State.doorbellActs_admin ha) rfl rfl pi ci
  refine ⟨((State.ring0Up_Shows hn feats).setRing _ q).events hev, fun hle => ?_⟩
  have hlog : s.ring0Ring.log2 + 1 < (s.ring0Regs feats).idxW := by
    have := (s.ring0Regs feats).log2Max_lt_idxW
    rw [State.ring0Regs_ver] at this
    exact Nat.lt_of_le_of_lt (Nat.succ_le_succ hs.2) this
  obtain ⟨hp, hout⟩ := hpi hlog hle
  exact ⟨hout, q, hring, by rw [hq]; rfl, by rw [hq]; exact hp⟩

/-- Ring 0 starts without a line. -/
theorem State.ring0_noLine {s : State} (hn : s.ring? 0 = none) (hl : s.ring0Line = 0) (feats pi ci : Nat) :
    (s.ring0Regs feats).addRing s.ring0Ring pi ci = s.ring0Up feats :=
  State.addRing_noLine (s := s.ring0Regs feats) (r := s.ring0Ring) hn hl pi ci

/-! ## ENABLE (R63, R69) -/

theorem exec_enable {f : Bool} {s : State} (ho : s.bar0Open = true) (hr : s.rd F.HIF_STATUS_RUNNING = 0) (pi ci : Nat) :
    exec (.enable f pi ci) s = .next (if f then
        if s.setFeaturesOk.rdB F.HIF_CTRL_FEATURES_OK then s.setFeaturesOk.tryRing0 s.setFeaturesOk.featAccept pi ci
        else (s.setFeaturesOk.wr F.HIF_STATUS_RING0_ERR 4).raise Ev.HIF_RING_FAULT
      else (s.wr F.HIF_CTRL_FEATURES_OK 0).tryRing0 s.defaultFeats pi ci) := by
  have he : exec (.enable f pi ci) s = .next (s.enableRing0 f pi ci) := exec_pos rfl ho
  rw [he, State.enableRing0, State.rdB_eq_false hr]
  rfl

theorem State.tryRing0_starts {s : State} {feats : Nat} (h : s.ring0Err feats = 0) (pi ci : Nat) :
    s.tryRing0 feats pi ci = (s.ring0Regs feats).addRing s.ring0Ring pi ci := by
  rw [State.tryRing0, if_pos h, State.startRing0_eq]

theorem State.tryRing0_fails {s : State} {feats e : Nat} (h : s.ring0Err feats = e) (he : e ≠ 0) (pi ci : Nat) :
    s.tryRing0 feats pi ci = ((s.wr F.HIF_CTRL_ENABLE 0).wr F.HIF_STATUS_RING0_ERR e).raise Ev.HIF_RING_FAULT := by
  subst h
  rw [State.tryRing0, if_neg he]
  rfl

/-- The set of R63 names version 1 and no doorbell line, in CXL mode too. -/
theorem State.defaultFeats_eq (s : State) : s.defaultFeats = if s.rd F.HIF_STATUS_CXL_MODE = 1 then 0x31 else 0x11 := by
  simp only [State.defaultFeats, State.rdB_eq_true_iff]

theorem State.defaultFeats_names (s : State) : verOf s.defaultFeats = 1 ∧ bitAt s.defaultFeats 3 = false := by
  rw [State.defaultFeats_eq]
  split <;> decide

/-- A change of FEATURES_OK only. -/
theorem State.featuresOk_regsOnly (s : State) (v : Nat) : RegsOnly [0x10000, 0x10004] s (s.wr F.HIF_CTRL_FEATURES_OK v) :=
  (s.wr_regsOnly F.HIF_CTRL_FEATURES_OK v).mono fun _ ho => List.mem_cons.2 (.inl (List.mem_singleton.1 ho))

theorem State.showFeatures_regsOnly (s : State) (r : Nat) : RegsOnly [0x10000, 0x10004] s (s.showFeatures r) :=
  (s.wr_regsOnly _ _).trans (State.wr_regsOnly _ _ _)

theorem State.showFeatures_shows (s : State) : (s.showFeatures 0).rd F.HIF_CTRL_FEATURES_OK = 1 := by
  unfold State.showFeatures
  rw [State.rd_wr_ne _ _ _ _ (by decide) (by decide), State.rd_wr_same _ _ _ (by decide)]
  rfl

theorem State.ring?_regsOnly {s t : State} {offs : List Nat} (h : RegsOnly offs s t) (n : Nat) : t.ring? n = s.ring? n := by
  rw [h.1]
  rfl

theorem State.awake_regsOnly {s t : State} {offs : List Nat} (h : RegsOnly offs s t) : t.awake = s.awake := by
  rw [h.1]
  rfl

theorem SetupKept.sizeOk {s t : State} (h : SetupKept s t) {ver : Nat} (hs : ring0SizeOk ver s) : ring0SizeOk ver t := by
  unfold ring0SizeOk
  rw [h.rd (by decide)]
  exact hs

/-- ENABLE without FEATURES_OK: a set-up that passes the checks of version 1. -/
theorem enable_default_starts {pi ci : Nat} {s : State} (ho : s.bar0Open = true) (hr : s.rd F.HIF_STATUS_RUNNING = 0)
    (hn : s.ring? 0 = none) (hs : ring0SizeOk 1 s) (hb : ring0BaseOk s) (hl : s.ring0Line = 0) :
    Gives (.enable false pi ci) s fun t =>
      Ring0Started s 1 (if s.rd F.HIF_STATUS_CXL_MODE = 1 then 0x31 else 0x11) t ∧ t.rd F.HIF_CTRL_FEATURES_OK = 0 := by
  have hu := s.featuresOk_regsOnly 0
  obtain ⟨hver, -⟩ := s.defaultFeats_names
  have hu0 : (s.wr F.HIF_CTRL_FEATURES_OK 0).ring0Line = 0 := hu.setup.addresses.2.2.trans hl
  have herr : (s.wr F.HIF_CTRL_FEATURES_OK 0).ring0Err s.defaultFeats = 0 := by
    rw [hu.setup.ring0Err]
    exact State.ring0Err_none (hver ▸ hs) hb fun h => absurd hl h
  refine ⟨_, exec_enable ho hr pi ci, ?_⟩
  rw [if_neg Bool.false_ne_true, State.tryRing0_starts herr, State.ring0_noLine ((State.ring?_regsOnly hu 0).trans hn) hu0,
    ← State.defaultFeats_eq]
  refine ⟨hver ▸ ring0Started_of_regs hu (State.ring0Up_started hu0), ?_⟩
  rw [(State.ring0Up_shows _ _).2.2.2.2]
  exact State.rd_wr_same _ _ _ (by decide)

/-- ENABLE without FEATURES_OK: the first check that fails is recorded. -/
theorem enable_default_fails {pi ci e : Nat} {s : State} (ho : s.bar0Open = true) (hr : s.rd F.HIF_STATUS_RUNNING = 0)
    (h : (e = 1 ∧ ¬ring0SizeOk 1 s) ∨ (e = 2 ∧ ring0SizeOk 1 s ∧ ¬ring0BaseOk s) ∨
      (e = 3 ∧ ring0SizeOk 1 s ∧ ring0BaseOk s ∧ s.ring0Line ≠ 0)) :
    Gives (.enable false pi ci) s (After Ev.HIF_RING_FAULT
      (((s.wr F.HIF_CTRL_FEATURES_OK 0).wr F.HIF_CTRL_ENABLE 0).wr F.HIF_STATUS_RING0_ERR e)) := by
  obtain ⟨hver, hline⟩ := s.defaultFeats_names
  have herr : (s.wr F.HIF_CTRL_FEATURES_OK 0).ring0Err s.defaultFeats = e := by
    rw [(s.featuresOk_regsOnly 0).setup.ring0Err]
    refine State.ring0Err_first ?_
    rw [hver]
    simpa only [hline, and_true] using h
  have he := exec_enable (f := false) ho hr pi ci
  rw [if_neg Bool.false_ne_true, State.tryRing0_fails herr (by omega)] at he
  exact State.raise_gives he rfl (State.hasEvents_of_awake (s := s) (State.bar0Open_awake ho))

/-- The version that an accepted set names. -/
theorem verOf_featAccept {s : State} {ver : Nat} (h1 : setOneVersion s) (hlo : 1 ≤ ver) (hhi : ver ≤ 3)
    (ha : accepts s (ver - 1) = true) : verOf s.featAccept = ver := by
  unfold setOneVersion accepts at h1
  unfold accepts at ha
  obtain rfl | rfl | rfl : ver = 1 ∨ ver = 2 ∨ ver = 3 := by omega
  all_goals
    rcases h1 with ⟨h0, h1, h2⟩ | ⟨h0, h1, h2⟩ | ⟨h0, h1, h2⟩ <;> simp_all [verOf]

/-- ENABLE with FEATURES_OK and a set that is honoured. -/
theorem enable_honoured {pi ci ver : Nat} {s : State} (ho : s.bar0Open = true) (hr : s.rd F.HIF_STATUS_RUNNING = 0)
    (hn : s.ring? 0 = none) (hf : s.rd F.HIF_CTRL_FEATURES_OK = 0)
    (hset : setOffered s ∧ setOneVersion s ∧ setDoorbell s ∧ setLineVersion s) (hver : verOf s.featAccept = ver)
    (hs : ring0SizeOk ver s) (hb : ring0BaseOk s) (hl : s.ring0Line ≠ 0 → accepts s 3 = true) :
    Gives (.enable true pi ci) s fun t => t.rd F.HIF_CTRL_FEATURES_OK = 1 ∧ t.hif.feats = s.featAccept ∧
        t.rd F.HIF_STATUS_RUNNING = 1 ∧ t.rd F.HIF_CTRL_ENABLE = 1 ∧ t.rd F.HIF_STATUS_RING_VER = ver ∧ t.rd F.HIF_STATUS_RING0_ERR = 0 ∧
        (t.ring? 0).isSome = true ∧
        (s.ring0Line = 0 → Ring0Started s ver s.featAccept t) ∧
        (s.ring0Line ≠ 0 → pi ≤ 2 ^ s.rd F.HIF_RING_CFG_LOG2_SIZE → t.out = .lineRead s.ring0Line :: s.out ∧
          ∃ r, t.ring? 0 = some r ∧ r.lineShared = true ∧ r.pi = pi) := by
  subst hver
  have hu := s.showFeatures_regsOnly 0
  have hline : (s.showFeatures 0).ring0Line = s.ring0Line := hu.setup.addresses.2.2
  have hring := (State.ring?_regsOnly hu 0).trans hn
  have herr : (s.showFeatures 0).ring0Err s.featAccept = 0 := by
    rw [hu.setup.ring0Err]
    exact State.ring0Err_none hs hb hl
  have he := exec_enable (f := true) ho hr pi ci
  rw [if_pos rfl, State.setFeaturesOk_fresh hr hf (rejectReason_honoured hset), if_pos rfl,
    if_pos (State.rdB_eq_true s.showFeatures_shows), hu.setup.featAccept, State.tryRing0_starts herr] at he
  refine ⟨_, he, ?_⟩
  by_cases h0 : s.ring0Line = 0
  · rw [State.ring0_noLine hring (hline.trans h0)]
    obtain ⟨hen, hrun, hv, her, hok, hfe, hfo⟩ := State.ring0Up_Shows hring s.featAccept
    exact ⟨hok.trans s.showFeatures_shows, hfe, hrun, hen, hv, her, hfo,
      fun _ => ring0Started_of_regs hu (State.ring0Up_started (hline.trans h0)), fun h => absurd h0 h⟩
  · obtain ⟨⟨hen, hrun, hv, her, hok, hfe, hfo⟩, hpi⟩ := State.ring0_withLine (pi := pi) (ci := ci)
      ((State.awake_regsOnly hu).trans (State.bar0Open_awake ho)) hring (hline ▸ h0) (hu.setup.sizeOk hs)
    rw [hline, hu.setup.rd (by decide)] at hpi
    exact ⟨hok.trans s.showFeatures_shows, hfe, hrun, hen, hv, her, hfo, fun h => absurd h h0, fun _ => hpi⟩

/-- ENABLE with FEATURES_OK and a set that is refused. -/
theorem enable_refused {pi ci : Nat} {s : State} (ho : s.bar0Open = true) (hr : s.rd F.HIF_STATUS_RUNNING = 0)
    (hf : s.rd F.HIF_CTRL_FEATURES_OK = 0) (hset : rejectReason s.featOffer s.featAccept ≠ 0) :
    Gives (.enable true pi ci) s fun t => t.rd F.HIF_STATUS_RING0_ERR = 4 ∧ t.rd F.HIF_STATUS_RUNNING = 0 ∧
      t.hif.rings = s.hif.rings ∧ Raised Ev.HIF_RING_FAULT t ∧ Raised Ev.HIF_FEATURES_REFUSED t := by
  set r := rejectReason s.featOffer s.featAccept with hreason
  have hok : (s.showFeatures r).rd F.HIF_CTRL_FEATURES_OK = 0 := by
    rw [State.showFeatures, if_neg hset, State.rd_wr_ne _ _ _ _ (by decide) (by decide), State.rd_wr_same _ _ _ (by decide)]
    rfl
  have hrun : (s.showFeatures r).rd F.HIF_STATUS_RUNNING = 0 := by
    rw [State.showFeatures, State.rd_wr_ne _ _ _ _ (by decide) (by decide), State.rd_wr_ne _ _ _ _ (by decide) (by decide), hr]
  have hevents : (s.showFeatures r).hasEvents = true := State.hasEvents_of_awake (s := s) (State.bar0Open_awake ho)
  have he := exec_enable (f := true) ho hr pi ci
  rw [if_pos rfl, State.setFeaturesOk_fresh hr hf hreason.symm, if_neg hset,
    if_neg (Bool.eq_false_iff.1 (State.rdB_eq_false ((State.raise_rd _ _ (by decide)).trans hok)))] at he
  refine ⟨_, he, ?_, ?_, ?_, State.raised _ rfl (by simpa using hevents), Raised.raise ?_ (by decide)⟩
  · rw [State.raise_rd _ _ (by decide), State.rd_wr_same _ _ _ (by decide)]
    rfl
  · rw [State.raise_rd _ _ (by decide), State.rd_wr_ne _ _ _ _ (by decide) (by decide), State.raise_rd _ _ (by decide), hrun]
  · rw [State.raise_rings]
    exact State.raise_rings _ _
  · exact (State.rd_wr_apart _ _ _ _ (by decide)).trans (State.raised _ rfl hevents)

/-- Settles O16: ENABLE tries ring 0 with the set of R63 or with the accepted one, and the attempt starts it or shows why not. -/
theorem ring0StartsOrSaysWhyNot : Obligations.Ring0StartsOrSaysWhyNot := by
  unfold Obligations.Ring0StartsOrSaysWhyNot
  refine ⟨fun pi ci s ho hr hn => ⟨enable_default_starts ho hr hn, fun e => enable_default_fails ho hr, ?_, enable_refused ho hr⟩, ?_⟩
  · intro ver hf hoff hdb hlv hone hlo hhi ha hs hb hl
    exact enable_honoured ho hr hn hf ⟨hoff, hone, hdb, hlv⟩ (verOf_featAccept hone hlo hhi ha) hs hb hl
  · intro f pi ci s ho hr
    have he : exec (.enable f pi ci) s = .next (s.enableRing0 f pi ci) := exec_pos rfl ho
    rw [he, State.enableRing0, if_pos (State.rdB_eq_true hr)]

end Sys2Proof.Machine
end

section
/-!
PROOFS. A descriptor's way through its ring (R47 to R50, R59).
-/
namespace Sys2Proof.Machine

/-! ## Fetch (R47) -/

theorem padTo_of_length {α : Type} {n : Nat} {d : α} {l : List α} (h : l.length = n) : padTo n d l = l := by
  simp [padTo, h]

theorem exec_descriptorFetch {n : Nat} {r : Ring} {s : State} (hr : s.ring? n = some r) (bytes : List Byte)
    (h : (s.canFetch r || s.canFetchAborted r) = true) : exec (.descriptorFetch n bytes) s = .next (s.fetchDesc r bytes) := by
  change execDescriptorFetch n bytes s = _
  simp only [execDescriptorFetch, hr, h, if_true]

theorem descriptorFetch_fetches (n : Nat) (bytes : List Byte) (r : Ring) (s : State) (hr : s.ring? n = some r) (hk : s.hostLink = true)
    (hb : bytes.length = 64)
    (h : (r.fault = false ∧ r.stale = false ∧ serialLater s.idxW r.pi r.fetch = true ∧ s.doorbellActs r.cls false = true ∧
      s.serves r.cls = true) ∨ serialLater s.idxW r.abortTo r.fetch = true) :
    exec (.descriptorFetch n bytes) s = .next ((s.emit (.descRead (r.sqBase + 64 * (r.fetch % 2 ^ r.log2)))).setRing
        (if serialLater s.idxW r.abortTo r.fetch then
        { r with fetch := (r.fetch + 1) % 2 ^ s.idxW, descs := r.descs ++ [⟨r.fetch, bytes, .done, Cpl.ABORTED, 0, 0, []⟩] }
      else { r with fetch := (r.fetch + 1) % 2 ^ s.idxW, abortTo := (r.fetch + 1) % 2 ^ s.idxW,
                    descs := r.descs ++ [⟨r.fetch, bytes, .waiting, 0, 0, 0, []⟩] })) := by
  have hmay : (s.canFetch r || s.canFetchAborted r) = true := by
    rcases h with ⟨hf, hs, hl, ha, hv⟩ | hl
    · simp [State.canFetch, hf, hs, hl, ha, hv, hk]
    · simp [State.canFetchAborted, hl, hk]
  rw [exec_descriptorFetch hr bytes hmay, State.fetchDesc, padTo_of_length hb]
  by_cases ha : serialLater s.idxW r.abortTo r.fetch = true <;> simp only [ha, if_true, Bool.false_eq_true, if_false]

/-! ## Retirement (R48) -/

theorem State.retireHead_done {s : State} {n : Nat} {r : Ring} {d : Desc} {ds : List Desc} (hr : s.ring? n = some r)
    (hd : r.descs = d :: ds) (hp : d.phase = .done) (hh : s.retireHeld d = false) : s.retireHead n = s.setRing { r with
      descs := ds
      recs := r.recs ++ [⟨d.op, d.tag, d.status, d.cflags, d.info, d.idx + 1, d.event, d.evs⟩] } := by
  simp only [State.retireHead, hr, hd]
  exact if_pos ⟨hp, hh⟩

/-- A ring whose next descriptor carries an opcode of Table 2-7 refuses nothing. -/
theorem State.refuseUnknown_known {s : State} {n : Nat} {r : Ring} (hr : s.ring? n = some r)
    (h : ∀ x, r.startable = some x → (opClass x.op).isSome = true) : s.refuseUnknown n = s := by
  simp only [State.refuseUnknown, hr]
  cases hx : r.startable with
  | none => rfl
  | some x => exact if_neg (by simp [Option.isNone_eq_false_iff.2 (h x hx)])

theorem descriptorRetire_done (n : Nat) (r : Ring) (d : Desc) (ds : List Desc) (s : State) (hr : s.ring? n = some r)
    (hd : r.descs = d :: ds) (hp : d.phase = .done) (hh : s.retireHeld d = false)
    (hx : ∀ x, r.startable = some x → (opClass x.op).isSome = true) :
    exec (.descriptorRetire n) s = .next (s.setRing { r with descs := ds, recs := r.recs ++
        [⟨d.op, d.tag, d.status, d.cflags, d.info, d.idx + 1, d.event, d.evs⟩] }) := by
  change Host.Outcome.next ((s.refuseUnknown n).retireHead n) = _
  rw [State.refuseUnknown_known hr hx, State.retireHead_done hr hd hp hh]

/-- A completion without events changes one descriptor. -/
theorem State.complete_plain (s : State) (ring idx status info : Nat) :
    s.complete ring idx status info = s.modDesc ring idx (doneAs status info) := rfl

/-- The ring found after one of its descriptors is changed. -/
theorem State.ring?_modDesc {s : State} {n : Nat} {r : Ring} (h : s.ring? n = some r) (idx : Nat) (f : Desc → Desc) :
    (s.modDesc n idx f).ring? n = some (r.modDesc idx f) := by
  unfold State.ring? at h ⊢
  change List.find? _ (s.hif.rings.map fun r => if r.num = n then r.modDesc idx f else r) = _
  have hnum : ∀ x : Ring, ((fun x : Ring => x.num == n) ∘ fun r => if r.num = n then r.modDesc idx f else r) x = (x.num == n) := by
    intro x
    simp only [Function.comp]
    split <;> rfl
  rw [List.find?_map, funext hnum, h, Option.map_some, if_pos (by simpa using List.find?_some h)]

/-- A ring that is put replaces what was changed in it. -/
theorem State.setRing_modDesc (s : State) (n idx : Nat) (f : Desc → Desc) {q : Ring} (hq : q.num = n) :
    (s.modDesc n idx f).setRing q = s.setRing q := by
  simp only [State.setRing, State.modDesc, List.map_map]
  congr 1
  congr 1
  refine List.map_congr_left fun x _ => ?_
  simp only [Function.comp]
  by_cases hx : x.num = n <;> simp [hx, hq, Ring.modDesc]

/-- A ring's only descriptor, not started and not fenced, is the next to start. -/
theorem Ring.startable_single {r : Ring} {d : Desc} (hd : r.descs = [d]) (hp : d.phase = .waiting) (hf : d.fence = false) :
    r.startable = some d := by
  simp [Ring.startable, hd, hp, hf]

theorem descriptorRetire_unknown (n : Nat) (r : Ring) (d : Desc) (s : State) (hr : s.ring? n = some r) (hd : r.descs = [d])
    (hp : d.phase = .waiting) (hf : d.fence = false) (ho : opClass d.op = none) (hs : s.serves r.cls = true) :
    exec (.descriptorRetire n) s = .next (s.setRing { r with descs := [], recs := r.recs ++
        [⟨d.op, d.tag, Cpl.BAD_OPCODE, 0, 0, d.idx + 1, d.event, []⟩] }) := by
  have hrefuse : s.refuseUnknown n = s.modDesc n d.idx (doneAs Cpl.BAD_OPCODE 0) := by
    simp only [State.refuseUnknown, hr, Ring.startable_single hd hp hf]
    exact if_pos (by simp [ho, hs])
  have hdescs : (r.modDesc d.idx (doneAs Cpl.BAD_OPCODE 0)).descs = [doneAs Cpl.BAD_OPCODE 0 d] := by
    simp [Ring.modDesc, hd]
  have hheld : (s.modDesc n d.idx (doneAs Cpl.BAD_OPCODE 0)).retireHeld (doneAs Cpl.BAD_OPCODE 0 d) = false := by
    have : (doneAs Cpl.BAD_OPCODE 0 d).op ≠ 0x04 := fun h => by
      rw [show d.op = 0x04 from h] at ho
      cases ho
    simp [State.retireHeld, this]
  have hnum := State.ring?_num hr
  change Host.Outcome.next ((s.refuseUnknown n).retireHead n) = _
  rw [hrefuse, State.retireHead_done (State.ring?_modDesc hr _ _) hdescs rfl hheld, State.setRing_modDesc _ _ _ _ (by exact hnum)]
  rfl

/-! ## Completion records (R49, R50, R59) -/

/-- A completion of ring `n` waits for others before its vector is signalled. -/
def Ring.coalesces (r : Ring) (n : Nat) (event : Bool) : Bool := event && r.coalUs != 0 && n != 0

/-- The next completion fills the count. -/
def Ring.countFull (r : Ring) : Bool := decide (max 1 r.coalCount ≤ r.unsig + 1)

/-- A ring after a completion: the coalesced one is counted, and one that fills the count starts it afresh. -/
def Ring.counted (r : Ring) (coalesces full : Bool) : Ring :=
  { r with unsig := if coalesces then (if full then 0 else r.unsig + 1) else r.unsig, timer := if coalesces then !full else r.timer }

/-- The signal rule of R59: a vector is signalled where the ring does not coalesce or its count is full. -/
theorem State.cplSignal_eq {s : State} {n : Nat} {r q : Ring} (hr : s.ring? n = some r) (hq : q.num = n) (event : Bool) :
    (if event then (s.setRing q).cplSignal n else s.setRing q) =
      if event && (!q.coalesces n event || q.countFull) then (s.setRing (q.counted (q.coalesces n event) q.countFull)).signal q.vector
      else s.setRing (q.counted (q.coalesces n event) q.countFull) := by
  have hring : (s.setRing q).ring? n = some q := State.ring?_setRing hr hq
  cases event with
  | false => rfl
  | true =>
    simp only [State.cplSignal, hring, if_true, Bool.true_and, Ring.coalesces, Ring.countFull]
    by_cases hc : q.coalUs = 0 ∨ n = 0
    · have hcoal : (q.coalUs != 0 && n != 0) = false := by simpa [Classical.or_iff_not_imp_left] using hc
      rw [if_pos hc, hcoal]
      rfl
    · have hcoal : (q.coalUs != 0 && n != 0) = true := by simpa [not_or] using hc
      rw [if_neg hc, hcoal]
      by_cases hfull : max 1 q.coalCount ≤ q.unsig + 1
      · rw [if_pos hfull, decide_eq_true hfull, State.setRing_setRing _ _ _ (by rfl)]
        rfl
      · rw [if_neg hfull, decide_eq_false hfull, State.setRing_setRing _ _ _ (by rfl)]
        rfl

/-- A signalled vector's message leaves unless the vector is masked. -/
theorem State.signal_out (s : State) (v : Nat) :
    (s.signal v).out = if !bitAt (s.msixWord (4 * v + 3)).toNat 0 then .msix v :: s.out else s.out := by
  unfold State.signal
  cases bitAt (s.msixWord (4 * v + 3)).toNat 0 <;> rfl

theorem State.signal_rings (s : State) (v : Nat) : (s.signal v).hif.rings = s.hif.rings ∧ (s.signal v).hif.aborts = s.hif.aborts := by
  rw [(s.signal_events v).hif]
  exact ⟨rfl, rfl⟩

theorem State.occurHeld_foldl_events (l : List HeldEvt) (s : State) : EventsOnly s (l.foldl (fun s h => s.occurHeld h) s) := by
  induction l generalizing s with
  | nil => exact EventsOnly.refl s
  | cons h l ih => exact (s.occurHeld_events h).trans (ih _)

/-- Nothing leaves the device when a ring is removed. -/
theorem State.finishDeletes_out (s : State) : s.finishDeletes.out = s.out :=
  (State.finishDeletes_keeps (P := 262726) rfl (Keeps.refl _ s)).same .out rfl

theorem State.finishDeletes_idle {s : State} (h : s.hif.aborts = []) : s.finishDeletes = s := by
  rw [State.finishDeletes, h]
  rfl

/-- The record that is written (Table 2-6). -/
def State.recordOut (s : State) (r : Ring) (c : CplRec) : Out :=
  .hostWrite (r.cqBase + 16 * (r.cqPi % 2 ^ r.log2)) (cplBytes r (s.cplConcealed r c) s.idxW) false

/-- A ring whose oldest record has been written. -/
def Ring.wrote (r : Ring) (w : Nat) (c : CplRec) (cs : List CplRec) : Ring :=
  { r with recs := cs, cqPi := (r.cqPi + 1) % 2 ^ w, ci := c.sqHead % 2 ^ w }

/-- Writing a record: the record leaves, its vector is signalled, then the events that waited are delivered. -/
theorem State.writeRecord_eq {s : State} {n : Nat} {r : Ring} {c : CplRec} {cs : List CplRec} (hr : s.ring? n = some r)
    (hc : r.recs = c :: cs) (hroom : (r.cqPi + 2 ^ s.idxW - r.cqCi) % 2 ^ s.idxW < 2 ^ r.log2) (hk : s.hostLink = true) :
    s.writeRecord n = State.finishDeletes (c.evs.foldl (fun s h => s.occurHeld h)
      (if c.event then (((s.emit (s.recordOut r c)).cplInterval r).setRing (r.wrote s.idxW c cs)).cplSignal n
        else ((s.emit (s.recordOut r c)).cplInterval r).setRing (r.wrote s.idxW c cs))) := by
  simp only [State.writeRecord, hr, hc]
  exact if_pos ⟨hroom, hk⟩

/-- The bytes of the record, CONCEALED included (R142). -/
theorem State.recordOut_eq (s : State) {n : Nat} {r : Ring} (hn : r.num = n) (c : CplRec) :
    s.recordOut r c = .hostWrite (r.cqBase + 16 * (r.cqPi % 2 ^ r.log2))
      (leBytes c.tag 4 ++ leBytes c.status 2 ++ leBytes ((if r.cqPi / 2 ^ r.log2 % 2 = 0 then 1 else 0) +
        (c.cflags ||| (if s.dec.concealed = true ∧ r.cls = Cls.STREAM ∧ (c.op = 0x10 ∨ c.op = 0x12) then 2 else 0))) 1 ++
        leBytes n 1 ++ leBytes c.info 4 ++ leBytes (c.sqHead % 2 ^ s.idxW) 4) false := by
  subst hn
  unfold State.recordOut cplBytes State.cplConcealed phaseBit
  by_cases hx : s.dec.concealed = true ∧ r.cls = Cls.STREAM ∧ (c.op = 0x10 ∨ c.op = 0x12)
  · rw [if_pos hx, if_pos (by simpa [and_assoc] using hx)]
    rfl
  · rw [if_neg hx, if_neg (by simpa [and_assoc] using hx), Nat.or_zero]

theorem completionWrite_writes (n : Nat) (r : Ring) (c : CplRec) (cs : List CplRec) (s : State) (hr : s.ring? n = some r)
    (hc : r.recs = c :: cs) (hroom : (r.cqPi + 2 ^ s.idxW - r.cqCi) % 2 ^ s.idxW < 2 ^ r.log2) (hk : s.hostLink = true) :
    Gives (.completionWrite n) s fun t =>
        let flags := c.cflags ||| (if s.dec.concealed = true ∧ r.cls = Cls.STREAM ∧ (c.op = 0x10 ∨ c.op = 0x12) then 2 else 0)
        let coalesces := c.event && r.coalUs != 0 && n != 0
        let full := decide (max 1 r.coalCount ≤ r.unsig + 1)
        (let record := Out.hostWrite (r.cqBase + 16 * (r.cqPi % 2 ^ r.log2))
          (leBytes c.tag 4 ++ leBytes c.status 2 ++ leBytes ((if r.cqPi / 2 ^ r.log2 % 2 = 0 then 1 else 0) + flags) 1 ++
            leBytes n 1 ++ leBytes c.info 4 ++ leBytes (c.sqHead % 2 ^ s.idxW) 4) false
        let masked := bitAt (s.msixWord (4 * r.vector + 3)).toNat 0
        let sent := if c.event && (!coalesces || full) && !masked then .msix r.vector :: record :: s.out else record :: s.out
        ∃ l, t.out = l ++ sent ∧ (c.evs = [] → l = [])) ∧
        (s.hif.aborts = [] → t.hif.rings = (s.setRing { r with
          recs := cs, cqPi := (r.cqPi + 1) % 2 ^ s.idxW, ci := c.sqHead % 2 ^ s.idxW
          unsig := if coalesces then (if full then 0 else r.unsig + 1) else r.unsig
          timer := if coalesces then !full else r.timer }).hif.rings) := by
  have hnum := State.ring?_num hr
  set u := (s.emit (s.recordOut r c)).cplInterval r with hu
  set v := u.setRing ((r.wrote s.idxW c cs).counted (r.coalesces n c.event) r.countFull) with hv
  have hsig := State.cplSignal_eq (s := u) (q := r.wrote s.idxW c cs) hr hnum c.event
  set x := if c.event && (!r.coalesces n c.event || r.countFull) then v.signal r.vector else v with hx
  have hexec : exec (.completionWrite n) s = .next (State.finishDeletes (c.evs.foldl (fun s h => s.occurHeld h) x)) := by
    change Host.Outcome.next (s.writeRecord n) = _
    rw [State.writeRecord_eq hr hc hroom hk, hsig]
    rfl
  have hxout : x.out = if c.event && (!r.coalesces n c.event || r.countFull) && !bitAt (s.msixWord (4 * r.vector + 3)).toNat 0 then
      .msix r.vector :: s.recordOut r c :: s.out else s.recordOut r c :: s.out := by
    rw [hx]
    cases c.event && (!r.coalesces n c.event || r.countFull) with
    | false => rfl
    | true => exact v.signal_out r.vector
  have hxhif : x.hif.rings = v.hif.rings ∧ x.hif.aborts = s.hif.aborts := by
    rw [hx]
    split
    · exact v.signal_rings r.vector
    · exact ⟨rfl, rfl⟩
  have hev := State.occurHeld_foldl_events c.evs x
  refine ⟨_, hexec, ?_, fun ha => ?_⟩
  · rw [State.finishDeletes_out, ← s.recordOut_eq hnum c]
    by_cases hn : c.evs = []
    · exact ⟨[], by rw [hn]; exact hxout, fun _ => rfl⟩
    · obtain ⟨l, hl⟩ := hev.sent
      exact ⟨l, hl.trans (by rw [hxout]; rfl), fun h => absurd h hn⟩
  · rw [State.finishDeletes_idle (by rw [hev.hif]; exact hxhif.2.trans ha), hev.hif]
    exact hxhif.1

/-- Settles O18: each row of a descriptor's way is its operation's one branch. -/
theorem descriptorsAreFetchedAndReported : Obligations.DescriptorsAreFetchedAndReported := by
  unfold Obligations.DescriptorsAreFetchedAndReported
  refine ⟨descriptorFetch_fetches, descriptorRetire_done, descriptorRetire_unknown, completionWrite_writes, fun n r s hr ht => ?_⟩
  change execCoalesceTimerExpiry n s = _
  simp only [execCoalesceTimerExpiry, hr, ht, if_true]

end Sys2Proof.Machine
end

section
/-!
PROOFS. Descriptors that manage rings (R44, R49, R52, R55, R58, R66, R391).
-/
namespace Sys2Proof.Machine

/-! ## A descriptor that passes its checks -/

/-- It starts, and its opcode gives its effect. -/
theorem withOp_passes {s : State} {ring op : Nat} {r : Ring} {d : Desc} {checks : Ring → Desc → List (Bool × Nat)}
    (h : Passes s ring op r d (checks r d)) (go : Ring → Desc → State → State) :
    s.withOp ring op checks go = go r d (s.run ring d.idx) := by
  obtain ⟨hn, ha, hh, hc⟩ := h
  exact State.withOp_pass hn ha hh hc

/-- A change made to a started descriptor. -/
theorem State.run_modDesc (s : State) (ring idx : Nat) (f : Desc → Desc)
    (hf : ∀ d, f { d with phase := .running } = f d) : (s.run ring idx).modDesc ring idx f = s.modDesc ring idx f := by
  exact (State.modDesc_modDesc s ring idx (fun d => { d with phase := .running }) f fun _ => rfl).trans
    (congrArg _ (funext hf))

theorem State.run_done (s : State) (ring idx status info : Nat) :
    (s.run ring idx).modDesc ring idx (doneAs status info) = s.modDesc ring idx (doneAs status info) :=
  s.run_modDesc ring idx _ fun _ => rfl

/-- Registers are not a ring's. -/
theorem State.rd_modDesc (s : State) (ring idx : Nat) (f : Desc → Desc) (fl : Fld) : (s.modDesc ring idx f).rd fl = s.rd fl :=
  rfl

theorem State.word_modDesc (s : State) (ring idx : Nat) (f : Desc → Desc) (o : Nat) : (s.modDesc ring idx f).word o = s.word o :=
  rfl

theorem State.evt_modDesc (s : State) (ring idx : Nat) (f : Desc → Desc) : (s.modDesc ring idx f).evt = s.evt := rfl

theorem State.hif_modDesc (s : State) (ring idx : Nat) (f : Desc → Desc) : (s.modDesc ring idx f).hif =
    { s.hif with rings := s.hif.rings.map fun r => if r.num = ring then r.modDesc idx f else r } := rfl

theorem State.evt_run (s : State) (ring idx : Nat) : (s.run ring idx).evt = s.evt := rfl

theorem State.word_run (s : State) (ring idx o : Nat) : (s.run ring idx).word o = s.word o := rfl

/-- NOP completes. -/
theorem nop_completes (ring : Nat) (r : Ring) (d : Desc) (s : State) (h : Passes s ring 0x05 r d [(d.restZero [], Cpl.BAD_FIELD)]) :
    exec (.nop ring) s = .next (s.modDesc ring d.idx (doneAs Cpl.SUCCESS 0)) := by
  have hnum := State.nextOp_num h.1
  change Host.Outcome.next (s.withOp ring 0x05 _ _) = _
  rw [withOp_passes h, State.complete_plain, hnum, State.run_done]

/-! ## CREATE_RING (R44) -/

/-- The ring that a CREATE_RING describes (Table 2-8). -/
def Desc.newRing (d : Desc) : Ring :=
  Ring.fresh (byteAt d.bytes 32) (byteAt d.bytes 33) (byteAt d.bytes 34) (byteAt d.bytes 35) (leAt d.bytes 36 2) (leAt d.bytes 38 2)
    (leAt d.bytes 8 8) (leAt d.bytes 16 8) (leAt d.bytes 24 8)

theorem createRing_passes {ring pi ci : Nat} {r : Ring} {d : Desc} {s : State} (h : Passes s ring 0x01 r d (s.createChecks r d)) :
    exec (.createRing ring pi ci) s =
      .next (((s.run ring d.idx).addRing d.newRing pi ci).modDesc ring d.idx (doneAs Cpl.SUCCESS 0)) := by
  have hnum := State.nextOp_num h.1
  change Host.Outcome.next (s.withOp ring 0x01 _ _) = _
  rw [withOp_passes h, State.complete_plain, hnum]
  rfl

/-- CREATE_RING names a ring that does not exist, of a size that the version allows. -/
theorem createChecks_new {s : State} {r : Ring} {d : Desc} (h : ∀ p ∈ s.createChecks r d, p.1 = true) :
    s.ring? d.newRing.num = none ∧ d.newRing.log2 ≤ log2Max (s.rd F.HIF_STATUS_RING_VER) := by
  simp only [State.createChecks, List.forall_mem_cons, Bool.and_eq_true, decide_eq_true_eq, Option.isNone_iff_eq_none] at h
  obtain ⟨⟨⟨-, hlog⟩, -⟩, ⟨hnone, -⟩, -⟩ := h
  exact ⟨hnone, hlog⟩

/-- The rings found after a descriptor is changed. -/
theorem State.ring?_modDesc_none {s : State} {n m : Nat} (h : s.ring? m = none) (idx : Nat) (f : Desc → Desc) :
    (s.modDesc n idx f).ring? m = none := by
  unfold State.ring? at h ⊢
  rw [List.find?_eq_none] at h ⊢
  intro x hx
  obtain ⟨y, hy, rfl⟩ := List.mem_map.1 hx
  have := h y hy
  split <;> exact this

/-- A new ring has no descriptor to change. -/
theorem State.newRing_modDesc (s : State) (ring idx : Nat) (f : Desc → Desc) {n : Ring} (hn : n.descs = []) :
    (s.modDesc ring idx f).newRing n = (s.newRing n).modDesc ring idx f := by
  have hsame : (if n.num = ring then n.modDesc idx f else n) = n := by
    cases n
    simp only at hn
    subst hn
    exact ite_self _
  have hrings : (s.newRing n).hif.rings.map (fun r => if r.num = ring then r.modDesc idx f else r) =
      (s.modDesc ring idx f).hif.rings ++ [n] := by
    change (s.hif.rings ++ [n]).map _ = _
    rw [List.map_append, List.map_singleton, hsame]
    rfl
  conv_rhs => rw [State.modDesc, hrings]
  rfl

/-- Without a line the ring is added as it is. -/
theorem createRing_noLine (ring pi ci : Nat) (r : Ring) (d : Desc) (s : State) (h : Passes s ring 0x01 r d (s.createChecks r d))
    (hl : leAt d.bytes 24 8 = 0) :
    exec (.createRing ring pi ci) s = .next ((s.newRing d.newRing).modDesc ring d.idx (doneAs Cpl.SUCCESS 0)) := by
  obtain ⟨hnone, -⟩ := createChecks_new h.2.2.2
  have hnone' : (s.run ring d.idx).ring? d.newRing.num = none := State.ring?_modDesc_none hnone _ _
  rw [createRing_passes h, State.addRing_noLine hnone' hl, State.run, State.newRing_modDesc _ _ _ _ rfl]
  exact congrArg _ ((s.newRing d.newRing).run_done ring d.idx Cpl.SUCCESS 0)

/-- A ring that has no descriptor is found unchanged after a descriptor is changed. -/
theorem State.ring?_modDesc_empty {s : State} {n m : Nat} {q : Ring} (h : s.ring? m = some q) (hq : q.descs = []) (idx : Nat)
    (f : Desc → Desc) : (s.modDesc n idx f).ring? m = some q := by
  have hsame : (if q.num = n then q.modDesc idx f else q) = q := by
    cases q
    simp only at hq
    subst hq
    exact ite_self _
  have hnum : ∀ x : Ring, ((fun x : Ring => x.num == m) ∘ fun r => if r.num = n then r.modDesc idx f else r) x = (x.num == m) := by
    intro x
    simp only [Function.comp]
    split <;> rfl
  unfold State.ring? at h ⊢
  change List.find? _ (s.hif.rings.map fun r => if r.num = n then r.modDesc idx f else r) = _
  rw [List.find?_map, funext hnum, h, Option.map_some, hsame]

/-- With a line: it is read at once where the power state lets the device hold it. -/
theorem createRing_line (ring pi ci : Nat) (r : Ring) (d : Desc) (s : State) (h : Passes s ring 0x01 r d (s.createChecks r d))
    (hl : leAt d.bytes 24 8 ≠ 0) : Gives (.createRing ring pi ci) s fun t => ∃ n, t.ring? (byteAt d.bytes 32) = some n ∧
      n.cls = byteAt d.bytes 33 ∧ n.log2 = byteAt d.bytes 34 ∧ n.sqBase = leAt d.bytes 8 8 ∧ n.cqBase = leAt d.bytes 16 8 ∧
      n.dbLine = leAt d.bytes 24 8 ∧ n.descs = [] ∧ n.recs = [] ∧ n.fetch = 0 ∧ n.ci = 0 ∧
      (s.doorbellActs n.cls true = true → n.lineShared = true ∧ (pi ≤ 2 ^ n.log2 → n.pi = pi ∧ t.out = .lineRead n.dbLine :: s.out)) ∧
      (s.doorbellActs n.cls true = false → n.lineShared = false ∧ n.pi = 0 ∧ t.out = s.out) := by
  obtain ⟨hnone, hlog⟩ := createChecks_new h.2.2.2
  have hnone' : (s.run ring d.idx).ring? d.newRing.num = none := State.ring?_modDesc_none hnone _ _
  refine ⟨_, createRing_passes h, ?_⟩
  by_cases ha : s.doorbellActs d.newRing.cls true = true
  · obtain ⟨q, p, c, f, rfl, -, hring, hpi⟩ := State.addRing_reads (s := s.run ring d.idx) (r := d.newRing) hnone' hl ha rfl rfl pi ci
    have hsize : d.newRing.log2 + 1 < (s.run ring d.idx).idxW := Nat.lt_of_le_of_lt (Nat.succ_le_succ hlog) s.log2Max_lt_idxW
    exact ⟨_, State.ring?_modDesc_empty hring rfl _ _, rfl, rfl, rfl, rfl, rfl, rfl, rfl, rfl, rfl, fun _ => ⟨rfl, hpi hsize⟩,
      fun hno => absurd ha (Bool.eq_false_iff.1 hno)⟩
  · have hadd : (s.run ring d.idx).addRing d.newRing pi ci = (s.run ring d.idx).newRing d.newRing := by
      rw [State.addRing_eq]
      exact if_neg ha
    rw [hadd]
    exact ⟨_, State.ring?_modDesc_empty (State.newRing_ring? hnone') rfl _ _, rfl, rfl, rfl, rfl, rfl, rfl, rfl, rfl, rfl,
      fun hyes => absurd hyes ha, fun _ => ⟨rfl, rfl, rfl⟩⟩

/-! ## EVT_RING (R391) -/

/-- The event ring's registers and slots after it is set up. -/
theorem State.setEvtRing_words (s : State) (base log2 vec : Nat) {o : Nat} (h : o ∉ [0x20090, 0x20094, 0x20098, 0x2009C]) :
    (s.setEvtRing base log2 vec).word o = s.word o := by
  simp only [List.mem_cons, List.not_mem_nil, or_false, not_or] at h
  obtain ⟨hs, hc, hp, hl⟩ := h
  unfold State.setEvtRing State.wrB
  dsimp only
  rw [State.word_wr_ne _ _ _ hl, State.word_wr_ne _ _ _ hc, State.word_wr_ne _ _ _ hp]
  split
  · exact State.word_wr_ne _ _ _ hs
  · exact (State.word_wr_ne _ _ _ hs).trans (State.word_wr_ne _ _ _ hs)

theorem State.setEvtRing_shows (s : State) (base vec : Nat) {log2 : Nat} (hl : log2 ≤ 16) :
    (s.setEvtRing base log2 vec).rd F.EVT_RING_STATUS_ACTIVE = (if base = 0 then 0 else 1) ∧
      (base ≠ 0 → (s.setEvtRing base log2 vec).rd F.EVT_RING_STATUS_LOG2_SIZE = log2) ∧
      (s.setEvtRing base log2 vec).rd F.EVT_RING_PI_INDEX = 0 ∧ (s.setEvtRing base log2 vec).rd F.EVT_RING_CI_INDEX = 0 ∧
      (s.setEvtRing base log2 vec).rd F.EVT_CNT_LOST_COUNT = 0 := by
  by_cases hb : base = 0
  · simp (disch := decide) only [State.setEvtRing, State.wrB, State.rd_wr_same, State.rd_wr_ne, if_pos hb]
    simp [hb, b2n, F.EVT_RING_STATUS_ACTIVE]
  · simp (disch := decide) only [State.setEvtRing, State.wrB, State.rd_wr_same, State.rd_wr_ne, if_neg hb]
    simp [hb, b2n, F.EVT_RING_STATUS_ACTIVE, F.EVT_RING_STATUS_LOG2_SIZE]
    omega

theorem State.setEvtRing_rest (s : State) (base log2 vec : Nat) : (s.setEvtRing base log2 vec).hif = s.hif ∧
    (s.setEvtRing base log2 vec).evt = { s.evt with ringBase := base, ringVec := vec } := by
  unfold State.setEvtRing
  dsimp only
  split <;> exact ⟨rfl, rfl⟩

/-- The event ring is set up, and the descriptor completes. -/
theorem evtRing_passes {ring : Nat} {r : Ring} {d : Desc} {s : State} (hn : s.nextOp ring 0x06 = some (r, d))
    (ha : s.opAllowed r.cls 0x06 = true) (hh : s.headerOk d = true) (hz : d.restZero [(8, 10)] = true) (hb : leAt d.bytes 8 8 < 2 ^ 63)
    (hp : leAt d.bytes 8 8 % 4096 = 0) (hlo : 6 ≤ byteAt d.bytes 16) (hhi : byteAt d.bytes 16 ≤ 16) (hv : byteAt d.bytes 17 ≤ 63) :
    exec (.evtRing ring) s = .next (((s.run ring d.idx).setEvtRing (leAt d.bytes 8 8) (byteAt d.bytes 16) (byteAt d.bytes 17)).modDesc
      ring d.idx (doneAs Cpl.SUCCESS 0)) := by
  have hnum := State.nextOp_num hn
  have hhost : isHost (leAt d.bytes 8 8) = true := decide_eq_true hb
  change Host.Outcome.next (s.withOp ring 0x06 _ _) = _
  rw [State.withOp_pass hn ha hh (by simp [hz, hhost, hp, hlo, hhi, hv]), State.complete_plain, hnum]

theorem evtRing_sets (ring : Nat) (r : Ring) (d : Desc) (s : State) (hn : s.nextOp ring 0x06 = some (r, d))
    (ha : s.opAllowed r.cls 0x06 = true) (hh : s.headerOk d = true) (hz : d.restZero [(8, 10)] = true) (hb : leAt d.bytes 8 8 < 2 ^ 63)
    (hp : leAt d.bytes 8 8 % 4096 = 0) (hlo : 6 ≤ byteAt d.bytes 16) (hhi : byteAt d.bytes 16 ≤ 16) (hv : byteAt d.bytes 17 ≤ 63) :
    Gives (.evtRing ring) s fun t => t.evt = { s.evt with ringBase := leAt d.bytes 8 8, ringVec := byteAt d.bytes 17 } ∧
        t.rd F.EVT_RING_STATUS_ACTIVE = (if leAt d.bytes 8 8 = 0 then 0 else 1) ∧
        (leAt d.bytes 8 8 ≠ 0 → t.rd F.EVT_RING_STATUS_LOG2_SIZE = byteAt d.bytes 16) ∧ t.rd F.EVT_RING_PI_INDEX = 0 ∧
        t.rd F.EVT_RING_CI_INDEX = 0 ∧ t.rd F.EVT_CNT_LOST_COUNT = 0 ∧
        t.hif = (s.modDesc ring d.idx (doneAs Cpl.SUCCESS 0)).hif ∧
        ∀ o, o ∉ [0x20090, 0x20094, 0x20098, 0x2009C] → t.word o = s.word o := by
  obtain ⟨hhif, hevt⟩ := (s.run ring d.idx).setEvtRing_rest (leAt d.bytes 8 8) (byteAt d.bytes 16) (byteAt d.bytes 17)
  obtain ⟨hact, hlog, hpi, hci, hlost⟩ := (s.run ring d.idx).setEvtRing_shows (leAt d.bytes 8 8) (byteAt d.bytes 17) hhi
  rw [State.evt_run] at hevt
  have hdone : (((s.run ring d.idx).setEvtRing (leAt d.bytes 8 8) (byteAt d.bytes 16) (byteAt d.bytes 17)).modDesc ring d.idx
      (doneAs Cpl.SUCCESS 0)).hif = (s.modDesc ring d.idx (doneAs Cpl.SUCCESS 0)).hif := by
    rw [State.hif_modDesc, hhif, ← State.run_done s, State.hif_modDesc]
  have hword : ∀ o, o ∉ [0x20090, 0x20094, 0x20098, 0x2009C] → (((s.run ring d.idx).setEvtRing (leAt d.bytes 8 8)
      (byteAt d.bytes 16) (byteAt d.bytes 17)).modDesc ring d.idx (doneAs Cpl.SUCCESS 0)).word o = s.word o := by
    intro o ho
    rw [State.word_modDesc, State.setEvtRing_words _ _ _ _ ho, State.word_run]
  refine ⟨_, evtRing_passes hn ha hh hz hb hp hlo hhi hv, ?_⟩
  simp only [State.rd_modDesc, State.evt_modDesc]
  exact ⟨hevt, hact, hlog, hpi, hci, hlost, hdone, hword⟩

/-! ## Opcodes that a ring does not allow (R52) -/

/-- The command runs the descriptor that carries the opcode, while no store operation is in progress. -/
def RunsOp (p : (Nat → Instr) × Nat) : Prop := ∀ (ring : Nat) (s : State), s.nvs.logOp = none → s.nvs.flashOp = none →
  ∃ checks go, exec (p.1 ring) s = .next (s.withOp ring p.2 checks go)

theorem runsOp_logWrite : RunsOp (fun n => .logWrite n [] ⟨[], none⟩, 0x62) := by
  intro ring s hl _
  have he : exec (.logWrite ring [] ⟨[], none⟩) s = .next (s.opLogWrite ring [] ⟨[], none⟩) := by
    change execLogWrite ring [] ⟨[], none⟩ s = _
    rw [execLogWrite, hl]
  exact ⟨_, _, he⟩

theorem runsOp_flashRead : RunsOp (.flashRead, 0x63) := by
  intro ring s _ hf
  have he : exec (.flashRead ring) s = .next (s.opFlashRead ring) := exec_neg rfl (by simp [hf])
  exact ⟨_, _, he⟩

theorem runsOp_of_mem : ∀ p ∈ opcodeRows, RunsOp p := by
  simp only [opcodeRows, List.forall_mem_cons]
  refine ⟨?_, ?_, ?_, ?_, ?_, ?_, ?_, ?_, ?_, ?_, ?_, ?_, ?_, runsOp_logWrite, runsOp_flashRead, List.forall_mem_nil _⟩
  all_goals exact fun _ _ _ _ => ⟨_, _, rfl⟩

/-- Settles O19: a descriptor of these rows runs through `withOp`, and its effect changes rings, aborts or the event ring. -/
theorem ringManagement : Obligations.RingManagement := by
  unfold Obligations.RingManagement
  refine ⟨nop_completes, fun ring pi ci r d s h hl => ?_, createRing_line, fun ring r d s h => ?_, fun ring r d s h => ?_, evtRing_sets, ?_⟩
  · have hnew : d.newRing = Ring.fresh (byteAt d.bytes 32) (byteAt d.bytes 33) (byteAt d.bytes 34) (byteAt d.bytes 35)
        (leAt d.bytes 36 2) (leAt d.bytes 38 2) (leAt d.bytes 8 8) (leAt d.bytes 16 8) 0 := by rw [Desc.newRing, hl]
    rw [createRing_noLine ring pi ci r d s h hl, hnew]
    rfl
  · change Host.Outcome.next (s.withOp ring 0x03 _ _) = _
    rw [withOp_passes h]
  · change Host.Outcome.next (s.withOp ring 0x02 _ _) = _
    rw [withOp_passes h]
  · intro p hp ring r d s hn hl hf ha
    obtain ⟨checks, go, he⟩ := runsOp_of_mem p hp ring s hl hf
    rw [he, State.withOp_badOpcode hn ha, State.complete_plain]

end Sys2Proof.Machine
end

section
/-!
PROOFS. What the engines may do to the state while they drop, abort or restart work: the moves they are made of, and that what every
such move keeps, they keep.
-/
namespace Sys2Proof.Machine

/-- The register blocks of the engines: all from THERMAL up, past GLB, HIF, EVT and PWR (Table 0-5). -/
def engineReg (off : Nat) : Bool := decide (0x40000 ≤ off)

/-- The parts of the state that engines change directly, outside registers: neither rings, events, power nor the stores' contents. -/
def EngineParts (s t : State) : Prop :=
  t = { s with
    out := t.out, freeCtr := t.freeCtr, mem := t.mem, syn := t.syn, cmp := t.cmp, scn := t.scn, pnl := t.pnl, dec := t.dec, blt := t.blt
    enc := t.enc, lanes := t.lanes, rope := t.rope
    nvs := { s.nvs with logOp := t.nvs.logOp, flashOp := t.nvs.flashOp } }

/-- What accesses to memory do keeps `P`: changes of memory, registers of the engines, and events. -/
structure MemoryClosed (P : State → Prop) : Prop where
  modMem : ∀ {s : State} (f : MemSt → MemSt), P s → P (s.modMem f)
  wr : ∀ {s : State} {f : Fld} (v : Nat), engineReg f.off = true → P s → P (s.wr f v)
  raise : ∀ {s : State} (e : Nat), P s → P (s.raise e)

/-- Every move of an engine keeps `P`. -/
structure EngineClosed (P : State → Prop) : Prop extends MemoryClosed P where
  parts : ∀ {s t : State}, EngineParts s t → P s → P t

theorem keptBy_ite {P : State → Prop} {a b : State} {c : Prop} [Decidable c] (ha : P a) (hb : P b) : P (if c then a else b) := by
  split
  · exact ha
  · exact hb

theorem keptBy_foldl {P : State → Prop} {α : Type} {f : State → α → State} (l : List α) {s : State} (h : P s)
    (hf : ∀ s a, P s → P (f s a)) : P (l.foldl f s) := by
  induction l generalizing s with
  | nil => exact h
  | cons a l ih => exact ih (hf s a h)

/-! ## Memory accesses (R328 to R331, R337) -/

namespace MemoryClosed

variable {P : State → Prop} (c : MemoryClosed P) {s : State}
include c

theorem bump {f : Fld} (n : Nat) (hf : engineReg f.off = true) (h : P s) : P (s.bump f n) := c.wr _ hf h

theorem countCorr (h : P s) : P s.countCorr :=
  have hb := c.bump 1 (f := F.MEM_CNT_COUNT 0) rfl h
  keptBy_ite (c.raise _ hb) hb

theorem poison (cl : MemClass) (sec : Nat) (h : P s) : P (s.poison cl sec) := by
  have hb := c.bump 1 (f := F.MEM_CNT_COUNT 1) rfl (c.modMem (fun m => m.poisonSector sec) h)
  unfold State.poison
  refine c.raise _ (keptBy_ite (c.wr _ rfl hb) ?_)
  exact c.wr _ rfl (c.wr _ rfl (c.wr _ rfl (c.wr _ rfl (c.wr _ rfl hb))))

theorem touchSector (cl : MemClass) (sec : Nat) (h : P s) : P (s.touchSector cl sec) := by
  unfold State.touchSector
  split
  case h_1 => exact h
  case h_2 => exact c.bump _ rfl h
  case h_3 => exact c.countCorr (c.modMem _ h)
  case h_4 => exact c.poison cl sec h

theorem windowMiss (e : Engine) (h : P s) : P (s.windowMiss e) := by
  have hb := c.bump 1 (f := F.MEM_CNT_COUNT 3) rfl h
  unfold State.windowMiss
  exact keptBy_ite hb (c.raise _ (c.modMem _ hb))

theorem readFor (cl : MemClass) (e : Engine) (a n : Nat) (h : P s) : P (s.readFor cl e a n) := by
  have hf := keptBy_foldl ((sectorsOf a n).filter fun sec => s.pageOk e false (sec / 128))
    (c.modMem (fun m => { m with traffic := m.traffic.modify cl.num (· + s.granted e false a n) }) h) fun _ sec h => c.touchSector cl sec h
  unfold State.readFor
  exact keptBy_ite hf (c.windowMiss e hf)

theorem mergeSector (cl : MemClass) (sec o : Nat) (bs : List Byte) (h : P s) : P (s.mergeSector cl sec o bs) := by
  unfold State.mergeSector
  dsimp only
  split
  case h_1 => exact c.modMem _ h
  case h_2 => exact c.countCorr (c.modMem _ h)
  case h_3 => exact c.raise _ h
  case h_4 => exact c.raise _ (c.poison cl sec h)

theorem writeSector (cl : MemClass) (sec : Nat) (p : Nat × List Byte) (h : P s) : P (s.writeSector cl sec p) :=
  keptBy_ite (c.modMem _ h) (c.mergeSector cl sec _ _ h)

theorem writeFor (cl : MemClass) (e : Engine) (a : Nat) (bs : List Byte) (h : P s) : P (s.writeFor cl e a bs) := by
  have hf := keptBy_foldl ((sectorsOf a bs.length).filter fun sec => s.pageOk e true (sec / 128))
    (c.modMem (fun m => { m with traffic := m.traffic.modify cl.num (· + s.granted e true a bs.length) }) h)
    fun _ sec h => c.writeSector cl sec (sectorPart a bs sec) h
  unfold State.writeFor
  exact keptBy_ite hf (c.windowMiss e hf)

theorem touch (cl : MemClass) (a n : Nat) (h : P s) : P (s.touch cl a n) :=
  keptBy_foldl _ (c.modMem _ h) fun _ sec h => c.touchSector cl sec h

end MemoryClosed

namespace EngineClosed

variable {P : State → Prop} (c : EngineClosed P) {s : State}
include c

theorem modDec (f : DecSt → DecSt) (h : P s) : P (s.modDec f) := c.parts rfl h

theorem modBlt (f : BltSt → BltSt) (h : P s) : P (s.modBlt f) := c.parts rfl h

theorem modEnc (f : EncSt → EncSt) (h : P s) : P (s.modEnc f) := c.parts rfl h

/-! ## The blitters (R311, R319, R322) -/

theorem flush {r : BltRun} (h : P r.s) : P r.flush.s := by
  unfold BltRun.flush
  split
  · exact h
  · exact c.writeFor _ _ _ _ h

theorem push {r : BltRun} (a : Nat) (b : Byte) (h : P r.s) : P (r.push a b).s := by
  have hf := c.flush h
  unfold BltRun.push
  split
  · exact h
  split
  · exact h
  split
  · exact h
  · exact hf

theorem pushes (l : List (Nat × Byte)) {r : BltRun} (h : P r.s) : P (l.foldl (fun r x => r.push x.1 x.2) r).s := by
  induction l generalizing r with
  | nil => exact h
  | cons x l ih => exact ih (c.push x.1 x.2 h)

theorem fetch {r : BltRun} (row len : Nat) (before : Option Nat) (a n : Nat) (h : P r.s) : P (r.fetch row len before a n).s :=
  keptBy_foldl _ h fun _ _ h => c.readFor _ _ _ _ h

theorem read {r : BltRun} (row len : Nat) (before : Option Nat) (a n : Nat) (h : P r.s) : P (r.read row len before a n).1.s := by
  unfold BltRun.read
  refine c.fetch row len before a n ?_
  split
  · exact c.flush h
  · exact h

/-- A pixel's bytes are pushed, or nothing is. -/
theorem put {r : BltRun} (a : Nat) (bs : List Byte) (h : P r.s) : P (r.put a bs).s := c.pushes _ h

theorem pixel {r : BltRun} (cmd : BltCmd) (before : Option Nat) (i j : Nat) (h : P r.s) : P (r.pixel cmd before i j).s := by
  have hread : ∀ (r : BltRun) (p : Prop) [Decidable p] (row len a n : Nat) (b : Option Nat), P r.s →
      P (if p then r.read row len b a n else (r, [])).1.s := by
    intro r p _ row len a n b h
    split
    · exact c.read row len b a n h
    · exact h
  have hboth := hread _ (cmd.op = 3) (cmd.dstAt 0 j) (cmd.w * bltBpp cmd.dfmt) (cmd.dstAt i j) (bltBpp cmd.dfmt)
    (before.map fun b => cmd.dstAt b j) (hread r (cmd.usesSrc = true) (cmd.srcAt 0 j) (cmd.w * bltBpp cmd.sfmt) (cmd.srcAt i j)
      (bltBpp cmd.sfmt) (before.map fun b => cmd.srcAt b j) h)
  have hite : ∀ (p : Prop) [Decidable p] {a b : BltRun}, P a.s → P b.s → P (if p then a else b).s := by
    intro p _ a b ha hb
    split
    · exact ha
    · exact hb
  refine hite _ (c.put _ _ hboth) ?_
  generalize cmd.value _ _ = v
  cases v with
  | none => exact hboth
  | some v => exact c.put _ _ hboth

theorem bltPixels (cmd : BltCmd) (px : List (Nat × Nat)) (h : P s) : P (s.bltPixels cmd px).1 := by
  have hall : ∀ (l : List ((Nat × Nat) × Option (Nat × Nat))) (r : BltRun), P r.s →
      P (l.foldl (fun (r : BltRun) p => r.pixel cmd ((p.2.filter fun q => q.2 == p.1.2).map Prod.fst) p.1.1 p.1.2) r).s := by
    intro l
    induction l with
    | nil => exact fun _ h => h
    | cons p l ih => exact fun _ h => ih _ (c.pixel cmd _ _ _ h)
  exact c.flush (hall _ ⟨s, 0, 0, []⟩ h)

theorem bltWork (l : BltList) (n : Nat) (h : P s) : P (s.bltWork l n).1 := by
  unfold State.bltWork
  split
  case h_1 => exact h
  case h_2 b _ =>
    have hp := c.bltPixels (bltCmdOf b) ((bltCmdOf b).order.take n) h
    have hb := c.bump (s.bltPixels (bltCmdOf b) ((bltCmdOf b).order.take n)).2 (f := F.BLT_CNT_COUNT 2) rfl hp
    dsimp only
    split
    · exact hp
    · exact keptBy_ite hb (c.raise _ hb)

theorem setBlt (d : Die) (l : Option BltList) (h : P s) : P (s.setBlt d l) := c.wr _ rfl (c.wr _ rfl (c.modBlt _ h))

theorem bltHalt (ring idx : Nat) (h : P s) : P (s.bltHalt ring idx) := by
  refine keptBy_foldl _ h fun s d h => ?_
  split
  · split
    · refine c.setBlt _ _ (c.parts rfl (c.bltWork _ _ h))
    · exact h
  · exact h

theorem abortBlt (ring idx : Nat) (h : P s) : P (s.abortBlt ring idx) :=
  keptBy_foldl _ (c.modBlt _ (c.bltHalt ring idx h)) fun _ _ h => keptBy_ite (c.setBlt _ _ h) h

/-! ## The decoder (R125 to R128, R140) -/

theorem concealRow (uid : Nat) (depth : Bool) (r : Nat) (feed : Option Nat) (h : P s) : P (s.concealRow uid depth r feed) := by
  unfold State.concealRow
  split
  · exact h
  · exact c.bump _ rfl (c.modDec _ h)

theorem concealRows (uid : Nat) (feed : Option Nat) (rows : List (Bool × Nat)) (h : P s) : P (s.concealRows uid feed rows) :=
  keptBy_ite h (c.raise _ (keptBy_foldl rows h fun _ r h => c.concealRow uid r.1 r.2 feed h))

theorem abortFeed (ring idx : Nat) (h : P s) : P (s.abortFeed ring idx) := by
  unfold State.abortFeed
  split
  · exact h
  · refine keptBy_foldl _ (c.modDec _ h) fun s j h => ?_
    dsimp only
    split
    · exact keptBy_ite (c.concealRows _ _ _ (c.modDec _ h)) (c.modDec _ h)
    · exact c.modDec _ h

theorem countSubst (n : Nat) (h : P s) : P (s.countSubst n) := by
  induction n generalizing s with
  | zero => exact h
  | succ n ih => exact ih (c.raise _ (c.bump _ rfl (c.modDec _ h)))

theorem settleAwaited (uid anchor before : Nat) (e : Option (Nat × Nat)) (h : P s) : P (s.settleAwaited uid anchor before e) := by
  unfold State.settleAwaited
  dsimp only
  split
  · exact h
  split
  · exact keptBy_ite (c.modDec _ h) (c.countSubst _ (c.modDec _ h))
  · exact c.countSubst _ (c.modDec _ h)

theorem passPic (before : Nat) (p : Pic) (h : P s) : P (s.passPic before p) := by
  unfold State.passPic
  exact c.modDec _ (c.concealRows _ _ _ (keptBy_foldl p.refs h fun _ _ h => keptBy_ite (c.settleAwaited _ _ _ _ h) h))

theorem passPics (before : Nat) (h : P s) : P (s.passPics before) := keptBy_foldl _ h fun _ p h => c.passPic before p h

theorem recordMissing (n : Nat) (h : P s) : P (s.recordMissing n) :=
  keptBy_ite h (c.raise _ (c.modDec _ (c.bump _ rfl h)))

theorem endAu (h : P s) : P s.endAu := by
  unfold State.endAu
  split
  · exact h
  · exact keptBy_ite h (c.modDec _ (c.recordMissing _ (c.passPics _ h)))

theorem cancelRepair (h : P s) : P s.cancelRepair := by
  unfold State.cancelRepair
  split
  · exact h
  · exact c.modDec _ h

theorem concealLost (h : P s) : P s.concealLost := keptBy_foldl _ h fun _ _ h => c.concealRows _ _ _ h

theorem decReset (h : P s) : P s.decReset := by
  unfold State.decReset State.takeDecSettings
  exact c.modDec _ (c.modDec _ (c.modDec _ (c.concealLost (c.passPics _ (c.endAu (c.cancelRepair h))))))

theorem decRestart (forget empty : Bool) (h : P s) : P (s.decRestart forget empty) := by
  unfold State.decRestart
  exact c.modDec _ (c.decReset h)

/-! ## The other engines (R65, R308) -/

theorem dropPut (x : EncSess) (idx : Nat) (h : P s) : P (s.dropPut x idx) := by
  unfold State.dropPut
  split
  · exact h
  · exact c.modEnc _ h

theorem abortEnc (ring idx : Nat) (h : P s) : P (s.abortEnc ring idx) := by
  unfold State.abortEnc
  split
  · exact h
  split
  · exact keptBy_ite (c.modEnc _ h) (c.dropPut _ idx h)
  · exact c.dropPut _ idx h

theorem abortStores (ring idx : Nat) (h : P s) : P ((s.abortSend ring idx).abortStore ring idx) :=
  c.parts rfl (c.parts (t := s.abortSend ring idx) rfl h)

theorem commitBits (h : P s) : P s.commitBits := c.wr _ rfl (c.wr _ rfl h)

theorem dropLatch (ring idx : Nat) (h : P s) : P (s.dropLatch ring idx) := c.commitBits (c.parts rfl h)

/-- An aborted descriptor outside the ADMIN rings is an engine's own matter. -/
theorem abortEffect {cls : Nat} (ring idx : Nat) (h : P s) (ha : cls = Cls.ADMIN → P (s.abortAdmin idx)) :
    P (s.abortEffect cls ring idx) := by
  unfold State.abortEffect
  split
  case isTrue hc => exact ha hc
  case isFalse =>
    exact keptBy_ite (c.abortFeed ring idx h) (keptBy_ite (c.abortEnc ring idx h) (keptBy_ite (c.abortBlt ring idx h)
      (keptBy_ite (c.abortStores ring idx h) (c.dropLatch ring idx h))))

end EngineClosed

end Sys2Proof.Machine
end

section
/-!
PROOFS. HIF_ABORT and the abort point (R64, R66, R67).
-/
namespace Sys2Proof.Machine

/-! ## HIF_ABORT begins (R67) -/

/-- RING_ID and ALL as written. -/
def State.askAbort (s : State) (ring : Nat) (all : Bool) : State := (s.wr F.HIF_ABORT_RING_ID ring).wrB F.HIF_ABORT_ALL all

/-- The rings that an emergency abort is to abort. -/
def State.abortTargets (s : State) (ring : Nat) (all : Bool) : List Nat := (s.hif.rings.map Ring.num).filter fun n => all || n == ring

theorem State.askAbort_word (s : State) (ring : Nat) (all : Bool) {o : Nat} (h : o ≠ 0x10050) : (s.askAbort ring all).word o = s.word o :=
  (State.word_wr_ne _ _ _ h).trans (State.word_wr_ne _ _ _ h)

theorem exec_hifAbort {ring : Nat} {all : Bool} {s : State} (ho : s.bar0Open = true) (hr : ring < 64) :
    exec (.hifAbort ring all) s = .next (if s.rd F.HIF_ABORT_STATUS_BUSY = 1 then s.askAbort ring all
      else if s.abortTargets ring all = [] then (s.askAbort ring all).hifAbortEnd 0
      else ((s.askAbort ring all).wrB F.HIF_ABORT_STATUS_BUSY true).beginAbort ⟨ring, s.abortTargets ring all, none, false, 0⟩) := by
  have hmod : ring % 64 = ring := Nat.mod_eq_of_lt hr
  have hbusy : (s.askAbort ring all).rdB F.HIF_ABORT_STATUS_BUSY = true ↔ s.rd F.HIF_ABORT_STATUS_BUSY = 1 := by
    rw [State.rdB_eq_true_iff, State.rd_of_word (s.askAbort_word ring all (by decide))]
  refine (exec_pos rfl ho).trans ?_
  simp only [State.startHifAbort, hmod, ← hbusy, List.isEmpty_iff]
  rfl

/-- An emergency abort that ends shows DONE and its count. -/
theorem State.hifAbortEnd_shows (s : State) (count : Nat) (h : s.hasEvents = true) :
    (s.hifAbortEnd count).rd F.HIF_ABORT_STATUS_DONE = 1 ∧ (s.hifAbortEnd count).rd F.HIF_ABORT_STATUS_BUSY = 0 ∧
      (s.hifAbortEnd count).rd F.HIF_ABORT_STATUS_COUNT = count % 2 ^ 24 ∧ Raised Ev.HIF_ABORT_DONE (s.hifAbortEnd count) ∧
      (s.hifAbortEnd count).hif.aborts = s.hif.aborts ∧ WordsKept [0x10054] s (s.hifAbortEnd count) := by
  unfold State.hifAbortEnd
  refine ⟨?_, ?_, ?_, State.raised _ rfl h, ?_, ?_⟩
  case refine_4 => rw [(State.raise_events _ _).hif]; rfl
  case refine_5 =>
    intro o ho he
    have hne : o ≠ 0x10054 := by simpa using ho
    rw [State.raise_word _ _ he, State.word_wr_ne _ _ _ hne]
    exact (State.word_wr_ne _ _ _ hne).trans (State.word_wr_ne _ _ _ hne)
  all_goals
    rw [State.raise_rd _ _ (by decide)]
    simp (disch := decide) only [State.wrB, State.rd_wr_same, State.rd_wr_ne]
    rfl

theorem hifAbort_none {ring : Nat} {all : Bool} {s : State} (ho : s.bar0Open = true) (hb : s.rd F.HIF_ABORT_STATUS_BUSY = 0)
    (hr : ring < 64) (ht : s.abortTargets ring all = []) :
    Gives (.hifAbort ring all) s fun t => t.rd F.HIF_ABORT_STATUS_DONE = 1 ∧ t.rd F.HIF_ABORT_STATUS_BUSY = 0 ∧
      t.rd F.HIF_ABORT_STATUS_COUNT = 0 ∧ t.rd F.HIF_ABORT_RING_ID = ring ∧ Raised Ev.HIF_ABORT_DONE t ∧ t.hif.aborts = s.hif.aborts ∧
      WordsKept [0x10050, 0x10054] s t := by
  have he : (s.askAbort ring all).hasEvents = true := State.hasEvents_of_awake (s := s) (State.bar0Open_awake ho)
  obtain ⟨hdone, hbusy, hcount, hraised, haborts, hwords⟩ := (s.askAbort ring all).hifAbortEnd_shows 0 he
  have hid : ((s.askAbort ring all).hifAbortEnd 0).rd F.HIF_ABORT_RING_ID = ring := by
    rw [State.rd_of_word (hwords 0x10050 (by decide) (by decide)), State.askAbort]
    simp (disch := decide) only [State.wrB, State.rd_wr_same, State.rd_wr_ne]
    exact Nat.mod_eq_of_lt hr
  refine ⟨_, ?_, hdone, hbusy, hcount, hid, hraised, haborts, fun o ho' he' => ?_⟩
  · rw [exec_hifAbort ho hr, if_neg (by omega), if_pos ht]
  · simp only [List.mem_cons, List.not_mem_nil, or_false, not_or] at ho'
    exact (hwords o (by simpa using ho'.2) he').trans (s.askAbort_word ring all ho'.1)

theorem hifAbort_begins {ring : Nat} {all : Bool} {s : State} (ho : s.bar0Open = true) (hb : s.rd F.HIF_ABORT_STATUS_BUSY = 0)
    (hr : ring < 64) (ht : s.abortTargets ring all ≠ []) :
    Gives (.hifAbort ring all) s fun t => t.rd F.HIF_ABORT_STATUS_BUSY = 1 ∧
      t.hif = { s.hif with aborts := s.hif.aborts ++ [⟨ring, s.abortTargets ring all, none, false, 0⟩] } ∧
      t = { s with regs := t.regs, hif := t.hif } ∧ ∀ o, o ∉ [0x10050, 0x10054] → t.word o = s.word o := by
  refine ⟨_, (exec_hifAbort ho hr).trans (congrArg _ ((if_neg (by omega)).trans (if_neg ht))), ?_, rfl, rfl, fun o ho' => ?_⟩
  · change ((s.askAbort ring all).wrB F.HIF_ABORT_STATUS_BUSY true).rd _ = 1
    rw [State.wrB, State.rd_wr_same _ _ _ (by decide)]
    rfl
  · simp only [List.mem_cons, List.not_mem_nil, or_false, not_or] at ho'
    exact (State.word_wr_ne _ _ _ ho'.2).trans (s.askAbort_word ring all ho'.1)

theorem hifAbort_busy (n : Nat) (all : Bool) (s : State) (ho : s.bar0Open = true) (hb : s.rd F.HIF_ABORT_STATUS_BUSY = 1) :
    Gives (.hifAbort n all) s fun t => t.hif = s.hif ∧ ∀ o, o ≠ 0x10050 → t.word o = s.word o := by
  refine ⟨s.askAbort n all, ?_, rfl, fun o ho' => s.askAbort_word n all ho'⟩
  have hbusy : (s.askAbort n all).rdB F.HIF_ABORT_STATUS_BUSY = true := by
    rw [State.rdB_eq_true_iff, State.rd_of_word (s.askAbort_word n all (by decide)), hb]
  exact (exec_pos rfl ho).trans (congrArg _ (if_pos hbusy))

/-! ## What aborted descriptors leave of aborts and power (R64) -/

/-- No abort but `a` is in progress, and the power state is `st`. -/
def AbortsOf (a : AbortOp) (st : PwrState) (t : State) : Prop := (∀ x ∈ t.hif.aborts, x = a) ∧ t.pwr.st = st

theorem abortsOf_closed (a : AbortOp) (st : PwrState) : EngineClosed (AbortsOf a st) where
  modMem _ h := h
  parts hp h := by
    rw [hp]
    exact h
  wr _ _ h := h
  raise e h := by
    unfold AbortsOf
    rw [(State.raise_events _ e).hif, State.raise_pwr]
    exact h

theorem AbortsOf.abortAdmin {a : AbortOp} {st : PwrState} {s : State} (h : AbortsOf a st s) (idx : Nat) :
    AbortsOf a st (s.abortAdmin idx) := by
  have hf : ∀ x ∈ s.hif.aborts.filter (fun x => x.admin != some idx), x = a := fun x hx => h.1 x (List.mem_of_mem_filter hx)
  unfold State.abortAdmin
  exact keptBy_ite ⟨hf, h.2⟩ ⟨hf, h.2⟩

theorem AbortsOf.abortDescs {a : AbortOp} {st : PwrState} {s : State} (h : AbortsOf a st s) (cls ring : Nat) (ds : List Desc) :
    AbortsOf a st (s.abortDescs cls ring ds) := by
  refine keptBy_foldl ds h fun s d h => ?_
  have hhalt : AbortsOf a st (if cls = Cls.BLT then s.bltHalt ring d.idx else s) :=
    keptBy_ite ((abortsOf_closed a st).bltHalt _ _ h) h
  exact (abortsOf_closed a st).abortEffect ring d.idx hhalt fun _ => hhalt.abortAdmin d.idx

/-! ## The abort point (R64) -/

/-- The doorbell read at the abort point holds the PI already accepted: the ring then shows only a fresh CQ index. -/
theorem State.samplePi_accepted {n pi ci : Nat} {r : Ring} {s : State} (hr : s.ring? n = some r)
    (hv : (if r.dbLine = 0 then s.rd (F.HIF_DB_SQ_INDEX n) else pi) = r.pi) (hw : r.pi < 2 ^ s.idxW) (hf : r.fault = false)
    (hl : piLegal s.idxW (2 ^ r.log2) r.pi r.ci = true) :
    ∃ q, (s.samplePi n pi ci).ring? n = some { r with cqCi := q } ∧ (s.samplePi n pi ci).idxW = s.idxW ∧
      (s.samplePi n pi ci).hif.aborts = s.hif.aborts ∧ (s.samplePi n pi ci).pwr = s.pwr := by
  have hnum := State.ring?_num hr
  have hpi : (s.doorbell r pi ci).1 = r.pi := by
    rw [← hv, State.doorbell, hnum]
    split <;> rfl
  have hmod : r.pi % 2 ^ s.idxW = r.pi := Nat.mod_eq_of_lt hw
  set q := (s.doorbell r pi ci).2 % 2 ^ s.idxW
  have hacc : ∀ u : State, u.ring? n = some r → u.idxW = s.idxW →
      u.acceptPi n (s.doorbell r pi ci).1 (s.doorbell r pi ci).2 = u.setRing { r with cqCi := q } := by
    intro u hu hi
    rw [hpi, State.acceptPi_legal hu hf (by rw [hi, hmod]; exact hl), hi, hmod]
  have hsample : s.samplePi n pi ci = (if r.dbLine = 0 then s else s.emit (.lineRead r.dbLine)).setRing { r with cqCi := q } := by
    simp only [State.samplePi, hr]
    split <;> exact hacc _ hr rfl
  rw [hsample]
  split <;> exact ⟨q, State.ring?_setRing hr hnum, rfl, rfl, rfl⟩

/-- The abort of a ring that has fetched every descriptor below its PI: those that have not reached their retire point end. -/
theorem State.abortRing_fetched {n : Nat} {r : Ring} {s : State} (hr : s.ring? n = some r) (hp : serialLater s.idxW r.pi r.fetch = false)
    (ha : serialLater s.idxW r.abortTo r.fetch = false) :
    s.abortRing n true = (s.abortDescs r.cls n (r.live.filter fun d => serialLater s.idxW r.pi d.idx),
      (r.live.filter fun d => serialLater s.idxW r.pi d.idx).length) := by
  simp [State.abortRing, hr, hp, ha]

/-- How an abort ends that deletes no ring: the ADMIN descriptor that drives it completes, or HIF_ABORT ends. -/
def State.abortDone (s : State) (admin : Option Nat) (count : Nat) : State := match admin with
  | some idx => s.complete 0 idx Cpl.SUCCESS count
  | none => s.hifAbortEnd count

theorem State.endAbort_done (s : State) {a : AbortOp} (h : a.delete = false) : s.endAbort a =
    ({ s with hif := { s.hif with aborts := s.hif.aborts.filter fun x => x != a } } : State).abortDone a.admin a.count := by
  unfold State.endAbort
  rw [if_neg (by simp [h])]
  rfl

/-- An abort whose last target has given its count. -/
def AbortOp.sampled (a : AbortOp) (n : Nat) : AbortOp := { a with targets := [], count := a.count + n }

theorem State.abortPoint_sampled {s u : State} {n pi ci k : Nat} {a : AbortOp}
    (hfind : (s.hif.aborts.find? fun a => a.targets.contains n) = some a) (hleft : (a.targets.filter fun x => x != n) = [])
    (hd : a.delete = false) (hab : (s.samplePi n pi ci).abortRing n true = (u, k)) :
    s.abortPoint n pi ci = ({ u with hif := { u.hif with
      aborts := (u.hif.aborts.map fun x => if x = a then a.sampled k else x).filter fun x => x != a.sampled k } } : State).abortDone a.admin (a.count + k) := by
  have hnot : (!a.delete) = true := by rw [hd]; rfl
  simp only [State.abortPoint, hfind]
  rw [hnot, hab, hleft]
  exact (if_pos rfl).trans (State.endAbort_done _ hd)

/-- At the abort point of its last target an abort that deletes nothing ends. -/
theorem State.abortPoint_last {n pi ci : Nat} {r : Ring} {a : AbortOp} {s : State} (hr : s.ring? n = some r) (ha : s.hif.aborts = [a])
    (ht : a.targets = [n]) (hd : a.delete = false) (hv : (if r.dbLine = 0 then s.rd (F.HIF_DB_SQ_INDEX n) else pi) = r.pi)
    (hw : r.pi < 2 ^ s.idxW) (hf : r.fault = false) (hfetch : serialLater s.idxW r.pi r.fetch = false)
    (hto : serialLater s.idxW r.abortTo r.fetch = false) (hl : piLegal s.idxW (2 ^ r.log2) r.pi r.ci = true) :
    ∃ u : State, u.hif.aborts = [] ∧ u.pwr.st = s.pwr.st ∧
      s.abortPoint n pi ci = u.abortDone a.admin
        (a.count + (r.descs.filter fun d => d.phase != .done && serialLater s.idxW r.pi d.idx).length) := by
  obtain ⟨q, hring, hidx, haborts, hpwr⟩ := State.samplePi_accepted (ci := ci) hr hv hw hf hl
  set v := s.samplePi n pi ci
  have hab := State.abortRing_fetched hring (by rw [hidx]; exact hfetch) (by rw [hidx]; exact hto)
  set ds := (({ r with cqCi := q } : Ring).live.filter fun d => serialLater v.idxW r.pi d.idx) with hds
  have hlen : ds.length = (r.descs.filter fun d => d.phase != .done && serialLater s.idxW r.pi d.idx).length := by
    rw [hds, hidx, Ring.live, List.filter_filter]
    simp only [Bool.and_comm]
  have hkept : AbortsOf a s.pwr.st (v.abortDescs r.cls n ds) := by
    refine AbortsOf.abortDescs ⟨fun x hx => ?_, congrArg PwrSt.st hpwr⟩ _ _ _
    rw [haborts, ha] at hx
    exact List.mem_singleton.1 hx
  set w := v.abortDescs r.cls n ds
  have hnone : (w.hif.aborts.map fun x => if x = a then a.sampled ds.length else x).filter (fun x => x != a.sampled ds.length) = [] := by
    rw [List.filter_eq_nil_iff]
    intro x hx
    obtain ⟨y, hy, rfl⟩ := List.mem_map.1 hx
    rw [if_pos (hkept.1 y hy)]
    simp
  refine ⟨{ w with hif := { w.hif with aborts := [] } }, rfl, hkept.2, ?_⟩
  rw [State.abortPoint_sampled (by simp [ha, ht]) (by simp [ht]) hd hab, hnone, ← hlen]

theorem abortPoint_ends (n pi ci : Nat) (r : Ring) (a : AbortOp) (s : State) (hawake : s.awake = true)
    (hbusy : s.rd F.HIF_STATUS_RESET_BUSY = 0) (hr : s.ring? n = some r) (ha : s.hif.aborts = [a]) (ht : a.targets = [n])
    (hd : a.delete = false) (hv : (if r.dbLine = 0 then s.rd (F.HIF_DB_SQ_INDEX n) else pi) = r.pi) (hw : r.pi < 2 ^ s.idxW)
    (hf : r.fault = false) (hfetch : serialLater s.idxW r.pi r.fetch = false) (hto : serialLater s.idxW r.abortTo r.fetch = false)
    (hl : piLegal s.idxW (2 ^ r.log2) r.pi r.ci = true) :
    let count := a.count + (r.descs.filter fun d => d.phase != .done && serialLater s.idxW r.pi d.idx).length
    (a.admin = none → Gives (.abortPoint n pi ci) s fun t => t.rd F.HIF_ABORT_STATUS_DONE = 1 ∧ t.rd F.HIF_ABORT_STATUS_BUSY = 0 ∧
      t.rd F.HIF_ABORT_STATUS_COUNT = count % 2 ^ 24 ∧ Raised Ev.HIF_ABORT_DONE t ∧ t.hif.aborts = []) ∧
    (∀ idx, a.admin = some idx → Gives (.abortPoint n pi ci) s fun t => t.hif.aborts = [] ∧
      ∀ r₀ ∈ t.hif.rings, r₀.num = 0 → ∀ d ∈ r₀.descs, d.idx = idx → d.phase = .done ∧ d.status = Cpl.SUCCESS ∧ d.info = count) := by
  obtain ⟨u, hnone, hst, he⟩ := State.abortPoint_last (ci := ci) hr ha ht hd hv hw hf hfetch hto hl
  have hexec : exec (.abortPoint n pi ci) s = .next (s.abortPoint n pi ci) :=
    exec_pos rfl (by simp [hawake, State.rdB_eq_false hbusy])
  have hev : u.hasEvents = true := by
    refine State.hasEvents_of_awake ?_
    rw [State.awake, hst]
    exact hawake
  refine ⟨fun hadmin => ?_, fun idx hadmin => ?_⟩
  · obtain ⟨hdone, hb, hcount, hraised, haborts, -⟩ := u.hifAbortEnd_shows _ hev
    rw [hadmin] at he
    exact ⟨_, hexec.trans (congrArg _ he), hdone, hb, hcount, hraised, haborts.trans hnone⟩
  · rw [hadmin] at he
    refine ⟨_, hexec.trans (congrArg _ he), hnone, fun r₀ hr₀ hn d hd' hi => ?_⟩
    obtain ⟨x, -, rfl⟩ := List.mem_map.1 hr₀
    have hx : x.num = 0 := by
      split at hn <;> exact hn
    rw [if_pos hx] at hd'
    obtain ⟨y, -, rfl⟩ := List.mem_map.1 hd'
    have hy : y.idx = idx := by
      split at hi <;> exact hi
    rw [if_pos hy]
    exact ⟨rfl, rfl, rfl⟩

/-- Settles O20: HIF_ABORT by its three cases, and the abort point by the abort that ends there. -/
theorem emergencyAborts : Obligations.EmergencyAborts := by
  unfold Obligations.EmergencyAborts
  exact ⟨fun ring all s ho hb hr => ⟨fun ht => hifAbort_none ho hb hr ht, fun ht => hifAbort_begins ho hb hr ht⟩, hifAbort_busy,
    abortPoint_ends⟩

end Sys2Proof.Machine
end

section
/-!
PROOFS. Function reset, hot reset and the restart of the management core (R68, R175, R395, R463, Table 2-13, Table 19-4).
-/
namespace Sys2Proof.Machine

/-! ## While a function reset is in progress (R395) -/

theorem State.errLog_regs (s : State) (src : Nat) : (s.errLog src).regs = s.regs ∧ (s.errLog src).evt = s.evt ∧
    (s.errLog src).hif = s.hif := by
  unfold State.errLog
  dsimp only
  split
  · exact ⟨rfl, rfl, rfl⟩
  split <;> exact ⟨rfl, rfl, rfl⟩

/-- An occurrence then sets its status bit and does nothing more. -/
theorem State.raise_busy {s : State} (h : s.rd F.HIF_STATUS_RESET_BUSY = 1) (e : Nat) :
    s.raise e = s ∨ (e < 512 ∧ s.raise e = s.evtStatus e) := by
  unfold State.raise
  split
  · rename_i hu
    have hlt := evtInUse_lt (Bool.and_eq_true_iff.1 hu).1
    have hbusy : (s.evtStatus e).rdB F.HIF_STATUS_RESET_BUSY = true := by
      rw [State.rdB_eq_true_iff, (s.evtStatus_events hlt).rd (by decide), h]
    refine .inr ⟨hlt, if_neg ?_⟩
    simp [State.evtLive, hbusy]
  · exact .inl rfl

/-- The registers below the engines that stay as they are while work is dropped: all but the event status words, and HIF_ABORT_STATUS. -/
def quietReg (off : Nat) : Bool := decide (off < 0x30000) && !(decide (0x20000 ≤ off) && decide (off < 0x20040)) && off != 0x10054

/-- A function reset is in progress, and from `r` on only status bits have come to the event side. -/
structure Quiet (r t : State) : Prop where
  busy : t.rd F.HIF_STATUS_RESET_BUSY = 1
  evt : t.evt = r.evt
  msix : t.hif.msix = r.hif.msix ∧ t.hif.msixPend = r.hif.msixPend
  words : ∀ o, quietReg o = true → t.word o = r.word o

theorem Quiet.refl {r : State} (h : r.rd F.HIF_STATUS_RESET_BUSY = 1) : Quiet r r := ⟨h, rfl, ⟨rfl, rfl⟩, fun _ _ => rfl⟩

/-- A register outside the kept ones is written. -/
theorem Quiet.wr {r s : State} (h : Quiet r s) {f : Fld} (v : Nat) (hf : quietReg f.off = false) : Quiet r (s.wr f v) := by
  have hne : ∀ o, quietReg o = true → o ≠ f.off := by
    rintro o ho rfl
    rw [hf] at ho
    cases ho
  exact ⟨(State.rd_of_word (s.word_wr_ne f v (hne _ rfl))).trans h.busy, h.evt, h.msix,
    fun o ho => (s.word_wr_ne f v (hne o ho)).trans (h.words o ho)⟩

theorem quietReg_engine {off : Nat} (h : engineReg off = true) : quietReg off = false := by
  have hge : 0x40000 ≤ off := of_decide_eq_true h
  simp only [quietReg, decide_eq_false (show ¬off < 0x30000 by omega), Bool.false_and]

theorem quietReg_status {e : Nat} (h : e < 512) : quietReg (evtStatusFld e).off = false := by
  have hlo : 0x20000 ≤ (evtStatusFld e).off := Nat.le_add_right _ _
  have hhi : (evtStatusFld e).off < 0x20040 := by
    simp only [evtStatusFld]
    omega
  simp only [quietReg, decide_eq_true hlo, decide_eq_true hhi, Bool.and_self, Bool.not_true, Bool.and_false, Bool.false_and]

theorem Quiet.evtStatus {r s : State} (h : Quiet r s) {e : Nat} (he : e < 512) : Quiet r (s.evtStatus e) := by
  have hw := h.wr 1 (quietReg_status he)
  obtain ⟨hregs, hevt, hhif⟩ := (s.wr (evtStatusFld e) 1).errLog_regs e
  have hword : ∀ o, (s.evtStatus e).word o = (s.wr (evtStatusFld e) 1).word o := fun o => by
    unfold State.word
    exact congrArg (fun l => cellGet resetWord l o) hregs
  exact ⟨(State.rd_of_word (hword _)).trans hw.busy, hevt.trans hw.evt, ⟨by rw [State.evtStatus, hhif]; exact hw.msix.1,
    by rw [State.evtStatus, hhif]; exact hw.msix.2⟩, fun o ho => (hword o).trans (hw.words o ho)⟩

theorem quiet_closed (r : State) : EngineClosed (Quiet r) where
  modMem _ h := ⟨h.busy, h.evt, h.msix, h.words⟩
  parts hp h := by
    rw [hp]
    exact ⟨h.busy, h.evt, h.msix, h.words⟩
  wr v hf h := h.wr v (quietReg_engine hf)
  raise e h := by
    rcases State.raise_busy h.busy e with he | ⟨hlt, he⟩
    · rwa [he]
    · rw [he]
      exact h.evtStatus hlt

theorem Quiet.abortAdmin {r s : State} (h : Quiet r s) (idx : Nat) : Quiet r (s.abortAdmin idx) := by
  have hf : Quiet r { s with hif := { s.hif with aborts := s.hif.aborts.filter fun a => a.admin != some idx } } :=
    ⟨h.busy, h.evt, h.msix, h.words⟩
  unfold State.abortAdmin
  refine keptBy_ite (Quiet.wr ?_ _ rfl) hf
  exact ⟨h.busy, h.evt, h.msix, h.words⟩

theorem Quiet.dropDescs {r s : State} (h : Quiet r s) (ring : Ring) : Quiet r (s.dropDescs ring) :=
  keptBy_ite h (keptBy_foldl _ h fun _ d h => (quiet_closed r).abortEffect ring.num d.idx h fun _ => h.abortAdmin d.idx)

theorem Quiet.dropRings {r s : State} (h : Quiet r s) : Quiet r s.dropRings := by
  have hd := keptBy_foldl s.hif.rings h fun _ ring h => h.dropDescs ring
  unfold State.dropRings
  exact keptBy_ite (((hd.wr _ rfl).wr _ rfl).wr _ rfl) hd

/-! ## What a function reset clears (R68, Table 2-13) -/

/-- The event side after its clear: nothing is pending, and its registers are as at reset. -/
theorem State.clearEvents_cleared (s : State) : s.clearEvents.evt.srcs = [] ∧ s.clearEvents.evt.ringBase = 0 ∧
    s.clearEvents.hif.msix = [] ∧ s.clearEvents.hif.msixPend = [] ∧ s.clearEvents.rd F.EVT_RING_STATUS_ACTIVE = 0 ∧
    (∀ o, (0x20000 ≤ o ∧ o < 0x20080) ∨ (0x21000 ≤ o ∧ o < 0x21800) → s.clearEvents.word o = resetWord o) ∧
    (∀ o, o < 0x20000 → s.clearEvents.word o = s.word o) := by
  have hword : ∀ o, o ≠ 0x20090 → o ≠ 0x20094 →
      s.clearEvents.word o = ((s.clearRegs 0x20000 0x20080).clearRegs 0x21000 0x21800).word o := fun o h0 h4 =>
    (State.word_wr_ne _ F.EVT_RING_CI_INDEX _ h4).trans (State.word_wr_ne _ F.EVT_RING_STATUS_ACTIVE _ h0)
  refine ⟨rfl, rfl, rfl, rfl, ?_, fun o ho => ?_, fun o ho => ?_⟩
  · change ((State.wrB ((s.clearRegs 0x20000 0x20080).clearRegs 0x21000 0x21800) F.EVT_RING_STATUS_ACTIVE false).wr
      F.EVT_RING_CI_INDEX 0).rd F.EVT_RING_STATUS_ACTIVE = 0
    simp (disch := decide) only [State.wrB, State.rd_wr_same, State.rd_wr_ne]
    rfl
  · rw [hword o (by omega) (by omega), State.word_clearRegs, State.word_clearRegs]
    split
    · rfl
    · exact if_pos (by omega)
  · rw [hword o (by omega) (by omega), State.word_clearRegs, State.word_clearRegs, if_neg (by omega), if_neg (by omega)]

/-- HIF registers after their clear. -/
theorem State.clearHifRegs_cleared (s : State) : s.clearHifRegs.rd F.HIF_CTRL_ENABLE = 0 ∧ s.clearHifRegs.rd F.HIF_CTRL_FEATURES_OK = 0 ∧
    s.clearHifRegs.rd F.HIF_STATUS_RUNNING = 0 ∧ s.clearHifRegs.rd F.HIF_STATUS_RESET_BUSY = s.rd F.HIF_STATUS_RESET_BUSY ∧
    (∀ o, (0x10020 ≤ o ∧ o < 0x1004C) ∨ (0x11000 ≤ o ∧ o < 0x11200) → s.clearHifRegs.word o = resetWord o) ∧
    (∀ o, 0x20000 ≤ o → s.clearHifRegs.word o = s.word o) := by
  have hrd : ∀ {f : Fld}, f.off < 0x10020 → s.clearHifRegs.rd f = ((((s.wrB F.HIF_CTRL_ENABLE false).wrB F.HIF_CTRL_FEATURES_OK
      false).wrB F.HIF_STATUS_RUNNING false).wr F.HIF_STATUS_RING_VER 0).rd f := fun hf => by
    refine State.rd_of_word ?_
    rw [State.clearHifRegs, State.word_clearRegs, State.word_clearRegs, State.word_clearRegs, if_neg (by omega), if_neg (by omega),
      if_neg (by omega)]
  refine ⟨?_, ?_, ?_, ?_, fun o ho => ?_, fun o ho => ?_⟩
  case refine_5 =>
    rw [State.clearHifRegs, State.word_clearRegs, State.word_clearRegs, State.word_clearRegs]
    split
    · rfl
    split
    · rfl
    · exact if_pos (by omega)
  case refine_6 =>
    rw [State.clearHifRegs, State.word_clearRegs, State.word_clearRegs, State.word_clearRegs, if_neg (by omega), if_neg (by omega),
      if_neg (by omega)]
    simp only [State.wrB]
    rw [State.word_wr_ne, State.word_wr_ne, State.word_wr_ne, State.word_wr_ne]
    all_goals
      simp only [F.HIF_CTRL_ENABLE, F.HIF_CTRL_FEATURES_OK, F.HIF_STATUS_RUNNING, F.HIF_STATUS_RING_VER]
      omega
  all_goals
    rw [hrd (by decide)]
    simp (disch := decide) only [State.wrB, State.rd_wr_same, State.rd_wr_ne]
  all_goals rfl

/-- The display side without presents, commits and access units, its registers still to follow. -/
def State.blank (s : State) : State :=
  { s with
    scn := { s.scn with presents := [], shown := none, auScan := none, auNext := none, frzFirst := true }
    syn := { s.syn with full := true, au := none }
    cmp := { s.cmp with transit := none, pend := [] } }

/-- The display side after its clear; below the compositor's registers nothing is written. -/
theorem State.clearShow_cleared (s : State) : s.clearShow.scn.presents = [] ∧ s.clearShow.scn.shown = none ∧ s.clearShow.cmp.transit = none ∧
    s.clearShow.cmp.pend = [] ∧ s.clearShow.syn.au = none ∧ s.clearShow.syn.full = true ∧ s.clearShow.rd F.CMP_RETIRE_CFG_EN = 0 ∧
    s.clearShow.hif = s.hif ∧ s.clearShow.evt = s.evt ∧ ∀ o, o < 0xC0000 → s.clearShow.word o = s.word o := by
  have hs : s.clearShow = s.blank.commitBits.wrB F.CMP_RETIRE_CFG_EN false := rfl
  have hne : ∀ {o : Nat} {f : Fld}, o < 0xC0000 → 0xC0000 ≤ f.off → o ≠ f.off := fun ho hf => by omega
  rw [hs]
  refine ⟨rfl, rfl, rfl, rfl, rfl, rfl, ?_, rfl, rfl, fun o ho => ?_⟩
  · rw [State.wrB, State.rd_wr_same _ _ _ (by decide)]
    rfl
  · rw [State.wrB, State.word_wr_ne _ _ _ (hne ho (by decide)), State.commitBits, State.wrB, State.word_wr_ne _ _ _ (hne ho (by decide)),
      State.wrB, State.word_wr_ne _ _ _ (hne ho (by decide))]
    rfl

/-- With no ring there is nothing to drop but a running HIF_ABORT. -/
theorem State.dropRings_none {s : State} (h : s.hif.rings = []) : s.dropRings.dec = s.dec ∧ ∀ o, o ≠ 0x10054 → s.dropRings.word o = s.word o := by
  unfold State.dropRings
  rw [h]
  dsimp only [List.foldl_nil]
  split
  · exact ⟨rfl, fun o ho => (State.word_wr_ne _ _ _ ho).trans ((State.word_wr_ne _ _ _ ho).trans (State.word_wr_ne _ _ _ ho))⟩
  · exact ⟨rfl, fun _ _ => rfl⟩

/-- With no picture and no access unit in parse the decoder restarts without an event. -/
theorem State.decRestart_idle {s : State} (hp : s.dec.pics = []) (hc : s.dec.cur = none) (forget empty : Bool) (o : Nat) :
    (s.decRestart forget empty).word o = s.word o := by
  have hrepair : s.cancelRepair.dec.pics = [] ∧ s.cancelRepair.dec.cur = none ∧ s.cancelRepair.regs = s.regs := by
    unfold State.cancelRepair
    split
    · exact ⟨hp, hc, rfl⟩
    · exact ⟨by simp [State.modDec, hp], hc, rfl⟩
  obtain ⟨hpics, hcur, hregs⟩ := hrepair
  have hend : s.cancelRepair.endAu = s.cancelRepair := by simp only [State.endAu, hcur]
  have hnone : s.cancelRepair.dec.decPics = [] := by simp [DecSt.decPics, hpics]
  have hpass : ∀ n, s.cancelRepair.passPics n = s.cancelRepair := fun n => by simp [State.passPics, hnone]
  have hlost : s.cancelRepair.concealLost = s.cancelRepair := by simp [State.concealLost, hnone]
  have hmod : ∀ (s : State) f, (s.modDec f).word o = s.word o := fun _ _ => rfl
  unfold State.decRestart State.decReset State.takeDecSettings
  simp only [hend, hpass, hlost, hmod]
  unfold State.word
  rw [hregs]

theorem State.clearRings_rest (s : State) : s.clearRings.hif = { s.hif with rings := [], aborts := [], feats := 0 } ∧
    s.clearRings.evt = s.evt ∧ ∀ o, s.clearRings.word o = s.word o := ⟨rfl, rfl, fun _ => rfl⟩

theorem State.clearHifRegs_rest (s : State) : s.clearHifRegs.hif = s.hif ∧ s.clearHifRegs.evt = s.evt := by
  dsimp only [State.clearHifRegs, State.clearRegs, State.wrB, State.wr, State.setWord]
  exact ⟨rfl, rfl⟩

/-- The event status words are 0 at reset. -/
theorem resetWord_status {o : Nat} (h : 0x20000 ≤ o ∧ o < 0x20040) : resetWord o = 0 := by
  have hall : ∀ i < 64, resetWord (0x20000 + i) = 0 := by decide
  have := hall (o - 0x20000) (by omega)
  rwa [Nat.add_sub_cancel' h.1] at this

/-- What holds after the steps of the clear: the event side, the work in rings and decoder, the rings themselves, the display side. -/
theorem functionClear_steps {s u v w : State} (hu : u = (s.wrB F.HIF_STATUS_RESET_BUSY true).clearEvents)
    (hv : v = u.dropRings.decRestart true true) (hw : w = v.clearRings.clearHifRegs) :
    HostCleared s w.clearShow ∧ w.clearShow.rd F.HIF_STATUS_RESET_BUSY = 1 := by
  obtain ⟨hsrcs, hbase, hmsix, hpend, hact, hregs, hlow⟩ := (s.wrB F.HIF_STATUS_RESET_BUSY true).clearEvents_cleared
  rw [← hu] at hsrcs hbase hmsix hpend hact hregs hlow
  obtain ⟨hen, hok, hrun, hbusy, hhregs, hhigh⟩ := v.clearRings.clearHifRegs_cleared
  obtain ⟨hwhif, hwevt⟩ := v.clearRings.clearHifRegs_rest
  obtain ⟨hvhif, hvevt, hvword⟩ := v.clearRings_rest
  rw [← hw] at hen hok hrun hbusy hhregs hhigh hwhif hwevt
  obtain ⟨hpres, hshown, htrans, hcpend, hau, hfull, hret, hhif, hevt, hbelow⟩ := w.clearShow_cleared
  have hubusy : u.rd F.HIF_STATUS_RESET_BUSY = 1 := by
    rw [State.rd_of_word (hlow _ (by decide)), State.wrB, State.rd_wr_same _ _ _ (by decide)]
    rfl
  have hq : Quiet u v := hv ▸ (quiet_closed u).decRestart true true (Quiet.refl hubusy).dropRings
  have hrd : ∀ {f : Fld}, f.off < 0xC0000 → w.clearShow.rd f = w.rd f := fun hf => State.rd_of_word (hbelow _ hf)
  have hwv : ∀ o, 0x20000 ≤ o → o < 0xC0000 → w.clearShow.word o = v.word o := fun o h0 h1 =>
    ((hbelow o h1).trans (hhigh o h0)).trans (hvword o)
  rw [hwhif, hvhif] at hhif
  rw [hwevt, hvevt, hq.evt] at hevt
  have hevent : ∀ o, (0x20040 ≤ o ∧ o < 0x20080) ∨ (0x21000 ≤ o ∧ o < 0x21800) → w.clearShow.word o = resetWord o := fun o ho => by
    have hkept : quietReg o = true := by
      simp [quietReg]
      omega
    rw [hwv o (by omega) (by omega), hq.words o hkept, hregs o (by omega)]
  refine ⟨⟨by rw [hhif], by rw [hhif], by rw [hhif]; exact hq.msix.1.trans hmsix, by rw [hhif]; exact hq.msix.2.trans hpend,
    by rw [hevt]; exact hsrcs, by rw [hevt]; exact hbase, (hrd (by decide)).trans hen, (hrd (by decide)).trans hok,
    (hrd (by decide)).trans hrun, fun o ho => ?_, fun hr hp hc o ho => ?_, ?_, hpres, hshown, htrans, hcpend, hau, hfull, hret⟩, ?_⟩
  · rcases ho with ho | ho | ho | ho
    · exact (hbelow o (by omega)).trans (hhregs o (.inl ho))
    · exact (hbelow o (by omega)).trans (hhregs o (.inr ho))
    · exact hevent o (.inl ho)
    · exact hevent o (.inr ho)
  · obtain ⟨hdec, hword⟩ := State.dropRings_none (s := u) (by rw [hu]; exact hr)
    have hudec : u.dropRings.dec = s.dec := hdec.trans (by rw [hu]; rfl)
    rw [hwv o (by omega) (by omega), hv, State.decRestart_idle (by rw [hudec]; exact hp) (by rw [hudec]; exact hc),
      hword o (by omega), hregs o (by omega), resetWord_status ho]
  · rw [State.rd_of_word (hwv _ (by decide) (by decide)), State.rd_of_word (hq.words _ (by decide)), hact]
  · rw [hrd (by decide), hbusy, State.rd_of_word (hvword _), hq.busy]

/-- What a function reset clears is cleared, and it is in progress. -/
theorem State.functionClear_cleared (s : State) : HostCleared s s.functionClear ∧ s.functionClear.rd F.HIF_STATUS_RESET_BUSY = 1 :=
  functionClear_steps (s := s) rfl rfl rfl

/-- A register written afterwards, apart from what the clear shows. -/
theorem hostCleared_wr {s t : State} (h : HostCleared s t) {f : Fld} (v : Nat) (hw : f.lo + f.len ≤ 32) (ho : f.off < 0x10020)
    (hk : ∀ g ∈ [F.HIF_CTRL_ENABLE, F.HIF_CTRL_FEATURES_OK, F.HIF_STATUS_RUNNING],
      g.off ≠ f.off ∨ g.lo + g.len ≤ f.lo ∨ f.lo + f.len ≤ g.lo) : HostCleared s (t.wr f v) := by
  obtain ⟨hr, ha, hm, hp, hs, hb, hen, hok, hrun, hregs, hst, hact, hrest⟩ := h
  simp only [List.forall_mem_cons] at hk
  obtain ⟨ken, kok, krun, -⟩ := hk
  refine ⟨hr, ha, hm, hp, hs, hb, (t.rd_wr_ne _ _ v hw ken).trans hen, (t.rd_wr_ne _ _ v hw kok).trans hok,
    (t.rd_wr_ne _ _ v hw krun).trans hrun, fun o h => ?_, fun h1 h2 h3 o h => ?_, ?_, ?_⟩
  · exact (t.word_wr_ne f v (by omega)).trans (hregs o h)
  · exact (t.word_wr_ne f v (by omega)).trans (hst h1 h2 h3 o h)
  · exact (State.rd_of_word (t.word_wr_ne f v (by simp only [F.EVT_RING_STATUS_ACTIVE]; omega))).trans hact
  · obtain ⟨h1, h2, h3, h4, h5, h6, h7⟩ := hrest
    exact ⟨h1, h2, h3, h4, h5, h6, (State.rd_of_word (t.word_wr_ne f v (by simp only [F.CMP_RETIRE_CFG_EN]; omega))).trans h7⟩

theorem State.functionReset_cleared {s : State} (h : s.rd F.HIF_STATUS_RESET_BUSY = 0) : HostCleared s s.functionReset ∧
    s.functionReset.rd F.HIF_STATUS_RESET_BUSY = 1 ∧ s.functionReset.rd F.GLB_RESET_CAUSE_FLR = 1 := by
  obtain ⟨hclear, hbusy⟩ := s.functionClear_cleared
  have he : s.functionReset = s.functionClear.wr F.GLB_RESET_CAUSE_FLR 1 := if_neg (by simp [State.rdB_eq_false h])
  rw [he]
  exact ⟨hostCleared_wr hclear 1 (by decide) (by decide) (by decide), (State.rd_wr_ne _ _ _ _ (by decide) (by decide)).trans hbusy,
    State.rd_wr_same _ _ _ (by decide)⟩

/-- The link is down, and what the host set up of CXL is as at reset (Table 19-4). -/
def State.linkReset (s : State) : State :=
  { s with hif := { s.hif with linkUp := false, width := 0, rate := 0, hdm := HdmDecoder.reset, cxl := [] } }

theorem State.rd_linkReset (s : State) (f : Fld) : s.linkReset.rd f = s.rd f := rfl

theorem hostCleared_linkReset {s t : State} (h : HostCleared s t) : HostCleared s t.linkReset := h

/-- A hot reset clears the same, and with it the link, decoder 0 and the CXL registers. -/
theorem State.hotReset_cleared (s : State) : HostCleared s s.hotReset ∧ s.hotReset.hif.linkUp = false ∧
    s.hotReset.hif.hdm = HdmDecoder.reset ∧ s.hotReset.hif.cxl = [] ∧ s.hotReset.rd F.HIF_STATUS_RESET_BUSY = 0 ∧
    s.hotReset.rd F.GLB_RESET_CAUSE_HOT_RESET = 1 := by
  have hc := hostCleared_wr (hostCleared_wr s.functionClear_cleared.1 (f := F.HIF_STATUS_RESET_BUSY) 0 (by decide) (by decide)
    (by decide)) (f := F.GLB_RESET_CAUSE_HOT_RESET) 1 (by decide) (by decide) (by decide)
  have he : s.hotReset = ((s.functionClear.wr F.HIF_STATUS_RESET_BUSY 0).wr F.GLB_RESET_CAUSE_HOT_RESET 1).linkReset := by
    unfold State.hotReset State.linkReset
    rfl
  rw [he, State.rd_linkReset, State.rd_linkReset]
  refine ⟨hostCleared_linkReset hc, rfl, rfl, rfl, ?_, State.rd_wr_same _ _ _ (by decide)⟩
  exact (State.rd_wr_ne _ _ _ _ (by decide) (by decide)).trans (State.rd_wr_same _ _ _ (by decide))

/-! ## The restart of the management core (R463) -/

/-- The power state stays what it is. -/
theorem powerKept_closed (st : PwrState) : EngineClosed fun t => t.pwr.st = st where
  modMem _ h := h
  parts hp h := by
    rw [hp]
    exact h
  wr _ _ h := h
  raise e h := by
    rw [State.raise_pwr]
    exact h

theorem State.internalRing_power {s : State} {st : PwrState} (h : s.pwr.st = st) (r : Ring) : (s.internalRing r).pwr.st = st := by
  refine keptBy_foldl (P := fun t => t.pwr.st = st) r.live h fun s d h => ?_
  have hadmin : (s.abortAdmin d.idx).pwr.st = st := keptBy_ite (P := fun t => t.pwr.st = st) h h
  have hab := (powerKept_closed st).abortEffect (cls := r.cls) r.num d.idx h fun _ => hadmin
  have hev := (((s.abortEffect r.cls r.num d.idx).modDesc r.num d.idx fun x => { x with
    phase := .done, status := Cpl.INTERNAL, info := 0, cflags := 0
    evs := (s.abortEffect r.cls r.num d.idx).heldNow [Ev.HIF_INTERNAL] }).evtStatus_events (src := Ev.HIF_INTERNAL) (by decide)).rest
  exact (congrArg (fun t : State => t.pwr.st) hev).trans hab

theorem State.mgmtRestart_raises {s : State} (h : s.awake = true) : s.mgmtRestart.hif.mgmtDown = true ∧
    s.mgmtRestart.rd F.GLB_RESET_CAUSE_MGMT_RESTART = 1 ∧ Raised Ev.GLB_MGMT_RESTART s.mgmtRestart := by
  have hp := keptBy_foldl (P := fun t => t.pwr.st = s.pwr.st) (s.hif.rings.filter fun r => r.cls == Cls.ADMIN || r.cls == Cls.MGMT) rfl
    fun t r (h : t.pwr.st = s.pwr.st) => t.internalRing_power h r
  set u := (s.hif.rings.filter fun r => r.cls == Cls.ADMIN || r.cls == Cls.MGMT).foldl (fun s r => s.internalRing r) s
  set v := ({ u with hif := { u.hif with mgmtDown := true } } : State).wr F.GLB_RESET_CAUSE_MGMT_RESTART 1
  have he : s.mgmtRestart = v.raise Ev.GLB_MGMT_RESTART := rfl
  have hev : v.hasEvents = true := by
    refine State.hasEvents_of_awake ?_
    change (u.pwr.st == .s0 || u.pwr.st == .s1 || u.pwr.st == .s2) = true
    rw [hp]
    exact h
  rw [he]
  refine ⟨?_, (State.raise_rd _ _ (by decide)).trans (State.rd_wr_same _ _ _ (by decide)), v.raised rfl hev⟩
  rw [(v.raise_events _).hif]
  rfl

/-- Settles O14: the three resets through `functionClear`, and the restart of the management core. -/
theorem resetsClearTheHostSide : Obligations.ResetsClearTheHostSide := by
  unfold Obligations.ResetsClearTheHostSide
  refine ⟨fun s ho => ?_, fun s hp hb => gives_pos rfl hp (State.functionReset_cleared hb), fun s hp hb => ?_,
    fun s hp => gives_pos rfl hp s.hotReset_cleared, fun s hp => exec_pos rfl hp, fun s ha hr => ?_⟩
  · have hb : s.rd F.HIF_STATUS_RESET_BUSY = 0 := by
      simp only [State.bar0Open, Bool.and_eq_true, Bool.not_eq_true'] at ho
      exact (State.rdB_eq_false_iff rfl).1 ho.2
    exact gives_pos rfl ho (State.functionReset_cleared hb)
  · exact (exec_pos rfl hp).trans (congrArg _ (if_pos (State.rdB_eq_true hb)))
  · exact gives_pos rfl (by simp [ha, hr]) (State.mgmtRestart_raises ha)

end Sys2Proof.Machine
end

section
/-!
PROOFS. Runs of values in sparse stores, and the sectors of device memory byte by byte (R327 to R331).
-/
namespace Sys2Proof.Machine

/-! ## Runs of a sparse store -/

section
variable {α : Type} {d : Nat → α}

theorem cellGet_append_left (l : List (Nat × α)) {m : List (Nat × α)} {k : Nat} (h : ∀ c ∈ m, c.1 ≠ k) :
    cellGet d (l ++ m) k = cellGet d l k := by
  induction l with
  | nil =>
    induction m with
    | nil => rfl
    | cons c m ih =>
      rw [List.forall_mem_cons] at h
      exact (if_neg h.1).trans (ih h.2)
  | cons c l ih => exact if_congr Iff.rfl rfl ih

theorem cellGet_append_right {l : List (Nat × α)} (m : List (Nat × α)) {k : Nat} (h : ∀ c ∈ l, c.1 ≠ k) :
    cellGet d (l ++ m) k = cellGet d m k := by
  induction l with
  | nil => rfl
  | cons c l ih =>
    rw [List.forall_mem_cons] at h
    exact (if_neg h.1).trans (ih h.2)

/-- The entries below a key, and those from it on. -/
theorem mem_takeWhile_lt {l : List (Nat × α)} {b : Nat} {c : Nat × α} (h : c ∈ l.takeWhile fun c => decide (c.1 < b)) : c.1 < b := by
  simpa using List.mem_takeWhile_imp h

theorem mem_dropWhile_ge {l : List (Nat × α)} {b : Nat} {c : Nat × α} (hl : l.Pairwise fun c e => c.1 < e.1)
    (h : c ∈ l.dropWhile fun c => decide (c.1 < b)) : b ≤ c.1 := by
  induction l with
  | nil => cases h
  | cons e l ih =>
    rw [List.pairwise_cons] at hl
    rw [List.dropWhile_cons] at h
    split at h
    · exact ih hl.2 h
    · rename_i hb
      have hb' : b ≤ e.1 := by simpa using hb
      rcases List.mem_cons.1 h with rfl | h
      · exact hb'
      · exact hb'.trans (hl.1 c h).le

theorem cellGet_takeWhile {l : List (Nat × α)} {b k : Nat} (hl : l.Pairwise fun c e => c.1 < e.1) (h : k < b) :
    cellGet d (l.takeWhile fun c => decide (c.1 < b)) k = cellGet d l k := by
  conv_rhs => rw [← List.takeWhile_append_dropWhile (p := fun c : Nat × α => decide (c.1 < b)) (l := l)]
  exact (cellGet_append_left _ fun c hc => by have := mem_dropWhile_ge hl hc; omega).symm

theorem cellGet_dropWhile {l : List (Nat × α)} {b k : Nat} (h : b ≤ k) :
    cellGet d (l.dropWhile fun c => decide (c.1 < b)) k = cellGet d l k := by
  conv_rhs => rw [← List.takeWhile_append_dropWhile (p := fun c : Nat × α => decide (c.1 < b)) (l := l)]
  exact (cellGet_append_right _ fun c hc => by have := mem_takeWhile_lt hc; omega).symm

theorem cellRun_eq (n : Nat) {a : Nat} {l : List (Nat × α)} (hl : l.Pairwise fun c e => c.1 < e.1) (ha : ∀ c ∈ l, a ≤ c.1) :
    cellRun d n a l = (upFrom a n).map (cellGet d l) := by
  have hstep : ∀ n a, upFrom a (n + 1) = a :: upFrom (a + 1) n := fun n a => by
    simp only [upFrom, List.range_succ_eq_map, List.map_cons, List.map_map]
    exact congrArg _ (List.map_congr_left fun i _ => by simp only [Function.comp]; omega)
  induction n generalizing a l with
  | zero => rfl
  | succ n ih =>
    rw [hstep, List.map_cons]
    cases l with
    | nil => exact congrArg _ (ih .nil (by simp))
    | cons c l =>
      obtain ⟨j, v⟩ := c
      rw [List.pairwise_cons] at hl
      rw [List.forall_mem_cons] at ha
      obtain ⟨haj, hal⟩ := ha
      by_cases hj : j = a
      · subst hj
        have hrest : cellRun d n (j + 1) l = (upFrom (j + 1) n).map (cellGet d l) := ih hl.2 fun c hc => hl.1 c hc
        have hskip : (upFrom (j + 1) n).map (cellGet d l) = (upFrom (j + 1) n).map (cellGet d ((j, v) :: l)) := by
          refine List.map_congr_left fun k hk => (if_neg ?_).symm
          simp only [upFrom, List.mem_map] at hk
          omega
        simp only [cellRun, cellGet, if_true]
        rw [hrest, hskip]
        rfl
      · have hlt : a < j := lt_of_le_of_ne haj (Ne.symm hj)
        have hnone : cellGet d ((j, v) :: l) a = d a := by
          rw [← List.append_nil ((j, v) :: l)]
          refine cellGet_append_right [] fun c hc => ?_
          rcases List.mem_cons.1 hc with rfl | hc
          · exact hj
          · have := hl.1 c hc
            simp only at this
            omega
        have hrest := ih (a := a + 1) (List.pairwise_cons.2 hl) fun c hc => by
          rcases List.mem_cons.1 hc with rfl | hc
          · exact hlt
          · have := hl.1 c hc
            simp only at this
            omega
        rw [hnone, ← hrest]
        simp only [cellRun, if_neg hj]

variable [DecidableEq α]

/-- A run read from a canonical store, key by key. -/
theorem cellRead_eq {l : List (Nat × α)} (h : cellsWf d l = true) (a n : Nat) : cellRead d l a n = (upFrom a n).map (cellGet d l) := by
  have hl := (cellsWf_iff.1 h).1
  rw [cellRead, cellRun_eq n (hl.sublist (List.dropWhile_sublist _)) fun c hc => mem_dropWhile_ge hl hc]
  refine List.map_congr_left fun k hk => cellGet_dropWhile ?_
  simp only [upFrom, List.mem_map] at hk
  omega

theorem cellGet_cellsNew (a i : Nat) (vs : List α) (h : i < vs.length) : cellGet d (cellsNew d a vs) (a + i) = vs[i] := by
  induction vs generalizing a i with
  | nil => simp at h
  | cons v vs ih =>
    have hnone : cellGet d (cellsNew d (a + 1) vs) a = d a := by
      rw [← List.append_nil (cellsNew d (a + 1) vs)]
      exact cellGet_append_right [] fun c hc => by have := cellsNew_keys hc; omega
    rw [cellsNew, cellGet_cons hnone]
    cases i with
    | zero => exact if_pos rfl
    | succ i =>
      rw [if_neg (by omega), show a + (i + 1) = a + 1 + i by omega]
      exact ih (a + 1) i (by simpa using h)

/-- What any key reads as after a run of values is written. -/
theorem cellGet_cellPut {l : List (Nat × α)} (hw : cellsWf d l = true) (a k : Nat) (vs : List α) :
    cellGet d (cellPut d l a vs) k = if h : a ≤ k ∧ k < a + vs.length then vs[k - a]'(by omega) else cellGet d l k := by
  have hl := (cellsWf_iff.1 hw).1
  unfold cellPut
  have hnew : ∀ {k}, k < a ∨ a + vs.length ≤ k → ∀ c ∈ cellsNew d a vs, c.1 ≠ k := fun hk c hc => by
    have := cellsNew_keys hc
    omega
  have hdrop : ∀ {k}, k < a + vs.length → ∀ c ∈ l.dropWhile (fun c => decide (c.1 < a + vs.length)), c.1 ≠ k := fun hk c hc => by
    have := mem_dropWhile_ge hl hc
    omega
  have htake : ∀ {k}, a ≤ k → ∀ c ∈ l.takeWhile (fun c => decide (c.1 < a)), c.1 ≠ k := fun hk c hc => by
    have := mem_takeWhile_lt hc
    omega
  split
  case isTrue h =>
    obtain ⟨i, rfl⟩ := Nat.exists_eq_add_of_le h.1
    rw [cellGet_append_left _ (hdrop h.2), cellGet_append_right _ (htake h.1), cellGet_cellsNew a i vs (by omega)]
    simp only [Nat.add_sub_cancel_left]
  case isFalse h =>
    rcases Nat.lt_or_ge k a with hk | hk
    · rw [cellGet_append_left _ (hdrop (by omega)), cellGet_append_left _ (hnew (.inl hk)), cellGet_takeWhile hl hk]
    · have hge : a + vs.length ≤ k := by omega
      rw [List.append_assoc, cellGet_append_right _ (htake hk), cellGet_append_right _ (hnew (.inr hge)), cellGet_dropWhile hge]

end

/-! ## Sectors, byte by byte -/

theorem Memory.wf_iff {m : MemSt} : Memory.wf m = true ↔ cellsWf (fun _ => (0 : Byte)) m.data = true ∧
    cellsWf (fun _ => (0 : Byte)) m.check = true := by simp only [Memory.wf, Bool.and_eq_true]

theorem MemSt.rawData_eq {m : MemSt} (h : Memory.wf m = true) (sec : Nat) : m.rawData sec = (upFrom (32 * sec) 32).map m.dataAt :=
  cellRead_eq (Memory.wf_iff.1 h).1 _ _

theorem MemSt.codeword_eq {m : MemSt} (h : Memory.wf m = true) (sec : Nat) :
    m.codeword sec = ((upFrom (32 * sec) 32).map m.dataAt ++ (List.range 4).map (m.checkAt sec)).map BitVec.toNat := by
  have hc : cellRead (fun _ => (0 : Byte)) m.check (4 * sec) 4 = (List.range 4).map (m.checkAt sec) := by
    rw [cellRead_eq (Memory.wf_iff.1 h).2, upFrom, List.map_map]
    rfl
  rw [MemSt.codeword, hc, cellRead_eq (Memory.wf_iff.1 h).1]
  rfl

/-- Two memories hold the same in a sector. -/
def SameSector (sec : Nat) (m n : MemSt) : Prop :=
  (∀ i < 32, n.dataAt (32 * sec + i) = m.dataAt (32 * sec + i)) ∧ ∀ i < 4, n.checkAt sec i = m.checkAt sec i

theorem SameSector.data {sec : Nat} {m n : MemSt} (h : SameSector sec m n) :
    (upFrom (32 * sec) 32).map n.dataAt = (upFrom (32 * sec) 32).map m.dataAt := by
  refine List.map_congr_left fun k hk => ?_
  obtain ⟨i, hi, rfl⟩ := List.mem_map.1 hk
  exact h.1 i (List.mem_range.1 hi)

theorem SameSector.classify {sec : Nat} {m n : MemSt} (h : SameSector sec m n) (hm : Memory.wf m = true) (hn : Memory.wf n = true) :
    n.classify sec = m.classify sec := by
  have hc : (List.range 4).map (n.checkAt sec) = (List.range 4).map (m.checkAt sec) :=
    List.map_congr_left fun i hi => h.2 i (List.mem_range.1 hi)
  unfold MemSt.classify
  rw [MemSt.codeword_eq hm, MemSt.codeword_eq hn, hc, h.data]

/-- Correcting a symbol changes that symbol only. -/
theorem MemSt.dataAt_correct (m : MemSt) (sec p e k : Nat) : (m.correct sec p e).dataAt k =
    if p < 32 ∧ k = 32 * sec + p then xorB (m.dataAt (32 * sec + p)) (BitVec.ofNat 8 e) else m.dataAt k := by
  unfold MemSt.correct MemSt.putSymbol
  by_cases hp : p < 32
  · simp only [hp, true_and]
    exact cellGet_set _ _ _ _
  · simp only [hp, false_and, if_false]
    rfl

/-- What a reader receives of a byte of a sector: corrected, or poisoned (R328 to R330). -/
def MemSt.received (m : MemSt) (sec k : Nat) : MByte := match m.classify sec with
  | .good => ⟨m.dataAt k, false⟩
  | .correctable p e => ⟨(m.correct sec p e).dataAt k, false⟩
  | .poisoned => ⟨m.dataAt k, true⟩
  | .uncorrectable => ⟨m.dataAt k, true⟩

theorem MemSt.readSector_eq {m : MemSt} (h : Memory.wf m = true) (sec : Nat) :
    m.readSector sec = (upFrom (32 * sec) 32).map (m.received sec) := by
  unfold MemSt.readSector MemSt.received
  cases m.classify sec with
  | good => simp only [MemSt.rawData_eq h, List.map_map, Function.comp_def]
  | correctable p e => simp only [MemSt.rawData_eq (MemSt.correct_wf h), List.map_map, Function.comp_def]
  | poisoned => simp only [MemSt.rawData_eq h, List.map_map, Function.comp_def]
  | uncorrectable => simp only [MemSt.rawData_eq h, List.map_map, Function.comp_def]

theorem SameSector.correct {sec : Nat} {m n : MemSt} (h : SameSector sec m n) (p e : Nat) {i : Nat} (hi : i < 32) :
    (n.correct sec p e).dataAt (32 * sec + i) = (m.correct sec p e).dataAt (32 * sec + i) := by
  rw [MemSt.dataAt_correct, MemSt.dataAt_correct, h.1 i hi]
  split
  · rename_i hp
    rw [h.1 p hp.1]
  · rfl

theorem SameSector.readSector {sec : Nat} {m n : MemSt} (h : SameSector sec m n) (hm : Memory.wf m = true) (hn : Memory.wf n = true) :
    n.readSector sec = m.readSector sec := by
  rw [MemSt.readSector_eq hm, MemSt.readSector_eq hn]
  refine List.map_congr_left fun k hk => ?_
  obtain ⟨i, hi, rfl⟩ := List.mem_map.1 hk
  have hk' := h.1 i (List.mem_range.1 hi)
  unfold MemSt.received
  rw [h.classify hm hn]
  cases m.classify sec with
  | good => simp only [hk']
  | correctable p e => simp only [h.correct p e (List.mem_range.1 hi)]
  | poisoned => simp only [hk']
  | uncorrectable => simp only [hk']

theorem SameSector.peekByte {m n : MemSt} {a : Nat} (h : SameSector (a / 32) m n) (hm : Memory.wf m = true) (hn : Memory.wf n = true) :
    n.peekByte a = m.peekByte a := by
  unfold MemSt.peekByte
  rw [h.readSector hm hn]

/-! ## A sector stored (R327) -/

theorem MemSt.dataAt_storeSector {m : MemSt} (h : Memory.wf m = true) {sec : Nat} {bs : List Byte} (hb : bs.length = 32) (k : Nat) :
    (m.storeSector sec bs).dataAt k = if 32 * sec ≤ k ∧ k < 32 * sec + 32 then bs.getD (k - 32 * sec) 0 else m.dataAt k := by
  have hp : padTo 32 0 bs = bs := padTo_of_length hb
  refine (cellGet_cellPut (Memory.wf_iff.1 h).1 (32 * sec) k (padTo 32 0 bs)).trans ?_
  simp only [hp, hb]
  split
  case isTrue hk => exact (List.getD_eq_getElem _ _ _).symm
  case isFalse => rfl

theorem length_guardCheck (data : List Nat) : (guardCheck data).length = 4 := rfl

theorem MemSt.checkAt_storeSector {m : MemSt} (h : Memory.wf m = true) {sec : Nat} {bs : List Byte} (hb : bs.length = 32) (s i : Nat)
    (hi : i < 4) : (m.storeSector sec bs).checkAt s i =
      if s = sec then BitVec.ofNat 8 ((guardCheck (bs.map BitVec.toNat)).getD i 0) else m.checkAt s i := by
  have hp : padTo 32 0 bs = bs := padTo_of_length hb
  refine (cellGet_cellPut (Memory.wf_iff.1 h).2 (4 * sec) (4 * s + i) _).trans ?_
  simp only [hp, List.length_map, length_guardCheck]
  by_cases hs : s = sec
  · subst hs
    rw [dif_pos (by omega), if_pos rfl]
    simp only [List.getElem_map, Nat.add_sub_cancel_left]
    rw [List.getD_eq_getElem _ _ (by rw [length_guardCheck]; exact hi)]
  · rw [dif_neg (by omega), if_neg hs]
    rfl

end Sys2Proof.Machine
end

section
/-!
PROOFS. Host access to device memory (R40 to R42, R325, R331).
-/
namespace Sys2Proof.Machine

/-! ## Decoder 0 (R40) -/

theorem State.cxlLine_outside {hpa : Nat} {s : State}
    (h : s.hif.hdm.committed = false ∨ hpa < s.hif.hdm.base ∨ s.hif.hdm.base + s.hif.hdm.size ≤ hpa) : s.cxlLine hpa = none := by
  have hout : ¬(s.hif.hdm.committed = true ∧ s.hif.hdm.base ≤ hpa ∧ hpa < s.hif.hdm.base + s.hif.hdm.size) := by
    rintro ⟨hc, hlo, hhi⟩
    rcases h with h | h | h
    · rw [h] at hc
      cases hc
    · omega
    · omega
  rw [State.cxlLine, HdmDecoder.toDpa, if_neg hout]
  rfl

theorem State.cxlLine_inside {hpa : Nat} {s : State} (hc : s.hif.hdm.committed = true) (hw : s.hif.hdm.ways = 0)
    (hlo : s.hif.hdm.base ≤ hpa) (hhi : hpa < s.hif.hdm.base + s.hif.hdm.size) :
    s.cxlLine hpa = if hpa - s.hif.hdm.base + 64 ≤ 58 * 2 ^ 30 then some (hpa - s.hif.hdm.base) else none := by
  have hmap : s.hif.hdm.toDpa hpa = some (hpa - s.hif.hdm.base) := by
    rw [HdmDecoder.toDpa, if_pos ⟨hc, hlo, hhi⟩]
    simp only [hw, Nat.pow_zero, Nat.mul_one, Nat.div_add_mod']
  rw [State.cxlLine, hmap, Option.filter_some]
  exact if_congr decide_eq_true_iff rfl rfl

theorem State.cxlLine_visible {hpa a : Nat} {s : State} (h : s.cxlLine hpa = some a) : a + 64 ≤ 58 * 2 ^ 30 := by
  have := (Option.filter_eq_some_iff.1 h).2
  simpa [visibleEnd] using this

/-- An access of one line. -/
theorem State.cxlLines_one {addr a : Nat} {s : State} (hal : addr % 64 = 0) (h : s.cxlLine addr = some a) : s.cxlLines addr 1 = some [a] := by
  have haddr : addr / 64 * 64 + 64 * (0 + 0) = addr := by omega
  simp only [State.cxlLines, upFrom, List.range_one, List.map_cons, List.map_nil, List.mapM_cons, List.mapM_nil, haddr, h]
  rfl

theorem mapM_some {α β : Type} {f : α → Option β} {g : α → β} {l : List α} (h : ∀ x ∈ l, f x = some (g x)) :
    l.mapM f = some (l.map g) := by
  induction l with
  | nil => rfl
  | cons x l ih =>
    rw [List.forall_mem_cons] at h
    rw [List.mapM_cons, h.1, ih h.2]
    rfl

/-- The lines of an access to an uninterleaved range. -/
theorem State.cxlLines_inside {addr n : Nat} {s : State} (hc : s.hif.hdm.committed = true) (hw : s.hif.hdm.ways = 0) (hal : addr % 64 = 0)
    (hlo : s.hif.hdm.base ≤ addr) (hhi : addr + 64 * n ≤ s.hif.hdm.base + s.hif.hdm.size)
    (hvis : addr - s.hif.hdm.base + 64 * n ≤ 58 * 2 ^ 30) :
    s.cxlLines addr n = some ((List.range n).map fun i => addr - s.hif.hdm.base + 64 * i) := by
  have hup : upFrom 0 n = List.range n := by simp [upFrom]
  rw [State.cxlLines, hup]
  refine mapM_some fun i hi => ?_
  have hi' := List.mem_range.1 hi
  rw [State.cxlLine_inside hc hw (by omega) (by omega), if_pos (by omega)]
  exact congrArg some (by omega)

/-! ## What whole lines store (R331) -/

/-- From `m` to `n` sectors from `a` on take `bs`, with valid check bytes, and no other sector changes. -/
structure MemStored (a : Nat) (bs : List Byte) (m n : MemSt) : Prop where
  wf : Memory.wf n = true
  data : ∀ i, i < bs.length → n.dataAt (a + i) = bs.getD i 0
  check : ∀ k, k < bs.length / 32 →
    (n.codeword (a / 32 + k)).drop 32 = (guardCheck ((n.rawData (a / 32 + k)).map BitVec.toNat)).map (· % 256)
  kept : ∀ sec, 32 * sec + 32 ≤ a ∨ a + bs.length ≤ 32 * sec → SameSector sec m n
  rest : n = { m with data := n.data, check := n.check, traffic := n.traffic }

theorem MemStored.nil {m : MemSt} (h : Memory.wf m = true) (a : Nat) : MemStored a [] m m :=
  ⟨h, by simp, by simp, fun _ _ => ⟨fun _ _ => rfl, fun _ _ => rfl⟩, rfl⟩

theorem SameSector.check {sec : Nat} {m n : MemSt} (h : SameSector sec m n) (hm : Memory.wf m = true) (hn : Memory.wf n = true) :
    n.codeword sec = m.codeword sec ∧ n.rawData sec = m.rawData sec := by
  have hc : (List.range 4).map (n.checkAt sec) = (List.range 4).map (m.checkAt sec) :=
    List.map_congr_left fun i hi => h.2 i (List.mem_range.1 hi)
  exact ⟨by rw [MemSt.codeword_eq hm, MemSt.codeword_eq hn, hc, h.data], by rw [MemSt.rawData_eq hm, MemSt.rawData_eq hn, h.data]⟩

theorem SameSector.trans {sec : Nat} {m n o : MemSt} (h : SameSector sec m n) (k : SameSector sec n o) : SameSector sec m o :=
  ⟨fun i hi => (k.1 i hi).trans (h.1 i hi), fun i hi => (k.2 i hi).trans (h.2 i hi)⟩

/-- Sectors stored after those before them. -/
theorem MemStored.append {a : Nat} {bs cs : List Byte} {m n o : MemSt} (h : MemStored a bs m n) (k : MemStored (a + bs.length) cs n o)
    (ha : a % 32 = 0) (hb : bs.length % 32 = 0) : MemStored a (bs ++ cs) m o := by
  have hfirst : ∀ j, j < bs.length / 32 → SameSector (a / 32 + j) n o := fun j hj => k.kept _ (.inl (by omega))
  refine ⟨k.wf, fun i hi => ?_, fun j hj => ?_, fun sec hs => ?_, ?_⟩
  · rw [List.length_append] at hi
    rcases Nat.lt_or_ge i bs.length with hlt | hge
    · have hsame := (hfirst (i / 32) (by omega)).1 (i % 32) (by omega)
      have haddr : 32 * (a / 32 + i / 32) + i % 32 = a + i := by omega
      rw [haddr, h.data i hlt] at hsame
      rw [hsame, List.getD_append _ _ _ _ hlt]
    · have hk := k.data (i - bs.length) (by omega)
      have haddr : a + bs.length + (i - bs.length) = a + i := by omega
      rw [haddr] at hk
      rw [hk, List.getD_append_right _ _ _ _ hge]
  · rw [List.length_append] at hj
    rcases Nat.lt_or_ge j (bs.length / 32) with hlt | hge
    · obtain ⟨hcode, hraw⟩ := (hfirst j hlt).check h.wf k.wf
      rw [hcode, hraw, h.check j hlt]
    · have hk := k.check (j - bs.length / 32) (by omega)
      have hsec : (a + bs.length) / 32 + (j - bs.length / 32) = a / 32 + j := by omega
      rwa [hsec] at hk
  · rw [List.length_append] at hs
    exact (h.kept sec (by omega)).trans (k.kept sec (by omega))
  · rw [k.rest, h.rest]

/-- One sector stored whole. -/
theorem MemSt.storeSector_stored {m : MemSt} (h : Memory.wf m = true) (sec : Nat) {bs : List Byte} (hb : bs.length = 32) :
    MemStored (32 * sec) bs m (m.storeSector sec bs) := by
  have hwf := MemSt.storeSector_wf (sec := sec) (data := bs) h
  have hdata : ∀ i, i < 32 → (m.storeSector sec bs).dataAt (32 * sec + i) = bs.getD i 0 := fun i hi => by
    rw [MemSt.dataAt_storeSector h hb, if_pos (by omega), Nat.add_sub_cancel_left]
  have hraw : (m.storeSector sec bs).rawData sec = bs := by
    rw [MemSt.rawData_eq hwf, upFrom, List.map_map]
    refine List.ext_getElem (by simp [hb]) fun i h1 h2 => ?_
    rw [List.getElem_map, List.getElem_range, Function.comp_apply, hdata i (by omega), List.getD_eq_getElem _ _ h2]
  refine ⟨hwf, fun i hi => hdata i (by omega), fun k hk => ?_, fun s hs => ⟨fun i hi => ?_, fun i hi => ?_⟩, rfl⟩
  · have hsec : 32 * sec / 32 + k = sec := by omega
    rw [hsec, hraw, MemSt.codeword_eq hwf, List.map_append, List.drop_left' (by simp [upFrom])]
    have hcheck : ∀ i < 4, (m.storeSector sec bs).checkAt sec i = BitVec.ofNat 8 ((guardCheck (bs.map BitVec.toNat)).getD i 0) :=
      fun i hi => by rw [MemSt.checkAt_storeSector h hb _ _ hi, if_pos rfl]
    refine List.ext_getElem (by simp [length_guardCheck]) fun i h1 h2 => ?_
    have hi : i < 4 := by simpa using h1
    simp only [List.getElem_map, List.getElem_range]
    rw [hcheck i hi, BitVec.toNat_ofNat, List.getD_eq_getElem _ _ (by rw [length_guardCheck]; exact hi)]
  · rw [MemSt.dataAt_storeSector h hb, if_neg (by omega)]
  · rw [MemSt.checkAt_storeSector h hb _ _ hi, if_neg (by omega)]

/-- One line is two sectors. -/
theorem sectorsOf_line {a : Nat} (h : a % 64 = 0) : sectorsOf a 64 = [a / 32, a / 32 + 1] := by
  have hn : (a + 64 - 1) / 32 - a / 32 + 1 = 2 := by omega
  rw [sectorsOf, if_neg (by omega), hn]
  rfl

theorem State.cxlWriteLine_stored {a : Nat} {bs : List Byte} {s : State} (hm : Memory.wf s.mem = true) (ha : a % 64 = 0)
    (hb : bs.length = 64) (hr : (a / 2 ^ 31) ∉ s.mem.reinit) :
    s.cxlWriteLine a bs = { s with mem := (s.cxlWriteLine a bs).mem } ∧ MemStored a bs s.mem (s.cxlWriteLine a bs).mem := by
  have hno : ¬s.mem.reinit.contains (pairOf a) = true := by simpa [pairOf] using hr
  have hfst : sectorPart a bs (a / 32) = (0, bs.take 32) := by
    have h1 : max a (32 * (a / 32)) = a := by omega
    have h2 : min (a + bs.length) (32 * (a / 32) + 32) = a + 32 := by omega
    simp only [sectorPart, h1, h2, Nat.sub_self, List.drop_zero, Nat.add_sub_cancel_left]
    exact congrArg (fun x => (x, bs.take 32)) (by omega)
  have hsnd : sectorPart a bs (a / 32 + 1) = (0, bs.drop 32) := by
    have h1 : max a (32 * (a / 32 + 1)) = a + 32 := by omega
    have h2 : min (a + bs.length) (32 * (a / 32 + 1) + 32) = a + 64 := by omega
    have h3 : a + 64 - (a + 32) = 32 := by omega
    simp only [sectorPart, h1, h2, h3, Nat.add_sub_cancel_left]
    rw [List.take_of_length_le (by simp [hb])]
    exact congrArg (fun x => (x, bs.drop 32)) (by omega)
  set m := { s.mem with traffic := s.mem.traffic.modify MemClass.host.num (· + 64) } with hmem
  have hwf : Memory.wf m = true := hm
  have hline : s.cxlWriteLine a bs = { s with mem := (m.storeSector (a / 32) (bs.take 32)).storeSector (a / 32 + 1) (bs.drop 32) } := by
    rw [State.cxlWriteLine, if_neg hno, padTo_of_length hb, State.store, hb, sectorsOf_line ha]
    simp only [List.foldl_cons, List.foldl_nil, hfst, hsnd]
    rw [State.writeSector, State.writeSector, if_pos (by simp [hb]), if_pos (by simp [hb])]
    rfl
  have h1 := MemSt.storeSector_stored hwf (a / 32) (bs := bs.take 32) (by simp [hb])
  have h2 := MemSt.storeSector_stored h1.wf (a / 32 + 1) (bs := bs.drop 32) (by simp [hb])
  have hbase : 32 * (a / 32) = a := by omega
  have hnext : 32 * (a / 32 + 1) = a + (bs.take 32).length := by
    rw [List.length_take, hb]
    omega
  rw [hbase] at h1
  rw [hnext] at h2
  have hboth := h1.append h2 (by omega) (by simp [hb])
  rw [List.take_append_drop] at hboth
  rw [hline]
  exact ⟨rfl, ⟨hboth.wf, hboth.data, hboth.check, hboth.kept, hboth.rest⟩⟩

/-- The lines of an access, stored one after another. -/
def State.writeLines (s : State) (as : List Nat) (data : List Byte) : State :=
  as.zipIdx.foldl (fun s x => s.cxlWriteLine x.1 ((data.drop (64 * x.2)).take 64)) s

theorem State.writeLines_stored {a : Nat} {data : List Byte} {s : State} (hm : Memory.wf s.mem = true) (ha : a % 64 = 0)
    (hr : s.mem.reinit = []) (n : Nat) (hn : 64 * n ≤ data.length) :
    s.writeLines ((List.range n).map fun i => a + 64 * i) data =
        { s with mem := (s.writeLines ((List.range n).map fun i => a + 64 * i) data).mem } ∧
      MemStored a (data.take (64 * n)) s.mem (s.writeLines ((List.range n).map fun i => a + 64 * i) data).mem := by
  induction n with
  | zero =>
    rw [Nat.mul_zero, List.take_zero]
    exact ⟨rfl, .nil hm a⟩
  | succ n ih =>
    obtain ⟨hstate, hstored⟩ := ih (by omega)
    set u := s.writeLines ((List.range n).map fun i => a + 64 * i) data with hu
    have hlast : s.writeLines ((List.range (n + 1)).map fun i => a + 64 * i) data =
        u.cxlWriteLine (a + 64 * n) ((data.drop (64 * n)).take 64) := by
      rw [State.writeLines, List.range_succ, List.map_append, List.zipIdx_append, List.foldl_append]
      simp only [List.map_cons, List.map_nil, List.length_map, List.length_range, List.zipIdx_singleton, List.foldl_cons, List.foldl_nil,
        Nat.zero_add]
      rfl
    have hreinit : u.mem.reinit = [] := by rw [hstored.rest]; exact hr
    have hlen : ((data.drop (64 * n)).take 64).length = 64 := by
      rw [List.length_take, List.length_drop]
      omega
    obtain ⟨hnext, hline⟩ := State.cxlWriteLine_stored (s := u) (a := a + 64 * n) hstored.wf (by omega) hlen (by rw [hreinit]; simp)
    have htake : (data.take (64 * n)).length = 64 * n := by
      rw [List.length_take]
      omega
    have hall : data.take (64 * n) ++ (data.drop (64 * n)).take 64 = data.take (64 * (n + 1)) := by
      rw [Nat.mul_add, List.take_add]
    rw [hlast]
    refine ⟨?_, hall ▸ hstored.append (by rw [htake]; exact hline) (by omega) (by rw [htake]; omega)⟩
    rw [hnext, hstate]

/-- Stored lines, with the completion. -/
theorem linesStored_of {a : Nat} {data : List Byte} {s t : State} (hm : Memory.wf s.mem = true) (ht : t = { s with mem := t.mem })
    (h : MemStored a data s.mem t.mem) (ha : a % 32 = 0) (hd : data.length % 32 = 0) : LinesStored a data s (t.emit .cxlDone) := by
  refine ⟨?_, h.data, h.check, fun b hb => ?_, ?_, h.rest⟩
  · rw [ht]
    rfl
  · exact (h.kept (b / 32) (by omega)).peekByte hm h.wf
  · rw [ht]
    rfl

theorem State.canonical_mem {s : State} (h : s.canonical = true) : Memory.wf s.mem = true := by
  simp only [State.canonical, Bool.and_eq_true] at h
  obtain ⟨⟨-, hm⟩, -⟩ := h
  exact hm

theorem cxlMemWrite_stores {addr a : Nat} {data : List Byte} {s : State} {n : Nat} (hc : s.canonical = true) (hup : s.cxlMemUp = true)
    (hd : data.length = 64 * n) (hl : s.cxlLines addr n = some ((List.range n).map fun i => a + 64 * i)) (ha : a % 64 = 0)
    (hr : s.mem.reinit = []) : Gives (.cxlMemWrite addr data) s (LinesStored a data s) := by
  have hlines : (data.length + 63) / 64 = n := by omega
  obtain ⟨hstate, hstored⟩ := State.writeLines_stored (s := s) (data := data) (State.canonical_mem hc) ha hr n (by omega)
  rw [List.take_of_length_le (by omega)] at hstored
  exact gives_pos (exec_cxlMemWrite_mapped (by rw [hlines]; exact hl)) hup
    (linesStored_of (State.canonical_mem hc) hstate hstored (by omega) (by omega))

theorem cxlMemWrite_line {addr a : Nat} {data : List Byte} {s : State} (hc : s.canonical = true) (hup : s.cxlMemUp = true)
    (hal : addr % 64 = 0) (hl : s.cxlLine addr = some a) (ha : a % 64 = 0) (hd : data.length = 64) (hr : (a / 2 ^ 31) ∉ s.mem.reinit) :
    Gives (.cxlMemWrite addr data) s (LinesStored a data s) := by
  have hlines : (data.length + 63) / 64 = 1 := by omega
  obtain ⟨hstate, hstored⟩ := State.cxlWriteLine_stored (bs := data) (State.canonical_mem hc) ha hd hr
  have hone : [a].zipIdx.foldl (fun s x => s.cxlWriteLine x.1 ((data.drop (64 * x.2)).take 64)) s = s.cxlWriteLine a data := by
    change s.cxlWriteLine a ((data.drop (64 * 0)).take 64) = _
    rw [Nat.mul_zero, List.drop_zero, List.take_of_length_le (by omega)]
  refine gives_pos (exec_cxlMemWrite_mapped (by rw [hlines]; exact State.cxlLines_one hal hl)) hup ?_
  rw [hone]
  exact linesStored_of (State.canonical_mem hc) hstate hstored (by omega) (by omega)

/-! ## What a read answers (R42) -/

theorem MemSt.reinit_upsets (m : MemSt) (us : List Upset) : (us.foldl MemSt.upset m).reinit = m.reinit := by
  induction us generalizing m with
  | nil => rfl
  | cons u us ih =>
    refine (ih _).trans ?_
    unfold MemSt.upset MemSt.putSymbol
    dsimp only
    split
    · split <;> rfl
    · rfl

/-- What left before has left. -/
theorem sentBefore_closed (o : List Out) : MemoryClosed fun t => ∃ l, t.out = l ++ o where
  modMem _ h := h
  wr _ _ h := h
  raise e h := by
    obtain ⟨l, hl⟩ := h
    obtain ⟨m, hm⟩ := (State.raise_events _ e).sent
    exact ⟨m ++ l, by rw [hm, hl, List.append_assoc]⟩

/-- Two sectors make a line. -/
theorem MemSt.peek_line {m : MemSt} (h : Memory.wf m = true) {a : Nat} (ha : a % 64 = 0) :
    m.peek a 64 = (List.range 64).map fun i => m.received ((a + i) / 32) (a + i) := by
  have hn : (a + 64 - 1) / 32 - a / 32 + 1 = 2 := by omega
  have hz : a % 32 = 0 := by omega
  have hsec : ∀ sec, m.readSector sec = (List.range 32).map fun i => m.received sec (32 * sec + i) := fun sec => by
    rw [MemSt.readSector_eq h, upFrom, List.map_map]
    rfl
  have hpeek : m.peek a 64 = ((m.readSector (a / 32) ++ m.readSector (a / 32 + 1)).drop 0).take 64 := by
    have hup : upFrom (a / 32) 2 = [a / 32, a / 32 + 1] := rfl
    simp only [MemSt.peek, hn, hz, show ¬(64 : Nat) = 0 by decide, if_false, hup]
    simp
  rw [hpeek, List.drop_zero, hsec, hsec, List.take_of_length_le (by simp)]
  have hrange : List.range 64 = List.range 32 ++ (List.range 32).map (32 + ·) := by decide
  rw [hrange, List.map_append, List.map_map]
  congr 1
  · refine List.map_congr_left fun i hi => ?_
    have hi' := List.mem_range.1 hi
    have h1 : (a + i) / 32 = a / 32 := by omega
    have h2 : 32 * (a / 32) + i = a + i := by omega
    rw [h1, h2]
  · refine List.map_congr_left fun i hi => ?_
    have hi' := List.mem_range.1 hi
    have h1 : (a + (32 + i)) / 32 = a / 32 + 1 := by omega
    have h2 : 32 * (a / 32 + 1) + i = a + (32 + i) := by omega
    simp only [Function.comp_apply, h1, h2]

theorem cxlMemRead_line {addr a : Nat} {u : List Upset} {s : State} (hc : s.canonical = true) (hup : s.cxlMemUp = true)
    (hal : addr % 64 = 0) (hl : s.cxlLine addr = some a) (ha : a % 64 = 0) (hr : (a / 2 ^ 31) ∉ s.mem.reinit) :
    let m := u.foldl MemSt.upset s.mem
    Gives (.cxlMemRead addr 1 u) s fun t => (∃ l, t.out = l ++ .cxlData (m.peek a 64) :: s.out) ∧ (m.peek a 64).length = 64 ∧
      ∀ i < 64, (m.peek a 64).getD i ⟨0, true⟩ = m.received ((a + i) / 32) (a + i) := by
  set m := u.foldl MemSt.upset s.mem with hm
  have hwf : Memory.wf m = true := MemSt.upsets_wf (State.canonical_mem hc)
  have hpeek := MemSt.peek_line hwf ha
  have hno : ¬m.reinit.contains (pairOf a) = true := by
    rw [hm, MemSt.reinit_upsets]
    simpa [pairOf] using hr
  refine gives_pos (exec_cxlMemRead_mapped u (State.cxlLines_one hal hl)) hup ⟨?_, by rw [hpeek]; simp, fun i hi => ?_⟩
  · have hline : [a].foldl (fun s a => s.cxlReadLine a) (s.modMem fun m => u.foldl MemSt.upset m) =
        (((s.modMem fun m => u.foldl MemSt.upset m).emit (.cxlData (m.peek a 64))).touch .host a 64) := if_neg hno
    rw [hline]
    exact (sentBefore_closed _).touch .host a 64 ⟨[], rfl⟩
  · rw [hpeek, List.getD_eq_getElem _ _ (by simpa using hi), List.getElem_map, List.getElem_range]

/-- A line whose sectors are good is answered; of memory only the traffic is counted. -/
theorem State.cxlReadLine_good {a : Nat} {s : State} (hr : s.mem.reinit = []) (ha : a % 64 = 0) (h1 : s.mem.classify (a / 32) = .good)
    (h2 : s.mem.classify (a / 32 + 1) = .good) :
    s.cxlReadLine a = (s.emit (.cxlData (s.mem.peek a 64))).account .host 64 := by
  have hno : ¬s.mem.reinit.contains (pairOf a) = true := by simp [hr]
  have htouch : ∀ (t : State) sec, t.mem.classify sec = .good → t.touchSector .host sec = t := fun t sec h => by
    simp only [State.touchSector, h]
  rw [State.cxlReadLine, if_neg hno, State.touch, sectorsOf_line ha]
  simp only [List.foldl_cons, List.foldl_nil]
  rw [htouch ((s.emit _).account _ _) _ h1, htouch ((s.emit _).account _ _) _ h2]

/-- The traffic counts are not what a reader receives. -/
theorem MemSt.peek_traffic (m : MemSt) (l : List Nat) (a n : Nat) : ({ m with traffic := l } : MemSt).peek a n = m.peek a n := by
  have hclass : ∀ sec, ({ m with traffic := l } : MemSt).classify sec = m.classify sec := fun _ => rfl
  have hsector : ∀ sec, ({ m with traffic := l } : MemSt).readSector sec = m.readSector sec := fun sec => by
    unfold MemSt.readSector
    rw [hclass]
    cases m.classify sec with
    | correctable p e =>
      unfold MemSt.correct MemSt.putSymbol
      dsimp only
      split <;> rfl
    | good => rfl
    | poisoned => rfl
    | uncorrectable => rfl
  simp only [MemSt.peek, hsector]

theorem State.readLines_good {as : List Nat} {m : MemSt} {s : State} (hm : s.mem = { m with traffic := s.mem.traffic })
    (hr : m.reinit = []) (h : ∀ a ∈ as, a % 64 = 0 ∧ m.classify (a / 32) = .good ∧ m.classify (a / 32 + 1) = .good) :
    (as.foldl (fun s a => s.cxlReadLine a) s).out = (as.map fun a => Out.cxlData (m.peek a 64)).reverse ++ s.out ∧
      (as.foldl (fun s a => s.cxlReadLine a) s).mem.data = m.data ∧ (as.foldl (fun s a => s.cxlReadLine a) s).mem.check = m.check ∧
      (as.foldl (fun s a => s.cxlReadLine a) s).regs = s.regs := by
  induction as generalizing s with
  | nil =>
    have hdata : s.mem.data = m.data := by rw [hm]
    have hcheck : s.mem.check = m.check := by rw [hm]
    exact ⟨rfl, hdata, hcheck, rfl⟩
  | cons a as ih =>
    rw [List.forall_mem_cons] at h
    obtain ⟨⟨ha, h1, h2⟩, hrest⟩ := h
    have hclass : ∀ sec, s.mem.classify sec = m.classify sec := fun sec => by rw [hm]; rfl
    have hpeek : s.mem.peek a 64 = m.peek a 64 := by rw [hm, MemSt.peek_traffic]
    have hread := State.cxlReadLine_good (by rw [hm]; exact hr) ha ((hclass _).trans h1) ((hclass _).trans h2)
    rw [List.foldl_cons, hread, hpeek]
    have hnext : ((s.emit (.cxlData (m.peek a 64))).account .host 64).mem =
        { m with traffic := ((s.emit (.cxlData (m.peek a 64))).account .host 64).mem.traffic } :=
      congrArg (fun n : MemSt => { n with traffic := s.mem.traffic.modify MemClass.host.num (· + 64) }) hm
    obtain ⟨hout, hdata, hcheck, hregs⟩ := ih hnext hrest
    exact ⟨by rw [hout, List.map_cons, List.reverse_cons, List.append_assoc]; rfl, hdata, hcheck, hregs⟩

/-! ## Changing pairs (R325) -/

theorem cxlMem_changing {addr a : Nat} (data : List Byte) {s : State} (hup : s.cxlMemUp = true) (hal : addr % 64 = 0)
    (hl : s.cxlLine addr = some a) (hr : (a / 2 ^ 31) ∈ s.mem.reinit) :
    (data.length = 64 → exec (.cxlMemWrite addr data) s = .next (s.emit .cxlDone)) ∧
      exec (.cxlMemRead addr 1 []) s =
        .next ((s.emit (.cxlData ((List.range 64).map fun i => ⟨Config.freeByte (s.freeCtr + i), false⟩))).drawn 64) := by
  have hin : s.mem.reinit.contains (pairOf a) = true := by simpa [pairOf] using hr
  have hone := State.cxlLines_one hal hl
  refine ⟨fun hd => ?_, ?_⟩
  · have hlines : (data.length + 63) / 64 = 1 := by omega
    have hlost : s.cxlWriteLine a ((data.drop (64 * 0)).take 64) = s := if_pos hin
    refine (exec_pos (exec_cxlMemWrite_mapped (by rw [hlines]; exact hone)) hup).trans ?_
    exact congrArg (fun t : State => Host.Outcome.next (t.emit .cxlDone)) hlost
  · exact (exec_pos (exec_cxlMemRead_mapped [] hone) hup).trans (congrArg _ (if_pos hin))

/-! ## Accesses without effect -/

theorem exec_cxlMemRead_unmapped {addr lines : Nat} {s : State} (u : List Upset) (h : s.cxlLines addr lines = none) :
    exec (.cxlMemRead addr lines u) s = .fault .hdmUnmapped := by
  change execCxlMemRead addr lines u s = _
  simp only [execCxlMemRead, h]

theorem exec_cxlMemWrite_unmapped {addr : Nat} {data : List Byte} {s : State} (h : s.cxlLines addr ((data.length + 63) / 64) = none) :
    exec (.cxlMemWrite addr data) s = .fault .hdmUnmapped := by
  have h' : s.cxlLines addr (ceilDiv data.length 64) = none := h
  change execCxlMemWrite addr data s = _
  simp only [execCxlMemWrite, h']

/-- Settles O26: the decoder, the lines written, the lines read, changing pairs, and accesses without effect. -/
theorem hostLinesOfDeviceMemory : Obligations.HostLinesOfDeviceMemory := by
  unfold Obligations.HostLinesOfDeviceMemory
  refine ⟨fun hpa s h => State.cxlLine_outside h, fun hpa s hc hw hlo hhi => State.cxlLine_inside hc hw hlo hhi,
    fun hpa a s h => State.cxlLine_visible h, fun addr a data s hc hup hal hl ha hd hr => cxlMemWrite_line hc hup hal hl ha hd hr,
    ?_, fun addr a u s hc hup hal hl ha hr => ?_, fun addr lines as s hup hr hl hgood => ?_,
    fun addr a data s hup hal hl hr => cxlMem_changing data hup hal hl hr, fun addr lines u data s => ?_⟩
  · intro addr data s hc hup hr hcom hw hb hal hd hlo hhi hvis
    obtain ⟨n, hn⟩ := Nat.dvd_of_mod_eq_zero hd
    exact cxlMemWrite_stores hc hup hn (State.cxlLines_inside hcom hw hal hlo (by omega) (by omega)) (by omega) hr
  · obtain ⟨t, ht, hout, hlen, hbyte⟩ := cxlMemRead_line (u := u) hc hup hal hl ha hr
    refine ⟨t, ht, hout, hlen, fun i hi => (hbyte i hi).trans ?_⟩
    unfold MemSt.received
    cases (u.foldl MemSt.upset s.mem).classify ((a + i) / 32) <;> rfl
  · refine gives_pos (exec_cxlMemRead_mapped [] hl) hup ?_
    exact State.readLines_good (m := s.mem) rfl hr hgood
  · refine ⟨exec_cxlMemRead_unmapped u, exec_cxlMemWrite_unmapped, fun hup hl => ?_, fun hup hl => ?_⟩
    · obtain ⟨as, has⟩ := Option.isSome_iff_exists.1 hl
      exact exec_neg (exec_cxlMemRead_mapped u has) (by simp [hup])
    · obtain ⟨as, has⟩ := Option.isSome_iff_exists.1 hl
      exact exec_neg (exec_cxlMemWrite_mapped has) (by simp [hup])

end Sys2Proof.Machine
end

section
/-!
PROOFS. The way of a commit (R54, R197 to R200, R220, R221), and the start of the retire ring (R206).
-/
namespace Sys2Proof.Machine

/-! ## Descriptors of a ring, wherever they stand -/

/-- Every descriptor of that index in that ring is as `Q` says. -/
def AllDescs (ring idx : Nat) (Q : Desc → Prop) (t : State) : Prop :=
  ∀ r ∈ t.hif.rings, r.num = ring → ∀ d ∈ r.descs, d.idx = idx → Q d

theorem AllDescs.of_rings {ring idx : Nat} {Q : Desc → Prop} {s t : State} (h : AllDescs ring idx Q s) (ht : t.hif.rings = s.hif.rings) :
    AllDescs ring idx Q t := by
  unfold AllDescs
  rwa [ht]

/-- The descriptors of a changed ring. -/
theorem mem_modDesc_rings {s : State} {n i : Nat} {f : Desc → Desc} {r : Ring} (h : r ∈ (s.modDesc n i f).hif.rings) :
    ∃ q ∈ s.hif.rings, r = if q.num = n then q.modDesc i f else q := by
  obtain ⟨q, hq, rfl⟩ := List.mem_map.1 h
  exact ⟨q, hq, rfl⟩

theorem AllDescs.of_modDesc {ring idx : Nat} {Q : Desc → Prop} {f : Desc → Desc} (hf : ∀ d, (f d).idx = d.idx) (hq : ∀ d, Q (f d))
    (s : State) : AllDescs ring idx Q (s.modDesc ring idx f) := by
  intro r hr hn d hd hi
  obtain ⟨q, -, rfl⟩ := mem_modDesc_rings hr
  have hqn : q.num = ring := by
    split at hn <;> exact hn
  rw [if_pos hqn] at hd
  obtain ⟨x, -, rfl⟩ := List.mem_map.1 hd
  have hx : x.idx = idx := by
    split at hi
    · exact (hf x).symm.trans hi
    · exact hi
  rw [if_pos hx]
  exact hq x

theorem AllDescs.modDesc {ring idx n i : Nat} {Q : Desc → Prop} {f : Desc → Desc} {s : State} (h : AllDescs ring idx Q s)
    (hf : ∀ d, (f d).idx = d.idx) (hq : ∀ d, Q d → Q (f d)) : AllDescs ring idx Q (s.modDesc n i f) := by
  intro r hr hn d hd hi
  obtain ⟨q, hmem, rfl⟩ := mem_modDesc_rings hr
  have hqn : q.num = ring := by
    split at hn <;> exact hn
  have hall := h q hmem hqn
  split at hd
  · obtain ⟨x, hx, rfl⟩ := List.mem_map.1 hd
    have hxi : x.idx = idx := by
      split at hi
      · exact (hf x).symm.trans hi
      · exact hi
    split
    · exact hq x (hall x hx hxi)
    · exact hall x hx hxi
  · exact hall d hd hi

theorem AllDescs.descsOf {ring idx : Nat} {Q : Desc → Prop} {t : State} (h : AllDescs ring idx Q t) :
    ∀ d ∈ t.descsOf ring, d.idx = idx → Q d := by
  intro d hd hi
  unfold State.descsOf at hd
  split at hd
  · cases hd
  · rename_i r hr
    exact h r (List.mem_of_find?_eq_some hr) (State.ring?_num hr) d hd hi

/-! ## SHADOW_WRITE (R54) -/

theorem State.writeShadow_regsOnly (s : State) (off : Nat) (val : Word) : RegsOnly [off] s (s.writeShadow off val) :=
  s.setWord_regsOnly _ _

/-- The SH fields of a register, as a write of its row meets them. -/
theorem shFields_foldl {off : Nat} {x : RegDesc} (h : regFind off = some x) (val w : Nat) :
    (shFields off).foldl (fun w f => setBits w f.1 f.2 (bits val f.1 f.2)) w =
      (x.fields.filter fun f => f.2.2 == .sh).foldl (writeField false val) w := by
  have hrow : ∀ (l : List (Nat × Nat × Acc)) w,
      (l.filterMap fun f => if f.2.2 = .sh then some (f.1, f.2.1) else none).foldl (fun w f => setBits w f.1 f.2 (bits val f.1 f.2)) w =
        (l.filter fun f => f.2.2 == .sh).foldl (writeField false val) w := by
    intro l
    induction l with
    | nil => exact fun _ => rfl
    | cons f l ih =>
      intro w
      obtain ⟨lo, len, acc⟩ := f
      by_cases ha : acc = .sh
      · subst ha
        exact ih _
      · simp only [List.filterMap_cons, List.filter_cons, ha, if_false, beq_iff_eq]
        exact ih w
  have hs : shFields off = x.fields.filterMap fun f => if f.2.2 = .sh then some (f.1, f.2.1) else none := by
    simp only [shFields, h]
  rw [hs]
  exact hrow _ _

/-- Each field of a register after a shadow write. -/
theorem State.writeShadow_fields {off : Nat} {x : RegDesc} (h : regFind off = some x) (s : State) (val : Word) :
    ∀ f ∈ x.fields, bits ((s.writeShadow off val).word off).toNat f.1 f.2.1 =
      if f.2.2 = .sh then bits val.toNat f.1 f.2.1 else bits (s.word off).toNat f.1 f.2.1 := by
  obtain ⟨hlt, hapart⟩ := regFind_fieldsOk h
  have hsub : ∀ f ∈ x.fields.filter (fun f => f.2.2 == .sh), f ∈ x.fields := fun f hf => List.mem_of_mem_filter hf
  intro f hf
  rw [State.writeShadow, State.word_setWord_same, BitVec.toNat_ofNat, shFields_foldl h,
    Nat.mod_eq_of_lt (foldl_writeField_lt _ _ (s.word off).isLt fun g hg => hlt g (hsub g hg))]
  split
  case isTrue ha =>
    have hin : f ∈ x.fields.filter fun f => f.2.2 == .sh := List.mem_filter.2 ⟨hf, by simp [ha]⟩
    rw [bits_foldl_writeField _ _ _ (hapart.filter _) f hin, ha]
    rfl
  case isFalse ha =>
    refine bits_foldl_writeField_apart _ _ _ fun g hg => ?_
    have hne : f ≠ g := by
      rintro rfl
      exact ha (by simpa using (List.mem_filter.1 hg).2)
    have hsymm : Std.Symm Apart := ⟨fun _ _ => Or.symm⟩
    exact hapart.forall hf (hsub g hg) hne

/-- A field of any other register reads as before, and a field that is not SH anywhere. -/
theorem State.writeShadows_regsOnly (l : List (Nat × Nat)) (s : State) :
    RegsOnly (l.map Prod.fst) s (l.foldl (fun s p => s.writeShadow p.1 (BitVec.ofNat 32 p.2)) s) := by
  induction l generalizing s with
  | nil => exact .refl s _
  | cons p l ih => exact (s.writeShadow_regsOnly p.1 _).trans (ih _)

theorem bits_ofNat {lo len : Nat} (h : lo + len ≤ 32) (v : Nat) : bits (BitVec.ofNat 32 v).toNat lo len = bits v lo len := by
  have hword : 2 ^ 32 = 2 ^ lo * 2 ^ (32 - lo) := by rw [← Nat.pow_add, Nat.add_sub_cancel' (by omega)]
  rw [BitVec.toNat_ofNat, bits, bits, hword, Nat.mod_mul_right_div_self, Nat.mod_mod_of_dvd _ (Nat.pow_dvd_pow 2 (by omega))]

theorem State.writeShadows_fields {off : Nat} {x : RegDesc} (h : regFind off = some x) {f : Nat × Nat × Acc} (hf : f ∈ x.fields)
    (l : List (Nat × Nat)) (s : State) :
    (f.2.2 ≠ .sh → bits ((l.foldl (fun s p => s.writeShadow p.1 (BitVec.ofNat 32 p.2)) s).word off).toNat f.1 f.2.1 =
      bits (s.word off).toNat f.1 f.2.1) ∧
    (∀ v, (off, v) ∈ l → (∀ q ∈ l, q.1 = off → q = (off, v)) → f.2.2 = .sh →
      bits ((l.foldl (fun s p => s.writeShadow p.1 (BitVec.ofNat 32 p.2)) s).word off).toNat f.1 f.2.1 = bits v f.1 f.2.1) := by
  induction l generalizing s with
  | nil => exact ⟨fun _ => rfl, fun _ hv => nomatch hv⟩
  | cons p l ih =>
    obtain ⟨hother, hsh⟩ := ih (s.writeShadow p.1 (BitVec.ofNat 32 p.2))
    refine ⟨fun ha => (hother ha).trans ?_, fun v hv hu ha => ?_⟩
    · by_cases hp : p.1 = off
      · subst hp
        rw [State.writeShadow_fields h s _ f hf, if_neg ha]
      · rw [(s.writeShadow_regsOnly p.1 _).2 off (by simpa using Ne.symm hp)]
    · by_cases hin : (off, v) ∈ l
      · exact hsh v hin (fun q hq => hu q (List.mem_cons_of_mem _ hq)) ha
      · have hp : p = (off, v) := (List.mem_cons.1 hv).resolve_right hin |>.symm
        subst hp
        have hlater : off ∉ l.map Prod.fst := fun hm => by
          obtain ⟨q, hq, hqo⟩ := List.mem_map.1 hm
          exact hin (hu q (List.mem_cons_of_mem _ hq) hqo ▸ hq)
        rw [List.foldl_cons, (State.writeShadows_regsOnly l _).2 off hlater, State.writeShadow_fields h s _ f hf, if_pos ha]
        exact bits_ofNat ((regFind_fieldsOk h).1 f hf) v

/-! ## COMMIT (R197, R198) -/

theorem failedMask_cons (c : Bool) (cs : List Bool) : failedMask (c :: cs) = (if c then 0 else 1) + 2 * failedMask cs := by
  have hfrom : ∀ (l : List Bool) n, ((l.zipIdx (n + 1)).map fun p => if p.1 then 0 else 2 ^ p.2).sum =
      2 * ((l.zipIdx n).map fun p => if p.1 then 0 else 2 ^ p.2).sum := by
    intro l
    induction l with
    | nil => exact fun _ => rfl
    | cons c l ih =>
      intro n
      rw [List.zipIdx_cons, List.zipIdx_cons, List.map_cons, List.map_cons, List.sum_cons, List.sum_cons, ih, Nat.mul_add]
      congr 1
      cases c
      · exact Nat.pow_succ'
      · rfl
  rw [failedMask, List.zipIdx_cons, List.map_cons, List.sum_cons, hfrom]
  rfl

theorem failedMask_lt (cs : List Bool) : failedMask cs < 2 ^ cs.length := by
  induction cs with
  | nil => exact Nat.one_pos
  | cons c cs ih =>
    rw [failedMask_cons, List.length_cons, Nat.pow_succ]
    split <;> omega

/-- FAILED has the bit of each failing check. -/
theorem bitAt_failedMask (cs : List Bool) (m : Nat) : bitAt (failedMask cs) m = true ↔ cs[m]? = some false := by
  induction cs generalizing m with
  | nil => simp [failedMask, bitAt]
  | cons c cs ih =>
    rw [failedMask_cons]
    cases m with
    | zero =>
      cases c <;> simp [bitAt]
    | succ m =>
      rw [List.getElem?_cons_succ, ← ih]
      have hhalf : ((if c = true then 0 else 1) + 2 * failedMask cs) / 2 = failedMask cs := by
        split <;> omega
      simp only [bitAt, Nat.pow_succ', ← Nat.div_div_eq_div_mul, hhalf]

theorem firstFailed_none {cs : List Bool} (h : ∀ ok ∈ cs, ok = true) : firstFailed cs = none := by
  rw [firstFailed, Option.map_eq_none_iff, List.find?_eq_none]
  intro p hp
  simp [h p.1 (List.fst_mem_of_mem_zipIdx hp)]

theorem firstFailed_some {cs : List Bool} {n : Nat} (h : cs[n]? = some false) (hlow : ∀ m, m < n → cs[m]? = some true) :
    firstFailed cs = some (0x40 + n) := by
  have hfrom : ∀ (l : List Bool) (k n : Nat), l[n]? = some false → (∀ m, m < n → l[m]? = some true) →
      (l.zipIdx k).find? (fun p => !p.1) = some (false, k + n) := by
    intro l
    induction l with
    | nil => exact fun _ _ h => nomatch h
    | cons c l ih =>
      intro k n h hlow
      rw [List.zipIdx_cons]
      cases n with
      | zero =>
        have hc : c = false := by simpa using h
        subst hc
        rfl
      | succ n =>
        have hc : c = true := by simpa using hlow 0 (Nat.succ_pos n)
        subst hc
        rw [List.find?_cons_of_neg (by simp)]
        rw [ih (k + 1) n (by simpa using h) fun m hm => by simpa using hlow (m + 1) (Nat.succ_lt_succ hm)]
        exact congrArg (fun i => some (false, i)) (by omega)
  rw [firstFailed, hfrom cs 0 n h hlow]
  simp

/-- What a commit's checks read: the variant and the registers. -/
theorem State.commitChecks_run (s : State) (ring idx : Nat) (w : Nat → Word) :
    (s.run ring idx).commitChecks w = s.commitChecks w ∧ (s.run ring idx).failedPlane w = s.failedPlane w := ⟨rfl, rfl⟩

theorem length_commitChecks (s : State) (w : Nat → Word) : (s.commitChecks w).length = 16 := rfl

/-- The plane recorded is one of the slots, or 0. -/
theorem State.failedPlane_lt (s : State) (w : Nat → Word) : s.failedPlane w < 2 ^ 3 := by
  unfold State.failedPlane
  split
  · rename_i p hp
    obtain ⟨n, hn, rfl⟩ := List.mem_map.1 (List.mem_of_mem_filter (List.mem_of_find?_eq_some hp))
    obtain ⟨i, hi, rfl⟩ := List.mem_map.1 hn
    have hfield : fieldOf w F.CMP_CTRL_PLANES < 2 ^ 3 := bits_lt _ _ _
    have hi' := List.mem_range.1 hi
    change 1 + i < 2 ^ 3
    omega
  · exact Nat.two_pow_pos 3

/-- A rejection is recorded in CMP_REJECT. -/
theorem State.recordReject_shows (s : State) (w : Nat → Word) : RegsOnly [0xC0008] s (s.recordReject w) ∧
    (s.recordReject w).rd F.CMP_REJECT_FAILED = failedMask (s.commitChecks w) ∧
    (s.recordReject w).rd F.CMP_REJECT_PLANE = s.failedPlane w := by
  have hmask : failedMask (s.commitChecks w) < 2 ^ 16 := failedMask_lt _
  refine ⟨((s.wr_regsOnly F.CMP_REJECT_FAILED _).trans (State.wr_regsOnly _ F.CMP_REJECT_PLANE _)).mono (by decide), ?_, ?_⟩
  · rw [State.recordReject, State.rd_wr_ne _ _ _ _ (by decide) (by decide), State.rd_wr_same _ _ _ (by decide)]
    exact Nat.mod_eq_of_lt hmask
  · rw [State.recordReject, State.rd_wr_same _ _ _ (by decide)]
    exact Nat.mod_eq_of_lt (s.failedPlane_lt w)

/-- What an occurrence carries does not depend on CMP_REJECT or on descriptors. -/
theorem State.heldNow_recordReject (s : State) (w : Nat → Word) (evs : List Nat) (h : ∀ e ∈ evs, e < 512) :
    (s.recordReject w).heldNow evs = s.heldNow evs := by
  have hrd : ∀ {f : Fld}, f.off ≠ 0xC0008 → (s.recordReject w).rd f = s.rd f := fun hf =>
    State.rd_of_word ((s.recordReject_shows w).1.2 _ (by simpa using hf))
  have hlive : ∀ e, e < 512 → (s.recordReject w).evtLive e = s.evtLive e := fun e he => by
    have hoff : (evtEnableFld e).off ≠ 0xC0008 := by
      simp only [evtEnableFld]
      omega
    simp only [State.evtLive, State.rdB, hrd hoff, hrd (f := F.HIF_STATUS_RESET_BUSY) (by decide)]
  have hnow : ∀ e, (s.recordReject w).evtNow e = s.evtNow e := fun e => by
    simp only [State.evtNow, State.frameNo, State.ropeStamp, State.rdB, hrd (f := F.SCN_FRAME_FRAME) (by decide),
      hrd (f := F.TIM_STATUS_VALID) (by decide)]
    rfl
  simp only [State.heldNow, hnow]
  rw [List.filter_congr fun e he => hlive e (h e he)]

theorem commit_passes {ring : Nat} {r : Ring} {d : Desc} {s : State} (h : Passes s ring 0x31 r d [(d.restZero [], Cpl.BAD_FIELD)])
    (hok : ∀ ok ∈ s.commitChecks (snapWord (shOnly s.regs)), ok = true) : exec (.commit ring) s =
      .next ({ s.run ring d.idx with cmp := { s.cmp with transit := some ⟨ring, d.idx, shOnly s.regs, false, false, false⟩ } }) := by
  have hnum := State.nextOp_num h.1
  have hnone : firstFailed ((s.run ring d.idx).commitChecks (snapWord (shOnly (s.run ring d.idx).regs))) = none := firstFailed_none hok
  change Host.Outcome.next (s.withOp ring 0x31 _ _) = _
  rw [withOp_passes h]
  simp only [hnone, hnum]
  rfl

/-- A descriptor with its outcome and the occurrences that its record brings. -/
def endedWith (status info : Nat) (evs : List HeldEvt) (d : Desc) : Desc := { doneAs status info d with evs := evs }

/-- A descriptor that completes with one event. -/
theorem State.complete_event (s : State) (ring idx status info e : Nat) : s.complete ring idx status info 0 [e] =
    (s.modDesc ring idx (endedWith status info (s.heldNow [e]))).evtStatus e := rfl

theorem State.evtStatus_hif (s : State) (e : Nat) : (s.evtStatus e).hif = s.hif := by
  obtain ⟨-, -, hhif⟩ := (s.wr (evtStatusFld e) 1).errLog_regs e
  exact hhif

/-- The state of a rejected commit before its descriptor ends. -/
def State.rejected (s : State) (ring idx : Nat) : State := (s.run ring idx).recordReject (snapWord (shOnly s.regs))

theorem State.rejected_shows (s : State) (ring idx : Nat) : (∀ o, o ≠ 0xC0008 → (s.rejected ring idx).word o = s.word o) ∧
    (s.rejected ring idx).rd F.CMP_REJECT_FAILED = failedMask (s.commitChecks (snapWord (shOnly s.regs))) ∧
    (s.rejected ring idx).rd F.CMP_REJECT_PLANE = s.failedPlane (snapWord (shOnly s.regs)) ∧
    (s.rejected ring idx).hif = (s.run ring idx).hif ∧ (s.rejected ring idx).live = s.live ∧ (s.rejected ring idx).cmp = s.cmp := by
  obtain ⟨⟨hsame, hword⟩, hfailed, hplane⟩ := (s.run ring idx).recordReject_shows (snapWord (shOnly s.regs))
  obtain ⟨hchecks, hfirst⟩ := s.commitChecks_run ring idx (snapWord (shOnly s.regs))
  rw [hchecks] at hfailed
  rw [hfirst] at hplane
  exact ⟨fun o ho => hword o (by simpa using ho), hfailed, hplane, rfl, rfl, rfl⟩

theorem commit_fails {ring n : Nat} {r : Ring} {d : Desc} {s : State} (h : Passes s ring 0x31 r d [(d.restZero [], Cpl.BAD_FIELD)])
    (hn : (s.commitChecks (snapWord (shOnly s.regs)))[n]? = some false)
    (hlow : ∀ m, m < n → (s.commitChecks (snapWord (shOnly s.regs)))[m]? = some true) : exec (.commit ring) s = .next
      (((s.rejected ring d.idx).modDesc ring d.idx (endedWith (0x40 + n) 0 (s.heldNow [Ev.CMP_COMMIT_REJECTED]))).evtStatus
        Ev.CMP_COMMIT_REJECTED) := by
  have hnum := State.nextOp_num h.1
  have hsome : firstFailed ((s.run ring d.idx).commitChecks (snapWord (shOnly (s.run ring d.idx).regs))) = some (0x40 + n) :=
    firstFailed_some hn hlow
  change Host.Outcome.next (s.withOp ring 0x31 _ _) = _
  rw [withOp_passes h]
  simp only [hsome, hnum]
  rw [State.complete_event, State.heldNow_recordReject _ _ _ (by simp [Ev.CMP_COMMIT_REJECTED])]
  rfl

theorem commit_rejects {ring n : Nat} {r : Ring} {d : Desc} {s : State} (h : Passes s ring 0x31 r d [(d.restZero [], Cpl.BAD_FIELD)])
    (hn : (s.commitChecks (snapWord (shOnly s.regs)))[n]? = some false)
    (hlow : ∀ m, m < n → (s.commitChecks (snapWord (shOnly s.regs)))[m]? = some true) :
    Gives (.commit ring) s fun t => Raised Ev.CMP_COMMIT_REJECTED t ∧ t.live = s.live ∧ t.cmp = s.cmp ∧
      t.hif = (s.modDesc ring d.idx (endedWith (0x40 + n) 0 (s.heldNow [Ev.CMP_COMMIT_REJECTED]))).hif ∧
      (∀ m : Nat, bitAt (t.rd F.CMP_REJECT_FAILED) m = true ↔ (s.commitChecks (snapWord (shOnly s.regs)))[m]? = some false) ∧
      t.rd F.CMP_REJECT_PLANE = s.failedPlane (snapWord (shOnly s.regs)) ∧ WordsKept [0xC0008] s t := by
  obtain ⟨hword, hfailed, hplane, hhif, hlive, hcmp⟩ := s.rejected_shows ring d.idx
  have hev := ((s.rejected ring d.idx).modDesc ring d.idx
    (endedWith (0x40 + n) 0 (s.heldNow [Ev.CMP_COMMIT_REJECTED]))).evtStatus_events (src := Ev.CMP_COMMIT_REJECTED) (by decide)
  refine ⟨_, commit_fails h hn hlow, State.evtStatus_set _ (by decide), ?_, ?_, ?_, fun m => ?_, ?_, fun o ho he => ?_⟩
  · rw [hev.rest]
    exact hlive
  · rw [hev.rest]
    exact hcmp
  · rw [State.evtStatus_hif, State.hif_modDesc, hhif, ← State.hif_modDesc]
    exact congrArg State.hif (s.run_modDesc ring d.idx _ fun _ => rfl)
  · rw [hev.rd (by decide), State.rd_modDesc, hfailed]
    exact bitAt_failedMask _ m
  · rw [hev.rd (by decide), State.rd_modDesc, hplane]
  · rw [hev.words o he, State.word_modDesc, hword o (by simpa using ho)]

/-! ## COMMIT_ARRIVE (R200, R220) -/

/-- A commit's descriptor completes as superseded. -/
def State.supersedes (s : State) (c : Commit) : State := s.complete c.ring c.idx Cpl.SUPERSEDED 0 0 [Ev.CMP_COMMIT_SUPERSEDED]

theorem State.supersedes_eq (s : State) (c : Commit) : s.supersedes c =
    (s.modDesc c.ring c.idx (endedWith Cpl.SUPERSEDED 0 (s.heldNow [Ev.CMP_COMMIT_SUPERSEDED]))).evtStatus Ev.CMP_COMMIT_SUPERSEDED := rfl

/-- Beyond descriptors only what an occurrence writes changes. -/
theorem State.supersedes_kept (s : State) (c : Commit) : (∀ o, evtReg o = false → (s.supersedes c).word o = s.word o) ∧
    (s.supersedes c).cmp = s.cmp ∧ (s.supersedes c).scn = s.scn := by
  have hev := (s.modDesc c.ring c.idx (endedWith Cpl.SUPERSEDED 0 (s.heldNow [Ev.CMP_COMMIT_SUPERSEDED]))).evtStatus_events
    (src := Ev.CMP_COMMIT_SUPERSEDED) (by decide)
  rw [State.supersedes_eq]
  refine ⟨fun o he => (hev.words o he).trans (State.word_modDesc ..), ?_, ?_⟩
  · rw [hev.rest]
    rfl
  · rw [hev.rest]
    rfl

/-- Its descriptor ends as SUPERSEDED, and the event's status bit is set. -/
theorem State.supersedes_ends (s : State) (c : Commit) :
    AllDescs c.ring c.idx (fun d => d.status = Cpl.SUPERSEDED) (s.supersedes c) ∧ Raised Ev.CMP_COMMIT_SUPERSEDED (s.supersedes c) := by
  have hd : AllDescs c.ring c.idx (fun d => d.status = Cpl.SUPERSEDED)
      (s.modDesc c.ring c.idx (endedWith Cpl.SUPERSEDED 0 (s.heldNow [Ev.CMP_COMMIT_SUPERSEDED]))) :=
    AllDescs.of_modDesc (Q := fun d => d.status = Cpl.SUPERSEDED)
      (f := endedWith Cpl.SUPERSEDED 0 (s.heldNow [Ev.CMP_COMMIT_SUPERSEDED])) (fun _ => rfl) (fun _ => rfl) s
  rw [State.supersedes_eq]
  exact ⟨hd.of_rings (congrArg HifSt.rings (State.evtStatus_hif _ _)), State.evtStatus_set _ (by decide)⟩

theorem AllDescs.supersedes {ring idx : Nat} {s : State} (h : AllDescs ring idx (fun d => d.status = Cpl.SUPERSEDED) s) (c : Commit) :
    AllDescs ring idx (fun d => d.status = Cpl.SUPERSEDED) (s.supersedes c) := by
  have hd : AllDescs ring idx (fun d => d.status = Cpl.SUPERSEDED)
      (s.modDesc c.ring c.idx (endedWith Cpl.SUPERSEDED 0 (s.heldNow [Ev.CMP_COMMIT_SUPERSEDED]))) :=
    h.modDesc (fun _ => rfl) fun _ _ => rfl
  rw [State.supersedes_eq]
  exact hd.of_rings (congrArg HifSt.rings (State.evtStatus_hif _ _))

/-- The unbound commits gone from the latch logic, before their descriptors end. -/
def State.keepBound (s : State) : State := { s with cmp := { s.cmp with pend := s.cmp.pend.filter Commit.bound } }

theorem State.supersede_kept (s : State) : (∀ o, evtReg o = false → s.supersede.word o = s.word o) ∧
    s.supersede.cmp = { s.cmp with pend := s.cmp.pend.filter Commit.bound } ∧ s.supersede.scn = s.scn := by
  have hkept := keptBy_foldl (P := fun t => (∀ o, evtReg o = false → t.word o = s.word o) ∧ t.cmp = s.keepBound.cmp ∧ t.scn = s.scn)
    (s.cmp.pend.filter fun c => !c.bound) (s := s.keepBound) ⟨fun _ _ => rfl, rfl, rfl⟩
    fun t c (h : (∀ o, evtReg o = false → t.word o = s.word o) ∧ t.cmp = s.keepBound.cmp ∧ t.scn = s.scn) => by
      obtain ⟨hw, hc, hs⟩ := t.supersedes_kept c
      exact ⟨fun o he => (hw o he).trans (h.1 o he), hc.trans h.2.1, hs.trans h.2.2⟩
  exact hkept

theorem State.supersedes_foldl (cs : List Commit) (s : State) : ∀ c ∈ cs,
    Raised Ev.CMP_COMMIT_SUPERSEDED (cs.foldl State.supersedes s) ∧
      AllDescs c.ring c.idx (fun d => d.status = Cpl.SUPERSEDED) (cs.foldl State.supersedes s) := by
  induction cs generalizing s with
  | nil => exact List.forall_mem_nil _
  | cons c cs ih =>
    intro x hx
    rcases List.mem_cons.1 hx with rfl | hx
    · obtain ⟨hdescs, hraised⟩ := s.supersedes_ends x
      exact ⟨keptBy_foldl (P := Raised Ev.CMP_COMMIT_SUPERSEDED) cs hraised fun t c _ => (t.supersedes_ends c).2,
        keptBy_foldl (P := AllDescs x.ring x.idx fun d => d.status = Cpl.SUPERSEDED) cs hdescs fun _ c h => h.supersedes c⟩
    · exact ih _ x hx

theorem State.supersede_ends (s : State) : ∀ c ∈ s.cmp.pend, c.bound = false →
    Raised Ev.CMP_COMMIT_SUPERSEDED s.supersede ∧ AllDescs c.ring c.idx (fun d => d.status = Cpl.SUPERSEDED) s.supersede :=
  fun c hc hb => State.supersedes_foldl (s.cmp.pend.filter fun c => !c.bound) s.keepBound c
    (List.mem_filter.2 ⟨hc, by simp [hb]⟩)

/-- The validated commit joins the pending ones. -/
def State.joins (s : State) (c : Commit) : State :=
  { s with cmp := { s.cmp with
      transit := none
      pend := s.cmp.pend ++ [{ c with late := false, afterGuard := s.scn.guarded && !s.scn.decided }] } }

/-- SCN_LAST_COMMIT for a commit that arrives. -/
def State.showArrival (s : State) : State :=
  ((s.wr F.SCN_LAST_COMMIT_LINE s.scn.line).wrB F.SCN_LAST_COMMIT_AFTER_GUARD (s.scn.guarded && !s.scn.decided)).wrB
    F.SCN_LAST_COMMIT_LATE false

theorem State.showArrival_shows (s : State) : RegsOnly [0xD0048] s s.showArrival ∧
    s.showArrival.rd F.SCN_LAST_COMMIT_LINE = s.scn.line % 2 ^ 12 ∧
    s.showArrival.rd F.SCN_LAST_COMMIT_AFTER_GUARD = (if s.scn.guarded = true ∧ s.scn.decided = false then 1 else 0) ∧
    s.showArrival.rd F.SCN_LAST_COMMIT_LATE = 0 := by
  refine ⟨(((s.wr_regsOnly F.SCN_LAST_COMMIT_LINE _).trans (State.wrB_regsOnly _ F.SCN_LAST_COMMIT_AFTER_GUARD _)).trans
    (State.wrB_regsOnly _ F.SCN_LAST_COMMIT_LATE _)).mono (by decide), ?_, ?_, ?_⟩
  all_goals
    unfold State.showArrival
    simp (disch := decide) only [State.wrB, State.rd_wr_same, State.rd_wr_ne]
  · rfl
  · cases s.scn.guarded <;> cases s.scn.decided <;> rfl
  · rfl

/-- CMP_STATUS shows whether a commit is pending and whether one is bound. -/
theorem State.commitBits_shows (s : State) : RegsOnly [0xC0004] s s.commitBits ∧
    s.commitBits.rd F.CMP_STATUS_PENDING = b2n (!s.cmp.pend.isEmpty) ∧
    s.commitBits.rd F.CMP_STATUS_BOUND = b2n (s.cmp.pend.any Commit.bound) := by
  have hbit : ∀ b, b2n b % 2 ^ 1 = b2n b := fun b => by cases b <;> rfl
  refine ⟨((s.wrB_regsOnly F.CMP_STATUS_PENDING _).trans (State.wrB_regsOnly _ F.CMP_STATUS_BOUND _)).mono (by decide), ?_, ?_⟩
  all_goals
    unfold State.commitBits
    simp (disch := decide) only [State.wrB, State.rd_wr_same, State.rd_wr_ne]
    exact hbit _

/-- The rest of an arrival: the commit joins, is shown, and its descriptor stays outstanding. -/
def State.arrives (s : State) (c : Commit) : State := ((s.joins c).showArrival.park c.ring c.idx).commitBits

theorem State.commitArrive_eq {s : State} {c : Commit} (h : s.cmp.transit = some c) : s.commitArrive = s.supersede.arrives c := by
  simp only [State.commitArrive, h]
  rfl

theorem State.arrives_cmp (s : State) (c : Commit) : (s.arrives c).cmp = (s.joins c).cmp := rfl

theorem State.arrives_rings (s : State) (c : Commit) :
    (s.arrives c).hif.rings = (s.modDesc c.ring c.idx fun d => { d with phase := .parked }).hif.rings := rfl

theorem State.word_park (s : State) (ring idx o : Nat) : (s.park ring idx).word o = s.word o := rfl

theorem State.arrives_shows (s : State) (c : Commit) : (s.arrives c).rd F.SCN_LAST_COMMIT_LINE = s.scn.line % 2 ^ 12 ∧
    (s.arrives c).rd F.SCN_LAST_COMMIT_AFTER_GUARD = (if s.scn.guarded = true ∧ s.scn.decided = false then 1 else 0) ∧
    (s.arrives c).rd F.SCN_LAST_COMMIT_LATE = 0 ∧ (s.arrives c).rd F.CMP_STATUS_PENDING = 1 ∧
    ∀ o, o ∉ [0xC0004, 0xD0048] → (s.arrives c).word o = s.word o := by
  obtain ⟨hregs, hline, hafter, hlate⟩ := (s.joins c).showArrival_shows
  obtain ⟨hbits, hpending, -⟩ := ((s.joins c).showArrival.park c.ring c.idx).commitBits_shows
  have hrd : ∀ {f : Fld}, f.off = 0xD0048 → (s.arrives c).rd f = (s.joins c).showArrival.rd f := fun hf =>
    State.rd_of_word ((hbits.2 _ (by rw [hf]; decide)).trans (State.word_park ..))
  have hsome : ((s.joins c).showArrival.park c.ring c.idx).cmp.pend ≠ [] := List.append_ne_nil_of_right_ne_nil _ (by simp)
  refine ⟨(hrd rfl).trans hline, (hrd rfl).trans hafter, (hrd rfl).trans hlate, hpending.trans ?_, fun o ho => ?_⟩
  · simp [hsome, b2n]
  · simp only [List.mem_cons, List.not_mem_nil, or_false, not_or] at ho
    exact (hbits.2 o (by simpa using ho.1)).trans ((State.word_park ..).trans (hregs.2 o (by simpa using ho.2)))

theorem commitArrive_joins (c : Commit) (s : State) (h : s.cmp.transit = some c) : Gives .commitArrive s fun t =>
    t.cmp = { s.cmp with
      transit := none
      pend := (s.cmp.pend.filter fun p => p.bound) ++ [{ c with late := false, afterGuard := s.scn.guarded && !s.scn.decided }] } ∧
    t.rd F.SCN_LAST_COMMIT_LINE = s.scn.line % 2 ^ 12 ∧
    t.rd F.SCN_LAST_COMMIT_AFTER_GUARD = (if s.scn.guarded = true ∧ s.scn.decided = false then 1 else 0) ∧
    t.rd F.SCN_LAST_COMMIT_LATE = 0 ∧ t.rd F.CMP_STATUS_PENDING = 1 ∧ WordsKept [0xC0004, 0xD0048] s t ∧
    (∀ p ∈ s.cmp.pend, p.bound = false → Raised Ev.CMP_COMMIT_SUPERSEDED t ∧
      ∀ d ∈ t.descsOf p.ring, d.idx = p.idx → d.status = Cpl.SUPERSEDED) := by
  obtain ⟨hword, hcmp, hscn⟩ := s.supersede_kept
  obtain ⟨hline, hafter, hlate, hpending, hrest⟩ := s.supersede.arrives_shows c
  rw [hscn] at hline hafter
  have hexec : exec .commitArrive s = .next (s.supersede.arrives c) := congrArg Host.Outcome.next (State.commitArrive_eq h)
  refine ⟨_, hexec, ?_, hline, hafter, hlate, hpending, fun o ho he => (hrest o ho).trans (hword o he), fun p hp hb => ?_⟩
  · rw [State.arrives_cmp, State.joins, hcmp, hscn]
  · obtain ⟨hraised, hdescs⟩ := s.supersede_ends p hp hb
    refine ⟨?_, ?_⟩
    · unfold Raised
      rw [State.rd_of_word (hrest _ (by decide))]
      exact hraised
    · have hparked : AllDescs p.ring p.idx (fun d => d.status = Cpl.SUPERSEDED)
          (s.supersede.modDesc c.ring c.idx fun d => { d with phase := .parked }) := hdescs.modDesc (fun _ => rfl) fun _ h => h
      exact (hparked.of_rings (s.supersede.arrives_rings c)).descsOf

/-! ## SHADOW_WRITE runs -/

theorem shadowWrite_writes (ring : Nat) (r : Ring) (d : Desc) (s : State)
    (h : Passes s ring 0x30 r d [(d.restZero [(8, 1), (16, 48)] && decide (1 ≤ byteAt d.bytes 8) && decide (byteAt d.bytes 8 ≤ 6) &&
      d.pairs.all fun p => !(shFields p.1).isEmpty, Cpl.BAD_FIELD)]) :
    Gives (.shadowWrite ring) s fun t => t.hif = (s.modDesc ring d.idx (doneAs Cpl.SUCCESS 0)).hif ∧
      t = { s with regs := t.regs, hif := t.hif } ∧ (∀ o, o ∉ d.pairs.map Prod.fst → t.word o = s.word o) ∧
      ∀ p ∈ d.pairs, (∀ q ∈ d.pairs, q.1 = p.1 → q = p) → ∀ x, regFind p.1 = some x → ∀ f ∈ x.fields,
        bits (t.word p.1).toNat f.1 f.2.1 =
          if f.2.2 = .sh then bits p.2 f.1 f.2.1 else bits (s.word p.1).toNat f.1 f.2.1 := by
  have hnum := State.nextOp_num h.1
  have hfields := fun {off : Nat} {x : RegDesc} (hx : regFind off = some x) {f : Nat × Nat × Acc} (hf : f ∈ x.fields) =>
    State.writeShadows_fields hx hf d.pairs (s.run ring d.idx)
  obtain ⟨hsame, hword⟩ := State.writeShadows_regsOnly d.pairs (s.run ring d.idx)
  generalize hu : d.pairs.foldl (fun s p => s.writeShadow p.1 (BitVec.ofNat 32 p.2)) (s.run ring d.idx) = u at hfields hsame hword
  have he : exec (.shadowWrite ring) s = .next (u.modDesc ring d.idx (doneAs Cpl.SUCCESS 0)) := by
    change Host.Outcome.next (s.withOp ring 0x30 _ _) = _
    rw [withOp_passes h, State.complete_plain, hnum, hu]
  have hhif : u.hif = (s.run ring d.idx).hif := by rw [hsame]
  refine ⟨_, he, ?_, ?_, fun o ho => (State.word_modDesc ..).trans ((hword o ho).trans (State.word_run ..)), fun p hp hu x hx f hf => ?_⟩
  · rw [State.hif_modDesc, hhif, ← State.hif_modDesc, State.run_done]
  · rw [hsame]
    rfl
  · obtain ⟨hother, hsh⟩ := hfields hx hf
    rw [State.word_modDesc]
    split
    case isTrue ha => exact hsh p.2 hp hu ha
    case isFalse ha => exact hother ha

/-! ## GUARD_POINT (R221, R405) -/

/-- The commits after a guard point: the oldest is bound. -/
def bindFirst : List Commit → List Commit
  | [] => []
  | c :: cs => { c with bound := true } :: cs

/-- The guard point's own marks, before status bits and decoder. -/
def State.guardMarks (s : State) : State :=
  { s with
    cmp := { s.cmp with pend := bindFirst s.cmp.pend }
    scn := { s.scn with guarded := true, missT := some (s.geo.startOf s.scn.next) } }

/-- An entry to S1 that waits takes the frame to come as its capture frame. -/
def State.takeCapture (s : State) : State :=
  if s.pwr.capturing && s.pwr.captureFrame.isNone then { s with pwr := { s.pwr with captureFrame := some s.scn.next } } else s

theorem State.guardPoint_eq (s : State) : s.guardPoint = s.guardMarks.commitBits.decGuard.takeCapture := by
  unfold State.guardPoint State.guardMarks
  cases s.cmp.pend <;> rfl

theorem State.takeCapture_rest (s : State) : s.takeCapture = { s with pwr := s.takeCapture.pwr } ∧
    s.takeCapture.pwr = if s.pwr.capturing = true ∧ s.pwr.captureFrame = none then { s.pwr with captureFrame := some s.scn.next }
      else s.pwr := by
  unfold State.takeCapture
  by_cases hc : s.pwr.capturing = true ∧ s.pwr.captureFrame = none
  · rw [if_pos hc, if_pos (by simp [hc.1, hc.2])]
    exact ⟨rfl, rfl⟩
  · rw [if_neg hc, if_neg (by simpa using hc)]
    exact ⟨rfl, rfl⟩

theorem guardPoint_binds (s : State) (hd : s.latchDue = true) (hg : s.scn.guarded = false) : Gives .guardPoint s fun t =>
    t.scn = { s.scn with guarded := true, missT := some (s.geo.startOf s.scn.next) } ∧
    (∀ (c : Commit) (cs : List Commit), s.cmp.pend = c :: cs → t.cmp = { s.cmp with pend := { c with bound := true } :: cs } ∧
      t.rd F.CMP_STATUS_BOUND = 1) ∧
    (s.cmp.pend = [] → t.cmp = s.cmp ∧ t.rd F.CMP_STATUS_BOUND = 0) ∧ (∀ o, o ≠ 0xC0004 → t.word o = s.word o) ∧
    t.pwr = if s.pwr.capturing = true ∧ s.pwr.captureFrame = none then { s.pwr with captureFrame := some s.scn.next } else s.pwr := by
  obtain ⟨hbits, -, hbound⟩ := s.guardMarks.commitBits_shows
  obtain ⟨hrest, hpwr⟩ := s.guardMarks.commitBits.decGuard.takeCapture_rest
  refine gives_pos rfl (by simp [hd, hg]) ?_
  rw [State.guardPoint_eq]
  have hword : ∀ o, s.guardMarks.commitBits.decGuard.takeCapture.word o = s.guardMarks.commitBits.word o := fun o => by
    rw [hrest]
    rfl
  have hcmp : s.guardMarks.commitBits.decGuard.takeCapture.cmp = s.guardMarks.cmp := by
    rw [hrest]
    rfl
  have hshown : s.guardMarks.commitBits.decGuard.takeCapture.rd F.CMP_STATUS_BOUND = b2n ((bindFirst s.cmp.pend).any Commit.bound) :=
    (State.rd_of_word (hword _)).trans hbound
  refine ⟨by rw [hrest]; rfl, fun c cs hc => ⟨?_, ?_⟩, fun hn => ⟨?_, ?_⟩, fun o ho => ?_, hpwr⟩
  · rw [hcmp, State.guardMarks, hc]
    rfl
  · rw [hshown, hc]
    rfl
  · rw [hcmp, State.guardMarks, hn]
    exact congrArg (fun l => ({ s.cmp with pend := l } : CmpSt)) hn.symm
  · rw [hshown, hn]
    rfl
  · exact (hword o).trans (hbits.2 o (by simpa using ho))

/-! ## RETIRE_ENABLE (R206) -/

theorem State.retireCfg_shows (s : State) (log2 : Nat) :
    let u := (s.wrB F.CMP_RETIRE_CFG_EN true).wr F.CMP_RETIRE_CFG_LOG2_SIZE log2
    RegsOnly [0xC0018] s u ∧ u.rd F.CMP_RETIRE_CFG_EN = 1 ∧ u.rd F.CMP_RETIRE_CFG_LOG2_SIZE = log2 % 16 := by
  refine ⟨((s.wrB_regsOnly F.CMP_RETIRE_CFG_EN true).trans (State.wr_regsOnly _ F.CMP_RETIRE_CFG_LOG2_SIZE log2)).mono (by decide), ?_, ?_⟩
  · simp (disch := decide) only [State.wrB, State.rd_wr_same, State.rd_wr_ne]
    rfl
  · simp (disch := decide) only [State.rd_wr_same]
    rfl

theorem retireEnable_restarts (log2 : Nat) (s : State) (ho : s.bar0Open = true) :
    Gives (.retireEnable log2) s fun t => t.rd F.CMP_RETIRE_CFG_EN = 1 ∧ t.rd F.CMP_RETIRE_CFG_LOG2_SIZE = log2 % 16 ∧
      RegsOnly [0xC0018] ({ s with cmp := t.cmp } : State) t ∧
      (s.rd F.CMP_RETIRE_CFG_EN = 1 → t.cmp = s.cmp) ∧
      (s.rd F.CMP_RETIRE_CFG_EN = 0 → 6 ≤ log2 → log2 ≤ 12 → t.cmp = { s.cmp with
        retIdx := 0
        retBase := s.rd F.CMP_RETIRE_BASE_LO_ADDR_LO * 2 ^ 12 + s.rd F.CMP_RETIRE_BASE_HI_ADDR_HI * 2 ^ 32
        retLog2 := log2 }) := by
  obtain ⟨hregs, hen, hlog⟩ := s.retireCfg_shows log2
  refine gives_pos rfl ho ?_
  unfold State.writeRetireCfg
  dsimp only
  split
  case isTrue hold =>
    have h0 : s.rd F.CMP_RETIRE_CFG_EN ≠ 1 := by
      simpa [State.rdB] using hold
    refine ⟨hen, hlog, ⟨rfl, hregs.2⟩, fun h => absurd h h0, fun _ hlo hhi => ?_⟩
    have hmod : log2 % 16 = log2 := Nat.mod_eq_of_lt (by omega)
    rw [hmod, if_pos ⟨hlo, hhi⟩, State.rd_of_word (f := F.CMP_RETIRE_BASE_LO_ADDR_LO) (hregs.2 0xC0010 (by decide)),
      State.rd_of_word (f := F.CMP_RETIRE_BASE_HI_ADDR_HI) (hregs.2 0xC0014 (by decide))]
    rfl
  case isFalse hold =>
    have h1 : s.rd F.CMP_RETIRE_CFG_EN = 1 := by
      simpa [State.rdB] using hold
    exact ⟨hen, hlog, ⟨rfl, hregs.2⟩, fun _ => rfl, fun h0 => by omega⟩

/-- Settles O32: a commit from its shadow writes to its guard point, and the retire ring's start. -/
theorem commitsAreValidatedAndBound : Obligations.CommitsAreValidatedAndBound := by
  unfold Obligations.CommitsAreValidatedAndBound
  exact ⟨shadowWrite_writes, fun ring r d s h => ⟨fun hok => commit_passes h hok, fun n hn hlow => commit_rejects h hn hlow⟩,
    commitArrive_joins, guardPoint_binds, retireEnable_restarts⟩

end Sys2Proof.Machine
end

section
/-!
PROOFS. What messages and rates of the rope may change (R340 to R350), and what the event path leaves of the logbook (R450).
-/
namespace Sys2Proof.Machine

/-! ## Moves of the rope and its lanes -/

/-- The registers of the time unit, the rope and the lanes, from TIM up but for the port states of the panel (Table 0-5). -/
def wireReg (off : Nat) : Bool := decide (0x70000 ≤ off) && off != 0xE0010

/-- What the rope does keeps `P`: changes of pitches and lanes, draws, timestamps, registers of the time unit and above, events. -/
structure WireClosed (P : State → Prop) : Prop where
  wire : ∀ {s t : State}, WireOnly s t → P s → P t
  draw : ∀ {s : State} (n : Nat), P s → P (s.drawn n)
  setTim : ∀ {s : State} (x : TimSt), P s → P { s with tim := x }
  wr : ∀ {s : State} {f : Fld} (v : Nat), wireReg f.off = true → P s → P (s.wr f v)
  raise : ∀ {s : State} (e : Nat), P s → P (s.raise e)

theorem wireReg_lane (n : Nat) : wireReg (F.LNK_L_STATUS_IDLE n).off = true := by
  have hoff : (F.LNK_L_STATUS_IDLE n).off = 0xF1004 + 0x40 * n := rfl
  rw [hoff, wireReg, Bool.and_eq_true]
  exact ⟨decide_eq_true (by omega), bne_iff_ne.2 (by omega)⟩

namespace WireClosed

variable {P : State → Prop} (c : WireClosed P) {s : State}
include c

theorem modPitch (p : Port) (f : Pitch → Pitch) (h : P s) : P (s.modPitch p f) := c.wire (s.modPitch_wire p f) h

theorem modLane (n : Nat) (f : Lane → Lane) (h : P s) : P (s.modLane n f) := c.wire rfl h

theorem ropeOut (p : Port) (l : Nat) (msg : List Byte) (h : P s) : P (s.ropeOut p l msg) := c.wire (s.ropeOut_wire p l msg) h

theorem sendLocal (p : Port) (msg : List Byte) (h : P s) : P (s.sendLocal p msg) := by
  unfold State.sendLocal
  split
  · exact c.ropeOut p _ msg h
  · exact h

theorem txIdle (n : Nat) (idle : Bool) (h : P s) : P (s.txIdle n idle) :=
  c.wr _ (wireReg_lane n) (c.modLane n _ (c.modLane n _ h))

theorem saveFir (n : Nat) (h : P s) : P (s.saveFir n) := keptBy_ite (c.modLane n _ h) (c.modLane n _ h)

theorem freeBlocks (p : Port) (mail : Bool) (b : Nat) (h : P s) : P (s.freeBlocks p mail b) := c.modPitch p _ h

theorem freeSource (m : HopMsg) (h : P s) : P (s.freeSource m) := c.wire (s.freeSource_wire m) h

theorem tsqPush (e : TsqEntry) (h : P s) : P (s.tsqPush e) := keptBy_ite (c.setTim _ h) (c.raise _ (c.wr _ rfl h))

theorem startHop (p : Port) (l : Nat) (m : HopMsg) (lead : Nat) (h : P s) : P (s.startHop p l m lead) := by
  have hout := c.modPitch p (fun q => { q with sent := q.sent.modify (b2n m.mail) fun n => (n + m.blocks) % 2 ^ 24 })
    (c.ropeOut p l m.bytes h)
  have hfree := c.freeSource m hout
  unfold State.startHop
  dsimp only
  split
  · exact c.tsqPush _ hfree
  · exact hfree

theorem tryHop (p : Port) (mail : Bool) (lead : Nat) (h : P s) : P (s.tryHop p mail lead) := by
  unfold State.tryHop
  split
  · exact h
  split
  · exact keptBy_ite (c.startHop p _ _ lead (c.modPitch p _ h)) h
  · exact h

theorem mailDrop (h : P s) : P s.mailDrop := c.raise _ (c.wr _ rfl h)

theorem dropHop (m : HopMsg) (h : P s) : P (s.dropHop m) := by
  have hf := c.freeSource m h
  exact keptBy_ite (c.mailDrop hf) hf

theorem queueHop (p : Port) (m : HopMsg) (h : P s) : P (s.queueHop p m) := keptBy_ite (c.modPitch p _ h) (c.dropHop m h)

theorem originate (p : Port) (m : HopMsg) (h : P s) : P (s.originate p m) := c.draw 1 (c.tryHop p m.mail _ (c.queueHop p m h))

theorem takeTs (kind key : Nat) (h : P s) : P (s.takeTs kind key).2 := by
  unfold State.takeTs
  split
  · exact c.setTim _ h
  · exact h

theorem broadcast (type len arg kind key : Nat) (data : List Byte) (h : P s) : P (s.broadcast type len arg kind key data) :=
  keptBy_ite (c.originate .dn _ (c.originate .up _ (c.takeTs kind key h))) h

theorem alarm (code bit : Nat) (h : P s) : P (s.alarm code bit) := keptBy_ite (c.broadcast _ _ _ _ _ _ h) h

/-! ## The rate of a pitch (R345, R347, R348) -/

theorem settleLanes (p : Port) (h : P s) : P (s.settleLanes p) := by
  have hw : P (s.wr (pf p F.ROPE_UP_STATE_LANES) (s.carryMask p)) := c.wr _ (by cases p <;> rfl) h
  have hf := keptBy_foldl (f := fun t i => if bitAt (s.carryMask p) i && !bitAt (s.rd (pf p F.ROPE_UP_STATE_LANES)) i then
    t.saveFir (p.lane0 + i) else t) [0, 1] hw fun _ _ h => keptBy_ite (c.saveFir _ h) h
  exact keptBy_ite (c.raise _ hf) hf

theorem retrainPitch (p : Port) (h : P s) : P (s.retrainPitch p) :=
  c.settleLanes p (keptBy_foldl _ (c.modPitch p _ h) fun _ n h => c.txIdle n true h)

theorem checkRate (p : Port) (h : P s) : P (s.checkRate p) := keptBy_ite (c.retrainPitch p h) h

theorem powerPitch (p : Port) (h : P s) : P (s.powerPitch p) :=
  keptBy_ite h (c.checkRate p (keptBy_ite (c.sendLocal p _ h) h))

theorem ropePower (h : P s) : P s.ropePower := c.powerPitch .dn (c.powerPitch .up h)

end WireClosed

/-! ## The logbook past the error log (R449, R450) -/

/-- From `s` to `t` the logbook stays canonical, and past the error log its bytes stay. -/
def LogKept (s t : State) : Prop :=
  cellsWf (fun _ => (0 : Byte)) s.nvs.log = true → cellsWf (fun _ => (0 : Byte)) t.nvs.log = true ∧ ∀ a, 0x8000 ≤ a → t.logByte a = s.logByte a

theorem LogKept.refl (s : State) : LogKept s s := fun h => ⟨h, fun _ _ => rfl⟩

theorem LogKept.trans {s t u : State} (h : LogKept s t) (k : LogKept t u) : LogKept s u := fun hs =>
  have ht := h hs
  have hu := k ht.1
  ⟨hu.1, fun a ha => (hu.2 a ha).trans (ht.2 a ha)⟩

theorem LogKept.of_log {s t : State} (h : t.nvs.log = s.nvs.log) : LogKept s t := by
  intro hs
  unfold State.logByte
  rw [h]
  exact ⟨hs, fun _ _ => rfl⟩

theorem length_leBytes (v n : Nat) : (leBytes v n).length = n := by
  induction n generalizing v with
  | zero => rfl
  | succ n ih => exact congrArg (· + 1) (ih (v / 256))

theorem length_errLogBytes (s : State) (seq src rt frame ctr : Nat) : (errLogBytes s seq src rt frame ctr).length = 64 := by
  unfold errLogBytes
  split <;> simp [length_leBytes]

theorem State.errLogWrite_log (s : State) (src rt frame : Nat) : LogKept s (s.errLogWrite src rt frame) := by
  intro hs
  refine ⟨cellPut_wf _ _ hs, fun a ha => ?_⟩
  have hslot : s.nvs.errSeq % 448 < 448 := Nat.mod_lt _ (by decide)
  refine (cellGet_cellPut hs _ a _).trans (dif_neg ?_)
  rw [length_errLogBytes]
  omega

theorem State.errLog_log (s : State) (src : Nat) : LogKept s (s.errLog src) := by
  unfold State.errLog
  dsimp only
  split
  · exact .refl s
  split
  · exact .of_log rfl
  · exact .trans (.of_log rfl) (State.errLogWrite_log _ _ _ _)

theorem State.evtStatus_log (s : State) (src : Nat) : LogKept s (s.evtStatus src) :=
  (LogKept.of_log (t := s.wr (evtStatusFld src) 1) rfl).trans (State.errLog_log _ src)

theorem State.evtStart_log (s : State) (src : Nat) : LogKept s (s.evtStart src) := keptBy_ite (.refl s) (.of_log rfl)

theorem State.evtHold_log (s : State) (h : HeldEvt) (running : Bool) : LogKept s (s.evtHold h running) := by
  unfold State.evtHold
  split
  · exact keptBy_ite (.of_log rfl) (.of_log rfl)
  · exact .of_log rfl

theorem State.evtOccur_log (s : State) (h : HeldEvt) {deliver : State → State} (hd : ∀ s, LogKept s (deliver s)) :
    LogKept s (s.evtOccur h deliver) :=
  keptBy_ite (.refl s) (keptBy_ite (s.evtHold_log h false) (keptBy_ite (s.evtHold_log h true)
    ((hd s).trans (State.evtStart_log _ h.src))))

theorem State.raiseOvf_log (s : State) : LogKept s s.raiseOvf :=
  (s.evtStatus_log 481).trans (State.evtOccur_log _ _ fun _ => .of_log rfl)

/-- A record for the event ring is lost (R392). -/
def State.loseRecord (s : State) : State :=
  let t := (s.bump F.EVT_CNT_LOST_COUNT).wrB F.EVT_RING_STATUS_OVF true
  { t with evt := { t.evt with lost := true } }

theorem State.deliver_log (s : State) (src count frame rt : Nat) : LogKept s (s.deliver src count frame rt) :=
  have hlost : LogKept s (s.loseRecord).raiseOvf := (LogKept.of_log (t := s.loseRecord) rfl).trans (State.raiseOvf_log _)
  keptBy_ite (keptBy_ite (.of_log rfl) hlost) (.of_log rfl)

theorem State.occurNow_log (s : State) (h : HeldEvt) : LogKept s (s.occurNow h) :=
  s.evtOccur_log h fun s => s.deliver_log h.src 1 h.frame h.rt

theorem State.occurHeld_log (s : State) (h : HeldEvt) : LogKept s (s.occurHeld h) := by
  unfold State.occurHeld
  split
  · exact .of_log rfl
  · exact s.occurNow_log h

theorem State.raise_log (s : State) (src : Nat) : LogKept s (s.raise src) :=
  keptBy_ite ((s.evtStatus_log src).trans (keptBy_ite (State.occurHeld_log _ _) (.refl _))) (.refl s)

/-- A logbook write past the error log reads as written. -/
theorem logByte_putLog {s : State} (h : cellsWf (fun _ => (0 : Byte)) s.nvs.log = true) (a i : Nat) (bs : List Byte) (hi : i < bs.length) :
    ({ s with nvs := s.nvs.putLog a bs } : State).logByte (a + i) = bs[i] := by
  refine (cellGet_cellPut h a (a + i) bs).trans ((dif_pos ⟨Nat.le_add_right a i, by omega⟩).trans ?_)
  simp only [Nat.add_sub_cancel_left]

end Sys2Proof.Machine
end

section
/-!
PROOFS. What a load shed leaves as its warning has put it: the power stage, the cairn record, and the descriptors of the ADMIN ring
(R400, R401, Table 16-2).
-/
namespace Sys2Proof.Machine

/-! ## What no part of a shed undoes -/

/-- The descriptor has ended with ABORTED. -/
def AbortedDesc (d : Desc) : Prop := d.phase = .done ∧ d.status = Cpl.ABORTED

/-- A ring numbered 0 is the ADMIN ring (Table 2-3). -/
def AdminOnly (s : State) : Prop := ∀ r ∈ s.hif.rings, r.num = 0 → r.cls = Cls.ADMIN

/-- From `r` to `t` status bits stay set, settings in force and the cairn records stay, and so do aborted ADMIN descriptors. -/
structure Lasting (r t : State) : Prop where
  status : ∀ src, src < 512 → Raised src r → Raised src t
  live : t.live = r.live
  seq : t.nvs.cairnSeq = r.nvs.cairnSeq
  log : LogKept r t
  admin : AdminOnly r → AdminOnly t
  ended : AdminOnly r → ∀ idx, AllDescs 0 idx AbortedDesc r → AllDescs 0 idx AbortedDesc t

theorem Lasting.refl (s : State) : Lasting s s := ⟨fun _ _ h => h, rfl, rfl, .refl s, id, fun _ _ => id⟩

theorem Lasting.trans {s t u : State} (h : Lasting s t) (k : Lasting t u) : Lasting s u where
  status e he hs := k.status e he (h.status e he hs)
  live := k.live.trans h.live
  seq := k.seq.trans h.seq
  log := h.log.trans k.log
  admin ha := k.admin (h.admin ha)
  ended ha idx hd := k.ended (h.admin ha) idx (h.ended ha idx hd)

/-- A state with the same rings and stores, and the status bits of the other. -/
theorem Lasting.of_same {s t : State} (hs : ∀ src, src < 512 → Raised src s → Raised src t) (hl : t.live = s.live)
    (hn : t.nvs.cairnSeq = s.nvs.cairnSeq) (hlog : LogKept s t) (hr : t.hif.rings = s.hif.rings) : Lasting s t where
  status := hs
  live := hl
  seq := hn
  log := hlog
  admin ha := by
    unfold AdminOnly
    rwa [hr]
  ended _ _ hd := hd.of_rings hr

/-- A register outside the event status words is written. -/
theorem Lasting.wr (s : State) {f : Fld} (v : Nat) (hf : 0x20040 ≤ f.off) : Lasting s (s.wr f v) := by
  refine .of_same (fun e he hs => ?_) rfl rfl (.of_log rfl) rfl
  have hne : (evtStatusFld e).off ≠ f.off := by
    simp only [evtStatusFld]
    omega
  exact (State.rd_of_word (s.word_wr_ne f v hne)).trans hs

theorem Lasting.raise (s : State) (e : Nat) : Lasting s (s.raise e) :=
  .of_same (s.raise_events e).status (s.raise_live e) (by rw [(s.raise_events e).nvs]) (s.raise_log e) (s.raise_rings e)

/-- A descriptor ends with ABORTED. -/
theorem Lasting.abortedAs (s : State) (ring idx info cflags : Nat) : Lasting s (s.complete ring idx Cpl.ABORTED info cflags) where
  status _ _ h := h
  live := rfl
  seq := rfl
  log := .of_log rfl
  admin ha := by
    intro r hr hn
    obtain ⟨q, hq, rfl⟩ := mem_modDesc_rings hr
    split at hn
    · rw [if_pos ‹_›]
      exact ha q hq hn
    · rw [if_neg ‹_›]
      exact ha q hq hn
  ended _ _ hd := hd.modDesc (fun _ => rfl) fun _ _ => ⟨rfl, rfl⟩

/-- A ring other than the ADMIN ring is replaced. -/
theorem Lasting.setRing (s : State) {q : Ring} (hq : AdminOnly s → q.num ≠ 0) : Lasting s (s.setRing q) where
  status _ _ h := h
  live := rfl
  seq := rfl
  log := .of_log rfl
  admin ha := by
    intro r hr hn
    obtain ⟨x, hx, rfl⟩ := List.mem_map.1 hr
    split at hn
    · exact absurd hn (hq ha)
    · rw [if_neg ‹_›]
      exact ha x hx hn
  ended ha idx hd := by
    intro r hr hn
    obtain ⟨x, hx, rfl⟩ := List.mem_map.1 hr
    split at hn
    · exact absurd hn (hq ha)
    · rw [if_neg ‹_›]
      exact hd x hx hn

theorem Lasting.releaseLines (s : State) (keep : Nat → Bool) : Lasting s (s.releaseLines keep) where
  status _ _ h := h
  live := rfl
  seq := rfl
  log := .of_log rfl
  admin ha := by
    intro r hr hn
    obtain ⟨x, hx, rfl⟩ := List.mem_map.1 hr
    split at hn
    · rw [if_pos ‹_›]
      exact ha x hx hn
    · rw [if_neg ‹_›]
      exact ha x hx hn
  ended _ idx hd := by
    intro r hr hn
    obtain ⟨x, hx, rfl⟩ := List.mem_map.1 hr
    split at hn
    · rw [if_pos ‹_›]
      exact hd x hx hn
    · rw [if_neg ‹_›]
      exact hd x hx hn

/-! ## Work that leaves the power stage alone -/

/-- From `r` to `t` the power stage and its registers are as they were, and what lasts has lasted. -/
structure Steady (r t : State) : Prop extends Lasting r t where
  pwr : t.pwr = r.pwr
  words : ∀ o, 0x30000 ≤ o → o < 0x40000 → t.word o = r.word o

theorem Steady.refl (s : State) : Steady s s := ⟨.refl s, rfl, fun _ _ _ => rfl⟩

theorem Steady.trans {s t u : State} (h : Steady s t) (k : Steady t u) : Steady s u :=
  ⟨h.toLasting.trans k.toLasting, k.pwr.trans h.pwr, fun o hlo hhi => (k.words o hlo hhi).trans (h.words o hlo hhi)⟩

theorem Steady.raise (s : State) (e : Nat) : Steady s (s.raise e) := by
  refine ⟨.raise s e, s.raise_pwr e, fun o hlo hhi => s.raise_word e ?_⟩
  simp only [evtReg, decide_eq_false (show ¬o < 0x20040 by omega), Bool.and_false, Bool.false_or, Bool.or_eq_false_iff, beq_eq_false_iff_ne]
  omega

theorem Steady.wr (s : State) {f : Fld} (v : Nat) (hf : 0x40000 ≤ f.off) : Steady s (s.wr f v) :=
  ⟨.wr s v (by omega), rfl, fun o _ hhi => s.word_wr_ne f v (by omega)⟩

theorem steady_engine (r : State) : EngineClosed (Steady r) where
  modMem _ h := h.trans ⟨.of_same (fun _ _ h => h) rfl rfl (.of_log rfl) rfl, rfl, fun _ _ _ => rfl⟩
  wr v hf h := h.trans (.wr _ v (of_decide_eq_true hf))
  raise e h := h.trans (.raise _ e)
  parts hp h := by
    rw [hp]
    exact h.trans ⟨.of_same (fun _ _ h => h) rfl rfl (.of_log rfl) rfl, rfl, fun _ _ _ => rfl⟩

theorem steady_wire (r : State) : WireClosed (Steady r) where
  wire hp h := by
    rw [hp]
    exact h.trans ⟨.of_same (fun _ _ h => h) rfl rfl (.of_log rfl) rfl, rfl, fun _ _ _ => rfl⟩
  draw _ h := h.trans ⟨.of_same (fun _ _ h => h) rfl rfl (.of_log rfl) rfl, rfl, fun _ _ _ => rfl⟩
  setTim _ h := h.trans ⟨.of_same (fun _ _ h => h) rfl rfl (.of_log rfl) rfl, rfl, fun _ _ _ => rfl⟩
  wr v hf h := h.trans (.wr _ v ((of_decide_eq_true (Bool.and_eq_true_iff.1 hf).1 : 0x70000 ≤ _).trans' (by decide)))
  raise e h := h.trans (.raise _ e)

/-! ## Aborts of a shed (R401, R406) -/

/-- The transition in progress, if any, is no descriptor's. -/
def NoAdmin (s : State) : Prop := ∀ t, s.pwr.trans = some t → t.admin = none

theorem Steady.abortAdmin {r s : State} (h : Steady r s) (hr : NoAdmin r) (idx : Nat) : Steady r (s.abortAdmin idx) := by
  have hnone : (s.pwr.trans.any fun t => t.admin == some idx) = false := by
    rw [h.pwr, Option.any_eq_false_iff_get]
    intro hs
    rw [hr _ (Option.some_get hs).symm]
    rfl
  unfold State.abortAdmin
  dsimp only
  rw [if_neg (by simp [hnone])]
  exact h.trans ⟨.of_same (fun _ _ h => h) rfl rfl (.of_log rfl) rfl, rfl, fun _ _ _ => rfl⟩

theorem Steady.abortDesc {r s : State} (h : Steady r s) {cls : Nat} (hr : cls = Cls.ADMIN → NoAdmin r) (ring idx : Nat) :
    Steady r (s.abortDesc cls ring idx) := by
  have hb := keptBy_ite (c := cls = Cls.BLT) ((steady_engine r).bltHalt ring idx h) h
  have he := (steady_engine r).abortEffect (cls := cls) ring idx hb fun hc => hb.abortAdmin (hr hc) idx
  exact he.trans ⟨.abortedAs _ ring idx _ _, rfl, fun _ _ _ => rfl⟩

theorem Steady.abortDescs {r s : State} (h : Steady r s) {cls : Nat} (hr : cls = Cls.ADMIN → NoAdmin r) (ring : Nat) (ds : List Desc) :
    Steady r (s.abortDescs cls ring ds) :=
  keptBy_foldl ds h fun _ d h => h.abortDesc hr ring d.idx

theorem Steady.setRing {r s : State} (h : Steady r s) {q : Ring} (hq : AdminOnly r → q.num ≠ 0) : Steady r (s.setRing q) :=
  ⟨{ status := h.status
     live := h.live
     seq := h.seq
     log := h.log
     admin := fun ha => (Lasting.setRing s fun _ => hq ha).admin (h.admin ha)
     ended := fun ha idx hd => (Lasting.setRing s fun _ => hq ha).ended (h.admin ha) idx (h.ended ha idx hd) }, h.pwr, h.words⟩

theorem Steady.abortRing {r s : State} (h : Steady r s) (hr : NoAdmin r) {ring : Nat} (hn : AdminOnly r → ring ≠ 0) (below : Bool) :
    Steady r (s.abortRing ring below).1 := by
  unfold State.abortRing
  split
  case h_1 => exact h
  case h_2 q hq =>
    refine Steady.abortDescs ?_ (fun _ => hr) ring _
    refine keptBy_ite h (h.setRing fun ha => ?_)
    exact fun h0 => hn ha ((State.ring?_num hq).symm.trans h0)

/-- A ring of another class than ADMIN has another number than 0. -/
theorem AdminOnly.num_ne {s : State} (h : AdminOnly s) {x : Ring} (hx : x ∈ s.hif.rings) (hc : x.cls ≠ Cls.ADMIN) : x.num ≠ 0 :=
  fun h0 => hc (h x hx h0)

theorem keptBy_foldl_mem {P : State → Prop} {α : Type} {f : State → α → State} (l : List α) {s : State} (h : P s)
    (hf : ∀ s, ∀ a ∈ l, P s → P (f s a)) : P (l.foldl f s) := by
  induction l generalizing s with
  | nil => exact h
  | cons a l ih => exact ih (hf s a List.mem_cons_self h) fun s b hb => hf s b (List.mem_cons_of_mem a hb)

theorem State.abortClasses_steady {s : State} (hr : NoAdmin s) {sel : Nat → Bool} (hs : sel Cls.ADMIN = false) :
    Steady s (s.abortClasses sel) := by
  refine keptBy_foldl_mem _ (.refl s) fun t x hx h => h.abortRing hr (fun ha => ?_) false
  obtain ⟨hmem, hsel⟩ := List.mem_filter.1 hx
  refine ha.num_ne hmem fun hc => ?_
  rw [hc, hs] at hsel
  cases hsel

/-! ## Leaving S0 (R406, R408) -/

theorem Steady.retireHead {r s : State} (h : Steady r s) {ring : Nat} (hn : AdminOnly r → ring ≠ 0) : Steady r (s.retireHead ring) := by
  unfold State.retireHead
  split
  · exact h
  · rename_i q hq
    split
    · exact h
    · exact keptBy_ite (h.setRing fun ha h0 => hn ha ((State.ring?_num hq).symm.trans h0)) h

/-- With a warning in force no record leaves. -/
theorem State.writeRecord_warned {s : State} (h : s.warned = true) (ring : Nat) : s.writeRecord ring = s := by
  have hl : s.hostLink = false := by
    rcases Bool.or_eq_true_iff.1 h with h | h <;> simp [State.hostLink, h]
  unfold State.writeRecord
  split
  · rfl
  split
  · rfl
  · exact if_neg fun hc => by simp [hl] at hc

theorem Steady.pumpRing {r s : State} (h : Steady r s) (hw : r.warned = true) {ring : Nat} (hn : AdminOnly r → ring ≠ 0) :
    Steady r (s.pumpRing ring) := by
  unfold State.pumpRing
  split
  · exact h
  · refine keptBy_foldl _ (keptBy_foldl _ h fun _ _ h => h.retireHead hn) fun t _ h => ?_
    rwa [State.writeRecord_warned]
    rw [State.warned, h.pwr]
    exact hw

/-- The rings of the engines. -/
def engineClass (r : Ring) : Bool := r.cls == Cls.STREAM || r.cls == Cls.ENC || r.cls == Cls.BLT

theorem engineClass_ne {r : Ring} (h : engineClass r = true) : r.cls ≠ Cls.ADMIN := by
  intro hc
  rw [engineClass, hc] at h
  cases h

theorem State.abortEngines_steady (s : State) : Steady s s.abortEngines :=
  keptBy_foldl_mem _ (.refl s) fun _ x hx h =>
    h.abortDescs (fun hc => absurd hc (engineClass_ne (List.mem_filter.1 hx).2)) x.num x.live

/-- Every engine ring passes its retire points. -/
def State.pumpEngines (s : State) : State := (s.hif.rings.filter engineClass).foldl (fun s r => s.pumpRing r.num) s

/-- Synthesis stops, no frame is shown, and presents and commits wait, none bound. -/
def State.stopShow (s : State) : State :=
  { s.synStop with
    cmp := { s.cmp with pend := s.cmp.pend.map fun c => { c with bound := false, afterGuard := false } }
    scn := { s.scn with
      cur := none, decided := false, guarded := false, presents := s.scn.presents.map fun p => { p with afterGuard := false } } }

/-- What leaving S0 does before the capture frame is given up. -/
def State.goDark (s : State) : State := s.abortEngines.pumpEngines.stopShow.commitBits.wrB F.SCN_STATUS_BLANK true

theorem State.leaveS0_eq (s : State) : s.leaveS0 = s.goDark.modPwr fun p => { p with capturing := false, captureFrame := none } := rfl

theorem State.goDark_steady {s : State} (hw : s.warned = true) : Steady s s.goDark := by
  have ha := s.abortEngines_steady
  have hp : Steady s s.abortEngines.pumpEngines := keptBy_foldl_mem _ ha fun _ x hx h => h.pumpRing hw fun hr => by
    obtain ⟨hmem, hc⟩ := List.mem_filter.1 hx
    exact (ha.admin hr).num_ne hmem (engineClass_ne hc)
  have c := steady_engine s
  exact c.wr _ rfl (c.commitBits (c.parts (s := s.abortEngines.pumpEngines) rfl hp))

end Sys2Proof.Machine
end

section
/-!
PROOFS. Entry to S2 (Table 16-4), and the power-fail warning with its load shed and its end (R400 to R402); the alarms of the input and
the rails (R397, R398).
-/
namespace Sys2Proof.Machine

/-! ## What a shed shows -/

/-- The fields that show a shed. -/
def shedFlds : List Fld := [F.PWR_CNT_COUNT 0, F.PWR_STATUS_SHED, F.PWR_STATUS_SHED_CAUSE, F.PWR_STATUS_PFAIL_PIN]

/-- From `r` to `t` a shed stays as it is shown, the warnings stay in force, and what lasts has lasted. -/
structure ShedKept (r t : State) : Prop extends Lasting r t where
  shown : ∀ f ∈ shedFlds, t.rd f = r.rd f
  warnFrom : t.pwr.warnFrom = r.pwr.warnFrom
  ownWarn : t.pwr.ownWarn = r.pwr.ownWarn
  pinWarn : t.pwr.pinWarn = r.pwr.pinWarn

theorem ShedKept.trans {s t u : State} (h : ShedKept s t) (k : ShedKept t u) : ShedKept s u where
  toLasting := h.toLasting.trans k.toLasting
  shown f hf := (k.shown f hf).trans (h.shown f hf)
  warnFrom := k.warnFrom.trans h.warnFrom
  ownWarn := k.ownWarn.trans h.ownWarn
  pinWarn := k.pinWarn.trans h.pinWarn

theorem ShedKept.warned {s t : State} (h : ShedKept s t) (hs : s.warned = true) : t.warned = true := by
  rw [State.warned, h.ownWarn, h.pinWarn]
  exact hs

theorem Steady.shedKept {s t : State} (h : Steady s t) : ShedKept s t where
  toLasting := h.toLasting
  shown f hf := by
    have hoff : f.off = 0x30010 ∨ f.off = 0x30004 := by
      simp only [shedFlds, List.mem_cons, List.not_mem_nil, or_false] at hf
      rcases hf with rfl | rfl | rfl | rfl <;> simp [F.PWR_CNT_COUNT, F.PWR_STATUS_SHED, F.PWR_STATUS_SHED_CAUSE, F.PWR_STATUS_PFAIL_PIN]
    exact State.rd_of_word (h.words f.off (by omega) (by omega))
  warnFrom := by rw [h.pwr]
  ownWarn := by rw [h.pwr]
  pinWarn := by rw [h.pwr]

theorem ShedKept.refl (s : State) : ShedKept s s := (Steady.refl s).shedKept

/-- The power stage changes, but not its warnings. -/
theorem ShedKept.modPwr (s : State) (f : PwrSt → PwrSt) (hf : (f s.pwr).warnFrom = s.pwr.warnFrom)
    (ho : (f s.pwr).ownWarn = s.pwr.ownWarn) (hp : (f s.pwr).pinWarn = s.pwr.pinWarn) : ShedKept s (s.modPwr f) :=
  ⟨.of_same (fun _ _ h => h) rfl rfl (.of_log rfl) rfl, fun _ _ => rfl, hf, ho, hp⟩

/-- STATE and BUSY stand apart from what a shed shows. -/
theorem ShedKept.wrState (s : State) (v : Nat) : ShedKept s (s.wr F.PWR_STATUS_STATE v) :=
  ⟨.wr s v (by decide), fun g hg => s.rd_wr_ne _ g v (by decide) (by revert g; decide), rfl, rfl, rfl⟩

theorem ShedKept.wrBusy (s : State) (v : Nat) : ShedKept s (s.wr F.PWR_STATUS_BUSY v) :=
  ⟨.wr s v (by decide), fun g hg => s.rd_wr_ne _ g v (by decide) (by revert g; decide), rfl, rfl, rfl⟩

theorem ShedKept.setTrans (s : State) (x : Option PwrTrans) : ShedKept s (s.setTrans x) :=
  (ShedKept.modPwr s (fun p => { p with trans := x }) rfl rfl rfl).trans (.wrBusy _ _)

theorem ShedKept.setPwr (s : State) (st : PwrState) : ShedKept s (s.setPwr st) :=
  (ShedKept.modPwr s (fun p => { p with st := st }) rfl rfl rfl).trans (.wrState _ _)

/-! ## Ports and reference outputs go down (R240, R250) -/

/-- The states of the ports, and what the panel keeps, stand apart from the rope. -/
theorem panelKept_wire (w : Word) (x : PnlSt) : WireClosed fun t => t.word 0xE0010 = w ∧ t.pnl = x where
  wire hp h := by
    rw [hp]
    exact h
  draw _ h := h
  setTim _ h := h
  wr v hf h := ⟨(State.word_wr_ne _ _ v (bne_iff_ne.1 (Bool.and_eq_true_iff.1 hf).2).symm).trans h.1, h.2⟩
  raise e h := ⟨(State.raise_word _ e (by decide)).trans h.1, (State.raise_pnl _ e).trans h.2⟩

theorem State.setPort_word (s : State) (p v : Nat) : (s.setPort p v).word 0xE0010 = (s.wr (portFld p) v).word 0xE0010 := by
  have hw : ((s.wr (portFld p) v).wrB ⟨0xE0004, p, 1⟩ (v == 2)).word 0xE0010 = (s.wr (portFld p) v).word 0xE0010 :=
    State.word_wr_ne _ _ _ (by simp)
  exact keptBy_ite (P := fun t => t.word 0xE0010 = _) hw hw

/-- The lanes of a port fall to electrical idle. -/
def State.idlePort (s : State) (p : Nat) : State := (portLanes p).foldl (fun s n => s.txIdle n true) s

theorem WireClosed.idlePort {P : State → Prop} (c : WireClosed P) {s : State} (p : Nat) (h : P s) : P (s.idlePort p) :=
  keptBy_foldl (portLanes p) h fun _ n h => c.txIdle n true h

theorem State.stopPort_eq (s : State) (p : Nat) (failed : Bool) :
    s.stopPort p failed = ((s.setPort p 0).idlePort p).modPort p fun _ => { PnlPort.reset with failed := failed } := rfl

theorem State.word_modPort (s : State) (p : Nat) (f : PnlPort → PnlPort) (o : Nat) : (s.modPort p f).word o = s.word o := rfl

theorem State.stopPort_word (s : State) (p : Nat) (failed : Bool) :
    (s.stopPort p failed).word 0xE0010 = (s.wr (portFld p) 0).word 0xE0010 := by
  have c := panelKept_wire ((s.setPort p 0).word 0xE0010) (s.setPort p 0).pnl
  rw [State.stopPort_eq, State.word_modPort, (c.idlePort p ⟨rfl, rfl⟩).1]
  exact s.setPort_word p 0

theorem State.stopPort_state (s : State) {p q : Nat} (hp : p < 16) (failed : Bool) :
    (s.stopPort p failed).portState q = if q = p then 0 else s.portState q := by
  refine (State.rd_of_word (s.stopPort_word p failed)).trans ?_
  have hlen : (portFld p).lo + (portFld p).len ≤ 32 := by
    simp only [portFld]
    omega
  split
  · rename_i h
    rw [h]
    exact s.rd_wr_same _ 0 hlen
  · refine s.rd_wr_ne _ _ 0 hlen (.inr ?_)
    simp only [portFld]
    omega

theorem Steady.dcbRestart {r s : State} (h : Steady r s) : Steady r s.dcbRestart := (steady_engine r).parts rfl h

theorem Steady.modPort {r s : State} (h : Steady r s) (p : Nat) (f : PnlPort → PnlPort) : Steady r (s.modPort p f) :=
  (steady_engine r).parts rfl h

theorem Steady.setPort {r s : State} (h : Steady r s) (p v : Nat) : Steady r (s.setPort p v) := by
  have c := steady_engine r
  have hw : Steady r ((s.wr (portFld p) v).wrB ⟨0xE0004, p, 1⟩ (v == 2)) := c.wr _ rfl (c.wr _ rfl h)
  exact keptBy_ite hw.dcbRestart hw

theorem Steady.stopPort {r s : State} (h : Steady r s) (p : Nat) (failed : Bool) : Steady r (s.stopPort p failed) := by
  rw [State.stopPort_eq]
  exact ((steady_wire r).idlePort p (h.setPort p 0)).modPort p _

/-- While the panel does not run, a port is settled by going DOWN. -/
theorem State.settlePort_off {s : State} (h : s.panelOn = false) (p : Nat) :
    s.settlePort p = if s.portState p = 0 then s else s.stopPort p false := by
  unfold State.settlePort
  simp [h]

theorem settlePorts_foldl {s : State} (hs : s.panelOn = false) (l : List Nat) (hl : ∀ p ∈ l, p < 16) {t : State} (h : Steady s t) :
    let u := l.foldl (fun s p => s.settlePort p) t
    Steady s u ∧ ∀ q, q ∈ l ∨ t.portState q = 0 → u.portState q = 0 := by
  induction l generalizing t with
  | nil => exact ⟨h, fun q hq => hq.elim (fun hm => by cases hm) id⟩
  | cons p l ih =>
    have ht : t.panelOn = false := by
      rw [State.panelOn, h.pwr]
      exact hs
    obtain ⟨hst, hdown⟩ := ih (fun q hq => hl q (List.mem_cons_of_mem p hq))
      (keptBy_ite (P := Steady s) (c := t.portState p = 0) h (h.stopPort p false))
    rw [List.foldl_cons, State.settlePort_off ht]
    refine ⟨hst, fun q hq => hdown q ?_⟩
    by_cases hm : q ∈ l
    · exact .inl hm
    right
    split
    · rcases hq with hq | hq
      · obtain rfl := (List.mem_cons.1 hq).resolve_right hm
        assumption
      · exact hq
    · rw [State.stopPort_state t (hl p List.mem_cons_self)]
      split
      · rfl
      · exact hq.resolve_left fun hq => (List.mem_cons.1 hq).elim ‹¬q = p› hm

theorem State.settlePorts_off {s : State} (hs : s.panelOn = false) :
    Steady s s.settlePorts ∧ ∀ p < 16, s.settlePorts.portState p = 0 := by
  obtain ⟨hst, hdown⟩ := settlePorts_foldl hs (List.range 16) (fun p hp => List.mem_range.1 hp) (.refl s)
  exact ⟨hst, fun p hp => hdown p (.inl (List.mem_range.2 hp))⟩

/-- From `s` to `t` only the reference outputs move. -/
def PrefOnly (s t : State) : Prop := t = { s with out := t.out, pnl := { s.pnl with prefV := t.pnl.prefV } }

theorem State.setPref_zero (s : State) (n q : Nat) : PrefOnly s (s.setPref n 0) ∧
    (q = n ∨ s.pnl.prefV.getD q 0 = 0 → (s.setPref n 0).pnl.prefV.getD q 0 = 0) := by
  unfold State.setPref
  split
  case isTrue h =>
    refine ⟨rfl, fun hq => hq.elim (fun e => ?_) id⟩
    rw [e]
    exact h
  case isFalse h =>
    refine ⟨rfl, fun hq => ?_⟩
    change (s.pnl.prefV.set n 0).getD q 0 = 0
    rw [List.getD_eq_getElem?_getD, List.getElem?_set]
    split
    · split <;> rfl
    · rw [← List.getD_eq_getElem?_getD]
      exact hq.resolve_left (Ne.symm ‹_›)

theorem PrefOnly.trans {s t u : State} (h : PrefOnly s t) (k : PrefOnly t u) : PrefOnly s u := by
  unfold PrefOnly at *
  rw [k, h]

theorem setPref_foldl (l : List Nat) (s : State) : let t := l.foldl (fun s n => s.setPref n 0) s
    PrefOnly s t ∧ ∀ q, q ∈ l ∨ s.pnl.prefV.getD q 0 = 0 → t.pnl.prefV.getD q 0 = 0 := by
  induction l generalizing s with
  | nil => exact ⟨rfl, fun q hq => hq.elim (fun hm => by cases hm) id⟩
  | cons n l ih =>
    obtain ⟨hrest, hzero⟩ := ih (s.setPref n 0)
    refine ⟨(s.setPref_zero n 0).1.trans hrest, fun q hq => hzero q ?_⟩
    rcases hq with hq | hq
    · exact (List.mem_cons.1 hq).elim (fun e => .inr ((s.setPref_zero n q).2 (.inl e))) .inl
    · exact .inr ((s.setPref_zero n q).2 (.inr hq))

theorem PrefOnly.pnl {s t : State} (h : PrefOnly s t) : t.pnl.prefOn = s.pnl.prefOn := by rw [h]

theorem PrefOnly.word {s t : State} (h : PrefOnly s t) (o : Nat) : t.word o = s.word o := by
  rw [h]
  rfl

theorem Steady.prefOnly {r s t : State} (hs : Steady r s) (h : PrefOnly s t) : Steady r t := by
  refine (steady_engine r).parts ?_ hs
  rw [h]
  rfl

/-- The reference outputs are no longer driven. -/
def State.undrive (s : State) : State := { s with pnl := { s.pnl with prefOn := false } }

theorem Steady.undrive {r s : State} (h : Steady r s) : Steady r s.undrive := (steady_engine r).parts rfl h

theorem State.word_undrive (s : State) (o : Nat) : s.undrive.word o = s.word o := rfl

theorem State.prefPower_false (s : State) : s.prefPower false = s.undrive.dropPref := rfl

theorem State.dropPref_zero (s : State) : PrefOnly s s.dropPref ∧ ∀ n < 18, s.dropPref.pnl.prefV.getD n 0 = 0 := by
  have hmem : ∀ n < 18, n ∈ upFrom 1 17 ++ [0] := by decide
  unfold State.dropPref
  obtain ⟨hrest, hzero⟩ := setPref_foldl (upFrom 1 17 ++ [0]) s
  exact ⟨hrest, fun n hn => hzero n (.inl (hmem n hn))⟩

/-! ## Entry to S2 (Table 16-4) -/

/-- The power stage of S2. -/
def State.stageS2 (s : State) (from1 : Bool) : State := (s.setPwr .s2).noHolds.modPwr fun p => { p with s2FromS1 := from1 }

theorem State.stageS2_shows (s : State) (from1 : Bool) : ShedKept s (s.stageS2 from1) ∧ (s.stageS2 from1).pwr.st = .s2 ∧
    (s.stageS2 from1).rd F.PWR_STATUS_STATE = 2 :=
  ⟨((ShedKept.setPwr s .s2).trans (.modPwr _ _ rfl rfl rfl)).trans (.modPwr _ _ rfl rfl rfl), rfl,
    State.rd_wr_same (s.modPwr fun p => { p with st := .s2 }) F.PWR_STATUS_STATE 2 (by decide)⟩

/-- Ports go DOWN, the reference outputs ramp to 0 V, and the rope follows. -/
def State.lowPower (s : State) : State := (s.settlePorts.prefPower false).ropePower

theorem State.lowPower_shows {s : State} (hs : s.pwr.st = .s2) : Steady s s.lowPower ∧ (∀ p < 16, s.lowPower.portState p = 0) ∧
    s.lowPower.pnl.prefOn = false ∧ ∀ n < 18, s.lowPower.pnl.prefV.getD n 0 = 0 := by
  obtain ⟨hports, hdown⟩ := State.settlePorts_off (s := s) (by simp [State.panelOn, hs])
  obtain ⟨hpref, hzero⟩ := s.settlePorts.undrive.dropPref_zero
  have hsteady := (steady_wire s).ropePower (hports.undrive.prefOnly hpref)
  obtain ⟨hword, hpnl⟩ := (panelKept_wire (s.settlePorts.undrive.dropPref.word 0xE0010) s.settlePorts.undrive.dropPref.pnl).ropePower
    ⟨rfl, rfl⟩
  rw [State.lowPower, State.prefPower_false, hpnl]
  refine ⟨hsteady, fun p hp => ?_, hpref.pnl, hzero⟩
  refine (State.rd_of_word (s := s.settlePorts) ?_).trans (hdown p hp)
  exact hword.trans ((hpref.word _).trans (State.word_undrive _ _))

/-- The lines of engine rings are released, and DC-balance sums restart. -/
def State.lowLines (s : State) : State := (s.releaseLines fun c => c == Cls.ADMIN || c == Cls.MGMT).dcbRestart

theorem State.lowLines_shows (s : State) : ShedKept s s.lowLines ∧ ∀ r ∈ s.lowLines.hif.rings, r.cls ≠ Cls.ADMIN → r.cls ≠ Cls.MGMT →
    r.lineShared = false := by
  refine ⟨⟨(Lasting.releaseLines s _).trans (Steady.refl _).dcbRestart.toLasting, fun _ _ => rfl, rfl, rfl, rfl⟩, fun r hr ha hm => ?_⟩
  obtain ⟨x, -, rfl⟩ := List.mem_map.1 hr
  split at ha
  · rename_i hk
    rw [if_pos hk] at hm
    rcases Bool.or_eq_true_iff.1 hk with h | h
    · exact absurd (beq_iff_eq.1 h) ha
    · exact absurd (beq_iff_eq.1 h) hm
  · rw [if_neg ‹_›]

theorem State.settleS2_inS2 {s : State} (hs : s.pwr.st = .s2) (hshow : s.rd F.PWR_STATUS_STATE = 2) :
    ShedKept s s.lowPower.lowLines ∧ InS2 s.lowPower.lowLines := by
  obtain ⟨hsteady, hports, hon, hzero⟩ := State.lowPower_shows hs
  generalize s.lowPower = u at hsteady hports hon hzero
  obtain ⟨hkept, hlines⟩ := u.lowLines_shows
  exact ⟨hsteady.shedKept.trans hkept, (congrArg PwrSt.st hsteady.pwr).trans hs,
    (State.rd_of_word (f := F.PWR_STATUS_STATE) (hsteady.words 0x30004 (by decide) (by decide))).trans hshow, hports, hon, hzero, hlines⟩

/-- The module leaves S0, or was not in it. -/
def State.leaveAny (s : State) : State := if s.pwr.st = .s0 then s.leaveS0 else s

theorem State.enterS2_eq (s : State) : s.enterS2 = (s.leaveAny.stageS2 (s.pwr.st == .s1)).lowPower.lowLines := rfl

theorem State.leaveAny_kept {s : State} (hw : s.warned = true) : ShedKept s s.leaveAny :=
  keptBy_ite (s.leaveS0_eq ▸ (State.goDark_steady hw).shedKept.trans (.modPwr _ _ rfl rfl rfl)) (.refl s)

theorem State.enterS2_inS2 {s : State} (hw : s.warned = true) : ShedKept s s.enterS2 ∧ InS2 s.enterS2 := by
  obtain ⟨hstage, hst, hshow⟩ := s.leaveAny.stageS2_shows (s.pwr.st == .s1)
  obtain ⟨hkept, hin⟩ := State.settleS2_inS2 hst hshow
  rw [State.enterS2_eq]
  exact ⟨((State.leaveAny_kept hw).trans hstage).trans hkept, hin⟩

theorem inS2_setTrans {s : State} (h : InS2 s) (x : Option PwrTrans) : InS2 (s.setTrans x) := by
  obtain ⟨hst, hshow, hports, hon, hzero, hlines⟩ := h
  have hword : ∀ o, o ≠ 0x30004 → (s.setTrans x).word o = s.word o := fun o ho =>
    State.word_wr_ne (s.modPwr fun p => { p with trans := x }) F.PWR_STATUS_BUSY _ ho
  refine ⟨hst, ?_, fun p hp => ?_, hon, hzero, hlines⟩
  · exact (State.rd_wr_ne (s.modPwr fun p => { p with trans := x }) F.PWR_STATUS_BUSY F.PWR_STATUS_STATE _ (by decide) (by decide)).trans
      hshow
  · exact (State.rd_of_word (hword 0xE0010 (by decide))).trans (hports p hp)

theorem State.setTrans_shows (s : State) (x : PwrTrans) : (s.setTrans (some x)).pwr.trans = some x ∧
    (s.setTrans (some x)).rd F.PWR_STATUS_BUSY = 1 :=
  ⟨rfl, State.rd_wr_same (s.modPwr fun p => { p with trans := some x }) F.PWR_STATUS_BUSY 1 (by decide)⟩

end Sys2Proof.Machine
end

section
/-!
PROOFS. The power-fail warning, its load shed and its end (R400 to R402), and the alarms of the input and the rails (R397, R398).
-/
namespace Sys2Proof.Machine

/-! ## The SET_POWER that a shed cuts short (R401, R405) -/

/-- The capture frame is given up and the transition ends. -/
def State.giveUp (s : State) : State := (s.modPwr fun p => { p with capturing := false, captureFrame := none }).setTrans none

theorem State.giveUp_kept (s : State) : ShedKept s s.giveUp := (ShedKept.modPwr s _ rfl rfl rfl).trans (.setTrans _ _)

theorem State.dropCapture_desc {s : State} {target : PwrState} {idx : Nat} (h : s.pwr.trans = some ⟨target, some idx⟩) :
    s.dropCapture = s.giveUp.complete 0 idx Cpl.ABORTED 0 := by
  unfold State.dropCapture
  rw [h]
  rfl

theorem State.dropCapture_none {s : State} (h : NoAdmin s) : s.dropCapture = s := by
  unfold State.dropCapture
  split
  · cases h _ ‹_›
  · rfl

theorem State.dropCapture_kept (s : State) :
    ShedKept s s.dropCapture ∧ NoAdmin s.dropCapture ∧ s.dropCapture.pwr.st = s.pwr.st := by
  by_cases h : NoAdmin s
  · rw [State.dropCapture_none h]
    exact ⟨.refl s, h, rfl⟩
  · obtain ⟨target, idx, ht⟩ : ∃ target idx, s.pwr.trans = some ⟨target, some idx⟩ := by
      by_contra hne
      refine h fun t ht => ?_
      rcases t with ⟨target, _ | idx⟩
      · rfl
      · exact absurd ⟨target, idx, ht⟩ hne
    rw [State.dropCapture_desc ht]
    exact ⟨s.giveUp_kept.trans ⟨.abortedAs _ 0 idx 0 0, fun _ _ => rfl, rfl, rfl, rfl⟩, fun _ hx => (by cases hx), rfl⟩

theorem State.dropCapture_aborts {s : State} {target : PwrState} {idx : Nat} (h : s.pwr.trans = some ⟨target, some idx⟩) :
    AllDescs 0 idx AbortedDesc s.dropCapture := by
  rw [State.dropCapture_desc h, State.complete_plain]
  exact AllDescs.of_modDesc (f := doneAs Cpl.ABORTED 0) (fun _ => rfl) (fun _ => ⟨rfl, rfl⟩) s.giveUp

/-! ## The load that is shed (R401, Table 16-2) -/

/-- The classes whose rings a shed aborts. -/
def shedClass (c : Nat) : Bool := c != Cls.ADMIN && c != Cls.MGMT

/-- The module is sent to S2, as is one that was on its way back from there. -/
def State.sendToS2 (s : State) : State :=
  if s.pwr.st = .s2 then (if s.returning then s.setTrans (some ⟨.s2, none⟩) else s) else s.enterS2.setTrans (some ⟨.s2, none⟩)

/-- The way to S2 that a shed starts. -/
def OnWayToS2 (t : State) : Prop := t.pwr.trans = some ⟨.s2, none⟩ ∧ t.rd F.PWR_STATUS_BUSY = 1

theorem State.sendToS2_shows {s : State} (hw : s.warned = true) : ShedKept s s.sendToS2 ∧ s.sendToS2.pwr.st = .s2 ∧
    (s.pwr.st ≠ .s2 → InS2 s.sendToS2) ∧ (s.pwr.st ≠ .s2 ∨ s.returning = true → OnWayToS2 s.sendToS2) := by
  unfold State.sendToS2
  split
  case isTrue hs =>
    split
    case isTrue => exact ⟨.setTrans s _, hs, fun h => absurd hs h, fun _ => s.setTrans_shows _⟩
    case isFalse hr => exact ⟨.refl s, hs, fun h => absurd hs h, fun h => h.elim (absurd hs) fun h => absurd h hr⟩
  case isFalse hs =>
    obtain ⟨hkept, hin⟩ := State.enterS2_inS2 hw
    have hall := inS2_setTrans hin (some ⟨.s2, none⟩)
    exact ⟨hkept.trans (.setTrans _ _), hall.1, fun _ => hall, fun _ => s.enterS2.setTrans_shows _⟩

/-- What a shed does to a module that is awake. -/
def State.shedLoad (s : State) : State := (s.dropCapture.abortClasses shedClass).sendToS2

theorem State.returning_iff {s : State} {x : PwrState} (h : s.pwr.trans = some ⟨x, none⟩) (hx : x = .s0 ∨ x = .s1) :
    s.returning = true := by
  rw [State.returning, h]
  rcases hx with rfl | rfl <;> rfl

theorem State.shedLoad_shows {s : State} (hw : s.warned = true) : ShedKept s s.shedLoad ∧ s.shedLoad.pwr.st = .s2 ∧
    (s.pwr.st ≠ .s2 → InS2 s.shedLoad) ∧
    (s.pwr.st ≠ .s2 ∨ (∃ x, s.pwr.trans = some ⟨x, none⟩ ∧ (x = .s0 ∨ x = .s1)) → OnWayToS2 s.shedLoad) ∧
    ∀ target idx, s.pwr.trans = some ⟨target, some idx⟩ → AdminOnly s → AllDescs 0 idx AbortedDesc s.shedLoad := by
  obtain ⟨hdrop, hnone, hst⟩ := s.dropCapture_kept
  have habort := State.abortClasses_steady hnone (sel := shedClass) rfl
  have hpwr := congrArg PwrSt.st habort.pwr
  obtain ⟨hsend, hs2, hin, hway⟩ := State.sendToS2_shows (habort.shedKept.warned (hdrop.warned hw))
  have hlast : ShedKept s.dropCapture s.shedLoad := habort.shedKept.trans hsend
  refine ⟨hdrop.trans hlast, hs2, fun h => hin ?_, fun h => hway ?_, fun target idx ht ha => ?_⟩
  · rwa [hpwr, hst]
  · rcases h with h | ⟨x, hx, hto⟩
    · left
      rwa [hpwr, hst]
    · have hn : NoAdmin s := fun t ht => by
        rw [hx] at ht
        cases ht
        rfl
      exact .inr (State.returning_iff ((congrArg PwrSt.trans habort.pwr).trans (by rw [State.dropCapture_none hn, hx])) hto)
  · exact hlast.ended (hdrop.admin ha) idx (State.dropCapture_aborts ht)

/-! ## The first warning (R400, R449) -/

/-- A warning is marked, on the own input or on the ball. -/
def State.markWarn (s : State) (own : Bool) : State :=
  (s.modPwr fun p => if own then { p with ownWarn := true } else { p with pinWarn := true }).wrB F.PWR_STATUS_PFAIL_PIN false

/-- The count, the cause and the state it found the module in are shown. -/
def State.showShed (s : State) (cause : Nat) : State :=
  (((s.modPwr fun p => { p with warnFrom := p.st }).bump (F.PWR_CNT_COUNT 0)).wrB F.PWR_STATUS_SHED true).wr F.PWR_STATUS_SHED_CAUSE cause

/-- Event, lifetime counter and ALARM of a warning. -/
def State.tellShed (s : State) : State := ((s.raise Ev.PWR_PFAIL_WARN).bumpLifetime 0x90).alarm 0x03 2

theorem State.shed_eq (s : State) (cause : Nat) : s.shed cause =
    if ((s.showShed cause).tellShed.cairn 3 0).awake then ((s.showShed cause).tellShed.cairn 3 0).shedLoad
    else (s.showShed cause).tellShed.cairn 3 0 := rfl

theorem State.warn_first {s : State} (ho : s.pwr.ownWarn = false) (hp : s.pwr.pinWarn = false) (own : Bool) :
    s.warn own = (s.markWarn own).shed (if own then 1 else 2) := by
  have hw : s.warned = false := by rw [State.warned, ho, hp]; rfl
  unfold State.warn
  rw [hw]
  rfl

theorem Lasting.modPwr (s : State) (f : PwrSt → PwrSt) : Lasting s (s.modPwr f) := .of_same (fun _ _ h => h) rfl rfl (.of_log rfl) rfl

theorem State.markWarn_shows (s : State) (own : Bool) : Lasting s (s.markWarn own) ∧
    (s.markWarn own).pwr = (if own then { s.pwr with ownWarn := true } else { s.pwr with pinWarn := true }) ∧
    (s.markWarn own).rd (F.PWR_CNT_COUNT 0) = s.rd (F.PWR_CNT_COUNT 0) ∧ (s.markWarn own).rd F.PWR_STATUS_PFAIL_PIN = 0 := by
  refine ⟨(Lasting.modPwr s _).trans (.wr _ _ (by decide)), rfl, ?_, ?_⟩
  · exact State.rd_wr_ne (s.modPwr _) F.PWR_STATUS_PFAIL_PIN (F.PWR_CNT_COUNT 0) _ (by decide) (by decide)
  · exact State.rd_wr_same (s.modPwr _) F.PWR_STATUS_PFAIL_PIN _ (by decide)

theorem State.showShed_shows (s : State) {cause : Nat} (hc : cause < 4) : Lasting s (s.showShed cause) ∧
    (s.showShed cause).pwr = { s.pwr with warnFrom := s.pwr.st } ∧
    (s.showShed cause).rd (F.PWR_CNT_COUNT 0) = min (s.rd (F.PWR_CNT_COUNT 0) + 1) (2 ^ 32 - 1) ∧
    (s.showShed cause).rd F.PWR_STATUS_SHED = 1 ∧ (s.showShed cause).rd F.PWR_STATUS_SHED_CAUSE = cause ∧
    (s.showShed cause).rd F.PWR_STATUS_PFAIL_PIN = s.rd F.PWR_STATUS_PFAIL_PIN := by
  have hbump := State.rd_bump_same (s.modPwr fun p => { p with warnFrom := p.st }) (F.PWR_CNT_COUNT 0) 1 (by decide)
  refine ⟨(((Lasting.modPwr s _).trans (.wr _ _ (by decide))).trans (.wr _ _ (by decide))).trans (.wr _ _ (by decide)), rfl, ?_, ?_, ?_, ?_⟩
  · rw [State.showShed]
    simp (disch := decide) only [State.wrB, State.rd_wr_ne]
    exact hbump
  · rw [State.showShed]
    simp (disch := decide) only [State.wrB, State.rd_wr_ne, State.rd_wr_same]
    rfl
  · exact (State.rd_wr_same _ F.PWR_STATUS_SHED_CAUSE cause (by decide)).trans (Nat.mod_eq_of_lt hc)
  · rw [State.showShed]
    simp (disch := decide) only [State.wrB, State.bump, State.rd_wr_ne]
    rfl

theorem State.setLifetime_steady (s : State) (a v : Nat) (ha : a + 8 ≤ 0x8000) : Steady s (s.setLifetime a v) := by
  refine ⟨.of_same (fun _ _ h => h) rfl rfl (fun hw => ⟨cellPut_wf _ _ hw, fun k hk => ?_⟩) rfl, rfl, fun _ _ _ => rfl⟩
  refine (cellGet_cellPut hw _ k _).trans (dif_neg ?_)
  rw [length_leBytes]
  omega

theorem State.tellShed_shows {s : State} (h : s.hasEvents = true) : Steady s s.tellShed ∧ Raised Ev.PWR_PFAIL_WARN s.tellShed := by
  have hlife := State.setLifetime_steady (s.raise Ev.PWR_PFAIL_WARN) 0x90 ((s.raise Ev.PWR_PFAIL_WARN).lifetime 0x90 + 1) (by decide)
  have hrest : Steady (s.raise Ev.PWR_PFAIL_WARN) s.tellShed := (steady_wire _).alarm 0x03 2 hlife
  exact ⟨(Steady.raise s _).trans hrest, hrest.status _ (by decide) (s.raised (by decide) h)⟩

/-- The cairn record of a cause (Table 18-8, R449). -/
theorem State.cairn_shows (s : State) (cause detail : Nat) : (s.cairn cause detail).live = s.live ∧
    (s.cairn cause detail).pwr = s.pwr ∧ (s.cairn cause detail).hif = s.hif ∧ (s.cairn cause detail).regs = s.regs ∧
    (s.cairn cause detail).nvs.cairnSeq = (s.nvs.cairnSeq + 1) % 2 ^ 32 ∧
    (cellsWf (fun _ => (0 : Byte)) s.nvs.log = true → cellsWf (fun _ => (0 : Byte)) (s.cairn cause detail).nvs.log = true ∧
      (s.cairn cause detail).logByte (0x8000 + 32 * (s.nvs.cairnSeq % 512) + 4) = BitVec.ofNat 8 cause) :=
  ⟨rfl, rfl, rfl, rfl, rfl, fun hw => ⟨cellPut_wf _ _ hw,
    (logByte_putLog hw (0x8000 + 32 * (s.nvs.cairnSeq % 512)) 4 (s.cairnBytes cause detail) (by
      simp [State.cairnBytes, length_leBytes])).trans rfl⟩⟩

/-- The record is written, and then the load is shed where the module is awake. -/
def State.recordAndShed (s : State) : State := if (s.cairn 3 0).awake then (s.cairn 3 0).shedLoad else s.cairn 3 0

/-- What a shed does after the ALARM has left, and all it leaves as it is. -/
theorem State.recordAndShed_shows {s : State} (hw : s.warned = true) : ShedKept (s.cairn 3 0) s.recordAndShed ∧
    (s.awake = false → s.recordAndShed.pwr = s.pwr) ∧
    (s.awake = true → s.recordAndShed.pwr.st = .s2 ∧ (s.pwr.st ≠ .s2 → InS2 s.recordAndShed) ∧
      (s.pwr.st ≠ .s2 ∨ (∃ x, s.pwr.trans = some ⟨x, none⟩ ∧ (x = .s0 ∨ x = .s1)) → OnWayToS2 s.recordAndShed) ∧
      ∀ target idx, s.pwr.trans = some ⟨target, some idx⟩ → AdminOnly s → AllDescs 0 idx AbortedDesc s.recordAndShed) := by
  have hawake : (s.cairn 3 0).awake = s.awake := rfl
  obtain ⟨hkept, hs2, hin, hway, hends⟩ := State.shedLoad_shows (s := s.cairn 3 0) hw
  unfold State.recordAndShed
  rw [hawake]
  cases h : s.awake with
  | true => exact ⟨hkept, fun hf => (by cases hf), fun _ => ⟨hs2, hin, hway, hends⟩⟩
  | false => exact ⟨.refl _, fun _ => rfl, fun hf => (by cases hf)⟩

theorem State.warn_eq {s : State} (ho : s.pwr.ownWarn = false) (hp : s.pwr.pinWarn = false) (own : Bool) :
    s.warn own = ((s.markWarn own).showShed (if own then 1 else 2)).tellShed.recordAndShed :=
  (State.warn_first ho hp own).trans rfl

theorem AllDescs.endedAs {t : State} {idx : Nat} (h : AllDescs 0 idx AbortedDesc t) : EndedAs t 0 idx Cpl.ABORTED :=
  fun r hr x hx hi => h r (List.mem_of_find?_eq_some hr) (State.ring?_num hr) x hx hi

theorem State.hasEvents_pwr {s t : State} (h : t.pwr.st = s.pwr.st) : t.hasEvents = s.hasEvents := by
  simp only [State.hasEvents, State.awake, h]

theorem State.awake_pwr {s t : State} (h : t.pwr.st = s.pwr.st) : t.awake = s.awake := by
  simp only [State.awake, h]

/-- What the state before the record has of the warning. -/
structure Told (s : State) (cause : Nat) (u : State) : Prop where
  lasting : Lasting s u
  count : u.rd (F.PWR_CNT_COUNT 0) = min (s.rd (F.PWR_CNT_COUNT 0) + 1) (2 ^ 32 - 1)
  shed : u.rd F.PWR_STATUS_SHED = 1
  cause : u.rd F.PWR_STATUS_SHED_CAUSE = cause
  pin : u.rd F.PWR_STATUS_PFAIL_PIN = 0
  raised : Raised Ev.PWR_PFAIL_WARN u
  st : u.pwr.st = s.pwr.st
  trans : u.pwr.trans = s.pwr.trans
  warnFrom : u.pwr.warnFrom = s.pwr.st

theorem State.tellShed_told {s : State} (he : s.hasEvents = true) (own : Bool) {cause : Nat} (hc : cause < 4) :
    let u := ((s.markWarn own).showShed cause).tellShed
    Told s cause u ∧ u.pwr.ownWarn = (own || s.pwr.ownWarn) ∧ u.pwr.pinWarn = (!own || s.pwr.pinWarn) := by
  obtain ⟨hmark, hmpwr, hmcnt, hmpin⟩ := s.markWarn_shows own
  obtain ⟨hshow, hspwr, hcnt, hshed, hcause, hpin⟩ := (s.markWarn own).showShed_shows hc
  have hst : ((s.markWarn own).showShed cause).pwr.st = s.pwr.st := by
    rw [hspwr, hmpwr]
    cases own <;> rfl
  obtain ⟨htell, hraised⟩ := State.tellShed_shows ((State.hasEvents_pwr hst).trans he)
  have hpwr := htell.pwr.trans hspwr
  rw [hmpwr] at hpwr
  have hrd := htell.shedKept.shown
  refine ⟨⟨(hmark.trans hshow).trans htell.toLasting, ?_, (hrd _ (by decide)).trans hshed, (hrd _ (by decide)).trans hcause,
    (hrd _ (by decide)).trans (hpin.trans hmpin), hraised, ?_, ?_, ?_⟩, ?_, ?_⟩
  · rw [hrd _ (by decide), hcnt, hmcnt]
  all_goals
    rw [hpwr]
    cases own <;> rfl

/-- A first warning sheds the load. -/
theorem State.warn_sheds {s : State} (he : s.hasEvents = true) (ho : s.pwr.ownWarn = false) (hp : s.pwr.pinWarn = false) (own : Bool) :
    Shed s (if own then 1 else 2) (s.warn own) ∧ (s.warn own).pwr.ownWarn = own ∧ (s.warn own).pwr.pinWarn = !own := by
  obtain ⟨htold, hown, hpin⟩ := State.tellShed_told he own (cause := if own then 1 else 2) (by cases own <;> decide)
  rw [ho, Bool.or_false] at hown
  rw [hp, Bool.or_false] at hpin
  rw [State.warn_eq ho hp]
  generalize ((s.markWarn own).showShed (if own then 1 else 2)).tellShed = u at htold hown hpin
  have hwarned : u.warned = true := by
    rw [State.warned, hown, hpin]
    cases own <;> rfl
  obtain ⟨hkept, hasleep, hawake⟩ := State.recordAndShed_shows hwarned
  obtain ⟨hlive, hcpwr, -, hregs, hseq, hlog⟩ := u.cairn_shows 3 0
  have haw : u.awake = s.awake := State.awake_pwr htold.st
  have hrd : ∀ f, (u.cairn 3 0).rd f = u.rd f := fun f => State.rd_of_word (by unfold State.word; rw [hregs])
  generalize u.recordAndShed = t at hkept hasleep hawake
  rw [haw, htold.st, htold.trans] at hawake
  have hshown : ∀ f ∈ shedFlds, t.rd f = u.rd f := fun f hf => (hkept.shown f hf).trans (hrd f)
  refine ⟨⟨?_, ?_, ?_, ?_, ?_, ?_, ?_, ?_, fun hw => ?_, fun h3 => ?_, fun ha => ?_, fun ha => (hawake ha).1, fun hfrom => ?_,
    fun target idx ha htr hadm => ?_⟩, ?_, ?_⟩
  · exact (hshown _ (by decide)).trans htold.count
  · exact (hshown _ (by decide)).trans htold.shed
  · exact (hshown _ (by decide)).trans htold.cause
  · exact (hshown _ (by decide)).trans htold.pin
  · exact hkept.status _ (by decide) ((hrd _).trans htold.raised)
  · exact hkept.warnFrom.trans htold.warnFrom
  · rw [hkept.seq, hseq, htold.lasting.seq]
  · rw [hkept.live, hlive, htold.lasting.live]
  · obtain ⟨hcanon, hbyte⟩ := hlog (htold.lasting.log (Bool.and_eq_true_iff.1 hw).2).1
    rw [htold.lasting.seq] at hbyte
    exact ((hkept.log hcanon).2 _ (by omega)).trans hbyte
  · have hno : s.awake = false := by simp [State.awake, h3]
    rw [hasleep (haw.trans hno), htold.st, h3]
  · by_cases h2 : s.pwr.st = .s2
    · exact .inr h2
    · exact .inl ((hawake ha).2.1 h2)
  · have ha : s.awake = true := by
      rcases hfrom with h | h | ⟨h, -⟩ <;> simp [State.awake, h]
    refine (hawake ha).2.2.1 ?_
    rcases hfrom with h | h | ⟨-, h⟩
    · exact .inl (by simp [h])
    · exact .inl (by simp [h])
    · exact .inr (h.elim (fun h => ⟨_, h, .inl rfl⟩) fun h => ⟨_, h, .inr rfl⟩)
  · exact ((hawake ha).2.2.2 target idx htr (htold.lasting.admin hadm)).endedAs
  · rw [hkept.ownWarn, hcpwr, hown]
  · rw [hkept.pinWarn, hcpwr, hpin]

/-! ## The end of a warning (R402) -/

/-- No warning is in force any more. -/
def State.unwarn (s : State) : State := (s.modPwr fun p => { p with ownWarn := false, pinWarn := false }).raise Ev.PWR_PFAIL_CLEAR

/-- An entry to S2 by a shed is complete. -/
def State.endShed (s : State) : State := if s.pwr.trans = some ⟨.s2, none⟩ then (s.setTrans none).raise Ev.PWR_STATE else s

/-- An automatic return starts, or SHED falls. -/
def State.afterWarn (s : State) : State :=
  if s.pwr.warnFrom = .s0 ∨ s.pwr.warnFrom = .s1 then
    if s.resumes then s.setTrans (some ⟨s.pwr.warnFrom, none⟩) else s
  else s.wrB F.PWR_STATUS_SHED false

theorem State.warnEnd_eq (s : State) : s.warnEnd = s.unwarn.endShed.afterWarn := rfl

theorem State.unwarn_shows {s : State} (h : s.hasEvents = true) : WordsKept [] s s.unwarn ∧
    s.unwarn.pwr = { s.pwr with ownWarn := false, pinWarn := false } ∧ Raised Ev.PWR_PFAIL_CLEAR s.unwarn :=
  ⟨State.raise_wordsKept _ _ [], State.raise_pwr _ _, State.raised _ (by decide) h⟩

/-- The transition that is left when the entry to S2 of a shed has ended. -/
def PwrSt.left (p : PwrSt) : Option PwrTrans := if p.trans = some ⟨.s2, none⟩ then none else p.trans

theorem State.endShed_shows {s : State} (h : s.hasEvents = true) : Lasting s s.endShed ∧ WordsKept [0x30004] s s.endShed ∧
    s.endShed.pwr = { s.pwr with trans := s.pwr.left } ∧ (∀ f ∈ shedFlds, s.endShed.rd f = s.rd f) ∧
    (s.pwr.trans = some ⟨.s2, none⟩ → Raised Ev.PWR_STATE s.endShed) := by
  unfold State.endShed PwrSt.left
  split
  · have hset := ShedKept.setTrans s none
    have hraise := (Steady.raise (s.setTrans none) Ev.PWR_STATE).shedKept
    have hwords : WordsKept [0x30004] s (s.setTrans none) :=
      (State.wrB_regsOnly (s.modPwr fun p => { p with trans := none }) F.PWR_STATUS_BUSY false).words
    exact ⟨(hset.trans hraise).toLasting, (hwords.trans (State.raise_wordsKept _ _ [])), State.raise_pwr _ _,
      (hset.trans hraise).shown, fun _ => State.raised _ (by decide) h⟩
  · exact ⟨.refl s, .refl s _, rfl, fun _ _ => rfl, fun ht => absurd ht ‹_›⟩

/-- Whether an automatic return starts. -/
theorem State.resumes_iff {s : State} (hf : s.pwr.warnFrom = .s0 ∨ s.pwr.warnFrom = .s1) :
    s.resumes = true ↔ s.rd F.PWR_CTRL_AUTO_RESUME = 1 ∧ s.pwr.st = .s2 ∧ s.pwr.trans = none ∧
      (s.pwr.warnFrom = .s1 → s.rd F.TIM_STATUS_VALID = 1 ∧ s.pwr.s2FromS1 = true) := by
  unfold State.resumes State.powerAllowed
  rw [Bool.and_eq_true, Bool.and_eq_true, Bool.and_eq_true, State.rdB_eq_true_iff, beq_iff_eq, Option.isNone_iff_eq_none]
  constructor
  · rintro ⟨⟨⟨hauto, hst⟩, hnone⟩, hall⟩
    refine ⟨hauto, hst, hnone, fun h1 => ?_⟩
    simpa [hst, h1, PwrState.number, State.rdB_eq_true_iff] using hall
  · rintro ⟨hauto, hst, hnone, hback⟩
    refine ⟨⟨⟨hauto, hst⟩, hnone⟩, ?_⟩
    rcases hf with h | h
    · simp [hst, h, PwrState.number]
    · obtain ⟨hvalid, hfrom⟩ := hback h
      simp [hst, h, PwrState.number, State.rdB_eq_true_iff, hvalid, hfrom]

theorem State.afterWarn_shows (s : State) : Lasting s s.afterWarn ∧ WordsKept [0x30004] s s.afterWarn ∧
    s.afterWarn.pwr.ownWarn = s.pwr.ownWarn ∧ s.afterWarn.pwr.pinWarn = s.pwr.pinWarn ∧ s.afterWarn.pwr.st = s.pwr.st ∧
    s.afterWarn.rd F.PWR_STATUS_PFAIL_PIN = s.rd F.PWR_STATUS_PFAIL_PIN ∧
    (s.pwr.warnFrom = .s0 ∨ s.pwr.warnFrom = .s1 → s.afterWarn.rd F.PWR_STATUS_SHED = s.rd F.PWR_STATUS_SHED ∧
      (s.resumes = true → s.afterWarn.pwr.trans = some ⟨s.pwr.warnFrom, none⟩ ∧ s.afterWarn.rd F.PWR_STATUS_BUSY = 1) ∧
      (s.resumes = false → s.afterWarn.pwr.trans = s.pwr.trans)) ∧
    (s.pwr.warnFrom ≠ .s0 → s.pwr.warnFrom ≠ .s1 → s.afterWarn.rd F.PWR_STATUS_SHED = 0 ∧ s.afterWarn.pwr.trans = s.pwr.trans) := by
  unfold State.afterWarn
  split
  case isTrue hf =>
    have hnot : ∀ {p : Prop}, s.pwr.warnFrom ≠ .s0 → s.pwr.warnFrom ≠ .s1 → p := fun h0 h1 => (hf.elim h0 h1).elim
    split
    case isTrue hr =>
      have hset := ShedKept.setTrans s (some ⟨s.pwr.warnFrom, none⟩)
      exact ⟨hset.toLasting, (State.wrB_regsOnly (s.modPwr _) F.PWR_STATUS_BUSY true).words, rfl, rfl, rfl, hset.shown _ (by decide),
        fun _ => ⟨hset.shown _ (by decide), fun _ => s.setTrans_shows _, fun h => absurd (hr.symm.trans h) (by decide)⟩, hnot⟩
    case isFalse hr =>
      exact ⟨.refl s, .refl s _, rfl, rfl, rfl, rfl, fun _ => ⟨rfl, fun h => absurd h hr, fun _ => rfl⟩, hnot⟩
  case isFalse hf =>
    exact ⟨.wr s _ (by decide), (State.wrB_regsOnly s F.PWR_STATUS_SHED false).words, rfl, rfl, rfl,
      State.rd_wr_ne s F.PWR_STATUS_SHED F.PWR_STATUS_PFAIL_PIN _ (by decide) (by decide), fun h => absurd h hf,
      fun _ _ => ⟨State.rd_wr_same s F.PWR_STATUS_SHED _ (by decide), rfl⟩⟩

/-- The ball released, no warning in force, and an entry to S2 by its shed complete. -/
def State.released (s : State) : State := (s.wrB F.PWR_STATUS_PFAIL_PIN true).unwarn.endShed

theorem State.released_shows {s : State} (h : s.hasEvents = true) : WordsKept [0x30004] s s.released ∧
    s.released.pwr = { s.pwr with ownWarn := false, pinWarn := false, trans := s.pwr.left } ∧
    Raised Ev.PWR_PFAIL_CLEAR s.released ∧ (s.pwr.trans = some ⟨.s2, none⟩ → Raised Ev.PWR_STATE s.released) ∧
    s.released.rd F.PWR_STATUS_PFAIL_PIN = 1 ∧ s.released.rd F.PWR_STATUS_SHED = s.rd F.PWR_STATUS_SHED := by
  obtain ⟨huwords, hupwr, hclear⟩ := State.unwarn_shows (s := s.wrB F.PWR_STATUS_PFAIL_PIN true) h
  have hst : (s.wrB F.PWR_STATUS_PFAIL_PIN true).unwarn.pwr.st = s.pwr.st := by
    rw [hupwr]
    rfl
  obtain ⟨hlast, hwords, hpwr, hshown, hstate⟩ := State.endShed_shows ((State.hasEvents_pwr hst).trans h)
  rw [hupwr] at hpwr hstate
  have hrd : ∀ f ∈ shedFlds, s.released.rd f = (s.wrB F.PWR_STATUS_PFAIL_PIN true).rd f := fun f hf => by
    refine (hshown f hf).trans (huwords.rd (by simp) ?_)
    revert f
    decide
  refine ⟨?_, hpwr, hlast.status _ (by decide) hclear, hstate, ?_, ?_⟩
  · exact (((State.wrB_regsOnly s F.PWR_STATUS_PFAIL_PIN true).words.trans huwords).trans hwords).mono (by decide)
  · exact (hrd _ (by decide)).trans (State.rd_wr_same s F.PWR_STATUS_PFAIL_PIN _ (by decide))
  · exact (hrd _ (by decide)).trans (State.rd_wr_ne s F.PWR_STATUS_PFAIL_PIN F.PWR_STATUS_SHED _ (by decide) (by decide))

/-- The end of a warning, and the return that AUTO_RESUME starts. -/
theorem pfailClear_ends {s : State} (he : s.hasEvents = true) (hw : s.pwr.ownWarn = true ∨ s.pwr.pinWarn = true) :
    Gives .pfailClear s fun t => Raised Ev.PWR_PFAIL_CLEAR t ∧
      t.pwr.ownWarn = false ∧ t.pwr.pinWarn = false ∧ t.pwr.st = s.pwr.st ∧ t.rd F.PWR_STATUS_PFAIL_PIN = 1 ∧
      WordsKept [0x30004] s t ∧
      (s.pwr.trans = some ⟨.s2, none⟩ → Raised Ev.PWR_STATE t) ∧
      (let left := if s.pwr.trans = some ⟨.s2, none⟩ then none else s.pwr.trans
       let may := s.pwr.st = .s2 ∧ left = none ∧ (s.pwr.warnFrom = .s1 → s.rd F.TIM_STATUS_VALID = 1 ∧ s.pwr.s2FromS1 = true)
       (s.pwr.warnFrom = .s0 ∨ s.pwr.warnFrom = .s1 → t.rd F.PWR_STATUS_SHED = s.rd F.PWR_STATUS_SHED ∧
         (s.rd F.PWR_CTRL_AUTO_RESUME = 1 → may → t.pwr.trans = some ⟨s.pwr.warnFrom, none⟩ ∧ t.rd F.PWR_STATUS_BUSY = 1) ∧
         (s.rd F.PWR_CTRL_AUTO_RESUME = 0 ∨ ¬ may → t.pwr.trans = left)) ∧
       (s.pwr.warnFrom ≠ .s0 → s.pwr.warnFrom ≠ .s1 → t.rd F.PWR_STATUS_SHED = 0 ∧ t.pwr.trans = left)) := by
  have hwarned : s.warned = true := Bool.or_eq_true_iff.2 hw
  have hexec : exec .pfailClear s = .next s.released.afterWarn := by
    change Host.Outcome.next (if !s.hasEvents then s else if s.warned then s.released.afterWarn else _) = _
    rw [he, hwarned]
    rfl
  obtain ⟨hwords, hpwr, hclear, hstate, hpin, hshed⟩ := State.released_shows he
  generalize s.released = u at hexec hwords hpwr hclear hstate hpin hshed
  obtain ⟨hlast, hkept, hown, hpw, hst, hkpin, hback, hover⟩ := u.afterWarn_shows
  have hresumes := State.resumes_iff (s := u)
  rw [hwords.rd (by decide) (by decide), hwords.rd (by decide) (by decide), hpwr] at hresumes
  rw [hpwr] at hown hpw hst hback hover
  refine ⟨_, hexec, hlast.status _ (by decide) hclear, hown, hpw, hst, hkpin.trans hpin, (hwords.trans hkept).mono (by decide),
    fun ht => hlast.status _ (by decide) (hstate ht), fun hf => ?_, fun h0 h1 => ?_⟩
  · obtain ⟨hs, hyes, hno⟩ := hback hf
    refine ⟨hs.trans hshed, fun hauto hmay => hyes ((hresumes hf).2 ⟨hauto, hmay⟩), fun hnot => hno ?_⟩
    rw [Bool.eq_false_iff]
    intro hr
    obtain ⟨hauto, hmay⟩ := (hresumes hf).1 hr
    exact hnot.elim (fun h => by omega) fun h => h hmay
  · exact hover h0 h1

/-! ## A warning as a command -/

theorem State.powered_eq (s : State) : s.powered = s.hasEvents := rfl

theorem pfailWarn_starts {s : State} (he : s.hasEvents = true) (ho : s.pwr.ownWarn = false) :
    exec .pfailWarn s = .next (s.warn true) :=
  exec_pos rfl (by simp [State.powered_eq, he, ho])

/-- With PFAIL_IN_EN 1 the ball's level is a warning. -/
theorem pfailNLow_starts {s : State} (he : s.hasEvents = true) (hen : s.rd F.PWR_CTRL_PFAIL_IN_EN = 1) (hp : s.pwr.pinWarn = false) :
    exec .pfailNLow s = .next (s.warn false) := by
  change Host.Outcome.next (if !s.powered then s else if s.rdB F.PWR_CTRL_PFAIL_IN_EN then (if s.pwr.pinWarn then s else s.warn false)
    else _) = _
  rw [State.powered_eq, he, State.rdB_eq_true_iff.2 hen, hp]
  rfl

/-- A second warning is only marked. -/
theorem State.warn_second {s : State} (h : s.warned = true) (own : Bool) : s.warn own = s.markWarn own := by
  unfold State.warn
  rw [h]
  rfl

/-- Settles O53: a first warning sheds the load, a second is only marked, and the end of a warning takes the module back. -/
theorem warningsShedLoadAndClear : Obligations.WarningsShedLoadAndClear := by
  unfold Obligations.WarningsShedLoadAndClear
  refine ⟨fun s he ho hp => ⟨?_, fun hen => ?_⟩, fun s he => ⟨fun ho hp => ?_, fun ho hp hen => ?_, fun hen => ?_, fun ho hp => ?_,
    fun hw => pfailClear_ends he hw, fun high hi => ?_, ?_⟩⟩
  · obtain ⟨hshed, hown, -⟩ := State.warn_sheds he ho hp true
    exact ⟨_, pfailWarn_starts he ho, hshed, hown⟩
  · obtain ⟨hshed, -, hpin⟩ := State.warn_sheds he ho hp false
    exact ⟨_, pfailNLow_starts he hen hp, hshed, hpin⟩
  · rw [pfailWarn_starts he ho, State.warn_second (by simp [State.warned, hp])]
    rfl
  · rw [pfailNLow_starts he hen hp, State.warn_second (by simp [State.warned, ho])]
    rfl
  · change Host.Outcome.next (if !s.powered then s else if s.rdB F.PWR_CTRL_PFAIL_IN_EN then _ else s.wr F.PWR_STATUS_PFAIL_PIN 0) = _
    rw [State.powered_eq, he, (State.rdB_eq_false_iff rfl).2 hen]
    rfl
  · change Host.Outcome.next (if !s.powered then s else if s.warned then _ else s.wr F.PWR_STATUS_PFAIL_PIN 1) = _
    rw [State.powered_eq, he, State.warned, ho, hp]
    rfl
  · have hgo : (s.powered && (high || !s.warned)) = true := by
      rcases hi with h | ⟨ho, hp⟩
      · simp [State.powered_eq, he, h]
      · simp [State.powered_eq, State.warned, he, ho, hp]
    exact State.raise_gives (exec_pos rfl hgo) (by decide) he
  · exact State.raise_gives (exec_pos rfl (by rw [State.powered_eq, he])) (by decide) he

end Sys2Proof.Machine
end

section
/-!
PROOFS. The stream parser's own operations (R76, R83, R126, R141, R485): what each leaves of the decoder, and what it puts there.
-/
namespace Sys2Proof.Machine

@[simp] theorem State.hasEvents_modDec (s : State) (f : DecSt → DecSt) : (s.modDec f).hasEvents = s.hasEvents := rfl

/-- The decoder runs where event state exists. -/
theorem State.hasEvents_of_decRuns {s : State} (h : s.decRuns = true) : s.hasEvents = true :=
  s.hasEvents_of_awake (by simp_all [State.decRuns, State.awake])

/-! ## Completion of feeds (R141) -/

/-- One feed at its retire point completes and leaves the parser's sequence. -/
def State.endFeed (s : State) (f : Feed) : State :=
  (s.complete f.ring f.idx f.status (if f.isLoop then f.played else f.consumed) (if f.poison then CFlag.POISON else 0)).modDec
    fun d => { d with feeds := d.feeds.filter fun g => g.fid != f.fid }

theorem State.settleFeeds_eq (s : State) : s.settleFeeds = (s.dec.feeds.filter s.dec.feedDone).foldl State.endFeed s := rfl

/-- The feeds that stay when those in a list complete. -/
def feedsLeft (done feeds : List Feed) : List Feed := done.foldl (fun l f => l.filter fun g => g.fid != f.fid) feeds

theorem mem_of_feedsLeft {done feeds : List Feed} {f : Feed} (h : f ∈ feedsLeft done feeds) : f ∈ feeds := by
  induction done generalizing feeds with
  | nil => exact h
  | cons d done ih => exact List.mem_of_mem_filter (ih h)

/-- Of the decoder only the sequence of feeds changes. -/
@[simp] theorem State.settleFeeds_dec (s : State) :
    s.settleFeeds.dec = { s.dec with feeds := feedsLeft (s.dec.feeds.filter s.dec.feedDone) s.dec.feeds } := by
  rw [State.settleFeeds_eq]
  generalize s.dec.feeds.filter s.dec.feedDone = done
  induction done generalizing s with
  | nil => rfl
  | cons f done ih => exact ih (s.endFeed f)

@[simp] theorem State.settleFeeds_regs (s : State) : s.settleFeeds.regs = s.regs :=
  foldl_reads (g := State.regs) (f := State.endFeed) (fun _ _ => rfl) _ s

theorem Raised.settleFeeds {src : Nat} {s : State} (h : Raised src s) : Raised src s.settleFeeds :=
  (State.rd_of_regs s.settleFeeds_regs _).trans h

/-- With no feed at its retire point nothing completes. -/
theorem State.settleFeeds_none {s : State} (h : ∀ f ∈ s.dec.feeds, s.dec.feedDone f = false) : s.settleFeeds = s := by
  rw [State.settleFeeds_eq, List.filter_eq_nil_iff.2 fun f hf => by simp [h f hf]]
  rfl

/-! ## Damage (R76, R83) -/

@[simp] theorem State.damagedFeed_dec (s : State) (feed : Option Nat) : (s.damagedFeed feed).dec =
    { s.dec with feeds := s.dec.feeds.map fun f => if some f.fid = feed then { f with damaged := true } else f } :=
  State.raise_dec ..

theorem State.damagedFeed_raised {s : State} (h : s.hasEvents = true) (feed : Option Nat) :
    Raised Ev.DEC_DAMAGED (s.damagedFeed feed) :=
  State.raised _ (by decide) h

@[simp] theorem State.hasEvents_damagedFeed (s : State) (feed : Option Nat) : (s.damagedFeed feed).hasEvents = s.hasEvents :=
  State.hasEvents_raise ..

theorem State.badSeq_mode (s : State) (fid : Nat) : (s.badSeq fid).dec.mode = .stretch true := by
  simp [State.badSeq]

theorem State.badSeq_raised {s : State} (h : s.hasEvents = true) (fid : Nat) : Raised Ev.DEC_DAMAGED (s.badSeq fid) :=
  State.damagedFeed_raised (s := s.modDec _) h _

/-- A size other than the frame's: a damaged stretch and both events (R83). -/
theorem State.mismatch_shows {s : State} (h : s.hasEvents = true) (fid : Nat) :
    let t := ((s.badSeq fid).raise Ev.DEC_SEQ_MISMATCH).settleFeeds
    t.dec.mode = .stretch true ∧ Raised Ev.DEC_SEQ_MISMATCH t ∧ Raised Ev.DEC_DAMAGED t := by
  have hraise : Raised Ev.DEC_SEQ_MISMATCH ((s.badSeq fid).raise Ev.DEC_SEQ_MISMATCH) :=
    State.raised _ (by decide) (by simpa [State.badSeq] using h)
  exact ⟨by simp [State.badSeq_mode], hraise.settleFeeds, ((State.badSeq_raised h fid).raise (by decide)).settleFeeds⟩

end Sys2Proof.Machine
end

section
/-!
PROOFS. How STREAM descriptors reach the parser (R126, R141, R485).
-/
namespace Sys2Proof.Machine

/-! ## Feeds that join the parser's sequence -/

theorem State.addFeed_dec (s : State) (f : Feed) : (s.addFeed f).dec =
    { s.dec with rank := s.dec.rank + 1, feeds := s.dec.feeds ++ [{ f with fid := s.dec.rank + 1 }] } := rfl

@[simp] theorem State.run_dec (s : State) (ring idx : Nat) : (s.run ring idx).dec = s.dec := rfl

/-- The state with a started descriptor's feed, written out. -/
theorem State.run_addFeed (s : State) (ring idx : Nat) (f : Feed) : (s.run ring idx).addFeed f = { s.run ring idx with
    dec := { s.dec with rank := s.dec.rank + 1, feeds := s.dec.feeds ++ [{ f with fid := s.dec.rank + 1 }] } } := by
  unfold State.addFeed State.modDec
  rw [State.run_dec]

/-- A feed that is not parsed yet joins, and where no other is at its retire point nothing completes. -/
theorem State.addFeed_settled {s : State} {f : Feed} (hf : f.parsed = false) (h : ∀ f ∈ s.dec.feeds, s.dec.feedDone f = false) :
    (s.addFeed f).settleFeeds = s.addFeed f := by
  refine State.settleFeeds_none fun g hg => ?_
  rw [State.addFeed_dec, List.mem_append, List.mem_singleton] at hg
  rcases hg with hg | rfl
  · exact h g hg
  · simp [DecSt.feedDone, hf]

theorem streamPush_joins (ring : Nat) (data : List Byte) (r : Ring) (d : Desc) (s : State)
    (h : Passes s ring 0x10 r d [(d.restZero [(8, 8), (16, 4)] && addrForm (leAt d.bytes 8 8) && leAt d.bytes 16 4 % 8 == 0, Cpl.BAD_FIELD),
      (s.bufOk .dec false (leAt d.bytes 8 8) (leAt d.bytes 16 4) && s.cfgOk, Cpl.BAD_ADDRESS)])
    (hlen : 0 < leAt d.bytes 16 4) (hfeeds : ∀ f ∈ s.dec.feeds, s.dec.feedDone f = false) :
    exec (.streamPush ring data) s = .next ((s.run ring d.idx).addFeed { Feed.start ring d.idx (leAt d.bytes 16 4) with
      dev := if leAt d.bytes 8 8 < 2 ^ 63 then none else some (leAt d.bytes 8 8 - 2 ^ 63)
      bytes := if leAt d.bytes 8 8 < 2 ^ 63 then padTo (leAt d.bytes 16 4) 0 data else [] }) := by
  have hnum := State.nextOp_num h.1
  have hne : (leAt d.bytes 16 4 == 0) = false := by simp; omega
  change Host.Outcome.next (s.withOp ring 0x10 _ _) = _
  rw [withOp_passes h, hnum]
  dsimp only
  rw [State.addFeed_settled (s := s.run ring d.idx) hne hfeeds, hne]
  simp only [isHost, decide_eq_true_eq]
  rfl

theorem loopPlay_joins (ring : Nat) (r : Ring) (d : Desc) (s : State)
    (h : Passes s ring 0x12 r d [(d.restZero [(8, 8), (16, 4), (20, 4)] && isDevice (leAt d.bytes 8 8), Cpl.BAD_FIELD),
      (s.rangeOk .dec false (leAt d.bytes 8 8 - 2 ^ 63) (leAt d.bytes 16 4) && s.cfgOk, Cpl.BAD_ADDRESS)])
    (hlen : 0 < leAt d.bytes 16 4) (hfeeds : ∀ f ∈ s.dec.feeds, s.dec.feedDone f = false) :
    exec (.loopPlay ring) s = .next ((s.run ring d.idx).addFeed { Feed.start ring d.idx (leAt d.bytes 16 4) with
      isLoop := true, repeat_ := leAt d.bytes 20 4, dev := some (leAt d.bytes 8 8 - 2 ^ 63) }) := by
  have hnum := State.nextOp_num h.1
  have hmax : max 1 (leAt d.bytes 16 4) = leAt d.bytes 16 4 := by omega
  have hne : (leAt d.bytes 16 4 == 0) = false := by simp; omega
  rw [← hmax] at h
  change Host.Outcome.next (s.withOp ring 0x12 _ _) = _
  rw [withOp_passes h, hnum]
  dsimp only
  rw [State.addFeed_settled (s := s.run ring d.idx) (by simp [hne]) hfeeds, hne, if_neg (by omega)]
  rfl

/-! ## STREAM_RESET (R126) -/

theorem State.stopLoops_parsed {s : State} {f : Feed} (h : f ∈ s.stopLoops.dec.feeds) (hl : f.isLoop = true) : f.parsed = true := by
  unfold State.stopLoops at h
  rw [State.settleFeeds_dec] at h
  obtain ⟨g, -, rfl⟩ := List.mem_map.1 (mem_of_feedsLeft h)
  split at hl
  · rw [if_pos ‹_›]
  · contradiction

theorem State.stopLoops_rank (s : State) : s.stopLoops.dec.rank = s.dec.rank := by
  unfold State.stopLoops
  rw [State.settleFeeds_dec]
  rfl

theorem streamReset_joins (ring : Nat) (r : Ring) (d : Desc) (s : State) (h : Passes s ring 0x11 r d [(d.restZero [], Cpl.BAD_FIELD)]) :
    exec (.streamReset ring) s =
      .next ((s.run ring d.idx).stopLoops.addFeed { Feed.start ring d.idx 0 with isReset := true }) := by
  have hnum := State.nextOp_num h.1
  change Host.Outcome.next (s.withOp ring 0x11 _ _) = _
  rw [withOp_passes h, hnum]

/-- Where the parser stands after a reset (R81). -/
theorem modeAfterReset_ne_inAu (m : ParseMode) : (if m = .inAu then ParseMode.afterReset else m) ≠ .inAu := by
  split
  · exact ParseMode.noConfusion
  · assumption

/-- The decoder after a reset: empty temporal buffers, a key unit to come, no access unit in parse (R81, R126). -/
theorem State.decReset_parser (s : State) :
    s.decReset.dec.temporal = List.replicate 36 [] ∧ s.decReset.dec.needKey = true ∧ s.decReset.dec.mode ≠ .inAu :=
  ⟨rfl, rfl, modeAfterReset_ne_inAu _⟩

/-- A marker whose descriptor is the ring's oldest takes effect: the decoder resets and the descriptor completes. -/
theorem streamReset_takesEffect {s : State} {f : Feed} (hf : (s.dec.feeds.find? fun f => !f.parsed) = some f) (hr : f.isReset = true)
    (hs : s.pwr.st = .s0) (hd : (s.descsOf f.ring).head?.map Desc.idx = some f.idx) : exec .streamResetTakesEffect s =
      .next ((s.decReset.modDec fun d => { d with feeds := d.feeds.filter fun g => g.fid != f.fid }).modDesc f.ring f.idx
        (doneAs Cpl.SUCCESS 0)) := by
  change Host.Outcome.next s.streamResetEffect = _
  unfold State.streamResetEffect
  rw [hf]
  exact congrArg _ (if_pos ⟨hr, hd, by simp [State.decRuns, hs]⟩)

/-- Settles O29: a pass of the checks is a feed at the end of the sequence, and a reset marker takes effect at its turn. -/
theorem streamDescriptorsFeedTheParser : Obligations.StreamDescriptorsFeedTheParser := by
  unfold Obligations.StreamDescriptorsFeedTheParser
  refine ⟨fun ring data r d s h hlen hfeeds => (streamPush_joins ring data r d s h hlen hfeeds).trans (by rw [State.run_addFeed]),
    fun ring r d s h hlen hfeeds => (loopPlay_joins ring r d s h hlen hfeeds).trans (by rw [State.run_addFeed]),
    fun ring r d s h => ⟨_, streamReset_joins ring r d s h, ?_, ?_, fun f hf hl => ?_⟩, fun f s hf hr hs hd => ?_⟩
  · rw [State.addFeed_dec, State.stopLoops_rank, State.run_dec]
  · rw [State.addFeed_dec, List.getLast?_concat, State.stopLoops_rank, State.run_dec]
  · rw [State.addFeed_dec, List.mem_append, List.mem_singleton] at hf
    rcases hf with hf | rfl
    · exact State.stopLoops_parsed hf hl
    · cases hl
  · obtain ⟨htemp, hkey, hmode⟩ := s.decReset_parser
    refine ⟨_, streamReset_takesEffect hf hr hs hd, htemp, hkey, hmode, fun g hg => ?_,
      (AllDescs.of_modDesc (f := doneAs Cpl.SUCCESS 0) (fun _ => rfl) (fun _ => ⟨rfl, rfl⟩) _).descsOf⟩
    simpa using (List.mem_filter.1 hg).2

end Sys2Proof.Machine
end

section
/-!
PROOFS. The stream parser, parcel by parcel (R75 to R92, R110, R115, R117, R125).
-/
namespace Sys2Proof.Machine

/-! ## A parcel is taken off its feed (R141) -/

/-- Outside the memory unit's block no register but the event registers changes. -/
def MemWords (s t : State) : Prop := ∀ o, o / 0x10000 ≠ 9 → evtReg o = false → t.word o = s.word o

theorem MemWords.wr {r s : State} (h : MemWords r s) {f : Fld} (v : Nat) (hf : f.off / 0x10000 = 9) : MemWords r (s.wr f v) :=
  fun o ho he => (s.word_wr_ne f v fun hfo => ho (by rw [hfo, hf])).trans (h o ho he)

theorem MemWords.raise {r s : State} (h : MemWords r s) (e : Nat) : MemWords r (s.raise e) :=
  fun o ho he => (s.raise_word e he).trans (h o ho he)

theorem MemWords.countCorr {r s : State} (h : MemWords r s) : MemWords r s.countCorr :=
  have hb := h.wr (f := F.MEM_CNT_COUNT 0) _ rfl
  keptBy_ite (P := MemWords r) (hb.raise _) hb

theorem MemWords.poison {r s : State} (h : MemWords r s) (c : MemClass) (sec : Nat) : MemWords r (s.poison c sec) := by
  have hb : MemWords r ((s.modMem fun m => m.poisonSector sec).bump (F.MEM_CNT_COUNT 1)) :=
    MemWords.wr (s := s.modMem _) h _ rfl
  unfold State.poison
  refine .raise (keptBy_ite (P := MemWords r) (hb.wr _ rfl) ?_) _
  exact ((((hb.wr _ rfl).wr _ rfl).wr _ rfl).wr _ rfl).wr _ rfl

theorem MemWords.touchSector {r s : State} (h : MemWords r s) (c : MemClass) (sec : Nat) : MemWords r (s.touchSector c sec) := by
  unfold State.touchSector
  split
  case h_1 => exact h
  case h_2 => exact h.wr _ rfl
  case h_3 => exact MemWords.countCorr (s := s.modMem _) h
  case h_4 => exact h.poison c sec

theorem MemWords.windowMiss {r s : State} (h : MemWords r s) (e : Engine) : MemWords r (s.windowMiss e) := by
  have hb := h.wr (f := F.MEM_CNT_COUNT 3) (satAdd (F.MEM_CNT_COUNT 3).len (s.rd (F.MEM_CNT_COUNT 3)) 1) rfl
  exact keptBy_ite (P := MemWords r) hb (MemWords.raise (s := State.modMem _ _) hb _)

theorem State.readFor_memWords (s : State) (c : MemClass) (e : Engine) (a n : Nat) : MemWords s (s.readFor c e a n) := by
  have hf := keptBy_foldl (P := MemWords s) ((sectorsOf a n).filter fun sec => s.pageOk e false (sec / 128))
    (s := s.account c (s.granted e false a n)) (fun _ _ _ => rfl) fun _ sec h => h.touchSector c sec
  exact keptBy_ite (P := MemWords s) hf (hf.windowMiss e)

/-- The parcel is counted. -/
theorem State.takeParcel_count (s : State) (f : Feed) (bs : List MByte) :
    (s.takeParcel f bs).1.rd (F.DEC_CNT_COUNT 0) = min (s.rd (F.DEC_CNT_COUNT 0) + 1) (2 ^ 32 - 1) := by
  unfold State.takeParcel
  dsimp only
  rw [State.rd_bump_same _ _ _ (by decide)]
  congr 2
  refine State.rd_of_word (f := F.DEC_CNT_COUNT 0) ?_
  split
  · exact s.readFor_memWords _ _ _ _ _ (by decide) (by decide)
  · rfl

theorem State.takeParcel_hasEvents (s : State) (f : Feed) (bs : List MByte) : (s.takeParcel f bs).1.hasEvents = s.hasEvents := by
  have hpwr : (s.takeParcel f bs).1.pwr = s.pwr := (State.takeParcel_keeps (P := 33511) rfl (.refl _ s)).same .pwr rfl
  exact State.hasEvents_pwr (by rw [hpwr])

theorem State.hasEvents_of_takes {s : State} {f : Feed} {bs : List MByte} {k : PKind} {p : Parcel} (h : Takes s f bs k p) :
    (s.takeParcel f bs).1.hasEvents = true :=
  (s.takeParcel_hasEvents f bs).trans (State.hasEvents_of_decRuns h.2.1)

/-- An intact parcel does what its kind does where the parser stands; then feeds that are done complete. -/
theorem State.parse_of_takes {s : State} {f : Feed} {bs : List MByte} {k : PKind} {p : Parcel} (h : Takes s f bs k p) :
    s.parse k = ((s.takeParcel f bs).1.onIntact f.fid k p
      (((bs.drop f.pos).take (8 + p.payload.length)).map MByte.val)).settleFeeds := by
  obtain ⟨hnext, hruns, hcfg, hat, hpoison⟩ := h
  have hpair : s.takeParcel f bs = ((s.takeParcel f bs).1, false) := Prod.ext rfl hpoison
  unfold State.parse
  rw [hnext]
  dsimp only
  rw [if_pos ⟨rfl, hruns, hcfg⟩, hpair, hat]
  rfl

/-- What a command's parcel leaves, from what its kind does to the parser. -/
theorem gives_of_takes {s : State} {f : Feed} {bs : List MByte} {k : PKind} {p : Parcel} {c : Instr} {Q : State → Prop} {v : State}
    (h : Takes s f bs k p) (hc : exec c s = .next (s.parse k))
    (hv : (s.takeParcel f bs).1.onIntact f.fid k p (((bs.drop f.pos).take (8 + p.payload.length)).map MByte.val) = v)
    (hq : Q v.settleFeeds) : Gives c s Q :=
  ⟨_, hc.trans (congrArg _ ((State.parse_of_takes h).trans (congrArg _ hv))), hq⟩

/-! ## Where the parser stands (R78, R82, R83) -/

/-- A SEQ is in force and no stretch runs: parcels of every kind have their own rules. -/
def ParseMode.inStream : ParseMode → Bool
  | .needSeq | .stretch _ => false
  | _ => true

/-- What a parcel other than SEQ, extension and PAD does in a stream. -/
def State.onStream (s : State) (fid : Nat) (k : PKind) (p : Parcel) (raw : List Byte) : State :=
  match k with
  | .grid => s.onGrid fid p
  | .au => s.onAu fid p
  | .viewpic => s.onViewpic fid p
  | .slice => s.onSlice fid false p raw
  | .depth => s.onSlice fid true p raw
  | .end_ => s.onEnd fid p
  | _ => s.damagedFeed (some fid)

theorem State.onIntact_inStream {s : State} {k : PKind} (hm : s.dec.mode.inStream = true) (hk : k ∉ [.seq, .ext, .pad]) (fid : Nat)
    (p : Parcel) (raw : List Byte) : s.onIntact fid k p raw = s.onStream fid k p raw := by
  simp only [List.mem_cons, List.not_mem_nil, or_false, not_or] at hk
  obtain ⟨hseq, hext, hpad⟩ := hk
  unfold State.onIntact
  rw [if_neg hseq, if_neg hext, if_neg hpad]
  cases hmode : s.dec.mode with
  | needSeq => rw [hmode] at hm; cases hm
  | stretch => rw [hmode] at hm; cases hm
  | _ => cases k <;> rfl

/-- In a stream a command's parcel does what its kind does there. -/
theorem gives_inStream {s : State} {f : Feed} {bs : List MByte} {k : PKind} {p : Parcel} {c : Instr} {Q : State → Prop} {v : State}
    (h : Takes s f bs k p) (hc : exec c s = .next (s.parse k)) (hm : (s.takeParcel f bs).1.dec.mode.inStream = true)
    (hv : (s.takeParcel f bs).1.onStream f.fid k p (((bs.drop f.pos).take (8 + p.payload.length)).map MByte.val) = v)
    (hq : Q v.settleFeeds) (hk : k ∉ [.seq, .ext, .pad] := by decide) : Gives c s Q :=
  gives_of_takes h hc ((State.onIntact_inStream hm hk ..).trans hv) hq

/-- A parcel of a type that no table names is damaged, but for a stretch that is only consumed (R75, R82). -/
theorem State.onIntact_invalid {s : State} (hm : s.dec.mode ≠ .stretch false) (fid : Nat) (p : Parcel) (raw : List Byte) :
    s.onIntact fid .invalid p raw = s.damagedFeed (some fid) := by
  unfold State.onIntact
  rw [if_neg (by decide), if_neg (by decide), if_neg (by decide)]
  cases hmode : s.dec.mode with
  | stretch dmg =>
    cases dmg with
    | true => rfl
    | false => exact absurd hmode hm
  | _ => rfl

/-! ## SEQ (R82, R83) -/

/-- The version, profile and luma range that the decoder supports (Table 3-6). -/
def seqSupported (b : Nat → Nat) : Prop := b 0 = 1 ∧ (b 2 = 1 ∨ b 2 = 2) ∧ (b 3 = 10 ∨ b 3 = 20 ∨ b 3 = 30)

theorem State.onSeq_unsupported {s : State} {p : Parcel} (hv : p.view = 0xFF) (hl : 16 ≤ p.payload.length)
    (hb : ¬seqSupported (byteAt p.payload)) (fid : Nat) :
    (s.onSeq fid p).settleFeeds.dec.mode = .stretch false ∧ (s.onSeq fid p).settleFeeds.regs = s.regs := by
  have hform : byteAt p.payload 0 ≠ 1 ∨ ¬(byteAt p.payload 2 = 1 ∨ byteAt p.payload 2 = 2) ∨
      ¬(byteAt p.payload 3 = 10 ∨ byteAt p.payload 3 = 20 ∨ byteAt p.payload 3 = 30) := by
    unfold seqSupported at hb
    tauto
  unfold State.onSeq
  dsimp only
  rw [if_neg (by omega), if_pos hform]
  simp

/-- With a supported format its size and its parameters decide. -/
theorem State.onSeq_supported {s : State} {p : Parcel} (hv : p.view = 0xFF) (hl : 16 ≤ p.payload.length)
    (hb : seqSupported (byteAt p.payload)) (fid : Nat) : s.onSeq fid p =
      if leAt p.payload 4 2 ≠ s.geo.cols ∨ leAt p.payload 6 2 ≠ s.geo.rows then (s.badSeq fid).raise Ev.DEC_SEQ_MISMATCH
      else if leAt p.payload 8 2 = 0 ∨ 4 < byteAt p.payload 10 then s.badSeq fid
      else s.modDec fun d => { d with mode := .afterSeq, seq := some ⟨leAt p.payload 8 2, byteAt p.payload 10⟩, gridNew := none,
                                      gridOk := false, needKey := true } := by
  obtain ⟨h0, h2, h3⟩ := hb
  unfold State.onSeq
  dsimp only
  rw [if_neg (by omega), if_neg (by tauto)]

theorem State.onSeq_mismatch {s : State} {p : Parcel} (hv : p.view = 0xFF) (hl : 16 ≤ p.payload.length)
    (hb : seqSupported (byteAt p.payload)) (hsize : ¬(leAt p.payload 4 2 = s.geo.cols ∧ leAt p.payload 6 2 = s.geo.rows)) (fid : Nat) :
    s.onSeq fid p = (s.badSeq fid).raise Ev.DEC_SEQ_MISMATCH := by
  rw [State.onSeq_supported hv hl hb, if_pos (by omega)]

theorem State.onSeq_accepted {s : State} {p : Parcel} (hv : p.view = 0xFF) (hl : 16 ≤ p.payload.length)
    (hb : seqSupported (byteAt p.payload)) (hc : leAt p.payload 4 2 = s.geo.cols) (hr : leAt p.payload 6 2 = s.geo.rows)
    (hd : leAt p.payload 8 2 ≠ 0) (ht : byteAt p.payload 10 ≤ 4) (fid : Nat) :
    let t := (s.onSeq fid p).settleFeeds
    t.dec.mode = .afterSeq ∧ t.dec.seq = some ⟨leAt p.payload 8 2, byteAt p.payload 10⟩ ∧ t.dec.gridOk = false ∧
      t.dec.needKey = true ∧ t.regs = s.regs := by
  rw [State.onSeq_supported hv hl hb, if_neg (by omega), if_neg (by omega)]
  simp

/-! ## GRID (R83, R85) -/

/-- An accepted GRID carries its U and V in its first bytes (Table 3-7). -/
theorem gridOf_size {pl : List Byte} {g : Grid} (h : gridOf pl = some g) : g.u = byteAt pl 0 ∧ g.v = byteAt pl 1 := by
  unfold gridOf at h
  dsimp only at h
  split at h
  · cases h
    exact ⟨rfl, rfl⟩
  · cases h

theorem State.onGrid_accepted {s : State} {p : Parcel} {g : Grid} (hm : s.dec.mode = .afterSeq) (hg : gridOf p.payload = some g)
    (hv : p.view = 0xFF) (hu : g.u = s.geo.gu) (hw : g.v = s.geo.gv) (fid : Nat) :
    s.onGrid fid p = s.modDec fun d => { d with mode := .afterGrid, gridNew := some g, gridOk := true } := by
  obtain ⟨h0, h1⟩ := gridOf_size hg
  unfold State.onGrid
  rw [if_neg (not_not.2 hm), if_neg (by omega), hg]
  exact if_neg (not_not.2 hv)

theorem State.onGrid_mismatch {s : State} {p : Parcel} (hm : s.dec.mode = .afterSeq) (hl : 2 ≤ p.payload.length)
    (hb : byteAt p.payload 0 ≠ s.geo.gu ∨ byteAt p.payload 1 ≠ s.geo.gv) (fid : Nat) :
    s.onGrid fid p = (s.badSeq fid).raise Ev.DEC_SEQ_MISMATCH := by
  unfold State.onGrid
  rw [if_neg (not_not.2 hm), if_pos ⟨hl, hb⟩]

/-! ## AU (R80, R81, R86) -/

theorem State.raiseIf_dec (s : State) (c : Prop) [Decidable c] (e : Nat) : (if c then s.raise e else s).dec = s.dec :=
  reads_ite (s.raise_dec e) rfl

/-- A key unit empties the temporal buffers and begins with no picture. -/
theorem State.acceptAu_key (s : State) (id : Nat) :
    let t := (s.acceptAu id true).settleFeeds
    t.dec.mode = .inAu ∧ t.dec.needKey = false ∧ t.dec.temporal = List.replicate 36 [] ∧
      ∃ c, t.dec.cur = some c ∧ c.id = id ∧ c.key = true ∧ c.live = true ∧ c.done = [] := by
  unfold State.acceptAu
  simp only [State.settleFeeds_dec, State.raiseIf_dec]
  exact ⟨rfl, rfl, rfl, _, rfl, rfl, rfl, rfl, rfl⟩

/-- An AU parcel of the right form where a unit may begin: its KEY and its number decide. -/
theorem State.onAu_formed {s : State} {p : Parcel} (hv : p.view = 0xFF) (hl : p.payload.length = 8) (hg : s.dec.gridOk = true)
    (hm : s.dec.mode ≠ .afterSeq) (fid : Nat) : s.onAu fid p =
      if bitAt (byteAt p.payload 4) 0 = false ∧ (s.dec.needKey = true ∨ s.dec.auFollows (leAt p.payload 0 4) = false) then
        (s.modDec fun d => { d with mode := .auBad }).damagedFeed (some fid)
      else s.acceptAu (leAt p.payload 0 4) (bitAt (byteAt p.payload 4) 0) := by
  unfold State.onAu
  dsimp only
  rw [if_neg (by simp [hv, hl, hg, hm])]

theorem State.onAu_key {s : State} {p : Parcel} (hv : p.view = 0xFF) (hl : p.payload.length = 8) (hg : s.dec.gridOk = true)
    (hm : s.dec.mode ≠ .afterSeq) (hk : bitAt (byteAt p.payload 4) 0 = true) (fid : Nat) :
    s.onAu fid p = s.acceptAu (leAt p.payload 0 4) true := by
  rw [State.onAu_formed hv hl hg hm, hk, if_neg (by simp)]

theorem State.onAu_damaged {s : State} {p : Parcel} (hv : p.view = 0xFF) (hl : p.payload.length = 8) (hg : s.dec.gridOk = true)
    (hm : s.dec.mode ≠ .afterSeq) (hk : bitAt (byteAt p.payload 4) 0 = false)
    (hn : s.dec.needKey = true ∨ s.dec.auFollows (leAt p.payload 0 4) = false) (fid : Nat) :
    s.onAu fid p = (s.modDec fun d => { d with mode := .auBad }).damagedFeed (some fid) := by
  rw [State.onAu_formed hv hl hg hm, if_pos ⟨hk, hn⟩]

/-- The modes in which an AU parcel may come. -/
theorem ParseMode.inStream_of_au {m : ParseMode} (h : m = .afterGrid ∨ m = .inAu ∨ m = .auBad ∨ m = .afterReset) :
    m.inStream = true ∧ m ≠ .afterSeq := by
  rcases h with rfl | rfl | rfl | rfl <;> decide

/-! ## SLICE and DEPTH (R92, R110, R139) -/

theorem memoryClosed_dec (d : DecSt) : MemoryClosed fun t => t.dec = d where
  modMem _ h := h
  wr _ _ h := h
  raise e h := (State.raise_dec _ e).trans h

/-- The archive's copy of a slice leaves the queue alone. -/
theorem State.archiveCopy_jobs (s : State) (sid : Nat) (feed : Option Nat) (bs : List Byte) :
    (s.archiveCopy sid feed bs).1.dec.jobs = s.dec.jobs := by
  have hcopies : ∀ (l : List (Nat × Nat)) (p : State × List Byte), p.1.dec = s.dec → (l.foldl (fun (p : State × List Byte) sp =>
      (p.1.writeFor .dec .dec sp.1 (p.2.take sp.2), p.2.drop sp.2)) p).1.dec = s.dec := by
    intro l
    induction l with
    | nil => exact fun _ h => h
    | cons sp l ih => exact fun p h => ih _ ((memoryClosed_dec s.dec).writeFor _ _ _ _ h)
  unfold State.archiveCopy
  dsimp only
  split
  · have hjobs := congrArg DecSt.jobs (hcopies (archSpans s.dec.cfg s.dec.archTotal bs.length) (s, bs) rfl)
    exact hjobs
  · exact congrArg DecSt.jobs ((memoryClosed_dec s.dec).windowMiss _ rfl)

theorem State.acceptSlice_jobs {s : State} {job : Job} {parcel : List Byte} (h : (s.archiveCopy job.sid job.feed parcel).2 = true) :
    (s.acceptSlice job parcel).dec.jobs = s.dec.jobs ++ [job] := by
  have hpair : s.archiveCopy job.sid job.feed parcel = ((s.archiveCopy job.sid job.feed parcel).1, true) := Prod.ext rfl h
  unfold State.acceptSlice
  rw [hpair]
  exact congrArg (· ++ [job]) (s.archiveCopy_jobs job.sid job.feed parcel)

/-- In the unit `c` the parcel is a SLICE or DEPTH parcel that names rows of the picture `q`, all of them EMPTY (R92, R110). -/
structure SliceFits (s : State) (c : CurAu) (q : Pic) (p : Parcel) (depth : Bool) : Prop where
  cur : s.dec.cur = some c
  mode : s.dec.mode = .inAu ∨ s.dec.mode = .afterReset
  length : 12 ≤ p.payload.length
  view : p.view ≤ 35
  qp : (sext 8 (byteAt p.payload 8)).natAbs ≤ 63
  target : s.dec.sliceTarget c p.view (leAt p.payload 0 4) = .pic q
  num : 0 < leAt p.payload 6 2
  inside : leAt p.payload 4 2 + leAt p.payload 6 2 ≤ q.vp.sbr
  empty : ∀ r ∈ upFrom (leAt p.payload 4 2) (leAt p.payload 6 2), (q.row depth r).kind = .empty

/-- No row that the parcel names is in any other state. -/
theorem SliceFits.noRow {s : State} {c : CurAu} {q : Pic} {p : Parcel} {depth : Bool} (h : SliceFits s c q p depth) {k : RowKind}
    (hk : k ≠ .empty) :
    ((upFrom (leAt p.payload 4 2) (leAt p.payload 6 2)).any fun r => (q.row depth r).kind == k) = false := by
  rw [List.any_eq_false]
  intro r hr
  simpa [h.empty r hr] using hk.symm

theorem SliceFits.onSlice_eq {s : State} {c : CurAu} {q : Pic} {p : Parcel} {depth : Bool} (h : SliceFits s c q p depth) (fid : Nat)
    (raw : List Byte) : s.onSlice fid depth p raw = s.acceptSlice (sliceJob s.dec.rank (some fid) q.uid depth p.payload
      (upFrom (leAt p.payload 4 2) (leAt p.payload 6 2)) s.dec.rank false) raw := by
  have hnone := fun k hk => h.noRow (k := k) hk
  obtain ⟨hcur, hmode, hlen, hview, hqp, htarget, hnum, hin, -⟩ := h
  unfold State.onSlice
  simp only [hcur]
  rw [if_neg (not_or.2 ⟨not_not.2 hmode, by omega⟩), htarget]
  dsimp only
  rw [hnone .pending (by decide), hnone .final (by decide), if_neg (by simp; omega)]
  exact if_neg (by simp [hnone .concealed (by decide)])

/-- It joins the queue where the archive takes its copy. -/
theorem SliceFits.queued {s : State} {c : CurAu} {q : Pic} {p : Parcel} {depth : Bool} (h : SliceFits s c q p depth) {fid : Nat}
    {raw : List Byte} (harch : (s.archiveCopy s.dec.rank (some fid) raw).2 = true) :
    (s.onSlice fid depth p raw).settleFeeds.dec.jobs = s.dec.jobs ++ [sliceJob s.dec.rank (some fid) q.uid depth p.payload
      (upFrom (leAt p.payload 4 2) (leAt p.payload 6 2)) s.dec.rank false] := by
  rw [h.onSlice_eq, State.settleFeeds_dec]
  exact State.acceptSlice_jobs harch

/-! ## END (R125) -/

/-- After the event of R125 no VIEWPIC may come. -/
theorem State.endAu_live {s : State} {c : CurAu} (h : s.endAu.dec.cur = some c) : c.live = false := by
  unfold State.endAu at h
  split at h
  case h_1 hc =>
    rw [hc] at h
    cases h
  case h_2 c' hc =>
    split at h
    · rename_i hlive
      rw [hc] at h
      cases h
      simpa using hlive
    · cases h
      rfl

theorem State.onEnd_ends {s : State} {p : Parcel} (hv : p.view = 0xFF) (hl : p.payload = [])
    (hm : s.dec.mode = .inAu ∨ s.dec.mode = .auBad ∨ s.dec.mode = .afterReset) (fid : Nat) :
    s.onEnd fid p = s.endAu.modDec fun d => { d with mode := .needSeq } := by
  unfold State.onEnd
  rw [if_neg]
  rcases hm with hm | hm | hm <;> simp [hv, hl, hm]

end Sys2Proof.Machine
end

section
/-!
PROOFS. The admission of a picture (R87 to R91, R115, R117), and the parser's statement as a whole.
-/
namespace Sys2Proof.Machine

/-! ## What settling references leaves of the pictures (R91, R128) -/

/-- The same picture in the same slot, whatever its references. -/
structure SamePlace (p q : Pic) : Prop where
  uid : q.uid = p.uid
  anchor : q.anchor = p.anchor
  au : q.au = p.au
  slot : q.slot = p.slot
  addr : q.addr = p.addr

theorem SamePlace.trans {p q r : Pic} (h : SamePlace p q) (k : SamePlace q r) : SamePlace p r :=
  ⟨k.uid.trans h.uid, k.anchor.trans h.anchor, k.au.trans h.au, k.slot.trans h.slot, k.addr.trans h.addr⟩

/-- The slot at a picture's address holds that picture and no other. -/
structure Stands (p : Pic) (d : DecSt) : Prop where
  only : ∀ q ∈ d.pics, q.addr = p.addr → SamePlace p q
  held : ∃ q ∈ d.pics, q.addr = p.addr

theorem DecSt.decPic_mem {d : DecSt} {uid : Nat} {p : Pic} (h : d.decPic uid = some p) : p ∈ d.pics := by
  unfold DecSt.decPic at h
  split at h
  · cases h
    exact List.mem_of_find?_eq_some ‹_›
  · exact List.mem_of_find?_eq_some h

theorem Stands.setPic {p q : Pic} {d : DecSt} (h : Stands p d) (hq : q.addr = p.addr → SamePlace p q) : Stands p (d.setPic q) where
  only x hx ha := by
    obtain ⟨y, hy, rfl⟩ := List.mem_map.1 hx
    split at ha
    · rw [if_pos ‹_›]
      exact hq ha
    · rw [if_neg ‹_›]
      exact h.only y hy ha
  held := by
    obtain ⟨y, hy, ha⟩ := h.held
    refine ⟨_, List.mem_map_of_mem hy, ?_⟩
    split
    · exact (‹y.addr = q.addr› : _).symm.trans ha
    · exact ha

/-- A change of a picture in its place leaves the others where they are. -/
theorem Stands.modPic {p : Pic} {d : DecSt} (h : Stands p d) (uid : Nat) {f : Pic → Pic} (hf : ∀ q, SamePlace q (f q)) :
    Stands p (d.modPic uid f) := by
  unfold DecSt.modPic
  split
  · exact h
  · rename_i q hq
    exact h.setPic fun ha => (h.only q (DecSt.decPic_mem hq) ((hf q).addr.symm.trans ha)).trans (hf q)

/-- From `d` to `e` only references are settled: admissions, temporal buffers, the unit in parse and the slots stay. -/
structure RefsMoved (d e : DecSt) : Prop where
  adm : e.adm = d.adm
  temporal : e.temporal = d.temporal
  cur : e.cur = d.cur
  stands : ∀ p, Stands p d → Stands p e

theorem RefsMoved.refl (d : DecSt) : RefsMoved d d := ⟨rfl, rfl, rfl, fun _ h => h⟩

theorem RefsMoved.trans {d e g : DecSt} (h : RefsMoved d e) (k : RefsMoved e g) : RefsMoved d g :=
  ⟨k.adm.trans h.adm, k.temporal.trans h.temporal, k.cur.trans h.cur, fun p hp => k.stands p (h.stands p hp)⟩

theorem RefsMoved.modPic (d : DecSt) (uid : Nat) {f : Pic → Pic} (hf : ∀ q, SamePlace q (f q)) : RefsMoved d (d.modPic uid f) := by
  refine ⟨?_, ?_, ?_, fun _ h => h.modPic uid hf⟩ <;> · unfold DecSt.modPic; split <;> rfl

theorem State.countSubst_refs (s : State) (n : Nat) : RefsMoved s.dec (s.countSubst n).dec := by
  induction n generalizing s with
  | zero => exact .refl _
  | succ n ih =>
    have hone : RefsMoved s.dec
        (((s.modDec fun d => { d with concealed := true }).bump (F.DEC_CNT_COUNT 3)).raise Ev.DEC_REF_SUBST).dec := by
      rw [State.raise_dec]
      exact ⟨rfl, rfl, rfl, fun _ h => ⟨h.only, h.held⟩⟩
    exact hone.trans (ih _)

theorem State.settleAwaited_refs (s : State) (uid anchor before : Nat) (e : Option (Nat × Nat)) :
    RefsMoved s.dec (s.settleAwaited uid anchor before e).dec := by
  have hmod : ∀ g : DecSt → Pic → List PicRef,
      RefsMoved s.dec (s.modDec fun d => d.modPic uid fun p => { p with refs := g d p }).dec :=
    fun _ => .modPic _ uid fun _ => ⟨rfl, rfl, rfl, rfl, rfl⟩
  unfold State.settleAwaited
  split
  · exact .refl _
  · dsimp only
    split
    · split
      · exact hmod _
      · exact (hmod _).trans (State.countSubst_refs _ _)
    · exact (hmod _).trans (State.countSubst_refs _ _)

/-! ## Admission (R89, R117, R484) -/

/-- The decoder with a picture just put into its slot, in the unit `c`. -/
def DecSt.withNew (d : DecSt) (c : CurAu) (p : Pic) : DecSt :=
  { d.freeSlot p.anchor p.slot with
    adm := p.uid
    pics := p :: (d.freeSlot p.anchor p.slot).pics
    temporal := d.temporal.set p.anchor ((p.uid :: d.tempOf p.anchor).take 4)
    cur := some { c with done := p.anchor :: c.done, short := c.short.filter fun a => a != p.anchor } }

theorem DecSt.withNew_stands {d : DecSt} {p : Pic} (c : CurAu)
    (h : ∀ q ∈ d.pics, q.addr = p.addr → q.anchor = p.anchor ∧ q.slot = p.slot) : Stands p (d.withNew c p) where
  only q hq ha := by
    rcases List.mem_cons.1 hq with rfl | hq
    · exact ⟨rfl, rfl, rfl, rfl, rfl⟩
    · obtain ⟨hmem, hother⟩ := List.mem_filter.1 hq
      obtain ⟨hanchor, hslot⟩ := h q hmem ha
      simp [hanchor, hslot] at hother
  held := ⟨p, List.mem_cons_self, rfl⟩

/-- The picture a VIEWPIC describes, with every row EMPTY (R88 to R91). -/
def State.newPic (s : State) (c : CurAu) (g : Grid) (view k : Nat) (b : Nat → Nat) : Pic :=
  let rows := List.replicate (viewPicOf s.geo b).sbr SbRow.fresh
  { uid := s.dec.adm + 1, anchor := view, au := c.id, auRank := c.rank, epoch := s.dec.epoch, slot := k,
    addr := s.dec.cfg.slotAddr view k, vp := viewPicOf s.geo b, refs := (s.dec.refList c g view b).1, tex := rows, dep := rows,
    passed := false, win := .unopened, repair := false, stale := false, stalePin := false }

/-- That picture enters its slot; beyond that only references are settled. -/
theorem State.admitPic_refs (s : State) (c : CurAu) (g : Grid) (view k : Nat) (b : Nat → Nat) :
    RefsMoved (s.dec.withNew c (s.newPic c g view k b)) (s.admitPic c g view k b).dec := by
  unfold State.admitPic
  exact (keptBy_foldl (P := fun t => RefsMoved (s.dec.withNew c (s.newPic c g view k b)) t.dec) _ (.refl _)
    fun s q h => h.trans (s.settleAwaited_refs _ _ _ _)).trans (State.countSubst_refs _ _)

theorem State.admitPic_shows (s : State) (c : CurAu) (g : Grid) (view k : Nat) (b : Nat → Nat) :
    let t := (s.admitPic c g view k b).settleFeeds
    t.dec.adm = s.dec.adm + 1 ∧ t.dec.temporal = s.dec.temporal.set view (((s.dec.adm + 1) :: s.dec.tempOf view).take 4) ∧
      (∃ c', t.dec.cur = some c' ∧ c'.done = view :: c.done) ∧
      ((∀ q ∈ s.dec.pics, q.addr = s.dec.cfg.slotAddr view k → q.anchor = view ∧ q.slot = k) →
        ∃ q ∈ t.dec.pics, q.uid = s.dec.adm + 1 ∧ q.anchor = view ∧ q.au = c.id ∧ q.slot = k ∧ q.addr = s.dec.cfg.slotAddr view k) := by
  have hmoved := s.admitPic_refs c g view k b
  simp only [State.settleFeeds_dec]
  rw [hmoved.adm, hmoved.temporal, hmoved.cur]
  refine ⟨rfl, rfl, ⟨_, rfl, rfl⟩, fun hslot => ?_⟩
  obtain ⟨honly, q, hq, ha⟩ := hmoved.stands _ (DecSt.withNew_stands c hslot)
  have hsame := honly q hq ha
  exact ⟨q, hq, hsame.uid, hsame.anchor, hsame.au, hsame.slot, hsame.addr⟩

/-- In the unit `c` the parcel is a VIEWPIC that keeps the rules (R87, R91) and whose picture fits the slots of its anchor (R115). -/
structure ViewpicFits (s : State) (c : CurAu) (g : Grid) (q : SeqPar) (p : Parcel) : Prop where
  mode : s.dec.mode = .inAu
  cur : s.dec.cur = some c
  grid : s.dec.grid = some g
  seq : s.dec.seq = some q
  length : p.payload.length = 24
  rules : s.dec.viewpicOk c g p.view (byteAt p.payload) (leAt p.payload 0 4) q.maxTref = true
  anchor : p.view < s.dec.cfg.anchors
  size : 6 * (viewPicOf s.geo (byteAt p.payload)).cw * (viewPicOf s.geo (byteAt p.payload)).ch ≤ s.dec.cfg.stride * 4096

/-- Such a picture is admitted into the slot chosen, or its anchor is short of one. -/
theorem ViewpicFits.onViewpic_eq {s : State} {c : CurAu} {g : Grid} {q : SeqPar} {p : Parcel} (h : ViewpicFits s c g q p) (fid : Nat) :
    s.onViewpic fid p = match s.chooseSlot p.view with
      | some k => s.admitPic c g p.view k (byteAt p.payload)
      | none => (s.modDec fun d => { d with cur := some { c with short := p.view :: c.short } }).raise Ev.DEC_POOL_SHORT := by
  unfold State.onViewpic
  simp only [h.mode, h.cur, h.grid, h.seq]
  rw [if_pos ⟨h.length, h.rules⟩, if_pos (by simp [h.anchor, h.size])] <;> rfl

theorem ViewpicFits.admits {s : State} {c : CurAu} {g : Grid} {q : SeqPar} {p : Parcel} (h : ViewpicFits s c g q p) {k : Nat}
    (hk : s.chooseSlot p.view = some k) (fid : Nat) : s.onViewpic fid p = s.admitPic c g p.view k (byteAt p.payload) := by
  rw [h.onViewpic_eq, hk]

theorem ViewpicFits.short {s : State} {c : CurAu} {g : Grid} {q : SeqPar} {p : Parcel} (h : ViewpicFits s c g q p)
    (hk : s.chooseSlot p.view = none) (fid : Nat) : s.onViewpic fid p =
      (s.modDec fun d => { d with cur := some { c with short := p.view :: c.short } }).raise Ev.DEC_POOL_SHORT := by
  rw [h.onViewpic_eq, hk]

/-! ## The statement -/

/-- A parcel that fails its CRC is damaged. -/
theorem State.parse_crcFailed {s : State} {f : Feed} {bs : List MByte} (hnext : s.nextParcel = some (f, bs, .crc))
    (hruns : s.decRuns = true) (hcfg : s.cfgOk = true) (hat : parcelAt (bs.map MByte.val) f.pos = none) :
    s.parse .crc = ((s.takeParcel f bs).1.damagedFeed (some f.fid)).settleFeeds := by
  unfold State.parse
  rw [hnext]
  dsimp only
  rw [if_pos ⟨rfl, hruns, hcfg⟩, hat]

/-- Settles O30: each kind of parcel, as the parser meets it. -/
theorem parcelsAreParsed : Obligations.ParcelsAreParsed := by
  unfold Obligations.ParcelsAreParsed
  intro f bs p s u b
  have hev : ∀ {k}, Takes s f bs k p → u.hasEvents = true := State.hasEvents_of_takes
  refine ⟨fun h hv hl => ⟨fun hb => ?_, fun h0 h2 h3 => ⟨fun hc hr hd ht => ?_, fun hsize => ?_⟩⟩,
    fun g h hm hg hv hu hw => ?_, fun h hm hl hb => ?_, fun h hv hl hg hm => ?_,
    fun c g q h hm hc hg hq hl hok ha hs => ?_, fun depth c q h hc hm hl hv hq ht h0 hr hrows harch => ?_,
    fun h hv => ⟨?_, s.takeParcel_count f bs⟩, fun h => ?_, fun h hv hl hm => ?_, fun h hm => ?_, fun hnext hruns hcfg hat => ?_⟩
  · exact gives_of_takes h rfl rfl (State.onSeq_unsupported hv hl hb _)
  · exact gives_of_takes h rfl rfl (State.onSeq_accepted hv hl ⟨h0, h2, h3⟩ hc hr hd ht _)
  · exact gives_of_takes h rfl (State.onSeq_mismatch hv hl ⟨h0, h2, h3⟩ hsize _) (State.mismatch_shows (hev h) _)
  · exact gives_inStream h rfl (by rw [hm]; rfl) (State.onGrid_accepted hm hg hv hu hw _) (by simp)
  · exact gives_inStream h rfl (by rw [hm]; rfl) (State.onGrid_mismatch hm hl hb _) (State.mismatch_shows (hev h) _)
  · obtain ⟨hs, hne⟩ := ParseMode.inStream_of_au hm
    refine ⟨fun hk => gives_inStream h rfl hs (State.onAu_key hv hl hg hne hk _) (State.acceptAu_key _ _), fun hk hn => ?_⟩
    exact gives_inStream h rfl hs (State.onAu_damaged hv hl hg hne hk hn _)
      ⟨by simp, by simp [u], (State.damagedFeed_raised (s := u.modDec _) (hev h) _).settleFeeds⟩
  · have hfits : ViewpicFits u c g q p := ⟨hm, hc, hg, hq, hl, hok, ha, hs⟩
    have hstream : u.dec.mode.inStream = true := by rw [hm]; rfl
    refine ⟨fun k hk => gives_inStream h rfl hstream (hfits.admits hk _) (u.admitPic_shows c g p.view k b), fun hk => ?_⟩
    refine gives_inStream h rfl hstream (hfits.short hk _) ⟨by simp [u], Raised.settleFeeds (State.raised _ (by decide) (hev h))⟩
  · have hstream : u.dec.mode.inStream = true := by rcases hm with hm | hm <;> rw [hm] <;> rfl
    have hjobs := SliceFits.queued ⟨hc, hm, hl, hv, hq, ht, h0, hr, hrows⟩ harch
    cases depth with
    | false => exact gives_inStream h rfl hstream rfl hjobs
    | true => exact gives_inStream h rfl hstream rfl hjobs
  · exact congrArg _ ((State.parse_of_takes h).trans (congrArg State.settleFeeds (if_pos hv)))
  · exact congrArg _ (State.parse_of_takes h)
  · have hstream : u.dec.mode.inStream = true := by rcases hm with hm | hm | hm <;> rw [hm] <;> rfl
    exact gives_inStream h rfl hstream (State.onEnd_ends hv hl hm _) ⟨by simp, fun c hc => State.endAu_live (by simpa using hc)⟩
  · exact gives_of_takes h rfl (State.onIntact_invalid hm ..) (State.damagedFeed_raised (hev h) _).settleFeeds
  · have he : u.hasEvents = true := (s.takeParcel_hasEvents f bs).trans (State.hasEvents_of_decRuns hruns)
    exact ⟨_, congrArg Host.Outcome.next (State.parse_crcFailed hnext hruns hcfg hat),
      (State.damagedFeed_raised he _).settleFeeds, by simp [u], by simp [u]⟩

end Sys2Proof.Machine
end

section
/-!
PROOFS. The decode lanes: dispatch and suspension (R111, R112, R123), finished rows (R124), the watchdog (R119), concealment (R127)
and late windows (R132).
-/
namespace Sys2Proof.Machine

/-! ## Registers that a read of memory leaves alone (R328 to R330, R337) -/

/-- What a read of device memory does keeps `P`: changes of memory, its counts and error record below the protection windows, and
events. -/
structure ReadClosed (P : State → Prop) : Prop where
  modMem : ∀ {s : State} (f : MemSt → MemSt), P s → P (s.modMem f)
  wr : ∀ {s : State} {f : Fld} (v : Nat), f.off / 0x100 = 0x900 → P s → P (s.wr f v)
  raise : ∀ {s : State} (e : Nat), P s → P (s.raise e)

namespace ReadClosed

variable {P : State → Prop} (c : ReadClosed P) {s : State}
include c

theorem countCorr (h : P s) : P s.countCorr :=
  have hb := c.wr (f := F.MEM_CNT_COUNT 0) _ rfl h
  keptBy_ite (c.raise _ hb) hb

theorem poison (cl : MemClass) (sec : Nat) (h : P s) : P (s.poison cl sec) := by
  have hb : P ((s.modMem fun m => m.poisonSector sec).bump (F.MEM_CNT_COUNT 1)) := c.wr _ rfl (c.modMem _ h)
  unfold State.poison
  refine c.raise _ (keptBy_ite (c.wr _ rfl hb) ?_)
  exact c.wr _ rfl (c.wr _ rfl (c.wr _ rfl (c.wr _ rfl (c.wr _ rfl hb))))

theorem touchSector (cl : MemClass) (sec : Nat) (h : P s) : P (s.touchSector cl sec) := by
  unfold State.touchSector
  split
  case h_1 => exact h
  case h_2 => exact c.wr _ rfl h
  case h_3 => exact c.countCorr (c.modMem _ h)
  case h_4 => exact c.poison cl sec h

theorem windowMiss (e : Engine) (h : P s) : P (s.windowMiss e) :=
  have hb := c.wr (f := F.MEM_CNT_COUNT 3) _ rfl h
  keptBy_ite hb (c.raise _ (c.modMem _ hb))

theorem readFor (cl : MemClass) (e : Engine) (a n : Nat) (h : P s) : P (s.readFor cl e a n) := by
  have hf := keptBy_foldl ((sectorsOf a n).filter fun sec => s.pageOk e false (sec / 128))
    (c.modMem (fun m => { m with traffic := m.traffic.modify cl.num (· + s.granted e false a n) }) h) fun _ sec h => c.touchSector cl sec h
  exact keptBy_ite hf (c.windowMiss e hf)

end ReadClosed

/-- From the protection windows up no register changes. -/
def WindowsKept (s t : State) : Prop := ∀ o, 0x90100 ≤ o → t.word o = s.word o

theorem windowsKept_closed (r : State) : ReadClosed (WindowsKept r) where
  modMem _ h := h
  wr v hf h o ho := (State.word_wr_ne _ _ v (by omega)).trans (h o ho)
  raise e h o ho := (State.raise_word _ e (by simp [evtReg]; omega)).trans (h o ho)

theorem State.readFor_windows (s : State) (c : MemClass) (e : Engine) (a n : Nat) : WindowsKept s (s.readFor c e a n) :=
  (windowsKept_closed s).readFor c e a n fun _ _ => rfl

/-- The windows decide what a range grants. -/
theorem WindowsKept.rangeOk {s t : State} (h : WindowsKept s t) (e : Engine) (write : Bool) (a n : Nat) :
    t.rangeOk e write a n = s.rangeOk e write a n := by
  have hbase : ∀ k, t.rd (F.MEM_WIN_BASE_PAGE k) = s.rd (F.MEM_WIN_BASE_PAGE k) :=
    fun k => State.rd_of_word (h _ (by simp [F.MEM_WIN_BASE_PAGE]))
  have hlimit : ∀ k, t.rd (F.MEM_WIN_LIMIT_PAGE k) = s.rd (F.MEM_WIN_LIMIT_PAGE k) :=
    fun k => State.rd_of_word (h _ (by simp [F.MEM_WIN_LIMIT_PAGE]; omega))
  have hgrants : ∀ k, t.winGrants e write k = s.winGrants e write k := fun k => by
    unfold State.winGrants
    rw [h _ (by omega)]
  have hstep : ∀ p, t.coverStep e write p = s.coverStep e write p := fun p => by
    simp only [State.coverStep, hbase, hlimit, hgrants]
  have hcover : ∀ p, t.coverFrom e write p = s.coverFrom e write p := fun p => by simp only [State.coverFrom, hstep]
  unfold State.rangeOk
  rw [hcover]

/-! ## A lane at a row (R112, R118, R122, R123) -/

@[simp] theorem State.readFor_dec (s : State) (c : MemClass) (e : Engine) (a n : Nat) : (s.readFor c e a n).dec = s.dec :=
  (memoryClosed_dec s.dec).readFor c e a n rfl

@[simp] theorem State.writeFor_dec (s : State) (c : MemClass) (e : Engine) (a : Nat) (bs : List Byte) :
    (s.writeFor c e a bs).dec = s.dec :=
  (memoryClosed_dec s.dec).writeFor c e a bs rfl

/-- The state once the memory that the decode of a row reads has been read. -/
def State.rowRead (s : State) (p : Pic) (j : Job) : State :=
  (s.decodeRow p j).1.foldl (fun s sp => s.readFor .dec .dec sp.1 sp.2) (s.drawn (p.refs.length * 2 ^ 27))

@[simp] theorem State.rowRead_dec (s : State) (p : Pic) (j : Job) : (s.rowRead p j).dec = s.dec := by
  unfold State.rowRead
  rw [foldl_reads (g := State.dec) fun s (sp : Nat × Nat) => s.readFor_dec .dec .dec sp.1 sp.2, State.drawn_dec]

/-- The slice is at a row of its own that it has to make, of a picture the decoder holds. -/
structure AtRow (s : State) (p : Pic) (j : Job) : Prop where
  pic : s.dec.decPic j.uid = some p
  inside : j.row < j.first + j.num
  asked : j.only.contains j.row = true

/-- Where a row leaves its slice, if the slice stays at it: in the lane until the row is written, or suspended. -/
def RowRes.holds : RowRes → Option JobSt
  | .done out false => some (.lane out)
  | .stopped (.blocked on) => some (.waiting on)
  | _ => none

theorem AtRow.runLane_holds {s : State} {p : Pic} {j : Job} (h : AtRow s p j) {st : JobSt}
    (hres : (s.decodeRow p j).2.2.holds = some st) (k : Nat) : (s.runLane (k + 1) j).dec = s.dec.setJob { j with st := st } := by
  have hset := congrArg (DecSt.setJob · { j with st := st }) (s.rowRead_dec p j)
  unfold State.runLane
  rw [h.pic]
  dsimp only
  rw [if_neg (Nat.not_le.2 h.inside), if_neg (by simpa using h.asked)]
  cases hrow : (s.decodeRow p j).2.2 with
  | damaged => rw [hrow] at hres; cases hres
  | stopped why =>
    rw [hrow] at hres
    cases why with
    | blocked on => cases hres; exact hset
    | bounds => cases hres
  | done out poison =>
    rw [hrow] at hres
    cases poison with
    | false => cases hres; exact hset
    | true => cases hres

theorem State.decRuns_of_s0 {s : State} (h : s.pwr.st = .s0) : s.decRuns = true := by simp [State.decRuns, h]

/-- A free lane works on the lowest-ranked queued slice. -/
theorem sliceDispatch_runs {s : State} {j : Job} (hs : s.pwr.st = .s0) (hj : (sortBy Job.rank s.dec.queued).head? = some j)
    (hfree : s.dec.inLanes.length < 32) : exec .sliceDispatch s = .next (s.runLane (j.num + 1) j) := by
  refine exec_pos (b := s) ?_ (State.decRuns_of_s0 hs)
  change Host.Outcome.next (if s.decRuns then s.sliceDispatch else s) = _
  unfold State.sliceDispatch
  rw [hj]
  exact congrArg _ (congrArg (if s.decRuns then · else s) (if_pos hfree))

/-! ## Suspended slices (R123) -/

/-- A suspended slice as the queue finds it. -/
def DecSt.resumed (d : DecSt) (j : Job) : Job :=
  match j.st with
  | .waiting on => if on.all (d.waitOver j.uid) then { j with st := .queued } else j
  | _ => j

theorem State.sliceResume_eq (s : State) : s.sliceResume = s.modDec fun d => { d with jobs := d.jobs.map d.resumed } := rfl

theorem DecSt.resumed_ready {d : DecSt} {j : Job} {on : List WaitOn} (h : j.st = .waiting on)
    (hover : ∀ w ∈ on, d.waitOver j.uid w = true) : d.resumed j = { j with st := .queued } := by
  unfold DecSt.resumed
  rw [h]
  exact if_pos (List.all_eq_true.2 hover)

theorem DecSt.resumed_waits {d : DecSt} {j : Job} (h : ∀ on, j.st = .waiting on → ∃ w ∈ on, d.waitOver j.uid w = false) :
    d.resumed j = j := by
  unfold DecSt.resumed
  split
  · obtain ⟨w, hw, hover⟩ := h _ ‹_›
    exact if_neg fun hall => by simp [List.all_eq_true.1 hall w hw] at hover
  · rfl

theorem State.sliceResume_get {s : State} {i : Nat} {j : Job} (h : s.dec.jobs[i]? = some j) :
    s.sliceResume.dec.jobs[i]? = some (s.dec.resumed j) := by
  rw [State.sliceResume_eq]
  exact (List.getElem?_map ..).trans (congrArg _ h)

/-! ## A decoded row is written (R112, R124) -/

theorem sbrowFinal_writes {s : State} {n : Nat} {j : Job} {out : RowOut} {p : Pic} (hs : s.pwr.st = .s0)
    (hn : s.dec.inLanes[n]? = some (j, out)) (hp : s.dec.decPic j.uid = some p)
    (hok : s.rangeOk .dec true (p.rowSpan j.depth j.row).1 (p.rowSpan j.depth j.row).2 = true) :
    exec (.sbrowFinal n) s = .next (((s.writeFor .dec .dec (p.rowSpan j.depth j.row).1 (rowBytes j.depth out.comps)).modDec fun d =>
        d.modPic j.uid fun p => p.modRow j.depth j.row fun w =>
          { w with kind := .final, ready := true, reads := out.reads, slice := j.sid }).runLane (j.num + 1)
      (j.next out.pos out.units (some (bottomLine out.comps p.vp.cw)))) := by
  refine (exec_pos (b := s) rfl (State.decRuns_of_s0 hs)).trans (congrArg _ ?_)
  unfold State.sbrowFinal
  rw [hn]
  dsimp only
  rw [hp]
  dsimp only
  exact if_neg (by simp [hok])

/-! ## The watchdog (R119, R120) -/

/-- A set status bit outlasts every move of an engine. -/
theorem raised_closed {src : Nat} (hs : src < 512) : EngineClosed (Raised src) where
  modMem _ h := h
  parts hp h := by
    rw [hp]
    exact h
  wr v hf h := h.wr _ v (by simp [engineReg] at hf; simp [evtReg]; omega) hs
  raise _ h := h.raise hs

theorem State.concealRow_jobs (s : State) (uid : Nat) (depth : Bool) (r : Nat) (feed : Option Nat) :
    (s.concealRow uid depth r feed).dec.jobs = s.dec.jobs := by
  unfold State.concealRow
  split <;> rfl

/-- Concealment leaves the slices of the engine alone. -/
@[simp] theorem State.concealRows_jobs (s : State) (uid : Nat) (feed : Option Nat) (rows : List (Bool × Nat)) :
    (s.concealRows uid feed rows).dec.jobs = s.dec.jobs := by
  have hrows := foldl_reads (g := fun t => t.dec.jobs) (fun s (r : Bool × Nat) => s.concealRow_jobs uid r.1 r.2 feed) rows s
  refine reads_ite (g := fun t => t.dec.jobs) rfl ?_
  rw [State.raise_dec]
  exact hrows

/-- Beside event registers concealment writes its own count. -/
theorem State.concealRows_words (s : State) (uid : Nat) (feed : Option Nat) (rows : List (Bool × Nat)) :
    WordsKept [0xA0044] s (s.concealRows uid feed rows) := by
  have hrow : ∀ t (r : Bool × Nat), WordsKept [0xA0044] s t → WordsKept [0xA0044] s (t.concealRow uid r.1 r.2 feed) := by
    intro t r h o ho he
    unfold State.concealRow
    split
    · exact h o ho he
    · exact (State.word_wr_ne _ (F.DEC_CNT_COUNT 1) _ fun h => ho (List.mem_singleton.2 h)).trans (h o ho he)
  refine keptBy_ite (P := WordsKept [0xA0044] s) (.refl s _) fun o ho he => (State.raise_word _ _ he).trans ?_
  exact keptBy_foldl (P := WordsKept [0xA0044] s) rows (.refl s _) hrow o ho he

theorem State.settleFeeds_word (s : State) (o : Nat) : s.settleFeeds.word o = s.word o := by
  unfold State.word
  rw [State.settleFeeds_regs]

theorem State.abandonJob_words (s : State) (j : Job) : WordsKept [0xA0044] s (s.abandonJob j) := by
  intro o ho he
  unfold State.abandonJob
  rw [State.settleFeeds_word]
  exact (State.raise_word _ _ he).trans ((s.modDec fun d => d.dropJob j).concealRows_words _ _ _ o ho he)

theorem Raised.abandonJob {src : Nat} {s : State} (h : Raised src s) (hs : src < 512) (j : Job) : Raised src (s.abandonJob j) := by
  have hc := (raised_closed hs).concealRows j.uid j.feed (j.left.map fun r => (j.depth, r)) (s := s.modDec fun d => d.dropJob j) h
  exact (Raised.raise (s := State.modDec _ _) hc hs).settleFeeds

/-- An abandoned slice's feed is damaged (R76). -/
theorem State.abandonJob_raised {s : State} (h : s.pwr.st = .s0) (j : Job) : Raised Ev.DEC_DAMAGED (s.abandonJob j) := by
  have hc := (powerKept_closed .s0).concealRows j.uid j.feed (j.left.map fun r => (j.depth, r)) (s := s.modDec fun d => d.dropJob j) h
  exact (State.damagedFeed_raised (State.hasEvents_of_decRuns (State.decRuns_of_s0 hc)) _).settleFeeds

/-- An abandoned slice is in the engine no more. -/
theorem State.abandonJob_dropped (s : State) (j : Job) : j ∉ (s.abandonJob j).dec.jobs := by
  simp [State.abandonJob, State.modDec, DecSt.dropJob]

theorem decWatchdog_slice {s : State} {n : Nat} {j : Job} {out : RowOut} (hs : s.pwr.st = .s0)
    (hn : s.dec.inLanes[n]? = some (j, out)) :
    Gives (.decWatchdog (some n)) s fun t => Raised Ev.DEC_WATCHDOG t ∧ Raised Ev.DEC_DAMAGED t ∧ j ∉ t.dec.jobs ∧
      t.rd (F.DEC_CNT_COUNT 7) = min (s.rd (F.DEC_CNT_COUNT 7) + 1) (2 ^ 32 - 1) := by
  have hwatch : s.watchLane n = (((s.noteReads j out.reads).bump (F.DEC_CNT_COUNT 7)).raise Ev.DEC_WATCHDOG).abandonJob j := by
    unfold State.watchLane
    rw [hn]
  refine gives_pos rfl (State.decRuns_of_s0 hs) ?_
  rw [hwatch]
  refine ⟨Raised.abandonJob (State.raised _ (by decide) ?_) (by decide) j, State.abandonJob_raised ?_ j, State.abandonJob_dropped _ j, ?_⟩
  · exact State.hasEvents_of_decRuns (State.decRuns_of_s0 hs)
  · rw [State.raise_pwr]
    exact hs
  · rw [(State.abandonJob_words _ j).rd (by decide) (by decide), State.raise_rd _ _ (by decide), State.rd_bump_same _ _ _ (by decide)]
    rfl

/-- A parcel taken off its feed leaves the slices in the engine alone. -/
theorem State.takeParcel_jobs (s : State) (f : Feed) (bs : List MByte) : (s.takeParcel f bs).1.dec.jobs = s.dec.jobs := by
  simp only [State.takeParcel, State.bump_dec, State.modDec_dec, DecSt.modFeed]
  split
  · rw [s.readFor_dec]
  · rfl

/-- Taking a parcel counts parcels, not abandonments. -/
theorem State.takeParcel_watchCount (s : State) (f : Feed) (bs : List MByte) :
    (s.takeParcel f bs).1.rd (F.DEC_CNT_COUNT 7) = s.rd (F.DEC_CNT_COUNT 7) := by
  unfold State.takeParcel
  refine (State.rd_wr_apart _ _ _ _ (by decide)).trans (State.rd_of_word ?_)
  split
  · exact s.readFor_windows _ _ _ _ _ (by decide)
  · rfl

/-- The parcel in parse is abandoned as damaged, a SEQ with the stretch it begins (R83). -/
def State.abandonParcel (s : State) (k : PKind) (fid : Nat) : State :=
  if k = .seq then s.badSeq fid else s.damagedFeed (some fid)

theorem State.abandonParcel_jobs (s : State) (k : PKind) (fid : Nat) : (s.abandonParcel k fid).dec.jobs = s.dec.jobs := by
  unfold State.abandonParcel
  split <;> simp [State.badSeq, State.modDec]

theorem State.abandonParcel_raised {s : State} (h : s.hasEvents = true) (k : PKind) (fid : Nat) :
    Raised Ev.DEC_DAMAGED (s.abandonParcel k fid) :=
  keptBy_ite (State.badSeq_raised h fid) (State.damagedFeed_raised h _)

theorem Raised.abandonParcel {src : Nat} {s : State} (h : Raised src s) (hs : src < 512) (k : PKind) (fid : Nat) :
    Raised src (s.abandonParcel k fid) :=
  keptBy_ite (Raised.raise (s := State.modDec _ _) h hs) (Raised.raise (s := State.modDec _ _) h hs)

theorem State.abandonParcel_rd (s : State) (k : PKind) (fid : Nat) {f : Fld} (hf : evtReg f.off = false) :
    (s.abandonParcel k fid).rd f = s.rd f :=
  reads_ite (g := fun t => t.rd f) (State.raise_rd (State.modDec _ _) _ hf) (State.raise_rd (State.modDec _ _) _ hf)

theorem decWatchdog_parcel {s : State} {f : Feed} {bs : List MByte} {k : PKind} (hnext : s.nextParcel = some (f, bs, k))
    (hs : s.pwr.st = .s0) (hcfg : s.cfgOk = true) :
    Gives (.decWatchdog none) s fun t => Raised Ev.DEC_WATCHDOG t ∧ Raised Ev.DEC_DAMAGED t ∧ t.dec.jobs = s.dec.jobs ∧
      t.rd (F.DEC_CNT_COUNT 7) = min (s.rd (F.DEC_CNT_COUNT 7) + 1) (2 ^ 32 - 1) := by
  have hruns := State.decRuns_of_s0 hs
  let u := (s.takeParcel f bs).1.bump (F.DEC_CNT_COUNT 7)
  have hwatch : s.watchParser = ((u.raise Ev.DEC_WATCHDOG).abandonParcel k f.fid).settleFeeds := by
    unfold State.watchParser
    rw [hnext]
    exact if_neg (by simp [hruns, hcfg])
  have hev : u.hasEvents = true := (s.takeParcel_hasEvents f bs).trans (State.hasEvents_of_decRuns hruns)
  refine ⟨_, congrArg Host.Outcome.next hwatch, ((State.raised u (by decide) hev).abandonParcel (by decide) ..).settleFeeds,
    (State.abandonParcel_raised (by rw [State.hasEvents_raise]; exact hev) ..).settleFeeds, ?_, ?_⟩
  · rw [State.settleFeeds_dec, State.abandonParcel_jobs, State.raise_dec]
    exact s.takeParcel_jobs f bs
  · rw [State.rd_of_regs (State.settleFeeds_regs _), State.abandonParcel_rd _ _ _ (by decide), State.raise_rd _ _ (by decide),
      State.rd_bump_same _ _ _ (by decide), State.takeParcel_watchCount]
    rfl

/-! ## Concealment (R127, R129) -/

@[simp] theorem State.decWrite_dec (s : State) (a : Nat) (bs : List Byte) : (s.decWrite a bs).dec = s.dec :=
  reads_ite (s.writeFor_dec ..) ((State.raise_dec ..).trans (s.writeFor_dec ..))

@[simp] theorem State.decWrite_mem (s : State) (a : Nat) (bs : List Byte) :
    (s.decWrite a bs).mem = (s.writeFor .dec .dec a bs).mem :=
  reads_ite (g := State.mem) rfl (State.raise_mem ..)

/-- The state once the source of a concealed row has been read, `n` bytes at `a`: poison there marks the feed of the row. -/
def State.sourceRead (s : State) (feed : Option Nat) (a n : Nat) : State :=
  let bs := s.peekFor .dec a n
  let s := s.readFor .dec .dec a n
  let s := if s.rangeOk .dec false a n then s else s.raise Ev.DEC_BOUNDS
  if bs.any MByte.poison then s.modDec fun d => d.markPoison feed else s

/-- Reading the source may mark a feed, and leaves pictures and slices alone. -/
theorem State.sourceRead_dec (s : State) (feed : Option Nat) (a n : Nat) :
    (s.sourceRead feed a n).dec.pics = s.dec.pics ∧ (s.sourceRead feed a n).dec.jobs = s.dec.jobs := by
  have hread : (if (s.readFor .dec .dec a n).rangeOk .dec false a n then s.readFor .dec .dec a n
      else (s.readFor .dec .dec a n).raise Ev.DEC_BOUNDS).dec = s.dec :=
    reads_ite (s.readFor_dec ..) ((State.raise_dec ..).trans (s.readFor_dec ..))
  unfold State.sourceRead
  dsimp only
  split <;> simp only [State.modDec, hread, DecSt.markPoison, and_self]

/-- Inside the decoder's rights nothing else changes beyond what the read itself does. -/
theorem State.sourceRead_granted {s : State} {a n : Nat} (h : s.rangeOk .dec false a n = true) (feed : Option Nat) :
    s.sourceRead feed a n = { s.readFor .dec .dec a n with dec := (s.sourceRead feed a n).dec } := by
  have hok : (s.readFor .dec .dec a n).rangeOk .dec false a n = true := (WindowsKept.rangeOk (s.readFor_windows .dec .dec a n) ..).trans h
  unfold State.sourceRead
  dsimp only
  rw [if_pos hok]
  split <;> rfl

theorem State.writeConceal_source (s : State) (p : Pic) (depth : Bool) (r : Nat) (q : Pic) :
    s.writeConceal p depth r (some q) = (State.decWrite
        (s.sourceRead (p.row depth r).feed (q.rowSpan depth r).1 (p.rowSpan depth r).2) (p.rowSpan depth r).1
        (unpoison depth (s.peekFor .dec (q.rowSpan depth r).1 (p.rowSpan depth r).2))).modDec fun d =>
      d.modPic p.uid fun p => p.modRow depth r fun w =>
        { w with ready := true, reads := ⟨q.uid, depth, r, (q.row depth r).ver⟩ :: w.reads } := rfl

/-- A waiting row whose source is ready takes its samples. -/
theorem State.concealCopy_due {s : State} {n : Nat} {p : Pic} {depth : Bool} {r : Nat} (hn : s.dec.copiesDue[n]? = some (p, depth, r))
    (hready : ∀ src, (p.row depth r).src = some src → ∀ q, s.dec.decPic src = some q → (q.row depth r).ready = true) :
    s.concealCopy n = s.writeConceal p depth r ((p.row depth r).src.bind s.dec.decPic) := by
  unfold State.concealCopy
  rw [hn]
  dsimp only
  cases hsrc : (p.row depth r).src.bind s.dec.decPic with
  | none => rfl
  | some q =>
    obtain ⟨u, hu, hq⟩ := Option.bind_eq_some_iff.1 hsrc
    exact if_pos (hready u hu q hq)

/-- Without a source the row takes flat samples. -/
theorem State.writeConceal_flat (s : State) (p : Pic) (depth : Bool) (r : Nat) :
    (s.writeConceal p depth r none).dec = s.dec.modPic p.uid (fun p => p.modRow depth r fun w => { w with ready := true }) ∧
      (s.writeConceal p depth r none).mem = (s.writeFor .dec .dec (p.rowSpan depth r).1
        ((List.range (p.vp.cw * p.lines r)).flatMap fun _ => flatBytes depth)).mem :=
  ⟨by simp [State.writeConceal], s.decWrite_mem ..⟩

/-! ## The statement -/

/-- Settles O31: each command of the lanes, as the engine meets it. -/
theorem slicesAreDecodedRowByRow : Obligations.SlicesAreDecodedRowByRow := by
  unfold Obligations.SlicesAreDecodedRowByRow
  refine ⟨fun j p s hs hj hfree hp hrow honly => ?_, fun s hs => ?_, fun n j out p s hs hn hp hok => ?_,
    fun n j out s hs hn => decWatchdog_slice hs hn, fun f bs k s hnext hs hcfg => decWatchdog_parcel hnext hs hcfg,
    fun n p depth r s hs hn hready => ?_, fun s => rfl⟩
  · have hat : AtRow s p j := ⟨hp, hrow, honly⟩
    have hrun := sliceDispatch_runs hs hj hfree
    exact ⟨fun out hres => ⟨_, hrun, hat.runLane_holds (congrArg RowRes.holds hres) j.num⟩,
      fun on hres => ⟨_, hrun, hat.runLane_holds (congrArg RowRes.holds hres) j.num⟩⟩
  · refine gives_pos rfl (State.decRuns_of_s0 hs) ⟨rfl, List.length_map _, fun i j hj => ⟨fun on hon hover => ?_, fun hwaits => ?_⟩⟩
    · rw [State.sliceResume_get hj, DecSt.resumed_ready hon hover]
    · rw [State.sliceResume_get hj, DecSt.resumed_waits hwaits]
  · exact ⟨_, sbrowFinal_writes hs hn hp hok, rfl, by simp⟩
  · intro span
    refine gives_pos rfl (State.decRuns_of_s0 hs) ?_
    rw [State.concealCopy_due hn hready]
    cases (p.row depth r).src.bind s.dec.decPic with
    | none => exact ⟨s.dec, rfl, rfl, s.writeConceal_flat p depth r⟩
    | some q =>
      obtain ⟨hpics, hjobs⟩ := s.sourceRead_dec (p.row depth r).feed (q.rowSpan depth r).1 span.2
      rw [State.writeConceal_source]
      refine ⟨_, hpics, hjobs, by rw [State.modDec_dec, State.decWrite_dec], fun hok => ?_⟩
      rw [← State.sourceRead_granted hok]
      exact State.decWrite_mem ..

end Sys2Proof.Machine
end

section
/-!
PROOFS. What an engine's work on memory leaves alone: all but memory, the memory unit's registers and events (R328 to R331, R337).
-/
namespace Sys2Proof.Machine

/-! ## Work on memory -/

/-- From `s` to `t` an engine has read and written memory and drawn free values: rings, the engines' own state and every register
outside the memory unit and the event ring are as before. The mask is that of `State.writeFor_keeps`. -/
structure MemWork (s t : State) : Prop where
  words : MemWords s t
  rings : t.hif.rings = s.hif.rings
  keeps : Keeps 743 s t

theorem MemWords.trans {r s t : State} (h : MemWords r s) (k : MemWords s t) : MemWords r t :=
  fun o ho he => (k o ho he).trans (h o ho he)

theorem MemWords.mergeSector {r s : State} (h : MemWords r s) (c : MemClass) (sec o : Nat) (bs : List Byte) :
    MemWords r (s.mergeSector c sec o bs) := by
  unfold State.mergeSector
  dsimp only
  split
  case h_1 => exact h
  case h_2 => exact MemWords.countCorr (s := s.modMem _) h
  case h_3 => exact h.raise _
  case h_4 => exact (h.poison c sec).raise _

theorem MemWords.writeSector {r s : State} (h : MemWords r s) (c : MemClass) (sec : Nat) (p : Nat × List Byte) :
    MemWords r (s.writeSector c sec p) :=
  keptBy_ite (P := MemWords r) h (h.mergeSector c sec _ _)

theorem State.writeFor_memWords (s : State) (c : MemClass) (e : Engine) (a : Nat) (bs : List Byte) :
    MemWords s (s.writeFor c e a bs) := by
  have hf := keptBy_foldl (P := MemWords s) ((sectorsOf a bs.length).filter fun sec => s.pageOk e true (sec / 128))
    (s := s.account c (s.granted e true a bs.length)) (fun _ _ _ => rfl)
    fun _ sec h => h.writeSector c sec (sectorPart a bs sec)
  exact keptBy_ite (P := MemWords s) hf (hf.windowMiss e)

theorem memoryClosed_rings (l : List Ring) : MemoryClosed fun t => t.hif.rings = l where
  modMem _ h := h
  wr _ _ h := h
  raise e h := (State.raise_rings _ e).trans h

namespace MemWork

theorem refl (s : State) : MemWork s s := ⟨fun _ _ _ => rfl, rfl, .refl _ s⟩

variable {r s : State} (h : MemWork r s)
include h

theorem raise (e : Nat) : MemWork r (s.raise e) :=
  ⟨h.words.raise e, (s.raise_rings e).trans h.rings, State.raise_keeps rfl h.keeps⟩

theorem readFor (c : MemClass) (e : Engine) (a n : Nat) : MemWork r (s.readFor c e a n) :=
  ⟨h.words.trans (s.readFor_memWords c e a n), (memoryClosed_rings _).readFor c e a n h.rings, State.readFor_keeps rfl h.keeps⟩

theorem writeFor (c : MemClass) (e : Engine) (a : Nat) (bs : List Byte) : MemWork r (s.writeFor c e a bs) :=
  ⟨h.words.trans (s.writeFor_memWords c e a bs), (memoryClosed_rings _).writeFor c e a bs h.rings, State.writeFor_keeps rfl h.keeps⟩

theorem drawn (n : Nat) : MemWork r (s.drawn n) := ⟨h.words, h.rings, State.drawn_keeps rfl h.keeps⟩

theorem account (c : MemClass) (n : Nat) : MemWork r (s.account c n) := ⟨h.words, h.rings, State.account_keeps rfl h.keeps⟩

theorem bufRead (c : MemClass) (e : Engine) (a n : Nat) : MemWork r (s.bufRead c e a n) :=
  keptBy_ite (P := MemWork r) (h.account _ n) (h.readFor c e _ n)

theorem emit (o : Out) : MemWork r (s.emit o) := ⟨h.words, h.rings, State.emit_keeps rfl h.keeps⟩

theorem bufWrite (c : MemClass) (e : Engine) (a : Nat) (bs : List Byte) (poison : Bool) : MemWork r (s.bufWrite c e a bs poison) :=
  keptBy_ite (P := MemWork r) ((h.account _ _).emit _) (h.writeFor c e _ bs)

theorem foldl {α : Type} {f : State → α → State} (l : List α) (hf : ∀ s a, MemWork r s → MemWork r (f s a)) :
    MemWork r (l.foldl f s) :=
  keptBy_foldl l h hf

/-! What is as before. -/

theorem enc : s.enc = r.enc := h.keeps.same .enc rfl

theorem blt : s.blt = r.blt := h.keeps.same .blt rfl

theorem tim : s.tim = r.tim := h.keeps.same .tim rfl

theorem hasEvents : s.hasEvents = r.hasEvents := State.hasEvents_pwr (congrArg PwrSt.st (h.keeps.same .pwr rfl))

theorem rd {f : Fld} (hf : f.off / 0x10000 ≠ 9) (he : evtReg f.off = false) : s.rd f = r.rd f :=
  State.rd_of_word (h.words _ hf he)

/-- What an occurrence carries (R393, Table 15-7) does not depend on memory. -/
theorem heldNow {e : Nat} (he : e < 512) : s.heldNow [e] = r.heldNow [e] := by
  have henable : s.rd (evtEnableFld e) = r.rd (evtEnableFld e) := by
    refine h.rd ?_ ?_ <;> simp [evtEnableFld, evtReg] <;> omega
  have hlive : s.evtLive e = r.evtLive e := by
    simp only [State.evtLive, State.rdB, henable, h.rd (f := F.HIF_STATUS_RESET_BUSY) (by decide) (by decide)]
  have hvalid : s.rdB F.TIM_STATUS_VALID = r.rdB F.TIM_STATUS_VALID := congrArg (· == 1) (h.rd (by decide) (by decide))
  have hstamp : s.ropeStamp = r.ropeStamp := by
    rw [State.ropeStamp, State.ropeStamp, hvalid, State.dcNs, State.dcNs, h.tim]
  have hnow : s.evtNow = r.evtNow := funext fun e => by
    rw [State.evtNow, State.evtNow, hstamp, State.frameNo, State.frameNo, h.rd (by decide) (by decide)]
  simp only [State.heldNow, List.filter_cons, List.filter_nil, hlive, hnow]

/-- Rings after a descriptor is changed. -/
theorem modDesc_rings (ring idx : Nat) (f : Desc → Desc) : (s.modDesc ring idx f).hif.rings = (r.modDesc ring idx f).hif.rings :=
  congrArg (List.map _) h.rings

end MemWork

/-! ## Descriptors that end with an event -/

/-- The record of a descriptor that ends with one event, as memory work before it leaves it. -/
theorem MemWork.complete_rings {r s : State} (h : MemWork r s) (ring idx status info cflags : Nat) {e : Nat} (he : e < 512) :
    (s.complete ring idx status info cflags [e]).hif.rings = (r.modDesc ring idx fun d =>
      { doneAs status info d with cflags := cflags, evs := r.heldNow [e] }).hif.rings := by
  rw [← h.heldNow he, ← h.modDesc_rings]
  exact congrArg HifSt.rings (State.evtStatus_hif _ e)

end Sys2Proof.Machine
end

section
/-!
PROOFS. Sessions of the encoder (R281 to R287) and key requests (R301).
-/
namespace Sys2Proof.Machine

/-! ## When ENC acts (Tables 5-4, 16-3) -/

theorem State.encRuns_of_s0 {s : State} (hs : s.pwr.st = .s0) : s.encRuns = true := by simp [State.encRuns, hs]

theorem State.encMoves_of_s0 {s : State} (hs : s.pwr.st = .s0) (hy : s.yields = false) : s.encMoves = true := by
  simp [State.encMoves, State.encRuns_of_s0 hs, hy]

theorem State.encMoves_yields {s : State} (hy : s.yields = true) : ¬s.encMoves = true := by simp [State.encMoves, hy]

theorem State.hasEvents_of_s0 {s : State} (hs : s.pwr.st = .s0) : s.hasEvents = true := by simp [State.hasEvents, State.awake, hs]

/-! ## Completion -/

@[simp] theorem State.evtStatus_enc (s : State) (e : Nat) : (s.evtStatus e).enc = s.enc :=
  (State.evtStatus_keeps (P := 582) rfl (.refl _ s)).same .enc rfl

/-- A failure of Table 10-5, whatever memory work the started descriptor has done. -/
theorem MemWork.encFails {s u : State} {ring : Nat} {d : Desc} (h : MemWork (s.run ring d.idx) u) (code : Nat) :
    EncFails s ring d code (u.encFail ring d.idx code) := by
  refine ⟨(State.evtStatus_enc _ _).trans h.enc, State.evtStatus_set _ (by decide), ?_⟩
  rw [State.encFail, h.complete_rings _ _ _ _ _ (by decide), s.run_modDesc ring d.idx _ fun _ => rfl]
  rfl

/-- The encoder changes after memory work of a started descriptor. -/
theorem MemWork.modEnc_shows {s u : State} {ring idx : Nat} (h : MemWork (s.run ring idx) u) (f : EncSt → EncSt) :
    (u.modEnc f).enc = f s.enc ∧ (u.modEnc f).hif.rings = (s.run ring idx).hif.rings :=
  ⟨congrArg f h.enc, h.rings⟩

/-- The encoder changes and the descriptor succeeds, whatever memory work came before. -/
theorem MemWork.succeeds {s u : State} {ring idx : Nat} (h : MemWork (s.run ring idx) u) (f : EncSt → EncSt) (info : Nat) :
    let t := (u.modEnc f).complete ring idx Cpl.SUCCESS info
    t.enc = f s.enc ∧ t.mem = u.mem ∧ t.hif.rings = (s.modDesc ring idx (doneAs Cpl.SUCCESS info)).hif.rings :=
  ⟨congrArg f h.enc, rfl, by rw [← s.run_done, ← h.modDesc_rings]; rfl⟩

/-! ## ENC_OPEN (R281, R283, R285, R287) -/

theorem encOpen_passes {ring : Nat} {param : List Byte} {r : Ring} {d : Desc} {s : State} (hs : s.pwr.st = .s0)
    (hy : s.yields = false) (h : Passes s ring 0x40 r d (s.encOpenChecks param r d)) :
    exec (.encOpen ring param) s = .next ((s.run ring d.idx).encOpen r d param) := by
  change Host.Outcome.next (if s.encMoves then s.withOp ring 0x40 _ _ else s) = _
  rw [if_pos (State.encMoves_of_s0 hs hy), withOp_passes h]

/-- The lowest free session number. -/
def EncSt.freeNum (e : EncSt) : Option Nat := (List.range 16).find? fun n => !e.sess.any fun x => x.num == n

theorem EncSt.freeNum_eq_some {e : EncSt} {n : Nat} (hn : n < 16) (hfree : ∀ x ∈ e.sess, x.num ≠ n)
    (hlow : ∀ m < n, ∃ x ∈ e.sess, x.num = m) : e.freeNum = some n := by
  refine List.find?_range_eq_some.2 ⟨?_, List.mem_range.2 hn, fun m hm => ?_⟩
  · simpa using hfree
  · simpa using hlow m hm

theorem EncSt.freeNum_eq_none {e : EncSt} (h : ∀ n < 16, ∃ x ∈ e.sess, x.num = n) : e.freeNum = none :=
  List.find?_range_eq_none.2 fun n hn => by simpa using h n hn

/-- Why an ENC_OPEN fails, and the code it fails with (Table 10-5). -/
def EncOpenFails (e : EncSt) (ring : Nat) (b : List Byte) (code : Nat) : Prop :=
  let p := encParOf b
  (code = 0x51 ∧ (e.ofRing ring).isSome = true) ∨ (code = 0x50 ∧ e.ofRing ring = none ∧ encParamOk b p = false) ∨
    (code = 0x54 ∧ e.ofRing ring = none ∧ encParamOk b p = true ∧ 4096 * p.workSize < p.workNeed) ∨
    (code = 0x51 ∧ e.ofRing ring = none ∧ encParamOk b p = true ∧ p.workNeed ≤ 4096 * p.workSize ∧
      ∀ n < 16, ∃ x ∈ e.sess, x.num = n)

/-- What a new session writes at the start of its loop region, and the session then. -/
def EncPar.loopHead (p : EncPar) : List Byte := parcelOf 1 0xFF p.seqPayload ++ parcelOf 2 0xFF p.gridPayload
def EncPar.opened (p : EncPar) (n ring : Nat) : EncSess :=
  ⟨n, ring, p, p.loopHead.length, p.qpInit, 0, 0, false, false, false, false, [], none, []⟩

theorem State.encBlockBytes_run (s : State) (ring idx : Nat) (d : Desc) (param : List Byte) :
    (s.run ring idx).encBlockBytes d param = s.encBlockBytes d param := rfl

theorem State.encBlockRead_work (s : State) (d : Desc) (n : Nat) : MemWork s (s.bufRead .enc .enc d.encBlock n) :=
  (MemWork.refl s).bufRead _ _ _ _

theorem State.encOpen_fails {s : State} {r : Ring} {d : Desc} {param b : List Byte} {code : Nat} (hb : s.encBlockBytes d param = b)
    (h : EncOpenFails s.enc r.num b code) :
    s.encOpen r d param = (s.bufRead .enc .enc d.encBlock b.length).encFail r.num d.idx code := by
  unfold State.encOpen
  dsimp only
  rw [hb, (s.encBlockRead_work d b.length).enc]
  rcases h with ⟨rfl, hring⟩ | ⟨rfl, hring, hpar⟩ | ⟨rfl, hring, hpar, hwork⟩ | ⟨rfl, hring, hpar, hwork, hall⟩
  · rw [if_pos hring]
    rfl
  · rw [hring, if_neg (by simp), if_pos (by rw [hpar]; rfl)]
    rfl
  · rw [hring, if_neg (by simp), hpar, if_neg (by simp), if_pos hwork]
    rfl
  · rw [hring, if_neg (by simp), hpar, if_neg (by simp), if_neg (Nat.not_lt.2 hwork), ← EncSt.freeNum, EncSt.freeNum_eq_none hall]
    rfl

theorem State.encAppend_eq (s : State) (x : EncSess) (bs : List Byte) : s.encAppend x bs =
    (s.writeFor .enc .enc (x.par.loopBase - 2 ^ 63 + x.wptr) bs, { x with wptr := x.wptr + bs.length }) := rfl

theorem State.encOpen_opens {s : State} {r : Ring} {d : Desc} {param b : List Byte} {n : Nat} (hb : s.encBlockBytes d param = b)
    (hring : s.enc.ofRing r.num = none) (hpar : encParamOk b (encParOf b) = true)
    (hwork : (encParOf b).workNeed ≤ 4096 * (encParOf b).workSize) (hn : s.enc.freeNum = some n) :
    s.encOpen r d param = (((s.bufRead .enc .enc d.encBlock b.length).writeFor .enc .enc ((encParOf b).loopBase - 2 ^ 63)
      (encParOf b).loopHead).modEnc fun e => { e with sess := e.sess ++ [(encParOf b).opened n r.num] }).complete r.num d.idx
        Cpl.SUCCESS n := by
  unfold State.encOpen
  dsimp only
  rw [hb, (s.encBlockRead_work d b.length).enc, hring, if_neg (by simp), hpar, if_neg (by simp), if_neg (Nat.not_lt.2 hwork),
    ← EncSt.freeNum, hn]
  dsimp only
  rw [State.encAppend_eq]
  dsimp only
  rw [Nat.zero_add, Nat.add_zero, ← EncPar.loopHead, ← EncPar.opened]

theorem encOpen_shows {ring : Nat} {param : List Byte} {r : Ring} {d : Desc} {s : State} (hs : s.pwr.st = .s0)
    (hy : s.yields = false) (h : Passes s ring 0x40 r d (s.encOpenChecks param r d)) {b : List Byte} {n : Nat}
    (hb : s.encBlockBytes d param = b) (hring : s.enc.ofRing ring = none) (hpar : encParamOk b (encParOf b) = true)
    (hwork : (encParOf b).workNeed ≤ 4096 * (encParOf b).workSize) (hn : s.enc.freeNum = some n) :
    Gives (.encOpen ring param) s fun t =>
      t.enc = { s.enc with sess := s.enc.sess ++ [(encParOf b).opened n ring] } ∧
      t.mem = (((s.run ring d.idx).bufRead .enc .enc d.encBlock b.length).writeFor .enc .enc ((encParOf b).loopBase - 2 ^ 63)
        (encParOf b).loopHead).mem ∧
      t.hif.rings = (s.modDesc ring d.idx (doneAs Cpl.SUCCESS n)).hif.rings := by
  have hnum := State.nextOp_num h.1
  subst hnum
  have hgo := State.encOpen_opens (s := s.run r.num d.idx) ((s.encBlockBytes_run _ _ d param).trans hb) hring hpar hwork hn
  have hw := ((s.run r.num d.idx).encBlockRead_work d b.length).writeFor .enc .enc ((encParOf b).loopBase - 2 ^ 63)
    (encParOf b).loopHead
  exact ⟨_, (encOpen_passes hs hy h).trans (congrArg _ hgo), hw.succeeds _ n⟩

theorem encOpen_refused {ring : Nat} {param : List Byte} {r : Ring} {d : Desc} {s : State} (hs : s.pwr.st = .s0)
    (hy : s.yields = false) (h : Passes s ring 0x40 r d (s.encOpenChecks param r d)) {b : List Byte} {code : Nat}
    (hb : s.encBlockBytes d param = b) (hc : EncOpenFails s.enc ring b code) :
    Gives (.encOpen ring param) s (EncFails s ring d code) := by
  have hnum := State.nextOp_num h.1
  subst hnum
  have hgo := State.encOpen_fails (s := s.run r.num d.idx) ((s.encBlockBytes_run _ _ d param).trans hb) hc
  exact ⟨_, (encOpen_passes hs hy h).trans (congrArg _ hgo), (State.encBlockRead_work _ d _).encFails code⟩

/-! ## ENC_PUT (R291, R301) -/

theorem encPut_passes {ring : Nat} {table : List Byte} {r : Ring} {d : Desc} {s : State} (hs : s.pwr.st = .s0)
    (hy : s.yields = false) (h : Passes s ring 0x41 r d (s.encPutChecks table r d)) :
    exec (.encPut ring table) s = .next ((s.run ring d.idx).encPut r d table) := by
  change Host.Outcome.next (if s.encMoves then s.withOp ring 0x41 _ _ else s) = _
  rw [if_pos (State.encMoves_of_s0 hs hy), withOp_passes h]

theorem encPut_joins {ring : Nat} {table : List Byte} {r : Ring} {d : Desc} {s : State} (hs : s.pwr.st = .s0)
    (hy : s.yields = false) (h : Passes s ring 0x41 r d (s.encPutChecks table r d)) {x : EncSess} (hx : s.enc.ofRing ring = some x) :
    let n := x.par.anchors.length
    Gives (.encPut ring table) s fun t =>
      t.enc = s.enc.setSess { x with puts := x.puts ++ [encPutOf d (s.srcTable d n table) n x.keyNext], keyNext := false } ∧
        t.hif.rings = (s.run ring d.idx).hif.rings := by
  intro n
  have hnum := State.nextOp_num h.1
  subst hnum
  have hgo : (s.run r.num d.idx).encPut r d table = ((s.run r.num d.idx).bufRead .enc .enc (leAt d.bytes 8 8) (32 * n)).modEnc fun e =>
      e.setSess { x with puts := x.puts ++ [encPutOf d (s.srcTable d n table) n x.keyNext], keyNext := false } := by
    have hx' : (s.run r.num d.idx).enc.ofRing r.num = some x := hx
    rw [State.encPut, hx']
    rfl
  have hw := (MemWork.refl (s.run r.num d.idx)).bufRead .enc .enc (leAt d.bytes 8 8) (32 * n)
  exact ⟨_, (encPut_passes hs hy h).trans (congrArg _ hgo), hw.modEnc_shows _⟩

theorem encPut_refused {ring : Nat} {table : List Byte} {r : Ring} {d : Desc} {s : State} (hs : s.pwr.st = .s0)
    (hy : s.yields = false) (h : Passes s ring 0x41 r d (s.encPutChecks table r d)) (hx : s.enc.ofRing ring = none) :
    Gives (.encPut ring table) s (EncFails s ring d 0x51) := by
  have hnum := State.nextOp_num h.1
  subst hnum
  have hx' : (s.run r.num d.idx).enc.ofRing r.num = none := hx
  have hgo : (s.run r.num d.idx).encPut r d table = (s.run r.num d.idx).encFail r.num d.idx 0x51 := by
    rw [State.encPut, hx']
    rfl
  exact ⟨_, (encPut_passes hs hy h).trans (congrArg _ hgo), (MemWork.refl _).encFails _⟩

/-! ## ENC_KEY (R301) -/

theorem encKey_marks {ring : Nat} {r : Ring} {d : Desc} {s : State} (hs : s.pwr.st = .s0)
    (h : Passes s ring 0x42 r d [(d.restZero [], Cpl.BAD_FIELD)]) {x : EncSess} (hx : s.enc.ofRing ring = some x) :
    exec (.encKey ring) s =
      .next (({ s with enc := s.enc.setSess { x with keyNext := true } } : State).modDesc ring d.idx (doneAs Cpl.SUCCESS 0)) := by
  have hnum := State.nextOp_num h.1
  subst hnum
  have hx' : (s.run r.num d.idx).enc.ofRing r.num = some x := hx
  change Host.Outcome.next (if s.encRuns then s.withOp r.num 0x42 encBare _ else s) = _
  rw [if_pos (State.encRuns_of_s0 hs), withOp_passes h, hx']
  exact congrArg Host.Outcome.next
    (({ s with enc := s.enc.setSess { x with keyNext := true } } : State).run_done r.num d.idx Cpl.SUCCESS 0)

theorem encKey_refused {ring : Nat} {r : Ring} {d : Desc} {s : State} (hs : s.pwr.st = .s0)
    (h : Passes s ring 0x42 r d [(d.restZero [], Cpl.BAD_FIELD)]) (hx : s.enc.ofRing ring = none) :
    Gives (.encKey ring) s (EncFails s ring d 0x51) := by
  have hnum := State.nextOp_num h.1
  subst hnum
  have hx' : (s.run r.num d.idx).enc.ofRing r.num = none := hx
  have hgo : exec (.encKey r.num) s = .next ((s.run r.num d.idx).encFail r.num d.idx 0x51) := by
    change Host.Outcome.next (if s.encRuns then s.withOp r.num 0x42 encBare _ else s) = _
    rw [if_pos (State.encRuns_of_s0 hs), withOp_passes h, hx']
    rfl
  exact ⟨_, hgo, (MemWork.refl _).encFails _⟩

/-! ## ENC_CLOSE (R282) -/

theorem encClose_passes {ring : Nat} {r : Ring} {d : Desc} {s : State} (hs : s.pwr.st = .s0) (hy : s.yields = false)
    (hidle : s.enc.idleOn ring = true) (h : Passes s ring 0x43 r d [(d.restZero [], Cpl.BAD_FIELD)]) :
    exec (.encClose ring) s = .next ((s.run ring d.idx).encClose r d) := by
  change Host.Outcome.next (if s.encMoves && s.enc.idleOn ring then s.withOp ring 0x43 encBare _ else s) = _
  rw [if_pos (by rw [State.encMoves_of_s0 hs hy, hidle]; rfl), withOp_passes h]

theorem encClose_closes {ring : Nat} {r : Ring} {d : Desc} {s : State} (hs : s.pwr.st = .s0) (hy : s.yields = false)
    (h : Passes s ring 0x43 r d [(d.restZero [], Cpl.BAD_FIELD)]) {x : EncSess} (hx : s.enc.ofRing ring = some x)
    (hputs : x.puts = []) (hcur : x.cur = none) : Gives (.encClose ring) s fun t =>
      t.enc = { s.enc with sess := s.enc.sess.filter fun y => y.num != x.num } ∧
      t.mem = ((s.run ring d.idx).writeFor .enc .enc (x.par.loopBase - 2 ^ 63 + x.wptr) (parcelOf 8 0xFF [])).mem ∧
      t.hif.rings = (s.modDesc ring d.idx (doneAs Cpl.SUCCESS (x.wptr + 8))).hif.rings := by
  have hnum := State.nextOp_num h.1
  subst hnum
  have hx' : (s.run r.num d.idx).enc.ofRing r.num = some x := hx
  have hidle : s.enc.idleOn r.num = true := by simp [EncSt.idleOn, hx, hputs, hcur]
  have hgo : (s.run r.num d.idx).encClose r d =
      (((s.run r.num d.idx).writeFor .enc .enc (x.par.loopBase - 2 ^ 63 + x.wptr) (parcelOf 8 0xFF [])).modEnc fun e =>
        { e with sess := e.sess.filter fun y => y.num != x.num }).complete r.num d.idx Cpl.SUCCESS (x.wptr + 8) := by
    rw [State.encClose, hx']
    rfl
  have hw := (MemWork.refl (s.run r.num d.idx)).writeFor .enc .enc (x.par.loopBase - 2 ^ 63 + x.wptr) (parcelOf 8 0xFF [])
  exact ⟨_, (encClose_passes hs hy hidle h).trans (congrArg _ hgo), hw.succeeds _ _⟩

theorem encClose_refused {ring : Nat} {r : Ring} {d : Desc} {s : State} (hs : s.pwr.st = .s0) (hy : s.yields = false)
    (h : Passes s ring 0x43 r d [(d.restZero [], Cpl.BAD_FIELD)]) (hx : s.enc.ofRing ring = none) :
    Gives (.encClose ring) s (EncFails s ring d 0x51) := by
  have hnum := State.nextOp_num h.1
  subst hnum
  have hx' : (s.run r.num d.idx).enc.ofRing r.num = none := hx
  have hidle : s.enc.idleOn r.num = true := by simp [EncSt.idleOn, hx]
  have hgo : (s.run r.num d.idx).encClose r d = (s.run r.num d.idx).encFail r.num d.idx 0x51 := by
    rw [State.encClose, hx']
    rfl
  exact ⟨_, (encClose_passes hs hy hidle h).trans (congrArg _ hgo), (MemWork.refl _).encFails _⟩

/-! ## The statement -/

/-- Settles O40: what each row does on a started descriptor, with the memory work it does on the way. -/
theorem encoderSessionsOpenAndClose : Obligations.EncoderSessionsOpenAndClose := by
  unfold Obligations.EncoderSessionsOpenAndClose
  refine ⟨fun ring param r d s hs hy h => ⟨fun n hn hring hpar hwork hfree hlow => ?_, fun code hc => encOpen_refused hs hy h rfl hc⟩,
    fun ring table r d s hs hy h => ⟨fun x hx => encPut_joins hs hy h hx, encPut_refused hs hy h⟩,
    fun ring r d s hs h => ⟨fun x hx => encKey_marks hs h hx, encKey_refused hs h⟩,
    fun ring r d s hs hy h => ⟨fun x hx hputs hcur => encClose_closes hs hy h hx hputs hcur, encClose_refused hs hy h⟩,
    fun val s hopen => exec_pos (b := s) rfl hopen, fun ring bs s hy => ?_⟩
  · exact encOpen_shows hs hy h rfl hring hpar hwork (EncSt.freeNum_eq_some hn hfree hlow)
  · have hno := State.encMoves_yields hy
    exact ⟨exec_neg rfl hno, exec_neg rfl hno,
      exec_neg (a := s.withOp ring 0x43 encBare fun r d s => s.encClose r d) rfl (by simp [hno])⟩

end Sys2Proof.Machine
end

section
/-!
PROOFS. What an engine counts and announces: counters saturate, and nothing but event state changes beside them.
-/
namespace Sys2Proof.Machine

/-- From `s` to `t` only the counters at the given offsets change, and what events write. -/
structure Reports (offs : List Nat) (s t : State) : Prop where
  words : WordsKept offs s t
  status : ∀ {src}, src < 512 → Raised src s → Raised src t
  rings : t.hif.rings = s.hif.rings
  pwr : t.pwr = s.pwr
  mem : t.mem = s.mem
  blt : t.blt = s.blt
  enc : t.enc = s.enc
  sent : ∃ l, t.out = l ++ s.out

namespace Reports

variable {offs : List Nat} {r s : State}

theorem refl (offs : List Nat) (s : State) : Reports offs s s := ⟨.refl s offs, fun _ h => h, rfl, rfl, rfl, rfl, rfl, [], rfl⟩

theorem raise (h : Reports offs r s) (e : Nat) : Reports offs r (s.raise e) where
  words := fun o ho he => (s.raise_word e he).trans (h.words o ho he)
  status := fun hs hr => (h.status hs hr).raise hs
  rings := (s.raise_rings e).trans h.rings
  pwr := (s.raise_pwr e).trans h.pwr
  mem := (s.raise_mem e).trans h.mem
  blt := (s.raise_blt e).trans h.blt
  enc := (s.raise_enc e).trans h.enc
  sent := by
    obtain ⟨l, hl⟩ := h.sent
    obtain ⟨m, hm⟩ := (s.raise_events e).sent
    exact ⟨m ++ l, by rw [hm, hl, List.append_assoc]⟩

theorem wr (h : Reports offs r s) {f : Fld} (v : Nat) (hf : f.off ∈ offs) (hlow : 0x20040 ≤ f.off) : Reports offs r (s.wr f v) where
  words := fun o ho he => (s.word_wr_ne f v fun hof => ho (by rwa [hof])).trans (h.words o ho he)
  status := fun {src} hs hr =>
    (s.rd_wr_apart f (evtStatusFld src) v (by simp only [evtStatusFld]; omega)).trans (h.status hs hr)
  rings := h.rings
  pwr := h.pwr
  mem := h.mem
  blt := h.blt
  enc := h.enc
  sent := h.sent

theorem bump (h : Reports offs r s) {f : Fld} (n : Nat) (hf : f.off ∈ offs) (hlow : 0x20040 ≤ f.off) :
    Reports offs r (s.bump f n) := h.wr _ hf hlow

theorem trans {more : List Nat} {t : State} (h : Reports offs r s) (k : Reports more s t) : Reports (offs ++ more) r t where
  words := h.words.trans k.words
  status := fun hs hr => k.status hs (h.status hs hr)
  rings := k.rings.trans h.rings
  pwr := k.pwr.trans h.pwr
  mem := k.mem.trans h.mem
  blt := k.blt.trans h.blt
  enc := k.enc.trans h.enc
  sent := by
    obtain ⟨l, hl⟩ := h.sent
    obtain ⟨m, hm⟩ := k.sent
    exact ⟨m ++ l, by rw [hm, hl, List.append_assoc]⟩

theorem hasEvents (h : Reports offs r s) : s.hasEvents = r.hasEvents := State.hasEvents_pwr (congrArg PwrSt.st h.pwr)

theorem rd (h : Reports offs r s) {f : Fld} (hf : f.off ∉ offs) (he : evtReg f.off = false) : s.rd f = r.rd f := h.words.rd hf he

end Reports

/-- A 32-bit counter that counts where something happened, and is then left alone. -/
theorem State.rd_countIf (s : State) {f : Fld} (hlo : f.lo = 0) (hlen : f.len = 32) (c : Prop) [Decidable c] {g : State → State}
    (hg : ∀ s, (g s).rd f = s.rd f) :
    (if c then g (s.bump f) else s).rd f = min (s.rd f + if c then 1 else 0) (2 ^ 32 - 1) := by
  have hlt : s.rd f < 2 ^ f.len := bits_lt _ _ _
  rw [hlen] at hlt
  split
  · rw [hg, State.rd_bump_same _ _ _ (by omega), hlen]
  · exact (Nat.min_eq_left (Nat.le_sub_one_of_lt hlt)).symm

/-- An event that is raised where it is due. -/
theorem State.raiseIf_shows {s : State} (hs : s.hasEvents = true) (c : Prop) [Decidable c] {e : Nat} (he : evtInUse e = true) :
    let t := if c then s.raise e else s
    Reports [] s t ∧ (c → Raised e t) := by
  dsimp only
  split
  · exact ⟨(Reports.refl [] s).raise e, fun _ => State.raised _ he hs⟩
  · exact ⟨.refl [] s, fun hc => absurd hc ‹_›⟩

/-- Something that happened is counted and announced. -/
def State.tellIf (s : State) (b : Bool) (f : Fld) (e : Nat) : State := if b then (s.bump f).raise e else s

theorem State.tellIf_shows {s : State} (hs : s.hasEvents = true) (b : Bool) {f : Fld} (hf : f.lo = 0 ∧ f.len = 32)
    (hlow : 0x20040 ≤ f.off) (hreg : evtReg f.off = false) {e : Nat} (he : evtInUse e = true) :
    Reports [f.off] s (s.tellIf b f e) ∧ (b = true → Raised e (s.tellIf b f e)) ∧
      (s.tellIf b f e).rd f = min (s.rd f + if b then 1 else 0) (2 ^ 32 - 1) := by
  refine ⟨?_, fun hb => ?_, s.rd_countIf hf.1 hf.2 (b = true) (g := fun t => t.raise e) fun t => t.raise_rd e hreg⟩
  · have hbump := (Reports.refl [f.off] s).bump 1 (List.mem_singleton_self _) hlow
    exact keptBy_ite (P := Reports [f.off] s) (hbump.raise e) (.refl _ s)
  · rw [State.tellIf, if_pos hb]
    exact State.raised _ he hs

end Sys2Proof.Machine
end

section
/-!
PROOFS. Access units of the encoder: start, pictures and end (R291, R292, R300 to R309).
-/
namespace Sys2Proof.Machine

/-! ## The session's ENC_PUT leaves its queue (R301) -/

/-- The session put in its place is the only one with its number. -/
theorem EncSt.eq_of_mem_setSess {e : EncSt} {x y : EncSess} (h : y ∈ (e.setSess x).sess) (hn : y.num = x.num) : y = x := by
  obtain ⟨z, -, rfl⟩ := List.mem_map.1 h
  by_cases hz : z.num = x.num
  · exact if_pos hz
  · rw [if_neg hz] at hn
    exact absurd hn hz

theorem EncSess.passKey_kept (x : EncSess) (p : EncPut) : (x.passKey p).num = x.num ∧ (x.passKey p).cur = x.cur := by
  unfold EncSess.passKey
  split
  · exact ⟨rfl, rfl⟩
  · split <;> exact ⟨rfl, rfl⟩

/-- The encoder changes and an ENC_PUT fails. -/
theorem State.modEnc_encFail_shows (s : State) (f : EncSt → EncSt) (ring idx code : Nat) :
    let t := (s.modEnc f).encFail ring idx code
    t.enc = f s.enc ∧ Raised Ev.ENC_FAILED t ∧ t.hasEvents = s.hasEvents ∧ t.hif.rings = (s.modDesc ring idx fun d =>
      { doneAs code 0 d with evs := s.heldNow [Ev.ENC_FAILED] }).hif.rings := by
  refine ⟨State.evtStatus_enc _ _, State.evtStatus_set _ (by decide), State.hasEvents_pwr ?_,
    congrArg HifSt.rings (State.evtStatus_hif _ _)⟩
  rw [State.encFail, State.complete_event, (State.evtStatus_events _ (by decide)).rest]
  rfl

/-! ## The start of an access unit (R291, R292, R300, R301, R305, R306) -/

namespace EncSess

variable (x : EncSess) (p : EncPut)

/-- The temporal references of the unit that an ENC_PUT starts (R293). -/
def unitTrefs : Nat := if x.keyCause p ≠ 0 then 0 else min x.par.numTref x.refs.length

/-- Each picture's share of the budget is at least 50 times its length in coarse tail (R305). -/
def Affords : Prop := ∀ a ∈ x.par.anchors.zipIdx,
  50 * tailSize (x.par.ctx a.1 a.2 (x.unitTrefs p)) x.par.sliceRows ≤ x.par.bp (p.bau x.par) a.1

/-- The room a unit needs in the loop region (R306). -/
def unitNeed : Nat := 16 + (x.par.anchors.map fun a => 102 * x.par.bp (p.bau x.par) a / 100).sum + 8

/-- The unit that an ENC_PUT starts, its AU parcel's payload, and the session then. -/
def unit : EncAu :=
  let key := decide (x.keyCause p ≠ 0)
  let qp := if key then clampN 63 (clampI x.par.qpMin x.par.qpMax (x.q + x.par.keyOff)) else x.q
  { put := p, auId := (x.par.auBase + x.started) % 2 ^ 32, start := x.wptr, budget := p.bau x.par, cause := x.keyCause p,
    historyFree := key || decide (x.sinceKey = 1), qpTex := qp, qpDepth := clampN 63 (qp + x.par.dqp), numTref := x.unitTrefs p,
    pics := 0, slot := x.started % (x.par.numTref + 2), tail := 0, overshoot := false, poison := false }

def unitHead : List Byte :=
  leBytes ((x.par.auBase + x.started) % 2 ^ 32) 4 ++ leBytes (if x.keyCause p ≠ 0 then 1 else 0) 1 ++ leBytes 0 3

def begun (rest : List EncPut) : EncSess :=
  { x with
    wptr := x.wptr + 16, puts := rest, cur := some (x.unit p), started := x.started + 1, failed := false, keyReg := false
    sinceKey := if x.keyCause p ≠ 0 then 1 else x.sinceKey + 1, refs := if x.keyCause p ≠ 0 then [] else x.refs }

theorem length_unitHead : (parcelOf 3 0xFF (x.unitHead p)).length = 16 := by
  simp [parcelOf, unitHead, length_leBytes, ceilDiv]

end EncSess

/-- Some picture's share of the budget is too low. -/
def EncSess.low (x : EncSess) (p : EncPut) : Bool :=
  x.par.anchors.zipIdx.any fun a => decide (x.par.bp (p.bau x.par) a.1 < 50 * tailSize (x.par.ctx a.1 a.2 (x.unitTrefs p)) x.par.sliceRows)

theorem EncSess.low_eq_false {x : EncSess} {p : EncPut} : x.low p = false ↔ x.Affords p := by
  simp [EncSess.low, EncSess.Affords]

/-- ENC_AU_START by cases. -/
theorem State.encAuStart_eq (s : State) (x : EncSess) (p : EncPut) (rest : List EncPut) : s.encAuStart x p rest =
    if x.low p && !x.full then (s.modEnc fun e => e.setSess (EncSess.passKey { x with puts := rest } p)).encFail x.ring p.idx 0x53
    else if x.full || decide (x.par.loopSize < x.wptr + x.unitNeed p) then
      let t := (s.modEnc fun e => e.setSess { EncSess.passKey { x with puts := rest } p with full := true }).encFail x.ring p.idx 0x52
      if x.full then t else t.raise Ev.ENC_LOOP_FULL
    else
      let t := (s.writeFor .enc .enc (x.par.loopBase - 2 ^ 63 + x.wptr) (parcelOf 3 0xFF (x.unitHead p))).modEnc fun e =>
        e.setSess (x.begun p rest)
      if 1 < x.keyCause p then t.raise Ev.ENC_KEY else t := by
  have hlen := x.length_unitHead p
  unfold EncSess.unitHead at hlen
  unfold State.encAuStart EncSess.low EncSess.begun EncSess.unit EncSess.unitHead EncSess.unitTrefs
  simp only [State.encAppend_eq, b2n, decide_eq_true_eq, hlen]
  rfl

theorem encAuStart_runs {ring : Nat} {x : EncSess} {p : EncPut} {rest : List EncPut} {s : State} (hs : s.pwr.st = .s0)
    (hy : s.yields = false) (hx : s.enc.ofRing ring = some x) (hputs : x.puts = p :: rest) (hcur : x.cur = none) :
    exec (.encAuStart ring) s = .next (s.encAuStart x p rest) := by
  change execEncAuStart ring s = _
  rw [execEncAuStart, if_pos (State.encMoves_of_s0 hs hy), hx]
  dsimp only
  rw [hputs, hcur]

/-- After memory work the encoder changes, and an event is raised where it is due. -/
theorem MemWork.modEnc_raiseIf {s u : State} (h : MemWork s u) (hs : s.hasEvents = true) (f : EncSt → EncSt) {e : Nat}
    (he : evtInUse e = true) {c : Prop} [Decidable c] :
    let t := if c then (u.modEnc f).raise e else u.modEnc f
    t.mem = u.mem ∧ t.enc = f s.enc ∧ (c → Raised e t) := by
  have henc : (u.modEnc f).enc = f s.enc := congrArg f h.enc
  dsimp only
  split
  · exact ⟨State.raise_mem _ _, (State.raise_enc _ _).trans henc, fun _ => State.raised _ he (h.hasEvents.trans hs)⟩
  · exact ⟨rfl, henc, fun hc => absurd hc ‹_›⟩

/-- The unit starts. -/
theorem State.encAuStart_starts {s : State} {x : EncSess} {p : EncPut} (rest : List EncPut) (hs : s.pwr.st = .s0) (hfull : x.full = false)
    (hroom : x.Affords p) (hneed : x.wptr + x.unitNeed p ≤ x.par.loopSize) :
    let t := s.encAuStart x p rest
    t.mem = (s.writeFor .enc .enc (x.par.loopBase - 2 ^ 63 + x.wptr) (parcelOf 3 0xFF (x.unitHead p))).mem ∧
      t.enc = s.enc.setSess (x.begun p rest) ∧ (1 < x.keyCause p → Raised Ev.ENC_KEY t) := by
  have hw := (MemWork.refl s).writeFor .enc .enc (x.par.loopBase - 2 ^ 63 + x.wptr) (parcelOf 3 0xFF (x.unitHead p))
  have hlow : ¬(x.low p && !x.full) = true := by simp [EncSess.low_eq_false.2 hroom]
  have hspace : ¬(x.full || decide (x.par.loopSize < x.wptr + x.unitNeed p)) = true := by
    rw [hfull, decide_eq_false (Nat.not_lt.2 hneed)]
    exact Bool.false_ne_true
  rw [State.encAuStart_eq, if_neg hlow, if_neg hspace]
  exact hw.modEnc_raiseIf (State.hasEvents_of_s0 hs) _ (by decide)

/-- A session that is or becomes full fails its ENC_PUT (R306). -/
theorem State.encAuStart_full {s : State} {x : EncSess} {p : EncPut} (rest : List EncPut) (hs : s.pwr.st = .s0) (hcur : x.cur = none)
    (hfull : x.full = true ∨ x.Affords p ∧ x.par.loopSize < x.wptr + x.unitNeed p) :
    let t := s.encAuStart x p rest
    (∀ y ∈ t.enc.sess, y.num = x.num → y.full = true ∧ y.cur = none) ∧ Raised Ev.ENC_FAILED t ∧
      (x.full = false → Raised Ev.ENC_LOOP_FULL t) ∧
      t.hif.rings = (s.modDesc x.ring p.idx fun d => { doneAs 0x52 0 d with evs := s.heldNow [Ev.ENC_FAILED] }).hif.rings := by
  obtain ⟨hnum, hkept⟩ := EncSess.passKey_kept { x with puts := rest } p
  have hlow : (x.low p && !x.full) = false := by
    rcases hfull with h | ⟨h, -⟩
    · simp [h]
    · simp [EncSess.low_eq_false.2 h]
  have hshort : (x.full || decide (x.par.loopSize < x.wptr + x.unitNeed p)) = true := by
    rcases hfull with h | ⟨-, h⟩ <;> simp [h]
  rw [State.encAuStart_eq, hlow, if_neg (by simp), if_pos hshort]
  obtain ⟨henc, hfailed, hev, hrings⟩ := s.modEnc_encFail_shows
    (fun e => e.setSess { EncSess.passKey { x with puts := rest } p with full := true }) x.ring p.idx 0x52
  generalize (s.modEnc _).encFail x.ring p.idx 0x52 = t at henc hfailed hev hrings
  have hsess : ∀ y ∈ t.enc.sess, y.num = x.num → y.full = true ∧ y.cur = none := fun y hy hn => by
    rw [henc] at hy
    rw [EncSt.eq_of_mem_setSess hy (hn.trans hnum.symm)]
    exact ⟨rfl, hkept.trans hcur⟩
  dsimp only
  split
  · exact ⟨hsess, hfailed, fun h => absurd ‹x.full = true› (by simp [h]), hrings⟩
  · rw [State.raise_enc, State.raise_rings]
    exact ⟨hsess, hfailed.raise (by decide), fun _ => State.raised _ (by decide) (hev.trans (State.hasEvents_of_s0 hs)), hrings⟩

/-- A budget that is too low fails the ENC_PUT (R305). -/
theorem State.encAuStart_low {s : State} {x : EncSess} {p : EncPut} (rest : List EncPut) (hcur : x.cur = none) (hfull : x.full = false)
    (hroom : ¬x.Affords p) :
    let t := s.encAuStart x p rest
    (∀ y ∈ t.enc.sess, y.num = x.num → y.cur = none) ∧
      t.hif.rings = (s.modDesc x.ring p.idx fun d => { doneAs 0x53 0 d with evs := s.heldNow [Ev.ENC_FAILED] }).hif.rings := by
  obtain ⟨hnum, hkept⟩ := EncSess.passKey_kept { x with puts := rest } p
  have hlow : x.low p = true := by
    rw [← EncSess.low_eq_false, Bool.not_eq_false] at hroom
    exact hroom
  have hfails : (x.low p && !x.full) = true := by simp [hlow, hfull]
  rw [State.encAuStart_eq, if_pos hfails]
  obtain ⟨henc, -, -, hrings⟩ := s.modEnc_encFail_shows
    (fun e => e.setSess (EncSess.passKey { x with puts := rest } p)) x.ring p.idx 0x53
  refine ⟨fun y hy hn => ?_, hrings⟩
  rw [henc] at hy
  rw [EncSt.eq_of_mem_setSess hy (hn.trans hnum.symm)]
  exact hkept.trans hcur

/-! ## Pictures (R288 to R299, R304) -/

namespace MemWork

variable {r s : State} (h : MemWork r s)
include h

theorem readRows (addr stride rows len : Nat) : MemWork r (s.readRows addr stride rows len) :=
  h.foldl _ fun _ _ h => h.bufRead _ _ _ _

theorem readPic (k : EncAnchor) (at_ : Nat) : MemWork r (s.readPic k at_) := h.readFor _ _ _ _

theorem readRefs (x : EncSess) (au : EncAu) (a : Nat) (k : EncAnchor) : MemWork r (s.readRefs x au a k) := by
  refine MemWork.foldl (h.foldl _ fun _ _ h => h.readPic k _) _ fun s b h => ?_
  split
  · exact h.readPic _ _
  · exact h

theorem putPic (k : EncAnchor) (at_ : Nat) (pic : EncPic) : MemWork r (s.putPic k at_ pic) :=
  MemWork.writeFor (MemWork.foldl (h.foldl _ fun _ _ h => h.writeFor _ _ _ _) _ fun _ _ h => h.writeFor _ _ _ _) _ _ _ _

end MemWork

@[simp] theorem EncSt.takeCore_sess (e : EncSt) (n : Nat) : (e.takeCore n).sess = e.sess := by
  unfold EncSt.takeCore
  dsimp only
  split <;> rfl

/-- A session and its unit after a picture of `n` bytes. -/
def EncAu.pictured (au : EncAu) (tail much bad : Bool) : EncAu :=
  { au with
    pics := au.pics + 1, tail := au.tail + b2n tail * 2 ^ au.pics, overshoot := au.overshoot || much, poison := au.poison || bad }
def EncSess.pictured (x : EncSess) (au : EncAu) (n : Nat) (tail much bad : Bool) : EncSess :=
  { x with wptr := x.wptr + n, cur := some (au.pictured tail much bad) }

/-- What a picture counts and announces. -/
def State.tellPicture (s : State) (tail much bad : Bool) : State :=
  let s := (s.tellIf tail (F.ENC_CNT_COUNT 2) Ev.ENC_TAIL).tellIf much (F.ENC_CNT_COUNT 3) Ev.ENC_OVERSHOOT
  if bad then s.raise Ev.ENC_SRC_POISON else s

/-- A picture is memory work, then the encoder's new state, then what is told of it. -/
theorem State.encPicture_eq (s : State) (x : EncSess) (au : EncAu) (k : EncAnchor) (tex dep : List (Option Byte)) :
    ∃ (u : State) (n : Nat) (tail bad : Bool), MemWork s u ∧ s.encPicture x au k tex dep =
      (u.modEnc fun e => { (e.setSess (x.pictured au n tail (decide (x.par.bp au.budget k < n)) bad)).takeCore x.num with
        last := x.num }).tellPicture tail (decide (x.par.bp au.budget k < n)) bad := by
  unfold State.encPicture
  extract_lets a p e tl dl dr trows drows bad refs cx qps tp dp se budget
  generalize encodePicture se tp dp (x.viewpic au a k) budget a au.auId p.sliceRows = res
  obtain ⟨bytes, pic, tail⟩ := res
  refine ⟨_, bytes.length, tail, bad, ?_, rfl⟩
  exact ((((((MemWork.refl s).readRows _ _ _ _).readRows _ _ _ _).readRefs _ _ _ _).drawn _).putPic _ _ _).writeFor _ _ _ _

theorem State.tellPicture_shows {s : State} (hs : s.hasEvents = true) (tail much bad : Bool) :
    let t := s.tellPicture tail much bad
    t.hif.rings = s.hif.rings ∧ t.enc = s.enc ∧
      t.rd (F.ENC_CNT_COUNT 2) = min (s.rd (F.ENC_CNT_COUNT 2) + if tail then 1 else 0) (2 ^ 32 - 1) ∧
      t.rd (F.ENC_CNT_COUNT 3) = min (s.rd (F.ENC_CNT_COUNT 3) + if much then 1 else 0) (2 ^ 32 - 1) ∧
      (tail = true → Raised Ev.ENC_TAIL t) ∧ (much = true → Raised Ev.ENC_OVERSHOOT t) ∧
      (bad = true → Raised Ev.ENC_SRC_POISON t) := by
  obtain ⟨htail, hraised, hcount⟩ := State.tellIf_shows hs tail (f := F.ENC_CNT_COUNT 2) ⟨rfl, rfl⟩ (by decide) (by decide)
    (e := Ev.ENC_TAIL) (by decide)
  obtain ⟨hover, hraised', hcount'⟩ := State.tellIf_shows (htail.hasEvents.trans hs) much (f := F.ENC_CNT_COUNT 3) ⟨rfl, rfl⟩
    (by decide) (by decide) (e := Ev.ENC_OVERSHOOT) (by decide)
  obtain ⟨hbad, hraised''⟩ := State.raiseIf_shows (hover.hasEvents.trans (htail.hasEvents.trans hs)) (bad = true)
    (e := Ev.ENC_SRC_POISON) (by decide)
  have hall := (htail.trans hover).trans hbad
  refine ⟨hall.rings, hall.enc, ?_, ?_, fun h => ?_, fun h => hbad.status (by decide) (hraised' h), hraised''⟩
  · exact (hbad.rd (by decide) (by decide)).trans ((hover.rd (by decide) (by decide)).trans hcount)
  · rw [← htail.rd (f := F.ENC_CNT_COUNT 3) (by decide) (by decide)]
    exact (hbad.rd (by decide) (by decide)).trans hcount'
  · exact hbad.status (by decide) (hover.status (by decide) (hraised h))

theorem encPictureStart_runs {tex dep : List (Option Byte)} {x : EncSess} {au : EncAu} {k : EncAnchor} {s : State} (hs : s.pwr.st = .s0)
    (hy : s.yields = false) (hnext : s.enc.nextSess = some (x, au)) (hk : x.par.anchors[au.pics]? = some k) :
    exec (.encPictureStart tex dep) s = .next (s.encPicture x au k tex dep) := by
  change execEncPictureStart tex dep s = _
  rw [execEncPictureStart, if_pos (State.encMoves_of_s0 hs hy), hnext]
  dsimp only
  rw [hk]

/-- The encoder and the registers after a picture. -/
theorem encPictureStart_shows {x : EncSess} {au : EncAu} {k : EncAnchor} {s : State} (tex dep : List (Option Byte)) (hs : s.pwr.st = .s0)
    (hy : s.yields = false) (hnext : s.enc.nextSess = some (x, au)) (hk : x.par.anchors[au.pics]? = some k) :
    Gives (.encPictureStart tex dep) s fun t => t.enc.last = x.num ∧ t.hif.rings = s.hif.rings ∧ ∃ (n : Nat) (tail much bad : Bool),
      t.enc.sess = (s.enc.setSess (x.pictured au n tail much bad)).sess ∧ much = decide (x.par.bp au.budget k < n) ∧
      t.rd (F.ENC_CNT_COUNT 2) = min (s.rd (F.ENC_CNT_COUNT 2) + if tail then 1 else 0) (2 ^ 32 - 1) ∧
      t.rd (F.ENC_CNT_COUNT 3) = min (s.rd (F.ENC_CNT_COUNT 3) + if much then 1 else 0) (2 ^ 32 - 1) ∧
      (tail = true → Raised Ev.ENC_TAIL t) ∧ (much = true → Raised Ev.ENC_OVERSHOOT t) ∧
      (bad = true → Raised Ev.ENC_SRC_POISON t) := by
  obtain ⟨u, n, tail, bad, hw, heq⟩ := s.encPicture_eq x au k tex dep
  have hev : u.hasEvents = true := hw.hasEvents.trans (State.hasEvents_of_s0 hs)
  refine ⟨_, encPictureStart_runs hs hy hnext hk, ?_⟩
  rw [heq, ← hw.enc, ← hw.rings, ← hw.rd (f := F.ENC_CNT_COUNT 2) (by decide) (by decide),
    ← hw.rd (f := F.ENC_CNT_COUNT 3) (by decide) (by decide)]
  generalize hmuch : decide (x.par.bp au.budget k < n) = much
  obtain ⟨hrings, henc, hcounts⟩ := State.tellPicture_shows (s := u.modEnc fun e =>
    { (e.setSess (x.pictured au n tail much bad)).takeCore x.num with last := x.num }) hev tail much bad
  rw [henc, hrings]
  exact ⟨rfl, rfl, n, tail, much, bad, EncSt.takeCore_sess _ _, hmuch.symm, hcounts⟩

/-! ## The end of an access unit (R307, R309) -/

/-- The result record, where one is asked for (Table 10-6). -/
def State.recordUnit (s : State) (au : EncAu) (bytes : Nat) : State :=
  if au.put.result = 0 then s else s.bufWrite .enc .enc au.put.result (au.record bytes)

theorem State.recordUnit_work (s : State) (au : EncAu) (bytes : Nat) : MemWork s (s.recordUnit au bytes) :=
  keptBy_ite (.refl s) ((MemWork.refl s).bufWrite _ _ _ _ _)

theorem State.recordUnit_out (s : State) {au : EncAu} (bytes : Nat) (hr : au.put.result ≠ 0) (hhost : isHost au.put.result = true) :
    (s.recordUnit au bytes).out = .hostWrite au.put.result (au.record bytes) false :: s.out := by
  rw [State.recordUnit, if_neg hr, State.bufWrite, if_pos hhost]
  rfl

/-- The session after its unit. -/
def EncSess.ended (x : EncSess) (au : EncAu) : EncSess :=
  { x with
    cur := none, q := nextQ x.par x.q (x.wptr - au.start) au.budget (decide (au.tail ≠ 0))
    refs := (au.slot :: x.refs).take (max 1 x.par.numTref) }

/-- The counts of access units and of key units. -/
def State.countUnit (s : State) (au : EncAu) : State :=
  if au.cause ≠ 0 then (s.bump (F.ENC_CNT_COUNT 0)).bump (F.ENC_CNT_COUNT 1) else s.bump (F.ENC_CNT_COUNT 0)

theorem State.countUnit_shows (s : State) (au : EncAu) :
    Reports [0x100040, 0x100044] s (s.countUnit au) ∧
      (s.countUnit au).rd (F.ENC_CNT_COUNT 0) = min (s.rd (F.ENC_CNT_COUNT 0) + 1) (2 ^ 32 - 1) ∧
      (s.countUnit au).rd (F.ENC_CNT_COUNT 1) = min (s.rd (F.ENC_CNT_COUNT 1) + if au.cause ≠ 0 then 1 else 0) (2 ^ 32 - 1) := by
  have hunit : (s.bump (F.ENC_CNT_COUNT 0)).rd (F.ENC_CNT_COUNT 0) = min (s.rd (F.ENC_CNT_COUNT 0) + 1) (2 ^ 32 - 1) :=
    s.rd_bump_same _ _ (by decide)
  have hother : (s.bump (F.ENC_CNT_COUNT 0)).rd (F.ENC_CNT_COUNT 1) = s.rd (F.ENC_CNT_COUNT 1) := s.rd_wr_apart _ _ _ (by decide)
  have hbump : Reports [0x100040, 0x100044] s (s.bump (F.ENC_CNT_COUNT 0)) := (Reports.refl _ s).bump 1 (by decide) (by decide)
  refine ⟨keptBy_ite (P := Reports _ s) (hbump.bump 1 (by decide) (by decide)) hbump, ?_, ?_⟩
  · rw [State.countUnit, ← hunit]
    split
    · exact State.rd_wr_apart _ _ _ _ (by decide)
    · rfl
  · rw [← hother]
    exact State.rd_countIf (s.bump (F.ENC_CNT_COUNT 0)) rfl rfl (au.cause ≠ 0) (g := id) fun _ => rfl

theorem State.encAuDone_eq (s : State) (x : EncSess) (au : EncAu) : s.encAuDone x au =
    let u := (((s.recordUnit au (x.wptr - au.start)).modEnc fun e =>
      { (e.setSess (x.ended au)) with cores := e.cores.filter fun c => c.2 != x.num }).countUnit au).modDesc x.ring au.put.idx fun d =>
        { doneAs Cpl.SUCCESS x.wptr d with cflags := if au.poison then CFlag.POISON else 0 }
    if decide (au.tail ≠ 0) && decide (x.q = x.par.qpMax) then u.raise Ev.ENC_QP_LIMIT else u := rfl

theorem encAuDone_runs {ring : Nat} {x : EncSess} {au : EncAu} {s : State} (hs : s.pwr.st = .s0) (hy : s.yields = false)
    (hx : s.enc.ofRing ring = some x) (hcur : x.cur = some au) (hpics : au.pics = x.par.anchors.length) :
    exec (.encAuDone ring) s = .next (s.encAuDone x au) := by
  change execEncAuDone ring s = _
  rw [execEncAuDone, if_pos (State.encMoves_of_s0 hs hy), hx]
  dsimp only
  rw [hcur]
  dsimp only
  rw [if_pos hpics]

theorem State.encAuDone_shows {s : State} (hs : s.pwr.st = .s0) (x : EncSess) (au : EncAu) :
    let t := s.encAuDone x au
    t.enc.sess = (s.enc.setSess (x.ended au)).sess ∧
      t.rd (F.ENC_CNT_COUNT 0) = min (s.rd (F.ENC_CNT_COUNT 0) + 1) (2 ^ 32 - 1) ∧
      t.rd (F.ENC_CNT_COUNT 1) = min (s.rd (F.ENC_CNT_COUNT 1) + if au.cause ≠ 0 then 1 else 0) (2 ^ 32 - 1) ∧
      t.hif.rings = (s.modDesc x.ring au.put.idx fun d =>
        { doneAs Cpl.SUCCESS x.wptr d with cflags := if au.poison then CFlag.POISON else 0 }).hif.rings ∧
      (au.put.result ≠ 0 → isHost au.put.result = true →
        .hostWrite au.put.result (au.record (x.wptr - au.start)) false ∈ t.out) ∧
      (au.tail ≠ 0 → x.q = x.par.qpMax → Raised Ev.ENC_QP_LIMIT t) := by
  have hw := s.recordUnit_work au (x.wptr - au.start)
  have hout := s.recordUnit_out (au := au) (x.wptr - au.start)
  rw [State.encAuDone_eq]
  generalize s.recordUnit au (x.wptr - au.start) = u at hw hout ⊢
  obtain ⟨hcount, hunits, hkeys⟩ := (u.modEnc fun e =>
    { (e.setSess (x.ended au)) with cores := e.cores.filter fun c => c.2 != x.num }).countUnit_shows au
  have hev := hcount.hasEvents.trans (hw.hasEvents.trans (State.hasEvents_of_s0 hs))
  have henc := congrArg EncSt.sess hcount.enc
  rw [State.modEnc_enc, hw.enc] at henc
  have hrings := hcount.rings.trans hw.rings
  obtain ⟨l, hl⟩ := hcount.sent
  rw [State.modEnc_rd, hw.rd (by decide) (by decide)] at hunits hkeys
  generalize (u.modEnc _).countUnit au = v at *
  obtain ⟨hlimit, hraised⟩ := State.raiseIf_shows (s := v.modDesc x.ring au.put.idx fun d =>
    { doneAs Cpl.SUCCESS x.wptr d with cflags := if au.poison then CFlag.POISON else 0 }) hev
    ((decide (au.tail ≠ 0) && decide (x.q = x.par.qpMax)) = true) (e := Ev.ENC_QP_LIMIT) (by decide)
  obtain ⟨m, hm⟩ := hlimit.sent
  refine ⟨(congrArg EncSt.sess hlimit.enc).trans henc, ?_, ?_, ?_, fun hr hhost => ?_, fun ht hq => hraised (by simp [ht, hq])⟩
  · exact (hlimit.rd (by decide) (by decide)).trans hunits
  · exact (hlimit.rd (by decide) (by decide)).trans hkeys
  · exact hlimit.rings.trans (congrArg (List.map _) hrings)
  · have hsent : .hostWrite au.put.result (au.record (x.wptr - au.start)) false ∈ v.out := by
      rw [hl]
      exact List.mem_append_right l (by rw [State.modEnc_out, hout hr hhost]; exact List.mem_cons_self)
    exact hm ▸ List.mem_append_right m hsent

/-! ## The statement -/

/-- Settles O41: the start of a unit by its checks, a picture and the end of a unit as what each writes, counts and announces. -/
theorem encoderCodesAccessUnits : Obligations.EncoderCodesAccessUnits := by
  unfold Obligations.EncoderCodesAccessUnits
  refine ⟨fun ring x p rest s hs hy hx hputs hcur => ?_, fun tex dep x au k s hs hy hnext hk => ?_,
    fun ring x au s hs hy hx hcur hpics => ?_, fun ring tex dep s hy => ?_⟩
  · have hrun := encAuStart_runs hs hy hx hputs hcur
    refine ⟨fun hfull hroom hneed => ⟨_, hrun, ?_⟩, fun hfull => ⟨_, hrun, ?_⟩, fun hfull hroom hneed => ⟨_, hrun, ?_⟩,
      fun hfull hroom => ⟨_, hrun, State.encAuStart_low rest hcur hfull hroom⟩⟩
    · obtain ⟨hmem, henc, hkey⟩ := State.encAuStart_starts rest hs hfull hroom hneed
      exact ⟨hmem, ⟨x.unit p, rfl, rfl, rfl, rfl, rfl, rfl, rfl, henc⟩, hkey⟩
    · obtain ⟨hsess, hfailed, -, hrings⟩ := State.encAuStart_full rest hs hcur (.inl hfull)
      exact ⟨hsess, hfailed, hrings⟩
    · obtain ⟨hsess, hfailed, hloop, hrings⟩ := State.encAuStart_full rest hs hcur (.inr ⟨hroom, hneed⟩)
      exact ⟨hsess, hfailed, hloop hfull, hrings⟩
  · obtain ⟨t, hrun, hlast, hrings, n, tail, much, bad, hsess, hmuch, hcounts⟩ := encPictureStart_shows tex dep hs hy hnext hk
    refine ⟨t, hrun, hlast, hrings, n, tail, much, bad, ?_, hmuch, hcounts⟩
    rw [hsess, EncSess.pictured, EncAu.pictured]
    cases tail <;> simp [b2n]
  · obtain ⟨hsess, hcounts⟩ := State.encAuDone_shows hs x au
    refine ⟨_, encAuDone_runs hs hy hx hcur hpics, ?_, hcounts⟩
    rw [hsess, EncSess.ended, nextQ]
    simp only [decide_eq_true_eq]
  · have hno := State.encMoves_yields hy
    exact ⟨exec_neg (p := s.encMoves = true) rfl hno, exec_neg (p := s.encMoves = true) rfl hno,
      exec_neg (p := s.encMoves = true) rfl hno⟩

end Sys2Proof.Machine
end

section
/-!
PROOFS. The blitters: lists, checks, conflicts and pixels (R310 to R312, R316, R317, R320, R321).
-/
namespace Sys2Proof.Machine

/-! ## Pixels are memory work (R315, R316, R319) -/

section
variable {s : State} {r : BltRun} (h : MemWork s r.s)
include h

theorem BltRun.flush_work : MemWork s r.flush.s := by
  unfold BltRun.flush
  split
  · exact h
  · exact h.writeFor _ _ _ _

theorem BltRun.push_work (a : Nat) (b : Byte) : MemWork s (r.push a b).s := by
  have hf := BltRun.flush_work h
  unfold BltRun.push
  split
  · exact h
  split
  · exact h
  split
  · exact h
  · exact hf

theorem BltRun.pushes_work (l : List (Nat × Byte)) : MemWork s (l.foldl (fun r x => r.push x.1 x.2) r).s := by
  induction l generalizing r with
  | nil => exact h
  | cons x l ih => exact ih (BltRun.push_work h x.1 x.2)

theorem BltRun.put_work (a : Nat) (bs : List Byte) : MemWork s (r.put a bs).s := BltRun.pushes_work h _

theorem BltRun.read_work (row len : Nat) (before : Option Nat) (a n : Nat) : MemWork s (r.read row len before a n).1.s := by
  have hf := BltRun.flush_work h
  unfold BltRun.read BltRun.fetch
  refine MemWork.foldl ?_ _ fun _ _ h => h.readFor _ _ _ _
  split
  · exact hf
  · exact h

theorem BltRun.readIf_work (p : Prop) [Decidable p] (row len : Nat) (before : Option Nat) (a n : Nat) :
    MemWork s (if p then r.read row len before a n else (r, [])).1.s := by
  split
  · exact BltRun.read_work h row len before a n
  · exact h

theorem BltRun.pixel_work (c : BltCmd) (before : Option Nat) (i j : Nat) : MemWork s (r.pixel c before i j).s := by
  unfold BltRun.pixel
  extract_lets ns nd x y
  have hread : MemWork s y.1.s := BltRun.readIf_work (BltRun.readIf_work h ..) ..
  split
  · exact BltRun.put_work hread _ _
  · split
    · exact BltRun.put_work hread _ _
    · exact hread

end

theorem State.bltPixels_work (s : State) (c : BltCmd) (px : List (Nat × Nat)) : MemWork s (s.bltPixels c px).1 := by
  have hall : ∀ (l : List ((Nat × Nat) × Option (Nat × Nat))) (r : BltRun), MemWork s r.s → MemWork s
      (l.foldl (fun (r : BltRun) p => r.pixel c ((p.2.filter fun q => q.2 == p.1.2).map Prod.fst) p.1.1 p.1.2) r).s := by
    intro l
    induction l with
    | nil => exact fun _ h => h
    | cons p l ih => exact fun _ h => ih _ (BltRun.pixel_work h c _ _ _)
  exact BltRun.flush_work (hall _ ⟨s, 0, 0, []⟩ (.refl s))

/-- The order of R316 takes every pixel. -/
theorem BltCmd.length_order (c : BltCmd) : c.order.length = c.w * c.h := by
  have hrows : (if c.sy < c.dy then (List.range c.h).reverse else List.range c.h).length = c.h := by split <;> simp
  have hcols : (if c.dy = c.sy ∧ c.sx < c.dx then (List.range c.w).reverse else List.range c.w).length = c.w := by split <;> simp
  simp only [BltCmd.order, List.length_flatMap, List.length_map, hcols, List.map_const', List.sum_replicate, hrows, smul_eq_mul,
    Nat.mul_comm]

/-! ## A blitter takes or loses a list -/

@[simp] theorem State.setBlt_on (s : State) (die : Die) (l : Option BltList) : (s.setBlt die l).blt.on die = l := by
  cases die <;> rfl

@[simp] theorem State.setBlt_on_other (s : State) (die : Die) (l : Option BltList) :
    (s.setBlt die l).blt.on (otherDie die) = s.blt.on (otherDie die) := by
  cases die <;> rfl

/-- Beside its list only BLT_STATUS changes. -/
theorem State.setBlt_regsOnly (s : State) (die : Die) (l : Option BltList) :
    RegsOnly [0x110008] ({ s with blt := (s.setBlt die l).blt } : State) (s.setBlt die l) :=
  ((State.wrB_regsOnly _ _ _).trans (State.wrB_regsOnly _ _ _)).mono (by simp)

theorem State.setBlt_rd (s : State) (die : Die) (l : Option BltList) {f : Fld} (hf : f.off ≠ 0x110008) :
    (s.setBlt die l).rd f = s.rd f :=
  State.rd_of_word ((s.setBlt_regsOnly die l).2 _ (by simpa using hf))

theorem State.setBlt_raised {s : State} {src : Nat} (h : Raised src s) (hs : src < 512) (die : Die) (l : Option BltList) :
    Raised src (s.setBlt die l) :=
  (s.setBlt_rd die l (by simp only [evtStatusFld]; omega)).trans h

/-- A blitter's busy bit in BLT_STATUS. -/
def bltBusyFld : Die → Fld
  | .west => ⟨0x110008, 0, 1⟩
  | .east => ⟨0x110008, 1, 1⟩

/-- BLT_STATUS shows that a blitter has a list. -/
theorem State.setBlt_busy (s : State) (die : Die) (l : BltList) : (s.setBlt die (some l)).rd (bltBusyFld die) = 1 := by
  cases die <;> simp (disch := decide) only [State.setBlt, State.wrB, bltBusyFld, State.rd_wr_ne, State.rd_wr_same] <;> rfl

theorem State.evtStatus_blt (s : State) (e : Nat) : (s.evtStatus e).blt = s.blt :=
  (State.evtStatus_keeps (P := 582) rfl (.refl _ s)).same .blt rfl

/-- A descriptor ends with one event, whatever memory work came before. -/
theorem MemWork.complete_shows {s u : State} (h : MemWork s u) (ring idx status info cflags : Nat) {e : Nat} (he : e < 512) :
    let t := u.complete ring idx status info cflags [e]
    t.blt = s.blt ∧ Raised e t ∧ (∀ src < 512, Raised src u → Raised src t) ∧ t.hif.rings = (s.modDesc ring idx fun d =>
      { doneAs status info d with cflags := cflags, evs := s.heldNow [e] }).hif.rings :=
  ⟨(State.evtStatus_blt _ e).trans h.blt, State.evtStatus_set _ he,
    fun src hs hr => (State.evtStatus_events _ he).status src hs hr, h.complete_rings ring idx status info cflags he⟩

/-- A list fails: what its blitter, its descriptor and the events show. -/
theorem MemWork.endList_fails {s u : State} (h : MemWork s u) (die : Die) (l : BltList) (code : Nat) :
    let t := u.endList die l code [Ev.BLT_FAILED]
    t.blt.on die = none ∧ t.blt.on (otherDie die) = s.blt.on (otherDie die) ∧ Raised Ev.BLT_FAILED t ∧
      (∀ src < 512, Raised src u → Raised src t) ∧ t.hif.rings = (s.modDesc l.ring l.idx fun d =>
        { doneAs code l.fin d with cflags := if l.poison then CFlag.POISON else 0, evs := s.heldNow [Ev.BLT_FAILED] }).hif.rings := by
  obtain ⟨hblt, hfailed, hkept, hrings⟩ := h.complete_shows l.ring l.idx code l.fin (if l.poison then CFlag.POISON else 0)
    (e := Ev.BLT_FAILED) (by decide)
  rw [State.endList]
  generalize u.complete l.ring l.idx code l.fin (if l.poison then CFlag.POISON else 0) [Ev.BLT_FAILED] = v at *
  refine ⟨v.setBlt_on _ _, ?_, State.setBlt_raised hfailed (by decide) _ _,
    fun src hsrc hr => State.setBlt_raised (hkept src hsrc hr) hsrc _ _, hrings⟩
  rw [State.setBlt_on_other, hblt]

/-! ## BLT_RUN and BLT_LIST_START (R310, R311) -/

theorem bltRun_queues {ring : Nat} {r : Ring} {d : Desc} {s : State} (h : Passes s ring 0x50 r d (s.bltChecks d)) :
    exec (.bltRun ring) s = .next ({ s.run ring d.idx with blt := { s.blt with queue := s.blt.queue ++
      [⟨ring, d.idx, leAt d.bytes 8 8 - 2 ^ 63, leAt d.bytes 16 4, 0, none, false, false⟩] } }) := by
  have hnum := State.nextOp_num h.1
  subst hnum
  change Host.Outcome.next (s.withOp r.num 0x50 _ _) = _
  rw [withOp_passes h]
  rfl

theorem bltListStart_runs {s : State} (hs : s.pwr.st = .s0) : exec .bltListStart s = .next s.bltListStart :=
  exec_pos (b := s) (p := (s.pwr.st == .s0) = true) rfl (by simp [hs])

/-- A blitter takes a list. -/
def BltSt.given (b : BltSt) (l : BltList) : Die → BltSt
  | .west => { b with west := some l }
  | .east => { b with east := some l }

/-- A list goes from the queue to a blitter. -/
theorem State.setBlt_takes (s : State) (l : BltList) (ls : List BltList) (die : Die) :
    let t := (s.modBlt fun b => { b with queue := ls }).setBlt die (some l)
    t.blt = { s.blt with queue := ls }.given l die ∧ t.rd (bltBusyFld die) = 1 ∧
      RegsOnly [0x110008] ({ s with blt := t.blt } : State) t :=
  ⟨by cases die <;> rfl, State.setBlt_busy _ _ _, State.setBlt_regsOnly _ _ _⟩

theorem bltListStart_shows {l : BltList} {ls : List BltList} {s : State} (hs : s.pwr.st = .s0) (hq : s.blt.queue = l :: ls) :
    (s.blt.west = none → Gives .bltListStart s fun t => t.blt = { s.blt with queue := ls, west := some l } ∧
      t.rd ⟨0x110008, 0, 1⟩ = 1 ∧ RegsOnly [0x110008] ({ s with blt := t.blt } : State) t) ∧
    (s.blt.west.isSome = true → s.blt.east = none → Gives .bltListStart s fun t =>
      t.blt = { s.blt with queue := ls, east := some l } ∧ t.rd ⟨0x110008, 1, 1⟩ = 1 ∧
      RegsOnly [0x110008] ({ s with blt := t.blt } : State) t) ∧
    (s.blt.west.isSome = true → s.blt.east.isSome = true → exec .bltListStart s = .next s) := by
  have hrun := bltListStart_runs hs
  rw [State.bltListStart, hq] at hrun
  dsimp only at hrun
  refine ⟨fun hw => ⟨_, hrun.trans (congrArg _ (if_pos (by simp [hw]))), s.setBlt_takes l ls .west⟩,
    fun hw he => ⟨_, hrun.trans (congrArg _ ?_), s.setBlt_takes l ls .east⟩, fun hw he => hrun.trans (congrArg _ ?_)⟩
  · rw [if_neg (by simp [Option.ne_none_iff_isSome.2 hw]), if_pos (by simp [he])]
  · rw [if_neg (by simp [Option.ne_none_iff_isSome.2 hw]), if_neg (by simp [Option.ne_none_iff_isSome.2 he])]

/-! ## BLT_COMMAND_START (Table 11-3, R317, R320) -/

/-- The other blitter works on a command that conflicts (R317). -/
def BltSt.holds (b : BltSt) (die : Die) (c : BltCmd) : Bool :=
  match b.on (otherDie die) with
  | some m => match m.cmd with | some x => conflict c (bltCmdOf x) | none => false
  | none => false

theorem BltSt.holds_iff {b : BltSt} {die : Die} {c : BltCmd} :
    b.holds die c = true ↔ ∃ m x, b.on (otherDie die) = some m ∧ m.cmd = some x ∧ conflict c (bltCmdOf x) = true := by
  unfold BltSt.holds
  cases b.on (otherDie die) with
  | none => simp
  | some m => cases h : m.cmd <;> simp [h]

theorem State.bltRuns_of_s0 {s : State} (hs : s.pwr.st = .s0) (hy : s.yields = false) : s.bltRuns = true := by
  simp [State.bltRuns, hs, hy]

/-- A command's bytes have been read. -/
def State.bltRead (s : State) (l : BltList) : State := s.readFor .blt .blt (l.addr + 64 * l.fin) 64

theorem State.bltRead_work (s : State) (l : BltList) : MemWork s (s.bltRead l) := (MemWork.refl s).readFor _ _ _ _

theorem State.bltWindowOk_read (s : State) (l : BltList) (c : BltCmd) : (s.bltRead l).bltWindowOk c = s.bltWindowOk c := by
  have h : WindowsKept s (s.bltRead l) := s.readFor_windows _ _ _ _
  simp only [State.bltWindowOk, h.rangeOk]

/-- BLT_COMMAND_START by cases. -/
theorem State.bltStart_eq {s : State} {die : Die} {l : BltList} (hl : s.blt.on die = some l) (hc : l.cmd = none) :
    let read := s.peekFor .blt (l.addr + 64 * l.fin) 64
    let b := read.map MByte.val
    let c := bltCmdOf b
    let u := s.bltRead l
    s.bltStart die =
      if read.any MByte.poison then
        (if l.poison then u else u.raise Ev.BLT_POISON).endList die { l with poison := true } 0x60 [Ev.BLT_FAILED]
      else if !c.cmdOk b then u.endList die l 0x60 [Ev.BLT_FAILED]
      else if !c.rectIsOk then u.endList die l 0x61 [Ev.BLT_FAILED]
      else if s.blt.holds die c then
        (if l.waiting then u else (u.bump (F.BLT_CNT_COUNT 1)).setBlt die (some { l with waiting := true }))
      else if !s.bltWindowOk c then u.endList die l 0x62 [Ev.BLT_FAILED]
      else u.setBlt die (some { l with waiting := false, cmd := some b }) := by
  intro read b c u
  have hnone : ¬l.cmd.isSome = true := by simp [hc]
  have hblt : u.blt = s.blt := (s.bltRead_work l).blt
  rw [← hblt, ← s.bltWindowOk_read l]
  unfold State.bltStart
  rw [hl]
  exact if_neg hnone

theorem bltCommandStart_runs {die : Die} {s : State} (hs : s.pwr.st = .s0) (hy : s.yields = false) :
    exec (.bltCommandStart die) s = .next (s.bltStart die) :=
  exec_pos (b := s) rfl (State.bltRuns_of_s0 hs hy)

/-- A command that reads as poison ends its list. -/
theorem State.bltStart_poison {s : State} {die : Die} {l : BltList} (hs : s.pwr.st = .s0) (hl : s.blt.on die = some l)
    (hc : l.cmd = none) (hp : ∃ v ∈ s.peekFor .blt (l.addr + 64 * l.fin) 64, v.poison = true) :
    let t := s.bltStart die
    t.blt.on die = none ∧ Raised Ev.BLT_FAILED t ∧ (l.poison = false → Raised Ev.BLT_POISON t) ∧
      t.hif.rings = (s.modDesc l.ring l.idx fun d =>
        { doneAs 0x60 l.fin d with cflags := CFlag.POISON, evs := s.heldNow [Ev.BLT_FAILED] }).hif.rings := by
  have hw := s.bltRead_work l
  have hpoison : (s.peekFor .blt (l.addr + 64 * l.fin) 64).any MByte.poison = true := List.any_eq_true.2 hp
  rw [State.bltStart_eq hl hc, if_pos hpoison]
  generalize s.bltRead l = u at hw ⊢
  have hraised : l.poison = false → Raised Ev.BLT_POISON (if l.poison then u else u.raise Ev.BLT_POISON) := fun hl => by
    rw [hl, if_neg Bool.false_ne_true]
    exact State.raised _ (by decide) (hw.hasEvents.trans (State.hasEvents_of_s0 hs))
  have hwork : MemWork s (if l.poison then u else u.raise Ev.BLT_POISON) := keptBy_ite hw (hw.raise _)
  obtain ⟨hon, -, hfailed, hkept, hrings⟩ := hwork.endList_fails die { l with poison := true } 0x60
  exact ⟨hon, hfailed, fun hl => hkept _ (by decide) (hraised hl), hrings⟩

section
variable {s : State} {die : Die} {l : BltList} (hl : s.blt.on die = some l) (hc : l.cmd = none)
  (hread : ∀ v ∈ s.peekFor .blt (l.addr + 64 * l.fin) 64, v.poison = false) {b : List Byte}
  (hb : (s.peekFor .blt (l.addr + 64 * l.fin) 64).map MByte.val = b)
include hl hc hread hb

/-- The checks of a command that reads without poison. -/
theorem State.bltStart_checks :
    let c := bltCmdOf b
    let u := s.bltRead l
    s.bltStart die =
      if !c.cmdOk b then u.endList die l 0x60 [Ev.BLT_FAILED]
      else if !c.rectIsOk then u.endList die l 0x61 [Ev.BLT_FAILED]
      else if s.blt.holds die c then
        (if l.waiting then u else (u.bump (F.BLT_CNT_COUNT 1)).setBlt die (some { l with waiting := true }))
      else if !s.bltWindowOk c then u.endList die l 0x62 [Ev.BLT_FAILED]
      else u.setBlt die (some { l with waiting := false, cmd := some b }) := by
  subst hb
  rw [State.bltStart_eq hl hc]
  exact if_neg (by simpa using hread)

/-- A command that fails a check of Table 11-3 ends its list. -/
theorem State.bltStart_fails {code : Nat} :
    ((code = 0x60 ∧ (bltCmdOf b).cmdOk b = false) ∨ (code = 0x61 ∧ (bltCmdOf b).cmdOk b = true ∧ (bltCmdOf b).rectIsOk = false) ∨
      (code = 0x62 ∧ (bltCmdOf b).cmdOk b = true ∧ (bltCmdOf b).rectIsOk = true ∧ s.blt.holds die (bltCmdOf b) = false ∧
        s.bltWindowOk (bltCmdOf b) = false)) →
    let t := s.bltStart die
    t.blt.on die = none ∧ t.blt.on (otherDie die) = s.blt.on (otherDie die) ∧ Raised Ev.BLT_FAILED t ∧
      t.hif.rings = (s.modDesc l.ring l.idx fun d => { doneAs code l.fin d with
        cflags := if l.poison then CFlag.POISON else 0, evs := s.heldNow [Ev.BLT_FAILED] }).hif.rings := by
  intro hcode
  have hfails : s.bltStart die = (s.bltRead l).endList die l code [Ev.BLT_FAILED] := by
    rw [State.bltStart_checks hl hc hread hb]
    rcases hcode with ⟨rfl, hcmd⟩ | ⟨rfl, hcmd, hrect⟩ | ⟨rfl, hcmd, hrect, hfree, hwin⟩
    · exact if_pos (by rw [hcmd]; rfl)
    · rw [if_neg (by simp [hcmd])]
      exact if_pos (by rw [hrect]; rfl)
    · rw [if_neg (by simp [hcmd]), if_neg (by simp [hrect]), if_neg (by simp [hfree])]
      exact if_pos (by rw [hwin]; rfl)
  rw [hfails]
  obtain ⟨hon, hother, hfailed, -, hrings⟩ := (s.bltRead_work l).endList_fails die l code
  exact ⟨hon, hother, hfailed, hrings⟩

/-- A command that conflicts waits, and counts once. -/
theorem State.bltStart_waits :
    (bltCmdOf b).cmdOk b = true → (bltCmdOf b).rectIsOk = true → s.blt.holds die (bltCmdOf b) = true →
    let t := s.bltStart die
    t.blt.on die = some { l with waiting := true } ∧ t.hif.rings = s.hif.rings ∧
      t.rd (F.BLT_CNT_COUNT 1) = min (s.rd (F.BLT_CNT_COUNT 1) + if l.waiting then 0 else 1) (2 ^ 32 - 1) := by
  intro hcmd hrect hheld
  have hw := s.bltRead_work l
  rw [State.bltStart_checks hl hc hread hb, if_neg (by simp [hcmd]), if_neg (by simp [hrect]), if_pos hheld]
  generalize s.bltRead l = u at hw ⊢
  have hcount : u.rd (F.BLT_CNT_COUNT 1) = s.rd (F.BLT_CNT_COUNT 1) := hw.rd (by decide) (by decide)
  cases hwait : l.waiting with
  | true =>
    have hsame : { l with waiting := true } = l := by rw [← hwait]
    have hlt : s.rd (F.BLT_CNT_COUNT 1) < 2 ^ 32 := bits_lt _ _ _
    rw [hsame, ← hl, ← hw.blt]
    exact ⟨rfl, hw.rings, hcount.trans (Nat.min_eq_left (Nat.le_sub_one_of_lt hlt)).symm⟩
  | false =>
    refine ⟨State.setBlt_on _ _ _, hw.rings, ?_⟩
    rw [← hcount]
    exact (State.setBlt_rd _ _ _ (by decide)).trans (State.rd_bump_same _ _ _ (by decide))

/-- A command that passes its checks starts. -/
theorem State.bltStart_starts :
    (bltCmdOf b).cmdOk b = true → (bltCmdOf b).rectIsOk = true → s.blt.holds die (bltCmdOf b) = false →
    s.bltWindowOk (bltCmdOf b) = true →
    let t := s.bltStart die
    t.blt.on die = some { l with waiting := false, cmd := some b } ∧ t.blt.on (otherDie die) = s.blt.on (otherDie die) ∧
      t.hif.rings = s.hif.rings := by
  intro hcmd hrect hfree hwin
  have hw := s.bltRead_work l
  rw [State.bltStart_checks hl hc hread hb, if_neg (by simp [hcmd]), if_neg (by simp [hrect]),
    if_neg (by simp [hfree]), if_neg (by simp [hwin])]
  generalize s.bltRead l = u at hw ⊢
  exact ⟨u.setBlt_on _ _, (u.setBlt_on_other _ _).trans (congrArg (BltSt.on · _) hw.blt), hw.rings⟩

end

/-! ## BLT_COMMAND_DONE (R312, R316, R321) -/

/-- Pixels written as 0 for poison are counted, and announced once a list. -/
theorem State.bltWork_eq (s : State) {l : BltList} {b : List Byte} (hb : l.cmd = some b) (n : Nat) :
    let r := s.bltPixels (bltCmdOf b) ((bltCmdOf b).order.take n)
    s.bltWork l n = if r.2 = 0 then (r.1, l) else
      (if l.poison then r.1.bump (F.BLT_CNT_COUNT 2) r.2 else (r.1.bump (F.BLT_CNT_COUNT 2) r.2).raise Ev.BLT_POISON,
        { l with poison := true }) := by
  unfold State.bltWork
  rw [hb]

/-- The work of a whole command. -/
theorem State.bltWork_whole (s : State) {l : BltList} {b : List Byte} (hb : l.cmd = some b) :
    let c := bltCmdOf b
    let r := s.bltPixels c c.order
    Reports [0x110048] r.1 (s.bltWork l (c.w * c.h)).1 ∧
      (s.bltWork l (c.w * c.h)).2 = { l with poison := l.poison || decide (r.2 ≠ 0) } := by
  intro c r
  have hall : c.order.take (c.w * c.h) = c.order := List.take_of_length_le c.length_order.le
  have hbump : Reports [0x110048] r.1 (r.1.bump (F.BLT_CNT_COUNT 2) r.2) := (Reports.refl _ _).bump _ (by decide) (by decide)
  have heq := s.bltWork_eq hb (c.w * c.h)
  rw [hall] at heq
  by_cases hz : r.2 = 0
  · rw [heq.trans (if_pos hz)]
    exact ⟨.refl _ _, by simp [hz]⟩
  · rw [heq.trans (if_neg hz)]
    exact ⟨keptBy_ite (P := Reports _ r.1) hbump (hbump.raise _), by simp [hz]⟩

theorem State.bltDone_eq {s : State} {die : Die} {l : BltList} {b : List Byte} (hl : s.blt.on die = some l) (hb : l.cmd = some b) :
    let r := s.bltWork l ((bltCmdOf b).w * (bltCmdOf b).h)
    let m := { r.2 with fin := l.fin + 1, cmd := none }
    let u := r.1.bump (F.BLT_CNT_COUNT 0)
    s.bltDone die = if l.fin + 1 = l.count then u.endList die m Cpl.SUCCESS [] else u.setBlt die (some m) := by
  unfold State.bltDone
  rw [hl]
  dsimp only
  rw [hb]

theorem State.bltDone_shows {s : State} {die : Die} {l : BltList} {b : List Byte} (hl : s.blt.on die = some l) (hb : l.cmd = some b) :
    let t := s.bltDone die
    let r := s.bltPixels (bltCmdOf b) (bltCmdOf b).order
    t.mem = r.1.mem ∧ t.rd (F.BLT_CNT_COUNT 0) = min (s.rd (F.BLT_CNT_COUNT 0) + 1) (2 ^ 32 - 1) ∧
      (let poison := l.poison || decide (r.2 ≠ 0)
       (l.fin + 1 ≠ l.count → t.blt.on die = some { l with fin := l.fin + 1, cmd := none, poison := poison } ∧
         t.hif.rings = s.hif.rings) ∧
       (l.fin + 1 = l.count → t.blt.on die = none ∧ t.hif.rings = (s.modDesc l.ring l.idx fun d =>
         { doneAs Cpl.SUCCESS l.count d with cflags := if poison then CFlag.POISON else 0 }).hif.rings)) := by
  have hpixels := s.bltPixels_work (bltCmdOf b) (bltCmdOf b).order
  obtain ⟨hwork, hlist⟩ := s.bltWork_whole hb
  rw [State.bltDone_eq hl hb]
  generalize s.bltPixels (bltCmdOf b) (bltCmdOf b).order = r at *
  generalize s.bltWork l ((bltCmdOf b).w * (bltCmdOf b).h) = w at *
  obtain ⟨u, m⟩ := w
  subst hlist
  have hmem : u.mem = r.1.mem := hwork.mem
  have hrings : u.hif.rings = s.hif.rings := hwork.rings.trans hpixels.rings
  have hcount : (u.bump (F.BLT_CNT_COUNT 0)).rd (F.BLT_CNT_COUNT 0) = min (s.rd (F.BLT_CNT_COUNT 0) + 1) (2 ^ 32 - 1) := by
    rw [State.rd_bump_same _ _ _ (by decide), hwork.rd (by decide) (by decide), hpixels.rd (by decide) (by decide)]
    rfl
  by_cases hend : l.fin + 1 = l.count
  · rw [if_pos hend]
    refine ⟨hmem, (State.setBlt_rd _ _ _ (by decide)).trans hcount, fun h => absurd hend h, fun _ => ⟨State.setBlt_on _ _ _, ?_⟩⟩
    rw [← hend]
    exact congrArg (List.map _) hrings
  · rw [if_neg hend]
    exact ⟨hmem, (State.setBlt_rd _ _ _ (by decide)).trans hcount, fun _ => ⟨State.setBlt_on _ _ _, hrings⟩, fun h => absurd h hend⟩

/-! ## The statement -/

/-- Settles O42: a list's way to a blitter, the start of a command by its checks, and the end of a command by its pixels. -/
theorem blittersRunTheirLists : Obligations.BlittersRunTheirLists := by
  unfold Obligations.BlittersRunTheirLists
  refine ⟨fun ring r d s h => bltRun_queues h, fun l ls s hs hq => bltListStart_shows hs hq,
    fun die l s hs hy hl hc => ?_, fun die l b s hs hy hl hb => ?_, fun die s hy => ?_⟩
  · have hrun := bltCommandStart_runs (die := die) hs hy
    refine ⟨fun hp => ⟨_, hrun, State.bltStart_poison hs hl hc hp⟩, fun hread => ⟨fun code hcode => ⟨_, hrun, ?_⟩,
      fun hcmd hrect hmeets => ⟨_, hrun, State.bltStart_waits hl hc hread rfl hcmd hrect (BltSt.holds_iff.2 hmeets)⟩,
      fun hcmd hrect hfree hwin => ⟨_, hrun, State.bltStart_starts hl hc hread rfl hcmd hrect
        (Bool.eq_false_iff.2 (mt BltSt.holds_iff.1 hfree)) hwin⟩⟩⟩
    refine State.bltStart_fails hl hc hread rfl ?_
    rcases hcode with hcmd | hrect | ⟨hcode, hcmd, hrect, hfree, hwin⟩
    · exact .inl hcmd
    · exact .inr (.inl hrect)
    · exact .inr (.inr ⟨hcode, hcmd, hrect, Bool.eq_false_iff.2 (mt BltSt.holds_iff.1 hfree), hwin⟩)
  · exact ⟨_, exec_pos (b := s) (p := s.bltRuns = true) rfl (State.bltRuns_of_s0 hs hy), State.bltDone_shows hl hb⟩
  · have hno : ¬s.bltRuns = true := by simp [State.bltRuns, hy]
    exact ⟨exec_neg (p := s.bltRuns = true) rfl hno, exec_neg (p := s.bltRuns = true) rfl hno⟩

end Sys2Proof.Machine
end

section
/-!
PROOFS. Layer composition: where the settings in force change (R199, R203, R409, R438, R468).
-/
namespace Sys2Proof.Machine

/-- The commands whose frame lets the settings in force change: the decision point, which latches them, and those that cut or
apply the power of the module. -/
theorem eq_of_live_mem_touches {c : Instr} (h : Part.live ∈ touches c) :
    c = .decisionPoint ∨ c = .uvloFall ∨ c = .overvoltage ∨ c = .railFaultTimeout ∨ c = .perstNAssert ∨
    (∃ die, c = .hardwareTrip die) ∨ (∃ b, c = .uvloRise b) ∨ (∃ b, c = .overvoltageRecovery b) ∨ (∃ b, c = .railRetry b) ∨
    (∃ b, c = .perstNDeassert b) ∨ (∃ f b, c = .wakeN f b) ∨ (∃ r v p, c = .sensorRead r v p) := by
  cases c with
  | decisionPoint | uvloFall | overvoltage | railFaultTimeout | perstNAssert | hardwareTrip | uvloRise | overvoltageRecovery
    | railRetry | perstNDeassert | wakeN | sensorRead => simp
  | _ => simp [touches, eventParts] at h

/-- A command whose frame leaves the settings in force out keeps them. -/
theorem exec_live {c : Instr} {s t : State} (he : exec c s = .next t) (hc : Part.live ∉ touches c) : t.live = s.live :=
  (exec_keeps he).toFrame.same .live hc

/-- Settles O7: a command that changes the settings in force has them in its frame, and the frames with them are those listed. -/
theorem settingsInForceChangeOnlyWhereTheRulesSay : Obligations.SettingsInForceChangeOnlyWhereTheRulesSay := by
  unfold Obligations.SettingsInForceChangeOnlyWhereTheRulesSay
  intro c s t he hchanged
  have hframe : Part.live ∈ touches c := Decidable.not_not.1 (mt (exec_live he) hchanged)
  exact eq_of_live_mem_touches hframe

end Sys2Proof.Machine
end

section
/-!
PROOFS. The time unit: signed numbers in registers, the reference (R361), the role (R363), and whether PPS_IN is valid (R364).
-/
namespace Sys2Proof.Machine

/-! ## Signed numbers in two's complement -/

theorem twos_congr {n : Nat} {y z : Int} (h : y ≡ z [ZMOD (2 ^ n : Nat)]) : twos n y = twos n z := congrArg Int.toNat h

theorem twos_eq (n : Nat) (z : Int) : (twos n z : Int) = z % (2 ^ n : Nat) :=
  Int.toNat_of_nonneg (Int.emod_nonneg z (by exact_mod_cast (Nat.two_pow_pos n).ne'))

theorem twos_lt (n : Nat) (z : Int) : twos n z < 2 ^ n := by
  have hpos : (0 : Int) < (2 ^ n : Nat) := by exact_mod_cast Nat.two_pow_pos n
  exact_mod_cast (twos_eq n z).trans_lt (Int.emod_lt_of_pos z hpos)

theorem twos_eq_iff {n : Nat} {y z : Int} : twos n y = twos n z ↔ y ≡ z [ZMOD (2 ^ n : Nat)] := by
  refine ⟨fun h => ?_, twos_congr⟩
  have hcast := congrArg (Nat.cast (R := Int)) h
  rwa [twos_eq, twos_eq] at hcast

/-- The signed value of a pattern differs from the number by a multiple of the range. -/
theorem sext_twos_modEq (n : Nat) (z : Int) : sext n (twos n z) ≡ z [ZMOD (2 ^ n : Nat)] := by
  have hz : (twos n z : Int) ≡ z [ZMOD (2 ^ n : Nat)] := by
    rw [twos_eq]
    exact Int.mod_modEq _ _
  unfold sext
  dsimp only
  rw [Nat.mod_eq_of_lt (twos_lt n z)]
  split
  · exact hz
  · simpa using hz.sub (Int.modEq_zero_iff_dvd.2 (dvd_refl ((2 ^ n : Nat) : Int)))

/-- A number in range is the signed value of its pattern. -/
theorem sext_twos_of_range {n : Nat} {z : Int} (hlo : -(2 ^ n : Nat) ≤ 2 * z) (hhi : 2 * z < (2 ^ n : Nat)) :
    sext n (twos n z) = z := by
  have hu := twos_eq n z
  unfold sext
  dsimp only
  rw [Nat.mod_eq_of_lt (twos_lt n z)]
  generalize twos n z = u at hu ⊢
  generalize 2 ^ n = m at *
  rcases le_or_gt 0 z with hz | hz
  · rw [Int.emod_eq_of_lt hz (by omega)] at hu
    rw [if_pos (by omega), hu]
  · rw [← Int.add_emod_right, Int.emod_eq_of_lt (by omega) (by omega)] at hu
    rw [if_neg (by omega), hu]
    omega

theorem sext_satS (z : Int) : sext 32 (twos 32 (satS 32 z)) = satS 32 z := by
  have hsat : -2 ^ 31 ≤ satS 32 z ∧ satS 32 z < 2 ^ 31 := by
    simp only [satS, clampI]
    split <;> [skip; split] <;> omega
  exact sext_twos_of_range (by omega) (by omega)

/-- The signed value of a word. -/
theorem sext_word (w : Word) : sext 32 w.toNat = w.toInt := by
  rw [BitVec.toInt_eq_toNat_cond, sext, Nat.mod_eq_of_lt w.isLt]

/-! ## Fields of one register -/

theorem State.rd_wrB_same (s : State) {f : Fld} (b : Bool) (h : f.lo + f.len ≤ 32) (hlen : f.len = 1) : (s.wrB f b).rd f = b2n b := by
  rw [State.wrB, State.rd_wr_same _ _ _ h, hlen]
  cases b <;> rfl

theorem State.rd_wrB_ne (s : State) {f g : Fld} (b : Bool) (h : f.lo + f.len ≤ 32)
    (hg : g.off ≠ f.off ∨ g.lo + g.len ≤ f.lo ∨ f.lo + f.len ≤ g.lo) : (s.wrB f b).rd g = s.rd g := s.rd_wr_ne f g _ h hg

theorem b2n_eq_one {b : Bool} : b2n b = 1 ↔ b = true := by cases b <;> simp [b2n]

/-- A one-bit field is the number of its Boolean. -/
theorem b2n_rdB {s : State} {f : Fld} (hlen : f.len = 1) : b2n (s.rdB f) = s.rd f := by
  have hlt : s.rd f < 2 ^ f.len := bits_lt _ _ _
  rw [hlen] at hlt
  have hcases : s.rd f = 0 ∨ s.rd f = 1 := by omega
  rcases hcases with h | h <;> simp [State.rdB, h, b2n]

/-! ## The reference (R361) -/

/-- TREF_IN's state is shown: OK as given, USED unless it is deselected. -/
def State.showTref (s : State) (ok : Bool) : State := (s.wrB F.TIM_STATUS_TREF_OK ok).settleRef

theorem State.showTref_shows (s : State) (ok : Bool) : RegsOnly [0x70004] s (s.showTref ok) ∧
    (s.showTref ok).rd F.TIM_STATUS_TREF_OK = b2n ok ∧
    (s.showTref ok).rd F.TIM_STATUS_TREF_USED = if s.rd F.TIM_CTRL_REF = 2 then 0 else b2n ok := by
  have hok := s.wrB_regsOnly F.TIM_STATUS_TREF_OK ok
  refine ⟨(hok.trans (State.wrB_regsOnly _ F.TIM_STATUS_TREF_USED _)).mono
    (by simp [F.TIM_STATUS_TREF_OK, F.TIM_STATUS_TREF_USED]), ?_, ?_⟩
  · exact (State.rd_wrB_ne _ _ (by decide) (by decide)).trans (s.rd_wrB_same ok (by decide) rfl)
  · have hok := s.rd_wrB_same (f := F.TIM_STATUS_TREF_OK) ok (by decide) rfl
    have hsel : (s.wrB F.TIM_STATUS_TREF_OK ok).rd F.TIM_CTRL_REF = s.rd F.TIM_CTRL_REF := s.rd_wrB_ne ok (by decide) (by decide)
    rw [State.showTref, State.settleRef, State.rd_wrB_same _ _ (by decide) rfl, hsel, State.rdB, hok]
    by_cases h : s.rd F.TIM_CTRL_REF = 2 <;> cases ok <;> simp [h, b2n]

theorem trefValid_shows {s : State} (ha : s.awake = true) (h : s.rd F.TIM_STATUS_TREF_OK = 0) : Gives .trefValid s fun t =>
    t.rd F.TIM_STATUS_TREF_OK = 1 ∧ t.rd F.TIM_STATUS_TREF_USED = (if s.rd F.TIM_CTRL_REF = 2 then 0 else 1) ∧
    t.tim = { s.tim with refLost := false } ∧ (s.tim.refLost = true → Raised Ev.TIM_REF_RESTORED t) ∧ WordsKept [0x70004] s t := by
  obtain ⟨hregs, hok, hused⟩ := s.showTref_shows true
  refine gives_pos rfl (by rw [ha, State.rdB_eq_false h]; rfl) ?_
  have hshown : s.trefValid = if s.tim.refLost
      then ((s.showTref true).modTim fun t => { t with refLost := false }).raise Ev.TIM_REF_RESTORED
      else (s.showTref true).modTim fun t => { t with refLost := false } := rfl
  rw [hshown]
  split
  · refine ⟨(State.raise_rd _ _ (by decide)).trans hok, (State.raise_rd _ _ (by decide)).trans hused, ?_, fun _ => ?_, ?_⟩
    · exact State.raise_tim _ _
    · exact State.raised _ (by decide) (State.hasEvents_of_awake ha)
    · exact hregs.words.trans (State.raise_wordsKept _ _ [])
  · exact ⟨hok, hused, rfl, fun hlost => absurd hlost ‹_›, hregs.words⟩

theorem trefLost_shows {s : State} (ha : s.awake = true) (h : s.rd F.TIM_STATUS_TREF_OK = 1) : Gives .trefLost s fun t =>
    t.rd F.TIM_STATUS_TREF_OK = 0 ∧ t.rd F.TIM_STATUS_TREF_USED = 0 ∧ t.tim.raw = s.tim.raw ∧
    (s.rd F.TIM_STATUS_TREF_USED = 1 → t.tim.refLost = true ∧ Raised Ev.TIM_REF_LOST t) ∧
    (s.rd F.TIM_STATUS_TREF_USED = 0 → t.tim = s.tim ∧ RegsOnly [0x70004] s t) := by
  obtain ⟨hregs, hok, hused⟩ := s.showTref_shows false
  replace hused : (s.showTref false).rd F.TIM_STATUS_TREF_USED = 0 := hused.trans (ite_self _)
  refine gives_pos rfl (by rw [ha, State.rdB_eq_true h]; rfl) ?_
  have hshown : s.trefLost = if s.rdB F.TIM_STATUS_TREF_USED then
      ((s.showTref false).modTim fun t => { t with refLost := true }).raise Ev.TIM_REF_LOST else s.showTref false := rfl
  rw [hshown]
  split
  · refine ⟨(State.raise_rd _ _ (by decide)).trans hok, (State.raise_rd _ _ (by decide)).trans hused, ?_, fun _ => ⟨?_, ?_⟩,
      fun h0 => ?_⟩
    · rw [State.raise_tim]
      rfl
    · rw [State.raise_tim]
      rfl
    · exact State.raised _ (by decide) (State.hasEvents_of_awake ha)
    · exact absurd ‹s.rdB F.TIM_STATUS_TREF_USED = true› (by rw [State.rdB_eq_false h0]; decide)
  · exact ⟨hok, hused, rfl, fun h1 => absurd (State.rdB_eq_true h1) ‹_›, fun _ => ⟨rfl, hregs⟩⟩

/-! ## The role (R363) -/

/-- The role follows MODE, HEAD and PPS_OK. -/
theorem State.role_congr {s t : State} (hmode : t.rd F.TIM_CTRL_MODE = s.rd F.TIM_CTRL_MODE)
    (hhead : t.rd F.ROPE_STATUS_HEAD = s.rd F.ROPE_STATUS_HEAD) (hpps : t.rd F.TIM_STATUS_PPS_OK = s.rd F.TIM_STATUS_PPS_OK) :
    t.role = s.role := by
  unfold State.role State.rdB
  rw [hmode, hhead, hpps]

theorem State.role_lt (s : State) : s.role < 4 := by
  unfold State.role
  split
  case h_4 =>
    split
    · decide
    · split <;> decide
  all_goals decide

/-- The role is shown in TIM_STATUS, and outside the PPS role the second of the edge before is forgotten (R363, R364). -/
def State.showRole (s : State) : State :=
  if s.role = 1 then s.wr F.TIM_STATUS_ROLE s.role
  else (s.wr F.TIM_STATUS_ROLE s.role).modTim fun t => { t with ppsS := none }

theorem State.showRole_rd (s : State) (g : Fld) : s.showRole.rd g = (s.wr F.TIM_STATUS_ROLE s.role).rd g :=
  reads_ite (g := fun t => t.rd g) rfl rfl

theorem State.showRole_rd_ne (s : State) {g : Fld} (h : g.off ≠ 0x70004 ∨ g.lo + g.len ≤ 2 ∨ 4 ≤ g.lo) :
    s.showRole.rd g = s.rd g :=
  (s.showRole_rd g).trans (s.rd_wr_ne _ _ _ (by decide) h)

theorem State.showRole_role (s : State) : s.showRole.role = s.role :=
  State.role_congr (s.showRole_rd_ne (by decide)) (s.showRole_rd_ne (by decide)) (s.showRole_rd_ne (by decide))

/-- Leaving the ROPE role enters holdover. -/
theorem State.settleRole_eq (s : State) : s.settleRole =
    if s.rd F.TIM_STATUS_ROLE = 2 ∧ s.role ≠ 2 then s.showRole.wrB F.TIM_STATUS_HOLDOVER true else s.showRole := by
  have hrole := State.role_congr (s := s) (t := s.wr F.TIM_STATUS_ROLE s.role) (s.rd_wr_ne _ _ _ (by decide) (by decide))
    (s.rd_wr_ne _ _ _ (by decide) (by decide)) (s.rd_wr_ne _ _ _ (by decide) (by decide))
  have hshow : (if (s.wr F.TIM_STATUS_ROLE s.role).role = 1 then s.wr F.TIM_STATUS_ROLE s.role
      else (s.wr F.TIM_STATUS_ROLE s.role).modTim fun t => { t with ppsS := none }) = s.showRole := by rw [hrole]; rfl
  rw [← s.showRole_role, ← hshow]
  rfl

theorem State.settleRole_rd (s : State) {g : Fld} (h : g.off ≠ 0x70004 ∨ g.lo + g.len ≤ 7 ∨ 8 ≤ g.lo) :
    s.settleRole.rd g = s.showRole.rd g := by
  rw [State.settleRole_eq]
  exact reads_ite (g := fun t => t.rd g) (State.rd_wrB_ne _ _ (by decide) h) rfl

theorem State.settleRole_role (s : State) : s.settleRole.role = s.role :=
  (State.role_congr (s.settleRole_rd (by decide)) (s.settleRole_rd (by decide)) (s.settleRole_rd (by decide))).trans s.showRole_role

theorem State.settleRole_shown (s : State) : s.settleRole.rd F.TIM_STATUS_ROLE = s.settleRole.role := by
  rw [s.settleRole_rd (by decide), s.showRole_rd, State.rd_wr_same _ _ _ (by decide), s.settleRole_role]
  exact Nat.mod_eq_of_lt s.role_lt

theorem State.settleRole_tim (s : State) : s.settleRole.tim = if s.role = 1 then s.tim else { s.tim with ppsS := none } := by
  rw [State.settleRole_eq, State.showRole]
  split <;> split <;> rfl

theorem State.settleRole_words (s : State) {o : Nat} (h : o ≠ 0x70004) : s.settleRole.word o = s.word o := by
  have hshow : s.showRole.word o = s.word o := reads_ite (g := fun t => t.word o) (s.word_wr_ne _ _ h) (s.word_wr_ne _ _ h)
  rw [State.settleRole_eq]
  exact reads_ite (g := fun t => t.word o) ((State.word_wr_ne _ _ _ h).trans hshow) hshow

theorem Raised.settleRole {src : Nat} {s : State} (h : Raised src s) (hs : src < 512) : Raised src s.settleRole := by
  refine (State.rd_of_word (s.settleRole_words ?_)).trans h
  simp only [evtStatusFld]
  omega

/-! ## PPS (R364) -/

/-- The registers of PPS_IN's end: PPS_OK falls, and the history of its edges is forgotten. -/
def State.ppsForget (s : State) : State := (s.wrB F.TIM_STATUS_PPS_OK false).modTim fun t => { t with ppsPrev := none, ppsS := none }

theorem State.ppsInvalid_eq (s : State) : s.ppsInvalid =
    if s.role = 1 then ((s.ppsForget.raise Ev.TIM_PPS_LOST).settleRole).wrB F.TIM_STATUS_HOLDOVER true
    else (s.ppsForget.raise Ev.TIM_PPS_LOST).settleRole := by
  unfold State.ppsInvalid
  dsimp only
  by_cases h : s.role = 1
  · rw [if_pos h, if_pos (decide_eq_true h)]
    rfl
  · rw [if_neg h, if_neg (by simpa using h)]
    rfl

theorem State.ppsInvalid_rd (s : State) {g : Fld} (he : evtReg g.off = false)
    (h : g.off ≠ 0x70004 ∨ g.lo + g.len ≤ 2 ∨ (4 ≤ g.lo ∧ g.lo + g.len ≤ 7)) : s.ppsInvalid.rd g = (s.wrB F.TIM_STATUS_PPS_OK false).rd g := by
  have hsettled : ((s.ppsForget.raise Ev.TIM_PPS_LOST).settleRole).rd g = (s.wrB F.TIM_STATUS_PPS_OK false).rd g := by
    rw [State.settleRole_rd _ (by omega), State.showRole_rd_ne _ (by omega), State.raise_rd _ _ he]
    rfl
  have hhold : g.off ≠ F.TIM_STATUS_HOLDOVER.off ∨ g.lo + g.len ≤ 7 ∨ 8 ≤ g.lo := by simp only [F.TIM_STATUS_HOLDOVER]; omega
  rw [State.ppsInvalid_eq]
  exact reads_ite (g := fun t => t.rd g) ((State.rd_wrB_ne _ _ (by decide) hhold).trans hsettled) hsettled

/-- What the end of PPS_IN leaves. -/
structure PpsEnded (s t : State) : Prop where
  ok : t.rd F.TIM_STATUS_PPS_OK = 0
  tim : t.tim = { s.tim with ppsPrev := none, ppsS := none }
  raised : s.hasEvents = true → Raised Ev.TIM_PPS_LOST t
  holdover : s.role = 1 → t.rd F.TIM_STATUS_HOLDOVER = 1
  words : WordsKept [0x70004] s t
  valid : t.rd F.TIM_STATUS_VALID = s.rd F.TIM_STATUS_VALID

theorem State.ppsInvalid_shows (s : State) : PpsEnded s s.ppsInvalid := by
  have hforget : WordsKept [0x70004] s s.ppsForget := (s.wrB_regsOnly F.TIM_STATUS_PPS_OK false).words
  have hsettled : WordsKept [0x70004] s (s.ppsForget.raise Ev.TIM_PPS_LOST).settleRole := fun o ho he =>
    (State.settleRole_words _ (by simpa using ho)).trans ((State.raise_word _ _ he).trans (hforget o ho he))
  have htim : ((s.ppsForget.raise Ev.TIM_PPS_LOST).settleRole).tim = { s.tim with ppsPrev := none, ppsS := none } := by
    rw [State.settleRole_tim, State.raise_tim]
    exact ite_self _
  have hraised (he : s.hasEvents = true) : Raised Ev.TIM_PPS_LOST (s.ppsForget.raise Ev.TIM_PPS_LOST).settleRole :=
    (State.raised s.ppsForget (by decide) he).settleRole (by decide)
  have hok := (s.ppsInvalid_rd (g := F.TIM_STATUS_PPS_OK) (by decide) (by decide)).trans (s.rd_wrB_same false (by decide) rfl)
  have hvalid := (s.ppsInvalid_rd (g := F.TIM_STATUS_VALID) (by decide) (by decide)).trans (s.rd_wrB_ne false (by decide) (by decide))
  rw [State.ppsInvalid_eq] at hok hvalid ⊢
  split
  · rw [if_pos ‹_›] at hok hvalid
    exact ⟨hok, htim, fun he => (hraised he).wr _ _ (by decide) (by decide), fun _ => State.rd_wrB_same _ true (by decide) rfl,
      (hsettled.trans (State.wrB_regsOnly _ F.TIM_STATUS_HOLDOVER true).words).mono (by simp [F.TIM_STATUS_HOLDOVER]), hvalid⟩
  · rw [if_neg ‹_›] at hok hvalid
    exact ⟨hok, htim, hraised, fun h => absurd h ‹_›, hsettled, hvalid⟩

theorem timPpsLost_shows {s : State} (ha : s.awake = true) (h : s.rd F.TIM_STATUS_PPS_OK = 1) : Gives .timPpsLost s fun t =>
    t.rd F.TIM_STATUS_PPS_OK = 0 ∧ t.tim = { s.tim with ppsPrev := none, ppsS := none } ∧ Raised Ev.TIM_PPS_LOST t ∧
    (s.role = 1 → t.rd F.TIM_STATUS_HOLDOVER = 1) ∧ WordsKept [0x70004] s t := by
  obtain ⟨hok, htim, hraised, hhold, hwords, -⟩ := s.ppsInvalid_shows
  exact gives_pos rfl (by rw [ha, State.rdB_eq_true h]; rfl) ⟨hok, htim, hraised (State.hasEvents_of_awake ha), hhold, hwords⟩

/-- The edge comes 1 s ± 1 ms after the edge before. -/
def State.ppsInTime (s : State) : Bool :=
  s.tim.ppsPrev.any fun p => decide (999000000 ≤ s.tim.raw - p) && decide (s.tim.raw - p ≤ 1001000000)

/-- The edge ends PPS_IN's validity: it does not come in time. -/
def State.ppsLapses (s : State) : Bool := !s.ppsInTime && s.tim.ppsPrev.isSome && s.rdB F.TIM_STATUS_PPS_OK

/-- PPS_OK after the edge. -/
def State.ppsGood (s : State) : Bool := s.ppsInTime || (s.tim.ppsPrev.isNone && s.rdB F.TIM_STATUS_PPS_OK)

/-- The state the edge is judged in. -/
def State.ppsLapsed (s : State) : State := if s.ppsLapses then s.ppsInvalid else s

/-- The edge is noted, and PPS_OK shows its judgement. -/
def State.ppsNoted (s : State) : State :=
  (s.ppsLapsed.modTim fun t => { t with ppsPrev := some t.raw }).wrB F.TIM_STATUS_PPS_OK s.ppsGood

/-- PPS_IN is judged, and the role follows. -/
def State.ppsJudged (s : State) : State := s.ppsNoted.settleRole

theorem State.ppsInTime_iff (s : State) :
    s.ppsInTime = true ↔ ∃ r, s.tim.ppsPrev = some r ∧ r + 999000000 ≤ s.tim.raw ∧ s.tim.raw ≤ r + 1001000000 := by
  unfold State.ppsInTime
  cases s.tim.ppsPrev with
  | none => simp
  | some p =>
    simp only [Option.any_some, Bool.and_eq_true, decide_eq_true_eq, Option.some.injEq, exists_eq_left']
    omega

theorem State.ppsLapses_iff (s : State) :
    s.ppsLapses = true ↔ s.rd F.TIM_STATUS_PPS_OK = 1 ∧ s.tim.ppsPrev ≠ none ∧ ¬ s.ppsInTime = true := by
  simp only [State.ppsLapses, Bool.and_eq_true, Bool.not_eq_true', Bool.not_eq_true, Option.isSome_iff_ne_none, State.rdB, beq_iff_eq]
  tauto

/-- An edge is judged first; in the PPS role it is then taken. -/
theorem State.ppsEdge_eq (s : State) : s.ppsEdge = if s.ppsJudged.role = 1 then s.ppsJudged.ppsTake else s.ppsJudged := by
  unfold State.ppsEdge State.ppsJudged State.ppsNoted State.ppsLapsed State.ppsLapses State.ppsGood State.ppsInTime
  cases s.tim.ppsPrev <;> rfl

/-- What the judgement of an edge leaves. -/
structure PpsJudged (s t : State) : Prop where
  tim : t.tim = { s.tim with ppsPrev := some s.tim.raw, ppsS := if t.role = 1 ∧ s.ppsLapses = false then s.tim.ppsS else none }
  words : WordsKept [0x70004] s t
  role : t.rd F.TIM_STATUS_ROLE = t.role
  ok : t.rd F.TIM_STATUS_PPS_OK = b2n s.ppsGood
  valid : t.rd F.TIM_STATUS_VALID = s.rd F.TIM_STATUS_VALID
  lost : s.hasEvents = true → s.ppsLapses = true → Raised Ev.TIM_PPS_LOST t

theorem State.ppsLapsed_shows (s : State) : WordsKept [0x70004] s s.ppsLapsed ∧
    s.ppsLapsed.rd F.TIM_STATUS_VALID = s.rd F.TIM_STATUS_VALID ∧
    { s.ppsLapsed.tim with ppsPrev := some s.ppsLapsed.tim.raw } =
      { s.tim with ppsPrev := some s.tim.raw, ppsS := if s.ppsLapses = false then s.tim.ppsS else none } ∧
    (s.hasEvents = true → s.ppsLapses = true → Raised Ev.TIM_PPS_LOST s.ppsLapsed) := by
  unfold State.ppsLapsed
  cases hl : s.ppsLapses with
  | true =>
    obtain ⟨-, htim, hraised, -, hwords, hvalid⟩ := s.ppsInvalid_shows
    exact ⟨hwords, hvalid, by rw [if_pos rfl, htim]; rfl, fun he _ => hraised he⟩
  | false => exact ⟨.refl s _, rfl, rfl, fun _ h => absurd h (by decide)⟩

theorem State.ppsJudged_shows (s : State) : PpsJudged s s.ppsJudged := by
  obtain ⟨hwords, hvalid, htim, hraised⟩ := s.ppsLapsed_shows
  have hrole : s.ppsJudged.role = s.ppsNoted.role := State.settleRole_role _
  have hnoted : s.ppsNoted.tim = _ := htim
  refine ⟨?_, ?_, State.settleRole_shown _, ?_, ?_, fun he hl => ?_⟩
  · rw [hrole, State.ppsJudged, State.settleRole_tim, hnoted]
    by_cases hr : s.ppsNoted.role = 1
    · simp only [hr, if_true, true_and]
    · simp only [hr, if_false, false_and]
  · intro o ho he
    have hne : o ≠ 0x70004 := by simpa using ho
    exact (State.settleRole_words _ hne).trans ((State.word_wr_ne _ _ _ hne).trans (hwords o ho he))
  · rw [State.ppsJudged, State.settleRole_rd _ (by decide), State.showRole_rd_ne _ (by decide)]
    exact State.rd_wrB_same _ _ (by decide) rfl
  · rw [State.ppsJudged, State.settleRole_rd _ (by decide), State.showRole_rd_ne _ (by decide)]
    exact (State.rd_wrB_ne _ _ (by decide) (by decide)).trans hvalid
  · have hkept : Raised Ev.TIM_PPS_LOST s.ppsNoted := Raised.wr (hraised he hl) _ _ (by decide) (by decide)
    exact hkept.settleRole (by decide)

end Sys2Proof.Machine
end

section
/-!
PROOFS. Rope time (R362), the servo (R372), and an edge of PPS_IN (R363 to R365).
-/
namespace Sys2Proof.Machine

/-! ## Rope time (R362) -/

/-- Rope time follows the raw counter, OFFSET, BASE and RATE. -/
theorem State.rtNs_congr {s t : State} (hraw : t.tim.raw = s.tim.raw) (hoff : t.tim.offset = s.tim.offset)
    (hbase : t.tim.base = s.tim.base) (hrate : t.rd F.TIM_RATE_RATE = s.rd F.TIM_RATE_RATE) : t.rtNs = s.rtNs := by
  unfold State.rtNs State.rtAt State.rateTerm State.rate
  rw [hraw, hoff, hbase, hrate]

/-- A field that a change of OFFSET and the end of holdover leave alone. -/
abbrev OutsideOffset (g : Fld) : Prop := g.off ∉ [0x70008, 0x7000C] ∧ (g.off ≠ 0x70004 ∨ g.lo + g.len ≤ 7 ∨ 8 ≤ g.lo)

/-- A field that the servo leaves alone. -/
abbrev OutsideServo (g : Fld) : Prop := g.off ∉ [0x70010, 0x70064] ∧ OutsideOffset g

theorem State.setOffset_tim (s : State) (z : Int) : (s.setOffset z).tim = { s.tim with offset := sext 64 (twos 64 z) } :=
  reads_ite (g := State.tim) rfl rfl

theorem State.setOffset_rd (s : State) (z : Int) {g : Fld} (h : OutsideOffset g) : (s.setOffset z).rd g = s.rd g := by
  obtain ⟨hoff, hhold⟩ := h
  simp only [List.mem_cons, List.not_mem_nil, or_false, not_or] at hoff
  obtain ⟨hlo, hhi⟩ := hoff
  have hregs : (((s.modTim fun t => { t with offset := sext 64 (twos 64 z) }).wr F.TIM_OFFSET_LO_OFF_LO (twos 64 z)).wr
      F.TIM_OFFSET_HI_OFF_HI (twos 64 z / 2 ^ 32)).rd g = s.rd g :=
    (State.rd_wr_apart _ _ _ _ hhi).trans (State.rd_wr_apart _ _ _ _ hlo)
  exact reads_ite (g := fun t => t.rd g) hregs ((State.rd_wrB_ne _ _ (by decide) hhold).trans hregs)

theorem State.setOffset_rtNs (s : State) (p : Int) : twos 64 (s.setOffset (s.tim.offset + p)).rtNs = twos 64 (s.rtNs + p) := by
  have hrate : (s.setOffset (s.tim.offset + p)).rate = s.rate := congrArg (sext 32) (s.setOffset_rd _ (by decide))
  unfold State.rtNs State.rtAt State.rateTerm
  rw [hrate, s.setOffset_tim]
  dsimp only
  refine twos_congr ?_
  have hz := sext_twos_modEq 64 (s.tim.offset + p)
  have hsum := (hz.add_left s.tim.raw).add_right (((s.tim.raw : Int) - s.tim.base) * s.rate / (2 ^ 40 : Nat))
  convert hsum using 1
  ring

theorem State.setTimeRate_rd (s : State) (r : Nat) {g : Fld} (h : OutsideOffset g) (hrate : g.off ≠ 0x70010) :
    (s.setTimeRate r).rd g = s.rd g := by
  refine reads_ite (g := fun t => t.rd g) rfl ?_
  exact (State.rd_wrB_ne _ _ (by decide) h.2).trans ((State.rd_wr_apart _ _ _ _ hrate).trans (s.setOffset_rd _ h))

theorem State.setTimeRate_rate (s : State) (r : Nat) : (s.setTimeRate r).rate = sext 32 r := by
  have hmod : ∀ v, sext 32 (v % 2 ^ 32) = sext 32 v := fun v => by simp [sext]
  rw [← hmod r, State.rate]
  refine congrArg (sext 32) ?_
  unfold State.setTimeRate
  split
  · exact (‹r % 2 ^ 32 = s.rd F.TIM_RATE_RATE›).symm
  · dsimp only
    exact (State.rd_wrB_ne _ _ (by decide) (by decide)).trans (State.rd_wr_same _ _ _ (by decide))

/-- A change of RATE moves the time unit's state only in OFFSET and BASE. -/
theorem State.setTimeRate_tim (s : State) (r : Nat) :
    (s.setTimeRate r).tim = { s.tim with offset := (s.setTimeRate r).tim.offset, base := (s.setTimeRate r).tim.base } := by
  unfold State.setTimeRate
  split
  · rfl
  · dsimp only
    simp only [State.wrB_tim, State.wr_tim, State.modTim_tim, State.setOffset_tim]

/-- With BASE at the raw counter, rope time is the raw counter and OFFSET. -/
theorem State.rtNs_rebased (s : State) (z : Int) (r : Nat) :
    ((((s.setOffset z).modTim fun t => { t with base := t.raw }).wr F.TIM_RATE_RATE r).wrB F.TIM_STATUS_HOLDOVER false).rtNs =
      s.tim.raw + sext 64 (twos 64 z) := by
  unfold State.rtNs State.rtAt State.rateTerm
  simp only [State.wrB_tim, State.wr_tim, State.modTim_tim, State.setOffset_tim, Int.sub_self, Int.zero_mul, Int.zero_ediv, Int.add_zero]

/-- A change of RATE leaves rope time where it stands. -/
theorem State.setTimeRate_rtNs (s : State) (r : Nat) : twos 64 (s.setTimeRate r).rtNs = twos 64 s.rtNs := by
  unfold State.setTimeRate
  split
  · rfl
  · have hz := (sext_twos_modEq 64 (s.tim.offset + s.rateTerm s.tim.raw)).add_left s.tim.raw
    dsimp only
    rw [State.rtNs_rebased, State.rtNs, State.rtAt, add_assoc]
    exact twos_congr hz

/-! ## The servo (R364, R372) -/

/-- A quotient is exact or one of the two whole numbers around it. -/
theorem State.freeQuot_cases (s : State) (num den : Int) :
    s.freeQuot num den = num / den ∨ (num % den ≠ 0 ∧ s.freeQuot num den = num / den + 1) := by
  unfold State.freeQuot
  split
  · exact .inl rfl
  · cases Config.freeBit s.freeCtr
    · exact .inl (Int.add_zero _)
    · exact .inr ⟨‹_›, rfl⟩

theorem State.freeQuot_near (s : State) (num : Int) {den : Nat} (h : 0 < den) : (den * s.freeQuot num den - num).natAbs < den := by
  have hdiv := Int.mul_ediv_add_emod num den
  have hlo := Int.emod_nonneg num (b := den) (by omega)
  have hhi := Int.emod_lt_of_pos num (b := den) (by omega)
  rcases s.freeQuot_cases num den with hq | ⟨hne, hq⟩
  · rw [hq]
    omega
  · rw [hq, mul_add]
    omega

theorem State.freeQuot_mul (s : State) (z : Int) {den : Int} (h : den ≠ 0) : s.freeQuot (den * z) den = z := by
  rw [State.freeQuot, if_pos (Int.mul_emod_right den z), Int.mul_ediv_cancel_left z h]

/-- The proportional correction of an error. -/
def State.loopProp (s : State) (ps : Int) : Int := s.freeQuot (Config.servoKp s.servoBw s.servoUs * ps) (2 ^ 32 : Nat)

/-- The integral correction of an error, drawn after the proportional one. -/
def State.loopInt (s : State) (ps : Int) : Int := (s.drawn 1).freeQuot (Config.servoKi s.servoBw s.servoUs * ps) (2 ^ 32 : Nat)

/-- RATE has taken its correction. -/
def State.loopRated (s : State) (ps : Int) : State :=
  ((s.drawn 1).drawn 1).setTimeRate (twos 32 (satS 32 (s.rate + s.loopInt ps)))

theorem State.servoLoop_eq (s : State) (ps : Int) :
    s.servoLoop ps = (s.loopRated ps).setOffset ((s.loopRated ps).tim.offset + s.loopProp ps) := rfl

/-- The loop takes an error. -/
theorem State.servoLoop_step (s : State) (ps : Int) : LoopStep s s.servoUs ps (s.servoLoop ps) := by
  refine ⟨s.loopProp ps, s.loopInt ps, s.freeQuot_near _ (by decide), State.freeQuot_near _ _ (by decide), ?_, ?_⟩
  · have hrated := (State.setTimeRate_rate ((s.drawn 1).drawn 1) (twos 32 (satS 32 (s.rate + s.loopInt ps)))).trans (sext_satS _)
    exact (congrArg (sext 32) (State.setOffset_rd _ _ (by decide))).trans hrated
  · have hrated : twos 64 (s.loopRated ps).rtNs = twos 64 s.rtNs := State.setTimeRate_rtNs ((s.drawn 1).drawn 1) _
    rw [State.servoLoop_eq, State.setOffset_rtNs]
    exact twos_congr ((twos_eq_iff.1 hrated).add_right _)

theorem State.servoLoop_rd (s : State) (ps : Int) {g : Fld} (h : OutsideOffset g) (hrate : g.off ≠ 0x70010) :
    (s.servoLoop ps).rd g = s.rd g :=
  (State.setOffset_rd _ _ h).trans (State.setTimeRate_rd _ _ h hrate)

theorem State.servoLoop_tim (s : State) (ps : Int) :
    (s.servoLoop ps).tim = { s.tim with offset := (s.servoLoop ps).tim.offset, base := (s.servoLoop ps).tim.base } := by
  have hrated : (s.loopRated ps).tim = { s.tim with offset := (s.loopRated ps).tim.offset, base := (s.loopRated ps).tim.base } :=
    State.setTimeRate_tim _ _
  rw [State.servoLoop_eq, State.setOffset_tim, hrated]

/-- The loop's rule reads the state before it in TIM_SERVO_CFG, RATE and rope time, and the state after it in the latter two. -/
theorem LoopStep.congr {s t u v : State} {us : Nat} {ps : Int} (h : LoopStep s us ps t)
    (hbw : u.rd F.TIM_SERVO_CFG_BW = s.rd F.TIM_SERVO_CFG_BW) (hrate : u.rate = s.rate) (hrt : u.rtNs = s.rtNs)
    (trate : v.rate = t.rate) (trt : v.rtNs = t.rtNs) : LoopStep u us ps v := by
  unfold LoopStep at *
  rw [hbw, hrate, hrt, trate, trt]
  exact h

/-- TIM_SERVO_ERR shows an error. -/
def State.showError (s : State) (ps : Int) : State := s.wr F.TIM_SERVO_ERR_E (twos 32 (satS 32 ps))

theorem State.showError_rd (s : State) (ps : Int) {g : Fld} (h : g.off ≠ 0x70064) : (s.showError ps).rd g = s.rd g :=
  s.rd_wr_apart _ _ _ h

/-- What the servo does with an error of whole nanoseconds. -/
theorem State.servo_eq (s : State) (e : Int) : s.servo (1000 * e) = if s.stepNs < e.natAbs
    then ((s.showError (1000 * e)).setOffset (s.tim.offset + e)).drawn 1 else (s.showError (1000 * e)).servoLoop (1000 * e) := by
  have hstep : (s.showError (1000 * e)).stepNs = s.stepNs := congrArg (max 1) (s.showError_rd _ (by decide))
  have hservo : s.servo (1000 * e) = if 1000 * (s.showError (1000 * e)).stepNs < (1000 * e).natAbs
      then ((s.showError (1000 * e)).setOffset (s.tim.offset + (s.showError (1000 * e)).freeQuot (1000 * e) 1000)).drawn 1
      else (s.showError (1000 * e)).servoLoop (1000 * e) := rfl
  rw [hservo, hstep, State.freeQuot_mul _ _ (by decide)]
  exact if_congr (by omega) rfl rfl

theorem State.servo_rd (s : State) (e : Int) {g : Fld} (h : OutsideServo g) : (s.servo (1000 * e)).rd g = s.rd g := by
  obtain ⟨hne, hout⟩ := h
  simp only [List.mem_cons, List.not_mem_nil, or_false, not_or] at hne
  rw [State.servo_eq]
  exact reads_ite (g := fun t => t.rd g) ((State.setOffset_rd _ _ hout).trans (s.showError_rd _ hne.2))
    ((State.servoLoop_rd _ _ hout hne.1).trans (s.showError_rd _ hne.2))

theorem State.servo_error (s : State) (e : Int) : (s.servo (1000 * e)).rd F.TIM_SERVO_ERR_E = twos 32 (satS 32 (1000 * e)) := by
  have hshown : (s.showError (1000 * e)).rd F.TIM_SERVO_ERR_E = twos 32 (satS 32 (1000 * e)) :=
    (s.rd_wr_same _ _ (by decide)).trans (Nat.mod_eq_of_lt (twos_lt 32 _))
  rw [State.servo_eq]
  exact reads_ite (g := fun t => t.rd F.TIM_SERVO_ERR_E) ((State.setOffset_rd _ _ (by decide)).trans hshown)
    ((State.servoLoop_rd _ _ (by decide) (by decide)).trans hshown)

theorem State.servo_tim (s : State) (e : Int) : (s.servo (1000 * e)).tim =
    { s.tim with offset := (s.servo (1000 * e)).tim.offset, base := (s.servo (1000 * e)).tim.base } := by
  have hstep : (((s.showError (1000 * e)).setOffset (s.tim.offset + e)).drawn 1).tim = _ := State.setOffset_tim _ _
  rw [State.servo_eq]
  split
  · rw [hstep]
    rfl
  · exact State.servoLoop_tim _ _

/-- An error beyond STEP_NS steps OFFSET. -/
theorem State.servo_steps (s : State) {e : Int} (h : s.stepNs < e.natAbs) :
    (s.servo (1000 * e)).tim.offset = sext 64 (twos 64 (s.tim.offset + e)) ∧
    (s.servo (1000 * e)).rd F.TIM_RATE_RATE = s.rd F.TIM_RATE_RATE := by
  rw [State.servo_eq, if_pos h]
  exact ⟨congrArg TimSt.offset (State.setOffset_tim _ _), (State.setOffset_rd _ _ (by decide)).trans (s.showError_rd _ (by decide))⟩

/-- A smaller one goes through the loop. -/
theorem State.servo_loops (s : State) {e : Int} (h : e.natAbs ≤ s.stepNs) : LoopStep s s.servoUs (1000 * e) (s.servo (1000 * e)) := by
  have hrd : ∀ {g : Fld}, g.off ≠ 0x70064 → s.rd g = (s.showError (1000 * e)).rd g := fun hg => (s.showError_rd _ hg).symm
  have hus : (s.showError (1000 * e)).servoUs = s.servoUs := by
    have hrole : (s.showError (1000 * e)).role = s.role :=
      State.role_congr (s.showError_rd _ (by decide)) (s.showError_rd _ (by decide)) (s.showError_rd _ (by decide))
    unfold State.servoUs
    rw [hrole, s.showError_rd _ (by decide)]
  rw [State.servo_eq, if_neg (by omega), ← hus]
  exact LoopStep.congr (State.servoLoop_step _ _) (hrd (by decide)) (congrArg (sext 32) (hrd (by decide)))
    (State.rtNs_congr rfl rfl rfl (hrd (by decide))) rfl rfl

/-! ## Rope time becomes valid (R213, R365) -/

theorem State.scnStart_rd (s : State) {g : Fld} (h : g.off ≠ 0xD0004) : s.scnStart.rd g = s.rd g :=
  (State.rd_wr_apart _ _ _ _ h).trans (State.rd_wr_apart _ F.SCN_STATUS_LINE _ _ h)

theorem State.setValid_rd (s : State) {g : Fld} (h : g.off ≠ 0xD0004) (hv : g.off ≠ 0x70004 ∨ 1 ≤ g.lo) :
    s.setValid.rd g = s.rd g :=
  reads_ite (g := fun t => t.rd g) rfl ((State.scnStart_rd _ h).trans (s.rd_wrB_ne _ (by decide) (hv.imp_right .inr)))

theorem State.setValid_valid (s : State) : s.setValid.rd F.TIM_STATUS_VALID = 1 := by
  unfold State.setValid
  split
  · exact beq_iff_eq.1 ‹s.rdB F.TIM_STATUS_VALID = true›
  · exact (State.scnStart_rd _ (by decide)).trans (s.rd_wrB_same true (by decide) rfl)

theorem State.setValid_tim (s : State) : s.setValid.tim = { s.tim with tev := s.setValid.tim.tev } := by
  unfold State.setValid
  split <;> rfl

/-! ## An edge of PPS_IN (R363 to R365) -/

/-- An edge in the PPS role is captured. -/
def State.ppsCaptured (s : State) : State :=
  ((s.modTim fun t => { t with ppsS := some s.ppsSecond, ppsSec := none }).wr F.TIM_PPS_CAP_LO_VALUE s.tim.raw).wr
    F.TIM_PPS_CAP_HI_VALUE (s.tim.raw / 2 ^ 32)

theorem State.ppsCaptured_rd (s : State) {g : Fld} (h : g.off ∉ [0x70058, 0x7005C]) : s.ppsCaptured.rd g = s.rd g := by
  simp only [List.mem_cons, List.not_mem_nil, or_false, not_or] at h
  exact (State.rd_wr_apart _ _ _ _ h.2).trans (State.rd_wr_apart _ _ _ _ h.1)

/-- What an edge is off, in ns: the second it starts, less rope time. -/
def State.ppsOff (s : State) : Int := s.ppsSecond * 1000000000 - s.rtNs

theorem State.ppsTake_eq (s : State) : s.ppsTake = (s.ppsCaptured.servo (1000 * s.ppsOff)).setValid := by
  have hrt : s.ppsCaptured.rtNs = s.rtNs := State.rtNs_congr rfl rfl rfl (s.ppsCaptured_rd (by decide))
  unfold State.ppsOff
  rw [← hrt]
  rfl

/-- A field that taking an edge leaves alone. -/
abbrev OutsidePps (g : Fld) : Prop :=
  OutsideServo g ∧ g.off ∉ [0x70058, 0x7005C] ∧ g.off ≠ 0xD0004 ∧ (g.off ≠ 0x70004 ∨ 1 ≤ g.lo)

theorem State.ppsTake_rd (s : State) {g : Fld} (h : OutsidePps g) : s.ppsTake.rd g = s.rd g := by
  obtain ⟨hservo, hcap, hscn, hvalid⟩ := h
  rw [State.ppsTake_eq]
  exact (State.setValid_rd _ hscn hvalid).trans ((State.servo_rd _ _ hservo).trans (s.ppsCaptured_rd hcap))

theorem State.ppsTake_role (s : State) : s.ppsTake.role = s.role :=
  State.role_congr (s.ppsTake_rd (by decide)) (s.ppsTake_rd (by decide)) (s.ppsTake_rd (by decide))

/-- An edge taken moves the time unit's state in OFFSET, BASE and the timed outputs, beside the seconds of PPS. -/
theorem State.ppsTake_tim (s : State) : s.ppsTake.tim = { s.tim with
    offset := s.ppsTake.tim.offset, base := s.ppsTake.tim.base, tev := s.ppsTake.tim.tev, ppsS := some s.ppsSecond, ppsSec := none } := by
  rw [State.ppsTake_eq, State.setValid_tim, State.servo_tim]
  rfl

/-- What taking an edge shows: the capture, the error and VALID. -/
theorem State.ppsTake_shows (s : State) : s.ppsTake.rd F.TIM_PPS_CAP_LO_VALUE = s.tim.raw % 2 ^ 32 ∧
    s.ppsTake.rd F.TIM_PPS_CAP_HI_VALUE = s.tim.raw / 2 ^ 32 % 2 ^ 32 ∧
    s.ppsTake.rd F.TIM_SERVO_ERR_E = twos 32 (satS 32 (1000 * s.ppsOff)) ∧ s.ppsTake.rd F.TIM_STATUS_VALID = 1 := by
  rw [State.ppsTake_eq]
  refine ⟨?_, ?_, ?_, State.setValid_valid _⟩
  · refine (State.setValid_rd _ (by decide) (by decide)).trans ((State.servo_rd _ _ (by decide)).trans ?_)
    exact (State.rd_wr_ne _ _ _ _ (by decide) (by decide)).trans (State.rd_wr_same _ _ _ (by decide))
  · refine (State.setValid_rd _ (by decide) (by decide)).trans ((State.servo_rd _ _ (by decide)).trans ?_)
    exact State.rd_wr_same _ _ _ (by decide)
  · exact (State.setValid_rd _ (by decide) (by decide)).trans (State.servo_error _ _)

/-- What taking an edge does to rope time. -/
theorem State.ppsTake_corrects {s : State} (hrole : s.role = 1) :
    (s.stepNs < s.ppsOff.natAbs → s.ppsTake.tim.offset = sext 64 (twos 64 (s.tim.offset + s.ppsOff)) ∧
      s.ppsTake.rd F.TIM_RATE_RATE = s.rd F.TIM_RATE_RATE) ∧
    (s.ppsOff.natAbs ≤ s.stepNs → LoopStep s 1000000 (1000 * s.ppsOff) s.ppsTake) := by
  have hrd : ∀ {g : Fld}, g.off ∉ [0x70058, 0x7005C] → s.rd g = s.ppsCaptured.rd g := fun hg => (s.ppsCaptured_rd hg).symm
  have hstep : s.stepNs = s.ppsCaptured.stepNs := congrArg (max 1) (hrd (by decide))
  have hus : s.ppsCaptured.servoUs = 1000000 := by
    have hkept : s.ppsCaptured.role = s.role := State.role_congr (hrd (by decide)).symm (hrd (by decide)).symm (hrd (by decide)).symm
    exact if_pos (hkept.trans hrole)
  have hrate : ∀ t : State, t.setValid.rd F.TIM_RATE_RATE = t.rd F.TIM_RATE_RATE := fun t => t.setValid_rd (by decide) (by decide)
  have hrt : ∀ t : State, t.setValid.rtNs = t.rtNs := fun t => by
    refine State.rtNs_congr ?_ ?_ ?_ (hrate t) <;> rw [State.setValid_tim]
  rw [State.ppsTake_eq, hstep]
  refine ⟨fun h => ?_, fun h => ?_⟩
  · obtain ⟨hoff, hkept⟩ := State.servo_steps _ h
    exact ⟨(congrArg TimSt.offset (State.setValid_tim _)).trans hoff, (hrate _).trans (hkept.trans (s.ppsCaptured_rd (by decide)))⟩
  · rw [← hus]
    exact LoopStep.congr (State.servo_loops _ h) (hrd (by decide)) (congrArg (sext 32) (hrd (by decide)))
      (State.rtNs_congr rfl rfl rfl (hrd (by decide))) (congrArg (sext 32) (hrate _)) (hrt _)

/-- The state an edge is judged in reads rope time, and the settings of the servo, as the state before it. -/
theorem PpsJudged.reads {s t : State} (h : PpsJudged s t) : t.rtNs = s.rtNs ∧ t.rate = s.rate ∧ t.stepNs = s.stepNs ∧
    t.rd F.TIM_SERVO_CFG_BW = s.rd F.TIM_SERVO_CFG_BW ∧ t.rd F.TIM_RATE_RATE = s.rd F.TIM_RATE_RATE := by
  have hrate : t.rd F.TIM_RATE_RATE = s.rd F.TIM_RATE_RATE := h.words.rd (by decide) (by decide)
  refine ⟨State.rtNs_congr ?_ ?_ ?_ hrate, congrArg (sext 32) hrate, congrArg (max 1) (h.words.rd (by decide) (by decide)),
    h.words.rd (by decide) (by decide), hrate⟩ <;> rw [h.tim]

/-- The second an edge starts (R364). -/
theorem PpsJudged.second {s t : State} (h : PpsJudged s t) (hrole : t.role = 1) :
    (∀ v, s.tim.ppsSec = some v → t.ppsSecond = v) ∧
    (∀ p, s.tim.ppsSec = none → s.ppsLapses = false → s.tim.ppsS = some p → t.ppsSecond = p + 1) ∧
    (s.tim.ppsSec = none → s.tim.ppsS = none ∨ s.ppsLapses = true → t.ppsSecond = (s.rtNs + 500000000) / 1000000000) := by
  have hrt := h.reads.1
  have hsec : t.tim.ppsSec = s.tim.ppsSec := by rw [h.tim]
  have hs : t.tim.ppsS = if s.ppsLapses = false then s.tim.ppsS else none := by
    rw [h.tim]
    simp only [hrole, true_and]
  unfold State.ppsSecond
  rw [hrt, hsec, hs]
  refine ⟨fun v hv => by rw [hv], fun p hn hl hp => by rw [hn, if_pos hl, hp], fun hn hfirst => ?_⟩
  have hnone : (if s.ppsLapses = false then s.tim.ppsS else none) = none := by
    rcases hfirst with hp | hl
    · rw [hp, ite_self]
    · rw [hl]
      rfl
  rw [hn, hnone]

/-- The judgement of an edge stands while it is taken. -/
theorem State.ppsEdge_rd (s : State) {g : Fld} (h : OutsidePps g) : s.ppsEdge.rd g = s.ppsJudged.rd g := by
  rw [State.ppsEdge_eq]
  exact reads_ite (g := fun t => t.rd g) (State.ppsTake_rd _ h) rfl

theorem State.ppsEdge_role (s : State) : s.ppsEdge.role = s.ppsJudged.role := by
  rw [State.ppsEdge_eq]
  exact reads_ite (g := State.role) (State.ppsTake_role _) rfl

/-- PPS_IN and the role after an edge, whatever the role. -/
theorem State.ppsEdge_judges {s : State} (he : s.hasEvents = true) : s.ppsEdge.tim.ppsPrev = some s.tim.raw ∧
    s.ppsEdge.rd F.TIM_STATUS_ROLE = s.ppsEdge.role ∧ s.ppsEdge.rd F.TIM_STATUS_PPS_OK = b2n s.ppsGood ∧
    (s.ppsLapses = true → Raised Ev.TIM_PPS_LOST s.ppsEdge) := by
  have hj := s.ppsJudged_shows
  have hprev : s.ppsJudged.tim.ppsPrev = some s.tim.raw := by rw [hj.tim]
  refine ⟨?_, ?_, (s.ppsEdge_rd (by decide)).trans hj.ok, fun hl => (s.ppsEdge_rd (by decide)).trans (hj.lost he hl)⟩
  · rw [State.ppsEdge_eq]
    exact reads_ite (g := fun t => t.tim.ppsPrev) (by rw [State.ppsTake_tim]; exact hprev) hprev
  · rw [State.ppsEdge_role, s.ppsEdge_rd (by decide)]
    exact hj.role

/-- Outside the PPS role an edge is noted, and no more. -/
theorem State.ppsEdge_passes {s : State} (h : s.ppsEdge.role ≠ 1) :
    s.ppsEdge.tim = { s.tim with ppsPrev := some s.tim.raw, ppsS := none } ∧
    s.ppsEdge.rd F.TIM_STATUS_VALID = s.rd F.TIM_STATUS_VALID ∧ s.ppsEdge.scn = s.scn := by
  have hj := s.ppsJudged_shows
  have hlapsed : Keeps 631 s s.ppsLapsed := keeps_ite (State.ppsInvalid_keeps rfl (.refl _ s)) (.refl _ s)
  have hjudged : Keeps 631 s s.ppsJudged := State.settleRole_keeps rfl (State.wrB_keeps rfl (State.modTim_keeps rfl hlapsed))
  rw [State.ppsEdge_role] at h
  rw [State.ppsEdge_eq, if_neg h]
  refine ⟨?_, hj.valid, hjudged.same .scn rfl⟩
  rw [hj.tim]
  simp only [h, false_and, if_false]

/-- In the PPS role an edge starts a second, is captured and corrects rope time. -/
theorem State.ppsEdge_takes {s : State} (h : s.ppsEdge.role = 1) : ∃ sec : Int,
    s.ppsEdge.tim.ppsS = some sec ∧ s.ppsEdge.tim.ppsSec = none ∧
    (∀ v, s.tim.ppsSec = some v → sec = v) ∧
    (∀ p, s.tim.ppsSec = none → s.ppsLapses = false → s.tim.ppsS = some p → sec = p + 1) ∧
    (s.tim.ppsSec = none → s.tim.ppsS = none ∨ s.ppsLapses = true → sec = (s.rtNs + 500000000) / 1000000000) ∧
    s.ppsEdge.rd F.TIM_PPS_CAP_LO_VALUE = s.tim.raw % 2 ^ 32 ∧
    s.ppsEdge.rd F.TIM_PPS_CAP_HI_VALUE = s.tim.raw / 2 ^ 32 % 2 ^ 32 ∧
    s.ppsEdge.rd F.TIM_SERVO_ERR_E = twos 32 (satS 32 (1000 * (sec * 1000000000 - s.rtNs))) ∧
    s.ppsEdge.rd F.TIM_STATUS_VALID = 1 ∧
    (s.stepNs < (sec * 1000000000 - s.rtNs).natAbs →
      s.ppsEdge.tim.offset = sext 64 (twos 64 (s.tim.offset + (sec * 1000000000 - s.rtNs))) ∧
      s.ppsEdge.rd F.TIM_RATE_RATE = s.rd F.TIM_RATE_RATE) ∧
    ((sec * 1000000000 - s.rtNs).natAbs ≤ s.stepNs → LoopStep s 1000000 (1000 * (sec * 1000000000 - s.rtNs)) s.ppsEdge) := by
  have hj := s.ppsJudged_shows
  obtain ⟨hrt, hrate, hstep, hbw, hreg⟩ := hj.reads
  have hraw : s.ppsJudged.tim.raw = s.tim.raw := by rw [hj.tim]
  have hoff : s.ppsJudged.tim.offset = s.tim.offset := by rw [hj.tim]
  have he : s.ppsJudged.ppsOff = s.ppsJudged.ppsSecond * 1000000000 - s.rtNs := by rw [State.ppsOff, hrt]
  rw [State.ppsEdge_role] at h
  obtain ⟨hpair, hnext, hfirst⟩ := hj.second h
  obtain ⟨hlo, hhi, herr, hvalid⟩ := s.ppsJudged.ppsTake_shows
  obtain ⟨hjump, hloop⟩ := State.ppsTake_corrects h
  rw [hraw] at hlo hhi
  rw [he] at herr
  rw [he, hstep, hoff, hreg] at hjump
  rw [he, hstep] at hloop
  rw [State.ppsEdge_eq, if_pos h]
  refine ⟨s.ppsJudged.ppsSecond, ?_, ?_, hpair, hnext, hfirst, hlo, hhi, herr, hvalid, hjump,
    fun hle => LoopStep.congr (hloop hle) hbw.symm hrate.symm hrt.symm rfl rfl⟩
  · rw [State.ppsTake_tim]
  · rw [State.ppsTake_tim]

end Sys2Proof.Machine
end

section
/-!
PROOFS. Steps of the display clock (R216, R217, R367, R368, R378): late edges of the timed outputs, and the retiming of scan-out.
-/
namespace Sys2Proof.Machine

/-! ## What a report carries along -/

/-- The clocks, scan-out and what it drives are no part of a report. -/
theorem Reports.setParts {offs : List Nat} {r s t : State} (h : Reports offs r s)
    (ht : t = { s with tim := t.tim, syn := t.syn, cmp := t.cmp, scn := t.scn, pnl := t.pnl, dec := t.dec }) : Reports offs r t := by
  rw [ht]
  exact ⟨h.words, h.status, h.rings, h.pwr, h.mem, h.blt, h.enc, h.sent⟩

/-- The power stage may stand anywhere. -/
theorem Reports.setPwr {offs : List Nat} {r s : State} (h : Reports offs r s) (x : PwrSt) :
    Reports offs { r with pwr := x } { s with pwr := x } :=
  ⟨h.words, h.status, h.rings, rfl, h.mem, h.blt, h.enc, h.sent⟩

theorem Reports.mono {a b : List Nat} {r s : State} (h : Reports a r s) (hab : ∀ o ∈ a, o ∈ b) : Reports b r s :=
  ⟨h.words.mono hab, h.status, h.rings, h.pwr, h.mem, h.blt, h.enc, h.sent⟩

theorem Reports.send {offs : List Nat} {r s : State} (h : Reports offs r s) (o : Out) : Reports offs r (s.emit o) where
  words := h.words
  status := h.status
  rings := h.rings
  pwr := h.pwr
  mem := h.mem
  blt := h.blt
  enc := h.enc
  sent := by
    obtain ⟨l, hl⟩ := h.sent
    exact ⟨o :: l, congrArg (List.cons o) hl⟩

theorem Reports.awake {offs : List Nat} {r s : State} (h : Reports offs r s) : s.awake = r.awake := by
  unfold State.awake
  rw [h.pwr]

theorem Reports.mem_out {offs : List Nat} {r s : State} (h : Reports offs r s) {o : Out} (ho : o ∈ r.out) : o ∈ s.out := by
  obtain ⟨l, hl⟩ := h.sent
  rw [hl]
  exact List.mem_append_right l ho

/-! ## Late edges (R378) -/

/-- Of the time unit only the timed outputs and their levels change. -/
def OutputsOnly (x y : TimSt) : Prop := y = { x with tev := y.tev, levels := y.levels }

theorem OutputsOnly.refl (x : TimSt) : OutputsOnly x x := rfl

theorem OutputsOnly.trans {x y z : TimSt} (h : OutputsOnly x y) (k : OutputsOnly y z) : OutputsOnly x z := by
  unfold OutputsOnly at *
  rw [k, h]

theorem OutputsOnly.dcNs {s t : State} (h : OutputsOnly s.tim t.tim) : t.dcNs = s.dcNs := by
  unfold State.dcNs
  rw [h]

theorem State.drive_reports (s : State) (n : Nat) (level : Bool) (ps : Int) : Reports [] s (s.drive n level ps) :=
  keptBy_ite (P := Reports [] s) (.refl _ s) (((Reports.refl [] s).send _).setParts rfl)

theorem State.drive_outputs (s : State) (n : Nat) (level : Bool) (ps : Int) : OutputsOnly s.tim (s.drive n level ps).tim := by
  unfold State.drive
  split <;> rfl

theorem State.fire_reports (s : State) (n : Nat) (a : TevArmed) (used : Nat) (q : Int) : Reports [] s (s.fire n a used q) :=
  (s.drive_reports n _ _).setParts rfl

theorem State.fire_outputs (s : State) (n : Nat) (a : TevArmed) (used : Nat) (q : Int) : OutputsOnly s.tim (s.fire n a used q).tim :=
  (s.drive_outputs n _ _).trans rfl

/-- A pulse that begins leaves the other outputs alone. -/
theorem State.fire_other (s : State) {m n : Nat} (h : m ≠ n) (a : TevArmed) (used : Nat) (q : Int) :
    (s.fire m a used q).tim.tev[n]? = s.tim.tev[n]? ∧ (s.fire m a used q).tim.levels.getD n false = s.tim.levels.getD n false := by
  have hdrive : ∀ level ps, (s.drive m level ps).tim.tev = s.tim.tev ∧
      (s.drive m level ps).tim.levels.getD n false = s.tim.levels.getD n false := by
    intro level ps
    unfold State.drive
    split
    · exact ⟨rfl, rfl⟩
    · refine ⟨rfl, ?_⟩
      simp only [List.getD_eq_getElem?_getD, List.getElem?_set_ne h]
  obtain ⟨htev, hlevel⟩ := hdrive (s.rdB (F.TIM_TEV_CTRL_POL m)) (s.ballAt q)
  refine ⟨?_, hlevel⟩
  rw [← htev]
  exact List.getElem?_modify_ne _ _ h

/-- A pulse that begins drives its output to its active level. -/
theorem State.fire_sends (s : State) (n : Nat) (a : TevArmed) (used : Nat) (q : Int)
    (h : s.tim.levels.getD n false ≠ s.rdB (F.TIM_TEV_CTRL_POL n)) :
    .edge n (s.rdB (F.TIM_TEV_CTRL_POL n)) (s.ballAt q) ∈ (s.fire n a used q).out := by
  have hdrive : (s.drive n (s.rdB (F.TIM_TEV_CTRL_POL n)) (s.ballAt q)).out =
      .edge n (s.rdB (F.TIM_TEV_CTRL_POL n)) (s.ballAt q) :: s.out := by
    rw [State.drive, if_neg h]
    rfl
  have hfire : (s.fire n a used q).out = (s.drive n (s.rdB (F.TIM_TEV_CTRL_POL n)) (s.ballAt q)).out := rfl
  rw [hfire, hdrive]
  exact List.mem_cons_self

/-- An output's edge fires late: the first skipped one, at the step instant. -/
def State.fireLate (s : State) (n : Nat) (a : TevArmed) (used : Nat) (q : Int) : State :=
  ((s.fire n a used q).wrB (F.TIM_TEV_STATUS_LATE n) true).raise Ev.TIM_TEV_LATE

theorem State.stepTev_cases (s : State) (t : Int) (n : Nat) :
    s.stepTev t n = s ∨ ∃ a used, s.stepTev t n = s.fireLate n a used t := by
  unfold State.stepTev
  split
  · exact .inl rfl
  · dsimp only
    split
    · exact .inl rfl
    · exact .inr ⟨_, _, rfl⟩

theorem State.stepTev_fires {s : State} {t : Int} {n : Nat} {a : TevArmed} {v : Tev} (hv : s.tim.tev[n]? = some v)
    (ha : v.armed = some a) (hl : v.last = false) (hk : s.skipped (s.tevMode n) a t ≠ 0) :
    s.stepTev t n = s.fireLate n a (s.skipped (s.tevMode n) a t) t := by
  have harmed : s.tevArmed n = some a := by
    unfold State.tevArmed
    rw [hv]
    exact ha
  have hlast : s.tevLast n = false := by
    unfold State.tevLast
    rw [hv]
    exact hl
  unfold State.stepTev
  rw [harmed]
  dsimp only
  rw [if_neg (by simp [hk, hlast])]
  rfl

/-- An edge before the step instant is skipped. -/
theorem State.skipped_ne_zero {s : State} {mode : Nat} {a : TevArmed} {t : Int}
    (h : (mode = 1 ∧ a.start < t) ∨ (mode = 2 ∧ 0 < a.period ∧ a.start + (a.next * a.period : Nat) < t)) :
    s.skipped mode a t ≠ 0 := by
  rcases h with ⟨rfl, hlt⟩ | ⟨rfl, hp, hlt⟩
  · simp [State.skipped, hlt, b2n]
  · have hfrom : s.edgeFrom 2 a t = ceilDiv (t - a.start).toNat a.period :=
      (if_pos rfl).trans (if_neg (by omega))
    have hnext : a.next + 1 ≤ ceilDiv (t - a.start).toNat a.period := by
      unfold ceilDiv
      rw [Nat.le_div_iff_mul_le hp, Nat.add_mul]
      omega
    have hskip : s.skipped 2 a t = s.edgeFrom 2 a t - a.next := rfl
    omega

/-- TIM_TEV_STATUS of an output. -/
def tevStatusOff (n : Nat) : Nat := 0x7011C + 0x20 * n

theorem State.fireLate_reports (s : State) (n : Nat) (a : TevArmed) (used : Nat) (q : Int) :
    Reports [tevStatusOff n] s (s.fireLate n a used q) := by
  have hfire := (s.fire_reports n a used q).mono (b := [tevStatusOff n]) (by simp)
  have hwr := hfire.wr (f := F.TIM_TEV_STATUS_LATE n) 1 (List.mem_singleton_self _)
    (by simp only [F.TIM_TEV_STATUS_LATE]; omega)
  exact hwr.raise _

theorem State.stepTev_reports (s : State) (t : Int) (n : Nat) : Reports [tevStatusOff n] s (s.stepTev t n) := by
  rcases s.stepTev_cases t n with h | ⟨a, used, h⟩ <;> rw [h]
  · exact .refl _ s
  · exact s.fireLate_reports n a used t

theorem State.stepTev_outputs (s : State) (t : Int) (n : Nat) : OutputsOnly s.tim (s.stepTev t n).tim := by
  rcases s.stepTev_cases t n with h | ⟨a, used, h⟩ <;> rw [h]
  · exact .refl _
  · rw [State.fireLate, State.raise_tim]
    exact s.fire_outputs n a used t

theorem State.stepTev_other (s : State) (t : Int) {m n : Nat} (h : m ≠ n) :
    (s.stepTev t m).tim.tev[n]? = s.tim.tev[n]? ∧ (s.stepTev t m).tim.levels.getD n false = s.tim.levels.getD n false := by
  rcases s.stepTev_cases t m with he | ⟨a, used, he⟩ <;> rw [he]
  · exact ⟨rfl, rfl⟩
  · rw [State.fireLate, State.raise_tim]
    exact s.fire_other h a used t

/-- The registers from TIM up are no event registers. -/
theorem evtReg_of_tim (o : Nat) (h : 0x70000 ≤ o) : evtReg o = false := by
  have hlow : ¬o < 0x20040 := by omega
  simp only [evtReg, decide_eq_false hlow, Bool.and_false, Bool.false_or, Bool.or_eq_false_iff, beq_eq_false_iff_ne]
  omega

theorem evtReg_late (n : Nat) : evtReg (F.TIM_TEV_STATUS_LATE n).off = false :=
  evtReg_of_tim _ (by simp only [F.TIM_TEV_STATUS_LATE]; omega)

theorem State.stepTev_rd (s : State) (t : Int) (m : Nat) {g : Fld} (hlow : 0x70000 ≤ g.off)
    (h : g.off % 0x20 ≠ 0x1C ∨ g.off < 0x70100) : (s.stepTev t m).rd g = s.rd g := by
  refine (s.stepTev_reports t m).rd ?_ (evtReg_of_tim _ hlow)
  simp only [tevStatusOff, List.mem_singleton]
  omega

/-- What a late edge of output `n` at instant `q` leaves: the edge where the level changes, LATE and its event. -/
structure FiredLate (r : State) (n : Nat) (q : Int) (t : State) : Prop where
  sent : r.tim.levels.getD n false ≠ r.rdB (F.TIM_TEV_CTRL_POL n) →
    .edge n (r.rdB (F.TIM_TEV_CTRL_POL n)) (r.ballAt q) ∈ t.out
  late : t.rd (F.TIM_TEV_STATUS_LATE n) = 1
  raised : Raised Ev.TIM_TEV_LATE t

theorem State.fireLate_fired {s : State} (he : s.hasEvents = true) (n : Nat) (a : TevArmed) (used : Nat) (q : Int) :
    FiredLate s n q (s.fireLate n a used q) where
  sent hl := by
    obtain ⟨l, hout⟩ := (State.raise_events ((s.fire n a used q).wrB (F.TIM_TEV_STATUS_LATE n) true) Ev.TIM_TEV_LATE).sent
    rw [State.fireLate, hout]
    exact List.mem_append_right l (s.fire_sends n a used q hl)
  late := (State.raise_rd _ _ (evtReg_late n)).trans
    (State.rd_wrB_same _ true (by simp only [F.TIM_TEV_STATUS_LATE]; decide) rfl)
  raised := State.raised _ (by decide) ((s.fire_reports n a used q).hasEvents.trans he)

theorem FiredLate.stepTev {r t : State} {n : Nat} {q : Int} (h : FiredLate r n q t) (t' : Int) (m : Nat) :
    FiredLate r n q (t.stepTev t' m) := by
  refine ⟨fun hl => (t.stepTev_reports t' m).mem_out (h.sent hl), ?_, (t.stepTev_reports t' m).status (by decide) h.raised⟩
  rcases t.stepTev_cases t' m with he | ⟨a, used, he⟩ <;> rw [he]
  · exact h.late
  · refine (State.raise_rd _ _ (evtReg_late n)).trans ?_
    by_cases hmn : m = n
    · rw [hmn]
      exact State.rd_wrB_same _ true (by simp only [F.TIM_TEV_STATUS_LATE]; decide) rfl
    · refine (State.rd_wr_apart _ _ _ _ ?_).trans (((t.fire_reports m a used t').rd (by simp) (evtReg_late n)).trans h.late)
      simp only [F.TIM_TEV_STATUS_LATE]
      omega

/-- What the late edges of other outputs leave of output `n`. -/
structure OutputKept (n : Nat) (r s : State) : Prop where
  events : s.hasEvents = r.hasEvents
  time : OutputsOnly r.tim s.tim
  tev : s.tim.tev[n]? = r.tim.tev[n]?
  level : s.tim.levels.getD n false = r.tim.levels.getD n false
  mode : s.tevMode n = r.tevMode n
  pol : s.rdB (F.TIM_TEV_CTRL_POL n) = r.rdB (F.TIM_TEV_CTRL_POL n)
  ball : ∀ q, s.ballAt q = r.ballAt q

theorem OutputKept.refl (n : Nat) (s : State) : OutputKept n s s := ⟨rfl, rfl, rfl, rfl, rfl, rfl, fun _ => rfl⟩

theorem OutputKept.trans {n : Nat} {r s t : State} (h : OutputKept n r s) (k : OutputKept n s t) : OutputKept n r t :=
  ⟨k.events.trans h.events, h.time.trans k.time, k.tev.trans h.tev, k.level.trans h.level, k.mode.trans h.mode, k.pol.trans h.pol,
    fun q => (k.ball q).trans (h.ball q)⟩

theorem State.stepTev_kept (s : State) (t : Int) {m n : Nat} (h : m ≠ n) : OutputKept n s (s.stepTev t m) := by
  obtain ⟨htev, hlevel⟩ := s.stepTev_other t h
  have hctrl : ∀ {g : Fld}, g.off = 0x70100 + 0x20 * n → (s.stepTev t m).rd g = s.rd g := fun hg =>
    s.stepTev_rd t m (by omega) (by omega)
  refine ⟨(s.stepTev_reports t m).hasEvents, s.stepTev_outputs t m, htev, hlevel, hctrl rfl, congrArg (· == 1) (hctrl rfl), fun q => ?_⟩
  unfold State.ballAt State.rdB
  rw [s.stepTev_rd t m (by decide) (by decide), s.stepTev_rd t m (by decide) (by decide)]

/-- Output `n` catches up with the display clock. -/
def State.lateEdge (s : State) (n : Nat) : State := s.stepTev (4 * s.dcNs) n

/-- What a forward step does to the outputs: each catches up in turn. -/
def State.lateEdges (s : State) : State := (List.range 8).foldl (fun s n => s.lateEdge n) s

theorem State.lateEdges_fired {s : State} (he : s.hasEvents = true) {n : Nat} (hn : n < 8) {a : TevArmed} {v : Tev}
    (hv : s.tim.tev[n]? = some v) (ha : v.armed = some a) (hl : v.last = false)
    (hk : ∀ u : State, u.skipped (s.tevMode n) a (4 * s.dcNs) ≠ 0) :
    FiredLate s n (4 * s.dcNs) s.lateEdges := by
  obtain ⟨before, after, hrange, hnew⟩ := List.eq_append_cons_of_mem (List.mem_range.2 hn)
  have hkept : OutputKept n s (before.foldl (fun s n => s.lateEdge n) s) :=
    keptBy_foldl_mem before (.refl n s) fun t m hm h => h.trans (t.stepTev_kept _ fun hmn => hnew (hmn ▸ hm))
  unfold State.lateEdges
  rw [hrange, List.foldl_append, List.foldl_cons]
  refine keptBy_foldl after ?_ fun t m h => h.stepTev _ m
  obtain ⟨hevents, htime, htev, hlevel, hmode, hpol, hball⟩ := hkept
  generalize before.foldl (fun s n => s.lateEdge n) s = u at *
  have hfired : FiredLate u n (4 * s.dcNs) (u.lateEdge n) := by
    rw [State.lateEdge, htime.dcNs, State.stepTev_fires (htev.trans hv) ha hl (by rw [hmode]; exact hk u)]
    exact State.fireLate_fired (hevents.trans he) _ _ _ _
  refine ⟨fun hne => ?_, hfired.late, hfired.raised⟩
  rw [← hpol, ← hball]
  exact hfired.sent (by rw [hlevel, hpol]; exact hne)

theorem State.lateEdges_reports (s : State) : Reports ((List.range 8).map tevStatusOff) s s.lateEdges := by
  refine keptBy_foldl_mem _ (.refl _ s) fun t m hm h => ?_
  refine (h.trans (t.stepTev_reports (4 * t.dcNs) m)).mono fun o ho => ?_
  rcases List.mem_append.1 ho with ho | ho
  · exact ho
  · rw [List.mem_singleton.1 ho]
    exact List.mem_map_of_mem hm

theorem State.lateEdges_outputs (s : State) : OutputsOnly s.tim s.lateEdges.tim :=
  keptBy_foldl (P := fun t => OutputsOnly s.tim t.tim) _ (.refl _) fun t m h => h.trans (t.stepTev_outputs _ m)

/-! ## The retiming of scan-out (R216, R217, R368) -/

/-- Renumbering armed outputs leaves their pulses. -/
theorem map_pulse_zipIdx (l : List Tev) (f : Tev × Nat → Tev) (h : ∀ x, (f x).pulse = x.1.pulse) :
    (l.zipIdx.map f).map Tev.pulse = l.map Tev.pulse := by
  rw [List.map_map, ← List.zipIdx_map_fst 0 l, List.map_map]
  simp only [List.zipIdx_map_fst]
  exact List.map_congr_left fun x _ => h x

/-- Scan-out waits for frame j of the timing in force. -/
def State.gapped (s : State) (d : Int) : State :=
  (s.renumber (s.geo.firstAfter d)).forgetGuard.modScn fun c =>
    { c with gap := some (s.geo.firstAfter d), next := s.geo.firstAfter d, decided := true, guarded := false }

/-- A retiming, before its event. -/
def State.retiming (s : State) (d : Int) : State := ((s.gapped d).wrB F.SCN_STATUS_RETIMING true).frzRestart.dcbRestart

theorem State.retime_eq (s : State) (d : Int) : s.retime d = (s.retiming d).raise Ev.SCN_RETIMED := rfl

theorem State.retiming_reports (s : State) (d : Int) : Reports [0xD0004] s (s.retiming d) := by
  have hgap : Reports [0xD0004] s (s.gapped d) := (Reports.refl _ s).setParts rfl
  have hwr := hgap.wr (f := F.SCN_STATUS_RETIMING) 1 (List.mem_singleton_self _) (by decide)
  exact hwr.setParts rfl

theorem State.retime_reports (s : State) (d : Int) : Reports [0xD0004] s (s.retime d) := (s.retiming_reports d).raise _

/-- A retiming leaves the time unit alone but for the numbering of the outputs. -/
theorem State.retime_tim (s : State) (d : Int) :
    (s.retime d).tim = { s.tim with tev := (s.renumber (s.geo.firstAfter d)).tim.tev } := by
  rw [State.retime_eq, State.raise_tim]
  rfl

theorem State.retime_scn (s : State) (d : Int) : (s.retime d).scn = { s.scn with
    presents := s.scn.presents.map Pres.fresh, gap := some (s.geo.firstAfter d), next := s.geo.firstAfter d, decided := true
    guarded := false, frzFirst := true } := by
  rw [State.retime_eq, State.raise_scn]
  rfl

theorem State.retime_shows {s : State} (he : s.hasEvents = true) (d : Int) : Raised Ev.SCN_RETIMED (s.retime d) ∧
    (s.retime d).rd F.SCN_STATUS_RETIMING = 1 := by
  have hflag : (s.retiming d).rd F.SCN_STATUS_RETIMING = 1 := (s.gapped d).rd_wrB_same true (by decide) rfl
  rw [State.retime_eq]
  exact ⟨State.raised _ (by decide) ((s.retiming_reports d).hasEvents.trans he), (State.raise_rd _ _ (by decide)).trans hflag⟩

/-! ## The unit shown is synthesised again (R217) -/

theorem Reports.synOnce {offs : List Nat} {r s : State} (h : Reports offs r s) (e : Nat) : Reports offs r (s.synOnce e) :=
  keptBy_ite (P := Reports offs r) h (Reports.raise (Reports.setParts h rfl) e)

theorem Reports.setLevel {offs : List Nat} {r s : State} (h : Reports offs r s) (d : Die) (n : Nat) : Reports offs r (s.setLevel d n) := by
  have hd : Reports offs r (s.setDie d { s.syn.die d with level := n }) := h.setParts rfl
  exact keptBy_ite (P := Reports offs r) (hd.synOnce _) (keptBy_ite (hd.synOnce _) hd)

theorem State.synStart_reports (s : State) (k : Nat) (au : Option Nat) : Reports [0xB0060] s (s.synStart k au) := by
  have hover : ∀ (c : Bool), Reports [0xB0060] s (if c then s.raise Ev.SYN_FRAME_OVERRUN else s) := fun c =>
    keptBy_ite (P := Reports [0xB0060] s) ((Reports.refl _ s).raise _) (.refl _ s)
  unfold State.synStart
  dsimp only
  refine Reports.setLevel (Reports.setLevel ?_ _ _) _ _
  exact Reports.bump (Reports.setParts (hover _) rfl) _ (List.mem_singleton_self _) (by decide)

/-- Synthesis starts for the frame to come with the unit shown, under the decoder settings in force. -/
def State.showAgain (s : State) : State :=
  ((s.modScn fun c => { c with auNext := s.scn.shown.map Pres.au }).modDec fun d => { d with oldPics := none }).synStart s.scn.next
    (s.scn.shown.map Pres.au)

theorem State.showAgain_reports (s : State) : Reports [0xB0060] s s.showAgain :=
  (Reports.setParts (t := (s.modScn fun c => { c with auNext := s.scn.shown.map Pres.au }).modDec fun d => { d with oldPics := none })
    (Reports.refl [] s) rfl).trans (State.synStart_reports _ _ _)

theorem State.showAgain_rest (s : State) : s.showAgain.tim = s.tim ∧
    s.showAgain.scn = { s.scn with auNext := s.scn.shown.map Pres.au } ∧ s.showAgain.dec.oldPics = none ∧
    AtRowZero s.scn.next (s.scn.shown.map Pres.au) s.showAgain.syn := by
  have hk := State.synStart_keeps (P := 2663) (k := s.scn.next) (au := s.scn.shown.map Pres.au) rfl
    (Keeps.refl _ ((s.modScn fun c => { c with auNext := s.scn.shown.map Pres.au }).modDec fun d => { d with oldPics := none }))
  exact ⟨hk.same .tim rfl, hk.same .scn rfl, congrArg DecSt.oldPics (hk.same .dec rfl), State.synStart_zero _ _ _⟩

/-! ## A step of the display clock (R368) -/

/-- The display clock stands at its new value. -/
def State.clockSet (s : State) (z : Int) (f : Nat) : State :=
  (s.modTim fun t => { t with dcSec := (z / 1000000000 % (2 ^ 48 : Nat)).toNat, dcNs := (z % 1000000000).toNat, dcFrac := f }).raise
    Ev.TIM_STEP

/-- After a forward step the outputs have caught up. -/
def State.clockCaught (s : State) (z : Int) (f : Nat) : State :=
  if s.dcNs < (s.clockSet z f).dcNs then (s.clockSet z f).lateEdges else s.clockSet z f

/-- Scan-out is retimed at the display clock. -/
def State.rescan (s : State) : State := ((s.retime s.dcNs).captureAs none).keepFired s.tim.tev

/-- In S0 the frame to come shows the unit shown now. -/
def State.rescanned (s : State) : State := if s.rescan.pwr.st = .s0 then s.rescan.showAgain else s.rescan

theorem State.stepClock_eq (s : State) (z : Int) (f : Nat) :
    s.stepClock z f = if (s.clockCaught z f).timed then (s.clockCaught z f).rescanned else s.clockCaught z f := by
  have hstep : s.stepClock z f = if !(s.clockCaught z f).timed then s.clockCaught z f else (s.clockCaught z f).rescanned := rfl
  rw [hstep]
  cases (s.clockCaught z f).timed <;> rfl

theorem State.clockSet_tim (s : State) (z : Int) (f : Nat) : (s.clockSet z f).tim =
    { s.tim with dcSec := (z / 1000000000 % 2 ^ 48).toNat, dcNs := (z % 1000000000).toNat, dcFrac := f } := State.raise_tim _ _

theorem State.clockSet_reports (s : State) (z : Int) (f : Nat) : Reports [] s (s.clockSet z f) :=
  Reports.raise (Reports.setParts (Reports.refl [] s) rfl) _

theorem State.clockCaught_reports (s : State) (z : Int) (f : Nat) :
    Reports ((List.range 8).map tevStatusOff) s (s.clockCaught z f) :=
  keptBy_ite (P := Reports _ s) ((s.clockSet_reports z f).trans (State.lateEdges_reports _)) ((s.clockSet_reports z f).mono (by simp))

theorem State.clockCaught_outputs (s : State) (z : Int) (f : Nat) : OutputsOnly (s.clockSet z f).tim (s.clockCaught z f).tim :=
  keptBy_ite (P := fun t => OutputsOnly (s.clockSet z f).tim t.tim) (State.lateEdges_outputs _) (.refl _)

theorem State.clockCaught_raised {s : State} (he : s.hasEvents = true) (z : Int) (f : Nat) : Raised Ev.TIM_STEP (s.clockCaught z f) := by
  have hset : Raised Ev.TIM_STEP (s.clockSet z f) := State.raised _ (by decide) he
  exact keptBy_ite (P := Raised Ev.TIM_STEP) ((State.lateEdges_reports _).status (by decide) hset) hset

theorem State.clockCaught_keeps (s : State) (z : Int) (f : Nat) : Keeps 631 s (s.clockCaught z f) := by
  have hset : Keeps 631 s (s.clockSet z f) := State.raise_keeps rfl (State.modTim_keeps rfl (.refl _ s))
  exact keeps_ite (keeps_foldl hset fun _ _ h => State.stepTev_keeps rfl h) hset

/-- The timing generator runs on. -/
theorem State.clockCaught_timed (s : State) (z : Int) (f : Nat) : (s.clockCaught z f).timed = s.timed := by
  have hrep := s.clockCaught_reports z f
  have hscn : (s.clockCaught z f).scn = s.scn := (s.clockCaught_keeps z f).same .scn rfl
  unfold State.timed State.rdB
  rw [hrep.awake, hscn, hrep.rd (by decide) (by decide)]

theorem State.rescanned_reports (s : State) : Reports [0xD0004, 0xB0060] { s with pwr := s.rescan.pwr } s.rescanned := by
  have hcap : Reports [0xD0004] { s with pwr := s.rescan.pwr } s.rescan :=
    Reports.setParts ((s.retime_reports s.dcNs).setPwr s.rescan.pwr) rfl
  exact keptBy_ite (P := Reports _ _) (hcap.trans (State.showAgain_reports _)) (hcap.mono (by simp))

theorem State.rescan_pwr (s : State) : s.rescan.pwr = { s.pwr with captureFrame := none } := by
  have hretime : (s.retime s.dcNs).pwr = s.pwr := (s.retime_reports s.dcNs).pwr
  have hrescan : s.rescan.pwr = { (s.retime s.dcNs).pwr with captureFrame := (s.retime s.dcNs).pwr.captureFrame.bind fun _ => none } := rfl
  rw [hrescan, hretime]
  cases s.pwr.captureFrame <;> rfl

theorem State.rescan_tim (s : State) : s.rescan.tim = { s.tim with tev := s.rescan.tim.tev } ∧
    s.rescan.tim.tev.map Tev.pulse = s.tim.tev.map Tev.pulse := by
  have hretime := s.retime_tim s.dcNs
  have hpulse : (s.retime s.dcNs).tim.tev.map Tev.pulse = s.tim.tev.map Tev.pulse := by
    rw [hretime]
    exact map_pulse_zipIdx _ _ fun _ => rfl
  have hrescan : s.rescan.tim = { (s.retime s.dcNs).tim with tev := s.rescan.tim.tev } := rfl
  refine ⟨by rw [hrescan, hretime], ?_⟩
  rw [← hpulse]
  exact map_pulse_zipIdx _ _ fun _ => rfl

/-- What the retiming of a step shows. -/
structure Rescanned (s t : State) : Prop where
  tim : t.tim = { s.tim with tev := t.tim.tev }
  pulses : t.tim.tev.map Tev.pulse = s.tim.tev.map Tev.pulse
  raised : Raised Ev.SCN_RETIMED t
  retiming : t.rd F.SCN_STATUS_RETIMING = 1
  gap : t.scn.gap = some (s.geo.firstAfter s.dcNs)
  next : t.scn.next = s.geo.firstAfter s.dcNs
  capture : t.pwr.captureFrame = none
  presents : ∀ p ∈ t.scn.presents, p.afterGuard = false
  shown : s.pwr.st = .s0 → t.syn.frame = some (s.geo.firstAfter s.dcNs) ∧ t.syn.au = s.scn.shown.map Pres.au ∧ t.dec.oldPics = none

/-- The unit is shown again in S0 only; beside that the two cases show the same. -/
theorem State.rescanned_shows {s : State} (he : s.hasEvents = true) : Rescanned s s.rescanned := by
  obtain ⟨htim, hpulses⟩ := s.rescan_tim
  obtain ⟨hraised, hflag⟩ := State.retime_shows he s.dcNs
  obtain ⟨atim, ascn, apics, hframe, hau, -, -⟩ := s.rescan.showAgain_rest
  have hrep := s.rescanned_reports
  have hscn : s.rescan.scn = { s.scn with
      presents := s.scn.presents.map Pres.fresh, gap := some (s.geo.firstAfter s.dcNs), next := s.geo.firstAfter s.dcNs
      decided := true, guarded := false, frzFirst := true } := s.retime_scn s.dcNs
  have hfresh : ∀ p ∈ s.rescan.scn.presents, p.afterGuard = false := fun p hp => by
    rw [hscn] at hp
    obtain ⟨q, -, rfl⟩ := List.mem_map.1 hp
    rfl
  have hcapture : s.rescanned.pwr.captureFrame = none := by rw [hrep.pwr, State.rescan_pwr]
  have hst : s.rescan.pwr.st = s.pwr.st := by rw [State.rescan_pwr]
  unfold State.rescanned at hcapture ⊢
  split
  · rw [if_pos ‹_›] at hcapture
    have hkept := s.rescan.showAgain_reports
    refine ⟨by rw [atim]; exact htim, by rw [atim]; exact hpulses, hkept.status (by decide) hraised,
      (hkept.rd (by decide) (by decide)).trans hflag, by rw [ascn, hscn], by rw [ascn, hscn], hcapture, by rw [ascn]; exact hfresh,
      fun _ => ⟨hframe.trans (by rw [hscn]), hau.trans (by rw [hscn]), apics⟩⟩
  · rw [if_neg ‹_›] at hcapture
    exact ⟨htim, hpulses, hraised, hflag, by rw [hscn], by rw [hscn], hcapture, hfresh, fun h0 => absurd (hst.trans h0) ‹_›⟩

/-! ## The statement of a step -/

/-- What a step does to the clocks and the outputs, whether scan-out runs or not. -/
structure ClockStepped (s : State) (z : Int) (f : Nat) (t : State) : Prop where
  outputs : OutputsOnly (s.clockSet z f).tim t.tim
  pulses : t.tim.tev.map Tev.pulse = (s.clockCaught z f).tim.tev.map Tev.pulse
  reports : Reports [0xD0004, 0xB0060] { s.clockCaught z f with pwr := t.pwr } t

theorem State.stepClock_stepped {s : State} (he : s.hasEvents = true) (z : Int) (f : Nat) : ClockStepped s z f (s.stepClock z f) := by
  have hcaught := s.clockCaught_outputs z f
  have hevents := (s.clockCaught_reports z f).hasEvents.trans he
  obtain ⟨htim, hpulses, -⟩ := State.rescanned_shows hevents
  have hrep := (s.clockCaught z f).rescanned_reports
  rw [State.stepClock_eq]
  split
  · refine ⟨hcaught.trans (by unfold OutputsOnly; rw [htim]), hpulses, ?_⟩
    rw [hrep.pwr]
    exact hrep
  · exact ⟨hcaught, rfl, .refl _ _⟩

/-- A step writes event registers, TIM_TEV_STATUS, SCN_STATUS and a counter of SYN. -/
theorem State.stepClock_rd {s : State} (he : s.hasEvents = true) (z : Int) (f : Nat) {g : Fld} (hg : evtReg g.off = false)
    (htev : g.off ∉ (List.range 8).map tevStatusOff) (hne : g.off ∉ [0xD0004, 0xB0060]) : (s.stepClock z f).rd g = s.rd g :=
  ((State.stepClock_stepped he z f).reports.rd hne hg).trans ((s.clockCaught_reports z f).rd htev hg)

/-- The outputs that a forward step has passed fire late. -/
theorem State.stepClock_fires {s : State} (he : s.hasEvents = true) (z : Int) (f : Nat) (hfwd : s.dcNs < (s.stepClock z f).dcNs)
    {n : Nat} (hn : n < 8) {a : TevArmed} {v : Tev} (hv : s.tim.tev[n]? = some v) (ha : v.armed = some a) (hl : v.last = false)
    (hk : (s.rd (F.TIM_TEV_CTRL_MODE n) = 1 ∧ a.start < 4 * (s.stepClock z f).dcNs) ∨ (s.rd (F.TIM_TEV_CTRL_MODE n) = 2 ∧
      0 < a.period ∧ a.start + (a.next * a.period : Nat) < 4 * (s.stepClock z f).dcNs)) :
    FiredLate s n (4 * (s.stepClock z f).dcNs) (s.stepClock z f) := by
  obtain ⟨hout, -, hrep⟩ := State.stepClock_stepped he z f
  rw [hout.dcNs] at hfwd hk ⊢
  have hset := s.clockSet_reports z f
  have hrd : ∀ {g : Fld}, 0x70000 ≤ g.off → (s.clockSet z f).rd g = s.rd g := fun hg => hset.rd (by simp) (evtReg_of_tim _ hg)
  have hmode : (s.clockSet z f).tevMode n = s.rd (F.TIM_TEV_CTRL_MODE n) := hrd (by simp only [F.TIM_TEV_CTRL_MODE]; omega)
  have hpol : (s.clockSet z f).rdB (F.TIM_TEV_CTRL_POL n) = s.rdB (F.TIM_TEV_CTRL_POL n) :=
    congrArg (· == 1) (hrd (by simp only [F.TIM_TEV_CTRL_POL]; omega))
  have hball : ∀ q, (s.clockSet z f).ballAt q = s.ballAt q := fun q => by
    unfold State.ballAt State.rdB
    rw [hrd (by decide), hrd (by decide)]
  have hlevels : (s.clockSet z f).tim.levels = s.tim.levels := by rw [State.clockSet_tim]
  have hlate : FiredLate (s.clockSet z f) n (4 * (s.clockSet z f).dcNs) (s.clockCaught z f) := by
    rw [State.clockCaught, if_pos hfwd]
    exact State.lateEdges_fired (hset.hasEvents.trans he) hn (by rw [State.clockSet_tim]; exact hv) ha hl
      fun u => State.skipped_ne_zero (by rw [hmode]; exact hk)
  have hstatus : (s.stepClock z f).rd (F.TIM_TEV_STATUS_LATE n) = (s.clockCaught z f).rd (F.TIM_TEV_STATUS_LATE n) :=
    hrep.rd (by simp only [F.TIM_TEV_STATUS_LATE, List.mem_cons, List.not_mem_nil, or_false]; omega) (evtReg_late n)
  obtain ⟨hsent, hflag, hraised⟩ := hlate
  rw [hlevels, hpol, hball] at hsent
  exact ⟨fun hne => hrep.mem_out (hsent hne), hstatus.trans hflag, hrep.status (by decide) hraised⟩

/-- A step that is not forward starts no pulse. -/
theorem State.stepClock_pulses {s : State} (he : s.hasEvents = true) (z : Int) (f : Nat) (h : (s.stepClock z f).dcNs ≤ s.dcNs) :
    (s.stepClock z f).tim.tev.map Tev.pulse = s.tim.tev.map Tev.pulse := by
  obtain ⟨hout, hpulses, -⟩ := State.stepClock_stepped he z f
  rw [hout.dcNs] at h
  rw [hpulses, State.clockCaught, if_neg (not_lt.2 h), State.clockSet_tim]

theorem State.stepClock_stepsTo {s : State} (he : s.hasEvents = true) (z : Int) (f : Nat) : StepsTo s z f (s.stepClock z f) := by
  obtain ⟨hout, -, hrep⟩ := State.stepClock_stepped he z f
  have hkeeps := s.clockCaught_keeps z f
  have hscn : (s.clockCaught z f).scn = s.scn := hkeeps.same .scn rfl
  have hgeo : (s.clockCaught z f).geo = s.geo := congrArg geoOf (hkeeps.liveWord rfl)
  have hpwr : (s.clockCaught z f).pwr = s.pwr := (s.clockCaught_reports z f).pwr
  have hdc : (s.clockCaught z f).dcNs = (s.stepClock z f).dcNs := (s.clockCaught_outputs z f).dcNs.trans hout.dcNs.symm
  have hevents := (s.clockCaught_reports z f).hasEvents.trans he
  have hlive : (s.stepClock z f).live = s.live := (State.stepClock_keeps (P := 64375) rfl (.refl _ s)).same .live rfl
  have hset := s.clockSet_tim z f
  unfold OutputsOnly at hout
  rw [hset] at hout
  refine ⟨by rw [hout], by rw [hout], by rw [hout], by rw [hout], by rw [hout], hrep.status (by decide) (State.clockCaught_raised he z f),
    hlive, by rw [hout], fun hstill => ?_, fun hruns => ?_, fun hfwd n a v hn hv ha hl hk => ?_, State.stepClock_pulses he z f⟩
  · rw [State.stepClock_eq, State.clockCaught_timed, if_neg (by rw [hstill]; decide)]
    exact hscn
  · obtain ⟨-, -, hraised, hflag, hgap, hnext, hcapture, hpresents, hshown⟩ := State.rescanned_shows hevents
    rw [← hdc, ← hgeo, ← hpwr, ← hscn]
    rw [State.stepClock_eq, State.clockCaught_timed, if_pos hruns]
    exact ⟨hraised, hflag, hgap, hnext, hcapture, hpresents, hshown⟩
  · obtain ⟨hsent, hlate, hraised⟩ := State.stepClock_fires he z f hfwd hn hv ha hl hk
    exact ⟨hsent, hlate, hraised⟩


end Sys2Proof.Machine
end

section
/-!
PROOFS. Steering the display clock and stepping it (R367, R368), and the statement on references and steering as a whole.
-/
namespace Sys2Proof.Machine

/-- A step reads the registers of the state before it, and its time, scan-out and power; what the steering shows is none of these. -/
theorem StepsTo.of_regs {s u t : State} {z : Int} {f : Nat} (h : StepsTo u z f t) (hs : RegsOnly [0x70004, 0x70024] s u)
    (hvalid : u.rd F.TIM_STATUS_VALID = s.rd F.TIM_STATUS_VALID) : StepsTo s z f t := by
  have hrd : ∀ {g : Fld}, g.off ∉ [0x70004, 0x70024] → u.rd g = s.rd g := fun hg => State.rd_of_word (hs.2 _ hg)
  have hmode : ∀ n, u.rd (F.TIM_TEV_CTRL_MODE n) = s.rd (F.TIM_TEV_CTRL_MODE n) := fun n =>
    hrd (by simp only [F.TIM_TEV_CTRL_MODE, List.mem_cons, List.not_mem_nil, or_false]; omega)
  have hpol : ∀ n, u.rdB (F.TIM_TEV_CTRL_POL n) = s.rdB (F.TIM_TEV_CTRL_POL n) := fun n =>
    congrArg (· == 1) (hrd (by simp only [F.TIM_TEV_CTRL_POL, List.mem_cons, List.not_mem_nil, or_false]; omega))
  have hball : u.ballAt = s.ballAt := by
    funext q
    unfold State.ballAt State.rdB
    rw [hrd (by decide), hrd (by decide)]
  have htim : u.tim = s.tim := by rw [hs.1]
  have hscn : u.scn = s.scn := by rw [hs.1]
  have hpwr : u.pwr = s.pwr := by rw [hs.1]
  have hlive : u.live = s.live := by rw [hs.1]
  have hdc : u.dcNs = s.dcNs := by unfold State.dcNs; rw [htim]
  have hgeo : u.geo = s.geo := by unfold State.geo State.liveWord; rw [hlive]
  have htimed : u.timed = s.timed := by unfold State.timed State.awake State.rdB; rw [hpwr, hscn, hvalid]
  unfold StepsTo at *
  simp only [htim, hscn, hpwr, hlive, hdc, hgeo, htimed, hmode, hpol, hball] at h
  exact h

/-- TIM_DC_ERR shows the comparison. -/
def State.compared (s : State) : State := s.wr F.TIM_DC_ERR_E (twos 32 (satS 32 (s.rtNs - s.dcNs)))

theorem State.compared_rd (s : State) {g : Fld} (h : g.off ≠ 0x70024) : s.compared.rd g = s.rd g := s.rd_wr_apart _ _ _ h

theorem State.compared_error (s : State) : s.compared.rd F.TIM_DC_ERR_E = twos 32 (satS 32 (s.rtNs - s.dcNs)) :=
  (s.rd_wr_same _ _ (by decide)).trans (Nat.mod_eq_of_lt (twos_lt 32 _))

/-- A comparison within STEP_NS: INC takes the correction, and SLEWING shows whether one is in force. -/
def State.slewed (s : State) : State :=
  ((s.compared.modTim fun t => { t with inc := (s.compared.freeQuot (s.compared.incQuot (s.rtNs - s.dcNs)).1
    (s.compared.incQuot (s.rtNs - s.dcNs)).2).toNat }).drawn 1).wrB F.TIM_STATUS_SLEWING (decide (1 < (s.rtNs - s.dcNs).natAbs))

theorem State.steerCompare_eq (s : State) : s.steerCompare = if s.stepNs < (s.rtNs - s.dcNs).natAbs
    then (s.compared.wrB F.TIM_STATUS_SLEWING false).stepClock s.rtNs 0 else s.slewed := by
  have hstep : s.compared.stepNs = s.stepNs := congrArg (max 1) (s.compared_rd (by decide))
  have hrt : s.compared.rtNs = s.rtNs := State.rtNs_congr rfl rfl rfl (s.compared_rd (by decide))
  have hsteer : s.steerCompare = if s.compared.stepNs < (s.rtNs - s.dcNs).natAbs
      then (s.compared.wrB F.TIM_STATUS_SLEWING false).stepClock s.compared.rtNs 0 else s.slewed := rfl
  rw [hsteer, hstep, hrt]

/-- INC of R367 as a quotient. -/
theorem State.compared_incQuot (s : State) (e : Int) : s.compared.incQuot e =
    ((s.tim.incNom : Int) * ((2 ^ 40 + s.rate) * 1000000000 +
      sgn e * (min (max 1 (s.rd F.TIM_STEER_SLEW_PPB) : Nat) (e.natAbs * 1000000 : Nat) : Nat) * 2 ^ 40), 2 ^ 40 * 1000000000) := by
  have hslew : s.compared.slewPpb = max 1 (s.rd F.TIM_STEER_SLEW_PPB) := congrArg (max 1) (s.compared_rd (by decide))
  have hrate : s.compared.rate = s.rate := congrArg (sext 32) (s.compared_rd (by decide))
  have htim : s.compared.tim = s.tim := rfl
  unfold State.incQuot
  rw [hslew, hrate, htim]
  push_cast
  rfl

/-- A comparison beyond STEP_NS steps the display clock to rope time. -/
theorem State.steerCompare_steps {s : State} (he : s.hasEvents = true) (h : s.stepNs < (s.rtNs - s.dcNs).natAbs) :
    s.steerCompare.rd F.TIM_DC_ERR_E = twos 32 (satS 32 (s.rtNs - s.dcNs)) ∧ StepsTo s s.rtNs 0 s.steerCompare := by
  have hregs : RegsOnly [0x70004, 0x70024] s (s.compared.wrB F.TIM_STATUS_SLEWING false) :=
    ((s.wr_regsOnly F.TIM_DC_ERR_E _).trans (State.wrB_regsOnly _ F.TIM_STATUS_SLEWING false)).mono
      (by simp [F.TIM_DC_ERR_E, F.TIM_STATUS_SLEWING])
  have hvalid : (s.compared.wrB F.TIM_STATUS_SLEWING false).rd F.TIM_STATUS_VALID = s.rd F.TIM_STATUS_VALID :=
    (State.rd_wrB_ne _ false (by decide) (by decide)).trans (s.compared_rd (by decide))
  have herr : (s.compared.wrB F.TIM_STATUS_SLEWING false).rd F.TIM_DC_ERR_E = twos 32 (satS 32 (s.rtNs - s.dcNs)) :=
    (State.rd_wrB_ne _ false (by decide) (by decide)).trans s.compared_error
  have hevents : (s.compared.wrB F.TIM_STATUS_SLEWING false).hasEvents = true := he
  rw [State.steerCompare_eq, if_pos h]
  refine ⟨?_, StepsTo.of_regs (State.stepClock_stepsTo hevents s.rtNs 0) hregs hvalid⟩
  exact (State.stepClock_rd hevents _ _ (by decide) (by decide) (by decide)).trans herr

/-- A smaller one sets INC. -/
theorem State.steerCompare_slews {s : State} (h : (s.rtNs - s.dcNs).natAbs ≤ s.stepNs) : s.steerCompare = s.slewed := by
  rw [State.steerCompare_eq, if_neg (not_lt.2 h)]

theorem State.slewed_regsOnly (s : State) : RegsOnly [0x70004, 0x70024]
    ({ s with freeCtr := s.slewed.freeCtr, tim := { s.tim with inc := s.slewed.tim.inc } } : State) s.slewed := by
  refine ⟨rfl, fun o ho => ?_⟩
  simp only [List.mem_cons, List.not_mem_nil, or_false, not_or] at ho
  exact (State.word_wr_ne _ F.TIM_STATUS_SLEWING _ ho.1).trans (s.word_wr_ne F.TIM_DC_ERR_E _ ho.2)

theorem State.slewed_shows (s : State) : s.slewed.rd F.TIM_DC_ERR_E = twos 32 (satS 32 (s.rtNs - s.dcNs)) ∧
    s.slewed.rd F.TIM_STATUS_SLEWING = if 1 < (s.rtNs - s.dcNs).natAbs then 1 else 0 := by
  refine ⟨(State.rd_wrB_ne _ _ (by decide) (by decide)).trans s.compared_error, (State.rd_wrB_same _ _ (by decide) rfl).trans ?_⟩
  by_cases h : 1 < (s.rtNs - s.dcNs).natAbs <;> simp [h, b2n]

/-- INC is one of the whole numbers around the quotient. -/
theorem State.slewed_inc {s : State} {num den : Int} (h : s.compared.incQuot (s.rtNs - s.dcNs) = (num, den)) :
    s.slewed.tim.inc = (num / den).toNat ∨ (num % den ≠ 0 ∧ s.slewed.tim.inc = (num / den + 1).toNat) := by
  have hinc : s.slewed.tim.inc = (s.compared.freeQuot num den).toNat := by
    unfold State.slewed
    rw [h]
    rfl
  rw [hinc]
  exact (s.compared.freeQuot_cases num den).imp (congrArg _) fun ⟨hne, hq⟩ => ⟨hne, congrArg _ hq⟩

/-- A write of TIM_DC_ADJ steps the display clock by its value, but under steering and for a value of 0 (log entry 1404). -/
theorem timDcAdj_idle {s : State} {val : Word} (ho : s.bar0Open = true) (h : s.rd F.TIM_CTRL_STEER = 1 ∨ val = 0) :
    exec (.timDcAdj val) s = .next s := by
  have hno : s.rdB F.TIM_CTRL_STEER = true ∨ sext 32 val.toNat = 0 := by
    rcases h with h | rfl
    · exact .inl (State.rdB_eq_true h)
    · exact .inr rfl
  rw [exec_pos (c := .timDcAdj val) rfl ho, State.writeDcAdj, if_pos hno]

theorem timDcAdj_steps {s : State} {val : Word} (ho : s.bar0Open = true) (hs : s.rd F.TIM_CTRL_STEER = 0) (hv : val ≠ 0) :
    Gives (.timDcAdj val) s (StepsTo s (s.dcNs + val.toInt) s.tim.dcFrac) := by
  have hyes : ¬(s.rdB F.TIM_CTRL_STEER = true ∨ sext 32 val.toNat = 0) := by
    rw [sext_word, State.rdB_eq_false hs]
    rintro (hsteer | hz)
    · cases hsteer
    · exact hv (BitVec.eq_of_toInt_eq (hz.trans BitVec.toInt_zero.symm))
  refine gives_pos rfl ho ?_
  rw [State.writeDcAdj, if_neg hyes, sext_word]
  exact State.stepClock_stepsTo (State.hasEvents_of_awake (State.bar0Open_awake ho)) _ _

/-- Settles O48: the reference and PPS_IN by what each of their commands shows; an edge of PPS by the state it is judged in and the servo;
steering and TIM_DC_ADJ by the one operation that steps the display clock. -/
theorem referencesAndSteering : Obligations.ReferencesAndSteering := by
  unfold Obligations.ReferencesAndSteering
  refine ⟨fun s ha h => trefValid_shows ha h, fun s ha h => trefLost_shows ha h, fun s ha => gives_pos rfl ha ?edge,
    fun s ha h => timPpsLost_shows ha h, fun s ha hs => gives_pos rfl (by rw [ha, State.rdB_eq_true hs]; rfl) ?compare,
    fun val s ho => ⟨fun h => timDcAdj_idle ho h, fun hs hv => timDcAdj_steps ho hs hv⟩⟩
  case edge =>
    obtain ⟨hprev, hrole, hok, hlost⟩ := State.ppsEdge_judges (State.hasEvents_of_awake ha)
    dsimp only
    rw [← s.ppsInTime_iff, ← s.ppsLapses_iff]
    refine ⟨hprev, hrole, fun hp => ?_, fun hp => ?_, fun h1 hp hin => hlost (s.ppsLapses_iff.2 ⟨h1, hp, hin⟩), fun h => ?_,
      fun h => State.ppsEdge_passes h⟩
    · rw [hok, b2n_eq_one]
      simp [State.ppsGood, hp]
    · have hgood : s.ppsGood = s.rdB F.TIM_STATUS_PPS_OK := by simp [State.ppsGood, State.ppsInTime, hp]
      rw [hok, hgood, b2n_rdB rfl]
    · obtain ⟨sec, hs, hsec, hpair, hnext, hfirst, hrest⟩ := State.ppsEdge_takes h
      refine ⟨sec, hs, hsec, hpair, fun p hn hnot hp => hnext p hn ?_ hp, hfirst, hrest⟩
      exact Bool.eq_false_iff.2 fun hl => hnot (.inr hl)
  case compare =>
    have hsteps := fun hlt => State.steerCompare_steps (s := s) (State.hasEvents_of_awake ha) hlt
    refine ⟨?_, fun hlt => (hsteps hlt).2, fun hle => ?_⟩
    · rcases Nat.lt_or_ge s.stepNs (s.rtNs - s.dcNs).natAbs with hlt | hle
      · exact (hsteps hlt).1
      · rw [State.steerCompare_slews hle]
        exact s.slewed_shows.1
    · rw [State.steerCompare_slews hle]
      exact ⟨s.slewed_shows.2, State.slewed_inc (s.compared_incQuot _), s.slewed_regsOnly⟩

end Sys2Proof.Machine
end

section
/-!
PROOFS. The unit lists under every step, and the panel's reference outputs, crevasse loop and management bus (R250 to R256).
-/
namespace Sys2Proof.Machine

/-- Settles O5: the list of every command's frame holds each of its operations to the lengths of the unit lists. -/
theorem everyStepKeepsItsLanesAndPorts : Obligations.EveryStepKeepsItsLanesAndPorts := by
  intro s t hs h
  obtain ⟨P, q, hk⟩ := step_keeps h
  exact hk.shape hs

/-! ## Raised sources and the rope -/

/-- A set status bit outlasts every move of the rope. -/
theorem raised_wire {src : Nat} (hs : src < 512) : WireClosed (Raised src) where
  wire hp h := (hp.rd _).trans h
  draw _ h := h
  setTim _ h := h
  wr v hf h := h.wr _ v (by simp [wireReg] at hf; simp [evtReg]; omega) hs
  raise _ h := h.raise hs

theorem panel_wire (x : PnlSt) : WireClosed fun t => t.pnl = x where
  wire hp h := by rw [hp]; exact h
  draw _ h := h
  setTim _ h := h
  wr _ _ h := h
  raise e h := (State.raise_pnl _ e).trans h

theorem State.alarm_wordsKept (s : State) (code bit : Nat) : WordsKept [0x70084] s (s.alarm code bit) := by
  unfold State.alarm
  split
  · exact s.broadcast_wordsKept _ _ _ _ _ _
  · exact (WordsKept.refl s []).mono (by simp)

/-! ## Reference outputs and the crevasse loop (R250, R251) -/

theorem prefLimit_raises {n : Nat} {s : State} (ha : s.awake = true) (hp : s.pnl.prefOn = true) (hn : n < 18) :
    Gives (.prefLimit n) s (After Ev.PNL_PREF_LIMIT s) :=
  gives_pos rfl (by simp [hp, hn]) ⟨s.raise_events _, s.raised rfl (State.hasEvents_of_awake ha)⟩

theorem State.panelOn_awake {s : State} (h : s.panelOn = true) : s.awake = true := by
  simp only [State.awake]
  rw [← State.panelOn, h, Bool.true_or]

/-- What a measurement of the loop stores (R251). -/
def crkReading (ohms : Nat) : Nat := if 20000 < ohms then 0xFFFF else ohms

theorem crkReading_lt (ohms : Nat) : crkReading ohms < 2 ^ 16 := by
  unfold crkReading
  split <;> omega

/-- A reading of the loop before what it is compared with. -/
def State.crkRead (s : State) (ohms : Nat) : State :=
  { s.wr F.PNL_CRK_STATUS_OHMS (crkReading ohms) with
    pnl := { s.pnl with crkOpen := decide (s.rd F.PNL_CRK_THRESH_OPEN < crkReading ohms) } }

theorem State.crkRead_regsOnly (s : State) (ohms : Nat) :
    RegsOnly [0xE00C8] { s with pnl := (s.crkRead ohms).pnl } (s.crkRead ohms) := ⟨rfl, (s.wr_regsOnly F.PNL_CRK_STATUS_OHMS (crkReading ohms)).2⟩

theorem State.crkRead_ohms (s : State) (ohms : Nat) : (s.crkRead ohms).rd F.PNL_CRK_STATUS_OHMS = crkReading ohms :=
  (s.rd_wr_same _ _ (by decide)).trans (Nat.mod_eq_of_lt (crkReading_lt ohms))

theorem State.crkRead_rd (s : State) (ohms : Nat) {f : Fld} (h : f.off ≠ 0xE00C8 ∨ 16 ≤ f.lo) : (s.crkRead ohms).rd f = s.rd f :=
  s.rd_wr_ne F.PNL_CRK_STATUS_OHMS f _ (by decide) (h.imp_right .inr)

/-- The warning of a reading above WARN. -/
def State.crkWarn (s : State) : State := (s.wrB F.PNL_CRK_STATUS_WARN true).bump (F.PNL_CNT_COUNT 3)

/-- Two readings in a row above OPEN: the crack is set, raised and announced on the rope (R251, R357). -/
def State.crkCrack (s : State) : State := ((s.wrB F.PNL_CRK_STATUS_CRACK true).raise Ev.PNL_CRACK).alarm 0x04 3

theorem State.onCrk_eq (s : State) (ohms : Nat) : s.onCrk ohms =
    if s.rd F.PNL_CRK_THRESH_OPEN < crkReading ohms then
      (if s.pnl.crkOpen && !s.rdB F.PNL_CRK_STATUS_CRACK then (s.crkRead ohms).crkCrack else s.crkRead ohms)
    else if s.rd F.PNL_CRK_THRESH_WARN < crkReading ohms then (s.crkRead ohms).crkWarn.raise Ev.PNL_CRK_WARN
    else s.crkRead ohms := by
  have hopen := State.rd_wr_apart s F.PNL_CRK_STATUS_OHMS F.PNL_CRK_THRESH_OPEN (crkReading ohms) (by decide)
  have hwarn := s.crkRead_rd ohms (f := F.PNL_CRK_THRESH_WARN) (.inl (by decide))
  have hcrack : (s.crkRead ohms).rdB F.PNL_CRK_STATUS_CRACK = s.rdB F.PNL_CRK_STATUS_CRACK :=
    congrArg (· == 1) (s.crkRead_rd ohms (.inr (by decide)))
  rw [← hcrack, ← hwarn]
  unfold State.crkRead
  rw [← hopen]
  simp only [State.onCrk, decide_eq_true_eq]
  rfl

theorem State.crkWarn_shows (s : State) (h : s.hasEvents = true) :
    let t := s.crkWarn.raise Ev.PNL_CRK_WARN
    t.rd F.PNL_CRK_STATUS_OHMS = s.rd F.PNL_CRK_STATUS_OHMS ∧ t.rd F.PNL_CRK_STATUS_WARN = 1 ∧ Raised Ev.PNL_CRK_WARN t ∧
      t.rd (F.PNL_CNT_COUNT 3) = min (s.rd (F.PNL_CNT_COUNT 3) + 1) (2 ^ 32 - 1) ∧ t.pnl = s.pnl := by
  have hcnt : (F.PNL_CNT_COUNT 3).lo + (F.PNL_CNT_COUNT 3).len ≤ 32 := by decide
  refine ⟨?_, ?_, State.raised _ rfl h, ?_, State.raise_pnl _ _⟩
  · rw [State.raise_rd _ _ (by decide), crkWarn, bump, State.rd_wr_apart _ _ _ _ (by decide), State.rd_wrB_ne _ _ (by decide) (by decide)]
  · rw [State.raise_rd _ _ (by decide), crkWarn, bump, State.rd_wr_apart _ _ _ _ (by decide), State.rd_wrB_same _ _ (by decide) rfl]
    rfl
  · rw [State.raise_rd _ _ (by decide), crkWarn, State.rd_bump_same _ _ _ hcnt, State.rd_wrB_ne _ _ (by decide) (by decide)]
    rfl

theorem State.crkCrack_shows (s : State) (h : s.hasEvents = true) :
    s.crkCrack.rd F.PNL_CRK_STATUS_OHMS = s.rd F.PNL_CRK_STATUS_OHMS ∧ s.crkCrack.rd F.PNL_CRK_STATUS_CRACK = 1 ∧
      Raised Ev.PNL_CRACK s.crkCrack ∧ s.crkCrack.pnl = s.pnl := by
  have hrd : ∀ f : Fld, f.off = 0xE00C8 → s.crkCrack.rd f = (s.wrB F.PNL_CRK_STATUS_CRACK true).rd f := fun f hf =>
    ((State.alarm_wordsKept _ _ _).rd (by rw [hf]; decide) (by rw [hf]; decide)).trans (State.raise_rd _ _ (by rw [hf]; decide))
  refine ⟨?_, ?_, (raised_wire (by decide)).alarm _ _ (State.raised _ rfl h),
    (panel_wire _).alarm _ _ (State.raise_pnl _ _)⟩
  · rw [hrd _ rfl, State.rd_wrB_ne _ _ (by decide) (by decide)]
  · rw [hrd _ rfl, State.rd_wrB_same _ _ (by decide) rfl]
    rfl

theorem crkMeasure_reads {ohms : Nat} {s : State} (hp : s.panelOn = true) (hm : s.rd F.PNL_CRK_CFG_PERIOD_MS ≠ 0) :
    exec (.crkMeasure ohms) s = .next (s.onCrk ohms) :=
  exec_pos rfl (by simp [hp, hm])

/-- What a reading of the loop does, by where it stands to the thresholds and what the loop showed before (R251). -/
theorem State.onCrk_shows (s : State) (ohms : Nat) (h : s.hasEvents = true) :
    let t := s.onCrk ohms
    let r := crkReading ohms
    t.rd F.PNL_CRK_STATUS_OHMS = r ∧ t.pnl = { s.pnl with crkOpen := decide (s.rd F.PNL_CRK_THRESH_OPEN < r) } ∧
      (r ≤ s.rd F.PNL_CRK_THRESH_OPEN → r ≤ s.rd F.PNL_CRK_THRESH_WARN →
        t = { s with regs := t.regs, pnl := t.pnl } ∧ ∀ o, o ≠ 0xE00C8 → t.word o = s.word o) ∧
      (r ≤ s.rd F.PNL_CRK_THRESH_OPEN → s.rd F.PNL_CRK_THRESH_WARN < r → t.rd F.PNL_CRK_STATUS_WARN = 1 ∧ Raised Ev.PNL_CRK_WARN t ∧
        t.rd (F.PNL_CNT_COUNT 3) = min (s.rd (F.PNL_CNT_COUNT 3) + 1) (2 ^ 32 - 1)) ∧
      (s.rd F.PNL_CRK_THRESH_OPEN < r → s.pnl.crkOpen = false → t.rd F.PNL_CRK_STATUS_CRACK = s.rd F.PNL_CRK_STATUS_CRACK) ∧
      (s.rd F.PNL_CRK_THRESH_OPEN < r → s.pnl.crkOpen = true → s.rd F.PNL_CRK_STATUS_CRACK = 0 →
        t.rd F.PNL_CRK_STATUS_CRACK = 1 ∧ Raised Ev.PNL_CRACK t) := by
  dsimp only
  rw [s.onCrk_eq ohms]
  split
  case isTrue htop =>
    have hn : ¬ crkReading ohms ≤ s.rd F.PNL_CRK_THRESH_OPEN := by omega
    split
    · rename_i hc
      rw [Bool.and_eq_true, Bool.not_eq_true'] at hc
      obtain ⟨ho, hr, hev, hpnl⟩ := (s.crkRead ohms).crkCrack_shows h
      exact ⟨ho.trans (s.crkRead_ohms ohms), hpnl, fun h => absurd h hn, fun h => absurd h hn, fun _ h => by simp [h] at hc, fun _ _ _ => ⟨hr, hev⟩⟩
    · rename_i hc
      exact ⟨s.crkRead_ohms ohms, rfl, fun h => absurd h hn, fun h => absurd h hn, fun _ _ => s.crkRead_rd ohms (.inr (by decide)),
        fun _ h h0 => absurd (by rw [h, State.rdB_eq_false h0]; rfl) hc⟩
  case isFalse htop =>
    split
    · rename_i hw
      obtain ⟨ho, hwarn, hev, hcnt, hpnl⟩ := (s.crkRead ohms).crkWarn_shows h
      refine ⟨ho.trans (s.crkRead_ohms ohms), hpnl, fun _ h => absurd hw (by omega), fun _ _ => ⟨hwarn, hev, ?_⟩, fun h => absurd h htop, fun h => absurd h htop⟩
      rw [hcnt, s.crkRead_rd ohms (.inl (by decide))]
    · rename_i hw
      exact ⟨s.crkRead_ohms ohms, rfl, fun _ _ => ⟨rfl, fun o ho => (s.crkRead_regsOnly ohms).2 o (by simpa using ho)⟩,
        fun _ h => absurd h hw, fun h => absurd h htop, fun h => absurd h htop⟩

/-! ## The management bus (R256) -/

/-- A register that is one field of 32 bits reads as its word. -/
theorem State.rd_full (s : State) (off : Nat) : s.rd ⟨off, 0, 32⟩ = (s.word off).toNat := by
  simp only [State.rd, bits, Nat.pow_zero, Nat.div_one]
  exact Nat.mod_eq_of_lt (s.word off).isLt

/-- What a command writes to PNL_PMB_XFER: the value with GO. -/
theorem withGo_bits (val : Word) :
    (val ||| 0x80000000).toNat % 2 ^ 31 = val.toNat % 2 ^ 31 ∧ bitAt (val ||| 0x80000000).toNat 31 = true := by
  have hor : (val ||| 0x80000000).toNat = val.toNat ||| 0x80000000 := rfl
  have hle : 0x80000000 ≤ (val ||| 0x80000000).toNat := hor ▸ Nat.right_le_or
  have hlt : (val ||| 0x80000000).toNat < 2 ^ 32 := BitVec.isLt _
  refine ⟨by rw [hor, Nat.or_mod_two_pow]; simp, ?_⟩
  simp only [bitAt, beq_iff_eq]
  omega

/-- The settings of a transfer, and DONE cleared by 1. -/
def State.pmbSet (s : State) (v : Nat) : State :=
  let u := (((s.wr F.PNL_PMB_XFER_ADDR v).wr F.PNL_PMB_XFER_RD (v / 2 ^ 7)).wr F.PNL_PMB_XFER_LEN (v / 2 ^ 8)).wr
    F.PNL_PMB_XFER_FAST (v / 2 ^ 10)
  if bitAt v 29 then u.wrB F.PNL_PMB_XFER_DONE false else u

theorem State.pmbSet_regsOnly (s : State) (v : Nat) : RegsOnly [0xE0180] s (s.pmbSet v) := by
  have hset := (((s.wr_regsOnly F.PNL_PMB_XFER_ADDR v).trans (State.wr_regsOnly _ F.PNL_PMB_XFER_RD (v / 2 ^ 7))).trans
    (State.wr_regsOnly _ F.PNL_PMB_XFER_LEN (v / 2 ^ 8))).trans (State.wr_regsOnly _ F.PNL_PMB_XFER_FAST (v / 2 ^ 10))
  unfold State.pmbSet
  dsimp only
  split
  · exact (hset.trans (State.wrB_regsOnly _ F.PNL_PMB_XFER_DONE false)).mono (by decide)
  · exact hset.mono (by decide)

/-- The fields that the settings write, and the two that they leave. -/
theorem State.pmbSet_fields (s : State) (v : Nat) :
    (s.pmbSet v).rd F.PNL_PMB_XFER_ADDR = v % 2 ^ 7 ∧ (s.pmbSet v).rd F.PNL_PMB_XFER_RD = v / 2 ^ 7 % 2 ∧
      (s.pmbSet v).rd F.PNL_PMB_XFER_LEN = v / 2 ^ 8 % 4 ∧
      (s.pmbSet v).rd F.PNL_PMB_XFER_DONE = (if bitAt v 29 then 0 else s.rd F.PNL_PMB_XFER_DONE) ∧
      (s.pmbSet v).rd F.PNL_PMB_XFER_BUSY = s.rd F.PNL_PMB_XFER_BUSY := by
  unfold State.pmbSet
  dsimp only
  split <;> simp (disch := decide) [State.wrB, State.rd_wr_same, State.rd_wr_ne, b2n] <;> exact ⟨rfl, rfl, rfl⟩

/-- GO starts the transfer unless one runs. -/
theorem State.writePmb_go (s : State) (val : Word) : s.writePmb (val ||| 0x80000000) =
    if s.rd F.PNL_PMB_XFER_BUSY = 1 then s.pmbSet (val ||| 0x80000000).toNat
    else (s.pmbSet (val ||| 0x80000000).toNat).startPmb := by
  obtain ⟨_, _, _, _, hbusy⟩ := s.pmbSet_fields (val ||| 0x80000000).toNat
  have heq : s.writePmb (val ||| 0x80000000) = if bitAt (val ||| 0x80000000).toNat 31 && !(s.pmbSet (val ||| 0x80000000).toNat).rdB F.PNL_PMB_XFER_BUSY then
      (s.pmbSet (val ||| 0x80000000).toNat).startPmb else s.pmbSet (val ||| 0x80000000).toNat := rfl
  rw [heq, (withGo_bits val).2, Bool.true_and, State.rdB, hbusy]
  by_cases hb : s.rd F.PNL_PMB_XFER_BUSY = 1 <;> simp [hb]

/-- A transfer that starts sets BUSY, and takes its settings out with it. -/
theorem State.startPmb_shows (s : State) :
    s.startPmb.rd F.PNL_PMB_XFER_BUSY = 1 ∧ (∀ f : Fld, f.lo + f.len ≤ 30 → s.startPmb.rd f = s.rd f) ∧
      s.startPmb.rd F.PNL_PMB_XFER_DONE = s.rd F.PNL_PMB_XFER_DONE ∧
      s.startPmb.out = .pmbStart (s.rd F.PNL_PMB_XFER_ADDR) (s.rd F.PNL_PMB_XFER_RD == 1) (s.rd F.PNL_PMB_XFER_LEN + 1)
        (s.word 0xE0184).toNat :: s.out ∧
      s.startPmb = { s with out := s.startPmb.out, regs := s.startPmb.regs } ∧ ∀ o, o ≠ 0xE0180 → s.startPmb.word o = s.word o := by
  refine ⟨s.rd_wr_same F.PNL_PMB_XFER_BUSY 1 (by decide), fun f hf => s.rd_wr_ne F.PNL_PMB_XFER_BUSY f 1 (by decide) (.inr (.inl hf)),
    s.rd_wr_ne F.PNL_PMB_XFER_BUSY F.PNL_PMB_XFER_DONE 1 (by decide) (by decide), ?_, rfl,
    fun o ho => s.word_wr_ne F.PNL_PMB_XFER_BUSY 1 ho⟩
  rw [← s.rd_full]
  rfl

/-- GO (R256). -/
theorem State.writePmb_shows (s : State) (val : Word) :
    let t := s.writePmb (val ||| 0x80000000)
    t.rd F.PNL_PMB_XFER_BUSY = 1 ∧ t.rd F.PNL_PMB_XFER_ADDR = val.toNat % 2 ^ 7 ∧ t.rd F.PNL_PMB_XFER_LEN = val.toNat / 2 ^ 8 % 4 ∧
      t.rd F.PNL_PMB_XFER_DONE = (if bitAt val.toNat 29 then 0 else s.rd F.PNL_PMB_XFER_DONE) ∧
      (s.rd F.PNL_PMB_XFER_BUSY = 1 → t.out = s.out) ∧
      (s.rd F.PNL_PMB_XFER_BUSY = 0 → t.out = .pmbStart (val.toNat % 2 ^ 7) (bitAt val.toNat 7) (val.toNat / 2 ^ 8 % 4 + 1)
        (s.word 0xE0184).toNat :: s.out) ∧
      t = { s with out := t.out, regs := t.regs } ∧ ∀ o, o ≠ 0xE0180 → t.word o = s.word o := by
  obtain ⟨hlow, -⟩ := withGo_bits val
  obtain ⟨hst, hword⟩ := s.pmbSet_regsOnly (val ||| 0x80000000).toNat
  obtain ⟨haddr, hread, hlen, hdone, hbusy⟩ := s.pmbSet_fields (val ||| 0x80000000).toNat
  have h7 : (val ||| 0x80000000).toNat / 2 ^ 7 % 2 = val.toNat / 2 ^ 7 % 2 := by omega
  have h29 : bitAt (val ||| 0x80000000).toNat 29 = bitAt val.toNat 29 := by
    simp only [bitAt]
    rw [show (val ||| 0x80000000).toNat / 2 ^ 29 % 2 = val.toNat / 2 ^ 29 % 2 by omega]
  rw [show (val ||| 0x80000000).toNat % 2 ^ 7 = val.toNat % 2 ^ 7 by omega] at haddr
  rw [show (val ||| 0x80000000).toNat / 2 ^ 8 % 4 = val.toNat / 2 ^ 8 % 4 by omega] at hlen
  rw [h29] at hdone
  rw [h7] at hread
  dsimp only
  rw [s.writePmb_go]
  have hkept : ∀ o, o ≠ 0xE0180 → (s.pmbSet (val ||| 0x80000000).toNat).word o = s.word o := fun o ho => hword o (by simpa using ho)
  generalize s.pmbSet (val ||| 0x80000000).toNat = u at *
  split
  · rename_i hb
    exact ⟨hbusy.trans hb, haddr, hlen, hdone, fun _ => by rw [hst], fun h => absurd h (by omega), by rw [hst], hkept⟩
  · rename_i hb
    obtain ⟨hset, hlow, hd, hout, hrest, hregs⟩ := u.startPmb_shows
    refine ⟨hset, (hlow _ (by decide)).trans haddr, (hlow _ (by decide)).trans hlen, hd.trans hdone, fun h => absurd h hb, fun _ => ?_, ?_,
      fun o ho => (hregs o ho).trans (hkept o ho)⟩
    · rw [hout, haddr, hread, hlen, hkept _ (by decide), hst]
      rfl
    · rw [hrest, hst]

/-- The bytes of an acknowledged read go to PNL_PMB_DATA. -/
def State.pmbTaken (s : State) (ack : Bool) (data : Word) : State :=
  if ack && s.rdB F.PNL_PMB_XFER_RD then s.wr F.PNL_PMB_DATA_DATA (data.toNat % 2 ^ (8 * (s.rd F.PNL_PMB_XFER_LEN + 1))) else s

/-- What the end of a transfer shows. -/
def State.pmbShown (s : State) (ack : Bool) : State :=
  ((s.wrB F.PNL_PMB_XFER_BUSY false).wrB F.PNL_PMB_XFER_DONE true).wrB F.PNL_PMB_XFER_NACK (!ack)

theorem State.endPmb_eq (s : State) (ack : Bool) (data : Word) :
    s.endPmb ack data = ((s.pmbTaken ack data).pmbShown ack).raise Ev.PNL_PMB_DONE := rfl

theorem State.pmbTaken_regsOnly (s : State) (ack : Bool) (data : Word) : RegsOnly [0xE0184] s (s.pmbTaken ack data) := by
  unfold State.pmbTaken
  split
  · exact s.wr_regsOnly F.PNL_PMB_DATA_DATA _
  · exact .refl s _

theorem State.pmbTaken_data (s : State) (ack : Bool) (data : Word) : ((s.pmbTaken ack data).word 0xE0184).toNat =
    if ack = true ∧ s.rd F.PNL_PMB_XFER_RD = 1 then data.toNat % 2 ^ (8 * (s.rd F.PNL_PMB_XFER_LEN + 1))
    else (s.word 0xE0184).toNat := by
  have hc : (ack && s.rdB F.PNL_PMB_XFER_RD) = true ↔ ack = true ∧ s.rd F.PNL_PMB_XFER_RD = 1 := by
    rw [Bool.and_eq_true, State.rdB_eq_true_iff]
  unfold State.pmbTaken
  by_cases hr : ack = true ∧ s.rd F.PNL_PMB_XFER_RD = 1
  · rw [if_pos hr, if_pos (hc.2 hr), ← State.rd_full]
    exact (State.rd_wr_same _ F.PNL_PMB_DATA_DATA _ (by decide)).trans
      (Nat.mod_eq_of_lt (Nat.lt_of_le_of_lt (Nat.mod_le ..) data.isLt))
  · rw [if_neg hr, if_neg (mt hc.1 hr)]

theorem State.pmbShown_regsOnly (s : State) (ack : Bool) : RegsOnly [0xE0180] s (s.pmbShown ack) :=
  (((s.wrB_regsOnly F.PNL_PMB_XFER_BUSY false).trans (State.wrB_regsOnly _ F.PNL_PMB_XFER_DONE true)).trans
    (State.wrB_regsOnly _ F.PNL_PMB_XFER_NACK (!ack))).mono (by decide)

theorem State.pmbShown_fields (s : State) (ack : Bool) :
    (s.pmbShown ack).rd F.PNL_PMB_XFER_BUSY = 0 ∧ (s.pmbShown ack).rd F.PNL_PMB_XFER_DONE = 1 ∧
      (s.pmbShown ack).rd F.PNL_PMB_XFER_NACK = if ack then 0 else 1 := by
  unfold State.pmbShown
  refine ⟨?_, ?_, ?_⟩
  · rw [State.rd_wrB_ne _ _ (by decide) (by decide), State.rd_wrB_ne _ _ (by decide) (by decide), State.rd_wrB_same _ _ (by decide) rfl]
    rfl
  · rw [State.rd_wrB_ne _ _ (by decide) (by decide), State.rd_wrB_same _ _ (by decide) rfl]
    rfl
  · rw [State.rd_wrB_same _ _ (by decide) rfl]
    cases ack <;> rfl

/-- The end of a transfer (R256): BUSY falls, DONE rises, NACK says whether it was refused, and an acknowledged read has its bytes. -/
theorem State.endPmb_shows (s : State) (ack : Bool) (data : Word) (h : s.hasEvents = true) :
    let t := s.endPmb ack data
    t.rd F.PNL_PMB_XFER_BUSY = 0 ∧ t.rd F.PNL_PMB_XFER_DONE = 1 ∧ t.rd F.PNL_PMB_XFER_NACK = (if ack then 0 else 1) ∧
      (t.word 0xE0184).toNat = (if ack = true ∧ s.rd F.PNL_PMB_XFER_RD = 1 then
        data.toNat % 2 ^ (8 * (s.rd F.PNL_PMB_XFER_LEN + 1)) else (s.word 0xE0184).toNat) ∧
      Raised Ev.PNL_PMB_DONE t ∧ WordsKept [0xE0180, 0xE0184] s t := by
  have htaken := s.pmbTaken_regsOnly ack data
  have hshown := (s.pmbTaken ack data).pmbShown_regsOnly ack
  obtain ⟨hbusy, hdone, hnack⟩ := (s.pmbTaken ack data).pmbShown_fields ack
  have hev : ((s.pmbTaken ack data).pmbShown ack).hasEvents = true := by rw [hshown.1, htaken.1]; exact h
  rw [s.endPmb_eq]
  refine ⟨(State.raise_rd _ _ (by decide)).trans hbusy, (State.raise_rd _ _ (by decide)).trans hdone,
    (State.raise_rd _ _ (by decide)).trans hnack, ?_, State.raised _ rfl hev,
    ((htaken.trans hshown).words.trans (State.raise_wordsKept _ _ [])).mono (by decide)⟩
  rw [State.raise_word _ _ (by decide), hshown.2 _ (by decide), s.pmbTaken_data]

/-- Settles O37: the loop by where its reading stands to the thresholds, the bus by whether a transfer runs. -/
theorem panelAuxiliariesAct : Obligations.PanelAuxiliariesAct := by
  unfold Obligations.PanelAuxiliariesAct
  refine ⟨fun n s ha hp hn => prefLimit_raises ha hp hn, fun ohms s hp hm => ?loop, fun val s ho => ?start, fun ack data s ha hb => ?finish⟩
  case loop => exact ⟨_, crkMeasure_reads hp hm, s.onCrk_shows ohms (State.hasEvents_of_awake (State.panelOn_awake hp))⟩
  case start => exact gives_pos rfl ho (s.writePmb_shows val)
  case finish => exact gives_pos rfl (State.rdB_eq_true hb) (s.endPmb_shows ack data (State.hasEvents_of_awake ha))

end Sys2Proof.Machine
end

section
/-!
PROOFS. Single lanes, and what the owner of a receive lane, a port or a pitch, does when the lane's state changes (R240, R347).
-/
namespace Sys2Proof.Machine

/-! ## One lane of the list -/

theorem State.lane_modLane_same {s : State} {n : Nat} (h : n < s.lanes.length) (f : Lane → Lane) :
    (s.modLane n f).lane n = f (s.lane n) := by
  unfold State.lane State.modLane
  simp [List.getD_eq_getElem?_getD, h]

theorem State.lane_modLane_ne (s : State) {m n : Nat} (h : m ≠ n) (f : Lane → Lane) : (s.modLane n f).lane m = s.lane m := by
  unfold State.lane State.modLane
  simp [List.getD_eq_getElem?_getD, Ne.symm h]

theorem State.modLane_modLane (s : State) (n : Nat) (f g : Lane → Lane) :
    (s.modLane n f).modLane n g = s.modLane n fun l => g (f l) := by
  simp only [State.modLane, List.modify_modify_eq]
  rfl

theorem State.length_modLane (s : State) (n : Nat) (f : Lane → Lane) : (s.modLane n f).lanes.length = s.lanes.length :=
  List.length_modify ..

theorem State.lane_of_lanes {s t : State} (h : t.lanes = s.lanes) (n : Nat) : t.lane n = s.lane n := by
  unfold State.lane
  rw [h]

theorem State.shaped_lanes {s : State} (h : s.shaped = true) : s.lanes.length = 104 := by
  simp only [State.shaped, Bool.and_eq_true, beq_iff_eq] at h
  exact h.1

/-- A lane that the list lacks reads as one in electrical idle. -/
theorem State.lane_lt {s : State} {n : Nat} (h : s.lane n ≠ Lane.reset) : n < s.lanes.length := by
  by_contra hn
  exact h (List.getD_eq_default _ _ (Nat.le_of_not_lt hn))

/-! ## Electrical idle sent (R261, R272, R275) -/

/-- The stream of a transmitter that starts or stops electrical idle. -/
def State.idledTx (s : State) (n : Nat) : TxLane := if (s.lane n).txIdle then (s.txNow n).start s.tim.raw else s.txNow n

theorem State.txIdle_eq (s : State) (n : Nat) (idle : Bool) :
    s.txIdle n idle = (s.modLane n fun l => { l with tx := s.idledTx n, txIdle := idle }).showIdle n := by
  unfold State.txIdle State.txFill State.idledTx
  dsimp only
  rw [State.modLane_modLane]
  cases (s.lane n).txIdle <;> rfl

theorem State.showIdle_lanes (s : State) (n : Nat) : (s.showIdle n).lanes = s.lanes := rfl

theorem State.showIdle_regsOnly (s : State) (n : Nat) : RegsOnly [0xF1004 + 0x40 * n] s (s.showIdle n) := s.wrB_regsOnly _ _

theorem State.showIdle_idle (s : State) (n : Nat) :
    (s.showIdle n).rd (F.LNK_L_STATUS_IDLE n) = b2n ((laneTx n && (s.lane n).txIdle) || (laneRx n && (s.lane n).rxIdle)) :=
  State.rd_wrB_same s (f := F.LNK_L_STATUS_IDLE n) _ (show 6 + 1 ≤ 32 by decide) rfl

theorem State.txIdle_lane {s : State} {n : Nat} (h : n < s.lanes.length) (idle : Bool) :
    (s.txIdle n idle).lane n = { s.lane n with tx := s.idledTx n, txIdle := idle } := by
  rw [State.txIdle_eq, State.lane_of_lanes (State.showIdle_lanes _ n), State.lane_modLane_same h]

theorem State.txIdle_lane_ne (s : State) {m n : Nat} (h : m ≠ n) (idle : Bool) : (s.txIdle n idle).lane m = s.lane m := by
  rw [State.txIdle_eq, State.lane_of_lanes (State.showIdle_lanes _ n), State.lane_modLane_ne _ h]

theorem State.txIdle_regsOnly (s : State) (n : Nat) (idle : Bool) :
    RegsOnly [0xF1004 + 0x40 * n] { s with lanes := (s.txIdle n idle).lanes } (s.txIdle n idle) := by
  rw [State.txIdle_eq]
  exact State.showIdle_regsOnly (s.modLane n fun l => { l with tx := s.idledTx n, txIdle := idle }) n

theorem State.txIdle_length (s : State) (n : Nat) (idle : Bool) : (s.txIdle n idle).lanes.length = s.lanes.length := by
  rw [State.txIdle_eq, State.showIdle_lanes, State.length_modLane]

/-! ## The steps of a pitch (Table 13-3) -/

/-- LOCK to TRAIN with the first aligned lane. -/
def State.enterTrain (s : State) (p : Port) : State :=
  if s.pitchState p = 1 ∧ s.anyAligned p = true then s.setPitchState p 2 else s

/-- From TRAIN on aligned lanes say lane done. -/
def State.sayDone (s : State) (p : Port) : State := if 2 ≤ s.pitchState p then s.sendDones p else s

/-- TRAIN to HELLO. -/
def State.enterHello (s : State) (p : Port) : State :=
  if s.pitchState p = 2 ∧ s.trained p = true then s.setPitchState p 3 else s

/-- A retraining pitch takes up its messages again (R348). -/
def State.endRetrain (s : State) (p : Port) : State :=
  if s.pitchUp p && (s.pitch p).retrain && !(s.pitch p).dwell && s.trained p then
    s.modPitch p fun q => { q with retrain := false }
  else s

/-- The moves of a pitch before its lanes are settled. -/
def State.pitchMoved (s : State) (p : Port) : State := ((((s.clearDones p).enterTrain p).sayDone p).enterHello p).endRetrain p

theorem State.advancePitch_eq (s : State) (p : Port) : s.advancePitch p = (s.pitchMoved p).settleLanes p := rfl

/-! ## What the owner of a receive lane may change -/

/-- A lane's receiver, and what its transmitter counts, are as before. -/
def RxSame (a b : Lane) : Prop := b = { a with tx := b.tx, txIdle := b.txIdle, saved := b.saved, savedQ := b.savedQ }

theorem RxSame.refl (a : Lane) : RxSame a a := rfl

theorem RxSame.trans {a b c : Lane} (h : RxSame a b) (k : RxSame b c) : RxSame a c := by
  unfold RxSame at *
  rw [k, h]

/-- What the owners of the receive lanes, 96 and up, leave of them: their receivers and registers; and set status bits stay set. -/
structure OwnerKept (s t : State) : Prop where
  lane : ∀ n, 96 ≤ n → RxSame (s.lane n) (t.lane n)
  words : ∀ o, 0xF2800 ≤ o → t.word o = s.word o
  raised : ∀ src, src < 512 → Raised src s → Raised src t

/-- The lock bits of the return lanes in PNL_STATUS stay too. -/
structure RxKept (s t : State) : Prop extends OwnerKept s t where
  lock : ∀ i, 16 ≤ i → t.rd ⟨0xE0004, i, 1⟩ = s.rd ⟨0xE0004, i, 1⟩

theorem portLanes_lt {p n : Nat} (hp : p < 16) (hn : n ∈ portLanes p) : n < 96 := by
  simp only [portLanes, upFrom, List.mem_map, List.mem_range] at hn
  omega

namespace RxKept

theorem refl (s : State) : RxKept s s := ⟨⟨fun _ _ => .refl _, fun _ _ => rfl, fun _ _ h => h⟩, fun _ _ => rfl⟩

variable {r s : State} (h : RxKept r s)
include h

/-- Changes of no lane and no register. -/
theorem other {t : State} (hl : t.lanes = s.lanes) (hr : t.regs = s.regs) : RxKept r t where
  lane n hn := by
    rw [State.lane_of_lanes hl]
    exact h.lane n hn
  words o ho := by
    rw [State.word, hr]
    exact h.words o ho
  lock i hi := by
    rw [State.rd_of_regs hr]
    exact h.lock i hi
  raised src hs hr' := (State.rd_of_regs hr _).trans (h.raised src hs hr')

theorem setWord {off : Nat} (w : Word) (h1 : off < 0xF2800) (h2 : off ≠ 0xE0004) (h3 : evtReg off = false) : RxKept r (s.setWord off w) where
  lane := h.lane
  words o ho := (s.word_setWord_ne w (by omega)).trans (h.words o ho)
  lock i hi := (State.rd_of_word (s.word_setWord_ne w (Ne.symm h2))).trans (h.lock i hi)
  raised src hs hr := by
    refine (State.rd_of_word (s.word_setWord_ne w fun he => ?_)).trans (h.raised src hs hr)
    rw [← he, evtStatusFld_evtReg hs] at h3
    cases h3

theorem wr {f : Fld} (v : Nat) (h1 : f.off < 0xF2800) (h2 : f.off ≠ 0xE0004) (h3 : evtReg f.off = false) : RxKept r (s.wr f v) :=
  h.setWord _ h1 h2 h3

/-- The status of a lane without a receiver. -/
theorem wrLane (f : Fld) {n : Nat} (hn : n < 96) (hf : f.off = 0xF1004 + 0x40 * n) (v : Nat) : RxKept r (s.wr f v) :=
  h.wr v (by omega) (by omega) (evtReg_of_tim _ (by omega))

/-- PNL_STATUS shows a port. -/
theorem wrPort {p : Nat} (hp : p < 16) (b : Bool) : RxKept r (s.wrB ⟨0xE0004, p, 1⟩ b) where
  lane := h.lane
  words o ho := (s.word_wr_ne ⟨0xE0004, p, 1⟩ _ (Nat.ne_of_gt (Nat.lt_of_lt_of_le (by decide : 0xE0004 < 0xF2800) ho))).trans (h.words o ho)
  lock i hi := (s.rd_wrB_ne b (by simp only; omega) (by simp only; omega)).trans (h.lock i hi)
  raised src hs hr := (h.raised src hs hr).wr ⟨0xE0004, p, 1⟩ _ rfl hs

theorem raise (e : Nat) : RxKept r (s.raise e) where
  lane n hn := by
    rw [State.lane_of_lanes (s.raise_lanes e)]
    exact h.lane n hn
  words o ho := (s.raise_word e (evtReg_of_tim _ (by omega))).trans (h.words o ho)
  lock i hi := (s.raise_rd e rfl).trans (h.lock i hi)
  raised src hs hr := (h.raised src hs hr).raise hs

/-- A change of the sending side of a lane, or of a lane without a receiver. -/
theorem modLane {n : Nat} {f : Lane → Lane} (hf : ∀ l, RxSame l (f l)) : RxKept r (s.modLane n f) where
  lane m hm := by
    by_cases hn : m = n
    · subst hn
      by_cases hl : m < s.lanes.length
      · rw [State.lane_modLane_same hl]
        exact (h.lane m hm).trans (hf _)
      · rw [State.lane_of_lanes (s := s) (t := s.modLane m f) (List.modify_eq_self (Nat.le_of_not_lt hl))]
        exact h.lane m hm
    · rw [State.lane_modLane_ne _ hn]
      exact h.lane m hm
  words := h.words
  lock := h.lock
  raised := h.raised

theorem modPort (p : Nat) (f : PnlPort → PnlPort) : RxKept r (s.modPort p f) := h.other rfl rfl

theorem modPitch (p : Port) (f : Pitch → Pitch) : RxKept r (s.modPitch p f) := by cases p <;> exact h.other rfl rfl

theorem txFill (n : Nat) : RxKept r (s.txFill n) := h.modLane fun _ => rfl

theorem txBlocks (n : Nat) (bs : List (Nat × List Byte)) : RxKept r (s.txBlocks n bs) := (h.txFill n).modLane fun _ => rfl

theorem ropeOut (p : Port) (l : Nat) (msg : List Byte) : RxKept r (s.ropeOut p l msg) :=
  keptBy_ite ((h.txBlocks _ _).other rfl rfl) h

theorem saveFir (n : Nat) : RxKept r (s.saveFir n) := keptBy_ite (h.modLane fun _ => rfl) (h.modLane fun _ => rfl)

theorem startFir {n : Nat} (hn : n < 96) : RxKept r (s.startFir n) :=
  h.setWord _ (by omega) (by omega) (evtReg_of_tim _ (by omega))

theorem txIdle {n : Nat} (hn : n < 96) (idle : Bool) : RxKept r (s.txIdle n idle) := by
  rw [State.txIdle_eq]
  have hl := h.modLane (n := n) (f := fun l => { l with tx := s.idledTx n, txIdle := idle }) fun _ => rfl
  exact hl.wrLane (F.LNK_L_STATUS_IDLE n) hn rfl _

theorem setRate {n : Nat} (hn : n < 96) (q : Bool) : RxKept r (s.setRate n q) :=
  h.wrLane (F.LNK_L_STATUS_QUARTER n) hn rfl _

theorem setPort {p : Nat} (hp : p < 16) (v : Nat) : RxKept r (s.setPort p v) := by
  have hw : RxKept r ((s.wr (portFld p) v).wrB ⟨0xE0004, p, 1⟩ (v == 2)) :=
    (h.wr (f := portFld p) v (show 0xE0010 < 0xF2800 by decide) (show 0xE0010 ≠ 0xE0004 by decide) rfl).wrPort hp _
  exact keptBy_ite (hw.other rfl rfl) hw

theorem startPort {p : Nat} (hp : p < 16) : RxKept r (s.startPort p) := by
  have hl : RxKept r ((portLanes p).foldl (fun s n => (s.setRate n (s.pwr.st == .s1)).startFir n |>.txIdle n false) s) :=
    keptBy_foldl_mem _ h fun _ n hn h =>
      ((h.setRate (portLanes_lt hp hn) _).startFir (portLanes_lt hp hn)).txIdle (portLanes_lt hp hn) false
  exact ((hl.setPort hp 1).modPort p _).wr (f := ⟨0xE000C, p, 1⟩) _ (show 0xE000C < 0xF2800 by decide)
    (show 0xE000C ≠ 0xE0004 by decide) rfl

theorem stopPort {p : Nat} (hp : p < 16) (failed : Bool) : RxKept r (s.stopPort p failed) :=
  (keptBy_foldl_mem _ (h.setPort hp 0) fun _ _ hn h => h.txIdle (portLanes_lt hp hn) true).modPort p _

theorem settlePort {p : Nat} (hp : p < 16) : RxKept r (s.settlePort p) :=
  keptBy_ite (keptBy_ite h (h.stopPort hp false)) (keptBy_ite (h.startPort hp) h)

theorem settlePorts : RxKept r s.settlePorts :=
  keptBy_foldl_mem _ h fun _ _ hp h => h.settlePort (List.mem_range.1 hp)

/-! A pitch moves on through its own registers, and the sending sides of its lanes. -/

theorem wrRope (f : Fld) (hf : 0x70000 ≤ f.off ∧ f.off < 0xE0000) (v : Nat) : RxKept r (s.wr f v) :=
  h.wr v (by omega) (by omega) (evtReg_of_tim _ (by omega))

theorem wrPitch (p : Port) {f : Fld} (hf : f.off = 0x80010) (v : Nat) : RxKept r (s.wr (pf p f) v) := by
  refine h.wrRope _ ?_ v
  cases p <;> simp [pf, hf]

theorem settleLanes (p : Port) : RxKept r (s.settleLanes p) := by
  have hw := h.wrPitch p (f := F.ROPE_UP_STATE_LANES) rfl (s.carryMask p)
  have hs := keptBy_foldl (f := fun t i => if bitAt (s.carryMask p) i && !bitAt (s.rd (pf p F.ROPE_UP_STATE_LANES)) i then
    t.saveFir (p.lane0 + i) else t) [0, 1] hw fun _ _ h => keptBy_ite (h.saveFir _) h
  exact keptBy_ite (hs.raise _) hs

theorem clearDones (p : Port) : RxKept r (s.clearDones p) := keptBy_foldl _ h fun _ _ h => keptBy_ite h (h.modPitch p _)

theorem sendPitchReq (p : Port) (i code : Nat) : RxKept r (s.sendPitchReq p i code) := by
  unfold State.sendPitchReq
  exact (h.ropeOut p i _).modPitch p _

theorem sendDones (p : Port) : RxKept r (s.sendDones p) :=
  keptBy_foldl _ h fun _ _ h => keptBy_ite ((h.sendPitchReq p _ _).modPitch p _) h

theorem setPitchState (p : Port) (v : Nat) : RxKept r (s.setPitchState p v) := h.wrPitch p (f := F.ROPE_UP_STATE_STATE) rfl v

theorem pitchMoved (p : Port) : RxKept r (s.pitchMoved p) := by
  have htrain : RxKept r ((s.clearDones p).enterTrain p) := keptBy_ite ((h.clearDones p).setPitchState p 2) (h.clearDones p)
  have hsaid : RxKept r (((s.clearDones p).enterTrain p).sayDone p) := keptBy_ite (htrain.sendDones p) htrain
  have hhello : RxKept r ((((s.clearDones p).enterTrain p).sayDone p).enterHello p) := keptBy_ite (hsaid.setPitchState p 3) hsaid
  exact keptBy_ite (hhello.modPitch p _) hhello

theorem advancePitch (p : Port) : RxKept r (s.advancePitch p) := (h.pitchMoved p).settleLanes p

end RxKept

/-- What PNL_STATUS and the events say of a return lane (R240, Table 8-9). -/
def State.noteRet (s : State) (n : Nat) (was : Bool) : State :=
  let u := s.wrB ⟨0xE0004, 16 + n, 1⟩ (s.retLocked n)
  if was && !s.retLocked n && u.retInUse n then u.raise Ev.PNL_RET_LOST else u

theorem State.afterRet_eq (s : State) (n : Nat) (was : Bool) : s.afterRet n was = (s.noteRet n was).settlePorts := rfl

theorem OwnerKept.trans {s t u : State} (h : OwnerKept s t) (k : OwnerKept t u) : OwnerKept s u :=
  ⟨fun n hn => (h.lane n hn).trans (k.lane n hn), fun o ho => (k.words o ho).trans (h.words o ho),
    fun src hs hr => k.raised src hs (h.raised src hs hr)⟩

theorem State.noteRet_owner (s : State) (n : Nat) (was : Bool) : OwnerKept s (s.noteRet n was) := by
  have hw : OwnerKept s (s.wrB ⟨0xE0004, 16 + n, 1⟩ (s.retLocked n)) :=
    ⟨fun _ _ => .refl _, fun o ho => s.word_wr_ne ⟨0xE0004, 16 + n, 1⟩ _ (Nat.ne_of_gt (Nat.lt_of_lt_of_le (by decide : 0xE0004 < 0xF2800) ho)),
      fun _ hs hr => hr.wr ⟨0xE0004, 16 + n, 1⟩ _ rfl hs⟩
  exact keptBy_ite (P := OwnerKept s) (hw.trans ((RxKept.refl _).raise _).toOwnerKept) hw

/-- What follows from a receive lane's state keeps the receivers and their registers (R240, R347). -/
theorem State.afterLane_owner (s : State) (n : Nat) (was : Bool) : OwnerKept s (s.afterLane n was) :=
  keptBy_ite (P := OwnerKept s) ((s.noteRet_owner _ was).trans (RxKept.refl _).settlePorts.toOwnerKept) ((RxKept.refl s).advancePitch _).toOwnerKept

/-- A register of a receive lane reads as before. -/
theorem OwnerKept.rd {s t : State} (h : OwnerKept s t) {f : Fld} (hf : 0xF2800 ≤ f.off) : t.rd f = s.rd f := State.rd_of_word (h.words _ hf)

theorem OwnerKept.lockOf {s t : State} (h : OwnerKept s t) {n : Nat} (hn : 96 ≤ n) : t.lockOf n = s.lockOf n :=
  h.rd (by simp only [F.LNK_L_STATUS_LOCK]; omega)

/-- PNL_STATUS shows whether a return lane counts as locked (R240). -/
theorem State.afterRet_lock (s : State) {n : Nat} (hn : n < 4) (was : Bool) :
    (s.afterRet n was).rd ⟨0xE0004, 16 + n, 1⟩ = b2n (s.retLocked n) := by
  have hw : (s.wrB ⟨0xE0004, 16 + n, 1⟩ (s.retLocked n)).rd ⟨0xE0004, 16 + n, 1⟩ = b2n (s.retLocked n) :=
    s.rd_wrB_same _ (by simp only; omega) rfl
  rw [State.afterRet_eq, (RxKept.refl _).settlePorts.lock _ (by omega)]
  exact reads_ite (g := fun t => t.rd ⟨0xE0004, 16 + n, 1⟩) ((State.raise_rd _ _ rfl).trans hw) hw

theorem State.retInUse_wrB (s : State) (f : Fld) (b : Bool) (n : Nat) : (s.wrB f b).retInUse n = s.retInUse n := rfl

/-- A return lane in use that falls out of lock is announced (Table 8-9). -/
theorem State.afterRet_lost {s : State} {n : Nat} (hev : s.hasEvents = true) (hnow : s.retLocked n = false) (hu : s.retInUse n = true) :
    Raised Ev.PNL_RET_LOST (s.afterRet n true) := by
  rw [State.afterRet_eq]
  refine (RxKept.refl _).settlePorts.raised _ (by decide) ?_
  unfold State.noteRet
  rw [if_pos (by rw [State.retInUse_wrB, hnow, hu]; rfl)]
  exact State.raised _ rfl hev

end Sys2Proof.Machine
end

section
/-!
PROOFS. Block lock, electrical idle and rate changes of the lanes (chapter 9).
-/
namespace Sys2Proof.Machine

/-! ## Block lock (R273) -/

theorem laneRx_lt {n : Nat} (h : laneRx n = true) : 96 ≤ n ∧ n < 104 := by
  simp only [laneRx, Bool.and_eq_true, decide_eq_true_eq] at h
  exact h

theorem State.rxOn_rx {s : State} {n : Nat} (h : s.rxOn n = true) : 96 ≤ n ∧ n < 104 := by
  simp only [State.rxOn, Bool.and_eq_true] at h
  exact laneRx_lt h.1.1

theorem State.prbsCheck_off {s : State} {n : Nat} (h : s.rd (F.LNK_L_CTRL_PRBS_CHK n) = 0) (syms : List Nat) : s.prbsCheck n syms = s := by
  unfold State.prbsCheck
  rw [State.rdB_eq_false h]
  rfl

/-- A block that a lane in HUNT takes. -/
theorem State.rxLane_hunt {s : State} {n : Nat} {syms : List Nat} {h : Nat} {bytes : List Byte} {l : Lane} (hl : n < s.lanes.length)
    (hchk : s.rd (F.LNK_L_CTRL_PRBS_CHK n) = 0) (hlock : s.lockOf n = 0)
    (ht : ({ s.lane n with carry := (s.lane n).carry ++ syms } : Lane).takeBlock = some (h, bytes, l)) :
    s.rxLane n syms = ((s.modLane n fun _ => l).huntHeader n h).adaptStep n := by
  have hlock' : ((s.modLane n fun l => { l with carry := l.carry ++ syms }).modLane n fun _ => l).lockOf n = 0 := hlock
  unfold State.rxLane
  dsimp only
  rw [State.prbsCheck_off hchk, State.lane_modLane_same hl, ht]
  dsimp only
  rw [hlock', State.modLane_modLane]
  rfl

/-- Adaptation moves the equaliser alone. -/
theorem State.adaptStep_rest (s : State) (n : Nat) :
    (s.adaptStep n).lanes = s.lanes ∧ ∀ o, o ≠ 0xF100C + 0x40 * n → (s.adaptStep n).word o = s.word o := by
  unfold State.adaptStep
  split
  · exact ⟨rfl, fun o ho => s.word_setWord_ne _ ho⟩
  · exact ⟨rfl, fun _ _ => rfl⟩

/-- Block lock gained shows LOCKED and starts the header count afresh. -/
theorem State.toLocked_shows {s : State} {n : Nat} (hl : n < s.lanes.length) :
    (s.toLocked n).lockOf n = 1 ∧ ((s.toLocked n).lane n).run = 0 := by
  have hlock : (s.wr (F.LNK_L_STATUS_LOCK n) 1).lockOf n = 1 := s.rd_wr_same (F.LNK_L_STATUS_LOCK n) 1 (show 0 + 2 ≤ 32 by decide)
  set u := (s.wr (F.LNK_L_STATUS_LOCK n) 1).modLane n fun l => { l with win := [], fresh := false, run := 0, cw := [] } with hu
  have hu1 : u.lockOf n = 1 := hlock
  have hrun : (u.lane n).run = 0 := by
    rw [hu, State.lane_modLane_same (s := s.wr _ _) hl]
  have hul : n < u.lanes.length := by rw [hu, State.length_modLane]; exact hl
  have heq : s.toLocked n = if (s.lane n).fresh then (u.setAdapt n 0).modLane n fun l => { l with blocks := 0 } else u := rfl
  rw [heq]
  split
  · refine ⟨?_, ?_⟩
    · exact (u.rd_wr_ne (F.LNK_L_STATUS_ADAPT n) (F.LNK_L_STATUS_LOCK n) _ (show 2 + 2 ≤ 32 by decide) (.inr (.inl (show 0 + 2 ≤ 2 by decide)))).trans hu1
    · rw [State.lane_modLane_same (s := u.setAdapt n 0) hul]
      exact hrun
  · exact ⟨hu1, hrun⟩

/-- What a header does to a lane in HUNT: an invalid one slips a bit and counts, the 64th valid one in a row locks. -/
theorem State.huntHeader_shows {s : State} {n h : Nat} (hl : n < s.lanes.length) (hlock : s.lockOf n = 0) :
    let t := s.huntHeader n h
    (h = 3 → t.lockOf n = 0 ∧ t.lane n = { (s.lane n).slip with run := 0 } ∧
      t.rd (F.LNK_L_HDR_BAD_COUNT n) = min (s.rd (F.LNK_L_HDR_BAD_COUNT n) + 1) (2 ^ 32 - 1)) ∧
    (h ≠ 3 → (s.lane n).run < 63 → t.lockOf n = 0 ∧ (t.lane n).run = (s.lane n).run + 1) ∧
    (h ≠ 3 → 63 ≤ (s.lane n).run → t.lockOf n = 1 ∧ (t.lane n).run = 0) := by
  have hlock' : (s.modLane n fun l => { l with run := l.run + 1 }).lockOf n = 0 := hlock
  have hrun : ((s.modLane n fun l => { l with run := l.run + 1 }).lane n).run = (s.lane n).run + 1 := by
    rw [State.lane_modLane_same hl]
  unfold State.huntHeader
  dsimp only
  refine ⟨fun h3 => ?_, fun h3 hlt => ?_, fun h3 hge => ?_⟩
  · rw [if_pos h3]
    refine ⟨?_, State.lane_modLane_same (s := s.bump _) hl _, s.rd_bump_same (F.LNK_L_HDR_BAD_COUNT n) 1 (show 0 + 32 ≤ 32 by decide)⟩
    exact (s.rd_wr_apart (F.LNK_L_HDR_BAD_COUNT n) (F.LNK_L_STATUS_LOCK n) _ (show 0xF1004 + 0x40 * n ≠ 0xF102C + 0x40 * n by omega)).trans hlock
  · rw [if_neg h3, hrun, if_neg (by omega)]
    exact ⟨hlock', hrun⟩
  · rw [if_neg h3, hrun, if_pos (by omega)]
    exact State.toLocked_shows (by rw [State.length_modLane]; exact hl)

theorem rxBlock_hunts {n : Nat} {syms : List Nat} {h : Nat} {bytes : List Byte} {l : Lane} {s : State} (hs : s.shaped = true)
    (hon : s.rxOn n = true) (hidle : (s.lane n).rxIdle = false) (hchk : s.rd (F.LNK_L_CTRL_PRBS_CHK n) = 0) (hlock : s.lockOf n = 0)
    (ht : ({ s.lane n with carry := (s.lane n).carry ++ syms } : Lane).takeBlock = some (h, bytes, l)) :
    Gives (.rxBlock n syms) s fun t =>
      (h = 3 → t.lockOf n = 0 ∧ (t.lane n).run = 0 ∧ (t.lane n).carry = l.slip.carry ∧ (t.lane n).off = l.slip.off ∧
        t.rd (F.LNK_L_HDR_BAD_COUNT n) = min (s.rd (F.LNK_L_HDR_BAD_COUNT n) + 1) (2 ^ 32 - 1)) ∧
      (h ≠ 3 → l.run < 63 → t.lockOf n = 0 ∧ (t.lane n).run = l.run + 1) ∧
      (h ≠ 3 → 63 ≤ l.run → t.lockOf n = 1 ∧ (t.lane n).run = 0) := by
  obtain ⟨hlo, hhi⟩ := State.rxOn_rx hon
  have hl : n < s.lanes.length := by rw [State.shaped_lanes hs]; exact hhi
  refine gives_pos rfl (by simp [hon, hidle]) ?_
  rw [State.rxLane_hunt hl hchk hlock ht]
  have hu := State.huntHeader_shows (s := s.modLane n fun _ => l) (h := h) (by rw [State.length_modLane]; exact hl) hlock
  rw [State.lane_modLane_same hl] at hu
  obtain ⟨hbad, hvalid, hlocked⟩ := hu
  obtain ⟨hlanes, hword⟩ := ((s.modLane n fun _ => l).huntHeader n h).adaptStep_rest n
  have hown := (((s.modLane n fun _ => l).huntHeader n h).adaptStep n).afterLane_owner n (s.ownLocked n)
  have hlane := hown.lane n hlo
  rw [State.lane_of_lanes hlanes] at hlane
  have hrd : ∀ f : Fld, 0xF2800 ≤ f.off → f.off ≠ 0xF100C + 0x40 * n →
      ((((s.modLane n fun _ => l).huntHeader n h).adaptStep n).afterLane n (s.ownLocked n)).rd f = ((s.modLane n fun _ => l).huntHeader n h).rd f :=
    fun f hf ho => (hown.rd hf).trans (State.rd_of_word (hword _ ho))
  have hlk := hrd (F.LNK_L_STATUS_LOCK n) (by simp only [F.LNK_L_STATUS_LOCK]; omega) (by simp only [F.LNK_L_STATUS_LOCK]; omega)
  have hcnt := hrd (F.LNK_L_HDR_BAD_COUNT n) (by simp only [F.LNK_L_HDR_BAD_COUNT]; omega) (by simp only [F.LNK_L_HDR_BAD_COUNT]; omega)
  refine ⟨fun h3 => ?_, fun h3 hr => ?_, fun h3 hr => ?_⟩
  · obtain ⟨h0, hslip, hb⟩ := hbad h3
    rw [hslip] at hlane
    exact ⟨hlk.trans h0, congrArg Lane.run hlane, (congrArg Lane.carry hlane :), (congrArg Lane.off hlane :), hcnt.trans hb⟩
  · obtain ⟨h0, hrun⟩ := hvalid h3 hr
    exact ⟨hlk.trans h0, (congrArg Lane.run hlane).trans hrun⟩
  · obtain ⟨h1, hrun⟩ := hlocked h3 hr
    exact ⟨hlk.trans h1, (congrArg Lane.run hlane).trans hrun⟩

/-! ## Electrical idle detected (R275) -/

/-- The lane's status while a signal is missing. -/
def State.rxQuiet (s : State) (n : Nat) : State := (s.modLane n fun l => { l with rxIdle := true }).showIdle n

theorem rxElectricalIdle_shows {n : Nat} {s : State} (hs : s.shaped = true) (hrx : laneRx n = true) (hidle : (s.lane n).rxIdle = false) :
    Gives (.rxElectricalIdle n) s fun t =>
      (t.lane n).rxIdle = true ∧ t.rd (F.LNK_L_STATUS_IDLE n) = 1 ∧ t.lockOf n = s.lockOf n ∧
      (n < 100 → t.rd ⟨0xE0004, n - 80, 1⟩ = 0 ∧
        (s.awake = true → s.retInUse (n - 96) = true → s.lockOf n ≠ 0 → s.rd (F.LNK_L_CTRL_PRBS_CHK n) = 0 → Raised Ev.PNL_RET_LOST t)) := by
  obtain ⟨hlo, hhi⟩ := laneRx_lt hrx
  have hl : n < s.lanes.length := by rw [State.shaped_lanes hs]; exact hhi
  refine gives_pos rfl (by simp [hrx, hidle]) ?_
  rw [← State.rxQuiet]
  have hlane : ((s.rxQuiet n).lane n).rxIdle = true := by
    rw [State.rxQuiet, State.lane_of_lanes (State.showIdle_lanes _ n), State.lane_modLane_same hl]
  have hshow : (s.rxQuiet n).rd (F.LNK_L_STATUS_IDLE n) = 1 := by
    rw [State.rxQuiet, State.showIdle_idle, State.lane_modLane_same hl, hrx]
    simp [b2n]
  have hlock : (s.rxQuiet n).lockOf n = s.lockOf n :=
    State.rd_wrB_ne _ (f := F.LNK_L_STATUS_IDLE n) (g := F.LNK_L_STATUS_LOCK n) _ (show 6 + 1 ≤ 32 by decide) (.inr (.inl (show 0 + 2 ≤ 6 by decide)))
  have hown := (s.rxQuiet n).afterLane_owner n (s.ownLocked n)
  refine ⟨(congrArg Lane.rxIdle (hown.lane n hlo)).trans hlane,
    (hown.rd (by simp only [F.LNK_L_STATUS_IDLE]; omega)).trans hshow, (hown.lockOf hlo).trans hlock, fun hret => ?_⟩
  have hn : 96 + (n - 96) = n := by omega
  have hnow : (s.rxQuiet n).retLocked (n - 96) = false := by
    rw [State.retLocked, State.blockLocked, hn, hlane]
    simp
  unfold State.afterLane
  rw [if_pos hret]
  refine ⟨?_, fun ha hu hlk hchk => ?_⟩
  · rw [show n - 80 = 16 + (n - 96) by omega, State.afterRet_lock _ (by omega), hnow]
    rfl
  · have hwas : s.ownLocked n = true := by
      simp [State.ownLocked, State.retLocked, State.blockLocked, hn, hlk, hidle, State.rdB_eq_false hchk]
    rw [hwas]
    exact State.afterRet_lost (State.hasEvents_of_awake ha) hnow hu

/-! ## The end of electrical idle (R261, R273) -/

/-- The bit of a lane's event (R280). -/
def laneBit (n : Nat) : Fld := ⟨0xF0010 + 4 * (n / 32), n % 32, 1⟩

theorem laneBit_fits (n : Nat) : (laneBit n).lo + (laneBit n).len ≤ 32 := by
  simp only [laneBit]
  omega

theorem State.laneEvent_eq (s : State) (n k : Nat) : s.laneEvent n k =
    if s.rdB (laneBit n) then s else (s.wrB (laneBit n) true).raise ((if n < 48 then 192 else 224) + k) := rfl

theorem State.laneEvent_wordsKept (s : State) (n k : Nat) : WordsKept [(laneBit n).off] s (s.laneEvent n k) := by
  rw [State.laneEvent_eq]
  split
  · exact .refl s _
  · exact ((s.wrB_regsOnly _ _).words.trans (State.raise_wordsKept _ _ [])).mono (by simp)

theorem State.laneEvent_lanes (s : State) (n k : Nat) : (s.laneEvent n k).lanes = s.lanes := by
  rw [State.laneEvent_eq]
  exact reads_ite (g := State.lanes) rfl (State.raise_lanes _ _)

/-- A field of a lane's own registers is no event bit. -/
theorem State.laneEvent_rd (s : State) (n k m : Nat) {f : Fld} (hf : 0xF1000 + 0x40 * m ≤ f.off) (hn : n < m + 1) :
    (s.laneEvent n k).rd f = s.rd f :=
  (s.laneEvent_wordsKept n k).rd (by simp only [laneBit, List.mem_singleton]; omega) (evtReg_of_tim _ (by omega))

/-- HUNT is entered: what a lane in HUNT shows, before a lost lock is noted. -/
def State.inHunt (s : State) (n : Nat) : State :=
  ((s.cutMsg n).wr (F.LNK_L_STATUS_LOCK n) 0).modLane n fun l =>
    { l with run := 0, win := [], slot := 0, conf := 0, miss := 0, cw := [], latSet := false }

/-- A lost lock is counted and announced, and adaptation freezes (Table 9-4). -/
def State.noteLost (s : State) (n : Nat) : State :=
  (((s.bump (F.LNK_L_LOCK_LOSS_COUNT n)).setAdapt n 2).modLane n fun l => { l with traffic := 0 }).laneEvent n 0

theorem State.toHunt_eq (s : State) (n : Nat) : s.toHunt n = if s.lockOf n != 0 then (s.inHunt n).noteLost n else s.inHunt n := rfl

theorem State.inHunt_lockOf (s : State) (n : Nat) : (s.inHunt n).lockOf n = 0 :=
  (s.cutMsg n).rd_wr_same (F.LNK_L_STATUS_LOCK n) 0 (show 0 + 2 ≤ 32 by decide)

theorem State.noteLost_lockOf (s : State) (n : Nat) : (s.noteLost n).lockOf n = s.lockOf n := by
  refine (State.laneEvent_rd _ n 0 n (by simp only [F.LNK_L_STATUS_LOCK]; omega) (by omega)).trans ?_
  refine ((s.bump (F.LNK_L_LOCK_LOSS_COUNT n)).rd_wr_ne (F.LNK_L_STATUS_ADAPT n) (F.LNK_L_STATUS_LOCK n) _ (show 2 + 2 ≤ 32 by decide)
    (.inr (.inl (show 0 + 2 ≤ 2 by decide)))).trans ?_
  exact s.rd_wr_apart (F.LNK_L_LOCK_LOSS_COUNT n) (F.LNK_L_STATUS_LOCK n) _ (show 0xF1004 + 0x40 * n ≠ 0xF1030 + 0x40 * n by omega)

theorem State.toHunt_lockOf (s : State) (n : Nat) : (s.toHunt n).lockOf n = 0 := by
  rw [State.toHunt_eq]
  split
  · exact (State.noteLost_lockOf _ n).trans (s.inHunt_lockOf n)
  · exact s.inHunt_lockOf n

theorem State.toHunt_length {s : State} (h : s.shaped = true) (n : Nat) : (s.toHunt n).lanes.length = 104 :=
  State.shaped_lanes ((State.toHunt_keeps (P := 2 ^ 22 - 1) (by decide) (.refl _ s)).shape h)

theorem rxIdleEnd_hunts {n : Nat} {s : State} (hs : s.shaped = true) (hon : s.rxOn n = true) (hidle : (s.lane n).rxIdle = true) :
    Gives (.rxIdleEnd n) s fun t =>
      (t.lane n).rxIdle = false ∧ t.lockOf n = 0 ∧ (t.lane n).carry = [] ∧ (t.lane n).lastP = 0 ∧ (t.lane n).rxPre = false ∧
      (n < 100 → t.rd (F.LNK_L_STATUS_QUARTER n) = 1) := by
  obtain ⟨hlo, hhi⟩ := State.rxOn_rx hon
  refine gives_pos rfl (by simp [hon, hidle]) ?_
  have hl : n < (s.toHunt n).lanes.length := by rw [State.toHunt_length hs]; exact hhi
  set u := (s.toHunt n).modLane n fun l =>
    { l with rxIdle := false, carry := [], off := 0, lastP := 0, rxPre := false, rxPreNext := none, fresh := true } with hu
  have heq : s.idleEnd n = (if n < 100 then u.setRate n true else u).showIdle n := rfl
  have hlanes : (s.idleEnd n).lane n = u.lane n := by
    rw [heq]
    split <;> rfl
  have hlane : u.lane n = { (s.toHunt n).lane n with
      rxIdle := false, carry := [], off := 0, lastP := 0, rxPre := false, rxPreNext := none, fresh := true } := by
    rw [hu, State.lane_modLane_same hl]
  have hrate : ∀ v : State, v.lockOf n = 0 → (v.showIdle n).lockOf n = 0 := fun v hv =>
    (v.rd_wrB_ne (f := F.LNK_L_STATUS_IDLE n) (g := F.LNK_L_STATUS_LOCK n) _ (show 6 + 1 ≤ 32 by decide) (.inr (.inl (show 0 + 2 ≤ 6 by decide)))).trans hv
  have hlock : (s.idleEnd n).lockOf n = 0 := by
    rw [heq]
    refine hrate _ (reads_ite (c := n < 100) (g := fun t => t.lockOf n) ?_ (s.toHunt_lockOf n))
    exact (u.rd_wrB_ne (f := F.LNK_L_STATUS_QUARTER n) (g := F.LNK_L_STATUS_LOCK n) _ (show 4 + 1 ≤ 32 by decide)
      (.inr (.inl (show 0 + 2 ≤ 4 by decide)))).trans (s.toHunt_lockOf n)
  have hown := (s.idleEnd n).afterLane_owner n false
  have hsame := hown.lane n hlo
  rw [hlanes, hlane] at hsame
  refine ⟨(congrArg Lane.rxIdle hsame :), (hown.lockOf hlo).trans hlock, (congrArg Lane.carry hsame :), (congrArg Lane.lastP hsame :),
    (congrArg Lane.rxPre hsame :), fun hret => (hown.rd (by simp only [F.LNK_L_STATUS_QUARTER]; omega)).trans ?_⟩
  rw [heq, if_pos hret]
  refine (State.rd_wrB_ne _ (f := F.LNK_L_STATUS_IDLE n) (g := F.LNK_L_STATUS_QUARTER n) _ (show 6 + 1 ≤ 32 by decide)
    (.inr (.inl (show 4 + 1 ≤ 6 by decide)))).trans ?_
  exact u.rd_wrB_same (f := F.LNK_L_STATUS_QUARTER n) true (show 4 + 1 ≤ 32 by decide) rfl

/-! ## The end of a rate dwell (R275, R407) -/

theorem electricalIdleDwellEnd_sends {n : Nat} {s : State} (hs : s.shaped = true) (hn : n < 96) (hp : s.portState (n / 6) = 1)
    (hidle : (s.lane n).txIdle = true) :
    Gives (.electricalIdleDwellEnd n) s fun t => (t.lane n).txIdle = false ∧ t.rd (F.LNK_L_STATUS_IDLE n) = 0 ∧
      t.rd (F.LNK_L_STATUS_QUARTER n) = (if s.pwr.st = .s1 then 1 else 0) ∧
      (t.word (0xF1008 + 0x40 * n)).toNat =
        ((if s.pwr.st = .s1 then (s.lane n).savedQ else (s.lane n).saved).getD (firPreset 0)) % 2 ^ 32 ∧
      (∀ m, m ≠ n → t.lane m = s.lane m) ∧ t = { s with regs := t.regs, lanes := t.lanes } := by
  refine gives_pos rfl hn ?_
  unfold State.panelDwellEnd
  rw [if_pos ⟨hp, hidle⟩]
  set u := (s.setRate n (s.pwr.st == .s1)).startFir n with hu
  have hlanes : u.lanes = s.lanes := rfl
  have hl : n < u.lanes.length := by rw [hlanes, State.shaped_lanes hs]; omega
  have hq : u.rd (F.LNK_L_STATUS_QUARTER n) = if s.pwr.st = .s1 then 1 else 0 := by
    refine (State.rd_of_word ((s.setRate n _).word_setWord_ne _ (show 0xF1004 + 0x40 * n ≠ 0xF1008 + 0x40 * n by omega))).trans ?_
    refine (s.rd_wrB_same (f := F.LNK_L_STATUS_QUARTER n) _ (show 4 + 1 ≤ 32 by decide) rfl).trans ?_
    cases s.pwr.st <;> rfl
  have hreg := u.txIdle_regsOnly n false
  refine ⟨by rw [State.txIdle_lane hl], ?_, ?_, ?_, fun m hm => ?_, ?_⟩
  · rw [State.txIdle_eq, State.showIdle_idle, State.lane_modLane_same hl]
    have hrx : laneRx n = false := by simp [laneRx]; omega
    simp [hrx, b2n]
  · rw [State.txIdle_eq]
    refine (State.rd_wrB_ne _ (f := F.LNK_L_STATUS_IDLE n) (g := F.LNK_L_STATUS_QUARTER n) _ (show 6 + 1 ≤ 32 by decide)
      (.inr (.inl (show 4 + 1 ≤ 6 by decide)))).trans hq
  · rw [hreg.2 _ (by simp)]
    have hrate : (s.setRate n (s.pwr.st == .s1)).rdB (F.LNK_L_STATUS_QUARTER n) = (s.pwr.st == .s1) := by
      rw [State.rdB, State.setRate, State.rd_wrB_same _ _ (show 4 + 1 ≤ 32 by decide) rfl]
      cases s.pwr.st <;> rfl
    refine (congrArg BitVec.toNat ((s.setRate n _).word_setWord_same _ _)).trans ?_
    rw [BitVec.toNat_ofNat, hrate]
    cases s.pwr.st <;> rfl
  · rw [State.txIdle_lane_ne _ hm, State.lane_of_lanes hlanes]
  · exact hreg.1

/-- Settles O38: each command of a lane's receiver by the rule of the state it stands in; what follows of it for the port or the pitch
leaves the receiver alone. -/
theorem lanesLockAndIdle : Obligations.LanesLockAndIdle := by
  unfold Obligations.LanesLockAndIdle
  exact ⟨fun _ _ _ _ _ _ hs hon hidle hchk hlock ht => rxBlock_hunts hs hon hidle hchk hlock ht,
    fun _ _ hs hrx hidle => rxElectricalIdle_shows hs hrx hidle, fun _ _ hs hon hidle => rxIdleEnd_hunts hs hon hidle,
    fun _ _ hs hn hp hidle => electricalIdleDwellEnd_sends hs hn hp hidle⟩

end Sys2Proof.Machine
end

section
/-!
PROOFS. Ports that return to TRAIN, and adaptation, PRBS, eye readings and faults of the lanes (chapters 8 and 9).
-/
namespace Sys2Proof.Machine

/-! ## An ACTIVE port returns to TRAIN (R240) -/

theorem foldl_regsOnly {α : Type} {f : State → α → State} {off : α → Nat} (hf : ∀ s a, RegsOnly [off a] s (f s a)) (l : List α)
    (s : State) : RegsOnly (l.map off) s (l.foldl f s) := by
  induction l generalizing s with
  | nil => exact .refl s _
  | cons a l ih => exact (hf s a).trans (ih (f s a))

theorem State.startFir_regsOnly (s : State) (n : Nat) : RegsOnly [0xF1008 + 0x40 * n] s (s.startFir n) := s.setWord_regsOnly _ _

theorem portFld_fits {p : Nat} (hp : p < 16) : (portFld p).lo + (portFld p).len ≤ 32 := by
  simp only [portFld]
  omega

/-- The state of a port after a port is put in one. -/
theorem State.setPort_state (s : State) {p q : Nat} (hp : p < 16) {v : Nat} (hv : v < 4) :
    (s.setPort p v).portState q = if q = p then v else s.portState q := by
  refine (State.rd_of_word (s.setPort_word p v)).trans ?_
  split
  · rename_i h
    rw [h]
    exact (s.rd_wr_same _ v (portFld_fits hp)).trans (Nat.mod_eq_of_lt hv)
  · refine s.rd_wr_ne _ _ v (portFld_fits hp) (.inr ?_)
    simp only [portFld]
    omega

/-- A port put in a state changes two registers, and of the panel the DC-balance monitor alone. -/
theorem State.setPort_rest (s : State) (p v : Nat) :
    s.setPort p v = { s with regs := (s.setPort p v).regs, pnl := (s.setPort p v).pnl } ∧
      (s.setPort p v).pnl.ports = s.pnl.ports ∧ (s.setPort p v).pnl.seen = s.pnl.seen ∧
      ∀ o, o ≠ 0xE0004 → o ≠ 0xE0010 → (s.setPort p v).word o = s.word o := by
  have hw : ∀ o, o ≠ 0xE0004 → o ≠ 0xE0010 → ((s.wr (portFld p) v).wrB ⟨0xE0004, p, 1⟩ (v == 2)).word o = s.word o := fun o h4 h10 =>
    (State.word_wr_ne _ ⟨0xE0004, p, 1⟩ _ h4).trans (s.word_wr_ne (portFld p) v h10)
  unfold State.setPort
  dsimp only
  split
  · exact ⟨rfl, rfl, rfl, hw⟩
  · exact ⟨rfl, rfl, rfl, hw⟩

/-- Leaving ACTIVE restarts the DC-balance window (R248). -/
theorem State.setPort_dcb {s : State} {p v : Nat} (h : s.portState p = 2) (hv : v ≠ 2) : (s.setPort p v).pnl.dcbWin = none := by
  unfold State.setPort
  simp only [State.portActive, h, beq_self_eq_true, Bool.true_and]
  rw [if_pos (bne_iff_ne.2 hv)]
  rfl

/-- The port is in TRAIN, its lanes back at their first coefficients. -/
def State.portTrains (s : State) (p : Nat) : State :=
  (portLanes p).foldl (fun s n => s.startFir n) ((s.setPort p 1).modPort p fun q => { q with ready := false })

theorem State.portRetrain_eq (s : State) (p : Nat) :
    s.portRetrain p = ((s.portTrains p).bump (F.PNL_CNT_COUNT 2)).raise Ev.PNL_PORT_RETRAIN := rfl

theorem State.portTrains_regsOnly (s : State) (p : Nat) : RegsOnly ((portLanes p).map fun n => 0xF1008 + 0x40 * n)
    ((s.setPort p 1).modPort p fun q => { q with ready := false }) (s.portTrains p) :=
  foldl_regsOnly (fun s n => s.startFir_regsOnly n) _ _

/-- What a port that returns to TRAIN leaves alone. -/
structure PortMoves (p : Nat) (s t : State) : Prop where
  lanes : t.lanes = s.lanes
  pwr : t.pwr = s.pwr
  live : t.live = s.live
  words : WordsKept ([0xE0004, 0xE0010, 0xE0028] ++ (portLanes p).map fun n => 0xF1008 + 0x40 * n) s t

theorem State.portRetrain_moves (s : State) (p : Nat) : PortMoves p s (s.portRetrain p) := by
  obtain ⟨-, -, -, hset⟩ := s.setPort_rest p 1
  have hfir := s.portTrains_regsOnly p
  have hwords : WordsKept ([0xE0004, 0xE0010] ++ (portLanes p).map fun n => 0xF1008 + 0x40 * n) s (s.portTrains p) := by
    intro o ho _
    simp only [List.mem_append, List.mem_cons, List.not_mem_nil, or_false, not_or] at ho
    exact (hfir.2 o ho.2).trans (hset o ho.1.1 ho.1.2)
  have hbump : WordsKept [0xE0028] (s.portTrains p) ((s.portTrains p).bump (F.PNL_CNT_COUNT 2)) :=
    ((s.portTrains p).bump_regsOnly (F.PNL_CNT_COUNT 2) 1).words
  have hkeeps := State.portRetrain_keeps (P := 16999) (p := p) (by decide) (.refl _ s)
  refine ⟨hkeeps.same .lanes (by decide), hkeeps.same .pwr (by decide), hkeeps.same .live (by decide), ?_⟩
  rw [State.portRetrain_eq]
  refine ((hwords.trans hbump).trans (State.raise_wordsKept _ _ [])).mono ?_
  intro o
  simp only [List.mem_append, List.mem_cons, List.not_mem_nil, or_false]
  tauto

theorem portLanes_fir {p o : Nat} (ho : ∀ n, o ≠ 0xF1008 + 0x40 * n) : o ∉ (portLanes p).map fun n => 0xF1008 + 0x40 * n := by
  intro h
  obtain ⟨n, -, hn⟩ := List.mem_map.1 h
  exact ho n hn.symm

theorem PortMoves.word {p : Nat} {s t : State} (h : PortMoves p s t) {o : Nat} (hf : ∀ n, o ≠ 0xF1008 + 0x40 * n)
    (hp : o ∉ [0xE0004, 0xE0010, 0xE0028]) (he : evtReg o = false) : t.word o = s.word o :=
  h.words o (fun hm => (List.mem_append.1 hm).elim hp (portLanes_fir hf)) he

theorem State.portRetrain_state (s : State) {p q : Nat} (hp : p < 16) :
    (s.portRetrain p).portState q = if q = p then 1 else s.portState q := by
  have hfir := (s.portTrains_regsOnly p).2 0xE0010 (portLanes_fir fun n => by omega)
  rw [State.portRetrain_eq]
  refine (State.raise_rd _ _ rfl).trans ?_
  refine ((s.portTrains p).rd_wr_apart (F.PNL_CNT_COUNT 2) (portFld q) _ (show 0xE0010 ≠ 0xE0028 by decide)).trans ?_
  exact (State.rd_of_word (f := portFld q) hfir).trans (s.setPort_state hp (by decide))

theorem State.hasEvents_of_pwr {s t : State} (h : t.pwr = s.pwr) : t.hasEvents = s.hasEvents := by
  simp only [State.hasEvents, State.awake, h]

/-- The return to TRAIN is counted and announced. -/
theorem State.portRetrain_raised {s : State} (h : s.hasEvents = true) (p : Nat) : Raised Ev.PNL_PORT_RETRAIN (s.portRetrain p) := by
  have hm := (s.portRetrain_moves p).pwr
  rw [State.portRetrain_eq, State.raise_pwr] at hm
  exact State.raised _ rfl ((State.hasEvents_of_pwr hm).trans h)

theorem State.portRetrain_count (s : State) (p : Nat) :
    (s.portRetrain p).rd (F.PNL_CNT_COUNT 2) = min (s.rd (F.PNL_CNT_COUNT 2) + 1) (2 ^ 32 - 1) := by
  have hkept : (s.portTrains p).rd (F.PNL_CNT_COUNT 2) = s.rd (F.PNL_CNT_COUNT 2) :=
    (State.rd_of_word ((s.portTrains_regsOnly p).2 0xE0028 (portLanes_fir fun n => by omega))).trans
      (State.rd_of_word ((s.setPort_rest p 1).2.2.2 0xE0028 (by decide) (by decide)))
  rw [State.portRetrain_eq, State.raise_rd _ _ rfl, State.rd_bump_same _ _ _ (by decide), hkept]
  rfl

theorem State.portRetrain_pnl (s : State) (p : Nat) :
    (s.portRetrain p).pnl = ((s.setPort p 1).modPort p fun q => { q with ready := false }).pnl := by
  rw [State.portRetrain_eq, State.raise_pnl, State.bump_pnl, (s.portTrains_regsOnly p).1]

/-! ## Adaptation (R264 to R266) -/

theorem State.setAdapt_shows (s : State) (n : Nat) {st : Nat} (hst : st < 4) :
    (s.setAdapt n st).rd (F.LNK_L_STATUS_ADAPT n) = (if s.rd (F.LNK_L_CTRL_ADAPT_HOLD n) = 1 then 3 else st) ∧
      RegsOnly [0xF1004 + 0x40 * n] s (s.setAdapt n st) ∧ (s.setAdapt n st).lockOf n = s.lockOf n := by
  refine ⟨?_, s.wr_regsOnly _ _, s.rd_wr_ne (F.LNK_L_STATUS_ADAPT n) (F.LNK_L_STATUS_LOCK n) _ (show 2 + 2 ≤ 32 by decide)
    (.inr (.inl (show 0 + 2 ≤ 2 by decide)))⟩
  refine (s.rd_wr_same (F.LNK_L_STATUS_ADAPT n) _ (show 2 + 2 ≤ 32 by decide)).trans ?_
  by_cases h : s.rd (F.LNK_L_CTRL_ADAPT_HOLD n) = 1
  · rw [State.rdB_eq_true h, if_pos rfl, if_pos h]
    rfl
  · rw [State.rdB, beq_eq_false_iff_ne.2 h, if_neg (by decide), if_neg h]
    exact Nat.mod_eq_of_lt hst

/-- A lane whose count is full takes the next adaptation state. -/
theorem adaptation_moves {n : Nat} {s : State} (hn : laneRx n = true) :
    let next := fun (v : Nat) (c : Instr) => Gives c s fun t =>
      t.rd (F.LNK_L_STATUS_ADAPT n) = (if s.rd (F.LNK_L_CTRL_ADAPT_HOLD n) = 1 then 3 else v) ∧ RegsOnly [0xF1004 + 0x40 * n] s t ∧
        t.lockOf n = s.lockOf n
    (s.rd (F.LNK_L_STATUS_ADAPT n) = 0 → 65536 ≤ (s.lane n).blocks → next 1 (.acquireDone n)) ∧
      (s.rd (F.LNK_L_STATUS_ADAPT n) = 1 → 4096 ≤ (s.lane n).idleRun → next 2 (.adaptFreeze n)) ∧
      (s.rd (F.LNK_L_STATUS_ADAPT n) = 2 → 256 ≤ (s.lane n).traffic → next 1 (.frozenResume n)) :=
  ⟨fun ha hc => gives_pos rfl (by simp [hn, ha, hc]) (s.setAdapt_shows n (by decide)),
    fun ha hc => gives_pos rfl (by simp [hn, ha, hc]) (s.setAdapt_shows n (by decide)),
    fun ha hc => gives_pos rfl (by simp [hn, ha, hc]) (s.setAdapt_shows n (by decide))⟩

/-- ADAPT_HOLD as written. -/
def State.holdSet (s : State) (n : Nat) (on : Bool) : State := s.wrB (F.LNK_L_CTRL_ADAPT_HOLD n) on

theorem State.writeAdaptHold_eq (s : State) (n : Nat) (on : Bool) : s.writeAdaptHold n on =
    if !laneRx n then s.holdSet n on
    else if on then (s.holdSet n on).wr (F.LNK_L_STATUS_ADAPT n) 3
    else if s.rdB (F.LNK_L_CTRL_ADAPT_HOLD n) then
      ((s.holdSet n on).wr (F.LNK_L_STATUS_ADAPT n) 2).modLane n fun l => { l with traffic := 0 }
    else s.holdSet n on := rfl

theorem State.holdSet_word (s : State) (n : Nat) (on : Bool) {o : Nat} (h : o ≠ 0xF1000 + 0x40 * n) : (s.holdSet n on).word o = s.word o :=
  s.word_wr_ne (F.LNK_L_CTRL_ADAPT_HOLD n) _ h

theorem State.holdSet_hold (s : State) (n : Nat) (on : Bool) : (s.holdSet n on).rd (F.LNK_L_CTRL_ADAPT_HOLD n) = b2n on :=
  s.rd_wrB_same (f := F.LNK_L_CTRL_ADAPT_HOLD n) on (show 2 + 1 ≤ 32 by decide) rfl

/-- What a write of ADAPT_HOLD leaves alone, and what it stores. -/
theorem State.writeAdaptHold_rest (s : State) (n : Nat) (on : Bool) :
    (s.writeAdaptHold n on).rd (F.LNK_L_CTRL_ADAPT_HOLD n) = b2n on ∧
      RegsOnly [0xF1000 + 0x40 * n, 0xF1004 + 0x40 * n] { s with lanes := (s.writeAdaptHold n on).lanes } (s.writeAdaptHold n on) := by
  have hhold := s.holdSet_hold n on
  have hadapt : ∀ v, ((s.holdSet n on).wr (F.LNK_L_STATUS_ADAPT n) v).rd (F.LNK_L_CTRL_ADAPT_HOLD n) = b2n on := fun v =>
    (State.rd_wr_apart _ (F.LNK_L_STATUS_ADAPT n) (F.LNK_L_CTRL_ADAPT_HOLD n) v (show 0xF1000 + 0x40 * n ≠ 0xF1004 + 0x40 * n by omega)).trans hhold
  have hset : ∀ o, o ∉ [0xF1000 + 0x40 * n, 0xF1004 + 0x40 * n] → (s.holdSet n on).word o = s.word o := fun o ho =>
    s.holdSet_word n on (by simp at ho; exact ho.1)
  have hword : ∀ v o, o ∉ [0xF1000 + 0x40 * n, 0xF1004 + 0x40 * n] → ((s.holdSet n on).wr (F.LNK_L_STATUS_ADAPT n) v).word o = s.word o :=
    fun v o ho => (State.word_wr_ne _ (F.LNK_L_STATUS_ADAPT n) v (by simp at ho; exact ho.2)).trans (hset o ho)
  rw [State.writeAdaptHold_eq]
  split
  · exact ⟨hhold, rfl, hset⟩
  split
  · exact ⟨hadapt 3, rfl, hword 3⟩
  split
  · exact ⟨hadapt 2, rfl, hword 2⟩
  · exact ⟨hhold, rfl, hset⟩

/-- A receive lane is in HOLD while ADAPT_HOLD is set, and FROZEN once it is cleared. -/
theorem State.writeAdaptHold_adapts {s : State} {n : Nat} (hn : laneRx n = true) (on : Bool) :
    let t := s.writeAdaptHold n on
    (on = true → t.rd (F.LNK_L_STATUS_ADAPT n) = 3 ∧ t.lanes = s.lanes) ∧
      (on = false → s.rd (F.LNK_L_CTRL_ADAPT_HOLD n) = 1 → t.rd (F.LNK_L_STATUS_ADAPT n) = 2 ∧
        t.lanes = s.lanes.modify n fun l => { l with traffic := 0 }) ∧
      (on = false → s.rd (F.LNK_L_CTRL_ADAPT_HOLD n) = 0 → t.rd (F.LNK_L_STATUS_ADAPT n) = s.rd (F.LNK_L_STATUS_ADAPT n)) := by
  have hfits : (F.LNK_L_STATUS_ADAPT n).lo + (F.LNK_L_STATUS_ADAPT n).len ≤ 32 := show 2 + 2 ≤ 32 by decide
  dsimp only
  rw [State.writeAdaptHold_eq, hn]
  refine ⟨fun hon => ?_, fun hon hh => ?_, fun hon hh => ?_⟩
  · subst hon
    exact ⟨State.rd_wr_same _ _ 3 hfits, rfl⟩
  · subst hon
    rw [State.rdB_eq_true hh]
    exact ⟨State.rd_wr_same _ _ 2 hfits, rfl⟩
  · subst hon
    rw [State.rdB_eq_false hh]
    exact State.rd_of_word (s.holdSet_word n false (show 0xF1004 + 0x40 * n ≠ 0xF1000 + 0x40 * n by omega))

theorem adaptHold_writes {n : Nat} {s : State} (ho : s.bar0Open = true) (hn : n < 104) (on : Bool) :
    Gives (.adaptHold n on) s fun t => t.rd (F.LNK_L_CTRL_ADAPT_HOLD n) = (if on then 1 else 0) ∧
      RegsOnly [0xF1000 + 0x40 * n, 0xF1004 + 0x40 * n] ({ s with lanes := t.lanes } : State) t ∧
      (laneRx n = true → on = true → t.rd (F.LNK_L_STATUS_ADAPT n) = 3 ∧ t.lanes = s.lanes) ∧
      (laneRx n = true → on = false → s.rd (F.LNK_L_CTRL_ADAPT_HOLD n) = 1 → t.rd (F.LNK_L_STATUS_ADAPT n) = 2 ∧
        t.lanes = s.lanes.modify n fun l => { l with traffic := 0 }) ∧
      (laneRx n = true → on = false → s.rd (F.LNK_L_CTRL_ADAPT_HOLD n) = 0 →
        t.rd (F.LNK_L_STATUS_ADAPT n) = s.rd (F.LNK_L_STATUS_ADAPT n)) := by
  obtain ⟨hhold, hregs⟩ := s.writeAdaptHold_rest n on
  exact gives_pos rfl (by simp [ho, hn]) ⟨hhold, hregs, fun hrx => (State.writeAdaptHold_adapts hrx on).1,
    fun hrx => (State.writeAdaptHold_adapts hrx on).2.1, fun hrx => (State.writeAdaptHold_adapts hrx on).2.2⟩

/-! ## Lane events (R279, R280) -/

/-- The bit of a lane's event, not set before, is set and its group's source is raised. -/
theorem State.laneEvent_sets {s : State} {n k : Nat} (h0 : s.rd (laneBit n) = 0) :
    s.laneEvent n k = (s.wr (laneBit n) 1).raise ((if n < 48 then 192 else 224) + k) := by
  rw [State.laneEvent_eq, State.rdB_eq_false h0]
  rfl

theorem lnkTxFault_acts {n : Nat} {s : State} (ha : s.awake = true) (hn : laneTx n = true) :
    (s.rd (laneBit n) = 0 → Gives (.lnkTxFault n) s (After ((if n < 48 then 192 else 224) + 6) (s.wr (laneBit n) 1))) ∧
      (s.rd (laneBit n) = 1 → exec (.lnkTxFault n) s = .next s) := by
  have he : exec (.lnkTxFault n) s = .next (s.laneEvent n 6) := exec_pos rfl (by rw [ha, hn]; rfl)
  refine ⟨fun h0 => ⟨_, he, ?_⟩, fun h1 => ?_⟩
  · rw [State.laneEvent_sets h0]
    refine ⟨State.raise_events _ _, State.raised _ ?_ (State.hasEvents_of_awake ha)⟩
    split <;> rfl
  · rw [he, State.laneEvent_eq, State.rdB_eq_true h1]
    rfl

/-! ## Eye measurement (R279) -/

/-- The readings stored, and whether the height lies below EYE_MIN. -/
def State.eyeRead (s : State) (n height width : Nat) : State :=
  ((s.wr (F.LNK_L_EYE_HEIGHT n) height).wr (F.LNK_L_EYE_WIDTH n) width).modLane n fun l =>
    { l with eyeLow := decide (height % 2 ^ 10 < s.rd F.LNK_EYE_CFG_EYE_MIN) }

theorem eyeMeasure_stores {n height width : Nat} {s : State} (hon : s.rxOn n = true) (hl : s.blockLocked n = true) :
    Gives (.eyeMeasure [(n, height, width)]) s fun t =>
      t.rd (F.LNK_L_EYE_HEIGHT n) = height % 2 ^ 10 ∧ t.rd (F.LNK_L_EYE_WIDTH n) = width % 2 ^ 7 ∧
      t.lanes = s.lanes.modify n (fun l => { l with eyeLow := decide (height % 2 ^ 10 < s.rd F.LNK_EYE_CFG_EYE_MIN) }) ∧
      (height % 2 ^ 10 < s.rd F.LNK_EYE_CFG_EYE_MIN → (s.lane n).eyeLow = false → s.rd (laneBit n) = 0 →
        t.rd (laneBit n) = 1 ∧ Raised (224 + 4) t) ∧
      (s.rd F.LNK_EYE_CFG_EYE_MIN ≤ height % 2 ^ 10 → t.out = s.out) := by
  obtain ⟨hlo, hhi⟩ := State.rxOn_rx hon
  have he : exec (.eyeMeasure [(n, height, width)]) s = .next
      (if decide (height % 2 ^ 10 < s.rd F.LNK_EYE_CFG_EYE_MIN) && !(s.lane n).eyeLow then (s.eyeRead n height width).laneEvent n 4
      else s.eyeRead n height width) := by
    have h : exec (.eyeMeasure [(n, height, width)]) s = .next (s.measureEye n height width) := rfl
    rw [h, State.measureEye, hon, hl]
    rfl
  have hheight : (s.eyeRead n height width).rd (F.LNK_L_EYE_HEIGHT n) = height % 2 ^ 10 :=
    (State.rd_wr_ne _ (F.LNK_L_EYE_WIDTH n) (F.LNK_L_EYE_HEIGHT n) width (show 16 + 7 ≤ 32 by decide) (.inr (.inl (show 0 + 10 ≤ 16 by decide)))).trans
      (s.rd_wr_same (F.LNK_L_EYE_HEIGHT n) height (show 0 + 10 ≤ 32 by decide))
  have hwidth : (s.eyeRead n height width).rd (F.LNK_L_EYE_WIDTH n) = width % 2 ^ 7 :=
    State.rd_wr_same _ (F.LNK_L_EYE_WIDTH n) width (show 16 + 7 ≤ 32 by decide)
  have hrd : ∀ f : Fld, f.off = 0xF1010 + 0x40 * n → ∀ k, ((s.eyeRead n height width).laneEvent n k).rd f = (s.eyeRead n height width).rd f :=
    fun f hf k => State.laneEvent_rd _ n k n (by omega) (by omega)
  have hbit : (s.eyeRead n height width).rd (laneBit n) = s.rd (laneBit n) :=
    (State.rd_wr_apart _ (F.LNK_L_EYE_WIDTH n) (laneBit n) width (by simp only [laneBit, F.LNK_L_EYE_WIDTH]; omega)).trans
      (s.rd_wr_apart (F.LNK_L_EYE_HEIGHT n) (laneBit n) height (by simp only [laneBit, F.LNK_L_EYE_HEIGHT]; omega))
  refine ⟨_, he, ?_⟩
  split
  · rename_i hc
    have hlow : height % 2 ^ 10 < s.rd F.LNK_EYE_CFG_EYE_MIN := of_decide_eq_true (Bool.and_eq_true_iff.1 hc).1
    refine ⟨(hrd _ rfl _).trans hheight, (hrd _ rfl _).trans hwidth, State.laneEvent_lanes _ n 4, fun _ _ h0 => ?_, fun h => absurd hlow (by omega)⟩
    rw [State.laneEvent_sets (hbit.trans h0), if_neg (by omega)]
    have hawake : s.awake = true := by
      simp only [State.rxOn, Bool.and_eq_true] at hon
      exact hon.1.2
    refine ⟨(State.raise_rd _ _ (evtReg_of_tim _ (by simp only [laneBit]; omega))).trans (State.rd_wr_same _ _ 1 (laneBit_fits n)),
      State.raised _ rfl (State.hasEvents_of_awake hawake)⟩
  · rename_i hc
    refine ⟨hheight, hwidth, rfl, fun hlow hno => ?_, fun _ => rfl⟩
    rw [decide_eq_true hlow, hno] at hc
    exact absurd rfl hc

/-! ## What follows from a lane's PRBS settings (R278, R347) -/

/-- A lane's settings and status, and its receiver, stay as the write left them. -/
structure PrbsKept (n : Nat) (s t : State) : Prop where
  ctrl : t.word (0xF1000 + 0x40 * n) = s.word (0xF1000 + 0x40 * n)
  status : t.word (0xF1004 + 0x40 * n) = s.word (0xF1004 + 0x40 * n)
  lane : RxSame (s.lane n) (t.lane n)

theorem State.afterPrbs_low {s : State} {n : Nat} (hn : n < 96) (was : Bool) :
    s.afterPrbs n was = if s.portActive (n / 6) && !s.portClean (n / 6) then s.portRetrain (n / 6) else s := by
  unfold State.afterPrbs
  exact if_neg (by omega)

theorem State.afterPrbs_high {s : State} {n : Nat} (hn : 96 ≤ n) (was : Bool) : s.afterPrbs n was = s.afterLane n was := if_pos hn

theorem State.afterPrbs_kept (s : State) (n : Nat) (was : Bool) : PrbsKept n s (s.afterPrbs n was) := by
  rcases Nat.lt_or_ge n 96 with hn | hn
  · rw [State.afterPrbs_low hn]
    split
    · have hm := s.portRetrain_moves (n / 6)
      refine ⟨hm.word (fun m => by omega) (by simp; omega) (evtReg_of_tim _ (by omega)),
        hm.word (fun m => by omega) (by simp; omega) (evtReg_of_tim _ (by omega)), ?_⟩
      rw [State.lane_of_lanes hm.lanes]
      exact .refl _
    · exact ⟨rfl, rfl, .refl _⟩
  · rw [State.afterPrbs_high hn]
    have hown := s.afterLane_owner n was
    exact ⟨hown.words _ (by omega), hown.words _ (by omega), hown.lane n hn⟩

/-- A port that is not ACTIVE keeps on. -/
theorem State.afterPrbs_idle {s : State} {n : Nat} (hn : n < 96) (hp : s.portState (n / 6) ≠ 2) (was : Bool) : s.afterPrbs n was = s := by
  rw [State.afterPrbs_low hn, State.portActive, beq_eq_false_iff_ne.2 hp]
  rfl

theorem mem_portLanes {n : Nat} : n ∈ portLanes (n / 6) := by
  simp only [portLanes, upFrom, List.mem_map, List.mem_range]
  exact ⟨n % 6, by omega, by omega⟩

/-- An ACTIVE port retrains with a lane that sends PRBS. -/
theorem State.afterPrbs_retrains {s : State} {n : Nat} (hn : n < 96) (hp : s.portState (n / 6) = 2)
    (hg : s.rd (F.LNK_L_CTRL_PRBS_GEN n) = 1) (hev : s.hasEvents = true) (was : Bool) :
    (s.afterPrbs n was).portState (n / 6) = 1 ∧ Raised Ev.PNL_PORT_RETRAIN (s.afterPrbs n was) := by
  have hclean : s.portClean (n / 6) = false :=
    List.all_eq_false.2 ⟨n, mem_portLanes, by rw [State.rdB_eq_true hg]; decide⟩
  rw [State.afterPrbs_low hn, if_pos (by rw [hclean, State.portActive, hp]; rfl)]
  exact ⟨by rw [State.portRetrain_state _ (by omega), if_pos rfl], State.portRetrain_raised hev _⟩

/-! ## The lanes that carry messages (R347) -/

theorem State.settleLanes_lanes (s : State) (p : Port) : (s.settleLanes p).rd (pf p F.ROPE_UP_STATE_LANES) = s.carryMask p := by
  have hfits : (pf p F.ROPE_UP_STATE_LANES).lo + (pf p F.ROPE_UP_STATE_LANES).len ≤ 32 := by cases p <;> decide
  have hm : s.carryMask p < 4 := by
    have hb : ∀ b, b2n b < 2 := by decide
    have h0 := hb (s.laneDone p 0)
    have h1 := hb (s.laneDone p 1)
    unfold State.carryMask
    dsimp only
    split
    · decide
    split <;> omega
  have hw : (s.wr (pf p F.ROPE_UP_STATE_LANES) (s.carryMask p)).rd (pf p F.ROPE_UP_STATE_LANES) = s.carryMask p :=
    (s.rd_wr_same _ _ hfits).trans (Nat.mod_eq_of_lt (by cases p <;> exact hm))
  have hs : ([0, 1].foldl (fun t i => if bitAt (s.carryMask p) i && !bitAt (s.rd (pf p F.ROPE_UP_STATE_LANES)) i then
      t.saveFir (p.lane0 + i) else t) (s.wr (pf p F.ROPE_UP_STATE_LANES) (s.carryMask p))).rd (pf p F.ROPE_UP_STATE_LANES) = s.carryMask p :=
    keptBy_foldl (P := fun t => t.rd (pf p F.ROPE_UP_STATE_LANES) = s.carryMask p) _ hw
      fun t i h => keptBy_ite (P := fun t => t.rd (pf p F.ROPE_UP_STATE_LANES) = s.carryMask p)
        (keptBy_ite (P := fun t => t.rd (pf p F.ROPE_UP_STATE_LANES) = s.carryMask p) h h) h
  exact reads_ite (g := fun t => t.rd (pf p F.ROPE_UP_STATE_LANES)) ((State.raise_rd _ _ (by cases p <;> rfl)).trans hs) hs

/-- A lane that counts as not aligned carries nothing. -/
theorem State.carryMask_bit {s : State} {p : Port} {i : Nat} (hi : i < 2) (h : s.laneUsable (p.lane0 + i) = false) :
    bitAt (s.carryMask p) i = false := by
  have hd : s.laneDone p i = false := by
    rw [State.laneDone, h]
    rfl
  unfold State.carryMask
  dsimp only
  have hcases : i = 0 ∨ i = 1 := by omega
  rcases hcases with rfl | rfl <;> rw [hd]
  · cases s.laneDone p 1 <;> (split; · rfl) <;> split <;> rfl
  · cases s.laneDone p 0 <;> (split; · rfl) <;> split <;> rfl

/-- A rope lane that runs PRBS carries no messages once its pitch has moved on. -/
theorem State.afterPrbs_bit {s : State} {n : Nat} (h100 : 100 ≤ n) (h104 : n < 104) (was : Bool)
    (h : s.rd (F.LNK_L_CTRL_PRBS_GEN n) = 1 ∨ s.rd (F.LNK_L_CTRL_PRBS_CHK n) = 1) :
    let p : Port := if n < 102 then .up else .dn
    bitAt ((s.afterPrbs n was).rd (pf p F.ROPE_UP_STATE_LANES)) (n - p.lane0) = false := by
  intro p
  have hlane : p.lane0 + (n - p.lane0) = n ∧ n - p.lane0 < 2 := by
    simp only [p]
    split <;> simp only [Port.lane0] <;> omega
  have he : s.afterPrbs n was = (s.pitchMoved p).settleLanes p := by
    rw [State.afterPrbs_high (by omega), State.afterLane, if_neg (by omega)]
    rfl
  have hword := ((RxKept.refl s).pitchMoved p).words (0xF1000 + 0x40 * n) (by omega)
  rw [he, State.settleLanes_lanes]
  refine State.carryMask_bit hlane.2 ?_
  rw [hlane.1, State.laneUsable, Bool.and_eq_false_iff]
  rcases h with h | h
  · have hg : (s.pitchMoved p).rd (F.LNK_L_CTRL_PRBS_GEN n) = 1 := (State.rd_of_word hword).trans h
    exact .inl (by rw [State.rdB_eq_true hg]; simp)
  · have hc : (s.pitchMoved p).rd (F.LNK_L_CTRL_PRBS_CHK n) = 1 := (State.rd_of_word hword).trans h
    exact .inr (by rw [State.rdB_eq_true hc]; rfl)

/-! ## PRBS_GEN and PRBS_CHK as written (R278) -/

theorem State.writePrbsGen_shows (s : State) (n : Nat) (on : Bool) :
    let t := s.writePrbsGen n on
    t.rd (F.LNK_L_CTRL_PRBS_GEN n) = b2n on ∧ t.rd (F.LNK_L_CTRL_PRBS_CHK n) = s.rd (F.LNK_L_CTRL_PRBS_CHK n) ∧
      t.portState (n / 6) = s.portState (n / 6) ∧ RegsOnly [0xF1000 + 0x40 * n] { s with lanes := t.lanes } t := by
  refine ⟨State.rd_wrB_same _ (f := F.LNK_L_CTRL_PRBS_GEN n) on (show 0 + 1 ≤ 32 by decide) rfl, ?_, ?_, ?_⟩
  · exact State.rd_wrB_ne (s.txFill n) (f := F.LNK_L_CTRL_PRBS_GEN n) on (show 0 + 1 ≤ 32 by decide) (.inr (.inr (show 0 + 1 ≤ 1 by decide)))
  · exact State.rd_wr_apart (s.txFill n) (F.LNK_L_CTRL_PRBS_GEN n) (portFld (n / 6)) _ (show 0xE0010 ≠ 0xF1000 + 0x40 * n by omega)
  · exact (s.txFill n).wrB_regsOnly (F.LNK_L_CTRL_PRBS_GEN n) on

/-- The checker starts afresh. -/
def State.chkFresh (s : State) (n : Nat) : State :=
  (s.wrB (F.LNK_L_STATUS_PRBS_SYNC n) false).modLane n fun l => { l with prbs := 0, prbsRun := 0 }

theorem State.writePrbsChk_eq (s : State) (n : Nat) (on : Bool) : s.writePrbsChk n on =
    if laneRx n && on && s.rdB (F.LNK_L_CTRL_PRBS_CHK n) then s.wrB (F.LNK_L_CTRL_PRBS_CHK n) on
    else (s.wrB (F.LNK_L_CTRL_PRBS_CHK n) on).chkFresh n := rfl

theorem State.writePrbsChk_other (s : State) (n : Nat) (on : Bool) :
    (s.writePrbsChk n on).pwr = s.pwr ∧ (s.writePrbsChk n on).live = s.live := by
  rw [State.writePrbsChk_eq]
  split <;> exact ⟨rfl, rfl⟩

/-- Which ports and return lanes are in use is the geometry in force. -/
theorem State.portInUse_of_live {s t : State} (h : t.live = s.live) (p : Nat) : t.portInUse p = s.portInUse p := by
  unfold State.portInUse State.geo State.liveWord
  rw [h]

theorem State.retInUse_of_live {s t : State} (h : t.live = s.live) (n : Nat) : t.retInUse n = s.retInUse n := by
  unfold State.retInUse
  simp only [State.portInUse_of_live h]

theorem State.chkFresh_ctrl (s : State) (n : Nat) {f : Fld} (hf : f.off = 0xF1000 + 0x40 * n ∨ f.off = 0xE0010) :
    (s.chkFresh n).rd f = s.rd f :=
  s.rd_wr_apart (F.LNK_L_STATUS_PRBS_SYNC n) f _ (by simp only [F.LNK_L_STATUS_PRBS_SYNC]; omega)

theorem State.writePrbsChk_shows (s : State) (n : Nat) (on : Bool) :
    let t := s.writePrbsChk n on
    t.rd (F.LNK_L_CTRL_PRBS_CHK n) = b2n on ∧ t.rd (F.LNK_L_CTRL_PRBS_GEN n) = s.rd (F.LNK_L_CTRL_PRBS_GEN n) ∧
      t.portState (n / 6) = s.portState (n / 6) ∧ RegsOnly [0xF1000 + 0x40 * n, 0xF1004 + 0x40 * n] { s with lanes := t.lanes } t := by
  have hset : (s.wrB (F.LNK_L_CTRL_PRBS_CHK n) on).rd (F.LNK_L_CTRL_PRBS_CHK n) = b2n on :=
    s.rd_wrB_same (f := F.LNK_L_CTRL_PRBS_CHK n) on (show 1 + 1 ≤ 32 by decide) rfl
  have hgen : (s.wrB (F.LNK_L_CTRL_PRBS_CHK n) on).rd (F.LNK_L_CTRL_PRBS_GEN n) = s.rd (F.LNK_L_CTRL_PRBS_GEN n) :=
    s.rd_wrB_ne (f := F.LNK_L_CTRL_PRBS_CHK n) on (show 1 + 1 ≤ 32 by decide) (.inr (.inl (show 0 + 1 ≤ 1 by decide)))
  have hport : (s.wrB (F.LNK_L_CTRL_PRBS_CHK n) on).portState (n / 6) = s.portState (n / 6) :=
    s.rd_wr_apart (F.LNK_L_CTRL_PRBS_CHK n) (portFld (n / 6)) _ (show 0xE0010 ≠ 0xF1000 + 0x40 * n by omega)
  have hregs := s.wrB_regsOnly (F.LNK_L_CTRL_PRBS_CHK n) on
  dsimp only
  rw [State.writePrbsChk_eq]
  split
  · exact ⟨hset, hgen, hport, hregs.1, fun o ho => hregs.2 o (by simp at ho; simp [F.LNK_L_CTRL_PRBS_CHK]; exact ho.1)⟩
  · refine ⟨(State.chkFresh_ctrl _ n (.inl rfl)).trans hset, (State.chkFresh_ctrl _ n (.inl rfl)).trans hgen,
      (State.chkFresh_ctrl _ n (.inr rfl)).trans hport, rfl, fun o ho => ?_⟩
    simp only [List.mem_cons, List.not_mem_nil, or_false, not_or] at ho
    exact (State.word_wr_ne _ (F.LNK_L_STATUS_PRBS_SYNC n) _ ho.2).trans (hregs.2 o (by simp [F.LNK_L_CTRL_PRBS_CHK]; exact ho.1))

theorem State.writePrbsChk_fresh {s : State} {n : Nat} {on : Bool} (hl : n < s.lanes.length)
    (h : ¬(laneRx n = true ∧ on = true ∧ s.rd (F.LNK_L_CTRL_PRBS_CHK n) = 1)) :
    let t := s.writePrbsChk n on
    t.rd (F.LNK_L_STATUS_PRBS_SYNC n) = 0 ∧ (t.lane n).prbs = 0 ∧ (t.lane n).prbsRun = 0 := by
  dsimp only
  rw [State.writePrbsChk_eq, if_neg (by rwa [Bool.and_eq_true, Bool.and_eq_true, State.rdB_eq_true_iff, and_assoc])]
  refine ⟨State.rd_wrB_same _ (f := F.LNK_L_STATUS_PRBS_SYNC n) false (show 7 + 1 ≤ 32 by decide) rfl, ?_, ?_⟩ <;>
    rw [State.chkFresh, State.lane_modLane_same (s := (s.wrB _ _).wrB _ _) hl]

/-- A field of a lane's settings or status, after what follows from a PRBS write. -/
theorem PrbsKept.rd_ctrl {n : Nat} {s t : State} (h : PrbsKept n s t) {f : Fld} (hf : f.off = 0xF1000 + 0x40 * n) : t.rd f = s.rd f :=
  State.rd_of_word (by rw [hf]; exact h.ctrl)

theorem PrbsKept.rd_status {n : Nat} {s t : State} (h : PrbsKept n s t) {f : Fld} (hf : f.off = 0xF1004 + 0x40 * n) : t.rd f = s.rd f :=
  State.rd_of_word (by rw [hf]; exact h.status)

theorem prbsGen_writes {n : Nat} {s : State} (ho : s.bar0Open = true) (hn : n < 104) (on : Bool) :
    let p : Port := if n < 102 then .up else .dn
    Gives (.prbsGen n on) s fun t => t.rd (F.LNK_L_CTRL_PRBS_GEN n) = (if on then 1 else 0) ∧
      t.rd (F.LNK_L_CTRL_PRBS_CHK n) = s.rd (F.LNK_L_CTRL_PRBS_CHK n) ∧
      (n < 96 → s.portState (n / 6) ≠ 2 → RegsOnly [0xF1000 + 0x40 * n] ({ s with lanes := t.lanes } : State) t) ∧
      (n < 96 → s.portState (n / 6) = 2 → on = true → t.portState (n / 6) = 1 ∧ Raised Ev.PNL_PORT_RETRAIN t) ∧
      (100 ≤ n → on = true → bitAt (t.rd (pf p F.ROPE_UP_STATE_LANES)) (n - p.lane0) = false) := by
  intro p
  obtain ⟨hgen, hchk, hport, hregs⟩ := s.writePrbsGen_shows n on
  have hkept := (s.writePrbsGen n on).afterPrbs_kept n (s.ownLocked n)
  have hset : on = true → (s.writePrbsGen n on).rd (F.LNK_L_CTRL_PRBS_GEN n) = 1 := fun hon => by rw [hgen, hon]; rfl
  have hev : (s.writePrbsGen n on).hasEvents = true :=
    (State.hasEvents_of_pwr (s := s) rfl).trans (State.hasEvents_of_awake (s := s) (State.bar0Open_awake ho))
  refine gives_pos rfl (by simp [ho, hn]) ⟨(hkept.rd_ctrl rfl).trans hgen, (hkept.rd_ctrl rfl).trans hchk, fun hlow hp => ?_,
    fun hlow hp hon => State.afterPrbs_retrains hlow (hport.trans hp) (hset hon) hev _,
    fun hhigh hon => State.afterPrbs_bit hhigh hn _ (.inl (hset hon))⟩
  rw [State.setPrbsGen, State.afterPrbs_idle hlow (by rwa [hport])]
  exact hregs

theorem prbsChk_writes {n : Nat} {s : State} (ho : s.bar0Open = true) (hn : n < 104) (on : Bool) :
    let p : Port := if n < 102 then .up else .dn
    Gives (.prbsChk n on) s fun t => t.rd (F.LNK_L_CTRL_PRBS_CHK n) = (if on then 1 else 0) ∧
      t.rd (F.LNK_L_CTRL_PRBS_GEN n) = s.rd (F.LNK_L_CTRL_PRBS_GEN n) ∧
      (n < 96 → s.portState (n / 6) ≠ 2 →
        RegsOnly [0xF1000 + 0x40 * n, 0xF1004 + 0x40 * n] ({ s with lanes := t.lanes } : State) t) ∧
      (s.shaped = true → ¬(laneRx n = true ∧ on = true ∧ s.rd (F.LNK_L_CTRL_PRBS_CHK n) = 1) →
        t.rd (F.LNK_L_STATUS_PRBS_SYNC n) = 0 ∧ (t.lane n).prbs = 0 ∧ (t.lane n).prbsRun = 0) ∧
      (96 ≤ n → n < 100 → on = true → t.rd ⟨0xE0004, n - 80, 1⟩ = 0 ∧
        (s.blockLocked n = true → s.rd (F.LNK_L_CTRL_PRBS_CHK n) = 0 → s.retInUse (n - 96) = true → Raised Ev.PNL_RET_LOST t)) ∧
      (100 ≤ n → on = true → bitAt (t.rd (pf p F.ROPE_UP_STATE_LANES)) (n - p.lane0) = false) := by
  intro p
  obtain ⟨hchk, hgen, hport, hregs⟩ := s.writePrbsChk_shows n on
  have hkept := (s.writePrbsChk n on).afterPrbs_kept n (s.ownLocked n)
  have hset : on = true → (s.writePrbsChk n on).rd (F.LNK_L_CTRL_PRBS_CHK n) = 1 := fun hon => by rw [hchk, hon]; rfl
  have hev : (s.writePrbsChk n on).hasEvents = true :=
    (State.hasEvents_of_pwr (s.writePrbsChk_other n on).1).trans (State.hasEvents_of_awake (s := s) (State.bar0Open_awake ho))
  refine gives_pos rfl (by simp [ho, hn]) ⟨(hkept.rd_ctrl rfl).trans hchk, (hkept.rd_ctrl rfl).trans hgen, fun hlow hp => ?_,
    fun hs hc => ?_, fun hlo hhi hon => ?_, fun hhigh hon => State.afterPrbs_bit hhigh hn _ (.inr (hset hon))⟩
  · rw [State.setPrbsChk, State.afterPrbs_idle hlow (by rwa [hport])]
    exact hregs
  · obtain ⟨hsync, hbits, hrun⟩ := State.writePrbsChk_fresh (by rw [State.shaped_lanes hs]; exact hn) hc
    exact ⟨(hkept.rd_status rfl).trans hsync, (congrArg Lane.prbs hkept.lane).trans hbits, (congrArg Lane.prbsRun hkept.lane).trans hrun⟩
  · have h96 : 96 + (n - 96) = n := by omega
    have hnow : (s.writePrbsChk n on).retLocked (n - 96) = false := by
      rw [State.retLocked, h96, State.rdB_eq_true (hset hon), Bool.and_eq_false_iff]
      exact .inr rfl
    rw [State.setPrbsChk, State.afterPrbs_high hlo, State.afterLane, if_pos hhi]
    refine ⟨?_, fun hl hc hu => ?_⟩
    · rw [show n - 80 = 16 + (n - 96) by omega, State.afterRet_lock _ (by omega), hnow]
      rfl
    · have hwas : s.ownLocked n = true := by rw [State.ownLocked, State.retLocked, h96, hl, State.rdB_eq_false hc]; rfl
      have huse : (s.writePrbsChk n on).retInUse (n - 96) = true := (State.retInUse_of_live (s.writePrbsChk_other n on).2 _).trans hu
      rw [hwas]
      exact State.afterRet_lost hev hnow huse

/-- Settles O39: adaptation and PRBS by the lane's settings, eye readings and faults by the lane's event bit. -/
theorem lanesAdaptAndTest : Obligations.LanesAdaptAndTest := by
  unfold Obligations.LanesAdaptAndTest
  exact ⟨fun _ _ hn => adaptation_moves hn,
    fun _ on _ ho hn => ⟨prbsGen_writes ho hn on, prbsChk_writes ho hn on, adaptHold_writes ho hn on⟩,
    fun _ _ _ _ hon hl => eyeMeasure_stores hon hl, fun _ _ ha hn => lnkTxFault_acts ha hn⟩

end Sys2Proof.Machine
end

section
/-!
PROOFS. Training requests and acknowledgements, which the ports and the pitches share (R243, R261, Table 8-6).
-/
namespace Sys2Proof.Machine

/-! ## Precoding as asked for (R261) -/

/-- The precoding that a transmitter is to use once its present codeword has ended. -/
def TxLane.asked (t : TxLane) : Bool := t.preNext.getD t.pre

theorem TxLane.block_asked (t : TxLane) (header : Nat) (bytes : List Byte) : (t.block header bytes).asked = t.asked := by
  unfold TxLane.block
  dsimp only
  split <;> rfl

theorem TxLane.idles_asked (t : TxLane) (due fuel : Nat) : (t.idles due fuel).asked = t.asked := by
  induction fuel generalizing t with
  | zero => rfl
  | succ fuel ih =>
    unfold TxLane.idles
    split
    · exact (ih _).trans (t.block_asked _ _)
    · rfl

theorem TxLane.prbsOut_asked (t : TxLane) (n : Nat) : (t.prbsOut n).asked = t.asked := by
  induction n generalizing t with
  | zero => rfl
  | succ n ih => exact ih _

theorem TxLane.fill_asked (t : TxLane) (raw : Nat) (quarter prbs : Bool) : (t.fill raw quarter prbs).asked = t.asked := by
  unfold TxLane.fill
  dsimp only
  split
  · exact t.prbsOut_asked _
  · exact t.idles_asked _ _

theorem TxLane.blocks_asked (t : TxLane) (bs : List (Nat × List Byte)) : (bs.foldl (fun t b => t.block b.1 b.2) t).asked = t.asked := by
  induction bs generalizing t with
  | nil => rfl
  | cons b bs ih => exact (ih _).trans (t.block_asked _ _)

theorem State.preAsked_eq (s : State) (n : Nat) : s.preAsked n = (s.lane n).tx.asked := rfl

theorem State.preAsked_of_lanes {s t : State} (h : t.lanes = s.lanes) (n : Nat) : t.preAsked n = s.preAsked n := by
  rw [State.preAsked_eq, State.lane_of_lanes h]
  rfl

/-- Changes of one lane that keep what is asked for there. -/
theorem State.preAsked_modLane (s : State) (m n : Nat) {f : Lane → Lane} (hf : ∀ l, l = s.lane m → (f l).tx.asked = l.tx.asked) :
    (s.modLane m f).preAsked n = s.preAsked n := by
  rw [State.preAsked_eq, State.preAsked_eq]
  by_cases hn : n = m
  · subst hn
    by_cases hl : n < s.lanes.length
    · rw [State.lane_modLane_same hl, hf _ rfl]
    · rw [State.lane_of_lanes (s := s) (t := s.modLane n f) (List.modify_eq_self (Nat.le_of_not_lt hl))]
  · rw [State.lane_modLane_ne _ hn]

theorem State.txFill_asked (s : State) (m n : Nat) : (s.txFill m).preAsked n = s.preAsked n := by
  refine s.preAsked_modLane m n fun l hl => ?_
  unfold State.txNow
  split
  · rw [hl]
  · rw [TxLane.fill_asked, hl]

/-- Blocks that are sent change no precoding asked for. -/
theorem State.txBlocks_asked (s : State) (m n : Nat) (bs : List (Nat × List Byte)) : (s.txBlocks m bs).preAsked n = s.preAsked n :=
  ((s.txFill m).preAsked_modLane m n fun l _ => l.tx.blocks_asked bs).trans (s.txFill_asked m n)

/-! ## One training request (R243, R262, Table 8-6) -/

variable {s : State} {n seq code : Nat} {pre : Bool}

/-- The sequence number of a request is noted with its lane. -/
def State.noteSeq (s : State) (n seq : Nat) : State := s.modLane n fun l => { l with lastSeq := some seq }

theorem State.noteSeq_asked (s : State) (n seq m : Nat) : (s.noteSeq n seq).preAsked m = s.preAsked m := s.preAsked_modLane n m fun _ _ => rfl

theorem State.applyTrain_repeated (h : (s.lane n).lastSeq = some seq) : s.applyTrain n seq code pre = (3, s) := if_pos h

theorem State.applyTrain_done (h : (s.lane n).lastSeq ≠ some seq) (hc : code = 0x00 ∨ code = 0x30) :
    s.applyTrain n seq code pre = (0, s.noteSeq n seq) := by
  unfold State.applyTrain
  rw [if_neg h]
  exact if_pos hc

theorem State.applyTrain_on (h : (s.lane n).lastSeq ≠ some seq) :
    s.applyTrain n seq 0x20 pre = if pre then (0, (s.noteSeq n seq).askPre n true) else (2, s.noteSeq n seq) := by
  unfold State.applyTrain
  rw [if_neg h]
  rfl

theorem State.applyTrain_off (h : (s.lane n).lastSeq ≠ some seq) :
    s.applyTrain n seq 0x21 pre = (0, (s.noteSeq n seq).askPre n false) := by
  unfold State.applyTrain
  rw [if_neg h]
  rfl

theorem State.applyTrain_fir (h : (s.lane n).lastSeq ≠ some seq) (hc : code ∉ [0x00, 0x20, 0x21, 0x30]) :
    s.applyTrain n seq code pre = match firAsked (s.word (0xF1008 + 0x40 * n)).toNat code with
      | some (a, b, c) =>
        if firOk a b c then (0, (s.noteSeq n seq).setWord (0xF1008 + 0x40 * n) (BitVec.ofNat 32 (firWord a b c)))
        else (1, s.noteSeq n seq)
      | none => (2, s.noteSeq n seq) := by
  simp only [List.mem_cons, List.not_mem_nil, or_false, not_or] at hc
  unfold State.applyTrain
  rw [if_neg h]
  dsimp only
  rw [if_neg (by omega), if_neg hc.2.1, if_neg hc.2.2.1]
  rfl

theorem firAsked_plain {w : Nat} {x : Int × Int × Int} (h : firAsked w code = some x) : code ∉ [0x00, 0x20, 0x21, 0x30] := by
  intro hc
  simp only [List.mem_cons, List.not_mem_nil, or_false] at hc
  rcases hc with rfl | rfl | rfl | rfl <;> cases h

theorem State.askPre_asked {s : State} (hl : n < s.lanes.length) (on : Bool) : (s.askPre n on).preAsked n = on := by
  rw [State.preAsked_eq, State.askPre, State.lane_modLane_same (by rw [State.txFill, State.length_modLane]; exact hl)]
  rfl

/-- What a request does, by its code. -/
theorem State.applyTrain_answers (hl : n < s.lanes.length) :
    TrainAnswer s (s.applyTrain n seq code pre).2 n seq code pre (s.applyTrain n seq code pre).1 := by
  have hl' : n < (s.noteSeq n seq).lanes.length := by rw [State.noteSeq, State.length_modLane]; exact hl
  have hsame : (s.noteSeq n seq).word (0xF1008 + 0x40 * n) = s.word (0xF1008 + 0x40 * n) ∧ (s.noteSeq n seq).preAsked n = s.preAsked n :=
    ⟨rfl, s.noteSeq_asked n seq n⟩
  refine ⟨fun h => ?_, fun h => ⟨fun hc => ?_, fun hc hp => ?_, fun hc hp => ?_, fun hc => ?_, fun a b c hf => ⟨fun hok => ?_, fun hok => ?_⟩,
    fun hc hf => ?_⟩⟩
  · rw [State.applyTrain_repeated h]
    exact ⟨rfl, rfl, rfl⟩
  · rw [State.applyTrain_done h hc]
    exact ⟨rfl, hsame⟩
  · subst hc hp
    rw [State.applyTrain_on h]
    exact ⟨rfl, rfl, State.askPre_asked hl' true⟩
  · subst hc hp
    rw [State.applyTrain_on h]
    exact ⟨rfl, hsame⟩
  · subst hc
    rw [State.applyTrain_off h]
    exact ⟨rfl, rfl, State.askPre_asked hl' false⟩
  · rw [State.applyTrain_fir h (firAsked_plain hf), hf]
    dsimp only
    rw [if_pos hok]
    exact ⟨rfl, State.word_setWord_same _ _ _⟩
  · rw [State.applyTrain_fir h (firAsked_plain hf), hf]
    dsimp only
    rw [if_neg (by rw [hok]; decide)]
    exact ⟨rfl, hsame⟩
  · rw [State.applyTrain_fir h hc, hf]
    exact ⟨rfl, hsame⟩

/-- What a request leaves alone: all but its lane and the coefficients there, and of the lane whether it sends and receives. -/
structure TrainKept (n : Nat) (s t : State) : Prop where
  rest : t = { s with regs := t.regs, lanes := t.lanes }
  words : ∀ o, o ≠ 0xF1008 + 0x40 * n → t.word o = s.word o
  idle : ∀ m, (t.lane m).txIdle = (s.lane m).txIdle ∧ (t.lane m).rxIdle = (s.lane m).rxIdle

theorem TrainKept.refl (n : Nat) (s : State) : TrainKept n s s := ⟨rfl, fun _ _ => rfl, fun _ => ⟨rfl, rfl⟩⟩

theorem TrainKept.modLane {s t : State} {n : Nat} (h : TrainKept n s t) {f : Lane → Lane}
    (hf : ∀ l, (f l).txIdle = l.txIdle ∧ (f l).rxIdle = l.rxIdle) : TrainKept n s (t.modLane n f) := by
  refine ⟨?_, h.words, fun m => ?_⟩
  · rw [h.rest]
    rfl
  · by_cases hm : m = n
    · subst hm
      by_cases hl : m < t.lanes.length
      · rw [State.lane_modLane_same hl, (hf _).1, (hf _).2]
        exact h.idle m
      · rw [State.lane_of_lanes (s := t) (t := t.modLane m f) (List.modify_eq_self (Nat.le_of_not_lt hl))]
        exact h.idle m
    · rw [State.lane_modLane_ne _ hm]
      exact h.idle m

theorem TrainKept.setFir {s t : State} {n : Nat} (h : TrainKept n s t) (w : Word) : TrainKept n s (t.setWord (0xF1008 + 0x40 * n) w) := by
  refine ⟨?_, fun o ho => (t.word_setWord_ne w ho).trans (h.words o ho), h.idle⟩
  rw [h.rest]
  rfl

theorem State.applyTrain_kept (s : State) (n seq code : Nat) (pre : Bool) : TrainKept n s (s.applyTrain n seq code pre).2 := by
  have hnote : TrainKept n s (s.noteSeq n seq) := (TrainKept.refl n s).modLane fun _ => ⟨rfl, rfl⟩
  have hfill : TrainKept n s ((s.noteSeq n seq).txFill n) := hnote.modLane fun _ => ⟨rfl, rfl⟩
  have hask : ∀ on, TrainKept n s ((s.noteSeq n seq).askPre n on) := fun on => hfill.modLane fun _ => ⟨rfl, rfl⟩
  unfold State.applyTrain
  dsimp only
  split
  · exact .refl n s
  split
  · exact hnote
  split
  · split
    · exact hask true
    · exact hnote
  split
  · exact hask false
  split
  · split
    · exact hnote.setFir _
    · exact hnote
  · exact hnote

theorem TrainKept.txLive {s t : State} {n : Nat} (h : TrainKept n s t) (m : Nat) : t.txLive m = s.txLive m := by
  have hg : t.rdB (F.LNK_L_CTRL_PRBS_GEN m) = s.rdB (F.LNK_L_CTRL_PRBS_GEN m) :=
    congrArg (· == 1) (State.rd_of_word (f := F.LNK_L_CTRL_PRBS_GEN m) (h.words _ (by simp only [F.LNK_L_CTRL_PRBS_GEN]; omega)))
  unfold State.txLive
  rw [(h.idle m).1, hg]

theorem trainAnswer_of {s t u : State} {n seq code result : Nat} {pre : Bool} (hw : u.word (0xF1008 + 0x40 * n) = t.word (0xF1008 + 0x40 * n))
    (ha : u.preAsked n = t.preAsked n) (h : TrainAnswer s t n seq code pre result) : TrainAnswer s u n seq code pre result := by
  unfold TrainAnswer at h ⊢
  dsimp only
  rw [hw, ha]
  exact h

/-- The acknowledgement reads the coefficients and the precoding asked for. -/
theorem trainAck_of {t u : State} {n : Nat} (hw : u.word (0xF1008 + 0x40 * n) = t.word (0xF1008 + 0x40 * n))
    (ha : u.preAsked n = t.preAsked n) (type portLane seq result : Nat) :
    t.ackBytes type portLane n seq result = trainAck u type portLane n seq result := by
  unfold State.ackBytes trainAck
  rw [hw, ha]

/-! ## A request of a panel port in TRAIN (R243) -/

theorem State.panelOut_rest (s : State) (n m : Nat) (blk : List Byte) :
    (s.panelOut n blk).regs = s.regs ∧ (s.panelOut n blk).preAsked m = s.preAsked m ∧
      (s.panelOut n blk).out = if s.txLive n = true then .panelBlock n blk :: s.out else s.out := by
  unfold State.panelOut
  split
  · exact ⟨rfl, s.txBlocks_asked n m _, rfl⟩
  · exact ⟨rfl, rfl, rfl⟩

theorem State.answerTrain_answers {s : State} {w : TrainWait} (hl : 6 * w.port + w.lane < s.lanes.length) :
    let n := 6 * w.port + w.lane
    let t := s.answerTrain w
    ∃ result, TrainAnswer s t n w.seq w.code true result ∧
      t.out = if s.txLive n = true then .panelBlock n (trainAck t 0x4A (w.port + 16 * w.lane) n w.seq result) :: s.out else s.out := by
  intro n t
  have hk := s.applyTrain_kept n w.seq w.code true
  obtain ⟨hregs, hasked, hout⟩ := (s.applyTrain n w.seq w.code true).2.panelOut_rest n n
    ((s.applyTrain n w.seq w.code true).2.ackBytes 0x4A (w.port + 16 * w.lane) n w.seq (s.applyTrain n w.seq w.code true).1)
  have hfir : t.word (0xF1008 + 0x40 * n) = (s.applyTrain n w.seq w.code true).2.word (0xF1008 + 0x40 * n) := by
    unfold State.word
    rw [← hregs]
    rfl
  refine ⟨_, trainAnswer_of hfir hasked (State.applyTrain_answers hl), ?_⟩
  rw [← trainAck_of hfir hasked]
  refine hout.trans ?_
  rw [hk.txLive, hk.rest]

end Sys2Proof.Machine
end

section
/-!
PROOFS. STATUS, training and retraining of the panel ports (chapter 8).
-/
namespace Sys2Proof.Machine

/-- A step of a fold over distinct elements brings `Q` about from `P`, which the steps of the others keep. -/
theorem foldl_reaches {α : Type} {P Q : State → Prop} {f : State → α → State} {a : α} {l : List α} (hl : l.Nodup) (ha : a ∈ l)
    (hP : ∀ s, ∀ b ∈ l, b ≠ a → P s → P (f s b)) (hstep : ∀ s, P s → Q (f s a)) (hQ : ∀ s, ∀ b ∈ l, b ≠ a → Q s → Q (f s b)) {s : State}
    (h : P s) : Q (l.foldl f s) := by
  induction l generalizing s with
  | nil => cases ha
  | cons b l ih =>
    obtain ⟨hb, hl⟩ := List.nodup_cons.1 hl
    by_cases he : b = a
    · subst he
      exact keptBy_foldl_mem l (hstep s h) fun s c hc => hQ s c (List.mem_cons_of_mem b hc) fun hca => hb (hca ▸ hc)
    · exact ih hl ((List.mem_cons.1 ha).resolve_left (Ne.symm he)) (fun s c hc => hP s c (List.mem_cons_of_mem b hc))
        (fun s c hc => hQ s c (List.mem_cons_of_mem b hc)) (hP s b List.mem_cons_self he h)

/-! ## STATUS (R240, Table 8-4) -/

/-- The error counts of a STATUS block. -/
def State.statusCounted (s : State) (blk : List Byte) : State :=
  (s.bump (F.PNL_CNT_COUNT 0) (leAt blk 3 2)).bump (F.PNL_CNT_COUNT 1) (byteAt blk 5)

/-- Uncorrected codewords are announced once in a frame. -/
def State.statusErrs (s : State) (blk : List Byte) : State := if byteAt blk 5 ≠ 0 then s.pnlOnce Ev.PNL_RX_UNCORR else s

/-- Lanes of a port whose LOCK bit falls are marked (R280, R384). -/
def State.markUnlocked (s : State) (p old lock : Nat) : State :=
  (List.range 6).foldl (fun s i => if bitAt old i && !bitAt lock i then s.laneEvent (6 * p + i) 5 else s) s

/-- What a STATUS block says of a port's lanes. -/
def State.statusLocks (s : State) (p old lock : Nat) : State :=
  if s.portState p = 0 then s.modPort p fun q => { q with lock := lock }
  else (s.modPort p fun q => { q with lock := lock }).markUnlocked p old lock

/-- All that a STATUS block does before the port moves on. -/
def State.statusNoted (s : State) (p : Nat) (blk : List Byte) : State :=
  ((s.statusCounted blk).statusErrs blk).statusLocks p (s.port p).lock (byteAt blk 2 % 64)

/-- A port goes on in TRAIN, and leaves ACTIVE, as READY says. -/
def State.statusEnds (s : State) (p : Nat) (ok : Bool) : State :=
  if s.portState p = 1 then s.modPort p fun q => { q with ready := ok }
  else if s.portState p = 2 ∧ ok = false then s.portRetrain p
  else s

theorem State.onStatus_eq {s : State} {lane : Nat} {blk : List Byte} (h48 : byteAt blk 0 = 0x48) (hp : byteAt blk 1 % 16 / 4 = lane)
    (hu : s.portInUse (byteAt blk 1 % 16) = true) : s.onStatus lane blk =
      let p := byteAt blk 1 % 16
      (s.statusNoted p blk).statusEnds p
        (decide (byteAt blk 2 % 64 = 63) && bitAt (byteAt blk 2) 6 && (s.statusNoted p blk).portClean p) := by
  unfold State.onStatus
  dsimp only
  rw [if_neg (by simp [h48, hp, hu])]
  rfl

/-- Beyond its counters, and up to the port's move, a STATUS block writes marks of lanes and events, and of the panel what it says of the
port. -/
structure StatusKept (s t : State) : Prop where
  pwr : t.pwr = s.pwr
  words : WordsKept [0xF0010, 0xF0014, 0xF0018] s t
  raised : ∀ src, src < 512 → Raised src s → Raised src t

theorem StatusKept.refl (s : State) : StatusKept s s := ⟨rfl, .refl s _, fun _ _ h => h⟩

theorem StatusKept.trans {s t u : State} (h : StatusKept s t) (k : StatusKept t u) : StatusKept s u :=
  ⟨k.pwr.trans h.pwr, (h.words.trans k.words).mono fun _ ho => (List.mem_append.1 ho).elim id id, fun src hs hr => k.raised src hs (h.raised src hs hr)⟩

theorem StatusKept.other {s t : State} (hp : t.pwr = s.pwr) (hr : t.regs = s.regs) : StatusKept s t :=
  ⟨hp, fun o _ _ => by rw [State.word, hr]; rfl, fun src _ h => (State.rd_of_regs hr _).trans h⟩

theorem StatusKept.wr {r s : State} (h : StatusKept r s) {f : Fld} (v : Nat) (hf : f.off ∈ [0xF0010, 0xF0014, 0xF0018]) :
    StatusKept r (s.wr f v) := by
  have he : evtReg f.off = false := by
    refine evtReg_of_tim _ ?_
    revert hf
    generalize f.off = o
    intro h
    fin_cases h <;> decide
  exact h.trans ⟨rfl, fun o ho _ => s.word_wr_ne f v fun h => ho (h ▸ hf), fun src hs h => h.wr f v he hs⟩

theorem StatusKept.raise {r s : State} (h : StatusKept r s) (e : Nat) : StatusKept r (s.raise e) :=
  h.trans ⟨State.raise_pwr s e, State.raise_wordsKept s e _, fun _ hs h => h.raise hs⟩

theorem State.pnlOnce_kept (s : State) (e : Nat) : StatusKept s (s.pnlOnce e) := by
  have hseen : StatusKept s { s with pnl := { s.pnl with seen := e :: s.pnl.seen } } := .other rfl rfl
  exact keptBy_ite (P := StatusKept s) (.refl s) (hseen.raise e)

theorem State.statusErrs_kept (s : State) (blk : List Byte) : StatusKept s (s.statusErrs blk) :=
  keptBy_ite (P := StatusKept s) (s.pnlOnce_kept _) (.refl s)

theorem laneBit_mem {n : Nat} (hn : n < 96) : (laneBit n).off ∈ [0xF0010, 0xF0014, 0xF0018] := by
  simp only [laneBit, List.mem_cons, List.not_mem_nil, or_false]
  omega

theorem State.laneEvent_kept (s : State) {n : Nat} (hn : n < 96) (k : Nat) : StatusKept s (s.laneEvent n k) := by
  rw [State.laneEvent_eq]
  exact keptBy_ite (P := StatusKept s) (.refl s) (((StatusKept.refl s).wr _ (laneBit_mem hn)).raise _)

/-- A lane's mark is set by its event, and stays set by others. -/
theorem State.laneEvent_marks (s : State) (n k : Nat) : (s.laneEvent n k).rd (laneBit n) = 1 := by
  rw [State.laneEvent_eq]
  split
  · exact State.rdB_eq_true_iff.1 ‹_›
  · exact (State.raise_rd _ _ (evtReg_of_tim _ (by simp only [laneBit]; omega))).trans (State.rd_wr_same _ _ 1 (laneBit_fits n))

theorem State.laneEvent_marked {s : State} {m : Nat} (h : s.rd (laneBit m) = 1) (n k : Nat) : (s.laneEvent n k).rd (laneBit m) = 1 := by
  by_cases he : n = m
  · rw [he]
    exact s.laneEvent_marks m k
  · rw [State.laneEvent_eq]
    split
    · exact h
    · refine (State.raise_rd _ _ (evtReg_of_tim _ (by simp only [laneBit]; omega))).trans ((s.rd_wrB_ne true (laneBit_fits n) ?_).trans h)
      simp only [laneBit]
      omega

theorem StatusKept.markUnlocked {r s : State} (h : StatusKept r s) {p : Nat} (hp : p < 16) (old lock : Nat) :
    StatusKept r (s.markUnlocked p old lock) :=
  keptBy_foldl_mem (P := StatusKept r) _ h fun t i hi h =>
    keptBy_ite (P := StatusKept r) (h.trans (t.laneEvent_kept (by simp at hi; omega) 5)) h

theorem State.markUnlocked_marks (s : State) (p : Nat) {old lock i : Nat} (hi : i < 6) (ho : bitAt old i = true) (hn : bitAt lock i = false) :
    (s.markUnlocked p old lock).rd (laneBit (6 * p + i)) = 1 :=
  foldl_reaches (P := fun _ => True) (Q := fun t => t.rd (laneBit (6 * p + i)) = 1) (a := i) List.nodup_range (List.mem_range.2 hi)
    (fun _ _ _ _ _ => trivial) (fun t _ => by rw [ho, hn]; exact t.laneEvent_marks _ 5)
    (fun t b _ _ h => keptBy_ite (P := fun t => t.rd (laneBit (6 * p + i)) = 1) (State.laneEvent_marked h _ 5) h) trivial

theorem State.markUnlocked_pnl (s : State) (p old lock : Nat) : (s.markUnlocked p old lock).pnl = s.pnl :=
  keptBy_foldl (P := fun t => t.pnl = s.pnl) _ rfl fun t i h => keptBy_ite (P := fun t => t.pnl = s.pnl)
    (by rw [State.laneEvent_eq]; exact keptBy_ite (P := fun t => t.pnl = s.pnl) h ((State.raise_pnl _ _).trans h)) h

theorem State.statusLocks_kept (s : State) {p : Nat} (hp : p < 16) (old lock : Nat) : StatusKept s (s.statusLocks p old lock) := by
  have hlock : StatusKept s (s.modPort p fun q => { q with lock := lock }) := .other rfl rfl
  exact keptBy_ite (P := StatusKept s) hlock (hlock.markUnlocked hp old lock)

theorem State.statusLocks_ports (s : State) (p old lock : Nat) :
    (s.statusLocks p old lock).pnl.ports = s.pnl.ports.modify p fun q => { q with lock := lock } := by
  refine reads_ite (g := fun t => t.pnl.ports) rfl ?_
  rw [State.markUnlocked_pnl]
  rfl

theorem State.pnlOnce_ports (s : State) (e : Nat) : (s.pnlOnce e).pnl.ports = s.pnl.ports := by
  refine reads_ite (g := fun t => t.pnl.ports) rfl ?_
  rw [State.raise_pnl]

theorem State.pnlOnce_raised {s : State} {e : Nat} (h : e ∉ s.pnl.seen) (hu : evtInUse e = true) (hev : s.hasEvents = true) :
    Raised e (s.pnlOnce e) := by
  unfold State.pnlOnce
  rw [if_neg (by simpa using h)]
  exact State.raised _ hu hev

theorem State.statusErrs_ports (s : State) (blk : List Byte) : (s.statusErrs blk).pnl.ports = s.pnl.ports :=
  reads_ite (g := fun t => t.pnl.ports) (s.pnlOnce_ports _) rfl

theorem State.statusCounted_counts (s : State) (blk : List Byte) :
    (s.statusCounted blk).rd (F.PNL_CNT_COUNT 0) = min (s.rd (F.PNL_CNT_COUNT 0) + leAt blk 3 2) (2 ^ 32 - 1) ∧
      (s.statusCounted blk).rd (F.PNL_CNT_COUNT 1) = min (s.rd (F.PNL_CNT_COUNT 1) + byteAt blk 5) (2 ^ 32 - 1) := by
  refine ⟨(State.rd_wr_apart _ (F.PNL_CNT_COUNT 1) (F.PNL_CNT_COUNT 0) _ (by decide)).trans (s.rd_bump_same _ _ (by decide)), ?_⟩
  rw [State.statusCounted, State.rd_bump_same _ _ _ (by decide), State.bump, State.rd_wr_apart _ _ _ _ (by decide)]
  rfl

theorem State.statusCounted_regsOnly (s : State) (blk : List Byte) : RegsOnly [0xE0020, 0xE0024] s (s.statusCounted blk) :=
  (s.bump_regsOnly (F.PNL_CNT_COUNT 0) (leAt blk 3 2)).trans (State.bump_regsOnly _ (F.PNL_CNT_COUNT 1) (byteAt blk 5))

/-- What stands before the port moves on. -/
theorem State.statusNoted_kept (s : State) {p : Nat} (hp : p < 16) (blk : List Byte) : StatusKept (s.statusCounted blk) (s.statusNoted p blk) :=
  (State.statusErrs_kept _ blk).trans (State.statusLocks_kept _ hp _ _)

theorem State.statusNoted_rd (s : State) {p : Nat} (hp : p < 16) (blk : List Byte) {f : Fld}
    (h : f.off ∉ [0xE0020, 0xE0024, 0xF0010, 0xF0014, 0xF0018]) (he : evtReg f.off = false) : (s.statusNoted p blk).rd f = s.rd f := by
  simp only [List.mem_cons, List.not_mem_nil, or_false, not_or] at h
  obtain ⟨h20, h24, h10, h14, h18⟩ := h
  refine ((s.statusNoted_kept hp blk).words.rd (by simp [h10, h14, h18]) he).trans (State.rd_of_word ?_)
  exact (s.statusCounted_regsOnly blk).2 _ (by simp [h20, h24])

theorem State.statusNoted_portState (s : State) {p : Nat} (hp : p < 16) (blk : List Byte) (q : Nat) :
    (s.statusNoted p blk).portState q = s.portState q := s.statusNoted_rd hp blk (show 0xE0010 ∉ _ by decide) rfl

theorem State.statusNoted_portClean (s : State) {p : Nat} (hp : p < 16) (blk : List Byte) (q : Nat) :
    (s.statusNoted p blk).portClean q = s.portClean q := by
  have h : ∀ n, (s.statusNoted p blk).rdB (F.LNK_L_CTRL_PRBS_GEN n) = s.rdB (F.LNK_L_CTRL_PRBS_GEN n) := fun n =>
    congrArg (· == 1) (s.statusNoted_rd hp blk (by simp [F.LNK_L_CTRL_PRBS_GEN]; omega) (evtReg_of_tim _ (by simp only [F.LNK_L_CTRL_PRBS_GEN]; omega)))
  unfold State.portClean
  simp only [h]

theorem State.statusNoted_ports (s : State) (p : Nat) (blk : List Byte) :
    (s.statusNoted p blk).pnl.ports = s.pnl.ports.modify p fun q => { q with lock := byteAt blk 2 % 64 } := by
  rw [State.statusNoted, State.statusLocks_ports, State.statusErrs_ports]
  rfl

theorem State.statusNoted_pwr (s : State) {p : Nat} (hp : p < 16) (blk : List Byte) : (s.statusNoted p blk).pwr = s.pwr :=
  (s.statusNoted_kept hp blk).pwr

/-- What a STATUS block counts, announces and marks, before the port moves on. -/
theorem State.statusNoted_shows {s : State} {p : Nat} (hp : p < 16) (hev : s.hasEvents = true) (blk : List Byte) :
    let u := s.statusNoted p blk
    u.rd (F.PNL_CNT_COUNT 0) = min (s.rd (F.PNL_CNT_COUNT 0) + leAt blk 3 2) (2 ^ 32 - 1) ∧
      u.rd (F.PNL_CNT_COUNT 1) = min (s.rd (F.PNL_CNT_COUNT 1) + byteAt blk 5) (2 ^ 32 - 1) ∧
      (byteAt blk 5 ≠ 0 → Ev.PNL_RX_UNCORR ∉ s.pnl.seen → Raised Ev.PNL_RX_UNCORR u) ∧
      ∀ i < 6, s.portState p ≠ 0 → bitAt (s.port p).lock i = true → bitAt (byteAt blk 2 % 64) i = false → u.rd (laneBit (6 * p + i)) = 1 := by
  obtain ⟨h0, h1⟩ := s.statusCounted_counts blk
  have hk := (s.statusNoted_kept hp blk).words
  refine ⟨(hk.rd (by decide) rfl).trans h0, (hk.rd (by decide) rfl).trans h1, fun hb hs => ?_, fun i hi hst ho hn => ?_⟩
  · have herr : Raised Ev.PNL_RX_UNCORR ((s.statusCounted blk).statusErrs blk) := by
      unfold State.statusErrs
      rw [if_pos hb]
      exact State.pnlOnce_raised hs rfl hev
    exact (State.statusLocks_kept _ hp _ _).raised _ (by decide) herr
  · have hport : ((s.statusCounted blk).statusErrs blk).portState p ≠ 0 := by
      have he : ((s.statusCounted blk).statusErrs blk).portState p = s.portState p :=
        ((State.statusErrs_kept _ blk).words.rd (show 0xE0010 ∉ _ by decide) rfl).trans
          (State.rd_of_word ((s.statusCounted_regsOnly blk).2 0xE0010 (by decide)))
      rwa [he]
    unfold State.statusNoted State.statusLocks
    rw [if_neg hport]
    exact State.markUnlocked_marks _ p hi ho hn

theorem RxKept.portRetrain {r s : State} (h : RxKept r s) {p : Nat} (hp : p < 16) : RxKept r (s.portRetrain p) := by
  have hset := (h.setPort hp 1).modPort p fun q => { q with ready := false }
  have hfir : RxKept r (s.portTrains p) := keptBy_foldl_mem _ hset fun _ n hn h => h.startFir (portLanes_lt hp hn)
  have hb : RxKept r ((s.portTrains p).bump (F.PNL_CNT_COUNT 2)) := hfir.wr _ (by decide) (by decide) rfl
  rw [State.portRetrain_eq]
  exact hb.raise _

/-- What the port's move keeps of what was noted. -/
structure NotesKept (u t : State) : Prop where
  counts : t.rd (F.PNL_CNT_COUNT 0) = u.rd (F.PNL_CNT_COUNT 0) ∧ t.rd (F.PNL_CNT_COUNT 1) = u.rd (F.PNL_CNT_COUNT 1)
  marks : ∀ n < 96, t.rd (laneBit n) = u.rd (laneBit n)
  raised : ∀ src, src < 512 → Raised src u → Raised src t

theorem State.statusEnds_kept (u : State) {p : Nat} (hp : p < 16) (ok : Bool) : NotesKept u (u.statusEnds p ok) := by
  unfold State.statusEnds
  split
  · exact ⟨⟨rfl, rfl⟩, fun _ _ => rfl, fun _ _ h => h⟩
  split
  · have hm := u.portRetrain_moves p
    refine ⟨⟨State.rd_of_word (hm.word (fun n => ?_) (by decide) rfl), State.rd_of_word (hm.word (fun n => ?_) (by decide) rfl)⟩,
      fun n hn => State.rd_of_word (hm.word (fun m => ?_) (by simp [laneBit]; omega) (evtReg_of_tim _ (by simp only [laneBit]; omega))),
      ((RxKept.refl u).portRetrain hp).raised⟩
    · simp only [F.PNL_CNT_COUNT]; omega
    · simp only [F.PNL_CNT_COUNT]; omega
    · simp only [laneBit]; omega
  · exact ⟨⟨rfl, rfl⟩, fun _ _ => rfl, fun _ _ h => h⟩

/-- An ACTIVE port that returns to TRAIN. -/
theorem State.portRetrain_leaves {s : State} {p : Nat} (hp : p < 16) (hev : s.hasEvents = true) (h2 : s.portState p = 2) :
    (s.portRetrain p).portState p = 1 ∧ Raised Ev.PNL_PORT_RETRAIN (s.portRetrain p) ∧ (s.portRetrain p).pnl.dcbWin = none ∧
      (s.portRetrain p).rd (F.PNL_CNT_COUNT 2) = min (s.rd (F.PNL_CNT_COUNT 2) + 1) (2 ^ 32 - 1) := by
  refine ⟨by rw [State.portRetrain_state _ hp, if_pos rfl], State.portRetrain_raised hev p, ?_, s.portRetrain_count p⟩
  rw [State.portRetrain_pnl]
  exact State.setPort_dcb h2 (by decide)

/-- Where the port stands after it. -/
theorem State.statusEnds_moves (u : State) {p : Nat} (hp : p < 16) (hev : u.hasEvents = true) (ok : Bool) :
    let t := u.statusEnds p ok
    (u.portState p = 1 → t.portState p = 1 ∧ t.pnl.ports = u.pnl.ports.modify p fun q => { q with ready := ok }) ∧
      (u.portState p = 2 → ok = true → t = u) ∧
      (u.portState p = 2 → ok = false → t.portState p = 1 ∧ Raised Ev.PNL_PORT_RETRAIN t ∧ t.pnl.dcbWin = none ∧
        t.rd (F.PNL_CNT_COUNT 2) = min (u.rd (F.PNL_CNT_COUNT 2) + 1) (2 ^ 32 - 1)) := by
  unfold State.statusEnds
  refine ⟨fun h1 => ?_, fun h2 hok => ?_, fun h2 hok => ?_⟩
  · rw [if_pos h1]
    exact ⟨h1, rfl⟩
  · rw [if_neg (by omega), if_neg (by rw [hok]; simp)]
  · rw [if_neg (by omega), if_pos ⟨h2, hok⟩]
    exact State.portRetrain_leaves hp hev h2

theorem State.retLive_lt {s : State} {n : Nat} (h : s.retLive n = true) : n < 4 ∧ s.panelOn = true := by
  simp only [State.retLive, Bool.and_eq_true, decide_eq_true_eq] at h
  exact ⟨h.1.1.1, h.1.1.2⟩

theorem statusBlock_reports {lane : Nat} {blk : List Byte} {s : State} (hl : s.retLive lane = true) (h48 : byteAt blk 0 = 0x48) :
    let p := byteAt blk 1 % 16
    let lock := byteAt blk 2 % 64
    let ok := decide (lock = 63) && bitAt (byteAt blk 2) 6 && s.portClean p
    p / 4 = lane → s.portInUse p = true → Gives (.statusBlock lane blk) s fun t =>
      t.rd (F.PNL_CNT_COUNT 0) = min (s.rd (F.PNL_CNT_COUNT 0) + leAt blk 3 2) (2 ^ 32 - 1) ∧
      t.rd (F.PNL_CNT_COUNT 1) = min (s.rd (F.PNL_CNT_COUNT 1) + byteAt blk 5) (2 ^ 32 - 1) ∧
      (byteAt blk 5 ≠ 0 → Ev.PNL_RX_UNCORR ∉ s.pnl.seen → Raised Ev.PNL_RX_UNCORR t) ∧
      (∀ i < 6, s.portState p ≠ 0 → bitAt (s.port p).lock i = true → bitAt lock i = false →
        t.rd ⟨0xF0010 + 4 * ((6 * p + i) / 32), (6 * p + i) % 32, 1⟩ = 1) ∧
      (s.portState p = 1 → t.portState p = 1 ∧
        t.pnl.ports = s.pnl.ports.modify p fun q => { q with lock := lock, ready := ok }) ∧
      (s.portState p = 2 → ok = true → t.portState p = 2 ∧ t.pnl.ports = s.pnl.ports.modify p fun q => { q with lock := lock }) ∧
      (s.portState p = 2 → ok = false → t.portState p = 1 ∧ Raised Ev.PNL_PORT_RETRAIN t ∧ t.pnl.dcbWin = none ∧
        t.rd (F.PNL_CNT_COUNT 2) = min (s.rd (F.PNL_CNT_COUNT 2) + 1) (2 ^ 32 - 1)) := by
  intro p lock ok hp hu
  have hp16 : p < 16 := Nat.mod_lt _ (by decide)
  have hev : s.hasEvents = true := State.hasEvents_of_awake (State.panelOn_awake (State.retLive_lt hl).2)
  obtain ⟨hc0, hc1, herr, hmark⟩ := State.statusNoted_shows hp16 hev blk
  have hk := (s.statusNoted p blk).statusEnds_kept hp16 ok
  have hev' := (State.hasEvents_of_pwr (s.statusNoted_pwr hp16 blk)).trans hev
  obtain ⟨htrain, hstay, hleave⟩ := (s.statusNoted p blk).statusEnds_moves hp16 hev' ok
  rw [s.statusNoted_portState hp16] at htrain hstay hleave
  refine ⟨_, (exec_pos rfl hl).trans (congrArg _ ((State.onStatus_eq h48 hp hu).trans ?_)), hk.counts.1.trans hc0, hk.counts.2.trans hc1,
    fun hb hs => hk.raised _ (by decide) (herr hb hs), fun i hi hst ho hn => ?_, fun h1 => ?_, fun h2 hok => ?_, fun h2 hok => ?_⟩
  · dsimp only
    rw [State.statusNoted_portClean _ hp16]
  · exact (hk.marks _ (by omega)).trans (hmark i hi hst ho hn)
  · obtain ⟨hst, hports⟩ := htrain h1
    refine ⟨hst, hports.trans ?_⟩
    rw [State.statusNoted_ports, List.modify_modify_eq]
    rfl
  · rw [hstay h2 hok]
    exact ⟨(s.statusNoted_portState hp16 blk p).trans h2, s.statusNoted_ports p blk⟩
  · obtain ⟨hst, hr, hd, hc⟩ := hleave h2 hok
    exact ⟨hst, hr, hd, by rw [hc, s.statusNoted_rd hp16 blk (by decide) rfl]⟩

/-! ## The other moves of a port -/

theorem statusTimeout_retrains {p : Nat} {s : State} (hp : p < 16) (ha : s.awake = true) (h2 : s.portState p = 2) :
    Gives (.statusTimeout p) s fun t => t.portState p = 1 ∧ Raised Ev.PNL_PORT_RETRAIN t ∧ t.pnl.dcbWin = none ∧
      t.rd (F.PNL_CNT_COUNT 2) = min (s.rd (F.PNL_CNT_COUNT 2) + 1) (2 ^ 32 - 1) :=
  gives_pos rfl (by simp [hp, State.portActive, h2]) (State.portRetrain_leaves hp (State.hasEvents_of_awake ha) h2)

theorem trainReq_answered {lane : Nat} {blk : List Byte} {s : State} (hs : s.shaped = true) (hl : s.retLive lane = true)
    (h49 : byteAt blk 0 = 0x49) :
    let p := byteAt blk 1 % 16
    let i := byteAt blk 1 / 16 % 8
    p / 4 = lane → i < 6 →
    (s.portState p = 1 → Gives (.trainReq lane blk) s fun t => ∃ result,
      TrainAnswer s t (6 * p + i) (byteAt blk 2) (byteAt blk 3) true result ∧
      t.out = if s.txLive (6 * p + i) = true then
        .panelBlock (6 * p + i) (trainAck t 0x4A (p + 16 * i) (6 * p + i) (byteAt blk 2) result) :: s.out else s.out) ∧
    (s.portState p = 2 → exec (.trainReq lane blk) s =
      .next { s with pnl := { s.pnl with trainQ := s.pnl.trainQ ++ [⟨p, i, byteAt blk 2, byteAt blk 3⟩] } }) := by
  intro p i hp hi
  have hexec : exec (.trainReq lane blk) s = .next (if s.portState p = 1 then s.answerTrain ⟨p, i, byteAt blk 2, byteAt blk 3⟩
      else if s.portState p = 2 then { s with pnl := { s.pnl with trainQ := s.pnl.trainQ ++ [⟨p, i, byteAt blk 2, byteAt blk 3⟩] } }
      else s) := by
    refine (exec_pos rfl hl).trans (congrArg _ ?_)
    unfold State.onTrainReq
    exact if_neg (by simp only [h49]; omega)
  refine ⟨fun h1 => ⟨_, hexec, ?_⟩, fun h2 => ?_⟩
  · rw [if_pos h1]
    exact State.answerTrain_answers (w := ⟨p, i, byteAt blk 2, byteAt blk 3⟩) (by rw [State.shaped_lanes hs]; simp only; omega)
  · rw [hexec, if_neg (by omega), if_pos h2]

/-! ## Training fails (R240) -/

theorem portLanes_nodup (p : Nat) : (portLanes p).Nodup :=
  List.Nodup.map (fun _ _ h => Nat.add_left_cancel h) List.nodup_range

/-- Lanes that fall to electrical idle. -/
theorem foldl_txIdle {l : List Nat} (hl : l.Nodup) {n : Nat} (hn : n ∈ l) {s : State} (hlt : n < s.lanes.length) (hrx : laneTx n = true) :
    let t := l.foldl (fun s n => s.txIdle n true) s
    (t.lane n).txIdle = true ∧ t.rd (F.LNK_L_STATUS_IDLE n) = 1 := by
  refine foldl_reaches (P := fun t => n < t.lanes.length)
    (Q := fun t => (t.lane n).txIdle = true ∧ t.rd (F.LNK_L_STATUS_IDLE n) = 1) hl hn (fun t m _ _ h => ?_) (fun t h => ⟨?_, ?_⟩)
    (fun t m _ hm h => ⟨?_, ?_⟩) hlt
  · rw [State.txIdle_length]
    exact h
  · rw [State.txIdle_lane h]
  · rw [State.txIdle_eq, State.showIdle_idle, State.lane_modLane_same h, hrx]
    rfl
  · rw [State.txIdle_lane_ne _ (Ne.symm hm)]
    exact h.1
  · refine (State.rd_of_word ((t.txIdle_regsOnly m true).2 (F.LNK_L_STATUS_IDLE n).off ?_)).trans h.2
    simp only [F.LNK_L_STATUS_IDLE, List.mem_singleton]
    omega

/-- A lane sends nothing, and shows it. -/
def SendsIdle (n : Nat) (t : State) : Prop := (t.lane n).txIdle = true ∧ t.rd (F.LNK_L_STATUS_IDLE n) = 1

theorem State.idlePort_idles {s : State} {p n : Nat} (hn : n ∈ portLanes p) (hlt : n < s.lanes.length) (htx : laneTx n = true) :
    SendsIdle n (s.idlePort p) := by
  unfold State.idlePort
  exact foldl_txIdle (portLanes_nodup p) hn hlt htx

theorem State.modPort_lanes (s : State) (p : Nat) (f : PnlPort → PnlPort) : (s.modPort p f).lanes = s.lanes := rfl
theorem State.rd_modPort (s : State) (p : Nat) (f : PnlPort → PnlPort) (g : Fld) : (s.modPort p f).rd g = s.rd g := rfl

theorem State.stopPort_idles (s : State) (p : Nat) (failed : Bool) (n : Nat) :
    SendsIdle n (s.stopPort p failed) ↔ SendsIdle n ((s.setPort p 0).idlePort p) := by
  have hl := State.modPort_lanes ((s.setPort p 0).idlePort p) p fun _ => { PnlPort.reset with failed := failed }
  have hr := State.rd_modPort ((s.setPort p 0).idlePort p) p (fun _ => { PnlPort.reset with failed := failed }) (F.LNK_L_STATUS_IDLE n)
  rw [← State.stopPort_eq] at hl hr
  unfold SendsIdle
  rw [State.lane_of_lanes hl, hr]

theorem State.raise_idles (s : State) (e n : Nat) : SendsIdle n (s.raise e) ↔ SendsIdle n s := by
  unfold SendsIdle
  rw [State.lane_of_lanes (s.raise_lanes e), s.raise_rd e (evtReg_of_tim _ (by simp only [F.LNK_L_STATUS_IDLE]; omega))]

theorem State.setPort_ports (s : State) (p v : Nat) : (s.setPort p v).pnl.ports = s.pnl.ports := (s.setPort_rest p v).2.1

theorem State.setPort_lanes (s : State) (p v : Nat) : (s.setPort p v).lanes = s.lanes := reads_ite (g := State.lanes) rfl rfl

theorem State.stopPort_ports (s : State) (p : Nat) (failed : Bool) :
    (s.stopPort p failed).pnl.ports = s.pnl.ports.modify p fun _ => { PnlPort.reset with failed := failed } := by
  have hpnl := ((panelKept_wire ((s.setPort p 0).word 0xE0010) (s.setPort p 0).pnl).idlePort p ⟨rfl, rfl⟩).2
  rw [State.stopPort_eq]
  refine Eq.trans (congrArg (fun x : PnlSt => x.ports.modify p fun _ => { PnlPort.reset with failed := failed }) hpnl) ?_
  rw [State.setPort_ports]

theorem pnlTrainFail_stops {p : Nat} {s : State} (hp : p < 16) (ha : s.awake = true) (hs : s.shaped = true) (h1 : s.portState p = 1) :
    Gives (.pnlTrainFail p) s fun t =>
      t.portState p = 0 ∧ t.pnl.ports = s.pnl.ports.modify p (fun _ => { PnlPort.reset with failed := true }) ∧
      Raised Ev.PNL_TRAIN_FAIL t ∧ ∀ n ∈ portLanes p, (t.lane n).txIdle = true ∧ t.rd (F.LNK_L_STATUS_IDLE n) = 1 := by
  have hev : (s.stopPort p true).hasEvents = true := by
    have hpwr := (State.stopPort_keeps (P := 1064964) (p := p) (failed := true) (by decide) (.refl _ s)).same .pwr (by decide)
    exact (State.hasEvents_of_pwr hpwr).trans (State.hasEvents_of_awake ha)
  refine gives_pos rfl (by simp [hp, h1]) ⟨?_, ?_, State.raised _ rfl hev, fun n hn => ?_⟩
  · exact (State.raise_rd _ _ rfl).trans ((s.stopPort_state hp true).trans (if_pos rfl))
  · rw [State.raise_pnl, State.stopPort_ports]
  · have hlt := portLanes_lt hp hn
    have hset : n < (s.setPort p 0).lanes.length := by rw [State.setPort_lanes, State.shaped_lanes hs]; omega
    have htx : laneTx n = true := by simp [laneTx, hlt]
    exact (State.raise_idles _ _ n).2 ((s.stopPort_idles p true n).2 (State.idlePort_idles hn hset htx))

/-! ## Training is tried again (R240) -/

/-- A whole word written is its one field written. -/
theorem State.setWord_eq_wr (s : State) (off : Nat) (w : Word) : s.setWord off w = s.wr ⟨off, 0, 32⟩ w.toNat := by
  have h : setBits (s.word off).toNat 0 32 w.toNat = w.toNat := by
    rw [setBits_eq, Nat.mod_eq_of_lt w.isLt, Nat.div_eq_of_lt (by simpa using (s.word off).isLt)]
    simp [Nat.mod_one]
  unfold State.wr
  rw [h, BitVec.ofNat_toNat]
  simp

theorem WireClosed.startFir {P : State → Prop} (c : WireClosed P) {s : State} (n : Nat) (h : P s) : P (s.startFir n) := by
  have hoff : wireReg (0xF1008 + 0x40 * n) = true := by
    rw [wireReg, Bool.and_eq_true]
    exact ⟨decide_eq_true (by omega), bne_iff_ne.2 (by omega)⟩
  rw [State.startFir, State.setWord_eq_wr]
  exact c.wr _ hoff h

theorem WireClosed.setRate {P : State → Prop} (c : WireClosed P) {s : State} (n : Nat) (q : Bool) (h : P s) : P (s.setRate n q) :=
  c.wr (f := F.LNK_L_STATUS_QUARTER n) _ (wireReg_lane n) h

/-- The lanes of a port start sending. -/
def State.portSends (s : State) (p : Nat) : State :=
  (portLanes p).foldl (fun s n => (s.setRate n (s.pwr.st == .s1)).startFir n |>.txIdle n false) s

theorem State.startPort_eq (s : State) (p : Nat) :
    s.startPort p = (((s.portSends p).setPort p 1).modPort p fun q => { q with ready := false }).wrB ⟨0xE000C, p, 1⟩ false := rfl

theorem WireClosed.portSends {P : State → Prop} (c : WireClosed P) {s : State} (p : Nat) (h : P s) : P (s.portSends p) :=
  keptBy_foldl _ h fun _ n h => c.txIdle n false (c.startFir n (c.setRate n _ h))

theorem State.startPort_state (s : State) {p q : Nat} (hp : p < 16) :
    (s.startPort p).portState q = if q = p then 1 else s.portState q := by
  have hw := ((panelKept_wire (s.word 0xE0010) s.pnl).portSends p ⟨rfl, rfl⟩).1
  have hsent : (s.portSends p).portState q = s.portState q := State.rd_of_word (f := portFld q) hw
  rw [State.startPort_eq]
  refine (State.rd_wr_apart _ ⟨0xE000C, p, 1⟩ (portFld q) _ (show 0xE0010 ≠ 0xE000C by decide)).trans ?_
  refine ((s.portSends p).setPort_state hp (by decide)).trans ?_
  rw [hsent]

theorem State.startPort_ports (s : State) (p : Nat) :
    (s.startPort p).pnl.ports = s.pnl.ports.modify p fun q => { q with ready := false } := by
  have hpnl := ((panelKept_wire (s.word 0xE0010) s.pnl).portSends p ⟨rfl, rfl⟩).2
  rw [State.startPort_eq]
  change ((s.portSends p).setPort p 1).pnl.ports.modify p _ = _
  rw [State.setPort_ports, hpnl]

theorem State.port_of_ports {s t : State} {p : Nat} {f : PnlPort → PnlPort} (h : t.pnl.ports = s.pnl.ports.modify p f) :
    (∀ q, q ≠ p → t.port q = s.port q) ∧ (p < s.pnl.ports.length → t.port p = f (s.port p)) := by
  unfold State.port
  rw [h]
  refine ⟨fun q hq => ?_, fun hl => ?_⟩
  · simp [List.getD_eq_getElem?_getD, Ne.symm hq]
  · simp [List.getD_eq_getElem?_getD, hl]

/-- What the settling of a port leaves another port. -/
structure PortApart (q : Nat) (s t : State) : Prop where
  state : t.portState q = s.portState q
  port : t.port q = s.port q
  length : t.pnl.ports.length = s.pnl.ports.length
  pwr : t.pwr = s.pwr
  live : t.live = s.live
  rx : RxKept s t

theorem State.settlePort_apart (s : State) {p q : Nat} (hp : p < 16) (hq : q ≠ p) : PortApart q s (s.settlePort p) := by
  have hk := State.settlePort_keeps (P := 1064964) (p := p) (by decide) (.refl _ s)
  refine ⟨?_, ?_, ?_, hk.same .pwr (by decide), hk.same .live (by decide), (RxKept.refl s).settlePort hp⟩
  · refine reads_ite (g := fun t => t.portState q) (reads_ite (g := fun t => t.portState q) rfl ?_) (reads_ite (g := fun t => t.portState q) ?_ rfl)
    · rw [State.stopPort_state _ hp, if_neg hq]
    · rw [State.startPort_state _ hp, if_neg hq]
  · exact reads_ite (g := fun t => t.port q)
      (reads_ite (g := fun t => t.port q) rfl ((State.port_of_ports (s.stopPort_ports p false)).1 q hq))
      (reads_ite (g := fun t => t.port q) ((State.port_of_ports (s.startPort_ports p)).1 q hq) rfl)
  · refine reads_ite (g := fun t => t.pnl.ports.length) (reads_ite (g := fun t => t.pnl.ports.length) rfl ?_)
      (reads_ite (g := fun t => t.pnl.ports.length) ?_ rfl)
    · rw [State.stopPort_ports, List.length_modify]
    · rw [State.startPort_ports, List.length_modify]

/-- A port in DOWN that may train: in use, the panel running and not warned, its return lane locked (Table 8-3). -/
structure MayTrain (p : Nat) (s : State) : Prop where
  down : s.portState p = 0
  fresh : (s.port p).failed = false
  listed : p < s.pnl.ports.length
  use : s.portInUse p = true
  on : s.panelOn = true
  own : s.pwr.ownWarn = false
  pin : s.pwr.pinWarn = false
  ret : s.retLocked (p / 4) = true

theorem RxKept.retLocked {s t : State} (h : RxKept s t) (n : Nat) : t.retLocked n = s.retLocked n := by
  have hidle : (t.lane (96 + n)).rxIdle = (s.lane (96 + n)).rxIdle := (congrArg Lane.rxIdle (h.lane (96 + n) (by omega)) :)
  have hlock : t.lockOf (96 + n) = s.lockOf (96 + n) := h.toOwnerKept.lockOf (by omega)
  have hchk : t.rdB (F.LNK_L_CTRL_PRBS_CHK (96 + n)) = s.rdB (F.LNK_L_CTRL_PRBS_CHK (96 + n)) :=
    congrArg (· == 1) (h.toOwnerKept.rd (by simp only [F.LNK_L_CTRL_PRBS_CHK]; omega))
  unfold State.retLocked State.blockLocked
  rw [hidle, hlock, hchk]

theorem MayTrain.apart {s t : State} {p : Nat} (h : MayTrain p s) (k : PortApart p s t) : MayTrain p t where
  down := k.state.trans h.down
  fresh := (congrArg PnlPort.failed k.port).trans h.fresh
  listed := k.length ▸ h.listed
  use := (State.portInUse_of_live k.live p).trans h.use
  on := by
    rw [State.panelOn, k.pwr]
    exact h.on
  own := by
    rw [k.pwr]
    exact h.own
  pin := by
    rw [k.pwr]
    exact h.pin
  ret := (k.rx.retLocked _).trans h.ret

theorem State.settlePort_starts {s : State} {p : Nat} (h : MayTrain p s) : s.settlePort p = s.startPort p := by
  unfold State.settlePort
  rw [if_neg (by simp [h.use, h.on, h.own, h.pin]), if_pos ⟨h.down, h.fresh, h.ret⟩]

theorem State.settlePorts_trains {s : State} {p : Nat} (hp : p < 16) (h : MayTrain p s) :
    s.settlePorts.portState p = 1 ∧ (s.settlePorts.port p).failed = false := by
  refine foldl_reaches (P := MayTrain p) (Q := fun t => t.portState p = 1 ∧ (t.port p).failed = false) List.nodup_range (List.mem_range.2 hp)
    (fun t q hq hne h => h.apart (t.settlePort_apart (List.mem_range.1 hq) (Ne.symm hne))) (fun t h => ?_) (fun t q hq hne h => ?_) h
  · rw [State.settlePort_starts h]
    refine ⟨(t.startPort_state hp).trans (if_pos rfl), ?_⟩
    rw [(State.port_of_ports (t.startPort_ports p)).2 h.listed]
    exact h.fresh
  · have hk := t.settlePort_apart (List.mem_range.1 hq) (Ne.symm hne)
    exact ⟨hk.state.trans h.1, (congrArg PnlPort.failed hk.port).trans h.2⟩

theorem trainRetry_trains {p : Nat} {s : State} (hf : (s.port p).failed = true) (h0 : s.portState p = 0) (hu : s.portInUse p = true)
    (hon : s.panelOn = true) (hown : s.pwr.ownWarn = false) (hpin : s.pwr.pinWarn = false) (hret : s.retLocked (p / 4) = true) :
    Gives (.trainRetry p) s fun t => t.portState p = 1 ∧ (t.port p).failed = false := by
  have hl : p < s.pnl.ports.length := by
    by_contra hn
    rw [State.port, List.getD_eq_default _ _ (Nat.le_of_not_lt hn)] at hf
    cases hf
  have hp : p < 16 := by
    simp only [State.portInUse, Bool.and_eq_true, decide_eq_true_eq] at hu
    exact hu.1
  refine gives_pos rfl hf (State.settlePorts_trains hp ⟨h0, ?_, ?_, hu, hon, hown, hpin, hret⟩)
  · rw [(State.port_of_ports (s := s) (f := fun q => { q with failed := false }) rfl).2 hl]
  · exact (List.length_modify ..).symm ▸ hl

/-! ## PNL_RETRAIN (R240) -/

/-- What a write of PNL_RETRAIN does to port `p`. -/
def State.retrainBit (s : State) (val : Word) (p : Nat) : State :=
  if bitAt val.toNat p then
    (if s.portState p = 2 then s.portRetrain p else if s.portState p = 1 then s else s.wrB ⟨0xE000C, p, 1⟩ true)
  else s

/-- A port in state `v` has taken its bit of PNL_RETRAIN. -/
structure TookRetrain (val : Word) (p v : Nat) (t : State) : Prop where
  state : t.portState p = if bitAt val.toNat p = true ∧ v = 2 then 1 else v
  waits : bitAt val.toNat p = true → v = 0 → t.rd ⟨0xE000C, p, 1⟩ = 1
  raised : bitAt val.toNat p = true → v = 2 → Raised Ev.PNL_PORT_RETRAIN t

theorem State.wrRetrain_state (s : State) (p q : Nat) : (s.wrB ⟨0xE000C, q, 1⟩ true).portState p = s.portState p :=
  s.rd_wr_apart ⟨0xE000C, q, 1⟩ (portFld p) _ (show 0xE0010 ≠ 0xE000C by decide)

theorem State.retrainBit_pwr (s : State) (val : Word) (p : Nat) : (s.retrainBit val p).pwr = s.pwr :=
  reads_ite (g := State.pwr) (reads_ite (g := State.pwr) (s.portRetrain_moves p).pwr (reads_ite (g := State.pwr) rfl rfl)) rfl

theorem State.retrainBit_takes {s : State} {p : Nat} (hp : p < 16) (hev : s.hasEvents = true) (val : Word) :
    TookRetrain val p (s.portState p) (s.retrainBit val p) := by
  unfold State.retrainBit
  by_cases hb : bitAt val.toNat p = true
  · rw [if_pos hb]
    split
    · rename_i h2
      obtain ⟨h1, hr, -, -⟩ := State.portRetrain_leaves hp hev h2
      exact ⟨h1.trans (if_pos ⟨hb, h2⟩).symm, fun _ h => by omega, fun _ _ => hr⟩
    split
    · exact ⟨(if_neg (by omega)).symm, fun _ h => by omega, fun _ h => by omega⟩
    · exact ⟨(s.wrRetrain_state p p).trans (if_neg (by omega)).symm, fun _ _ => s.rd_wrB_same true (by simp only; omega) rfl, fun _ h => by omega⟩
  · rw [if_neg hb]
    exact ⟨(if_neg fun h => hb h.1).symm, fun h => absurd h hb, fun h => absurd h hb⟩

theorem State.retrainBit_state (s : State) {p q : Nat} (hq : q < 16) (hne : q ≠ p) (val : Word) :
    (s.retrainBit val q).portState p = s.portState p := by
  refine reads_ite (g := fun t => t.portState p) (reads_ite (g := fun t => t.portState p) ?_
    (reads_ite (g := fun t => t.portState p) rfl (s.wrRetrain_state p q))) rfl
  rw [State.portRetrain_state _ hq, if_neg (Ne.symm hne)]

theorem TookRetrain.retrainBit {val : Word} {p v : Nat} {s : State} (h : TookRetrain val p v s) {q : Nat} (hq : q < 16) (hne : q ≠ p) :
    TookRetrain val p v (s.retrainBit val q) := by
  refine ⟨(s.retrainBit_state hq hne val).trans h.state, fun hb hv => ?_, fun hb hv => ?_⟩
  · refine (reads_ite (g := fun t => t.rd ⟨0xE000C, p, 1⟩) (reads_ite (g := fun t => t.rd ⟨0xE000C, p, 1⟩) ?_
      (reads_ite (g := fun t => t.rd ⟨0xE000C, p, 1⟩) rfl ?_)) rfl).trans (h.waits hb hv)
    · exact State.rd_of_word ((s.portRetrain_moves q).word (fun n => by simp only; omega) (by simp) rfl)
    · exact s.rd_wrB_ne true (by simp only; omega) (by simp only; omega)
  · have hr := h.raised hb hv
    exact keptBy_ite (keptBy_ite (((RxKept.refl s).portRetrain hq).raised _ (by decide) hr)
      (keptBy_ite hr (hr.wr ⟨0xE000C, q, 1⟩ _ rfl (by decide)))) hr

theorem pnlRetrain_retrains {val : Word} {s : State} (ho : s.bar0Open = true) : Gives (.pnlRetrain val) s fun t => ∀ p < 16,
    t.portState p = (if bitAt val.toNat p = true ∧ s.portState p = 2 then 1 else s.portState p) ∧
    (bitAt val.toNat p = true → s.portState p = 0 → t.rd ⟨0xE000C, p, 1⟩ = 1) ∧
    (bitAt val.toNat p = true → s.portState p = 2 → Raised Ev.PNL_PORT_RETRAIN t) := by
  have hev : s.hasEvents = true := State.hasEvents_of_awake (State.bar0Open_awake ho)
  refine gives_pos rfl ho fun p hp => ?_
  have h : TookRetrain val p (s.portState p) ((List.range 16).foldl (fun s q => s.retrainBit val q) s) :=
    foldl_reaches (P := fun t => t.portState p = s.portState p ∧ t.hasEvents = true) List.nodup_range (List.mem_range.2 hp)
      (fun t q hq hne h => ⟨(t.retrainBit_state (List.mem_range.1 hq) hne val).trans h.1,
        (State.hasEvents_of_pwr (t.retrainBit_pwr val q)).trans h.2⟩)
      (fun t h => h.1 ▸ State.retrainBit_takes hp h.2 val) (fun t q hq hne h => h.retrainBit (List.mem_range.1 hq) hne) ⟨rfl, hev⟩
  exact ⟨h.state, h.waits, h.raised⟩

/-- Settles O36: a port's moves by its state and READY; a fold over the ports moves each of them once. -/
theorem panelPortsTrainAndReport : Obligations.PanelPortsTrainAndReport := by
  unfold Obligations.PanelPortsTrainAndReport
  exact ⟨fun _ _ _ hl h48 => statusBlock_reports hl h48, fun _ _ hp ha h2 => statusTimeout_retrains hp ha h2,
    fun _ _ _ hs hl h49 => trainReq_answered hs hl h49, fun _ _ hp ha hs h1 => pnlTrainFail_stops hp ha hs h1,
    fun _ _ hf h0 hu hon hown hpin hret => trainRetry_trains hf h0 hu hon hown hpin hret, fun _ _ ho => pnlRetrain_retrains ho⟩

end Sys2Proof.Machine
end

section
/-!
PROOFS. What messages and the moves of a pitch may change, how a pitch leaves DOWN, and how it goes there (Table 13-3, R343, R353).
-/
namespace Sys2Proof.Machine

/-! ## What messages, addresses and the role of the time unit may change -/

/-- Of a pitch only what counts and queues messages changes. -/
def HopsOnly (f : Pitch → Pitch) : Prop :=
  ∀ q, f q = { q with sent := (f q).sent, freed := (f q).freed, belayDue := (f q).belayDue, txq := (f q).txq }

/-- The fields that addresses, totals, roles, timestamps and dropped mail write. -/
def messageFlds : List Fld :=
  [F.ROPE_STATUS_ADDRESS, F.ROPE_STATUS_TOTAL, F.ROPE_STATUS_HEAD, F.ROPE_STATUS_ENUM_BUSY, F.ROPE_STATUS_OVERLENGTH, F.ROPE_STATUS_NO_HEAD,
    F.TIM_STATUS_ROLE, F.TIM_STATUS_HOLDOVER, F.TIM_TSQ_INFO_OVF, F.ROPE_CNT_COUNT 2]

/-- Messages of this tile, and what a change of its place on the rope brings, keep `P`. -/
structure MessageClosed (P : State → Prop) : Prop where
  out : ∀ {s : State} (q : Port) (l : Nat) (msg : List Byte), P s → P (s.ropeOut q l msg)
  hops : ∀ {s : State} (q : Port) {f : Pitch → Pitch}, HopsOnly f → P s → P (s.modPitch q f)
  draw : ∀ {s : State} (n : Nat), P s → P (s.drawn n)
  setTim : ∀ {s : State} (x : TimSt), P s → P { s with tim := x }
  wr : ∀ {s : State} {f : Fld} (v : Nat), f ∈ messageFlds → P s → P (s.wr f v)
  raise : ∀ {s : State} (e : Nat), P s → P (s.raise e)

namespace MessageClosed

variable {P : State → Prop} (c : MessageClosed P) {s : State}
include c

theorem sendLocal (p : Port) (msg : List Byte) (h : P s) : P (s.sendLocal p msg) := by
  unfold State.sendLocal
  split
  · exact c.out p _ msg h
  · exact h

theorem helloChanged (h : P s) : P s.helloChanged := keptBy_foldl _ h fun _ p h => keptBy_ite (c.sendLocal p _ h) h

theorem setAddress (a : Nat) (h : P s) : P (s.setAddress a) :=
  keptBy_ite h (c.raise _ (c.helloChanged (c.wr _ (by decide) h)))

theorem setTotal (t : Nat) (h : P s) : P (s.setTotal t) := keptBy_ite h (c.raise _ (c.wr _ (by decide) h))

theorem settleRole (h : P s) : P s.settleRole := by
  have hrole : P (s.wr F.TIM_STATUS_ROLE s.role) := c.wr _ (by decide) h
  unfold State.settleRole
  dsimp only
  split
  · exact keptBy_ite (c.wr _ (by decide) hrole) hrole
  · exact keptBy_ite (c.wr _ (by decide) (c.setTim _ hrole)) (c.setTim _ hrole)

theorem freeBlocks (p : Port) (mail : Bool) (b : Nat) (h : P s) : P (s.freeBlocks p mail b) := c.hops p (fun _ => rfl) h

theorem freeSource (m : HopMsg) (h : P s) : P (s.freeSource m) := by
  unfold State.freeSource
  split
  · exact c.freeBlocks _ _ _ h
  · exact h

theorem tsqPush (e : TsqEntry) (h : P s) : P (s.tsqPush e) := keptBy_ite (c.setTim _ h) (c.raise _ (c.wr _ (by decide) h))

theorem startHop (p : Port) (l : Nat) (m : HopMsg) (lead : Nat) (h : P s) : P (s.startHop p l m lead) := by
  have hout := c.hops p (f := fun q => { q with sent := q.sent.modify (b2n m.mail) fun n => (n + m.blocks) % 2 ^ 24 }) (fun _ => rfl)
    (c.out p l m.bytes h)
  have hfree := c.freeSource m hout
  unfold State.startHop
  dsimp only
  split
  · exact c.tsqPush _ hfree
  · exact hfree

theorem tryHop (p : Port) (mail : Bool) (lead : Nat) (h : P s) : P (s.tryHop p mail lead) := by
  unfold State.tryHop
  split
  · exact h
  split
  · exact keptBy_ite (c.startHop p _ _ lead (c.hops p (fun _ => rfl) h)) h
  · exact h

theorem mailDrop (h : P s) : P s.mailDrop := c.raise _ (c.wr _ (by decide) h)

theorem dropHop (m : HopMsg) (h : P s) : P (s.dropHop m) := by
  have hf := c.freeSource m h
  exact keptBy_ite (c.mailDrop hf) hf

theorem queueHop (p : Port) (m : HopMsg) (h : P s) : P (s.queueHop p m) :=
  keptBy_ite (c.hops p (f := fun q => { q with txq := q.txq ++ [m] }) (fun _ => rfl) h) (c.dropHop m h)

theorem originate (p : Port) (m : HopMsg) (h : P s) : P (s.originate p m) := c.draw 1 (c.tryHop p m.mail _ (c.queueHop p m h))

theorem actTail (h : P s) : P s.actTail := c.originate .up _ (c.setTotal _ (c.wr _ (by decide) h))

/-- The head's flags as one takes its place. -/
theorem headFlags (h : P s) : P ((((s.wrB F.ROPE_STATUS_HEAD true).wrB F.ROPE_STATUS_NO_HEAD false).wrB F.ROPE_STATUS_OVERLENGTH false).wrB
    F.ROPE_STATUS_ENUM_BUSY false) :=
  c.wr _ (by decide) (c.wr _ (by decide) (c.wr _ (by decide) (c.wr _ (by decide) h)))

theorem becomeHead (h : P s) : P s.becomeHead := by
  have hrole := c.settleRole (c.setAddress 1 (c.headFlags h))
  exact keptBy_ite h (keptBy_ite (c.originate .dn _ hrole) hrole)

theorem afterUp (p : Port) (h : P s) : P (s.afterUp p) := by
  unfold State.afterUp
  split
  · exact h
  · cases p
    · exact c.becomeHead h
    · exact c.actTail h

end MessageClosed

/-! ## What a pitch's moves leave of the registers, the lanes and the pitches -/

/-- Writing the fields `W` leaves the fields `K` and the event registers as they are. -/
def clearOf (W K : List Fld) : Bool := W.all fun f => !evtReg f.off && decide (f.lo + f.len ≤ 32) &&
  K.all fun g => g.off != f.off || decide (g.lo + g.len ≤ f.lo) || decide (f.lo + f.len ≤ g.lo)

theorem clearOf_mem {W K : List Fld} (hc : clearOf W K = true) {f : Fld} (hf : f ∈ W) : evtReg f.off = false ∧ f.lo + f.len ≤ 32 ∧
    ∀ g ∈ K, g.off ≠ f.off ∨ g.lo + g.len ≤ f.lo ∨ f.lo + f.len ≤ g.lo := by
  have h := List.all_eq_true.1 hc f hf
  simp only [Bool.and_eq_true, Bool.not_eq_true', decide_eq_true_eq, List.all_eq_true, Bool.or_eq_true, bne_iff_ne] at h
  obtain ⟨⟨hev, hfit⟩, hk⟩ := h
  exact ⟨hev, hfit, fun g hg => or_assoc.1 (hk g hg)⟩

/-- No event register is among the fields. -/
def noEvents (K : List Fld) : Bool := K.all fun g => !evtReg g.off

/-- A pitch's failure, and what its partner's HELLO told, are as before; and lane done received is not made up. -/
def PitchSame (a b : Pitch) : Prop :=
  b.failed = a.failed ∧ b.peerLow = a.peerLow ∧ b.peerCtrl = a.peerCtrl ∧ b.peerMail = a.peerMail ∧
    ∀ i, a.gotDone.getD i false = false → b.gotDone.getD i false = false

/-- What the moves of the rope leave: the fields `K`, the receivers, the power state, the release of the ports, and of the pitch of `p`
what `PitchSame` says; set status bits stay set. -/
structure PitchMoves (K : List Fld) (p : Port) (s t : State) : Prop where
  rd : ∀ g ∈ K, t.rd g = s.rd g
  rx : ∀ n, (t.lane n).rxIdle = (s.lane n).rxIdle
  pwr : t.pwr = s.pwr
  released : t.rope.released = s.rope.released
  heldDown : t.rope.heldDown = s.rope.heldDown
  pitch : PitchSame (s.pitch p) (t.pitch p)
  raised : ∀ src, src < 512 → Raised src s → Raised src t

theorem PitchSame.refl (a : Pitch) : PitchSame a a := ⟨rfl, rfl, rfl, rfl, fun _ h => h⟩

theorem PitchSame.trans {a b c : Pitch} (h : PitchSame a b) (k : PitchSame b c) : PitchSame a c := by
  obtain ⟨h1, h2, h3, h4, h5⟩ := h
  obtain ⟨k1, k2, k3, k4, k5⟩ := k
  exact ⟨k1.trans h1, k2.trans h2, k3.trans h3, k4.trans h4, fun i hi => k5 i (h5 i hi)⟩

theorem PitchSame.hops {f : Pitch → Pitch} (hf : HopsOnly f) (a : Pitch) : PitchSame a (f a) := by
  rw [hf a]
  exact .refl a

theorem getD_set_false {l : List Bool} {j : Nat} (h : l.getD j false = false) (i : Nat) : (l.set i false).getD j false = false := by
  simp only [List.getD_eq_getElem?_getD, List.getElem?_set] at *
  split
  · split <;> rfl
  · exact h

/-- The fields that a lane of a port and the pitch's own register show of its moves. -/
def pitchWrites (p : Port) : List Fld :=
  [pf p F.ROPE_UP_STATE_LANES, pf p F.ROPE_UP_STATE_QUARTER, F.LNK_L_STATUS_IDLE p.lane0, F.LNK_L_STATUS_IDLE (p.lane0 + 1),
    ⟨0xF1008 + 0x40 * p.lane0, 0, 32⟩, ⟨0xF1008 + 0x40 * (p.lane0 + 1), 0, 32⟩]

theorem lane_of_pair {i : Nat} (hi : i ∈ [0, 1]) : i < 2 := by
  simp only [List.mem_cons, List.not_mem_nil, or_false] at hi
  omega

/-- A pitch in LOCK, its lanes starting to send. -/
def State.lockStart (s : State) (p : Port) : State :=
  ((s.setPitchState p 1).modPitch p fun q => { q with versions := s.ownVersions }).startLanes p

theorem State.lockPitch_eq (s : State) (p : Port) : s.lockPitch p =
    if s.pitchState p = 0 ∧ s.mayLock p = true then (s.lockStart p).advancePitch p else s := rfl

namespace PitchMoves

theorem refl (K : List Fld) (p : Port) (s : State) : PitchMoves K p s s :=
  ⟨fun _ _ => rfl, fun _ => rfl, rfl, rfl, rfl, .refl _, fun _ _ h => h⟩

theorem trans {K : List Fld} {p : Port} {s t u : State} (h : PitchMoves K p s t) (k : PitchMoves K p t u) : PitchMoves K p s u :=
  ⟨fun g hg => (k.rd g hg).trans (h.rd g hg), fun n => (k.rx n).trans (h.rx n), k.pwr.trans h.pwr, k.released.trans h.released,
    k.heldDown.trans h.heldDown, h.pitch.trans k.pitch, fun src hs hr => k.raised src hs (h.raised src hs hr)⟩

variable {K : List Fld} {p : Port} {r s : State} (h : PitchMoves K p r s)
include h

/-- Fewer fields. -/
theorem fewer {J : List Fld} (hJ : J ⊆ K) : PitchMoves J p r s := { h with rd := fun g hg => h.rd g (hJ hg) }

/-- Changes of no register, no lane and nothing the pitches keep. -/
theorem other {t : State} (hr : t.regs = s.regs) (hl : t.lanes = s.lanes) (hp : t.pwr = s.pwr)
    (hre : t.rope.released = s.rope.released) (hh : t.rope.heldDown = s.rope.heldDown) (hpi : PitchSame (s.pitch p) (t.pitch p)) :
    PitchMoves K p r t :=
  h.trans ⟨fun g _ => State.rd_of_regs hr g, fun n => by rw [State.lane_of_lanes hl], hp, hre, hh, hpi,
    fun _ _ hs => (State.rd_of_regs hr _).trans hs⟩

theorem modPitch {q : Port} {f : Pitch → Pitch} (hf : ∀ a, PitchSame a (f a)) : PitchMoves K p r (s.modPitch q f) := by
  have hpi : PitchSame (s.pitch p) ((s.modPitch q f).pitch p) := by
    by_cases hq : p = q
    · subst hq
      rw [State.pitch_modPitch_same]
      exact hf _
    · rw [State.pitch_modPitch_ne _ _ hq]
      exact .refl _
  cases q <;> exact h.other rfl rfl rfl rfl rfl hpi

theorem wr {W : List Fld} (hc : clearOf W K = true) {f : Fld} (hf : f ∈ W) (v : Nat) : PitchMoves K p r (s.wr f v) := by
  obtain ⟨hev, hfit, hk⟩ := clearOf_mem hc hf
  exact h.trans ⟨fun g hg => State.rd_wr_ne _ _ _ _ hfit (hk g hg), fun _ => rfl, rfl, rfl, rfl, .refl _,
    fun _ hs hr => hr.wr _ _ hev hs⟩

theorem raise (hK : noEvents K = true) (e : Nat) : PitchMoves K p r (s.raise e) := by
  refine h.trans ⟨fun g hg => State.raise_rd _ _ ?_, fun n => by rw [State.lane_of_lanes (s.raise_lanes e)], s.raise_pwr e, ?_, ?_, ?_,
    fun _ hs hr => hr.raise hs⟩
  · simpa using List.all_eq_true.1 hK g hg
  all_goals simp only [State.pitch, State.raise_rope]
  exact .refl _

theorem modLane {n : Nat} {f : Lane → Lane} (hf : ∀ l, (f l).rxIdle = l.rxIdle) : PitchMoves K p r (s.modLane n f) := by
  refine h.trans ⟨fun _ _ => rfl, fun m => ?_, rfl, rfl, rfl, .refl _, fun _ _ hr => hr⟩
  by_cases hn : m = n
  · subst hn
    by_cases hl : m < s.lanes.length
    · rw [State.lane_modLane_same hl]
      exact hf _
    · rw [State.lane_of_lanes (s := s) (t := s.modLane m f) (List.modify_eq_self (Nat.le_of_not_lt hl))]
  · rw [State.lane_modLane_ne _ hn]

theorem txBlocks (n : Nat) (bs : List (Nat × List Byte)) : PitchMoves K p r (s.txBlocks n bs) :=
  PitchMoves.modLane (h.modLane (n := n) (f := fun l => { l with tx := s.txNow n }) fun _ => rfl) fun _ => rfl

theorem ropeOut (q : Port) (l : Nat) (msg : List Byte) : PitchMoves K p r (s.ropeOut q l msg) :=
  keptBy_ite ((h.txBlocks _ _).other rfl rfl rfl rfl rfl (.refl _)) h

theorem saveFir (n : Nat) : PitchMoves K p r (s.saveFir n) := keptBy_ite (h.modLane fun _ => rfl) (h.modLane fun _ => rfl)

omit h in
/-- Messages of this tile move no pitch. -/
theorem messages (hK : noEvents K = true) (hc : clearOf messageFlds K = true) : MessageClosed (PitchMoves K p r) where
  out q l msg h := h.ropeOut q l msg
  hops q _ hf h := h.modPitch (q := q) (PitchSame.hops hf)
  draw _ h := h.other rfl rfl rfl rfl rfl (.refl _)
  setTim _ h := h.other rfl rfl rfl rfl rfl (.refl _)
  wr v hf h := h.wr hc hf v
  raise e h := h.raise hK e

theorem startFir {q : Port} (hc : clearOf (pitchWrites q) K = true) {i : Nat} (hi : i < 2) : PitchMoves K p r (s.startFir (q.lane0 + i)) := by
  rw [State.startFir, State.setWord_eq_wr]
  exact h.wr hc (by interval_cases i <;> simp [pitchWrites]) _

theorem txIdle {q : Port} (hc : clearOf (pitchWrites q) K = true) {i : Nat} (hi : i < 2) (idle : Bool) :
    PitchMoves K p r (s.txIdle (q.lane0 + i) idle) := by
  rw [State.txIdle_eq]
  have hl := h.modLane (n := q.lane0 + i) (f := fun l => { l with tx := s.idledTx (q.lane0 + i), txIdle := idle }) fun _ => rfl
  exact hl.wr hc (f := F.LNK_L_STATUS_IDLE (q.lane0 + i)) (by interval_cases i <;> simp [pitchWrites]) _

theorem idleLanes {q : Port} (hc : clearOf (pitchWrites q) K = true) : PitchMoves K p r (q.lanes.foldl (fun s n => s.txIdle n true) s) :=
  PitchMoves.txIdle (h.txIdle hc (show 0 < 2 by decide) true) hc (show 1 < 2 by decide) true

theorem settleLanes (hK : noEvents K = true) {q : Port} (hc : clearOf (pitchWrites q) K = true) : PitchMoves K p r (s.settleLanes q) := by
  have hw := h.wr hc (f := pf q F.ROPE_UP_STATE_LANES) (by simp [pitchWrites]) (s.carryMask q)
  have hs := keptBy_foldl (f := fun t i => if bitAt (s.carryMask q) i && !bitAt (s.rd (pf q F.ROPE_UP_STATE_LANES)) i then
    t.saveFir (q.lane0 + i) else t) [0, 1] hw fun _ _ h => keptBy_ite (PitchMoves.saveFir h _) h
  exact keptBy_ite (PitchMoves.raise hs hK _) hs

theorem clearDones (q : Port) : PitchMoves K p r (s.clearDones q) :=
  keptBy_foldl _ h fun _ _ h => keptBy_ite h (PitchMoves.modPitch h fun _ => ⟨rfl, rfl, rfl, rfl, fun _ hj => getD_set_false hj _⟩)

theorem sendPitchReq (q : Port) (i code : Nat) : PitchMoves K p r (s.sendPitchReq q i code) := by
  unfold State.sendPitchReq
  exact PitchMoves.modPitch (h.ropeOut q i _) fun _ => .refl _

theorem sendDones (q : Port) : PitchMoves K p r (s.sendDones q) :=
  keptBy_foldl _ h fun _ _ h => keptBy_ite (PitchMoves.modPitch (PitchMoves.sendPitchReq h q _ _) fun _ => .refl _) h

theorem startLanes {q : Port} (hc : clearOf (pitchWrites q) K = true) : PitchMoves K p r (s.startLanes q) := by
  have hq := h.wr hc (f := pf q F.ROPE_UP_STATE_QUARTER) (by simp [pitchWrites]) (b2n (s.wantQuarter q))
  have hl := keptBy_foldl_mem (f := fun t i => if t.laneInUse q i then (t.startFir (q.lane0 + i)).txIdle (q.lane0 + i) false else t) [0, 1] hq
    fun _ i hi h => keptBy_ite ((PitchMoves.startFir h hc (lane_of_pair hi)).txIdle hc (lane_of_pair hi) false) h
  exact keptBy_ite hl (h.modPitch fun _ => .refl _)

section
variable {q : Port} (hc : clearOf (pf q F.ROPE_UP_STATE_STATE :: pitchWrites q) K = true)
include hc

omit h in
theorem writes : clearOf (pitchWrites q) K = true := (Bool.and_eq_true_iff.1 hc).2

theorem setPitchState (v : Nat) : PitchMoves K p r (s.setPitchState q v) := h.wr hc (List.mem_cons_self ..) v

theorem pitchMoved : PitchMoves K p r (s.pitchMoved q) := by
  have hclear := h.clearDones q
  have htrain : PitchMoves K p r ((s.clearDones q).enterTrain q) := keptBy_ite (hclear.setPitchState hc 2) hclear
  have hsaid : PitchMoves K p r (((s.clearDones q).enterTrain q).sayDone q) := keptBy_ite (htrain.sendDones q) htrain
  have hhello : PitchMoves K p r ((((s.clearDones q).enterTrain q).sayDone q).enterHello q) := keptBy_ite (hsaid.setPitchState hc 3) hsaid
  exact keptBy_ite (hhello.modPitch fun _ => .refl _) hhello

theorem advancePitch (hK : noEvents K = true) : PitchMoves K p r (s.advancePitch q) := by
  rw [State.advancePitch_eq]
  exact (h.pitchMoved hc).settleLanes hK (writes hc)

theorem lockStart : PitchMoves K p r (s.lockStart q) := by
  unfold State.lockStart
  have hlock := h.setPitchState hc 1
  have hvers := hlock.modPitch (q := q) (f := fun a => { a with versions := s.ownVersions }) fun _ => .refl _
  exact hvers.startLanes (writes hc)

theorem lockPitch (hK : noEvents K = true) : PitchMoves K p r (s.lockPitch q) := by
  rw [State.lockPitch_eq]
  exact keptBy_ite ((h.lockStart hc).advancePitch hc hK) h

end

end PitchMoves

/-! ## From DOWN to LOCK and TRAIN (Table 13-3) -/

/-- What decides whether a pitch leaves DOWN and whether its lanes are aligned. -/
def trainFlds (p : Port) : List Fld :=
  [F.ROPE_STATUS_STRAPPED, F.LNK_L_STATUS_LOCK p.lane0, F.LNK_L_STATUS_LOCK (p.lane0 + 1),
    F.LNK_L_CTRL_PRBS_GEN p.lane0, F.LNK_L_CTRL_PRBS_GEN (p.lane0 + 1), F.LNK_L_CTRL_PRBS_CHK p.lane0,
    F.LNK_L_CTRL_PRBS_CHK (p.lane0 + 1)]

/-- The same with the count of pitches that broke. -/
def countFlds (p : Port) : List Fld := F.ROPE_CNT_COUNT 1 :: trainFlds p

/-- The same with the pitch's state. -/
def stateFlds (p : Port) : List Fld := pf p F.ROPE_UP_STATE_STATE :: countFlds p

theorem countFlds_sub (p : Port) : trainFlds p ⊆ countFlds p := List.subset_cons_self ..
theorem stateFlds_sub (p : Port) : countFlds p ⊆ stateFlds p := List.subset_cons_self ..
theorem trainFlds_sub (p : Port) : trainFlds p ⊆ stateFlds p := fun _ hg => stateFlds_sub p (countFlds_sub p hg)

theorem countFlds_noEvents (p : Port) : noEvents (countFlds p) = true := by cases p <;> decide
theorem stateFlds_noEvents (p : Port) : noEvents (stateFlds p) = true := by cases p <;> decide

theorem trainFlds_clear (p q : Port) : clearOf (pf q F.ROPE_UP_STATE_STATE :: pitchWrites q) (trainFlds p) = true := by
  cases p <;> cases q <;> decide

theorem countFlds_clear (p q : Port) : clearOf (pf q F.ROPE_UP_STATE_STATE :: pitchWrites q) (countFlds p) = true := by
  cases p <;> cases q <;> decide

theorem stateFlds_other (p : Port) : clearOf (pf p.other F.ROPE_UP_STATE_STATE :: pitchWrites p.other) (stateFlds p) = true := by
  cases p <;> decide

theorem stateFlds_own (p : Port) : clearOf (pitchWrites p) (stateFlds p) = true := by cases p <;> decide
theorem stateFlds_messages (p : Port) : clearOf messageFlds (stateFlds p) = true := by cases p <;> decide

section
variable {p : Port} {s t : State}

theorem PitchMoves.state (h : PitchMoves (stateFlds p) p s t) : t.pitchState p = s.pitchState p := h.rd _ (List.mem_cons_self ..)

theorem PitchMoves.usable (h : PitchMoves (trainFlds p) p s t) {i : Nat} (hi : i < 2) :
    t.laneUsable (p.lane0 + i) = s.laneUsable (p.lane0 + i) := by
  have hlock : t.lockOf (p.lane0 + i) = s.lockOf (p.lane0 + i) := h.rd _ (by interval_cases i <;> simp [trainFlds])
  have hgen : t.rd (F.LNK_L_CTRL_PRBS_GEN (p.lane0 + i)) = s.rd _ := h.rd _ (by interval_cases i <;> simp [trainFlds])
  have hchk : t.rd (F.LNK_L_CTRL_PRBS_CHK (p.lane0 + i)) = s.rd _ := h.rd _ (by interval_cases i <;> simp [trainFlds])
  simp only [State.laneUsable, State.aligned, State.rdB, hlock, hgen, hchk, h.rx]

theorem PitchMoves.wantQuarter (h : PitchMoves (trainFlds p) p s t) : t.wantQuarter p = s.wantQuarter p := by
  obtain ⟨-, hlow, -⟩ := h.pitch
  rw [State.wantQuarter, State.wantQuarter, h.pwr, hlow]

theorem PitchMoves.anyAligned (h : PitchMoves (trainFlds p) p s t) : t.anyAligned p = s.anyAligned p := by
  simp only [State.anyAligned, List.any_cons, List.any_nil, State.laneInUse, h.wantQuarter, h.usable (show 0 < 2 by decide),
    h.usable (show 1 < 2 by decide)]

theorem PitchMoves.mayLock (h : PitchMoves (trainFlds p) p s t) : t.mayLock p = s.mayLock p := by
  obtain ⟨hfailed, -⟩ := h.pitch
  have hstrap : t.rd F.ROPE_STATUS_STRAPPED = s.rd _ := h.rd _ (List.mem_cons_self ..)
  simp only [State.mayLock, State.awake, State.rdB, h.pwr, h.released, h.heldDown, hfailed, hstrap]

/-- No lane of the pitch takes part, or none has received lane done: training does not end. -/
def NotDone (s : State) (p : Port) : Prop := s.anyAligned p = false ∨ ∀ i, (s.pitch p).gotDone.getD i false = false

theorem PitchMoves.notDone (h : PitchMoves (trainFlds p) p s t) (hn : NotDone s p) : NotDone t p := by
  obtain ⟨-, -, -, -, hdone⟩ := h.pitch
  exact hn.imp (h.anyAligned.trans ·) fun hn i => hdone i (hn i)

theorem NotDone.trained (h : NotDone s p) : s.trained p = false := by
  unfold State.trained
  rcases h with h | h
  · rw [h]
    rfl
  · have hdone : ∀ i, s.laneDone p i = false := fun i => by rw [State.laneDone, h i, Bool.and_false]
    simp only [State.anyAligned, List.any_cons, List.any_nil, List.all_cons, List.all_nil, hdone]
    cases s.laneUsable (p.lane0 + 0) && s.laneInUse p 0 <;> cases s.laneUsable (p.lane0 + 1) && s.laneInUse p 1 <;> rfl

theorem State.setPitchState_state (s : State) (p : Port) {v : Nat} (hv : v < 8) : (s.setPitchState p v).pitchState p = v := by
  have h : (pf p F.ROPE_UP_STATE_STATE).lo + (pf p F.ROPE_UP_STATE_STATE).len ≤ 32 := by cases p <;> decide
  refine (s.rd_wr_same _ v h).trans ?_
  cases p <;> exact Nat.mod_eq_of_lt hv

/-- A pitch in LOCK moves to TRAIN with an aligned lane, and no further before lane done. -/
theorem State.advancePitch_locked (h1 : s.pitchState p = 1) (hn : NotDone s p) :
    (s.advancePitch p).pitchState p = if s.anyAligned p then 2 else 1 := by
  have hclear := (PitchMoves.refl (stateFlds p) p s).clearDones p
  have htrain : ((s.clearDones p).enterTrain p).pitchState p = if s.anyAligned p then 2 else 1 := by
    unfold State.enterTrain
    rw [hclear.state, h1, (hclear.fewer (trainFlds_sub p)).anyAligned]
    cases s.anyAligned p
    · exact hclear.state.trans h1
    · exact State.setPitchState_state _ p (by decide)
  have hsay : PitchMoves (stateFlds p) p ((s.clearDones p).enterTrain p) (((s.clearDones p).enterTrain p).sayDone p) :=
    keptBy_ite (P := PitchMoves (stateFlds p) p _) ((PitchMoves.refl _ _ _).sendDones p) (.refl _ _ _)
  have hmoved : PitchMoves (trainFlds p) p s (((s.clearDones p).enterTrain p).sayDone p) :=
    PitchMoves.trans (keptBy_ite (P := PitchMoves (trainFlds p) p s) ((hclear.fewer (trainFlds_sub p)).setPitchState (trainFlds_clear p p) 2)
      (hclear.fewer (trainFlds_sub p))) (hsay.fewer (trainFlds_sub p))
  have hhello : (((s.clearDones p).enterTrain p).sayDone p).enterHello p = ((s.clearDones p).enterTrain p).sayDone p :=
    if_neg fun hc => by simp [(hmoved.notDone hn).trained] at hc
  have hend : PitchMoves (stateFlds p) p (((s.clearDones p).enterTrain p).sayDone p) (s.pitchMoved p) := by
    unfold State.pitchMoved
    rw [hhello]
    exact keptBy_ite (P := PitchMoves (stateFlds p) p _) ((PitchMoves.refl _ _ _).modPitch fun _ => .refl _) (.refl _ _ _)
  rw [State.advancePitch_eq, (hend.settleLanes (stateFlds_noEvents p) (stateFlds_own p)).state, hsay.state, htrain]

/-- A pitch in DOWN that may lock moves to LOCK or TRAIN. -/
theorem State.lockPitch_state (h0 : s.pitchState p = 0) (hn : NotDone s p) :
    (s.lockPitch p).pitchState p = if s.mayLock p then (if s.anyAligned p then 2 else 1) else 0 := by
  rw [State.lockPitch_eq]
  cases hm : s.mayLock p
  · rw [if_neg (by simp)]
    exact h0
  · rw [if_pos ⟨h0, rfl⟩, if_pos rfl]
    have hstart : PitchMoves (trainFlds p) p s (s.lockStart p) := (PitchMoves.refl _ _ _).lockStart (trainFlds_clear p p)
    have hlocked : (s.lockStart p).pitchState p = 1 := by
      have hvers : PitchMoves (stateFlds p) p (s.setPitchState p 1) (s.lockStart p) :=
        PitchMoves.startLanes ((PitchMoves.refl _ _ _).modPitch (q := p) (f := fun a => { a with versions := s.ownVersions }) fun _ => .refl _)
          (stateFlds_own p)
      exact hvers.state.trans (State.setPitchState_state s p (by decide))
    rw [State.advancePitch_locked hlocked (hstart.notDone hn), hstart.anyAligned]

theorem State.settleRope_moves (s : State) (p : Port) : PitchMoves (countFlds p) p s s.settleRope :=
  ((PitchMoves.refl _ _ _).lockPitch (countFlds_clear p .up) (countFlds_noEvents p)).lockPitch (countFlds_clear p .dn) (countFlds_noEvents p)

/-- The other port's lock leaves this pitch's state. -/
theorem State.lockOther (s : State) (p : Port) : PitchMoves (stateFlds p) p s (s.lockPitch p.other) :=
  (PitchMoves.refl _ _ _).lockPitch (stateFlds_other p) (stateFlds_noEvents p)

theorem State.settleRope_state (h0 : s.pitchState p = 0) (hn : NotDone s p) :
    s.settleRope.pitchState p = if s.mayLock p then (if s.anyAligned p then 2 else 1) else 0 := by
  cases p
  · exact (State.lockOther (s.lockPitch .up) .up).state.trans (State.lockPitch_state h0 hn)
  · have hup := s.lockOther .dn
    have hmoved := hup.fewer (trainFlds_sub .dn)
    rw [← hmoved.mayLock, ← hmoved.anyAligned]
    exact State.lockPitch_state (hup.state.trans h0) (hmoved.notDone hn)

end


/-! ## A pitch that goes to DOWN (Table 13-3) -/

/-- A pitch reset, but for its requests' numbers and its partner's LOW_POWER. -/
def Pitch.down (failed : Bool) (q : Pitch) : Pitch := { Pitch.reset with failed := failed, reqSeq := q.reqSeq, peerLow := q.peerLow }

/-- The pitch reset and its register word 0. -/
def State.clearPitch (s : State) (p : Port) (failed : Bool) : State := (s.modPitch p (Pitch.down failed)).setWord (pf p ⟨0x80010, 0, 32⟩).off 0

theorem State.dropPitch_eq (s : State) (p : Port) (failed : Bool) : s.dropPitch p failed =
    (s.pitch p).txq.foldl (fun s m => s.dropHop m) (p.lanes.foldl (fun s n => s.txIdle n true) (s.clearPitch p failed)) := by
  cases p <;> rfl

/-- The pitch is down: its word 0, its retry as asked and nothing queued. -/
structure PitchLow (p : Port) (failed : Bool) (t : State) : Prop where
  word : t.word (pf p ⟨0x80010, 0, 32⟩).off = 0
  failed : (t.pitch p).failed = failed
  txq : (t.pitch p).txq = []

section
variable {s : State} {p : Port} {failed : Bool}

theorem PitchLow.state (h : PitchLow p failed s) : s.pitchState p = 0 := by
  have hw : s.word (pf p F.ROPE_UP_STATE_STATE).off = 0 := by cases p <;> exact h.word
  unfold State.pitchState State.rd
  rw [hw]
  cases p <;> rfl

theorem PitchLow.other {t : State} (h : PitchLow p failed s) (hr : t.regs = s.regs) (hp : t.rope = s.rope) : PitchLow p failed t := by
  have hpitch : t.pitch p = s.pitch p := by simp only [State.pitch, hp]
  exact ⟨by rw [State.word, hr]; exact h.word, by rw [hpitch]; exact h.failed, by rw [hpitch]; exact h.txq⟩

theorem PitchLow.wr (h : PitchLow p failed s) (f : Fld) (v : Nat) (hf : f.off ≠ (pf p ⟨0x80010, 0, 32⟩).off) : PitchLow p failed (s.wr f v) :=
  ⟨(s.word_wr_ne f v hf.symm).trans h.word, h.failed, h.txq⟩

theorem PitchLow.raise (h : PitchLow p failed s) (e : Nat) : PitchLow p failed (s.raise e) := by
  have hpitch : (s.raise e).pitch p = s.pitch p := by simp only [State.pitch, State.raise_rope]
  exact ⟨(s.raise_word e (by cases p <;> rfl)).trans h.word, by rw [hpitch]; exact h.failed, by rw [hpitch]; exact h.txq⟩

theorem PitchLow.freeBlocks (h : PitchLow p failed s) (o : Port) (mail : Bool) (b : Nat) : PitchLow p failed (s.freeBlocks o mail b) := by
  refine ⟨(congrArg (cellGet resetWord · _) (s.freeBlocks_wire o mail b).regs).trans h.word, ?_, ?_⟩ <;> unfold State.freeBlocks <;>
    by_cases hp : p = o
  · subst hp
    rw [State.pitch_modPitch_same]
    exact h.failed
  · rw [State.pitch_modPitch_ne _ _ hp]
    exact h.failed
  · subst hp
    rw [State.pitch_modPitch_same]
    exact h.txq
  · rw [State.pitch_modPitch_ne _ _ hp]
    exact h.txq

theorem PitchLow.dropHop (h : PitchLow p failed s) (m : HopMsg) : PitchLow p failed (s.dropHop m) := by
  have hfree : PitchLow p failed (s.freeSource m) := by
    unfold State.freeSource
    split
    · exact h.freeBlocks _ _ _
    · exact h
  have hmail : PitchLow p failed (s.freeSource m).mailDrop :=
    (hfree.wr (F.ROPE_CNT_COUNT 2) _ (by cases p <;> decide)).raise _
  exact keptBy_ite hmail hfree

theorem State.clearPitch_low (s : State) (p : Port) (failed : Bool) : PitchLow p failed (s.clearPitch p failed) := by
  have hpitch : (s.clearPitch p failed).pitch p = Pitch.down failed (s.pitch p) := s.pitch_modPitch_same p _
  exact ⟨State.word_setWord_same _ _ _, by rw [hpitch]; rfl, by rw [hpitch]; rfl⟩

theorem PitchLow.txIdle (h : PitchLow p failed s) {n : Nat} (idle : Bool) : PitchLow p failed (s.txIdle n idle) := by
  rw [State.txIdle_eq]
  have hl : PitchLow p failed (s.modLane n fun l => { l with tx := s.idledTx n, txIdle := idle }) := h.other rfl rfl
  refine hl.wr (F.LNK_L_STATUS_IDLE n) _ ?_
  have : (F.LNK_L_STATUS_IDLE n).off = 0xF1004 + 0x40 * n := rfl
  cases p <;> simp only [pf] <;> omega

theorem State.dropPitch_low (s : State) (p : Port) (failed : Bool) : PitchLow p failed (s.dropPitch p failed) := by
  rw [State.dropPitch_eq]
  exact keptBy_foldl _ (keptBy_foldl _ (s.clearPitch_low p failed) fun _ _ h => h.txIdle true) fun _ m h => h.dropHop m

theorem State.dropHop_lanes (s : State) (m : HopMsg) : (s.dropHop m).lanes = s.lanes := by
  have hfree : (s.freeSource m).lanes = s.lanes := by
    unfold State.freeSource
    split
    · unfold State.freeBlocks
      rename_i o _
      cases o <;> rfl
    · rfl
  exact reads_ite (g := State.lanes) (c := m.mail = true) ((State.raise_lanes _ _).trans hfree) hfree

theorem laneTx_rope {p : Port} {n : Nat} (hn : n ∈ p.lanes) : laneTx n = true := by
  cases p <;> simp only [Port.lanes, List.mem_cons, List.not_mem_nil, or_false] at hn <;> rcases hn with rfl | rfl <;> rfl

/-- The lanes of a dropped pitch send electrical idle. -/
theorem State.dropPitch_idle (hs : s.shaped = true) {n : Nat} (hn : n ∈ p.lanes) : ((s.dropPitch p failed).lane n).txIdle = true := by
  have hlanes : (s.dropPitch p failed).lanes = (p.lanes.foldl (fun s n => s.txIdle n true) (s.clearPitch p failed)).lanes := by
    rw [State.dropPitch_eq]
    exact keptBy_foldl (P := fun t => t.lanes = _) _ rfl fun t m h => (t.dropHop_lanes m).trans h
  have hlen : n < (s.clearPitch p failed).lanes.length := by
    have hl : (s.clearPitch p failed).lanes = s.lanes := by cases p <;> rfl
    rw [hl, State.shaped_lanes hs]
    cases p <;> simp [Port.lanes, Port.lane0] at hn <;> omega
  rw [State.lane_of_lanes hlanes]
  refine (foldl_txIdle ?_ hn hlen (laneTx_rope hn)).1
  cases p <;> decide

/-- With nothing queued the pitch is reset, and the other is as it was. -/
theorem State.dropPitch_empty (hq : (s.pitch p).txq = []) :
    (s.dropPitch p failed).pitch p = Pitch.down failed (s.pitch p) ∧ (s.dropPitch p failed).pitch p.other = s.pitch p.other := by
  have hrope : (s.dropPitch p failed).rope = (s.modPitch p (Pitch.down failed)).rope := by
    rw [State.dropPitch_eq, hq, List.foldl_nil]
    refine keptBy_foldl (P := fun t => t.rope = (s.modPitch p (Pitch.down failed)).rope) _ rfl fun t n h => ?_
    rw [State.txIdle_eq]
    exact h
  have hp : ∀ q, (s.dropPitch p failed).pitch q = (s.modPitch p (Pitch.down failed)).pitch q := fun q => by
    simp only [State.pitch, hrope]
  exact ⟨(hp p).trans (s.pitch_modPitch_same p _), (hp _).trans (s.pitch_modPitch_ne _ (otherPort_ne p))⟩

/-- A pitch that was not in UP fails (Table 13-3). -/
theorem State.pitchDown_failed (hup : s.pitchUp p = false) : PitchFailed s p (s.pitchDown p true .quiet) := by
  have hdown : s.pitchDown p true .quiet = s.dropPitch p true := by
    unfold State.pitchDown
    simp [hup]
  obtain hlow := s.dropPitch_low p true
  rw [hdown]
  refine ⟨hlow.state, ?_, hlow.failed, hlow.txq, State.dropPitch_empty, fun hs n hn => State.dropPitch_idle hs hn⟩
  cases p <;> exact hlow.word

/-- An event changes nothing of a failed pitch. -/
theorem PitchFailed.raise {t : State} (h : PitchFailed s p t) (e : Nat) : PitchFailed s p (t.raise e) := by
  obtain ⟨hstate, hword, hfailed, htxq, hempty, hidle⟩ := h
  have hpitch : ∀ q, (t.raise e).pitch q = t.pitch q := fun q => by simp only [State.pitch, State.raise_rope]
  refine ⟨(t.raise_rd e (by cases p <;> rfl)).trans hstate, ?_, ?_, ?_, ?_, ?_⟩
  · exact (t.raise_word e (by cases p <;> rfl)).trans hword
  · rwa [hpitch]
  · rwa [hpitch]
  · rwa [hpitch, hpitch]
  · intro hs n hn
    rw [State.lane_of_lanes (t.raise_lanes e)]
    exact hidle hs n hn

end


/-! ## A pitch in UP that breaks -/

section
variable {s : State} {p : Port}

/-- Dropping a pitch moves nothing else that training goes by. -/
theorem State.dropPitch_moves (s : State) (p : Port) (failed : Bool) :
    PitchMoves (countFlds p) p (s.modPitch p (Pitch.down failed)) (s.dropPitch p failed) := by
  have hclear : PitchMoves (countFlds p) p (s.modPitch p (Pitch.down failed)) (s.clearPitch p failed) := by
    rw [State.clearPitch, State.setWord_eq_wr]
    exact (PitchMoves.refl _ _ _).wr (W := [pf p ⟨0x80010, 0, 32⟩]) (by cases p <;> decide) (by cases p <;> decide) _
  have hidle := hclear.idleLanes (q := p) (by cases p <;> decide)
  rw [State.dropPitch_eq]
  exact keptBy_foldl _ hidle fun _ m h =>
    (PitchMoves.messages (countFlds_noEvents p) (by cases p <;> decide)).dropHop m h

/-- Resetting a pitch leaves which lanes count as aligned. -/
theorem State.anyAligned_down (s : State) (p : Port) (failed : Bool) :
    (s.modPitch p (Pitch.down failed)).anyAligned p = s.anyAligned p := by cases p <;> rfl

theorem State.mayLock_down (s : State) (p : Port) : (s.modPitch p (Pitch.down false)).mayLock p = MayLock s p := by
  cases p <;> simp [State.mayLock, MayLock, State.modPitch, State.pitch, Pitch.down, State.awake, State.rdB, State.rd, State.word]

theorem State.notDone_down (s : State) (p : Port) (failed : Bool) : NotDone (s.modPitch p (Pitch.down failed)) p := by
  refine .inr fun i => ?_
  rw [State.pitch_modPitch_same]
  rcases i with _ | _ | i <;> rfl

/-- A pitch that broke, counted and announced. -/
def State.brokenPitch (s : State) (p : Port) : State := ((s.dropPitch p false).bump (F.ROPE_CNT_COUNT 1)).raise Ev.ROPE_PITCH_DOWN

theorem State.pitchDown_break (hup : s.pitchUp p = true) : s.pitchDown p false .break = (s.brokenPitch p).afterUp p := by
  unfold State.pitchDown State.brokenPitch
  simp [hup]

theorem State.brokenPitch_moves (s : State) (p : Port) :
    PitchMoves (trainFlds p) p (s.modPitch p (Pitch.down false)) (s.brokenPitch p) := by
  have hdrop := (s.dropPitch_moves p false).fewer (countFlds_sub p)
  exact (hdrop.wr (W := [F.ROPE_CNT_COUNT 1]) (by cases p <;> decide) (List.mem_cons_self ..) _).raise (by cases p <;> decide) _

theorem State.brokenPitch_low (s : State) (p : Port) : PitchLow p false (s.brokenPitch p) :=
  ((s.dropPitch_low p false).wr (F.ROPE_CNT_COUNT 1) _ (by cases p <;> decide)).raise _

theorem State.brokenPitch_count (s : State) (p : Port) :
    (s.brokenPitch p).rd (F.ROPE_CNT_COUNT 1) = min (s.rd (F.ROPE_CNT_COUNT 1) + 1) (2 ^ 32 - 1) := by
  have hdrop : (s.dropPitch p false).rd (F.ROPE_CNT_COUNT 1) = s.rd (F.ROPE_CNT_COUNT 1) :=
    ((s.dropPitch_moves p false).rd _ (List.mem_cons_self ..)).trans (by cases p <;> rfl)
  rw [State.brokenPitch, State.raise_rd _ _ (by decide), ← hdrop]
  exact State.rd_bump_same _ _ 1 (by decide)

/-- A pitch in UP that is taken down and settled broke (Table 13-3). -/
theorem State.pitchDown_broken (hup : s.pitchUp p = true) (hev : s.hasEvents = true) :
    PitchBroken s p (s.pitchDown p false .break).settleRope := by
  have hafter : PitchMoves (stateFlds p) p (s.brokenPitch p) ((s.brokenPitch p).afterUp p) :=
    (PitchMoves.messages (stateFlds_noEvents p) (stateFlds_messages p)).afterUp p (.refl _ _ _)
  have htrain := (s.brokenPitch_moves p).trans (hafter.fewer (trainFlds_sub p))
  have hsettle := ((s.brokenPitch p).afterUp p).settleRope_moves p
  have hkept := (hafter.fewer (stateFlds_sub p)).trans hsettle
  obtain ⟨hfailed, -⟩ := hkept.pitch
  have hraised : Raised Ev.ROPE_PITCH_DOWN (s.brokenPitch p) := by
    refine State.raised _ rfl ?_
    have hpwr : ((s.dropPitch p false).bump (F.ROPE_CNT_COUNT 1)).pwr = s.pwr :=
      (s.dropPitch_moves p false).pwr.trans (by cases p <;> rfl)
    rw [State.hasEvents_of_pwr hpwr]
    exact hev
  rw [State.pitchDown_break hup]
  refine ⟨(hkept.rd _ (List.mem_cons_self ..)).trans (s.brokenPitch_count p), hkept.raised _ (by decide) hraised,
    hfailed.trans (s.brokenPitch_low p).failed, ?_⟩
  rw [State.settleRope_state (hafter.state.trans (s.brokenPitch_low p).state) (htrain.notDone (s.notDone_down p false)),
    htrain.mayLock, htrain.anyAligned, State.mayLock_down, State.anyAligned_down]

end

end Sys2Proof.Machine
end

section
/-!
PROOFS. Training requests of a pitch (R344).
-/
namespace Sys2Proof.Machine

/-! ## What an answered training request keeps as the pitch moves on (R344) -/

/-- As the pitch of `p` moves on, lane `l` keeps the precoding asked for and, where `u` says that it is
usable, its lane done received; and what was sent stays sent. -/
structure AckKept (u : Bool) (p : Port) (l : Nat) (s t : State) : Prop where
  asked : t.preAsked (p.lane0 + l) = s.preAsked (p.lane0 + l)
  got : u = true → (s.pitch p).gotDone.getD l false = true → (t.pitch p).gotDone.getD l false = true
  out : ∀ o ∈ s.out, o ∈ t.out

namespace AckKept

theorem refl (u : Bool) (p : Port) (l : Nat) (s : State) : AckKept u p l s s := ⟨rfl, fun _ => id, fun _ h => h⟩

variable {u : Bool} {p : Port} {l : Nat} {r s : State} (h : AckKept u p l r s)
include h

theorem trans {t : State} (k : AckKept u p l s t) : AckKept u p l r t :=
  ⟨k.asked.trans h.asked, fun hu => k.got hu ∘ h.got hu, fun o ho => k.out o (h.out o ho)⟩

theorem wr (f : Fld) (v : Nat) : AckKept u p l r (s.wr f v) := h.trans ⟨rfl, fun _ => id, fun _ ho => ho⟩

theorem raise (e : Nat) : AckKept u p l r (s.raise e) := by
  obtain ⟨later, hlater⟩ := (s.raise_events e).sent
  refine h.trans ⟨State.preAsked_of_lanes (s.raise_lanes e) _, ?_, fun o ho => ?_⟩
  · simp only [State.pitch, State.raise_rope]
    exact fun _ => id
  · rw [hlater]
    exact List.mem_append_right _ ho

theorem modPitch {f : Pitch → Pitch} (hf : ∀ a : Pitch, a.gotDone.getD l false = true → (f a).gotDone.getD l false = true) :
    AckKept u p l r (s.modPitch p f) := by
  refine h.trans ⟨?_, ?_, ?_⟩
  · exact State.preAsked_of_lanes (by cases p <;> rfl) _
  · rw [State.pitch_modPitch_same]
    exact fun _ => hf _
  · rw [State.modPitch_out]
    exact fun _ ho => ho

theorem ropeOut (i : Nat) (msg : List Byte) : AckKept u p l r (s.ropeOut p i msg) := by
  have hsent : ∀ t : State, t.preAsked (p.lane0 + l) = s.preAsked (p.lane0 + l) → t.rope = s.rope → t.out = s.out →
      AckKept u p l s (t.emit (.rope p i msg)) := fun t ha hr ho =>
    ⟨ha, by simp only [State.pitch]; rw [show (t.emit (.rope p i msg)).rope = s.rope from hr]; exact fun _ => id,
      fun o hm => List.mem_cons_of_mem _ (ho ▸ hm)⟩
  exact h.trans (keptBy_ite (hsent _ (s.txBlocks_asked _ _ _) rfl rfl) (.refl u p l s))

theorem saveFir (n : Nat) : AckKept u p l r (s.saveFir n) :=
  h.trans (keptBy_ite (P := AckKept u p l s) ⟨s.preAsked_modLane n _ fun _ _ => rfl, fun _ => id, fun _ ho => ho⟩
    ⟨s.preAsked_modLane n _ fun _ _ => rfl, fun _ => id, fun _ ho => ho⟩)

theorem settleLanes : AckKept u p l r (s.settleLanes p) := by
  have hw := h.wr (pf p F.ROPE_UP_STATE_LANES) (s.carryMask p)
  have hs := keptBy_foldl (f := fun t i => if bitAt (s.carryMask p) i && !bitAt (s.rd (pf p F.ROPE_UP_STATE_LANES)) i then
    t.saveFir (p.lane0 + i) else t) [0, 1] hw fun _ _ h => keptBy_ite (AckKept.saveFir h _) h
  exact keptBy_ite (hs.raise _) hs

theorem sendPitchReq (i code : Nat) : AckKept u p l r (s.sendPitchReq p i code) := by
  unfold State.sendPitchReq
  exact AckKept.modPitch (h.ropeOut i _) fun _ hg => hg

theorem sendDones : AckKept u p l r (s.sendDones p) := by
  refine keptBy_foldl _ h fun t i h => keptBy_ite ?_ h
  refine AckKept.modPitch (AckKept.sendPitchReq h i 0x30) fun _ hg => hg

end AckKept

section
variable {p : Port} {l : Nat} {s : State}

/-- Lane done received stays on a usable lane. -/
theorem State.clearDones_ack (s : State) (p : Port) (hl : l < 2) :
    AckKept (s.laneUsable (p.lane0 + l)) p l s (s.clearDones p) := by
  have h : PitchMoves (trainFlds p) p s (s.clearDones p) ∧ AckKept (s.laneUsable (p.lane0 + l)) p l s (s.clearDones p) := by
    unfold State.clearDones
    refine keptBy_foldl (P := fun t => PitchMoves (trainFlds p) p s t ∧ AckKept _ p l s t) _ ⟨.refl _ _ _, .refl _ _ _ _⟩ fun t i h => ?_
    obtain ⟨hm, hk⟩ := h
    by_cases hi : t.laneUsable (p.lane0 + i) = true
    · rw [if_pos hi]
      exact ⟨hm, hk⟩
    · rw [if_neg hi]
      refine ⟨hm.modPitch fun _ => ⟨rfl, rfl, rfl, rfl, fun _ hj => getD_set_false hj _⟩, hk.trans ⟨?_, fun hu hg => ?_, ?_⟩⟩
      · exact State.preAsked_of_lanes (by cases p <;> rfl) _
      · have hne : i ≠ l := fun he => hi (by rw [he, hm.usable hl, hu])
        rw [State.pitch_modPitch_same]
        simpa [List.getD_eq_getElem?_getD, List.getElem?_set_ne hne] using hg
      · rw [State.modPitch_out]
        exact fun _ ho => ho
  exact h.2

theorem State.advancePitch_ack (s : State) (p : Port) (hl : l < 2) :
    AckKept (s.laneUsable (p.lane0 + l)) p l s (s.advancePitch p) := by
  have hclear := s.clearDones_ack p hl
  have htrain : AckKept _ p l s ((s.clearDones p).enterTrain p) := keptBy_ite (hclear.wr _ 2) hclear
  have hsaid : AckKept _ p l s (((s.clearDones p).enterTrain p).sayDone p) := keptBy_ite htrain.sendDones htrain
  have hhello : AckKept _ p l s ((((s.clearDones p).enterTrain p).sayDone p).enterHello p) := keptBy_ite (hsaid.wr _ 3) hsaid
  have hmoved : AckKept _ p l s (s.pitchMoved p) := keptBy_ite (hhello.modPitch fun _ hg => hg) hhello
  rw [State.advancePitch_eq]
  exact hmoved.settleLanes

/-- What a request of a pitch does to its lane. -/
def State.pitchAsked (s : State) (p : Port) (i : Nat) (msg : List Byte) : Nat × State :=
  s.applyTrain (p.lane0 + i) (byteAt msg 2) (byteAt msg 3) (bitAt (s.pitch p).versions 1 && bitAt (byteAt msg 4) 1)

/-- The request is acknowledged. -/
def State.pitchAcked (s : State) (p : Port) (i : Nat) (msg : List Byte) : State :=
  (s.pitchAsked p i msg).2.ropeOut p i
    ((s.pitchAsked p i msg).2.ackBytes 0x51 (16 * i) (p.lane0 + i) (byteAt msg 2) (s.pitchAsked p i msg).1)

/-- Lane done is noted. -/
def State.pitchTold (s : State) (p : Port) (i : Nat) (msg : List Byte) : State :=
  if byteAt msg 3 = 0x30 then (s.pitchAcked p i msg).modPitch p fun q => { q with gotDone := q.gotDone.set i true }
  else s.pitchAcked p i msg

theorem State.onPitchReq_eq (s : State) (p : Port) (i : Nat) (msg : List Byte) : s.onPitchReq p i msg = (s.pitchTold p i msg).advancePitch p := rfl

theorem State.pitchAsked_kept (s : State) (p : Port) (i : Nat) (msg : List Byte) : TrainKept (p.lane0 + i) s (s.pitchAsked p i msg).2 :=
  s.applyTrain_kept ..

theorem State.pitchAsked_moves (s : State) (p : Port) (i : Nat) (msg : List Byte) :
    PitchMoves (trainFlds p) p s (s.pitchAsked p i msg).2 := by
  have hk := s.pitchAsked_kept p i msg
  have hrope : (s.pitchAsked p i msg).2.rope = s.rope := (congrArg State.rope hk.rest :)
  refine ⟨fun g hg => State.rd_of_word (hk.words _ ?_), fun m => (hk.idle m).2, (congrArg State.pwr hk.rest :), by rw [hrope], by rw [hrope], ?_,
    fun src hs hr => (State.rd_of_word (hk.words _ ?_)).trans hr⟩
  · simp only [trainFlds, List.mem_cons, List.not_mem_nil, or_false] at hg
    rcases hg with rfl | rfl | rfl | rfl | rfl | rfl | rfl <;> simp only [F.ROPE_STATUS_STRAPPED, F.LNK_L_STATUS_LOCK,
      F.LNK_L_CTRL_PRBS_GEN, F.LNK_L_CTRL_PRBS_CHK] <;> omega
  · simp only [State.pitch, hrope]
    exact .refl _
  · simp only [evtStatusFld]
    omega

theorem State.pitchTold_shows (s : State) (p : Port) (i : Nat) (msg : List Byte) :
    (s.pitchTold p i msg).regs = (s.pitchAcked p i msg).regs ∧ (s.pitchTold p i msg).lanes = (s.pitchAcked p i msg).lanes ∧
      (s.pitchTold p i msg).out = (s.pitchAcked p i msg).out := by
  unfold State.pitchTold
  split
  · cases p <;> exact ⟨rfl, rfl, rfl⟩
  · exact ⟨rfl, rfl, rfl⟩

theorem State.laneUsable_of {s t : State} (hr : t.regs = s.regs) (hl : t.lanes = s.lanes) (n : Nat) : t.laneUsable n = s.laneUsable n := by
  simp only [State.laneUsable, State.aligned, State.lockOf, State.rdB, State.rd_of_regs hr, State.lane_of_lanes hl]

/-- A request is answered, acknowledged where the lane sends blocks, and lane done noted. -/
theorem State.pitchTold_answers (msg : List Byte) (hlane : p.lane0 + l < s.lanes.length) (hdone : l < (s.pitch p).gotDone.length) :
    ∃ result, TrainAnswer s (s.pitchTold p l msg) (p.lane0 + l) (byteAt msg 2) (byteAt msg 3)
        (bitAt (s.pitch p).versions 1 && bitAt (byteAt msg 4) 1) result ∧
      (s.txLive (p.lane0 + l) = true →
        .rope p l (trainAck (s.pitchTold p l msg) 0x51 (16 * l) (p.lane0 + l) (byteAt msg 2) result) ∈ (s.pitchTold p l msg).out) ∧
      (byteAt msg 3 = 0x30 → ((s.pitchTold p l msg).pitch p).gotDone.getD l false = true) := by
  obtain ⟨hregs, hlanes, hout⟩ := s.pitchTold_shows p l msg
  have hk := s.pitchAsked_kept p l msg
  have hfir : (s.pitchTold p l msg).word (0xF1008 + 0x40 * (p.lane0 + l)) = (s.pitchAsked p l msg).2.word (0xF1008 + 0x40 * (p.lane0 + l)) := by
    rw [State.word, hregs, State.pitchAcked, (State.ropeOut_wire _ _ _ _).regs]
    rfl
  have hasked : (s.pitchTold p l msg).preAsked (p.lane0 + l) = (s.pitchAsked p l msg).2.preAsked (p.lane0 + l) :=
    (State.preAsked_of_lanes hlanes _).trans ((AckKept.refl false p l _).ropeOut l _).asked
  refine ⟨(s.pitchAsked p l msg).1, trainAnswer_of hfir hasked (State.applyTrain_answers hlane), fun hlive => ?_, fun hcode => ?_⟩
  · rw [hout, State.pitchAcked, State.ropeOut_out, if_pos ((hk.txLive _).trans hlive), ← trainAck_of hfir hasked]
    exact List.mem_cons_self ..
  · have hpitch : (s.pitchAcked p l msg).pitch p = s.pitch p := by
      have hrope : (s.pitchAsked p l msg).2.rope = s.rope := (congrArg State.rope hk.rest :)
      simp only [State.pitch, State.pitchAcked, State.ropeOut_rope, hrope]
    rw [State.pitchTold, if_pos hcode, State.pitch_modPitch_same, hpitch]
    simp [List.getD_eq_getElem?_getD, hdone]

/-- A training request of a pitch (R344). -/
theorem State.onPitchReq_answers (msg : List Byte) (hl : l < 2) (hlane : p.lane0 + l < s.lanes.length)
    (hdone : l < (s.pitch p).gotDone.length) :
    ∃ result, TrainAnswer s (s.onPitchReq p l msg) (p.lane0 + l) (byteAt msg 2) (byteAt msg 3)
        (bitAt (s.pitch p).versions 1 && bitAt (byteAt msg 4) 1) result ∧
      (s.txLive (p.lane0 + l) = true → .rope p l (trainAck (s.onPitchReq p l msg) 0x51 (16 * l) (p.lane0 + l) (byteAt msg 2) result) ∈
        (s.onPitchReq p l msg).out) ∧
      (byteAt msg 3 = 0x30 → s.laneUsable (p.lane0 + l) = true → ((s.onPitchReq p l msg).pitch p).gotDone.getD l false = true) := by
  obtain ⟨result, hanswer, hack, hgot⟩ := State.pitchTold_answers msg hlane hdone
  obtain ⟨hregs, hlanes, -⟩ := s.pitchTold_shows p l msg
  have hkept := (s.pitchTold p l msg).advancePitch_ack p hl
  have hfir : (s.onPitchReq p l msg).word (0xF1008 + 0x40 * (p.lane0 + l)) =
      (s.pitchTold p l msg).word (0xF1008 + 0x40 * (p.lane0 + l)) := by
    refine ((RxKept.refl (s.pitchTold p l msg)).advancePitch p).words _ ?_
    cases p <;> simp only [Port.lane0] <;> omega
  have husable : (s.pitchTold p l msg).laneUsable (p.lane0 + l) = s.laneUsable (p.lane0 + l) :=
    (State.laneUsable_of hregs hlanes _).trans (((s.pitchAsked_moves p l msg).ropeOut p l _).usable hl)
  refine ⟨result, trainAnswer_of hfir hkept.asked hanswer, fun hlive => ?_, fun hcode hu => hkept.got (husable.trans hu) (hgot hcode)⟩
  rw [← trainAck_of hfir hkept.asked, State.onPitchReq_eq]
  have hbytes : (s.pitchTold p l msg).ackBytes 0x51 (16 * l) (p.lane0 + l) (byteAt msg 2) result =
    trainAck (s.pitchTold p l msg) 0x51 (16 * l) (p.lane0 + l) (byteAt msg 2) result := trainAck_of rfl rfl ..
  rw [hbytes]
  exact hkept.out _ (hack hlive)

end
end Sys2Proof.Machine
end

section
/-!
PROOFS. HELLO and the entry of a pitch into UP (R343, R345, R353).
-/
namespace Sys2Proof.Machine

/-! ## HELLO and UP (R343, R345) -/

section
variable {p : Port} {s : State}

/-- Retraining at the other rate leaves what the pitch's register tells beyond its lanes (R348). -/
theorem State.checkRate_moves {K : List Fld} (s : State) (p : Port) (hK : noEvents K = true) (hc : clearOf (pitchWrites p) K = true) :
    PitchMoves K p s (s.checkRate p) := by
  have hdones : ∀ i, ([false, false] : List Bool).getD i false = false := fun i => by rcases i with _ | _ | i <;> rfl
  have hheld := (PitchMoves.refl K p s).modPitch (q := p)
    (f := fun q => { q with retrain := true, dwell := true, sentDone := [false, false], gotDone := [false, false] })
    fun _ => ⟨rfl, rfl, rfl, rfl, fun i _ => hdones i⟩
  exact keptBy_ite (P := PitchMoves K p s) ((hheld.idleLanes hc).settleLanes hK hc) (.refl _ _ _)

/-- What a HELLO tells is read in the pitch's register. -/
theorem State.peerFields_addr (s : State) (p : Port) (msg : List Byte) :
    (s.peerFields p msg).rd (pf p F.ROPE_UP_STATE_PEER_ADDR) = byteAt msg 6 := by
  have h : ∀ t : State, (t.wr (pf p F.ROPE_UP_STATE_PEER_ADDR) (byteAt msg 6)).rd (pf p F.ROPE_UP_STATE_PEER_ADDR) = byteAt msg 6 := fun t => by
    refine (t.rd_wr_same _ _ (by cases p <;> decide)).trans ?_
    cases p <;> exact Nat.mod_eq_of_lt (byteAt_lt msg 6)
  exact h _

theorem State.peerFields_pitch (s : State) (p : Port) (msg : List Byte) : (s.peerFields p msg).pitch p =
    { s.pitch p with peerLow := bitAt (byteAt msg 2) 1, peerCtrl := byteAt msg 3, peerMail := leAt msg 4 2 } := by cases p <;> rfl

theorem State.peerFields_pwr (s : State) (p : Port) (msg : List Byte) : (s.peerFields p msg).pwr = s.pwr := by cases p <;> rfl

theorem State.peerFields_state (s : State) (p : Port) (msg : List Byte) : (s.peerFields p msg).pitchState p = s.pitchState p := by
  unfold State.peerFields State.pitchState
  rw [State.rd_wr_ne _ _ _ _ (by cases p <;> decide) (by cases p <;> decide), State.wrB,
    State.rd_wr_ne _ _ _ _ (by cases p <;> decide) (by cases p <;> decide)]
  cases p <;> rfl

theorem State.peerFields_strapped (s : State) (p : Port) (msg : List Byte) :
    (s.peerFields p msg).rd F.ROPE_STATUS_STRAPPED = s.rd F.ROPE_STATUS_STRAPPED := by
  unfold State.peerFields
  rw [State.rd_wr_ne _ _ _ _ (by cases p <;> decide) (by cases p <;> decide), State.wrB,
    State.rd_wr_ne _ _ _ _ (by cases p <;> decide) (by cases p <;> decide)]
  cases p <;> rfl

/-- A pitch in UP with its version. -/
def State.upState (s : State) (p : Port) (ver : Nat) : State := (s.setPitchState p 4).wr (pf p F.ROPE_UP_STATE_VERSION) ver

/-- Its counts started and its carrying lanes settled. -/
def State.upSettled (s : State) (p : Port) (ver : Nat) : State :=
  State.settleLanes (p.lanes.foldl (fun s n => if s.aligned n then s.saveFir n else s)
    ((s.upState p ver).modPitch p fun q =>
      { q with sent := [0, 0], freed := [0, 0], recv := [0, 0], peerFreed := [0, 0], belayDue := [false, false], txq := [] })) p

/-- The UP port makes the tile stop being head, unless it is strapped (R353); the DN port enumerates (R354). -/
def State.takePlace (s : State) (p : Port) : State :=
  match p with
  | .up =>
    if s.rdB F.ROPE_STATUS_STRAPPED then { s with rope := { s.rope with enumSeen := false } }
    else (((({ s with rope := { s.rope with enumSeen := false } } : State).wrB F.ROPE_STATUS_HEAD false).setAddress 0)).settleRole
  | .dn => if s.ropeAddr = 0 then s else s.sendEnum

theorem State.enterUp_eq (s : State) (p : Port) (ver : Nat) :
    s.enterUp p ver = ((s.upSettled p ver).raise Ev.ROPE_PITCH_UP).takePlace p := by cases p <;> rfl

/-- What an entry into UP shows of the pitch. -/
def upFlds (p : Port) : List Fld := [pf p F.ROPE_UP_STATE_STATE, pf p F.ROPE_UP_STATE_VERSION, pf p F.ROPE_UP_STATE_PEER_ADDR]

theorem upFlds_noEvents (p : Port) : noEvents (upFlds p) = true := by cases p <;> decide

theorem upFlds_own (p : Port) : clearOf (pitchWrites p) (upFlds p) = true := by cases p <;> decide

theorem State.upState_state (s : State) (p : Port) (ver : Nat) : (s.upState p ver).pitchState p = 4 :=
  (State.rd_wr_ne _ _ _ _ (by cases p <;> decide) (by cases p <;> decide)).trans (s.setPitchState_state p (by decide))

theorem State.upState_ver (s : State) (p : Port) {ver : Nat} (hv : ver < 4) : (s.upState p ver).pitchVer p = ver := by
  refine (State.rd_wr_same _ _ _ (by cases p <;> decide)).trans ?_
  cases p <;> exact Nat.mod_eq_of_lt hv

theorem State.upState_moves (s : State) (p : Port) (ver : Nat) :
    PitchMoves [pf p F.ROPE_UP_STATE_PEER_ADDR, F.ROPE_STATUS_STRAPPED] p s (s.upState p ver) :=
  let W := [pf p F.ROPE_UP_STATE_STATE, pf p F.ROPE_UP_STATE_VERSION]
  have hc : clearOf W [pf p F.ROPE_UP_STATE_PEER_ADDR, F.ROPE_STATUS_STRAPPED] = true := by cases p <;> decide
  ((PitchMoves.refl _ _ s).wr hc (f := pf p F.ROPE_UP_STATE_STATE) (List.mem_cons_self ..) 4).wr hc
    (f := pf p F.ROPE_UP_STATE_VERSION) (List.mem_cons_of_mem _ (List.mem_cons_self ..)) ver

theorem State.upSettled_moves (s : State) (p : Port) (ver : Nat) :
    PitchMoves (F.ROPE_STATUS_STRAPPED :: upFlds p) p (s.upState p ver) (s.upSettled p ver) := by
  have hcounts := (PitchMoves.refl (F.ROPE_STATUS_STRAPPED :: upFlds p) p (s.upState p ver)).modPitch (q := p)
    (f := fun q => { q with sent := [0, 0], freed := [0, 0], recv := [0, 0], peerFreed := [0, 0], belayDue := [false, false], txq := [] })
    fun _ => .refl _
  have hsaved := keptBy_foldl (f := fun t n => if t.aligned n then t.saveFir n else t) p.lanes hcounts
    fun _ _ h => keptBy_ite (PitchMoves.saveFir h _) h
  exact hsaved.settleLanes (by cases p <;> decide) (by cases p <;> decide)

/-- Taking its place keeps the pitch in UP. -/
theorem State.takePlace_moves (s : State) (p : Port) : PitchMoves (upFlds p) p s (s.takePlace p) := by
  have hm : MessageClosed (PitchMoves (upFlds p) p s) := PitchMoves.messages (upFlds_noEvents p) (by cases p <;> decide)
  unfold State.takePlace
  cases p with
  | up =>
    have hseen : PitchMoves (upFlds .up) .up s { s with rope := { s.rope with enumSeen := false } } :=
      (PitchMoves.refl _ _ s).other rfl rfl rfl rfl rfl (.refl _)
    exact keptBy_ite hseen (hm.settleRole (hm.setAddress 0 (hm.wr _ (by decide) hseen)))
  | dn => exact keptBy_ite (PitchMoves.refl _ _ s) (hm.originate _ _ (.refl _ _ s))

theorem State.helloChanged_wire (s : State) : WireOnly s s.helloChanged := by
  refine keptBy_foldl (P := WireOnly s) _ (.refl s) fun t p h => keptBy_ite ?_ h
  unfold State.sendLocal
  split
  · exact h.trans (t.ropeOut_wire p _ _)
  · exact h

/-- A new address is read back. -/
theorem State.setAddress_addr (s : State) {a : Nat} (ha : a < 256) : (s.setAddress a).ropeAddr = a := by
  unfold State.setAddress
  split
  · assumption
  · refine (State.raise_rd _ _ (by decide)).trans (((s.wr F.ROPE_STATUS_ADDRESS a).helloChanged_wire.rd _).trans ?_)
    exact (State.rd_wr_same _ _ _ (by decide)).trans (Nat.mod_eq_of_lt ha)

theorem State.setAddress_head (s : State) (a : Nat) : (s.setAddress a).rd F.ROPE_STATUS_HEAD = s.rd F.ROPE_STATUS_HEAD := by
  unfold State.setAddress
  split
  · rfl
  · refine (State.raise_rd _ _ (by decide)).trans (((s.wr F.ROPE_STATUS_ADDRESS a).helloChanged_wire.rd _).trans ?_)
    exact State.rd_wr_ne _ _ _ _ (by decide) (by decide)

/-- The UP port of a tile that is not strapped takes the tile's headship and its address. -/
theorem State.takePlace_up (hs : s.rd F.ROPE_STATUS_STRAPPED = 0) :
    (s.takePlace .up).rd F.ROPE_STATUS_HEAD = 0 ∧ (s.takePlace .up).ropeAddr = 0 := by
  have hstrap : ¬s.rdB F.ROPE_STATUS_STRAPPED = true := by simp [State.rdB, hs]
  unfold State.takePlace
  dsimp only
  rw [if_neg hstrap]
  constructor
  · rw [State.settleRole_rd _ (by decide), State.showRole_rd_ne _ (by decide), State.setAddress_head]
    exact State.rd_wrB_same _ _ (by decide) rfl
  · unfold State.ropeAddr
    rw [State.settleRole_rd _ (by decide), State.showRole_rd_ne _ (by decide)]
    exact State.setAddress_addr _ (by decide)

/-- What an entry into UP shows, with the settling of its rate. -/
theorem State.enterUp_shows {ver : Nat} (hv : ver < 4) (hev : s.hasEvents = true) :
    let t := (s.enterUp p ver).checkRate p
    t.pitchState p = 4 ∧ t.pitchVer p = ver ∧ Raised Ev.ROPE_PITCH_UP t ∧
      t.rd (pf p F.ROPE_UP_STATE_PEER_ADDR) = s.rd (pf p F.ROPE_UP_STATE_PEER_ADDR) ∧
      (t.pitch p).peerCtrl = (s.pitch p).peerCtrl ∧ (t.pitch p).peerMail = (s.pitch p).peerMail := by
  have hup := s.upState_moves p ver
  have hsettled := (s.upSettled_moves p ver).fewer (List.subset_cons_self ..)
  have hlater : PitchMoves (upFlds p) p ((s.upSettled p ver).raise Ev.ROPE_PITCH_UP) ((s.enterUp p ver).checkRate p) := by
    rw [State.enterUp_eq]
    exact (State.takePlace_moves _ p).trans (State.checkRate_moves _ p (upFlds_noEvents p) (upFlds_own p))
  have hkept := (hsettled.raise (upFlds_noEvents p) Ev.ROPE_PITCH_UP).trans hlater
  obtain ⟨-, -, hctrl, hmail, -⟩ := hup.pitch.trans hkept.pitch
  refine ⟨?_, ?_, hlater.raised _ (by decide) (State.raised _ rfl ?_), ?_, hctrl, hmail⟩
  · exact (hkept.rd _ (by simp [upFlds])).trans (s.upState_state p ver)
  · exact (hkept.rd _ (by simp [upFlds])).trans (s.upState_ver p hv)
  · rw [State.hasEvents_of_pwr (hsettled.pwr.trans hup.pwr)]
    exact hev
  · exact (hkept.rd _ (by simp [upFlds])).trans (hup.rd _ (List.mem_cons_self ..))

/-- What an entry of the UP port into UP does to the tile's place. -/
theorem State.enterUp_place {ver : Nat} (hs : s.rd F.ROPE_STATUS_STRAPPED = 0) :
    let t := (s.enterUp .up ver).checkRate .up
    t.rd F.ROPE_STATUS_HEAD = 0 ∧ t.ropeAddr = 0 := by
  have hstrap : ((s.upSettled .up ver).raise Ev.ROPE_PITCH_UP).rd F.ROPE_STATUS_STRAPPED = 0 :=
    (State.raise_rd _ _ (by decide)).trans (((s.upSettled_moves .up ver).rd _ (List.mem_cons_self ..)).trans
      (((s.upState_moves .up ver).rd _ (List.mem_cons_of_mem _ (List.mem_cons_self ..))).trans hs))
  have hrate := (s.enterUp .up ver).checkRate_moves (K := [F.ROPE_STATUS_HEAD, F.ROPE_STATUS_ADDRESS]) .up (by decide) (by decide)
  obtain ⟨hhead, haddr⟩ := State.takePlace_up hstrap
  rw [← State.enterUp_eq] at hhead haddr
  exact ⟨(hrate.rd _ (List.mem_cons_self ..)).trans hhead,
    (hrate.rd F.ROPE_STATUS_ADDRESS (List.mem_cons_of_mem _ (List.mem_cons_self ..))).trans haddr⟩

end
end Sys2Proof.Machine
end

section
/-!
PROOFS. The commands of a pitch (chapter 13).
-/
namespace Sys2Proof.Machine

/-! ## HELLO_SEND (Table 13-3) -/

/-- HELLO as Table 13-4 lists it. -/
theorem State.helloBytes_eq (s : State) (p : Port) : s.helloBytes p = leBytes 0x52 1 ++ leBytes (s.helloVersions p) 1 ++
    leBytes (s.rd F.ROPE_STATUS_STRAPPED + (if s.pwr.st = .s2 then 2 else 0)) 1 ++ leBytes 32 1 ++ leBytes 2048 2 ++
    leBytes s.ropeAddr 1 ++ leBytes 0 1 := by
  have hlow : 2 * b2n (s.pwr.st == .s2) = if s.pwr.st = .s2 then 2 else 0 := by cases s.pwr.st <;> rfl
  rw [State.helloBytes, hlow]

/-- Sending changes what left the device and the streams of its lanes. -/
structure SendKept (s t : State) : Prop where
  rest : t = { s with out := t.out, lanes := t.lanes }
  lane : ∀ n, (t.lane n).txIdle = (s.lane n).txIdle ∧ (t.lane n).rxIdle = (s.lane n).rxIdle
  out : ∀ o ∈ s.out, o ∈ t.out

theorem SendKept.refl (s : State) : SendKept s s := ⟨rfl, fun _ => ⟨rfl, rfl⟩, fun _ h => h⟩

theorem State.txBlocks_lane (s : State) (m n : Nat) (bs : List (Nat × List Byte)) :
    ((s.txBlocks m bs).lane n).txIdle = (s.lane n).txIdle ∧ ((s.txBlocks m bs).lane n).rxIdle = (s.lane n).rxIdle := by
  unfold State.txBlocks State.txFill
  rw [State.modLane_modLane]
  by_cases hm : n = m
  · subst hm
    by_cases hl : n < s.lanes.length
    · rw [State.lane_modLane_same hl]
      exact ⟨rfl, rfl⟩
    · rw [State.lane_of_lanes (s := s) (List.modify_eq_self (Nat.le_of_not_lt hl))]
      exact ⟨rfl, rfl⟩
  · rw [State.lane_modLane_ne _ hm]
    exact ⟨rfl, rfl⟩

theorem State.ropeOut_sends (s : State) (p : Port) (l : Nat) (msg : List Byte) : SendKept s (s.ropeOut p l msg) :=
  keptBy_ite (P := SendKept s) ⟨rfl, fun n => s.txBlocks_lane _ n _, fun _ ho => List.mem_cons_of_mem _ ho⟩ (.refl s)

/-- A lane that counts as aligned sends HELLO. -/
def State.helloLane (s : State) (p : Port) (i : Nat) : State :=
  if s.laneUsable (p.lane0 + i) then s.ropeOut p i (s.helloBytes p) else s

theorem State.helloLane_sends (s : State) (p : Port) (i : Nat) : SendKept s (s.helloLane p i) :=
  keptBy_ite (P := SendKept s) (s.ropeOut_sends p i _) (.refl s)

theorem State.helloLane_out (s : State) (p : Port) {i : Nat} (hu : s.laneUsable (p.lane0 + i) = true) (hl : s.txLive (p.lane0 + i) = true) :
    .rope p i (s.helloBytes p) ∈ (s.helloLane p i).out := by
  rw [State.helloLane, if_pos hu, State.ropeOut_out, if_pos hl]
  exact List.mem_cons_self ..

theorem SendKept.same {s t : State} (h : SendKept s t) (p : Port) (n : Nat) :
    t.laneUsable n = s.laneUsable n ∧ t.txLive n = s.txLive n ∧ t.helloBytes p = s.helloBytes p := by
  have hr : ∀ f, t.rd f = s.rd f := fun f => State.rd_of_regs (congrArg State.regs h.rest :) f
  have hrope : t.rope = s.rope := (congrArg State.rope h.rest :)
  have hpitch : t.pitch p = s.pitch p := by cases p <;> simp only [State.pitch, hrope]
  have hpwr : t.pwr = s.pwr := (congrArg State.pwr h.rest :)
  obtain ⟨htx, hrx⟩ := h.lane n
  refine ⟨?_, ?_, ?_⟩
  · simp only [State.laneUsable, State.aligned, State.lockOf, State.rdB, hr, hrx]
  · simp only [State.txLive, State.rdB, hr, htx]
  · have hup : t.pitchUp p = s.pitchUp p := by rw [State.pitchUp, State.pitchState, hr]; rfl
    have hown : t.ownVersions = s.ownVersions := by rw [State.ownVersions, hr]; rfl
    rw [State.helloBytes, State.helloVersions, State.ropeAddr, hup, hown, hpitch, hr, hr, hpwr]
    rfl

theorem SendKept.trans {s t u : State} (h : SendKept s t) (k : SendKept t u) : SendKept s u := by
  refine ⟨?_, fun n => ⟨(k.lane n).1.trans (h.lane n).1, (k.lane n).2.trans (h.lane n).2⟩, fun o ho => k.out o (h.out o ho)⟩
  rw [k.rest, h.rest]

section
variable {p : Port} {s : State}

/-- A pitch in HELLO says so on each aligned lane. -/
theorem State.hello_sent {i : Nat} (hi : i < 2) (hu : s.laneUsable (p.lane0 + i) = true)
    (hl : s.txLive (p.lane0 + i) = true) : .rope p i (s.helloBytes p) ∈ ((s.helloLane p 0).helloLane p 1).out := by
  interval_cases i
  · exact ((s.helloLane p 0).helloLane_sends p 1).out _ (s.helloLane_out p hu hl)
  · obtain ⟨husable, hlive, hbytes⟩ := (s.helloLane_sends p 0).same p (p.lane0 + 1)
    rw [← hbytes]
    exact (s.helloLane p 0).helloLane_out p (husable.trans hu) (hlive.trans hl)

end

/-! ## The commands of a pitch -/

/-- The highest common version of two offers (R345). -/
theorem commonVer_eq (a b : Nat) : commonVer a b =
    if bitAt a 1 && bitAt b 1 then 2 else if bitAt a 0 && bitAt b 0 then 1 else 0 := rfl

/-- The retry delay of a pitch has passed. -/
def State.mayRetry (s : State) (p : Port) : State := s.modPitch p fun q => { q with failed := false }

theorem State.mayRetry_mayLock (s : State) (p : Port) : (s.mayRetry p).mayLock p = MayLock s p := by
  cases p <;> simp [State.mayRetry, State.mayLock, MayLock, State.modPitch, State.pitch, State.awake, State.rdB, State.rd, State.word]

theorem State.mayRetry_unaligned {p : Port} {s : State} (h : ∀ n ∈ p.lanes, s.aligned n = false) : (s.mayRetry p).anyAligned p = false := by
  have husable : ∀ n ∈ p.lanes, (s.mayRetry p).laneUsable n = false := fun n hn => by
    have hsame : (s.mayRetry p).laneUsable n = s.laneUsable n := State.laneUsable_of (by cases p <;> rfl) (by cases p <;> rfl) n
    rw [hsame, State.laneUsable, h n hn]
    rfl
  have h0 : (s.mayRetry p).laneUsable (p.lane0 + 0) = false := husable _ (List.mem_cons_self ..)
  have h1 : (s.mayRetry p).laneUsable (p.lane0 + 1) = false := husable _ (List.mem_cons_of_mem _ (List.mem_cons_self ..))
  simp only [State.anyAligned, h0, h1, List.any_cons, List.any_nil, Bool.false_and, Bool.or_self]

/-- PITCH_RETRY: the pitch may lock again. -/
theorem pitchRetry_locks (p : Port) (s : State) (hf : (s.pitch p).failed = true) : Gives (.pitchRetry p) s fun t => (t.pitch p).failed = false ∧
    (s.pitchState p = 0 → (∀ n ∈ p.lanes, s.aligned n = false) → t.pitchState p = if MayLock s p then 1 else 0) := by
  obtain ⟨hfailed, -⟩ := ((s.mayRetry p).settleRope_moves p).pitch
  have hretry : ((s.mayRetry p).pitch p).failed = false := by rw [State.mayRetry, State.pitch_modPitch_same]
  refine gives_pos rfl hf (Q := fun t => _) ⟨hfailed.trans hretry, fun h0 hidle => ?_⟩
  have hany := State.mayRetry_unaligned hidle
  have hstate : (s.mayRetry p).pitchState p = 0 := by cases p <;> exact h0
  refine (State.settleRope_state hstate (.inl hany)).trans ?_
  rw [hany, State.mayRetry_mayLock]
  rfl

/-- HELLO in HELLO without a common version: the pitch fails. -/
theorem hello_refused {p : Port} {msg : List Byte} {s : State} (ha : s.awake = true) (h3 : s.pitchState p = 3)
    (hv : commonVer (s.pitch p).versions (byteAt msg 1) = 0) :
    Gives (.hello p msg) s fun t => PitchFailed s p t ∧ Raised Ev.ROPE_VERSION_FAIL t := by
  have hdown : PitchFailed s p (s.pitchDown p true .quiet) := State.pitchDown_failed (by simp [State.pitchUp, h3])
  refine gives_pos rfl ha ?_
  rw [State.onHello, if_pos h3]
  dsimp only
  rw [if_pos hv]
  refine ⟨PitchFailed.raise hdown _, State.raised _ rfl ?_⟩
  have hpwr : (s.pitchDown p true .quiet).pwr = s.pwr := by
    have hdrop : s.pitchDown p true .quiet = s.dropPitch p true := by
      unfold State.pitchDown
      simp [State.pitchUp, h3]
    rw [hdrop]
    exact (s.dropPitch_moves p true).pwr.trans (by cases p <;> rfl)
  exact (State.hasEvents_of_pwr hpwr).trans (State.hasEvents_of_awake ha)

/-- HELLO in HELLO with a common version: the pitch comes UP with the highest. -/
theorem hello_taken {p : Port} {msg : List Byte} {s : State} (ha : s.awake = true) (h3 : s.pitchState p = 3)
    (hv : commonVer (s.pitch p).versions (byteAt msg 1) ≠ 0) :
    Gives (.hello p msg) s fun t => t.pitchState p = 4 ∧ t.pitchVer p = commonVer (s.pitch p).versions (byteAt msg 1) ∧
      Raised Ev.ROPE_PITCH_UP t ∧ t.rd (pf p F.ROPE_UP_STATE_PEER_ADDR) = byteAt msg 6 ∧ (t.pitch p).peerCtrl = byteAt msg 3 ∧
      (t.pitch p).peerMail = leAt msg 4 2 ∧ (p = .up → s.rd F.ROPE_STATUS_STRAPPED = 0 → t.rd F.ROPE_STATUS_HEAD = 0 ∧ t.ropeAddr = 0) := by
  have hlt : commonVer (s.pitch p).versions (byteAt msg 1) < 4 := by
    rw [commonVer_eq]
    split
    · decide
    · split <;> decide
  have hev : (s.peerFields p msg).hasEvents = true :=
    (State.hasEvents_of_pwr (s.peerFields_pwr p msg)).trans (State.hasEvents_of_awake ha)
  obtain ⟨hstate, hver, hraised, haddr, hctrl, hmail⟩ := State.enterUp_shows (p := p) hlt hev
  refine gives_pos rfl ha ?_
  rw [State.onHello, if_pos h3]
  dsimp only
  rw [if_neg hv]
  refine ⟨hstate, hver, hraised, haddr.trans (s.peerFields_addr p msg), ?_, ?_, fun hp hs => ?_⟩
  · rw [hctrl, s.peerFields_pitch p msg]
  · rw [hmail, s.peerFields_pitch p msg]
  · subst hp
    exact State.enterUp_place ((s.peerFields_strapped .up msg).trans hs)

/-- HELLO in UP: what it tells is taken. -/
theorem hello_again {p : Port} {msg : List Byte} {s : State} (ha : s.awake = true) (h4 : s.pitchState p = 4) :
    Gives (.hello p msg) s fun t => t.pitchState p = 4 ∧ t.rd (pf p F.ROPE_UP_STATE_PEER_ADDR) = byteAt msg 6 ∧
      (t.pitch p).peerCtrl = byteAt msg 3 := by
  have hrate := (s.peerFields p msg).checkRate_moves p (upFlds_noEvents p) (upFlds_own p)
  obtain ⟨-, -, hctrl, -⟩ := hrate.pitch
  refine gives_pos rfl ha ?_
  rw [State.onHello, if_neg (by omega), if_pos (by simp [State.pitchUp, h4])]
  refine ⟨(hrate.rd _ (by simp [upFlds])).trans ((s.peerFields_state p msg).trans h4),
    (hrate.rd _ (by simp [upFlds])).trans (s.peerFields_addr p msg), ?_⟩
  rw [hctrl, s.peerFields_pitch p msg]

/-- Settles O43: the pitches' states, training requests, HELLO and what takes a pitch down, command by command. -/
theorem pitchesTrainAndFail : Obligations.PitchesTrainAndFail := by
  unfold Obligations.PitchesTrainAndFail
  refine ⟨fun p s => ⟨fun h1 => ?_, fun h2 => ?_⟩, pitchRetry_locks, fun p lane msg s ha h2 hl hal hdone => ⟨?_, ?_⟩,
    fun p msg s ha => ⟨fun h3 h0 h1 => ?_, fun h3 hc => ?_, fun h4 => hello_again ha h4⟩, fun p s => ⟨fun h3 => ?_, fun l h4 hl => ?_⟩,
    fun p s h4 => ⟨fun ha hn => ?_, fun ho => ?_⟩⟩
  · exact gives_pos rfl h1 (State.pitchDown_failed (by simp [State.pitchUp, h1]))
  · exact gives_pos rfl h2 (State.pitchDown_failed (by simp [State.pitchUp, h2]))
  · have hlane : p.lane0 + lane < s.lanes.length := State.lane_lt fun he => by simp [State.aligned, he, Lane.reset] at hal
    exact gives_pos rfl (by simp [ha, h2, hl, hal]) (State.onPitchReq_answers msg hl hlane hdone)
  · exact exec_pos rfl (by simp [ha, h2, hl, hal])
  · exact hello_refused ha h3 (by simp [commonVer_eq, h0, h1])
  · have hver : commonVer (s.pitch p).versions (byteAt msg 1) = if bitAt (s.pitch p).versions 1 && bitAt (byteAt msg 1) 1 then 2 else 1 := by
      rw [commonVer_eq]
      split
      · rfl
      · rename_i hn
        rw [if_pos (hc.resolve_right hn)]
    dsimp only
    rw [← hver]
    exact hello_taken ha h3 (by rw [hver]; split <;> decide)
  · have hsends := (s.helloLane_sends p 0).trans ((s.helloLane p 0).helloLane_sends p 1)
    refine gives_pos rfl h3 ⟨hsends.rest, fun i hi hu hl => ?_⟩
    have hbytes := s.helloBytes_eq p
    rw [State.helloVersions, if_neg (by simp [State.pitchUp, h3])] at hbytes
    dsimp only
    rw [← hbytes]
    exact State.hello_sent hi hu hl
  · have hup : s.pitchUp p = true := by simp [State.pitchUp, h4]
    have hbytes := s.helloBytes_eq p
    rw [State.helloVersions, if_pos hup] at hbytes
    refine ⟨_, exec_neg rfl (by omega), ?_⟩
    dsimp only
    rw [if_pos hup, State.sendLocal, hl, ← hbytes]
    exact ⟨(s.ropeOut_sends p l _).rest, s.ropeOut_out p l _⟩
  · have hup : s.pitchUp p = true := by simp [State.pitchUp, h4]
    exact gives_pos rfl (by simp [hup, hn]) (State.pitchDown_broken hup (State.hasEvents_of_awake ha))
  · have hup : s.pitchUp p = true := by simp [State.pitchUp, h4]
    have hbroken := State.pitchDown_broken (p := p) hup (State.hasEvents_of_awake (State.bar0Open_awake ho))
    have hport : s.retrainPort p = (s.pitchDown p false .break).settleRope := if_pos hup
    rw [← hport] at hbroken
    cases p <;> exact gives_pos rfl ho hbroken

end Sys2Proof.Machine
end

section
/-!
PROOFS. What ports, reference outputs and the rope leave of the power stage, and the ends of transitions to S0, S1 and S2 (Table 16-4).
-/
namespace Sys2Proof.Machine

/-! ## What ports, reference outputs, the rope and events leave of the power stage -/

/-- What ports and the rope do keeps `P`: as `WireClosed`, and changes of port states and of what the panel keeps beside its reference
outputs. -/
structure PowerClosed (P : State → Prop) : Prop extends WireClosed P where
  port : ∀ {s : State} (p v : Nat), P s → P (s.wr (portFld p) v)
  pnl : ∀ {s : State} (x : PnlSt), x.prefOn = s.pnl.prefOn → x.prefV = s.pnl.prefV → P s → P { s with pnl := x }

namespace PowerClosed

variable {P : State → Prop} (c : PowerClosed P) {s : State}
include c

theorem dcbRestart (h : P s) : P s.dcbRestart := c.pnl _ rfl rfl h

theorem modPort (p : Nat) (f : PnlPort → PnlPort) (h : P s) : P (s.modPort p f) := c.pnl _ rfl rfl h

theorem setPort (p v : Nat) (h : P s) : P (s.setPort p v) := by
  have hw : P ((s.wr (portFld p) v).wrB ⟨0xE0004, p, 1⟩ (v == 2)) := c.wr _ rfl (c.port p v h)
  exact keptBy_ite (c.dcbRestart hw) hw

theorem stopPort (p : Nat) (failed : Bool) (h : P s) : P (s.stopPort p failed) := by
  rw [State.stopPort_eq]
  exact c.modPort p _ (c.toWireClosed.idlePort p (c.setPort p 0 h))

theorem startPort (p : Nat) (h : P s) : P (s.startPort p) := by
  have hl : P ((portLanes p).foldl (fun s n => (s.setRate n (s.pwr.st == .s1)).startFir n |>.txIdle n false) s) :=
    keptBy_foldl _ h fun _ n h => c.txIdle n false (c.toWireClosed.startFir n (c.toWireClosed.setRate n _ h))
  exact c.wr _ rfl (c.modPort p _ (c.setPort p 1 hl))

theorem settlePorts (h : P s) : P s.settlePorts :=
  keptBy_foldl _ h fun _ p h => keptBy_ite (keptBy_ite h (c.stopPort p false h)) (keptBy_ite (c.startPort p h) h)

theorem ratePorts (h : P s) : P s.ratePorts :=
  keptBy_foldl _ h fun _ p h => keptBy_ite h (keptBy_foldl _ (c.modPort p _ (c.setPort p 1 h)) fun _ n h => c.txIdle n true h)

end PowerClosed

/-- From `s` to `t` the power stage, the settings in force, device memory, synthesis and the reference outputs are as they were, and so
are the power registers. -/
structure StageKept (s t : State) : Prop where
  pwr : t.pwr = s.pwr
  live : t.live = s.live
  mem : t.mem = s.mem
  syn : t.syn = s.syn
  pref : t.pnl.prefOn = s.pnl.prefOn ∧ t.pnl.prefV = s.pnl.prefV
  words : ∀ o, 0x30000 ≤ o → o < 0x40000 → t.word o = s.word o

theorem StageKept.refl (s : State) : StageKept s s := ⟨rfl, rfl, rfl, rfl, ⟨rfl, rfl⟩, fun _ _ _ => rfl⟩

theorem StageKept.trans {s t u : State} (h : StageKept s t) (k : StageKept t u) : StageKept s u :=
  ⟨k.pwr.trans h.pwr, k.live.trans h.live, k.mem.trans h.mem, k.syn.trans h.syn, ⟨k.pref.1.trans h.pref.1, k.pref.2.trans h.pref.2⟩,
    fun o hlo hhi => (k.words o hlo hhi).trans (h.words o hlo hhi)⟩

theorem evtReg_of_pwr {o : Nat} (hlo : 0x30000 ≤ o) : evtReg o = false := by
  simp only [evtReg, decide_eq_false (show ¬o < 0x20040 by omega), Bool.and_false, Bool.false_or, Bool.or_eq_false_iff, beq_eq_false_iff_ne]
  omega

theorem EventsOnly.stageKept {s t : State} (h : EventsOnly s t) : StageKept s t :=
  ⟨by rw [h.rest], by rw [h.rest], by rw [h.rest], by rw [h.rest], by rw [h.rest]; exact ⟨rfl, rfl⟩,
    fun o hlo _ => h.words o (evtReg_of_pwr hlo)⟩

theorem StageKept.raise (s : State) (e : Nat) : StageKept s (s.raise e) := (s.raise_events e).stageKept

theorem StageKept.wr (s : State) {f : Fld} (v : Nat) (hf : 0x40000 ≤ f.off) : StageKept s (s.wr f v) :=
  ⟨rfl, rfl, rfl, rfl, ⟨rfl, rfl⟩, fun o _ hhi => s.word_wr_ne f v (by omega)⟩

theorem stage_closed (r : State) : PowerClosed (StageKept r) where
  wire hp h := by
    rw [hp]
    exact h.trans ⟨rfl, rfl, rfl, rfl, ⟨rfl, rfl⟩, fun _ _ _ => rfl⟩
  draw _ h := h.trans ⟨rfl, rfl, rfl, rfl, ⟨rfl, rfl⟩, fun _ _ _ => rfl⟩
  setTim _ h := h.trans ⟨rfl, rfl, rfl, rfl, ⟨rfl, rfl⟩, fun _ _ _ => rfl⟩
  wr v hf h := h.trans (.wr _ v ((of_decide_eq_true (Bool.and_eq_true_iff.1 hf).1 : 0x70000 ≤ _).trans' (by decide)))
  raise e h := h.trans (.raise _ e)
  port _ v h := h.trans (.wr _ v (show 0x40000 ≤ 0xE0010 by decide))
  pnl _ hon hv h := h.trans ⟨rfl, rfl, rfl, rfl, ⟨hon, hv⟩, fun _ _ _ => rfl⟩

theorem StageKept.rd {s t : State} (h : StageKept s t) {f : Fld} (hlo : 0x30000 ≤ f.off) (hhi : f.off < 0x40000) : t.rd f = s.rd f :=
  State.rd_of_word (h.words _ hlo hhi)

/-! ## The reference outputs (R249, R250) -/

theorem State.setPref_only (s : State) (n v : Nat) : PrefOnly s (s.setPref n v) := by
  unfold State.setPref
  split <;> rfl

/-- An output set stands at its voltage, and the others as before. -/
theorem State.setPref_volts {s : State} {n v q : Nat} (hn : n < s.pnl.prefV.length) :
    (s.setPref n v).pnl.prefV.length = s.pnl.prefV.length ∧
      (s.setPref n v).pnl.prefV.getD q 0 = if q = n then v else s.pnl.prefV.getD q 0 := by
  unfold State.setPref
  split
  case isTrue h =>
    refine ⟨rfl, ?_⟩
    split
    · rename_i hq
      rw [hq, h]
    · rfl
  case isFalse =>
    refine ⟨List.length_set .., ?_⟩
    change (s.pnl.prefV.set n v).getD q 0 = _
    simp only [List.getD_eq_getElem?_getD, List.getElem?_set]
    by_cases hq : q = n
    · subst hq
      simp [hn]
    · rw [if_neg (Ne.symm hq), if_neg hq]

theorem PrefOnly.live {s t : State} (h : PrefOnly s t) : t.live = s.live := by rw [h]

theorem PrefOnly.lv {s t : State} (h : PrefOnly s t) (f : Fld) : t.lv f = s.lv f := by
  unfold State.lv State.liveWord
  rw [h.live]

/-- The voltages of the codes in force. -/
def State.setCodes (s : State) (l : List Nat) : State := l.foldl (fun s n => s.setPref n (prefLevel n (s.lv (F.PNL_PREF_CODE n)))) s

theorem State.setCodes_volts (l : List Nat) (s : State) : PrefOnly s (s.setCodes l) ∧ ((∀ n ∈ l, n < s.pnl.prefV.length) →
    ∀ q, q ∈ l ∨ s.pnl.prefV.getD q 0 = prefLevel q (s.lv (F.PNL_PREF_CODE q)) →
      (s.setCodes l).pnl.prefV.getD q 0 = prefLevel q (s.lv (F.PNL_PREF_CODE q))) := by
  induction l generalizing s with
  | nil => exact ⟨rfl, fun _ q hq => hq.elim (fun hm => by cases hm) id⟩
  | cons n l ih =>
    have hone := s.setPref_only n (prefLevel n (s.lv (F.PNL_PREF_CODE n)))
    obtain ⟨hrest, hvolts⟩ := ih (s.setPref n (prefLevel n (s.lv (F.PNL_PREF_CODE n))))
    refine ⟨hone.trans hrest, fun hl q hq => ?_⟩
    obtain ⟨hlen, hset⟩ := State.setPref_volts (q := q) (v := prefLevel n (s.lv (F.PNL_PREF_CODE n))) (hl n List.mem_cons_self)
    have := hvolts (fun m hm => by rw [hlen]; exact hl m (List.mem_cons_of_mem n hm)) q
    rw [hone.lv] at this
    refine this ?_
    rw [hset]
    by_cases he : q = n
    · rw [if_pos he, he]
      exact .inr rfl
    · rw [if_neg he]
      exact hq.imp (fun hm => (List.mem_cons.1 hm).resolve_left he) id

theorem PrefOnly.rest {s t : State} (h : PrefOnly s t) : t = { s with out := t.out, pnl := t.pnl } := by
  unfold PrefOnly at h
  rw [h]

theorem State.setPref_length (s : State) (n v : Nat) : (s.setPref n v).pnl.prefV.length = s.pnl.prefV.length := by
  unfold State.setPref
  split
  · rfl
  · exact List.length_set ..

theorem State.setCodes_length (l : List Nat) (s : State) : (s.setCodes l).pnl.prefV.length = s.pnl.prefV.length :=
  keptBy_foldl (P := fun t => t.pnl.prefV.length = s.pnl.prefV.length) _ rfl fun t _ h => (t.setPref_length _ _).trans h

/-- The outputs are driven. -/
def State.driven (s : State) : State := { s with pnl := { s.pnl with prefOn := true } }

theorem State.prefPower_true (s : State) : s.prefPower true = s.driven.setCodes (List.range 18) := rfl

theorem PrefDriven.of_same {s t : State} (h : PrefDriven s) (hl : t.live = s.live) (hon : t.pnl.prefOn = s.pnl.prefOn)
    (hv : t.pnl.prefV = s.pnl.prefV) : PrefDriven t := by
  have hlv : ∀ f, t.lv f = s.lv f := fun f => by
    unfold State.lv State.liveWord
    rw [hl]
  refine ⟨hon.trans h.1, fun hlen n hn => ?_⟩
  rw [hv] at hlen ⊢
  rw [hlv]
  exact h.2 hlen n hn

theorem PrefDriven.of_kept {s t : State} (h : PrefDriven s) (k : StageKept s t) : PrefDriven t := PrefDriven.of_same h k.live k.pref.1 k.pref.2

/-- The outputs are driven at the voltages of their codes in force. -/
theorem State.prefPower_driven (s : State) : PrefDriven (s.prefPower true) := by
  obtain ⟨honly, hvolts⟩ := s.driven.setCodes_volts (List.range 18)
  rw [State.prefPower_true]
  refine ⟨honly.pnl, fun hlen n hn => ?_⟩
  have hlen' : s.driven.pnl.prefV.length = 18 := (State.setCodes_length _ _).symm.trans hlen
  rw [hvolts (fun m hm => by rw [hlen']; exact List.mem_range.1 hm) n (.inl (List.mem_range.2 hn)), honly.lv]
  rfl

/-- Driving the outputs leaves the rest of the machine but what left the device. -/
theorem State.prefPower_rest (s : State) : s.prefPower true = { s with out := (s.prefPower true).out, pnl := (s.prefPower true).pnl } := by
  obtain ⟨honly, -⟩ := s.driven.setCodes_volts (List.range 18)
  exact (State.prefPower_true s ▸ honly.rest :)

theorem State.prefPower_parts (s : State) : (s.prefPower true).pwr = s.pwr ∧ (s.prefPower true).live = s.live ∧
    (s.prefPower true).mem = s.mem ∧ (s.prefPower true).syn = s.syn := by
  have h := s.prefPower_rest
  generalize s.prefPower true = t at h
  rw [h]
  exact ⟨rfl, rfl, rfl, rfl⟩

/-! ## Back in S1 (Table 16-4, R402) -/

/-- The power stage of a state without hold refreshes. -/
def State.atStage (s : State) (st : PwrState) : State := (s.setPwr st).noHolds

theorem State.word_prefPower (s : State) (o : Nat) : (s.prefPower true).word o = s.word o := by
  unfold State.word
  rw [s.prefPower_rest]

/-- The stage of S0 or S1 shows in PWR_STATUS. -/
theorem State.atStage_state (s : State) {st : PwrState} (h : st.number < 8) : (s.atStage st).rd F.PWR_STATUS_STATE = st.number :=
  (State.rd_wr_same (s.modPwr fun p => { p with st := st }) F.PWR_STATUS_STATE st.number (by decide)).trans (Nat.mod_eq_of_lt h)

theorem State.atStage_rd (s : State) (st : PwrState) {f : Fld} (hf : f.off ≠ 0x30004 ∨ f.lo + f.len ≤ 0 ∨ 3 ≤ f.lo) :
    (s.atStage st).rd f = s.rd f := State.rd_wr_ne (s.modPwr fun p => { p with st := st }) F.PWR_STATUS_STATE f _ (by decide) hf

/-- A transition that ended. -/
theorem State.setTrans_none_busy (s : State) : (s.setTrans none).rd F.PWR_STATUS_BUSY = 0 :=
  State.rd_wr_same (s.modPwr fun p => { p with trans := none }) F.PWR_STATUS_BUSY 0 (by decide)

theorem State.setTrans_rd (s : State) (x : Option PwrTrans) {f : Fld} (hf : f.off ≠ 0x30004 ∨ f.lo + f.len ≤ 3 ∨ 4 ≤ f.lo) :
    (s.setTrans x).rd f = s.rd f := State.rd_wr_ne (s.modPwr fun p => { p with trans := x }) F.PWR_STATUS_BUSY f _ (by decide) hf

/-- Back in a state whose panel runs: its stage, the outputs driven, the settings in force and device memory as before. -/
structure Returned (s : State) (st : PwrState) (u : State) : Prop where
  driven : PrefDriven u
  pwr : u.pwr = (s.atStage st).pwr
  live : u.live = s.live
  mem : u.mem = s.mem
  rd : ∀ f : Fld, 0x30000 ≤ f.off → f.off < 0x40000 → u.rd f = (s.atStage st).rd f

theorem Returned.kept {s u v : State} {st : PwrState} (h : Returned s st u) (k : StageKept u v) : Returned s st v :=
  ⟨PrefDriven.of_kept h.driven k, k.pwr.trans h.pwr, k.live.trans h.live, k.mem.trans h.mem,
    fun f hlo hhi => (k.rd hlo hhi).trans (h.rd f hlo hhi)⟩

theorem State.prefPower_returned (s : State) (st : PwrState) : Returned s st ((s.atStage st).prefPower true) := by
  obtain ⟨hpwr, hlive, hmem, -⟩ := (s.atStage st).prefPower_parts
  exact ⟨(s.atStage st).prefPower_driven, hpwr, hlive, hmem, fun f _ _ => State.rd_of_word ((s.atStage st).word_prefPower _)⟩

/-- What the return shows once SHED is cleared. -/
theorem Returned.shows {s u t : State} {st : PwrState} (h : Returned s st u) (hst : st.number < 8)
    (k : StageKept (u.wrB F.PWR_STATUS_SHED false) t) :
    t.pwr.st = st ∧ t.rd F.PWR_STATUS_STATE = st.number ∧ t.rd F.PWR_STATUS_SHED = 0 ∧ t.pwr.holds = 0 ∧ t.pwr.holdLine = none ∧
      PrefDriven t ∧ t.live = s.live ∧ t.mem = s.mem ∧ t.pwr.trans = s.pwr.trans ∧
      t.rd F.PWR_STATUS_BUSY = s.rd F.PWR_STATUS_BUSY ∧ t.rd F.PWR_STATUS_HOLD_VALID = s.rd F.PWR_STATUS_HOLD_VALID := by
  have hpwr : t.pwr = (s.atStage st).pwr := k.pwr.trans h.pwr
  have hrd : ∀ f : Fld, f.off = 0x30004 → (f.lo + f.len ≤ 4 ∨ 5 ≤ f.lo) → t.rd f = (s.atStage st).rd f := fun f ho hf =>
    (k.rd (by omega) (by omega)).trans ((State.rd_wr_ne u F.PWR_STATUS_SHED f _ (by decide) (.inr hf)).trans (h.rd f (by omega) (by omega)))
  refine ⟨by rw [hpwr]; rfl, (hrd _ rfl (by decide)).trans (s.atStage_state hst),
    (k.rd (by decide) (by decide)).trans (State.rd_wrB_same _ _ (by decide) rfl), by rw [hpwr]; rfl, by rw [hpwr]; rfl,
    PrefDriven.of_same h.driven k.live k.pref.1 k.pref.2, k.live.trans h.live, k.mem.trans h.mem, by rw [hpwr]; rfl, ?_, ?_⟩
  · exact (hrd _ rfl (by decide)).trans (s.atStage_rd st (by decide))
  · exact (hrd _ rfl (by decide)).trans (s.atStage_rd st (by decide))

theorem transDone_eq {s : State} {target : PwrState} (h : s.pwr.trans = some ⟨target, none⟩) :
    exec .powerTransitionDone s = .next (s.transEnd target) := by
  change Host.Outcome.next (match s.pwr.trans with | some ⟨target, none⟩ => s.transEnd target | _ => s) = _
  rw [h]

/-- The end of a transition to S1. -/
theorem transDone_s1 {s : State} (h : s.pwr.trans = some ⟨.s1, none⟩) : Gives .powerTransitionDone s fun t =>
    BackInS1 s t ∧ t.pwr.trans = none ∧ t.rd F.PWR_STATUS_BUSY = 0 ∧ Raised Ev.PWR_STATE t ∧ t.mem = s.mem := by
  let x := ((s.setTrans none).atStage .s1).prefPower true
  have hkept : StageKept x (x.settlePorts.ropePower.dcbRestart) :=
    (stage_closed x).dcbRestart ((stage_closed x).ropePower ((stage_closed x).settlePorts (.refl x)))
  have hback := ((s.setTrans none).prefPower_returned .s1).kept hkept
  obtain ⟨hst, hstate, hshed, hholds, hline, hdriven, hlive, hmem, htrans, hbusy, hvalid⟩ :=
    hback.shows (by decide) (StageKept.raise _ Ev.PWR_STATE)
  have hs1 : (s.setTrans none).backToS1.pwr.st = .s1 := (hback.shows (by decide) (.refl _)).1
  refine ⟨_, transDone_eq h, ⟨hst, hstate, hshed, hholds, hline, hmem, ?_, hdriven⟩, htrans, hbusy.trans s.setTrans_none_busy, ?_, hmem⟩
  · exact hvalid.trans (s.setTrans_rd none (by decide))
  · exact State.raised _ rfl (State.hasEvents_of_awake (by rw [State.awake, hs1]; rfl))

/-! ## Back in S0 (R409) -/

theorem StageKept.setRing (s : State) (r : Ring) : StageKept s (s.setRing r) := ⟨rfl, rfl, rfl, rfl, ⟨rfl, rfl⟩, fun _ _ _ => rfl⟩

theorem State.acceptPi_stage (s : State) (ring pi ci : Nat) : StageKept s (s.acceptPi ring pi ci) := by
  unfold State.acceptPi
  split
  · exact .refl s
  · dsimp only
    split
    · exact .setRing s _
    · split
      · exact .setRing s _
      · exact (StageKept.setRing s _).trans (.raise _ _)

theorem State.rereadDoorbells_stage (s : State) : StageKept s s.rereadDoorbells := by
  refine keptBy_foldl (P := StageKept s) _ (.refl s) fun t r h => keptBy_ite (h.trans (t.acceptPi_stage _ _ _)) ?_
  split
  · exact h.trans (.setRing t _)
  · exact h

/-- The line index and the freeze detector start afresh. -/
def State.lineBack (s : State) : State := s.resyncLine.frzRestart.dcbRestart

theorem State.lineBack_stage (s : State) : StageKept s s.lineBack :=
  ⟨rfl, rfl, rfl, rfl, ⟨rfl, rfl⟩, fun o _ hhi => State.word_wr_ne (s.modScn _) F.SCN_STATUS_LINE _ (Nat.ne_of_lt (Nat.lt_trans hhi (by decide)))⟩

/-- The panel runs at full rate, and the next frame is synthesised with every view. -/
def State.fullBack (s : State) (was : PwrState) : State :=
  if was = .s1 then s.ratePorts else s.settlePorts.ropePower

theorem State.fullBack_stage (s : State) (was : PwrState) : StageKept s (s.fullBack was) :=
  keptBy_ite (P := StageKept s) ((stage_closed s).ratePorts (.refl s)) ((stage_closed s).ropePower ((stage_closed s).settlePorts (.refl s)))

/-- Driven outputs and full synthesis in S0. -/
def State.s0Stage (s : State) : State := ((s.atStage .s0).prefPower true).modSyn fun y => { y with full := true }

theorem State.enterS0_eq (s : State) : s.enterS0 =
    ((s.s0Stage.fullBack s.pwr.st).lineBack.wrB F.PWR_STATUS_SHED false).rereadDoorbells := rfl

theorem Returned.modSyn {s u : State} {st : PwrState} (h : Returned s st u) (f : SynSt → SynSt) : Returned s st (u.modSyn f) :=
  ⟨PrefDriven.of_same h.driven rfl rfl rfl, h.pwr, h.live, h.mem, h.rd⟩

theorem State.s0Stage_returned (s : State) : Returned s .s0 s.s0Stage := (s.prefPower_returned .s0).modSyn _

theorem rereadDoorbells_scn (s : State) : s.rereadDoorbells.scn = s.scn :=
  (State.rereadDoorbells_keeps (P := 615) (by decide) (Keeps.refl 615 s)).same .scn (by decide)

/-- The module is back in S0. -/
theorem State.enterS0_back (s : State) : BackInS0 s.enterS0 ∧ s.enterS0.pwr.trans = s.pwr.trans ∧
    s.enterS0.rd F.PWR_STATUS_BUSY = s.rd F.PWR_STATUS_BUSY ∧ s.enterS0.live = s.live ∧ s.enterS0.mem = s.mem ∧
    s.enterS0.rd F.PWR_STATUS_HOLD_VALID = s.rd F.PWR_STATUS_HOLD_VALID := by
  have hfull := s.s0Stage.fullBack_stage s.pwr.st
  have hline := (s.s0Stage.fullBack s.pwr.st).lineBack_stage
  have hread := ((s.s0Stage.fullBack s.pwr.st).lineBack.wrB F.PWR_STATUS_SHED false).rereadDoorbells_stage
  have hback := s.s0Stage_returned.kept (hfull.trans hline)
  obtain ⟨hst, hstate, hshed, hholds, hhold, hdriven, hlive, hmem, htrans, hbusy, hvalid⟩ := hback.shows (by decide) hread
  rw [State.enterS0_eq]
  refine ⟨⟨hst, hstate, hshed, ?_, ?_, hholds, hhold, hdriven⟩, htrans, hbusy, hlive, hmem, hvalid⟩
  · have hsyn := hread.syn.trans ((hfull.trans hline).syn)
    rw [hsyn]
    rfl
  · rw [rereadDoorbells_scn]
    rfl

theorem BackInS0.kept {s t : State} (h : BackInS0 s) (k : StageKept s t) (hs : t.scn = s.scn) : BackInS0 t := by
  obtain ⟨hst, hstate, hshed, hfull, hfrz, hholds, hline, hdriven⟩ := h
  exact ⟨by rw [k.pwr]; exact hst, (k.rd (by decide) (by decide)).trans hstate, (k.rd (by decide) (by decide)).trans hshed,
    by rw [k.syn]; exact hfull, by rw [hs]; exact hfrz, by rw [k.pwr]; exact hholds, by rw [k.pwr]; exact hline,
    PrefDriven.of_kept hdriven k⟩

/-- The end of a transition from S1 or S2 to S0. -/
theorem transDone_s0 {s : State} (h : s.pwr.trans = some ⟨.s0, none⟩) (h3 : s.pwr.st ≠ .s3) : Gives .powerTransitionDone s fun t =>
    BackInS0 t ∧ t.pwr.trans = none ∧ t.rd F.PWR_STATUS_BUSY = 0 ∧ Raised Ev.PWR_STATE t ∧ t.live = s.live ∧ t.mem = s.mem := by
  obtain ⟨hback, htrans, hbusy, hlive, hmem, -⟩ := (s.setTrans none).enterS0_back
  have hraise := StageKept.raise (s.setTrans none).enterS0 Ev.PWR_STATE
  refine ⟨((s.setTrans none).enterS0).raise Ev.PWR_STATE, (transDone_eq h).trans (congrArg _ (if_neg h3)), BackInS0.kept hback hraise (State.raise_scn _ _),
    by rw [hraise.pwr]; exact htrans, (hraise.rd (by decide) (by decide)).trans (hbusy.trans s.setTrans_none_busy), ?_,
    hraise.live.trans hlive, hraise.mem.trans hmem⟩
  obtain ⟨hst, -⟩ := hback
  exact State.raised _ rfl (State.hasEvents_of_awake (by rw [State.awake, hst]; rfl))

/-- The end of a transition to S2. -/
theorem transDone_s2 {s : State} (hev : s.hasEvents = true) (h : s.pwr.trans = some ⟨.s2, none⟩) : Gives .powerTransitionDone s
    (After Ev.PWR_STATE (({ s with pwr := { s.pwr with trans := none } } : State).wr F.PWR_STATUS_BUSY 0)) := by
  refine State.raise_gives (u := s.setTrans none) (transDone_eq h) rfl hev

end Sys2Proof.Machine
end

section
/-!
PROOFS. What the entry to S2 shows, and PMCSR D3hot (Table 16-4, R349).
-/
namespace Sys2Proof.Machine

/-! ## What leaving S0 does to presents and commits (R406, R408) -/

/-- All parts but the settings in force, the power stage, compositor and scan. -/
def allButScan : Nat := 2 ^ 22 - 1 - 2 ^ 3 - 2 ^ 8 - 2 ^ 12 - 2 ^ 13

/-- The engines' descriptors end without a change of what presents and commits wait. -/
theorem State.abortDesc_scan {cls : Nat} (hc : cls = Cls.STREAM ∨ cls = Cls.ENC ∨ cls = Cls.BLT) {r s : State} (h : Keeps allButScan r s)
    (ring idx : Nat) : Keeps allButScan r (s.abortDesc cls ring idx) := by
  have he : ∀ u, Keeps allButScan r u → Keeps allButScan r (u.abortEffect cls ring idx) := fun u hb => by
    unfold State.abortEffect
    rcases hc with rfl | rfl | rfl
    · exact State.abortFeed_keeps rfl hb
    · exact State.abortEnc_keeps rfl hb
    · exact State.abortBlt_keeps rfl hb
  exact State.complete_keeps rfl (he _ (keeps_ite (State.bltHalt_keeps rfl h) h))

theorem engineClass_cases {r : Ring} (h : engineClass r = true) : r.cls = Cls.STREAM ∨ r.cls = Cls.ENC ∨ r.cls = Cls.BLT := by
  simpa only [engineClass, Bool.or_eq_true, beq_iff_eq, or_assoc] using h

theorem State.abortEngines_scan (s : State) : Keeps allButScan s s.abortEngines :=
  keptBy_foldl_mem _ (.refl _ s) fun _ x hx h =>
    keptBy_foldl _ h fun _ d h => State.abortDesc_scan (engineClass_cases (List.mem_filter.1 hx).2) h x.num d.idx

theorem State.pumpEngines_scan {r s : State} (h : Keeps allButScan r s) : Keeps allButScan r s.pumpEngines :=
  keptBy_foldl _ h fun _ _ h => State.pumpRing_keeps rfl h

/-- Synthesis has stopped, no frame is in scan, and what waits of `s` waits on, none bound. -/
structure Dark (s t : State) : Prop where
  frame : t.syn.frame = none
  scn : t.scn = { s.scn with
    cur := none, decided := false, guarded := false, presents := s.scn.presents.map fun p => { p with afterGuard := false } }
  pend : t.cmp.pend = s.cmp.pend.map fun c => { c with bound := false, afterGuard := false }
  live : t.live = s.live
  blank : t.rd F.SCN_STATUS_BLANK = 1

theorem State.goDark_dark (s : State) : Dark s s.goDark ∧ s.goDark.pwr = s.pwr := by
  have hk := State.pumpEngines_scan s.abortEngines_scan
  have hscn := hk.same .scn rfl
  have hcmp := hk.same .cmp rfl
  unfold State.goDark
  generalize s.abortEngines.pumpEngines = u at hk hscn hcmp
  refine ⟨⟨rfl, ?_, ?_, hk.same .live rfl, State.rd_wrB_same _ _ (by decide) rfl⟩, hk.same .pwr rfl⟩
  · rw [← hscn]
    rfl
  · rw [← hcmp]
    rfl

/-! ## Entry to S2 from any state (Table 16-4) -/

/-- What is dark stays so: synthesis, scan, compositor and settings as before, and the scan register. -/
structure DarkKept (s t : State) : Prop where
  syn : t.syn = s.syn
  scn : t.scn = s.scn
  cmp : t.cmp = s.cmp
  live : t.live = s.live
  blank : t.rd F.SCN_STATUS_BLANK = s.rd F.SCN_STATUS_BLANK

theorem DarkKept.refl (s : State) : DarkKept s s := ⟨rfl, rfl, rfl, rfl, rfl⟩

theorem DarkKept.trans {s t u : State} (h : DarkKept s t) (k : DarkKept t u) : DarkKept s u :=
  ⟨k.syn.trans h.syn, k.scn.trans h.scn, k.cmp.trans h.cmp, k.live.trans h.live, k.blank.trans h.blank⟩

theorem DarkKept.of_keeps {P : Nat} {s t : State} (h : Keeps P s t) (hy : P.testBit Part.syn.idx = false)
    (hs : P.testBit Part.scn.idx = false) (hc : P.testBit Part.cmp.idx = false) (hl : P.testBit Part.live.idx = false)
    (hb : t.rd F.SCN_STATUS_BLANK = s.rd F.SCN_STATUS_BLANK) : DarkKept s t :=
  ⟨h.same .syn hy, h.same .scn hs, h.same .cmp hc, h.same .live hl, hb⟩

theorem Dark.kept {s t u : State} (h : Dark s t) (k : DarkKept t u) : Dark s u where
  frame := by rw [k.syn]; exact h.frame
  scn := k.scn.trans h.scn
  pend := by rw [k.cmp]; exact h.pend
  live := k.live.trans h.live
  blank := k.blank.trans h.blank

theorem Dark.showsNothing {s t : State} (h : Dark s t) : ShowsNothing s t := by
  obtain ⟨hframe, hscn, hpend, hlive, hblank⟩ := h
  exact ⟨hframe, by rw [hscn], by rw [hscn], by rw [hscn], hblank, by rw [hscn], hpend, hlive⟩

theorem State.stopPort_blank (s : State) (p : Nat) (failed : Bool) : (s.stopPort p failed).word 0xD0004 = s.word 0xD0004 := by
  obtain ⟨-, -, -, hw⟩ := s.setPort_rest p 0
  rw [State.stopPort_eq, State.word_modPort]
  refine keptBy_foldl (P := fun t => t.word 0xD0004 = s.word 0xD0004) _ (hw _ (by decide) (by decide)) fun t n h => ?_
  refine ((t.txIdle_regsOnly n true).2 _ ?_).trans h
  simp only [List.mem_cons, List.not_mem_nil, or_false]
  omega

theorem State.settlePorts_dark {s : State} (hs : s.panelOn = false) : DarkKept s s.settlePorts := by
  refine .of_keeps (State.settlePorts_keeps (P := 1064964) rfl (.refl _ s)) rfl rfl rfl rfl ?_
  have h : s.settlePorts.pwr = s.pwr ∧ s.settlePorts.word 0xD0004 = s.word 0xD0004 := by
    refine keptBy_foldl (P := fun t => t.pwr = s.pwr ∧ t.word 0xD0004 = s.word 0xD0004) _ ⟨rfl, rfl⟩ fun t p h => ?_
    obtain ⟨hp, hw⟩ := h
    have hoff : t.panelOn = false := by
      rw [State.panelOn, hp]
      exact hs
    rw [State.settlePort_off hoff]
    exact keptBy_ite (P := fun u : State => u.pwr = s.pwr ∧ u.word 0xD0004 = s.word 0xD0004) ⟨hp, hw⟩
      ⟨((State.stopPort_keeps (P := 1064964) rfl (.refl _ t)).same .pwr rfl).trans hp, (t.stopPort_blank p false).trans hw⟩
  exact State.rd_of_word (f := F.SCN_STATUS_BLANK) h.2

/-- The rope follows the power state without a change of the scan register. -/
theorem State.powerPitch_moves (s : State) (p : Port) : PitchMoves [F.SCN_STATUS_BLANK] p s (s.powerPitch p) := by
  have hm : MessageClosed (PitchMoves [F.SCN_STATUS_BLANK] p s) := PitchMoves.messages (by decide) (by decide)
  have hsent := keptBy_ite (P := PitchMoves [F.SCN_STATUS_BLANK] p s) (c := s.pitchUp p = true) (hm.sendLocal p (s.helloBytes p) (.refl _ _ _))
    (.refl _ _ _)
  exact keptBy_ite (P := PitchMoves [F.SCN_STATUS_BLANK] p s) (.refl _ _ _)
    (hsent.trans (State.checkRate_moves _ p (by decide) (by cases p <;> decide)))

theorem State.ropePower_dark (s : State) : DarkKept s s.ropePower :=
  .of_keeps (State.ropePower_keeps (P := 3146343) rfl (.refl _ s)) rfl rfl rfl rfl
    ((((s.powerPitch .up).powerPitch_moves .dn).rd _ (List.mem_cons_self ..)).trans ((s.powerPitch_moves .up).rd _ (List.mem_cons_self ..)))

theorem State.dropPref_dark (s : State) : DarkKept s s.undrive.dropPref := by
  obtain ⟨hpref, -⟩ := s.undrive.dropPref_zero
  have hrest := hpref.rest
  generalize s.undrive.dropPref = t at hpref hrest
  rw [hrest]
  exact ⟨rfl, rfl, rfl, rfl, rfl⟩

theorem State.lowLines_dark (s : State) : DarkKept s s.lowLines := ⟨rfl, rfl, rfl, rfl, rfl⟩

theorem State.lowLines_pwr (s : State) : s.lowLines.pwr = s.pwr := rfl

theorem State.modPwr_dark (s : State) (f : PwrSt → PwrSt) : DarkKept s (s.modPwr f) := ⟨rfl, rfl, rfl, rfl, rfl⟩

theorem State.setTrans_dark (s : State) (x : Option PwrTrans) : DarkKept s (s.setTrans x) := ⟨rfl, rfl, rfl, rfl, State.setTrans_rd s x (by decide)⟩

/-- Entry to S2 keeps what leaving S0 left. -/
theorem State.settleS2_dark {s : State} (hs : s.pwr.st = .s2) : DarkKept s s.lowPower.lowLines := by
  have hports := State.settlePorts_dark (s := s) (by simp [State.panelOn, hs])
  have hlow : DarkKept s s.lowPower := (hports.trans s.settlePorts.dropPref_dark).trans (State.ropePower_dark _)
  exact hlow.trans (State.lowLines_dark _)

theorem State.stageS2_dark (s : State) (from1 : Bool) : DarkKept s (s.stageS2 from1) := by
  refine ⟨rfl, rfl, rfl, rfl, ?_⟩
  exact State.rd_wr_ne (s.modPwr fun p => { p with st := .s2 }) F.PWR_STATUS_STATE F.SCN_STATUS_BLANK _ (by decide) (by decide)

theorem State.settleS2_pwr {s : State} (hs : s.pwr.st = .s2) : s.lowPower.lowLines.pwr = s.pwr :=
  (State.lowLines_pwr _).trans (State.lowPower_shows hs).1.pwr

/-- What entry to S2 shows: the module is in S2, where D3hot stays as written, and from S0 nothing is shown. -/
theorem State.enterS2_shows (s : State) : InS2 s.enterS2 ∧ s.enterS2.pwr.d3hot = s.pwr.d3hot ∧ (s.pwr.st = .s0 → Dark s s.enterS2) := by
  obtain ⟨-, hst, hshow⟩ := s.leaveAny.stageS2_shows (s.pwr.st == .s1)
  obtain ⟨-, hin⟩ := State.settleS2_inS2 hst hshow
  obtain ⟨hdark, hpwr⟩ := s.goDark_dark
  rw [State.enterS2_eq]
  refine ⟨hin, ?_, fun h0 => ?_⟩
  · rw [State.settleS2_pwr hst]
    change s.leaveAny.pwr.d3hot = _
    refine reads_ite (g := fun t => t.pwr.d3hot) ?_ rfl
    rw [State.leaveS0_eq]
    change s.goDark.pwr.d3hot = _
    rw [hpwr]
  · have hleave : s.leaveAny = s.goDark.modPwr fun p => { p with capturing := false, captureFrame := none } := if_pos h0
    rw [hleave] at hst hshow ⊢
    exact ((hdark.kept (State.modPwr_dark _ _)).kept (State.stageS2_dark _ _)).kept (State.settleS2_dark hst)

/-! ## PMCSR (Table 16-4, R349) -/

/-- D3hot is written: a SET_POWER in progress ends. -/
def State.toD3 (s : State) : State := s.dropCapture.modPwr fun p => { p with d3hot := true }

theorem State.toD3_shows (s : State) : s.toD3.pwr.st = s.pwr.st ∧ s.toD3.scn = s.scn ∧ s.toD3.cmp = s.cmp ∧ s.toD3.live = s.live := by
  obtain ⟨-, -, hst⟩ := s.dropCapture_kept
  have hk := State.dropCapture_keeps (P := 838) rfl (.refl _ s)
  exact ⟨hst, hk.same .scn rfl, hk.same .cmp rfl, hk.same .live rfl⟩

theorem State.setTrans_d3 (s : State) (x : Option PwrTrans) : (s.setTrans x).pwr.d3hot = s.pwr.d3hot := rfl

/-- PMCSR D3hot of a module that is awake. -/
theorem pmcsrD3hot_enters {s : State} (ha : s.awake = true) (hd : s.pwr.d3hot = false) : Gives .pmcsrD3hot s fun t =>
    t.pwr.d3hot = true ∧ t.pwr.st = .s2 ∧ t.pwr.trans = some ⟨.s3, none⟩ ∧ t.rd F.PWR_STATUS_BUSY = 1 ∧ (s.pwr.st ≠ .s2 → InS2 t) ∧
      (s.pwr.st = .s0 → ShowsNothing s t) := by
  have h3 : s.pwr.st ≠ .s3 := fun h => by simp [State.awake, h] at ha
  obtain ⟨hst, hscn, hcmp, hlive⟩ := s.toD3_shows
  obtain ⟨hin, hd3, hdark⟩ := s.toD3.enterS2_shows
  refine gives_pos rfl (by simp [State.powered, ha, hd]) ?_
  have he : s.goPmcsr true = (if s.toD3.pwr.st = .s2 then s.toD3 else s.toD3.enterS2).setTrans (some ⟨.s3, none⟩) := by
    unfold State.goPmcsr
    rw [if_neg (by decide), if_neg h3]
    rfl
  rw [he, hst]
  by_cases h2 : s.pwr.st = .s2
  · rw [if_pos h2]
    obtain ⟨htrans, hbusy⟩ := s.toD3.setTrans_shows ⟨.s3, none⟩
    exact ⟨rfl, hst.trans h2, htrans, hbusy, fun h => absurd h2 h, fun h => by rw [h2] at h; cases h⟩
  · rw [if_neg h2]
    obtain ⟨htrans, hbusy⟩ := s.toD3.enterS2.setTrans_shows ⟨.s3, none⟩
    have hin2 := inS2_setTrans hin (some ⟨.s3, none⟩)
    have hd3' : (s.toD3.enterS2.setTrans (some ⟨.s3, none⟩)).pwr.d3hot = s.toD3.enterS2.pwr.d3hot := State.setTrans_d3 _ _
    refine ⟨hd3'.trans hd3, hin2.1, htrans, hbusy, fun _ => hin2, fun h0 => ?_⟩
    have hd := (hdark (hst.trans h0)).kept (State.setTrans_dark _ (some ⟨.s3, none⟩))
    have hs : Dark s (s.toD3.enterS2.setTrans (some ⟨.s3, none⟩)) := ⟨hd.frame, by rw [← hscn]; exact hd.scn, by rw [← hcmp]; exact hd.pend,
      hd.live.trans hlive, hd.blank⟩
    exact hs.showsNothing

end Sys2Proof.Machine
end

section
/-!
PROOFS. LEAVE on the pitches, ports held DOWN, and the time unit powered down (R349, R359, R360).
-/
namespace Sys2Proof.Machine

/-! ## What left the device has left it -/

/-- Everything that left the device by `s` has left it by `t`. -/
def OutGrows (s t : State) : Prop := ∀ o ∈ s.out, o ∈ t.out

theorem OutGrows.refl (s : State) : OutGrows s s := fun _ h => h

theorem OutGrows.trans {s t u : State} (h : OutGrows s t) (k : OutGrows t u) : OutGrows s u := fun o ho => k o (h o ho)

theorem OutGrows.of_out {s t : State} (h : t.out = s.out) : OutGrows s t := fun o ho => by rwa [h]

theorem OutGrows.raise (s : State) (e : Nat) : OutGrows s (s.raise e) := fun o ho => by
  obtain ⟨later, hlater⟩ := (s.raise_events e).sent
  rw [hlater]
  exact List.mem_append_right _ ho

theorem outGrows_messages (r : State) : MessageClosed (OutGrows r) where
  out q l msg h := h.trans (State.ropeOut_sends _ q l msg).out
  hops q _ _ h := h.trans (.of_out (State.modPitch_out _ q _))
  draw _ h := h
  setTim _ h := h
  wr _ _ h := h
  raise e h := h.trans (.raise _ e)

/-- What the rope does keeps `P`, so its messages do. -/
theorem WireClosed.messages {P : State → Prop} (c : WireClosed P) : MessageClosed P where
  out q l msg h := c.ropeOut q l msg h
  hops q f _ h := c.modPitch q f h
  draw n h := c.draw n h
  setTim x h := c.setTim x h
  wr v hf h := c.wr v (List.all_eq_true.1 (show messageFlds.all (fun f => wireReg f.off) = true by decide) _ hf) h
  raise e h := c.raise e h

/-! ## LEAVE (R349, R359) -/

/-- The LEAVE message. -/
def leaveMsg : List Byte := leBytes 0x54 1 ++ leBytes 0 7

theorem State.sendLeave_grows (s : State) (p : Port) : OutGrows s (s.sendLeave p) :=
  keptBy_ite (P := OutGrows s) (keptBy_foldl (List.range 4) (OutGrows.refl s) fun _ _ h => (outGrows_messages s).sendLocal p leaveMsg h)
    (.refl s)

/-- A version 2 pitch in UP sends LEAVE on the lane that carries its messages. -/
theorem State.sendLeave_out {s : State} {p : Port} {l : Nat} (hup : s.pitchUp p = true) (hver : s.pitchVer p = 2)
    (hl : s.carryLane p false = some l) (hlive : s.txLive (p.lane0 + l) = true) : .rope p l leaveMsg ∈ (s.sendLeave p).out := by
  have hfirst : .rope p l leaveMsg ∈ (s.sendLocal p leaveMsg).out := by
    rw [State.sendLocal, hl]
    dsimp only
    rw [State.ropeOut_out, if_pos hlive]
    exact List.mem_cons_self ..
  have hrest : OutGrows (s.sendLocal p leaveMsg) ([1, 2, 3].foldl (fun s _ => s.sendLocal p leaveMsg) (s.sendLocal p leaveMsg)) :=
    keptBy_foldl _ (.refl _) fun _ _ h => (outGrows_messages _).sendLocal p leaveMsg h
  unfold State.sendLeave
  rw [if_pos (by simp [hup, hver])]
  exact hrest _ hfirst

theorem State.sendLeave_sends (s : State) (p : Port) : SendKept s (s.sendLeave p) := by
  refine keptBy_ite (P := SendKept s) (keptBy_foldl (List.range 4) (SendKept.refl s) fun t _ h => ?_) (.refl s)
  unfold State.sendLocal
  split
  · exact h.trans (t.ropeOut_sends p _ _)
  · exact h

theorem SendKept.carries {s t : State} (h : SendKept s t) (p : Port) :
    t.pitchUp p = s.pitchUp p ∧ t.pitchVer p = s.pitchVer p ∧ t.carryLane p false = s.carryLane p false := by
  have hr : ∀ f, t.rd f = s.rd f := fun f => State.rd_of_regs (congrArg State.regs h.rest :) f
  refine ⟨?_, hr _, ?_⟩
  · simp only [State.pitchUp, State.pitchState, hr]
  · simp only [State.carryLane, hr]

/-- An orderly leave sends LEAVE on both pitches. -/
theorem State.startLeave_out {s : State} {p : Port} {l : Nat} (hup : s.pitchUp p = true) (hver : s.pitchVer p = 2)
    (hl : s.carryLane p false = some l) (hlive : s.txLive (p.lane0 + l) = true) : .rope p l leaveMsg ∈ s.startLeave.out := by
  have hafter : OutGrows ((s.sendLeave .up).sendLeave .dn) s.startLeave :=
    (outGrows_messages _).setAddress 0 (.refl _)
  refine hafter _ ?_
  cases p with
  | up => exact (s.sendLeave .up).sendLeave_grows .dn _ (State.sendLeave_out hup hver hl hlive)
  | dn =>
    have hsent := s.sendLeave_sends .up
    obtain ⟨hup', hver', hl'⟩ := hsent.carries .dn
    exact State.sendLeave_out (hup'.trans hup) (hver'.trans hver) (hl'.trans hl) (((hsent.same .dn _).2.1).trans hlive)

/-- After it the tile has left and has no address. -/
theorem State.startLeave_shows (s : State) : s.startLeave.rd F.ROPE_STATUS_LEFT = 1 ∧ s.startLeave.ropeAddr = 0 := by
  constructor
  · exact State.rd_wrB_same _ _ (by decide) rfl
  · exact (State.rd_wrB_ne _ _ (by decide) (by decide)).trans (State.setAddress_addr _ (by decide))

/-! ## Both ports are held DOWN (R359) -/

theorem State.dropHop_word (s : State) (m : HopMsg) {o : Nat} (ho : o ≠ 0x80048) (he : evtReg o = false) : (s.dropHop m).word o = s.word o := by
  have hfree : (s.freeSource m).word o = s.word o := by
    unfold State.word
    rw [(s.freeSource_wire m).regs]
  have hmail : (s.freeSource m).mailDrop.word o = s.word o :=
    (State.raise_word _ _ he).trans ((State.word_wr_ne _ (F.ROPE_CNT_COUNT 2) _ ho).trans hfree)
  exact reads_ite (g := fun t => t.word o) (c := m.mail = true) hmail hfree

/-- Dropping a pitch writes its own word, its lanes and counts. -/
theorem State.dropPitch_word (s : State) (p : Port) (failed : Bool) {o : Nat} (hp : o ≠ (pf p ⟨0x80010, 0, 32⟩).off) (hc : o ≠ 0x80048)
    (hl : o < 0xF0000) (he : evtReg o = false) : (s.dropPitch p failed).word o = s.word o := by
  have hclear : (s.clearPitch p failed).word o = s.word o :=
    (State.word_setWord_ne _ _ hp).trans (by cases p <;> rfl)
  rw [State.dropPitch_eq]
  refine keptBy_foldl (P := fun t => t.word o = s.word o) _ ?_ fun t m h => (t.dropHop_word m hc he).trans h
  refine keptBy_foldl (P := fun t => t.word o = s.word o) _ hclear fun t n h => ?_
  refine ((t.txIdle_regsOnly n true).2 _ ?_).trans h
  simp only [List.mem_cons, List.not_mem_nil, or_false]
  omega

theorem State.dropPitch_grows (s : State) (p : Port) (failed : Bool) : OutGrows s (s.dropPitch p failed) := by
  rw [State.dropPitch_eq]
  refine keptBy_foldl _ ?_ fun _ m h => (outGrows_messages s).dropHop m h
  refine keptBy_foldl (P := OutGrows s) _ (.of_out (State.modPitch_out s p _)) fun t n h => h.trans (.of_out ?_)
  rw [State.txIdle_eq]
  rfl

/-- Nothing follows a pitch's end after this tile's own LEAVE. -/
theorem State.pitchDown_left {s : State} (h : s.rd F.ROPE_STATUS_LEFT = 1) (p : Port) : s.pitchDown p false .quiet = s.dropPitch p false := by
  have hleft : (s.dropPitch p false).rdB F.ROPE_STATUS_LEFT = true := by
    have hw : (s.dropPitch p false).word 0x80008 = s.word 0x80008 :=
      s.dropPitch_word p false (by cases p <;> decide) (by decide) (by decide) (by decide)
    rw [State.rdB, State.rd_of_word (f := F.ROPE_STATUS_LEFT) hw, h]
    rfl
  unfold State.pitchDown
  dsimp only
  split
  · rfl
  · unfold State.afterUp
    rw [if_pos hleft]

/-- The ports held DOWN. -/
def State.heldPorts (s : State) : State := { s with rope := { s.rope with heldDown := true } }

/-- After a LEAVE both ports are dropped and held DOWN. -/
theorem State.holdDown_eq {s : State} (h : s.rd F.ROPE_STATUS_LEFT = 1) :
    s.holdDown = (s.heldPorts.dropPitch .up false).dropPitch .dn false := by
  have hup : s.heldPorts.pitchDown .up false .quiet = s.heldPorts.dropPitch .up false := State.pitchDown_left (s := s.heldPorts) h .up
  have hleft : (s.heldPorts.dropPitch .up false).rd F.ROPE_STATUS_LEFT = 1 :=
    (State.rd_of_word (f := F.ROPE_STATUS_LEFT)
      (s.heldPorts.dropPitch_word .up false (by decide) (by decide) (by decide) (by decide))).trans h
  have hdn := State.pitchDown_left hleft .dn
  rw [← hup] at hdn ⊢
  exact hdn

/-- What the end of both pitches shows. -/
structure PortsHeld (s t : State) : Prop where
  states : t.pitchState .up = 0 ∧ t.pitchState .dn = 0
  held : t.rope.heldDown = true
  words : ∀ o, o ≠ 0x80010 → o ≠ 0x80014 → o ≠ 0x80048 → o < 0xF0000 → evtReg o = false → t.word o = s.word o
  out : OutGrows s t

theorem State.holdDown_holds {s : State} (h : s.rd F.ROPE_STATUS_LEFT = 1) : PortsHeld s s.holdDown := by
  rw [State.holdDown_eq h]
  have hup := s.heldPorts.dropPitch_low .up false
  have hdn := (s.heldPorts.dropPitch .up false).dropPitch_low .dn false
  refine ⟨⟨?_, hdn.state⟩, ?_, fun o h10 h14 h48 hl he => ?_, ?_⟩
  · have hw : ((s.heldPorts.dropPitch .up false).dropPitch .dn false).word 0x80010 = (s.heldPorts.dropPitch .up false).word 0x80010 :=
      State.dropPitch_word _ .dn false (by decide) (by decide) (by decide) (by decide)
    exact (State.rd_of_word (f := F.ROPE_UP_STATE_STATE) hw).trans hup.state
  · exact ((State.dropPitch_moves _ .dn false).heldDown).trans ((s.heldPorts.dropPitch_moves .up false).heldDown)
  · exact (State.dropPitch_word _ .dn false h14 h48 hl he).trans (State.dropPitch_word _ .up false h10 h48 hl he)
  · exact OutGrows.trans (State.dropPitch_grows s.heldPorts .up false) (State.dropPitch_grows _ .dn false)

/-! ## The time unit is powered down (R360, R365) -/

/-- Registers of the calibrator, the flash store, the time unit, the scan status and events apart. -/
def TimeReg (o : Nat) : Prop := (0x50000 ≤ o ∧ o < 0x80000) ∨ o = 0xD0004 ∨ evtReg o = true

/-- What a power-down of the time unit leaves, and that nothing comes back that left the device. -/
structure TimeKept (s t : State) : Prop where
  words : ∀ o, ¬TimeReg o → t.word o = s.word o
  out : OutGrows s t

theorem TimeKept.refl (s : State) : TimeKept s s := ⟨fun _ _ => rfl, .refl s⟩

theorem TimeKept.trans {s t u : State} (h : TimeKept s t) (k : TimeKept t u) : TimeKept s u :=
  ⟨fun o ho => (k.words o ho).trans (h.words o ho), h.out.trans k.out⟩

theorem TimeKept.setWord (s : State) {off : Nat} (w : Word) (h : TimeReg off) : TimeKept s (s.setWord off w) :=
  ⟨fun _ ho => State.word_setWord_ne _ _ fun he => ho (he ▸ h), .of_out rfl⟩

theorem TimeKept.wr {r s : State} (h : TimeKept r s) {f : Fld} (v : Nat) (hf : TimeReg f.off) : TimeKept r (s.wr f v) :=
  h.trans (.setWord s _ hf)

theorem TimeKept.raise (s : State) (e : Nat) : TimeKept s (s.raise e) :=
  ⟨fun _ ho => State.raise_word s e (Bool.eq_false_iff.2 fun he => ho (.inr (.inr he))), .raise s e⟩

theorem TimeKept.of_regs {s t : State} (hr : t.regs = s.regs) (ho : OutGrows s t) : TimeKept s t :=
  ⟨fun _ _ => by rw [State.word, hr]; rfl, ho⟩

theorem timeReg_of {o : Nat} (hlo : 0x50000 ≤ o) (hhi : o < 0x80000) : TimeReg o := .inl ⟨hlo, hhi⟩

theorem State.setPref_time (s : State) (n v : Nat) : TimeKept s (s.setPref n v) :=
  keptBy_ite (P := TimeKept s) (.refl s) (.of_regs rfl fun _ ho => List.mem_cons_of_mem _ ho)

theorem State.applyPref_time (s : State) : TimeKept s s.applyPref :=
  keptBy_ite (P := TimeKept s) (keptBy_foldl (P := TimeKept s) _ (.of_regs rfl (.of_out rfl)) fun t n h => h.trans (t.setPref_time n _))
    (.of_regs rfl (.of_out rfl))

/-- The staged words are taken. -/
def State.takeActs (s : State) : State := (List.range 22).foldl (fun s i => s.setWord (0x50200 + 4 * i) (s.word (0x50100 + 4 * i))) s

/-- Their source and the latency are shown. -/
def State.showActs (s : State) : State :=
  ((s.wr F.TIM_LAT_PS_LAT (s.rd F.CAL_ACT_LAT_LAT_PS)).wr F.CAL_STATUS_SOURCE s.cal.source).wrB F.CAL_STATUS_APPLY_PENDING false

theorem State.applyCal_eq (s : State) : s.applyCal =
    if !s.rdB F.CAL_STATUS_APPLY_PENDING then s else s.takeActs.showActs.applyPref.raise Ev.CAL_APPLIED := rfl

theorem State.takeActs_time (s : State) : TimeKept s s.takeActs :=
  keptBy_foldl_mem _ (.refl s) fun t i hi h => h.trans (.setWord t _ (timeReg_of (by omega) (by have := List.mem_range.1 hi; omega)))

theorem State.showActs_time (s : State) : TimeKept s s.showActs :=
  (((TimeKept.refl s).wr (f := F.TIM_LAT_PS_LAT) _ (timeReg_of (by decide) (by decide))).wr (f := F.CAL_STATUS_SOURCE) _
    (timeReg_of (by decide) (by decide))).wr (f := F.CAL_STATUS_APPLY_PENDING) _ (timeReg_of (by decide) (by decide))

theorem State.applyCal_time (s : State) : TimeKept s s.applyCal := by
  rw [State.applyCal_eq]
  exact keptBy_ite (P := TimeKept s) (.refl s)
    (((s.takeActs_time.trans s.takeActs.showActs_time).trans (State.applyPref_time _)).trans (.raise _ _))

theorem State.drive_time (s : State) (n : Nat) (level : Bool) (ps : Int) : TimeKept s (s.drive n level ps) :=
  keptBy_ite (P := TimeKept s) (.refl s) (.of_regs rfl fun _ ho => List.mem_cons_of_mem _ ho)

theorem State.setArmed_time (s : State) {n : Nat} (hn : n < 8) (a : Option TevArmed) : TimeKept s (s.setArmed n a) := by
  have hmod : TimeKept s (s.modTev n fun t => { t with armed := a, last := t.last && a.isNone }) := .of_regs rfl (.of_out rfl)
  exact (hmod.wr (f := F.TIM_TEV_CTRL_ARM n) (b2n a.isSome) (timeReg_of (by simp only [F.TIM_TEV_CTRL_ARM]; omega)
    (by simp only [F.TIM_TEV_CTRL_ARM]; omega))).wr (f := F.TIM_TEV_STATUS_ARMED n) (b2n a.isSome)
    (timeReg_of (by simp only [F.TIM_TEV_STATUS_ARMED]; omega) (by simp only [F.TIM_TEV_STATUS_ARMED]; omega))

theorem State.idleOutputs_time (s : State) : TimeKept s s.idleOutputs := by
  have htevs : TimeKept s ((List.range 8).foldl (fun s n => ((s.setArmed n none).modTev n fun _ => Tev.idle).idleTev n) s) := by
    refine keptBy_foldl_mem _ (.refl s) fun t n hn h => ?_
    have harmed := h.trans (t.setArmed_time (List.mem_range.1 hn) none)
    have hidle : TimeKept s ((t.setArmed n none).modTev n fun _ => Tev.idle) := ⟨harmed.words, harmed.out⟩
    exact keptBy_ite hidle (hidle.trans (State.drive_time _ _ _ _))
  unfold State.idleOutputs
  generalize (List.range 8).foldl (fun s n => ((s.setArmed n none).modTev n fun _ => Tev.idle).idleTev n) s = u at htevs
  have hu : TimeKept s { u with tim := { u.tim with fstrobe := none } } := ⟨htevs.words, htevs.out⟩
  exact keptBy_ite hu (hu.trans (State.drive_time _ _ _ _))

theorem State.scnStop_time (s : State) : TimeKept s s.scnStop := by
  have hmod : TimeKept s (s.modScn fun c => { c with started := false, guarded := false, decided := false, cur := none, gap := none }) :=
    .of_regs rfl (.of_out rfl)
  exact (hmod.wr (f := F.SCN_STATUS_TIME_OK) (b2n false) (.inr (.inl rfl))).wr (f := F.SCN_STATUS_RETIMING) (b2n false) (.inr (.inl rfl))

/-- The time unit as after a reset, but for OFFSET, the clock's rate and the levels of its outputs. -/
def State.timeReset (s : State) : State :=
  s.modTim fun t => { TimSt.reset with offset := t.offset, incNom := t.incNom, inc := t.incNom, levels := t.levels }

/-- VALID, LOCKED and what else TIM_STATUS shows fall. -/
def State.timeInvalid (s : State) : State :=
  ((((s.wrB F.TIM_STATUS_VALID false).wrB F.TIM_STATUS_LOCKED false).wrB F.TIM_STATUS_SLEWING false).wrB F.TIM_STATUS_TREF_OK false).wrB
    F.TIM_STATUS_PPS_OK false

theorem State.timeDown_eq (s : State) : s.timeDown = s.scnStop.applyCal.idleOutputs.timeReset.timeInvalid.settleRef.settleRole := rfl

theorem timeReg_status : TimeReg 0x70004 := timeReg_of (by decide) (by decide)

theorem State.settleRole_time (s : State) : TimeKept s s.settleRole :=
  ⟨fun _ ho => State.settleRole_words s fun he => ho (he ▸ timeReg_status), .of_out ((State.settleRole_keeps (P := 20) rfl (.refl _ s)).same .out rfl)⟩

theorem State.timeDown_time (s : State) : TimeKept s s.timeDown := by
  have hidle := (s.scnStop_time.trans s.scnStop.applyCal_time).trans s.scnStop.applyCal.idleOutputs_time
  rw [State.timeDown_eq]
  generalize s.scnStop.applyCal.idleOutputs = u at hidle
  have hreset : TimeKept s u.timeReset := ⟨hidle.words, hidle.out⟩
  have hinvalid : TimeKept s u.timeReset.timeInvalid :=
    ((((hreset.wr (f := F.TIM_STATUS_VALID) _ timeReg_status).wr (f := F.TIM_STATUS_LOCKED) _ timeReg_status).wr
      (f := F.TIM_STATUS_SLEWING) _ timeReg_status).wr (f := F.TIM_STATUS_TREF_OK) _ timeReg_status).wr (f := F.TIM_STATUS_PPS_OK) _
      timeReg_status
  have href : TimeKept s u.timeReset.timeInvalid.settleRef := hinvalid.wr (f := F.TIM_STATUS_TREF_USED) _ timeReg_status
  exact href.trans (State.settleRole_time _)

/-- The time unit without power: no rope time, no timestamp, no output armed, no frame timing. -/
structure TimeOff (t : State) : Prop where
  valid : t.rd F.TIM_STATUS_VALID = 0
  locked : t.rd F.TIM_STATUS_LOCKED = 0
  raw : t.tim.raw = 0
  tsq : t.tim.tsq = []
  tev : ∀ v ∈ t.tim.tev, v.armed = none ∧ v.pulse = none
  started : t.scn.started = false

theorem State.settleRole_status (s : State) {f : Fld} (hf : f.off ≠ 0x70004 ∨ f.lo + f.len ≤ 2) : s.settleRole.rd f = s.rd f :=
  (s.settleRole_rd (hf.imp id fun h => .inl (by omega))).trans (s.showRole_rd_ne (hf.imp id .inl))

theorem State.settleRef_rd (s : State) {f : Fld} (hf : f.off ≠ 0x70004 ∨ f.lo + f.len ≤ 4) : s.settleRef.rd f = s.rd f :=
  State.rd_wrB_ne s (f := F.TIM_STATUS_TREF_USED) _ (by decide) (hf.imp id .inl)

theorem State.timeInvalid_shows (s : State) : s.timeInvalid.rd F.TIM_STATUS_VALID = 0 ∧ s.timeInvalid.rd F.TIM_STATUS_LOCKED = 0 := by
  have hlater : ∀ (u : State) (f : Fld), f.off = 0x70004 → f.lo + f.len ≤ 2 →
      (((u.wrB F.TIM_STATUS_SLEWING false).wrB F.TIM_STATUS_TREF_OK false).wrB F.TIM_STATUS_PPS_OK false).rd f = u.rd f := fun u f _ hf => by
    rw [State.rd_wrB_ne _ _ (by decide) (.inr (.inl (Nat.le_trans hf (by decide)))), State.rd_wrB_ne _ _ (by decide)
      (.inr (.inl (Nat.le_trans hf (by decide)))), State.rd_wrB_ne _ _ (by decide) (.inr (.inl (Nat.le_trans hf (by decide))))]
  refine ⟨(hlater _ _ rfl (by decide)).trans ?_, (hlater _ _ rfl (by decide)).trans ?_⟩
  · exact (State.rd_wrB_ne _ _ (by decide) (by decide)).trans (State.rd_wrB_same _ _ (by decide) rfl)
  · exact State.rd_wrB_same _ _ (by decide) rfl

theorem State.timeDown_off (s : State) : TimeOff s.timeDown := by
  have hscn : s.scnStop.applyCal.idleOutputs.scn = s.scnStop.scn :=
    (State.idleOutputs_keeps (P := 16999 ||| 21) rfl (State.applyCal_keeps rfl (.refl _ s.scnStop))).same .scn rfl
  rw [State.timeDown_eq]
  generalize s.scnStop.applyCal.idleOutputs = u at hscn
  obtain ⟨hvalid, hlocked⟩ := u.timeReset.timeInvalid_shows
  have hscn' := (State.settleRole_keeps (P := 20) rfl (.refl _ u.timeReset.timeInvalid.settleRef)).same .scn rfl
  have htim := u.timeReset.timeInvalid.settleRef.settleRole_tim
  have hparts : ∀ x : TimSt, x.raw = 0 ∧ x.tsq = [] ∧ (∀ v ∈ x.tev, v.armed = none ∧ v.pulse = none) →
      ∀ c : Prop, [Decidable c] → let y := if c then x else { x with ppsS := none }
        y.raw = 0 ∧ y.tsq = [] ∧ ∀ v ∈ y.tev, v.armed = none ∧ v.pulse = none := fun x hx c _ => by
    dsimp only
    split <;> exact hx
  have hreset : ∀ v ∈ u.timeReset.tim.tev, v.armed = none ∧ v.pulse = none := fun v hv => by
    obtain rfl := List.eq_of_mem_replicate (show v ∈ List.replicate 8 Tev.idle from hv)
    exact ⟨rfl, rfl⟩
  obtain ⟨hraw, htsq, htev⟩ := hparts u.timeReset.tim ⟨rfl, rfl, hreset⟩ (u.timeReset.timeInvalid.settleRef.role = 1)
  refine ⟨?_, ?_, by rw [htim]; exact hraw, by rw [htim]; exact htsq, by rw [htim]; exact htev, ?_⟩
  · exact (State.settleRole_status _ (.inr (by decide))).trans ((State.settleRef_rd _ (.inr (by decide))).trans hvalid)
  · exact (State.settleRole_status _ (.inr (by decide))).trans ((State.settleRef_rd _ (.inr (by decide))).trans hlocked)
  · rw [hscn']
    change u.scn.started = false
    rw [hscn]
    rfl

end Sys2Proof.Machine
end

section
/-!
PROOFS. The entry to S3 and its end (Table 16-3, R349).
-/
namespace Sys2Proof.Machine

/-! ## Entry to S3 (Table 16-3, R349) -/

/-- What the entry to S3 shows, with the LEAVE messages that went out first. -/
structure InS3 (s t : State) : Prop where
  time : TimeOff t
  left : t.rd F.ROPE_STATUS_LEFT = 1
  addr : t.ropeAddr = 0
  held : t.rope.heldDown = true
  states : t.pitchState .up = 0 ∧ t.pitchState .dn = 0
  lanes : ∀ l ∈ t.lanes, l.saved = none ∧ l.savedQ = none
  lines : ∀ r ∈ t.hif.rings, r.lineShared = false
  live : t.live = s.live
  leave : ∀ p l, s.pitchUp p = true → s.pitchVer p = 2 → s.carryLane p false = some l → s.txLive (p.lane0 + l) = true →
    .rope p l leaveMsg ∈ t.out

/-- What keeps S3: all that it shows stays, and nothing comes back that left the device. -/
theorem InS3.kept {s t u : State} (h : InS3 s t) (hw : ∀ o, o ≠ 0x30004 → o ≠ 0x60004 → evtReg o = false → u.word o = t.word o)
    (htim : u.tim = t.tim) (hscn : u.scn = t.scn) (hrope : u.rope = t.rope) (hlanes : u.lanes = t.lanes)
    (hrings : u.hif.rings = t.hif.rings) (hlive : u.live = t.live) (hout : OutGrows t u) : InS3 s u where
  time := ⟨(State.rd_of_word (hw 0x70004 (by decide) (by decide) rfl)).trans h.time.valid,
    (State.rd_of_word (hw 0x70004 (by decide) (by decide) rfl)).trans h.time.locked, by rw [htim]; exact h.time.raw,
    by rw [htim]; exact h.time.tsq, by rw [htim]; exact h.time.tev, by rw [hscn]; exact h.time.started⟩
  left := (State.rd_of_word (hw 0x80008 (by decide) (by decide) rfl)).trans h.left
  addr := (State.rd_of_word (f := F.ROPE_STATUS_ADDRESS) (hw 0x80008 (by decide) (by decide) rfl)).trans h.addr
  held := by rw [hrope]; exact h.held
  states := ⟨(State.rd_of_word (f := F.ROPE_UP_STATE_STATE) (hw 0x80010 (by decide) (by decide) rfl)).trans h.states.1,
    (State.rd_of_word (f := pf .dn F.ROPE_UP_STATE_STATE) (hw 0x80014 (by decide) (by decide) rfl)).trans h.states.2⟩
  lanes := by rw [hlanes]; exact h.lanes
  lines := by rw [hrings]; exact h.lines
  live := hlive.trans h.live
  leave p l hup hver hl hlive := hout _ (h.leave p l hup hver hl hlive)

/-- The rope and the time unit go down. -/
def State.quietRope (s : State) : State := (s.startLeave.holdDown.timeDown).wrB F.CAL_STATUS_BUSY false

/-- Saved coefficients are lost and every line is released. -/
def State.looseEnds (s : State) : State :=
  State.releaseLines { s with lanes := s.lanes.map fun l => { l with saved := none, savedQ := none } } fun _ => false

theorem State.enterS3_eq (s : State) : s.enterS3 = s.quietRope.looseEnds.modPwr fun p => { p with st := .s3 } := rfl

/-- The rope is quiet, and the power stage as it was. -/
theorem State.quietRope_shows (s : State) : TimeOff s.quietRope ∧ PortsHeld s.startLeave s.startLeave.holdDown ∧
    TimeKept s.startLeave.holdDown s.quietRope ∧ s.quietRope.rope = s.startLeave.holdDown.rope ∧ s.quietRope.live = s.live ∧
    s.quietRope.pwr = s.pwr := by
  obtain ⟨hleft, -⟩ := s.startLeave_shows
  have hdown := s.startLeave.holdDown.timeDown_off
  have hkept := s.startLeave.holdDown.timeDown_time
  have hrope := (State.timeDown_keeps (P := 25207) rfl (.refl _ s.startLeave.holdDown)).same .rope rfl
  have hall := State.timeDown_keeps (P := 3146359 ||| 25207) rfl (State.holdDown_keeps rfl (State.startLeave_keeps rfl (.refl _ s)))
  refine ⟨⟨?_, ?_, hdown.raw, hdown.tsq, hdown.tev, hdown.started⟩, State.holdDown_holds hleft, ?_, hrope, hall.same .live rfl, hall.same .pwr rfl⟩
  · exact (State.rd_wrB_ne _ (f := F.CAL_STATUS_BUSY) _ (by decide) (by decide)).trans hdown.valid
  · exact (State.rd_wrB_ne _ (f := F.CAL_STATUS_BUSY) _ (by decide) (by decide)).trans hdown.locked
  · exact hkept.wr (f := F.CAL_STATUS_BUSY) _ (timeReg_of (by decide) (by decide))

theorem not_timeReg {o : Nat} (h1 : o < 0x50000 ∨ 0x80000 ≤ o) (h2 : o ≠ 0xD0004) (h3 : evtReg o = false) : ¬TimeReg o := by
  rintro (⟨hlo, hhi⟩ | h | h)
  · omega
  · exact h2 h
  · rw [h3] at h
    cases h

theorem State.startLeave_stage (s : State) : StageKept s s.startLeave := by
  have c := (stage_closed s).toWireClosed
  have hsent : ∀ {t : State} (p : Port), StageKept s t → StageKept s (t.sendLeave p) := fun p h =>
    keptBy_ite (keptBy_foldl (List.range 4) h fun _ _ h => c.sendLocal p leaveMsg h) h
  exact c.wr (f := F.ROPE_STATUS_LEFT) _ rfl (c.messages.setAddress 0 (hsent .dn (hsent .up (.refl s))))

/-- A state with no saved coefficients and no line held, in S3. -/
theorem InS3.of_quiet {s u : State} (hoff : TimeOff u) (hleft : u.rd F.ROPE_STATUS_LEFT = 1) (haddr : u.ropeAddr = 0)
    (hheld : u.rope.heldDown = true) (hstates : u.pitchState .up = 0 ∧ u.pitchState .dn = 0) (hlive : u.live = s.live)
    (hout : ∀ p l, s.pitchUp p = true → s.pitchVer p = 2 → s.carryLane p false = some l → s.txLive (p.lane0 + l) = true →
      .rope p l leaveMsg ∈ u.out) : InS3 s (u.looseEnds.modPwr fun p => { p with st := .s3 }) where
  time := ⟨hoff.valid, hoff.locked, hoff.raw, hoff.tsq, hoff.tev, hoff.started⟩
  left := hleft
  addr := haddr
  held := hheld
  states := hstates
  lanes l hl := by
    obtain ⟨x, -, rfl⟩ := List.mem_map.1 hl
    exact ⟨rfl, rfl⟩
  lines r hr := by
    obtain ⟨x, -, rfl⟩ := List.mem_map.1 hr
    rfl
  live := hlive
  leave := hout

/-- The entry to S3 from a state. -/
theorem State.enterS3_shows (s : State) : InS3 s s.enterS3 ∧ s.enterS3.pwr = { s.pwr with st := .s3 } ∧
    s.enterS3.word 0x30004 = s.word 0x30004 := by
  obtain ⟨hoff, hheld, hkept, hrope, hlive, hpwr⟩ := s.quietRope_shows
  obtain ⟨hleft, haddr⟩ := s.startLeave_shows
  have hstage := s.startLeave_stage.words 0x30004 (by decide) (by decide)
  have hleave : ∀ p l, s.pitchUp p = true → s.pitchVer p = 2 → s.carryLane p false = some l → s.txLive (p.lane0 + l) = true →
      .rope p l leaveMsg ∈ s.startLeave.out := fun p l => State.startLeave_out
  have hword : ∀ o, o < 0x50000 ∨ 0x80000 ≤ o → o < 0xD0000 → o ≠ 0x80010 → o ≠ 0x80014 → o ≠ 0x80048 → evtReg o = false →
      s.quietRope.word o = s.startLeave.word o := fun o hlo hhi h10 h14 h48 he =>
    (hkept.words o (not_timeReg hlo (by omega) he)).trans (hheld.words o h10 h14 h48 (by omega) he)
  have hpitch : ∀ o, 0x80000 ≤ o → o < 0xD0000 → evtReg o = false → s.quietRope.word o = s.startLeave.holdDown.word o := fun o hlo hhi he =>
    hkept.words o (not_timeReg (.inr hlo) (by omega) he)
  rw [State.enterS3_eq]
  generalize s.quietRope = u at *
  refine ⟨InS3.of_quiet hoff ?_ ?_ ?_ ⟨?_, ?_⟩ hlive fun p l hup hver hl htx => hkept.out _ (hheld.out _ (hleave p l hup hver hl htx)),
    ?_, ?_⟩
  · exact (State.rd_of_word (f := F.ROPE_STATUS_LEFT)
      (hword 0x80008 (by decide) (by decide) (by decide) (by decide) (by decide) rfl)).trans hleft
  · exact (State.rd_of_word (f := F.ROPE_STATUS_ADDRESS)
      (hword 0x80008 (by decide) (by decide) (by decide) (by decide) (by decide) rfl)).trans haddr
  · rw [hrope]
    exact hheld.held
  · exact (State.rd_of_word (f := F.ROPE_UP_STATE_STATE) (hpitch 0x80010 (by decide) (by decide) rfl)).trans hheld.states.1
  · exact (State.rd_of_word (f := pf .dn F.ROPE_UP_STATE_STATE) (hpitch 0x80014 (by decide) (by decide) rfl)).trans hheld.states.2
  · rw [← hpwr]
    rfl
  · exact (hword 0x30004 (by decide) (by decide) (by decide) (by decide) (by decide) rfl).trans hstage

theorem InS3.raise {s t : State} (h : InS3 s t) (e : Nat) : InS3 s (t.raise e) :=
  h.kept (fun _ _ _ he => State.raise_word t e he) (t.raise_tim e) (t.raise_scn e) (t.raise_rope e) (t.raise_lanes e) (t.raise_rings e)
    (t.raise_live e) (.raise t e)

theorem InS3.startReturn {s t : State} (h : InS3 s t) : InS3 s t.startReturn :=
  h.kept (fun _ h3 h6 _ => (State.word_wr_ne _ F.PWR_STATUS_BUSY _ h3).trans (State.word_wr_ne t F.NVS_STATUS_RECALL_BUSY _ h6))
    rfl rfl rfl rfl rfl rfl (.of_out rfl)

/-- The settings of a transition that ended carry LEAVE as before. -/
theorem State.setTrans_carries (s : State) (x : Option PwrTrans) (p : Port) : (s.setTrans x).pitchUp p = s.pitchUp p ∧
    (s.setTrans x).pitchVer p = s.pitchVer p ∧ (s.setTrans x).carryLane p false = s.carryLane p false ∧
    ∀ n, (s.setTrans x).txLive n = s.txLive n := by
  have hw : ∀ o, 0x40000 ≤ o → (s.setTrans x).word o = s.word o := fun o ho =>
    State.word_wr_ne (s.modPwr fun p => { p with trans := x }) F.PWR_STATUS_BUSY _ (Nat.ne_of_gt (Nat.lt_of_lt_of_le (by decide) ho))
  have hpitch : ∀ f : Fld, f.off = 0x80010 → (s.setTrans x).rd (pf p f) = s.rd (pf p f) := fun f hf =>
    State.rd_of_word (hw _ (by cases p <;> simp [pf, hf]))
  refine ⟨?_, hpitch _ rfl, ?_, fun n => ?_⟩
  · simp only [State.pitchUp, State.pitchState, hpitch F.ROPE_UP_STATE_STATE rfl]
  · simp only [State.carryLane, hpitch F.ROPE_UP_STATE_LANES rfl]
  · have hgen : (s.setTrans x).rd (F.LNK_L_CTRL_PRBS_GEN n) = s.rd (F.LNK_L_CTRL_PRBS_GEN n) :=
      State.rd_of_word (hw _ (by simp only [F.LNK_L_CTRL_PRBS_GEN]; omega))
    have hlane : (s.setTrans x).lane n = s.lane n := State.lane_of_lanes rfl n
    simp only [State.txLive, State.rdB, hgen, hlane]

/-- The end of an entry to S3: PMCSR may have been written D0 meanwhile. -/
theorem State.endS3_shows (s : State) : let t := (s.setTrans none).endS3
    t.pwr.st = .s3 ∧ t.pwr.trans = (if s.pwr.d3hot = true then none else some ⟨.s0, none⟩) ∧
      t.rd F.PWR_STATUS_BUSY = (if s.pwr.d3hot = true then 0 else 1) ∧ Raised Ev.PWR_STATE t ∧ InS3 (s.setTrans none) t := by
  obtain ⟨hin, hpwr, hword⟩ := (s.setTrans none).enterS3_shows
  have hraised : Raised Ev.PWR_STATE ((s.setTrans none).enterS3.raise Ev.PWR_STATE) :=
    State.raised _ rfl (by rw [State.hasEvents, hpwr]; exact Bool.or_true _)
  have hd3 : ((s.setTrans none).enterS3.raise Ev.PWR_STATE).pwr = { (s.setTrans none).pwr with st := .s3 } := (State.raise_pwr _ _).trans hpwr
  have hbusy : ((s.setTrans none).enterS3.raise Ev.PWR_STATE).rd F.PWR_STATUS_BUSY = 0 :=
    (State.raise_rd _ _ rfl).trans ((State.rd_of_word hword).trans s.setTrans_none_busy)
  have hin' := hin.raise Ev.PWR_STATE
  unfold State.endS3
  dsimp only
  generalize (s.setTrans none).enterS3.raise Ev.PWR_STATE = u at *
  have hdu : u.pwr.d3hot = s.pwr.d3hot := by rw [hd3]; rfl
  rw [hdu]
  cases hd : s.pwr.d3hot
  · rw [if_neg (by decide), if_neg (by decide), if_neg (by decide)]
    refine ⟨by change u.pwr.st = .s3; rw [hd3], rfl, (State.setTrans_shows _ _).2, ?_, hin'.startReturn⟩
    exact (hraised.wr F.NVS_STATUS_RECALL_BUSY _ rfl (by decide)).wr F.PWR_STATUS_BUSY _ rfl (by decide)
  · rw [if_pos rfl, if_pos rfl, if_pos rfl]
    exact ⟨by rw [hd3], by rw [hd3]; rfl, hbusy, hraised, hin'⟩

end Sys2Proof.Machine
end

section
/-!
PROOFS. Cleared memory and the return from S3 (R326, R396, R409).
-/
namespace Sys2Proof.Machine

/-! ## Cleared memory (R326) -/

theorem gfMulBits_zero (n b : Nat) : gfMulBits n 0 b = 0 := by
  induction n generalizing b with
  | zero => rfl
  | succ n ih =>
    have hd : gfDouble 0 = 0 := by decide
    simp [gfMulBits, hd, ih]

/-- A codeword of zeros evaluates to 0 everywhere. -/
theorem gfEval_zeros (x n : Nat) : gfEval x (List.replicate n 0) = 0 := by
  refine List.foldlRecOn (motive := fun acc => acc = 0) _ _ rfl fun acc h c hc => ?_
  obtain rfl := List.eq_of_mem_replicate hc
  rw [h, gfMul, gfMulBits_zero]
  rfl

theorem guardClassify_zeros (n : Nat) : guardClassify (List.replicate n 0) = .good := by
  have hsyn : guardSyndrome (List.replicate n 0) = [0, 0, 0, 0] := by
    unfold guardSyndrome
    simp only [gfEval_zeros]
    rfl
  unfold guardClassify
  rw [hsyn]
  rfl

theorem cellRead_empty (a n : Nat) : cellRead (fun _ => (0 : Byte)) [] a n = List.replicate n 0 := by
  have h : ∀ n a, cellRun (fun _ => (0 : Byte)) n a [] = List.replicate n 0 := fun n => by
    induction n with
    | zero => exact fun _ => rfl
    | succ n ih => exact fun a => congrArg (0 :: ·) (ih (a + 1))
  exact h n a

/-- Memory without data reads 0 everywhere, as no reader's poison. -/
theorem MemSt.peekByte_cleared {m : MemSt} (hd : m.data = []) (hc : m.check = []) (a : Nat) : m.peekByte a = ⟨0, false⟩ := by
  have hraw : ∀ sec, m.rawData sec = List.replicate 32 0 := fun sec => by rw [MemSt.rawData, hd, cellRead_empty]
  have hgood : ∀ sec, m.classify sec = .good := fun sec => by
    have hcode : m.codeword sec = List.replicate 36 0 := by
      rw [MemSt.codeword, hd, hc, cellRead_empty, cellRead_empty]
      rfl
    rw [MemSt.classify, hcode, guardClassify_zeros]
  rw [MemSt.peekByte, MemSt.readSector, hgood]
  simp only [hraw, List.map_replicate, List.getD_eq_getElem?_getD, List.getElem?_replicate]
  split <;> rfl

/-! ## Return from S3 (R396, R409) -/

theorem EventsOnly.dropEvtSrc (s : State) (src : Nat) : EventsOnly s (s.dropEvtSrc src) := (EventsOnly.refl s).set_evt _

/-- Held events are delivered, and nothing else happens. -/
theorem State.deliverHeld_events (s : State) : EventsOnly s s.deliverHeld :=
  keptBy_foldl (P := EventsOnly s) _ (.refl s) fun t e h =>
    ((h.trans (EventsOnly.dropEvtSrc t e.src)).trans (State.deliver_events _ _ _ _ _)).trans (State.evtStart_events _ _)

/-- What the return of the rope leaves of the registers. -/
def returnFlds : List Fld :=
  [F.ROPE_STATUS_LEFT, F.PWR_STATUS_STATE, F.PWR_STATUS_SHED, F.PWR_STATUS_BUSY, F.PWR_STATUS_HOLD_VALID]

theorem returnFlds_noEvents : noEvents returnFlds = true := by decide

theorem returnFlds_lock (q : Port) : clearOf (pf q F.ROPE_UP_STATE_STATE :: pitchWrites q) returnFlds = true := by cases q <;> decide

theorem State.settleRope_return {r s : State} (h : PitchMoves returnFlds .up r s) : PitchMoves returnFlds .up r s.settleRope :=
  (h.lockPitch (returnFlds_lock .up) returnFlds_noEvents).lockPitch (returnFlds_lock .dn) returnFlds_noEvents

/-- The ports are released. -/
def State.ropeFreed (s : State) : State := { s with rope := { s.rope with released := true, headWaited := false, heldDown := false } }

theorem State.releaseRope_eq (s : State) : s.releaseRope =
    if s.ropeFreed.rdB F.ROPE_STATUS_STRAPPED then s.ropeFreed.becomeHead.settleRope
    else ((s.ropeFreed.wrB F.ROPE_STATUS_HEAD false).setAddress 0).settleRole.settleRope := rfl

theorem State.releaseRope_moves (s : State) : PitchMoves returnFlds .up s.ropeFreed s.releaseRope := by
  have hm : MessageClosed (PitchMoves returnFlds .up s.ropeFreed) := PitchMoves.messages returnFlds_noEvents (by decide)
  rw [State.releaseRope_eq]
  exact keptBy_ite (P := PitchMoves returnFlds .up s.ropeFreed) (State.settleRope_return (hm.becomeHead (.refl _ _ _)))
    (State.settleRope_return (hm.settleRole (hm.setAddress 0 (hm.wr _ (by decide) (.refl _ _ _)))))

/-- Memory cleared and the decoder as after STREAM_RESET. -/
def State.s3Cleared (s : State) : State := s.clearHbm.decRestart false true

/-- The rope rejoined after S3, and held events delivered. -/
def State.rejoined (s : State) : State := (s.wrB F.ROPE_STATUS_LEFT false).releaseRope.deliverHeld

theorem State.leaveS3_eq (s : State) : s.leaveS3 = s.s3Cleared.enterS0.rejoined := rfl

theorem State.s3Cleared_shows (s : State) : (∀ a, s.s3Cleared.mem.peekByte a = ⟨0, false⟩) ∧ s.s3Cleared.mem.clearing = true ∧
    s.s3Cleared.rd F.PWR_STATUS_HOLD_VALID = 0 ∧ s.s3Cleared.rd F.PWR_STATUS_BUSY = s.rd F.PWR_STATUS_BUSY ∧ s.s3Cleared.dec.pics = [] ∧
    s.s3Cleared.pwr = s.pwr ∧ s.s3Cleared.live = s.live := by
  have hk := State.decRestart_keeps (P := 33383) (forget := false) (empty := true) rfl (.refl _ s.clearHbm)
  have hsteady : Steady s.clearHbm s.s3Cleared := (steady_engine s.clearHbm).decRestart false true (.refl _)
  have hmem : s.s3Cleared.mem = s.clearHbm.mem := hk.same .mem rfl
  have hword : s.s3Cleared.word 0x30004 = s.clearHbm.word 0x30004 := hsteady.words _ (by decide) (by decide)
  have hcleared : ∀ f : Fld, f.off = 0x30004 → s.clearHbm.rd f = (s.wrB F.PWR_STATUS_HOLD_VALID false).rd f := fun f hf =>
    State.rd_wr_apart _ F.MEM_SCRUB_POS_SECTOR f _ (by rw [hf]; decide)
  refine ⟨fun a => ?_, ?_, ?_, ?_, rfl, hk.same .pwr rfl, hk.same .live rfl⟩
  · rw [hmem]
    exact MemSt.peekByte_cleared rfl rfl a
  · rw [hmem]
    rfl
  · exact (State.rd_of_word hword).trans ((hcleared _ rfl).trans (State.rd_wrB_same _ _ (by decide) rfl))
  · exact (State.rd_of_word hword).trans ((hcleared _ rfl).trans (State.rd_wrB_ne _ _ (by decide) (by decide)))

/-- What the rope's return keeps. -/
theorem State.rejoined_shows (s : State) : s.rejoined.rd F.ROPE_STATUS_LEFT = 0 ∧ s.rejoined.rope.heldDown = false ∧
    (BackInS0 s → BackInS0 s.rejoined) ∧ s.rejoined.rd F.PWR_STATUS_BUSY = s.rd F.PWR_STATUS_BUSY ∧
    s.rejoined.rd F.PWR_STATUS_HOLD_VALID = s.rd F.PWR_STATUS_HOLD_VALID ∧ s.rejoined.pwr = s.pwr ∧ s.rejoined.live = s.live ∧
    s.rejoined.mem = s.mem ∧ s.rejoined.dec = s.dec := by
  have hmoves := (s.wrB F.ROPE_STATUS_LEFT false).releaseRope_moves
  have hev := (s.wrB F.ROPE_STATUS_LEFT false).releaseRope.deliverHeld_events
  have hk := State.deliverHeld_keeps (P := 3146359 ||| 615) rfl
    (State.releaseRope_keeps rfl (Keeps.refl _ (s.wrB F.ROPE_STATUS_LEFT false)))
  have hrd : ∀ f ∈ returnFlds, s.rejoined.rd f = (s.wrB F.ROPE_STATUS_LEFT false).rd f := fun f hf =>
    (hev.rd (by simpa using List.all_eq_true.1 returnFlds_noEvents f hf)).trans (hmoves.rd f hf)
  have hpwr : ∀ f ∈ returnFlds, f.off = 0x30004 → s.rejoined.rd f = s.rd f := fun f hf ho =>
    (hrd f hf).trans (State.rd_wr_apart s F.ROPE_STATUS_LEFT f _ (by rw [ho]; decide))
  refine ⟨(hrd _ (by simp [returnFlds])).trans (State.rd_wrB_same _ _ (by decide) rfl), ?_, fun h => ?_, hpwr _ (by simp [returnFlds]) rfl,
    hpwr _ (by simp [returnFlds]) rfl, hk.same .pwr rfl, hk.same .live rfl, hk.same .mem rfl, hk.same .dec rfl⟩
  · have hrope : s.rejoined.rope = (s.wrB F.ROPE_STATUS_LEFT false).releaseRope.rope :=
      (State.deliverHeld_keeps (P := 615) rfl (.refl _ _)).same .rope rfl
    rw [hrope, hmoves.heldDown]
    rfl
  · obtain ⟨hst, hstate, hshed, hfull, hfrz, hholds, hline, hdriven⟩ := h
    have hpart : s.rejoined.pwr = s.pwr := hk.same .pwr rfl
    have hsyn : s.rejoined.syn = s.syn := hk.same .syn rfl
    have hscn : s.rejoined.scn = s.scn := hk.same .scn rfl
    have hpnl : s.rejoined.pnl = s.pnl := hk.same .pnl rfl
    exact ⟨by rw [hpart]; exact hst, (hpwr _ (by simp [returnFlds]) rfl).trans hstate, (hpwr _ (by simp [returnFlds]) rfl).trans hshed,
      by rw [hsyn]; exact hfull, by rw [hscn]; exact hfrz, by rw [hpart]; exact hholds, by rw [hpart]; exact hline,
      PrefDriven.of_same hdriven (hk.same .live rfl) (by rw [hpnl]) (by rw [hpnl])⟩

/-- In S0 only the power stage changes its warnings: entry to S0 keeps them. -/
theorem State.enterS0_pwr (s : State) : s.enterS0.pwr = (s.atStage .s0).pwr := by
  have hfull := s.s0Stage.fullBack_stage s.pwr.st
  have hline := (s.s0Stage.fullBack s.pwr.st).lineBack_stage
  have hread := ((s.s0Stage.fullBack s.pwr.st).lineBack.wrB F.PWR_STATUS_SHED false).rereadDoorbells_stage
  rw [State.enterS0_eq]
  exact hread.pwr.trans (s.s0Stage_returned.kept (hfull.trans hline)).pwr

/-- The return ends with the module in S0 where no warning stands and PMCSR is at D0. -/
theorem State.endReturn_plain {s : State} {p : PwrSt} (hp : s.leaveS3.pwr = p) (ho : p.ownWarn = false) (hn : p.pinWarn = false)
    (hd : p.d3hot = false) : s.endReturn = s.leaveS3.raise Ev.PWR_STATE := by
  have hpwr : (s.leaveS3.raise Ev.PWR_STATE).pwr = p := (State.raise_pwr _ _).trans hp
  have hw : (s.leaveS3.raise Ev.PWR_STATE).warned = false := by rw [State.warned, hpwr, ho, hn]; rfl
  unfold State.endReturn
  dsimp only
  generalize s.leaveS3.raise Ev.PWR_STATE = t at hpwr hw
  simp only [hw, Bool.false_eq_true, if_false, hpwr, hd]

/-- The end of a return from S3, with no warning in force and PMCSR at D0. -/
theorem transDone_s3 {s : State} (h : s.pwr.trans = some ⟨.s0, none⟩) (h3 : s.pwr.st = .s3) (hd : s.pwr.d3hot = false)
    (ho : s.pwr.ownWarn = false) (hp : s.pwr.pinWarn = false) : Gives .powerTransitionDone s fun t =>
    BackInS0 t ∧ t.pwr.trans = none ∧ t.rd F.PWR_STATUS_BUSY = 0 ∧ Raised Ev.PWR_STATE t ∧ t.live = s.live ∧
      (∀ a, t.mem.peekByte a = ⟨0, false⟩) ∧ t.mem.clearing = true ∧ t.rd F.PWR_STATUS_HOLD_VALID = 0 ∧ t.dec.pics = [] ∧
      t.rd F.ROPE_STATUS_LEFT = 0 ∧ t.rope.heldDown = false := by
  obtain ⟨hpeek, hclearing, hvalid, hbusy, hpics, hpwr, hlive⟩ := (s.setTrans none).s3Cleared_shows
  obtain ⟨hback, -, hbusy0, hlive0, hmem0, hvalid0⟩ := (s.setTrans none).s3Cleared.enterS0_back
  have hpwr0 := (s.setTrans none).s3Cleared.enterS0_pwr
  have hdec0 := (State.enterS0_keeps (P := 3173223) rfl (.refl _ (s.setTrans none).s3Cleared)).same .dec rfl
  obtain ⟨hleft, hheld, hkeep, hbusy1, hvalid1, hpwr1, hlive1, hmem1, hdec1⟩ := (s.setTrans none).s3Cleared.enterS0.rejoined_shows
  have hev := (s.setTrans none).leaveS3.raise_events Ev.PWR_STATE
  have hstage := StageKept.raise (s.setTrans none).leaveS3 Ev.PWR_STATE
  have hpow : (s.setTrans none).leaveS3.pwr = ((s.setTrans none).atStage .s0).pwr := by
    refine (hpwr1.trans hpwr0).trans ?_
    change ({ (s.setTrans none).s3Cleared.pwr with st := .s0, holds := 0, holdLine := none } : PwrSt) = _
    rw [hpwr]
    rfl
  have hend : s.transEnd .s0 = (s.setTrans none).leaveS3.raise Ev.PWR_STATE :=
    (if_pos h3).trans (State.endReturn_plain hpow ho hp hd)
  have hs0 : BackInS0 (s.setTrans none).leaveS3 := by
    rw [State.leaveS3_eq]
    exact hkeep hback
  have hawake : (s.setTrans none).leaveS3.awake = true := by
    rw [State.awake, hs0.1]
    rfl
  refine ⟨_, (transDone_eq h).trans (congrArg _ hend), BackInS0.kept hs0 hstage (State.raise_scn _ _), ?_, ?_,
    State.raised _ rfl (State.hasEvents_of_awake hawake), hstage.live.trans (hlive1.trans (hlive0.trans hlive)), ?_, ?_, ?_, ?_,
    (hev.rd rfl).trans hleft, (congrArg RopeSt.heldDown (State.raise_rope _ _)).trans hheld⟩
  · rw [hstage.pwr, hpow]
    rfl
  · exact (hstage.rd (by decide) (by decide)).trans (hbusy1.trans (hbusy0.trans (hbusy.trans s.setTrans_none_busy)))
  · rw [hstage.mem.trans (hmem1.trans hmem0)]
    exact hpeek
  · rw [hstage.mem.trans (hmem1.trans hmem0)]
    exact hclearing
  · exact (hstage.rd (by decide) (by decide)).trans (hvalid1.trans (hvalid0.trans hvalid))
  · exact (congrArg DecSt.pics ((State.raise_dec _ _).trans (hdec1.trans hdec0))).trans hpics

end Sys2Proof.Machine
end

section
/-!
PROOFS. PMCSR in S3, the waits for LEAVE, and the lines of a running hold refresh (Table 16-4, R349, R407).
-/
namespace Sys2Proof.Machine

/-! ## PMCSR D0 and D3hot in S3 (Table 16-4) -/

/-- D0 in S3 starts the return, with the recall of the logbook. -/
theorem pmcsrD0_returns {s : State} (hd : s.pwr.d3hot = true) (h3 : s.pwr.st = .s3) : exec .pmcsrD0 s = .next
    (({ s with pwr := { s.pwr with d3hot := false, trans := some ⟨.s0, none⟩ } } : State).wr F.NVS_STATUS_RECALL_BUSY 1 |>.wr
      F.PWR_STATUS_BUSY 1) := by
  have hgo : s.goPmcsr false = (s.modPwr fun p => { p with d3hot := false }).startReturn := by
    unfold State.goPmcsr
    rw [if_pos (by decide)]
    exact if_pos h3
  refine (exec_pos rfl (by simp [State.powered, State.awake, h3, hd])).trans ?_
  rw [hgo]
  rfl

/-- D0 of a module that is awake only shows in PMCSR. -/
theorem pmcsrD0_awake {s : State} (hd : s.pwr.d3hot = true) (ha : s.awake = true) :
    exec .pmcsrD0 s = .next { s with pwr := { s.pwr with d3hot := false } } := by
  have h3 : s.pwr.st ≠ .s3 := fun h => by simp [State.awake, h] at ha
  have hgo : s.goPmcsr false = s.modPwr fun p => { p with d3hot := false } := by
    unfold State.goPmcsr
    rw [if_pos (by decide)]
    exact if_neg h3
  exact (exec_pos rfl (by simp [State.powered, ha, hd])).trans (congrArg _ hgo)

/-- D3hot in S3 only shows in PMCSR. -/
theorem pmcsrD3hot_s3 {s : State} (hd : s.pwr.d3hot = false) (h3 : s.pwr.st = .s3) :
    exec .pmcsrD3hot s = .next { s with pwr := { s.pwr with d3hot := true } } := by
  have hgo : s.goPmcsr true = s.modPwr fun p => { p with d3hot := true } := by
    unfold State.goPmcsr
    rw [if_neg (by decide), if_pos h3]
  exact (exec_pos rfl (by simp [State.powered, State.awake, h3, hd])).trans (congrArg _ hgo)

/-! ## The end of an entry to S3 (R349) -/

/-- An entry waits until LEAVE can go out. -/
theorem transDone_waits {s : State} (h : s.pwr.trans = some ⟨.s3, none⟩) (hl : s.leaveDue .up = true ∨ s.leaveDue .dn = true) :
    exec .powerTransitionDone s = .next s :=
  (transDone_eq h).trans (congrArg _ (if_pos (by simpa using hl)))

/-- The entry to S3 ends. -/
theorem transDone_toS3 {s : State} (h : s.pwr.trans = some ⟨.s3, none⟩) (hu : s.leaveDue .up = false) (hn : s.leaveDue .dn = false) :
    Gives .powerTransitionDone s fun t => t.pwr.st = .s3 ∧ t.pwr.trans = (if s.pwr.d3hot = true then none else some ⟨.s0, none⟩) ∧
      t.rd F.PWR_STATUS_BUSY = (if s.pwr.d3hot = true then 0 else 1) ∧ Raised Ev.PWR_STATE t ∧ InS3 (s.setTrans none) t := by
  refine ⟨_, (transDone_eq h).trans (congrArg _ (if_neg (by simp [hu, hn]))), s.endS3_shows⟩

/-- LEAVE went out on the pitches and lanes of the state before. -/
theorem InS3.leaveOut {s t : State} (h : InS3 (s.setTrans none) t) {p : Port} {l : Nat} (hup : s.pitchUp p = true)
    (hver : s.pitchVer p = 2) (hl : s.carryLane p false = some l) (htx : s.txLive (p.lane0 + l) = true) :
    .rope p l (leBytes 0x54 1 ++ leBytes 0 7) ∈ t.out := by
  obtain ⟨hcup, hcver, hcl, hctx⟩ := s.setTrans_carries none p
  exact h.leave p l (hcup.trans hup) (hcver.trans hver) (hcl.trans hl) ((hctx _).trans htx)

/-! ## A line start in S1 (R407) -/

theorem State.geo_of_live {s t : State} (h : t.live = s.live) : t.geo = s.geo := by
  unfold State.geo State.liveWord
  rw [h]

/-- The next line of a hold refresh leaves the power stage but its place in the refresh. -/
theorem State.holdNext_parts (s : State) (i : Nat) :
    (s.holdNext i).pwr = { s.pwr with holdLine := if i + 1 < s.geo.rows + 100 then some (i + 1) else none } ∧
      (s.holdNext i).live = s.live ∧ (s.holdNext i).scn = s.scn := by
  unfold State.holdNext
  dsimp only
  generalize hr : (s.modPwr fun p => { p with holdLine := if i + 1 < s.geo.rows + 100 then some (i + 1) else none }) = r
  have hpwr : r.pwr = { s.pwr with holdLine := if i + 1 < s.geo.rows + 100 then some (i + 1) else none } := by subst hr; rfl
  have hlive : r.live = s.live := by subst hr; rfl
  have hscn : r.scn = s.scn := by subst hr; rfl
  split
  · have hk := State.sendHeld_keeps (P := 1065703) (y := i) rfl (.refl _ r)
    exact ⟨(hk.same .pwr rfl).trans hpwr, (hk.same .live rfl).trans hlive, (hk.same .scn rfl).trans hscn⟩
  · have hk := State.heldBlank_keeps (P := 1064965) (line := i) (frame := r.holdCount % 65536) rfl (.refl _ r)
    exact ⟨(hk.same .pwr rfl).trans hpwr, (hk.same .live rfl).trans hlive, (hk.same .scn rfl).trans hscn⟩

/-- A line start goes on with the running refresh. -/
theorem lineStart_held {s : State} {i : Nat} (h1 : s.pwr.st = .s1) (hi : s.pwr.holdLine = some i) : Gives .lineStart s fun t =>
    t.pwr = { s.pwr with holdLine := if i + 1 < s.geo.rows + 100 then some (i + 1) else none } ∧ t.live = s.live ∧ t.scn = s.scn := by
  have hk := State.activatePorts_keeps (P := 1065575) rfl (.refl _ s)
  have hpwr : s.activatePorts.pwr = s.pwr := hk.same .pwr rfl
  have hlive : s.activatePorts.live = s.live := hk.same .live rfl
  obtain ⟨hnpwr, hnlive, hnscn⟩ := s.activatePorts.holdNext_parts i
  have hline : s.holdLine = s.activatePorts.holdNext i := by
    unfold State.holdLine
    dsimp only
    rw [hpwr, hi]
  have hexec : exec .lineStart s = .next s.holdLine := (exec_neg rfl (by simp [h1])).trans (congrArg _ (if_pos (by simp [h1])))
  refine ⟨_, hexec.trans (congrArg _ hline), ?_, hnlive.trans hlive, hnscn.trans (hk.same .scn rfl)⟩
  rw [hnpwr, hpwr, State.geo_of_live hlive]

end Sys2Proof.Machine
end

section
/-!
PROOFS. What a hold refresh leaves of the ports up to its FSTROBE pulse (R407).
-/
namespace Sys2Proof.Machine

/-! ## What a hold refresh leaves of the ports (R407) -/

/-- The registers of FSTROBE and of the lanes' PRBS generators. -/
def SendReg (o : Nat) : Prop := o = 0x70000 ∨ o = 0x70070 ∨ ∃ n, o = 0xF1000 + 0x40 * n

/-- ACTIVE ports stay so, lanes that send blocks go on, and nothing comes back that left the device. -/
structure HoldKept (s t : State) : Prop where
  active : ∀ p, s.portState p = 2 → t.portState p = 2
  words : ∀ o, SendReg o → t.word o = s.word o
  idle : ∀ n, (t.lane n).txIdle = (s.lane n).txIdle
  out : OutGrows s t

theorem HoldKept.refl (s : State) : HoldKept s s := ⟨fun _ h => h, fun _ _ => rfl, fun _ => rfl, .refl s⟩

theorem HoldKept.trans {s t u : State} (h : HoldKept s t) (k : HoldKept t u) : HoldKept s u :=
  ⟨fun p hp => k.active p (h.active p hp), fun o ho => (k.words o ho).trans (h.words o ho), fun n => (k.idle n).trans (h.idle n),
    h.out.trans k.out⟩

theorem HoldKept.of_regs {s t : State} (hr : t.regs = s.regs) (hl : ∀ n, (t.lane n).txIdle = (s.lane n).txIdle) (ho : OutGrows s t) :
    HoldKept s t :=
  ⟨fun p hp => (State.rd_of_regs hr _).trans hp, fun _ _ => by rw [State.word, hr]; rfl, hl, ho⟩

theorem HoldKept.setWord (s : State) {off : Nat} (w : Word) (hp : 0xE0010 ≠ off) (h : ¬SendReg off) : HoldKept s (s.setWord off w) :=
  ⟨fun p h2 => (State.rd_of_word (f := portFld p) (s.word_setWord_ne w hp)).trans h2,
    fun _ ho => s.word_setWord_ne w fun he => h (he ▸ ho), fun _ => rfl, .of_out rfl⟩

theorem HoldKept.wr (s : State) {f : Fld} (v : Nat) (hp : 0xE0010 ≠ f.off) (h : ¬SendReg f.off) : HoldKept s (s.wr f v) :=
  .setWord s _ hp h

theorem not_sendReg {o : Nat} (h1 : o ≠ 0x70000) (h2 : o ≠ 0x70070) (h3 : o < 0xF1000) : ¬SendReg o := by
  rintro (h | h | ⟨n, h⟩) <;> omega

theorem sendReg_noEvent {o : Nat} (h : SendReg o) : evtReg o = false := by
  have hlo : 0x30000 ≤ o := by
    obtain h | h | ⟨n, h⟩ := h <;> omega
  exact evtReg_of_pwr hlo

theorem HoldKept.raise (s : State) (e : Nat) : HoldKept s (s.raise e) :=
  ⟨fun _ h2 => (State.raise_rd s e rfl).trans h2, fun _ ho => State.raise_word s e (sendReg_noEvent ho),
    fun n => congrArg Lane.txIdle (State.lane_of_lanes (s.raise_lanes e) n), .raise s e⟩

theorem HoldKept.txLive {s t : State} (h : HoldKept s t) (n : Nat) : t.txLive n = s.txLive n := by
  have hg : t.rdB (F.LNK_L_CTRL_PRBS_GEN n) = s.rdB (F.LNK_L_CTRL_PRBS_GEN n) :=
    congrArg (· == 1) (State.rd_of_word (f := F.LNK_L_CTRL_PRBS_GEN n) (h.words _ (.inr (.inr ⟨n, rfl⟩))))
  unfold State.txLive
  rw [h.idle n, hg]

/-! ## Up to the pulse -/

theorem State.setPref_hold (s : State) (n v : Nat) : HoldKept s (s.setPref n v) :=
  keptBy_ite (P := HoldKept s) (.refl s) (.of_regs rfl (fun _ => rfl) fun _ ho => List.mem_cons_of_mem _ ho)

theorem State.applyPref_hold (s : State) : HoldKept s s.applyPref :=
  have h (x : PnlSt) : HoldKept s { s with pnl := x } := .of_regs rfl (fun _ => rfl) (.of_out rfl)
  keptBy_ite (P := HoldKept s) (keptBy_foldl (P := HoldKept s) _ (h _) fun t n k => k.trans (t.setPref_hold n _)) (h _)

theorem State.takeActs_hold (s : State) : HoldKept s s.takeActs :=
  keptBy_foldl_mem _ (.refl s) fun t i hi h => by
    have hi22 : i < 22 := List.mem_range.1 hi
    exact h.trans (.setWord t _ (by omega) (not_sendReg (by omega) (by omega) (by omega)))

theorem State.showActs_hold (s : State) : HoldKept s s.showActs :=
  have hreg : ∀ o ∈ [0x70028, 0x50004], 0xE0010 ≠ o ∧ ¬SendReg o := fun o ho => by
    simp only [List.mem_cons, List.not_mem_nil, or_false] at ho
    exact ⟨by omega, not_sendReg (by omega) (by omega) (by omega)⟩
  ((HoldKept.wr s (f := F.TIM_LAT_PS_LAT) _ (by decide) (hreg _ (by decide)).2).trans
    (.wr _ (f := F.CAL_STATUS_SOURCE) _ (by decide) (hreg _ (by decide)).2)).trans
    (.wr _ (f := F.CAL_STATUS_APPLY_PENDING) _ (by decide) (hreg _ (by decide)).2)

/-- Staged calibration results taken leave the ports alone. -/
theorem State.applyCal_hold (s : State) : HoldKept s s.applyCal := by
  rw [State.applyCal_eq]
  exact keptBy_ite (P := HoldKept s) (.refl s)
    (((s.takeActs_hold.trans s.takeActs.showActs_hold).trans (State.applyPref_hold _)).trans (.raise _ _))

theorem State.setPort_hold (s : State) {p : Nat} (hp : p < 16) : HoldKept s (s.setPort p 2) where
  active q h2 := by
    rw [s.setPort_state hp (by decide), h2]
    exact ite_self 2
  words o ho := (s.setPort_rest p 2).2.2.2 o (fun h => not_sendReg (by decide) (by decide) (by decide) (h ▸ ho))
    (fun h => not_sendReg (by decide) (by decide) (by decide) (h ▸ ho))
  idle n := congrArg Lane.txIdle (State.lane_of_lanes (s.setPort_lanes p 2) n)
  out := .of_out (reads_ite (g := State.out) rfl rfl)

theorem State.modLane_txIdle (s : State) (m n : Nat) {f : Lane → Lane} (hf : ∀ l, (f l).txIdle = l.txIdle) :
    ((s.modLane n f).lane m).txIdle = (s.lane m).txIdle := by
  by_cases hm : m = n
  · subst hm
    by_cases hl : m < s.lanes.length
    · rw [State.lane_modLane_same hl, hf]
    · rw [State.lane_of_lanes (s := s) (t := s.modLane m f) (List.modify_eq_self (Nat.le_of_not_lt hl))]
  · rw [State.lane_modLane_ne _ hm]

theorem State.saveFir_hold (s : State) (n : Nat) : HoldKept s (s.saveFir n) := by
  unfold State.saveFir
  exact keptBy_ite (P := HoldKept s) (.of_regs rfl (fun m => s.modLane_txIdle m n fun _ => rfl) (.of_out rfl))
    (.of_regs rfl (fun m => s.modLane_txIdle m n fun _ => rfl) (.of_out rfl))

theorem State.activatePorts_hold (s : State) : HoldKept s s.activatePorts :=
  keptBy_foldl_mem _ (.refl s) fun t _ hp h =>
    keptBy_ite ((h.trans (keptBy_foldl (P := HoldKept t) _ (t.setPort_hold (List.mem_range.1 hp)) fun u n k =>
      k.trans (u.saveFir_hold n))).trans (.raise _ _)) h

theorem not_sendReg_dcb : ¬SendReg 0xE0094 := not_sendReg (by decide) (by decide) (by decide)

theorem State.dcbPattern_hold (s : State) : HoldKept s s.dcbPattern :=
  keptBy_ite (P := HoldKept s) (.refl s) ((HoldKept.wr s (f := F.PNL_DCB_STATUS_PATTERN) _ (by decide) not_sendReg_dcb).trans (.raise _ _))

theorem HoldKept.modPnl {r s : State} (h : HoldKept r s) (f : PnlSt → PnlSt) : HoldKept r (s.modPnl f) :=
  h.trans (.of_regs rfl (fun _ => rfl) (.of_out rfl))

theorem HoldKept.dcbRestart {r s : State} (h : HoldKept r s) : HoldKept r s.dcbRestart :=
  h.trans (.of_regs rfl (fun _ => rfl) (.of_out rfl))

theorem State.dcbEnd_hold (s : State) : HoldKept s s.dcbEnd := by
  unfold State.dcbEnd
  refine HoldKept.dcbRestart ?_
  refine keptBy_foldl (P := HoldKept s) _ s.dcbPattern_hold fun t r h => ?_
  exact ((h.trans (.wr t (f := F.PNL_DCB_STATUS_DRIFT) _ (by decide) not_sendReg_dcb)).trans
    (.wr _ (f := F.PNL_DCB_STATUS_REGION) _ (by decide) not_sendReg_dcb)).trans (.raise _ _)

theorem State.dcbFrame_hold (s : State) : HoldKept s s.dcbFrame := by
  have hend : HoldKept s (if s.pnl.dcbWin = some s.dcbFrames then s.dcbEnd else s) := keptBy_ite s.dcbEnd_hold (.refl s)
  unfold State.dcbFrame
  refine keptBy_ite (P := HoldKept s) (.refl s) ?_
  generalize (if s.pnl.dcbWin = some s.dcbFrames then s.dcbEnd else s) = t at hend
  dsimp only
  split
  · exact keptBy_ite (hend.modPnl _) hend
  · exact (keptBy_ite (P := HoldKept s) (hend.trans t.dcbPattern_hold) hend).modPnl _

theorem State.togglePhi_hold (s : State) : HoldKept s s.togglePhi :=
  ((HoldKept.refl s).modPnl _).trans (.wr _ (f := F.PNL_STATUS_PHI) _ (by decide) (not_sendReg (by decide) (by decide) (by decide)))

theorem State.fstrobe_hold (s : State) (ns : Int) : HoldKept s (s.fstrobe ns) := by
  have hdrive : ∀ level ps, HoldKept s (s.drive 8 level ps) := fun level ps =>
    keptBy_ite (P := HoldKept s) (.refl s) (.of_regs rfl (fun _ => rfl) fun _ ho => List.mem_cons_of_mem _ ho)
  refine keptBy_ite (P := HoldKept s) ?_ (.refl s)
  exact (hdrive _ _).trans (.of_regs rfl (fun _ => rfl) (.of_out rfl))

end Sys2Proof.Machine
end

section
/-!
PROOFS. The lines of a hold refresh and HOLD_REFRESH (R235, R380, R407).
-/
namespace Sys2Proof.Machine

/-! ## The lines of a hold refresh (R235, R407) -/

theorem holdKept_reads (r : State) : ReadClosed (HoldKept r) where
  modMem _ h := h.trans (.of_regs rfl (fun _ => rfl) (.of_out rfl))
  wr v hf h := h.trans (.wr _ v (by omega) (not_sendReg (by omega) (by omega) (by omega)))
  raise e h := h.trans (.raise _ e)

theorem State.readHold_hold (s : State) (view y x n : Nat) : HoldKept s (s.readHold view y x n) :=
  keptBy_foldl (P := HoldKept s) _ ((holdKept_reads s).modMem _ (.refl s)) fun _ sec h => (holdKept_reads s).touchSector .scan sec h

theorem State.dcbLine_hold (s : State) (ls : List PortLine) (y : Nat) : HoldKept s (s.dcbLine ls y) :=
  keptBy_ite (P := HoldKept s) (.refl s) (keptBy_foldl (P := HoldKept s) _ (.refl s) fun _ _ h => keptBy_ite h (h.modPnl _))

theorem State.txEmit_hold (s : State) (n : Nat) (bs : List (Nat × List Byte)) (o : Out) : HoldKept s ((s.txBlocks n bs).emit o) :=
  .of_regs rfl (fun m => (s.txBlocks_lane n m bs).1) fun _ ho => List.mem_cons_of_mem _ ho

theorem State.panelOut_hold (s : State) (n : Nat) (blk : List Byte) : HoldKept s (s.panelOut n blk) :=
  keptBy_ite (P := HoldKept s) (s.txEmit_hold n _ _) (.refl s)

theorem State.panelData_hold (s : State) (n : Nat) (ws : List Nat) : HoldKept s (s.panelData n ws) :=
  keptBy_ite (P := HoldKept s) (s.txEmit_hold n _ _) (.refl s)

theorem TrainKept.hold {s t : State} {n : Nat} (h : TrainKept n s t) : HoldKept s t where
  active _ h2 := (State.rd_of_word (h.words _ (show 0xE0010 ≠ _ by omega))).trans h2
  words o ho := h.words o (by obtain ho | ho | ⟨m, ho⟩ := ho <;> omega)
  idle m := (h.idle m).1
  out := .of_out (congrArg State.out h.rest :)

theorem State.drainTrain_hold (s : State) : HoldKept s s.drainTrain :=
  keptBy_foldl (P := HoldKept s) _ (.of_regs rfl (fun _ => rfl) (.of_out rfl)) fun t w h =>
    keptBy_ite (h.trans ((t.applyTrain_kept _ w.seq w.code true).hold.trans (State.panelOut_hold _ _ _))) h

/-- The part of a port's line that goes out on its lane i. -/
def State.sendLaneLine (s : State) (port : Nat) (active fstart hold : Bool) (line frame : Nat) (ws : List Nat) (i : Nat) : State :=
  let s := s.panelOut (6 * port + i)
    (lineBlock s.pnl.cfg active fstart hold (polOf s.pnl.cfg s.pnl.phi (s.portCol0 port) line) line port i frame)
  if active then s.panelData (6 * port + i) (laneWords ws i) else s

theorem State.sendLine_eq (s : State) (port : Nat) (active fstart hold : Bool) (line frame : Nat) (rays : List Rgb) :
    s.sendLine port active fstart hold line frame rays = (List.range 6).foldl
      (fun t i => t.sendLaneLine port active fstart hold line frame (if active then packWords s.depthP rays else []) i) s := rfl

theorem State.sendLaneLine_hold (s : State) (port : Nat) (active fstart hold : Bool) (line frame : Nat) (ws : List Nat) (i : Nat) :
    HoldKept s (s.sendLaneLine port active fstart hold line frame ws i) := by
  unfold State.sendLaneLine
  exact keptBy_ite (P := HoldKept s) ((s.panelOut_hold _ _).trans (State.panelData_hold _ _ _)) (s.panelOut_hold _ _)

theorem State.sendLine_hold (s : State) (port : Nat) (active fstart hold : Bool) (line frame : Nat) (rays : List Rgb) :
    HoldKept s (s.sendLine port active fstart hold line frame rays) := by
  rw [State.sendLine_eq]
  exact keptBy_foldl (P := HoldKept s) _ (.refl s) fun t i h => h.trans (t.sendLaneLine_hold ..)

/-- A LINE block of line 0 with HOLD, on lane i of port p. -/
def HeldBlock (p i : Nat) (o : Out) : Prop := ∃ fl f, fl % 8 / 4 = 1 ∧
  o = .panelBlock (6 * p + i) (leBytes 0x4C 1 ++ leBytes fl 1 ++ leBytes 0 2 ++ leBytes (p + 16 * i) 1 ++ f)

theorem lineBlock_held (cfg : ScanCfg) (active fstart : Bool) (pol p i frame : Nat) :
    HeldBlock p i (.panelBlock (6 * p + i) (lineBlock cfg active fstart true pol 0 p i frame)) := by
  refine ⟨_, leBytes frame 2 ++ leBytes (cfg.uv - 1) 1, ?_, congrArg _ (List.append_assoc _ _ _)⟩
  cases active <;> cases fstart <;> simp only [b2n, if_true, if_false, Bool.false_eq_true] <;> omega

/-- What one step of many sends has left the device at the end. -/
theorem holdKept_foldl_sends {α : Type} {f : State → α → State} (hf : ∀ t x, HoldKept t (f t x)) {Q : Out → Prop} {r : State} {a : α}
    (hsent : ∀ t, HoldKept r t → ∃ o ∈ (f t a).out, Q o) {l : List α} (ha : a ∈ l) {s : State} (h : HoldKept r s) :
    ∃ o ∈ (l.foldl f s).out, Q o := by
  induction l generalizing s with
  | nil => cases ha
  | cons x l ih =>
    obtain rfl | hl := List.mem_cons.1 ha
    · obtain ⟨o, ho, hq⟩ := hsent s h
      exact ⟨o, (keptBy_foldl (P := HoldKept (f s a)) l (.refl _) fun t y k => k.trans (hf t y)).out o ho, hq⟩
    · exact ih hl (h.trans (hf s x))

theorem State.sendLaneLine_sends {s : State} {p i : Nat} (h : s.txLive (6 * p + i) = true) (active fstart : Bool) (frame : Nat)
    (ws : List Nat) : ∃ o ∈ (s.sendLaneLine p active fstart true 0 frame ws i).out, HeldBlock p i o := by
  unfold State.sendLaneLine
  dsimp only
  generalize polOf s.pnl.cfg s.pnl.phi (s.portCol0 p) 0 = pol
  have hsent : .panelBlock (6 * p + i) (lineBlock s.pnl.cfg active fstart true pol 0 p i frame) ∈
      (s.panelOut (6 * p + i) (lineBlock s.pnl.cfg active fstart true pol 0 p i frame)).out := by
    rw [(s.panelOut_rest _ 0 _).2.2, if_pos h]
    exact List.mem_cons_self
  refine ⟨_, ?_, lineBlock_held s.pnl.cfg active fstart pol p i frame⟩
  split
  · exact (State.panelData_hold _ _ _).out _ hsent
  · exact hsent

/-- A port's line 0 in a hold refresh starts with a LINE block with HOLD on each lane that sends blocks. -/
theorem State.sendLine_sends {s : State} {p i : Nat} (hi : i < 6) (h : s.txLive (6 * p + i) = true) (active fstart : Bool) (frame : Nat)
    (rays : List Rgb) : ∃ o ∈ (s.sendLine p active fstart true 0 frame rays).out, HeldBlock p i o := by
  rw [State.sendLine_eq]
  refine holdKept_foldl_sends (r := s) (a := i) (fun t j => t.sendLaneLine_hold ..) (fun t k => ?_) (List.mem_range.2 hi) (.refl s)
  exact State.sendLaneLine_sends ((k.txLive _).trans h) active fstart frame _

/-- What the ACTIVE ports send on an active line of a hold refresh. -/
def State.heldLines (s : State) (y : Nat) : List PortLine := (s.portsUsed.filter fun p => s.portActive p).map fun p => s.heldLine y p

/-- The hold store is read and the DC-balance sums taken for a line. -/
def State.heldRead (s : State) (ls : List PortLine) (y : Nat) : State :=
  let t := ls.foldl (fun s l => (List.range s.geo.uv).foldl (fun s v => s.readHold v y (s.portCol0 l.port) (s.portCols l.port)) s) s
  if s.lv F.SCN_CTRL_RUN == 1 then t.dcbLine ls y else t

theorem State.sendHeld_eq (s : State) (y : Nat) : s.sendHeld y = (s.heldLines y).foldl (fun t l => t.sendLine l.port
    (s.lv F.SCN_CTRL_RUN == 1) (s.lv F.SCN_CTRL_RUN == 1 && y == 0) true y (t.holdCount % 65536) l.sent) (s.heldRead (s.heldLines y) y) := rfl

theorem State.heldRead_hold (s : State) (ls : List PortLine) (y : Nat) : HoldKept s (s.heldRead ls y) := by
  have hread : HoldKept s (ls.foldl (fun s l => (List.range s.geo.uv).foldl
      (fun s v => s.readHold v y (s.portCol0 l.port) (s.portCols l.port)) s) s) :=
    keptBy_foldl (P := HoldKept s) _ (.refl s) fun t l k => keptBy_foldl (P := HoldKept s) _ k fun u v m => m.trans (u.readHold_hold _ _ _ _)
  exact keptBy_ite (hread.trans (State.dcbLine_hold _ _ _)) hread

/-- The ACTIVE ports in use. -/
theorem State.mem_active {s : State} {p : Nat} (hp : p ∈ s.portsUsed) (h2 : s.portState p = 2) :
    p ∈ s.portsUsed.filter fun p => s.portActive p := List.mem_filter.2 ⟨hp, by simp [State.portActive, h2]⟩

/-- Line 0 of a hold refresh: its LINE blocks, with HOLD, on every ACTIVE port. -/
theorem State.sendHeld_sends {s : State} {p i : Nat} (hp : p ∈ s.portsUsed) (h2 : s.portState p = 2) (hi : i < 6)
    (h : s.txLive (6 * p + i) = true) : ∃ o ∈ (s.sendHeld 0).out, HeldBlock p i o := by
  have hmem : s.heldLine 0 p ∈ s.heldLines 0 := List.mem_map.2 ⟨p, State.mem_active hp h2, rfl⟩
  rw [State.sendHeld_eq]
  refine holdKept_foldl_sends (fun t l => t.sendLine_hold ..) (fun t k => ?_) hmem (s.heldRead_hold _ 0)
  exact State.sendLine_sends (p := p) hi ((k.txLive _).trans h) _ _ _ _

theorem State.sendHeld_hold (s : State) (y : Nat) : HoldKept s (s.sendHeld y) := by
  rw [State.sendHeld_eq]
  exact keptBy_foldl (P := HoldKept s) _ (s.heldRead_hold _ y) fun t l k => k.trans (t.sendLine_hold ..)

/-- The ACTIVE ports send a blanking line. -/
def State.blankLines (s : State) (line frame : Nat) : State :=
  (s.portsUsed.filter fun p => s.portActive p).foldl (fun t p => t.sendLine p false false true line frame []) s

theorem State.heldBlank_eq (s : State) (line frame : Nat) : s.heldBlank line frame = (s.blankLines line frame).drainTrain := rfl

/-- So it is where no line of the frame is active. -/
theorem State.heldBlank_sends {s : State} {p i : Nat} (hp : p ∈ s.portsUsed) (h2 : s.portState p = 2) (hi : i < 6)
    (h : s.txLive (6 * p + i) = true) (frame : Nat) : ∃ o ∈ (s.heldBlank 0 frame).out, HeldBlock p i o := by
  have hsent : ∃ o ∈ (s.blankLines 0 frame).out, HeldBlock p i o :=
    holdKept_foldl_sends (f := fun t p => t.sendLine p false false true 0 frame []) (fun t q => t.sendLine_hold ..)
      (fun t k => State.sendLine_sends hi ((k.txLive _).trans h) false false frame []) (State.mem_active hp h2) (.refl s)
  obtain ⟨o, ho, hb⟩ := hsent
  rw [State.heldBlank_eq]
  exact ⟨o, (State.drainTrain_hold _).out o ho, hb⟩

theorem State.heldBlank_hold (s : State) (line frame : Nat) : HoldKept s (s.heldBlank line frame) :=
  HoldKept.trans (keptBy_foldl (P := HoldKept s) _ (.refl s) fun t _ k => k.trans (t.sendLine_hold ..)) (State.drainTrain_hold _)

/-- The next line is noted. -/
def State.lineNoted (s : State) (i : Nat) : State :=
  s.modPwr fun p => { p with holdLine := if i + 1 < s.geo.rows + 100 then some (i + 1) else none }

theorem State.holdNext_eq (s : State) (i : Nat) : s.holdNext i =
    if i < s.geo.rows then (s.lineNoted i).sendHeld i else (s.lineNoted i).heldBlank i ((s.lineNoted i).holdCount % 65536) := rfl

theorem State.holdNext_sends {s : State} {p i : Nat} (hp : p ∈ s.portsUsed) (h2 : s.portState p = 2) (hi : i < 6)
    (h : s.txLive (6 * p + i) = true) : ∃ o ∈ (s.holdNext 0).out, HeldBlock p i o := by
  rw [State.holdNext_eq]
  split
  · exact State.sendHeld_sends (s := s.lineNoted 0) hp h2 hi h
  · exact State.heldBlank_sends (s := s.lineNoted 0) hp h2 hi h _

theorem State.holdNext_hold (s : State) (i : Nat) : HoldKept s (s.holdNext i) := by
  have hnoted : HoldKept s (s.lineNoted i) := .of_regs rfl (fun _ => rfl) (.of_out rfl)
  rw [State.holdNext_eq]
  exact keptBy_ite (hnoted.trans (State.sendHeld_hold _ i)) (hnoted.trans (State.heldBlank_hold _ i _))

/-! ## HOLD_REFRESH (R407) -/

/-- The refresh that starts is the one whose start is the latest. -/
theorem State.holdIndex_eq {s : State} {j : Nat} (hlo : (s.geo.t0 + j * 1000000000 / 24 : Nat) ≤ s.dcNs)
    (hhi : s.dcNs < (s.geo.t0 + (j + 1) * 1000000000 / 24 : Nat)) : s.holdIndex = some j := by
  unfold State.holdIndex
  generalize s.dcNs = d at hlo hhi
  generalize s.geo.t0 = t at hlo hhi
  dsimp only
  rw [if_neg (by omega)]
  have hj : ceilDiv (24 * ((d - t).toNat + 1)) 1000000000 - 1 = j := by
    unfold ceilDiv
    omega
  rw [hj]

/-- What the ports take for a hold refresh: calibration, their state, settings, and blink. -/
def State.portsTakeHold (s : State) (j : Nat) : State :=
  (s.applyCal.activatePorts.takeScanCfg.takeBlink (holdStart j) true).modPnl fun p => { p with seen := [] }

/-- And polarity and the DC-balance monitor. -/
def State.holdPrepared (s : State) (j : Nat) : State :=
  if (s.portsTakeHold j).sendsFrame then (s.portsTakeHold j).togglePhi.dcbFrame else s.portsTakeHold j

/-- The pulse of a hold refresh, which counts. -/
def State.holdPulse (s : State) (j : Nat) : State :=
  ((s.holdPrepared j).fstrobe ((s.holdPrepared j).geo.t0 + (holdStart j : Nat))).modPwr fun p => { p with holds := p.holds + 1 }

theorem State.holdRefresh_eq (s : State) (j : Nat) : s.holdRefresh j = (s.holdPulse j).holdNext 0 := rfl

theorem State.takeScanCfg_hold (s : State) : HoldKept s s.takeScanCfg := .of_regs rfl (fun _ => rfl) (.of_out rfl)

theorem State.takeBlink_hold (s : State) (dt : Nat) (apply : Bool) : HoldKept s (s.takeBlink dt apply) :=
  .of_regs rfl (fun _ => rfl) (.of_out rfl)

theorem State.portsTakeHold_hold (s : State) (j : Nat) : HoldKept s (s.portsTakeHold j) :=
  (((s.applyCal_hold.trans (State.activatePorts_hold _)).trans (State.takeScanCfg_hold _)).trans (State.takeBlink_hold _ _ _)).modPnl _

theorem State.holdPrepared_shows (s : State) (j : Nat) : HoldKept s (s.holdPrepared j) ∧ (s.holdPrepared j).live = s.live ∧
    (s.holdPrepared j).tim = s.tim ∧ (s.holdPrepared j).pwr = s.pwr := by
  have htake := s.portsTakeHold_hold j
  have h0 : Keeps 1065575 s (s.portsTakeHold j) :=
    State.modPnl_keeps rfl (State.takeBlink_keeps rfl (State.takeScanCfg_keeps rfl
      (State.activatePorts_keeps rfl (State.applyCal_keeps rfl (.refl _ s))))) fun _ h => h
  have hk : Keeps 1065575 s (s.holdPrepared j) := keeps_ite (State.dcbFrame_keeps rfl (State.togglePhi_keeps rfl h0)) h0
  refine ⟨?_, hk.same .live rfl, hk.same .tim rfl, hk.same .pwr rfl⟩
  exact keptBy_ite ((htake.trans (State.togglePhi_hold _)).trans (State.dcbFrame_hold _)) htake

/-- FSTROBE pulses from its active edge on, which comes without the latency of the loop where COMP takes it out. -/
theorem State.fstrobe_edge {s : State} {ns : Int} (hen : s.rd F.TIM_FSTROBE_EN = 1) (hcomp : s.rd F.TIM_CTRL_COMP = 1)
    (hlevel : s.tim.levels.getD 8 false ≠ decide (s.rd F.TIM_FSTROBE_POL = 1)) :
    .edge 8 (decide (s.rd F.TIM_FSTROBE_POL = 1)) (near250 (1000 * ns)) ∈ (s.fstrobe ns).out := by
  have hpol : s.rdB F.TIM_FSTROBE_POL = decide (s.rd F.TIM_FSTROBE_POL = 1) := rfl
  have hat : s.edgeAt ns = near250 (1000 * ns) := by
    rw [State.edgeAt, State.rdB, hcomp, if_pos (by decide), Int.add_zero]
  unfold State.fstrobe
  rw [if_pos (by rw [State.rdB, hen]; rfl)]
  dsimp only
  rw [hpol, hat, State.drive, if_neg hlevel]
  exact List.mem_cons_self

theorem State.holdPulse_shows (s : State) (j : Nat) : HoldKept s (s.holdPulse j) ∧ (s.holdPulse j).live = s.live ∧
    (s.holdPulse j).pwr = { s.pwr with holds := s.pwr.holds + 1 } := by
  obtain ⟨hhold, hlive, -, hpwr⟩ := s.holdPrepared_shows j
  have hpulse := (s.holdPrepared j).fstrobe_hold ((s.holdPrepared j).geo.t0 + (holdStart j : Nat))
  have hk := State.fstrobe_keeps (P := 17) (ns := ((s.holdPrepared j).geo.t0 + (holdStart j : Nat))) rfl (.refl _ (s.holdPrepared j))
  refine ⟨(hhold.trans hpulse).trans (.of_regs rfl (fun _ => rfl) (.of_out rfl)), (hk.same .live rfl).trans hlive, ?_⟩
  have hp := (hk.same .pwr rfl).trans hpwr
  rw [← hp]
  rfl

theorem State.holdPulse_edge {s : State} {j : Nat} (hen : s.rd F.TIM_FSTROBE_EN = 1) (hcomp : s.rd F.TIM_CTRL_COMP = 1)
    (hlevel : s.tim.levels.getD 8 false ≠ decide (s.rd F.TIM_FSTROBE_POL = 1)) :
    .edge 8 (decide (s.rd F.TIM_FSTROBE_POL = 1)) (near250 (1000 * (s.geo.t0 + (j * 1000000000 / 24 : Nat)))) ∈ (s.holdPulse j).out := by
  obtain ⟨hhold, hlive, htim, -⟩ := s.holdPrepared_shows j
  have hstrobe : ∀ f : Fld, f.off = 0x70070 → (s.holdPrepared j).rd f = s.rd f := fun f hf =>
    State.rd_of_word (hhold.words _ (.inr (.inl hf)))
  have hctrl : (s.holdPrepared j).rd F.TIM_CTRL_COMP = s.rd F.TIM_CTRL_COMP := State.rd_of_word (hhold.words _ (.inl rfl))
  have hedge := State.fstrobe_edge (s := s.holdPrepared j) (ns := (s.holdPrepared j).geo.t0 + (holdStart j : Nat))
    ((hstrobe _ rfl).trans hen) (hctrl.trans hcomp) (by rw [htim, hstrobe _ rfl]; exact hlevel)
  rw [hstrobe _ rfl] at hedge
  have hgeo : (s.holdPrepared j).geo = s.geo := State.geo_of_live hlive
  unfold State.holdPulse
  rw [hgeo] at hedge ⊢
  exact hedge

/-- A port that is in use, by the settings in force. -/
theorem State.portsUsed_of_live {s t : State} (h : t.live = s.live) : t.portsUsed = s.portsUsed := by
  have hg := State.geo_of_live h
  unfold State.portsUsed State.portInUse
  rw [hg]

/-- A hold refresh in S1 once a port is ACTIVE, or about to be. -/
theorem holdRefresh_starts {j : Nat} {s : State} (h1 : s.pwr.st = .s1) (hv : s.rd F.TIM_STATUS_VALID = 1)
    (ha : ∃ p < 16, s.portState p = 2 ∨ (s.portState p = 1 ∧ (s.port p).ready = true))
    (hlo : (s.geo.t0 + j * 1000000000 / 24 : Nat) ≤ s.dcNs) (hhi : s.dcNs < (s.geo.t0 + (j + 1) * 1000000000 / 24 : Nat)) :
    exec .holdRefresh s = .next (s.holdRefresh j) := by
  have hany : ((List.range 16).any fun p => s.portActive p || (s.portState p == 1 && (s.port p).ready)) = true := by
    obtain ⟨p, hp, hs⟩ := ha
    refine List.any_eq_true.2 ⟨p, List.mem_range.2 hp, ?_⟩
    obtain hs | ⟨hs, hr⟩ := hs
    · simp [State.portActive, hs]
    · simp [hs, hr]
  refine (exec_pos rfl (by rw [h1, hany, State.rdB, hv]; rfl)).trans (congrArg _ ?_)
  rw [State.holdIndex_eq hlo hhi]

/-- What it shows. -/
theorem State.holdRefresh_shows (s : State) (j : Nat) :
    (s.holdRefresh j).pwr = { s.pwr with holds := s.pwr.holds + 1, holdLine := some 1 } ∧ (s.holdRefresh j).live = s.live ∧
      (∀ p ∈ s.portsUsed, s.portState p = 2 → ∀ i < 6, s.txLive (6 * p + i) = true → ∃ o ∈ (s.holdRefresh j).out, HeldBlock p i o) ∧
      HoldKept (s.holdPulse j) (s.holdRefresh j) := by
  obtain ⟨hhold, hlive, hpwr⟩ := s.holdPulse_shows j
  obtain ⟨hnpwr, hnlive, -⟩ := (s.holdPulse j).holdNext_parts 0
  rw [State.holdRefresh_eq]
  refine ⟨?_, hnlive.trans hlive, fun p hp h2 i hi h => ?_, (s.holdPulse j).holdNext_hold 0⟩
  · rw [hnpwr, hpwr, if_pos (by omega)]
  · exact State.holdNext_sends (by rw [State.portsUsed_of_live hlive]; exact hp) (hhold.active p h2) hi ((hhold.txLive _).trans h)

end Sys2Proof.Machine
end

section
/-!
PROOFS. The ends of transitions and hold refreshes (chapter 16).
-/
namespace Sys2Proof.Machine

/-- Settles O52: entry to S3 waits for LEAVE and powers the rope and the time unit down, the return clears memory, and a hold refresh
sends FSTROBE's pulse and line 0 with what its steps leave of the ports. -/
theorem transitionsEndAndHoldsRefresh : Obligations.TransitionsEndAndHoldsRefresh := by
  unfold Obligations.TransitionsEndAndHoldsRefresh
  refine ⟨fun s ha hd => pmcsrD3hot_enters ha hd, fun s hd h3 => pmcsrD0_returns hd h3, fun s hd ha => pmcsrD0_awake hd ha,
    fun s hd h3 => pmcsrD3hot_s3 hd h3, fun s h hl => transDone_waits h hl, fun s h hu hn => ?_, fun s h hwarn => ?_,
    fun s h => transDone_s1 h, fun s hev h => transDone_s2 hev h, fun j s h1 hv ha hlo hhi => ?_, fun i s h1 hi => lineStart_held h1 hi⟩
  · obtain ⟨t, he, hst, htrans, hbusy, hraised, hin⟩ := transDone_toS3 h hu hn
    exact ⟨t, he, hst, htrans, hbusy, hraised, hin.time.valid, hin.time.locked, hin.time.raw, hin.time.tsq, hin.time.tev,
      hin.time.started, hin.left, hin.addr, hin.held, hin.states.1, hin.states.2, hin.lanes, hin.lines, hin.live,
      fun _ _ hup hver hl htx => hin.leaveOut hup hver hl htx⟩
  · by_cases h3 : s.pwr.st = .s3
    · obtain ⟨hd, ho, hp⟩ := hwarn h3
      obtain ⟨t, he, hback, htrans, hbusy, hraised, hlive, hmem⟩ := transDone_s3 h h3 hd ho hp
      exact ⟨t, he, hback, htrans, hbusy, hraised, hlive, fun hn => absurd h3 hn, fun _ => hmem⟩
    · obtain ⟨t, he, hback, htrans, hbusy, hraised, hlive, hmem⟩ := transDone_s0 h h3
      exact ⟨t, he, hback, htrans, hbusy, hraised, hlive, fun _ => hmem, fun h => absurd h h3⟩
  · obtain ⟨hpwr, hlive, hsent, hpulse⟩ := s.holdRefresh_shows j
    refine ⟨_, holdRefresh_starts h1 hv ha hlo hhi, hpwr, hlive, fun p hp h2 i hi htx => ?_, fun hen hcomp hlevel =>
      hpulse.out _ (s.holdPulse_edge hen hcomp hlevel)⟩
    obtain ⟨o, ho, fl, f, hfl, rfl⟩ := hsent p hp h2 i hi htx
    exact ⟨fl, f, hfl, ho⟩

end Sys2Proof.Machine
end
